-- ==== Sys2Proof/Word.lean ====
section
/-! DEFINITION. The plain words the model computes with. -/

namespace Sys2Proof

/-- A byte. -/
abbrev Byte := BitVec 8

/-- A byte string, byte 0 first (R13). -/
abbrev Bytes := List Byte

/-- A 64-bit register or memory word. -/
abbrev W64 := BitVec 64

/-- A 128-bit SIMD or product word (R365). -/
abbrev W128 := BitVec 128

/-- A 32-bit word. -/
abbrev W32 := BitVec 32

end Sys2Proof
end

