-- ==== Sys2Proof/Syntax.lean ====
section
/-! DEFINITION. The commands of the module: the rows of spec/opcode_table.json, and the data an event
carries in from outside. Operands are what the spec lets the outside decide (a packet's bytes, a decoded
outcome, a measured figure); see notes/assumptions/1.md. -/

namespace Sys2Proof

/-- The two ports (R2). -/
inductive PortId where
  | A | B
  deriving DecidableEq, Repr

/-- A die: ward, channel-in-ward, position (R6). -/
structure DieId where
  ward : Nat
  ch : Nat
  pos : Nat
  deriving DecidableEq, Repr

/-- A member of a die row (R25): ward, die row, member number 0 to 35. -/
structure Member where
  ward : Nat
  row : Nat
  idx : Nat
  deriving DecidableEq, Repr

/-- One plane-block of a die: the plane and the zone slot it serves (R239). -/
structure PlaneBlock where
  die : DieId
  plane : Nat
  slot : Nat
  deriving DecidableEq, Repr

/-- An outstanding command: function, submission ring and tag (R137). -/
structure Ref where
  fn : Nat
  sq : Nat
  tag : Nat
  deriving DecidableEq, Repr

/-- A logical stream core (R376). -/
structure CoreId where
  hamlet : Nat
  core : Nat
  deriving DecidableEq, Repr

/-- A five-bit register field of an instruction word (R393). -/
abbrev Reg := BitVec 5

/-- What is measured at a bell boundary: usable hold-up energy in 0.1 J (R311), input in mV (R591),
metered flash power of the closed bell in 0.1 W, the DRAM channels whose drain ran over, each with the lines
that the time it overran would have drained (R53, R57), and the receive-buffer occupancy in KiB of the lossless priorities
(R67), by port number * 8 + priority; one not listed is empty.
`wq` are the lines in the write queue of each DRAM channel (R467). -/
structure BellEnv where
  energy : Nat
  inputMv : Nat
  flashPower : Nat
  drainLate : List (Nat × Nat)
  rxFill : List (Nat × Nat)
  wq : List (Nat × Nat)
  deriving DecidableEq, Repr

/-- The outcome of sensing and decoding one codeword (R257, R258): the first step of the ladder at which the syndrome is zero,
11 when it is at none; the iterations; the corrections upward and downward at the 15 thresholds (R275); and the protected
bytes decoded, none where they are those written. -/
structure Decode where
  step : Nat
  iters : Nat
  up : List Nat
  down : List Nat
  img : Option Bytes
  deriving DecidableEq, Repr

/-- What training finds at one position of a channel (R269): its read and write eye in 1/256 UI, and whether it answers with
the identity of its ward table entry. -/
structure PosTrain where
  rd : Nat
  wr : Nat
  ident : Bool
  deriving DecidableEq, Repr

/-- One training attempt of a channel (R269): whether its shared steps 1 to 3 pass, and what is found at positions 0 to 27; a
position past the end of the list answers nothing. -/
structure Train where
  shared : Bool
  pos : List PosTrain
  deriving DecidableEq, Repr

/-- A UDP datagram at the knock port (R83): whether its checksum holds, its UDP destination port, its
payload, and its source and destination addresses (IPv4 as ::ffff:a.b.c.d). -/
structure KnockPkt where
  udpOk : Bool
  dstPort : Nat
  payload : Bytes
  src : W128
  dst : W128
  deriving DecidableEq, Repr

/-- An error that has struck a row of the sieve array (R454, R456): the row, the byte and bit upset, and whether the cell is stuck, so
that a repair's read-back still differs. -/
structure SieveUpset where
  row : Nat
  byte : Nat
  bit : Nat
  stuck : Bool
  deriving DecidableEq, Repr

/-- One of the queue pairs of a function (R71): its port, and whether it is the event queue pair. -/
structure QpAt where
  port : PortId
  ev : Bool
  deriving DecidableEq, Repr

/-- A responder request Table 3.2 does not admit (R71). -/
inductive BadRequest where
  /-- an unsupported operation -/
  | unsupported
  /-- an admitted operation outside its window, from a function not admitted, or with a wrong rkey -/
  | access
  deriving DecidableEq, Repr

/-- A NAK answering a request of the module (R75): the AETH syndrome, the operation it answers, and the byte of that
operation's data at which the host end refused it. -/
structure NakInfo where
  syndrome : Byte
  ev : Bool
  opIndex : Nat
  at_ : Nat
  deriving DecidableEq, Repr

/-- A connection-manager REQ (R73, Table 3.7). -/
structure CmReq where
  sid : W64
  qpn : Nat
  rqpn : BitVec 24
  psn : BitVec 24
  mtu : Nat
  timeout : Nat
  retry : Nat
  rnr : Nat
  src : W128
  deriving DecidableEq, Repr

/-- The VLAN tagging of a received frame (R64). -/
inductive VlanTag where
  | none
  | vid (v : Nat)
  | service
  deriving DecidableEq, Repr

/-- Why a received frame is refused (R64, R65, R69, R70). -/
inductive DropWhy where
  | serviceTag
  | otherVlan
  | ipv4Fragment
  | ipv4Options
  | ipv6Extension
  | overMtu (len : Nat)
  | icrc
  | lldp
  deriving DecidableEq, Repr

/-- An Announce message (R87): the port identity of the transmitter that sent it, the fields the best master clock algorithm
ranks, as one number (lower is better), and the domain. -/
structure Announce where
  src : Nat
  domain : Nat
  rank : Nat
  deriving DecidableEq, Repr

/-- Where a PTP message comes in (R87): the port identity of its transmitter, and its domain. -/
structure PtpSource where
  src : Nat
  domain : Nat
  deriving DecidableEq, Repr

/-- A Delay_Resp (R87): its transmitter, and the path delay in ns it completes. -/
structure DelayResp where
  src : Nat
  delayNs : Int
  deriving DecidableEq, Repr

/-- What CMIS reports of an optical module (R61). -/
structure OpticsInfo where
  advPower : Nat
  temp : Int
  vcc : Nat
  lanes : List Nat
  id : Bytes
  deriving DecidableEq, Repr

/-- Who writes the set-up window (R569, R584): a function over RDMA through a port, or the SMBus. -/
inductive Writer where
  | rdma (fn : Nat) (p : PortId)
  | smbus
  deriving DecidableEq, Repr

/-- The counts a requested scrub ends with (Table 17.6). -/
structure ScrubSum where
  ce1 : Nat
  ce2 : Nat
  ue : Nat
  remapped : Nat
  first : Nat
  firstClass : Nat
  deriving DecidableEq, Repr

/-- An uncorrectable DRAM word (R473): the rank it lies in, whether it has a mirror copy, the job in whose DRAM window it lies and its
offset there, if any, and whether a load, atomic or DMA read of that job met it. -/
structure DramHit where
  rank : Nat
  addr : Nat
  mirrored : Bool
  job : Option Nat
  winOff : Nat
  read : Bool
  deriving DecidableEq, Repr

/-- A hard-faulty place (R478): a DRAM word of a rank, or a word of an SRAM macro. -/
inductive RemapPlace where
  | dram (rank addr : Nat)
  | sram (mac addr : Nat)
  deriving DecidableEq, Repr

/-- A word of the hamlet data of a job that was rewritten as poisoned (R473): job, hamlet, offset / 8. -/
structure SharePlace where
  job : Nat
  hamlet : Nat
  word : Nat
  deriving DecidableEq, Repr

/-- What a firmware scrub pass met (R476): words corrected with one and with two bits in error, words
uncorrectable, the words corrected by DRAM rank but for those a REMAP counts, whether a full DRAM pass ended, and the words of hamlet
data that were uncorrectable. -/
structure ScrubPassRes where
  ce1 : Nat
  ce2 : Nat
  ue : Nat
  byRank : List (Nat × Nat)
  dramEnd : Bool
  shares : List SharePlace
  deriving DecidableEq, Repr

/-- The wake triggers of R532. -/
inductive WakeBy where
  | knock | poll | manager | unadmitted
  deriving DecidableEq, Repr

/-- Internal work falling due (R534). -/
inductive DueWork where
  | rebuild | patrol | retention | spare
  deriving DecidableEq, Repr

/-- What a boot meets (R557): the outcome of each test, and what the outside fixes. A list of parts names those that FAIL.
`chans` holds the training attempts of channels (R269); a channel not listed passes its first, with eyes `eye`. `badShares` are
the data shares (slot, row, share) of incomplete rows that a restore cannot read (R325). `rankEye` are the eyes of the DRAM ranks
that pass (R468), `fillBad` the ranks that fail as they are filled (step 7), `sieveBad` the physical rows that fail the array self-test (R456). `stepMs` is when each of the steps 2 to
13 begins, in ms of the boot. `usable` is the bank's usable energy when the restore has ended, in 0.1 J (R311, R327), `manifestOk` whether the
manifest of the newest dump decodes (R324). -/
structure BootEnv where
  romOk : Bool
  bankBad : List Nat
  sramOk : Bool
  ranksBad : List Nat
  rankEye : Nat × Nat
  fillBad : List Nat
  coresOk : Nat
  chans : List (Nat × List Train)
  eye : Nat × Nat
  metaOk : Bool
  badShares : List (Nat × Nat × Nat)
  sieveBad : List Nat
  inputHeld : Bool
  cellOk : Bool
  inletTemp : Int
  elapsed : Int
  stepMs : List Nat
  ms : Nat
  usable : Nat
  manifestOk : Bool
  deriving DecidableEq, Repr

/-- The commands and events of spec/opcode_table.json, one constructor per row. -/
inductive Instr where
  /-- BELL_BOUNDARY (R36). The bell generator opens a new bell, raises the bell number and hands the closed plans to the parts that carry them out. -/
  | bellBoundary (e : BellEnv)
  /-- PLAN_CLOSE (R42). 2 µs before the boundary the plan for the next bell closes and work not in it is deferred. -/
  | planClose (late : List Nat) (badBlank : List PlaneBlock)
  /-- READ_POINT (R44). At a read point the channel engine issues queued host read and reconstruction slices inside the read window. -/
  | readPoint (chan : Nat)
  /-- SUSPEND_RESPONSE (R46). A die reports suspended and its planned read begins. -/
  | suspendResponse (d : DieId)
  /-- SUSPEND_LATE (R57). A suspend response later than 6 µs sends the read to reconstruction and logs SUSPEND_LATE. -/
  | suspendLate (d : DieId) (tenths : Nat)
  /-- ARRAY_READ_COMPLETE (R257). A die's tR ends, the codeword is transferred and inner decoding runs. -/
  | arrayReadComplete (d : DieId) (xs : List Decode)
  /-- PROGRAM_COMPLETE (R260). A die program of one program unit ends and the staged unit leaves staging. -/
  | programComplete (d : DieId)
  /-- PROGRAM_FAILURE (R297). A failed program retires the plane-block and starts relocation of its block group. -/
  | programFailure (d : DieId) (plane : Nat)
  /-- ERASE_COMPLETE (R286). A block erase ends and its blocks become usable. -/
  | eraseComplete (d : DieId)
  /-- ERASE_FAILURE (R297). A failed erase retires the plane-block at once. -/
  | eraseFailure (d : DieId) (plane : Nat)
  /-- DIE_OP_OVERRUN (R57). A die operation runs past its planned end; the die stays busy and later operations move back. -/
  | dieOpOverrun (d : DieId)
  /-- DIE_NO_RESPONSE (R298). A die that answers no command for 10 ms is declared failed. -/
  | dieNoResponse (d : DieId)
  /-- REBUILD_WORD_LINE (R301). The ward engine reconstructs one word line of the failed member and programs it on the spare die. -/
  | rebuildWordLine (m : Member)
  /-- BLOCK_GROUP_PASS (R302). A rebuilt block group passes to the spare die at the next bell boundary. -/
  | blockGroupPass (m : Member)
  /-- CHANNEL_RECENTRE (R271). Every 65,536 bells a channel re-centres its eyes and is sent to retrain below 0.25 UI. -/
  | channelRecentre (chan rdEye wrEye : Nat)
  /-- CHANNEL_FAULT (R272). An interface timeout or loss of response from all targets sends the channel to RETRAINING. -/
  | channelFault (chan : Nat)
  /-- CHANNEL_RETRAIN_BEGIN (R273). A planned retrain begins once no die row of the ward would exceed four unable members. -/
  | channelRetrainBegin (chan : Nat)
  /-- CHANNEL_RETRAIN_RESULT (R272). A retrain attempt passes or fails; a third consecutive failure makes the channel FAILED. -/
  | channelRetrainResult (chan : Nat) (common : Bool) (pos : List PosTrain)
  /-- CHANNEL_RETRAIN_RETRY (R272). 1 ms after a failed retrain attempt the next attempt starts. -/
  | channelRetrainRetry (chan : Nat)
  /-- CHECKPOINT_BEGIN (R285). At a bell that is a multiple of 16,384 a map-journal checkpoint begins, or is skipped if one is running. -/
  | checkpointBegin
  /-- CHECKPOINT_COMPLETE (R285). All checkpoint programs complete; GLN_CKPT_BELL updates and queued blocks may be erased. -/
  | checkpointComplete
  /-- RANDOM_AREA_RECLAIM (R290). With four or fewer free random-area slots in a ward the gleaner reclaims the victim slot with fewest valid units. -/
  | randomAreaReclaim (ward : Nat)
  /-- RELOCATION (R293). The gleaner copies a block group to fresh blocks for refresh or retirement. -/
  | relocation (d : DieId) (slot : Nat)
  /-- RELOCATION_COMMIT (R286). Once copies are programmed the map-journal record is made durable unless a host commit intervened. -/
  | relocationCommit (d : DieId) (slot : Nat)
  /-- PATROL_READ (R296). The channel engine patrols programmed word lines to keep the 7-day and 200,000-read limits. -/
  | patrolRead (d : DieId) (slot wl cw : Nat)
  /-- PARKING_COMPLETE (R235). The parking program of a closed zone's partial state completes and the staging copy is released. -/
  | parkingComplete (h z : Nat)
  /-- HELD_SLOT_RELEASE (R343). A slot held for a SCAN is released once the job has read its zone or ends, and a waiting OPEN binds it. -/
  | heldSlotRelease (slot : Nat)
  /-- STAGING_DRAIN (R29). The planned staging drain writes queued staging data to both mirror copies. -/
  | stagingDrain
  /-- WATERMARK_BATCH (R467). A DRAM write queue reaching 48 lines is drained by a planned watermark batch. -/
  | watermarkBatch (chan : Nat)
  /-- DOORBELL_POLL_ISSUE (R55). The ring engine issues the RDMA READ of a doorbell page due at its phase, or deferred. -/
  | doorbellPollIssue (fn page : Nat)
  /-- DOORBELL_POLL_RESPONSE (R133). The doorbell page arrives and each word is judged: stale, no change, advanced or invalid. -/
  | doorbellPollResponse (fn page : Nat) (words : List W64)
  /-- RING_DOZE (R134). A ring not advanced for 256 bells becomes DOZING. -/
  | ringDoze (fn sq : Nat)
  /-- KNOCK (R84). A knock datagram is accepted or discarded; an accepted knock plans a poll for the next bell and is a wake trigger. -/
  | knock (p : PortId) (k : KnockPkt)
  /-- ENTRY_FETCH_RESPONSE (R136). Submission entries arrive, FETCHED advances and the entries are checked in ring order. -/
  | entryFetchResponse (fn sq : Nat) (data : Bytes)
  /-- HEAD_WORD_RESPONSE (R144). A completion ring head word arrives and HEAD_SEEN is updated or the word ignored. -/
  | headWordResponse (fn cq : Nat) (w : W64)
  /-- CHAINED_LIST_RESPONSE (R141). A command's chained list arrives and the buffer checks run. -/
  | chainedListResponse (r : Ref) (data : Bytes)
  /-- PARAMETER_BLOCK_RESPONSE (R193). A command's parameter block arrives and its fields are checked. -/
  | parameterBlockResponse (r : Ref) (data : Bytes)
  /-- DATA_READ_RESPONSE (R156). Write data arrives, is encrypted and queued for staging. -/
  | dataReadResponse (r : Ref) (data : Bytes)
  /-- COMMAND_DEFERRED_START (R107). A checked command waiting for a rate bucket, FLUSH, staging room or dump limit starts. -/
  | commandDeferredStart (r : Ref)
  /-- COMMAND_COMMIT (R156). A state-changing command reaches its commit point after its data is mirrored, and takes a ledger number. -/
  | commandCommit (r : Ref)
  /-- COMPLETION_ACK (R149). The host end acknowledges completion writes, releasing notifications and abort completions that wait on them. -/
  | completionAck (fn cq n : Nat)
  /-- NOTIFY_DEADLINE (R148). A pending notification whose CO_BELLS deadline is reached is sent in that bell. -/
  | notifyDeadline (fn cq : Nat)
  /-- INTERNAL_TIMEOUT (R182). A started command not past its decision point after 2 s completes with INTERNAL_TIMEOUT. -/
  | internalTimeout (r : Ref) (unit : Nat)
  /-- DRAIN_END (R95). Every completion and notification of a quiescing function is acknowledged and it enters QUIESCED. -/
  | drainEnd (fn : Nat)
  /-- READ (R198). READ returns COUNT units of a zone, zeros above the write pointer. -/
  | read (r : Ref)
  /-- WRITE (R199). WRITE stores COUNT units at OFFSET in an OPEN zone. -/
  | write (r : Ref)
  /-- ZONE_APPEND (R201). ZONE APPEND stores COUNT units at the zone's next pointer and reports the offset. -/
  | zoneAppend (r : Ref)
  /-- OPEN (R205). OPEN moves a zone to OPEN, binding and reserving a slot for an EMPTY zone. -/
  | openZone (r : Ref)
  /-- CLOSE (R235). CLOSE moves an OPEN zone to CLOSED and parks its partial state. -/
  | closeZone (r : Ref)
  /-- FINISH (R237). FINISH pads and completes the current stripe row and makes the zone FULL. -/
  | finishZone (r : Ref)
  /-- RESET (R204). RESET returns a zone to EMPTY and releases its slot. -/
  | resetZone (r : Ref)
  /-- REPORT_ZONES (R207). REPORT ZONES writes a 16-byte descriptor for each of COUNT zones. -/
  | reportZones (r : Ref)
  /-- RANDOM_READ (R210). RANDOM READ returns COUNT random-area units, zeros for unwritten ones. -/
  | randomRead (r : Ref)
  /-- RANDOM_WRITE (R209). RANDOM WRITE stores COUNT random-area units within the holding's allowance. -/
  | randomWrite (r : Ref)
  /-- RANDOM_TRIM (R210). RANDOM TRIM makes COUNT random-area units unwritten. -/
  | randomTrim (r : Ref)
  /-- FLUSH (R166). FLUSH holds later commands of its ring until earlier state-changing commands complete. -/
  | flush (r : Ref)
  /-- ABORT (R187). ABORT targets an outstanding command of a ring by tag and resolves as Table 6.5. -/
  | abort (r : Ref)
  /-- RESTART_RING (R178). RESTART RING unfreezes a ring in RESUME or DISCARD mode once its started commands complete. -/
  | restartRing (r : Ref)
  /-- SCAN (R212). SCAN creates a job that filters listed zones through the gates. -/
  | scan (r : Ref)
  /-- RUN (R213). RUN creates a job that runs a program package on the stream cores. -/
  | run (r : Ref)
  /-- SIEVE_WRITE (R215). SIEVE WRITE writes one row image to an owned row. -/
  | sieveWrite (r : Ref)
  /-- SIEVE_WRITE_PAIR (R215). SIEVE WRITE PAIR writes two rows in one array update cycle. -/
  | sieveWritePair (r : Ref)
  /-- SIEVE_LOOKUP (R216). SIEVE LOOKUP matches a 40-byte key against owned rows and returns the winner and a cursor. -/
  | sieveLookup (r : Ref)
  /-- SIEVE_STEP (R450). SIEVE STEP returns the next match after a cursor's position. -/
  | sieveStep (r : Ref)
  /-- SEM_ACQUIRE (R115). SEM ACQUIRE acquires or renews a semaphore with a lease. -/
  | semAcquire (r : Ref)
  /-- SEM_RELEASE (R115). SEM RELEASE frees a semaphore held by the requester. -/
  | semRelease (r : Ref)
  /-- SEM_BREAK (R115). SEM BREAK frees a breakable semaphore. -/
  | semBreak (r : Ref)
  /-- SEM_READ (R217). SEM READ returns the semaphore word. -/
  | semRead (r : Ref)
  /-- GET_LOG (R218). GET LOG writes bytes of the ring error log, event log, telemetry or wear report. -/
  | getLog (r : Ref)
  /-- CREATE_RING (R125). CREATE RING creates a ring from a ring block and reports its GEN. -/
  | createRing (r : Ref)
  /-- DELETE_RING (R125). DELETE RING removes an idle ring. -/
  | deleteRing (r : Ref)
  /-- SET_RING_NOTIFY (R148). SET RING NOTIFY changes a completion ring's notification attributes from the next boundary. -/
  | setRingNotify (r : Ref)
  /-- SET_LATENCY_TOLERANCE (R529). SET LATENCY TOLERANCE declares the function's tolerance and completes once an admitted state is reached. -/
  | setLatencyTolerance (r : Ref)
  /-- ADD_FUNCTION (R94). ADD FUNCTION creates a tenant function with its resources, doorbell page and admin rings. -/
  | addFunction (r : Ref)
  /-- QUIESCE_FUNCTION (R95). QUIESCE FUNCTION stops fetching for a function and drains it. -/
  | quiesceFunction (r : Ref)
  /-- RESUME_FUNCTION (R94). RESUME FUNCTION returns a quiesced function to ACTIVE. -/
  | resumeFunction (r : Ref)
  /-- RESET_FUNCTION (R97). RESET FUNCTION returns a quiesced function to the state of a newly added one. -/
  | resetFunction (r : Ref)
  /-- REMOVE_FUNCTION (R98). REMOVE FUNCTION releases everything a quiesced tenant held. -/
  | removeFunction (r : Ref)
  /-- SET_FUNCTION_RESOURCES (R104). SET FUNCTION RESOURCES replaces a tenant's resource grants. -/
  | setFunctionResources (r : Ref)
  /-- CREATE_HOLDING (R101). CREATE HOLDING creates a holding with its limits and a new key. -/
  | createHolding (r : Ref)
  /-- SET_HOLDING (R102). SET HOLDING changes a holding's quota, limits or policy. -/
  | setHolding (r : Ref)
  /-- ASSIGN_HOLDING (R103). ASSIGN HOLDING moves ownership of a holding to another tenant. -/
  | assignHolding (r : Ref)
  /-- DELETE_HOLDING (R103). DELETE HOLDING destroys a holding and crypto-erases its key. -/
  | deleteHolding (r : Ref)
  /-- SET_CALENDAR (R225). SET CALENDAR sets the calendar time at its commit point. -/
  | setCalendar (r : Ref)
  /-- FIRMWARE_DOWNLOAD (R500). FIRMWARE DOWNLOAD writes sectors of the inactive loft bank. -/
  | firmwareDownload (r : Ref)
  /-- FIRMWARE_ACTIVATE (R565). FIRMWARE ACTIVATE verifies, selects and prepares the inactive image. -/
  | firmwareActivate (r : Ref)
  /-- ACTIVATION_HANDOVER (R566). At a bell boundary the control cores hand over to the new image and the activation closes. -/
  | activationHandover (ok : Bool)
  /-- MODULE_RESET (R227). MODULE RESET commits and completes, then the module reset of R188 begins. -/
  | moduleReset (r : Ref) (e : BootEnv)
  /-- LIFE_CYCLE_TRANSITION (R539). LIFE CYCLE TRANSITION checks a signed token and blows the fuse for SEAL, RETURN, REFURBISH or SCRAP. -/
  | lifeCycleTransition (r : Ref) (e : BootEnv)
  /-- REFURBISH_ERASE_COMPLETE (R544). The REFURBISH media erase ends and REFURBS is blown. -/
  | refurbishEraseComplete (bad : List PlaneBlock) (e : BootEnv)
  /-- ATTEST (R555). ATTEST signs a report over a nonce with the attestation key. -/
  | attest (r : Ref)
  /-- JOB_LOAD_START (R335). A queued job whose resources become available enters LOADING. -/
  | jobLoadStart (j : Nat)
  /-- JOB_LOADED (R338). Loading completes and the job enters RUNNING, taking a ledger number. -/
  | jobLoaded (j : Nat)
  /-- JOB_LOAD_TIMEOUT (R338). A job not RUNNING 2 s after LOADING ends with INTERNAL_TIMEOUT. -/
  | jobLoadTimeout (j : Nat)
  /-- JOB_TIME_LIMIT (R391). TIME_LIMIT bells elapse in RUNNING and the job faults. -/
  | jobTimeLimit (j : Nat)
  /-- JOB_STOP (R339). A RUNNING job stopped by ABORT, quiesce or reset ends within 1 ms. -/
  | jobStop (j : Nat)
  /-- JOB_COMPLETE (R387). All input and items are consumed and output delivered; the job completes. -/
  | jobComplete (j : Nat)
  /-- BATCH_POST (R355). A full or final scan batch is posted to the stage or delivered as output. -/
  | batchPost (j ward : Nat)
  /-- GATE_CONTEXT_PAUSE (R356). A gate with no batch space pauses its context until a batch is freed. -/
  | gateContextPause (j ward : Nat)
  /-- OUTPUT_APPEND (R363). Each 16 MiB of zone output is appended to the output zone with its own ledger number. -/
  | outputAppend (j : Nat)
  /-- OUTPUT_PAUSE (R340). With no port UP a job pauses when its undelivered output fills its buffer, and resumes later. -/
  | outputPause (j : Nat)
  /-- QUANTUM_ASSIGNMENT (R422). During each bell the dispatcher assigns and places the next bell's quanta. -/
  | quantumAssignment
  /-- QUANTUM_END (R428). At the end of a quantum an item continues or is parked. -/
  | quantumEnd (c : CoreId)
  /-- SLOT_FILL (R426). The dispatcher fills a core's prefetch slot with its next eligible item. -/
  | slotFill (c : CoreId)
  /-- ITEM_START (R382). A work item starts on a core with its registers set to known values. -/
  | itemStart (c : CoreId)
  /-- CORE_RETIRE (R432). A faulty stream core is retired and a spare takes its logical number. -/
  | coreRetire (hamlet phys : Nat)
  /-- CORE_SELF_TEST (R432). The dispatcher self-tests a physical core in an idle quantum. -/
  | coreSelfTest (hamlet phys : Nat) (ok : Bool)
  /-- CONTROL_CORE_RETIRE (R512). A faulty control core is retired and a spare takes over its work. -/
  | controlCoreRetire (core : Nat) (e : BootEnv)
  /-- ADD (R397). rd receives rs1 + rs2. -/
  | add (c : CoreId) (rd rs1 rs2 : Reg)
  /-- SUB (R397). rd receives rs1 − rs2. -/
  | sub (c : CoreId) (rd rs1 rs2 : Reg)
  /-- AND (R397). rd receives rs1 AND rs2. -/
  | and_ (c : CoreId) (rd rs1 rs2 : Reg)
  /-- OR (R397). rd receives rs1 OR rs2. -/
  | or_ (c : CoreId) (rd rs1 rs2 : Reg)
  /-- XOR (R397). rd receives rs1 XOR rs2. -/
  | xor (c : CoreId) (rd rs1 rs2 : Reg)
  /-- ANDN (R397). rd receives rs1 AND NOT rs2. -/
  | andn (c : CoreId) (rd rs1 rs2 : Reg)
  /-- SLL (R397). rd receives rs1 shifted left. -/
  | sll (c : CoreId) (rd rs1 rs2 : Reg)
  /-- SRL (R397). rd receives rs1 shifted right with zero fill. -/
  | srl (c : CoreId) (rd rs1 rs2 : Reg)
  /-- SRA (R397). rd receives rs1 shifted right with sign fill. -/
  | sra (c : CoreId) (rd rs1 rs2 : Reg)
  /-- ROR (R397). rd receives rs1 rotated right. -/
  | ror (c : CoreId) (rd rs1 rs2 : Reg)
  /-- SEQ (R397). rd receives 1 if rs1 equals rs2. -/
  | seq (c : CoreId) (rd rs1 rs2 : Reg)
  /-- SNE (R397). rd receives 1 if rs1 differs from rs2. -/
  | sne (c : CoreId) (rd rs1 rs2 : Reg)
  /-- SLT (R397). rd receives 1 if rs1 < rs2 signed. -/
  | slt (c : CoreId) (rd rs1 rs2 : Reg)
  /-- SLTU (R397). rd receives 1 if rs1 < rs2 unsigned. -/
  | sltu (c : CoreId) (rd rs1 rs2 : Reg)
  /-- MIN (R397). rd receives the signed minimum. -/
  | min (c : CoreId) (rd rs1 rs2 : Reg)
  /-- MAX (R397). rd receives the signed maximum. -/
  | max (c : CoreId) (rd rs1 rs2 : Reg)
  /-- MINU (R397). rd receives the unsigned minimum. -/
  | minu (c : CoreId) (rd rs1 rs2 : Reg)
  /-- MAXU (R397). rd receives the unsigned maximum. -/
  | maxu (c : CoreId) (rd rs1 rs2 : Reg)
  /-- CLZ (R397). rd receives the leading zero count of rs1. -/
  | clz (c : CoreId) (rd rs1 rs2 : Reg)
  /-- CTZ (R397). rd receives the trailing zero count of rs1. -/
  | ctz (c : CoreId) (rd rs1 rs2 : Reg)
  /-- POPC (R397). rd receives the set-bit count of rs1. -/
  | popc (c : CoreId) (rd rs1 rs2 : Reg)
  /-- BSWAP (R397). rd receives rs1 with its bytes reversed. -/
  | bswap (c : CoreId) (rd rs1 rs2 : Reg)
  /-- ADDI (R398). rd receives rs1 plus sign-extended IMM16. -/
  | addi (c : CoreId) (rd rs1 : Reg) (imm : BitVec 16)
  /-- ANDI (R398). rd receives rs1 AND zero-extended IMM16. -/
  | andi (c : CoreId) (rd rs1 : Reg) (imm : BitVec 16)
  /-- ORI (R398). rd receives rs1 OR zero-extended IMM16. -/
  | ori (c : CoreId) (rd rs1 : Reg) (imm : BitVec 16)
  /-- XORI (R398). rd receives rs1 XOR zero-extended IMM16. -/
  | xori (c : CoreId) (rd rs1 : Reg) (imm : BitVec 16)
  /-- SLTI (R398). rd receives 1 if rs1 is below sign-extended IMM16, signed. -/
  | slti (c : CoreId) (rd rs1 : Reg) (imm : BitVec 16)
  /-- SLTIU (R398). rd receives 1 if rs1 is below sign-extended IMM16, unsigned. -/
  | sltiu (c : CoreId) (rd rs1 : Reg) (imm : BitVec 16)
  /-- SLLI (R398). rd receives rs1 shifted left by IMM16[5:0]. -/
  | slli (c : CoreId) (rd rs1 : Reg) (imm : BitVec 16)
  /-- SRLI (R398). rd receives rs1 shifted right with zero fill by IMM16[5:0]. -/
  | srli (c : CoreId) (rd rs1 : Reg) (imm : BitVec 16)
  /-- SRAI (R398). rd receives rs1 shifted right with sign fill by IMM16[5:0]. -/
  | srai (c : CoreId) (rd rs1 : Reg) (imm : BitVec 16)
  /-- CATI (R398). rd is shifted left 16 bits and IMM16 placed in its low bits. -/
  | cati (c : CoreId) (rd z : Reg) (imm : BitVec 16)
  /-- CRC32C_B (R399). Advances a CRC-32C state over one byte of rs2. -/
  | crc32cB (c : CoreId) (rd rs1 rs2 : Reg)
  /-- CRC32C_H (R399). Advances a CRC-32C state over two bytes of rs2. -/
  | crc32cH (c : CoreId) (rd rs1 rs2 : Reg)
  /-- CRC32C_W (R399). Advances a CRC-32C state over four bytes of rs2. -/
  | crc32cW (c : CoreId) (rd rs1 rs2 : Reg)
  /-- CRC32C_D (R399). Advances a CRC-32C state over eight bytes of rs2. -/
  | crc32cD (c : CoreId) (rd rs1 rs2 : Reg)
  /-- BEQ (R400). Branches if rs1 equals rs2. -/
  | beq (c : CoreId) (rs1 rs2 : Reg) (disp : BitVec 16)
  /-- BNE (R400). Branches if rs1 differs from rs2. -/
  | bne (c : CoreId) (rs1 rs2 : Reg) (disp : BitVec 16)
  /-- BLT (R400). Branches if rs1 < rs2 signed. -/
  | blt (c : CoreId) (rs1 rs2 : Reg) (disp : BitVec 16)
  /-- BGE (R400). Branches if rs1 ≥ rs2 signed. -/
  | bge (c : CoreId) (rs1 rs2 : Reg) (disp : BitVec 16)
  /-- BLTU (R400). Branches if rs1 < rs2 unsigned. -/
  | bltu (c : CoreId) (rs1 rs2 : Reg) (disp : BitVec 16)
  /-- BGEU (R400). Branches if rs1 ≥ rs2 unsigned. -/
  | bgeu (c : CoreId) (rs1 rs2 : Reg) (disp : BitVec 16)
  /-- J (R400). Jumps PC-relative. -/
  | j (c : CoreId) (disp : BitVec 26)
  /-- CALL (R400). Jumps PC-relative and writes the return address to g31. -/
  | call (c : CoreId) (disp : BitVec 26)
  /-- JALR (R400). Jumps to rs1 plus offset and writes the return address to rd. -/
  | jalr (c : CoreId) (rd rs1 : Reg) (imm : BitVec 16)
  /-- LD (R401). Loads 1 to 8 bytes through an address register with its update mode. -/
  | ld (c : CoreId) (rt : Reg) (ak : BitVec 3) (upd sz : BitVec 2) (sx : Bool) (imm : BitVec 13)
  /-- ST (R401). Stores 1 to 8 bytes through an address register with its update mode. -/
  | st (c : CoreId) (rt : Reg) (ak : BitVec 3) (upd sz : BitVec 2) (sx : Bool) (imm : BitVec 13)
  /-- LDQ (R401). Loads 16 bytes into a w register. -/
  | ldq (c : CoreId) (rt : Reg) (ak : BitVec 3) (upd sz : BitVec 2) (sx : Bool) (imm : BitVec 13)
  /-- STQ (R401). Stores 16 bytes from a w register. -/
  | stq (c : CoreId) (rt : Reg) (ak : BitVec 3) (upd sz : BitVec 2) (sx : Bool) (imm : BitVec 13)
  /-- ATOM_CAS (R404). 64-bit compare-and-swap at the address in ak. -/
  | atomCas (c : CoreId) (rd rs1 rs2 : Reg) (fn : BitVec 11)
  /-- ATOM_SWAP (R404). 64-bit swap at the address in ak. -/
  | atomSwap (c : CoreId) (rd rs1 rs2 : Reg) (fn : BitVec 11)
  /-- ATOM_FADD (R404). 64-bit fetch-and-add at the address in ak. -/
  | atomFadd (c : CoreId) (rd rs1 rs2 : Reg) (fn : BitVec 11)
  /-- ADDA (R405). Updates ak by an immediate under its mode. -/
  | adda (c : CoreId) (rs : Reg) (ak : BitVec 3) (imm : BitVec 16)
  /-- ADDAR (R405). Updates ak by a register under its mode. -/
  | addar (c : CoreId) (rs : Reg) (ak : BitVec 3) (imm : BitVec 16)
  /-- MVA (R405). Sets ak to rs. -/
  | mva (c : CoreId) (rs : Reg) (ak : BitVec 3) (imm : BitVec 16)
  /-- MVM (R405). Sets mk to rs[31:0]. -/
  | mvm (c : CoreId) (rs : Reg) (ak : BitVec 3) (imm : BitVec 16)
  /-- MFA (R405). Copies ak to a g register. -/
  | mfa (c : CoreId) (rs : Reg) (ak : BitVec 3) (imm : BitVec 16)
  /-- MFM (R405). Copies mk to a g register. -/
  | mfm (c : CoreId) (rs : Reg) (ak : BitVec 3) (imm : BitVec 16)
  /-- DMA (R406). Starts a tagged DMA transfer between local memory and another window. -/
  | dma (c : CoreId) (rd rs1 rs2 : Reg) (fn : BitVec 11)
  /-- DMA_COMPLETE (R379). A DMA transfer completes and its tag clears in DMASTAT. -/
  | dmaComplete (c : CoreId) (tag : BitVec 3)
  /-- VADD (R407). Element-wise sum. -/
  | vadd (c : CoreId) (e : BitVec 2) (lane : BitVec 4) (rd rs1 rs2 : Reg)
  /-- VSUB (R407). Element-wise difference. -/
  | vsub (c : CoreId) (e : BitVec 2) (lane : BitVec 4) (rd rs1 rs2 : Reg)
  /-- VADDS (R407). Signed saturated element sum. -/
  | vadds (c : CoreId) (e : BitVec 2) (lane : BitVec 4) (rd rs1 rs2 : Reg)
  /-- VSUBS (R407). Signed saturated element difference. -/
  | vsubs (c : CoreId) (e : BitVec 2) (lane : BitVec 4) (rd rs1 rs2 : Reg)
  /-- VADDUS (R407). Unsigned saturated element sum. -/
  | vaddus (c : CoreId) (e : BitVec 2) (lane : BitVec 4) (rd rs1 rs2 : Reg)
  /-- VSUBUS (R407). Unsigned element difference saturated at 0. -/
  | vsubus (c : CoreId) (e : BitVec 2) (lane : BitVec 4) (rd rs1 rs2 : Reg)
  /-- VMIN (R407). Element-wise signed minimum. -/
  | vmin (c : CoreId) (e : BitVec 2) (lane : BitVec 4) (rd rs1 rs2 : Reg)
  /-- VMAX (R407). Element-wise signed maximum. -/
  | vmax (c : CoreId) (e : BitVec 2) (lane : BitVec 4) (rd rs1 rs2 : Reg)
  /-- VMINU (R407). Element-wise unsigned minimum. -/
  | vminu (c : CoreId) (e : BitVec 2) (lane : BitVec 4) (rd rs1 rs2 : Reg)
  /-- VMAXU (R407). Element-wise unsigned maximum. -/
  | vmaxu (c : CoreId) (e : BitVec 2) (lane : BitVec 4) (rd rs1 rs2 : Reg)
  /-- VCEQ (R407). All ones where elements are equal. -/
  | vceq (c : CoreId) (e : BitVec 2) (lane : BitVec 4) (rd rs1 rs2 : Reg)
  /-- VCGT (R407). All ones where ws1 > ws2 signed. -/
  | vcgt (c : CoreId) (e : BitVec 2) (lane : BitVec 4) (rd rs1 rs2 : Reg)
  /-- VCGTU (R407). All ones where ws1 > ws2 unsigned. -/
  | vcgtu (c : CoreId) (e : BitVec 2) (lane : BitVec 4) (rd rs1 rs2 : Reg)
  /-- VSLL (R407). Element-wise shift left. -/
  | vsll (c : CoreId) (e : BitVec 2) (lane : BitVec 4) (rd rs1 rs2 : Reg)
  /-- VSRL (R407). Element-wise logical shift right. -/
  | vsrl (c : CoreId) (e : BitVec 2) (lane : BitVec 4) (rd rs1 rs2 : Reg)
  /-- VSRA (R407). Element-wise arithmetic shift right. -/
  | vsra (c : CoreId) (e : BitVec 2) (lane : BitVec 4) (rd rs1 rs2 : Reg)
  /-- VAND (R407). Bitwise AND of w registers. -/
  | vand (c : CoreId) (e : BitVec 2) (lane : BitVec 4) (rd rs1 rs2 : Reg)
  /-- VOR (R407). Bitwise OR of w registers. -/
  | vor (c : CoreId) (e : BitVec 2) (lane : BitVec 4) (rd rs1 rs2 : Reg)
  /-- VXOR (R407). Bitwise XOR of w registers. -/
  | vxor (c : CoreId) (e : BitVec 2) (lane : BitVec 4) (rd rs1 rs2 : Reg)
  /-- VANDN (R407). Bitwise AND NOT of w registers. -/
  | vandn (c : CoreId) (e : BitVec 2) (lane : BitVec 4) (rd rs1 rs2 : Reg)
  /-- VSEL (R407). Bitwise select by wd. -/
  | vsel (c : CoreId) (e : BitVec 2) (lane : BitVec 4) (rd rs1 rs2 : Reg)
  /-- VSHUF (R407). Byte shuffle of ws1 by indices in ws2. -/
  | vshuf (c : CoreId) (e : BitVec 2) (lane : BitVec 4) (rd rs1 rs2 : Reg)
  /-- VBCAST (R407). Broadcasts the low bits of a g register to every element. -/
  | vbcast (c : CoreId) (e : BitVec 2) (lane : BitVec 4) (rd rs1 rs2 : Reg)
  /-- VINS (R407). Inserts a g register into one element. -/
  | vins (c : CoreId) (e : BitVec 2) (lane : BitVec 4) (rd rs1 rs2 : Reg)
  /-- VEXT (R407). Extracts one element into a g register. -/
  | vext (c : CoreId) (e : BitVec 2) (lane : BitVec 4) (rd rs1 rs2 : Reg)
  /-- VSUM (R407). Sums the elements into a g register. -/
  | vsum (c : CoreId) (e : BitVec 2) (lane : BitVec 4) (rd rs1 rs2 : Reg)
  /-- VMOV (R407). Copies a w register. -/
  | vmov (c : CoreId) (e : BitVec 2) (lane : BitVec 4) (rd rs1 rs2 : Reg)
  /-- MUL (R408). Signed 128-bit product into Pk. -/
  | mul (c : CoreId) (e : BitVec 2) (z : BitVec 3) (rd rs1 rs2 : Reg)
  /-- MULU (R408). Unsigned 128-bit product into Pk. -/
  | mulu (c : CoreId) (e : BitVec 2) (z : BitVec 3) (rd rs1 rs2 : Reg)
  /-- MAC (R408). Pk plus signed product. -/
  | mac (c : CoreId) (e : BitVec 2) (z : BitVec 3) (rd rs1 rs2 : Reg)
  /-- MACU (R408). Pk plus unsigned product. -/
  | macu (c : CoreId) (e : BitVec 2) (z : BitVec 3) (rd rs1 rs2 : Reg)
  /-- VMUL (R408). Element products into Pk. -/
  | vmul (c : CoreId) (e : BitVec 2) (z : BitVec 3) (rd rs1 rs2 : Reg)
  /-- VMAC (R408). Pk plus element products. -/
  | vmac (c : CoreId) (e : BitVec 2) (z : BitVec 3) (rd rs1 rs2 : Reg)
  /-- CLMUL (R408). Carry-less product into Pk. -/
  | clmul (c : CoreId) (e : BitVec 2) (z : BitVec 3) (rd rs1 rs2 : Reg)
  /-- CLMAC (R408). Pk XOR carry-less product. -/
  | clmac (c : CoreId) (e : BitVec 2) (z : BitVec 3) (rd rs1 rs2 : Reg)
  /-- GFMUL (R409). Sixteen GF(2^8) byte products into Pk. -/
  | gfmul (c : CoreId) (e : BitVec 2) (z : BitVec 3) (rd rs1 rs2 : Reg)
  /-- GFMAC (R409). Pk XOR sixteen GF(2^8) byte products. -/
  | gfmac (c : CoreId) (e : BitVec 2) (z : BitVec 3) (rd rs1 rs2 : Reg)
  /-- GFMULS (R409). Each byte of ws1 times a scalar in GF(2^8) into Pk. -/
  | gfmuls (c : CoreId) (e : BitVec 2) (z : BitVec 3) (rd rs1 rs2 : Reg)
  /-- GFMACS (R409). Pk XOR each byte of ws1 times a scalar in GF(2^8). -/
  | gfmacs (c : CoreId) (e : BitVec 2) (z : BitVec 3) (rd rs1 rs2 : Reg)
  /-- PRODUCT_LAND (R370). A multiply's result lands in its P register four cycles after issue. -/
  | productLand (c : CoreId)
  /-- MTP (R410). Moves a w register into Pk in the issuing cycle. -/
  | mtp (c : CoreId) (e : BitVec 2) (z : BitVec 3) (rd rs1 rs2 : Reg)
  /-- MTPG (R410). Moves a g register into Pk in the issuing cycle. -/
  | mtpg (c : CoreId) (e : BitVec 2) (z : BitVec 3) (rd rs1 rs2 : Reg)
  /-- MFP (R410). Reads Pk into a w register. -/
  | mfp (c : CoreId) (e : BitVec 2) (z : BitVec 3) (rd rs1 rs2 : Reg)
  /-- MFPL (R410). Reads Pk[63:0] into a g register. -/
  | mfpl (c : CoreId) (e : BitVec 2) (z : BitVec 3) (rd rs1 rs2 : Reg)
  /-- MFPH (R410). Reads Pk[127:64] into a g register. -/
  | mfph (c : CoreId) (e : BitVec 2) (z : BitVec 3) (rd rs1 rs2 : Reg)
  /-- LOOP (R373). Opens a hardware loop level with a count from a register. -/
  | loop (c : CoreId) (rs z : Reg) (fin : BitVec 16)
  /-- LOOPI (R411). Opens a hardware loop level with an immediate count. -/
  | loopi (c : CoreId) (cnt : BitVec 10) (fin : BitVec 16)
  /-- LBRK (R375). Closes the innermost loop level. -/
  | lbrk (c : CoreId) (z : BitVec 26)
  /-- DONE (R386). Ends the work item once its transfers, requests and EMITs are complete. -/
  | done (c : CoreId) (ra rb : Reg) (imm : BitVec 8)
  /-- FENCE (R415). Stalls until earlier stores and DMA are complete. -/
  | fence (c : CoreId) (ra rb : Reg) (imm : BitVec 8)
  /-- TRAP (R391). Raises TRAP with an 8-bit code and faults the job. -/
  | trap (c : CoreId) (ra rb : Reg) (imm : BitVec 8)
  /-- POST (R384). Posts a work item into the job's ready lists. -/
  | post (c : CoreId) (ra rb : Reg) (imm : BitVec 8)
  /-- REQ (R388). Issues a job read or job append request block. -/
  | req (c : CoreId) (ra rb : Reg) (imm : BitVec 8)
  /-- REQUEST_COMPLETE (R388). The module writes STATUS and RESULT of a request block and sets DONE. -/
  | requestComplete (c : CoreId)
  /-- EMIT (R390). Appends a piece of 1 to 65,536 bytes to the job's output. -/
  | emit (c : CoreId) (ra rb : Reg) (imm : BitVec 8)
  /-- SVL (R416). Issues a sieve lookup block from a stream core. -/
  | svl (c : CoreId) (ra rb : Reg) (imm : BitVec 8)
  /-- SVL_COMPLETE (R416). The sieve writes ANSWER and STATUS of a lookup block and sets DONE. -/
  | svlComplete (c : CoreId)
  /-- WAITD (R406). Stalls until the masked DMA tags clear. -/
  | waitd (c : CoreId) (ra rb : Reg) (imm : BitVec 8)
  /-- WAITR (R406). Stalls until no request is outstanding. -/
  | waitr (c : CoreId) (ra rb : Reg) (imm : BitVec 8)
  /-- MFSR (R417). Copies a special register into a g register. -/
  | mfsr (c : CoreId) (rd : Reg) (z : BitVec 9) (sr : BitVec 12)
  /-- MTSR (R417). Writes a g register into a special register. -/
  | mtsr (c : CoreId) (rs : Reg) (z : BitVec 9) (sr : BitVec 12)
  /-- SIEVE_CHECKER (R453). Each bell the checker compares 64 rows with their shadows and repairs mismatches. -/
  | sieveChecker (upsets : List SieveUpset)
  /-- SIEVE_ROW_RETIRED (R456). At the next bell boundary a spare row loaded from the shadow replaces a retired row. -/
  | sieveRowRetired (row : Nat)
  /-- SEM_COMPARE_AND_SWAP (R116). A compare-and-swap on the semaphore window acquires, renews, releases, breaks or only reads. -/
  | semCompareAndSwap (fn : Nat) (p : PortId) (key : W32) (addr : Nat) (cmp swp : W64)
  /-- SEM_BREAKABLE (R113). A held semaphore becomes breakable when its lease or its port's grace runs out. -/
  | semBreakable (n : Nat)
  /-- UNSUPPORTED_REQUEST_NAK (R71). A responder request not admitted by Table 3.2 is answered with a NAK and the QP enters ERROR. -/
  | unsupportedRequestNak (fn : Nat) (p : QpAt) (q : BadRequest)
  /-- REMOTE_NAK (R75). A NAK answers a module request; the owning command completes HOST_ACCESS_FAULT or the operation is reissued later. -/
  | remoteNak (fn : Nat) (p : PortId) (n : NakInfo)
  /-- ACK_TIMEOUT (R74). A local ACK timeout expires and the request is retransmitted. -/
  | ackTimeout (fn : Nat) (p : PortId) (ev : Bool)
  /-- QP_RETRY_EXHAUSTED (R79). A queue pair exhausts its retries and enters ERROR. -/
  | qpRetryExhausted (fn : Nat) (p : PortId) (ev : Bool)
  /-- RNR_NAK (R152). A notification answered with RNR NAK is retried under the RNR retry count. -/
  | rnrNak (fn : Nat) (p : PortId)
  /-- FAILOVER (R77). From the next bell boundary the affected functions' work moves to the other port and unfinished operations are reissued. -/
  | failover (fn : Nat)
  /-- CM_REQ (R73). A connection-manager REQ for a manager QP is accepted with REP or rejected. -/
  | cmReq (p : PortId) (q : CmReq)
  /-- CM_RTU (R73). RTU arrives and the queue pair moves to RTS. -/
  | cmRtu (p : PortId) (qpn : Nat)
  /-- CM_DREQ (R73). DREQ is answered with DREP and the queue pair moves to RESET. -/
  | cmDreq (p : PortId) (qpn : Nat)
  /-- CE_MARKED_PACKET (R81). A RoCEv2 packet marked CE causes a CNP to the sending queue pair. -/
  | ceMarkedPacket (fn : Nat) (p : PortId) (ev : Bool) (ns : Nat)
  /-- CC_RATE_UPDATE (R82). At each bell boundary each requester QP's rate limit is updated from the CNPs of the last bell. -/
  | ccRateUpdate (fn : Nat) (p : QpAt)
  /-- PFC_FRAME (R67). A received PFC frame pauses or resumes transmission on its priority. -/
  | pfcFrame (p : PortId) (enable : BitVec 8) (quanta : List (BitVec 16))
  /-- PFC_WATCHDOG (R68). A priority paused longer than PORT_PFC_WD takes the port out of service and raises PFC_STORM. -/
  | pfcWatchdog (p : PortId) (prio : Nat)
  /-- PAUSE_FRAME (R60). A received PAUSE frame is discarded and counted. -/
  | pauseFrame (p : PortId)
  /-- ARP_REQUEST (R64). An ARP request for a port address is answered. -/
  | arpRequest (p : PortId) (vid : VlanTag) (target : W32) (who : W32)
  /-- NEIGHBOR_SOLICITATION (R64). An IPv6 Neighbor Solicitation for a port address is answered. -/
  | neighborSolicitation (p : PortId) (vid : VlanTag) (target who : W128)
  /-- ICMP_ECHO_REQUEST (R64). An ICMP echo request is answered within the rate limit. -/
  | icmpEchoRequest (p : PortId) (vid : VlanTag) (v6 : Bool) (dst src : W128) (body : Bytes)
  /-- FRAME_DISCARD (R64). A frame of a refused kind, over MTU or with bad ICRC is discarded and counted. -/
  | frameDiscard (p : PortId) (why : DropWhy)
  /-- PTP_ANNOUNCE (R87). An Announce message feeds the best master clock algorithm. -/
  | ptpAnnounce (p : PortId) (a : Announce)
  /-- PTP_SYNC (R87). A Sync or Follow_Up message gives an offset to the calendar, which may lock after 8 Syncs. -/
  | ptpSync (p : PortId) (m : PtpSource) (offNs : Int)
  /-- PTP_DELAY_RESP (R87). A Delay_Resp completes a path delay measurement. -/
  | ptpDelayResp (p : PortId) (m : DelayResp)
  /-- PTP_SYNC_LOSS (R88). After 3 s without Sync the time source switches port or the calendar enters HOLDOVER. -/
  | ptpSyncLoss
  /-- PTP_SOURCE_RETURN (R88). After 60 s of Sync on port A the time source switches back to A. -/
  | ptpSourceReturn
  /-- OPTICS_INSERT (R61). An inserted optical module is read over CMIS and training starts or it is held for excess power. -/
  | opticsInsert (p : PortId) (m : OpticsInfo)
  /-- OPTICS_REMOVE (R89). Removing an optical module moves the port to OFF. -/
  | opticsRemove (p : PortId)
  /-- LINK_FAULT (R89). A fault held for 1 ms or loss of lock moves an UP port to DOWN. -/
  | linkFault (p : PortId) (ns : Nat)
  /-- TRAINING_ATTEMPT_END (R89). A training attempt succeeds to UP or fails to DOWN or FAILED within 500 ms. -/
  | trainingAttemptEnd (p : PortId) (ok : Bool)
  /-- DOWN_RETRY (R89). 1 s after entering DOWN the port trains again. -/
  | downRetry (p : PortId)
  /-- PORT_ENABLE (R89). A write of PORT_CTRL.ENABLE starts training or takes the port OFF. -/
  | portEnable (w : Writer) (p : PortId) (en : Bool)
  /-- PORT_RETRAIN (R89). A write of PORT_CTRL.RETRAIN moves a FAILED port to TRAINING. -/
  | portRetrain (w : Writer) (p : PortId)
  /-- SETUP_WRITE (R572). An RDMA WRITE to set-up registers without their own row is checked and applied whole or latches SETUP_ERR. -/
  | setupWrite (w : Writer) (off : Nat) (data : Bytes)
  /-- SETUP_ERR_CLEAR (R575). Writing 1 to SETUP_ERR clears GLB_ERR and GLB_ERR_INFO. -/
  | setupErrClear (w : Writer)
  /-- QP_TO_INIT (R579). A write moves a tenant queue pair from RESET to INIT. -/
  | qpToInit (w : Writer) (fn : Nat) (p : PortId) (ev : Bool) (word : W64) (addr : W128)
  /-- QP_TO_RTR (R579). A write moves a tenant queue pair from INIT to RTR after checks. -/
  | qpToRtr (w : Writer) (fn : Nat) (p : PortId) (ev : Bool)
  /-- QP_TO_RTS (R579). A write moves a tenant queue pair from RTR to RTS. -/
  | qpToRts (w : Writer) (fn : Nat) (p : PortId) (ev : Bool)
  /-- QP_TO_RESET (R579). A write moves a tenant queue pair to RESET from any state. -/
  | qpToReset (w : Writer) (fn : Nat) (p : PortId) (ev : Bool)
  /-- ADMIN_RING_WRITE (R581). A manager's write of its admin ring entry resets that ring at the next bell boundary. -/
  | adminRingWrite (w : Writer) (entry : Nat) (data : Bytes)
  /-- SVE_MODE_WRITE (R440). A write of SVE_CTRL.MODE changes the sieve mode at the next bell boundary. -/
  | sveModeWrite (w : Writer) (whole : Bool)
  /-- SVE_OWNER_WRITE (R442). A write of SVE_CTRL.OWNER passes the whole array to a new owner. -/
  | sveOwnerWrite (w : Writer) (owner : Nat)
  /-- TRC_DISP_CTRL_WRITE (R435). A write of TRC_DISP_CTRL enables or configures the dispatcher trace. -/
  | trcDispCtrlWrite (w : Writer) (v : W64)
  /-- SCRUB_GO (R477). A write of EDC_SCRUB_CTRL.GO starts a scrub of one range. -/
  | scrubGo (w : Writer)
  /-- SCRUB_COMPLETE (R477). A requested scrub ends, writes its summary and sets DONE. -/
  | scrubComplete (x : ScrubSum)
  /-- ALERT_CLEAR (R524). Writing 1 to HLT_STATE.ALERT clears the alert and releases ALERT#. -/
  | alertClear (w : Writer)
  /-- LOCATE (R508). A write of HLT_STATE.LOCATE starts or stops the locate blink. -/
  | locate (w : Writer) (on : Bool)
  /-- SMBUS_SET_OFFSET (R584). SMBus SET OFFSET sets the window offset. -/
  | smbusSetOffset (pecOk : Bool) (data : Bytes)
  /-- SMBUS_READ (R584). SMBus READ returns 32 bytes of the SMBus view and advances the offset. -/
  | smbusRead
  /-- SMBUS_WRITE (R584). SMBus WRITE applies one message at the offset under the write checks. -/
  | smbusWrite (pecOk : Bool) (data : Bytes)
  /-- SMBUS_ALERT_RESPONSE (R584). The module answers the Alert Response Address while ALERT# is asserted. -/
  | smbusAlertResponse
  /-- DRAM_UNCORRECTABLE (R473). An uncorrectable DRAM word is poisoned or rewritten from its mirror, ending the job that read it. -/
  | dramUncorrectable (x : DramHit)
  /-- REMAP (R478). A hard-faulty DRAM block or SRAM row is remapped to a reserve entry. -/
  | remap (x : RemapPlace)
  /-- RANK_RECENTRE (R469). A rank is re-centred once per 65,536 bells and sent to retrain if its margins are narrow. -/
  | rankRecentre (rank rdEye wrEye margin : Nat)
  /-- RANK_RETRAIN_RESULT (R480). A rank retrain passes to ACTIVE or fails to RETIRED. -/
  | rankRetrainResult (rank : Nat) (eye : Nat × Nat)
  /-- RANK_MIGRATION_START (R481). A failing rank goes to DRAINING and the spare to FILLING. -/
  | rankMigrationStart (rank : Nat)
  /-- RANK_MIGRATION_COMPLETE (R481). At the first boundary after the copy the spare takes the source's place. -/
  | rankMigrationComplete (rank : Nat)
  /-- REMIRROR (R482). Mirrored content of a lost rank or channel is re-mirrored within 10 s and PLAIN_CAP falls. -/
  | remirror (pair : Nat)
  /-- DRAM_CHANNEL_LOSS (R470). A channel whose lane cannot be centred leaves service and its ranks retire. -/
  | dramChannelLoss (chan : Nat)
  /-- SCRUB_PASS (R476). Firmware scrubs DRAM and SRAM words, correcting and remapping. -/
  | scrubPass (x : ScrubPassRes)
  /-- DETOUR_APPLY (R464). A returning or re-mirrored copy receives the detour-logged writes. -/
  | detourApply (pair : Nat)
  /-- LOFT_WORD_PROGRAM (R486). The loft programs one word and verifies it, reporting PROGRAM_MISMATCH on failure. -/
  | loftWordProgram (sector word : Nat) (v : W64)
  /-- LOFT_SECTOR_ERASE (R484). The loft erases and verifies one sector. -/
  | loftSectorErase (sector : Nat) (ok : Bool)
  /-- LOFT_ERASE_ABORT (R488). A running loft erase is aborted within 5 µs. -/
  | loftEraseAbort (bank : Nat)
  /-- LOFT_PATROL (R498). Firmware reads every loft word each 24 h and remaps failing sectors. -/
  | loftPatrol (sector : Nat)
  /-- HEALTH_EVALUATION (R502). At each bell boundary after READY the health state is evaluated from the accounts. -/
  | healthEvaluation
  /-- IDLE_HOLD_EXPIRY (R530). Idleness held for the next state's hold time moves the module one power state deeper if admitted. -/
  | idleHoldExpiry
  /-- Q3_ENTRY (R531). After parking and checkpoint complete the module enters Q3. -/
  | q3Entry
  /-- WAKE (R532). A wake trigger starts a wake straight to Q0. -/
  | wake (t : WakeBy)
  /-- WAKE_COMPLETE (R535). Idled parts are back in service and the module is in Q0. -/
  | wakeComplete (eyes : List Nat)
  /-- INTERNAL_WAKE (R534). Internal work falling due wakes the module from Q2 to Q4. -/
  | internalWake (t : DueWork)
  /-- CAPACITANCE_MEASUREMENT (R311). Every 24 h the gauge measures bank capacitance and may raise HOLDUP_LOW. -/
  | capacitanceMeasurement (energy : Nat)
  /-- HEARTBEAT (R333). Every 2^24 bells a heartbeat with the calendar time is written to loft bank K. -/
  | heartbeat
  /-- INPUT_FAIL (R318). The 12 V input below 10.2 V for 20 µs begins the power-loss sequence. -/
  | inputFail
  /-- DUMP_PLAN (R320). At 0.3 ms the dump plan replaces the bell plans and program slot 1 begins. -/
  | dumpPlan
  /-- PROGRAM_SLOT_END (R321). A 3.52 ms program slot ends and the next slot's programs start, or the sequence ends and loads switch off. -/
  | programSlotEnd
  /-- INPUT_OVERVOLTAGE_OR_BREAKER (R592). Input above 14.5 V or a breaker trip disconnects the input and runs the power-loss sequence. -/
  | inputOvervoltageOrBreaker (breaker : Bool)
  /-- THERMAL_SHUTDOWN (R600). Inlet above 50 °C for 10 s or junction above 115 °C runs the power-loss sequence. -/
  | thermalShutdown (junction : Bool) (temp : Int)
  /-- TEMPERATURE (R600). A thermal threshold is crossed, its response applied and TEMPERATURE raised. -/
  | temperature (place : Nat) (temp : Int) (dies : List DieId)
  /-- POWER_GOOD (R557). The input has held within range for 10 ms and a boot begins at step 1. -/
  | powerGood (e : BootEnv)
  /-- RETENTION_SCAN (R334). A priority or full retention scan reads programmed codewords as class 5 work. -/
  | retentionScan (d : DieId) (slot wl cw : Nat)
  /-- RESET_ASSERT (R593). RESET# held low for 100 µs performs the module reset of R188 and holds the boot at step 2. -/
  | resetAssert (us : Nat) (e : BootEnv)
  /-- RESET_RELEASE (R593). RESET# rising lets the held boot proceed. -/
  | resetRelease (e : BootEnv)
  /-- PWR_DISABLE_ASSERT (R594). PWR_DISABLE held high for 20 µs begins the power-loss sequence and then standby. -/
  | pwrDisableAssert (us : Nat)
  /-- PWR_DISABLE_RELEASE (R594). PWR_DISABLE falling lets the module boot from power good. -/
  | pwrDisableRelease (e : BootEnv)
  /-- LAMP_REQ (R508). A change of the LAMP_REQ contact starts or stops the locate blink. -/
  | lampReq (on : Bool)
  /-- TAP_DBG_TOKEN (R548). At Update-DR of DBG_TOKEN the debug token is checked and maker debug may open. -/
  | tapDbgToken (data : Bytes)
  /-- TAP_DBG_CHAL (R548). DBG_CHAL shifts out the boot's debug challenge. -/
  | tapDbgChal
  /-- TAP_IDCODE (R548). The TAP IDCODE instruction selects the identification register. -/
  | tapIdcode
  /-- TAP_EXTEST (R548). The TAP EXTEST instruction drives boundary-scan outputs. -/
  | tapExtest (outs : Bytes)
  /-- TAP_SAMPLE_PRELOAD (R548). The TAP SAMPLE/PRELOAD instruction samples or loads the boundary register. -/
  | tapSamplePreload (pins outs : Bytes)
  /-- TAP_BYPASS (R548). BYPASS, or any unlisted code, selects the one-bit bypass register. -/
  | tapBypass
  /-- CNP_ARRIVAL (R82). A congestion notification packet arrives for a module requester queue pair and marks that a CNP arrived in the current bell. -/
  | cnpArrival (fn : Nat) (p : QpAt)
  /-- LOAD_COMPLETE (R366). The value of an earlier load or atomic becomes present in its destination register and releases any instruction interlocked on it. -/
  | loadComplete (c : CoreId)
  /-- STORE_COMPLETE (R403). An outstanding store to hamlet data or the DRAM window completes in program order, freeing one of the eight store slots. -/
  | storeComplete (c : CoreId)
  /-- NEXT_HOP_RESOLUTION (R64). An ARP reply or IPv6 Neighbor Advertisement for a next hop the module is resolving arrives and is recorded. -/
  | nextHopResolution (p : PortId) (addr : W128) (mac : BitVec 48)
  /-- TEMPERATURE_CLEAR (R600). A thermal response clears once its condition has been absent for 60 s. -/
  | temperatureClear (place : Nat) (temp : Int)
  deriving DecidableEq, Repr

end Sys2Proof
end

