-- ==== Sys2Proof/Decode.lean ====
section
/-! DEFINITION. The command a word spells. The block takes commands, not words: spec/opcode_table.json gives no row
any bits, so no word spells a command (notes/assumptions/8.md). -/

namespace Sys2Proof

/-- The command that `nbits` bits `w` spell by the table: none, since the table gives no row bits. -/
def decodeTableWord (_nbits _w : Nat) : Option Instr := none

end Sys2Proof
end

