-- ==== Sys2Proof/Config.lean ====
section
/-! DEFINITION. What an implementation fixes and the spec does not state: free values. Each is opaque, so that no
proof can see what it is (notes/assumptions/3.md). -/

namespace Sys2Proof.Config

/-- The n-th free value drawn: used where the spec leaves a number open (a poll phase, an rkey, a RING entry). -/
opaque free : Nat → Nat

/-- The rkey of a function's semaphore window and of a manager's set-up window (R578), by function. -/
opaque semRkey : Nat → BitVec 32
opaque setupRkey : Nat → BitVec 32

/-- Identity fixed at manufacture (R1, R62, R577, R553): whether the part is JL7-1152-O, and byte k of serial number, MAC of
port A, chain. -/
opaque partO : Bool
opaque serialByte : Nat → BitVec 8
opaque macA : BitVec 48
opaque stepping : BitVec 16
opaque chainByte : Nat → BitVec 8

/-- Byte k of the vendor root hash in the fuse array (R541, R549). -/
opaque rootByte : Nat → BitVec 8

/-- The 80-bit words a loft sector holds at delivery: sector * 512 + word (R483). -/
opaque loftBits : Nat → BitVec 80

/-- Byte k of the signature a report receives with index q (R555). -/
opaque signByte : Nat → Nat → BitVec 8

/-- Byte k of the debug challenge drawn n-th (R547). -/
opaque chalByte : Nat → Nat → BitVec 8

/-- Byte k of the pair of holding keys drawn n-th (R551): K1 in bytes 0 to 31, K2 in bytes 32 to 63. -/
opaque keyByte : Nat → Nat → BitVec 8

/-- Byte k of the device secret in the fuse array (R551). -/
opaque secretByte : Nat → BitVec 8

/-- The inner-code parity of a codeword's 4,128 protected bytes (R257): byte k. The code's matrix is not given. -/
opaque innerParity : List (BitVec 8) → Nat → BitVec 8

/-- Word lines of a die marked at manufacture (R276): plane-block * 512 + word line, of which its list holds the first 256. -/
opaque factoryLines : Nat → List Nat

/-- The 15 offsets of a retry set, steps 1 to 8 (Table 9.3), relative to the tracked levels. -/
opaque retrySet : Nat → Nat → Int

/-- The LZ4 payload the compression engine makes of a 4,096-byte source block, where it is one (R347). -/
opaque lz4Pack : List (BitVec 8) → List (BitVec 8)

/-- Bytes of one map-journal record, by kind (R284, R315). -/
opaque recordBytes : Nat → Nat

/-- Figures of telemetry the spec calls measured (Table 19.11): byte k at bell b. -/
opaque gauge : Nat → Nat → BitVec 8

end Sys2Proof.Config
end

