-- ==== Sys2Proof/Machine/Table.lean ====
section
/-! DEFINITION. Sparse tables: sorted lists of (key, value) pairs with rising keys. They hold everything
the module keeps in numbered places (functions, rings, zones, units, cells of memory). -/

namespace Sys2Proof.Machine

/-- A sparse table: pairs (key, value), keys strictly rising. -/
abbrev Tab (α : Type) := List (Nat × α)

/-- The entry at key `k`, if one stands in the table. -/
def look {α : Type} : Tab α → Nat → Option α
  | [], _ => none
  | (k', v) :: t, k => if k' = k then some v else look t k

/-- The entry at `k`, or `d` where none stands. -/
def lookD {α : Type} (t : Tab α) (d : α) (k : Nat) : α := (look t k).getD d

/-- The table without the entry at `k`. -/
def del {α : Type} : Tab α → Nat → Tab α
  | [], _ => []
  | (k', v) :: t, k => if k' = k then del t k else (k', v) :: del t k

/-- The table with `v` at `k`, keys kept rising. -/
def put {α : Type} : Tab α → Nat → α → Tab α
  | [], k, v => [(k, v)]
  | (k', v') :: t, k, v =>
    if k < k' then (k, v) :: (k', v') :: t
    else if k' = k then (k, v) :: t
    else (k', v') :: put t k v

/-- The table with `v` at `k`, in canonical form for the default `d`: a default value is not listed. -/
def putD {α : Type} [DecidableEq α] (t : Tab α) (d : α) (k : Nat) (v : α) : Tab α :=
  if v = d then del t k else put t k v

/-- Replaces the entry at `k` by its image, where one stands. -/
def adj {α : Type} : Tab α → Nat → (α → α) → Tab α
  | [], _, _ => []
  | (k', v) :: t, k, f => if k' = k then (k', f v) :: t else (k', v) :: adj t k f

/-- The image of the entry at `k`, default `d`, canonical. -/
def adjD {α : Type} [DecidableEq α] (t : Tab α) (d : α) (k : Nat) (f : α → α) : Tab α :=
  putD t d k (f (lookD t d k))

/-- Every value of the table under `f`. -/
def mapV {α β : Type} (f : Nat → α → β) : Tab α → Tab β
  | [] => []
  | (k, v) :: t => (k, f k v) :: mapV f t

/-- The entries whose key and value satisfy `p`. -/
def keep {α : Type} (p : Nat → α → Bool) : Tab α → Tab α
  | [] => []
  | (k, v) :: t => if p k v then (k, v) :: keep p t else keep p t

/-- How many entries satisfy `p`. -/
def count {α : Type} (p : Nat → α → Bool) : Tab α → Nat
  | [] => 0
  | (k, v) :: t => (if p k v then 1 else 0) + count p t

/-- Whether the keys of a table rise strictly. -/
def Rising {α : Type} : Tab α → Bool
  | [] => true
  | [_] => true
  | (a, _) :: (b, w) :: t => a < b && Rising ((b, w) :: t)

/-- Canonical form for the default `d`: keys rise and no entry equals the default. -/
def Canon {α : Type} [DecidableEq α] (d : α) (t : Tab α) : Bool :=
  Rising t && t.all (fun e => decide (e.2 ≠ d))

end Sys2Proof.Machine
end

