-- ==== Sys2Proof/Machine/HostState.lean ====
section
/-! DEFINITION. The state on the host's side of the module: bell, ports, functions, rings, commands in flight,
semaphores, and what the module sends. Each field names the rule that gives it. -/

namespace Sys2Proof.Machine

/-- Port states (R89, Table 23.5). -/
inductive PortState where
  | off | training | up | down | failed
  deriving DecidableEq, Repr

/-- Function states (R94, Table 23.6). -/
inductive FnState where
  | absent | active | quiescing | quiesced
  deriving DecidableEq, Repr

/-- Queue-pair states (R579). -/
inductive QpState where
  | reset | init | rtr | rts | error
  deriving DecidableEq, Repr

/-- A bell stamp (R41): bell, calendar seconds, subseconds. -/
structure Stamp where
  bell : Nat
  secs : Nat
  sub : Nat
  deriving DecidableEq, Repr

/-- One port (chapter 3). -/
structure Port where
  /-- R89 -/
  state : PortState
  /-- consecutive failed attempts (Table 3.5) -/
  fails : Nat
  /-- the RW registers of Table 23.5, by offset in the port's half, that differ from their reset word (R576) -/
  regs : Tab W64
  /-- an optical module is present (R61) -/
  optic : Option OpticsInfo
  /-- the optical module is held in low power (R61) -/
  held : Bool
  /-- PORT_RX_DROP, saturating (R64) -/
  rxDrop : Nat
  /-- PORT_KNOCK_DROP (R84, R85) -/
  knockDrop : Nat
  /-- PORT_KNOCK_MERGE (R85) -/
  knockMerge : Nat
  /-- priorities whose transmission is paused (R67) -/
  paused : List Nat
  /-- lossless priorities for which the module has sent XOFF and not yet XON (R67) -/
  xoff : List Nat
  /-- sources of the knocks accepted in this bell (R85) -/
  knockSrc : List W128
  /-- echo replies sent in the present second (R64) -/
  echoes : Nat
  /-- when the port last left UP, in ns of the boot, while it is out of UP (R113) -/
  leftUp : Option Nat
  /-- resolved next hops (R64) -/
  nextHop : List (W128 × BitVec 48)
  /-- next hops being resolved (R64) -/
  resolving : List W128
  /-- the time transmitters heard, by their last Announce, the newest first (R87) -/
  ptpHeard : List Announce
  /-- bell of the last Sync (R88) -/
  lastSync : Option Nat
  /-- bell since which Sync has come without a gap (R88) -/
  syncSince : Option Nat
  deriving DecidableEq, Repr

/-- What does not belong to one port (R83, R87, R88, R81). -/
structure Net where
  /-- PORT_KNOCK_UDP -/
  knockUdp : Nat
  /-- PORT_PTP.DOMAIN -/
  ptpDomain : Nat
  /-- PORT_PTP.SOURCE: 0 A, 1 B, 2 either -/
  ptpSource : Nat
  /-- PORT_PTP.IN_USE -/
  ptpInUse : PortId
  /-- time of the last CNP sent, by queue pair (R81) -/
  lastCnp : Tab Nat
  /-- functions whose work fails over at the next boundary, with the port it leaves and the bell it left it in (R77) -/
  failover : List (Nat × PortId × Nat)
  /-- trace records of the knocks accepted: bell, function, port and CTAG, newest first (R83) -/
  knockTrace : List (Nat × Nat × PortId × W32)
  /-- RING entries of admin rings written since the last boundary, to be reset at the next (R581) -/
  adminDue : List Nat
  deriving DecidableEq, Repr

/-- A resource block (Table 7.12). -/
structure Res where
  sq : Nat
  cq : Nat
  allot : Nat
  dispW : Nat
  bellW : Nat
  sieve : Nat
  readOps : Nat
  readBytes : Nat
  writeBytes : Nat
  scanBytes : Nat
  home : PortId
  deriving DecidableEq, Repr

/-- The resource block of an ABSENT function: zero (R578). -/
def Res.zero : Res := ⟨0, 0, 0, 0, 0, 0, 0, 0, 0, 0, .A⟩

/-- Resources before a function is added: the bell-allowance weight at its reset value (R52). -/
def Res.fresh : Res := { Res.zero with bellW := 16 }

/-- Congestion control of one requester queue pair (R82), rates in units of 1/10 Gb/s. -/
structure Cc where
  rate : Rat
  target : Rat
  hold : Nat
  probes : Nat
  /-- a CNP arrived in the current bell -/
  cnp : Bool
  deriving DecidableEq, Repr

/-- Congestion control at reset: 400 Gb/s (R82). -/
def Cc.reset : Cc := ⟨4000, 4000, 0, 0, false⟩

/-- A live sieve cursor (R449): its value (Table 16.2), the VERIFY setting, the key, and the mask length and ROW of the
last row returned. -/
structure Cursor where
  value : Nat
  verify : Bool
  key : Bytes
  len : Nat
  row : Nat
  deriving DecidableEq, Repr

/-- One function entry (chapter 4, Table 23.6). -/
structure Fn where
  /-- R94 -/
  state : FnState
  /-- bell in which the function entered QUIESCED (R222) -/
  quietAt : Nat
  /-- doorbell page (R130) -/
  dbAddr : W64
  dbRkey : W32
  /-- FN_POLL_N (R134) -/
  pollN : Nat
  /-- the phase of the function's doorbell pages (R55) -/
  phase : Nat
  /-- FN_LOG_SEL -/
  logSel : W64
  /-- FN_DB_STALE, FN_POLL_DEFER, FN_CQ_HEAD_BAD (R127, R135, R144) -/
  dbStale : Nat
  pollDefer : Nat
  cqHeadBad : Nat
  /-- the resource block as last committed (R578) -/
  res : Res
  /-- the resource values in force (R105) -/
  eff : Res
  /-- the partition number held (R441) -/
  part : Option Nat
  /-- FN_QP[2p + e], the words that differ from their reset value (Table 23.6) -/
  qp : Tab W64
  /-- FN_QP_ADDR[p] -/
  qpAddr : Tab W128
  /-- retransmissions so far of FN_QP[2p + e] (R74, R79) -/
  qpTries : Tab Nat
  /-- congestion control of the requester queue pair 2p + e (R82) -/
  cc : Tab Cc
  /-- last GEN of ring number n: key n for submission, 1024 + n for completion (R128) -/
  gens : Tab Nat
  /-- declared latency tolerance in µs; 0 none (R527) -/
  tol : Nat
  /-- bucket levels: read operations, read bytes, write bytes, scan bytes (R107) -/
  buckets : List Int
  /-- sieve cursors (R449), and the next SERIAL -/
  cursors : List Cursor
  serial : Nat
  /-- fault records, oldest first (R392, R519) -/
  faults : List Bytes
  /-- a knock was accepted in this bell (R85); a knock poll is due (R86) -/
  knocked : Bool
  knockDue : Bool
  /-- pages whose poll is in flight, and pages left over from the last bell (R135) -/
  polling : List Nat
  left : List Nat
  /-- pages polled in this bell (R55) -/
  polled : List Nat
  /-- ring served first in the last bell before this one that served any (R136; notes/assumptions/77.md) -/
  rr : Nat
  /-- ring served first in this bell (R136) -/
  served : Option Nat
  deriving DecidableEq, Repr

/-- Points in a command's life between fetch and completion (R153), as the module's own work divides them. -/
inductive Point where
  /-- fetched, not yet checked -/
  | fetched
  /-- checks wait for the chained list (R141) -/
  | list
  /-- checks wait for the parameter block (R193) -/
  | block
  /-- checked, not started -/
  | checked
  /-- checked, its start tried, and waiting: the entries behind it are checked (R154) -/
  | held
  /-- started, data being read from the host (R156) -/
  | data
  /-- started, data queued for staging (R29) -/
  | queued
  /-- started, data on both mirror copies (R156) -/
  | mirrored
  /-- started, media reads or other work outstanding -/
  | running
  /-- past the decision point, completion to follow -/
  | decided
  deriving DecidableEq, Repr

/-- A buffer triple (Table 5.6). -/
structure Triple where
  rkey : W32
  len : Nat
  addr : Nat
  deriving DecidableEq, Repr

/-- A completion to be made: status, result, ledger number if committed, FIELD of the error log (R602), DETAIL where
the event alone knows it. -/
structure Done where
  status : Nat
  result : W64 := 0
  ledger : Option Nat := none
  field : Nat := 0xFFFF
  detail : List (Nat × Nat × Nat) := []
  deriving DecidableEq, Repr

/-- KIND of a unit's metadata (Table 9.2). -/
inductive Kind where
  | zone | random | padding | parked | module_
  deriving DecidableEq, Repr

/-- A stored 4 KiB unit: the holding key that encrypts it, its XTS tweak (R26), the fields of its metadata as written
(Table 9.2: HOLDING, KIND, LCLASS, CMP, ADDR, OFFSET, LEDGER) and its 4,096 bytes, as ciphertext. -/
structure StUnit where
  key : Nat
  tweak : Nat
  hold : Nat
  kind : Kind
  lclass : Nat
  cmp : Bool
  addr : Nat
  off : Nat
  ledger : Nat
  data : Bytes
  deriving DecidableEq, Repr

/-- A command fetched and not completed (R153). -/
structure Cmd where
  tag : Nat
  /-- count of the entry in its ring (R174) -/
  pos : Nat
  /-- place in the module-wide order of fetching (R335) -/
  order : Nat
  /-- the 64 bytes fetched (R138) -/
  entry : Bytes
  /-- the port that fetched it (R76) -/
  port : PortId
  point : Point
  /-- chained list as fetched (R141) -/
  list : List Triple
  /-- parameter block as fetched (R193) -/
  block : Bytes
  /-- data read from the host, or gathered for it -/
  data : Bytes
  /-- ledger-seen value (R161) -/
  seen : Nat
  /-- bell of the start (R182), and the bells its clock stood still in before it -/
  startBell : Nat
  startStill : Nat
  /-- the units of a write, enciphered as they arrived (R26, R28) -/
  units : List StUnit
  /-- bell in which its data was queued for staging (R29), and the bell whose plan drains it (R42) -/
  queuedBell : Nat
  drainBell : Option Nat
  /-- ledger number, once committed (R158) -/
  ledger : Option Nat
  /-- media slices outstanding -/
  slices : Nat
  /-- first unrecoverable unit, counted from the command's first (R181) -/
  bad : Option Nat
  /-- how it ends, while an earlier command of its zone or unit has still to complete (R167) -/
  ending : Option Done
  deriving DecidableEq, Repr

/-- A submission ring (chapter 5, Table 23.7). -/
structure Sq where
  base : W64
  rkey : W32
  sizeLog : Nat
  cq : Nat
  gen : Nat
  /-- RING block index (R121) -/
  index : Nat
  frozen : Bool
  dozing : Bool
  /-- ACTIVE from this bell (R125, R134) -/
  activeFrom : Nat
  /-- last bell a poll found it advanced (R134) -/
  lastAdv : Nat
  /-- FETCHED and the last valid TAIL, modulo 2^32 (R126) -/
  fetched : Nat
  tail : Nat
  /-- entries fetched in this bell (R136) -/
  inBell : Nat
  /-- error log entries and OVERFLOW (R173) -/
  errlog : List Bytes
  /-- commands fetched and not completed, in ring order (R136) -/
  cmds : List Cmd
  /-- entries whose RDMA READ is in flight (R136) -/
  reading : Nat
  /-- the DISCARDs that wait for entries, in order of commit: TAIL, entries discarded, ring and tag of the RESTART RING (R178) -/
  discard : List (Nat × Nat × Nat × Nat)
  deriving DecidableEq, Repr

/-- A completion ring (chapter 5, Table 23.7). -/
structure Cq where
  base : W64
  rkey : W32
  sizeLog : Nat
  gen : Nat
  index : Nat
  headAddr : W64
  headRkey : W32
  notify : Bool
  coCount : Nat
  coBells : Nat
  /-- POSTED and HEAD_SEEN, modulo 2^32 (R126) -/
  posted : Nat
  headSeen : Nat
  /-- slots reserved (R143) -/
  reserved : Nat
  /-- completion entries written and not acknowledged (R149), oldest first: count and bytes -/
  unacked : List (Nat × Bytes)
  /-- counts of those not posted yet for want of a port (R80), each with its command's NOTIFY_NOW (R148) -/
  held : List (Nat × Bool)
  /-- pending notification (R148): bell and number of the completions it covers, and whether it is due -/
  pendFrom : Option Nat
  pendCount : Nat
  pendNow : Bool
  /-- notification attributes that apply from the next boundary (R122) -/
  attrNext : Option (Bool × Nat × Nat)
  /-- an entry waits for a slot (R144); a head word read is in flight -/
  wantHead : Bool
  deriving DecidableEq, Repr

/-- An RDMA operation of the module, by what it moves (R72, R136, R141, R144, R146, R147). Output of a command carries the
command, which may fail by it after its completion was issued (R75). -/
inductive OpKind where
  | page (page words : Nat)
  | entries (sq first n : Nat)
  | head (cq : Nat)
  | list (r : Ref)
  | block (r : Ref)
  | data (r : Ref)
  | outData (c : Cmd) (r : Ref) (from_ : Nat) (bytes : Bytes)
  | jobOut (j from_ : Nat) (bytes : Bytes)
  | cqe (cq count : Nat) (bytes : Bytes)
  | notify (imm : W32)
  deriving DecidableEq, Repr

/-- An RDMA operation not wholly answered (R77): its function, the port that carries it (none while none can, R80),
whether it runs on the event queue pair, and its kind. -/
structure RdmaOp where
  fn : Nat
  port : Option PortId
  ev : Bool
  kind : OpKind
  deriving DecidableEq, Repr

/-- What leaves the module: at a port, at the SMBus, at the TAP, at a contact. -/
inductive Msg where
  | rdma (op : RdmaOp)
  /-- a NAK to a responder request (R71): remote access error or invalid request -/
  | nak (p : PortId) (fn : Nat) (access : Bool)
  /-- the returned word of a compare-and-swap (R116) -/
  | atomic (p : PortId) (fn : Nat) (w : W64)
  /-- connection manager replies (R73) -/
  | cmRep (p : PortId) (qpn : Nat) (psn : Nat)
  | cmRej (p : PortId) (qpn : Nat)
  | cmDrep (p : PortId) (qpn : Nat)
  /-- a congestion notification packet (R81) -/
  | cnp (p : PortId) (qpn : Nat)
  /-- replies to ARP, Neighbor Solicitation and echo requests (R64) -/
  | arpReply (p : PortId) (target who : W32)
  | neighborAdv (p : PortId) (target who : W128)
  | echoReply (p : PortId) (dst : W128) (body : Bytes)
  /-- an ARP request or Neighbor Solicitation of the module for a next hop (R64) -/
  | whoHas (p : PortId) (addr : W128)
  /-- retransmission of a request (R74) -/
  | resend (p : PortId) (fn : Nat) (ev : Bool)
  /-- a PFC frame of the module: XOFF or XON for a priority (R67) -/
  | pfc (p : PortId) (prio : Nat) (xoff : Bool)
  /-- PTP Delay_Req (R87) -/
  | delayReq (p : PortId)
  /-- SMBus data returned, refusal, and alert response (R584) -/
  | smbData (b : Bytes)
  | smbNack
  | smbAlert (addr : Byte)
  /-- what the TAP shifts out (R548) -/
  | tap (b : Bytes)
  deriving DecidableEq, Repr

/-- How a frame is marked as it leaves a port (R66, R70, R81): PCP, DSCP and traffic class of its row of Table 3.1, the UDP
destination port (0 where it has none of the module's choosing), whether an ICRC is computed for it, and whether its ECN codepoint
is ECT(0). -/
structure Mark where
  pcp : Nat
  dscp : Nat
  tc : Nat
  udp : Nat
  icrc : Bool
  ect : Bool
  deriving DecidableEq, Repr

/-- Something that leaves the module: what it is, how it is marked (none where it leaves by no port, or is a MAC control
frame), the host memory it reads or writes, and whether it still waits because its priority is paused (R67). -/
structure Sent where
  msg : Msg
  mark : Option Mark
  target : List Triple
  waits : Bool
  deriving DecidableEq, Repr

/-- The port a message leaves by and its row of Table 3.1; row 4 for a MAC control frame, which Table 3.1 does not mark. -/
def Msg.via : Msg → Option (PortId × Nat)
  | .rdma op => op.port.map fun p => (p, 0)
  | .nak p _ _ | .atomic p _ _ | .resend p _ _ => some (p, 0)
  | .cnp p _ => some (p, 1)
  | .delayReq p => some (p, 2)
  | .cmRep p _ _ | .cmRej p _ | .cmDrep p _ | .arpReply p _ _ | .neighborAdv p _ _ | .echoReply p _ _ | .whoHas p _ => some (p, 3)
  | .pfc p _ _ => some (p, 4)
  | .smbData _ | .smbNack | .smbAlert _ | .tap _ => none

/-- Why SETUP_ERR latched first (R575). -/
structure SetupErr where
  err : Bool
  cause : Nat
  smbus : Bool
  port : PortId
  func : Nat
  count : Nat
  offset : Nat
  length : Nat
  deriving DecidableEq, Repr

/-- SETUP_ERR clear (R575). -/
def SetupErr.clear : SetupErr := ⟨false, 0, false, .A, 0, 0, 0, 0⟩

/-- A completion that waits for the next boundary (R105): the command, status and result. -/
structure Due where
  r : Ref
  status : Nat
  result : W64
  ledger : Option Nat
  deriving DecidableEq, Repr

/-- An ABORT whose completion waits for the acknowledgement of its target's (R187): the target, its completion ring and,
once posted, the count of its completion. -/
structure AbortWait where
  r : Ref
  target : Ref
  cq : Nat
  count : Option Nat
  status : Nat
  deriving DecidableEq, Repr

/-- The semaphore bank (R110 to R114). -/
structure Sems where
  /-- the words, those that are not zero (Table 4.4) -/
  word : Tab W64
  /-- commit bell of the acquire or renewal (R113) -/
  acq : Tab Nat
  /-- SEM_ASSIGN[n], those that differ from the value R111 gives at reset -/
  assign : Tab Nat
  /-- SEM_LAST[n] -/
  last : Tab Nat
  /-- SEM_GRACE in ms -/
  grace : Nat
  deriving DecidableEq, Repr

end Sys2Proof.Machine
end

