-- ==== Sys2Proof/Machine/MediaState.lean ====
section
/-! DEFINITION. The state on the media's side of the module: the bell plan, holdings, zones, stored units, zone
slots, dies, channels, checkpoints and rebuilds. -/

namespace Sys2Proof.Machine

/-- Zone states (R230, Table 8.1). -/
inductive ZState where
  | empty | open_ | closed | full
  deriving DecidableEq, Repr

/-- Where the partial state of a CLOSED zone stands (R603). -/
inductive Park where
  /-- no parking is due or done -/
  | none
  /-- the parking program has not completed: the state is in staging -/
  | staging
  /-- parked in the n-th parking slot of the zone's ward -/
  | parked (n : Nat)
  deriving DecidableEq, Repr

/-- A zone of a holding (R229, R230). -/
structure Zone where
  st : ZState
  /-- committed write pointer (R232) -/
  wp : Nat
  lclass : Nat
  sgroup : Nat
  /-- the submission ring whose failure fenced it (R183), as function * 1024 + ring, and the failing position -/
  fence : Option (Nat × Nat)
  /-- the bound slot (R239), as (ward * 26 + die row) * 4096 + slot -/
  slot : Option Nat
  park : Park
  /-- write pointer at FINISH (R237) -/
  finishAt : Option Nat
  deriving DecidableEq, Repr

/-- A zone nothing was done to: EMPTY. -/
def Zone.fresh : Zone := ⟨.empty, 0, 0, 0, none, none, .none, none⟩

/-- A random-area unit and its place (R247). -/
structure RUnit where
  unit : StUnit
  slot : Nat
  off : Nat
  deriving DecidableEq, Repr

/-- A holding (R100, R101, Table 23.8). -/
structure Holding where
  owner : Nat
  /-- false GREEDY, true SEGREGATE -/
  policy : Bool
  quota : Nat
  openLimit : Nat
  raAllow : Nat
  /-- ledger number of the last holding command -/
  ledger : Nat
  /-- its AES-256-XTS key, by the number of its drawing (R101, R551) -/
  key : Nat
  /-- policy, quota, open-zone limit and allowance in force until the next boundary (R105) -/
  old : Option (Bool × Nat × Nat × Nat)
  deriving DecidableEq, Repr

/-- Uses of a zone slot (R239, R240, R343, Table 8.4). -/
inductive SlotUse where
  | free
  | bound (z : Nat)
  /-- released when `begun` checkpoints had begun (R240) -/
  | releasing (begun : Nat)
  /-- held for a SCAN (R343), released when `begun` checkpoints had begun -/
  | held (z begun : Nat)
  /-- lost (R252, R299); whether its plane-blocks joined the retirement pool (R252) -/
  | lost (pooled : Bool)
  | random
  | meta_
  | parking
  | cellar
  | pool
  deriving DecidableEq, Repr

/-- What a die operation is for (Table 2.2, Table 10.1). -/
inductive Purpose where
  /-- one complete program unit of a zone or stream, from staging (R265) -/
  | host
  | parity
  /-- parking of the partial state of a zone (R235), or of a stream: 2^40 + its number (R531) -/
  | park (z : Nat)
  | reloc
  | rebuild
  | ckpt
  | cellar
  /-- step `k` of the ladder for unit `u` of a word line, with `n` array reads of the step still to make (R257) -/
  | ladder (u k n : Nat)
  /-- a page of a block group being relocated (R293) -/
  | copy (page : Nat)
  /-- a share of reconstruction `g` on a member, read as class 5 (R282) -/
  | share (g member : Nat)
  /-- units of one page, read to count their decodes (R296), or for a retention scan (R334) -/
  | patrol (us : List Nat) (ret : Bool)
  /-- the valid units of a page of a random-area slot that is reclaimed (R290) -/
  | reclaim (page : Nat)
  /-- erase of swapped-out blocks (plane, block) that join the pool (R293) -/
  | old (blocks : List (Nat × Nat))
  /-- a scan slice: job, zone, units of one page (R32) -/
  | scan (j z : Nat) (os : List Nat)
  /-- the erase of a block group whose data has gone (R286) -/
  | internal
  deriving DecidableEq, Repr

/-- Kinds of die operation (Table 2.4). -/
inductive OpAct where
  | read | program | erase
  deriving DecidableEq, Repr

/-- One operation that waits for a plan (R43): class, die, act, slot and word line on the die, the tenant charged
(0 for internal work, R51), and its purpose. -/
structure Work where
  cls : Nat
  die : DieId
  act : OpAct
  slot : Nat
  wl : Nat
  tenant : Nat
  why : Purpose
  deriving DecidableEq, Repr

/-- A program or erase running on a die (R46, R261). Times are ns of the boot. -/
structure DieOp where
  work : Work
  /-- planned end -/
  endNs : Nat
  /-- moment of the last resume, 0 if none -/
  resumeNs : Nat
  suspended : Bool
  /-- when the die reported suspended, ns -/
  suspAt : Nat
  /-- a suspend was issued and not answered -/
  suspending : Bool
  /-- suspends spent -/
  suspends : Nat
  deriving DecidableEq, Repr

/-- A read-level loop (R274, R275): 15 threshold offsets, their correction counts, and the codewords fed. -/
structure Loop where
  offs : Tab Int
  up : Tab Nat
  down : Tab Nat
  fed : Nat
  deriving DecidableEq, Repr

/-- A loop after an erase (R274). -/
def Loop.fresh : Loop := ⟨[], [], [], 0⟩

/-- A die (R259 to R261, R274, R276, R298). -/
structure Die where
  op : Option DieOp
  failed : Bool
  /-- word lines listed since delivery (R276): plane-block * 512 + word line -/
  defects : List Nat
  /-- plane-blocks whose word lines marked at manufacture have left the list (R276) -/
  unmarked : List Nat
  /-- the own offsets of listed word lines, as the step that last decoded them set them (R276) -/
  defOffs : Tab (List Int)
  /-- the offsets for the last programmed word line of an open block (R274) -/
  tail : Loop
  /-- bells of the retirements of its plane-blocks (R298 cause 2) -/
  retiredAt : List Nat
  /-- free word lines of its cellar block, whether it is in preparation, and the last dump that took some of it (R322) -/
  cellarFree : Nat
  cellarPrep : Bool
  cellarSeq : Nat
  deriving DecidableEq, Repr

/-- A die at delivery. -/
def Die.fresh : Die := ⟨none, false, [], [], [], Loop.fresh, [], 512, false, 0⟩

/-- A member of a die row (R25, R300). -/
structure Mem where
  die : DieId
  /-- the member failed and no spare is named -/
  failed : Bool
  /-- the named spare is REBUILDING: slots whose block group has passed (R302) -/
  rebuilding : Bool
  passed : List Nat
  /-- word lines programmed so far by the rebuild of the block group at hand: slot, word lines -/
  cursor : Option (Nat × Nat)
  /-- units of the word line at hand that are not reconstructed yet, while it is read (R301) -/
  lineLeft : Nat
  /-- slots whose share is lost for good (R299) -/
  lostSlots : List Nat
  /-- the row is package-shared or channel-shared through this member (R267, R304) -/
  pkgShared : Bool
  chanShared : Bool
  deriving DecidableEq, Repr

/-- A block group (R274, R295). -/
structure Group where
  /-- word lines programmed since the erase -/
  prog : Nat
  /-- holds old data that must be erased first (R240) -/
  dirty : Bool
  /-- blank-checked since the erase (R260) -/
  blank : Bool
  /-- DEC and RTY by plane (R295) -/
  dec : Tab Nat
  rty : Tab Nat
  /-- read-level tracking (R274, R275) -/
  loop : Loop
  /-- reads since the last program (R296) -/
  reads : Nat
  /-- powered time at which its last round of patrol reads began, ns; the reads counted then; the next word line of a round under way
  (R296) -/
  patrol : Nat
  patrolReads : Nat
  round : Option Nat
  /-- powered time of its first program since the erase, ns (R334) -/
  progAt : Nat
  /-- the present window of 64 reads (R276): reads in it, word lines that needed step 9 or higher, word lines that needed
  step 1 or higher, as plane * 512 + word line -/
  window : Nat
  hot : List Nat
  warm : List Nat
  deriving DecidableEq, Repr

/-- An erased block group. -/
def Group.fresh : Group := ⟨0, false, false, [], [], Loop.fresh, 0, 0, 0, none, 0, 0, [], []⟩

/-- Channel states (Table 9.4). -/
inductive ChanState where
  | inService | spare | retraining | failed
  deriving DecidableEq, Repr

/-- A flash channel (R272, Table 23.9). -/
structure Chan where
  st : ChanState
  /-- failed attempts in a row -/
  fails : Nat
  rdEye : Nat
  wrEye : Nat
  failedPos : List Nat
  /-- a retrain is due, and waits for R273 -/
  due : Bool
  /-- a retrain attempt is running -/
  trying : Bool
  /-- codeword transfers made in the read window of the last read point (R45) -/
  window : Nat
  /-- codeword transfers that programs and internal reads admitted so far have still to make (R43, R260) -/
  busy : Nat
  /-- transfers of internal reads, and of scan slices, since the last read point (R45) -/
  outside : Nat
  moved : Nat
  /-- bell of the last re-centring (R271) -/
  centred : Nat
  deriving DecidableEq, Repr

/-- Who waits for a unit that is read. -/
inductive SliceFor where
  /-- unit i of a host read command -/
  | cmd (r : Ref) (i : Nat)
  /-- a share of reconstruction group g (R277) -/
  | recon (g : Nat) (member : Nat)
  /-- unit o of zone z of a scan (R32) -/
  | scan (j z o : Nat)
  /-- step `k` of the ladder, in the background, with `n` array reads of it still to make (R257, R58) -/
  | ladder (k n : Nat)
  /-- a copy of a relocation (R293) -/
  | copy
  /-- a word line that a rebuild reconstructs (R301), by member number -/
  | line (m : Nat)
  /-- a unit of a random-area slot that is reclaimed (R290) -/
  | reclaim
  /-- a unit of job read `n` (R361) -/
  | req (n : Nat)
  /-- a decode that is counted only (R296), or for a retention scan (R334) -/
  | patrol (ret : Bool)
  deriving DecidableEq, Repr

/-- Life of a read slice (R44, R46): `sensed` once its array read has ended and codewords of it wait for their transfer (R45). -/
inductive SlicePhase where
  | queued | suspending | sensing | sensed
  deriving DecidableEq, Repr

/-- A read slice: one page read of a die on one or more planes (R44, R259, R279), with the units wanted of it, by their index in
the program unit, and its class in the plan (Table 2.2). -/
structure Slice where
  die : DieId
  slot : Nat
  wl : Nat
  page : Nat
  wants : List (Nat × SliceFor)
  cls : Nat
  phase : SlicePhase
  deriving DecidableEq, Repr

/-- A reconstruction of units of one page (R277, R279): the units wanted, its place and target member, its class, the members
whose shares are or were read, the shares that passed (unit, member, bytes other than those stored), those whose whole ladder
failed (unit, member), and whether it serves a die that could not (R31). -/
structure Recon where
  id : Nat
  wants : List (Nat × SliceFor)
  ward : Nat
  row : Nat
  slot : Nat
  wl : Nat
  page : Nat
  target : Nat
  cls : Nat
  tried : List Nat
  got : List (Nat × Nat × Option Bytes)
  dead : List (Nat × Nat)
  busy : Bool
  deriving DecidableEq, Repr

/-- A random-area slot (R289): its write stream while open, units filled, order of closing. -/
structure RaSlot where
  stream : Option Nat
  fill : Nat
  closedAt : Nat
  erased : Bool
  /-- stripe rows that hold host data, and not the gleaner's copies alone (R265) -/
  hostRows : List Nat
  deriving DecidableEq, Repr

/-- The maps of where data lies (R284): uses of slots, zone table, random-area map with its slots and streams, block map, ward table. -/
structure Maps where
  slots : Tab SlotUse
  zones : Tab Zone
  rand : Tab RUnit
  raSlots : Tab RaSlot
  streams : Tab (Nat × Nat)
  bmap : Tab Nat
  members : Tab Mem
  deriving DecidableEq, Repr

/-- A map-journal record (R284): the new entry of a map, or that its entry is gone. -/
inductive JRec where
  | slot (n : Nat) (x : Option SlotUse)
  | zone (n : Nat) (x : Option Zone)
  | rand (n : Nat) (x : Option RUnit)
  | raSlot (n : Nat) (x : Option RaSlot)
  | stream (n : Nat) (x : Option (Nat × Nat))
  | block (n : Nat) (x : Option Nat)
  | member (n : Nat) (x : Option Mem)
  deriving DecidableEq, Repr

/-- What a checkpoint saves (R285): the maps, and the units that they point at (R328), with the streams whose partial state is parked, and
the ledger count. -/
structure Saved where
  maps : Maps
  units : Tab StUnit
  cells : Tab StUnit
  parity : Tab Bytes
  raParked : List Nat
  parking : Tab Nat
  ledger : Nat
  deriving DecidableEq, Repr

/-- Kinds of figures the wear report gives for the last 24 h (Table 19.12): decodes, with their step-0 iterations, retries,
decodes at steps 9 and 10, block groups refreshed, plane-blocks retired. -/
inductive WearKind where
  | decode | retry | step9 | step10 | refreshed | retired
  deriving DecidableEq, Repr

/-- Per-ward accounts (R241, R291, R309). -/
structure Ward where
  /-- random-area extent in slots (R291) -/
  extent : Nat
  /-- units copied by the gleaner since delivery -/
  copied : Nat
  /-- what the 24 h figures of Table 19.12 count, newest first: powered time in ns, kind, amount -/
  hist : List (Nat × WearKind × Nat)
  /-- the gleaner reclaims the ward's random area until it has 8 free slots (R290) -/
  reclaiming : Bool
  /-- slots it reclaims, oldest first, and the added slot it empties to return to the pool (R290, R291) -/
  victims : List Nat
  shrink : Option Nat
  /-- next stripe row of the metadata slots (R285), and of the parking slots (R235): slot of the part * 512 + word line -/
  metaRow : Nat
  parkRow : Nat
  deriving DecidableEq, Repr

/-- A relocation whose copies are programmed and not committed (R286, R293): the new blocks by plane. -/
structure Move where
  die : DieId
  slot : Nat
  /-- plane, new block -/
  fresh : List (Nat × Nat)
  /-- planes whose old block is retired -/
  retire : List Nat
  /-- word lines to copy, word lines copied, and units of the next one that are not read yet -/
  wls : Nat
  done : Nat
  left : Nat
  deriving DecidableEq, Repr

/-- A unit of the random area that is copied to its new place, and not recorded there (R286): its key, the place copied from, and that of
the copy. -/
structure Copy where
  key : Nat
  slot : Nat
  off : Nat
  toSlot : Nat
  toOff : Nat
  deriving DecidableEq, Repr

/-- The media (chapters 8 to 10). -/
structure Media where
  /-- slots whose use differs from the delivery layout of R601 -/
  slots : Tab SlotUse
  wards : Tab Ward
  members : Tab Mem
  dies : Tab Die
  groups : Tab Group
  chans : Tab Chan
  /-- block map: swapped blocks (R264, R293), by die, plane, slot -/
  bmap : Tab Nat
  /-- p/e cycles and cycle number of the last crossing of a physical plane-block (R245, R297) -/
  wear : Tab Nat
  crossed : Tab Nat
  /-- retired physical plane-blocks (R297) -/
  retired : List Nat
  /-- factory spare blocks used, by plane (R252) -/
  factory : Tab Nat
  /-- pool blocks taken out, and blocks given to the pool, as physical plane-block numbers -/
  poolTaken : List Nat
  poolGiven : List Nat
  /-- work of classes 3 to 7 that waits for a plan (R43) -/
  work : List Work
  slices : List Slice
  recons : List Recon
  nextRecon : Nat
  /-- refresh queue (R295): priority 0 step 10 failed, 1 deep, 2 other; die, slot, planes that crossed -/
  refresh : List (Nat × DieId × Nat × List Nat)
  /-- block groups to relocate for a retirement (R294, R297), with the planes whose block retires as it starts -/
  retireq : List (DieId × Nat × List Nat)
  moves : List Move
  /-- block groups to erase, with the number of checkpoints begun when queued (R286) -/
  erasq : List (DieId × Nat × Nat)
  /-- swapped-out blocks to erase (R293): die, (plane, block) pairs, checkpoints begun when queued -/
  oldBlocks : List (DieId × List (Nat × Nat) × Nat)
  /-- open random-area streams by ward * 16 + stream: slot, units filled (R250) -/
  streams : Tab (Nat × Nat)
  /-- streams whose partial state is parked (R531) -/
  raParked : List Nat
  raSlots : Tab RaSlot
  copies : List Copy
  /-- protected bytes of the parity shares, running or programmed (R262, R265), by ((slot * 512 + row) * 64 + unit) * 4 + share;
  an unlisted one is zero -/
  parity : Tab Bytes
  /-- units written in slots that are no zone's: random-area units, also those rewritten since, by slot * 2^20 + offset -/
  cells : Tab StUnit
  /-- parking places of zones and streams whose parking programs are not complete (R235, R531): zone or 2^40 + stream, place -/
  parking : Tab Nat
  /-- a checkpoint runs: bell it began; checkpoints begun; number of the last complete; its bell (R285) -/
  ckpt : Option Nat
  begun : Nat
  ckptDone : Nat
  ckptBell : Nat
  /-- bytes of journal since the last complete checkpoint, and its records, oldest first (R284, R315); the maps as last recorded -/
  journal : Nat
  recs : List JRec
  noted : Maps
  /-- the last complete checkpoint (R285); what the running one saves, with the bytes and records of journal it covers -/
  saved : Saved
  saving : Option (Saved × Nat × Nat)
  /-- the condition of R253 holds -/
  capShort : Bool
  /-- units that could not be recovered (R281, R328): of zones, and of the random area from 2^60 on -/
  lostUnits : List Nat
  /-- a retention scan under way (R334): by block group, its next word line and the end of those to read -/
  toScan : Tab (Nat × Nat)
  deriving DecidableEq, Repr

/-- The bell (chapter 2). -/
structure Bell where
  /-- BELL_PERIOD and BELL_PERIOD_ACTIVE (R35): 0 8 µs, 1 16 µs, 2 32 µs -/
  period : Nat
  active : Nat
  /-- bell number (R37) and boot count (R39) -/
  now : Nat
  boot : Nat
  /-- BELL_OVR (R57) -/
  ovr : Tab Nat
  /-- BELL_STAMP, newest first (R41) -/
  stamps : List Stamp
  /-- the plan of the next bell has closed, and what it admits (R42) -/
  closed : Bool
  next : List Work
  /-- pool left to array reads in this bell, mW (R49), and read reserve used by ward -/
  poolLeft : Nat
  reserved : Tab Nat
  /-- pool shares of the next bell by ward, mW (R50) -/
  grants : Tab Nat
  /-- credit of (ward * 4096 + tenant), mW (R52) -/
  credit : Tab Int
  /-- channels that run a fallback plan in the next bell, and in this one (R57) -/
  fallbackNext : List Nat
  fallback : List Nat
  /-- metered power overran: the pool admits nothing in the next bell (R57) -/
  poolStop : Bool
  /-- metered flash power of the last bell, 0.1 W; input in mV -/
  flashPower : Nat
  inputMv : Nat
  /-- bell of the last overrun of R57 row 4 (R503) -/
  lastOver : Option Nat
  /-- an event was raised to the managers in this bell (R151) -/
  eventRaised : Bool
  /-- doorbell polls issued in this bell (R135) -/
  polls : Nat
  /-- overruns of DRAM drain batches that shorten the next batch (R53): lines, by channel -/
  shorten : Tab Nat
  /-- DRAM channels with a watermark batch in the next plan, and in the present one (R42, R467); those that have carried theirs out (R53) -/
  batchNext : List Nat
  batch : List Nat
  drained : List Nat
  /-- bells of this boot in which the 2 s of R182 stood still: no port UP, or an activation -/
  still : Nat
  deriving DecidableEq, Repr

end Sys2Proof.Machine
end

