-- ==== Sys2Proof/Machine/ComputeState.lean ====
section
/-! DEFINITION. The state of computation next to the media: jobs, stream cores, dispatcher and sieve. -/

namespace Sys2Proof.Machine

/-- A work item: words 0 to 3 (R381, R418). -/
structure Item where
  w0 : W64
  w1 : W64
  w2 : W64
  w3 : W64
  deriving DecidableEq, Repr

/-- How a landing product combines with its P register (R371, R408, R409). -/
inductive Land where
  | replace
  /-- sum modulo 2^128 -/
  | add
  /-- sum per element of width E -/
  | addElem (e : Nat)
  | xor
  deriving DecidableEq, Repr

/-- A multiply in flight: its register, the cycle it issued in, how it lands, and its product (R370). -/
structure Prod where
  p : Nat
  issued : Nat
  how : Land
  val : W128
  deriving DecidableEq, Repr

/-- A load or atomic whose value is not present yet (R366): a w register or a g register, and the value. -/
structure Load where
  wide : Bool
  rd : Nat
  val : W128
  deriving DecidableEq, Repr

/-- A DMA transfer outstanding (R379). -/
structure Dma where
  tag : Nat
  toRemote : Bool
  local_ : Nat
  remote : Nat
  len : Nat
  deriving DecidableEq, Repr

/-- A request outstanding (R388, R416): the PC of its instruction, the address of its block, whether it is a lookup, the block as issued, and the
data gathered as it issued: the units of a job read, at its ledger-seen value (R361), or those of a job append; a job read's number, and
its units still to be read from flash. -/
structure Req where
  pc : Nat
  addr : Nat
  lookup : Bool
  block : Bytes
  data : Bytes
  /-- a job read that meets an unrecoverable unit (R361) -/
  bad : Bool
  /-- units of a job read charged to the scan-bytes ceiling so far (R345) -/
  paid : Nat
  num : Nat
  left : Nat
  deriving DecidableEq, Repr

/-- An item in service or parked, with the architectural state of its core (R365, R385). -/
structure Ctx where
  job : Nat
  item : Item
  pc : Nat
  /-- g1 to g31, w0 to w15, a0 to a7, m0 to m7, P0 to P3: those that are not zero -/
  g : Tab W64
  w : Tab W128
  a : Tab W64
  m : Tab W32
  p : Tab W128
  /-- LS, LE, LC by level, and LDEPTH (R373) -/
  ls : Tab W64
  le : Tab W64
  lc : Tab W32
  ldepth : Nat
  amode : W64
  cycle : Nat
  prods : List Prod
  loads : List Load
  /-- stores outstanding, oldest first: address and bytes (R403) -/
  stores : List (Nat × Bytes)
  dma : List Dma
  reqs : List Req
  /-- local memory as saved while parked (R428) -/
  saved : Tab Byte
  deriving DecidableEq, Repr

/-- A logical stream core (R376, R428, R432). -/
structure Core where
  /-- the physical core behind the logical number; none when the number left service (R433) -/
  phys : Option Nat
  ctx : Option Ctx
  /-- the prefetch slot (R426): job and item -/
  slot : Option (Nat × Item)
  parked : List Ctx
  /-- function last served (R358) -/
  lastFn : Option Nat
  /-- local memory: bytes that are not zero -/
  lm : Tab Byte
  deriving DecidableEq, Repr

/-- A hamlet (R359, R421, R432). -/
structure Hamlet where
  /-- granules taken by jobs -/
  used : Nat
  /-- physical cores retired (R432) -/
  gone : List Nat
  /-- ready items in the order they entered, with their jobs (R421) -/
  ready : List (Nat × Item)
  /-- physical cores to be replaced at the next boundary: logical number (R432) -/
  pendSub : List Nat
  /-- items ready here or in slots of its cores, with their jobs, in the order they entered (R421) -/
  entered : List (Nat × Item)
  deriving DecidableEq, Repr

/-- A hamlet at delivery. -/
def Hamlet.fresh : Hamlet := ⟨0, [], [], [], []⟩

/-- Job states (R338); an ENDED job is removed. -/
inductive JobState where
  | queued | loading | running
  deriving DecidableEq, Repr

/-- A zone of a SCAN's snapshot (R342): zone key, write pointer at L, the units after a FINISH (R342), the slot read
from, next unit to plan, units outstanding; the next unit to pass through the gate, and the units that were read and wait for one before
them (R353): none for one that holds nothing. -/
structure ScanZone where
  z : Nat
  wp : Nat
  slot : Nat
  next : Nat
  out : Nat
  pos : Nat
  wait : List (Nat × Option Bytes)
  deriving DecidableEq, Repr

/-- A batch in the scan buffer (R355): its window address, ward and length. -/
structure Batch where
  addr : Nat
  ward : Nat
  len : Nat
  deriving DecidableEq, Repr

/-- A job (chapter 12). -/
structure Job where
  r : Ref
  /-- fetch order, module-wide (R335) -/
  order : Nat
  isScan : Bool
  /-- the job's holding; none with NOHOLD (R361) -/
  holding : Option Nat
  /-- the key its gate contexts are loaded with, by the number of its drawing (R27, R336, R552) -/
  key : Option Nat
  st : JobState
  ledger : Nat
  /-- bell it entered LOADING, and RUNNING -/
  loadBell : Nat
  runBell : Nat
  prio : Nat
  /-- cores wanted at once (R335), memory in 16 MiB, HAMLET_NEED; zero without a program -/
  cores : Nat
  mem : Nat
  need : Nat
  /-- the code image, ENTRY, ARG, TIME_LIMIT (R360) -/
  code : Bytes
  image : Bytes
  entry : Nat
  arg : W64
  timeLimit : Nat
  /-- OUT_LIMIT, or the output zone (R362, R363) -/
  outLimit : Nat
  outZone : Option Nat
  /-- length of the parameter block, after which output lies in the buffer (R193) -/
  blockLen : Nat
  hamlets : List Nat
  /-- next hamlet to receive a START or BATCH item (R421) -/
  turn : Nat
  zones : List ScanZone
  /-- the batch being filled in each ward, and posted batches (R355) -/
  filling : Tab Bytes
  batches : List Batch
  bufNext : Nat
  /-- wards whose gates are paused (R356) -/
  paused : List Nat
  /-- output accepted and not sent; bytes sent; bytes delivered; bell since which the job is paused (R340, R362) -/
  output : Bytes
  sent : Nat
  delivered : Nat
  outPaused : Option Nat
  frameErr : Bool
  truncated : Bool
  stopped : Bool
  /-- the status the job ends with once its output is delivered, and its FAULT code -/
  ending : Option Nat
  faultCode : Nat
  /-- the fault that ends the job, while its cores stop (R391, R392): its bell, core (hamlet * 256 + core) and CYCLE, and its record;
  further faults counted; cores that have stopped -/
  fault : Option (Nat × Nat × Nat × Bytes)
  faults : Nat
  halted : List Nat
  /-- DRAM window, scan buffer and hamlet shares: bytes that are not zero; poisoned words of the DRAM window, by offset / 8
  (R377, R380) -/
  dram : Tab Byte
  scanBuf : Tab Byte
  share : Tab (Tab Byte)
  poison : List Nat
  /-- poisoned words of its hamlet shares: hamlet, and offset / 8 in the data (R380, R473) -/
  sharePoison : List (Nat × Nat)
  deriving DecidableEq, Repr

/-- The dispatcher (chapter 15). -/
structure Disp where
  /-- carried fractions of a quantum by function, in 1/65536 (R422) -/
  carry : Tab Nat
  /-- quanta of the next bell by function, and what each core (hamlet * 16 + core) is placed for: function + 4096 * the
  step of R423 -/
  grants : Tab Nat
  place : Tab Nat
  /-- the same for the running bell -/
  now : Tab Nat
  /-- TRC_DISP_CTRL, COUNT, SEL; the records by index; records of this bell; records dropped (R434 to R436) -/
  ctrl : W64
  cnt : Nat
  sel : Nat
  recs : Tab Bytes
  inBell : Nat
  dropped : Nat
  /-- items a FLOW_HOLD was recorded for (R434) -/
  heldSeen : List (Nat × Item)
  /-- accepted items with a flow that are not in service, parked or in a slot, oldest first: job, hamlet, item (R424) -/
  flows : List (Nat × Nat × Item)
  deriving DecidableEq, Repr

/-- A sieve row image (R437). -/
structure Row where
  key : BitVec 320
  mask : BitVec 320
  result : W64
  part : Nat
  valid : Bool
  deriving DecidableEq, Repr

/-- The row image with VALID 0 (R438). -/
def Row.none : Row := ⟨0, 0, 0, 0, false⟩

/-- The sieve (chapter 16). -/
structure Sieve where
  /-- SVE_CTRL.MODE, ACTIVE, OWNER -/
  mode : Bool
  active : Bool
  owner : Nat
  /-- array and shadow by physical row, those not VALID 0 (R437, R452) -/
  arr : Tab Row
  shadow : Tab Row
  /-- segment -> function * 64 + rank (R441) -/
  segs : Tab Nat
  /-- SPARES_LEFT, weak rows, REPAIRS (R459) -/
  sparesLeft : Nat
  weak : List Nat
  repairs : Nat
  /-- bells of the repairs of a row in the last 2^20 bells (R456) -/
  hist : Tab (List Nat)
  /-- rows retired, spare at the next boundary (R456); rows replaced -/
  retiring : List Nat
  replaced : List Nat
  deriving DecidableEq, Repr

end Sys2Proof.Machine
end

