-- ==== Sys2Proof/Machine/PlatformState.lean ====
section
/-! DEFINITION. The state of the platform: boot, DRAM, scrubber, loft, health, events, calendar, power, power loss,
life cycle, service connector, SMBus, activation. -/

namespace Sys2Proof.Machine

/-- GLB_BOOT and what a boot leaves (R557, R564). -/
structure Boot where
  step : Nat
  ready : Bool
  restored : Bool
  fallback : Bool
  /-- bank booted, and bank of the image that runs: false A, true B (R564, R565) -/
  bank : Bool
  running : Bool
  lastStop : Nat
  readyMs : Nat
  /-- stop code of a halted boot (R561) -/
  halted : Option Nat
  /-- the boot holds at step 2 while RESET# is low (R593) -/
  held : Bool
  /-- the boot began at power good, not at a module reset (R557) -/
  cold : Bool
  /-- a stop code written by an earlier boot and not yet reported (R561, R592) -/
  stopLog : Nat
  deriving DecidableEq, Repr

/-- Rank states (Table 17.3). -/
inductive RankState where
  | spare | active | filling | draining | retraining | retired
  deriving DecidableEq, Repr

/-- A DRAM rank (R480, Table 17.7). -/
structure Rank where
  st : RankState
  rdEye : Nat
  wrEye : Nat
  ce : Nat
  /-- the spare that fills in its place (R481) -/
  partner : Option Nat
  /-- bell of the last re-centring (R469) -/
  centred : Option Nat
  deriving DecidableEq, Repr

/-- DRAM (chapter 17). -/
structure Dram where
  /-- ranks that differ from delivery -/
  ranks : Tab Rank
  /-- channels out of service (R470) -/
  chanOut : List Nat
  /-- remap entries in use by rank, and by SRAM macro (R478, R479) -/
  remap : Tab Nat
  sramRemap : Tab Nat
  /-- plain capacity lost, and taken by re-mirrors, in 16 MiB (R482) -/
  plainLost : Nat
  /-- ranks out of service whose mirrored content waits for re-mirroring (R482) -/
  remirror : List Nat
  /-- bytes of the writes in the detour log, by pair (R464) -/
  detour : Tab Nat
  /-- lines in the write queue, by channel (R467) -/
  wq : Tab Nat
  /-- time by which a drain overran the last boundary: channels (R53) -/
  late : List Nat
  /-- poisoned words outside job windows: rank * 2^31 + word (R473) -/
  poison : List Nat
  deriving DecidableEq, Repr

/-- The scrubber (R476, R477). -/
structure Edc where
  start : W64
  end_ : W64
  busy : Bool
  fin : Bool
  sum : List W64
  /-- words corrected and uncorrectable since boot; bell of the last full pass (Table 19.11) -/
  ce : Nat
  ue : Nat
  passBell : Nat
  deriving DecidableEq, Repr

/-- How the loft operation requested last ended (R484, R486, R487, R489). -/
inductive LoftRes where
  | ok | loftBusy | protected_ | programMismatch | eraseFailed | aborted
  deriving DecidableEq, Repr

/-- A firmware image as a loft bank holds it (R549): whether it verifies, SVN, VERSION, BODY_HASH. -/
structure Image where
  ok : Bool
  svn : Nat
  version : Nat
  hash : Bytes
  deriving DecidableEq, Repr

/-- A record of a log of bank K (R493): its area by first sector, TYPE, LEN, SEQ, and the sector and word it begins at. -/
structure LogRec where
  area : Nat
  kind : Nat
  len : Nat
  seq : Nat
  sector : Nat
  word : Nat
  deriving DecidableEq, Repr

/-- A log of bank K (R493): its sectors in use, the oldest first and the one written last, the write position in that one, and the
sector sequence number and SEQ given last. -/
structure Log where
  used : List Nat
  pos : Nat
  sectors : Nat
  seq : Nat
  deriving DecidableEq, Repr

/-- The loft (chapter 18). -/
structure Loft where
  /-- 80-bit words written since delivery and not erased: sector * 512 + word (R483) -/
  words : Tab (BitVec 80)
  /-- sector being erased, by bank 0 A, 1 B, 2 K (R487) -/
  busy : Tab Nat
  /-- outcome of the operation requested last -/
  last : LoftRes
  /-- sectors whose protect bit is 0 (R489) -/
  clear : List Nat
  wpViol : Nat
  clrOpen : Bool
  /-- bank named by the last valid selector record: false A, true B (R496, R559) -/
  next : Bool
  /-- spares used, by bank; sectors remapped; erases by sector; LOFT_WEAR raised (R497, R498) -/
  used : Tab Nat
  remapped : List Nat
  erases : Tab Nat
  wearSeen : Bool
  /-- log sectors that left their area, and image-bank sectors left in use with no spare (R499) -/
  gone : List Nat
  stuck : List Nat
  /-- what each image bank holds: A then B (R549) -/
  imgA : Image
  imgB : Image
  /-- the logs by area of Table 18.4 (its first sector of bank K), and where their records stand, newest first (R493) -/
  logs : Tab Log
  recs : List LogRec
  /-- records that wait for bank K or for a free sector: area, TYPE, payload, oldest first (R487) -/
  waiting : List (Nat × Nat × Bytes)
  /-- log sectors queued for erase (R488, R494) -/
  eraseQ : List Nat
  deriving DecidableEq, Repr

/-- Health (chapter 19). -/
structure Health where
  /-- 0 HEALTHY, 1 ATTENTION, 2 REPLACE_REQUESTED (R502) -/
  state : Nat
  alert : Bool
  locate : Bool
  attn : BitVec 32
  reasons : BitVec 5
  wards : BitVec 4
  /-- temperatures: inlet, controller, hottest die, hottest DRAM (R600) -/
  temps : List Int
  /-- a thermal condition holds: rows of Table 24.9 -/
  hot : List Nat
  /-- since when each condition of R316 has held, ns, by its bit of PWR_INHIBIT; those that have lasted more than 1 s -/
  inhSince : Tab Nat
  inhRaised : List Nat
  /-- HOLDUP_LOW, CELL_LOW raised once (R311, R332) -/
  lowRaised : Bool
  cellRaised : Bool
  /-- host and media units written (R306, R309) -/
  hostUnits : Nat
  mediaUnits : Nat
  /-- the telemetry record sampled at the last bell boundary (R521) -/
  telem : Bytes
  deriving DecidableEq, Repr

/-- The calendar (R329, R330). -/
structure Clk where
  /-- 0 INVALID, 1 SET, 2 LOCKED, 3 HOLDOVER -/
  st : Nat
  /-- UTC at the last stepping or setting, in units of 2^-32 s, and the boot time in ns it stood for -/
  base : Int
  baseNs : Nat
  /-- CLK_OFFSET, Sync messages measured so far, path delay -/
  offset : Int
  syncs : Nat
  delay : Int
  /-- what the cell can still carry the calendar for, ns (R332) -/
  cellNs : Nat
  deriving DecidableEq, Repr

/-- An item of a dump (R313): a partial program unit by slot and first unit, with its units; the guards of a row by slot and row; the journal
tail by its bytes, with its records; module state: ledger count, boot count, sieve shadows. -/
inductive DumpItem where
  | part (slot off : Nat) (us : List StUnit)
  | guards (slot row : Nat)
  | journal (bytes : Nat) (recs : List JRec)
  | moduleState (ledger boot : Nat) (shadow : Tab Row)
  deriving DecidableEq, Repr

/-- A dump (R313) with its manifest (R324), which lists items, home programs and stripes. -/
structure Dump where
  seq : Nat
  complete : Bool
  released : Bool
  ledger : Nat
  /-- guards of the incomplete stripe rows (R314): protected bytes by (slot * 512 + row) * 64 + unit -/
  guards : Tab Bytes
  /-- items of the dump (R313, R324) -/
  items : List DumpItem
  /-- home programs of slots 2 to 4: die number, block, word line -/
  homes : List (Nat × Nat × Nat)
  /-- stripes, numbered upwards, and where the word lines of each lie (R323): stripe, die number, word line of the cellar block -/
  stripes : Nat
  cells : List (Nat × Nat × Nat)
  deriving DecidableEq, Repr

/-- A running power-loss sequence (R318 to R321). -/
structure LossSeq where
  /-- slot now running: 0 before the dump plan -/
  slot : Nat
  last : Nat
  /-- cellar word lines still to program: die number, stripe (R321) -/
  todo : List (Nat × Nat)
  /-- it began by PWR_DISABLE, by a disconnect, by a fall of the input -/
  standby : Bool
  cut : Bool
  deriving DecidableEq, Repr

/-- Power (chapters 11, 20, 24). -/
structure Pwr where
  /-- the module is powered and booted at least to step 1 -/
  on : Bool
  cur : Nat
  waking : Bool
  deepest : Nat
  /-- bell since which the module is idle (R530) -/
  idleFrom : Option Nat
  /-- entry work of Q3 is running (R531) -/
  entering : Bool
  /-- the checkpoint of that entry, by number, once it has begun -/
  entryCkpt : Option Nat
  /-- usable energy in 0.1 J, previous figure, measurement running (R311) -/
  usable : Nat
  prevUsable : Nat
  measuring : Bool
  /-- powered time of the last capacitance measurement, ns (R311) -/
  capAt : Option Nat
  /-- dies inhibited by temperature (R316), by number -/
  coldDies : List Nat
  /-- powered time before this boot, ns (R311, Table 19.12) -/
  powered : Nat
  loss : Option LossSeq
  dumps : List Dump
  /-- calendar time of the last heartbeat and of the last shutdown record, in units of 2^-32 s (R333) -/
  lastBeat : Option Int
  lastShut : Option Int
  /-- kind of the last retention scan: 1 priority, 2 full; 0 none (Table 11.6) -/
  scan : Nat
  /-- a disconnect waits to be reported: 1 electrical, 2 thermal (R592) -/
  cause : Nat
  /-- power good is withheld after a disconnect (R592, R600) -/
  latched : Bool
  /-- contacts (R588): RESET#, PWR_DISABLE, LAMP_REQ asserted -/
  reset : Bool
  disable : Bool
  lampReq : Bool
  deriving DecidableEq, Repr

/-- Life cycle and attestation (chapter 21). -/
structure Life where
  seals : Nat
  returns : Nat
  refurbs : Nat
  scrap : Bool
  floor : Nat
  debugOpen : Bool
  /-- the boot's debug challenge, as the number of its drawing (R547) -/
  chal : Nat
  /-- next unreserved signature index; indices of the present reservation not used yet (R554) -/
  attNext : Nat
  attLeft : Nat
  chainLen : Nat
  provisioned : Bool
  /-- REFURBISH whose media erase runs, with its command (R544) -/
  erasing : Option Ref
  /-- the vendor root hash in the fuse array (R541, R549) -/
  root : Bytes
  /-- bells of the reports signed in the last second (R555) -/
  attAt : List Nat
  deriving DecidableEq, Repr

/-- The TAP of the service connector (R548). -/
structure Tap where
  ir : Byte
  /-- status of the last debug token -/
  status : W32
  boundary : Bytes
  deriving DecidableEq, Repr

/-- A running activation (R565): its command and its phase, counted from 0 Verify. -/
structure Activation where
  r : Ref
  phase : Nat
  deriving DecidableEq, Repr

end Sys2Proof.Machine
end

