-- ==== Sys2Proof/Machine/State.lean ====
section
/-! DEFINITION. The whole state of the module, the reasons a step can stop, and the state after reset. -/

namespace Sys2Proof.Machine

/-- Why a command stops with a fault. The block has no exception entry, so the only fault is an operand that names
a part the module does not have: no module can receive such a command. Safe: nothing is claimed of it. -/
inductive Fault where
  /-- the command names a die, channel, core, rank, port slot or loft sector outside the module (R5, R22, R460, R483) -/
  | noSuchPart
  deriving DecidableEq, Repr

/-- Why a command is refused. -/
inductive Refusal where
  /-- no meaning is modelled for the command: nothing is claimed of it (safe); raised by Dispatch only -/
  | notModelled (mnemonic : String)
  deriving DecidableEq, Repr

/-- The state of the module (see INVENTORY.md, State). -/
structure State where
  /-- commands that wait, first in, first out -/
  pending : List Instr
  /-- the model's own: free values drawn so far (notes/assumptions/3.md) -/
  free : Nat
  /-- the model's own: what left the module, oldest first, and what waits to leave it (notes/assumptions/6.md) -/
  out : List Sent
  /-- RDMA operations of the module not wholly answered, oldest first (R77) -/
  rdma : List RdmaOp
  /-- the last ledger number issued (R158) -/
  ledger : Nat
  bell : Bell
  err : SetupErr
  boot : Boot
  portA : Port
  portB : Port
  net : Net
  /-- functions that are not ABSENT, or that have a history (R94, R128) -/
  fns : Tab Fn
  /-- rings by function * 1024 + number (R121) -/
  sqs : Tab Sq
  cqs : Tab Cq
  sems : Sems
  /-- completions that wait for the next boundary (R105) -/
  due : List Due
  /-- ABORT completions that wait for an acknowledgement (R187) -/
  aborts : List AbortWait
  holds : Tab Holding
  /-- ward cursors by holding * 256 + stream group (R244) -/
  cursors : Tab Nat
  /-- zones by holding * 2^20 + index, those not fresh (R229) -/
  zones : Tab Zone
  /-- stored zone units by zone * 2^20 + offset (R256) -/
  units : Tab StUnit
  /-- random-area units by holding * 2^26 + UNIT (R247) -/
  rand : Tab RUnit
  media : Media
  /-- units in staging, counted once (R238) -/
  staged : Nat
  jobs : Tab Job
  /-- next place in the fetch order of jobs (R335) -/
  jobOrder : Nat
  cores : Tab Core
  hamlets : Tab Hamlet
  disp : Disp
  sieve : Sieve
  dram : Dram
  edc : Edc
  loft : Loft
  health : Health
  /-- the module event log, oldest first, and the last sequence number (R515, R518) -/
  events : List Bytes
  eventSeq : Nat
  clk : Clk
  pwr : Pwr
  life : Life
  tap : Tap
  /-- the SMBus offset (R584) -/
  smbOff : Nat
  act : Option Activation
  /-- control cores active and spare (R512) -/
  ctlCores : Nat
  ctlSpares : Nat
  deriving DecidableEq, Repr

/-- A port at delivery: OFF, its registers at their reset words, no optical module seen (R89, Table 23.5). -/
def Port.fresh : Port :=
  { state := .off, fails := 0, regs := [], optic := none, held := false, rxDrop := 0, knockDrop := 0,
    knockMerge := 0, paused := [], xoff := [], knockSrc := [], echoes := 0, leftUp := none, nextHop := [], resolving := [],
    ptpHeard := [], lastSync := none, syncSince := none }

/-- An ABSENT function with no history (R52, R94, R578). -/
def Fn.fresh : Fn :=
  { state := .absent, quietAt := 0, dbAddr := 0, dbRkey := 0, pollN := 4, phase := 0, logSel := 0, dbStale := 0, pollDefer := 0,
    cqHeadBad := 0, res := Res.fresh, eff := Res.fresh, part := none, qp := [], qpAddr := [], qpTries := [], cc := [],
    gens := [], tol := 0, buckets := [0, 0, 0, 0], cursors := [], serial := 1, faults := [], knocked := false,
    knockDue := false, polling := [], left := [], polled := [], rr := 0, served := none }

/-- A manager at delivery: ACTIVE, with its fixed grant of 16 and 16 rings (R99, R578). -/
def Fn.manager (home : PortId) : Fn :=
  let r : Res := { Res.zero with sq := 16, cq := 16, home := home }
  { Fn.fresh with state := .active, phase := if home = .A then 0 else 1, res := r, eff := r, gens := [(0, 1), (1024, 1)] }

/-- A submission ring 0 of a manager at delivery: RING entry `i`, nothing defined yet (R124, R581); its GEN of 1 is the model's choice
(notes/assumptions/43.md). -/
def Sq.admin (i : Nat) : Sq :=
  { base := 0, rkey := 0, sizeLog := 4, cq := 0, gen := 1, index := i, frozen := false, dozing := false,
    activeFrom := 0, lastAdv := 0, fetched := 0, tail := 0, inBell := 0, errlog := [], cmds := [], reading := 0,
    discard := [] }

/-- A completion ring 0 of a manager at delivery: NOTIFY 1, CO_COUNT 1, CO_BELLS 0 (R581). -/
def Cq.admin (i : Nat) : Cq :=
  { base := 0, rkey := 0, sizeLog := 4, gen := 1, index := i, headAddr := 0, headRkey := 0, notify := true,
    coCount := 1, coBells := 0, posted := 0, headSeen := 0, reserved := 0, unacked := [], held := [],
    pendFrom := none, pendCount := 0, pendNow := false, attrNext := none, wantHead := false }

/-- The maps at delivery, and a checkpoint of them. -/
def Maps.fresh : Maps := ⟨[], [], [], [], [], [], []⟩
def Saved.fresh : Saved := ⟨Maps.fresh, [], [], [], [], [], 0⟩

/-- The media at delivery (R601, Table 8.4): every difference list empty. -/
def Media.fresh : Media :=
  { slots := [], wards := [], members := [], dies := [], groups := [], chans := [], bmap := [], wear := [],
    crossed := [], retired := [], factory := [], poolTaken := [], poolGiven := [], work := [], slices := [],
    recons := [], nextRecon := 0, refresh := [], retireq := [], moves := [], erasq := [], oldBlocks := [], streams := [], raParked := [], raSlots := [], copies := [],
    parity := [], cells := [], parking := [], ckpt := none, begun := 0, ckptDone := 0, ckptBell := 0, journal := 0, recs := [], noted := Maps.fresh, saved := Saved.fresh, saving := none, capShort := false, lostUnits := [], toScan := [] }

/-- The bell generator before power good (R35, R37): every register at its reset value. -/
def Bell.fresh : Bell :=
  { period := 1, active := 1, now := 0, boot := 0, ovr := [], stamps := [], closed := false, next := [],
    poolLeft := 120000, reserved := [], grants := [], credit := [], fallbackNext := [], fallback := [],
    poolStop := false, flashPower := 0, inputMv := 12000, lastOver := none, eventRaised := false, polls := 0, shorten := [], batchNext := [], batch := [], drained := [], still := 0 }

/-- An image bank that holds no image. -/
def Image.none : Image := ⟨false, 0, 0, []⟩

/-- The module right after reset: as delivered, before power good (R19, R22, R557). Values the spec does not give are the model's
choice (notes/assumptions/2.md), among them four temperatures of 25 °C, an input of 12,000 mV, and a verified image of VERSION 0
in bank A. -/
def State.reset : State :=
  { pending := [], free := 0, out := [], rdma := [], ledger := 0, bell := Bell.fresh, err := SetupErr.clear,
    boot := ⟨1, false, false, false, false, false, 0, 0, none, false, true, 0⟩,
    portA := Port.fresh, portB := Port.fresh,
    net := ⟨47110, 0, 2, .A, [], [], [], []⟩,
    fns := [(0, Fn.manager .A), (1, Fn.manager .B)],
    sqs := [(0, Sq.admin 0), (1024, Sq.admin 1)],
    cqs := [(0, Cq.admin 16384), (1024, Cq.admin 16385)],
    sems := ⟨[], [], [], [], 500⟩,
    due := [], aborts := [], holds := [], cursors := [], zones := [], units := [], rand := [],
    media := Media.fresh, staged := 0, jobs := [], jobOrder := 0, cores := [], hamlets := [],
    disp := {
      carry := [], grants := [], place := [], now := [], ctrl := 0x07FE1000, cnt := 0, sel := 0, recs := [],
      inBell := 0, dropped := 0, heldSeen := [], flows := [] },
    sieve := {
      mode := false, active := false, owner := 0, arr := [], shadow := [], segs := [], sparesLeft := 1024,
      weak := [], repairs := 0, hist := [], retiring := [], replaced := [] },
    dram := {
      ranks := [], chanOut := [], remap := [], sramRemap := [], plainLost := 0, remirror := [], detour := [],
      wq := [], late := [], poison := [] },
    edc := ⟨0, 0, false, false, [0, 0, 0, 0], 0, 0, 0⟩,
    loft := {
      words := [], busy := [], last := .ok, clear := [], wpViol := 0, clrOpen := true, next := false, used := [],
      remapped := [], erases := [], wearSeen := false, gone := [], stuck := [], imgA := ⟨true, 0, 0, []⟩, imgB := Image.none,
      logs := [], recs := [], waiting := [], eraseQ := [] },
    health := {
      state := 0, alert := false, locate := false, attn := 0, reasons := 0, wards := 0,
      temps := [25, 25, 25, 25], hot := [], inhSince := [], inhRaised := [], lowRaised := false,
      cellRaised := false, hostUnits := 0, mediaUnits := 0, telem := [] },
    events := [], eventSeq := 0,
    clk := ⟨0, 0, 0, 0, 0, 0, 180 * 86400000000000⟩,
    pwr := {
      on := false, cur := 0, waking := false, deepest := 4, idleFrom := none, entering := false, entryCkpt := none, usable := 0,
      prevUsable := 0, measuring := false, capAt := none, coldDies := [], powered := 0, loss := none, dumps := [], lastBeat := none, lastShut := none, scan := 0,
      cause := 0, latched := false, reset := false, disable := false, lampReq := false },
    life := ⟨1, 0, 0, false, 0, false, 0, 0, 0, 0, true, none, (List.range 32).map Config.rootByte, []⟩,
    tap := ⟨0xFF, 0, []⟩, smbOff := 0, act := none, ctlCores := 16, ctlSpares := 2 }

end Sys2Proof.Machine
end

