-- ==== Sys2Proof/WellFormed.lean ====
section
/-! DEFINITION. When a command names only parts the module has (R5, R6, R22, R25, R376, R460, R483): a command that
fails this check cannot reach any module. -/

namespace Sys2Proof

/-- The die exists (R6): 4 wards, 37 channels in each, 28 positions. -/
def DieId.wf (d : DieId) : Bool := d.ward < 4 && d.ch < 37 && d.pos < 28

/-- The member exists (R25): 26 die rows of 36 members in each ward. -/
def Member.wf (m : Member) : Bool := m.ward < 4 && m.row < 26 && m.idx < 36

/-- The stream core exists (R376): 32 hamlets of 16. -/
def CoreId.wf (c : CoreId) : Bool := c.hamlet < 32 && c.core < 16

/-- The channel exists (R22): 148 flash channels. -/
def chanOk (n : Nat) : Bool := n < 148

/-- The plane-block exists (R22, R239). -/
def PlaneBlock.wf (b : PlaneBlock) : Bool := b.die.wf && b.plane < 4 && b.slot < 3168

/-- The function number exists (R91): 12 bits. -/
def fnOk (f : Nat) : Bool := f < 4096

/-- The ring number exists (R121): 10 bits. -/
def ringOk (n : Nat) : Bool := n < 1024

/-- The reference can name a command (R91, R121, R137). -/
def Ref.wf (r : Ref) : Bool := fnOk r.fn && ringOk r.sq && r.tag < 65536

/-- The writer exists (R569). -/
def Writer.wf : Writer → Bool
  | .rdma f _ => fnOk f
  | .smbus => true

/-- What a boot meets names parts the module has (R557). -/
def BootEnv.wf (e : BootEnv) : Bool :=
  e.ranksBad.all (· < 36) && e.fillBad.all (· < 36) && e.coresOk ≤ 18 && (e.chans.all fun x => chanOk x.1) &&
    (e.badShares.all fun x => x.1 < 4 * 26 * 4096 && x.2.1 < 512 && x.2.2 < 32) && e.sieveBad.all (· < 65536)

/-- The SRAM macro exists (Table 23.10): kind 0 to 3 and number. -/
def sramMacro (kind n : Nat) : Bool :=
  match kind with
  | 0 => n < 576
  | 1 => n < 128
  | 2 => n < 18
  | _ => n < 156

/-- A command names only parts the module has. -/
def Instr.wf : Instr → Bool
  | .planClose late badBlank => late.all chanOk && badBlank.all PlaneBlock.wf
  | .readPoint c | .channelRecentre c _ _ | .channelFault c | .channelRetrainBegin c | .channelRetrainRetry c
  | .channelRetrainResult c _ _ => chanOk c
  | .suspendResponse d | .suspendLate d _ | .arrayReadComplete d _ | .programComplete d | .eraseComplete d
  | .dieOpOverrun d | .dieNoResponse d => d.wf
  | .temperature p _ ds => p < 4 && ds.all DieId.wf
  | .temperatureClear p _ => p < 4
  | .wakeComplete eyes => eyes.all chanOk
  | .programFailure d p | .eraseFailure d p => d.wf && p < 4
  | .rebuildWordLine m | .blockGroupPass m => m.wf
  | .randomAreaReclaim w => w < 4
  | .relocation d k | .relocationCommit d k => d.wf && k < 3072
  | .patrolRead d k wl cw | .retentionScan d k wl cw => d.wf && k < 3072 && wl < 512 && cw < 4
  | .heldSlotRelease n => n < 4 * 26 * 4096 && n % 4096 < 3072
  | .watermarkBatch c | .dramChannelLoss c => c < 12
  | .rankRecentre r _ _ _ | .rankRetrainResult r _ | .rankMigrationStart r | .rankMigrationComplete r => r < 36
  | .remirror p | .detourApply p => p < 6
  | .doorbellPollIssue f _ | .doorbellPollResponse f _ _ | .drainEnd f | .remoteNak f _ _ | .ackTimeout f _ _
  | .qpRetryExhausted f _ _ | .rnrNak f _ | .failover f | .ceMarkedPacket f _ _ _ | .ccRateUpdate f _
  | .cnpArrival f _ | .semCompareAndSwap f _ _ _ _ _ | .unsupportedRequestNak f _ _ => fnOk f
  | .ringDoze f n | .entryFetchResponse f n _ | .headWordResponse f n _ | .completionAck f n _
  | .notifyDeadline f n => fnOk f && ringOk n
  | .semBreakable n => n < 4096
  | .sieveRowRetired n => n < 65536 + 1024
  | .coreRetire h p | .coreSelfTest h p _ => h < 32 && p < 18
  | .loftWordProgram k w _ => k < 8704 && w < 512
  | .loftSectorErase k _ | .loftPatrol k => k < 8704
  | .loftEraseAbort b => b < 3
  | .dramUncorrectable x => x.rank < 36 && x.addr < 2 ^ 34
  | .scrubPass x => x.byRank.all fun e => e.1 < 36
  | .remap (.dram r a) => r < 36 && a < 2 ^ 34
  | .remap (.sram m _) => m < 65536 && sramMacro (m / 16384) (m % 16384)
  | .powerGood e | .resetAssert _ e | .resetRelease e | .pwrDisableRelease e => e.wf
  | .refurbishEraseComplete bad e => bad.all PlaneBlock.wf && e.wf
  | .controlCoreRetire n e => n < 18 && e.wf
  | .moduleReset r e | .lifeCycleTransition r e => r.wf && e.wf
  | .quantumEnd c | .slotFill c | .itemStart c | .productLand c | .requestComplete c | .svlComplete c
  | .loadComplete c | .storeComplete c | .dmaComplete c _ => c.wf
  | .batchPost _ w | .gateContextPause _ w => w < 4
  | .qpToInit w f _ _ _ _ | .qpToRtr w f _ _ | .qpToRts w f _ _ | .qpToReset w f _ _ => w.wf && fnOk f
  | .add c _ _ _ | .sub c _ _ _ | .and_ c _ _ _ | .or_ c _ _ _ | .xor c _ _ _ | .andn c _ _ _ | .sll c _ _ _
  | .srl c _ _ _ | .sra c _ _ _ | .ror c _ _ _ | .seq c _ _ _ | .sne c _ _ _ | .slt c _ _ _ | .sltu c _ _ _
  | .min c _ _ _ | .max c _ _ _ | .minu c _ _ _ | .maxu c _ _ _ | .clz c _ _ _ | .ctz c _ _ _ | .popc c _ _ _
  | .bswap c _ _ _ | .addi c _ _ _ | .andi c _ _ _ | .ori c _ _ _ | .xori c _ _ _ | .slti c _ _ _
  | .sltiu c _ _ _ | .slli c _ _ _ | .srli c _ _ _ | .srai c _ _ _ | .cati c _ _ _ | .crc32cB c _ _ _
  | .crc32cH c _ _ _ | .crc32cW c _ _ _ | .crc32cD c _ _ _ | .beq c _ _ _ | .bne c _ _ _ | .blt c _ _ _
  | .bge c _ _ _ | .bltu c _ _ _ | .bgeu c _ _ _ | .j c _ | .call c _ | .jalr c _ _ _ | .ld c _ _ _ _ _ _
  | .st c _ _ _ _ _ _ | .ldq c _ _ _ _ _ _ | .stq c _ _ _ _ _ _ | .atomCas c _ _ _ _ | .atomSwap c _ _ _ _
  | .atomFadd c _ _ _ _ | .adda c _ _ _ | .addar c _ _ _ | .mva c _ _ _ | .mvm c _ _ _ | .mfa c _ _ _
  | .mfm c _ _ _ | .dma c _ _ _ _ | .vadd c _ _ _ _ _ | .vsub c _ _ _ _ _ | .vadds c _ _ _ _ _
  | .vsubs c _ _ _ _ _ | .vaddus c _ _ _ _ _ | .vsubus c _ _ _ _ _ | .vmin c _ _ _ _ _ | .vmax c _ _ _ _ _
  | .vminu c _ _ _ _ _ | .vmaxu c _ _ _ _ _ | .vceq c _ _ _ _ _ | .vcgt c _ _ _ _ _ | .vcgtu c _ _ _ _ _
  | .vsll c _ _ _ _ _ | .vsrl c _ _ _ _ _ | .vsra c _ _ _ _ _ | .vand c _ _ _ _ _ | .vor c _ _ _ _ _
  | .vxor c _ _ _ _ _ | .vandn c _ _ _ _ _ | .vsel c _ _ _ _ _ | .vshuf c _ _ _ _ _ | .vbcast c _ _ _ _ _
  | .vins c _ _ _ _ _ | .vext c _ _ _ _ _ | .vsum c _ _ _ _ _ | .vmov c _ _ _ _ _ | .mul c _ _ _ _ _
  | .mulu c _ _ _ _ _ | .mac c _ _ _ _ _ | .macu c _ _ _ _ _ | .vmul c _ _ _ _ _ | .vmac c _ _ _ _ _
  | .clmul c _ _ _ _ _ | .clmac c _ _ _ _ _ | .gfmul c _ _ _ _ _ | .gfmac c _ _ _ _ _ | .gfmuls c _ _ _ _ _
  | .gfmacs c _ _ _ _ _ | .mtp c _ _ _ _ _ | .mtpg c _ _ _ _ _ | .mfp c _ _ _ _ _ | .mfpl c _ _ _ _ _
  | .mfph c _ _ _ _ _ | .loop c _ _ _ | .loopi c _ _ | .lbrk c _ | .done c _ _ _ | .fence c _ _ _
  | .trap c _ _ _ | .post c _ _ _ | .req c _ _ _ | .emit c _ _ _ | .svl c _ _ _ | .waitd c _ _ _
  | .waitr c _ _ _ | .mfsr c _ _ _ | .mtsr c _ _ _ => c.wf
  | _ => true

end Sys2Proof
end

