-- ==== Sys2Proof/Machine/Operands.lean ====
section
/-! DEFINITION. Operand forms: bytes and bit fields of structures (R13, R14), submission entries (R138), buffer
triples (R139 to R142) and the numbering of the module's parts (R6, R25, R239). -/

namespace Sys2Proof

/-- A port as a number: 0 A, 1 B. -/
def PortId.num : PortId → Nat
  | .A => 0
  | .B => 1

/-- The other port. -/
def PortId.other : PortId → PortId
  | .A => .B
  | .B => .A

end Sys2Proof

namespace Sys2Proof.Machine

/-- Byte `k` of a byte string, 0 beyond its end. -/
def byteAt (b : Bytes) (k : Nat) : Nat := (b.getD k 0).toNat

/-- The little-endian number in `n` bytes from byte `k` (R14). -/
def le (b : Bytes) (k : Nat) : Nat → Nat
  | 0 => 0
  | n + 1 => byteAt b k + 256 * le b (k + 1) n

/-- `n` as `k` bytes, little-endian (R14). -/
def toLe (n : Nat) : Nat → Bytes
  | 0 => []
  | k + 1 => BitVec.ofNat 8 n :: toLe (n / 256) k

/-- Bits [hi:lo] of a number (R13). -/
def bits (v hi lo : Nat) : Nat := v / 2 ^ lo % 2 ^ (hi - lo + 1)

/-- Bit `k` of a number. -/
def bit (v k : Nat) : Bool := v / 2 ^ k % 2 = 1

/-- A Bool as 0 or 1. -/
def b01 (b : Bool) : Nat := if b then 1 else 0

/-- `n` bytes holding the given fields (offset, length, value), zero elsewhere (R15). -/
def record (n : Nat) (fs : List (Nat × Nat × Nat)) : Bytes :=
  (List.range n).map fun k =>
    match fs.find? fun f => f.1 ≤ k && k < f.1 + f.2.1 with
    | some (o, _, v) => BitVec.ofNat 8 (v / 256 ^ (k - o))
    | none => 0

/-- `len` bytes from byte `k`, zero beyond the end. -/
def slice (b : Bytes) (k len : Nat) : Bytes :=
  let t := (b.drop k).take len
  t ++ List.replicate (len - t.length) 0

/-- Whether bytes `k` to `k + n - 1` are all zero. -/
def zeros (b : Bytes) (k n : Nat) : Bool := (slice b k n).all (· = 0)

/-- `b` with the bytes `v` from byte `k` on. -/
def patch (b : Bytes) (k : Nat) (v : Bytes) : Bytes := b.take k ++ v ++ b.drop (k + v.length)

/-- A 32-bit count less another, modulo 2^32 (R126). -/
def sub32 (a b : Nat) : Nat := (a + 2 ^ 32 - b % 2 ^ 32) % 2 ^ 32

/-- A saturating addition to an `n`-bit counter. -/
def satAdd (n a b : Nat) : Nat := min (a + b) (2 ^ n - 1)

/-- Least of two, as a plain function. -/
def floor16 (n : Nat) : Nat := n / 16 * 16

/-! ### Numbers of parts -/

/-- Whether a die exists (R6). -/
def dieOk (d : DieId) : Bool := d.wf

/-- A die's number: module-wide channel * 28 + position (R6). -/
def dieNo (d : DieId) : Nat := (d.ward * 37 + d.ch) * 28 + d.pos

/-- A die's module-wide channel (R6). -/
def dieChan (d : DieId) : Nat := d.ward * 37 + d.ch

/-- The die of a number. -/
def dieOf (n : Nat) : DieId := ⟨n / 28 / 37, n / 28 % 37, n % 28⟩

/-- A block group: die * 4096 + slot. -/
def groupNo (d : DieId) (slot : Nat) : Nat := dieNo d * 4096 + slot

/-- A member of a die row: (ward * 26 + row) * 36 + member (R25). -/
def memNo (w row i : Nat) : Nat := (w * 26 + row) * 36 + i

/-- A zone slot: (ward * 26 + row) * 4096 + slot (R239). -/
def slotNo (w row k : Nat) : Nat := (w * 26 + row) * 4096 + k

/-- Ward, row and slot of a zone slot. -/
def slotWard (n : Nat) : Nat := n / 4096 / 26
def slotRow (n : Nat) : Nat := n / 4096 % 26
def slotIdx (n : Nat) : Nat := n % 4096

/-- A zone: holding * 2^20 + index. -/
def zoneNo (h z : Nat) : Nat := h * 2 ^ 20 + z
def zoneHold (n : Nat) : Nat := n / 2 ^ 20
def zoneIdx (n : Nat) : Nat := n % 2 ^ 20

/-- A stored zone unit: zone * 2^20 + offset. -/
def unitNo (z o : Nat) : Nat := z * 2 ^ 20 + o

/-- A random-area unit: holding * 2^26 + UNIT (R208). -/
def randNo (h u : Nat) : Nat := h * 2 ^ 26 + u

/-- A ring: function * 1024 + number. -/
def ringNo (f n : Nat) : Nat := f * 1024 + n

/-- A logical stream core: hamlet * 16 + core. -/
def coreNo (c : CoreId) : Nat := c.hamlet * 16 + c.core

/-! ### The place of a unit on the media -/

/-- First parity member of a stripe row (R263). -/
def firstParity (r : Nat) : Nat := 4 * r % 36

/-- Whether member `m` carries parity in row `r`, and which parity share (R263). -/
def parityOf (r m : Nat) : Option Nat :=
  let j := (m + 36 - firstParity r) % 36
  if j < 4 then some j else none

/-- The data members of row `r`, in share order (R263, R264). -/
def dataMembers (r : Nat) : List Nat := (List.range 36).filter fun m => (parityOf r m).isNone

/-- The member that carries data share `d` of row `r` (R264). -/
def shareMember (r d : Nat) : Nat := (dataMembers r).getD d 0

/-- Plane, page and codeword of unit `u` of a program unit (R259). -/
def unitPlane (u : Nat) : Nat := u / 4 % 4
def unitPage (u : Nat) : Nat := u / 16
def unitCw (u : Nat) : Nat := u % 4

/-- Stripe row, data share and unit in the program unit of zone offset `o` (R264). -/
def rowOf (o : Nat) : Nat := o / 2048
def shareOf (o : Nat) : Nat := o % 2048 / 64
def inUnit (o : Nat) : Nat := o % 64

/-! ### Submission entries -/

/-- OPCODE (Table 5.5). -/
def Cmd.opcode (c : Cmd) : Nat := byteAt c.entry 0

/-- CHAINED, NOTIFY_NOW (Table 5.5). -/
def Cmd.chained (c : Cmd) : Bool := bit (byteAt c.entry 1) 0
def Cmd.notifyNow (c : Cmd) : Bool := bit (byteAt c.entry 1) 1

/-- A buffer triple in 16 bytes (Table 5.6). -/
def tripleAt (b : Bytes) (k : Nat) : Triple := ⟨BitVec.ofNat 32 (le b k 4), le b (k + 4) 4, le b (k + 8) 8⟩

/-- BUF0 and BUF1 (Table 5.5). -/
def Cmd.buf0 (c : Cmd) : Triple := tripleAt c.entry 32
def Cmd.buf1 (c : Cmd) : Triple := tripleAt c.entry 48

/-- Whether an inline triple is wholly zero, that is unused (R140). -/
def Triple.unused (t : Triple) : Bool := t.rkey = 0 && t.len = 0 && t.addr = 0

/-- Whether a used triple keeps R140. -/
def Triple.ok (t : Triple) : Bool := t.len ≠ 0 && t.addr + t.len ≤ 2 ^ 64

/-- The triples of a chained list (R141). -/
def triples (b : Bytes) : List Triple := (List.range (b.length / 16)).map fun i => tripleAt b (16 * i)

/-- The triples of a command's buffer, in buffer order (R142). -/
def Cmd.buffer (c : Cmd) : List Triple :=
  (if c.buf0.unused then [] else [c.buf0]) ++
  (if c.chained then c.list else if c.buf1.unused then [] else [c.buf1])

/-- The bytes of a command's buffer (R142). -/
def Cmd.bufLen (c : Cmd) : Nat := c.buffer.foldl (fun n t => n + t.len) 0

/-- HOLDING (Table 7.2, and bytes 4 to 5 of the holding and function commands). -/
def Cmd.f12 (c : Cmd) : Nat := bits (le c.entry 4 2) 11 0

/-- SQ and ring numbers in bytes 4 to 5 [9:0]. -/
def Cmd.f10 (c : Cmd) : Nat := bits (le c.entry 4 2) 9 0

/-- ZONE or UNIT, OFFSET, COUNT, LCLASS, SGROUP, COMPRESS (Table 7.2). -/
def Cmd.zone (c : Cmd) : Nat := le c.entry 8 4
def Cmd.offset (c : Cmd) : Nat := bits (le c.entry 12 4) 19 0
def Cmd.cnt (c : Cmd) : Nat := le c.entry 16 2
def Cmd.lclass (c : Cmd) : Nat := bits (byteAt c.entry 18) 3 0
def Cmd.sgroup (c : Cmd) : Nat := byteAt c.entry 19
def Cmd.compress (c : Cmd) : Bool := bit (byteAt c.entry 6) 0

/-- The zone a zone command names. -/
def Cmd.zkey (c : Cmd) : Nat := zoneNo c.f12 c.zone

/-- A resource block (Table 7.12). -/
def resAt (b : Bytes) (k : Nat) : Res :=
  { sq := le b k 2, cq := le b (k + 2) 2, allot := le b (k + 4) 2, dispW := byteAt b (k + 6),
    bellW := byteAt b (k + 7), sieve := byteAt b (k + 8), readOps := le b (k + 10) 2, readBytes := le b (k + 12) 2,
    writeBytes := le b (k + 14) 2, scanBytes := le b (k + 16) 2,
    home := if bit (byteAt b (k + 18)) 0 then .B else .A }

/-- A row image (Table 16.1). -/
def rowAt (b : Bytes) (k : Nat) : Row :=
  { key := BitVec.ofNat 320 (le b k 40), mask := BitVec.ofNat 320 (le b (k + 40) 40),
    result := BitVec.ofNat 64 (le b (k + 80) 8), part := bits (le b (k + 88) 2) 5 0,
    valid := bit (le b (k + 88) 2) 15 }

/-- The first of a list under a strict order that keeps the earlier of equals. -/
def firstBy {α : Type} (lt : α → α → Bool) : List α → Option α
  | [] => none
  | a :: l => match firstBy lt l with
    | none => some a
    | some b => if lt b a then some b else some a

end Sys2Proof.Machine
end

