-- ==== Sys2Proof/Machine/Flags.lean ====
section
/-! DEFINITION. Computed flags and codes: statuses and their classes (R169), CRC-32C (R399), the 80-bit word
code (R471, R472), GF(2^8) (R262, R409). -/

namespace Sys2Proof.Machine

/-! ### Status codes (Table 6.2) -/

def SUCCESS : Nat := 0x00
def ABORTED : Nat := 0x01
def ABORT_TOO_LATE : Nat := 0x02
def NO_MATCH : Nat := 0x03
def JOB_FAULT : Nat := 0x04
def MEMORY_LOST : Nat := 0x05
def NOT_STARTED_FROZEN : Nat := 0x06
def SEMAPHORE_BUSY : Nat := 0x07
def INVALID_OPCODE : Nat := 0x20
def INVALID_FIELD : Nat := 0x21
def INVALID_LENGTH : Nat := 0x22
def BUFFER_TOO_SHORT : Nat := 0x23
def WRITE_POINTER_MISMATCH : Nat := 0x24
def ZONE_STATE_INVALID : Nat := 0x25
def ZONE_FULL : Nat := 0x26
def OUT_OF_HOLDING : Nat := 0x27
def CAPACITY_EXHAUSTED : Nat := 0x28
def QUOTA_EXCEEDED : Nat := 0x29
def NOT_PERMITTED : Nat := 0x2A
def FUNCTION_NOT_QUIESCED : Nat := 0x2B
def HOST_ACCESS_FAULT : Nat := 0x2C
def ZONE_FENCED : Nat := 0x2D
def DATA_UNRECOVERABLE : Nat := 0x60
def INTERNAL_TIMEOUT : Nat := 0x61
def MODULE_RESET : Nat := 0x62

/-- Whether a status freezes its ring: command errors and device errors (Table 6.2). MODULE_RESET is posted with
LOGGED 0 as the rings reset (R188). -/
def freezes (st : Nat) : Bool := st ≥ 0x20

/-- Whether a status of a WRITE or ZONE APPEND fences its zone (R183). -/
def fences (st : Nat) : Bool :=
  [WRITE_POINTER_MISMATCH, ZONE_STATE_INVALID, ZONE_FULL, QUOTA_EXCEEDED, CAPACITY_EXHAUSTED, BUFFER_TOO_SHORT,
   HOST_ACCESS_FAULT, INTERNAL_TIMEOUT].contains st

/-! ### CRC-32C -/

/-- One bit of the reflected Castagnoli CRC (R399): 0x82F63B78 is 0x1EDC_6F41 reflected. -/
def crcBit (c : BitVec 32) : BitVec 32 :=
  if c.getLsbD 0 then (c >>> 1) ^^^ 0x82F63B78 else c >>> 1

/-- One byte folded into a CRC-32C state (R399). -/
def crcByte (c : BitVec 32) (b : Byte) : BitVec 32 :=
  crcBit (crcBit (crcBit (crcBit (crcBit (crcBit (crcBit (crcBit (c ^^^ b.setWidth 32))))))))

/-- A byte string folded into a CRC-32C state, byte 0 first (R399). -/
def crcFold (c : BitVec 32) (b : Bytes) : BitVec 32 := b.foldl crcByte c

/-- CRC-32C of a byte string, with the standard initial value and inversion (R399). -/
def crc32c (b : Bytes) : BitVec 32 := ~~~ (crcFold 0xFFFFFFFF b)

/-! ### The 80-bit word -/

/-- Times x modulo the generator of the BCH code of R472 (degree 14). The generator is the product of the minimal
polynomials x^7 + x^3 + 1 and x^7 + x^3 + x^2 + x + 1 of alpha and alpha^3. -/
def bchStep (r : BitVec 14) (b : Bool) : BitVec 14 :=
  let fb := r.getLsbD 13 != b
  let sh := r <<< 1
  if fb then sh ^^^ 0x0377 else sh

/-- CHECK of DATA and TAG (R472): the systematic remainder, TAG first, then DATA from bit 63 down. -/
def bchCheck (data : W64) (tag : Bool) : BitVec 14 :=
  (List.range 64).foldl (fun r i => bchStep r (data.getLsbD (63 - i))) (bchStep 0 tag)

/-- Parity of the set bits of a word. -/
def odd (n : Nat) (w : BitVec n) : Bool := (List.range n).foldl (fun p i => p != w.getLsbD i) false

/-- The 80-bit encoding of DATA and TAG (Table 17.4). -/
def word80 (data : W64) (tag : Bool) : BitVec 80 :=
  let lo : BitVec 79 := bchCheck data tag ++ BitVec.ofBool tag ++ data
  BitVec.ofBool (odd 79 lo) ++ lo

/-- DATA and TAG fields of an 80-bit word. -/
def dataOf80 (w : BitVec 80) : W64 := w.extractLsb' 0 64
def tagOf80 (w : BitVec 80) : Bool := w.getLsbD 64

/-- Outcome of decoding an 80-bit word (R472, R485): erased, or a value with the number of bits corrected, or
uncorrectable. -/
inductive Dec80 where
  | erased
  | value (data : W64) (tag : Bool) (fixed : Nat)
  | bad
  deriving DecidableEq, Repr

/-- Number of set bits. -/
def ones (n : Nat) (w : BitVec n) : Nat := (List.range n).foldl (fun c i => if w.getLsbD i then c + 1 else c) 0

/-- Whether an 80-bit word is a code word. -/
def isCode (w : BitVec 80) : Bool := w = word80 (dataOf80 w) (tagOf80 w)

/-- The word with bit `i` flipped. -/
def flip80 (w : BitVec 80) (i : Nat) : BitVec 80 := w ^^^ (1#80 <<< i)

/-- Decoding in DRAM and SRAM (R472): nearest code word within two bits, else uncorrectable. -/
def decode80 (w : BitVec 80) : Dec80 :=
  if isCode w then .value (dataOf80 w) (tagOf80 w) 0
  else match (List.range 80).find? fun i => isCode (flip80 w i) with
    | some i => .value (dataOf80 (flip80 w i)) (tagOf80 (flip80 w i)) 1
    | none =>
      match (List.range 80).findSome? fun i =>
          ((List.range i).find? fun j => isCode (flip80 (flip80 w i) j)).map fun j => (i, j) with
      | some (i, j) => let v := flip80 (flip80 w i) j; .value (dataOf80 v) (tagOf80 v) 2
      | none => .bad

/-- Decoding of a loft word (R485): at most two bits at 0 read as erased. -/
def loftDecode (w : BitVec 80) : Dec80 := if ones 80 w ≥ 78 then .erased else decode80 w

/-! ### GF(2^8) -/

/-- Times x modulo x^8 + x^4 + x^3 + x^2 + 1 (R262, R409). -/
def gfTimesX (b : Byte) : Byte := if b.getLsbD 7 then (b <<< 1) ^^^ 0x1D else b <<< 1

/-- Product of two bytes in GF(2^8) (R409). -/
def gfMul (a b : Byte) : Byte :=
  ((List.range 8).foldl
    (fun (acc : Byte × Byte) i => (if b.getLsbD i then acc.1 ^^^ acc.2 else acc.1, gfTimesX acc.2)) (0, a)).1

/-- The carry-less product of two 64-bit words (R408). -/
def clmul64 (a b : W64) : W128 :=
  (List.range 64).foldl (fun acc i => if b.getLsbD i then acc ^^^ (a.setWidth 128 <<< i) else acc) 0

end Sys2Proof.Machine
end

