-- ==== Sys2Proof/Machine/Sha.lean ====
section
/-! DEFINITION. SHA-256 (R353, R541, R549) and HSS verification under RFC 8554 (R540). The two standards are named by the
spec, not restated in it (notes/assumptions/32.md). -/

namespace Sys2Proof.Machine

/-! ### SHA-256 -/

/-- The largest root below 2^n whose k-th power does not pass `v`, bit by bit. -/
def rootBits (k v : Nat) : Nat → Nat → Nat
  | 0, r => r
  | n + 1, r => rootBits k v n (if (r + 2 ^ n) ^ k ≤ v then r + 2 ^ n else r)

/-- The first 32 bits of the fractional part of the k-th root of `p`. -/
def rootFrac (k p : Nat) : W32 := BitVec.ofNat 32 (rootBits k (p * 2 ^ (32 * k)) 40 0)

/-- The primes among the numbers below 312: the first 64. -/
def smallPrimes : List Nat := (List.range 312).filter fun n => 2 ≤ n && (List.range 18).all fun d => d < 2 || n ≤ d || n % d ≠ 0

/-- The hash value between blocks: the eight words a to h, which begin as square roots of primes. -/
abbrev Hash := List W32

def shaStart : Hash := (smallPrimes.take 8).map (rootFrac 2)

/-- The round constants, cube roots of primes. -/
def shaCubes : List W32 := smallPrimes.map (rootFrac 3)

/-- Exclusive or of a word turned right by each of the given amounts. -/
def turns (w : W32) (l : List Nat) : W32 := l.foldl (fun x n => x ^^^ w.rotateRight n) 0

/-- One round with the sum of its constant and schedule word: every word moves on by one place, the fifth and the first are new. -/
def hashRound (h : Hash) (kw : W32) : Hash :=
  let w := fun i => h.getD i 0
  let pick := w 6 ^^^ (w 4 &&& (w 5 ^^^ w 6))
  let most := (w 0 &&& w 1) ||| (w 2 &&& (w 0 ||| w 1))
  let t := w 7 + turns (w 4) [6, 11, 25] + pick + kw
  [t + turns (w 0) [2, 13, 22] + most, w 0, w 1, w 2, w 3 + t, w 4, w 5, w 6]

/-- The next schedule words, newest first, from the sixteen newest. -/
def shaExtend : Nat → List W32 → List W32
  | 0, ws => ws
  | n + 1, ws =>
    let old := ws.getD 14 0
    let late := ws.getD 1 0
    shaExtend n ((ws.getD 6 0 + ws.getD 15 0 + (turns old [7, 18] ^^^ (old >>> 3)) + (turns late [17, 19] ^^^ (late >>> 10))) :: ws)

/-- A big-endian 32-bit number at byte `k`, as SHA-256 and RFC 8554 lay them out. -/
def be32 (b : Bytes) (k : Nat) : Nat :=
  ((byteAt b k * 256 + byteAt b (k + 1)) * 256 + byteAt b (k + 2)) * 256 + byteAt b (k + 3)

/-- One 64-byte block folded into the hash value. -/
def hashBlock (h : Hash) (b : Bytes) : Hash :=
  let ws := (shaExtend 48 (((List.range 16).map fun i => BitVec.ofNat 32 (be32 b (4 * i))).reverse)).reverse
  List.zipWith (· + ·) h ((List.zipWith (· + ·) shaCubes ws).foldl hashRound h)

/-- The blocks of a padded message folded in order. -/
def hashBlocks : Nat → Hash → Bytes → Hash
  | 0, h, _ => h
  | n + 1, h, b => hashBlocks n (hashBlock h (b.take 64)) (b.drop 64)

/-- A number as `n` bytes, most significant first. -/
def toBe (v n : Nat) : Bytes := (toLe v n).reverse

/-- SHA-256 of a byte string. -/
def sha256 (b : Bytes) : Bytes :=
  let pad := b ++ [0x80] ++ List.replicate ((119 - b.length % 64) % 64) 0 ++ toBe (8 * b.length) 8
  (hashBlocks (pad.length / 64) shaStart pad).flatMap fun w => toBe w.toNat 4

/-- Whether a public key hashes to the vendor root hash (R541, R549). -/
def rootTrusts (root pub : Bytes) : Bool := sha256 pub = root

/-! ### LM-OTS, LMS and HSS (RFC 8554) -/

/-- Winternitz width and number of chains of a type, W4 or W8; the checksum's shift. -/
def otsShape (t : Nat) : Option (Nat × Nat × Nat) := if t = 3 then some (4, 67, 4) else if t = 4 then some (8, 34, 0) else none

/-- LM-OTS signature length of a type: type, randomizer, chains. -/
def otsLen (t : Nat) : Option Nat := (otsShape t).map fun x => 36 + 32 * x.2.1

/-- Tree height of an LMS type, H10, H15 or H20. -/
def lmsHeight (t : Nat) : Option Nat := if t = 6 then some 10 else if t = 7 then some 15 else if t = 8 then some 20 else none

/-- Length of an LMS signature of the given types: index, LM-OTS signature, type, path. -/
def lmsLen (lms ots : Nat) : Option Nat := (otsLen ots).bind fun n => (lmsHeight lms).map fun h => 8 + n + 32 * h

/-- Length of an HSS signature of two levels as its types fix it, none for other types (R540). -/
def hssLen (pub sig : Bytes) : Option Nat :=
  if be32 pub 0 ≠ 2 || be32 sig 0 ≠ 1 then none
  else (lmsLen (be32 pub 4) (be32 pub 8)).bind fun a =>
    (lmsLen (be32 sig (4 + a)) (be32 sig (8 + a))).map fun b => 4 + a + 56 + b

/-- The `i`-th digit of width 4 or 8 of a byte string. -/
def coef (b : Bytes) (i w : Nat) : Nat := if w = 8 then byteAt b i else byteAt b (i / 2) / 16 ^ (1 - i % 2) % 16

/-- A hash chain, `n` links on, its next link numbered `j`. -/
def otsChain (pre : Bytes) : Nat → Nat → Bytes → Bytes
  | 0, _, t => t
  | n + 1, j, t => otsChain pre n (j + 1) (sha256 (pre ++ toBe j 1 ++ t))

/-- The LM-OTS public key a signature leads to, none where its type is not the key's. -/
def otsKey (ident : Bytes) (q ots : Nat) (msg sig : Bytes) : Option Bytes :=
  match otsShape ots with
  | none => none
  | some (w, p, ls) =>
    if be32 sig 0 ≠ ots || sig.length ≠ 36 + 32 * p then none
    else
      let h := sha256 (ident ++ toBe q 4 ++ [0x81, 0x81] ++ slice sig 4 32 ++ msg)
      let sum := (List.range (256 / w)).foldl (fun n i => n + (2 ^ w - 1 - coef h i w)) 0
      let d := h ++ toBe (sum * 2 ^ ls) 2
      let z := (List.range p).flatMap fun i =>
        let a := coef d i w
        otsChain (ident ++ toBe q 4 ++ toBe i 2) (2 ^ w - 1 - a) a (slice sig (36 + 32 * i) 32)
      some (sha256 (ident ++ toBe q 4 ++ [0x80, 0x80] ++ z))

/-- The root a path leads to, the node it starts at numbered `node`. -/
def lmsRoot (ident : Bytes) : List Bytes → Nat → Bytes → Bytes
  | [], _, t => t
  | x :: xs, node, t =>
    let pre := ident ++ toBe (node / 2) 4 ++ [0x83, 0x83]
    lmsRoot ident xs (node / 2) (sha256 (if node % 2 = 1 then pre ++ x ++ t else pre ++ t ++ x))

/-- An LMS signature verifies: public key (types, identifier, root), message, signature. -/
def lmsVerifies (pub msg sig : Bytes) : Bool :=
  let ots := be32 pub 4
  match otsLen ots, lmsHeight (be32 pub 0) with
  | some n, some h =>
    let q := be32 sig 0
    let ident := slice pub 8 16
    if sig.length ≠ 8 + n + 32 * h || be32 sig (4 + n) ≠ be32 pub 0 || q ≥ 2 ^ h then false
    else match otsKey ident q ots msg (slice sig 4 n) with
      | none => false
      | some k =>
        let leaf := sha256 (ident ++ toBe (2 ^ h + q) 4 ++ [0x82, 0x82] ++ k)
        lmsRoot ident ((List.range h).map fun i => slice sig (8 + n + 32 * i) 32) (2 ^ h + q) leaf = slice pub 24 32
  | _, _ => false

/-- An HSS signature of two levels verifies (R540): the top key signs the second key, which signs the message. -/
def hssVerifies (pub msg sig : Bytes) : Bool :=
  match hssLen pub sig, lmsLen (be32 pub 4) (be32 pub 8) with
  | some n, some a =>
    let key := slice sig (4 + a) 56
    sig.length = n && lmsVerifies (pub.drop 4) key (slice sig 4 a) && lmsVerifies key msg (sig.drop (60 + a))
  | _, _ => false

end Sys2Proof.Machine
end

