-- ==== Sys2Proof/Machine/Aes.lean ====
section
/-! DEFINITION. AES-256-XTS over the 4 KiB data unit (R26, R551). The cipher is named by the spec, not restated in it: FIPS 197
and IEEE 1619 (notes/assumptions/7.md). A block is 16 bytes, column after column. -/

namespace Sys2Proof.Machine

/-! ### The field of AES: GF(2^8) with x^8 + x^4 + x^3 + x + 1 -/

/-- Multiplies by x. -/
def aesTwice (a : Byte) : Byte := if a.msb then (a <<< 1) ^^^ 0x1B else a <<< 1

/-- Product in the field of AES, by the bits of `b` from the `n`-th down (Horner). -/
def aesMulBits (a b : Byte) : Nat → Byte
  | 0 => 0
  | n + 1 => aesTwice (aesMulBits a (b >>> 1) n) ^^^ (if b.getLsbD 0 then a else 0)

def aesMul (a b : Byte) : Byte := aesMulBits a b 8

/-- The inverse a^254, by seven squarings; 0 goes to 0. -/
def aesInv (a : Byte) : Byte :=
  ((List.range 7).foldl (fun (p : Byte × Byte) _ => let q := aesMul p.1 p.1; (q, aesMul p.2 q)) (a, 1)).2

/-- The S-box: the inverse, then the affine map. -/
def aesSub (a : Byte) : Byte :=
  let v := aesInv a
  [1, 2, 3, 4].foldl (fun x k => x ^^^ v.rotateLeft k) (v ^^^ 0x63)

/-- The inverse S-box. -/
def aesUnsub (a : Byte) : Byte := aesInv ([1, 3, 6].foldl (fun x k => x ^^^ a.rotateLeft k) 0x05)

/-! ### Rounds -/

/-- Exclusive or of two byte strings of one length. -/
def xorBytes (a b : Bytes) : Bytes := (a.zip b).map fun p => p.1 ^^^ p.2

/-- Row `i` mod 4 of a block moved by `i` mod 4 columns, left (`k` = 1) or right (`k` = 3). -/
def aesShift (k : Nat) (b : Bytes) : Bytes := (List.range 16).map fun i => b.getD ((i + 4 * k * (i % 4)) % 16) 0

/-- Each column times a circulant matrix of first row `m`. -/
def aesMix (m b : Bytes) : Bytes :=
  (List.range 16).map fun i => (List.range 4).foldl (fun x j =>
    x ^^^ aesMul (m.getD ((j + 4 - i % 4) % 4) 0) (b.getD (i / 4 * 4 + j) 0)) 0

def mixRow : Bytes := [2, 3, 1, 1]
def unmixRow : Bytes := [14, 11, 13, 9]

/-- The next words of a key schedule of AES-256, newest first, each four bytes; `i` words stand. -/
def aesExtend : Nat → Nat → Byte → List Bytes → List Bytes
  | 0, _, _, ws => ws
  | n + 1, i, c, ws =>
    let last := ws.headD []
    let t := if i % 8 = 0 then xorBytes ((last.drop 1 ++ last.take 1).map aesSub) [c, 0, 0, 0]
      else if i % 8 = 4 then last.map aesSub else last
    aesExtend n (i + 1) (if i % 8 = 0 then aesTwice c else c) (xorBytes (ws.getD 7 []) t :: ws)

/-- The 15 round keys of a 32-byte key. -/
def aesKeys (key : Bytes) : List Bytes :=
  let ws := (aesExtend 52 8 1 ((List.range 8).map fun i => slice key (4 * i) 4).reverse).reverse
  (List.range 15).map fun r => (List.range 4).flatMap fun j => ws.getD (4 * r + j) []

/-- Enciphers one block under round keys. -/
def aesEnc (ks : List Bytes) (b : Bytes) : Bytes :=
  let mid := (List.range 13).foldl (fun x r => xorBytes (aesMix mixRow (aesShift 1 (x.map aesSub))) (ks.getD (r + 1) []))
    (xorBytes b (ks.getD 0 []))
  xorBytes (aesShift 1 (mid.map aesSub)) (ks.getD 14 [])

/-- Deciphers one block under round keys. -/
def aesDec (ks : List Bytes) (b : Bytes) : Bytes :=
  let mid := (List.range 13).foldl (fun x r =>
    aesMix unmixRow (xorBytes ((aesShift 3 x).map aesUnsub) (ks.getD (13 - r) []))) (xorBytes b (ks.getD 14 []))
  xorBytes ((aesShift 3 mid).map aesUnsub) (ks.getD 0 [])

/-! ### XTS -/

/-- The tweak of the next block: times x in GF(2^128) with x^128 + x^7 + x^2 + x + 1, byte 0 least significant. -/
def xtsNext (t : Bytes) : Bytes :=
  let v := le t 0 16
  toLe (if v ≥ 2 ^ 127 then (2 * v - 2 ^ 128) ^^^ 0x87 else 2 * v) 16

/-- The blocks of a data unit under XTS: `f` is the block cipher under K1. -/
def xtsBlocks (f : Bytes → Bytes) : Nat → Bytes → Bytes → Bytes
  | 0, _, _ => []
  | n + 1, t, b => xorBytes (f (xorBytes (b.take 16) t)) t ++ xtsBlocks f n (xtsNext t) (b.drop 16)

/-- A holding's key pair (R551): K1 for data, K2 for the tweak. -/
structure KeyPair where
  k1 : Bytes
  k2 : Bytes

/-- The pair of the n-th drawing. A pair with K1 equal to K2 is not used (R551): its first byte is drawn otherwise. -/
def keyPair (n : Nat) : KeyPair :=
  let a := (List.range 32).map (Config.keyByte n)
  let b := (List.range 32).map fun i => Config.keyByte n (32 + i)
  ⟨a, if a = b then (b.headD 0 ^^^ 1) :: b.drop 1 else b⟩

/-- A 4 KiB unit enciphered under a holding's key and its tweak (R26): the tweak is the data unit's number, little-endian. -/
def xtsSeal (key tweak : Nat) (b : Bytes) : Bytes :=
  let p := keyPair key
  xtsBlocks (aesEnc (aesKeys p.k1)) 256 (aesEnc (aesKeys p.k2) (toLe tweak 16)) (slice b 0 4096)

/-- A 4 KiB unit deciphered (R26, R27). -/
def xtsOpen (key tweak : Nat) (b : Bytes) : Bytes :=
  let p := keyPair key
  xtsBlocks (aesDec (aesKeys p.k1)) 256 (aesEnc (aesKeys p.k2) (toLe tweak 16)) (slice b 0 4096)

end Sys2Proof.Machine
end

