-- ==== Sys2Proof/Machine/Codec.lean ====
section
/-! DEFINITION. What a codeword holds and the outer code (R255, R256, R258, R262, R314): unit metadata, the Reed-Solomon code
over GF(2^8), the guard of a row. -/

namespace Sys2Proof.Machine

/-! ### Unit metadata (Table 9.2) -/

/-- The code of KIND. -/
def Kind.num : Kind → Nat
  | .zone => 0
  | .random => 1
  | .padding => 2
  | .parked => 3
  | .module_ => 4

/-- Metadata bytes 0 to 23 of a unit. -/
def StUnit.head (u : StUnit) : Bytes :=
  record 24 [(0, 2, u.hold % 4096 + 4096 * u.kind.num), (2, 1, u.lclass % 16 + 16 * b01 u.cmp), (4, 4, u.addr), (8, 4, u.off),
    (12, 8, u.ledger)]

/-- The 32 metadata bytes of a unit, with its CRC-32C over data and metadata bytes 0 to 23. -/
def StUnit.meta_ (u : StUnit) : Bytes :=
  u.head ++ toLe (crc32c (slice u.data 0 4096 ++ u.head)).toNat 4 ++ [0, 0, 0, 0]

/-- The bytes of a codeword that both codes protect (R255). -/
def protectedLen : Nat := 4128

/-- The protected bytes of a unit: data, then metadata (Table 9.1). -/
def StUnit.bytes (u : StUnit) : Bytes := slice u.data 0 4096 ++ u.meta_

/-- A codeword (Table 9.1): protected bytes, then 544 bytes of inner-code parity. -/
def codeword (b : Bytes) : Bytes := b ++ (List.range 544).map (Config.innerParity b)

/-- A physical page (R255): its four codewords in ascending byte order. -/
def pageBytes (cws : List Bytes) : Bytes := cws.flatMap codeword

/-- Whether decoded bytes carry a matching CRC and the address expected (R258): HOLDING, KIND, ADDR, OFFSET. -/
def soundBytes (e : StUnit) (b : Bytes) : Bool :=
  le b 4120 4 = (crc32c (b.take 4120)).toNat && le b 4096 2 = e.hold % 4096 + 4096 * e.kind.num && le b 4100 4 = e.addr &&
    bits (le b 4104 4) 19 0 = e.off

/-- A padding unit of FINISH (R237): zero data, KIND 0x2, at offset `o` of zone `z`, with the class recorded at OPEN (Table 9.2). -/
def padUnit (z o lclass : Nat) : StUnit := ⟨0, 0, zoneHold z, .padding, lclass, false, zoneIdx z, o, 0, []⟩

/-! ### Reed-Solomon (R262) -/

/-- α^n. -/
def gfAlpha : Nat → Byte
  | 0 => 1
  | n + 1 => gfTimesX (gfAlpha n)

/-- The inverse of a nonzero byte: its 254th power. -/
def gfInv (a : Byte) : Byte := (List.range 254).foldl (fun p _ => gfMul p a) 1

/-- The generator polynomial with roots α^0 to α^3, highest power first. -/
def rsGen : Bytes := (List.range 4).foldl (fun p i => xorBytes (p ++ [0]) (0 :: p.map (gfMul (gfAlpha i)))) [1]

/-- The four parity symbols of data symbols in share order: the remainder of division by the generator (R262), symbol 0 being the
coefficient of the highest power (notes/assumptions/96.md). -/
def rsParity (d : Bytes) : Bytes :=
  d.foldl (fun p x => xorBytes (p.drop 1 ++ [0]) ((rsGen.drop 1).map (gfMul (x ^^^ p.headD 0)))) [0, 0, 0, 0]

/-- What one in data symbol `d` adds to parity symbol `j`. -/
def rsCoef (d j : Nat) : Byte := (rsParity ((List.range 32).map fun i => if i = d then 1 else 0)).getD j 0

/-- The locator of symbol `i` of 36. -/
def rsAt (i : Nat) : Byte := gfAlpha (35 - i)

/-- What the symbol at `i`, not erased, gives to the erased symbol `t`, `gone` being every erased symbol (at most four). -/
def rsShare (gone : List Nat) (t i : Nat) : Byte :=
  (gone.filter (· ≠ t)).foldl (fun p f => gfMul p (gfMul (rsAt i ^^^ rsAt f) (gfInv (rsAt t ^^^ rsAt f)))) 1

/-- Erasure decoding of symbol `t` of each codeword from the known shares, `known`: symbol and bytes. The rest are erased. -/
def rsRebuild (t : Nat) (known : List (Nat × Bytes)) : Bytes :=
  let gone := (List.range 36).filter fun i => known.all fun e => e.1 ≠ i
  known.foldl (fun b e => xorBytes b (e.2.map (gfMul (rsShare gone t e.1)))) (List.replicate protectedLen 0)

/-- The symbol a member's share stands for in a row (R262, R263). -/
def symbolOf (r m : Nat) : Nat :=
  match parityOf r m with
  | some j => 32 + j
  | none => (dataMembers r).idxOf m

/-- Four parity shares after data share `d` with bytes `b` joins them (R265). -/
def addShare (d : Nat) (b : Bytes) (p : List Bytes) : List Bytes :=
  (List.range 4).map fun j => xorBytes (p.getD j (List.replicate protectedLen 0)) (b.map (gfMul (rsCoef d j)))

/-- The XOR of shares (R314). -/
def xorAll (l : List Bytes) : Bytes := l.foldl xorBytes (List.replicate protectedLen 0)



end Sys2Proof.Machine
end

