-- ==== Sys2Proof/Machine/LoftLog.lean ====
section
/-! DEFINITION. The logs of loft bank K (R492 to R495): sector headers, the records of Table 18.5, their validity, which of them
live, copying forward, the queue of erases, and the zeroing of keys; and the wrapped key pair of a key-store entry (R551). -/

namespace Sys2Proof.Machine

/-! ### Words of the loft (R471, R485, R486) -/

/-- An erased word (R485). -/
def erased80 : BitVec 80 := BitVec.allOnes 80

/-- Whether a sector belongs to a log of bank K (Table 18.4): not provisioning, not the bank selector. -/
def logSector (k : Nat) : Bool := 8200 ≤ k && k < 8696

/-- The 80 bits at a word of a sector while nothing was written to it: K:8–511 is delivered erased (notes/assumptions/66.md), any
other sector never erased holds what it was delivered with. -/
def Loft.bits (l : Loft) (k w : Nat) : BitVec 80 :=
  match look l.words (k * 512 + w) with
  | some b => b
  | none => if lookD l.erases 0 k = 0 && k < 8200 then Config.loftBits (k * 512 + w) else erased80

/-- The 64-bit value of a word, none where it is uncorrectable or poisoned (R485). -/
def Loft.value (l : Loft) (k w : Nat) : Option W64 :=
  match loftDecode (l.bits k w) with
  | .erased => some 0xFFFFFFFFFFFFFFFF
  | .value v tag _ => if tag then none else some v
  | .bad => none

/-- Programs words of a sector, from word `w` up (R486): each stores the AND of its old bits and the encoding. -/
def Loft.program (l : Loft) (k w : Nat) (vs : List W64) : Loft :=
  { l with words := vs.zipIdx.foldl (fun t e => put t (k * 512 + w + e.2) (l.bits k (w + e.2) &&& word80 e.1 false)) l.words }

/-! ### Headers and records (R493, Table 18.5) -/

/-- Sectors of an area of Table 18.4, by its first sector. -/
def areaLen (area : Nat) : Nat :=
  match area with
  | 8 => 160
  | 168 => 32
  | 200 => 32
  | 232 => 16
  | 248 => 64
  | 312 => 192
  | _ => 8

/-- The areas written as logs, the bank selector's records among them (notes/assumptions/66.md). -/
def loftAreas : List Nat := [8, 168, 200, 232, 248, 312, 504]

/-- Words 0 and 1 of a sector in use: area, sector sequence number, and a CRC-32C over both (notes/assumptions/66.md). -/
def headerWords (area seq : Nat) : List W64 :=
  [BitVec.ofNat 64 area, BitVec.ofNat 64 (seq % 2 ^ 32 + 2 ^ 32 * (crc32c (toLe area 8 ++ toLe seq 4)).toNat)]

/-- Whether words 0 and 1 of a sector are a valid header of an area. -/
def Loft.headed (l : Loft) (area k : Nat) : Bool :=
  match l.value k 0, l.value k 1 with
  | some a, some q => a.toNat = area && some q = (headerWords area (q.toNat % 2 ^ 32))[1]?
  | _, _ => false

/-- MARK of Table 18.5. -/
def loftMark : Nat := 0x4B524543

/-- Payload words of a record: 1 to 255. -/
def payWords (b : Bytes) : List W64 :=
  (List.range (min 255 (max 1 ((b.length + 7) / 8)))).map fun i => BitVec.ofNat 64 (le b (8 * i) 8)

/-- CRC and MARK in one word, over the words before it. -/
def lastWord (ws : List W64) : W64 :=
  BitVec.ofNat 64 ((crc32c (ws.flatMap fun v => toLe v.toNat 8)).toNat + 2 ^ 32 * loftMark)

/-- The words of a record (Table 18.5). -/
def recordWords (kind seq : Nat) (b : Bytes) : List W64 :=
  let p := payWords b
  let ws := BitVec.ofNat 64 (kind % 2 ^ 16 + 2 ^ 16 * p.length + 2 ^ 24 * (seq % 2 ^ 40)) :: p
  ws ++ [lastWord ws]

/-- The words of a record before its last, and the last, none where one does not decode. -/
def Loft.read (l : Loft) (r : LogRec) : Option (List W64 × W64) :=
  match (List.range (r.len + 1)).mapM fun i => l.value r.sector (r.word + i), l.value r.sector (r.word + r.len + 1) with
  | some ws, some e => some (ws, e)
  | _, _ => none

/-- A valid record's payload: its last word decodes with a correct CRC and MARK (R494). -/
def Loft.payload (l : Loft) (r : LogRec) : Option Bytes :=
  match l.read r with
  | some (ws, e) => if e = lastWord ws then some ((ws.drop 1).flatMap fun v => toLe v.toNat 8) else none
  | none => none

/-- The valid records of an area, newest first, each with its payload. -/
def Loft.valid (l : Loft) (area : Nat) : List (LogRec × Bytes) :=
  (l.recs.filter fun r => r.area = area).filterMap fun r => (l.payload r).map fun b => (r, b)

/-- Of records newest first, those that live (R494): of one TYPE the one with the highest SEQ; but every key-store entry, and in
the error history the newest 8,192 (R518; notes/assumptions/66.md). -/
def Loft.live (l : Loft) (area : Nat) : List (LogRec × Bytes) :=
  let rs := l.valid area
  if area = 8 then rs
  else if area = 312 then rs.take 8192
  else rs.filter fun e => (rs.find? fun x => x.1.kind = e.1.kind) = some e

/-! ### Writing (R493, R494) -/

/-- An area's log: nothing in use at delivery. -/
def Loft.log (l : Loft) (area : Nat) : Log := lookD l.logs ⟨[], 0, 0, 0⟩ area

/-- A record behind the write position of the sector in use. -/
def Loft.write (l : Loft) (area kind : Nat) (b : Bytes) : Loft :=
  let g := l.log area
  let k := g.used.getLastD 0
  let ws := recordWords kind (g.seq + 1) b
  { l.program k g.pos ws with
    logs := put l.logs area { g with pos := g.pos + ws.length, seq := g.seq + 1 }
    recs := ⟨area, kind % 2 ^ 16, ws.length - 2, g.seq + 1, k, g.pos⟩ :: l.recs }

/-- The area's next free sector, around the area from the sector in use (R497): not in use, not queued for erase. -/
def Loft.nextFree (l : Loft) (area : Nat) : Option Nat :=
  let g := l.log area
  let n := areaLen area
  let at_ := (g.used.getLast?.map fun k => k - 8192 - area + 1).getD 0
  ((List.range n).map fun i => 8192 + area + (at_ + i) % n).find? fun k =>
    !g.used.contains k && !l.eraseQ.contains k && !l.gone.contains k

/-- A free sector comes into use: its header is programmed. -/
def Loft.enter (l : Loft) (area k : Nat) : Loft :=
  let g := l.log area
  { l.program k 0 (headerWords area (g.sectors + 1)) with
    logs := put l.logs area { g with used := g.used ++ [k], pos := 2, sectors := g.sectors + 1 } }

/-- A sector leaves its log: what lives in it is copied forward first. -/
def Loft.carry (l : Loft) (area k : Nat) : Loft :=
  let l := (((l.live area).filter fun e => e.1.sector = k).reverse).foldl (fun l e => l.write area e.1.kind e.2) l
  let g := l.log area
  { l with logs := put l.logs area { g with used := g.used.filter (· ≠ k) }, recs := l.recs.filter fun r => r.sector ≠ k }

/-- With no free sector left, the live records of the oldest are copied forward, and only then its erase is queued (R494). -/
def Loft.recycle (l : Loft) (area : Nat) : Loft :=
  match l.nextFree area, (l.log area).used with
  | none, k :: _ :: _ => { l.carry area k with eraseQ := l.eraseQ ++ [k] }
  | _, _ => l

/-- Appends a record, entering free sectors until it fits with `reserve` erased words left behind it; none where no sector is
free. -/
def Loft.append (area kind reserve : Nat) (b : Bytes) : Nat → Loft → Option Loft
  | 0, _ => none
  | n + 1, l =>
    let g := l.log area
    if g.used ≠ [] ∧ g.pos + (payWords b).length + 2 + reserve ≤ 512 then some (l.write area kind b)
    else match l.nextFree area with
      | none => none
      | some k => append area kind reserve b n ((l.enter area k).recycle area)

/-- Whether a log may be written now: its sectors are not protected (R489) and bank K is idle (R487). -/
def Loft.mayLog (l : Loft) (area : Nat) : Bool := l.clear.contains (8192 + area) && (look l.busy 2).isNone

/-- Writes a record, at once or behind those of its area that wait: 64 erased words stay beyond it (R494), unless it must be
written at once. -/
def Loft.note (l : Loft) (area kind : Nat) (b : Bytes) (urgent : Bool) : Loft :=
  let wait := { l with waiting := l.waiting ++ [(area, kind, b)] }
  let x := if l.mayLog area && (urgent || l.waiting.all fun e => e.1 ≠ area) then
      (Loft.append area kind (if urgent then 0 else 64) b (areaLen area + 2) l).getD wait
    else wait
  { l with words := x.words, logs := x.logs, recs := x.recs, eraseQ := x.eraseQ, waiting := x.waiting }

/-- The records that wait, each where it can be written now. -/
def Loft.flush (l : Loft) : Loft :=
  l.waiting.foldl (fun l e => l.note e.1 e.2.1 e.2.2 false) { l with waiting := [] }

/-- A sector's words are gone: no record of it holds, and it is in no log. -/
def Loft.forget (l : Loft) (k : Nat) : Loft :=
  { l with
    recs := l.recs.filter fun r => r.sector ≠ k
    logs := mapV (fun _ (g : Log) => { g with used := g.used.filter (· ≠ k), pos := if g.used.getLast? = some k then 512 else g.pos }) l.logs }

/-- A log sector leaves its area for good (R499): what lives in it is copied forward. -/
def Loft.leave (l : Loft) (k : Nat) : Loft :=
  let l := { l with gone := l.gone.insert k }
  match loftAreas.find? fun a => (l.log a).used.contains k with
  | none => l
  | some a =>
    if (l.log a).used.getLast? ≠ some k then l.carry a k
    else match l.nextFree a with
      | some j => (l.enter a j).carry a k
      | none => l.forget k

/-- What the boot finds (R493): a sector without a valid header is free, and is erased before it is used. -/
def Loft.atBoot (l : Loft) : Loft :=
  loftAreas.foldl (fun l a => ((l.log a).used.filter fun k => !l.headed a k).foldl
    (fun l k => { l.forget k with eraseQ := l.eraseQ.insert k }) l) l

/-! ### Records of the module -/

/-- TYPE numbers: 0x0010 and 0x0100 are the spec's (R551, chapter 18), the others the model's (notes/assumptions/66.md). -/
def recShutdown : Nat := 0x0010
def recBoot : Nat := 0x0011
def recHeartbeat : Nat := 0x0012
def recKey : Nat := 0x0100
def recSignature : Nat := 0x0200
def recLife : Nat := 0x0300
def recRank : Nat := 0x0400
def recRemap : Nat := 0x0500
def recRow : Nat := 0x0600
def recEvent : Nat := 0x0700
def recBlock : Nat := 0x0701
def recSieve : Nat := 0x0702
def recRemapped : Nat := 0x0703
def recStop : Nat := 0x0704
def recCause : Nat := 0x0705
def recActivation : Nat := 0x0706
def recSelect : Nat := 0x0800

/-- Writes a loft record of an area of bank K (R493). -/
def State.loftRecord (s : State) (area kind : Nat) (b : Bytes) : State := { s with loft := s.loft.note area kind b false }

/-- Writes what waits (R487). -/
def State.flushLoft (s : State) : State := { s with loft := s.loft.flush }

/-! ### Erase and abort (R484, R488) -/

def State.setLoft (s : State) (f : Loft → Loft) : State := { s with loft := f s.loft }

/-- Words of a sector, none where it reads erased (R483). -/
def State.putWords (s : State) (k : Nat) (ws : List (BitVec 80)) : State :=
  s.setLoft fun l => { l with words := ws.zipIdx.foldl (fun t e => put t (k * 512 + e.2) e.1) l.words }

/-- A sector whose words nothing constrains: free values (notes/assumptions/3.md). -/
def State.tearSector (s : State) (k : Nat) : State :=
  let ws := (List.range 512).map fun i => BitVec.ofNat 80 (Config.free (s.free + i))
  { s with free := s.free + 512 }.putWords k ws

/-- A running erase of a bank is aborted (R484, R488): the sector is neither erased nor valid, and a log's is erased again before
its next use. -/
def State.abortErase (s : State) (b : Nat) : State :=
  match look s.loft.busy b with
  | none => s
  | some k =>
    let s := (s.setLoft fun l => { l with busy := del l.busy b, last := .aborted }).tearSector k
    if b = 0 then s.setLoft fun l => { l with imgA := Image.none }
    else if b = 1 then s.setLoft fun l => { l with imgB := Image.none }
    else if logSector k then s.setLoft fun l => { l.forget k with eraseQ := l.eraseQ.insert k }
    else s

/-! ### Keys (R495, R551) -/

/-- HMAC-SHA-256 of a message under a key of at most 64 bytes. -/
def hmac (key msg : Bytes) : Bytes :=
  let k := slice key 0 64
  sha256 (k.map (· ^^^ 0x5C) ++ sha256 (k.map (· ^^^ 0x36) ++ msg))

/-- The label of the wrapping key: "JL7 holding KEK". -/
def kekLabel : Bytes := "JL7 holding KEK".toList.map fun c => BitVec.ofNat 8 c.toNat

/-- The wrapping key (R551): SP 800-108 in counter mode from the device secret; the context is the RETURNS count. -/
def wrapKey (returns : Nat) : Bytes :=
  hmac ((List.range 32).map Config.secretByte) (toBe 1 4 ++ kekLabel ++ [0, BitVec.ofNat 8 returns] ++ toBe 256 4)

/-- One step of RFC 3394: the register A and the blocks still to come, block `t` at the front. -/
def wrapStep (ks : List Bytes) (x : Bytes × List Bytes) (t : Nat) : Bytes × List Bytes :=
  let b := aesEnc ks (x.1 ++ x.2.headD [])
  (xorBytes (b.take 8) (toBe t 8), x.2.drop 1 ++ [b.drop 8])

/-- A string of 8-byte blocks wrapped under RFC 3394. -/
def keyWrap (kek b : Bytes) : Bytes :=
  let n := b.length / 8
  let x := ((List.range (6 * n)).map (· + 1)).foldl (wrapStep (aesKeys kek))
    (List.replicate 8 0xA6, (List.range n).map fun i => slice b (8 * i) 8)
  x.1 ++ x.2.flatten

/-- The payload of a key-store entry (R551): holding and creation ledger number in one word, then the wrapped pair. -/
def keyEntry (h ledger key returns : Nat) : Bytes :=
  let p := keyPair key
  toLe h 2 ++ toLe ledger 6 ++ keyWrap (wrapKey returns) (p.k1 ++ p.k2)

/-- Zeroes every word of the key-store entries that a test of the holding picks (R495). -/
def Loft.zeroKeys (l : Loft) (pick : Nat → Bool) : Loft :=
  let gone := l.recs.filter fun r => r.area = 8 && pick (((l.value r.sector (r.word + 1)).getD 0).toNat % 65536)
  { gone.foldl (fun l r => l.program r.sector r.word (List.replicate (r.len + 2) 0)) l with
    recs := l.recs.filter fun r => !gone.contains r, waiting := l.waiting.filter fun e => !(e.1 = 8 && pick (le e.2.2 0 2)) }

/-- Destroys keys (R495): a running erase of bank K gives way (R484), and what waited is written. -/
def State.zeroKeys (s : State) (pick : Nat → Bool) : State :=
  ((s.abortErase 2).setLoft fun l => l.zeroKeys pick).flushLoft

/-- Areas of bank K erased (R544): every sector of them counts one erase. -/
def Loft.wipe (l : Loft) (areas : List Nat) : Loft :=
  let gone := fun k => areas.any fun a => decide (8192 + a ≤ k ∧ k < 8192 + a + areaLen a)
  { l with
    words := keep (fun i _ => !gone (i / 512)) l.words
    erases := (areas.flatMap fun a => (List.range (areaLen a)).map fun i => 8192 + a + i).foldl
      (fun t k => put t k (lookD t 0 k + 1)) l.erases
    recs := l.recs.filter fun r => !gone r.sector
    logs := keep (fun a _ => !areas.contains a) l.logs
    eraseQ := l.eraseQ.filter fun k => !gone k
    waiting := l.waiting.filter fun e => !areas.contains e.1 }

end Sys2Proof.Machine
end

