-- ==== Sys2Proof/Machine/Ops.lean ====
section
/-! DEFINITION. Named operations over the state that several commands share: access to the parts of the state, time,
events, outgoing RDMA, queue pairs, freezing, the error log and completion (R146, R171, R173). -/

namespace Sys2Proof.Machine

/-- The outcome every command of the block has. -/
abbrev Res' := Host.Outcome State Fault Refusal

/-- A step to the next state. -/
abbrev go (s : State) : Res' := .next s

/-! ### Power states (R532, R535) -/

def State.setPwr (s : State) (f : Pwr → Pwr) : State := { s with pwr := f s.pwr }

/-- A wake begins (R531, R532, R535): straight to Q0, and the entry of Q3 ends; a trigger while waking has no further effect. -/
def State.wakeUp (s : State) : State :=
  let s := s.setPwr fun p => { p with entering := false, entryCkpt := none, idleFrom := none }
  if s.pwr.cur = 0 then s else s.setPwr fun p => { p with waking := true }

/-! ### Life-cycle state (Table 21.1) -/

/-- Life-cycle states. -/
inductive LcState where
  | factory | sealed_ | return_ | scrapped
  deriving DecidableEq, Repr

/-- The state the fuses give (R538). -/
def Life.state (l : Life) : LcState :=
  if l.scrap then .scrapped
  else if l.seals = l.returns && l.returns = l.refurbs then .factory
  else if l.seals = l.returns + 1 && l.returns = l.refurbs then .sealed_
  else if l.seals = l.returns && l.returns = l.refurbs + 1 then .return_
  else .scrapped

/-- The code of a state (Tables 21.2 and 21.8). -/
def LcState.num : LcState → Nat
  | .factory => 0
  | .sealed_ => 1
  | .return_ => 2
  | .scrapped => 3

/-! ### Access -/

def State.port (s : State) : PortId → Port
  | .A => s.portA
  | .B => s.portB

def State.setPort (s : State) (p : PortId) (f : Port → Port) : State :=
  match p with
  | .A => { s with portA := f s.portA }
  | .B => { s with portB := f s.portB }

/-- The entry of a function; ABSENT without history when none stands. -/
def State.fn (s : State) (f : Nat) : Fn := lookD s.fns Fn.fresh f

def State.setFn (s : State) (f : Nat) (g : Fn → Fn) : State := { s with fns := adjD s.fns Fn.fresh f g }

def State.sq (s : State) (f n : Nat) : Option Sq := look s.sqs (ringNo f n)
def State.cq (s : State) (f n : Nat) : Option Cq := look s.cqs (ringNo f n)

def State.setSq (s : State) (f n : Nat) (g : Sq → Sq) : State := { s with sqs := adj s.sqs (ringNo f n) g }
def State.setCq (s : State) (f n : Nat) (g : Cq → Cq) : State := { s with cqs := adj s.cqs (ringNo f n) g }

def State.zone (s : State) (z : Nat) : Zone := lookD s.zones Zone.fresh z
def State.setZone (s : State) (z : Nat) (g : Zone → Zone) : State :=
  { s with zones := adjD s.zones Zone.fresh z g }

/-- The outstanding command a reference names (R137). -/
def State.cmd (s : State) (r : Ref) : Option Cmd :=
  match s.sq r.fn r.sq with
  | some q => q.cmds.find? fun c => c.tag = r.tag
  | none => none

/-- Replaces an outstanding command. -/
def State.setCmd (s : State) (r : Ref) (g : Cmd → Cmd) : State :=
  s.setSq r.fn r.sq fun q => { q with cmds := q.cmds.map fun c => if c.tag = r.tag then g c else c }

/-- Whether a function number is a manager's (R91). -/
def isManager (f : Nat) : Bool := f < 2

/-- A free value of the model: the next one drawn (notes/assumptions/3.md). -/
def State.draw (s : State) : Nat × State := (Config.free s.free, { s with free := s.free + 1 })

/-- Ring sizes in entries (R122). -/
def Sq.size (q : Sq) : Nat := 2 ^ q.sizeLog
def Cq.size (q : Cq) : Nat := 2 ^ q.sizeLog

/-! ### Time -/

/-- The bell period in µs for a code of BELL_PERIOD (R35). -/
def periodUs (code : Nat) : Nat := if code = 0 then 8 else if code = 1 then 16 else 32

/-- The period in force, µs. -/
def State.period (s : State) : Nat := periodUs s.bell.active

/-- The start of the present bell, in ns of the boot (R36, R37). -/
def State.nowNs (s : State) : Nat := s.bell.now * (s.period * 1000)

/-- The calendar time now, in units of 2^-32 s (R329). -/
def State.calendar (s : State) : Int :=
  s.clk.base + ((s.nowNs - s.clk.baseNs : Nat) : Int) * 2 ^ 32 / 1000000000

/-- Calendar seconds and subseconds (R329). -/
def State.calSecs (s : State) : Nat := (s.calendar / 2 ^ 32).toNat
def State.calSub (s : State) : Nat := (s.calendar % 2 ^ 32).toNat

/-! ### Queue pairs and ports -/

/-- The reset word of FN_QP[q]: MTU 2, TIMEOUT 12, RETRY 7, RNR 7 (Table 23.6). -/
def qpReset : W64 := 0xFD90000000000000

/-- FN_QP[2p + e] of a function. -/
def Fn.qpWord (g : Fn) (p : PortId) (ev : Bool) : W64 := lookD g.qp qpReset (2 * p.num + b01 ev)

/-- The state in bits [50:48] of a queue-pair word (R579). -/
def qpStateOf (w : W64) : QpState :=
  match bits w.toNat 50 48 with
  | 0 => .reset
  | 1 => .init
  | 2 => .rtr
  | 3 => .rts
  | _ => .error

/-- The number of a queue-pair state (Table 23.6). -/
def QpState.num : QpState → Nat
  | .reset => 0
  | .init => 1
  | .rtr => 2
  | .rts => 3
  | .error => 4

def Fn.qpState (g : Fn) (p : PortId) (ev : Bool) : QpState := qpStateOf (g.qpWord p ev)

/-- A queue-pair word with another state. -/
def withQpState (w : W64) (q : QpState) : W64 :=
  (w &&& ~~~(0x0007000000000000 : W64)) ||| (BitVec.ofNat 64 q.num <<< 48)

def Fn.setQp (g : Fn) (p : PortId) (ev : Bool) (w : W64) : Fn :=
  { g with qp := putD g.qp qpReset (2 * p.num + b01 ev) w }

def Fn.setQpState (g : Fn) (p : PortId) (ev : Bool) (q : QpState) : Fn :=
  g.setQp p ev (withQpState (g.qpWord p ev) q)

/-- The number of a queue pair (R72). -/
def qpNumber (f : Nat) (ev : Bool) : Nat := 0x10000 + 2 * f + b01 ev

/-- Whether a port can carry a function's work: UP, with the queue pair in RTS (R76). -/
def State.carries (s : State) (f : Nat) (p : PortId) (ev : Bool) : Bool :=
  (s.port p).state = .up && (s.fn f).qpState p ev = .rts

/-- Whether a function's work waits for its failover at the next boundary (R77). -/
def State.failing (s : State) (f : Nat) : Bool := s.net.failover.any fun e => e.1 = f

/-- Whether a port carries a function's work with neither of its queue pairs there in ERROR (R76, R77; notes/assumptions/82.md). -/
def State.soundOn (s : State) (f : Nat) (p : PortId) : Bool := s.carries f p false && (s.fn f).qpState p true ≠ .error

/-- The port that carries a function's work (R76): its home port, else the other, else none (R80); none until its failover. One of
whose queue pairs there is in ERROR passes to the other port where that can carry it (R77). -/
def State.workPort (s : State) (f : Nat) : Option PortId :=
  let h := (s.fn f).eff.home
  if s.failing f then none
  else if s.soundOn f h then some h else if s.soundOn f h.other then some h.other
  else if s.carries f h false then some h else if s.carries f h.other false then some h.other else none

/-- The port that carries a function's notifications (R76, R152). -/
def State.eventPort (s : State) (f : Nat) : Option PortId :=
  match s.workPort f with
  | none => none
  | some p => if s.carries f p true then some p else if s.carries f p.other true then some p.other else none

/-- The port for an operation of a command fetched through `p` (R76). -/
def State.cmdPort (s : State) (f : Nat) (p : PortId) : Option PortId :=
  if !s.failing f && s.soundOn f p then some p else s.workPort f

/-! ### Port registers -/

/-- The reset word of the RW register at an offset in a port's half (Tables 3.1 and 23.5, R82). -/
def portReset (code off : Nat) : W64 :=
  match off with
  | 0x008 => 1
  | 0x018 => 9216
  | 0x120 => BitVec.ofNat 64 (3 + 26 * 2 ^ 8 + 3 * 2 ^ 16)
  | 0x128 => BitVec.ofNat 64 (6 + 48 * 2 ^ 8 + 6 * 2 ^ 16)
  | 0x130 => BitVec.ofNat 64 (7 + 56 * 2 ^ 8 + 7 * 2 ^ 16)
  | 0x140 => 0x08
  | 0x148 => 100
  | 0x150 => 0xC0FAC688
  | 0x158 => 0x5A00000A
  | 0x160 => 0x4A37000000000001
  | 0x168 => BitVec.ofNat 64 (10 + (if code = 0 then 5 else if code = 1 then 10 else 20) * 2 ^ 16)
  | _ => 0

/-- Whether a register of a port's half holds addressing (R63): PORT_VLAN and the addresses and gateways. -/
def addrReg (off : Nat) : Bool := off = 0x020 || (0x040 ≤ off && off ≤ 0x060) || (0x080 ≤ off && off < 0x118)

/-- The RW register of a port at an offset; addressing reads zero in FACTORY (R63, R576). -/
def State.portWord (s : State) (p : PortId) (off : Nat) : W64 :=
  if addrReg off && s.life.state = .factory then 0
  else lookD (s.port p).regs (portReset s.bell.active off) off

/-- Whether an IPv4 address is one of the port's (R63): network order, first byte at bits [7:0]. -/
def State.ownV4 (s : State) (p : PortId) (a : W32) : Bool :=
  (List.range 4).any fun n =>
    let w := s.portWord p (0x040 + 8 * n)
    bit w.toNat 63 && w.setWidth 32 = a

/-- Whether an IPv6 address is one of the port's (R63), bytes 0 to 15 in network order. -/
def State.ownV6 (s : State) (p : PortId) (a : W128) : Bool :=
  (List.range 4).any fun n =>
    let k := 0x080 + 32 * n
    bit (s.portWord p (k + 16)).toNat 63 && (s.portWord p (k + 8) ++ s.portWord p k : W128) = a

/-- Whether an address of FN_QP_ADDR is IPv4, held as ::ffff:a.b.c.d (Table 23.6). -/
def mappedV4 (a : W128) : Bool := a.toNat % 2 ^ 80 = 0 && bits a.toNat 95 80 = 0xFFFF

/-- Whether an address, IPv4 as ::ffff:a.b.c.d, is one of the port's (R63, R83). -/
def State.ownAddr (s : State) (p : PortId) (a : W128) : Bool :=
  if mappedV4 a then s.ownV4 p (a.extractLsb' 96 32) else s.ownV6 p a

/-! ### Host memory (R130, R136, R140 to R142, R144, R146) -/

/-- The bytes a command's data takes (Table 7.3, R142), without a parameter block. -/
def dataLen (c : Cmd) : Nat :=
  match c.opcode with
  | 0x01 | 0x02 | 0x03 | 0x10 | 0x11 => c.cnt * 4096
  | 0x0C => c.cnt * 16
  | 0x38 => le c.entry 12 4
  | 0x59 => le c.entry 12 4
  | _ => 0

/-- The bytes of a command's parameter block (R193). -/
def blockLen (c : Cmd) : Nat :=
  match c.opcode with
  | 0x20 | 0x21 => le c.entry 16 4
  | 0x28 => 96
  | 0x29 => 192
  | 0x2A => 40
  | 0x40 => 48
  | 0x48 => 144
  | 0x4D => 32
  | 0x5C => le c.entry 8 4
  | 0x5D => 32
  | _ => 0

/-- The bytes of output a command's buffer must hold after the block, where the command fixes it (R193). -/
def outLen (c : Cmd) : Nat :=
  match c.opcode with
  | 0x20 | 0x21 => le c.entry 20 4
  | 0x2A | 0x2B => 16
  | 0x5D => le c.entry 8 4
  | _ => 0

/-- The bytes a command's buffer must hold (R142, R193). -/
def needLen (c : Cmd) : Nat := dataLen c + blockLen c + outLen c

/-- The buffer triples of a command with their numbers in the error log (Table 6.4): 0 BUF0, 1 BUF1, 2 + k list triple k. -/
def Cmd.numbered (c : Cmd) : List (Nat × Triple) :=
  (if c.buf0.unused then [] else [(0, c.buf0)]) ++
  (if c.chained then c.list.zipIdx.map fun e => (2 + e.2, e.1) else if c.buf1.unused then [] else [(1, c.buf1)])

/-- The part of one triple after its first `k` bytes, at most `n` bytes of it. -/
def Triple.cut (t : Triple) (k n : Nat) : Triple := ⟨t.rkey, min n (t.len - k), t.addr + k⟩

/-- The stretches of host memory that hold `n` bytes of a buffer from byte `k` of it on (R142). -/
def segments : List Triple → Nat → Nat → List Triple
  | [], _, _ => []
  | t :: ts, k, n =>
    if n = 0 then []
    else if k ≥ t.len then segments ts (k - t.len) n
    else t.cut k n :: segments ts 0 (n - min n (t.len - k))

/-- Where an RDMA operation reads or writes host memory: a doorbell page (R130), entries (R136), a head word (R144), a chained list
(R141), a command's buffer (R142, R193), a completion slot (R146). -/
def State.target (s : State) (o : RdmaOp) : List Triple :=
  let buf := fun (c : Cmd) => c.numbered.map (·.2)
  match o.kind with
  | .page pg k => [⟨(s.fn o.fn).dbRkey, 8 * k, (s.fn o.fn).dbAddr.toNat + 4096 * pg⟩]
  | .entries n first k => match s.sq o.fn n with
    | some q => [⟨q.rkey, 64 * k, q.base.toNat + 64 * (first % q.size)⟩]
    | none => []
  | .head n => match s.cq o.fn n with
    | some k => [⟨k.headRkey, 8, k.headAddr.toNat⟩]
    | none => []
  | .list r => ((s.cmd r).map fun c => [c.buf1]).getD []
  | .block r => ((s.cmd r).map fun c => segments (buf c) 0 (blockLen c)).getD []
  | .data r => ((s.cmd r).map fun c => segments (buf c) 0 (dataLen c)).getD []
  | .outData c _ k b => segments (buf c) k b.length
  | .jobOut j k b => match look s.jobs j with
    | some x => ((s.cmd x.r).map fun c => segments (buf c) (x.blockLen + k) b.length).getD []
    | none => []
  | .cqe n k _ => match s.cq o.fn n with
    | some q => [⟨q.rkey, 32, q.base.toNat + 32 * (k % q.size)⟩]
    | none => []
  | .notify _ => []

/-! ### Outgoing -/

/-- How a message is marked as it leaves (R66, R70, R81): by its row of PORT_PRIO; packets of RoCEv2, those of the connection
manager among them, go to UDP port 4791 with an ICRC and ECT(0). -/
def State.markOf (s : State) (m : Msg) : Option Mark :=
  match m.via with
  | some (p, r) =>
    if r ≥ 4 then none
    else
      let w := (s.portWord p (0x120 + 8 * r)).toNat
      let roce := r < 2 || (match m with
        | .cmRep _ _ _ | .cmRej _ _ | .cmDrep _ _ => true
        | _ => false)
      some ⟨bits w 2 0, bits w 13 8, bits w 18 16, if roce then 4791 else 0, roce, roce⟩
  | none => none

/-- Whether a message waits because its priority is paused on its port (R67). -/
def State.pausedFor (s : State) (m : Msg) : Bool :=
  match m.via, s.markOf m with
  | some (p, _), some k => (s.port p).paused.contains k.pcp
  | _, _ => false

/-- A message as it leaves now. -/
def State.sentAs (s : State) (m : Msg) : Sent :=
  ⟨m, s.markOf m, match m with
    | .rdma o => s.target o
    | _ => [], s.pausedFor m⟩

/-- Records something that leaves the module. -/
def State.tell (s : State) (m : Msg) : State := { s with out := s.out ++ [s.sentAs m] }

/-- Whether a message stands in the record. -/
def State.told (s : State) (m : Msg) : Bool := s.out.any fun x => x.msg = m

/-- What waited for a priority of a port leaves once the priority is paused no more (R67). -/
def State.unpause (s : State) (p : PortId) : State :=
  let go := fun (x : Sent) => x.waits && x.msg.via.map (·.1) = some p && !s.pausedFor x.msg
  { s with out := s.out.filter (fun x => !go x) ++ (s.out.filter go).map fun x => { x with waits := false } }

/-- Whether an operation is an RDMA READ. -/
def OpKind.isRead : OpKind → Bool
  | .page _ _ | .entries _ _ _ | .head _ | .list _ | .block _ | .data _ => true
  | .outData _ _ _ _ | .jobOut _ _ _ | .cqe _ _ _ | .notify _ => false

/-- The command an operation serves, if one (R76). -/
def OpKind.ref : OpKind → Option Ref
  | .list r | .block r | .data r | .outData _ r _ _ => some r
  | _ => none

/-- RDMA READs an operation keeps outstanding (R74): one for each stretch of host memory, at most 16 at a time
(notes/assumptions/81.md). -/
def State.readCount (s : State) (o : RdmaOp) : Nat := if o.kind.isRead then max 1 (min 16 (s.target o).length) else 0

/-- RDMA READs of a function outstanding on its command queue pair of a port (R74). -/
def State.readsOn (s : State) (f : Nat) (p : PortId) : Nat :=
  s.rdma.foldl (fun n o => if o.fn = f && o.port = some p then n + s.readCount o else n) 0

/-- The port an operation can be issued on (R74, R76): a READ waits where more than 16 would be outstanding on the queue pair. -/
def State.admitted (s : State) (o : RdmaOp) (p : Option PortId) : Option PortId :=
  match p with
  | some q => if o.kind.isRead && decide (16 < s.readsOn o.fn q + s.readCount o) then none else some q
  | none => none

/-- Issues an RDMA operation; it stays until it is wholly answered (R77). With no port it waits (R80). -/
def State.issue (s : State) (op : RdmaOp) : State :=
  let op := { op with port := s.admitted op op.port }
  let s' := if op.port.isSome then s.tell (.rdma op) else s
  { s' with rdma := s'.rdma ++ [op] }

/-- Whether an RDMA operation of this function and kind is outstanding. -/
def State.awaits (s : State) (f : Nat) (k : OpKind) : Bool := s.rdma.any fun o => o.fn = f && o.kind = k

/-- Whether an answer to an operation can arrive (R67, R90): it left by a port that is UP, on a queue pair in RTS. -/
def State.arrives (s : State) (o : RdmaOp) : Bool :=
  match o.port with
  | some p => s.carries o.fn p o.ev && !(s.out.any fun x => x.waits && x.msg = .rdma o)
  | none => false

/-- Whether the answer to an operation of this function and kind can arrive. -/
def State.hears (s : State) (f : Nat) (k : OpKind) : Bool := s.rdma.any fun o => o.fn = f && o.kind = k && s.arrives o

/-- Drops the first outstanding operation of this function and kind: it is wholly answered. -/
def dropOp (f : Nat) (k : OpKind) : List RdmaOp → List RdmaOp
  | [] => []
  | o :: os => if o.fn = f && o.kind = k then os else o :: dropOp f k os

/-- A queue pair makes progress: its retransmissions count afresh (R74, R152). -/
def State.progress (s : State) (o : RdmaOp) : State :=
  match o.port with
  | some p => s.setFn o.fn fun g => { g with
      qpTries := if o.ev then del (del g.qpTries (2 * p.num + 1)) (4 + p.num) else del g.qpTries (2 * p.num) }
  | none => s

/-! ### Operations that wait for a port (R74, R77, R80) -/

/-- The port an operation goes by now (R76): that of its command, else the port that carries the function's work. -/
def State.opPort (s : State) (o : RdmaOp) : Option PortId :=
  if o.ev then s.eventPort o.fn
  else match o.kind.ref.bind s.cmd with
    | some c => s.cmdPort o.fn c.port
    | none => s.workPort o.fn

/-- The notification state of a completion ring after one more completion in bell `b` (R148). -/
def Cq.postOne (q : Cq) (b : Nat) (now : Bool) : Cq :=
  if q.notify then
    let n := q.pendCount + 1
    { q with pendFrom := some (q.pendFrom.getD b), pendCount := n,
             pendNow := q.pendNow || now || n ≥ q.coCount || q.coBells = 0 }
  else q

/-- A completion entry that was held, as it is posted (R38, R145, R161): the bell, FETCHED of its ring, and for
NOT_STARTED_FROZEN and MODULE_RESET the ledger. -/
def State.stampCqe (s : State) (f : Nat) (b : Bytes) : Bytes :=
  let fetched := ((s.sq f (bits (le b 24 2) 9 0)).map (·.fetched)).getD 0
  let b := patch (patch b 8 (toLe s.bell.now 8)) 26 (toLe (fetched % 65536) 2)
  if byteAt b 30 = 0x06 || byteAt b 30 = 0x62 then patch b 0 (toLe s.ledger 8) else b

/-- An operation as it is posted: a completion that was held (R80) is posted only now, and counts for its notification. -/
def State.asPosted (s : State) (o : RdmaOp) : RdmaOp × State :=
  match o.kind with
  | .cqe n k b => match s.cq o.fn n with
    | some q => match q.held.find? fun e => e.1 = k with
      | some e =>
        let b' := s.stampCqe o.fn b
        ({ o with kind := .cqe n k b' }, s.setCq o.fn n fun q => { (q.postOne s.bell.now e.2) with
          held := q.held.filter fun e => e.1 ≠ k, unacked := q.unacked.map fun e => if e.1 = k then (k, b') else e })
      | none => (o, s)
    | none => (o, s)
  | _ => (o, s)

/-- Tries to issue the operation at place `i` that waits for a port. -/
def State.retryAt (s : State) (pick : RdmaOp → Bool) (i : Nat) : State :=
  match s.rdma[i]? with
  | some o =>
    if o.port.isSome || !pick o then s
    else match s.admitted o (s.opPort o) with
      | some p =>
        let (o, s) := s.asPosted { o with port := some p }
        { s with rdma := s.rdma.set i o }.tell (.rdma o)
      | none => s
  | none => s

/-- Issues, in order, the waiting operations a test picks that a port can carry now. -/
def State.retry (s : State) (pick : RdmaOp → Bool) : State := (List.range s.rdma.length).foldl (fun s i => s.retryAt pick i) s

/-- An operation of this function and kind is wholly answered: a READ that waited takes its place (R74). -/
def State.answered (s : State) (f : Nat) (k : OpKind) : State :=
  let s' := match s.rdma.find? fun o => o.fn = f && o.kind = k with
    | some o => s.progress o
    | none => s
  { s' with rdma := dropOp f k s'.rdma }.retry fun o => o.fn = f && o.kind.isRead

/-- Sends a notification with the given immediate on the event queue pair (R147). -/
def State.notify (s : State) (f : Nat) (imm : W32) : State :=
  s.issue ⟨f, s.eventPort f, true, .notify imm⟩

/-! ### Events -/

/-- Raises an event that took place in bell `b` (R38, R515, R516): 64-byte record, event log of 8,192 records (R518), error
history for classes 2 and 3, and one EVENTS notification per manager and bell for classes 1 to 3 after READY (R151, R562). -/
def State.eventAt (s : State) (b code cls f : Nat) (detail : List (Nat × Nat × Nat)) : State :=
  let r := record 64 ([(0, 8, b), (8, 8, s.eventSeq + 1), (16, 2, code), (18, 1, cls), (20, 4, s.bell.boot),
    (24, 2, f)] ++ detail)
  let log := s.events ++ [r]
  let s := { s with events := log.drop (log.length - 8192), eventSeq := s.eventSeq + 1 }
  let s := if cls ≥ 2 then s.loftRecord 312 recEvent r else s
  if cls = 0 then s
  else if s.boot.ready && !s.bell.eventRaised then
    (({ s with bell := { s.bell with eventRaised := true } }).notify 0 0x30000000).notify 1 0x30000000
  else s

/-- Raises an event of the present bell. -/
def State.event (s : State) (code cls f : Nat) (detail : List (Nat × Nat × Nat)) : State :=
  s.eventAt s.bell.now code cls f detail

/-- The three bytes of a die in an event's DETAIL, from byte `k`. -/
def dieDetail (d : DieId) (k : Nat) : List (Nat × Nat × Nat) := [(k, 1, d.ward), (k + 1, 1, d.ch), (k + 2, 1, d.pos)]

/-- The number of a port state (Table 23.5). -/
def PortState.num : PortState → Nat
  | .off => 0
  | .training => 1
  | .up => 2
  | .down => 3
  | .failed => 4

/-- Whether a function's work runs through a port (R76, R77). -/
def State.uses (s : State) (f : Nat) (p : PortId) : Bool :=
  s.workPort f = some p || s.eventPort f = some p || s.rdma.any fun o => o.fn = f && o.port = some p

/-- Moves a port to a state: left-UP time (R113), failover of the functions whose work it carried (R77, R90), event PORT_STATE
(R89). What waited to leave by it is lost. -/
def State.movePort (s : State) (p : PortId) (st : PortState) (ns : Nat) : State :=
  let old := (s.port p).state
  if old = st then s else
  let hit := s.fns.filter fun e => e.2.state ≠ .absent && s.uses e.1 p
  let s := s.setPort p fun q => { q with
    state := st
    leftUp := if st = .up then none else if old = .up then some ns else q.leftUp
    paused := if st = .up then q.paused else []
    xoff := if st = .up then q.xoff else [] }
  let s := if old = .up then { s with
      out := s.out.filter fun x => !(x.waits && x.msg.via.map (·.1) = some p)
      net := { s.net with failover :=
        s.net.failover ++ (hit.map fun e => (e.1, p, s.bell.now)) } } else s
  s.event 0x0010 1 0 [(32, 1, p.num), (33, 1, st.num), (34, 1, old.num)]

/-- A queue pair enters ERROR: event QP_ERROR, and its function's work moves at the next boundary (R75, R77). -/
def State.qpError (s : State) (f : Nat) (p : PortId) (ev : Bool) : State :=
  if (s.fn f).qpState p ev = .error then s else
  let s := s.setFn f fun g => g.setQpState p ev .error
  let s := { s with net := { s.net with failover := s.net.failover ++ [(f, p, s.bell.now)] } }
  s.event 0x0012 1 f [(32, 1, p.num), (36, 4, qpNumber f ev)]

/-! ### The ledger -/

/-- Takes the next ledger number (R158). -/
def State.commit (s : State) : Nat × State := (s.ledger + 1, { s with ledger := s.ledger + 1 })

/-- The maps as they stand (R284). -/
def State.maps (s : State) : Maps :=
  ⟨s.media.slots, s.zones, s.rand, s.media.raSlots, s.media.streams, s.media.bmap, s.media.members⟩

/-- The entries of a table that another does not hold: new ones, and keys whose entry is gone. -/
def tabNew {α : Type} [DecidableEq α] (old new : Tab α) : List (Nat × Option α) :=
  ((new.filter fun e => look old e.1 ≠ some e.2).map fun e => (e.1, some e.2)) ++
    (old.filter fun e => (look new e.1).isNone).map fun e => (e.1, none)

/-- The changes that lead from some maps to others (R284). -/
def Maps.since (new old : Maps) : List JRec :=
  ((tabNew old.slots new.slots).map fun e => JRec.slot e.1 e.2) ++ ((tabNew old.zones new.zones).map fun e => .zone e.1 e.2) ++
  ((tabNew old.rand new.rand).map fun e => .rand e.1 e.2) ++ ((tabNew old.raSlots new.raSlots).map fun e => .raSlot e.1 e.2) ++
  ((tabNew old.streams new.streams).map fun e => .stream e.1 e.2) ++ ((tabNew old.bmap new.bmap).map fun e => .block e.1 e.2) ++
  (tabNew old.members new.members).map fun e => .member e.1 e.2

/-- A table with one entry replaced or taken away. -/
def putOpt {α : Type} (t : Tab α) (k : Nat) : Option α → Tab α
  | some x => put t k x
  | none => del t k

/-- The maps after one journal record (R285). -/
def Maps.replay (m : Maps) : JRec → Maps
  | .slot n x => { m with slots := putOpt m.slots n x }
  | .zone n x => { m with zones := putOpt m.zones n x }
  | .rand n x => { m with rand := putOpt m.rand n x }
  | .raSlot n x => { m with raSlots := putOpt m.raSlots n x }
  | .stream n x => { m with streams := putOpt m.streams n x }
  | .block n x => { m with bmap := putOpt m.bmap n x }
  | .member n x => { m with members := putOpt m.members n x }

/-- The journal holds every change of the maps made so far (R284). -/
def State.noteMaps (s : State) : State :=
  { s with media := { s.media with recs := s.media.recs ++ s.maps.since s.media.noted, noted := s.maps } }

/-- Records a change of the maps in the map journal (R284): reaching 32 MiB asks for a further checkpoint (R315). While a copy of a mirrored
region is unavailable the write also goes to its pair's detour log (R464). -/
def State.journalRec (s : State) (kind : Nat) : State :=
  let s := s.noteMaps
  { s with
    media := { s.media with journal := s.media.journal + Config.recordBytes kind }
    dram := { s.dram with detour := mapV (fun _ n => n + Config.recordBytes kind) s.dram.detour } }

/-- Whether the map journal, or a detour log of 256 MiB, holds back state-changing commands (R315, R464). -/
def State.journalFull (s : State) : Bool :=
  s.media.journal ≥ 50331648 || s.dram.detour.any fun e => decide (e.2 ≥ 268435456)

/-! ### Commands -/

/-- Whether a command has passed its start point (R153). -/
def Cmd.started (c : Cmd) : Bool :=
  match c.point with
  | .fetched | .list | .block | .checked | .held => false
  | _ => true

/-- Whether a command's checks have all passed (R154). -/
def Cmd.checkedYet (c : Cmd) : Bool :=
  match c.point with
  | .fetched | .list | .block => false
  | _ => true

/-- Whether a command's end by an ABORT is settled and waits for an earlier command of its zone or unit (R167, R187). -/
def Cmd.aborted (c : Cmd) : Bool := c.ending.map (·.status) = some ABORTED

/-- Whether an opcode writes at a zone's next pointer. -/
def isZoneWrite (op : Nat) : Bool := op = 0x02 || op = 0x03

/-- Zone management commands (R155). -/
def zoneMgmt (op : Nat) : Bool := 0x08 ≤ op && op ≤ 0x0B

/-- Commands that name a zone in order under R164. -/
def zoneOrdered (op : Nat) : Bool := isZoneWrite op || zoneMgmt op

/-- Whether a command changes random-area units (R209, R210). -/
def randOrdered (op : Nat) : Bool := op = 0x11 || op = 0x12

/-- Whether two commands of a ring are ordered by R164: state-changing commands of one zone, or random-area changes that share a
unit (R210). -/
def sameTarget (c d : Cmd) : Bool :=
  (zoneOrdered c.opcode && zoneOrdered d.opcode && d.zkey = c.zkey) ||
  (randOrdered c.opcode && randOrdered d.opcode && d.f12 = c.f12 && decide (d.zone < c.zone + c.cnt) &&
    decide (c.zone < d.zone + d.cnt))

/-- The outstanding commands of a ring before the entry at `pos`, in ring order. -/
def earlier (cmds : List Cmd) (pos : Nat) : List Cmd := cmds.takeWhile fun c => c.pos ≠ pos

/-- The units earlier outstanding writes of a ring, past their checks, add to a zone's write pointer (R164). -/
def pendingUnits (cmds : List Cmd) (z pos : Nat) : Nat :=
  (earlier cmds pos).foldl (fun n c => if isZoneWrite c.opcode && c.zkey = z && c.checkedYet then n + c.cnt else n) 0

/-- The next pointer of a zone for the entry at `pos` of a ring (R164). -/
def State.nextPtr (s : State) (f n z pos : Nat) : Nat :=
  (s.zone z).wp + pendingUnits (((s.sq f n).map (·.cmds)).getD []) z pos

/-- State codes of a zone (Table 8.1). -/
def ZState.num : ZState → Nat
  | .empty => 0
  | .open_ => 1
  | .closed => 2
  | .full => 3

/-- DETAIL of an error-log entry by status (Table 6.4, R175). -/
def State.errDetail (s : State) (r : Ref) (c : Cmd) (d : Done) : List (Nat × Nat × Nat) :=
  let st := d.status
  if d.detail ≠ [] then d.detail
  else if st = BUFFER_TOO_SHORT then [(32, 8, needLen c), (40, 8, c.bufLen)]
  else if c.opcode ≥ 0x10 && c.opcode ≤ 0x12 && (st = QUOTA_EXCEEDED || st = CAPACITY_EXHAUSTED && c.opcode = 0x11) then
    if st = QUOTA_EXCEEDED then [(32, 2, c.f12), (36, 4, c.zone), (56, 4, c.cnt)] else [(32, 28, le c.entry 4 28)]
  else if [ZONE_STATE_INVALID, ZONE_FULL, WRITE_POINTER_MISMATCH, OUT_OF_HOLDING, QUOTA_EXCEEDED,
      ZONE_FENCED].contains st && c.opcode = 0x20 then
    let h := le c.entry 12 2
    let z := s.zone (zoneNo h (le c.entry 8 4))
    [(32, 2, h), (36, 4, le c.entry 8 4), (40, 1, z.st.num), (44, 4, z.wp),
      (48, 4, s.nextPtr r.fn r.sq (zoneNo h (le c.entry 8 4)) c.pos)]
  else if [ZONE_STATE_INVALID, ZONE_FULL, WRITE_POINTER_MISMATCH, OUT_OF_HOLDING, QUOTA_EXCEEDED,
      ZONE_FENCED].contains st then
    let z := s.zone c.zkey
    [(32, 2, c.f12), (36, 4, c.zone), (40, 1, z.st.num), (44, 4, z.wp), (48, 4, s.nextPtr r.fn r.sq c.zkey c.pos),
     (52, 4, c.offset), (56, 4, c.cnt)]
  else if st = DATA_UNRECOVERABLE then
    let k := c.bad.getD 0
    [(32, 2, c.f12), (36, 4, if c.opcode = 0x10 then 0xFFFFFFFF else c.zone),
     (40, 8, (if c.opcode = 0x10 then c.zone else c.offset) + k), (48, 4, c.cnt - k)]
  else if st = INTERNAL_TIMEOUT then [(36, 24, le c.entry 8 24)]
  else [(32, 28, le c.entry 4 28)]

/-- Fetched, unstarted entries of a ring other than the failing one (Table 6.3, UNSTARTED). -/
def unstarted (q : Sq) (tag : Nat) : Nat := (q.cmds.filter fun c => !c.started && c.tag ≠ tag).length

/-- Writes an error-log entry of a ring if one of the four places is free (R173): the log and whether it was written.
A fifth entry sets OVERFLOW in entry 3. -/
def logEntry (log : List Bytes) (e : Nat → Bytes) : List Bytes × Bool :=
  if log.length < 4 then (log ++ [e log.length], true)
  else (log.mapIdx fun i b => if i = 3 then patch b 26 [BitVec.ofNat 8 (byteAt b 26 ||| 8)] else b, false)

/-- Sends a due notification once every completion it follows is acknowledged (R148, R149). -/
def State.sendDue (s : State) (f n : Nat) : State :=
  match s.cq f n with
  | some q =>
    if q.pendNow && q.unacked.isEmpty then
      (s.setCq f n fun q => { q with pendFrom := none, pendCount := 0, pendNow := false }).notify f
        (BitVec.ofNat 32 (0x10000000 + n))
    else s
  | none => s

/-- The word of SEM[n] (R110). -/
def State.semWord (s : State) (n : Nat) : W64 := lookD s.sems.word 0 n

/-- RESULT of a completion: every completion of a semaphore command carries the word of the semaphore it names (R115, R217). -/
def State.resultOf (s : State) (c : Cmd) (v : W64) : W64 :=
  if 0x30 ≤ c.opcode && c.opcode ≤ 0x33 && le c.entry 4 2 < 1024 then s.semWord (le c.entry 4 2) else v

/-- The completion entry (Table 5.7). -/
def cqeBytes (s : State) (r : Ref) (c : Cmd) (q : Sq) (k : Cq) (d : Done) (logged : Bool) : Bytes :=
  record 32 [(0, 8, d.ledger.getD (if (c.started || c.ending.isSome) && d.status ≠ MODULE_RESET && d.status ≠ NOT_STARTED_FROZEN
      then c.seen else s.ledger)), (8, 8, s.bell.now), (16, 8, (s.resultOf c d.result).toNat), (24, 2, r.sq),
    (26, 2, q.fetched % 65536), (28, 2, c.tag), (30, 1, d.status),
    (31, 1, b01 (k.posted / k.size % 2 = 0) + 2 * b01 d.ledger.isSome + 4 * b01 logged)]

/-- Fences the zone of a failing WRITE or ZONE APPEND (R183). -/
def State.fenceFor (s : State) (r : Ref) (c : Cmd) (st : Nat) : State :=
  if isZoneWrite c.opcode && fences st && (s.zone c.zkey).fence.isNone then
    s.setZone c.zkey fun z => { z with fence := some (ringNo r.fn r.sq, c.pos) }
  else s

/-- Freezes a ring or, when frozen, logs a later failure of a started command (R171, R173). -/
def State.logFailure (s : State) (r : Ref) (c : Cmd) (q : Sq) (d : Done) : State × Bool :=
  if freezes d.status && d.status ≠ MODULE_RESET && (!q.frozen || c.started) then
    let fenced := isZoneWrite c.opcode && fences d.status && (s.zone c.zkey).fence.isNone
    let e := fun i => record 64 ([(0, 8, s.bell.now), (8, 8, s.ledger), (16, 4, c.pos), (20, 2, r.sq), (22, 2, c.tag),
      (24, 1, d.status), (25, 1, c.opcode),
      (26, 1, 2 * b01 c.started + 4 * b01 fenced + 16 * c.port.num), (27, 1, i), (28, 2, d.field),
      (30, 2, unstarted q c.tag)] ++ s.errDetail r c d)
    let l := logEntry q.errlog e
    (s.setSq r.fn r.sq fun q => { q with frozen := true, errlog := l.1 }, l.2)
  else (s, false)

/-- Stops the checks of an entry of a frozen ring: a fetched list or block is discarded, and so is a failure not yet completed
(R171). -/
def Cmd.unchecked (c : Cmd) : Cmd :=
  match c.point with
  | .fetched | .list | .block => { c with point := .fetched, list := [], block := [], ending := if c.aborted then c.ending else none }
  | _ => c

/-- Whether an earlier outstanding command of the ring must complete before this one (R167). -/
def orderWaits (cmds : List Cmd) (c : Cmd) : Bool := (earlier cmds c.pos).any (sameTarget c)

/-- Writes the completion of an outstanding command (R146): fence, error log and freeze, completion entry by RDMA WRITE in the next
slot, notification. The completion ring is the one bound to the submission ring (R121). -/
def State.post (s : State) (r : Ref) (d : Done) : State :=
  match s.sq r.fn r.sq, s.cmd r with
  | some q, some c =>
    let (s1, logged) := s.logFailure r c q d
    let s1 := s1.fenceFor r c d.status
    match s1.cq r.fn q.cq with
    | none => s
    | some k =>
      let b := cqeBytes s r c q k d logged
      let s2 := s1.setSq r.fn r.sq fun q => { q with
        cmds := (q.cmds.filter fun c => c.tag ≠ r.tag).map fun c => if q.frozen then c.unchecked else c }
      let p := s2.cmdPort r.fn c.port
      let s2 := s2.setCq r.fn q.cq fun k => { (if p.isSome then k.postOne s.bell.now c.notifyNow else k) with
        posted := (k.posted + 1) % 2 ^ 32, reserved := k.reserved - 1, unacked := k.unacked ++ [(k.posted, b)]
        held := if p.isSome then k.held else k.held ++ [(k.posted, c.notifyNow)] }
      let s2 := { s2 with aborts := s2.aborts.map fun (a : AbortWait) =>
        if a.target = r && a.count.isNone then { a with cq := q.cq, count := some k.posted } else a }
      s2.issue ⟨r.fn, p, false, .cqe q.cq k.posted b⟩
  | _, _ => s

/-- Completes the commands of a ring whose end waited for an earlier command of their zone or unit (R167). -/
def State.postEnded (f n : Nat) : Nat → State → State
  | 0, s => s
  | k + 1, s =>
    match s.sq f n with
    | some q => match q.cmds.find? fun c => c.ending.isSome && !orderWaits q.cmds c with
      | some c => match c.ending with
        | some d => State.postEnded f n k (s.post ⟨f, n, c.tag⟩ d)
        | none => s
      | none => s
    | none => s

/-- Completes an outstanding command; one that R167 orders behind an earlier one of its zone or unit waits for that one's
completion, its outcome settled; one that had not started stays unstarted. -/
def State.complete (s : State) (r : Ref) (d : Done) : State :=
  match s.sq r.fn r.sq, s.cmd r with
  | some q, some c =>
    if orderWaits q.cmds c then
      s.setCmd r fun c => { c with
        ending := some d, point := if c.started then .decided else c.point, seen := if c.started then c.seen else s.ledger }
    else State.postEnded r.fn r.sq q.cmds.length (s.post r d)
  | _, _ => s

/-- Completes with a status alone. -/
def State.fail (s : State) (r : Ref) (status field : Nat) : State := s.complete r { status := status, field := field }

/-- Completes an entry that fails a check (R170); while R167 holds its completion back it stays unstarted. -/
def State.failCheck (s : State) (r : Ref) (status field : Nat) (detail : List (Nat × Nat × Nat)) : State :=
  let d : Done := { status := status, field := field, detail := detail }
  match s.sq r.fn r.sq, s.cmd r with
  | some q, some c =>
    if orderWaits q.cmds c then
      s.setCmd r fun c => { c with ending := some d, point := .fetched, list := [], block := [], seen := s.ledger }
    else s.complete r d
  | _, _ => s

/-- Commits and completes a command in one act: takes a ledger number, completes with SUCCESS and the result. -/
def State.succeed (s : State) (r : Ref) (result : W64) : State :=
  let (n, s) := s.commit
  s.complete r { status := SUCCESS, result := result, ledger := some n }

/-- Moves a command to a point. -/
def State.atPoint (s : State) (r : Ref) (p : Point) : State := s.setCmd r fun c => { c with point := p }

/-- Whether a function holds a semaphore word on a port (R112, Table 4.4). -/
def semHeldBy (w : W64) (f : Nat) (p : PortId) : Bool :=
  bit w.toNat 13 && bits w.toNat 11 0 = f && b01 (bit w.toNat 12) = p.num

end Sys2Proof.Machine
end

