-- ==== Sys2Proof/Machine/MediaOps.lean ====
section
/-! DEFINITION. Shared operations on the media: slots and their delivery layout (R601), die rows (R25), who is unable
(R30, R280), blocks drawn and retired (R252, R297), failed dies and their spares (R298, R300), staging (R234, R238), what
stands in a share (R255 to R265). -/

namespace Sys2Proof.Machine

/-! ### Access -/

def State.die (s : State) (d : DieId) : Die := lookD s.media.dies Die.fresh (dieNo d)

def State.setMedia (s : State) (f : Media → Media) : State := { s with media := f s.media }

def State.setDie (s : State) (d : DieId) (f : Die → Die) : State :=
  s.setMedia fun m => { m with dies := adjD m.dies Die.fresh (dieNo d) f }

def State.group (s : State) (d : DieId) (k : Nat) : Group := lookD s.media.groups Group.fresh (groupNo d k)

def State.setGroup (s : State) (d : DieId) (k : Nat) (f : Group → Group) : State :=
  s.setMedia fun m => { m with groups := adjD m.groups Group.fresh (groupNo d k) f }

/-- Block groups of a retention scan that have word lines left to read, with the next of each (R334); those of a failed die are
left to reconstruction. -/
def State.scanLeft (s : State) : Tab (Nat × Nat) :=
  keep (fun g e => !(lookD s.media.dies Die.fresh (g / 4096)).failed &&
    decide (e.1 < min e.2 (lookD s.media.groups Group.fresh g).prog)) s.media.toScan

/-- Whether a retention scan is under way (R334). -/
def State.scanning (s : State) : Bool := !s.scanLeft.isEmpty

/-- The block group a retention scan reads next: the oldest program first (R334). -/
def State.scanNext (s : State) : Option Nat :=
  let at_ := fun g => (lookD s.media.groups Group.fresh g).progAt
  firstBy (fun a b => decide (at_ a < at_ b)) (s.scanLeft.map (·.1))

/-- A channel at delivery: channel-in-ward 36 is the spare channel (R25, Table 9.4). -/
def Chan.fresh (n : Nat) : Chan := ⟨if n % 37 = 36 then .spare else .inService, 0, 0, 0, [], false, false, 0, 0, 0, 0, 0⟩

def State.chan (s : State) (n : Nat) : Chan := (look s.media.chans n).getD (Chan.fresh n)

def State.setChan (s : State) (n : Nat) (f : Chan → Chan) : State :=
  s.setMedia fun m => { m with chans := putD m.chans (Chan.fresh n) n (f (s.chan n)) }

/-- Member `i` of a die row at delivery: position `row` on channel-in-ward `i` (R25). -/
def Mem.fresh (w row i : Nat) : Mem := ⟨⟨w, i, row⟩, false, false, [], none, 0, [], false, false⟩

def State.mem (s : State) (w row i : Nat) : Mem := (look s.media.members (memNo w row i)).getD (Mem.fresh w row i)

def State.setMem (s : State) (w row i : Nat) (f : Mem → Mem) : State :=
  s.setMedia fun m => { m with
    members := putD m.members (Mem.fresh w row i) (memNo w row i) (f (s.mem w row i)) }

/-- A ward's accounts at delivery: extent of 32 random-area slots (Table 8.4). -/
def Ward.fresh : Ward := ⟨32, 0, [], false, [], none, 0, 0⟩

def State.ward (s : State) (w : Nat) : Ward := lookD s.media.wards Ward.fresh w

def State.setWard (s : State) (w : Nat) (f : Ward → Ward) : State :=
  s.setMedia fun m => { m with wards := adjD m.wards Ward.fresh w f }

/-- Use of slot `k` of a die row at delivery (R601). -/
def deliveredUse (row k : Nat) : SlotUse :=
  if k < (if row < 18 then 2836 else 2835) then .free
  else if k = 3071 then .cellar
  else if k < 3071 then
    let n := (3070 - k) * 26 + row
    if n < 64 then .meta_ else if n < 88 then .parking else if n < 120 then .random else .pool
  else .pool

def State.slotUse (s : State) (n : Nat) : SlotUse := (look s.media.slots n).getD (deliveredUse (slotRow n) (slotIdx n))

def State.setSlot (s : State) (n : Nat) (u : SlotUse) : State :=
  s.setMedia fun m => { m with slots := putD m.slots (deliveredUse (slotRow n) (slotIdx n)) n u }

/-- Whether a slot counts as free for OPEN: free, or releasing (R240). -/
def SlotUse.isFree : SlotUse → Bool
  | .free | .releasing _ => true
  | _ => false

/-- The zone a slot is bound to. -/
def SlotUse.zone? : SlotUse → Option Nat
  | .bound z => some z
  | _ => none

/-- Whether the slot of number `n` was delivered as a zone slot (R601). -/
def bornZone (n : Nat) : Bool := deliveredUse (slotRow n) (slotIdx n) = .free

/-- Free slots of a ward, releasing ones among them (R240, R241). -/
def State.freeSlots (s : State) (w : Nat) : Nat :=
  73728 - count (fun n u => slotWard n = w && bornZone n && !u.isFree) s.media.slots

/-- Block of a plane that serves a slot (R264): block `k` for slot `k` unless swapped. -/
def planeKey (d : DieId) (plane k : Nat) : Nat := (dieNo d * 4 + plane) * 4096 + k

def State.block (s : State) (d : DieId) (plane k : Nat) : Nat := (look s.media.bmap (planeKey d plane k)).getD k

def State.setBlock (s : State) (d : DieId) (plane k b : Nat) : State :=
  s.setMedia fun m => { m with bmap := putD m.bmap k (planeKey d plane k) b }

/-- A physical plane-block: (die * 4 + plane) * 4096 + block. -/
def State.phys (s : State) (d : DieId) (plane k : Nat) : Nat := planeKey d plane (s.block d plane k)

/-- Whether a channel interface is idled in the present power state (R525, Table 20.1): odd channels-in-ward and the spare
channel in Q2, every channel in Q3 and Q4. -/
def State.chanIdle (s : State) (n : Nat) : Bool :=
  if s.pwr.cur = 2 then n % 37 % 2 = 1 || n % 37 = 36 else 3 ≤ s.pwr.cur

/-! ### Die rows -/

/-- The die-row member a die serves as: ward, row, index (R25). -/
def State.memberOf (s : State) (d : DieId) : Option (Nat × Nat × Nat) :=
  match s.media.members.find? fun e => e.2.die = d with
  | some (k, _) => some (k / 36 / 26, k / 36 % 26, k % 36)
  | none =>
    if d.ch < 36 && d.pos < 26 && (look s.media.members (memNo d.ward d.pos d.ch)).isNone then
      some (d.ward, d.pos, d.ch)
    else none

/-- Suspend budget (R46). -/
def DieOp.budget (o : DieOp) : Nat := if o.work.act = .erase then 255 else 63

/-- Length of the last unsuspendable phase, ns (R261). -/
def actTail (a : OpAct) : Nat := if a = .erase then 500000 else 300000

/-- Planned length of an operation, ns (notes/assumptions/12.md). -/
def actLen (a : OpAct) : Nat := if a = .erase then 25000000 else 2400000

/-- The end an operation has if it runs on from `ns`: that of a suspended one moves by the time it was suspended (R46). -/
def DieOp.endAt (o : DieOp) (ns : Nat) : Nat := if o.suspended then o.endNs + (ns - o.suspAt) else o.endNs

/-- Whether an operation has spent its suspends (R46). -/
def DieOp.spent (o : DieOp) : Bool := o.budget ≤ o.suspends

/-- Whether an operation is in an unsuspendable phase at `ns` (R261). -/
def DieOp.unsuspendable (o : DieOp) (ns : Nat) : Bool :=
  !o.suspended && (o.endNs ≤ ns + actTail o.work.act || (o.resumeNs ≠ 0 && ns < o.resumeNs + 40000))

/-- Whether an operation keeps its die from serving reads (R30). -/
def DieOp.unable (o : DieOp) (ns : Nat) : Bool :=
  !o.suspended && (o.unsuspendable ns || o.spent)

/-- Whether a member is lost for a slot (R280). -/
def Mem.lostFor (m : Mem) (k : Nat) : Bool := m.failed || m.lostSlots.contains k

/-- Whether a member stands without the data of a slot: lost, REBUILDING before the slot's block group passed, on a
failed die or on a channel out of service (R30, R272, R302). -/
def State.memOut (s : State) (m : Mem) (k : Nat) : Bool :=
  m.lostFor k || (m.rebuilding && !m.passed.contains k) || (s.die m.die).failed ||
    (s.chan (dieChan m.die)).st = .retraining || (s.chan (dieChan m.die)).st = .failed

/-- Whether a member is unable to serve a read of a slot at `ns` (R30). -/
def State.memUnable (s : State) (m : Mem) (k ns : Nat) : Bool :=
  s.memOut m k || (match (s.die m.die).op with
    | some o => o.unable ns
    | none => false)

/-- Whether a member may be unable for some slot, whatever its die runs (R273). -/
def State.memWeak (s : State) (m : Mem) : Bool :=
  m.failed || m.rebuilding || !m.lostSlots.isEmpty || (s.die m.die).failed ||
    (s.chan (dieChan m.die)).st = .retraining || (s.chan (dieChan m.die)).st = .failed

/-- Whether a die cannot serve a read of a slot now (R30, R31). -/
def State.dieUnable (s : State) (d : DieId) (k : Nat) : Bool :=
  match s.memberOf d with
  | some (w, row, i) => s.memUnable (s.mem w row i) k s.nowNs
  | none => true

/-- Members of a die row that are unable, or will be once their suspended operation resumes (R30). -/
def State.unableCount (s : State) (w row k : Nat) : Nat :=
  ((List.range 36).filter fun i =>
    let m := s.mem w row i
    s.memUnable m k s.nowNs || (match (s.die m.die).op with
      | some o => o.spent
      | none => false)).length

/-- Members of a die row lost for a slot (R280). -/
def State.lostCount (s : State) (w row k : Nat) : Nat :=
  ((List.range 36).filter fun i => (s.mem w row i).lostFor k).length

/-- The package of a die (R266): group * 7 + package. -/
def package (d : DieId) : Nat :=
  let c := dieChan d
  c / 4 * 7 + (d.pos + 56 - 8 * (c % 4)) % 28 / 4

/-- Whether a channel can give a spare die (R300): one RETRAINING, and a SPARE one that is being retrained, are passed over. -/
def Chan.gives (c : Chan) : Bool := c.st = .inService || (c.st = .spare && !c.trying && c.fails = 0)

/-- Whether a die is a spare that can be named now (R25, R300). -/
def State.isSpare (s : State) (d : DieId) : Bool :=
  (s.memberOf d).isNone && !(s.die d).failed && (s.chan (dieChan d)).gives &&
    !(s.chan (dieChan d)).failedPos.contains d.pos

/-- The spares of a ward in order of (channel-in-ward, position) (R267). -/
def State.spares (s : State) (w : Nat) : List DieId :=
  (List.range 37).flatMap fun c => ((List.range 28).map fun p => DieId.mk w c p).filter s.isSpare

/-- Whether a spare die remains in a ward, one on a channel that is being retrained among them (R299, R300). -/
def State.spareLeft (s : State) (w : Nat) : Bool :=
  (List.range 37).any fun c => (List.range 28).any fun p =>
    let d : DieId := ⟨w, c, p⟩
    (s.memberOf d).isNone && !(s.die d).failed && (s.chan (dieChan d)).st ≠ .failed && !(s.chan (dieChan d)).failedPos.contains p

/-- Codes of channel states (Table 23.9). -/
def ChanState.num : ChanState → Nat
  | .inService => 0
  | .spare => 1
  | .retraining => 2
  | .failed => 3

/-- Moves a channel to another state and logs it (R272): event CHANNEL_STATE. -/
def State.moveChan (s : State) (n : Nat) (st : ChanState) : State :=
  if (s.chan n).st = st then s
  else (s.setChan n fun c => { c with st := st }).event 0x0023 1 0 [(32, 2, n), (34, 1, st.num)]

/-- The spare named for member `i` of a die row (R300), and whether its package is shared (R267). -/
def State.chooseSpare (s : State) (w row i : Nat) : Option (DieId × Bool) :=
  let sp := s.spares w
  let held := ((List.range 36).filter fun j => j ≠ i).map fun j => package (s.mem w row j).die
  let own := (s.mem w row i).die.ch
  let apart := fun (d : DieId) => !held.contains (package d)
  match sp.find? fun d => d.ch = own && apart d with
  | some d => some (d, false)
  | none =>
    match sp.find? fun d => d.ch = 36 && apart d with
    | some d => some (d, false)
    | none =>
      match sp.find? apart with
      | some d => some (d, false)
      | none => sp.head?.map fun d => (d, true)

/-- Whether a die's cellar block holds a dump that is not released (R322). -/
def State.cellarHeld (s : State) (d : Die) : Bool := s.pwr.dumps.any fun e => e.seq = d.cellarSeq && !e.released

/-- The next cellar block of a ward to prepare (R322), as class 3: with fewer than 20 free word lines and no unreleased dump in it, one at
a time, that of a spare die that is filled first. -/
def State.prepNext (s : State) (w : Nat) : State :=
  let here := s.media.dies.filter fun e => (dieOf e.1).ward = w && (s.memberOf (dieOf e.1)).isSome
  let ok := fun (e : Nat × Die) => decide (e.2.cellarFree < 20) && !e.2.failed && !s.cellarHeld e.2
  let spare := fun (e : Nat × Die) => s.media.members.any fun m => m.2.die = dieOf e.1 && m.2.rebuilding
  if here.any fun e => e.2.cellarPrep then s
  else match (here.find? fun e => ok e && spare e).or (here.find? ok) with
    | some e => (s.setDie (dieOf e.1) fun x => { x with cellarPrep := true }).setMedia fun m => { m with
        work := m.work ++ [⟨3, dieOf e.1, .erase, 3071, 0, 0, .cellar⟩] }
    | none => s

/-- Names a spare for a failed member, REBUILDING, and prepares its cellar block as class 3; with no spare the member
stays failed (R300, R301). A SPARE channel that replaces a FAILED one is IN_SERVICE (Table 9.4), and a row that then has two
members on one stripe channel is channel-shared (R304). -/
def State.nameSpare (s : State) (w row i : Nat) : State :=
  let old := (s.mem w row i).die
  match s.chooseSpare w row i with
  | none => (s.setMem w row i fun m => { m with failed := true }).journalRec 3
  | some (d, shared) =>
    let s := s.setMem w row i fun m => { m with
      die := d, failed := false, rebuilding := true, passed := [], cursor := none, lineLeft := 0, pkgShared := shared,
      chanShared := d.ch < 36 && (List.range 36).any fun j => j ≠ i && (s.mem w row j).die.ch = d.ch }
    let s := (s.setDie d fun x => { x with cellarFree := 0 }).prepNext w
    let s := if d.ch = 36 && (s.chan (dieChan d)).st = .spare && (s.chan (dieChan old)).st = .failed then s.moveChan (dieChan d) .inService else s
    (s.journalRec 3).event 0x0021 1 0 (dieDetail old 32 ++ dieDetail d 36)

/-! ### What stands in a share (R255 to R265) -/

/-- The key zone under which the units of a slot held for a SCAN stand (R343). -/
def heldZone (slot : Nat) : Nat := 2 ^ 40 + slot

/-- The unit written at offset `o` of a slot, none where nothing is. -/
def State.storedAt (s : State) (n o : Nat) : Option StUnit :=
  let cell := look s.media.cells (unitNo n o)
  match s.slotUse n with
  | .bound z => (look s.units (unitNo z o)).or cell
  | .held _ _ => (look s.units (unitNo (heldZone n) o)).or cell
  | _ => cell

/-- The protected bytes at offset `o` of a slot: zero where nothing is written. -/
def State.bytesAt (s : State) (n o : Nat) : Bytes :=
  match s.storedAt n o with
  | some u => u.bytes
  | none => List.replicate protectedLen 0

/-- A parity share's unit in the table of parity (R262). -/
def parityNo (n r u j : Nat) : Nat := ((n * 512 + r) * 64 + u) * 4 + j

/-- Offset in its slot of unit `u` of data share `d` of row `r` (R264). -/
def shareOff (r d u : Nat) : Nat := r * 2048 + d * 64 + u

/-- The protected bytes that member `i` holds at unit `u` of row `r` of a slot (R262 to R264). -/
def State.shareAt (s : State) (n r i u : Nat) : Bytes :=
  match parityOf r i with
  | some j => lookD s.media.parity (List.replicate protectedLen 0) (parityNo n r u j)
  | none => s.bytesAt n (shareOff r (symbolOf r i) u)

/-- Whether the bytes decoded at a place pass R258; those written there do. A parity share passes on a zero syndrome (R277). -/
def State.passesAt (s : State) (n r i u : Nat) (img : Option Bytes) : Bool :=
  match img, parityOf r i with
  | some b, none => match s.storedAt n (shareOff r (symbolOf r i) u) with
    | some e => soundBytes e b
    | none => decide (b = List.replicate protectedLen 0)
  | _, _ => true

/-- Data share `d` of a row joins the row's running parity (R265). -/
def State.joinParity (s : State) (n r d : Nat) : State :=
  s.setMedia fun m => { m with parity := (List.range 64).foldl (fun t u =>
    match s.storedAt n (shareOff r d u) with
    | none => t
    | some x =>
      let old := (List.range 4).map fun j => lookD t (List.replicate protectedLen 0) (parityNo n r u j)
      (addShare d x.bytes old).zipIdx.foldl (fun t e => put t (parityNo n r u e.2) e.1) t) m.parity }

/-- The shares of a slot's rows are no longer: its parity and its cells go. -/
def State.clearShares (s : State) (n : Nat) : State :=
  s.setMedia fun m => { m with
    parity := keep (fun k _ => k / 131072 ≠ n) m.parity, cells := keep (fun k _ => k / 2 ^ 20 ≠ n) m.cells }

/-! ### Staging -/

/-- The tenant charged for a holding's programs (R51). -/
def State.ownerOf (s : State) (h : Nat) : Nat := ((look s.holds h).map (·.owner)).getD 0

/-- Whether a zone's row holds partial state in staging (R234, R603); an OPEN zone may be parked (R531). -/
def Zone.partialRow (z : Zone) : Bool :=
  ((z.st = .open_ && z.park = .none) || (z.st = .closed && z.park = .staging)) && z.wp % 2048 ≠ 0

/-- Random-area streams whose partial state is in staging: ward and stream, slot, units filled (R250, R531). -/
def State.liveStreams (s : State) : Tab (Nat × Nat) := keep (fun k _ => !s.media.raParked.contains k) s.media.streams

/-- Zones with partial state in staging (R238). -/
def State.partialZones (s : State) : Nat := count (fun _ z => z.partialRow) s.zones

/-- No partial state of a zone or a stream stands in staging: all of it is parked (R531). -/
def State.allParked (s : State) : Bool := s.partialZones = 0 && s.liveStreams.all fun e => e.2.2 % 2048 = 0

/-- Units of partial program units: of zones, and of random-area streams (R234, R250). -/
def State.partialUnits (s : State) : Nat :=
  s.zones.foldl (fun n e => if e.2.partialRow then n + e.2.wp % 64 else n) 0 +
    s.liveStreams.foldl (fun n e => n + e.2.2 % 64) 0

/-- Units of the 6 GiB staging ceiling and of the 4 GiB level of class 3 (R238, Table 2.2). -/
def stagingCeiling : Nat := 1572864
def stagingHigh : Nat := 1048576

/-- The member and die that hold program unit `pu` of a slot (R264). -/
def State.puMem (s : State) (n pu : Nat) : Nat × Mem :=
  let i := shareMember (pu / 32) (pu % 32)
  (i, s.mem (slotWard n) (slotRow n) i)

/-- Whether programs of a slot are issued to a member (R302). -/
def Mem.takes (m : Mem) (k : Nat) : Bool := !m.lostFor k && (!m.rebuilding || m.passed.contains k)

/-- Whether any program of a word line of a slot waits or runs as data of its row. -/
def State.rowBusy (s : State) (n r : Nat) : Bool :=
  let here := fun (w : Work) => w.why = .host && w.slot = slotIdx n && w.wl = r && w.act = .program &&
    (match s.memberOf w.die with
     | some (a, b, _) => a = slotWard n && b = slotRow n
     | none => false)
  s.media.work.any here || s.media.dies.any fun e => match e.2.op with
    | some o => here o.work
    | none => false

/-- The class of a row's parity programs (R265): 4 where the row holds host data, else 5. -/
def State.parityClass (s : State) (n r : Nat) : Nat :=
  match s.slotUse n with
  | .random => if (((look s.media.raSlots n).map (·.hostRows)).getD []).contains r then 4 else 5
  | _ => 4

/-- Queues the four parity programs of a complete row (R265); each holds its program unit in staging until it is programmed. -/
def State.queueParity (s : State) (n r tenant : Nat) : State :=
  (List.range 4).foldl (fun s j =>
    let i := (firstParity r + j) % 36
    let m := s.mem (slotWard n) (slotRow n) i
    if m.takes (slotIdx n) then
      { s.setMedia fun x => { x with work := x.work ++ [⟨s.parityClass n r, m.die, .program, slotIdx n, r, tenant, .parity⟩] } with
        staged := s.staged + 64 }
    else s) s

/-- Whether every data unit of a stripe row has been written or padded (R234, R237, R250). -/
def State.rowFull (s : State) (n r : Nat) : Bool :=
  match s.slotUse n with
  | .bound z => (s.zone z).st = .full || decide ((s.zone z).wp ≥ (r + 1) * 2048)
  | .random => decide (((look s.media.raSlots n).map (·.fill)).getD 0 ≥ (r + 1) * 2048)
  | _ => false

/-- Complete rows whose data programs are not done: their running parity stays in staging (R238, R265). -/
def State.closingRows (s : State) : List (Nat × Nat) :=
  ((s.media.work ++ s.media.dies.filterMap fun e => e.2.op.map (·.work)).filterMap fun w =>
    match w.why, s.memberOf w.die with
    | .host, some (a, b, _) => if s.rowFull (slotNo a b w.slot) w.wl then some (slotNo a b w.slot, w.wl) else none
    | _, _ => none).eraseDups

/-- Units held in staging with running parity, counted once (R238). -/
def State.stagedTotal (s : State) : Nat :=
  s.staged + 256 * (s.partialZones + count (fun _ (e : Nat × Nat) => e.2 % 2048 ≠ 0) s.liveStreams + s.closingRows.length)

/-- Once no data program of a full row is left, its parity is queued (R265). -/
def State.rowStep (s : State) (n r tenant : Nat) : State :=
  if s.rowFull n r && !s.rowBusy n r then s.queueParity n r tenant else s

/-- The number under which a random-area unit is listed among lost units. -/
def lostRand (key : Nat) : Nat := 2 ^ 60 + key

/-- Units `o` to `o + k - 1` of a slot could not be recovered (R281, R328): reads of them are unrecoverable. -/
def State.loseUnits (s : State) (n o k : Nat) : State :=
  let us := match s.slotUse n with
    | .bound z => (List.range k).map fun i => unitNo z (o + i)
    | _ => (s.rand.filter fun e => e.2.slot = n && decide (o ≤ e.2.off) && decide (e.2.off < o + k)).map fun e => lostRand e.1
  s.setMedia fun m => { m with lostUnits := m.lostUnits ++ us }

/-! ### Failed dies -/

/-- Units of staging a work item holds (R234). -/
def Work.units (w : Work) : Nat := if w.why = .host || w.why = .parity then 64 else 0

/-- Whether the unit at offset `o` of a random-area slot is valid and has no copy yet (R286, R290). -/
def State.toCopy (s : State) (n o : Nat) : Bool :=
  (s.rand.any fun e => e.2.slot = n && e.2.off = o && !s.media.lostUnits.contains (lostRand e.1)) &&
    !s.media.copies.any fun c => c.slot = n && c.off = o

/-- The units of page `p` of a word line, by their index in the program unit (R259). -/
def pageUnits (p : Nat) : List Nat := (List.range 16).map (16 * p + ·)

/-- The page read a waiting read becomes (R42, R259), with what is wanted of it. -/
def State.sliceOf (s : State) (w : Work) : Slice :=
  let x : Nat × List (Nat × SliceFor) := match w.why with
    | .scan j z os => (unitPage (inUnit (os.headD 0)), os.map fun o => (inUnit o, .scan j z o))
    | .ladder u k n => (unitPage u, [(u, .ladder k n)])
    | .copy p => (p, (pageUnits p).map fun u => (u, .copy))
    | .patrol us ret => (unitPage (us.headD 0), us.map fun u => (u, .patrol ret))
    | .reclaim p => (p, match s.memberOf w.die with
      | some (a, b, i) => ((pageUnits p).filter fun u =>
          s.toCopy (slotNo a b w.slot) (shareOff w.wl (symbolOf w.wl i) u)).map fun u => (u, .reclaim)
      | none => [])
    | .share g i => match s.media.recons.find? fun c => c.id = g with
      | some c => (c.page, c.wants.map fun e => (e.1, .recon g i))
      | none => (0, [])
    | _ => (0, [])
  ⟨w.die, w.slot, w.wl, x.1, x.2, w.cls, .queued⟩

/-- Read slices of a die that no longer answers, and reads planned on it, wait at read points for the member's present die
(R30, R31). -/
def State.redirect (s : State) (d : DieId) (w row i : Nat) (gone : List Work) : State :=
  let die := (s.mem w row i).die
  let old := (gone.filter fun x => x.act = .read).map fun x => { s.sliceOf x with die := die }
  s.setMedia fun m => { m with slices := (m.slices.map fun x =>
    if x.die = d then { x with die := die, phase := .queued } else x) ++ old }

/-- The operation of a die has ended: reads that waited for its suspend are issued at the next read point (R46). -/
def State.opEnds (s : State) (d : DieId) : State :=
  (s.setDie d fun x => { x with op := none }).setMedia fun m => { m with slices := m.slices.map fun x =>
    if x.die = d && x.phase = .suspending then { x with phase := .queued } else x }

/-- Program units that a member will not program leave staging: their shares join the running parity (R302). -/
def State.leaveShares (s : State) (w row i : Nat) (gone : List Work) : State :=
  (gone.filter fun x => x.why = .host).foldl (fun s x =>
    (s.joinParity (slotNo w row x.slot) x.wl (symbolOf x.wl i)).rowStep (slotNo w row x.slot) x.wl x.tenant)
    { s with staged := s.staged - gone.foldl (fun n (w : Work) => n + w.units) 0 }

/-- A die fails (R298): DIE_FAILED, its operation and waiting work end, its share of each new row is left to the
rebuild (R302), and a spare is named (R300). -/
def State.failDie (s : State) (d : DieId) (cause : Nat) : State :=
  if (s.die d).failed then s else
  let gone : List Work := (s.media.work.filter fun w => w.die = d) ++ ((s.die d).op.map (·.work)).toList
  let s := s.setDie d fun x => { x with failed := true, op := none }
  let s := s.setMedia fun m => { m with
    work := m.work.filter fun w => w.die ≠ d
    moves := m.moves.filter fun v => v.die ≠ d
    refresh := m.refresh.filter fun e => e.2.1 ≠ d
    retireq := m.retireq.filter fun e => e.1 ≠ d
    erasq := m.erasq.filter fun e => e.1 ≠ d
    oldBlocks := m.oldBlocks.filter fun e => e.1 ≠ d }
  let s := s.event 0x0020 3 0 (dieDetail d 32 ++ [(35, 1, cause)])
  match s.memberOf d with
  | some (w, row, i) => ((s.nameSpare w row i).redirect d w row i gone).leaveShares w row i gone
  | none => s

/-- The choice of a spare is made afresh for the failed members of a ward (R300). -/
def State.nameAgain (s : State) (w : Nat) : State :=
  (s.media.members.filter fun e => e.1 / 36 / 26 = w && e.2.failed).foldl
    (fun s e => s.nameSpare w (e.1 / 36 % 26) (e.1 % 36)) s

/-! ### Blocks -/

/-- Nanoseconds of a day. -/
def dayNs : Nat := 86400000000000

/-- The cell's charge as the time it carries the calendar for, ns (R332): 48 h of power fill it for 180 days. -/
def State.cellCharge (s : State) : Nat := min (180 * dayNs) (s.clk.cellNs + s.nowNs * 90)

/-- CLK_CELL's reserve in days: an empty cell is full within 48 h of powered time (R332). -/
def State.cellNow (s : State) : Nat := s.cellCharge / dayNs

/-- Powered time of the module, ns. -/
def State.poweredNs (s : State) : Nat := s.pwr.powered + s.nowNs

/-- Counts what the wear report gives for the last 24 h of powered time (R309, R522). -/
def State.wearEv (s : State) (w : Nat) (k : WearKind) (n : Nat) : State :=
  let now := s.poweredNs
  s.setWard w fun x => { x with hist := (now, k, n) :: x.hist.filter fun e => now < e.1 + dayNs }

/-- A plane-block of a die, as its defect list names it (R276). -/
def pbOf (plane b : Nat) : Nat := plane * 4096 + b

/-- The entries of a plane-block leave a die's defect list (R276). -/
def Die.unlist (x : Die) (pb : Nat) : Die := { x with
  defects := x.defects.filter fun e => e / 512 ≠ pb
  unmarked := if x.unmarked.contains pb then x.unmarked else pb :: x.unmarked
  defOffs := keep (fun e _ => e / 512 ≠ pb) x.defOffs }

/-- Physical plane-block `b` of a die's plane retires (R297), and its defect entries leave the list (R276): recorded in the block map and the error history; more than 512
on one die within 24 h fail the die (R298 cause 2). -/
def State.retirePhys (s : State) (d : DieId) (plane b : Nat) : State :=
  let p := planeKey d plane b
  if s.media.retired.contains p then s else
  let s := (s.setMedia fun m => { m with retired := p :: m.retired }).setDie d fun x => x.unlist (pbOf plane b)
  let now := s.poweredNs
  let s := s.setDie d fun x => { x with retiredAt := now :: (x.retiredAt.filter fun t => now < t + dayNs) }
  let s := s.wearEv d.ward .retired 1
  let s := s.loftRecord 312 recBlock (record 64 ([(0, 8, s.bell.now), (20, 4, s.bell.boot), (36, 1, plane), (40, 2, b)] ++
    dieDetail d 32))
  if (s.die d).retiredAt.length > 512 then s.failDie d 2 else s

/-- The plane-block of a slot retires (R297). -/
def State.retireBlock (s : State) (d : DieId) (plane k : Nat) : State := s.retirePhys d plane (s.block d plane k)

/-- Whether the plane-blocks of a slot belong to the retirement pool (R252, R601). -/
def poolSlot (u : SlotUse) (plane k : Nat) : Bool :=
  u = .pool || u = .lost true || (k = 3071 && plane ≠ 0)

/-- Random-area units written in a ward (R248). -/
def randWard (key : Nat) : Nat := key % 2 ^ 26 / 2048 % 4

def State.randUnits (s : State) (w : Nat) : Nat := count (fun k _ => randWard k = w) s.rand

/-- The module's random-area extent less its written units, in units (R251). -/
def State.extentLeft (s : State) : Nat :=
  ((List.range 4).foldl (fun n w => n + (s.ward w).extent) 0) * 2 ^ 20 - s.rand.length

/-- Adds to an account of a die's plane. -/
def planeOf (d : DieId) (plane : Nat) : Nat := dieNo d * 4 + plane

/-- Whether block `k` of a die's plane lies in the retirement pool, erased (R252, R601). -/
def State.inPool (s : State) (w row : Nat) (d : DieId) (plane k : Nat) : Bool :=
  poolSlot (s.slotUse (slotNo w row k)) plane k && !s.media.poolTaken.contains (planeKey d plane k) &&
    (s.group d k).prog = 0 && !(s.group d k).dirty

/-- A block on a plane from the retirement pool (Table 8.6, step 2). -/
def State.poolBlock (s : State) (d : DieId) (plane : Nat) : Option (Nat × State) :=
  match s.memberOf d with
  | none => none
  | some (w, row, _) =>
    match s.media.poolGiven.find? fun p => p / 4096 = planeOf d plane with
    | some p => some (p % 4096, s.setMedia fun m => { m with poolGiven := m.poolGiven.erase p })
    | none => ((List.range 3072).find? fun k => s.inPool w row d plane k).map fun k =>
        (s.block d plane k, s.setMedia fun m => { m with poolTaken := planeKey d plane k :: m.poolTaken })

/-- A replacement block on a plane from sources 1 and 2 of Table 8.6: factory spares, then the retirement pool. -/
def State.drawPool (s : State) (d : DieId) (plane : Nat) : Option (Nat × State) :=
  let used := lookD s.media.factory 0 (planeOf d plane)
  if used < 96 then
    some (3072 + used, s.setMedia fun m => { m with factory := put m.factory (planeOf d plane) (used + 1) })
  else s.poolBlock d plane

/-- Whether no block group of a slot holds data that an erase has still to remove. -/
def State.slotClean (s : State) (w row k : Nat) : Bool :=
  (List.range 36).all fun i =>
    let g := s.group (s.mem w row i).die k
    g.prog = 0 && !g.dirty

/-- EMPTY zones the holdings' quotas admit: quotas less non-EMPTY zones (R253). -/
def State.emptyAdmitted (s : State) : Nat :=
  s.holds.foldl (fun n h => n + h.2.quota) 0 - count (fun _ z => z.st ≠ .empty) s.zones

/-- Raises ZONE_CAPACITY_SHORT once each time its condition begins (R253). -/
def State.capCheck (s : State) : State :=
  let free := (List.range 4).foldl (fun n w => n + s.freeSlots w) 0
  let short := decide (free < s.emptyAdmitted)
  let s := if short && !s.media.capShort then s.event 0x0024 1 0 [(32, 4, free), (36, 4, s.emptyAdmitted)] else s
  s.setMedia fun m => { m with capShort := short }

/-- A replacement block under Table 8.6, all four steps (R252): its number, and the slot it was part of where that still holds
data to erase. Step 4 leaves 64 GiB beyond the written units; with `wet` false such slots are passed over. -/
def State.drawFrom (s : State) (d : DieId) (plane : Nat) (wet : Bool) : Option (Nat × Bool × State) :=
  match s.drawPool d plane with
  | some x => some (x.1, false, x.2)
  | none =>
    match s.memberOf d with
    | none => none
    | some (w, row, _) =>
      let ok := fun k => wet || s.slotClean w row k
      let taken := fun (s : State) k => s.setMedia fun m => { m with poolTaken := planeKey d plane k :: m.poolTaken }
      match (List.range 3072).find? fun k => s.slotUse (slotNo w row k) = .free && ok k with
      | some k => some (s.block d plane k, !s.slotClean w row k, (taken (s.setSlot (slotNo w row k) (.lost true)) k).capCheck)
      | none =>
        if s.extentLeft < 17 * 2 ^ 20 then none
        else match (List.range 3072).find? fun k => s.slotUse (slotNo w row k) = .random &&
            (look s.media.raSlots (slotNo w row k)).isNone && ok k with
          | some k => some (s.block d plane k, !s.slotClean w row k,
              (taken (s.setSlot (slotNo w row k) .pool) k).setWard w fun x => { x with extent := x.extent - 1 })
          | none => none

/-- An erased replacement block under Table 8.6 (R252). -/
def State.drawBlock (s : State) (d : DieId) (plane : Nat) : Option (Nat × State) :=
  (s.drawFrom d plane false).map fun x => (x.1, x.2.2)

/-- A plane of a die has no source of a block for a slot's block group: the die fails (R298 cause 3); with no spare die left in the
ward the group stays where it is and its share is lost (R299). -/
def State.noSource (s : State) (d : DieId) (k : Nat) : State :=
  if s.spareLeft d.ward then s.failDie d 3
  else match s.memberOf d with
    | none => s
    | some (w, row, i) =>
      let here := fun (x : Work) => x.die = d && x.slot = k && x.act = .program
      let gone := s.media.work.filter here
      let s := (s.setMem w row i fun m => { m with lostSlots := if m.lostSlots.contains k then m.lostSlots else k :: m.lostSlots }).setMedia
        fun m => { m with
          work := m.work.filter fun x => !here x
          refresh := m.refresh.filter fun e => !decide (e.2.1 = d ∧ e.2.2.1 = k)
          retireq := m.retireq.filter fun e => !decide (e.1 = d ∧ e.2.1 = k) }
      (s.leaveShares w row i gone).journalRec 3

/-- Replaces a retired plane-block of a slot (R252). Where the block still holds data, the block group is erased before its next
program. -/
def State.replaceBlock (s : State) (d : DieId) (plane k : Nat) : State :=
  match s.drawFrom d plane true with
  | some (b, wet, s) =>
    let s := (s.setBlock d plane k b).journalRec 2
    if wet && !(s.group d k).dirty then
      (s.setGroup d k fun g => { g with dirty := true }).setMedia fun m => { m with erasq := m.erasq ++ [(d, k, m.begun)] }
    else s
  | none => s.noSource d k

/-- The slot a physical block of a plane serves, if it serves its own number or was swapped in. -/
def State.slotOfBlock (s : State) (d : DieId) (plane b : Nat) : Nat :=
  match s.media.bmap.find? fun e => e.1 / 4096 = planeOf d plane && e.2 = b with
  | some e => e.1 % 4096
  | none => b

/-- A plane-block that holds data is retired by a relocation of its block group (R294, R297). -/
def State.queueRetire (s : State) (d : DieId) (k : Nat) (planes : List Nat) : State :=
  let here := fun (e : DieId × Nat × List Nat) => decide (e.1 = d ∧ e.2.1 = k)
  s.setMedia fun m => { m with retireq :=
    if (m.retireq.any here) = true then m.retireq.map fun e => if here e then (d, k, (e.2.2 ++ planes).eraseDups) else e
    else m.retireq ++ [(d, k, planes)] }

/-- A plane-block erased: one more cycle (R306). -/
def State.wearBlock (s : State) (p : Nat) : State :=
  s.setMedia fun m => { m with wear := adjD m.wear 0 p (· + 1) }

/-- Marks a block group for refresh (R295): a crossing of a plane at a priority. A group already queued keeps its place
unless the new crossing comes before it. -/
def State.markRefresh (s : State) (pri : Nat) (d : DieId) (k plane : Nat) : State :=
  let here := fun (e : Nat × DieId × Nat × List Nat) => decide (e.2.1 = d ∧ e.2.2.1 = k)
  match s.media.refresh.find? here with
  | some (p, _, _, ps) =>
    let ps := if ps.contains plane then ps else plane :: ps
    if p ≤ pri then
      s.setMedia fun m => { m with refresh := m.refresh.map fun e => if here e then (p, d, k, ps) else e }
    else s.setMedia fun m => { m with refresh := (m.refresh.filter fun e => !here e) ++ [(pri, d, k, ps)] }
  | none => s.setMedia fun m => { m with refresh := m.refresh ++ [(pri, d, k, [plane])] }

/-- A threshold's offset after 256 codewords (R275): one step toward the fewer corrections where the counts differ by more
than 16. -/
def moveOffset (o : Int) (u w : Nat) : Int :=
  if u > w + 16 then max (-64) (o - 1) else if w > u + 16 then min 63 (o + 1) else o

/-- The word lines of a die's defect list (R276): those marked at manufacture, and those listed since. -/
def State.defects (s : State) (d : DieId) : List Nat :=
  (((Config.factoryLines (dieNo d)).take 256).filter fun e => !(s.die d).unmarked.contains (e / 512)) ++ (s.die d).defects

/-- A word line of the plane-block that serves a slot, as the defect list names it (R276). -/
def State.defKey (s : State) (d : DieId) (k plane wl : Nat) : Nat := pbOf plane (s.block d plane k) * 512 + wl

/-- The tracked offsets of a word line (R274, R276): its own where it is listed, its die's for the last programmed word line of an
open block, else its block group's. -/
def State.tracked (s : State) (d : DieId) (k plane wl : Nat) : List Int :=
  let key := s.defKey d k plane wl
  let g := s.group d k
  if (s.defects d).contains key then lookD (s.die d).defOffs (List.replicate 15 0) key
  else (List.range 15).map (lookD (if g.prog = wl + 1 && g.prog < 512 then (s.die d).tail else g.loop).offs 0)

/-- The offsets that a step of the ladder reads at, relative to the tracked ones (R275, Table 9.3): steps 1 to 8 add their retry
set, steps 9 and 10 read around the tracked levels. -/
def State.levels (s : State) (d : DieId) (k plane wl step : Nat) : List Int :=
  (s.tracked d k plane wl).mapIdx fun i o =>
    if 1 ≤ step && step ≤ 8 then max (-64) (min 63 (o + Config.retrySet step i)) else o

/-- A codeword decoded at step 0 feeds a loop (R275); after 256 the counts of the thresholds that move are cleared
(notes/assumptions/96.md). -/
def Loop.feed (l : Loop) (x : Decode) : Loop :=
  let up := x.up.zipIdx.foldl (fun t e => adjD t 0 e.2 (· + e.1)) l.up
  let down := x.down.zipIdx.foldl (fun t e => adjD t 0 e.2 (· + e.1)) l.down
  if l.fed + 1 ≥ 256 then
    let far := fun i => decide (lookD up 0 i > lookD down 0 i + 16 ∨ lookD down 0 i > lookD up 0 i + 16)
    { offs := (List.range 15).foldl (fun t i => adjD t 0 i fun o => moveOffset o (lookD up 0 i) (lookD down 0 i)) l.offs
      up := keep (fun i _ => !far i) up, down := keep (fun i _ => !far i) down, fed := 0 }
  else { l with up := up, down := down, fed := l.fed + 1 }

/-- Read-level tracking of one decode (R274 to R276): a listed word line takes the levels of the step that decoded it and feeds no
loop; a decode at a later step feeds none; the last programmed word line of an open block feeds its die's own loop; any other feeds
its block group's. -/
def State.track (s : State) (d : DieId) (k plane wl : Nat) (x : Decode) : State :=
  let g := s.group d k
  let key := s.defKey d k plane wl
  if (s.defects d).contains key then
    if x.step ≤ 10 then s.setDie d fun y => { y with defOffs := put y.defOffs key (s.levels d k plane wl x.step) } else s
  else if x.step ≠ 0 then s
  else if g.prog = wl + 1 && g.prog < 512 then s.setDie d fun y => { y with tail := y.tail.feed x }
  else s.setGroup d k fun g => { g with loop := g.loop.feed x }

/-- One decode of a plane-block counted (R257, R275, R295): DEC and RTY, the ward's accounts, read-level tracking and a
threshold crossing. A second crossing within 64 cycles is found when the relocation starts. -/
def State.decoded (s : State) (d : DieId) (k plane wl : Nat) (x : Decode) : State :=
  let g := s.group d k
  let dec := lookD g.dec 0 plane + 1
  let rty := lookD g.rty 0 plane + b01 (x.step ≥ 1)
  let s := (s.track d k plane wl x).setGroup d k fun g => { g with
    dec := put g.dec plane dec, rty := putD g.rty 0 plane rty, reads := g.reads + 1 }
  let s := if x.step ≥ 1 then s.wearEv d.ward .retry 1 else s
  let s := if x.step = 9 then s.wearEv d.ward .step9 1 else if x.step = 10 then s.wearEv d.ward .step10 1 else s
  if x.step ≥ 11 then s.markRefresh 0 d k plane
  else if x.step ≥ 9 then s.markRefresh 1 d k plane
  else if rty ≥ 16 && 64 * rty ≥ dec then s.markRefresh 2 d k plane
  else s

/-- The block with the most listed word lines gives way in a full list (R276, R297): one that holds data is retired by a relocation,
any other at once. -/
def State.retireWorst (s : State) (d : DieId) (pb : Nat) : State :=
  let plane := pb / 4096
  let k := s.slotOfBlock d plane (pb % 4096)
  let s := s.setDie d fun x => x.unlist pb
  let serves := decide (k < 3072) && s.block d plane k = pb % 4096
  if serves && (s.group d k).prog > 0 && !(s.group d k).dirty then s.queueRetire d k [plane]
  else
    let s := s.retirePhys d plane (pb % 4096)
    if serves then s.replaceBlock d plane k else s

/-- Adds a word line, as plane * 512 + word line of a block group, to its die's defect list (R276), which holds 256: with the levels
of the step, 9 or 10, that decoded it. -/
def State.listDefect (s : State) (d : DieId) (k l : Nat) : State :=
  let key := s.defKey d k (l / 512) (l % 512)
  let offs := s.levels d k (l / 512) (l % 512) 9
  let add := fun (s : State) => s.setDie d fun x => { x with defects := key :: x.defects, defOffs := put x.defOffs key offs }
  let all := s.defects d
  if all.contains key then s
  else if all.length < 256 then add s
  else
    let n := fun pb => (all.filter fun e => e / 512 = pb).length
    add (s.retireWorst d (all.foldl (fun b e => if n (e / 512) > n b then e / 512 else b) (all.headD 0 / 512)))

/-- A decode counted, with the defect list (R276): of each 64 reads of a block group, the word lines that needed step 9 or higher
while every other decoded at step 0 are listed. -/
def State.feed (s : State) (d : DieId) (k plane wl : Nat) (x : Decode) : State :=
  let s := s.decoded d k plane wl x
  let g := s.group d k
  let l := plane * 512 + wl
  let hot := if x.step ≥ 9 && !g.hot.contains l then l :: g.hot else g.hot
  let warm := if x.step ≥ 1 && !g.warm.contains l then l :: g.warm else g.warm
  if g.window + 1 < 64 then s.setGroup d k fun g => { g with window := g.window + 1, hot := hot, warm := warm }
  else (hot.filter fun l => warm.all (· = l)).foldl (fun s l => s.listDefect d k l)
    (s.setGroup d k fun g => { g with window := 0, hot := [], warm := [] })

/-! ### Programs of a slot -/

/-- Queues the program of one complete program unit (R234); a share left to the rebuild leaves staging and joins the running
parity at once (R302). -/
def State.queueUnit (s : State) (n pu cls tenant : Nat) : State :=
  let (_, m) := s.puMem n pu
  if m.takes (slotIdx n) then
    s.setMedia fun x => { x with work := x.work ++ [⟨cls, m.die, .program, slotIdx n, pu / 32, tenant, .host⟩] }
  else
    let s := { s with staged := s.staged - 64 }.joinParity n (pu / 32) (pu % 32)
    if pu % 32 = 31 && !s.rowBusy n (pu / 32) then s.queueParity n (pu / 32) tenant else s

/-- Queues the program units that complete as a pointer moves from `a` to `b` (R234). -/
def State.queueUnits (s : State) (n a b cls tenant : Nat) : State :=
  (List.range (b / 64 - a / 64)).foldl (fun s i => s.queueUnit n (a / 64 + i) cls tenant) s

/-- Whether a zone's unit is served from staging: its program unit is not on flash yet (R234). -/
def State.inStaging (s : State) (z : Zone) (n o : Nat) : Bool :=
  let (_, m) := s.puMem n (o / 64)
  let here := fun (w : Work) => w.why = .host && w.die = m.die && w.slot = slotIdx n && w.wl = rowOf o
  (o / 64 ≥ z.wp / 64 && z.st ≠ .full) || s.media.work.any here || (match (s.die m.die).op with
    | some x => here x.work
    | none => false)

/-- Removes waiting programs and internal reads of a slot, with the staging they held (R237). -/
def State.dropSlotWork (s : State) (n : Nat) : State :=
  let here := fun (w : Work) => w.slot = slotIdx n && (w.act = .program || w.cls = 5) && (match s.memberOf w.die with
    | some (a, b, _) => a = slotWard n && b = slotRow n
    | none => false)
  let gone := (s.media.work.filter here).foldl (fun k (w : Work) => k + w.units) 0
  { s.setMedia (fun m => { m with work := m.work.filter fun w => !here w }) with staged := s.staged - gone }

/-- Units of a slot's complete program units that wait for their program. -/
def State.waitingUnits (s : State) (n : Nat) : Nat :=
  64 * (s.media.work.filter fun w => w.why = .host && w.slot = slotIdx n && (match s.memberOf w.die with
    | some (a, b, _) => a = slotWard n && b = slotRow n
    | none => false)).length

/-- Units of a held slot that stand in staging: not programmed, and no program of them runs (R343). -/
def State.heldStaged (s : State) (n : Nat) : Nat :=
  count (fun k _ =>
    let o := k % 2 ^ 20
    let m := (s.puMem n (o / 64)).2
    k / 2 ^ 20 = heldZone n && m.takes (slotIdx n) && decide ((s.group m.die (slotIdx n)).prog ≤ rowOf o) && (match (s.die m.die).op with
      | some x => !(x.work.why = .host && x.work.slot = slotIdx n && x.work.wl = rowOf o)
      | none => true)) s.units

/-- Whether a program of a block group runs. -/
def State.groupRuns (s : State) (d : DieId) (k : Nat) : Bool := match (s.die d).op with
  | some o => decide (o.work.act = .program ∧ o.work.slot = k)
  | none => false

/-- Queues the block groups of a slot that are programmed, or being programmed, for erase (R240, R286): after the first checkpoint
that begins from now on. -/
def State.queueErase (s : State) (n : Nat) : State :=
  let old := ((List.range 36).map fun i => (s.mem (slotWard n) (slotRow n) i).die).filter fun d =>
    ((s.group d (slotIdx n)).prog > 0 || s.groupRuns d (slotIdx n)) && !(s.group d (slotIdx n)).dirty
  let s := old.foldl (fun s d => s.setGroup d (slotIdx n) fun g => { g with dirty := true }) s
  (s.clearShares n).setMedia fun m => { m with erasq := m.erasq ++ old.map fun d => (d, slotIdx n, m.begun) }

/-- The dies of a slot's block groups. -/
def State.slotDies (s : State) (n : Nat) : List DieId := (List.range 36).map fun i => (s.mem (slotWard n) (slotRow n) i).die

/-- The relocations of a slot's block groups end, and their copies are orphans (R288, R294); so do their refreshes. -/
def State.endCopies (s : State) (n : Nat) : State :=
  let mine := fun (d : DieId) (j : Nat) => j = slotIdx n && (s.slotDies n).contains d
  s.setMedia fun m => { m with
    oldBlocks := m.oldBlocks ++ (m.moves.filter fun v => mine v.die v.slot).map fun v => (v.die, v.fresh, m.begun)
    moves := m.moves.filter fun v => !mine v.die v.slot
    refresh := m.refresh.filter fun e => !mine e.2.1 e.2.2.1 }

/-- The data of a slot's block groups has gone: their relocations end (R294). A plane-block that was to retire retires now, and every
retired one is replaced (R252, R297). -/
def State.endMoves (s : State) (n : Nat) : State :=
  let k := slotIdx n
  let mine := fun (d : DieId) (j : Nat) => j = k && (s.slotDies n).contains d
  let asked := s.media.retireq.filter fun e => mine e.1 e.2.1
  let s := (s.endCopies n).setMedia fun m => { m with retireq := m.retireq.filter fun e => !mine e.1 e.2.1 }
  let s := asked.foldl (fun s e => e.2.2.foldl (fun s p => s.retireBlock e.1 p k) s) s
  (s.slotDies n).foldl (fun s d => (List.range 4).foldl (fun s p =>
    if s.media.retired.contains (s.phys d p k) && (s.memberOf d).isSome && !(s.die d).failed then s.replaceBlock d p k else s) s) s

/-- Releases a slot (R240): releasing until a checkpoint that begins later completes; its programmed block groups are
queued for erase (R286). A slot with a share lost for good is counted lost (R299). -/
def State.releaseSlot (s : State) (n : Nat) : State :=
  let s := ((s.dropSlotWork n).queueErase n).endMoves n
  let lost := (List.range 36).any fun i =>
    let m := s.mem (slotWard n) (slotRow n) i
    m.lostSlots.contains (slotIdx n) || (m.failed && !s.spareLeft (slotWard n))
  (s.setSlot n (if lost then .lost false else .releasing s.media.begun)).journalRec 0

/-! ### Reclaim of the random area (R286 to R290) -/

/-- Whether a random-area unit at a place is still in staging (R250). -/
def State.randStaged (s : State) (n off : Nat) : Bool :=
  let die := (s.puMem n (off / 64)).2.die
  let here := fun (w : Work) => w.why = .host && w.die = die && w.slot = slotIdx n && w.wl = rowOf off
  let fill := ((look s.media.raSlots n).map (·.fill)).getD 0
  decide (off / 64 ≥ fill / 64) || s.media.work.any here || (match (s.die die).op with
    | some x => here x.work
    | none => false)

/-- The place of a random-area unit that could not be copied: none. -/
def noPlace : Nat := 2 ^ 40

/-- Whether a slot under reclaim holds nothing valid any more: no unit that could be read, none being copied. -/
def State.emptied (s : State) (n : Nat) : Bool :=
  !(s.rand.any fun e => e.2.slot = n && !s.media.lostUnits.contains (lostRand e.1)) && !s.media.copies.any fun c => c.slot = n

/-- Frees the slots under reclaim in a ward that are emptied (R289): their block groups wait for the next checkpoint (R286), the release
is a record (R284), and a slot that was added goes back to the pool (R291). -/
def State.freeVictims (s : State) (w : Nat) : State :=
  ((s.ward w).victims.filter s.emptied).foldl (fun s n =>
    let s := { s with rand := mapV (fun _ (u : RUnit) => if u.slot = n then { u with slot := noPlace, off := 0 } else u) s.rand }
    let s := (((s.dropSlotWork n).queueErase n).endMoves n).journalRec 0
    let back := decide ((s.ward w).shrink = some n)
    let s := s.setMedia fun m => { m with
      raSlots := del m.raSlots n
      poolTaken := if back then m.poolTaken.filter fun p => !(p % 4096 = slotIdx n && (s.slotDies n).contains (dieOf (p / 16384)))
        else m.poolTaken }
    let s := s.setWard w fun x => { x with
      victims := x.victims.erase n, extent := if back then x.extent - 1 else x.extent, shrink := if back then none else x.shrink }
    if back then (s.setSlot n .pool).journalRec 0 else s) s

/-- The copies of a ward whose programs have completed are recorded (R286), each only where the map still points its unit at the place
copied from (R288). -/
def State.copiesDone (s : State) (w : Nat) : State :=
  let there := fun (c : Copy) => slotWard c.toSlot = w && !s.randStaged c.toSlot c.toOff
  let mine := s.media.copies.filter there
  let s := mine.foldl (fun s c => match look s.rand c.key with
    | some u =>
      if u.slot = c.slot && u.off = c.off then
        ({ s with rand := put s.rand c.key { u with slot := c.toSlot, off := c.toOff } }.journalRec 1).setWard w fun x =>
          { x with copied := x.copied + 1 }
      else s
    | none => s) s
  (s.setMedia fun m => { m with copies := m.copies.filter fun c => !mine.contains c }).freeVictims w

/-! ### Rows of the metadata and parking slots (R235, R285) -/

/-- The `i`-th metadata slot of a ward, and the `i`-th parking slot (R601). -/
def metaSlot (w i : Nat) : Nat := slotNo w (i % 26) (3070 - i / 26)
def parkSlot (w i : Nat) : Nat := slotNo w ((64 + i) % 26) (3070 - (64 + i) / 26)

/-- A number in `n` bytes, or `n` bytes of ones where there is none. -/
def optLe (x : Option Nat) (n : Nat) : Bytes := match x with
  | some v => toLe v n
  | none => List.replicate n 0xFF

/-- A slot's use as the maps write it: its kind, the zone or checkpoint it goes with. -/
def SlotUse.code : SlotUse → Nat × Nat × Nat
  | .free => (0, 0, 0)
  | .bound z => (1, z, 0)
  | .releasing b => (2, 0, b)
  | .held z b => (3, z, b)
  | .lost p => (4, b01 p, 0)
  | .random => (5, 0, 0)
  | .meta_ => (6, 0, 0)
  | .parking => (7, 0, 0)
  | .cellar => (8, 0, 0)
  | .pool => (9, 0, 0)

/-- The bytes of a map-journal record (notes/assumptions/91.md): its map, the entry's key, and the entry's fields. -/
def JRec.bytes : JRec → Bytes
  | .slot n x => [0] ++ toLe n 8 ++ (match x with
    | some u => [1] ++ toLe u.code.1 1 ++ toLe u.code.2.1 8 ++ toLe u.code.2.2 8
    | none => [0])
  | .zone n x => [1] ++ toLe n 8 ++ (match x with
    | some z => [1] ++ toLe z.st.num 1 ++ toLe z.wp 4 ++ toLe z.lclass 1 ++ toLe z.sgroup 1 ++ optLe z.slot 8 ++ optLe z.finishAt 4 ++
        (match z.park with
         | .none => [0] ++ toLe 0 4
         | .staging => [1] ++ toLe 0 4
         | .parked p => [2] ++ toLe p 4)
    | none => [0])
  | .rand n x => [2] ++ toLe n 8 ++ (match x with
    | some u => [1] ++ toLe u.slot 8 ++ toLe u.off 4 ++ u.unit.head
    | none => [0])
  | .raSlot n x => [3] ++ toLe n 8 ++ (match x with
    | some r => [1] ++ optLe r.stream 1 ++ toLe r.fill 4 ++ toLe r.closedAt 8
    | none => [0])
  | .stream n x => [4] ++ toLe n 8 ++ (match x with
    | some e => [1] ++ toLe e.1 8 ++ toLe e.2 4
    | none => [0])
  | .block n x => [5] ++ toLe n 8 ++ (match x with
    | some b => [1] ++ toLe b 2
    | none => [0])
  | .member n x => [6] ++ toLe n 8 ++ (match x with
    | some m => [1] ++ toLe (dieNo m.die) 4 ++ [if m.failed then 1 else if m.rebuilding then 2 else 0] ++
        toLe m.passed.length 2 ++ m.passed.flatMap fun k => toLe k 2
    | none => [0])

/-- Bytes cut into module units of 4,096 bytes (KIND 0x4, Table 9.2). -/
def moduleUnits (b : Bytes) (seq : Nat) : List StUnit :=
  (List.range (max 1 ((b.length + 4095) / 4096))).map fun i => ⟨0, 0, 0, .module_, 0, false, 0, i, seq, slice b (4096 * i) 4096⟩

/-- Units are written from the start of a stripe row of a slot, and join its parity (R235, R265, R285). -/
def State.writeRow (s : State) (n r : Nat) (us : List StUnit) : State :=
  let s := s.setMedia fun m => { m with
    cells := us.zipIdx.foldl (fun t e => put t (unitNo n (r * 2048 + e.2)) e.1) m.cells }
  (List.range ((us.length + 63) / 64)).foldl (fun s d => s.joinParity n r d) s

/-- Programs of the first `k` data shares of row `r` of a slot and of its parity shares. -/
def State.rowPrograms (s : State) (n r k cls : Nat) (why : Purpose) : List Work :=
  (((List.range k).map (shareMember r)) ++ (List.range 4).map fun j => (firstParity r + j) % 36).filterMap fun i =>
    let m := s.mem (slotWard n) (slotRow n) i
    if m.takes (slotIdx n) then some ⟨cls, m.die, .program, slotIdx n, r, 0, why⟩ else none

/-- Whether work of a purpose waits or runs. -/
def State.working (s : State) (why : Purpose) : Bool :=
  (s.media.work.any fun w => w.why = why) || s.media.dies.any fun e => match e.2.op with
    | some o => decide (o.work.why = why)
    | none => false

/-! ### The dump (R313, R315, R316) -/

/-- Programs running or suspended in the module. -/
def State.programsRunning (s : State) : Nat :=
  count (fun _ (d : Die) => match d.op with
    | some o => decide (o.work.act = .program)
    | none => false) s.media.dies

/-- Bytes of the largest dump for a state with `extra` more partial units and rows (R313, Table 11.2). -/
def State.dumpBytes (s : State) (units rows : Nat) : Nat :=
  (s.partialUnits + units) * 4096 + (s.partialZones + count (fun _ (e : Nat × Nat) => e.2 % 2048 ≠ 0) s.liveStreams + rows) * 262144 + s.media.journal + 8388608

/-- Dump stripes for a size: 35 word lines of 64 KiB each (R323). -/
def dumpStripes (bytes : Nat) : Nat := (bytes + 35 * 65536 - 1) / (35 * 65536)

/-- Whether the cellar block of a member is ready (R322): its die is able, it is not in preparation, and 10 word lines are free. -/
def State.cellarSound (s : State) (m : Mem) : Bool :=
  let d := s.die m.die
  let c := (s.chan (dieChan m.die)).st
  !m.failed && !d.failed && c ≠ .retraining && c ≠ .failed && !d.cellarPrep && 10 ≤ d.cellarFree && (match d.op with
    | some o => !o.unable s.nowNs
    | none => true)

/-- Members of a ward, by row and index, whose cellar block may not be ready: all others are as delivered. -/
def State.cellarDoubts (s : State) (w : Nat) : List (Nat × Nat) :=
  let ofDie := fun (d : DieId) => match s.memberOf d with
    | some (a, row, i) => if a = w then [(row, i)] else []
    | none => []
  let onDies : List (Nat × Nat) := s.media.dies.flatMap fun e => ofDie (dieOf e.1)
  let moved : List (Nat × Nat) := s.media.members.filterMap fun e =>
    if e.1 / 36 / 26 = w then some (e.1 / 36 % 26, e.1 % 36) else none
  let out := s.media.chans.filter fun e => e.1 / 37 = w && (e.2.st = .retraining || e.2.st = .failed)
  (onDies ++ moved ++ out.flatMap fun e => (List.range 28).flatMap fun p => ofDie ⟨w, e.1 % 37, p⟩).eraseDups

/-- The smallest number of ready cellar blocks of a ward on any of its 36 members' channels (R323). -/
def State.cellarRows (s : State) (w : Nat) : Nat :=
  let bad := (s.cellarDoubts w).filter fun e => !s.cellarSound (s.mem w e.1 e.2)
  26 - bad.foldl (fun n e => max n (bad.filter fun x => x.2 = e.2).length) 0

/-- Cellar capacity of the module, in stripes (R323). -/
def State.cellarCap (s : State) : Nat := 10 * (List.range 4).foldl (fun n w => n + s.cellarRows w) 0

/-- Program slots the home programs of waiting units take (R321): 1,676 at most in each, and parity after the data of its row. -/
def State.homeSlots (s : State) : Nat :=
  let ws := s.media.work.filter fun w => w.units > 0
  let full := ws.any fun w => w.why = .host && (match s.memberOf w.die with
    | some (a, b, _) => s.rowFull (slotNo a b w.slot) w.wl
    | none => false)
  max ((ws.length + 1675) / 1676) (b01 (!ws.isEmpty) + b01 full)

/-- Program slots the sequence would need (R316, R321): running programs, waiting units, rounds of 104 stripes. -/
def State.slotsNeeded (s : State) (units rows : Nat) (prog : Bool) : Nat :=
  b01 (prog || s.programsRunning > 0) + s.homeSlots +
    (dumpStripes (s.dumpBytes units rows) * 10 + max 1 s.cellarCap - 1) / max 1 s.cellarCap

/-- Energy the bank must hold for n program slots, in 0.1 J: 0.74 J/ms × (1.0 + 3.52 n) ms (R316). -/
def energyFor (n : Nat) : Nat := (74 * (100 + 352 * n) + 999) / 1000

/-- The usable energy the inhibit goes by (R311): during a measurement the lower of the previous and the new figure. -/
def State.usableNow (s : State) : Nat := if s.pwr.measuring then min s.pwr.prevUsable s.pwr.usable else s.pwr.usable

/-- The module-wide inhibit conditions of Table 11.3 with so much more staged: bits 0 to 2. -/
def State.inhibit (s : State) (units rows : Nat) (prog : Bool) : Nat :=
  let n := s.slotsNeeded units rows prog
  b01 (s.usableNow < energyFor n) +
    2 * b01 (n > 12 || dumpStripes (s.dumpBytes units rows) > s.cellarCap) +
    4 * b01 (s.bell.inputMv < 10800 || s.bell.inputMv > 13200)

end Sys2Proof.Machine
end

