-- ==== Sys2Proof/Machine/CmdOps.lean ====
section
/-! DEFINITION. Shared operations on commands in flight: output to the host, completion of reads and of changes that
wait for a boundary (R105), commits (R156). -/

namespace Sys2Proof.Machine

/-- Writes output bytes into the command's buffer, from byte `k` of it on, by RDMA WRITE (R142, R193). -/
def State.sendOut (s : State) (r : Ref) (k : Nat) (b : Bytes) : State :=
  match s.cmd r with
  | some c => if b.isEmpty then s else s.issue ⟨r.fn, s.cmdPort r.fn c.port, false, .outData { c with data := [], point := .decided } r k b⟩
  | none => s

/-- Ends a READ or RANDOM READ whose units are all served (R181, R198): the data before the first unrecoverable unit
goes to the buffer. -/
def State.finishRead (s : State) (r : Ref) : State :=
  match s.cmd r with
  | some c =>
    let n := c.bad.getD c.cnt
    let s := (s.atPoint r .decided).sendOut r 0 (c.data.take (n * 4096))
    s.complete r { status := if c.bad.isSome then DATA_UNRECOVERABLE else SUCCESS, result := BitVec.ofNat 64 n }
  | none => s

/-- The key of a holding, by the number of its drawing (R551). -/
def State.holdKey (s : State) (h : Nat) : Nat := ((look s.holds h).map (·.key)).getD 0

/-- The tweak of unit `i` of a READ or RANDOM READ (R26). -/
def Cmd.tweak (c : Cmd) (i : Nat) : Nat :=
  if c.opcode = 0x10 then 2 ^ 63 + c.zone + i else c.zone * 2 ^ 20 + c.offset + i

/-- One unit of a read command is served, its ciphertext deciphered as it leaves (R26), or is unrecoverable (R181). -/
def State.unitServed (s : State) (r : Ref) (i : Nat) (b : Option Bytes) : State :=
  let s := s.setCmd r fun c => { c with
    slices := c.slices - 1
    bad := if b.isNone then some (min i (c.bad.getD i)) else c.bad
    data := match b with
      | some x => patch c.data (4096 * i) (xtsOpen (s.holdKey c.f12) (c.tweak i) x)
      | none => c.data }
  match s.cmd r with
  | some c => if c.point = .running && c.slices = 0 then s.finishRead r else s
  | none => s

/-- Posts the completions that waited for the boundary (R105). -/
def State.postDue (s : State) : State :=
  s.due.foldl (fun s d => s.complete d.r { status := d.status, result := d.result, ledger := d.ledger })
    { s with due := [] }

/-- A bank selector record (R496). -/
def State.select (s : State) (bankB : Bool) : State :=
  { s with loft := { s.loft with next := bankB } }.loftRecord 504 recSelect (record 16 [(0, 1, b01 bankB), (4, 4, s.loft.imgA.version), (8, 4, s.loft.imgB.version)])

/-- Starts a command: its start point, ledger-seen value and bell (R153, R161). -/
def State.begin_ (s : State) (r : Ref) (p : Point) : State :=
  s.setCmd r fun c => { c with point := p, seen := s.ledger, startBell := s.bell.now, startStill := s.bell.still }

end Sys2Proof.Machine
end

