-- ==== Sys2Proof/Machine/SieveOps.lean ====
section
/-! DEFINITION. Operations on the sieve: ownership (R214, R441, R442), matching and ranking (R439, R444), verified
lookups (R455), repairs and retirement of rows (R453, R456, R457), cursors (R449). -/

namespace Sys2Proof.Machine

/-- Mask length of a row (R439). -/
def Row.len (r : Row) : Nat := ones 320 r.mask

/-- Whether a row matches a key (R439). -/
def Row.hits (r : Row) (k : BitVec 320) : Bool := r.valid && (k &&& r.mask) = r.key

/-- The key of 40 bytes (R437). -/
def keyOf (b : Bytes) : BitVec 320 := BitVec.ofNat 320 (le b 0 40)

/-- The physical row of a function's ROW, if it owns it (R214, R441, R442). -/
def State.physRow (s : State) (f r : Nat) : Option Nat :=
  if s.sieve.active then
    if s.sieve.owner = f && f ≠ 0 && r < 65536 then some r else none
  else if r ≥ 65536 then none
  else match s.sieve.segs.find? fun e => e.2 = f * 64 + r / 1024 with
    | some (seg, _) => some (seg * 1024 + r % 1024)
    | none => none

/-- Whether a function owns rows (R214). -/
def State.ownsRows (s : State) (f : Nat) : Bool :=
  if s.sieve.active then s.sieve.owner = f && f ≠ 0 else s.sieve.segs.any fun e => e.2 / 64 = f

/-- A function's ROW of a physical row, if it owns it. -/
def State.rowNo (s : State) (f p : Nat) : Option Nat :=
  if s.sieve.active then if s.sieve.owner = f && f ≠ 0 then some p else none
  else match look s.sieve.segs (p / 1024) with
    | some v => if v / 64 = f then some (v % 64 * 1024 + p % 1024) else none
    | none => none

/-- The owner of a physical row, 0 for none. -/
def State.rowOwner (s : State) (p : Nat) : Nat :=
  if s.sieve.active then s.sieve.owner else ((look s.sieve.segs (p / 1024)).getD 0) / 64

/-- Whether ROW `a` of mask length `m` ranks before ROW `b` of mask length `n` (R444). -/
def ranksBefore (whole : Bool) (m a n b : Nat) : Bool := if whole then a < b else m > n || (m = n && a < b)

/-- The rows of a function that match a key in an array, in rank order: ROW, physical row, image (R443, R444). -/
def State.hits (s : State) (arr : Tab Row) (f : Nat) (k : BitVec 320) : List (Nat × Nat × Row) :=
  let ms := arr.filterMap fun e =>
    if e.2.hits k then (s.rowNo f e.1).map fun r => (r, e.1, e.2) else none
  ms.foldl (fun acc x =>
    acc.takeWhile (fun y => ranksBefore s.sieve.active y.2.2.len y.1 x.2.2.len x.1) ++ x ::
      acc.dropWhile (fun y => ranksBefore s.sieve.active y.2.2.len y.1 x.2.2.len x.1)) []

/-- A lookup answer before its cursor (Table 7.9). -/
structure Answer where
  result : W64
  row : Nat
  count : Nat
  multi : Bool
  verified : Bool
  repaired : Bool
  deriving DecidableEq, Repr

/-- The answer of a ranked list of matches (R445). -/
def answerOf (ms : List (Nat × Nat × Row)) (v r : Bool) : Option Answer :=
  match ms with
  | [] => none
  | x :: _ => some ⟨x.2.2.result, x.1, min 255 ms.length, decide (ms.length > 1), v, r⟩

/-- A row is retired (R456) onto a spare at the next boundary, or becomes weak (R457). -/
def State.retireRow (s : State) (p : Nat) : State :=
  let v := s.sieve
  if v.retiring.contains p || v.weak.contains p then s
  else if v.sparesLeft > 0 then
    let s := { s with sieve := { v with sparesLeft := v.sparesLeft - 1, retiring := p :: v.retiring, hist := del v.hist p } }
    (s.loftRecord 312 recSieve (record 64 [(0, 8, s.bell.now), (20, 4, s.bell.boot), (32, 2, p)])).event 0x0042 1 (s.rowOwner p)
      [(32, 2, p), (34, 2, v.sparesLeft - 1)]
  else
    let s' := { s with sieve := { v with weak := p :: v.weak } }
    if v.weak.isEmpty then s'.event 0x0043 1 (s.rowOwner p) [(32, 2, p)] else s'

/-- A repair of a row from its shadow (R453): logged, counted, and the third within 2^20 bells retires the row. -/
def State.repairRow (s : State) (p : Nat) : State :=
  let recent := ((lookD s.sieve.hist [] p).filter fun b => s.bell.now < b + 2 ^ 20) ++ [s.bell.now]
  let s := { s with sieve := { s.sieve with
    arr := putD s.sieve.arr Row.none p (lookD s.sieve.shadow Row.none p)
    repairs := satAdd 32 s.sieve.repairs 1
    hist := put s.sieve.hist p recent } }
  let s := s.event 0x0041 0 (s.rowOwner p) [(32, 2, p)]
  if recent.length ≥ 3 then s.retireRow p else s

/-- Whether an array row differs from its shadow. -/
def State.rowBad (s : State) (p : Nat) : Bool :=
  lookD s.sieve.arr Row.none p ≠ lookD s.sieve.shadow Row.none p

/-- Matches that rank after a cursor's position (R450). -/
def afterPos (whole : Bool) (pos : Option (Nat × Nat)) (ms : List (Nat × Nat × Row)) : List (Nat × Nat × Row) :=
  match pos with
  | none => ms
  | some (m, a) => ms.filter fun x => ranksBefore whole m a x.2.2.len x.1

/-- A lookup of a function, plain or verified, from a position on (R445, R450, R455). A winner that retires or is weak
is always verified (R456, R457). -/
def State.lookup (s : State) (f : Nat) (k : BitVec 320) (verify : Bool) (pos : Option (Nat × Nat)) :
    State × List (Nat × Nat × Row) × Option Answer :=
  let ms := fun (s : State) (a : Tab Row) => afterPos s.sieve.active pos (s.hits a f k)
  let m1 := ms s s.sieve.arr
  match m1 with
  | [] => (s, [], none)
  | x :: _ =>
    if !(verify || s.sieve.weak.contains x.2.1 || s.sieve.retiring.contains x.2.1) then
      (s, m1, answerOf m1 false false)
    else if !s.rowBad x.2.1 then (s, m1, answerOf m1 true false)
    else
      let s := s.repairRow x.2.1
      let m2 := ms s s.sieve.arr
      match m2 with
      | y :: _ =>
        if !s.rowBad y.2.1 then (s, m2, answerOf m2 true true)
        else
          let s := s.repairRow y.2.1
          let m3 := ms s s.sieve.shadow
          (s, m3, answerOf m3 true true)
      | [] =>
        let m3 := ms s s.sieve.shadow
        (s, m3, answerOf m3 true true)

/-- The 16 bytes of an answer (Table 7.9); all zero for no match. -/
def answerBytes (a : Option Answer) (cursor : Nat) : Bytes :=
  match a with
  | none => record 16 []
  | some a => record 16 [(0, 8, a.result.toNat), (8, 2, a.row), (10, 1, a.count),
      (11, 1, b01 a.multi + 2 * b01 a.verified + 4 * b01 a.repaired), (12, 4, cursor)]

/-- A row image is acceptable to a function (R215, R438). -/
def State.imageOk (s : State) (f : Nat) (b : Bytes) (k : Nat) : Bool :=
  let r := rowAt b k
  let part := if s.sieve.active then some 0 else (s.fn f).part
  bits (le b (k + 88) 2) 14 6 = 0 && zeros b (k + 90) 6 && some r.part = part &&
    (if r.valid then (r.key &&& ~~~r.mask) = 0 else r.key = 0 && r.mask = 0 && r.result = 0)

/-- Writes a row image into array and shadow (R446, R447). -/
def State.putRow (s : State) (p : Nat) (r : Row) : State :=
  let r := if r.valid then r else Row.none
  { s with sieve := { s.sieve with arr := putD s.sieve.arr Row.none p r, shadow := putD s.sieve.shadow Row.none p r } }

/-- Deletes the rows of a physical segment. -/
def State.clearSeg (s : State) (seg : Nat) : State :=
  { s with sieve := { s.sieve with
    arr := keep (fun p _ => p / 1024 ≠ seg) s.sieve.arr, shadow := keep (fun p _ => p / 1024 ≠ seg) s.sieve.shadow } }

/-- Segments granted to a function. -/
def State.grantOf (s : State) (f : Nat) : Nat := count (fun _ v => v / 64 = f) s.sieve.segs

/-- The lowest number of a range that a list does not hold. -/
def lowestFree (n : Nat) (used : List Nat) : Option Nat := (List.range n).find? fun k => !used.contains k

/-- Appends one segment to a partition: the lowest-numbered that no partition holds, rows VALID 0 (R441). -/
def State.addSeg (s : State) (f : Nat) : State :=
  match lowestFree 64 (s.sieve.segs.map (·.1)) with
  | some seg => ({ s with sieve := { s.sieve with segs := put s.sieve.segs seg (f * 64 + s.grantOf f) } }).clearSeg seg
  | none => s

/-- Withdraws the segment of highest rank, its rows deleted. -/
def State.dropSeg (s : State) (f : Nat) : State :=
  match s.sieve.segs.find? fun e => e.2 = f * 64 + (s.grantOf f - 1) with
  | some (seg, _) => ({ s with sieve := { s.sieve with segs := del s.sieve.segs seg } }).clearSeg seg
  | none => s

/-- Sets a function's sieve grant (R441): partition number, growth, shrinking, release. -/
def State.setGrant (s : State) (f g : Nat) : State :=
  let have_ := s.grantOf f
  let s := if have_ = 0 && g > 0 then
      let used := s.fns.filterMap fun e => e.2.part
      s.setFn f fun x => { x with part := lowestFree 64 used }
    else s
  let s := (List.range (g - have_)).foldl (fun s _ => s.addSeg f) s
  let s := (List.range (have_ - g)).foldl (fun s _ => s.dropSeg f) s
  if g = 0 then s.setFn f fun x => { x with part := none } else s

/-- Whether a valid row lies in the ranks a shrink would withdraw (Table 4.3). -/
def State.shrinkHits (s : State) (f g : Nat) : Bool :=
  s.sieve.shadow.any fun e => match look s.sieve.segs (e.1 / 1024) with
    | some v => v / 64 = f && v % 64 ≥ g
    | none => false

/-! ### Cursors -/

/-- The slot of a cursor value (Table 16.2). -/
def Cursor.slot (c : Cursor) : Nat := c.value / 2 ^ 26

/-- Takes a cursor slot for a lookup (R449): the lowest free one, else the one used least recently. The list of cursors
runs from the least recently used. Answers the cursor value. -/
def Fn.takeCursor (g : Fn) (key : Bytes) (verify : Bool) (len row : Nat) : Nat × Fn :=
  let p : Nat × List Cursor := match lowestFree 64 (g.cursors.map Cursor.slot) with
    | some k => (k, g.cursors)
    | none => ((g.cursors.head?.map Cursor.slot).getD 0, g.cursors.drop 1)
  let value := p.1 * 2 ^ 26 + g.serial
  (value, { g with
    serial := if g.serial = 2 ^ 26 - 1 then 1 else g.serial + 1
    cursors := p.2 ++ [⟨value, verify, key, len, row⟩] })

end Sys2Proof.Machine
end

