-- ==== Sys2Proof/Machine/Trace.lean ====
section
/-! DEFINITION. Shared operations of the dispatcher: work items (R418), logical cores and hamlets, the decision trace
(R434 to R436). -/

namespace Sys2Proof.Machine

/-- KIND, PRIO, STAY, FLOW and FUNC of a work item (Table 15.1). -/
def Item.kind (i : Item) : Nat := bits i.w0.toNat 3 0
def Item.prio (i : Item) : Nat := bits i.w0.toNat 6 4
def Item.stay (i : Item) : Bool := bit i.w0.toNat 7
def Item.flow (i : Item) : Nat := bits i.w0.toNat 31 8
def Item.func (i : Item) : Nat := bits i.w0.toNat 43 32

/-- A logical core at delivery: its own physical core, idle (R432). -/
def Core.fresh (n : Nat) : Core := ⟨some (n % 16), none, none, [], none, []⟩

def State.core (s : State) (n : Nat) : Core := (look s.cores n).getD (Core.fresh n)

def State.setCore (s : State) (n : Nat) (f : Core → Core) : State :=
  { s with cores := putD s.cores (Core.fresh n) n (f (s.core n)) }

def State.hamlet (s : State) (h : Nat) : Hamlet := lookD s.hamlets Hamlet.fresh h

def State.setHamlet (s : State) (h : Nat) (f : Hamlet → Hamlet) : State :=
  { s with hamlets := adjD s.hamlets Hamlet.fresh h f }

/-- A hamlet's spares that are neither in use nor retired (R432). -/
def State.freeSpares (s : State) (h : Nat) : List Nat :=
  [16, 17].filter fun p => !(s.hamlet h).gone.contains p &&
    !(List.range 16).any fun l => (s.core (h * 16 + l)).phys = some p

/-- The first of them. -/
def State.nextSpare (s : State) (h : Nat) : Option Nat := (s.freeSpares h).head?

/-- Fields of TRC_DISP_CTRL (Table 15.4). -/
def Disp.en (d : Disp) : Bool := bit d.ctrl.toNat 0
def Disp.sizeLog (d : Disp) : Nat := bits d.ctrl.toNat 12 8
def Disp.mask (d : Disp) (e : Nat) : Bool := 1 ≤ e && e ≤ 10 && bit d.ctrl.toNat (16 + e)
def Disp.filter (d : Disp) : Bool := bit d.ctrl.toNat 44
def Disp.func (d : Disp) : Nat := bits d.ctrl.toNat 43 32

/-- Whether an event of a function is recorded (R434, Table 15.4): SUBSTITUTE and LOST always pass the filter. -/
def Disp.keeps (d : Disp) (e f : Nat) : Bool := d.en && d.mask e && (!d.filter || e ≥ 9 || d.func = f)

/-- A trace record (Table 15.2). -/
def traceRec (bell e h c prio kind f flow aux : Nat) : Bytes :=
  toLe bell 8 ++ toLe (e + h * 2 ^ 4 + c * 2 ^ 9 + prio * 2 ^ 13 + kind * 2 ^ 16 + f * 2 ^ 20 + flow % 2 ^ 24 * 2 ^ 32 +
    aux % 256 * 2 ^ 56) 8

/-- Writes a record at the next index of the ring; past 4,096 in a bell it is dropped (R436). -/
def State.putTrace (s : State) (b : Bytes) : State :=
  let d := s.disp
  if d.inBell ≥ 4096 then { s with disp := { d with dropped := d.dropped + 1 } }
  else { s with disp := { d with recs := put d.recs (d.cnt % 2 ^ d.sizeLog) b, cnt := d.cnt + 1, inBell := d.inBell + 1 } }

/-- Traces a decision about an item, or about none (R434); `flow` stands in FLOW where no item gives one. -/
def State.trace (s : State) (e h c : Nat) (i : Option Item) (flow aux : Nat) : State :=
  let f := (i.map Item.func).getD 0
  if s.disp.keeps e f then
    s.putTrace (traceRec s.bell.now e h c ((i.map Item.prio).getD 0) ((i.map Item.kind).getD 0) f
      ((i.map Item.flow).getD flow) aux)
  else s

/-- Traces quanta assigned to a function (Table 15.3). -/
def State.traceGrant (s : State) (f n : Nat) : State :=
  if s.disp.keeps 8 f then s.putTrace (traceRec s.bell.now 8 0 0 0 0 f n 0) else s

/-- The LOST record of the bell after a drop (R436). -/
def State.traceLost (s : State) : State :=
  let n := s.disp.dropped
  if n = 0 then s
  else { s with disp := { s.disp with dropped := 0 } }.trace 10 0 0 none (min n (2 ^ 24 - 1)) 0

end Sys2Proof.Machine
end

