-- ==== Sys2Proof/Machine/Bell.lean ====
section
/-! DEFINITION. The bell (chapter 2): the boundary, the plan of the next bell, read points, suspends, overruns. -/

namespace Sys2Proof.Machine

/-! ### The boundary -/

/-- Counts an overrun (R57): 32 bits, saturating. -/
def State.overrun (s : State) (n k : Nat) : State :=
  { s with bell := { s.bell with ovr := adjD s.bell.ovr 0 n (satAdd 32 · k) } }

/-- The general pool in mW (Table 2.3): 120 W, halved while the inlet is above 45 °C (R600), less the shortfall of 600 W at
52 A and the input voltage (R591). -/
def State.generalPool (s : State) (mv : Nat) : Nat :=
  (if s.health.hot.contains 1 then 60000 else 120000) - (600000 - 52 * mv)

/-- Charge of an operation, mW (Table 2.4). -/
def actCharge : OpAct → Nat
  | .read => 40
  | .program => 100
  | .erase => 60

/-- Charge of an operation that runs (R48). -/
def DieOp.charge (o : DieOp) : Nat := if o.suspended then 15 else actCharge o.work.act

/-- Charges of the programs and erases on the dies once every suspended one has resumed, mW (R48): what a plan leaves them. -/
def State.fullCharge (s : State) : Nat := s.media.dies.foldl (fun n e => n + ((e.2.op.map fun o => actCharge o.work.act).getD 0)) 0

/-- What a suspended operation is charged more once it resumes in this bell: nothing where it also ran in the bell (R48). -/
def DieOp.resumeCost (o : DieOp) (ns : Nat) : Nat := if o.suspended && o.suspAt < ns then actCharge o.work.act - 15 else 0

/-- The pool kept for the resumes of this bell, mW. -/
def State.resumeDebt (s : State) : Nat := s.media.dies.foldl (fun n e => n + ((e.2.op.map fun o => o.resumeCost s.nowNs).getD 0)) 0

/-- Charges of the programs and erases on the dies, mW (R48). -/
def State.runCharge (s : State) : Nat := s.media.dies.foldl (fun n e => n + ((e.2.op.map DieOp.charge).getD 0)) 0

/-- Array reads that are sensing, by ward and by whether they are of class 1 (R47, R48). -/
def State.sensing (s : State) (w : Nat) (first : Bool) : Nat :=
  (s.media.slices.filter fun x => x.phase = .sensing && x.die.ward = w && decide (x.cls = 1) = first).length

/-- Charges of array reads that the general pool carries: internal reads and scan slices (R47, R282), and those of class 1 that
their ward's read reserve does not (R49). -/
def State.readCharge (s : State) : Nat :=
  (List.range 4).foldl (fun n w => n + 40 * s.sensing w false + (40 * s.sensing w true - 15000)) 0

/-- The bell number rises by one (R37); the pool and the reserves of the new bell open (R49): reads, programs and erases that run
on keep their charge (R48). What was measured at the boundary is latched (R311, R591). -/
def State.openBell (s : State) (e : BellEnv) : State :=
  let b := s.bell
  { s with
    bell := { b with
      now := b.now + 1, closed := false, eventRaised := false, polls := 0, batch := b.batchNext, batchNext := [], drained := [], inputMv := e.inputMv, flashPower := e.flashPower,
      fallback := b.fallbackNext, fallbackNext := [], poolStop := decide (e.flashPower > 3300),
      still := if (s.portA.state = .up || s.portB.state = .up) && s.act.isNone then b.still else b.still + 1
      poolLeft := s.generalPool e.inputMv - b.grants.foldl (fun n g => n + g.2) 0 - s.runCharge - s.readCharge,
      reserved := (List.range 4).foldl (fun t w => putD t 0 w (min 15000 (40 * s.sensing w true))) [] }
    dram := { s.dram with wq := e.wq.map fun x => (x.1, min 64 x.2) }
    pwr := { s.pwr with usable := e.energy } }

/-- BELL_STAMP at every bell that is a multiple of 65,536; the last eight pairs are kept (R41). -/
def State.stamp (s : State) : State :=
  if s.bell.now % 65536 = 0 then
    let p : Stamp := if s.clk.st = 0 then ⟨s.bell.now, 0, 0⟩ else ⟨s.bell.now, s.calSecs, s.calSub⟩
    { s with bell := { s.bell with stamps := (p :: s.bell.stamps).take 8 } }
  else s

/-- The bell generator comes to bell `b` of the boot, if it is not past it (R37), with every stamp on the way (R41). -/
def State.comeTo (s : State) (b : Nat) : State :=
  if b ≤ s.bell.now then s
  else
    let a := s.bell.now / 65536
    let s := (List.range (b / 65536 - a)).foldl
      (fun s i => ({ s with bell := { s.bell with now := (a + 1 + i) * 65536 } }).stamp) s
    { s with bell := { s.bell with now := b } }

/-- Metered flash power above 330 W in the bell that closed (R38, R57 row 4) and usable energy below 40 J (R311); while a
bank charges from power good (R310) it has not fallen below it. -/
def State.meter (s : State) (e : BellEnv) : State :=
  let s := if e.flashPower > 3300 then
      ({ s.overrun 4 1 with bell := { (s.overrun 4 1).bell with lastOver := some (s.bell.now - 1) } }).eventAt (s.bell.now - 1)
        0x0052 3 0 [(32, 2, e.flashPower)]
    else s
  if s.pwr.usable < 400 && !s.health.lowRaised && !(s.boot.cold && s.nowNs < 10000000000) then
    ({ s with health := { s.health with lowRaised := true } }).event 0x0050 1 0 [(32, 2, s.pwr.usable)]
  else s

/-- The conditions of Table 11.3 in force, as PWR_INHIBIT gives them. -/
def State.inhibits (s : State) : Nat := s.inhibit 0 0 true + 8 * b01 (!s.pwr.coldDies.isEmpty || s.health.hot.contains 3)

/-- PROGRAM_INHIBIT (R316): each condition that has lasted more than 1 s raises it once. -/
def State.watchInhibit (s : State) : State :=
  let c := s.inhibits
  let on := (List.range 4).filter fun k => c.testBit k
  let since := on.map fun k => (k, lookD s.health.inhSince s.nowNs k)
  let long := (since.filter fun e => s.nowNs > e.2 + 1000000000).map (·.1)
  let fresh := long.any fun k => !s.health.inhRaised.contains k
  let s := { s with health := { s.health with inhSince := since, inhRaised := long } }
  if fresh then s.event 0x0051 1 0 [(32, 1, c)] else s

/-- Codeword transfers of a read window (R45). -/
def readWindow (code : Nat) : Nat := if code = 0 then 3 else 6

/-- Codeword transfers of 1.3 µs that a channel makes in a bell, and those of them in read windows: two windows at the 32 µs period
(R44, R45, notes/assumptions/61.md). -/
def bellCw (code : Nat) : Nat := periodUs code * 10 / 13
def windowCw (code : Nat) : Nat := if code = 2 then 2 * readWindow code else readWindow code

/-- Codeword transfers of a channel between two read points, and those of them outside the read window (R44, R45). -/
def pointCw (code : Nat) : Nat := if code = 2 then bellCw code / 2 else bellCw code
def outCw (code : Nat) : Nat := pointCw code - readWindow code

/-- Whether a die's temperature inhibits its programs (R316, R600): outside 0 °C to 85 °C, or every die after a start below
0 °C, until the row clears. -/
def State.dieCold (s : State) (d : DieId) : Bool := s.pwr.coldDies.contains (dieNo d) || s.health.hot.contains 3

/-- Codeword transfers a work item asks of its channel (R45, R260). -/
def State.cwOf (s : State) (w : Work) : Nat := if w.act = .read then (s.sliceOf w).wants.length else if w.act = .program then 64 else 0

/-- Starts one piece of admitted work (R42, R48): a program or erase occupies its die; a read senses. The 64 codewords of a program and
those of an internal read wait for their channel. A channel on a fallback plan starts none (R57), and no program starts while the
inhibit holds (R316). -/
def State.startWork (s : State) (w : Work) : State :=
  if s.bell.fallback.contains (dieChan w.die) || (s.die w.die).op.isSome || (s.die w.die).failed ||
      !s.media.work.contains w || (w.act = .program && (s.inhibit 0 0 true ≠ 0 || s.dieCold w.die)) then s
  else
    let x := s.sliceOf w
    let s := s.setMedia fun m => { m with work := m.work.erase w }
    let s := if w.cls = 7 then s else s.setChan (dieChan w.die) fun c => { c with busy := c.busy + s.cwOf w }
    if w.act = .read then s.setMedia fun m => { m with slices := m.slices ++ [{ x with phase := .sensing }] }
    else s.setDie w.die fun d => { d with op := some ⟨w, s.nowNs + actLen w.act, 0, false, 0, false, 0⟩ }

/-- A channel at a boundary: the transfers of programs go on outside the read windows (R45). -/
def Chan.atBoundary (c : Chan) (code : Nat) : Chan := { c with busy := c.busy - (bellCw code - windowCw code) }

/-- Hands the closed plan to the parts that carry it out (R42). After a bell with metered power above 330 W the general pool admits
nothing in this one, and what was planned waits (R57 row 4). -/
def State.startPlan (s : State) : State :=
  let s := s.setMedia fun m => { m with chans := mapV (fun _ c => c.atBoundary s.bell.active) m.chans }
  let s' := if s.bell.poolStop then s else s.bell.next.foldl State.startWork s
  { s' with bell := { s'.bell with next := [] } }

/-- What a rate bucket gains in a bell, in 10^-6 operations or bytes (R107, Table 4.3). -/
def bucketGain (r : Res) (period : Nat) : Nat → Nat
  | 0 => r.readOps * 10000 * period
  | 1 => r.readBytes * 100000000 * period
  | 2 => r.writeBytes * 100000000 * period
  | _ => r.scanBytes * 100000000 * period

/-- The buckets of a function after one boundary (R107): at most 64 bells' worth. -/
def refill (r : Res) (period : Nat) (b : List Int) : List Int :=
  b.mapIdx fun i v => min (v + bucketGain r period i) (64 * bucketGain r period i)

/-- Buckets when a ceiling changes (R107): full from 0, else the level reduced to the new 64 bells' worth. -/
def rescale (old new : Res) (period : Nat) (b : List Int) : List Int :=
  b.mapIdx fun i v => if bucketGain old period i = 0 then (64 * bucketGain new period i : Nat)
    else min v (64 * bucketGain new period i : Nat)

/-- A function at a boundary: deferred values come into force (R105), buckets gain (R107), a knock of the bell before
makes a poll due (R86). -/
def Fn.atBoundary (g : Fn) (period : Nat) : Fn :=
  if g.state = .absent then g else
  { g with
    eff := g.res
    buckets := refill g.res period (if g.eff = g.res then g.buckets else rescale g.eff g.res period g.buckets)
    knockDue := g.knocked
    knocked := false
    polled := []
    rr := g.served.getD g.rr
    served := none }

/-- A completion ring at a boundary: notification attributes change (R122); a pending notification of a ring whose
NOTIFY goes to 0, or whose new values are reached, is due (R148). -/
def Cq.atBoundary (q : Cq) (now : Nat) : Cq :=
  match q.attrNext with
  | none => { q with wantHead := false }
  | some (n, cnt, bells) =>
    let off := q.notify && !n
    let reached := n && q.pendFrom.isSome && (q.pendCount ≥ cnt || q.pendFrom.getD 0 + bells ≤ now)
    { q with notify := n, coCount := cnt, coBells := bells, attrNext := none, wantHead := false,
             pendNow := q.pendNow || (off && q.pendFrom.isSome) || reached }

/-- Functions and rings at a boundary. -/
def State.ringsAtBoundary (s : State) : State :=
  let due := s.cqs.filter fun e => e.2.attrNext.isSome
  let s := { s with
    fns := mapV (fun _ g => g.atBoundary s.period) s.fns
    sqs := mapV (fun _ q => { q with inBell := 0 }) s.sqs
    cqs := mapV (fun _ q => q.atBoundary s.bell.now) s.cqs
    holds := mapV (fun _ h => { h with old := none }) s.holds }
  due.foldl (fun s e => s.sendDue (e.1 / 1024) (e.1 % 1024)) s

/-- Sieve grants that grew come into force at a boundary (R105, R441). -/
def State.grantsAtBoundary (s : State) : State :=
  (s.fns.filter fun e => e.2.res.sieve > s.grantOf e.1).foldl (fun s e => s.setGrant e.1 e.2.res.sieve) s

/-- Ports at a boundary: knock sources clear (R85); echo replies clear as a second begins (R64). -/
def State.portsAtBoundary (s : State) : State :=
  let sec := decide (s.nowNs / 1000000000 ≠ (s.nowNs - s.period * 1000) / 1000000000)
  let f := fun (q : Port) => { q with knockSrc := [], echoes := if sec then 0 else q.echoes }
  { s with portA := f s.portA, portB := f s.portB }

/-- Flow control of one lossless priority of a port in UP (R67): XOFF from 1,536 KiB of its receive buffer on, XON again from
1,024 KiB down; the occupancy is looked at as bells open (notes/assumptions/65.md). -/
def State.flowAt (s : State) (e : BellEnv) (p : PortId) (i : Nat) : State :=
  let n := lookD e.rxFill 0 (8 * p.num + i)
  let q := s.port p
  if q.state ≠ .up || !bit (s.portWord p 0x140).toNat i then s
  else if n ≥ 1536 && !q.xoff.contains i then (s.setPort p fun q => { q with xoff := q.xoff ++ [i] }).tell (.pfc p i true)
  else if n ≤ 1024 && q.xoff.contains i then (s.setPort p fun q => { q with xoff := q.xoff.erase i }).tell (.pfc p i false)
  else s

/-- Flow control of both ports as a bell opens (R67). -/
def State.flowControl (s : State) (e : BellEnv) : State :=
  (List.range 8).foldl (fun s i => (s.flowAt e .A i).flowAt e .B i) s

/-- Substitution of stream cores decided in the bell before (R432): the logical number runs on a spare. -/
def State.substitute (s : State) : State :=
  s.hamlets.foldl (fun s e =>
    e.2.pendSub.foldl (fun s l =>
      match s.nextSpare e.1 with
      | some p =>
        let s := { s with hamlets := adjD s.hamlets Hamlet.fresh e.1 fun h => { h with pendSub := h.pendSub.erase l } }
        let s := s.setCore (e.1 * 16 + l) fun c => { c with phys := some p, lastFn := none, lm := [] }
        (s.event 0x0040 1 0 [(32, 1, e.1), (33, 1, l), (34, 1, p)]).trace 9 e.1 l none 0 p
      | none => s) s) s

/-- The dispatcher and the sieve at a boundary: the quanta planned in the bell before run (R422); SVE_CTRL.MODE comes
into force (R440); trace records of a bell start again (R434). -/
def State.plansAtBoundary (s : State) : State :=
  let s := { s with
    disp := { s.disp with now := s.disp.place, place := [], grants := [], inBell := 0 }
    sieve := { s.sieve with active := s.sieve.mode } }
  s.traceLost.substitute

/-- DRAM drains that ran over (R53, R57 row 3): the next batch of the channel is shortened by the time. -/
def State.drains (s : State) (late : List (Nat × Nat)) : State :=
  let s := if late.isEmpty then s else s.overrun 3 late.length
  { s with
    bell := { s.bell with shorten := late.foldl (fun t e => putD t 0 e.1 e.2) [] }
    dram := { s.dram with late := late.map (·.1) } }

/-- Staging data queued in a bell before the one that closed stands on both mirror copies now (R29): drains go before every
watermark batch. -/
def State.mirrorDue (s : State) : State :=
  let f := fun (c : Cmd) => if c.point = .queued && c.queuedBell + 1 < s.bell.now then { c with point := .mirrored } else c
  { s with sqs := mapV (fun _ q => { q with cmds := q.cmds.map f }) s.sqs }

/-! ### The plan -/

/-- The tenant a work item is charged to (R51): a program of a zone to the owner its holding has now. -/
def State.tenantOf (s : State) (w : Work) : Nat :=
  match w.act, s.memberOf w.die with
  | .program, some (a, b, _) => match s.slotUse (slotNo a b w.slot) with
    | .bound z => if w.why = .host || w.why = .parity then s.ownerOf (zoneHold z) else w.tenant
    | _ => w.tenant
  | _, _ => w.tenant

/-- The class a work item has in the plan (Table 2.2): staging data above 4 GiB is mandatory. -/
def State.classOf (s : State) (w : Work) : Nat :=
  if w.why = .host && s.stagedTotal > stagingHigh then 3 else w.cls

/-- Whether two unsuspendable windows [e1 - t1, e1] and [e2 - t2, e2] meet. -/
def windowsMeet (e1 t1 e2 t2 : Nat) : Bool := e1 ≤ e2 + t1 && e2 ≤ e1 + t2

/-- Whether a program or erase started in the next bell would raise the unable members of its die row above four in
some bell (R30): a member counts that is lost or rebuilding, whose channel waits for a retrain (R273), whose operation has spent
its suspends, or whose last unsuspendable phase meets the new one. -/
def State.breaksR30 (s : State) (adm : List Work) (w : Work) : Bool :=
  match s.memberOf w.die with
  | none => false
  | some (a, b, i) =>
    let end_ := s.nowNs + s.period * 1000 + actLen w.act
    let busy := fun j =>
      let m := s.mem a b j
      s.memOut m w.slot || m.rebuilding || (s.chan (dieChan m.die)).due ||
      (match (s.die m.die).op with
       | some o => o.spent || windowsMeet (o.endAt s.nowNs) (actTail o.work.act) end_ (actTail w.act)
       | none => adm.any fun x => x.die = m.die && x.act ≠ .read &&
           windowsMeet (s.nowNs + s.period * 1000 + actLen x.act) (actTail x.act) end_ (actTail w.act))
    decide (((List.range 36).filter fun j => j ≠ i && busy j).length ≥ 4)

/-- Transfers outside the read windows that a channel has to make in the next bell for programs and internal reads, with those of a
plan (R43, R45). -/
def State.outLoad (s : State) (adm : List Work) (n : Nat) : Nat :=
  ((s.chan n).busy - (bellCw s.bell.active - windowCw s.bell.active)) +
    (adm.filter fun w => dieChan w.die = n && w.cls ≠ 7).foldl (fun k w => k + s.cwOf w) 0

/-- Whether a channel has time outside its read windows left in the next bell (R43, R282). -/
def State.outTime (s : State) (adm : List Work) (n : Nat) : Bool :=
  decide (s.outLoad adm n < bellCw s.bell.active - windowCw s.bell.active)

/-- Codewords of read slices on a channel: those of scans, or those of class 1. -/
def State.slicesOn (s : State) (n cls : Nat) : Nat :=
  (s.media.slices.filter fun x => x.cls = cls && dieChan x.die = n).foldl (fun k x => k + x.wants.length) 0

/-- Transfers of a channel that the classes above and the scan slices before leave free in the next bell (R32, R43): read windows no
read of class 1 claims, and the rest of the bell less what programs and internal reads transfer. -/
def State.scanTime (s : State) (adm : List Work) (n : Nat) : Nat :=
  let all := bellCw s.bell.active
  let win := windowCw s.bell.active
  all - min win (s.slicesOn n 1) - min (all - win) (s.outLoad adm n) - s.slicesOn n 7 -
    (adm.filter fun w => dieChan w.die = n && w.cls = 7).foldl (fun k w => k + s.cwOf w) 0

/-- Whether the word line of a program is the next of its block group (R260), and the group takes programs (R294). -/
def State.lineNext (s : State) (w : Work) : Bool :=
  let g := s.group w.die w.slot
  let still := !(s.media.retireq.any fun e => e.1 = w.die && e.2.1 = w.slot) &&
    !s.media.moves.any fun v => v.die = w.die && v.slot = w.slot
  match w.why with
  | .host | .parity => !g.dirty && g.prog = w.wl && still
  | .ckpt | .park _ => !g.dirty && g.prog ≤ w.wl && still
  | _ => true

/-- Whether a work item can be admitted to the next bell, but for its share of the power allowance: its die is free,
its word line is next, 2,400 programs at most run (R315), the inhibit (R316), R30, the channel has time (R43), waits for no retrain
(R273), and its plan is complete (R57). -/
def State.fits (s : State) (late : List Nat) (adm : List Work) (w : Work) : Bool :=
  let n := dieChan w.die
  !late.contains n && !s.chanIdle n && (s.die w.die).op.isNone && !(s.die w.die).failed &&
  !(adm.any fun x => x.die = w.die) && (s.chan n).st ≠ .retraining && (s.chan n).st ≠ .failed &&
  (match w.act with
   | .read => if w.cls = 7 then decide (0 < s.scanTime adm n) else s.outTime adm n
   | .program => s.lineNext w && s.outTime adm n && !(s.chan n).due &&
       s.programsRunning + (adm.filter fun x => x.act = .program).length < 2400 &&
       s.inhibit 0 0 true = 0 && !s.dieCold w.die && !s.breaksR30 adm w
   | .erase => s.inhibit 0 0 true = 0 && !s.dieCold w.die && !(s.chan n).due && !s.breaksR30 adm w)

/-- A plan being made: power left in the share, and what is admitted. -/
structure Plan where
  left : Nat
  adm : List Work

/-- Admits the fitting items of a list in order while the share lasts (R51). -/
def Plan.takeAll (s : State) (late : List Nat) (p : Plan) : List Work → Plan
  | [] => p
  | w :: ws =>
    if actCharge w.act ≤ p.left && s.fits late p.adm w then
      Plan.takeAll s late ⟨p.left - actCharge w.act, p.adm ++ [w]⟩ ws
    else Plan.takeAll s late p ws

/-- Whether a scan slice leaves its die and its channel's time to the items of a list that are of the classes above it and could be
admitted yet (R32, R43). -/
def Plan.scanFits (s : State) (late : List Nat) (p : Plan) (all : List Work) (w : Work) : Bool :=
  let n := dieChan w.die
  let above := all.filter fun v => v.cls ≠ 7 && dieChan v.die = n && !p.adm.contains v && s.fits late p.adm v
  !(above.any fun v => v.die = w.die) && decide (0 < s.scanTime (p.adm ++ above) n)

/-- A tenant's oldest fitting item, a program before a scan slice (R52). A scan slice gives way to the items `all` of other classes
(R43). -/
def tenantItem (s : State) (late : List Nat) (p : Plan) (ws all : List Work) (t : Nat) : Option Work :=
  let ok := fun (w : Work) => s.tenantOf w = t && actCharge w.act ≤ p.left && s.fits late p.adm w && !p.adm.contains w
  match ws.find? fun w => w.act ≠ .read && ok w with
  | some w => some w
  | none => ws.find? fun w => ok w && p.scanFits s late all w

/-- Of tenants with a fitting item, the one with the largest credit, ties to the lowest number (R52). -/
def richest (credit : Nat → Int) : List Nat → Option Nat
  | [] => none
  | t :: ts => match richest credit ts with
    | none => some t
    | some u => if credit u > credit t || (credit u = credit t && u < t) then some u else some t

/-- The loop of R52 over the tenants of a ward: `ws` their items, `all` the items that scan slices give way to. -/
def tenantLoop (s : State) (late : List Nat) (ws all : List Work) (ward : Nat) :
    Nat → List Nat → Tab Int → Plan → Tab Int × Plan
  | 0, _, credit, p => (credit, p)
  | n + 1, ts, credit, p =>
    let can := ts.filter fun t => (tenantItem s late p ws all t).isSome
    match richest (fun t => lookD credit 0 (ward * 4096 + t)) can with
    | none => (credit, p)
    | some t =>
      match tenantItem s late p ws all t with
      | none => (credit, p)
      | some w =>
        tenantLoop s late ws all ward n ts (adjD credit 0 (ward * 4096 + t) (· - actCharge w.act))
          ⟨p.left - actCharge w.act, p.adm ++ [w]⟩

/-- Plans one ward within its share (R43, R51, R52): class 3; the tenants' programs and scan slices by credit, those of weight 0
last, within what a guarantee of 25 % to internal work leaves; classes 5 and 6 within the guarantee; then the tenants and
internal work again with what is left of both, and scan slices with what all of these left. -/
def planWard (s : State) (late : List Nat) (ward share : Nat) (credit : Tab Int) (adm : List Work) :
    Tab Int × List Work :=
  let ws := s.media.work.filter fun w => w.die.ward = ward
  let p3 := Plan.takeAll s late ⟨share, adm⟩ (ws.filter fun w => s.classOf w = 3)
  let internal := (ws.filter fun w => s.classOf w = 5) ++ ws.filter fun w => s.classOf w = 6
  let grant := if internal.isEmpty then 0 else p3.left / 4
  let left := p3.left - grant
  let mine := ws.filter fun w => s.classOf w = 4 || s.classOf w = 7
  let ts := (mine.map s.tenantOf).eraseDups
  let wt := fun t => (s.fn t).eff.bellW
  let sum := ts.foldl (fun n t => n + wt t) 0
  let heavy := ts.filter fun t => wt t > 0
  let light := ts.filter fun t => wt t = 0
  let credit := heavy.foldl (fun (c : Tab Int) t =>
    let gain : Int := (left * wt t / sum : Nat)
    adjD c 0 (ward * 4096 + t) fun v => min (v + gain) (2 * gain)) credit
  let (credit, p) := tenantLoop s late mine ws ward mine.length heavy credit ⟨left, p3.adm⟩
  let (credit, p) := tenantLoop s late mine ws ward mine.length light credit p
  let pi := Plan.takeAll s late ⟨grant, p.adm⟩ internal
  let (credit, q) := tenantLoop s late mine ws ward mine.length heavy credit ⟨p.left + pi.left, pi.adm⟩
  let (credit, q) := tenantLoop s late mine ws ward mine.length light credit q
  let q := Plan.takeAll s late q (internal.filter fun w => !q.adm.contains w)
  let (credit, q) := tenantLoop s late mine [] ward mine.length (heavy ++ light) credit q
  (credit, q.adm)

/-- Division of the general pool among the wards (R50): a floor of 15 W to each ward with pending work, its unclaimed
part returned, the rest in proportion to pending charges. Operations that run already keep their charge, suspended ones that of
their resume (R48); where they leave
less than the floors, the floors share it in proportion (notes/assumptions/36.md). -/
def poolShares (s : State) : List Nat :=
  let avail := s.generalPool s.bell.inputMv - s.fullCharge - s.readCharge
  let pend := fun w => (s.media.work.filter fun x => x.die.ward = w).foldl (fun n x => n + actCharge x.act) 0
  let total := (List.range 4).foldl (fun n w => n + pend w) 0
  let floors := fun w => min 15000 (pend w)
  let fsum := (List.range 4).foldl (fun n w => n + floors w) 0
  (List.range 4).map fun w =>
    if fsum ≥ avail then (if fsum = 0 then 0 else floors w * avail / fsum)
    else floors w + (if total = 0 then 0 else (avail - fsum) * pend w / total)

/-- Blank check before a block group's first program (R260), and of a cellar block in preparation (R322): a plane-block that fails is
retired and replaced. So is a fresh block of a relocation: that of a refresh from steps 1 and 2 of Table 8.6 alone, and where they
have none the refresh waits anew (R293). -/
def State.blankCheck (s : State) (b : PlaneBlock) : State :=
  let g := s.group b.die b.slot
  match s.media.moves.find? fun v => v.die = b.die && v.slot = b.slot && v.done = 0 with
  | some v =>
    match v.fresh.find? fun e => e.1 = b.plane with
    | some e =>
      let s := s.retirePhys b.die b.plane e.2
      let must := !v.retire.isEmpty || s.media.retireq.any fun e => e.1 = b.die && e.2.1 = b.slot
      match if must then s.drawBlock b.die b.plane else s.drawPool b.die b.plane with
      | some (k, s) => s.setMedia fun m => { m with moves := m.moves.map fun v =>
          if v.die = b.die && v.slot = b.slot then
            { v with fresh := v.fresh.map fun e => if e.1 = b.plane then (e.1, k) else e } else v }
      | none =>
        let s := s.setMedia fun m => { m with
          moves := m.moves.filter fun x => !(x.die = v.die && x.slot = v.slot)
          oldBlocks := m.oldBlocks ++ [(v.die, v.fresh.filter fun e => e.1 ≠ b.plane, m.begun)] }
        if must then s.noSource b.die b.slot else s
    | none => s
  | none =>
    if b.slot = 3071 && b.plane = 0 && (s.die b.die).cellarPrep then (s.retireBlock b.die 0 3071).replaceBlock b.die 0 3071
    else if g.prog = 0 && !g.blank && s.media.work.any fun w => w.die = b.die && w.slot = b.slot && w.act = .program then
      (s.retireBlock b.die b.plane b.slot).replaceBlock b.die b.plane b.slot
    else s

/-- Makes the plan of the next bell (R43, R50 to R52). -/
def State.makePlan (s : State) (late : List Nat) : State :=
  let shares := poolShares s
  let (credit, adm) := (List.range 4).foldl
    (fun (a : Tab Int × List Work) w => planWard s late w (shares.getD w 0) a.1 a.2) (s.bell.credit, [])
  let s := (adm.filter fun w => w.act = .program && (s.group w.die w.slot).prog = 0).foldl
    (fun s w => s.setGroup w.die w.slot fun g => { g with blank := true }) s
  let grants := (List.range 4).foldl (fun t w => putD t 0 w
    ((adm.filter fun x => x.die.ward = w).foldl (fun n x => n + actCharge x.act) 0)) []
  { s with bell := { s.bell with closed := true, next := adm, credit := credit, grants := grants, fallbackNext := late } }

/-- The DRAM drains of the next bell (R42, R53): staging data queued so far, and a watermark batch on each channel whose write queue has
reached 48 lines (R467). -/
def State.planDrains (s : State) : State :=
  let f := fun (c : Cmd) => if c.point = .queued && c.drainBell.isNone then { c with drainBell := some (s.bell.now + 1) } else c
  { s with
    sqs := mapV (fun _ q => { q with cmds := q.cmds.map f }) s.sqs
    bell := { s.bell with batchNext := (s.dram.wq.filter fun e => decide (48 ≤ e.2)).map (·.1) } }

/-! ### Suspended operations -/

/-- Resumes a suspended operation (R46, R261): its end moves by the time it was suspended. -/
def DieOp.resume (o : DieOp) (ns : Nat) : DieOp :=
  if o.suspended then { o with suspended := false, resumeNs := ns, endNs := o.endNs + (ns - o.suspAt) }
  else { o with suspending := false, resumeNs := ns }

/-- Whether a suspended operation may resume under R30, to which every class is subject (R43): its next unsuspendable phase, and its
last one, make no fifth member of its die row unable. -/
def State.mayResume (s : State) (d : DieId) (o : DieOp) : Bool :=
  match s.memberOf d with
  | none => true
  | some (w, row, i) =>
    let meets := fun j =>
      let m := s.mem w row j
      s.memUnable m o.work.slot s.nowNs || (match (s.die m.die).op with
        | some q => !q.suspended && windowsMeet q.endNs (actTail q.work.act) (o.endAt s.nowNs) (actTail o.work.act)
        | none => false)
    decide (((List.range 36).filter fun j => j ≠ i && meets j).length < 4)

/-- The operation resumes when the array reads of its die have ended (R46), as far as R30 lets it, and is charged as running again
(R48). -/
def State.resumeIfIdle (s : State) (d : DieId) : State :=
  if s.media.slices.any fun x => x.die = d && (x.phase = .suspending || x.phase = .sensing) then s
  else match (s.die d).op with
    | some o =>
      if o.suspended && s.mayResume d o then
        { s.setDie d fun x => { x with op := some (o.resume s.nowNs) } with
          bell := { s.bell with poolLeft := s.bell.poolLeft - o.resumeCost s.nowNs } }
      else s
    | none => s

/-- Drops read slices: dies that waited for them alone resume (R46). -/
def State.dropSlices (s : State) (p : Slice → Bool) : State :=
  let ds := ((s.media.slices.filter p).map (·.die)).eraseDups
  ds.foldl State.resumeIfIdle (s.setMedia fun m => { m with slices := m.slices.filter fun x => !p x })

/-- Nobody waits any longer for what `p` picks: reconstructions left without a reader end, and so do their shares. -/
def State.dropReads (s : State) (p : SliceFor → Bool) : State :=
  let s := s.setMedia fun m => { m with
    recons := List.map (fun c => { c with wants := c.wants.filter fun e => !p e.2 }) m.recons }
  let dead := (s.media.recons.filter fun c => c.wants.isEmpty).map (·.id)
  let share := fun (w : SliceFor) => match w with
    | .recon g _ => dead.contains g
    | _ => false
  let gone := fun (w : Work) => match w.why with
    | .share g _ => dead.contains g
    | _ => false
  let s := s.setMedia fun m => { m with
    recons := m.recons.filter fun c => !c.wants.isEmpty
    work := m.work.filter fun w => !gone w
    slices := List.map (fun x => { x with wants := x.wants.filter fun e => !(p e.2 || share e.2) }) m.slices }
  s.dropSlices fun x => x.wants.isEmpty

/-! ### Idleness (R530) -/

/-- Whether a work item is part of the entry of Q3 (R531). -/
def Work.forEntry (w : Work) : Bool := w.why = .ckpt || (match w.why with
  | .park _ => true
  | _ => false)

/-- Whether work of Table 10.1 or of class 3 is pending though none of it is queued for a plan: a reclaim, a patrol round, the preparation of
a cellar (R530). -/
def State.behind (s : State) : Bool :=
  !s.media.copies.isEmpty || s.media.wards.any (fun e => !e.2.victims.isEmpty) || s.media.groups.any (fun e => e.2.round.isSome) ||
    s.media.dies.any fun e => e.2.cellarPrep

/-- Whether the module is idle (R530). A checkpoint of R285 is work of Table 10.1 unless it belongs to the entry of Q3. -/
def State.idle (s : State) : Bool :=
  !s.behind && (s.sqs.all fun e => e.2.cmds.isEmpty) && s.jobs.isEmpty && (s.media.work.all Work.forEntry) &&
    (s.media.dies.all fun e => match e.2.op with
      | some o => o.work.forEntry
      | none => true) &&
    s.media.slices.isEmpty && s.media.moves.isEmpty && s.media.refresh.isEmpty && s.media.retireq.isEmpty &&
    (s.media.ckpt.isNone || s.pwr.entering) && (s.media.members.all fun e => !e.2.rebuilding) && !s.scanning

/-- Idleness watched at a bell boundary (R530): its first bell, or none. -/
def State.watchIdle (s : State) : State :=
  { s with pwr := { s.pwr with idleFrom := if s.idle then some (s.pwr.idleFrom.getD s.bell.now) else none } }

end Sys2Proof.Machine
end

