-- ==== Sys2Proof/Machine/Channel.lean ====
section
/-! DEFINITION. Flash channels: centring, faults, retrains, failure (R269 to R273, R298, R304). -/

namespace Sys2Proof.Machine

/-- The die of a module-wide channel and position. -/
def dieAt (n p : Nat) : DieId := ⟨n / 37, n % 37, p⟩

/-- The die-row members on a channel (R25). -/
def State.membersOn (s : State) (n : Nat) : List DieId :=
  ((List.range 28).map (dieAt n)).filter fun d => (s.memberOf d).isSome

/-- 0.25 UI in units of 1/256 UI (R271). -/
def eyeMin : Nat := 64

/-- Codeword transfers a channel has left, since its last read point, for a class (R45): a read of class 1 its read window, an internal
read the time outside it, a scan slice what neither they nor programs claim. -/
def State.room (s : State) (n cls : Nat) : Nat :=
  let c := s.chan n
  let a := s.bell.active
  let claimed := (s.media.slices.filter fun x => x.cls = 1 && dieChan x.die = n && x.phase ≠ .queued).foldl (fun k x => k + x.wants.length) 0
  match cls with
  | 1 => readWindow a - c.window
  | 7 => pointCw a - min (readWindow a) (c.window + claimed) - min (outCw a) c.busy - c.moved
  | _ => outCw a - c.outside

/-- Transfers made on a channel for a class since its last read point (R45). -/
def Chan.took (c : Chan) (cls k : Nat) : Chan :=
  match cls with
  | 1 => { c with window := c.window + k }
  | 7 => { c with moved := c.moved + k }
  | _ => { c with outside := c.outside + k }

/-- CHANNEL_RECENTRE (R271): every 65,536 bells the eyes are re-centred, with pattern transfers that take the scan time left
(notes/assumptions/88.md); below 0.25 UI an IN_SERVICE channel is due for a retrain (once R273 admits it) and a SPARE channel is
retrained. -/
def execChannelRecentre (chan rdEye wrEye : Nat) (s : State) : Res' :=
  if !chanOk chan then .fault .noSuchPart
  else
    let c := s.chan chan
    if (c.st = .inService || c.st = .spare) && decide (c.centred + 65536 ≤ s.bell.now) && 0 < s.room chan 7 then
      let low := decide (min rdEye wrEye < eyeMin)
      go (s.setChan chan fun c => { c.took 7 (s.room chan 7) with
        rdEye := min 255 rdEye, wrEye := min 255 wrEye, centred := s.bell.now
        due := c.due || (low && c.st = .inService), trying := c.trying || (low && c.st = .spare) })
    else go s

/-- CHANNEL_FAULT (R272): an IN_SERVICE channel retrains at once; a SPARE channel is retrained. -/
def execChannelFault (chan : Nat) (s : State) : Res' :=
  if !chanOk chan then .fault .noSuchPart
  else match (s.chan chan).st with
  | .inService => go ((s.moveChan chan .retraining).setChan chan fun c => { c with fails := 0, due := false, trying := true })
  | .spare => go (s.setChan chan fun c => { c with trying := true })
  | _ => go s

/-- Whether taking a channel out of service leaves no die row of its ward with more than four unable members, whatever their dies
run, and no operation runs on its dies (R273). -/
def State.retrainAdmitted (s : State) (chan : Nat) : Bool :=
  (s.media.dies.all fun e => dieChan (dieOf e.1) ≠ chan || e.2.op.isNone) &&
  (List.range 26).all fun row =>
    ((List.range 36).filter fun i =>
      let m := s.mem (chan / 37) row i
      decide (dieChan m.die = chan) || s.memWeak m || (match (s.die m.die).op with
        | some o => o.unable s.nowNs
        | none => false)).length ≤ 4

/-- CHANNEL_RETRAIN_BEGIN (R273): a due retrain begins once R273 admits it. -/
def execChannelRetrainBegin (chan : Nat) (s : State) : Res' :=
  if !chanOk chan then .fault .noSuchPart
  else if (s.chan chan).due && (s.chan chan).st = .inService && s.retrainAdmitted chan then
    go ((s.moveChan chan .retraining).setChan chan fun c => { c with fails := 0, due := false, trying := true })
  else go s

/-- A channel FAILED (R272, R298, R304): every member on it fails with cause 4 and is rebuilt on a spare. -/
def State.chanFailed (s : State) (n : Nat) : State :=
  ((s.membersOn n).foldl (fun s d => s.failDie d 4) (s.moveChan n .failed)).nameAgain (n / 37)

/-- A failed attempt (R272): the third in a row makes the channel FAILED. -/
def State.attemptFailed (s : State) (n : Nat) : State :=
  let f := (s.chan n).fails + 1
  let s := s.setChan n fun c => { c with fails := f, trying := false }
  if f ≥ 3 then s.chanFailed n else s

/-- 0.35 UI in units of 1/256 UI (R269). -/
def eyePass : Nat := 90

/-- Whether a position passes an attempt (R269): its identity and both its eyes. -/
def posPass (p : PosTrain) : Bool := p.ident && eyePass ≤ p.rd && eyePass ≤ p.wr

/-- Positions of a channel that fail an attempt (R270). -/
def trainBad (t : Train) : List Nat :=
  (List.range 28).filter fun i => !((t.pos[i]?).map posPass).getD false

/-- Whether an attempt passes (R270): the shared steps do, and at most four active positions fail. -/
def State.trains (s : State) (n : Nat) (t : Train) : Bool :=
  t.shared && decide (((trainBad t).filter fun p => (s.memberOf (dieAt n p)).isSome).length ≤ 4)

/-- An attempt that passed (R269, R270, R272): the narrowest eyes of the targets that pass; positions that failed are failed
dies (cause 0). -/
def State.trained (s : State) (n : Nat) (t : Train) : State :=
  let c := s.chan n
  let s := if c.st = .retraining then s.moveChan n .inService else if c.st = .failed then s.moveChan n (Chan.fresh n).st else s
  let ok := t.pos.filter posPass
  let s := s.setChan n fun c => { c with
    fails := 0, due := false, trying := false, failedPos := (trainBad t ++ c.failedPos).eraseDups
    rdEye := ok.foldl (fun k p => min k p.rd) 255, wrEye := ok.foldl (fun k p => min k p.wr) 255, centred := s.bell.now }
  ((trainBad t).foldl (fun s p => s.failDie (dieAt n p) 0) s).nameAgain (n / 37)

/-- CHANNEL_RETRAIN_RESULT (R269, R270, R272): an attempt ends. -/
def execChannelRetrainResult (chan : Nat) (common : Bool) (pos : List PosTrain) (s : State) : Res' :=
  if !chanOk chan then .fault .noSuchPart
  else if !(s.chan chan).trying then go s
  else go (if s.trains chan ⟨common, pos⟩ then s.trained chan ⟨common, pos⟩ else s.attemptFailed chan)

/-- CHANNEL_RETRAIN_RETRY (R272): 1 ms after a failed attempt, the next one starts. -/
def execChannelRetrainRetry (chan : Nat) (s : State) : Res' :=
  if !chanOk chan then .fault .noSuchPart
  else
    let c := s.chan chan
    if !c.trying && 0 < c.fails && c.fails < 3 && (c.st = .retraining || c.st = .spare) then
      go (s.setChan chan fun c => { c with trying := true })
    else go s

end Sys2Proof.Machine
end

