-- ==== Sys2Proof/Machine/Gate.lean ====
section
/-! DEFINITION. The gate (chapter 12): the block-compression format (R346, R347), framing (R348), terms and their tree
(R349 to R351), output records (R353), and the layouts of a SCAN specification and a program package (R354, R360). -/

namespace Sys2Proof.Machine

/-! ### The block-compression format -/

/-- An LZ4 length: the nibble, and further bytes while the last was 255. Answers the length and the rest. -/
def lz4Len (n : Nat) (b : Bytes) : Nat × Bytes :=
  if n < 15 then (n, b) else
    let full := (b.takeWhile (· = 255)).length
    (15 + 255 * full + byteAt b full, b.drop (full + 1))

/-- Copies `n` bytes from `off` bytes back, one at a time. -/
def lz4Copy (off : Nat) : Nat → Bytes → Bytes
  | 0, out => out
  | n + 1, out => lz4Copy off n (out ++ [out.getD (out.length - off) 0])

/-- Decodes an LZ4 block payload (R347): none where a match offset lies outside the block's own output or bytes are
missing. -/
def lz4Decode : Nat → Bytes → Bytes → Option Bytes
  | 0, _, _ => none
  | fuel + 1, src, out =>
    match src with
    | [] => none
    | t :: rest =>
      let (lit, r1) := lz4Len (t.toNat / 16) rest
      if r1.length < lit then none else
      let out := out ++ r1.take lit
      let r2 := r1.drop lit
      if r2.isEmpty then some out
      else if r2.length < 2 then none
      else
        let off := le r2 0 2
        let (m, r3) := lz4Len (t.toNat % 16) (r2.drop 2)
        if off = 0 || off > out.length then none else lz4Decode fuel r3 (lz4Copy off (m + 4) out)

/-- A frame of a unit: its block index and its bytes (R348). -/
abbrev Frame := Nat × Bytes

/-- The frames of a compressed unit from byte `k` on, and whether a framing error met (R346 to R348). A block in error is no frame, and
the next header follows its payload where its CLEN is in range (notes/assumptions/85.md). -/
def blockFrames (u : Bytes) : Nat → Nat → Nat → List Frame × Bool
  | 0, _, _ => ([], false)
  | fuel + 1, idx, k =>
    if u.length < k + 8 || le u k 2 = 0 then ([], false)
    else
      let clen := le u (k + 4) 2
      let slen := le u (k + 6) 2
      if clen = 0 || clen > 4088 || u.length < k + 8 + clen then ([], true)
      else
        let (fs, e) := blockFrames u fuel (idx + 1) (k + 8 + clen)
        if le u k 2 ≠ 0x4A43 || byteAt u (k + 2) ≠ 1 || byteAt u (k + 3) ≠ 0 || slen = 0 || slen > 4096 then (fs, true)
        else match lz4Decode (clen + 1) (slice u (k + 8) clen) [] with
          | some d => if d.length = slen then ((idx, d) :: fs, e) else (fs, true)
          | none => (fs, true)

/-- The frames of a unit as it was before encryption (R348): its compression flag and its bytes. -/
def unitFrames (cmp : Bool) (b : Bytes) : List Frame × Bool := if cmp then blockFrames b 512 0 0 else ([(0, slice b 0 4096)], false)

/-- The LZ4 payload of one sequence that holds the literals alone (R347). -/
def lz4Plain (b : Bytes) : Bytes :=
  let n := b.length
  if n < 15 then BitVec.ofNat 8 (n * 16) :: b
  else [240] ++ List.replicate ((n - 15) / 255) 255 ++ [BitVec.ofNat 8 ((n - 15) % 255)] ++ b

/-- The payload the compression engine makes of a source block: it decodes to the block (R347). -/
def lz4Payload (b : Bytes) : Bytes :=
  let p := Config.lz4Pack b
  if lz4Decode (p.length + 1) p [] = some b then p else lz4Plain b

/-- The units the compression engine makes of source blocks (R347): each stored unit and whether it is compressed. `cur`
is the unit being filled. -/
def packUnits : List Bytes → Bytes → List (Bytes × Bool)
  | [], cur => if cur.isEmpty then [] else [(slice cur 0 4096, true)]
  | b :: bs, cur =>
    let p := lz4Payload b
    let blk := record 8 [(0, 2, 0x4A43), (2, 1, 1), (4, 2, p.length), (6, 2, b.length)] ++ p
    if blk.length > 4096 then
      (if cur.isEmpty then [] else [(slice cur 0 4096, true)]) ++ (b, false) :: packUnits bs []
    else if cur.length + blk.length ≤ 4096 then packUnits bs (cur ++ blk)
    else (slice cur 0 4096, true) :: packUnits bs blk

/-- Cuts bytes into pieces of 4,096. -/
def cut4k (b : Bytes) : List Bytes := (List.range ((b.length + 4095) / 4096)).map fun i => slice b (4096 * i) 4096

/-! ### Framing -/

/-- A record of a frame: position of its first byte, and its bytes. -/
abbrev Rec := Nat × Bytes

/-- LEN32 records of a frame from byte `k` on (Table 12.6). -/
def len32 (f : Bytes) : Nat → Nat → List Rec × Bool
  | 0, _ => ([], false)
  | fuel + 1, k =>
    if f.length < k + 4 then ([], false)
    else
      let n := le f k 4
      if n = 0 then ([], false)
      else if n > f.length - (k + 4) then ([], true)
      else
        let (rs, e) := len32 f fuel (k + 4 + n)
        ((k + 4, slice f (k + 4) n) :: rs, e)

/-- DELIM records: bytes up to and including the next delimiter; the tail is a record unless it is all zero. -/
def delimRecs (d : Byte) (f : Bytes) : Nat → Nat → List Rec
  | 0, _ => []
  | fuel + 1, k =>
    let rest := f.drop k
    if rest.isEmpty then []
    else
      let head := rest.takeWhile (· ≠ d)
      if head.length < rest.length then (k, head ++ [d]) :: delimRecs d f fuel (k + head.length + 1)
      else if rest.all (· = 0) then [] else [(k, rest)]

/-! ### The specification -/

/-- A SCAN specification's header fields (Table 12.10). -/
structure Spec where
  bytes : Bytes
  zcount : Nat

def Spec.framing (p : Spec) : Nat := byteAt p.bytes 5
def Spec.delim (p : Spec) : Byte := p.bytes.getD 6 0
def Spec.nterms (p : Spec) : Nat := bits (byteAt p.bytes 7) 3 0
def Spec.fixlen (p : Spec) : Nat := bits (le p.bytes 8 2) 12 0
def Spec.outflags (p : Spec) : Nat := byteAt p.bytes 10
def Spec.treeOr (p : Spec) : Nat := byteAt p.bytes 11
def Spec.leafInv (p : Spec) : Nat := byteAt p.bytes 12
def Spec.timeLimit (p : Spec) : Nat := le p.bytes 16 4
def Spec.stageOff (p : Spec) : Nat := le p.bytes 20 4
def Spec.stageLen (p : Spec) : Nat := le p.bytes 24 4
def Spec.stageMem (p : Spec) : Nat := le p.bytes 28 2
def Spec.stageCores (p : Spec) : Nat := bits (le p.bytes 30 2) 9 0
def Spec.zone (p : Spec) (i : Nat) : Nat := le p.bytes (64 + 4 * i) 4
/-- Offset of term `k` (R354). -/
def Spec.termAt (p : Spec) (k : Nat) : Nat := 64 + (4 * p.zcount + 63) / 64 * 64 + 96 * k
/-- The end of the last term. -/
def Spec.termsEnd (p : Spec) : Nat := p.termAt p.nterms
/-- The stage package, empty without one (R355). -/
def Spec.stage (p : Spec) : Bytes := if p.stageOff = 0 then [] else slice p.bytes p.stageOff p.stageLen

/-- Whether a term is a SIEVE term. -/
def Spec.isSieve (p : Spec) (k : Nat) : Bool := byteAt p.bytes (p.termAt k) = 9

/-- The records of a frame (R348). -/
def Spec.records (p : Spec) (f : Bytes) : List Rec × Bool :=
  match p.framing with
  | 0 => ((List.range (f.length / max 1 p.fixlen)).map fun i => (i * p.fixlen, slice f (i * p.fixlen) p.fixlen), false)
  | 1 => len32 f 1100 0
  | _ => (delimRecs p.delim f 4097 0, false)

/-! ### Terms -/

/-- A term breaks no range of Tables 12.7 and 12.8 (R349). -/
def termOk (b : Bytes) (k : Nat) : Bool :=
  let op := byteAt b k
  let ty := byteAt b (k + 1)
  let w := byteAt b (k + 4)
  let off := le b (k + 2) 2
  let common := off < 4096 && byteAt b (k + 5) / 2 = 0 && zeros b (k + 6) 10 && zeros b (k + 80) 16
  let mask0 := zeros b (k + 48) 32
  let verify0 := byteAt b (k + 5) = 0
  if op = 0 then common && mask0 && verify0 && ty ≤ 3 && (ty = 3 || zeros b (k + 24) 24)
  else if op ≤ 6 then
    common && mask0 && verify0 && ty ≤ 3 &&
      (if ty = 3 then 1 ≤ w && w ≤ 32 && zeros b (k + 16 + w) (32 - w)
       else (w = 1 || w = 2 || w = 4 || w = 8) && zeros b (k + 24) 24)
  else if op = 7 then
    common && verify0 && ty = 3 && 1 ≤ w && w ≤ 32 && zeros b (k + 16 + w) (32 - w) && zeros b (k + 48 + w) (32 - w)
  else if op = 8 then common && verify0 && mask0 && ty = 3 && 1 ≤ w && w ≤ 16 && off = 0 && zeros b (k + 16 + w) (32 - w)
  else if op = 9 then common && mask0 && ty = 3 && 1 ≤ w && w ≤ 40 && zeros b (k + 16) 32
  else false

/-- The integer field of a term (Table 12.8): in TYPE's byte order, extended to 64 bits. -/
def intField (ty w : Nat) (f : Bytes) : Int :=
  let v := if ty = 2 then le f.reverse 0 w else le f 0 w
  if ty = 1 then (if v ≥ 2 ^ (8 * w - 1) then (v : Int) - 2 ^ (8 * w) else v) else v

/-- The 64-bit constant of an integer term. -/
def intConst (ty : Nat) (c : Bytes) : Int :=
  let v := le c 0 8
  if ty = 1 && v ≥ 2 ^ 63 then (v : Int) - 2 ^ 64 else v

/-- Lexicographic comparison of byte strings of one length: less than. -/
def lexLt : Bytes → Bytes → Bool
  | [], _ => false
  | _, [] => false
  | a :: as, b :: bs => if a.toNat < b.toNat then true else if a = b then lexLt as bs else false

/-- Compares by OP 0x01 to 0x06 from less-than and equality. -/
def compareOp (op : Nat) (lt eq : Bool) : Bool :=
  match op with
  | 1 => eq
  | 2 => !eq
  | 3 => lt
  | 4 => lt || eq
  | 5 => !lt && !eq
  | _ => !lt

/-- A term other than SIEVE on a record (Table 12.8); a field not wholly within the record is false (R349). -/
def termTrue (b : Bytes) (k : Nat) (rec_ : Bytes) : Bool :=
  let op := byteAt b k
  let ty := byteAt b (k + 1)
  let w := byteAt b (k + 4)
  let off := le b (k + 2) 2
  let c := slice b (k + 16) 32
  if op = 8 then
    (List.range (rec_.length + 1 - w)).any fun i => w ≤ rec_.length && slice rec_ i w = c.take w
  else if rec_.length < off + w then false
  else
    let f := slice rec_ off w
    if op = 7 then (List.range w).all fun i => (f.getD i 0 &&& b.getD (k + 48 + i) 0) = c.getD i 0
    else if ty = 3 then compareOp op (lexLt f (c.take w)) (f = c.take w)
    else compareOp op (intField ty w f < intConst ty c) (intField ty w f = intConst ty c)

/-- The value of a node: identity, known, or waiting for a SIEVE term. -/
inductive Val where
  | id
  | known (b : Bool)
  | unknown
  deriving DecidableEq, Repr

/-- Combines two children under AND or OR (R350); a known dominating child decides. -/
def Val.join (or_ : Bool) : Val → Val → Val
  | .id, b => b
  | a, .id => a
  | .known a, .known b => .known (if or_ then a || b else a && b)
  | .known a, .unknown => if a = or_ then .known or_ else .unknown
  | .unknown, .known b => if b = or_ then .known or_ else .unknown
  | .unknown, .unknown => .unknown

/-- The value of node 1 from the eight leaves (R350). -/
def treeVal (or_ : Nat) (l : Nat → Val) : Val :=
  let n4 := Val.join (bit or_ 3) (l 0) (l 1)
  let n5 := Val.join (bit or_ 4) (l 2) (l 3)
  let n6 := Val.join (bit or_ 5) (l 4) (l 5)
  let n7 := Val.join (bit or_ 6) (l 6) (l 7)
  Val.join (bit or_ 0) (Val.join (bit or_ 1) n4 n5) (Val.join (bit or_ 2) n6 n7)

/-- What the gate knows of a record while it tests it: values of the SIEVE terms looked up, and the winning RESULT. -/
structure Test where
  s : State
  sv : List (Nat × Bool)
  result : Option W64

/-- Leaf `k` of the tree: disabled, decided, or a SIEVE term not looked up (R350, R351); a SIEVE term whose field is not wholly within the
record is false (R349). -/
def Spec.leaf (p : Spec) (rec_ : Bytes) (sv : List (Nat × Bool)) (k : Nat) : Val :=
  if k ≥ p.nterms || byteAt p.bytes (p.termAt k) = 0 then .id
  else if p.isSieve k then
    let a := p.termAt k
    if rec_.length < le p.bytes (a + 2) 2 + byteAt p.bytes (a + 4) then .known (bit p.leafInv k)
    else match sv.find? fun e => e.1 = k with
    | some (_, b) => .known (b != bit p.leafInv k)
    | none => .unknown
  else .known (termTrue p.bytes (p.termAt k) rec_ != bit p.leafInv k)

/-- SIEVE terms in order (R351). -/
def Spec.sieveTerms (p : Spec) : List Nat := (List.range p.nterms).filter p.isSieve

/-- Whether node 1 can still depend on SIEVE term `k` (R351): its value matters for some value of those of `ks` not looked up yet. -/
def Spec.matters (p : Spec) (rec_ : Bytes) (k : Nat) : List Nat → List (Nat × Bool) → Bool
  | [], sv => treeVal p.treeOr (p.leaf rec_ (sv ++ [(k, true)])) ≠ treeVal p.treeOr (p.leaf rec_ (sv ++ [(k, false)]))
  | o :: os, sv => p.matters rec_ k os (sv ++ [(o, true)]) || p.matters rec_ k os (sv ++ [(o, false)])

/-- Looks up the SIEVE terms that the outcome depends on, in order (R351). -/
def Spec.runSieve (p : Spec) (f : Nat) (rec_ : Bytes) : List Nat → Test → Test
  | [], t => t
  | k :: ks, t =>
    if p.leaf rec_ t.sv k ≠ .unknown || !p.matters rec_ k ks t.sv then p.runSieve f rec_ ks t
    else
      let a := p.termAt k
      let w := byteAt p.bytes (a + 4)
      let off := le p.bytes (a + 2) 2
      let r := t.s.lookup f (keyOf (slice rec_ off w)) (bit (byteAt p.bytes (a + 5)) 0) none
      let first := p.sieveTerms.head? = some k
      p.runSieve f rec_ ks
        { s := r.1, sv := t.sv ++ [(k, r.2.2.isSome)], result := if first then r.2.2.map (·.result) else t.result }

/-- Tests a record (R350, R351): the state after its lookups, whether it passes, and the first SIEVE term's RESULT. -/
def Spec.test (p : Spec) (f : Nat) (s : State) (rec_ : Bytes) : State × Bool × Option W64 :=
  let t := p.runSieve f rec_ p.sieveTerms ⟨s, [], none⟩
  (t.s, treeVal p.treeOr (p.leaf rec_ t.sv) ≠ .known false, t.result)

/-! ### Output records -/

/-- The projection of a record (R353). -/
def Spec.project (p : Spec) (rec_ : Bytes) : Bytes :=
  let rs := (List.range 4).map fun i => (le p.bytes (32 + 4 * i) 2, le p.bytes (34 + 4 * i) 2)
  if rs.all (·.2 = 0) then rec_ else rs.flatMap fun r => (rec_.drop r.1).take r.2

/-- An output record (Table 12.9). -/
def Spec.emit (p : Spec) (zone unit blk pos : Nat) (rec_ : Bytes) (res : Option W64) : Bytes :=
  let crc := bit p.outflags 0
  let sha := bit p.outflags 1
  let sv := bit p.outflags 2 && res.isSome
  let body := p.project rec_
  let r := record 16 [(0, 4, zone), (4, 4, unit), (8, 2, pos), (10, 1, blk), (11, 1, b01 crc + 2 * b01 sha + 4 * b01 sv),
      (12, 4, body.length)] ++ body ++
    (if crc then toLe (crc32c rec_).toNat 4 else []) ++
    (if sha then sha256 rec_ else []) ++
    (if sv then toLe (res.getD 0).toNat 8 else [])
  slice r 0 ((r.length + 7) / 8 * 8)

/-- The length of the output record at the front of a byte string (Table 12.9). -/
def outRecLen (b : Bytes) : Nat :=
  let fl := byteAt b 11
  (16 + bits (le b 12 4) 12 0 + 4 * b01 (bit fl 0) + 32 * b01 (bit fl 1) + 8 * b01 (bit fl 2) + 7) / 8 * 8

/-- Bytes of the longest run of whole output records from the front that fit in `room` (R355). -/
def wholeRecs : Nat → Bytes → Nat → Nat
  | 0, _, _ => 0
  | fuel + 1, b, room =>
    if b.isEmpty then 0
    else
      let n := outRecLen b
      if n > room || n > b.length then 0 else n + wholeRecs fuel (b.drop n) (room - n)

/-- The gate's work on one unit's plaintext (R27, R348 to R353): the state after its lookups, output, and whether a framing error met. -/
def Spec.gate (p : Spec) (f zone off : Nat) (s : State) (cmp : Bool) (b : Bytes) : State × Bytes × Bool :=
  let (fs, e) := unitFrames cmp b
  fs.foldl (fun (a : State × Bytes × Bool) fr =>
    let (rs, e2) := p.records fr.2
    let a2 := rs.foldl (fun (a : State × Bytes) r =>
      let (s, ok, res) := p.test f a.1 r.2
      (s, if ok then a.2 ++ p.emit zone off fr.1 r.1 r.2 res else a.2)) (a.1, a.2.1)
    (a2.1, a2.2, a.2.2 || e2)) (s, [], e)

/-! ### Packages and specifications: their checks -/

/-- A package header is within its ranges (Table 12.12, R360): `mem` in 16 MiB is the DRAM window. -/
def pkgOk (b : Bytes) (mem : Nat) (isStage : Bool) : Bool :=
  let co := le b 8 4
  let cl := le b 12 4
  let d := le b 16 4
  let dl := le b 20 4
  let en := le b 24 4
  let need := byteAt b 28
  le b 0 4 = 0x4E55524A && byteAt b 4 = 1 && zeros b 5 3 && co % 64 = 0 && co ≥ 64 && cl ≥ 4 && cl ≤ 524288 &&
    cl % 4 = 0 && d % 64 = 0 && (dl ≠ 0 || d = 0) && dl ≤ mem * 2 ^ 24 && en % 4 = 0 && en < cl && 1 ≤ need &&
    need ≤ 16 && cl ≤ need * 65536 && zeros b 29 3 && zeros b 44 20 && (!isStage || le b 40 4 = 0) &&
    co + cl ≤ b.length && (dl = 0 || (d + dl ≤ b.length && (d + dl ≤ co || co + cl ≤ d)))

/-- The checks of a SCAN specification's fields in order: status of the first that fails (R212, R349, R351, R354). -/
def specFails (s : State) (f hold : Nat) (p : Spec) : Option Nat :=
  let b := p.bytes
  let fr := p.framing
  let zs := (List.range p.zcount).map p.zone
  let headOk := le b 0 4 = 0x4E43534A && byteAt b 4 = 1 && fr ≤ 2 && (fr = 2 || byteAt b 6 = 0) && byteAt b 7 ≤ 8 &&
    (if fr = 0 then 1 ≤ le b 8 2 && le b 8 2 ≤ 4096 else le b 8 2 = 0) && byteAt b 10 < 8 && byteAt b 11 < 128 &&
    zeros b 13 3 && zeros b 48 16 &&
    ((List.range 4).all fun i => le b (32 + 4 * i) 2 < 4096 && le b (34 + 4 * i) 2 ≤ 4096)
  let lenOk := p.termsEnd ≤ b.length
  let padOk := zeros b (64 + 4 * p.zcount) (p.termAt 0 - (64 + 4 * p.zcount))
  let stage := if p.stageOff = 0 then
      p.stageLen = 0 && p.stageMem = 0 && le b 30 2 = 0 && zeros b p.termsEnd (b.length - p.termsEnd)
    else
      p.stageOff % 64 = 0 && p.termsEnd ≤ p.stageOff && 64 ≤ p.stageLen && p.stageLen % 64 = 0 &&
      p.stageOff + p.stageLen ≤ b.length && 1 ≤ p.stageMem && p.stageMem ≤ 16384 && 1 ≤ p.stageCores &&
      p.stageCores ≤ 512 && le b 30 2 < 1024 && zeros b p.termsEnd (p.stageOff - p.termsEnd) &&
      pkgOk p.stage p.stageMem true
  let terms := (List.range p.nterms).all fun k => termOk b (p.termAt k)
  if !headOk || !lenOk || !padOk || !stage || !terms || p.sieveTerms.length > 2 || !(decide zs.Nodup) then
    some INVALID_FIELD
  else if !p.sieveTerms.isEmpty && !s.ownsRows f then some NOT_PERMITTED
  else if zs.any fun z => z ≥ ((look s.holds hold).map fun h => match h.old with
    | some (_, q, _, _) => min q h.quota
    | none => h.quota).getD 0 then some OUT_OF_HOLDING
  else none

end Sys2Proof.Machine
end

