-- ==== Sys2Proof/Machine/Checks.lean ====
section
/-! DEFINITION. The checks of a submission entry in the order of R170: each step is a list of (fails, status, FIELD) and the
first that fails is reported. FIELD follows R602. -/

namespace Sys2Proof.Machine

/-- A check: whether it fails, the status it gives and FIELD of the error log. -/
abbrev Chk := Bool × Nat × Nat

/-- The first check that fails. -/
def firstFail (l : List Chk) : Option (Nat × Nat) := (l.find? (·.1)).map (·.2)

/-- An INVALID_FIELD check at a byte offset. -/
def inv (bad : Bool) (field : Nat) : Chk := (bad, INVALID_FIELD, field)

/-- Whether bytes `k` to 31 of an entry are not all zero. -/
def tailSet (e : Bytes) (k : Nat) : Bool := !zeros e k (32 - k)

/-! ### Opcodes (Table 7.1) -/

/-- Opcodes the module accepts. -/
def opcodes : List Nat :=
  [0x01, 0x02, 0x03, 0x08, 0x09, 0x0A, 0x0B, 0x0C, 0x10, 0x11, 0x12, 0x18, 0x19, 0x1A, 0x20, 0x21, 0x28, 0x29, 0x2A, 0x2B,
   0x30, 0x31, 0x32, 0x33, 0x38, 0x40, 0x41, 0x42, 0x43, 0x48, 0x49, 0x4A, 0x4B, 0x4C, 0x4D, 0x50, 0x51, 0x52, 0x53, 0x58,
   0x59, 0x5A, 0x5B, 0x5C, 0x5D]

/-- Opcodes only tenants may issue. -/
def tenantOp (op : Nat) : Bool := op ≤ 0x12 || op = 0x20 || op = 0x21

/-- Opcodes only managers may issue. -/
def managerOp (op : Nat) : Bool := 0x48 ≤ op && op ≤ 0x5C

/-- Opcodes of ring 0. -/
def ring0Op (op : Nat) : Bool := op ≥ 0x40

/-- Opcodes whose Buffer column is "—". -/
def noBuffer (op : Nat) : Bool :=
  (0x08 ≤ op && op ≤ 0x0B) || op = 0x12 || (0x18 ≤ op && op ≤ 0x1A) || (0x30 ≤ op && op ≤ 0x33) ||
    (0x41 ≤ op && op ≤ 0x43) || (0x49 ≤ op && op ≤ 0x4C) || (0x50 ≤ op && op ≤ 0x58) || op = 0x5A || op = 0x5B

/-- Opcodes that read a parameter block. -/
def hasBlock (op : Nat) : Bool :=
  [0x20, 0x21, 0x28, 0x29, 0x2A, 0x40, 0x48, 0x4D, 0x5C, 0x5D].contains op

/-- Sieve commands. -/
def sieveOp (op : Nat) : Bool := 0x28 ≤ op && op ≤ 0x2B

/-- Commands that name a zone or random-area command of a holding in bytes 4 to 5. -/
def holdOp (op : Nat) : Bool := op ≤ 0x12

/-- State-changing commands for FLUSH (R155, R166). -/
def Cmd.changes (c : Cmd) : Bool :=
  let op := c.opcode
  isZoneWrite op || zoneMgmt op || op = 0x11 || op = 0x12 || op = 0x19 || op = 0x1A || op = 0x28 || op = 0x29 ||
    (0x30 ≤ op && op ≤ 0x32) || op ≥ 0x40 ||
    (op = 0x20 && bit (byteAt c.entry 7) 0) || (op = 0x21 && !bit (byteAt c.entry 5) 7)

/-! ### Step 2: reserved fields, ranges, tag -/

/-- Whether a number names no holding (R100). -/
def State.noHold (s : State) (h : Nat) : Bool := (look s.holds h).isNone

/-- Whether a function is ABSENT (R91, Table 4.2). -/
def State.noFn (s : State) (f : Nat) : Bool := (s.fn f).state = .absent

/-- Whether a function can own a holding (R223): a tenant that is not ABSENT. -/
def State.mayOwn (s : State) (f : Nat) : Bool := !isManager f && (s.fn f).state ≠ .absent

/-- Fields of zone and random-area commands (Tables 7.2 and 7.3). -/
def zoneFields (op : Nat) (e : Bytes) : List Chk :=
  let off := op = 0x01 || op = 0x02
  let cnt := op = 0x01 || op = 0x02 || op = 0x03 || op = 0x0C || (0x10 ≤ op && op ≤ 0x12)
  let hint := op = 0x02 || op = 0x03 || op = 0x08 || op = 0x11
  let comp := op = 0x03
  [inv (le e 4 2 ≥ 4096) 4, inv (if comp then byteAt e 6 ≥ 2 else byteAt e 6 ≠ 0) 6, inv (byteAt e 7 ≠ 0) 7,
   inv (0x10 ≤ op && (le e 8 4 ≥ 67108864 || le e 8 4 + le e 16 2 > 67108864)) 8, inv (if off then le e 12 4 ≥ 2 ^ 20 else le e 12 4 ≠ 0) 12,
   inv (!cnt && le e 16 2 ≠ 0) 16, inv (if hint then byteAt e 18 ≥ 16 else byteAt e 18 ≠ 0) 18,
   inv (!hint && byteAt e 19 ≠ 0) 19, inv (tailSet e 20) 20]

/-- Fields of SCAN (Table 7.7). -/
def scanFields (e : Bytes) : List Chk :=
  let outz := bit (byteAt e 7) 0
  [inv (le e 4 2 ≥ 4096) 4, inv (byteAt e 7 ≥ 2) 7, inv (!outz && le e 8 4 ≠ 0) 8,
   inv (if outz then le e 12 2 ≥ 4096 else le e 12 2 ≠ 0) 12, inv (byteAt e 14 ≥ 8) 14, inv (byteAt e 15 ≠ 0) 15,
   inv (le e 16 4 < 64 || le e 16 4 > 65536 || le e 16 4 % 64 ≠ 0) 16,
   inv (if outz then le e 20 4 ≠ 0 else le e 20 4 = 0) 20, inv (tailSet e 24) 24]

/-- Fields of RUN (Table 7.8). -/
def runFields (e : Bytes) : List Chk :=
  let nohold := bit (byteAt e 5) 7
  [inv (bits (byteAt e 5) 6 4 ≠ 0 || (nohold && bits (le e 4 2) 11 0 ≠ 0)) 4, inv (le e 6 2 ≠ 0) 6,
   inv (le e 8 2 = 0 || le e 8 2 > 16384) 8, inv (le e 10 2 = 0 || le e 10 2 > 512) 10, inv (byteAt e 12 ≥ 8) 12,
   inv (!zeros e 13 3) 13, inv (le e 16 4 < 64 || le e 16 4 > 16777216 || le e 16 4 % 64 ≠ 0) 16, inv (tailSet e 24) 24]

/-- Fields of the holding commands (R223, Table 7.13): 0x50 CREATE, 0x51 SET, 0x52 ASSIGN, 0x53 DELETE. -/
def holdFields (op : Nat) (e : Bytes) : List Chk :=
  let own := op = 0x50 || op = 0x52
  let vals := op = 0x50 || op = 0x51
  [inv (le e 4 2 ≥ 4096) 4, inv (if own then le e 6 2 ≥ 4096 else le e 6 2 ≠ 0) 6,
   inv (if vals then le e 8 4 > 294912 else le e 8 4 ≠ 0) 8, inv (if vals then le e 12 2 > 4096 else le e 12 2 ≠ 0) 12,
   inv (if vals then le e 14 2 > 16384 else le e 14 2 ≠ 0) 14, inv (if vals then byteAt e 16 ≥ 2 else byteAt e 16 ≠ 0) 16,
   inv (tailSet e 17) 17]

/-- Fields of every command, by opcode (chapter 7), ROW = ROW2 of SIEVE WRITE PAIR among them (R215; notes/assumptions/96.md). -/
def fieldChecks (s : State) (r : Ref) (e : Bytes) : List Chk :=
  let op := byteAt e 0
  if op ≤ 0x12 then zoneFields op e
  else match op with
  | 0x18 => [inv (tailSet e 4) 4]
  | 0x19 => [inv (le e 4 2 ≥ 1024 || (s.sq r.fn (le e 4 2)).isNone) 4, inv (tailSet e 8) 8]
  | 0x1A => [inv (le e 4 2 ≥ 1024 || (s.sq r.fn (le e 4 2)).isNone) 4, inv (byteAt e 6 ≥ 2) 6, inv (tailSet e 7) 7]
  | 0x20 => scanFields e
  | 0x21 => runFields e
  | 0x28 => [inv (tailSet e 8) 8]
  | 0x29 => [inv (le e 4 4 = le e 8 4) 8, inv (tailSet e 12) 12]
  | 0x2A => [inv (byteAt e 4 ≥ 2) 4, inv (tailSet e 5) 5]
  | 0x2B => [inv (le e 4 4 ≠ 0) 4, inv (tailSet e 12) 12]
  | 0x30 => [inv (le e 4 2 ≥ 1024) 4, inv (le e 6 2 = 0) 6, inv (tailSet e 8) 8]
  | 0x31 | 0x32 | 0x33 => [inv (le e 4 2 ≥ 1024) 4, inv (le e 6 2 ≠ 0) 6, inv (tailSet e 8) 8]
  | 0x38 =>
    [inv (byteAt e 4 = 0 || byteAt e 4 > 4) 4, inv (byteAt e 5 ≠ 0) 5,
     inv (if byteAt e 4 = 1 then le e 6 2 ≥ 1024 || (s.sq r.fn (le e 6 2)).isNone else le e 6 2 ≠ 0) 6,
     inv (le e 8 4 % 64 ≠ 0) 8, inv (tailSet e 16) 16]
  | 0x40 => [inv (tailSet e 4) 4]
  | 0x41 =>
    [inv (le e 4 2 ≥ 1024 || (byteAt e 6 = 0 && (s.sq r.fn (le e 4 2)).isNone) ||
       (byteAt e 6 = 1 && (s.cq r.fn (le e 4 2)).isNone)) 4,
     inv (byteAt e 6 ≥ 2) 6, inv (tailSet e 7) 7]
  | 0x42 =>
    [inv (le e 4 2 ≥ 1024 || (s.cq r.fn (le e 4 2)).isNone) 4, inv (byteAt e 6 ≥ 2) 6, inv (le e 8 2 = 0) 8,
     inv (tailSet e 10) 10]
  | 0x43 => [inv (le e 4 4 ≠ 0) 4, inv (tailSet e 12) 12]
  | 0x48 | 0x49 | 0x4A | 0x4B | 0x4C | 0x4D => [inv (le e 4 2 ≥ 4096) 4, inv (tailSet e 6) 6]
  | 0x50 | 0x51 | 0x52 | 0x53 => holdFields op e
  | 0x58 => [inv (le e 4 4 ≠ 0) 4, inv (tailSet e 20) 20]
  | 0x59 =>
    [inv (le e 4 4 ≠ 0) 4, inv (le e 8 4 % 4096 ≠ 0 || le e 8 4 + le e 12 4 > 16777216) 8,
     inv (le e 12 4 < 4096 || le e 12 4 > 1048576 || le e 12 4 % 4096 ≠ 0) 12, inv (tailSet e 16) 16]
  | 0x5C | 0x5D => [inv (le e 4 4 ≠ 0) 4, inv (tailSet e 12) 12]
  | _ => [inv (tailSet e 4) 4]

/-- Whether the chained-list descriptor breaks R141. -/
def listBad (t : Triple) : Bool :=
  t.addr % 16 ≠ 0 || t.len % 16 ≠ 0 || t.len < 16 || t.len > 65536 || t.addr + t.len > 2 ^ 64

/-- The buffer triples of an entry (R140, R141, R192). -/
def bufferChecks (c : Cmd) : List Chk :=
  if noBuffer c.opcode then [inv (!c.buf0.unused) 32, inv (!c.buf1.unused) 48]
  else [inv (!c.buf0.unused && !c.buf0.ok) 32,
    inv (if c.chained then listBad c.buf1 else !c.buf1.unused && !c.buf1.ok) 48]

/-- Step 2 of R170, in order of byte offset. -/
def step2 (s : State) (r : Ref) (c : Cmd) : List Chk :=
  [inv (byteAt c.entry 1 ≥ 4 || (c.chained && noBuffer c.opcode)) 1,
   inv (decide (c.tag ≥ 65536)) 2] ++ fieldChecks s r c.entry ++ bufferChecks c

/-! ### Steps 3 to 11 -/

/-- Step 3: counts and lengths (R195). -/
def step3 (c : Cmd) : List Chk :=
  let op := c.opcode
  let units := op = 0x01 || op = 0x02 || op = 0x03 || op = 0x0C || (0x10 ≤ op && op ≤ 0x12)
  [(units && (c.cnt = 0 || c.cnt > 4096), INVALID_LENGTH, 16),
   (op = 0x20 && (byteAt c.entry 6 = 0 || byteAt c.entry 6 > 64), INVALID_LENGTH, 6),
   (op = 0x38 && (le c.entry 12 4 = 0 || le c.entry 12 4 > 1048576), INVALID_LENGTH, 12)]

/-- SEM_ASSIGN[n] (R111). -/
def State.semAssign (s : State) (n : Nat) : Nat :=
  if n = 0 then 0 else (look s.sems.assign n).getD (if n < 16 then 0 else 0xFFFF)

/-- Whether a function is permitted an operation on a semaphore (R111, Table 4.1): `any` for READ and BREAK. -/
def State.semPermitted (s : State) (f n : Nat) (any : Bool) : Bool :=
  let a := s.semAssign n
  if isManager f then any || a < 2 else a = f

/-- The holding an opcode names, with the entry's field (0xFFFFFFFF for none). -/
def Cmd.holding? (c : Cmd) : Option Nat :=
  if holdOp c.opcode || c.opcode = 0x20 then some c.f12
  else if c.opcode = 0x21 && !bit (byteAt c.entry 5) 7 then some c.f12
  else none

/-- What an entry names must exist, or be absent where it is to be created (R91, R100, R222, R223, Tables 4.2 and 7.13): judged at step
4, once the issuer has the right to the opcode (R93; notes/assumptions/84.md). -/
def existChecks (s : State) (c : Cmd) : List Chk :=
  let op := c.opcode
  let e := c.entry
  [inv ((match c.holding? with
      | some h => s.noHold h
      | none => false) || (op = 0x48 && !s.noFn c.f12) || (0x49 ≤ op && op ≤ 0x4D && s.noFn c.f12) ||
      (op = 0x50 && !s.noHold c.f12) || (0x51 ≤ op && op ≤ 0x53 && s.noHold c.f12)) 4,
   inv ((op = 0x50 || op = 0x52) && !s.mayOwn (le e 6 2)) 6, inv (op = 0x20 && bit (byteAt e 7) 0 && s.noHold (le e 12 2)) 12]

/-- Step 4: rights (Tables 4.1, 4.2 and 7.1, R192, R214, R543). -/
def step4 (s : State) (r : Ref) (c : Cmd) : List Chk :=
  let op := c.opcode
  let row := le c.entry 4 4
  let row2 := le c.entry 8 4
  let sem := le c.entry 4 2
  [((tenantOp op && isManager r.fn) || (managerOp op && !isManager r.fn), NOT_PERMITTED, 0),
   (ring0Op op && r.sq ≠ 0, NOT_PERMITTED, 0)] ++ existChecks s c ++ [
   (sieveOp op && !s.ownsRows r.fn, NOT_PERMITTED, 0),
   ((op = 0x28 || op = 0x29) && (s.physRow r.fn row).isNone, INVALID_FIELD, 4),
   (op = 0x29 && (s.physRow r.fn row2).isNone, INVALID_FIELD, 8),
   (0x30 ≤ op && op ≤ 0x33 && !s.semPermitted r.fn sem (op = 0x32 || op = 0x33) && sem < 1024, NOT_PERMITTED, 4),
   (op = 0x38 && byteAt c.entry 4 = 2 && !isManager r.fn, NOT_PERMITTED, 4),
   (op = 0x41 && le c.entry 4 2 = 0, NOT_PERMITTED, 4),
   (op = 0x2B && !((s.fn r.fn).cursors.any fun x => x.value = le c.entry 8 4), INVALID_FIELD, 8),
   ((op = 0x48 || op = 0x50) && s.life.state = .return_, NOT_PERMITTED, 0),
   ((op = 0x49 || op = 0x4B) && c.f12 = r.fn, NOT_PERMITTED, 4),
   ((op = 0x4C || op = 0x4D) && isManager c.f12, NOT_PERMITTED, 4)] ++
  (match c.holding? with
   | none => []
   | some h => [(decide (((look s.holds h).map (·.owner)).getD 0 ≠ r.fn), NOT_PERMITTED, 4)]) ++
  (if op = 0x20 && bit (byteAt c.entry 7) 0 then
    let h := le c.entry 12 2
    [(decide (((look s.holds h).map (·.owner)).getD 0 ≠ r.fn), NOT_PERMITTED, 12)]
   else [])

/-- The output zone of a SCAN entry. -/
def Cmd.outKey (c : Cmd) : Option Nat :=
  if c.opcode = 0x20 && bit (byteAt c.entry 7) 0 then some (zoneNo (le c.entry 12 2) (le c.entry 8 4)) else none

/-- The zone quota in force: a grown value waits for the boundary (R105). -/
def Holding.quotaNow (h : Holding) : Nat := match h.old with
  | some (_, q, _, _) => min q h.quota
  | none => h.quota

/-- The open-zone limit in force (R105). -/
def Holding.openNow (h : Holding) : Nat := match h.old with
  | some (_, _, n, _) => min n h.openLimit
  | none => h.openLimit

/-- The random-area allowance in force (R105). -/
def Holding.raNow (h : Holding) : Nat := match h.old with
  | some (_, _, _, a) => min a h.raAllow
  | none => h.raAllow

/-- The policy in force (R102). -/
def Holding.policyNow (h : Holding) : Bool := match h.old with
  | some (p, _, _, _) => p
  | none => h.policy

/-- The zone quota of a holding, in force. -/
def State.quota (s : State) (h : Nat) : Nat := ((look s.holds h).map Holding.quotaNow).getD 0

/-- Step 5: holding and quota (R102, R207). -/
def step5 (s : State) (c : Cmd) : List Chk :=
  [(c.opcode ≤ 0x0C && c.zone ≥ s.quota c.f12, OUT_OF_HOLDING, 8),
   (match c.outKey with
    | some _ => decide (le c.entry 8 4 ≥ s.quota (le c.entry 12 2))
    | none => false, OUT_OF_HOLDING, 8)]

/-- Step 6: fence (R206). -/
def step6 (s : State) (c : Cmd) : List Chk :=
  [(zoneOrdered c.opcode && (s.zone c.zkey).fence.isSome, ZONE_FENCED, 8),
   (match c.outKey with
    | some z => (s.zone z).fence.isSome
    | none => false, ZONE_FENCED, 8)]

/-- Whether a zone's state forbids a command (Table 7.4). -/
def stateForbids (op : Nat) (st : ZState) : Bool :=
  if isZoneWrite op then st ≠ .open_
  else match op with
  | 0x08 => st = .full
  | 0x09 => st = .empty || st = .full
  | 0x0A => st = .empty
  | _ => false

/-- Step 7: zone state (Table 7.4). -/
def step7 (s : State) (c : Cmd) : List Chk :=
  [(zoneOrdered c.opcode && stateForbids c.opcode (s.zone c.zkey).st, ZONE_STATE_INVALID, 8),
   (match c.outKey with
    | some z => decide ((s.zone z).st ≠ .open_)
    | none => false, ZONE_STATE_INVALID, 8)]

/-- Whether the next pointer of a zone in a ring is undetermined: a compressed append of the ring past its checks (R202),
or a RUNNING job of the ring with output to the zone (R364). -/
def State.nextUnknown (s : State) (r : Ref) (z pos : Nat) : Bool :=
  (match s.sq r.fn r.sq with
   | some q => (earlier q.cmds pos).any fun d => d.opcode = 0x03 && d.compress && d.zkey = z && d.checkedYet
   | none => false) ||
  s.jobs.any fun j => j.2.outZone = some z && j.2.st = .running && j.2.r.fn = r.fn && j.2.r.sq = r.sq

/-- Step 8: zone end (R197). -/
def step8 (s : State) (r : Ref) (c : Cmd) : List Chk :=
  let op := c.opcode
  [((op = 0x01 || op = 0x02) && c.offset + c.cnt > 2 ^ 20, ZONE_FULL, 16),
   (op = 0x03 && !s.nextUnknown r c.zkey c.pos && s.nextPtr r.fn r.sq c.zkey c.pos + c.cnt > 2 ^ 20, ZONE_FULL, 16)]

/-- Step 9: write pointer (R199, R202, R364). -/
def step9 (s : State) (r : Ref) (c : Cmd) : List Chk :=
  [(c.opcode = 0x02 && (s.nextUnknown r c.zkey c.pos || s.nextPtr r.fn r.sq c.zkey c.pos ≠ c.offset),
    WRITE_POINTER_MISMATCH, 12)]

/-- OPEN zones of a holding (R204). -/
def State.openCount (s : State) (h : Nat) : Nat := count (fun z x => zoneHold z = h && x.st = .open_) s.zones

/-- Written random-area units of a holding (R209). -/
def State.raCount (s : State) (h : Nat) : Nat := count (fun k _ => k / 2 ^ 26 = h) s.rand

/-- Units of a RANDOM WRITE not written before (R209). -/
def State.raNew (s : State) (c : Cmd) : Nat :=
  ((List.range c.cnt).filter fun i => (look s.rand (randNo c.f12 (c.zone + i))).isNone).length

/-- Step 10: open-zone limit and random-area allowance (R205, R209). -/
def step10 (s : State) (c : Cmd) : List Chk :=
  let h := look s.holds c.f12
  let st := (s.zone c.zkey).st
  [(c.opcode = 0x08 && (st = .empty || st = .closed) && s.openCount c.f12 ≥ (h.map Holding.openNow).getD 0,
    QUOTA_EXCEEDED, 0xFFFF),
   (c.opcode = 0x11 && s.raCount c.f12 + s.raNew c > (h.map Holding.raNow).getD 0 * 4096, QUOTA_EXCEEDED, 0xFFFF)]

/-- Free plain-region memory of a function's allotment, in 16 MiB (R337). -/
def State.memFree (s : State) (f : Nat) : Nat :=
  min (s.fn f).eff.allot (s.fn f).res.allot - s.jobs.foldl (fun n j => if j.2.r.fn = f && j.2.st ≠ .queued then n + j.2.mem else n) 0

/-- Whether no ward has a free slot and none is held for a SCAN (R242). -/
def State.noSlot (s : State) : Bool :=
  ((List.range 4).all fun w => s.freeSlots w = 0) && !s.media.slots.any fun e => match e.2 with
    | .held _ _ => true
    | _ => false

/-- Whether no signature index remains (R554). -/
def Life.exhausted (l : Life) : Bool := l.attNext ≥ 2 ^ 30 && l.attLeft = 0

/-- Length of an attestation report (R555). -/
def State.reportLen (s : State) : Nat := 168 + s.life.chainLen + 5396

/-- Step 11: module capacity (R213, R242, R251, R337, R554). -/
def step11 (s : State) (r : Ref) (c : Cmd) : List Chk :=
  let op := c.opcode
  [(op = 0x08 && (s.zone c.zkey).st = .empty && s.noSlot, CAPACITY_EXHAUSTED, 0xFFFF),
   (op = 0x11 && s.raNew c > 0 && s.extentLeft < 16 * 2 ^ 20, CAPACITY_EXHAUSTED, 0xFFFF),
   (op = 0x20 && 2 > s.memFree r.fn, CAPACITY_EXHAUSTED, 0xFFFF),
   (op = 0x21 && le c.entry 8 2 > s.memFree r.fn, CAPACITY_EXHAUSTED, 0xFFFF),
   (op = 0x5D && s.life.exhausted, CAPACITY_EXHAUSTED, 0xFFFF)]

/-- Steps 1 to 11 of R170 on a submission entry. -/
def entryFails (s : State) (r : Ref) (c : Cmd) : Option (Nat × Nat) :=
  if !opcodes.contains c.opcode then some (INVALID_OPCODE, 0)
  else firstFail (step2 s r c ++ step3 c ++ step4 s r c ++ step5 s c ++ step6 s c ++ step7 s c ++ step8 s r c ++
    step9 s r c ++ step10 s c ++ step11 s r c)

/-- Step 12: buffer length, once the chained list is known (R141, R142, R193); a report must fit OUT_LEN (R555). -/
def bufferFails (s : State) (c : Cmd) : Option (Nat × Nat) :=
  if noBuffer c.opcode then none
  else if c.chained && c.list.any fun t => !t.ok then some (INVALID_FIELD, 0xFFFF)
  else if c.bufLen < needLen c || (c.opcode = 0x5D && le c.entry 8 4 < s.reportLen) then some (BUFFER_TOO_SHORT, 0xFFFF)
  else none

end Sys2Proof.Machine
end

