-- ==== Sys2Proof/Machine/Care.lean ====
section
/-! DEFINITION. Media care (chapter 10): checkpoints, the random area, relocation, patrol and retention scans, parking,
the staging drain. -/

namespace Sys2Proof.Machine

/-! ### Parking -/

/-- The key under which the parking of a random-area stream stands (R531); a zone's is its number. -/
def streamKey (st : Nat) : Nat := 2 ^ 40 + st

/-- Parking places of a ward in use (R603): of zones whose copy is parked, of parkings not complete, and of parked streams. -/
def State.parkedIn (s : State) (w : Nat) : List Nat :=
  ((s.zones.filterMap fun e => match e.2.park with
    | .parked n => some n
    | _ => none) ++ s.media.parking.map (·.2)).filter fun n => n / 12288 = w

/-- The next parking place of a ward (R235): ward * 12288 + part * 512 + stripe row. Rows of a parking slot are taken in order, and a
slot is entered erased, with no copy in use. -/
def State.parkPlace (s : State) (w : Nat) : Option Nat :=
  let r := (s.ward w).parkRow
  if r % 512 ≠ 0 then some (w * 12288 + r)
  else ((List.range 24).map fun i => (r / 512 + i) % 24).findSome? fun i =>
    let n := parkSlot w i
    if s.slotClean w (slotRow n) (slotIdx n) && !(s.parkedIn w).any fun p => p % 12288 / 512 = i then
      some (w * 12288 + i * 512)
    else none

/-- The slot and the stripe row of a parking place. -/
def parkAt (p : Nat) : Nat × Nat := (parkSlot (p / 12288) (p % 12288 / 512), p % 512)

/-- The units of a partial state as parking writes them (R235, KIND 0x3): those of the partial program unit at `o` of slot `n`, then from
the next data share on the four units of running parity of each of its 64 positions. -/
def State.parkUnits (s : State) (n o : Nat) : List StUnit :=
  let as_ := fun (u : StUnit) => { u with kind := Kind.parked }
  let part := (List.range 64).map fun i => match s.storedAt n (o / 64 * 64 + i) with
    | some u => if i < o % 64 then as_ u else padUnit 0 i 0
    | none => padUnit 0 i 0
  part ++ (List.range 256).map fun i =>
    ⟨0, 0, 0, .parked, 0, false, 0, 64 + i, 0, slice (lookD s.media.parity [] (parityNo n (o / 2048) (i % 64) (i / 64))) 0 4096⟩

/-- Plans the parking of a partial state of ward `w` under a key, which stands at `o` of slot `m` (R235): its program unit and the running
parity are written as data shares with their parity, as class 3. With no place free it waits. -/
def State.park (s : State) (w key m o : Nat) : State :=
  if (look s.media.parking key).isSome then s
  else match s.parkPlace w with
    | none => s
    | some p =>
      let (n, r) := parkAt p
      ((s.writeRow n r (s.parkUnits m o)).setMedia fun m => { m with
        work := m.work ++ s.rowPrograms n r 5 3 (.park key), parking := put m.parking key p }).setWard w fun x =>
          { x with parkRow := (p % 12288 + 1) % 12288 }

/-- A parked copy is released to the gleaner (R236): its slot is erased once no copy in it is in use and the ward has gone on. -/
def State.parkFree (s : State) (p : Nat) : State :=
  let w := p / 12288
  let i := p % 12288 / 512
  if (s.ward w).parkRow / 512 = i && (s.ward w).parkRow % 512 ≠ 0 then s
  else if (s.parkedIn w).any fun q => q % 12288 / 512 = i then s
  else s.queueErase (parkSlot w i)

/-- A parking that has not completed is cancelled, or the parked copy of a stream released (R236). -/
def State.unparkKey (s : State) (key : Nat) : State :=
  match look s.media.parking key with
  | none => s
  | some p =>
    (s.setMedia fun m => { m with
      work := m.work.filter fun w => decide (w.why ≠ .park key), parking := del m.parking key }).parkFree p

/-- The zone's partial state stands in staging alone: its parking is cancelled, or its parked copy released (R236). -/
def State.unparkZone (s : State) (k : Nat) : State :=
  let p := (s.zone k).park
  let s := (s.setZone k fun z => { z with park := .none }).unparkKey k
  match p with
  | .parked n => s.parkFree n
  | _ => s

/-- Parkings that wait for a place, or for READY (R235, R603), are planned. -/
def State.replanParks (s : State) : State :=
  (s.zones.filter fun e => e.2.st = .closed && e.2.park = .staging).foldl (fun s e => match e.2.slot with
    | some n => s.park (slotWard n) e.1 n e.2.wp
    | none => s) s

/-! ### Checkpoints -/

/-- What a checkpoint saves of the module's state (R285). -/
def State.toSave (s : State) : Saved :=
  ⟨s.maps, s.units, s.media.cells, s.media.parity, s.media.raParked, s.media.parking, s.ledger⟩

/-- Stripe rows of a metadata slot that bytes take (R285): 32 data shares of 64 units each. -/
def metaRows (us : List StUnit) : Nat := (us.length + 2047) / 2048

/-- A checkpoint begins (R285): in each ward the changes recorded since the previous one are written to the next stripe rows of the
metadata slots, class 5, or class 3 where the journal asked for it (R315). A metadata slot is erased before its turn comes again. -/
def State.ckptBegin (s : State) (cls : Nat) : State :=
  let s := s.noteMaps
  let us := moduleUnits (s.media.recs.flatMap JRec.bytes) s.ledger
  let s := s.setMedia fun m => { m with
    ckpt := some s.bell.now, begun := m.begun + 1, saving := some (s.toSave, m.journal, m.recs.length) }
  (List.range 4).foldl (fun s w => (List.range (metaRows us)).foldl (fun s i =>
    let r := (s.ward w).metaRow
    let n := metaSlot w (r / 512)
    let mine := (us.drop (2048 * i)).take 2048
    let s := s.writeRow n (r % 512) mine
    let s := s.setMedia fun m => { m with work := m.work ++ s.rowPrograms n (r % 512) ((mine.length + 63) / 64) cls .ckpt }
    let s := if r % 512 = 0 then s.queueErase (metaSlot w ((r / 512 + 1) % 64)) else s
    s.setWard w fun x => { x with metaRow := (r + 1) % 32768 }) s) s

/-- CHECKPOINT_BEGIN (R285, R315): at a bell that is a multiple of 16,384, or when the journal has reached 32 MiB; one
that falls due while another runs is skipped. -/
def execCheckpointBegin (s : State) : Res' :=
  let full := decide (s.media.journal ≥ 33554432)
  if !s.boot.ready || s.pwr.loss.isSome || s.media.ckpt.isSome || !(s.bell.now % 16384 = 0 || full) then go s
  else go (s.ckptBegin (if full then 3 else 5))

/-- The further checkpoint of R315: the journal has reached 32 MiB. -/
def State.ckptFull (s : State) : State :=
  if s.boot.ready && s.media.ckpt.isNone && s.media.journal ≥ 33554432 then s.ckptBegin 3 else s

/-- Erase work of a block group, once the checkpoint of R286 step 4 has completed. -/
def eraseWork (d : DieId) (k : Nat) (why : Purpose) : Work := ⟨6, d, .erase, k, 0, 0, why⟩

/-- Every dump is released (R325). -/
def State.releaseDumps (s : State) : State :=
  { s with pwr := { s.pwr with dumps := s.pwr.dumps.map fun d => { d with released := true } } }

/-- CHECKPOINT_COMPLETE (R240, R285, R286): GLN_CKPT_BELL takes the bell the checkpoint began; what it saved replaces the checkpoint before,
and the journal keeps what was recorded since it began; releasing slots become free and queued blocks may be erased if they were released
before it began. A restored dump is released (R325). -/
def State.ckptComplete (s : State) (b : Nat) : State :=
  let n := s.media.begun
  let ripe := s.media.erasq.filter fun e => e.2.2 < n
  let old := s.media.oldBlocks.filter fun e => e.2.2 < n
  let freed := s.media.slots.filter fun e => match e.2 with
    | .releasing g => decide (g < n)
    | _ => false
  let (saved, bytes, recs) := s.media.saving.getD (s.media.saved, 0, 0)
  let s := freed.foldl (fun s e => s.setSlot e.1 .free) s
  let s := (s.setMedia fun m => { m with
    ckpt := none, ckptDone := n, ckptBell := b, journal := m.journal - bytes, recs := m.recs.drop recs, saved := saved, saving := none
    erasq := m.erasq.filter fun e => !(e.2.2 < n)
    oldBlocks := m.oldBlocks.filter fun e => !(e.2.2 < n)
    work := m.work ++ (ripe.map fun e => eraseWork e.1 e.2.1 .internal) ++
      old.map fun e => eraseWork e.1 3072 (.old e.2.1) }).releaseDumps.replanParks
  (List.range 4).foldl State.prepNext s

/-- The entry of Q3 goes on (R531): once every partial state is parked, a checkpoint runs. -/
def State.entryStep (s : State) : State :=
  if s.pwr.entering && s.pwr.entryCkpt.isNone && s.media.ckpt.isNone && s.allParked then
    let s := { s with pwr := { s.pwr with entryCkpt := some (s.media.begun + 1) } }
    s.ckptBegin 5
  else s

/-- CHECKPOINT_COMPLETE (R285): the running checkpoint's rows are programmed, and an entry into Q3 that waited goes on. -/
def execCheckpointComplete (s : State) : Res' :=
  match s.media.ckpt with
  | some b => if s.working .ckpt then go s else go (s.ckptComplete b).entryStep
  | none => go s

/-! ### The random area -/

/-- Random-area slots of a ward, rising (R601, R291). -/
def State.randSlots (s : State) (w : Nat) : List Nat :=
  ((List.range 32).map fun i => let n := 88 + i
    slotNo w (n % 26) (3070 - n / 26)).filter (fun n => s.slotUse n = .random) ++
  (s.media.slots.filter fun e => decide (e.2 = .random ∧ slotWard e.1 = w)).map (·.1)

/-- Free random-area slots of a ward (R289): no stream fills them and they hold no closed data. -/
def State.freeRand (s : State) (w : Nat) : List Nat :=
  (s.randSlots w).filter fun n => (look s.media.raSlots n).isNone

/-- The stream of a RANDOM WRITE or of a copy (R250, R290): under SEGREGATE that of its LCLASS, class 0 joining class 8;
under GREEDY stream 0. -/
def raStream (segregate : Bool) (lclass : Nat) : Nat :=
  if segregate then (if lclass = 0 then 8 else lclass) else 0

/-- Units of random-area data per ward of a RANDOM WRITE (R248). -/
def wardUnits (c : Cmd) (w : Nat) : Nat := ((List.range c.cnt).filter fun i => (c.zone + i) / 2048 % 4 = w).length

/-- Stream of a RANDOM WRITE (R250). -/
def State.cmdStream (s : State) (c : Cmd) : Nat :=
  raStream (((look s.holds c.f12).map Holding.policyNow).getD false) c.lclass

/-- Units that RANDOM WRITEs under way, but for one, will bring to a stream of a ward. -/
def State.comingTo (s : State) (w st : Nat) (but : Ref) : Nat :=
  s.sqs.foldl (fun n e => (e.2.cmds.filter fun c => c.opcode = 0x11 && c.started && c.point ≠ .decided && s.cmdStream c = st &&
    decide (Ref.mk (e.1 / 1024) (e.1 % 1024) c.tag ≠ but)).foldl (fun n c => n + wardUnits c w) n) 0

/-- Whether a ward has room for `k` more units on a stream, beside all that RANDOM WRITEs under way will bring, in what its open slots
have left and its free slots (R288, R292). -/
def State.randRoom (s : State) (w : Nat) (but : Ref) (st k : Nat) : Bool :=
  let left := fun i => ((look s.media.streams (w * 16 + i)).map fun p => 2 ^ 20 - p.2).getD 0
  decide ((List.range 16).foldl (fun n i =>
    n + (s.comingTo w i but + (if i = st then k else 0) - left i + 2 ^ 20 - 1) / 2 ^ 20) 0 ≤ (s.freeRand w).length)

/-- No command. -/
def noRef : Ref := ⟨4096, 0, 0⟩

/-- One more than every slot's order of closing. -/
def State.nextClose (s : State) : Nat := s.media.raSlots.foldl (fun n e => max n e.2.closedAt) 0 + 1

/-- One unit more on a stream of a ward (R247, R289), unparked (R531): its place, and the program of its program unit when that completes.
A slot that is full is closed, and the stream takes the next free one at once. -/
def State.fillStream (s : State) (w st cls tenant : Nat) (u : StUnit) : Option (Nat × Nat × State) :=
  let open_ := match look s.media.streams (w * 16 + st) with
    | some p => some p
    | none => (s.freeRand w).head?.map fun n => (n, 0)
  match open_ with
  | none => none
  | some (n, off) =>
    let full := decide (off + 1 = 2 ^ 20)
    let back := if s.media.raParked.contains (w * 16 + st) then off % 64 else 0
    let s := { s with staged := s.staged + back }.setMedia fun m => { m with raParked := m.raParked.erase (w * 16 + st) }
    let s := { s.unparkKey (streamKey (w * 16 + st)) with staged := (s.unparkKey (streamKey (w * 16 + st))).staged + 1 }
    let rows := ((look s.media.raSlots n).map (·.hostRows)).getD []
    let rows := if cls = 4 && !rows.contains (off / 2048) then off / 2048 :: rows else rows
    let s := s.setMedia fun m => { m with
      cells := put m.cells (unitNo n off) u
      raSlots := put m.raSlots n ⟨if full then none else some st, off + 1, if full then s.nextClose else 0, true, rows⟩
      streams := if full then del m.streams (w * 16 + st) else put m.streams (w * 16 + st) (n, off + 1) }
    let s := if full && s.randRoom w noRef st 1 then match (s.freeRand w).head? with
        | some k => s.setMedia fun m => { m with
            raSlots := put m.raSlots k ⟨some st, 0, 0, true, []⟩, streams := put m.streams (w * 16 + st) (k, 0) }
        | none => s
      else s
    some (n, off, (s.queueUnits n off (off + 1) cls tenant).noteMaps)

/-- Places one random-area unit on a stream, and points the map at it (R247, R284). -/
def State.placeRand (s : State) (w st cls tenant key : Nat) (u : StUnit) : State :=
  match s.fillStream w st cls tenant u with
  | none => s
  | some (n, off, s) =>
    ({ s with rand := put s.rand key ⟨u, n, off⟩ }.setMedia fun m => { m with lostUnits := m.lostUnits.erase (lostRand key) }).journalRec 1

/-- A unit of a slot under reclaim has been read (R286 step 1, R290): it is copied, with its metadata (R283), to its stream under the
policy in force (R102), where there is room. One that was rewritten or trimmed since is not; one that cannot be recovered is lost. -/
def State.reclaimServed (s : State) (w n off : Nat) (b : Option Bytes) : State :=
  match s.rand.find? fun e => e.2.slot = n && e.2.off = off with
  | none => s
  | some (key, x) =>
    if !s.toCopy n off then s
    else match b with
      | none => s.loseUnits n off 1
      | some b =>
        let st := raStream (((look s.holds (key / 2 ^ 26)).map Holding.policyNow).getD false) x.unit.lclass
        if !s.randRoom w noRef st 1 then s
        else match s.fillStream w st 5 0 { x.unit with data := slice b 0 4096 } with
          | some (m, o, s) => s.setMedia fun y => { y with copies := y.copies ++ [⟨key, n, off, m, o⟩] }
          | none => s

/-- A slot that a die row's part of the retirement pool makes whole (R291): one block on each plane of each member, from slot `k` itself
where that block is in the pool. -/
def State.assemble (s : State) (w row k : Nat) : Option State :=
  (List.range 144).foldl (fun (a : Option State) j => a.bind fun s =>
    let d := (s.mem w row (j / 4)).die
    if s.inPool w row d (j % 4) k then
      some (s.setMedia fun m => { m with poolTaken := planeKey d (j % 4) k :: m.poolTaken })
    else (s.poolBlock d (j % 4)).map fun x => x.2.setBlock d (j % 4) k x.1) (some s)

/-- Growth and return of random-area slots (R291). Written units above 40 % of the extent add one slot from the retirement pool, of the
first die row that can give one; below 30 % of the extent without it, an added slot is reclaimed until it is empty. -/
def State.raFit (s : State) (w : Nat) : State :=
  let n := s.randUnits w
  let e := (s.ward w).extent
  if n * 100 > 40 * e * 2 ^ 20 && e < 160 then
    let pick := (List.range 26).findSome? fun row =>
      ((List.range 3071).map (3070 - ·)).findSome? fun k =>
        if s.slotUse (slotNo w row k) = .pool then (s.assemble w row k).map fun s => (slotNo w row k, s) else none
    match pick with
    | some (k, s) => ((s.setSlot k .random).setWard w fun x => { x with extent := x.extent + 1, shrink := none }).journalRec 0
    | none => s
  else if e > 32 && n * 100 < 30 * (e - 1) * 2 ^ 20 && (s.ward w).shrink.isNone then
    let added := (s.randSlots w).filter fun k => deliveredUse (slotRow k) (slotIdx k) ≠ .random && (match look s.media.raSlots k with
      | some x => x.stream.isNone
      | none => true)
    match added.head? with
    | some k => (s.setWard w fun x => { x with
        shrink := some k, victims := if x.victims.contains k then x.victims else x.victims ++ [k] }).freeVictims w
    | none => s
  else s

/-- Valid units of a random-area slot. -/
def State.validIn (s : State) (n : Nat) : Nat := count (fun _ u => u.slot = n) s.rand

/-- The victim of R290: the closed slot with the fewest valid units, then the one closed longest ago, then the lowest. -/
def State.raVictim (s : State) (w : Nat) : Option Nat :=
  let closed := s.media.raSlots.filter fun e => decide (slotWard e.1 = w) && e.2.stream.isNone && !(s.ward w).victims.contains e.1
  closed.foldl (fun (b : Option (Nat × RaSlot)) e => match b with
    | none => some e
    | some f =>
      let a := s.validIn e.1
      let c := s.validIn f.1
      if a < c || (a = c && e.2.closedAt < f.2.closedAt) then some e else some f) none |>.map (·.1)

/-- Whether reads of a slot under reclaim wait or run. -/
def State.reclaimReads (s : State) (n : Nat) : Bool :=
  (s.media.work.any fun w => w.slot = slotIdx n && (match w.why with
    | .reclaim _ => (s.slotDies n).contains w.die
    | _ => false)) ||
  (s.media.slices.any fun x => x.slot = slotIdx n && (s.slotDies n).contains x.die && x.wants.any fun e => e.2 = .reclaim) ||
  s.media.recons.any fun c => slotNo c.ward c.row c.slot = n && c.wants.any fun e => e.2 = .reclaim

/-- Plans the reads of the next program unit of a slot that holds units to copy (R282, R290), as class 5. -/
def State.reclaimNext (s : State) (n : Nat) : State :=
  let os := (s.rand.filter fun e => e.2.slot = n && s.toCopy n e.2.off).map fun e => e.2.off
  match firstBy (fun a b => decide (a < b)) (os.map (· / 64)) with
  | none => s
  | some pu =>
    let d := (s.puMem n pu).2.die
    let pages := (List.range 4).filter fun p => os.any fun o => o / 64 = pu && unitPage (inUnit o) = p
    s.setMedia fun m => { m with work := m.work ++ pages.map fun p => ⟨5, d, .read, slotIdx n, pu / 32, 0, .reclaim p⟩ }

/-- RANDOM_AREA_RECLAIM (R290): with four or fewer free slots the gleaner reclaims in the ward until it has eight, one victim at a time;
one event reads one program unit of the victim, records the copies that are programmed (R286) and frees what is emptied. -/
def execRandomAreaReclaim (ward : Nat) (s : State) : Res' :=
  if ward ≥ 4 then .fault .noSuchPart
  else
    let s := (s.raFit ward).copiesDone ward
    let free := (s.freeRand ward).length
    let x := s.ward ward
    let on := decide (free ≤ 4) || (x.reclaiming && decide (free < 8))
    let s := s.setWard ward fun x => { x with reclaiming := on }
    let busy := fun n => s.reclaimReads n || s.rand.any fun e => e.2.slot = n && s.toCopy n e.2.off
    match x.victims.find? busy with
    | some n => go (if s.reclaimReads n then s else s.reclaimNext n)
    | none =>
      if !on || free + x.victims.length ≥ 8 then go s
      else match s.raVictim ward with
        | some n => go (((s.setWard ward fun x => { x with victims := x.victims ++ [n] }).reclaimNext n).freeVictims ward)
        | none => go s

/-! ### Relocation -/

/-- Whether a block group belongs to an OPEN zone (R294). -/
def State.inOpenZone (s : State) (d : DieId) (k : Nat) : Bool :=
  match s.memberOf d with
  | some (w, row, _) => match s.slotUse (slotNo w row k) with
    | .bound z => (s.zone z).st = .open_
    | _ => false
  | none => false

/-- Draws one fresh block on each plane of a die (R293): from factory spares and the pool for a refresh, from all of
Table 8.6 for a retirement. -/
def State.drawFour (s : State) (d : DieId) (all : Bool) : Option (List (Nat × Nat) × State) :=
  (List.range 4).foldl (fun (a : Option (List (Nat × Nat) × State)) p =>
    match a with
    | none => none
    | some (l, s) => (if all then s.drawBlock d p else s.drawPool d p).map fun x => (l ++ [(p, x.1)], x.2)) (some ([], s))

/-- Planes of a block group whose crossing is a second one within 64 cycles (Table 10.3). -/
def State.secondCross (s : State) (d : DieId) (k : Nat) (planes : List Nat) : List Nat :=
  planes.filter fun p => match look s.media.crossed (s.phys d p k) with
    | some c => lookD s.media.wear 0 (s.phys d p k) ≤ c + 64
    | none => false

/-- Reads that an ended relocation of a block group left are not made. -/
def State.dropCopies (s : State) (d : DieId) (slot : Nat) : State :=
  let dead := (s.media.recons.filter fun c => c.slot = slot && (s.mem c.ward c.row c.target).die = d &&
    c.wants.any fun e => e.2 = .copy).map (·.id)
  let s := s.setMedia fun m => { m with
    recons := m.recons.filter fun c => !dead.contains c.id
    work := m.work.filter fun w => match w.why with
      | .copy _ => !(w.die = d && w.slot = slot)
      | .share g _ => !dead.contains g
      | _ => true }
  s.dropSlices fun x => x.wants.any fun e => match e.2 with
    | .copy => decide (x.die = d ∧ x.slot = slot)
    | .recon g _ => dead.contains g
    | _ => false

/-- Plans the reads of the next word line of a relocation, as class 5 (R282, R293). -/
def State.copyLine (s : State) (d : DieId) (slot : Nat) : State :=
  match s.media.moves.find? fun v => decide (v.die = d ∧ v.slot = slot) with
  | some v =>
    if v.done < v.wls then s.setMedia fun m => { m with
      moves := m.moves.map fun v => if v.die = d ∧ v.slot = slot then { v with left := 64 } else v
      work := m.work ++ (List.range 4).map fun p => ⟨5, d, .read, slot, v.done, 0, .copy p⟩ }
    else s
  | none => s

/-- Whether a block group's slot is held for a SCAN after its data has gone (R294, R343). -/
def State.groupHeld (s : State) (d : DieId) (k : Nat) : Bool :=
  match s.memberOf d with
  | some (w, row, _) => match s.slotUse (slotNo w row k) with
    | .held _ _ => true
    | _ => false
  | none => false

/-- Whether a block group is being relocated. -/
def State.moving (s : State) (d : DieId) (k : Nat) : Bool := s.media.moves.any fun v => decide (v.die = d ∧ v.slot = k)

/-- Whether a refresh waits for a block (R293): it retires no plane, and a plane has neither a factory spare nor a pool block. -/
def State.refreshWaits (s : State) (d : DieId) (k : Nat) (planes : List Nat) : Bool :=
  (s.secondCross d k planes).isEmpty && (s.drawFour d false).isNone

/-- The refresh that is served next in a ward (R295): step-10 failures first, then decodes at steps 9 and 10, then the others, oldest
first; one that cannot be made now is passed over (R293, R294). -/
def State.nextRefresh (s : State) (w : Nat) : Option (DieId × Nat) :=
  (firstBy (fun a b => decide (a.1 < b.1)) (s.media.refresh.filter fun e =>
    e.2.1.ward = w && !s.inOpenZone e.2.1 e.2.2.1 && !s.groupHeld e.2.1 e.2.2.1 && !s.moving e.2.1 e.2.2.1 &&
      (s.die e.2.1).op.isNone && !(s.die e.2.1).failed && !s.refreshWaits e.2.1 e.2.2.1 e.2.2.2)).map fun e => (e.2.1, e.2.2.1)

/-- Whether a block group that is queued for a retirement is relocated now (R294): one of an OPEN zone only after a program failure,
which retired one of its plane-blocks. -/
def State.mustMove (s : State) (d : DieId) (k : Nat) : Bool :=
  (s.media.retireq.any fun e => decide (e.1 = d ∧ e.2.1 = k)) && !s.groupHeld d k &&
    (!s.inOpenZone d k || (List.range 4).any fun p => s.media.retired.contains (s.phys d p k))

/-- RELOCATION (R293, R294): the gleaner copies a block group to fresh blocks, word line by word line, for a retirement or as the next
refresh of its ward (R295). Planes that retire at the relocation retire now (Table 10.3). A retirement for which a plane has no
source at all fails the die or loses the share (R298, R299). -/
def execRelocation (d : DieId) (slot : Nat) (s : State) : Res' :=
  if !d.wf || slot ≥ 3072 then .fault .noSuchPart
  else
    let must := s.mustMove d slot
    if s.moving d slot || (s.die d).op.isSome || (s.die d).failed || (!must && s.nextRefresh d.ward ≠ some (d, slot)) then go s
    else
      let planes := ((s.media.refresh.find? fun e => decide (e.2.1 = d ∧ e.2.2.1 = slot)).map (·.2.2.2)).getD []
      let asked := ((s.media.retireq.find? fun e => decide (e.1 = d ∧ e.2.1 = slot)).map (·.2.2)).getD []
      let again := (s.secondCross d slot planes ++ (if must then asked else [])).eraseDups
      match s.drawFour d (must || !again.isEmpty) with
      | none => go (if (List.range 4).all fun p => (s.drawFrom d p true).isSome then s else s.noSource d slot)
      | some (fresh, s') =>
        let s := again.foldl (fun s p => s.retireBlock d p slot) s'
        if (s.die d).failed then go s.capCheck
        else
          let s := planes.foldl (fun s p => s.setMedia fun m => { m with
            crossed := put m.crossed (s.phys d p slot) (lookD m.wear 0 (s.phys d p slot)) }) s
          let gone := (List.range 4).filter fun p => s.media.retired.contains (s.phys d p slot)
          let s := s.setMedia fun m => { m with moves := m.moves ++ [⟨d, slot, fresh, gone, (s.group d slot).prog, 0, 0⟩] }
          go ((s.dropCopies d slot).copyLine d slot).capCheck

/-- RELOCATION_COMMIT (R286, R288, R293): once every copy is programmed the four block-map entries are swapped in one journal record;
old blocks that are not retired wait to be erased and join the pool. A move ended by a RESET or DELETE HOLDING is no longer
there. -/
def execRelocationCommit (d : DieId) (slot : Nat) (s : State) : Res' :=
  if !d.wf || slot ≥ 3072 then .fault .noSuchPart
  else match s.media.moves.find? fun v => decide (v.die = d ∧ v.slot = slot) with
  | none => go s
  | some v =>
    if v.done < v.wls then go s
    else
      let old := ((List.range 4).filter fun p => !v.retire.contains p).map fun p => (p, s.block d p slot)
      let refreshed := s.media.refresh.any fun e => decide (e.2.1 = d ∧ e.2.2.1 = slot)
      let s := v.fresh.foldl (fun s e => s.setBlock d e.1 slot e.2) s
      let s := s.setGroup d slot fun _ => { Group.fresh with prog := v.wls, blank := true, patrol := s.poweredNs, progAt := s.poweredNs }
      let s := s.setMedia fun m => { m with
        moves := m.moves.filter fun x => !decide (x.die = d ∧ x.slot = slot)
        refresh := m.refresh.filter fun e => !decide (e.2.1 = d ∧ e.2.2.1 = slot)
        retireq := m.retireq.filter fun e => !decide (e.1 = d ∧ e.2.1 = slot)
        oldBlocks := m.oldBlocks ++ [(d, old, m.begun)] }
      let s := if refreshed then s.wearEv d.ward .refreshed 1 else s
      go ((s.setWard d.ward fun w => { w with copied := w.copied + 64 * v.wls }).journalRec 2)

/-! ### Patrol, retention, parking, staging -/

/-- Internal reads of units of one word line (R282), page by page, as class 5: each decode is counted (R296, R334). -/
def State.patrol (s : State) (d : DieId) (slot wl : Nat) (us : Nat → List Nat) (ret : Bool) : State :=
  let ws : List Work := (List.range 4).map fun p => ⟨5, d, .read, slot, wl, 0, .patrol (us p) ret⟩
  if ws.any fun w => s.media.work.contains w then s else s.setMedia fun m => { m with work := m.work ++ ws }

/-- The patrol set (R296): one codeword, number `cw`, on each page of each plane. -/
def patrolSet (cw p : Nat) : List Nat := (List.range 4).map fun plane => 16 * p + 4 * plane + cw

/-- PATROL_READ (R296): the patrol set of a programmed word line is read, codeword `cw` of each page. -/
def execPatrolRead (d : DieId) (slot wl cw : Nat) (s : State) : Res' :=
  if !d.wf || slot ≥ 3072 || wl ≥ 512 || cw ≥ 4 then .fault .noSuchPart
  else if !s.boot.ready || (s.die d).failed || (s.group d slot).prog ≤ wl then go s
  else go (s.patrol d slot wl (patrolSet cw) false)

/-- Whether a round of patrol reads of a block group begins (R296): it holds data, and six days have gone since the last round began, or
its reads since its last program have passed 200,000 (notes/assumptions/89.md). -/
def State.patrolDue (s : State) (g : Group) : Bool :=
  g.round.isNone && g.prog > 0 && !g.dirty &&
    (s.poweredNs ≥ max g.patrol g.progAt + 6 * dayNs || (g.reads > 200000 && g.patrolReads ≤ 200000))

/-- The rounds of patrol go on at a boundary (R296): one word line of a block group after the other. -/
def State.patrolStep (s : State) : State :=
  if !s.boot.ready || !s.pwr.on then s
  else (s.media.groups.filter fun e => s.patrolDue e.2 || e.2.round.isSome).foldl (fun s e =>
    let d := dieOf (e.1 / 4096)
    let k := e.1 % 4096
    let s := if s.patrolDue e.2 then s.setGroup d k fun g => { g with
      patrol := s.poweredNs, patrolReads := g.reads, round := some 0 } else s
    match (s.group d k).round with
    | none => s
    | some wl =>
      if wl ≥ (s.group d k).prog || (s.die d).failed then s.setGroup d k fun g => { g with round := none }
      else if s.media.work.any fun w => decide (w.die = d ∧ w.slot = k ∧ w.wl + 1 = wl) && (match w.why with
          | .patrol _ _ => true
          | _ => false) then s
      else (s.patrol d k wl (patrolSet (wl % 4)) false).setGroup d k fun g => { g with round := some (wl + 1) }) s

/-- RETENTION_SCAN (R334): a scan under way reads its next word line, of the block group with the oldest program: a priority scan its
patrol set, a full one every codeword. -/
def execRetentionScan (d : DieId) (slot wl cw : Nat) (s : State) : Res' :=
  if !d.wf || slot ≥ 3072 || wl ≥ 512 || cw ≥ 4 then .fault .noSuchPart
  else if !s.boot.ready || s.scanNext ≠ some (groupNo d slot) || (look s.scanLeft (groupNo d slot)).map (·.1) ≠ some wl then go s
  else go ((s.patrol d slot wl (if s.pwr.scan = 1 then patrolSet cw else pageUnits) true).setMedia fun m => { m with
    toScan := adj m.toScan (groupNo d slot) fun e => (e.1 + 1, e.2) })

/-- The partial state of a zone is parked and leaves staging (R235, R531, R603). -/
def State.parked (s : State) (k p : Nat) : State :=
  (({ s with staged := s.staged - (s.zone k).wp % 64 }.setZone k fun x => { x with park := .parked p }).setMedia fun m =>
    { m with parking := del m.parking k }).journalRec 0

/-- PARKING_COMPLETE (R235, R531, R603): the programs of a zone's parking have completed. -/
def execParkingComplete (h z : Nat) (s : State) : Res' :=
  let k := zoneNo h z
  match look s.media.parking k with
  | some p => if (s.zone k).partialRow && !s.working (.park k) then go (s.parked k p).entryStep else go s
  | none => go s

/-- Whether a running SCAN still reads a slot (R343). -/
def State.scanned (s : State) (slot : Nat) : Bool :=
  s.jobs.any fun j => j.2.zones.any fun z => decide (z.slot = slot) && (decide (z.next < z.wp) || decide (z.out > 0))

/-- HELD_SLOT_RELEASE (R343): a slot held for SCANs is released once no job has units of it left to read. -/
def execHeldSlotRelease (slot : Nat) (s : State) : Res' :=
  if slot ≥ 4 * 26 * 4096 || slotIdx slot ≥ 3072 then .fault .noSuchPart
  else match s.slotUse slot with
  | .held _ _ =>
    if s.scanned slot then go s
    else go ({ s with staged := s.staged - s.heldStaged slot, units := keep (fun k _ => k / 2 ^ 20 ≠ heldZone slot) s.units }.releaseSlot slot).capCheck
  | _ => go s

/-- STAGING_DRAIN (R29, R42, R466): the drain of the bell's plan puts staging data queued before that plan closed on both mirror copies. What it
leaves is there by the end of the next bell. -/
def execStagingDrain (s : State) : Res' :=
  let planned := fun (c : Cmd) => match c.drainBell with
    | some b => decide (b ≤ s.bell.now)
    | none => false
  let f := fun (c : Cmd) => if c.point = .queued && planned c then { c with point := .mirrored } else c
  go { s with sqs := mapV (fun _ q => { q with cmds := q.cmds.map f }) s.sqs }

end Sys2Proof.Machine
end

