-- ==== Sys2Proof/Machine/Cellar.lean ====
section
/-! DEFINITION. What a power-loss dump holds and how it lies in the cellar (R313, R314, R321 to R324): items, stripes, manifest. -/

namespace Sys2Proof.Machine

/-! ### Guards and items -/

/-- The data shares of a row whose programs run, are suspended or wait (R314). -/
def State.comingShares (s : State) (n r : Nat) : List Nat :=
  let ops := s.media.dies.filterMap fun e => e.2.op.map (·.work)
  (s.media.work ++ ops).filterMap fun w =>
    if w.why = .host && w.slot = slotIdx n && w.wl = r then
      match s.memberOf w.die with
      | some (a, b, i) => if a = slotWard n && b = slotRow n then some (symbolOf r i) else none
      | none => none
    else none

/-- The guard of unit `u` of an incomplete row (R314): the XOR of the four running-parity units and the data of the shares to come. -/
def State.guardOf (s : State) (n r u : Nat) : Bytes :=
  xorAll (((List.range 4).map fun j => lookD s.media.parity (List.replicate protectedLen 0) (parityNo n r u j)) ++
    (s.comingShares n r).map fun d => s.bytesAt n (shareOff r d u))

/-- Stripe rows with partial state (R313): slot and row. -/
def State.openRows (s : State) : List (Nat × Nat) :=
  (s.zones.filterMap fun e => if e.2.partialRow then e.2.slot.map fun n => (n, e.2.wp / 2048) else none) ++
    (s.liveStreams.filter fun e => e.2.2 % 2048 ≠ 0).map fun e => (e.2.1, e.2.2 / 2048)

/-- Every guard (R313, R314). -/
def State.guards (s : State) : Tab Bytes :=
  s.openRows.foldl (fun t x => (List.range 64).foldl (fun t u =>
    putD t (List.replicate protectedLen 0) ((x.1 * 512 + x.2) * 64 + u) (s.guardOf x.1 x.2 u)) t) []

/-- The partial program units that stand in staging (R234, R250): slot, first unit, number of units. -/
def State.partials (s : State) : List (Nat × Nat × Nat) :=
  let part := fun (n p : Nat) => if p % 64 = 0 then none else some (n, p / 64 * 64, p % 64)
  (s.zones.filterMap fun e => if e.2.partialRow then e.2.slot.bind fun n => part n e.2.wp else none) ++
    s.liveStreams.filterMap fun e => part e.2.1 e.2.2

/-- The items of the dump (R313), with their contents: a staged item is the same in both mirror copies (R320). -/
def State.dumpItems (s : State) : List DumpItem :=
  (s.partials.map fun p => .part p.1 p.2.1 ((List.range p.2.2).filterMap fun i => s.storedAt p.1 (p.2.1 + i))) ++
    (s.openRows.map fun x => .guards x.1 x.2) ++
    [.journal s.media.journal s.media.recs, .moduleState s.ledger s.bell.boot s.sieve.shadow]

/-! ### Stripes (R323, R324; the layout is the model's, notes/assumptions/91.md) -/

/-- A shadow row as the dump writes it: its row number, then its image (R452). -/
def shadowBytes (e : Nat × Row) : Bytes :=
  toLe e.1 4 ++ toLe e.2.key.toNat 40 ++ toLe e.2.mask.toNat 40 ++ toLe e.2.result.toNat 8 ++ [BitVec.ofNat 8 (e.2.part + 128 * b01 e.2.valid)]

/-- The bytes of an item. -/
def DumpItem.bytes (guards : Tab Bytes) : DumpItem → Bytes
  | .part _ _ us => us.flatMap fun u => slice u.data 0 4096
  | .guards n r => (List.range 64).flatMap fun u => slice (lookD guards [] ((n * 512 + r) * 64 + u)) 0 4096
  | .journal _ recs => recs.flatMap JRec.bytes
  | .moduleState l b sh => toLe l 8 ++ toLe b 4 ++ sh.flatMap shadowBytes

/-- An item's identity in the manifest: its kind and place, and the metadata of what it holds. -/
def DumpItem.ident (guards : Tab Bytes) : DumpItem → Bytes
  | .part n o us => [0] ++ toLe n 4 ++ toLe o 4 ++ toLe us.length 1 ++ us.flatMap StUnit.head
  | .guards n r => [1] ++ toLe n 4 ++ toLe r 2 ++
      (List.range 64).flatMap fun u => slice (lookD guards [] ((n * 512 + r) * 64 + u)) 4096 32
  | .journal k _ => [2] ++ toLe k 4
  | .moduleState _ _ sh => [3] ++ toLe sh.length 4

/-- Data bytes of a stripe: its 35 data word lines less the header. -/
def stripeRoom : Nat := 35 * 65536 - 16

/-- What the stripes hold before the manifest. -/
def Dump.body (d : Dump) : Bytes := d.items.flatMap (DumpItem.bytes d.guards)

/-- The manifest's entries but for the stripes' CRCs: items, home programs, and where the word lines of each stripe lie. -/
def Dump.listed (d : Dump) : Bytes :=
  d.items.flatMap (DumpItem.ident d.guards) ++ (d.homes.flatMap fun h => toLe h.1 4 ++ toLe h.2.1 2 ++ toLe h.2.2 2) ++
    d.cells.flatMap fun c => toLe c.1 4 ++ toLe c.2.1 4 ++ toLe c.2.2 2

/-- Stripes that the manifest takes, the last ones. -/
def Dump.manifestStripes (d : Dump) : Nat := (8 * d.stripes + d.listed.length + stripeRoom - 1) / stripeRoom

/-- A stripe's header: the dump sequence number and the stripe index (R324). -/
def Dump.header (d : Dump) (i : Nat) : Bytes := toLe d.seq 8 ++ toLe i 8

/-- The data of a stripe that comes before the manifest. -/
def Dump.bodyStripe (d : Dump) (i : Nat) : Bytes := d.header i ++ slice d.body (i * stripeRoom) stripeRoom

/-- The manifest (R324): every stripe with its CRC-32C, every item with its identity, every home program. -/
def Dump.manifest (d : Dump) : Bytes :=
  ((List.range (d.stripes - d.manifestStripes)).flatMap fun i => toLe i 4 ++ toLe (crc32c (d.bodyStripe i)).toNat 4) ++ d.listed

/-- The data of stripe `i`: the manifest comes last. -/
def Dump.stripe (d : Dump) (i : Nat) : Bytes :=
  let k := d.stripes - d.manifestStripes
  if i < k then d.bodyStripe i else d.header i ++ slice d.manifest ((i - k) * stripeRoom) stripeRoom

/-- The word line of stripe `i` on member `m` (R323, R324): 16 units of module metadata, of the data, or of the XOR of the 35 others on the
last member. -/
def Dump.wordLine (d : Dump) (i m : Nat) : List StUnit :=
  let at_ := fun k u => slice (d.stripe i) ((k * 16 + u) * 4096) 4096
  (List.range 16).map fun u =>
    ⟨0, 0, 0, .module_, 0, false, i * 576 + m * 16 + u, 0, 0, if m < 35 then at_ m u else xorAll ((List.range 35).map fun k => at_ k u)⟩

/-! ### Cellar rounds (R321, R323) -/

/-- The ready cellar blocks on the members of one index of a ward. -/
def State.cellarOn (s : State) (w i : Nat) : List DieId :=
  ((List.range 26).filter fun row => s.cellarSound (s.mem w row i)).map fun row => (s.mem w row i).die

/-- The word lines of `n` stripes: in a round each ready block of the least member takes one, ward after ward. -/
def State.cellarTodo (s : State) (n : Nat) : List (Nat × Nat) :=
  let rows := (List.range 4).flatMap fun w => (List.range (s.cellarRows w)).map fun k => (w, k)
  if rows.isEmpty then []
  else (List.range n).flatMap fun t =>
    let (w, k) := rows.getD (t % rows.length) (0, 0)
    (List.range 36).map fun i => (dieNo ((s.cellarOn w i).getD k ⟨0, 0, 0⟩), t)

/-- One program slot of the cellar (R321, R322): each die that runs no other program takes its next word line, the lowest free one of its block;
programs are charged 100 mW and 35 mW of 240 W. `busy` are the dies that program their own blocks. -/
def State.cellarSlot (s : State) (busy : List Nat) (l : LossSeq) : State × LossSeq :=
  let room := (240000 - 100 * busy.length) / 35
  let next := l.todo.foldl (fun (a : List (Nat × Nat)) e =>
    if a.length < room && !busy.contains e.1 && !a.any (fun x => x.1 = e.1) then a ++ [e] else a) []
  let s := next.foldl (fun s e =>
    let d := dieOf e.1
    let wl := 512 - (s.die d).cellarFree
    let seq := s.pwr.dumps.foldl (fun n d => max n d.seq) 0
    let s := s.setDie d fun x => { x with cellarFree := x.cellarFree - 1, cellarSeq := seq }
    { s with pwr := { s.pwr with dumps := s.pwr.dumps.map fun x =>
        if x.seq = seq then { x with cells := x.cells ++ [(e.2, e.1, wl)] } else x } }) s
  (s, { l with todo := l.todo.filter fun e => !next.contains e })

end Sys2Proof.Machine
end

