-- ==== Sys2Proof/Machine/Regs.lean ====
section
/-! DEFINITION. The registers of a stream core (R365): general, SIMD, address, length and product registers, SIMD elements
(R407), address modes (R367 to R369), the landing of products (R370 to R372). -/

namespace Sys2Proof.Machine

/-! ### Register files (Table 13.1) -/

/-- General registers; g0 reads zero and discards writes. -/
def Ctx.rg (x : Ctx) (r : Nat) : W64 := if r = 0 then 0 else lookD x.g 0 r
def Ctx.setG (x : Ctx) (r : Nat) (v : W64) : Ctx := if r = 0 then x else { x with g := putD x.g 0 r v }

/-- SIMD registers. -/
def Ctx.rw (x : Ctx) (r : Nat) : W128 := lookD x.w 0 r
def Ctx.setW (x : Ctx) (r : Nat) (v : W128) : Ctx := { x with w := putD x.w 0 r v }

/-- Address and length registers. -/
def Ctx.ra (x : Ctx) (k : Nat) : W64 := lookD x.a 0 k
def Ctx.setA (x : Ctx) (k : Nat) (v : W64) : Ctx := { x with a := putD x.a 0 k v }
def Ctx.rm (x : Ctx) (k : Nat) : W32 := lookD x.m 0 k
def Ctx.setM (x : Ctx) (k : Nat) (v : W32) : Ctx := { x with m := putD x.m 0 k v }

/-- Product registers. -/
def Ctx.rp (x : Ctx) (k : Nat) : W128 := lookD x.p 0 k
def Ctx.setP (x : Ctx) (k : Nat) (v : W128) : Ctx := { x with p := putD x.p 0 k v }

/-! ### Elements (R407) -/

/-- Bits of an element of width code E, and elements of a SIMD word. -/
def elBits (e : Nat) : Nat := 8 * 2 ^ e
def elCount (e : Nat) : Nat := 16 / 2 ^ e

/-- Element `i`, unsigned; lane 0 is the least significant. -/
def elem (e : Nat) (w : W128) (i : Nat) : Nat := w.toNat / 2 ^ (elBits e * i) % 2 ^ elBits e

/-- An element as a signed number. -/
def signedEl (e v : Nat) : Int := if v ≥ 2 ^ (elBits e - 1) then (v : Int) - 2 ^ elBits e else v

/-- A SIMD word from its elements, each modulo the element width. -/
def packEl (e : Nat) (f : Nat → Nat) : W128 :=
  BitVec.ofNat 128 ((List.range (elCount e)).foldl (fun n i => n + f i % 2 ^ elBits e * 2 ^ (elBits e * i)) 0)

/-- An operation on every element independently. -/
def mapEl (e : Nat) (f : Nat → Nat → Nat) (a b : W128) : W128 := packEl e fun i => f (elem e a i) (elem e b i)

/-! ### Products (R370 to R372) -/

/-- How a landing product changes its register. -/
def Land.apply (h : Land) (old v : W128) : W128 :=
  match h with
  | .replace => v
  | .add => old + v
  | .addElem e => mapEl e (· + ·) old v
  | .xor => old ^^^ v

def Ctx.landOne (x : Ctx) (q : Prod) : Ctx := x.setP q.p (q.how.apply (x.rp q.p) q.val)

/-- Products issued four cycles ago or more land, in issue order. -/
def Ctx.landDue (x : Ctx) : Ctx :=
  { (x.prods.filter fun q => q.issued + 4 ≤ x.cycle).foldl Ctx.landOne x with
    prods := x.prods.filter fun q => !decide (q.issued + 4 ≤ x.cycle) }

/-- Every multiply in flight lands (R372). -/
def Ctx.landAll (x : Ctx) : Ctx := { x.prods.foldl Ctx.landOne x with prods := [] }

/-! ### Address modes (R367 to R369) -/

/-- The mode of an address register: AMODE[2k+1:2k]. -/
def Ctx.mode (x : Ctx) (k : Nat) : Nat := bits x.amode.toNat (2 * k + 1) (2 * k)

/-- The low `n` bits of a number in reverse order. -/
def revBits (n v : Nat) : Nat := (List.range n).foldl (fun r i => r * 2 + v / 2 ^ i % 2) 0

/-- The smallest q with 2^q ≥ m, for a 32-bit m. -/
def clog (m : Nat) : Nat := ((List.range 33).find? fun q => m ≤ 2 ^ q).getD 32

/-- The modulo update (R368); none where the offset is not below the length. -/
def modUpdate (a : Nat) (m : Nat) (inc : Int) : Option Nat :=
  let q := 2 ^ clog m
  if a % q < m then some (a / q * q + (((a % q : Nat) + inc) % (m : Int)).toNat) else none

/-- The bit-reversed update (R369); none where the length is not a power of two from 2 to 2^31. -/
def revUpdate (a : Nat) (m : Nat) (inc : Int) : Option Nat :=
  if 2 ≤ m && m ≤ 2 ^ 31 && m = 2 ^ clog m then
    let n := clog m
    some (a / m * m + revBits n ((revBits n (a % m) + revBits n (inc % (m : Int)).toNat) % m))
  else none

/-- The value an address register takes by a signed increment under its mode; none raises ADDRESS_MODE. -/
def Ctx.bump (x : Ctx) (k : Nat) (inc : Int) : Option W64 :=
  let m := (x.rm k).toNat
  if x.mode k = 1 && m ≠ 0 then (modUpdate (x.ra k).toNat m inc).map (BitVec.ofNat 64)
  else if x.mode k = 2 then (revUpdate (x.ra k).toNat m inc).map (BitVec.ofNat 64)
  else some (x.ra k + BitVec.ofInt 64 inc)

end Sys2Proof.Machine
end

