-- ==== Sys2Proof/Machine/FnOps.lean ====
section
/-! DEFINITION. Shared operations on functions: resource blocks (R104, R221), ring blocks (R122, R219), generations (R128),
creating and resetting rings (R124, R129), release of semaphores (R97, R115), and the checks of parameter blocks (R193). -/

namespace Sys2Proof.Machine

/-- Plain-region capacity, in 16 MiB (R465, R482). -/
def State.plainCap (s : State) : Nat := 16128 - s.dram.plainLost

/-- Rings a function may have: a grown count waits for the boundary (R105). -/
def Fn.sqMax (g : Fn) : Nat := min g.eff.sq g.res.sq
def Fn.cqMax (g : Fn) : Nat := min g.eff.cq g.res.cq

/-- The values in force after a SET: a resource that shrinks binds at once, what grows later waits for the boundary (R105). -/
def Res.shrunk (e v : Res) : Res := { e with sq := min e.sq v.sq, cq := min e.cq v.cq, allot := min e.allot v.allot }

/-! ### Blocks -/

/-- A resource block is within its ranges and its reserved bytes are zero (Tables 4.3 and 7.12). -/
def resOk (b : Bytes) (k : Nat) : Bool :=
  let r := resAt b k
  1 ≤ r.sq && r.sq ≤ 1024 && 1 ≤ r.cq && r.cq ≤ 1024 && r.allot ≤ 16384 && r.sieve ≤ 16 && r.readOps ≤ 2000 &&
    r.readBytes ≤ 1000 && r.writeBytes ≤ 920 && r.scanBytes ≤ 4500 && byteAt b (k + 9) = 0 && byteAt b (k + 18) < 2 &&
    zeros b (k + 19) 13

/-- A total over the functions but one. -/
def State.total (s : State) (f : Nat) (p : Res → Nat) : Nat :=
  s.fns.foldl (fun n e => if e.1 = f || e.2.state = .absent then n else n + p e.2.res) 0

/-- Whether a resource block for a function would raise a module total above its limit (R104, R442). -/
def State.overTotals (s : State) (f : Nat) (r : Res) : Bool :=
  s.total f (·.sq) + r.sq > 16384 || s.total f (·.cq) + r.cq > 16384 || s.total f (·.allot) + r.allot > s.plainCap ||
    s.total f (·.sieve) + r.sieve > (if s.sieve.active || s.sieve.mode then 0 else 64)

/-- Memory running jobs of a function hold, in 16 MiB. -/
def State.jobMem (s : State) (f : Nat) : Nat :=
  s.jobs.foldl (fun n j => if j.2.r.fn = f && j.2.st ≠ .queued then n + j.2.mem else n) 0

/-- Whether a resource block shrinks a resource below its use (Table 4.3). -/
def State.shrinks (s : State) (f : Nat) (r : Res) : Bool :=
  (s.sqs.any fun e => e.1 / 1024 = f && e.1 % 1024 ≥ r.sq) || (s.cqs.any fun e => e.1 / 1024 = f && e.1 % 1024 ≥ r.cq) ||
    s.jobMem f > r.allot || (r.sieve < s.grantOf f && s.shrinkHits f r.sieve)

/-- A ring block's fields are in range but for its number and bound ring (Tables 5.1 and 7.11). -/
def ringBlockOk (b : Bytes) (k : Nat) : Bool :=
  let isCq := byteAt b (k + 2) = 1
  le b k 2 < 1024 && byteAt b (k + 2) < 2 && 4 ≤ byteAt b (k + 3) && byteAt b (k + 3) ≤ 16 && le b (k + 8) 8 % 4096 = 0 &&
    le b (k + 16) 2 < 1024 && zeros b (k + 22) 2 && zeros b (k + 28) 4 && zeros b (k + 40) 8 &&
    (if isCq then
      le b (k + 16) 2 = 0 && byteAt b (k + 18) < 2 && 1 ≤ le b (k + 20) 2 && le b (k + 32) 8 % 8 = 0
     else zeros b (k + 18) 4 && zeros b (k + 24) 4 && zeros b (k + 32) 8)

/-- The generation a new ring of a kind and number gets (R128): 1, or the last one plus 1, wrapping to 1. -/
def Fn.nextGen (g : Fn) (isCq : Bool) (n : Nat) : Nat :=
  match look g.gens (1024 * b01 isCq + n) with
  | none => 1
  | some v => if v ≥ 0xFFFFFFFF then 1 else v + 1

/-- The RING entry chosen for a ring (R121): a free value among the entries of its kind not in use. -/
def State.pickEntry (s : State) (isCq : Bool) : Nat × State :=
  let (v, s') := s.draw
  let used := if isCq then s.cqs.map (·.2.index) else s.sqs.map (·.2.index)
  let base := 16384 * b01 isCq
  (((List.range 16384).map fun i => base + (v + i) % 16384).find? (fun i => !used.contains i) |>.getD base, s')

/-- Creates a ring from its block (R122, R125): the next generation, ACTIVE from the next boundary. Its idle
count (R134) runs from that boundary: the model's choice (notes/assumptions/42.md). -/
def State.newRing (s : State) (f n : Nat) (b : Bytes) (k : Nat) : State :=
  let isCq := byteAt b (k + 2) = 1
  let gen := (s.fn f).nextGen isCq n
  let (idx, s) := s.pickEntry isCq
  let s := s.setFn f fun g => { g with gens := put g.gens (1024 * b01 isCq + n) gen }
  if isCq then
    let q : Cq := {
      base := BitVec.ofNat 64 (le b (k + 8) 8), rkey := BitVec.ofNat 32 (le b (k + 4) 4), sizeLog := byteAt b (k + 3),
      gen := gen, index := idx, headAddr := BitVec.ofNat 64 (le b (k + 32) 8), headRkey := BitVec.ofNat 32 (le b (k + 24) 4),
      notify := bit (byteAt b (k + 18)) 0, coCount := le b (k + 20) 2, coBells := byteAt b (k + 19), posted := 0,
      headSeen := 0, reserved := 0, unacked := [], held := [], pendFrom := none, pendCount := 0, pendNow := false, attrNext := none,
      wantHead := false }
    { s with cqs := put s.cqs (ringNo f n) q }
  else
    let q : Sq := {
      base := BitVec.ofNat 64 (le b (k + 8) 8), rkey := BitVec.ofNat 32 (le b (k + 4) 4), sizeLog := byteAt b (k + 3),
      cq := le b (k + 16) 2, gen := gen, index := idx, frozen := false, dozing := false, activeFrom := s.bell.now + 1,
      lastAdv := s.bell.now + 1, fetched := 0, tail := 0, inBell := 0, errlog := [], cmds := [], reading := 0,
      discard := [] }
    { s with sqs := put s.sqs (ringNo f n) q }

/-- A submission ring reset (R97, R128, R129). -/
def Sq.reset (q : Sq) (gen now : Nat) : Sq :=
  { q with
    gen := gen, frozen := false, dozing := false, activeFrom := now + 1, lastAdv := now + 1, fetched := 0, tail := 0,
    inBell := 0, errlog := [], cmds := [], reading := 0, discard := [] }

/-- A completion ring reset. -/
def Cq.reset (q : Cq) (gen : Nat) : Cq :=
  { q with
    gen := gen, posted := 0, headSeen := 0, reserved := 0, unacked := [], held := [], pendFrom := none, pendCount := 0,
    pendNow := false, wantHead := false }

/-- The polls, RDMA operations and waiting completions of a function end. -/
def State.dropOps (s : State) (f : Nat) : State :=
  let s := s.setFn f fun g => { g with polling := [], left := [], knockDue := false, knocked := false }
  { s with
    rdma := s.rdma.filter fun o => o.fn ≠ f
    aborts := s.aborts.filter fun a => a.r.fn ≠ f
    due := s.due.filter fun d => d.r.fn ≠ f }

/-- Every ring of a function is reset, its generation incremented (R129), and its operations end. -/
def State.resetRings (s : State) (f : Nat) : State :=
  let g := s.fn f
  let sq := fun k (q : Sq) => if k / 1024 = f then q.reset (g.nextGen false (k % 1024)) s.bell.now else q
  let cq := fun k (q : Cq) => if k / 1024 = f then q.reset (g.nextGen true (k % 1024)) else q
  let gens := (s.sqs.filter fun e => e.1 / 1024 = f).foldl (fun t e => put t (e.1 % 1024) (g.nextGen false (e.1 % 1024))) g.gens
  let gens := (s.cqs.filter fun e => e.1 / 1024 = f).foldl
    (fun t e => put t (1024 + e.1 % 1024) (g.nextGen true (e.1 % 1024))) gens
  ({ s.setFn f fun g => { g with gens := gens } with sqs := mapV sq s.sqs, cqs := mapV cq s.cqs }).dropOps f

/-- The phase the ring engine gives a function's pages (R55): the one of fewest functions with its poll interval N, so that their
polls spread evenly over the bells of the interval, and above it the one of fewest dozing polls of 4,096 bells
(notes/assumptions/64.md). -/
def State.pickPhase (s : State) (f n : Nat) : Nat :=
  let others := s.fns.filter fun e => e.1 ≠ f && e.2.state ≠ .absent
  let load := fun p => (others.filter fun e => max 1 e.2.pollN = n && e.2.phase % n = p).length
  let deep := fun p => (others.filter fun e => e.2.phase = p).length
  let p := (firstBy (fun a b => load a < load b) (List.range n)).getD 0
  (firstBy (fun a b => deep a < deep b) ((List.range (4096 / n)).map fun i => p + n * i)).getD p

/-- Entries of a manager's admin rings (R581): the submission ring at its number, the completion ring 16,384 above. -/
def adminEntry (i : Nat) : Option (Nat × Bool) :=
  if i < 2 then some (i, false) else if i = 16384 || i = 16385 then some (i - 16384, true) else none

/-- Resets the admin ring of an entry that was written (R128, R581). -/
def State.resetAdmin (s : State) (i : Nat) : State :=
  match adminEntry i with
  | none => s
  | some (f, isCq) =>
    let gen := (s.fn f).nextGen isCq 0
    let s := s.setFn f fun g => { g with gens := put g.gens (1024 * b01 isCq) gen }
    let mine := fun (o : RdmaOp) => o.fn = f && (match o.kind with
      | .entries n _ _ => !isCq && n = 0
      | .cqe n _ _ => isCq && n = 0
      | .head n => isCq && n = 0
      | _ => false)
    let s := { s with rdma := s.rdma.filter fun o => !mine o }
    if isCq then s.setCq f 0 fun k => { k.reset gen with notify := true, coCount := 1, coBells := 0, attrNext := none }
    else s.setSq f 0 fun q => { q.reset gen s.bell.now with activeFrom := s.bell.now }

/-- Admin rings written since the last boundary are reset (R581). -/
def State.adminAtBoundary (s : State) : State :=
  let s' := s.net.adminDue.foldl State.resetAdmin s
  { s' with net := { s'.net with adminDue := [] } }

/-- A semaphore word freed with its generation incremented (Table 4.4). -/
def freedWord (w : W64) : W64 := BitVec.ofNat 64 ((bits w.toNat 63 32 + 1) % 2 ^ 32 * 2 ^ 32)

/-- Releases the semaphores a function holds, in ascending index, each with the next ledger number (R97, R115). -/
def State.releaseSems (s : State) (f : Nat) : State :=
  (s.sems.word.filter fun e => bit e.2.toNat 13 && decide (bits e.2.toNat 11 0 = f)).foldl (fun s e =>
    let (n, s) := s.commit
    { s with sems := { s.sems with
      word := putD s.sems.word 0 e.1 (freedWord e.2), last := putD s.sems.last 0 e.1 n, acq := del s.sems.acq e.1 } }) s

/-- Lifts the fences RESET FUNCTION lifts (R184): those set by the function's rings and those on its holdings' zones. -/
def State.liftFences (s : State) (f : Nat) : State :=
  { s with zones := (s.zones.map fun e =>
      (e.1, match e.2.fence with
        | some (ring, _) => if ring / 1024 = f || s.ownerOf (zoneHold e.1) = f then { e.2 with fence := none } else e.2
        | none => e.2)).filter fun e => e.2 ≠ Zone.fresh }

/-! ### Checks of parameter blocks -/

/-- The ring block of CREATE RING (R125): its status where it fails. -/
def ringFails (s : State) (f : Nat) (b : Bytes) : Bool :=
  let n := le b 0 2
  let isCq := byteAt b 2 = 1
  !ringBlockOk b 0 || n = 0 ||
    (if isCq then n ≥ (s.fn f).cqMax || (s.cq f n).isSome
     else n ≥ (s.fn f).sqMax || (s.sq f n).isSome || (s.cq f (le b 16 2)).isNone)

/-- The parameter block of ADD FUNCTION (R222). -/
def addBlockOk (b : Bytes) : Bool :=
  resOk b 0 && le b 32 8 % 4096 = 0 && zeros b 44 4 && ringBlockOk b 48 && ringBlockOk b 96 && le b 48 2 = 0 &&
    byteAt b 50 = 0 && le b 64 2 = 0 && le b 96 2 = 0 && byteAt b 98 = 1

/-- DETAIL of a zone of a holding that a SCAN specification lists at or above the quota (Table 6.4). -/
def State.listedDetail (s : State) (c : Cmd) (p : Spec) : List (Nat × Nat × Nat) :=
  match ((List.range p.zcount).map p.zone).find? fun z => decide (z ≥ s.quota c.f12) with
  | some z => let x := s.zone (zoneNo c.f12 z)
    [(32, 2, c.f12), (36, 4, z), (40, 1, x.st.num), (44, 4, x.wp), (48, 4, x.wp)]
  | none => []

/-- The checks of a parameter block's fields, in the order of R170 (R193): where one fails, its status, and DETAIL where the
block alone gives it. -/
def blockFails (s : State) (r : Ref) (c : Cmd) : Option (Nat × List (Nat × Nat × Nat)) :=
  let b := c.block
  let ok := fun (x : Bool) => if x then none else some (INVALID_FIELD, [])
  match c.opcode with
  | 0x20 =>
    let p : Spec := ⟨b, byteAt c.entry 6⟩
    match specFails s r.fn c.f12 p with
    | some st => some (st, if st = OUT_OF_HOLDING then s.listedDetail c p else [])
    | none => if 2 + p.stageMem > s.memFree r.fn then some (CAPACITY_EXHAUSTED, []) else none
  | 0x21 => ok (pkgOk b (le c.entry 8 2) false)
  | 0x28 => ok (s.imageOk r.fn b 0)
  | 0x29 => ok (s.imageOk r.fn b 0 && s.imageOk r.fn b 96)
  | 0x40 => ok (!ringFails s r.fn b)
  | 0x48 => ok (addBlockOk b)
  | 0x4D => ok (resOk b 0)
  | _ => none

end Sys2Proof.Machine
end

