-- ==== Sys2Proof/Machine/Ring.lean ====
section
/-! DEFINITION. The ring engine (chapter 5): doorbell polls, knocks, entry fetch and checks, head words, acknowledgements,
notification deadlines, timeouts and the end of a drain. -/

namespace Sys2Proof.Machine

/-! ### Fetching (R136, R143, R337) -/

/-- Whether an opcode creates a job (R335). -/
def jobOp (op : Nat) : Bool := op = 0x20 || op = 0x21

/-- Jobs fetched and not ended: of the module, and of a function (R337). -/
def State.jobCmds (s : State) (p : Nat → Bool) : Nat :=
  s.sqs.foldl (fun n e => if p (e.1 / 1024) then n + (e.2.cmds.filter fun c => jobOp c.opcode).length else n) 0

/-- Slots of a completion ring that can be reserved (R143). -/
def Cq.room (k : Cq) : Nat := k.size - (sub32 k.posted k.headSeen + k.reserved)

/-- Whether a ring may fetch now (R136, R178). -/
def State.mayFetch (s : State) (f : Nat) (q : Sq) : Bool :=
  (s.fn f).state = .active && s.boot.ready && !q.frozen && decide (q.activeFrom ≤ s.bell.now) &&
    (!q.discard.isEmpty || !q.cmds.any fun c => c.opcode = 0x18 && (earlier q.cmds c.pos).any Cmd.changes)

/-- Reads a completion ring's head word, at most once per bell (R144). -/
def State.askHead (s : State) (f n : Nat) (k : Cq) : State :=
  if k.wantHead || s.awaits f (.head n) then s
  else (s.setCq f n fun k => { k with wantHead := true }).issue ⟨f, s.workPort f, false, .head n⟩

/-- Fetches from one ring: at most 64 entries per bell, one READ or two at the ring's end, a slot reserved for each
(R136). With no port nothing is fetched (R80). Answers whether it fetched. -/
def State.fetch (s : State) (f n : Nat) : Bool × State :=
  match s.sq f n with
  | none => (false, s)
  | some q =>
    match s.cq f q.cq, s.workPort f with
    | some k, some p =>
      let want := sub32 q.tail q.fetched - q.reading
      if !s.mayFetch f q || want = 0 then (false, s)
      else
        let m := min want (min (64 - q.inBell) k.room)
        let s := if k.room < want then s.askHead f q.cq k else s
        if m = 0 then (false, s)
        else
          let first := (q.fetched + q.reading) % 2 ^ 32
          let head := min m (q.size - first % q.size)
          let s := s.setSq f n fun q => { q with reading := q.reading + m, inBell := q.inBell + m }
          let s := s.setCq f q.cq fun k => { k with reserved := k.reserved + m }
          let s := s.issue ⟨f, some p, false, .entries n first head⟩
          (true, if head < m then s.issue ⟨f, some p, false, .entries n ((first + head) % 2 ^ 32) (m - head)⟩ else s)
    | _, _ => (false, s)

/-- Fetches for a function, round-robin from the ring after the one served first in the previous bell (R136;
notes/assumptions/77.md). -/
def State.fetchFn (s : State) (f : Nat) : State :=
  let mine := s.sqs.filter fun e => e.1 / 1024 = f
  let rr := (s.fn f).rr
  let order := (mine.filter fun e => e.1 % 1024 > rr) ++ mine.filter fun e => e.1 % 1024 ≤ rr
  let r := order.foldl (fun (a : Option Nat × State) e =>
    let (did, s) := a.2.fetch f (e.1 % 1024)
    (if did && a.1.isNone then some (e.1 % 1024) else a.1, s)) ((none : Option Nat), s)
  match r.1 with
  | some n => r.2.setFn f fun g => { g with served := some (g.served.getD n) }
  | none => r.2

/-- Fetches for every function that has entries to fetch, as a bell opens (R136). -/
def State.fetchAll (s : State) : State :=
  ((s.sqs.filter fun e => sub32 e.2.tail e.2.fetched > e.2.reading).map fun e => e.1 / 1024).eraseDups.foldl
    State.fetchFn s

/-! ### Checks -/

/-- Whether a command is past its checks and has started or waits: an entry that passes its checks starts, but for its own waits,
before the entry behind it is checked (R154; notes/assumptions/35.md). -/
def Cmd.settled (c : Cmd) : Bool := c.checkedYet && c.point ≠ .checked

/-- The first entry of a ring whose checks can run: every earlier one has passed its own (R154). -/
def nextToCheck (q : Sq) : Option Cmd :=
  match q.cmds.dropWhile Cmd.settled with
  | c :: _ => if c.point = .fetched && c.ending.isNone then some c else none
  | [] => none

/-- The checks of an entry once its chained list, if any, is known (R170 step 12, R193). -/
def State.checkBuffer (s : State) (r : Ref) (c : Cmd) : State :=
  match bufferFails s c with
  | some (st, fld) => s.failCheck r st fld []
  | none =>
    if hasBlock c.opcode then (s.atPoint r .block).issue ⟨r.fn, s.cmdPort r.fn c.port, false, .block r⟩
    else s.atPoint r .checked

/-- The checks of an entry (R170): steps 1 to 11, then the fetch of the chained list or step 12. The list
of a command fetched before a commit point is read during the drain: the model's choice (notes/assumptions/11.md). -/
def State.checkEntry (s : State) (r : Ref) (c : Cmd) : State :=
  match entryFails s r c with
  | some (st, fld) => s.failCheck r st fld []
  | none =>
    if c.chained then (s.atPoint r .list).issue ⟨r.fn, s.cmdPort r.fn c.port, false, .list r⟩
    else s.checkBuffer r c

/-- Checks a ring's entries in ring order while the ring is not frozen (R154, R171). -/
def State.checkLoop (f n : Nat) : Nat → State → State
  | 0, s => s
  | k + 1, s =>
    match s.sq f n with
    | some q =>
      if q.frozen then s
      else match nextToCheck q with
        | some c => State.checkLoop f n k (s.checkEntry ⟨f, n, c.tag⟩ c)
        | none => s
    | none => s

def State.checkRing (s : State) (f n : Nat) : State :=
  State.checkLoop f n ((((s.sq f n).map fun q => q.cmds.length).getD 0) + 1) s

/-! ### Entries that arrive -/

/-- The tag a fetched entry is kept under: its own, or one above 65,535 where a command outstanding as it is fetched has that
tag, which fails its check (R137). -/
def freshTag (cmds : List Cmd) (t : Nat) : Nat :=
  if !cmds.any fun c => c.tag % 65536 = t then t
  else (((List.range (cmds.length + 1)).map fun k => t + 65536 * (k + 1)).find? fun x => !cmds.any fun c => c.tag = x).getD (t + 65536)

/-- A fetched command, nothing done yet. -/
def newCmd (tag pos order : Nat) (port : PortId) (e : Bytes) : Cmd :=
  { tag := tag, pos := pos, order := order, entry := e, port := port, point := .fetched, list := [], block := [], data := [], seen := 0,
    startBell := 0, startStill := 0, units := [], queuedBell := 0, drainBell := none, ledger := none, slices := 0, bad := none, ending := none }

/-- Takes one arrived entry (R136): FETCHED advances. A manager's management command wakes the module (R532). An entry a DISCARD covers completes at once (R178); a SCAN or RUN
that arrives while its function drains completes with ABORTED (R95). -/
def State.takeEntry (s : State) (f n : Nat) (port : PortId) (e : Bytes) : State :=
  match s.sq f n with
  | none => s
  | some q =>
    let tag := freshTag q.cmds (le e 2 2)
    let s := s.setSq f n fun q => { q with
      fetched := (q.fetched + 1) % 2 ^ 32, reading := q.reading - 1
      cmds := q.cmds ++ [newCmd tag q.fetched s.jobOrder port e] }
    let s := { s with jobOrder := s.jobOrder + 1 }
    let s := if isManager f && byteAt e 0 ≥ 0x40 then s.wakeUp else s
    match q.discard with
    | (tail, k, sq, t) :: ds =>
      if sub32 tail q.fetched = 0 || sub32 tail q.fetched > q.size then s
      else
        let s := s.setSq f n fun q => { q with discard := (tail, k + 1, sq, t) :: ds }
        s.fail ⟨f, n, tag⟩ NOT_STARTED_FROZEN 0xFFFF
    | [] =>
      if (s.fn f).state = .quiescing && jobOp (byteAt e 0) then s.fail ⟨f, n, tag⟩ ABORTED 0xFFFF else s

/-- Takes arrived entries in ring order until one would exceed a job limit (R337); the slots of the rest are freed. -/
def State.takeEntries (f n : Nat) (port : PortId) : List Bytes → State → State
  | [], s => s
  | e :: es, s =>
    let full := jobOp (byteAt e 0) && (s.jobCmds (fun _ => true) ≥ 2048 || s.jobCmds (· = f) ≥ 64)
    if full then
      let left := es.length + 1
      let cq := ((s.sq f n).map (·.cq)).getD 0
      (s.setSq f n fun q => { q with reading := q.reading - left }).setCq f cq fun k =>
        { k with reserved := k.reserved - left }
    else State.takeEntries f n port es (s.takeEntry f n port e)

/-- Ends the first DISCARD of a ring if every entry up to its TAIL is discarded: RESTART RING completes last (R178). -/
def State.endDiscard (s : State) (f n : Nat) : State :=
  match s.sq f n with
  | some q =>
    match q.discard with
    | (tail, k, sq, t) :: ds =>
      if q.fetched = tail then
        let s := s.setSq f n fun q => { q with discard := ds }
        match s.cmd ⟨f, sq, t⟩ with
        | some c => s.complete ⟨f, sq, t⟩ { status := SUCCESS, result := BitVec.ofNat 64 k, ledger := c.ledger }
        | none => s
      else s
    | [] => s
  | none => s

/-- Every DISCARD of a ring that is complete ends, in order of commit (R178). -/
def State.finishDiscard (s : State) (f n : Nat) : State :=
  (List.range (((s.sq f n).map fun q => q.discard.length).getD 0)).foldl (fun s _ => s.endDiscard f n) s

/-- The oldest READ of entries of a ring in flight: first count, number and port. -/
def State.reads (s : State) (f n : Nat) : Option (RdmaOp × Nat × Nat) :=
  s.rdma.findSome? fun o => match o.kind with
    | .entries sq first k => if o.fn = f && sq = n && s.arrives o then some (o, first, k) else none
    | _ => none

/-- ENTRY_FETCH_RESPONSE (R136): entries arrive, FETCHED advances and they are checked in ring order. A READ that no
longer continues the ring fetches nothing. -/
def execEntryFetchResponse (fn sq : Nat) (data : Bytes) (s : State) : Res' :=
  match s.reads fn sq, s.sq fn sq with
  | some (o, first, k), some q =>
    let s := s.answered fn o.kind
    if first ≠ q.fetched then
      go ((s.setSq fn sq fun q => { q with reading := q.reading - k }).setCq fn q.cq fun c =>
        { c with reserved := c.reserved - k })
    else
      let es := (List.range k).map fun i => slice data (64 * i) 64
      let s := State.takeEntries fn sq (o.port.getD .A) es s
      go (((s.checkRing fn sq).finishDiscard fn sq).fetchFn fn)
  | _, _ => go s

/-! ### Polls -/

/-- Highest submission ring of a function on a doorbell page (R130, R133). -/
def State.topRing (s : State) (f page : Nat) : Option Nat :=
  (s.sqs.filter fun e => e.1 / 512 = 2 * f + page).getLast?.map fun e => e.1 % 512

/-- Whether a page of a function is active: some ring of it is ACTIVE (R134). -/
def State.pageActive (s : State) (f page : Nat) : Bool :=
  s.sqs.any fun e => e.1 / 512 = 2 * f + page && !e.2.dozing && decide (e.2.activeFrom ≤ s.bell.now)

/-- Whether a function has a doorbell page (R124, R130): a manager has none until it defines one (notes/assumptions/34.md). -/
def Fn.hasPage (g : Fn) (f : Nat) : Bool := !isManager f || g.dbAddr ≠ 0 || g.dbRkey ≠ 0

/-- Whether a page's poll falls due in this bell (R55, R86, R134, R135). -/
def State.pollDue (s : State) (f page : Nat) : Bool :=
  let g := s.fn f
  let n := if s.pageActive f page then max 1 g.pollN else 4096
  g.hasPage f && !g.polled.contains page && (g.left.contains page || g.knockDue || s.bell.now % n = g.phase % n)

/-- The place of a due poll in the order of issue (R135): polls left over, knock polls, scheduled polls by phase. -/
def State.pollRank (s : State) (f page : Nat) : Nat :=
  let g := s.fn f
  if g.left.contains page then 0 else if g.knockDue then 1 else 2 + g.phase

/-- Whether a page's poll can be issued in this bell, but for the limit (R95, R135). -/
def State.pollReady (s : State) (f page : Nat) : Bool :=
  decide (page < 2) && (s.topRing f page).isSome && (s.workPort f).isSome && s.boot.ready && (s.fn f).state = .active &&
    s.pollDue f page

/-- Whether a poll that goes first is still to be issued (R135). -/
def State.pollBehind (s : State) (f page : Nat) : Bool :=
  s.fns.any fun e => [0, 1].any fun k =>
    s.pollReady e.1 k && !e.2.polling.contains k && decide (s.pollRank e.1 k < s.pollRank f page)

/-- DOORBELL_POLL_ISSUE (R55, R135): the READ of a due page, in the order of issue; at most 2,048 per bell, one left over is
counted (notes/assumptions/44.md); one whose previous poll is in flight is merged with it. -/
def execDoorbellPollIssue (fn page : Nat) (s : State) : Res' :=
  let g := s.fn fn
  match s.topRing fn page, s.workPort fn with
  | some top, some p =>
    if !s.pollReady fn page then go s
    else if g.polling.contains page then
      go (s.setFn fn fun g => { g with left := g.left.erase page, polled := page :: g.polled })
    else if s.pollBehind fn page then go s
    else if s.bell.polls ≥ 2048 then
      if g.left.contains page then go s
      else go (s.setFn fn fun g => { g with
        left := g.left ++ [page], pollDefer := satAdd 32 g.pollDefer 1, polled := page :: g.polled })
    else
      let s := s.setFn fn fun g => { g with
        left := g.left.erase page, polling := g.polling ++ [page], polled := page :: g.polled }
      let s := { s with bell := { s.bell with polls := s.bell.polls + 1 } }
      go (s.issue ⟨fn, some p, false, .page page (top + 1)⟩)
  | _, _ => go s

/-- The error-log entry of an invalid doorbell (R133, Table 6.3). -/
def State.doorbellEntry (s : State) (q : Sq) (n : Nat) (w : W64) (i : Nat) : Bytes :=
  record 64 [(0, 8, s.bell.now), (8, 8, s.ledger), (16, 4, q.fetched), (20, 2, n), (24, 1, INVALID_FIELD), (26, 1, 1),
    (27, 1, i), (28, 2, 0xFFFF), (30, 2, (q.cmds.filter fun c => !c.started).length), (32, 8, w.toNat)]

/-- An invalid doorbell freezes its ring, logs the word and is notified by RING_FROZEN (R133, R150, R171). -/
def State.doorbellFreeze (s : State) (f n : Nat) (q : Sq) (w : W64) : State :=
  let log := (logEntry q.errlog (s.doorbellEntry q n w)).1
  (s.setSq f n fun q => { q with frozen := true, errlog := log, cmds := q.cmds.map Cmd.unchecked }).notify f
    (BitVec.ofNat 32 (0x20000000 + n))

/-- Judges one doorbell word (R127, R133); a ring found advanced wakes the module (R532). The word of a ring that is not ACTIVE yet
is passed over (notes/assumptions/79.md). -/
def State.judgeWord (s : State) (f n : Nat) (w : W64) : State :=
  match s.sq f n with
  | none => s
  | some q =>
    if q.activeFrom > s.bell.now then s
    else if bits w.toNat 63 32 ≠ q.gen then s.setFn f fun g => { g with dbStale := satAdd 32 g.dbStale 1 }
    else
      let d := sub32 (bits w.toNat 31 0) q.fetched
      if d = 0 then s
      else if d < q.size then
        (s.setSq f n fun q => { q with tail := bits w.toNat 31 0, dozing := false, lastAdv := s.bell.now }).wakeUp
      else if q.frozen then s
      else s.doorbellFreeze f n q w

/-- The poll of a page in flight, with the words it reads. -/
def State.pagePoll (s : State) (f page : Nat) : Option (RdmaOp × Nat) :=
  s.rdma.findSome? fun o => match o.kind with
    | .page p k => if o.fn = f && p = page && s.arrives o then some (o, k) else none
    | _ => none

/-- DOORBELL_POLL_RESPONSE (R133): each word read is judged, then entries are fetched. -/
def execDoorbellPollResponse (fn page : Nat) (words : List W64) (s : State) : Res' :=
  match s.pagePoll fn page with
  | none => go s
  | some (o, k) =>
    let s := (s.answered fn o.kind).setFn fn fun g => { g with polling := g.polling.erase page }
    let s := (List.range k).foldl (fun s i => s.judgeWord fn (512 * page + i) (words.getD i 0)) s
    go (s.fetchFn fn)

/-- RING_DOZE (R134): a ring not advanced for 256 bells. -/
def execRingDoze (fn sq : Nat) (s : State) : Res' :=
  match s.sq fn sq with
  | some q =>
    if decide (q.lastAdv + 256 ≤ s.bell.now) then go (s.setSq fn sq fun q => { q with dozing := true }) else go s
  | none => go s

/-- A number in network byte order. -/
def be (b : Bytes) (k n : Nat) : Nat := le ((b.drop k).take n).reverse 0 n

/-- Whether a datagram is a knock the module accepts, but for the limits of R85 (R84, Table 3.4). -/
def State.knockOk (s : State) (p : PortId) (k : KnockPkt) : Bool :=
  let b := k.payload
  let f := be b 4 2
  k.udpOk && b.length = 32 && be b 0 2 = 0x4A4B && byteAt b 2 = 1 && byteAt b 3 = 0 && f < 4096 && zeros b 6 2 &&
    zeros b 12 20 && s.ownAddr p k.dst && (s.fn f).state = .active && lookD (s.fn f).qpAddr 0 p.num = k.src

/-- KNOCK (R83 to R86): an accepted knock makes a poll due in the next bell, wakes the module and is traced. A further knock for the
function in the bell, on whichever port, is merged; one past 64 of the port or 8 of the source is dropped. A datagram to another UDP
port is no knock; one to the knock port at an address not the port's is one that is dropped (notes/assumptions/78.md). -/
def execKnock (p : PortId) (k : KnockPkt) (s : State) : Res' :=
  let q := s.port p
  if q.state ≠ .up then go s
  else if k.dstPort ≠ s.net.knockUdp then go s
  else
    let f := be k.payload 4 2
    if !s.knockOk p k then go (s.setPort p fun q => { q with knockDrop := satAdd 64 q.knockDrop 1 })
    else if (s.fn f).knocked then go (s.setPort p fun q => { q with knockMerge := satAdd 64 q.knockMerge 1 })
    else if q.knockSrc.length ≥ 64 || (q.knockSrc.filter (· = k.src)).length ≥ 8 then
      go (s.setPort p fun q => { q with knockDrop := satAdd 64 q.knockDrop 1 })
    else
      let s := (s.setPort p fun q => { q with knockSrc := k.src :: q.knockSrc }).setFn f fun g => { g with knocked := true }
      let tr := (s.bell.now, f, p, BitVec.ofNat 32 (be k.payload 8 4))
      go { s with net := { s.net with knockTrace := tr :: s.net.knockTrace } }.wakeUp

/-! ### Head words, lists, blocks, data -/

/-- HEAD_WORD_RESPONSE (R144): HEAD_SEEN takes a valid HEAD, a stale word is counted, any other is counted bad. -/
def execHeadWordResponse (fn cq : Nat) (w : W64) (s : State) : Res' :=
  match s.cq fn cq with
  | none => go s
  | some k =>
    if !s.hears fn (.head cq) then go s
    else
      let s := s.answered fn (.head cq)
      if bits w.toNat 63 32 ≠ k.gen then go (s.setFn fn fun g => { g with dbStale := satAdd 32 g.dbStale 1 })
      else if sub32 (bits w.toNat 31 0) k.headSeen ≤ sub32 k.posted k.headSeen then
        go ((s.setCq fn cq fun k => { k with headSeen := bits w.toNat 31 0 }).fetchFn fn)
      else go (s.setFn fn fun g => { g with cqHeadBad := satAdd 32 g.cqHeadBad 1 })

/-- CHAINED_LIST_RESPONSE (R141): the list arrives and the buffer checks run; a list whose ring froze meanwhile is
discarded (R171). -/
def execChainedListResponse (r : Ref) (data : Bytes) (s : State) : Res' :=
  match s.cmd r with
  | some c =>
    if !s.hears r.fn (.list r) then go s
    else if c.point ≠ .list then go (s.answered r.fn (.list r))
    else
      let ts := triples (slice data 0 c.buf1.len)
      let s := (s.answered r.fn (.list r)).setCmd r fun c => { c with list := ts }
      go ((s.checkBuffer r { c with list := ts }).checkRing r.fn r.sq)
  | none => if s.hears r.fn (.list r) then go (s.answered r.fn (.list r)) else go s

/-- PARAMETER_BLOCK_RESPONSE (R193): the block arrives and its fields are checked, FIELD 0xFFFF (R602). -/
def execParameterBlockResponse (r : Ref) (data : Bytes) (s : State) : Res' :=
  match s.cmd r with
  | some c =>
    if !s.hears r.fn (.block r) then go s
    else if c.point ≠ .block then go (s.answered r.fn (.block r))
    else
      let b := slice data 0 (blockLen c)
      let s := (s.answered r.fn (.block r)).setCmd r fun c => { c with block := b }
      let s := match blockFails s r { c with block := b } with
        | some (st, d) => s.failCheck r st 0xFFFF d
        | none => s.atPoint r .checked
      go (s.checkRing r.fn r.sq)
  | none => if s.hears r.fn (.block r) then go (s.answered r.fn (.block r)) else go s

/-! ### Encryption on arrival (R26, R28) -/

/-- A unit of a holding as it is stored (R26, R256): sealed in the host interface with the holding's key and the unit's tweak. -/
def State.sealed (s : State) (h : Nat) (kind : Kind) (lclass addr off tweak n : Nat) (b : Bytes × Bool) : StUnit :=
  ⟨s.holdKey h, tweak, h, kind, lclass, b.2, addr, off, n, xtsSeal (s.holdKey h) tweak b.1⟩

/-- Units of a zone from offset `o` on, sealed. -/
def State.sealZone (s : State) (z o : Nat) (us : List (Bytes × Bool)) : List StUnit :=
  us.zipIdx.map fun u => s.sealed (zoneHold z) .zone 0 (zoneIdx z) (o + u.2) (zoneIdx z * 2 ^ 20 + o + u.2) 0 u.1

/-- The units that the data of a write makes: bytes and whether compressed (R28, R202). -/
def Cmd.unitsOf (c : Cmd) (data : Bytes) : List (Bytes × Bool) :=
  if c.opcode = 0x03 && c.compress then packUnits (cut4k data) []
  else (List.range c.cnt).map fun i => (slice data (4096 * i) 4096, false)

/-- The data of a write as it goes into staging (R26): ciphertext. A ZONE APPEND's offset is not known yet, and it is sealed for the write
pointer of the moment (notes/assumptions/94.md). -/
def State.sealIn (s : State) (c : Cmd) (data : Bytes) : List StUnit :=
  let us := c.unitsOf data
  if c.opcode = 0x02 then s.sealZone c.zkey c.offset us
  else if c.opcode = 0x03 then s.sealZone c.zkey (s.zone c.zkey).wp us
  else if c.opcode = 0x11 then us.zipIdx.map fun u => s.sealed c.f12 .random c.lclass (c.zone + u.2) 0 (2 ^ 63 + c.zone + u.2) 0 u.1
  else []

/-- A sealed unit under a key and a tweak: sealed anew where it stands under others. -/
def StUnit.under (u : StUnit) (key tweak : Nat) : StUnit :=
  if u.key = key && u.tweak = tweak then u
  else { u with key := key, tweak := tweak, data := xtsSeal key tweak (xtsOpen u.key u.tweak u.data) }

/-- DATA_READ_RESPONSE (R26, R156): the data of a started command arrives. Data of a write is enciphered and queued for staging (R29); data
of FIRMWARE DOWNLOAD does not go through staging. -/
def execDataReadResponse (r : Ref) (data : Bytes) (s : State) : Res' :=
  match s.cmd r with
  | some c =>
    if !s.hears r.fn (.data r) then go s
    else if c.point ≠ .data then go (s.answered r.fn (.data r))
    else go ((s.answered r.fn (.data r)).setCmd r fun c => { c with
      data := if c.opcode = 0x59 then slice data 0 (dataLen c) else [], units := s.sealIn c (slice data 0 (dataLen c))
      point := if c.opcode = 0x59 then .mirrored else .queued, queuedBell := s.bell.now, drainBell := none })
  | none => if s.hears r.fn (.data r) then go (s.answered r.fn (.data r)) else go s

/-! ### Acknowledgements and deadlines -/

/-- Whether an operation is output of the function, acknowledged with the completions after it (R149). -/
def RdmaOp.output (o : RdmaOp) : Bool :=
  match o.kind with
  | .outData _ _ _ _ | .jobOut _ _ _ | .notify _ => o.port.isSome
  | _ => false

/-- Bytes of a job's output an operation carries. -/
def State.creditOut (s : State) (o : RdmaOp) : State :=
  match o.kind with
  | .jobOut j _ b => { s with jobs := adj s.jobs j fun x => { x with delivered := x.delivered + b.length, paused := [] } }
  | _ => s

/-- Operations of a function up to its last acknowledged completion, and those after (n = 0: all of them). -/
def splitAcked (f : Nat) (done : List OpKind) (ops : List RdmaOp) : List RdmaOp × List RdmaOp :=
  if done.isEmpty then (ops, [])
  else
    let back := ops.reverse.dropWhile fun o => !(o.fn = f && done.contains o.kind)
    (back.reverse, ops.drop back.length)

/-- COMPLETION_ACK (R149): the host end acknowledges the `n` oldest completion writes of a ring, and with them every write
and notification of the function issued before; with n = 0, its writes and notifications alone. Waiting notifications
and ABORT completions follow (R148, R187). -/
def execCompletionAck (fn cq n : Nat) (s : State) : Res' :=
  match s.cq fn cq with
  | none => go s
  | some k =>
    let acked := (k.unacked.take n).takeWhile fun e => s.rdma.any fun o =>
      o.fn = fn && o.kind = .cqe cq e.1 e.2 && s.arrives o
    let done := acked.map fun e => OpKind.cqe cq e.1 e.2
    if n > 0 && done.isEmpty then go s
    else
      let (front, back) := splitAcked fn done s.rdma
      let gone := fun (o : RdmaOp) => o.fn = fn && s.arrives o && (o.output || done.contains o.kind)
      let s := (front.filter gone).foldl (fun s o => (s.creditOut o).progress o) { s with rdma := front.filter (fun o => !gone o) ++ back }
      let s := s.setCq fn cq fun k => { k with unacked := k.unacked.drop acked.length }
      let s := s.sendDue fn cq
      let hit := fun (a : AbortWait) => a.r.fn = fn && a.cq = cq && acked.any fun e => a.count = some e.1
      let free := s.aborts.filter hit
      let s := { s with aborts := s.aborts.filter fun a => !hit a }
      go (free.foldl (fun s a => s.complete a.r
        { status := a.status, ledger := (s.cmd a.r).bind (·.ledger) }) s)

/-- NOTIFY_DEADLINE (R148, R56): the bell of a pending notification's deadline. -/
def execNotifyDeadline (fn cq : Nat) (s : State) : Res' :=
  match s.cq fn cq with
  | some k =>
    match k.pendFrom with
    | some b =>
      if b + k.coBells ≤ s.bell.now then go ((s.setCq fn cq fun k => { k with pendNow := true }).sendDue fn cq) else go s
    | none => go s
  | none => go s

/-- Ends the module's work for a command that stops before its decision point: its media reads and its data moves. -/
def State.dropWork (s : State) (r : Ref) : State :=
  let s := s.dropReads fun x => match x with
    | .cmd q _ => decide (q = r)
    | _ => false
  { s with rdma := s.rdma.filter fun o => !(o.kind = .data r || o.kind = .list r || o.kind = .block r) }

/-- Time run since a bell, in µs, but for the bells in which no port was UP or an activation ran (R182). -/
def State.ranFor (s : State) (start still : Nat) : Nat := (s.bell.now - start - (s.bell.still - still)) * s.period

/-- INTERNAL_TIMEOUT (R182): 2 s after its start a command not past its decision point ends; nothing of it took effect.
The time stands still while no port is UP and during an activation, and none runs out for a REFURBISH that erases
(notes/assumptions/80.md). Jobs end by their own rules (R338). -/
def execInternalTimeout (r : Ref) (unit : Nat) (s : State) : Res' :=
  match s.cmd r with
  | some c =>
    let old := s.ranFor c.startBell c.startStill ≥ 2000000
    if c.started && c.point ≠ .decided && old && s.act.isNone && s.life.erasing ≠ some r && !jobOp c.opcode then
      let s := (s.dropWork r).complete r { status := INTERNAL_TIMEOUT, detail := [(32, 2, unit), (36, 24, le c.entry 8 24)] }
      go ((s.event 0x0072 3 r.fn [(32, 2, unit), (36, 2, r.fn), (38, 2, r.sq)]).checkRing r.fn r.sq)
    else go s
  | none => go s

/-! ### The end of a drain -/

/-- Whether a function's drain is over (R95): no command outstanding but unstarted ones of frozen rings, every
completion and notification acknowledged, no entry READ in flight. -/
def State.drained (s : State) (f : Nat) : Bool :=
  (s.sqs.all fun e => e.1 / 1024 ≠ f || (e.2.cmds.all fun c => e.2.frozen && !c.started && !jobOp c.opcode)) &&
    (s.cqs.all fun e => e.1 / 1024 ≠ f || (e.2.unacked.isEmpty && !e.2.pendNow && e.2.pendFrom.isNone)) &&
    !s.rdma.any fun o => o.fn = f && (match o.kind with
      | .entries _ _ _ | .notify _ | .cqe _ _ _ | .outData _ _ _ _ | .jobOut _ _ _ => true
      | _ => false)

/-- QUIESCE FUNCTION commands that wait for a function's drain. -/
def State.quiesceWaits (s : State) (f : Nat) : List Ref :=
  s.sqs.flatMap fun e => (e.2.cmds.filter fun c => c.opcode = 0x49 && c.f12 = f && c.point = .decided).map fun c =>
    ⟨e.1 / 1024, e.1 % 1024, c.tag⟩

/-- DRAIN_END (R95, R96): while a port is UP, the function enters QUIESCED and every pending QUIESCE FUNCTION for it completes; RESULT is the bell
in which the drain ended. -/
def execDrainEnd (fn : Nat) (s : State) : Res' :=
  if (s.fn fn).state = .quiescing && (s.portA.state = .up || s.portB.state = .up) && s.drained fn then
    let s := s.setFn fn fun g => { g with state := .quiesced, quietAt := s.bell.now }
    go ((s.quiesceWaits fn).foldl (fun s r => s.complete r
      { status := SUCCESS, result := BitVec.ofNat 64 s.bell.now, ledger := (s.cmd r).bind (·.ledger) }) s)
  else go s

end Sys2Proof.Machine
end

