-- ==== Sys2Proof/Machine/ZoneCmd.lean ====
section
/-! DEFINITION. Zone and random-area commands (chapters 7 and 8): when a checked command may start (R107, R154, R166, R238,
R292, R315, R317), READ, WRITE, ZONE APPEND, OPEN, CLOSE, FINISH, RESET, REPORT ZONES, RANDOM READ, RANDOM WRITE, RANDOM
TRIM, and the commit of a write (R156, R200). -/

namespace Sys2Proof.Machine

/-! ### When a command may start -/

/-- Whether a FLUSH before the command holds it back: one that still waits for a state-changing command (R166). -/
def flushHolds (cmds : List Cmd) (pos : Nat) : Bool :=
  (earlier cmds pos).any fun d => d.opcode = 0x18 && (earlier cmds d.pos).any Cmd.changes

/-- Whether a command waits for the end of a handover (R566): one that needs firmware at its start or decision point. -/
def State.waitsHandover (s : State) (op : Nat) : Bool :=
  (match s.act with
   | some a => decide (a.phase = 3)
   | none => false) && (decide (0x08 ≤ op ∧ op ≤ 0x0C) || op = 0x38 || ring0Op op)

/-- Whether a command may start, but for its own waits (R154, R166, R171, R188, R319): it has passed its checks, its ring
is not frozen, the module runs and no handover holds it (R566). While the journal is at 48 MiB no state-changing command starts
(R315). -/
def State.mayStart (s : State) (r : Ref) (c : Cmd) : Bool :=
  (c.point = .checked || c.point = .held) && c.ending.isNone && s.boot.ready && s.pwr.loss.isNone && !(c.changes && s.journalFull) &&
    !s.waitsHandover c.opcode &&
    (match s.sq r.fn r.sq with
     | some q => !q.frozen && !flushHolds q.cmds c.pos
     | none => false)

/-- A command that may start, by its reference and opcode. -/
def State.startable (s : State) (r : Ref) (op : Nat) : Option Cmd :=
  match s.cmd r with
  | some c => if c.opcode = op && s.mayStart r c then some c else none
  | none => none

/-- A ring goes on: entries that could not be checked are checked, and its function fetches. -/
def State.goOn (s : State) (f n : Nat) : State := (s.checkRing f n).fetchFn f

/-- After a start was tried (R154): a command that still waits is held, and the ring goes on. -/
def State.settle (s : State) (r : Ref) : State :=
  match s.sq r.fn r.sq, s.cmd r with
  | some q, some c =>
    (if c.point = .checked && !q.frozen && s.boot.ready && s.pwr.loss.isNone then s.atPoint r .held else s).goOn r.fn r.sq
  | _, _ => s.goOn r.fn r.sq

/-- The start of the command a reference names, where it may start (R153, R154). -/
def State.start (s : State) (r : Ref) (op : Nat) (k : Cmd → State) : Res' :=
  match s.startable r op with
  | some c => go ((k c).settle r)
  | none => match s.cmd r with
    | some c => if c.opcode = op then go (s.settle r) else go s
    | none => go s

/-- What a command costs its rate classes (R107, R451, Table 4.3): class and cost, in operations or bytes. -/
def rateCost (c : Cmd) : List (Nat × Nat) :=
  match c.opcode with
  | 0x01 | 0x10 => [(0, 1), (1, c.cnt * 4096)]
  | 0x02 | 0x03 | 0x11 => [(2, c.cnt * 4096)]
  | 0x2A | 0x2B => [(0, 1)]
  | _ => []

/-- The outcome of the rate ceilings: barred, waiting, or the buckets after paying. -/
inductive Rate where
  | barred
  | wait
  | pay (b : List Int)

/-- Judges a command against its function's buckets (R107). -/
def State.rate (s : State) (f : Nat) (cost : List (Nat × Nat)) : Rate :=
  let g := s.fn f
  let gain := fun k => bucketGain g.eff s.period k
  if cost.any fun e => gain e.1 = 0 then .barred
  else if cost.all fun e =>
      let v := g.buckets.getD e.1 0
      if e.2 * 1000000 ≤ 64 * gain e.1 then decide (v ≥ (e.2 * 1000000 : Nat)) else decide (v ≥ (64 * gain e.1 : Nat)) then
    .pay (g.buckets.mapIdx fun i v => v - ((cost.filter (·.1 = i)).foldl (fun n e => n + e.2 * 1000000) 0 : Nat))
  else .wait

/-- Starts a command under its rate ceilings (R107): barred, it completes with NOT_PERMITTED; short of credit, it waits. -/
def State.underRate (s : State) (r : Ref) (c : Cmd) (k : State → State) : State :=
  match s.rate r.fn (rateCost c) with
  | .barred => (s.fail r NOT_PERMITTED 0xFFFF)
  | .wait => s
  | .pay b => k (s.setFn r.fn fun g => { g with buckets := b })

/-! ### Reads -/

/-- One unit a read gathers: its plaintext where it needs no array read, and the slice that reads it where it does. -/
abbrev Piece := Bytes × Option Slice

/-- A unit of zeros. -/
def zeroUnit : Bytes := slice [] 0 4096

/-- Adds a slice to planned reads: units of one page are one array read (R259). -/
def addSlice (x : Slice) : List Slice → List Slice
  | [] => [x]
  | y :: ys =>
    if y.die = x.die && y.slot = x.slot && y.wl = x.wl && y.page = x.page && y.cls = x.cls && y.phase = x.phase &&
        y.wants.all fun e => !x.wants.any (·.1 = e.1) then
      { y with wants := y.wants ++ x.wants } :: ys
    else y :: addSlice x ys

/-- The array reads of a list of slices. -/
def joinSlices (xs : List Slice) : List Slice := xs.foldl (fun l x => addSlice x l) []

/-- The read slice of unit `o` of a slot (R259, R264). -/
def State.unitSlice (s : State) (n o : Nat) (w : SliceFor) : Slice :=
  let m := (s.puMem n (o / 64)).2
  ⟨m.die, slotIdx n, rowOf o, unitPage (inUnit o), [(inUnit o, w)], 1, .queued⟩

/-- Unit `o` of a zone as a READ finds it (R198, R234): zeros at and above the write pointer, staged data, or flash. -/
def State.zonePiece (s : State) (z o : Nat) (w : SliceFor) : Piece :=
  match look s.units (unitNo z o), (s.zone z).slot with
  | some u, some n =>
    if s.inStaging (s.zone z) n o then (xtsOpen u.key u.tweak u.data, none) else (zeroUnit, some (s.unitSlice n o w))
  | _, _ => (zeroUnit, none)

/-- A random-area unit as RANDOM READ finds it (R210). -/
def State.randPiece (s : State) (h u : Nat) (w : SliceFor) : Piece :=
  match look s.rand (randNo h u) with
  | none => (zeroUnit, none)
  | some x =>
    if s.randStaged x.slot x.off then (xtsOpen x.unit.key x.unit.tweak x.unit.data, none)
    else (zeroUnit, some (s.unitSlice x.slot x.off w))

/-- Starts a read of the given pieces (R153, R162): the map lookup is taken here; units on flash become read slices, those of one page
one array read (R259); `lost` is the first unit a restore lost (R328). -/
def State.startRead (s : State) (r : Ref) (ps : List Piece) (lost : Option Nat) : State :=
  let sl := ps.filterMap (·.2)
  let s := (s.begin_ r .running).setCmd r fun c => { c with data := ps.flatMap (·.1), slices := sl.length, bad := lost }
  if sl.isEmpty then s.finishRead r else s.setMedia fun m => { m with slices := m.slices ++ joinSlices sl }

/-- READ (R198): COUNT units from OFFSET, in any zone state and in a fenced zone. -/
def State.doRead (s : State) (r : Ref) (c : Cmd) : State :=
  s.underRate r c fun s => s.startRead r ((List.range c.cnt).map fun i => s.zonePiece c.zkey (c.offset + i) (.cmd r i))
      ((List.range c.cnt).find? fun i => s.media.lostUnits.contains (unitNo c.zkey (c.offset + i)))

def execRead (r : Ref) (s : State) : Res' :=
  s.start r 0x01 fun c => s.doRead r c

/-- RANDOM READ (R210). -/
def State.doRandomRead (s : State) (r : Ref) (c : Cmd) : State :=
  s.underRate r c fun s => s.startRead r ((List.range c.cnt).map fun i => s.randPiece c.f12 (c.zone + i) (.cmd r i))
    ((List.range c.cnt).find? fun i => s.media.lostUnits.contains (lostRand (randNo c.f12 (c.zone + i))))

def execRandomRead (r : Ref) (s : State) : Res' :=
  s.start r 0x10 fun c => s.doRandomRead r c

/-! ### Reports -/

/-- A zone descriptor (Table 7.5). -/
def State.descriptor (s : State) (h z : Nat) : Bytes :=
  let x := s.zone (zoneNo h z)
  record 16 [(0, 4, z), (4, 1, x.st.num), (5, 1, b01 x.fence.isSome), (6, 1, x.lclass), (7, 1, x.sgroup), (8, 4, x.wp)]

/-- REPORT ZONES (R207): descriptors from ZONE on, up to the quota. -/
def State.doReport (s : State) (r : Ref) (c : Cmd) : State :=
  let n := min c.cnt (s.quota c.f12 - c.zone)
  let s := (s.begin_ r .decided).sendOut r 0 ((List.range n).flatMap fun i => s.descriptor c.f12 (c.zone + i))
  s.complete r { status := SUCCESS, result := BitVec.ofNat 64 n }

def execReportZones (r : Ref) (s : State) : Res' :=
  s.start r 0x0C fun c => s.doReport r c

/-! ### Starting a write -/

/-- Dies that a move of a slot's fill from `a` to `b` gives a complete program unit. -/
def State.unitDies (s : State) (n a b : Nat) : List DieId :=
  (List.range (b / 64 - a / 64)).map fun i => (s.puMem n (a / 64 + i)).2.die

/-- Whether a die has a complete program unit waiting (R315). -/
def State.unitWaits (s : State) (d : DieId) : Bool := s.media.work.any fun w => w.why = .host && w.die = d

/-- Whether every ward a RANDOM WRITE reaches can take its units, beside those that writes under way will bring (R288, R292). -/
def State.randFits (s : State) (r : Ref) (c : Cmd) : Bool :=
  (List.range 4).all fun w => wardUnits c w = 0 || s.randRoom w r (s.cmdStream c) (wardUnits c w)

/-- What data brings when it commits: dies a complete program unit, and what it adds to partial units and rows. -/
abbrev Staging := List DieId × Nat × Nat

def Staging.and (a b : Staging) : Staging := (a.1 ++ b.1, a.2.1 + b.2.1, a.2.2 + b.2.2)

/-- The load of a fill that moves from `a` to `e` in a slot, or in none yet. -/
def State.moveLoad (s : State) (slot : Option Nat) (a e : Nat) : Staging :=
  (match slot with
   | some m => s.unitDies m a e
   | none => [], e % 64 - a % 64, b01 (a % 2048 = 0 && e % 2048 ≠ 0))

/-- Writes of a kind under way, but for one: started, and not yet committed. -/
def State.underWay (s : State) (but : Ref) (kind : Nat → Bool) : List Cmd :=
  s.sqs.flatMap fun e => e.2.cmds.filter fun c => kind c.opcode && c.started && c.point ≠ .decided &&
    decide (Ref.mk (e.1 / 1024) (e.1 % 1024) c.tag ≠ but)

/-- Units that writes under way, but for one, will bring to a zone. -/
def State.comingZone (s : State) (k : Nat) (but : Ref) : Nat :=
  ((s.underWay but isZoneWrite).filter fun c => c.zkey = k).foldl (fun n c => n + c.cnt) 0

/-- The load of `n` units on a zone after `o` others. -/
def State.zoneLoad (s : State) (k o n : Nat) : Staging := s.moveLoad (s.zone k).slot ((s.zone k).wp + o) ((s.zone k).wp + o + n)

/-- The load of `n` units on a stream of a ward after `o` others: in its open slot, or in the next free one. -/
def State.streamLoad (s : State) (w st o n : Nat) : Staging :=
  match look s.media.streams (w * 16 + st) with
  | some (m, off) => s.moveLoad (some m) (min (off + o) (2 ^ 20)) (min (off + o + n) (2 ^ 20))
  | none => s.moveLoad (s.freeRand w).head? o (o + n)

/-- The load of a RANDOM WRITE, over the wards it reaches. -/
def State.randLoad (s : State) (r : Ref) (c : Cmd) : Staging :=
  (List.range 4).foldl (fun (a : Staging) w =>
    if wardUnits c w = 0 then a else a.and (s.streamLoad w (s.cmdStream c) (s.comingTo w (s.cmdStream c) r) (wardUnits c w))) ([], 0, 0)

/-- The load of all writes under way, but for one. -/
def State.othersLoad (s : State) (but : Ref) : Staging :=
  let zs := ((s.underWay but isZoneWrite).map Cmd.zkey).eraseDups
  let a := zs.foldl (fun (a : Staging) k => a.and (s.zoneLoad k 0 (s.comingZone k but))) ([], 0, 0)
  if (s.underWay but fun op => op = 0x11).isEmpty then a
  else (List.range 64).foldl (fun (a : Staging) i =>
    let n := s.comingTo (i / 16) (i % 16) but
    if n = 0 then a else a.and (s.streamLoad (i / 16) (i % 16) 0 n)) a

/-- Units that writes under way will bring to staging (R238): started, and not yet committed. -/
def State.promised (s : State) : Nat :=
  let mine := fun (c : Cmd) => (isZoneWrite c.opcode || c.opcode = 0x11) && c.started && c.point ≠ .decided
  s.sqs.foldl (fun n e => (e.2.cmds.filter mine).foldl (fun k c => k + c.cnt) n) 0

/-- Whether the staging ceiling (R238), a second waiting unit on a die (R315), or the dump and the bank (R317) hold back
`n` units of the given load, beside all that is under way. -/
def State.loadHeld (s : State) (but : Ref) (n : Nat) (l : Staging) : Bool :=
  let o := s.othersLoad but
  s.stagedTotal + s.promised + n + 256 * (l.2.2 + o.2.2) > stagingCeiling || (l.1.any fun d => s.unitWaits d || o.1.contains d) ||
    s.inhibit (l.2.1 + o.2.1) (l.2.2 + o.2.2) (!(l.1 ++ o.1).isEmpty) % 4 ≠ 0

/-- Whether an append of a job to a zone is held back (R238, R315, R317). -/
def State.zoneHeld (s : State) (k n : Nat) : Bool :=
  s.pwr.loss.isSome || s.journalFull || s.loadHeld noRef n (s.zoneLoad k (s.comingZone k noRef) n)

/-- Whether a write is held back; a random-area slot counts too (R292). -/
def State.writeHeld (s : State) (r : Ref) (c : Cmd) : Bool :=
  if c.opcode = 0x11 then s.loadHeld r c.cnt (s.randLoad r c) || !s.randFits r c
  else s.loadHeld r c.cnt (s.zoneLoad c.zkey (s.comingZone c.zkey r) c.cnt)

/-- Starts a write (R156): its data is read from the host. -/
def State.startWrite (s : State) (r : Ref) (c : Cmd) : State :=
  if s.writeHeld r c then s
  else s.underRate r c fun s => (s.begin_ r .data).issue ⟨r.fn, s.cmdPort r.fn c.port, false, .data r⟩

/-- WRITE (R199): starts; its commit follows once its data is mirrored. -/
def execWrite (r : Ref) (s : State) : Res' :=
  s.start r 0x02 fun c => s.startWrite r c

/-- ZONE APPEND (R201). -/
def execZoneAppend (r : Ref) (s : State) : Res' :=
  s.start r 0x03 fun c => s.startWrite r c

/-- RANDOM WRITE (R209). -/
def execRandomWrite (r : Ref) (s : State) : Res' :=
  s.start r 0x11 fun c => s.startWrite r c

/-! ### Decision points -/

/-- Whether a command's turn at its decision point has come (R164). -/
def State.turn (s : State) (r : Ref) (c : Cmd) : Bool :=
  match s.sq r.fn r.sq with
  | some q => !orderWaits q.cmds c
  | none => false

/-- Whether a zone's fence stops a command at its decision point (R183): any fence but one that a later entry of its own
ring set, which the command precedes. -/
def State.fencedFor (s : State) (r : Ref) (c : Cmd) : Bool :=
  match (s.zone c.zkey).fence with
  | none => false
  | some (ring, pos) => !(ring = ringNo r.fn r.sq && c.pos ≠ pos && decide (sub32 pos c.pos < 2 ^ 31))

/-- What a command is judged by again at its decision point (R106, R164, R183, R200). -/
def State.decides (s : State) (r : Ref) (c : Cmd) : Option (Nat × Nat) :=
  let op := c.opcode
  firstFail (step5 s c ++ [(zoneOrdered op && s.fencedFor r c, ZONE_FENCED, 8),
    (zoneOrdered op && stateForbids op (s.zone c.zkey).st, ZONE_STATE_INVALID, 8),
    (op = 0x02 && (s.zone c.zkey).wp ≠ c.offset, WRITE_POINTER_MISMATCH, 12)] ++ step10 s c ++ step11 s r c)

/-- The partial state of a zone comes back to staging: a parked copy is restored and released, a parking under way is
cancelled (R236, R531). -/
def State.unpark (s : State) (z : Nat) : State :=
  match (s.zone z).park with
  | .parked _ => { s with staged := s.staged + (s.zone z).wp % 64 }.unparkZone z
  | _ => s.unparkZone z

/-- Stores units at a zone's write pointer with ledger number `n` (R26, R156, R203, R232, R234). -/
def State.store (s : State) (z n lclass : Nat) (us : List StUnit) : State :=
  let s := s.unpark z
  let x := s.zone z
  let h := zoneHold z
  let e := x.wp + us.length
  let units := us.zipIdx.foldl (fun t u =>
    let o := x.wp + u.2
    put t (unitNo z o) { u.1.under (s.holdKey h) (zoneIdx z * 2 ^ 20 + o) with
      hold := h, kind := .zone, lclass := lclass, addr := zoneIdx z, off := o, ledger := n }) s.units
  let s := { s with units := units, staged := s.staged + us.length }
  let s := { s with health := { s.health with hostUnits := s.health.hostUnits + us.length } }
  let s := s.setZone z fun x => { x with wp := e, st := if e = 2 ^ 20 then .full else x.st }
  let s := match x.slot with
    | some k => s.queueUnits k x.wp e 4 (s.ownerOf h)
    | none => s
  s.journalRec 1

/-- The commit of a WRITE or ZONE APPEND whose turn has come (R156, R199 to R203). -/
def State.commitZone (s : State) (r : Ref) (c : Cmd) : State :=
  let us := c.units
  match s.decides r c with
  | some (st, f) => s.fail r st f
  | none =>
    let a := (s.zone c.zkey).wp
    if a + us.length > 2 ^ 20 then s.fail r ZONE_FULL 16
    else
      let (n, s) := s.commit
      let s := s.store c.zkey n (s.zone c.zkey).lclass us
      s.complete r {
        status := SUCCESS
        result := BitVec.ofNat 64 (if c.opcode = 0x02 then a + us.length else a % 2 ^ 20 + us.length * 2 ^ 32)
        ledger := some n }

/-- The commit of a RANDOM WRITE (R156, R209, R247 to R251). -/
def State.commitRandom (s : State) (r : Ref) (c : Cmd) : State :=
  match s.decides r c with
  | some (st, f) => s.fail r st f
  | none =>
    if !s.randFits r c then s
    else
      let h := c.f12
      let st := s.cmdStream c
      let (n, s) := s.commit
      let s := c.units.foldl (fun s u =>
        s.placeRand (u.addr / 2048 % 4) st 4 (s.ownerOf h) (randNo h u.addr)
          { u.under (s.holdKey h) (2 ^ 63 + u.addr) with ledger := n }) s
      let s := { s with health := { s.health with hostUnits := s.health.hostUnits + c.cnt } }
      let s := (List.range 4).foldl (fun s w => if wardUnits c w = 0 then s else s.raFit w) s
      s.complete r { status := SUCCESS, result := BitVec.ofNat 64 (s.raCount h), ledger := some n }

/-! ### Management -/

/-- A zone management command at its decision point: waits for its turn, is judged again, else takes a ledger number and
its effect (R156, R164, R204). -/
def State.manage (s : State) (r : Ref) (c : Cmd) (k : State → State) : State :=
  if !s.turn r c then s
  else match s.decides r c with
    | some (st, f) => s.fail r st f
    | none =>
      let s := s.begin_ r .running
      let (n, s) := s.commit
      (k s).complete r { status := SUCCESS, ledger := some n }

/-- p/e cycles by slot of a die row, summed over the plane-blocks that serve the slot (R245). -/
def State.rowWear (s : State) (w row : Nat) : Tab Nat :=
  s.media.wear.foldl (fun t e =>
    let d := dieOf (e.1 / 4096 / 4)
    let plane := e.1 / 4096 % 4
    let k := s.slotOfBlock d plane (e.1 % 4096)
    match s.memberOf d with
    | some (a, b, _) => if a = w && b = row && s.block d plane k = e.1 % 4096 then adjD t 0 k (· + e.2) else t
    | none => t) []

/-- Free slots of a die row, releasing ones among them. -/
def State.rowFree (s : State) (w row : Nat) : Nat :=
  (if row < 18 then 2836 else 2835) -
    count (fun n u => slotWard n = w && slotRow n = row && bornZone n && !u.isFree) s.media.slots

/-- Whether a die row has a rebuild running or a failed die (R245). -/
def State.rowDegraded (s : State) (w row : Nat) : Bool :=
  (s.media.members.any fun e => e.1 / 36 = w * 26 + row && (e.2.rebuilding || e.2.failed)) ||
    s.media.dies.any fun e => e.2.failed && (match s.memberOf (dieOf e.1) with
      | some (a, b, _) => a = w && b = row
      | none => false)

/-- OPEN zones of a die row. -/
def State.rowOpen (s : State) (w row : Nat) : Nat :=
  count (fun _ z => z.st = .open_ && (match z.slot with
    | some n => slotWard n = w && slotRow n = row
    | none => false)) s.zones

/-- Whether die row `a` comes before `b` (R245): fewer OPEN zones, then lower mean p/e of its free slots. -/
def State.rowBefore (s : State) (w a b : Nat) : Bool :=
  let x := s.rowOpen w a
  let y := s.rowOpen w b
  let sum := fun row => (s.rowWear w row).foldl (fun n e =>
    if (s.slotUse (slotNo w row e.1)).isFree then n + e.2 else n) 0
  x < y || (x = y && sum a * s.rowFree w b < sum b * s.rowFree w a)

/-- The slot of a die row (R245): the most worn below 1,500 cycles under SEGREGATE and class 8 to 15, else the least worn;
ties go to the lowest number. -/
def State.pickSlot (s : State) (w row : Nat) (long : Bool) : Option Nat :=
  let free := (List.range 2836).filter fun k => (s.slotUse (slotNo w row k)).isFree
  let wear := s.rowWear w row
  let v := fun k => lookD wear 0 k
  let young := free.filter fun k => v k < 216000
  if long && !young.isEmpty then firstBy (fun a b => v a > v b) young else firstBy (fun a b => v a < v b) free

/-- The ward of OPEN (R244): the one after the cursor with a free slot, or the one with the most free slots. -/
def State.pickWard (s : State) (h sg : Nat) : Option Nat :=
  if sg ≠ 0 then
    let cur := lookD s.cursors 3 (h * 256 + sg)
    ((List.range 4).map fun i => (cur + 1 + i) % 4).find? fun w => s.freeSlots w > 0
  else (firstBy (fun a b => s.freeSlots a > s.freeSlots b) (List.range 4)).filter fun w => s.freeSlots w > 0

/-- The slot OPEN binds (R242, R244, R245): none while every free slot is gone. -/
def State.place (s : State) (c : Cmd) : Option Nat :=
  match s.pickWard c.f12 c.sgroup with
  | none => none
  | some w =>
    let rows := (List.range 26).filter fun row => s.rowFree w row > 0
    let good := rows.filter fun row => !s.rowDegraded w row
    let seg := ((look s.holds c.f12).map Holding.policyNow).getD false
    match firstBy (s.rowBefore w) (if good.isEmpty then rows else good) with
    | some row => (s.pickSlot w row (seg && (c.lclass ≥ 8 || c.lclass = 0))).map fun k => slotNo w row k
    | none => none

/-- The effect of OPEN (R204, R205, R236, R239, R244). -/
def State.openEffect (s : State) (c : Cmd) (slot : Nat) : State :=
  let z := s.zone c.zkey
  match z.st with
  | .empty =>
    let s := s.setZone c.zkey fun z => { z with
      st := .open_, wp := 0, lclass := c.lclass, sgroup := c.sgroup, slot := some slot, park := .none, finishAt := none }
    let s := if c.sgroup ≠ 0 then { s with cursors := put s.cursors (c.f12 * 256 + c.sgroup) (slotWard slot) } else s
    ((s.setSlot slot (.bound c.zkey)).journalRec 0).capCheck
  | .closed => ((s.unpark c.zkey).setZone c.zkey fun z => { z with st := .open_ }).journalRec 0
  | _ => s

/-- Zones that hold partial state in staging, or may while they are OPEN, parkings in flight among them (R238). -/
def State.stagingZones (s : State) : Nat := count (fun _ z => z.st = .open_ || z.partialRow) s.zones

/-- OPEN (R204, R205, R236, R238, R242): an OPEN of an EMPTY zone waits while only held slots are left (R343); one that would
make more than 4,160 zones hold partial state in staging waits for a parking. -/
def State.doOpen (s : State) (r : Ref) (c : Cmd) : State :=
  let z := s.zone c.zkey
  let more := z.st = .empty || (z.st = .closed && !z.partialRow)
  if more && s.stagingZones ≥ 4160 then s
  else if z.st = .empty then
    match s.place c with
    | some n => s.manage r c fun s => s.openEffect c n
    | none => if s.noSlot then s.manage r c id else s
  else s.manage r c fun s => s.openEffect c 0

def execOpenZone (r : Ref) (s : State) : Res' :=
  s.start r 0x08 fun c => s.doOpen r c

/-- CLOSE (R204, R235): partial state stays in staging until its parking, planned here, has completed. -/
def State.closeEffect (s : State) (z : Nat) : State :=
  if (s.zone z).st = .open_ then
    let s := (s.setZone z fun x => { x with
      st := .closed, park := if x.wp % 2048 = 0 then .none else if x.park = .none then .staging else x.park }).journalRec 0
    match (s.zone z).slot with
    | some n => if (s.zone z).park = .staging then s.park (slotWard n) z n (s.zone z).wp else s
    | none => s
  else s

def State.doClose (s : State) (r : Ref) (c : Cmd) : State := s.manage r c fun s => s.closeEffect c.zkey

def execCloseZone (r : Ref) (s : State) : Res' :=
  s.start r 0x09 fun c => s.doClose r c

/-- The partial program unit of a zone is padded with zero units and programmed (R237, Table 9.2). -/
def State.padRow (s : State) (z : Nat) : State :=
  let x := s.zone z
  match x.slot with
  | none => s
  | some n =>
    if x.wp % 64 = 0 then s
    else
      let os := (List.range (64 - x.wp % 64)).map (x.wp + ·)
      let s := s.setMedia fun m => { m with cells := os.foldl (fun t o => put t (unitNo n o) (padUnit z o x.lclass)) m.cells }
      { s with staged := s.staged + os.length }.queueUnit n (x.wp / 64) 4 (s.ownerOf (zoneHold z))

/-- FINISH (R204, R237): the current stripe row is padded and completed, its parity follows its data, and the zone is FULL. -/
def State.finishEffect (s : State) (z : Nat) : State :=
  let x := s.zone z
  if x.st = .open_ || x.st = .closed then
    let s := (((s.unpark z).padRow z).setZone z fun y => { y with
      st := .full, wp := 2 ^ 20, finishAt := some x.wp }).journalRec 0
    match x.slot with
    | some n =>
      if x.wp % 2048 = 0 || (x.wp % 64 ≠ 0 && x.wp / 64 % 32 = 31) then s
      else s.rowStep n (x.wp / 2048) (s.ownerOf (zoneHold z))
    | none => s
  else s

def State.doFinish (s : State) (r : Ref) (c : Cmd) : State := s.manage r c fun s => s.finishEffect c.zkey

def execFinishZone (r : Ref) (s : State) : Res' :=
  s.start r 0x0A fun c => s.doFinish r c

/-- Units of partial state a zone holds in staging. -/
def Zone.stagedPart (z : Zone) : Nat := if z.partialRow then z.wp % 64 else 0

/-- A zone's data goes and its slot is released (R204, R237, R239), or is held while a SCAN reads it (R343), with what of it stands in
staging. A relocation of one of its block groups ends (R288, R294). -/
def State.emptyZone (s : State) (z : Nat) : State :=
  let x := s.zone z
  match x.slot with
  | none => s
  | some n =>
    let held := s.scanned n
    let s := if held then s.unpark z else { s with staged := s.staged - x.stagedPart }.unparkZone z
    let s := s.setZone z fun x => { Zone.fresh with fence := x.fence }
    let s := s.setMedia fun m => { m with lostUnits := m.lostUnits.filter fun k => k / 2 ^ 20 ≠ z }
    if held then
      let mine := s.units.filter fun e => decide (e.1 / 2 ^ 20 = z)
      let kept := s.waitingUnits n
      let s := { s.dropSlotWork n with staged := (s.dropSlotWork n).staged + kept }
      let units := mine.foldl (fun t e => put t (unitNo (heldZone n) (e.1 % 2 ^ 20)) e.2)
        (keep (fun k _ => k / 2 ^ 20 ≠ z) s.units)
      (({ s with units := units }.endCopies n).setSlot n (.held z s.media.begun)).journalRec 0
    else
      ({ s with units := keep (fun k _ => k / 2 ^ 20 ≠ z) s.units }.releaseSlot n)

/-- RESET (R204, R205): to EMPTY; the fence stays (R206). -/
def State.doReset (s : State) (r : Ref) (c : Cmd) : State := s.manage r c fun s => (s.emptyZone c.zkey).capCheck

def execResetZone (r : Ref) (s : State) : Res' :=
  s.start r 0x0B fun c => s.doReset r c

/-- RANDOM TRIM (R210): COUNT units become unwritten. -/
def State.doTrim (s : State) (r : Ref) (c : Cmd) : State :=
  if !s.turn r c then s
  else match s.decides r c with
    | some (st, f) => s.fail r st f
    | none =>
      let s := s.begin_ r .running
      let (n, s) := s.commit
      let k := randNo c.f12 c.zone
      let s := { s with rand := keep (fun i _ => !(decide (k ≤ i) && decide (i < k + c.cnt))) s.rand }
      let s := s.setMedia fun m => { m with lostUnits := m.lostUnits.filter fun i => !(decide (lostRand k ≤ i) && decide (i < lostRand k + c.cnt)) }
      (s.journalRec 1).complete r { status := SUCCESS, result := BitVec.ofNat 64 (s.raCount c.f12), ledger := some n }

def execRandomTrim (r : Ref) (s : State) : Res' :=
  s.start r 0x12 fun c => s.doTrim r c

end Sys2Proof.Machine
end

