-- ==== Sys2Proof/Machine/Request.lean ====
section
/-! DEFINITION. Job reads and job appends (R361, R388, R389): the checks of a request block, the units a job read gathers,
the commit of a job append. -/

namespace Sys2Proof.Machine

def State.setJob (s : State) (j : Nat) (f : Job → Job) : State := { s with jobs := adj s.jobs j f }

/-- The bytes of a block that are not zero, at rising addresses. -/
def sparse (b : Bytes) (base : Nat) : Tab Byte :=
  b.zipIdx.filterMap fun e => if e.1 = 0 then none else some (base + e.2, e.1)

/-- The DRAM window of a job's program, in bytes (Table 12.11). -/
def Job.windowLen (x : Job) : Nat := (if x.isScan then x.mem - 2 else x.mem) * 2 ^ 24

/-- Fields of a request block (Table 13.6). -/
def rqRead (b : Bytes) : Bool := byteAt b 0 = 1
def rqDecomp (b : Bytes) : Bool := bit (byteAt b 1) 0
def rqZone (b : Bytes) : Nat := le b 4 4
def rqOffset (b : Bytes) : Nat := bits (le b 8 4) 19 0
def rqCount (b : Bytes) : Nat := le b 12 2
def rqAddr (b : Bytes) : Nat := le b 16 8

/-- A job append among requests. -/
def Req.append (q : Req) : Bool := !q.lookup && byteAt q.block 0 = 2

/-- Whether a range lies in the DRAM window of a job (Table 13.3). -/
def Job.inDram (x : Job) (a n : Nat) : Bool := 0x100000000 ≤ a && a + n ≤ 0x100000000 + x.windowLen

/-- Reserved and out-of-range fields of a request block (R389). -/
def Job.reqFieldBad (x : Job) (b : Bytes) : Bool :=
  !(byteAt b 0 = 1 || byteAt b 0 = 2) || byteAt b 1 ≥ 2 || (!rqRead b && rqDecomp b) || byteAt b 3 ≥ 2 || le b 8 4 ≥ 2 ^ 20 ||
    (!rqRead b && le b 8 4 ≠ 0) || le b 14 2 ≠ 0 || (!(rqRead b && rqDecomp b) && le b 24 4 ≠ 0) || rqAddr b % 8 ≠ 0 ||
    !x.inDram (rqAddr b) 1

/-- The status a request fails with, in the order of R170 (R389), that of an append whose units pass the end of the DRAM window being
the one of an address outside it (notes/assumptions/86.md); `n` is the length of the data of a job read. -/
def State.reqFails (s : State) (x : Job) (b : Bytes) (n : Nat) : Option Nat :=
  let h := x.holding.getD 0
  let z := s.zone (zoneNo h (rqZone b))
  (firstFail [
    (x.reqFieldBad b, INVALID_FIELD, 0),
    (rqCount b = 0 || rqCount b > 4096, INVALID_LENGTH, 0),
    (!rqRead b && !x.inDram (rqAddr b) (4096 * rqCount b), INVALID_FIELD, 0),
    (x.holding.isNone, NOT_PERMITTED, 0),
    (rqZone b ≥ s.quota h, OUT_OF_HOLDING, 0),
    (!rqRead b && z.fence.isSome, ZONE_FENCED, 0),
    (!rqRead b && z.st ≠ .open_, ZONE_STATE_INVALID, 0),
    (if rqRead b then rqOffset b + rqCount b > 2 ^ 20 else z.wp + rqCount b > 2 ^ 20, ZONE_FULL, 0),
    (rqRead b && ((rqDecomp b && n > le b 24 4) || !x.inDram (rqAddr b) n), BUFFER_TOO_SHORT, 0)]).map (·.1)

/-- The bytes of one unit of a job read (R361, R389): decrypted, and decompressed where the program asks. -/
def State.readUnit (s : State) (z o : Nat) (decomp : Bool) : Bytes :=
  match look s.units (unitNo z o) with
  | none => zeroUnit
  | some u => (unitFrames (decomp && u.cmp) (xtsOpen u.key u.tweak u.data)).1.flatMap (·.2)

/-- The units of a job read as they stand when it is issued, and whether one was lost before (R361, R328). -/
def State.gatherRead (s : State) (x : Job) (b : Bytes) : Bytes × Bool :=
  let z := zoneNo (x.holding.getD 0) (rqZone b)
  let os := (List.range (rqCount b)).map fun i => rqOffset b + i
  (os.flatMap fun o => s.readUnit z o (rqDecomp b), os.any fun o => s.media.lostUnits.contains (unitNo z o))

/-- The array reads of a job read (R361), which are made as those of a READ (R44, notes/assumptions/90.md): those of its units that stand on
flash. -/
def State.reqSlices (s : State) (x : Job) (b : Bytes) (num : Nat) : List Slice :=
  let z := zoneNo (x.holding.getD 0) (rqZone b)
  ((List.range (rqCount b)).filterMap fun i => (s.zonePiece z (rqOffset b + i) (.req num)).2)

/-- A job read is issued (R361, R388): its request, and the state in which its array reads wait for their read points. One that fails its
checks reads nothing. -/
def State.issueRead (s : State) (x : Job) (pc addr : Nat) (b : Bytes) : Req × State :=
  let (data, bad) := s.gatherRead x b
  let sl := if (s.reqFails x b data.length).isSome then [] else s.reqSlices x b s.media.nextRecon
  (⟨pc, addr, false, b, data, bad, 0, s.media.nextRecon, sl.length⟩,
    s.setMedia fun m => { m with nextRecon := m.nextRecon + 1, slices := m.slices ++ joinSlices sl })

/-- A job append (R361, R389): its status, the offset it stored at, and the state; none while it must wait (R107, R238). -/
def State.appendJob (s : State) (x : Job) (q : Req) : Option (Nat × Nat × State) :=
  let b := q.block
  let z := zoneNo (x.holding.getD 0) (rqZone b)
  match s.reqFails x b 0 with
  | some st => some (st, 0, s)
  | none =>
    match s.rate x.r.fn [(2, rqCount b * 4096)] with
    | .barred => some (NOT_PERMITTED, 0, s)
    | .wait => none
    | .pay t =>
      if s.zoneHeld z (rqCount b) then none
      else
        let a := (s.zone z).wp
        let (n, s) := (s.setFn x.r.fn fun g => { g with buckets := t }).commit
        some (SUCCESS, a, s.store z n (s.zone z).lclass (s.sealZone z a ((cut4k q.data).map fun u => (u, false))))

end Sys2Proof.Machine
end

