-- ==== Sys2Proof/Machine/JobOps.lean ====
section
/-! DEFINITION. Shared operations on jobs (chapter 12): creation, resources (R335, R420), items and ready lists (R421), the
end of a job (R341, R430), faults (R391, R392), output (R340, R362), and the gates of a SCAN (R342 to R356). -/

namespace Sys2Proof.Machine

/-- The job of a command. -/
def State.jobOf (s : State) (r : Ref) : Option Nat := (s.jobs.find? fun e => decide (e.2.r = r)).map (·.1)

/-- Whether a job's items run: RUNNING, not stopped, not ending (R339, R384). -/
def Job.live (x : Job) : Bool := x.st = .running && !x.stopped && x.ending.isNone

/-- The specification of a SCAN job's command (R354). -/
def State.spec (s : State) (x : Job) : Spec :=
  match s.cmd x.r with
  | some c => ⟨c.block, byteAt c.entry 6⟩
  | none => ⟨[], 0⟩

/-- RESULT of a job (Table 12.3). -/
def Job.result (x : Job) (st : Nat) : W64 :=
  BitVec.ofNat 64 (x.sent % 2 ^ 40 + b01 x.stopped * 2 ^ 40 + b01 x.truncated * 2 ^ 41 + b01 x.frameErr * 2 ^ 42 +
    (if st = JOB_FAULT then x.faultCode * 2 ^ 48 else 0))

/-! ### Creation (R335, R338) -/

/-- A job as its command describes it, QUEUED. -/
def newJob (r : Ref) (c : Cmd) : Job :=
  let scan := c.opcode = 0x20
  let e := c.entry
  let p : Spec := ⟨c.block, byteAt e 6⟩
  let pkg := if scan then p.stage else c.block
  let has := !pkg.isEmpty
  { r := r, order := c.order, isScan := scan
    holding := if !scan && bit (byteAt e 5) 7 then none else some c.f12
    st := .queued, ledger := 0, loadBell := 0, runBell := 0
    prio := if scan then byteAt e 14 else byteAt e 12
    cores := if !has then 0 else if scan then p.stageCores else le e 10 2
    mem := if scan then 2 + p.stageMem else le e 8 2
    need := if has then byteAt pkg 28 else 0
    code := if has then slice pkg (le pkg 8 4) (le pkg 12 4) else []
    image := if has then slice pkg (le pkg 16 4) (le pkg 20 4) else []
    entry := le pkg 24 4
    arg := BitVec.ofNat 64 (le pkg 32 8)
    timeLimit := if scan then p.timeLimit else le pkg 40 4
    outLimit := le e 20 4
    outZone := c.outKey
    blockLen := blockLen c
    hamlets := [], turn := 0, zones := [], filling := [], batches := [], bufNext := 0, paused := []
    output := [], sent := 0, delivered := 0, outPaused := none, frameErr := false, truncated := false, stopped := false
    ending := none, faultCode := 0, fault := none, faults := 0, halted := [], dram := [], scanBuf := [], share := [], poison := [], sharePoison := [],
    key := none }

/-- Creates the job of a SCAN or RUN that has passed every check: QUEUED, in the lowest free slot of 2,048 (R337). -/
def State.createJob (s : State) (r : Ref) (op : Nat) : State :=
  match s.cmd r with
  | some c =>
    if c.opcode = op && (c.point = .checked || c.point = .held) && (s.jobOf r).isNone then
      match lowestFree 2048 (s.jobs.map (·.1)) with
      | some j => { s with jobs := put s.jobs j (newJob r c) }
      | none => s
    else s
  | none => s

/-! ### Resources (R335, R420) -/

/-- Zones a SCAN lists. -/
def Spec.zoneKeys (p : Spec) (h : Nat) : List Nat := (List.range p.zcount).map fun i => zoneNo h (p.zone i)

/-- Wards whose gates a job uses (Table 12.1). -/
def State.jobWards (s : State) (x : Job) : List Nat :=
  if x.isScan then
    if x.st = .running then (x.zones.map fun z => slotWard z.slot).eraseDups
    else (((s.spec x).zoneKeys (x.holding.getD 0)).filterMap fun z => (s.zone z).slot.map slotWard).eraseDups
  else if x.holding.isSome then [0, 1, 2, 3] else []

/-- Gate contexts in use in a ward (R336). -/
def State.contexts (s : State) (w : Nat) : Nat :=
  count (fun _ x => x.st ≠ .queued && (s.jobWards x).contains w) s.jobs

/-- Free granules of a hamlet (R359). -/
def State.granules (s : State) (h : Nat) : Nat := 64 - (s.hamlet h).used

/-- Hamlets a job takes (R420): up to ceil(C / 16) with room, most free granules first, ties to the lowest number. -/
def State.takeHamlets (s : State) (x : Job) : List Nat :=
  let rec go : Nat → List Nat → List Nat
    | 0, _ => []
    | n + 1, left =>
      match firstBy (fun a b => s.granules a > s.granules b) left with
      | some h => h :: go n (left.erase h)
      | none => []
  go ((x.cores + 15) / 16) ((List.range 32).filter fun h => s.granules h ≥ x.need)

/-- Whether a job's gate contexts and a hamlet share are available (Table 12.1). -/
def State.canLoad (s : State) (x : Job) : Bool :=
  ((s.jobWards x).all fun w => s.contexts w < 16) && (x.cores = 0 || !(s.takeHamlets x).isEmpty)

/-! ### Items (R418 to R421) -/

/-- Word 0 of an item the module posts (R419). -/
def moduleHeader (kind prio f j : Nat) : W64 := BitVec.ofNat 64 (kind + prio * 2 ^ 4 + f * 2 ^ 32 + j * 2 ^ 48)

/-- Puts an accepted item into a hamlet's ready lists, in the order of its flow (R421, R424). -/
def State.ready (s : State) (h j : Nat) (i : Item) : State :=
  { s.setHamlet h fun x => { x with ready := x.ready ++ [(j, i)], entered := x.entered ++ [(j, i)] } with
    disp := { s.disp with flows := if i.flow = 0 then s.disp.flows else s.disp.flows ++ [(j, h, i)] } }

/-- Posts a START or BATCH item: the job's hamlets in turn, from the lowest (R421). -/
def State.postItem (s : State) (j : Nat) (kind : Nat) (w1 w2 w3 : W64) : State :=
  match look s.jobs j with
  | some x =>
    if x.hamlets.isEmpty then s
    else
      let h := x.hamlets.getD (x.turn % x.hamlets.length) 0
      (s.setJob j fun x => { x with turn := x.turn + 1 }).ready h j ⟨moduleHeader kind x.prio x.r.fn j, w1, w2, w3⟩
  | none => s

/-- Items of a job that are ready or in slots, and in service or parked. -/
def State.readyItems (s : State) (j : Nat) : Nat :=
  s.hamlets.foldl (fun n e => n + (e.2.ready.filter (·.1 = j)).length) 0 +
    count (fun _ c => (c.slot.map (·.1)) = some j) s.cores

def State.busyItems (s : State) (j : Nat) : Nat :=
  s.cores.foldl (fun n e => n + b01 ((e.2.ctx.map (·.job)) = some j) + (e.2.parked.filter (·.job = j)).length) 0

/-! ### The end of a job (R430) -/

/-- Commits the job appends accepted and still outstanding (R339, R391). -/
def State.acceptAppends (s : State) (j : Nat) : State :=
  match look s.jobs j with
  | some x =>
    let rs := s.cores.flatMap fun e => ((e.2.ctx.toList ++ e.2.parked).filter fun c => c.job = j).flatMap (·.reqs)
    (rs.filter Req.append).foldl (fun s q => match s.appendJob x q with
      | some (_, _, s) => s
      | none => s) s
  | none => s

/-- The array reads of a job's job reads are not made any more (R391). -/
def State.dropJobReads (s : State) (j : Nat) : State :=
  let ids := s.cores.flatMap fun e => ((e.2.ctx.toList ++ e.2.parked).filter fun c => c.job = j).flatMap fun c =>
    (c.reqs.filter fun q => !q.lookup && q.left > 0).map (·.num)
  if ids.isEmpty then s else s.dropReads fun w => match w with
    | .req g => ids.contains g
    | _ => false

/-- Discards a job's ready, slotted and parked items, traced, and stops its items in service. -/
def State.dropItems (s : State) (j : Nat) : State :=
  let s := (s.acceptAppends j).dropJobReads j
  let s := s.hamlets.foldl (fun s e =>
    (e.2.ready.filter fun x => x.1 = j).foldl (fun s x => s.trace 7 e.1 0 (some x.2) 0 0) s) s
  let s := s.cores.foldl (fun s e =>
    let s := match e.2.slot with
      | some (k, i) => if k = j then s.trace 7 (e.1 / 16) (e.1 % 16) (some i) 0 0 else s
      | none => s
    (e.2.parked.filter fun x => x.job = j).foldl (fun s x => s.trace 7 (e.1 / 16) (e.1 % 16) (some x.item) 0 0) s) s
  { s with
    hamlets := mapV (fun _ x => { x with
      ready := x.ready.filter fun e => e.1 ≠ j, entered := x.entered.filter fun e => e.1 ≠ j }) s.hamlets
    cores := mapV (fun _ c => { c with
      ctx := c.ctx.filter fun x => x.job ≠ j, slot := c.slot.filter fun e => e.1 ≠ j
      parked := c.parked.filter fun x => x.job ≠ j }) s.cores
    disp := { s.disp with
      heldSeen := s.disp.heldSeen.filter fun e => e.1 ≠ j, flows := s.disp.flows.filter fun e => e.1 ≠ j } }

/-- Whether a slice's purpose is a scan of a job. -/
def scanOf (j : Nat) : SliceFor → Bool
  | .scan k _ _ => k = j
  | _ => false

def planOf (j : Nat) : Purpose → Bool
  | .scan k _ _ => k = j
  | _ => false

/-- The scan slices of a job end. -/
def State.dropScans (s : State) (j : Nat) : State :=
  let s := (s.dropReads (scanOf j)).setMedia fun m => { m with work := m.work.filter fun w => !planOf j w.why }
  { s with bell := { s.bell with next := s.bell.next.filter fun w => !planOf j w.why } }

/-- Removes a job with its items, slices and shares (R335, R430). -/
def State.removeJob (s : State) (j : Nat) : State :=
  let held := ((look s.jobs j).map (·.hamlets)).getD []
  let need := ((look s.jobs j).map (·.need)).getD 0
  let s := (s.dropItems j).dropScans j
  { s with
    hamlets := mapV (fun h x => { x with used := x.used - (if held.contains h then need else 0) }) s.hamlets
    jobs := del s.jobs j }

/-- A stopped job's items and scan slices end (R339); what its gates emitted and did not post is output where it has no stage. -/
def State.stopItems (s : State) (j : Nat) : State :=
  ((s.dropItems j).dropScans j).setJob j fun x => { x with
    output := if x.cores = 0 then x.output ++ x.filling.flatMap (·.2) else x.output, filling := []
    zones := x.zones.map fun z => { z with out := 0, wait := [] } }

/-- Writes a fault record to a function's event log of 64 (R392, R519). -/
def State.faultRecord (s : State) (f : Nat) (b : Bytes) : State :=
  s.setFn f fun g => { g with faults := (g.faults ++ [b]).drop (g.faults.length - 63) }

/-- Ends a job with a status (Table 12.2): its command completes, with its ledger number once RUNNING. A job that faulted ends with
JOB_FAULT, and its fault record is written with the faults counted since (R392). -/
def State.endJob (s : State) (j : Nat) (d : Done) : State :=
  match look s.jobs j with
  | some x =>
    let d := if x.fault.isSome then { d with status := JOB_FAULT, detail := [] } else d
    let s := match x.fault with
      | some (_, _, _, b) => s.faultRecord x.r.fn (patch b 21 [BitVec.ofNat 8 (min 255 x.faults)])
      | none => s
    let res := if x.st = .running then x.result d.status else 0
    (s.removeJob j).complete x.r { d with result := res, ledger := (s.cmd x.r).bind (·.ledger) }
  | none => s

/-- A fault of a job (R391, R392). The first is recorded and the job ends with JOB_FAULT once its cores have stopped; of faults of one
cycle the one of the lowest (hamlet, core) is recorded, `core` being hamlet * 256 + core; the others are counted. Cycles of
different cores are compared by bell and CYCLE (notes/assumptions/63.md). -/
def State.jobFault (s : State) (j cause code core cycle : Nat) (fields : List (Nat × Nat × Nat)) : State :=
  match look s.jobs j with
  | some x =>
    let b := record 64 ([(0, 8, s.bell.now), (8, 8, x.ledger), (16, 2, x.r.fn), (18, 1, core / 256), (19, 1, core % 256), (20, 1, cause),
      (22, 2, code)] ++ fields)
    let first := match x.fault with
      | none => true
      | some (t, c, n, _) => decide (t = s.bell.now ∧ n = cycle ∧ core < c)
    s.setJob j fun x => { x with
      ending := some JOB_FAULT
      fault := if first then some (s.bell.now, core, cycle, b) else x.fault
      faultCode := if first then code else x.faultCode
      faults := x.faults + b01 x.fault.isSome }
  | none => s

/-- A core of a job stops, every multiply of its item landed (R372, R391). -/
def State.haltCore (s : State) (j k : Nat) : State :=
  (s.setCore k fun c => { c with ctx := c.ctx.map Ctx.landAll }).setJob j fun x => { x with halted := k :: x.halted }

/-- A fault that names no core (Table 13.7). -/
def noCore : Nat := 0xFFFF

/-! ### Output (R340, R362) -/

/-- Bytes a job's buffer output may still take (R362). -/
def Job.room (x : Job) : Nat := x.outLimit - (x.sent + x.output.length)

/-- Undelivered output of a job (R340). -/
def Job.undelivered (x : Job) : Nat := x.output.length + (x.sent - x.delivered)

/-- The size of the output window and scan buffer (R340, R390). -/
def outWindow : Nat := 33554432

/-- Delivers a job's output by RDMA WRITE while a port carries its function (R362). -/
def State.deliver (s : State) (j : Nat) : State :=
  match look s.jobs j with
  | some x =>
    if x.outZone.isSome || x.output.isEmpty then s
    else match s.workPort x.r.fn with
      | none => s
      | some p =>
        (s.setJob j fun x => { x with output := [], sent := x.sent + x.output.length }).issue
          ⟨x.r.fn, some p, false, .jobOut j x.sent x.output⟩
  | none => s

/-- Whether undelivered output leaves no room for a further piece of 64 KiB (R340, R355, R390; notes/assumptions/87.md). -/
def Job.outFull (x : Job) : Bool := x.undelivered + 65536 > outWindow

/-- Whether any port is UP. -/
def State.anyUp (s : State) : Bool := s.portA.state = .up || s.portB.state = .up

/-- A job's output after a piece: what would pass OUT_LIMIT is not taken, and the job ends with TRUNCATED (R362, R390). -/
def Job.takeOut (x : Job) (b : Bytes) : Job :=
  let cut := x.outZone.isNone && decide (b.length > x.room)
  { x with
    output := x.output ++ (if cut then b.take x.room else b), truncated := x.truncated || cut
    ending := if cut then some SUCCESS else x.ending }

/-- Adds to a job's output. With no port UP a job whose output is full pauses (R340). -/
def State.output (s : State) (j : Nat) (b : Bytes) : State :=
  (s.setJob j fun x =>
    let y := x.takeOut b
    { y with outPaused := if y.live && y.outZone.isNone && !s.anyUp && y.outFull && y.outPaused.isNone then some s.bell.now
        else y.outPaused }).deliver j

/-! ### The gates (R342 to R353) -/

/-- The stored unit `o` of a scanned zone, from its slot as recorded (R342, R343). -/
def State.scanUnitAt (s : State) (z : ScanZone) (o : Nat) : Option StUnit :=
  match s.slotUse z.slot with
  | .held _ _ => look s.units (unitNo (heldZone z.slot) o)
  | _ => look s.units (unitNo z.z o)

/-- Passes the next unit of a zone to its gate (R348 to R353), deciphered with the key its contexts hold (R27). -/
def State.gateNext (s : State) (j : Nat) (x : Job) (sz : ScanZone) (b : Option Bytes) : State :=
  let s := s.setJob j fun x => { x with zones := x.zones.map fun e =>
    if e.z = sz.z then { e with out := e.out - 1, pos := e.pos + 1, wait := e.wait.filter fun w => w.1 ≠ sz.pos } else e }
  match b with
  | none => s
  | some b =>
    let (s, b, e) := (s.spec x).gate x.r.fn (zoneIdx sz.z) sz.pos s (bit (byteAt b 4098) 4)
      (xtsOpen (x.key.getD 0) (zoneIdx sz.z * 2 ^ 20 + sz.pos) b)
    s.setJob j fun x => { x with
      filling := adjD x.filling [] (slotWard sz.slot) (· ++ b), frameErr := x.frameErr || e }

/-- Passes to the gate the units of a zone that were read, in stream order as far as they go (R353). -/
def State.gateWaiting (j z : Nat) : Nat → State → State
  | 0, s => s
  | n + 1, s =>
    match look s.jobs j with
    | none => s
    | some x => match x.zones.find? fun e => e.z = z with
      | none => s
      | some sz => match sz.wait.find? fun w => w.1 = sz.pos with
        | some w => State.gateWaiting j z n (s.gateNext j x sz w.2)
        | none => s

/-- A unit of a scanned zone is there for its gate, or holds nothing. -/
def State.scanArrive (s : State) (j z o : Nat) (b : Option Bytes) : State :=
  let s := s.setJob j fun x => { x with
    zones := x.zones.map fun e => if e.z = z then { e with wait := e.wait ++ [(o, b)] } else e }
  State.gateWaiting j z ((((look s.jobs j).bind fun x => x.zones.find? fun e => e.z = z).map fun e => e.wait.length).getD 0) s

/-- The protected bytes of a unit reach its gate in stream order (R348 to R353); the job ends where the unit is unrecoverable
(R181). -/
def State.scanUnit (s : State) (j z o : Nat) (b : Option Bytes) : State :=
  match look s.jobs j with
  | none => s
  | some x =>
    match x.zones.find? fun e => e.z = z with
    | none => s
    | some sz =>
      match b with
      | none =>
        s.endJob j { status := DATA_UNRECOVERABLE
                     detail := [(32, 2, zoneHold z), (36, 4, zoneIdx z), (40, 8, o), (48, 4, sz.wp - o)] }
      | some b => s.scanArrive j z o (some b)

/-- Whether unit `o` of a scanned zone is still in staging (R342): also after a RESET that leaves its slot held, where it was not
programmed (R343). -/
def State.scanStaged (s : State) (z : ScanZone) (o : Nat) : Bool :=
  match s.slotUse z.slot with
  | .held _ _ => decide ((s.group (s.puMem z.slot (o / 64)).2.die (slotIdx z.slot)).prog ≤ rowOf o)
  | _ => s.inStaging (s.zone z.z) z.slot o

/-- Adds unit `o` to planned scan reads: the units of one page are one array read (R259). -/
def addScan (x : Work) (j z o : Nat) : List Work → List Work
  | [] => [{ x with why := .scan j z [o] }]
  | w :: ws => match w.why with
    | .scan k y os =>
      if k = j && y = z && w.die = x.die && w.slot = x.slot && w.wl = x.wl &&
          unitPage (inUnit (os.headD 0)) = unitPage (inUnit o) then
        { w with why := .scan j z (os ++ [o]) } :: ws
      else w :: addScan x j z o ws
    | _ => w :: addScan x j z o ws

/-- Plans the next scan slice of a zone (R32, R342, R344): staged units go to the gate at once, a share without its die
is rebuilt at the next read point (R31, R277), the rest become class 7 work. The unit is charged to the scan-bytes ceiling (R345). -/
def State.planUnit (s : State) (j : Nat) (z : ScanZone) : State :=
  match look s.jobs j with
  | none => s
  | some x =>
    let f := x.r.fn
    match s.rate f [(3, 4096)] with
    | .pay b =>
      let o := z.next
      let s := (s.setFn f fun g => { g with buckets := b }).setJob j fun x => { x with
        zones := x.zones.map fun e => if e.z = z.z then { e with next := e.next + 1, out := e.out + 1 } else e }
      if s.media.lostUnits.contains (unitNo z.z o) then s.scanUnit j z.z o none
      else match s.scanUnitAt z o with
      | none => s.scanArrive j z.z o none
      | some u =>
        let m := (s.puMem z.slot (o / 64)).2
        if s.scanStaged z o then s.scanUnit j z.z o (some u.bytes)
        else if s.memOut m (slotIdx z.slot) then s.setMedia fun y => { y with
          slices := addSlice { s.unitSlice z.slot o (.scan j z.z o) with cls := 7 } y.slices }
        else s.setMedia fun y => { y with
          work := addScan ⟨7, m.die, .read, slotIdx z.slot, rowOf o, f, .internal⟩ j z.z o y.work }
    | _ => s

/-- Units a gate's ward engine plans ahead of a scan, in units of a zone (R32): two stripe rows (notes/assumptions/62.md). -/
def scanAhead : Nat := 4096

/-- Plans the slices of each zone of each RUNNING SCAN for the next bell, as many as 36 channels transfer (R32); paused gates plan none
(R356). -/
def State.feedScan (s : State) : State :=
  s.jobs.foldl (fun s e =>
    if !e.2.isScan || !e.2.live then s
    else e.2.zones.foldl (fun s z =>
      (List.range (36 * bellCw s.bell.active)).foldl (fun s _ =>
        match (look s.jobs e.1).bind fun x => x.zones.find? fun y => y.z = z.z with
        | some y =>
          let p := ((look s.jobs e.1).map (·.paused)).getD []
          if y.next < y.wp && y.out < scanAhead && !p.contains (slotWard y.slot) then s.planUnit e.1 y else s
        | none => s) s) s) s

/-- Whether a SCAN's gates have read every unit of a ward (R355). -/
def Job.wardDone (x : Job) (w : Nat) : Bool :=
  x.zones.all fun z => slotWard z.slot ≠ w || (decide (z.next ≥ z.wp) && z.out = 0)

/-- Whether a SCAN's gates have finished and every batch has been posted (R355). -/
def Job.gatesDone (x : Job) : Bool := (x.zones.all fun z => decide (z.next ≥ z.wp) && z.out = 0) && x.filling.isEmpty

end Sys2Proof.Machine
end

