-- ==== Sys2Proof/Machine/Job.lean ====
section
/-! DEFINITION. Jobs (chapter 12): SCAN and RUN, loading, running, batches, output and the end of a job. -/

namespace Sys2Proof.Machine

/-- SCAN (R212, R335): a checked SCAN becomes a QUEUED job. -/
def execScan (r : Ref) (s : State) : Res' := go ((s.createJob r 0x20).settle r)

/-- RUN (R213, R335): a checked RUN becomes a QUEUED job. -/
def execRun (r : Ref) (s : State) : Res' := go ((s.createJob r 0x21).settle r)

/-- Whether a queued job could start now but for its resources: its ring is not frozen and no FLUSH holds it (R172). -/
def State.jobMayStart (s : State) (x : Job) : Bool :=
  x.st = .queued && s.pwr.cur ≤ b01 (x.cores = 0) && (match s.cmd x.r with
    | some c => s.mayStart x.r c
    | none => false)

/-- Whether an earlier queued job, in fetch order, can take its resources first (R335). -/
def State.jobBefore (s : State) (x : Job) : Bool :=
  s.jobs.any fun e => decide (e.2.order < x.order) && s.jobMayStart e.2 && s.canLoad e.2

/-- Takes a job's resources and enters LOADING, its start point (R335, R338, R420): its gate contexts are loaded with the key of the
holding it reads (R27, R336). -/
def State.loadJob (s : State) (j : Nat) (x : Job) : State :=
  let hs := (s.takeHamlets x).mergeSort (fun a b => a ≤ b)
  let s := hs.foldl (fun s h => s.setHamlet h fun y => { y with used := y.used + x.need }) s
  let s := s.setJob j fun x => { x with st := .loading, loadBell := s.bell.now, hamlets := hs, key := x.holding.map s.holdKey }
  s.begin_ x.r .running

/-- JOB_LOAD_START (R335, R337, R345): a queued job whose resources are available enters LOADING. As it would start, a scan-bytes
ceiling of 0 bars it, and memory that others took since its checks gives CAPACITY_EXHAUSTED. -/
def execJobLoadStart (j : Nat) (s : State) : Res' :=
  match look s.jobs j with
  | some x =>
    if !s.jobMayStart x then go s
    else if !s.canLoad x || s.jobBefore x then go s
    else if x.holding.isSome && (s.fn x.r.fn).eff.scanBytes = 0 then
      go (s.endJob j { status := NOT_PERMITTED })
    else if x.mem > s.memFree x.r.fn then go (s.endJob j { status := CAPACITY_EXHAUSTED })
    else go (s.loadJob j x)
  | none => go s

/-- The snapshot of a zone with a slot that a SCAN reads (R342): units below the committed write pointer, but for FINISH padding. -/
def State.snapshot (s : State) (z : Nat) : ScanZone :=
  let x := s.zone z
  ⟨z, min x.wp (x.finishAt.getD x.wp), x.slot.getD 0, 0, 0, 0, []⟩

/-- JOB_LOADED (R338, R342, R360): loading completes; the job commits and enters RUNNING, its zones recorded, its code and
data in place and its START items posted. -/
def execJobLoaded (j : Nat) (s : State) : Res' :=
  match look s.jobs j with
  | some x =>
    if x.st ≠ .loading then go s
    else
      let (n, s) := s.commit
      let s := s.setCmd x.r fun c => { c with point := .decided, ledger := some n }
      let zs := if x.isScan then (((s.spec x).zoneKeys (x.holding.getD 0)).filter fun z => (s.zone z).slot.isSome).map s.snapshot else []
      let s := s.setJob j fun x => { x with
        st := .running, ledger := n, runBell := s.bell.now, zones := zs, dram := sparse x.image 0 }
      go ((List.range x.cores).foldl (fun s i => s.postItem j 1 (BitVec.ofNat 64 i) x.arg 0) s)
  | none => go s

/-- JOB_LOAD_TIMEOUT (R338, R182): 2 s after LOADING began the job ends with INTERNAL_TIMEOUT, nothing done. -/
def execJobLoadTimeout (j : Nat) (s : State) : Res' :=
  match look s.jobs j with
  | some x =>
    if x.st = .loading && s.ranFor x.loadBell (((s.cmd x.r).map (·.startStill)).getD s.bell.still) ≥ 2000000 then
      let e := ((s.cmd x.r).map (·.entry)).getD []
      let s := s.endJob j { status := INTERNAL_TIMEOUT, detail := [(32, 2, 0x0330), (36, 24, le e 8 24)] }
      go (s.event 0x0072 3 x.r.fn [(32, 2, 0x0330), (36, 2, x.r.fn), (38, 2, x.r.sq)])
    else go s
  | none => go s

/-- JOB_TIME_LIMIT (R391): TIME_LIMIT bells in RUNNING; time spent paused does not count (R340). -/
def execJobTimeLimit (j : Nat) (s : State) : Res' :=
  match look s.jobs j with
  | some x =>
    if x.live && x.timeLimit ≠ 0 && x.outPaused.isNone && x.runBell + x.timeLimit ≤ s.bell.now then
      go (s.jobFault j 0x10 3 noCore 0 [])
    else go s
  | none => go s

/-- Output that waits reaches the host or its zone before a job that no longer runs completes. -/
def State.finishJob (s : State) (j : Nat) (st : Nat) : State :=
  let s := s.deliver j
  match look s.jobs j with
  | some x => if x.output.isEmpty && x.sent = x.delivered then s.endJob j { status := st } else s
  | none => s

/-- JOB_STOP (R339): a stopped job's items end, the output already produced is delivered, and the job completes with SUCCESS
and STOPPED. -/
def execJobStop (j : Nat) (s : State) : Res' :=
  match look s.jobs j with
  | some x =>
    if x.st = .running && x.stopped && x.fault.isNone then
      go ((s.stopItems j).finishJob j SUCCESS)
    else go s
  | none => go s

/-- Whether all of a job's input and items are consumed (R387). -/
def State.consumed (s : State) (j : Nat) (x : Job) : Bool :=
  (!x.isScan || x.gatesDone) && s.readyItems j = 0 && s.busyItems j = 0

/-- JOB_COMPLETE (R341, R362, R387, R391): everything is consumed, or the output was cut at OUT_LIMIT, and all output is delivered; or
the job faulted and its cores have stopped. -/
def execJobComplete (j : Nat) (s : State) : Res' :=
  match look s.jobs j with
  | some x =>
    if x.fault.isSome then go (s.endJob j { status := JOB_FAULT })
    else if x.st ≠ .running || x.stopped then go s
    else match x.ending with
      | some st => go (s.finishJob j st)
      | none => if s.consumed j x then go (s.finishJob j SUCCESS) else go s
  | none => go s

/-! ### Batches (R355, R356) -/

/-- The next batch of a ward: its length, or 0 while it is not full and its gates go on (R355). -/
def Job.nextBatch (x : Job) (w : Nat) : Nat :=
  let b := lookD x.filling [] w
  let n := wholeRecs 4096 b 65536
  if n < b.length || n = 65536 || x.wardDone w then n else 0

/-- A place for a batch in the scan buffer that overlaps no batch held (R356). -/
def Job.batchPlace (x : Job) (n : Nat) : Option Nat :=
  let free := fun a => a + n ≤ outWindow && x.batches.all fun b => decide (a + n ≤ b.addr) || decide (b.addr + b.len ≤ a)
  [x.bufNext, 0].find? free

/-- BATCH_POST (R355): a full or final batch goes to the stage as a BATCH item, or is the job's output. Without room it
waits (R356). -/
def execBatchPost (j ward : Nat) (s : State) : Res' :=
  match look s.jobs j with
  | some x =>
    let n := x.nextBatch ward
    if !x.live || !x.isScan || n = 0 then go s
    else
      let all := lookD x.filling [] ward
      let b := all.take n
      let rest := fun (x : Job) => { x with filling := putD x.filling [] ward (all.drop n) }
      if x.cores = 0 then
        if x.undelivered + n > outWindow then go s
        else go ((s.setJob j rest).output j b)
      else match x.batchPlace n with
        | none => go s
        | some a =>
          let s := s.setJob j fun x => { rest x with
            batches := x.batches ++ [⟨a, ward, n⟩], bufNext := (a + n + 7) / 8 * 8
            scanBuf := (keep (fun k _ => decide (k < a)) x.scanBuf) ++ sparse b a ++
              keep (fun k _ => decide (a + n ≤ k)) x.scanBuf }
          go (s.postItem j 2 (BitVec.ofNat 64 (0x40000000 + a)) (BitVec.ofNat 64 n) (BitVec.ofNat 64 ward))
  | none => go s

/-- GATE_CONTEXT_PAUSE (R356): with no space for its next batch a ward's contexts pause. -/
def execGateContextPause (j ward : Nat) (s : State) : Res' :=
  match look s.jobs j with
  | some x =>
    let n := x.nextBatch ward
    let full := if x.cores = 0 then decide (x.undelivered + n > outWindow) else (x.batchPlace n).isNone
    if x.live && x.isScan && n > 0 && full && !x.paused.contains ward then
      go (s.setJob j fun x => { x with paused := ward :: x.paused })
    else go s
  | none => go s

/-! ### Output -/

/-- The piece of an output append: 16 MiB, or what is left once everything is consumed (R363). -/
def State.appendPiece (s : State) (j : Nat) (x : Job) : Bytes :=
  if x.output.length ≥ 16777216 then x.output.take 16777216
  else if x.stopped || x.ending.isSome || s.consumed j x then x.output else []

/-- OUTPUT_APPEND (R363): appends a piece of output to the output zone with its own ledger number; a failed append ends
the job, with the zone's DETAIL (Table 6.4). -/
def execOutputAppend (j : Nat) (s : State) : Res' :=
  match look s.jobs j with
  | some x =>
    match x.outZone with
    | none => go s
    | some z =>
      let b := s.appendPiece j x
      let us := (cut4k b).map fun u => (u, false)
      let zn := s.zone z
      let bad := fun st f => s.endJob j { status := st, field := f, detail :=
        [(32, 2, zoneHold z), (36, 4, zoneIdx z), (40, 1, zn.st.num), (44, 4, zn.wp),
          (48, 4, s.nextPtr x.r.fn x.r.sq z (((s.cmd x.r).map (·.pos)).getD 0)), (56, 4, us.length)] }
      if x.st ≠ .running || b.isEmpty then go s
      else if zn.fence.isSome then go (bad ZONE_FENCED 8)
      else if zn.st ≠ .open_ then go (bad ZONE_STATE_INVALID 8)
      else if zn.wp + us.length > 2 ^ 20 then go (bad ZONE_FULL 16)
      else if s.zoneHeld z us.length then go s
      else
        let (n, s) := s.commit
        go ((s.store z n zn.lclass (s.sealZone z zn.wp us)).setJob j fun x => { x with
          output := x.output.drop b.length, sent := x.sent + b.length, delivered := x.delivered + b.length, paused := [] })
  | none => go s

/-- OUTPUT_PAUSE (R340): with no port UP a job whose undelivered output fills its buffer pauses; it resumes, its output
delivered, once a port carries its function again. The time paused does not count toward TIME_LIMIT. -/
def execOutputPause (j : Nat) (s : State) : Res' :=
  match look s.jobs j with
  | some x =>
    match x.outPaused with
    | none =>
      if x.live && !s.anyUp && x.outZone.isNone && x.outFull then
        go (s.setJob j fun x => { x with outPaused := some s.bell.now })
      else go s
    | some b =>
      if (s.workPort x.r.fn).isSome then
        go ((s.setJob j fun x => { x with outPaused := none, runBell := x.runBell + (s.bell.now - b) }).deliver j)
      else go s
  | none => go s

end Sys2Proof.Machine
end

