-- ==== Sys2Proof/Machine/Dispatcher.lean ====
section
/-! DEFINITION. The dispatcher (chapter 15): quanta and placement, the start and the end of items in service, prefetch
slots, stealing, spare cores. -/

namespace Sys2Proof.Machine

/-! ### Quanta (R422) -/

/-- Whether a logical core is in service in the next bell (R432, R433): a physical core stands behind it, or a spare takes its number at
the boundary. -/
def State.inService (s : State) (k : Nat) : Bool := (s.core k).phys.isSome || (s.hamlet (k / 16)).pendSub.contains (k % 16)

/-- Logical cores in service (R422, R433). -/
def State.coresInService (s : State) : Nat := 512 - count (fun k _ => !s.inService k) s.cores

/-- The demand of a function (R422): over its RUNNING jobs, at most C items each. -/
def State.demand (s : State) (f : Nat) : Nat :=
  s.jobs.foldl (fun n e => if e.2.r.fn = f && e.2.live then n + min e.2.cores (s.readyItems e.1 + s.busyItems e.1) else n) 0

/-- A function in the division of quanta: number, weight, demand. -/
structure Claim where
  fn : Nat
  weight : Nat
  demand : Nat

/-- A claim's proportional share of `left` quanta among claims of total weight `sum`, with its carried fraction, in
1/65536 of a quantum. -/
def claimShare (carry : Tab Nat) (left sum : Nat) (c : Claim) : Nat := left * c.weight * 65536 / sum + lookD carry 0 c.fn

/-- The functions whose demand is met by their share, removed round by round (R422 step 2): the quanta of those, what is
left, and the rest. -/
def settle (carry : Tab Nat) : Nat → Nat → List Claim → Tab Nat → Tab Nat × Nat × List Claim
  | 0, left, cs, done => (done, left, cs)
  | k + 1, left, cs, done =>
    let sum := cs.foldl (fun n c => n + c.weight) 0
    let met := cs.filter fun c => c.demand * 65536 ≤ claimShare carry left sum c
    if sum = 0 || met.isEmpty then (done, left, cs)
    else
      settle carry k (left - met.foldl (fun n c => n + c.demand) 0)
        (cs.filter fun c => !(decide (c.demand * 65536 ≤ claimShare carry left sum c)))
        (met.foldl (fun t c => put t c.fn c.demand) done)

/-- Divides `n` quanta (R422): the quanta by function, and the fractions carried. -/
def divide (n : Nat) (carry : Tab Nat) (cs : List Claim) : Tab Nat × Tab Nat :=
  let heavy := cs.filter fun c => c.weight > 0 && c.demand > 0
  let (done, left, rest) := settle carry (heavy.length + 1) n heavy []
  let sum := rest.foldl (fun k c => k + c.weight) 0
  let share := fun c => claimShare carry left sum c
  let (given, left) := rest.foldl (fun (a : Tab Nat × Nat) c =>
    let q := min (min c.demand (share c / 65536)) a.2
    (put a.1 c.fn q, a.2 - q)) (done, left)
  let order := rest.mergeSort fun a b => decide (share a % 65536 > share b % 65536) ||
    (decide (share a % 65536 = share b % 65536) && decide (a.fn ≤ b.fn))
  let up := (order.filter fun c => lookD given 0 c.fn < c.demand).take left
  let given := up.foldl (fun t c => adj t c.fn (· + 1)) given
  let carry := rest.foldl (fun t c =>
    putD t 0 c.fn (if up.any fun u => u.fn = c.fn then 0 else share c % 65536)) []
  let (given, _) := (cs.filter fun c => c.weight = 0 && c.demand > 0).foldl (fun (a : Tab Nat × Nat) c =>
    let q := min c.demand a.2
    (put a.1 c.fn q, a.2 - q)) (given, left - up.length)
  (given, carry)

/-! ### Placement (R423) -/

/-- The function of a job. -/
def State.jobFn (s : State) (j : Nat) : Nat := ((look s.jobs j).map (·.r.fn)).getD 0

def State.jobLive (s : State) (j : Nat) : Bool := ((look s.jobs j).map Job.live).getD false

/-- Quanta left to place by function, and what each core is placed for: function + 4096 * step. -/
structure Placing where
  left : Tab Nat
  place : Tab Nat

/-- Places a core for a function at a step, if the function has a quantum left and the core none. -/
def Placing.put (p : Placing) (core f step : Nat) : Placing :=
  if lookD p.left 0 f = 0 || (look p.place core).isSome then p
  else ⟨adj p.left f (· - 1), Sys2Proof.Machine.put p.place core (f + 4096 * step)⟩

/-- Cores with an item in service, or parked items, by falling priority (R423 steps 1 and 2). -/
def byPrio (l : List (Nat × Nat × Nat)) : List (Nat × Nat × Nat) := l.mergeSort fun a b => a.2.2 ≥ b.2.2

/-- Items of a function that are ready in a hamlet, its slots among them. -/
def State.readyIn (s : State) (h f : Nat) : Nat :=
  ((s.hamlet h).ready.filter fun e => s.jobFn e.1 = f && s.jobLive e.1).length +
    count (fun k c => k / 16 = h && (match c.slot with
      | some (j, _) => s.jobFn j = f && s.jobLive j
      | none => false)) s.cores

/-- One remaining core of a hamlet goes to a function with items ready there that are not yet served, in proportion to what each has
left to place: that of the highest quotient of what it had by one more than what it has got there (R423 step 3). -/
def State.placeReady (s : State) (p : Placing) (core : Nat) : Placing :=
  let h := core / 16
  if (look p.place core).isSome || !s.inService core then p
  else
    let taken := fun f => count (fun k v => k / 16 = h && v % 4096 = f && v / 4096 = 3) p.place
    let can := (p.left.map (·.1)).filter fun f => lookD p.left 0 f > 0 && taken f < s.readyIn h f
    let had := fun f => lookD p.left 0 f + taken f
    match firstBy (fun a b => decide (had a * (taken b + 1) > had b * (taken a + 1))) can with
    | some f => p.put core f 3
    | none => p

/-- Unplaced cores of the hamlets of a function's jobs (R423 step 4). -/
def State.stealCores (s : State) (f : Nat) : List Nat :=
  let hs := (s.jobs.filter fun e => e.2.r.fn = f && e.2.live).flatMap fun e => e.2.hamlets
  (List.range 512).filter fun k => hs.contains (k / 16) && s.inService k

/-- Items in service whose function has no quantum left give way to ready items of strictly higher PRIO of their own function in their
hamlet, the lowest first and one for each of those: their cores are placed anew (R423). -/
def State.displace (s : State) (busy : List (Nat × Nat × Nat)) (p : Placing) : Placing :=
  busy.reverse.foldl (fun p e =>
    let (k, f, prio) := e
    let gone := count (fun c v => c / 16 = k / 16 && v = f + 4096 * 3) p.place
    let above := ((s.hamlet (k / 16)).ready.filter fun r => s.jobFn r.1 = f && s.jobLive r.1 && r.2.prio > prio).length
    if look p.place k = some (f + 4096) && lookD p.left 0 f = 0 && above > gone then
      { p with place := Sys2Proof.Machine.put p.place k (f + 4096 * 3) }
    else p) p

/-- Places the quanta on cores (R423). -/
def State.placeAll (s : State) (given : Tab Nat) : Placing :=
  let busy := byPrio (s.cores.filterMap fun e => match e.2.ctx, e.2.phys with
    | some x, some _ => if s.jobLive x.job then some (e.1, s.jobFn x.job, x.item.prio) else none
    | _, _ => none)
  let parked := byPrio (s.cores.flatMap fun e => if !s.inService e.1 then [] else
    (e.2.parked.filter fun x => s.jobLive x.job).map fun x => (e.1, s.jobFn x.job, x.item.prio))
  let p := busy.foldl (fun (p : Placing) e => p.put e.1 e.2.1 1) ⟨given, []⟩
  let p := s.displace busy p
  let p := parked.foldl (fun (p : Placing) e => p.put e.1 e.2.1 2) p
  let p := (List.range 512).foldl s.placeReady p
  (p.left.map (·.1)).foldl (fun p f => (s.stealCores f).foldl (fun (p : Placing) k => p.put k f 4) p) p

/-- Assigns and places; quanta that find no core pass to other functions (R423), whose demand alone then counts. -/
def State.assign (s : State) : Nat → List Claim → Tab Nat × Tab Nat × Tab Nat
  | 0, _ => ([], [], [])
  | k + 1, cs =>
    let (given, carry) := divide s.coresInService s.disp.carry cs
    let p := s.placeAll given
    if k = 0 || p.left.all fun e => e.2 = 0 then (given, carry, p.place)
    else s.assign k (cs.map fun c => if lookD p.left 0 c.fn > 0 then { c with demand := lookD given 0 c.fn - lookD p.left 0 c.fn }
      else c)

/-- QUANTUM_ASSIGNMENT (R42, R422, R423): assigns and places the quanta of the next bell, each grant traced; after the close of its
plan none are. -/
def execQuantumAssignment (s : State) : Res' :=
  if s.bell.closed then go s else
  let fs := (s.jobs.map fun e => e.2.r.fn).eraseDups.mergeSort fun a b => a ≤ b
  let cs := fs.map fun f => Claim.mk f (s.fn f).eff.dispW (s.demand f)
  let (given, carry, place) := s.assign (cs.length + 1) cs
  let s := { s with disp := { s.disp with grants := given, carry := carry, place := place } }
  go (given.foldl (fun s e => if e.2 > 0 then s.traceGrant e.1 e.2 else s) s)

/-! ### Items (R381 to R386, R424 to R431) -/

/-- Whether a flow of a job is held: an item of it is in service, parked or in a slot (R424). -/
def State.flowHeld (s : State) (j flow : Nat) : Bool :=
  flow ≠ 0 && s.cores.any fun e =>
    (match e.2.ctx with
     | some x => x.job = j && x.item.flow = flow
     | none => false) ||
    (e.2.parked.any fun x => x.job = j && x.item.flow = flow) ||
    (match e.2.slot with
     | some (k, i) => k = j && i.flow = flow
     | none => false)

/-- Whether a job runs on as many stream cores at once as it may (R335, Table 12.1). -/
def State.coresFull (s : State) (j : Nat) : Bool :=
  count (fun _ c => (c.ctx.map (·.job)) = some j) s.cores ≥ ((look s.jobs j).map (·.cores)).getD 0

/-- Whether a job has reached its 16 items in service or parked for each hamlet it holds (R420), or its cores. -/
def State.jobFull (s : State) (j : Nat) : Bool :=
  s.busyItems j ≥ 16 * (((look s.jobs j).map (·.hamlets.length)).getD 0) || s.coresFull j

/-- The ready items of a function in a hamlet by falling PRIO, in the order they entered (R421). -/
def State.candidates (s : State) (h f : Nat) : List (Nat × Item) :=
  ((s.hamlet h).ready.filter fun e => s.jobFn e.1 = f && s.jobLive e.1).mergeSort fun a b => a.2.prio ≥ b.2.prio

/-- Whether an item ready in a hamlet is the first of its flow to have been accepted (R424). -/
def State.flowFirst (s : State) (h : Nat) (e : Nat × Item) : Bool :=
  e.2.flow = 0 || (s.disp.flows.find? fun x => x.1 = e.1 && x.2.2.flow = e.2.flow) = some (e.1, h, e.2)

/-- Whether a ready item's flow lets it be taken (R424, R425). -/
def State.flowOpen (s : State) (h : Nat) (e : Nat × Item) : Bool := !s.flowHeld e.1 e.2.flow && s.flowFirst h e

/-- Whether a ready item can start (R420, R424). -/
def State.eligible (s : State) (h : Nat) (e : Nat × Item) : Bool := s.flowOpen h e && !s.jobFull e.1

/-- Marks the items passed over for a held flow before the one taken: each is traced once (R425, R434). -/
def State.passOver (s : State) (h c : Nat) (l : List (Nat × Item)) : State :=
  l.foldl (fun s e =>
    if !s.flowOpen h e && !s.disp.heldSeen.contains e then
      { s with disp := { s.disp with heldSeen := e :: s.disp.heldSeen } }.trace 6 h c (some e.2) 0 0
    else s) s

/-- An item has left a hamlet's ready lists and slots (R421). -/
def State.leave (s : State) (h : Nat) (e : Nat × Item) : State := s.setHamlet h fun x => { x with entered := x.entered.erase e }

/-- Puts an item before those of a list that entered after it (R421). -/
def byEntry (entered : List (Nat × Item)) (e : Nat × Item) : List (Nat × Item) → List (Nat × Item)
  | [] => [e]
  | x :: xs => if entered.idxOf e ≤ entered.idxOf x then e :: x :: xs else x :: byEntry entered e xs

/-- Removes an item from a hamlet's ready lists. -/
def State.unready (s : State) (h : Nat) (e : Nat × Item) : State :=
  { s.setHamlet h fun x => { x with ready := x.ready.erase e } with
    disp := { s.disp with
      heldSeen := s.disp.heldSeen.filter fun x => x ≠ e, flows := s.disp.flows.erase (e.1, h, e.2) } }

/-- Puts a slot's item back at the head of its ready list, ahead of the items that entered after it (R421), first of its flow again
(R427, R433). -/
def State.putBack (s : State) (h : Nat) (e : Nat × Item) : State :=
  { s.setHamlet h fun x => { x with ready := byEntry x.entered e x.ready } with
    disp := { s.disp with flows := if e.2.flow = 0 then s.disp.flows else (e.1, h, e.2) :: s.disp.flows } }

/-- The state of a core as an item starts (R382). -/
def freshCtx (x : Job) (j : Nat) (i : Item) : Ctx :=
  { job := j, item := i, pc := 0x100000 + x.entry
    g := [(1, i.w0), (2, i.w1), (3, i.w2), (4, i.w3), (29, 0x200000), (30, 0x40000), (31, 0xFFFF0)].filter fun e => e.2 ≠ 0
    w := [], a := [], m := [], p := [], ls := [], le := [], lc := [], ldepth := 0, amode := 0, cycle := 0, prods := []
    loads := [], stores := [], dma := [], reqs := [], saved := [] }

/-- Starts an item on a core (R358, R382): local memory is zeroed where the function changes; DISPATCH is traced. -/
def State.startItem (s : State) (k j : Nat) (i : Item) (fromSlot : Bool) : State :=
  match look s.jobs j with
  | some x =>
    let s := s.setCore k fun c => { c with
      ctx := some (freshCtx x j i), lastFn := some x.r.fn
      lm := if c.lastFn = some x.r.fn then c.lm else [] }
    s.trace 1 (k / 16) (k % 16) (some i) 0 (b01 fromSlot)
  | none => s

/-- The function a core serves in this bell, and the step it was placed at. -/
def State.served (s : State) (k : Nat) : Option (Nat × Nat) := (look s.disp.now k).map fun v => (v % 4096, v / 4096)

/-- ITEM_START (R382, R383, R425): an idle core takes its slot item, or the first eligible ready item of its function. -/
def execItemStart (c : CoreId) (s : State) : Res' :=
  if !c.wf then .fault .noSuchPart
  else
    let k := coreNo c
    let x := s.core k
    match s.served k, x.ctx, x.phys with
    | some (f, _), none, some _ =>
      match x.slot with
      | some (j, i) =>
        if s.jobFn j = f && s.jobLive j && !s.jobFull j then
          go (((s.setCore k fun c => { c with slot := none }).leave c.hamlet (j, i)).startItem k j i true)
        else go s
      | none =>
        let l := s.candidates c.hamlet f
        match l.find? (s.eligible c.hamlet) with
        | some e =>
          let s := s.passOver c.hamlet c.core (l.takeWhile fun y => y ≠ e)
          go (((s.unready c.hamlet e).leave c.hamlet e).startItem k e.1 e.2 false)
        | none => go (s.passOver c.hamlet c.core l)
    | _, _, _ => go s

/-- SLOT_FILL (R426): the core's slot takes its next eligible item while the current one runs; it stays empty when the
core's next quantum belongs to another function. -/
def execSlotFill (c : CoreId) (s : State) : Res' :=
  if !c.wf then .fault .noSuchPart
  else
    let k := coreNo c
    let x := s.core k
    match s.served k, x.ctx, x.slot with
    | some (f, _), some _, none =>
      let other := match look s.disp.place k with
        | some v => decide (v % 4096 ≠ f)
        | none => false
      if other then go s
      else
        let l := s.candidates c.hamlet f
        match l.find? (s.flowOpen c.hamlet) with
        | some e =>
          let s := s.passOver c.hamlet c.core (l.takeWhile fun y => y ≠ e)
          go ((s.unready c.hamlet e).setCore k fun x => { x with slot := some e })
        | none => go (s.passOver c.hamlet c.core l)
    | _, _, _ => go s

/-- Parks a core's item with its state and local memory, every multiply landed (R372, R385, R428). -/
def State.parkItem (s : State) (k : Nat) : State :=
  match (s.core k).ctx with
  | some x =>
    (s.setCore k fun c => { c with ctx := none, parked := c.parked ++ [{ x.landAll with saved := c.lm }] }).trace 2 (k / 16) (k % 16)
      (some x.item) 0 0
  | none => s

/-- The slot item goes back to the head of its ready list when the core changes function, or serves none (R427). -/
def State.unslot (s : State) (k : Nat) (f : Option Nat) : State :=
  match (s.core k).slot with
  | some (j, i) =>
    if f = some (s.jobFn j) then s
    else (s.setCore k fun c => { c with slot := none }).putBack (k / 16) (j, i)
  | none => s

/-- Resumes the parked item of a function with the highest PRIO, earliest parked (R385, R428). -/
def State.resumeItem (s : State) (k f : Nat) : State :=
  let mine := ((s.core k).parked.filter fun x => s.jobFn x.job = f && s.jobLive x.job && !s.coresFull x.job).mergeSort fun a b =>
    a.item.prio ≥ b.item.prio
  match mine.head? with
  | some x =>
    (s.setCore k fun c => { c with
      ctx := some { x with saved := [] }, parked := c.parked.erase x, lm := x.saved, lastFn := some f }).trace 3 (k / 16) (k % 16)
        (some x.item) 0 0
  | none => s

/-- STEAL (R431): takes one item of the function from another hamlet of its jobs: the hamlet with the most ready items, the
first eligible one whose STAY is 0. -/
def State.steal (s : State) (k f : Nat) : State :=
  let h := k / 16
  let jobs := s.jobs.filter fun e => e.2.r.fn = f && e.2.live && e.2.hamlets.contains h
  let srcs := ((jobs.flatMap fun e => e.2.hamlets).eraseDups.mergeSort fun a b => a ≤ b).filter fun x =>
    x ≠ h && !(s.candidates x f).isEmpty
  match firstBy (fun a b => (s.candidates a f).length > (s.candidates b f).length) srcs with
  | some src =>
    let ok := fun (e : Nat × Item) => jobs.any (fun y => y.1 = e.1) && !e.2.stay && s.eligible src e
    match (s.candidates src f).find? ok with
    | some e => (((s.unready src e).leave src e).trace 4 h (k % 16) (some e.2) 0 src).startItem k e.1 e.2 false
    | none => s
  | none => s

/-- QUANTUM_END (R427 to R429, R431): as the bell opens, an item goes on if its core was placed to keep it, else it is
parked; then a parked item resumes, or the core steals, as it was placed. -/
def execQuantumEnd (c : CoreId) (s : State) : Res' :=
  if !c.wf then .fault .noSuchPart
  else
    let k := coreNo c
    match s.served k with
    | none => go ((s.parkItem k).unslot k none)
    | some (f, step) =>
      if step = 1 && (s.core k).ctx.isSome then go s
      else
        let s := (s.parkItem k).unslot k (some f)
        if step = 2 then go (s.resumeItem k f)
        else if step = 4 && (s.candidates c.hamlet f).isEmpty && (s.core k).slot.isNone then go (s.steal k f)
        else go s

/-! ### Spare cores (R432, R433) -/

/-- Retires a physical core: an item in service ends its job with MEMORY_LOST (R380); a spare takes the logical number at
the next boundary, or, with none left, the number leaves service and each of its parked items ends its job (R433). -/
def State.retireCore (s : State) (h p : Nat) : State :=
  if (s.hamlet h).gone.contains p then s
  else
    let s := s.setHamlet h fun x => { x with gone := p :: x.gone }
    match (List.range 16).find? fun l => (s.core (h * 16 + l)).phys = some p with
    | none => s
    | some l =>
      let k := h * 16 + l
      let run := ((s.core k).ctx.map (·.job)).toList
      let s := run.foldl (fun s j => s.endJob j { status := MEMORY_LOST }) s
      let s := s.setCore k fun c => { c with phys := none, ctx := none }
      if (s.freeSpares h).length > (s.hamlet h).pendSub.length then s.setHamlet h fun x => { x with pendSub := x.pendSub ++ [l] }
      else
        let s := match (s.core k).slot with
          | some e => s.putBack h e
          | none => s
        let lost := ((s.core k).parked.map (·.job)).eraseDups
        (lost.foldl (fun s j => s.endJob j { status := MEMORY_LOST }) s).setCore k fun c => { c with slot := none, parked := [] }

/-- CORE_RETIRE (R432): an uncorrectable error in a core's registers or local memory, or a core that retires nothing. -/
def execCoreRetire (hamlet phys : Nat) (s : State) : Res' :=
  if hamlet ≥ 32 || phys ≥ 18 then .fault .noSuchPart else go (s.retireCore hamlet phys)

/-- CORE_SELF_TEST (R432): a physical core is tested in an idle quantum; one that fails is retired. -/
def execCoreSelfTest (hamlet phys : Nat) (ok : Bool) (s : State) : Res' :=
  if hamlet ≥ 32 || phys ≥ 18 then .fault .noSuchPart
  else
    let busy := (List.range 16).any fun l =>
      (s.core (hamlet * 16 + l)).phys = some phys && (s.core (hamlet * 16 + l)).ctx.isSome
    if ok || busy then go s else go (s.retireCore hamlet phys)

end Sys2Proof.Machine
end

