-- ==== Sys2Proof/Machine/RingCmd.lean ====
section
/-! DEFINITION. FLUSH, ABORT and RESTART RING (R166, R177 to R180, R185 to R187). -/

namespace Sys2Proof.Machine


/-! ### FLUSH -/

/-- FLUSH (R166): starts once no earlier state-changing command of its ring is outstanding, and completes at once. -/
def execFlush (r : Ref) (s : State) : Res' :=
  s.start r 0x18 fun c =>
    if (earlier (((s.sq r.fn r.sq).map (·.cmds)).getD []) c.pos).any Cmd.changes then s
    else (s.begin_ r .decided).complete r { status := SUCCESS }

/-! ### ABORT -/

/-- The outstanding command an ABORT names (R185): ring in bytes 4 to 5, tag in bytes 6 to 7. -/
def State.abortTarget (s : State) (r : Ref) (c : Cmd) : Option (Ref × Cmd) :=
  match s.sq r.fn c.f10 with
  | some q => (q.cmds.find? fun d => d.tag % 65536 = le c.entry 6 2).map fun d => (Ref.mk r.fn c.f10 d.tag, d)
  | none => none

/-- Removes the job of a command that ends unstarted or before RUNNING. -/
def State.dropJobOf (s : State) (r : Ref) : State :=
  match s.jobOf r with
  | some j => s.removeJob j
  | none => s

/-- An activation or a media erase ends with the command that asked for it (R187): neither takes effect later, and the selector
names the running bank again. -/
def State.dropTask (s : State) (t : Ref) : State :=
  let s := if s.act.map (·.r) = some t then { s with act := none }.select s.boot.running else s
  { s with
    life := if s.life.erasing = some t then { s.life with erasing := none } else s.life }

/-- The target is before its decision point (Table 6.5, rows 1 and 2): the ABORT takes a ledger number, the target completes
with ABORTED and nothing of it takes effect. -/
def State.abortNow (s : State) (r t : Ref) : State :=
  let s := s.begin_ r .decided
  let (n, s) := s.commit
  let s := (s.setCmd r fun c => { c with ledger := some n })
  let s := { s with aborts := s.aborts ++ [AbortWait.mk r t 0 none SUCCESS] }
  ((((s.dropWork t).dropJobOf t).dropTask t).complete t { status := ABORTED }).goOn t.fn t.sq

/-- The target is at or past its decision point (Table 6.5, row 3); a RUNNING job stops (R339). -/
def State.abortLate (s : State) (r t : Ref) : State :=
  let s := s.begin_ r .decided
  let s := { s with aborts := s.aborts ++ [AbortWait.mk r t 0 none ABORT_TOO_LATE] }
  match s.jobOf t with
  | some j => s.setJob j fun x => { x with stopped := true }
  | none => s

/-- ABORT (R185 to R187): its own completion waits for the acknowledgement of its target's (COMPLETION_ACK). -/
def execAbort (r : Ref) (s : State) : Res' :=
  s.start r 0x19 fun c =>
    if (s.sq r.fn c.f10).isNone then s.fail r INVALID_FIELD 4
    else match s.abortTarget r c with
      | none => s.complete r { status := NO_MATCH }
      | some (t, d) =>
        if d.opcode = 0x19 then s.complete r { status := NO_MATCH }
        else if d.point = .decided || d.aborted then s.abortLate r t
        else s.abortNow r t

/-! ### RESTART RING -/

/-- What the commit of RESTART RING does in either mode (R178): the error log clears, the fences of the ring are lifted, the
ring is unfrozen. -/
def State.unfreeze (s : State) (f n : Nat) : State :=
  let s := s.setSq f n fun q => { q with frozen := false, errlog := [] }
  { s with zones := (s.zones.map fun e =>
      (e.1, match e.2.fence with
        | some (ring, _) => if ring = ringNo f n then { e.2 with fence := none } else e.2
        | none => e.2)).filter fun e => e.2 ≠ Zone.fresh }

/-- The fetched, unstarted entries of a ring, but for those an ABORT ended (R187). -/
def State.waiting (s : State) (f n : Nat) : List Ref :=
  match s.sq f n with
  | some q => (q.cmds.filter fun c => !c.started && !c.aborted).map fun c => ⟨f, n, c.tag⟩
  | none => []

/-- The entries of a ring as newly fetched (R178): what has not started is checked afresh, its tag among the rest (R137). -/
def anew : List Cmd → List Cmd → List Cmd
  | done, [] => done
  | done, c :: cs =>
    anew (done ++ [if c.started || c.aborted then c else
      { c with tag := freshTag done (c.tag % 65536), point := .fetched, list := [], block := [], ending := none }]) cs

/-- RESUME (R178): fetched unstarted entries are checked afresh and start in ring order; fetching resumes. A job of theirs
that is QUEUED is created again as its entry passes its checks. -/
def State.resumeRing (s : State) (r : Ref) (f n : Nat) : State :=
  let ws := s.waiting f n
  let s := ws.foldl (fun s t => (s.dropWork t).dropJobOf t) s
  let s := s.setSq f n fun q => { q with cmds := anew [] q.cmds }
  (s.complete r { status := SUCCESS, ledger := (s.cmd r).bind (·.ledger) }).goOn f n

/-- DISCARD (R178): every entry up to the recorded TAIL completes with NOT_STARTED_FROZEN, those not fetched yet as they
arrive; RESTART RING completes last, RESULT their number. -/
def State.discardRing (s : State) (r : Ref) (f n : Nat) : State :=
  let ws := s.waiting f n
  let s := ws.foldl (fun s t => ((s.dropWork t).dropJobOf t).complete t { status := NOT_STARTED_FROZEN }) s
  match s.sq f n with
  | some q =>
    if q.fetched = q.tail then
      (s.complete r { status := SUCCESS, result := BitVec.ofNat 64 ws.length, ledger := (s.cmd r).bind (·.ledger) }).goOn f n
    else
      (s.setSq f n fun q => { q with discard := q.discard ++ [(q.tail, ws.length, r.sq, r.tag)] }).goOn f n
  | none => s

/-- The commit of RESTART RING (R178), once every started command of the named ring has completed; it has started by then, and
waits for nothing else (R154). -/
def State.restartCommit (s : State) (r : Ref) (c : Cmd) : State :=
  match s.sq r.fn c.f10 with
  | none => s.fail r INVALID_FIELD 4
  | some q =>
    if !q.frozen then (s.atPoint r .decided).succeed r 0
    else if q.cmds.any Cmd.started then s
    else
      let s := s.atPoint r .decided
      let (n, s) := s.commit
      let s := (s.setCmd r fun c => { c with ledger := some n }).unfreeze r.fn c.f10
      if byteAt c.entry 6 = 0 then s.resumeRing r r.fn c.f10 else s.discardRing r r.fn c.f10

/-- RESTART RING (R177 to R179): it starts at once; a ring that is not frozen is left as it is. Until it commits, each further
RESTART_RING or COMMAND_DEFERRED_START tries its commit again. -/
def execRestartRing (r : Ref) (s : State) : Res' :=
  match s.cmd r with
  | some c =>
    if c.opcode = 0x1A && c.point = .running then go (s.restartCommit r c)
    else s.start r 0x1A fun c => (s.begin_ r .running).restartCommit r c
  | none => go s

end Sys2Proof.Machine
end

