-- ==== Sys2Proof/Machine/SemCmd.lean ====
section
/-! DEFINITION. Semaphores: the ring commands (R114, R115, R217), compare-and-swap on the semaphore window (R116, R117) and
breakability (R113). -/

namespace Sys2Proof.Machine

/-! ### The word (Table 4.4) -/

def semGen (w : W64) : Nat := bits w.toNat 63 32
def semLease (w : W64) : Nat := bits w.toNat 31 16
def semBreakable (w : W64) : Bool := bit w.toNat 14
def semHeld (w : W64) : Bool := bit w.toNat 13
def semPort (w : W64) : PortId := if bit w.toNat 12 then .B else .A

/-- A held word. -/
def heldWord (gen lease f : Nat) (p : PortId) : W64 :=
  BitVec.ofNat 64 (gen * 2 ^ 32 + lease * 2 ^ 16 + 2 ^ 13 + p.num * 2 ^ 12 + f)

/-- The word after an acquire, a release or a break that succeeds (Table 4.5); none for SEMAPHORE_BUSY. -/
def semNext (op lease f : Nat) (p : PortId) (w : W64) : Option W64 :=
  match op with
  | 0x30 =>
    if !semHeld w then some (heldWord ((semGen w + 1) % 2 ^ 32) lease f p)
    else if semHeldBy w f p then some (heldWord (semGen w) lease f p)
    else none
  | 0x31 => if semHeldBy w f p then some (freedWord w) else none
  | 0x32 => if semHeld w && semBreakable w then some (freedWord w) else none
  | _ => none

/-- A change of SEM[k] (R114): it takes a ledger number, kept in SEM_LAST, and an acquire or renewal starts its lease. -/
def State.semChange (s : State) (k : Nat) (w : W64) : State :=
  let (n, s) := s.commit
  { s with sems := { s.sems with
    word := putD s.sems.word 0 k w
    last := putD s.sems.last 0 k n
    acq := if semHeld w then put s.sems.acq k s.bell.now else del s.sems.acq k } }

/-! ### Ring commands -/

/-- A semaphore command at its decision point (R115): rights are judged again, a success that changes the word commits. -/
def State.doSem (s : State) (r : Ref) (c : Cmd) : State :=
  let k := le c.entry 4 2
  match firstFail (step4 s r c) with
  | some (st, f) => s.fail r st f
  | none =>
    let s := s.begin_ r .decided
    if c.opcode = 0x33 then s.complete r { status := SUCCESS }
    else match semNext c.opcode (le c.entry 6 2) r.fn c.port (s.semWord k) with
      | some w =>
        let s := s.semChange k w
        s.complete r { status := SUCCESS, ledger := some s.ledger }
      | none => s.complete r { status := SEMAPHORE_BUSY }

/-- SEM ACQUIRE (R115): acquires a free semaphore, or renews one its requester holds. -/
def execSemAcquire (r : Ref) (s : State) : Res' :=
  s.start r 0x30 fun c => s.doSem r c

/-- SEM RELEASE (R115). -/
def execSemRelease (r : Ref) (s : State) : Res' :=
  s.start r 0x31 fun c => s.doSem r c

/-- SEM BREAK (R115). -/
def execSemBreak (r : Ref) (s : State) : Res' :=
  s.start r 0x32 fun c => s.doSem r c

/-- SEM READ (R217). -/
def execSemRead (r : Ref) (s : State) : Res' :=
  s.start r 0x33 fun c => s.doSem r c

/-! ### Compare-and-swap -/

/-- Whether a swap value is one that R116 stores over the word `w`, for a requester `f` on port `p`; `own` whether the
semaphore is assigned to it (R117: otherwise a manager stores only a break). -/
def casStores (own : Bool) (f : Nat) (p : PortId) (w cmp swp : W64) : Bool :=
  let mine := semHeldBy w f p
  let next := semGen swp = (semGen w + 1) % 2 ^ 32
  let acquire := own && !semHeld w && semLease swp ≠ 0 && swp = heldWord (semGen swp) (semLease swp) f p && next
  let renew := own && mine && semLease swp ≠ 0 && swp = heldWord (semGen w) (semLease swp) f p
  let free := semHeld w && bits swp.toNat 31 0 = 0 && next && ((own && mine) || (!mine && semBreakable w))
  !bit cmp.toNat 15 && w = cmp && (acquire || renew || free)

/-- Whether a queue pair of the module accepts requests (R71, R579). -/
def State.respondsOn (s : State) (f : Nat) (p : PortId) (ev : Bool) : Bool :=
  (s.port p).state = .up && ((s.fn f).qpState p ev = .rtr || (s.fn f).qpState p ev = .rts)

/-- Whether a command queue pair accepts requests. -/
def State.responds (s : State) (f : Nat) (p : PortId) : Bool := s.respondsOn f p false

/-- A responder request on a queue pair is refused with a NAK, and the queue pair enters ERROR (R71, R75). -/
def State.refuseOn (s : State) (f : Nat) (p : PortId) (ev access : Bool) : State :=
  (s.tell (.nak p f access)).qpError f p ev

/-- A request on a command queue pair is refused. -/
def State.refuse (s : State) (f : Nat) (p : PortId) (access : Bool) : State := s.refuseOn f p false access

/-- SEM_COMPARE_AND_SWAP (R95, R116, R117): the word as it stood is returned; a request outside the window, misaligned, with
a wrong key, of a quiescing function or of a tenant the semaphore is not assigned to is refused. -/
def execSemCompareAndSwap (fn : Nat) (p : PortId) (key : W32) (addr : Nat) (cmp swp : W64) (s : State) : Res' :=
  let k := addr / 8
  if !s.responds fn p then go s
  else if key ≠ Config.semRkey fn || addr % 8 ≠ 0 || addr + 8 > 0x2000 || (s.fn fn).state ≠ .active ||
      !s.semPermitted fn k true then go (s.refuse fn p true)
  else
    let w := s.semWord k
    let s := if casStores (s.semPermitted fn k false) fn p w cmp swp then s.semChange k swp else s
    go (s.tell (.atomic p fn w))

/-- SEM_BREAKABLE (R113): the lease has run out, or the holder's port has been out of UP for SEM_GRACE. -/
def execSemBreakable (n : Nat) (s : State) : Res' :=
  let w := s.semWord n
  let lease := (lookD s.sems.acq 0 n) + semLease w ≤ s.bell.now
  let gone := match (s.port (semPort w)).leftUp with
    | some t => t + s.sems.grace * 1000000 ≤ s.nowNs
    | none => false
  if semHeld w && !semBreakable w && (lease || gone) then
    go { s with sems := { s.sems with word := putD s.sems.word 0 n (w ||| 0x4000) } }
  else go s

end Sys2Proof.Machine
end

