-- ==== Sys2Proof/Machine/SieveCmd.lean ====
section
/-! DEFINITION. Sieve commands (R214 to R216, R446 to R451), the checker (R453, R454) and spare rows (R456). -/

namespace Sys2Proof.Machine

/-! ### Writes -/

/-- Rows a sieve write names. -/
def Cmd.rows (c : Cmd) : List Nat := if c.opcode = 0x29 then [le c.entry 4 4, le c.entry 8 4] else [le c.entry 4 4]

/-- Whether an earlier sieve write of the ring that names a common row is outstanding (R447). -/
def State.rowTurn (s : State) (r : Ref) (c : Cmd) : Bool :=
  match s.sq r.fn r.sq with
  | some q => !(earlier q.cmds c.pos).any fun d =>
      (d.opcode = 0x28 || d.opcode = 0x29) && d.rows.any fun k => c.rows.contains k
  | none => false

/-- What a sieve write is judged by again at its decision point (R106, R214, R215). -/
def State.sieveFails (s : State) (r : Ref) (c : Cmd) : Option (Nat × Nat) :=
  firstFail (step4 s r c ++ [((c.rows.zipIdx.any fun k => !s.imageOk r.fn c.block (96 * k.2)), INVALID_FIELD, 0xFFFF)])

/-- The commit of a sieve write (R446, R447): every row of it stands in array and shadow at once. -/
def State.doSieveWrite (s : State) (r : Ref) (c : Cmd) : State :=
  if !s.rowTurn r c then s
  else match s.sieveFails r c with
    | some (st, f) => s.fail r st f
    | none =>
      let s := s.begin_ r .decided
      let s := c.rows.zipIdx.foldl (fun s k => match s.physRow r.fn k.1 with
        | some p => s.putRow p (rowAt c.block (96 * k.2))
        | none => s) s
      s.succeed r 0

/-- SIEVE WRITE (R215, R447). -/
def execSieveWrite (r : Ref) (s : State) : Res' :=
  s.start r 0x28 fun c => s.doSieveWrite r c

/-- SIEVE WRITE PAIR (R215, R446). -/
def execSieveWritePair (r : Ref) (s : State) : Res' :=
  s.start r 0x29 fun c => s.doSieveWrite r c

/-! ### Lookups -/

/-- Ends a lookup or STEP: the answer goes to the buffer from byte `k`, and the command completes (R216). -/
def State.answer (s : State) (r : Ref) (k : Nat) (a : Option Answer) (cursor : Nat) : State :=
  (s.sendOut r k (answerBytes a cursor)).complete r {
    status := if a.isSome then SUCCESS else NO_MATCH, result := (a.map (·.result)).getD 0 }

/-- A SIEVE LOOKUP (R216, R445, R448, R449, R455). -/
def State.doLookup (s : State) (r : Ref) (c : Cmd) : State :=
  s.underRate r c fun s =>
    let s := s.begin_ r .decided
    let v := bit (byteAt c.entry 4) 0
    let key := slice c.block 0 40
    let (s, ms, a) := s.lookup r.fn (keyOf key) v none
    match ms with
    | x :: _ :: _ =>
      let (cur, g) := (s.fn r.fn).takeCursor key v x.2.2.len x.1
      (s.setFn r.fn fun _ => g).answer r 40 a cur
    | _ => s.answer r 40 a 0

/-- SIEVE LOOKUP (R216). -/
def execSieveLookup (r : Ref) (s : State) : Res' :=
  s.start r 0x2A fun c => s.doLookup r c

/-- A SIEVE STEP on a live cursor (R450): it becomes the one used most recently, or is freed at the last match. -/
def State.stepCursor (s : State) (r : Ref) (cur : Cursor) : State :=
  let (s, ms, a) := s.lookup r.fn (keyOf cur.key) cur.verify (some (cur.len, cur.row))
  let others := fun (g : Fn) => g.cursors.filter fun x => x.value ≠ cur.value
  match ms with
  | x :: _ :: _ =>
    (s.setFn r.fn fun g => { g with cursors := others g ++ [{ cur with len := x.2.2.len, row := x.1 }] }).answer r 0 a
      cur.value
  | _ => (s.setFn r.fn fun g => { g with cursors := others g }).answer r 0 a 0

/-- A SIEVE STEP (R216, R450): a cursor that is not live completes with INVALID_FIELD. -/
def State.doStep (s : State) (r : Ref) (c : Cmd) : State :=
  s.underRate r c fun s =>
    match (s.fn r.fn).cursors.find? fun x => x.value = le c.entry 8 4 with
    | none => s.fail r INVALID_FIELD 8
    | some cur => (s.begin_ r .decided).stepCursor r cur

/-- SIEVE STEP (R450). -/
def execSieveStep (r : Ref) (s : State) : Res' :=
  s.start r 0x2B fun c => s.doStep r c

/-! ### The checker -/

/-- A row image with one bit upset (R454, Table 16.1). -/
def Row.flip (r : Row) (byte b : Nat) : Row :=
  if byte < 40 then { r with key := r.key ^^^ (1#320 <<< (8 * byte + b)) }
  else if byte < 80 then { r with mask := r.mask ^^^ (1#320 <<< (8 * (byte - 40) + b)) }
  else if byte < 88 then { r with result := r.result ^^^ (1#64 <<< (8 * (byte - 80) + b)) }
  else if byte = 89 && b = 7 then { r with valid := !r.valid }
  else if byte = 88 && b < 6 then { r with part := r.part ^^^ 2 ^ b }
  else r

/-- A soft error strikes a row of the array (R454). -/
def State.upset (s : State) (u : SieveUpset) : State :=
  if u.row < 65536 && u.bit < 8 then
    { s with sieve := { s.sieve with
      arr := putD s.sieve.arr Row.none u.row ((lookD s.sieve.arr Row.none u.row).flip u.byte u.bit) } }
  else s

/-- Rows compared in a bell (R453, R457), in ascending order: the 64 of the bell, and every weak row. -/
def State.checked (s : State) : List Nat :=
  let k := s.bell.now % 1024
  let mine := (List.range 64).map fun i => 64 * k + i
  let weak := (s.sieve.weak.filter fun p => !mine.contains p).mergeSort fun a b => a ≤ b
  weak.filter (fun p => p < 64 * k) ++ mine ++ weak.filter fun p => p > 64 * k

/-- SIEVE_CHECKER (R453): the upsets that have struck the array since the last comparison come in with the command; the rows
of the bell are compared with their shadows, and those that differ are repaired; one whose read-back still differs is retired (R456). -/
def execSieveChecker (upsets : List SieveUpset) (s : State) : Res' :=
  if !s.boot.ready then go s
  else
    let s := upsets.foldl State.upset s
    let stuck := upsets.filter (·.stuck)
    go (s.checked.foldl (fun s p =>
      if s.rowBad p then
        let s := (stuck.filter fun u => u.row = p).foldl State.upset (s.repairRow p)
        if s.rowBad p then s.retireRow p else s
      else s) s)

/-- SIEVE_ROW_RETIRED (R456): at the boundary a spare loaded from the shadow takes a retired row's place. -/
def execSieveRowRetired (row : Nat) (s : State) : Res' :=
  if s.sieve.retiring.contains row then
    go { s with sieve := { s.sieve with
      arr := putD s.sieve.arr Row.none row (lookD s.sieve.shadow Row.none row)
      retiring := s.sieve.retiring.erase row
      replaced := if s.sieve.replaced.contains row then s.sieve.replaced else row :: s.sieve.replaced } }
  else go s

end Sys2Proof.Machine
end

