-- ==== Sys2Proof/Machine/FnCmd.lean ====
section
/-! DEFINITION. Management of rings, functions and holdings (R94 to R106, R122 to R125, R128, R219 to R223, Tables 4.2, 4.3,
5.2 and 7.13). -/

namespace Sys2Proof.Machine

/-- A management command at its decision point (R94, R156): judged, it takes a ledger number and its effect `k`. -/
def State.govern (s : State) (r : Ref) (fails : List Chk) (k : State → State) : State :=
  match firstFail fails with
  | some (st, f) => (s.begin_ r .running).fail r st f
  | none =>
    let s := s.begin_ r .decided
    let (n, s) := s.commit
    k (s.setCmd r fun c => { c with ledger := some n })

/-- Completes a command that has committed. -/
def State.ended (s : State) (r : Ref) (result : W64) : State :=
  s.complete r { status := SUCCESS, result := result, ledger := (s.cmd r).bind (·.ledger) }

/-- Completes a committed command after the next boundary (R105). -/
def State.endedLater (s : State) (r : Ref) (result : W64) : State :=
  { s with due := s.due ++ [Due.mk r SUCCESS result ((s.cmd r).bind (·.ledger))] }

/-! ### Rings (Table 5.2) -/

/-- CREATE RING (R125, R220): RESULT holds the generation and the RING entry. -/
def State.createRing (s : State) (r : Ref) (c : Cmd) : State :=
  s.govern r [(ringFails s r.fn c.block, INVALID_FIELD, 0xFFFF)] fun s =>
    let s := s.newRing r.fn (le c.block 0 2) c.block 0
    let v := if byteAt c.block 2 = 1 then (s.cq r.fn (le c.block 0 2)).map fun k => (k.gen, k.index)
      else (s.sq r.fn (le c.block 0 2)).map fun q => (q.gen, q.index)
    s.ended r (BitVec.ofNat 64 ((v.map fun p => p.1 + p.2 * 2 ^ 32).getD 0))

def execCreateRing (r : Ref) (s : State) : Res' :=
  s.start r 0x40 fun c => s.createRing r c

/-- What keeps a ring from being deleted (Table 5.2). -/
def State.deleteFails (s : State) (f n : Nat) (isCq : Bool) : List Chk :=
  if isCq then
    [((s.cq f n).isNone, INVALID_FIELD, 4), (n = 0, NOT_PERMITTED, 4),
     ((s.sqs.any fun e => e.1 / 1024 = f && e.2.cq = n) || (((s.cq f n).map (·.reserved)).getD 0) ≠ 0, NOT_PERMITTED, 4)]
  else
    [((s.sq f n).isNone, INVALID_FIELD, 4), (n = 0, NOT_PERMITTED, 4),
     (match s.sq f n with
      | some q => q.tail ≠ q.fetched || q.reading ≠ 0 || !q.cmds.isEmpty
      | none => false, NOT_PERMITTED, 4)]

/-- DELETE RING (R125, R220). -/
def State.deleteRing (s : State) (r : Ref) (c : Cmd) : State :=
  let isCq := byteAt c.entry 6 = 1
  s.govern r (s.deleteFails r.fn c.f10 isCq) fun s =>
    let s := if isCq then { s with cqs := del s.cqs (ringNo r.fn c.f10) } else { s with sqs := del s.sqs (ringNo r.fn c.f10) }
    s.ended r 0

def execDeleteRing (r : Ref) (s : State) : Res' :=
  s.start r 0x41 fun c => s.deleteRing r c

/-- SET RING NOTIFY (R122, R220): the attributes apply from the next boundary. -/
def State.setNotify (s : State) (r : Ref) (c : Cmd) : State :=
  s.govern r [((s.cq r.fn c.f10).isNone, INVALID_FIELD, 4)] fun s =>
    (s.setCq r.fn c.f10 fun k => { k with
      attrNext := some (bit (byteAt c.entry 6) 0, le c.entry 8 2, byteAt c.entry 7) }).ended r 0

def execSetRingNotify (r : Ref) (s : State) : Res' :=
  s.start r 0x42 fun c => s.setNotify r c

/-! ### Functions (Table 4.2) -/

/-- ADD FUNCTION's function (R97, R105, R107, R128, R222): ACTIVE, its ring numbers' generations kept. -/
def State.newFn (s : State) (f : Nat) (b : Bytes) : State :=
  let res := resAt b 0
  let old := s.fn f
  let s := s.setFn f fun _ => { Fn.fresh with
    state := .active, dbAddr := BitVec.ofNat 64 (le b 32 8), dbRkey := BitVec.ofNat 32 (le b 40 4), phase := s.pickPhase f (max 1 (s.fn f).pollN)
    res := res, eff := res, gens := old.gens, pollN := old.pollN, logSel := old.logSel
    buckets := (List.range 4).map fun i => ((64 * bucketGain res s.period i : Nat) : Int) }
  let s := (s.newRing f 0 b 96).newRing f 0 b 48
  s.setGrant f res.sieve

/-- ADD FUNCTION (R94, R104, R222, R543). -/
def State.addFunction (s : State) (r : Ref) (c : Cmd) : State :=
  s.govern r [(s.life.state = .return_, NOT_PERMITTED, 0), ((s.fn c.f12).state ≠ .absent, INVALID_FIELD, 4),
      (!addBlockOk c.block, INVALID_FIELD, 0xFFFF),
      (s.overTotals c.f12 (resAt c.block 0), CAPACITY_EXHAUSTED, 0xFFFF)] fun s =>
    (s.newFn c.f12 c.block).ended r 0

def execAddFunction (r : Ref) (s : State) : Res' :=
  s.start r 0x48 fun c => s.addFunction r c

/-- The jobs of a function as its drain begins (R95, R338): those before their commit point end with ABORTED, RUNNING ones
stop. -/
def State.stopJobs (s : State) (f : Nat) : State :=
  let early := s.sqs.flatMap fun e =>
    if e.1 / 1024 = f then
      (e.2.cmds.filter fun c => jobOp c.opcode && c.point ≠ .decided).map fun c => Ref.mk f (e.1 % 1024) c.tag
    else []
  let s := early.foldl (fun s t => ((s.dropWork t).dropJobOf t).complete t { status := ABORTED }) s
  { s with jobs := mapV (fun _ x => if x.r.fn = f then { x with stopped := true } else x) s.jobs }

/-- QUIESCE FUNCTION (R94, R95): the drain begins, and the command completes when it ends; at once when it has ended. -/
def State.quiesce (s : State) (r : Ref) (c : Cmd) : State :=
  let f := c.f12
  s.govern r [(f = r.fn, NOT_PERMITTED, 4), ((s.fn f).state = .absent, INVALID_FIELD, 4)] fun s =>
    match (s.fn f).state with
    | .active => (s.setFn f fun g => { g with state := .quiescing }).stopJobs f
    | .quiesced => s.ended r (BitVec.ofNat 64 (s.fn f).quietAt)
    | _ => s

def execQuiesceFunction (r : Ref) (s : State) : Res' :=
  s.start r 0x49 fun c => s.quiesce r c

/-- RESUME FUNCTION (R94): polling restarts at the next bell. -/
def State.resume (s : State) (r : Ref) (c : Cmd) : State :=
  let f := c.f12
  s.govern r [((s.fn f).state = .absent, INVALID_FIELD, 4)] fun s =>
    let s := if (s.fn f).state = .quiesced then
        { s.setFn f fun g => { g with state := .active } with
          sqs := mapV (fun k q => if k / 1024 = f then
            { q with dozing := false, activeFrom := s.bell.now + 1, lastAdv := s.bell.now + 1 } else q) s.sqs }
      else s
    s.ended r 0

def execResumeFunction (r : Ref) (s : State) : Res' :=
  s.start r 0x4A fun c => s.resume r c

/-- The effects of RESET FUNCTION (R97, R115, R129, R184, R449, R519, R527): rings, logs, fences, semaphores and queue pairs
as in a newly added function. -/
def State.resetFn (s : State) (f : Nat) : State :=
  let s := ((s.resetRings f).liftFences f).releaseSems f
  let s := s.setFn f fun g => { g with
    pollN := 4, phase := s.pickPhase f 4, logSel := 0, dbStale := 0, pollDefer := 0, cqHeadBad := 0, qp := [], qpAddr := [], qpTries := [], cc := []
    tol := 0, cursors := [], faults := [], polling := [], left := [], knocked := false, knockDue := false }
  { s with net := { s.net with failover := s.net.failover.filter fun e => e.1 ≠ f } }

/-- RESET FUNCTION (R94, R97). -/
def State.resetFunction (s : State) (r : Ref) (c : Cmd) : State :=
  let f := c.f12
  s.govern r [(f = r.fn, NOT_PERMITTED, 4), ((s.fn f).state = .absent, INVALID_FIELD, 4),
      ((s.fn f).state ≠ .quiesced, FUNCTION_NOT_QUIESCED, 4)] fun s => (s.resetFn f).ended r 0

def execResetFunction (r : Ref) (s : State) : Res' :=
  s.start r 0x4B fun c => s.resetFunction r c

/-- The effects of REMOVE FUNCTION (R98, R441, R442): everything the function held is released; its ring numbers'
generations stay (R128). -/
def State.removeFn (s : State) (f : Nat) : State :=
  let s := (s.dropOps f).releaseSems f
  let s := s.setGrant f 0
  let s := if s.sieve.owner = f then
      { s with sieve := { s.sieve with owner := 0, arr := [], shadow := [] } }
    else s
  let s := { s with
    sqs := keep (fun k _ => k / 1024 ≠ f) s.sqs
    cqs := keep (fun k _ => k / 1024 ≠ f) s.cqs
    sems := { s.sems with assign := mapV (fun _ a => if a = f then 0xFFFF else a) s.sems.assign }
    net := { s.net with failover := s.net.failover.filter fun e => e.1 ≠ f } }
  s.setFn f fun g => { Fn.fresh with gens := g.gens }

/-- REMOVE FUNCTION (R94, R98). -/
def State.removeFunction (s : State) (r : Ref) (c : Cmd) : State :=
  let f := c.f12
  s.govern r [(isManager f, NOT_PERMITTED, 4), ((s.fn f).state = .absent, INVALID_FIELD, 4),
      ((s.fn f).state ≠ .quiesced, FUNCTION_NOT_QUIESCED, 4), (s.holds.any fun h => h.2.owner = f, NOT_PERMITTED, 4)] fun s =>
    (s.removeFn f).ended r 0

def execRemoveFunction (r : Ref) (s : State) : Res' :=
  s.start r 0x4C fun c => s.removeFunction r c

/-- SET FUNCTION RESOURCES (R94, R104, R105): what shrinks binds at once, what grows and every weight or ceiling from the
next boundary, after which the command completes. What both shrinks below its use and passes a total is NOT_PERMITTED
(notes/assumptions/96.md). -/
def State.setResources (s : State) (r : Ref) (c : Cmd) : State :=
  let f := c.f12
  let v := resAt c.block 0
  s.govern r [(isManager f, NOT_PERMITTED, 4), ((s.fn f).state = .absent, INVALID_FIELD, 4),
      (!resOk c.block 0, INVALID_FIELD, 0xFFFF), (s.shrinks f v, NOT_PERMITTED, 0xFFFF),
      (s.overTotals f v, CAPACITY_EXHAUSTED, 0xFFFF)] fun s =>
    let s := s.setFn f fun g => { g with res := v, eff := g.eff.shrunk v }
    (if v.sieve < s.grantOf f then s.setGrant f v.sieve else s).endedLater r 0

def execSetFunctionResources (r : Ref) (s : State) : Res' :=
  s.start r 0x4D fun c => s.setResources r c

/-! ### Holdings (Table 7.13) -/

/-- OWNER, QUOTA, OPEN_LIMIT, RA_ALLOW and POLICY of a holding command. -/
def Cmd.owner (c : Cmd) : Nat := bits (le c.entry 6 2) 11 0
def Cmd.quota (c : Cmd) : Nat := le c.entry 8 4
def Cmd.openLimit (c : Cmd) : Nat := le c.entry 12 2
def Cmd.raAllow (c : Cmd) : Nat := le c.entry 14 2
def Cmd.policy (c : Cmd) : Bool := bit (byteAt c.entry 16) 0

/-- A total over the holdings but one. -/
def State.holdTotal (s : State) (h : Nat) (p : Holding → Nat) : Nat :=
  s.holds.foldl (fun n e => if e.1 = h then n else n + p e.2) 0

/-- Whether a holding's values would raise a module total above its limit (R223, Table 4.3). -/
def State.holdOver (s : State) (c : Cmd) : Bool :=
  s.holdTotal c.f12 (·.quota) + c.quota > 294912 || s.holdTotal c.f12 (·.openLimit) + c.openLimit > 4096 ||
    s.holdTotal c.f12 (·.raAllow) + c.raAllow > 16384

/-- A new holding (R101, R551): every zone EMPTY, and a fresh key, recorded in the key store of bank K. -/
def State.newHolding (s : State) (c : Cmd) : State :=
  let (k, s) := s.draw
  let s := { s with holds := put s.holds c.f12 ⟨c.owner, c.policy, c.quota, c.openLimit, c.raAllow, s.ledger, k, none⟩ }
  ((s.loftRecord 8 recKey (keyEntry c.f12 s.ledger k s.life.returns)).journalRec 0).capCheck

/-- CREATE HOLDING (R101, R104, R223, R543). -/
def State.createHolding (s : State) (r : Ref) (c : Cmd) : State :=
  s.govern r [(s.life.state = .return_, NOT_PERMITTED, 0), ((look s.holds c.f12).isSome, INVALID_FIELD, 4),
      (!s.mayOwn c.owner, INVALID_FIELD, 6), (s.holdOver c, CAPACITY_EXHAUSTED, 0xFFFF)] fun s => (s.newHolding c).ended r 0

def execCreateHolding (r : Ref) (s : State) : Res' :=
  s.start r 0x50 fun c => s.createHolding r c

/-- Whether SET HOLDING shrinks a value below its use (Table 4.3). -/
def State.holdShrinks (s : State) (c : Cmd) : Bool :=
  (s.zones.any fun e => zoneHold e.1 = c.f12 && zoneIdx e.1 ≥ c.quota && e.2.st ≠ .empty) ||
    s.openCount c.f12 > c.openLimit || s.raCount c.f12 > c.raAllow * 4096

/-- The effect of SET HOLDING (R102, R104, R105, Table 8.2). -/
def State.changeHolding (s : State) (c : Cmd) : State :=
  ({ s with
    holds := adj s.holds c.f12 fun h => { h with
      policy := c.policy, quota := c.quota, openLimit := c.openLimit, raAllow := c.raAllow, ledger := s.ledger
      old := some (h.policyNow, h.quotaNow, h.openNow, h.raNow) }
    zones := keep (fun k _ => !(zoneHold k = c.f12 && zoneIdx k ≥ c.quota)) s.zones }.journalRec 0).capCheck

/-- SET HOLDING (R102, R104, R105, R223). -/
def State.setHolding (s : State) (r : Ref) (c : Cmd) : State :=
  s.govern r [((look s.holds c.f12).isNone, INVALID_FIELD, 4), (s.holdShrinks c, NOT_PERMITTED, 0xFFFF),
      (s.holdOver c, CAPACITY_EXHAUSTED, 0xFFFF)] fun s => (s.changeHolding c).endedLater r 0

def execSetHolding (r : Ref) (s : State) : Res' :=
  s.start r 0x51 fun c => s.setHolding r c

/-- Whether the owner of a holding is not QUIESCED (R103). -/
def State.ownerBusy (s : State) (h : Nat) : Bool := (s.fn (s.ownerOf h)).state ≠ .quiesced

/-- ASSIGN HOLDING (R103, R223): data, key, zone states and open zones move with the holding. -/
def State.assignHolding (s : State) (r : Ref) (c : Cmd) : State :=
  s.govern r [((look s.holds c.f12).isNone, INVALID_FIELD, 4), (!s.mayOwn c.owner, INVALID_FIELD, 6),
      (s.ownerBusy c.f12, FUNCTION_NOT_QUIESCED, 4)] fun s =>
    ({ s with holds := adj s.holds c.f12 fun h => { h with owner := c.owner, ledger := s.ledger } }.journalRec 0).ended r 0

def execAssignHolding (r : Ref) (s : State) : Res' :=
  s.start r 0x52 fun c => s.assignHolding r c

/-- The effect of DELETE HOLDING (R103, R495, R552, Table 8.2): the key is destroyed, staged data discarded, slots released,
and the zones cease to exist. -/
def State.dropHolding (s : State) (h : Nat) : State :=
  let zs := (s.zones.filter fun e => decide (zoneHold e.1 = h)).map (·.1)
  let s := zs.foldl State.emptyZone s
  let s := s.setMedia fun m => { m with lostUnits := m.lostUnits.filter fun k => !(decide (2 ^ 60 ≤ k) && (k - 2 ^ 60) / 2 ^ 26 = h) }
  (({ s with
    holds := del s.holds h
    zones := keep (fun k _ => zoneHold k ≠ h) s.zones
    rand := keep (fun k _ => k / 2 ^ 26 ≠ h) s.rand
    cursors := keep (fun k _ => k / 256 ≠ h) s.cursors }.zeroKeys (fun k => k = h)).journalRec 0).capCheck

/-- DELETE HOLDING (R103, R223). -/
def State.deleteHolding (s : State) (r : Ref) (c : Cmd) : State :=
  s.govern r [((look s.holds c.f12).isNone, INVALID_FIELD, 4), (s.ownerBusy c.f12, FUNCTION_NOT_QUIESCED, 4)] fun s =>
    (s.dropHolding c.f12).ended r 0

def execDeleteHolding (r : Ref) (s : State) : Res' :=
  s.start r 0x53 fun c => s.deleteHolding r c

end Sys2Proof.Machine
end

