-- ==== Sys2Proof/Machine/Reads.lean ====
section
/-! DEFINITION. Reads of the dies (chapters 2 and 9): read points, suspends, array reads and their decodes, the ladder's later steps,
busy-die reconstruction (R44 to R46, R57, R58, R257, R258, R277 to R281). -/

namespace Sys2Proof.Machine

/-! ### Slices -/

/-- Replaces the first of equal slices. -/
def replaceSlice (a b : Slice) : List Slice → List Slice
  | [] => []
  | x :: xs => if x = a then b :: xs else x :: replaceSlice a b xs

def State.setSlice (s : State) (a b : Slice) : State :=
  s.setMedia fun m => { m with slices := replaceSlice a b m.slices }

def State.dropSlice (s : State) (a : Slice) : State := s.setMedia fun m => { m with slices := m.slices.erase a }

/-- Who waits for a slice. -/
def Slice.reader (x : Slice) : SliceFor := (x.wants.head?.map (·.2)).getD (.patrol false)

/-- Whether the general pool has room for an array read (R47 to R49): what resumes of this bell need stays, and once the next plan has
closed the read, which may run on into the next bell, leaves that plan whole. -/
def State.poolRoom (s : State) : Bool :=
  decide (40 + s.resumeDebt ≤ s.bell.poolLeft) && (!s.bell.closed ||
    decide (s.bell.grants.foldl (fun n g => n + g.2) 0 + s.fullCharge + s.readCharge + 40 ≤ s.generalPool s.bell.inputMv))

/-- Begins the array read of a slice (R48, R49): one of class 1 is charged to the ward's read reserve, then to the pool, any other
to the pool; a read that fits in neither waits for the next read point. -/
def State.sense (s : State) (x : Slice) : State :=
  let used := lookD s.bell.reserved 0 x.die.ward
  if x.cls = 1 && used + 40 ≤ 15000 then
    ({ s with bell := { s.bell with reserved := put s.bell.reserved x.die.ward (used + 40) } }).setSlice x
      { x with phase := .sensing }
  else if s.poolRoom then
    ({ s with bell := { s.bell with poolLeft := s.bell.poolLeft - 40 } }).setSlice x { x with phase := .sensing }
  else s.setSlice x { x with phase := .queued }

/-! ### Serving what is read -/

/-- One unit of a relocation is read (R293): the last of a word line is followed by the program of its copy. -/
def State.copyServed (s : State) (d : DieId) (k : Nat) : State :=
  let s := s.setMedia fun m => { m with moves := m.moves.map fun v =>
    if v.die = d && v.slot = k then { v with left := v.left - 1 } else v }
  match s.media.moves.find? fun v => v.die = d && v.slot = k with
  | some v => if v.left = 0 then s.setMedia fun m => { m with work := m.work ++ [⟨5, d, .program, k, v.done, 0, .reloc⟩] } else s
  | none => s

/-- One unit of a word line is reconstructed for a rebuild (R301): the last is followed by its program on the spare die. -/
def State.lineServed (s : State) (mn : Nat) : State :=
  let w := mn / 36 / 26
  let row := mn / 36 % 26
  let s := s.setMem w row (mn % 36) fun m => { m with lineLeft := m.lineLeft - 1 }
  let m := s.mem w row (mn % 36)
  match m.cursor with
  | some (k, n) =>
    if m.lineLeft = 0 then s.setMedia fun x => { x with work := x.work ++ [⟨5, m.die, .program, k, n, 0, .rebuild⟩] } else s
  | none => s

/-- A unit of a job read is there, or is unrecoverable (R361). -/
def State.reqServed (s : State) (g : Nat) (b : Option Bytes) : State :=
  let f := fun (x : Ctx) => { x with reqs := x.reqs.map fun q =>
    if !q.lookup && q.num = g then { q with left := q.left - 1, bad := q.bad || b.isNone } else q }
  { s with cores := mapV (fun _ c => { c with ctx := c.ctx.map f, parked := c.parked.map f }) s.cores }

/-- The member's share of unit `u` at a place goes to who waits for it, or none where it is lost. -/
def State.deliver1 (s : State) (w row slot wl i u : Nat) (who : SliceFor) (b : Option Bytes) : State :=
  let n := slotNo w row slot
  let lose := fun (s : State) => if b.isNone && (parityOf wl i).isNone then s.loseUnits n (shareOff wl (symbolOf wl i) u) 1 else s
  match who with
  | .cmd r k => s.unitServed r k b
  | .scan j z o => s.scanUnit j z o b
  | .copy => (lose s).copyServed (s.mem w row i).die slot
  | .reclaim => s.reclaimServed w n (shareOff wl (symbolOf wl i) u) b
  | .req g => s.reqServed g b
  | .line m => (lose s).lineServed m
  | _ => s

/-! ### The ladder's later steps (R257, R58) -/

/-- Whether a later step for a unit of a member waits or runs. -/
def State.ladderRuns (s : State) (d : DieId) (slot wl u : Nat) : Bool :=
  (s.media.work.any fun w => w.die = d && w.slot = slot && w.wl = wl && (match w.why with
    | .ladder v _ _ => v = u
    | _ => false)) ||
  s.media.slices.any fun x => x.die = d && x.slot = slot && x.wl = wl && x.wants.any fun e => e.1 = u && (match e.2 with
    | .ladder _ _ => true
    | _ => false)

/-- Array reads of a step (Table 9.3). -/
def stepReads (k : Nat) : Nat := if k = 9 then 3 else if k = 10 then 5 else 1

/-- Plans an array read of step `k` for a unit, as class 5, with `n` of the step still to make. -/
def State.ladderRead (s : State) (d : DieId) (slot wl u k n : Nat) : State :=
  s.setMedia fun m => { m with work := m.work ++ [⟨5, d, .read, slot, wl, 0, .ladder u k n⟩] }

/-- Plans the later steps of the ladder for a unit, once, from step 1 on: each is tried after the one before it has failed (R257). -/
def State.queueLadder (s : State) (d : DieId) (slot wl u : Nat) : State :=
  if s.ladderRuns d slot wl u then s else s.ladderRead d slot wl u 1 1

/-! ### Reconstruction (R277 to R281) -/

/-- Members that can serve a reconstruction, in the order of R277: those that need no suspend first. -/
def State.reconOrder (s : State) (ward row slot : Nat) (skip : List Nat) : List Nat :=
  let able := (List.range 36).filter fun i => !skip.contains i && !s.memUnable (s.mem ward row i) slot s.nowNs
  let idle := fun i => match (s.die (s.mem ward row i).die).op with
    | some o => o.suspended
    | none => true
  able.filter idle ++ able.filter fun i => !idle i

/-- Offset up to which a slot's units have been written or padded. -/
def State.fillOf (s : State) (n : Nat) : Nat :=
  match s.slotUse n with
  | .bound z => if (s.zone z).st = .full then 2 ^ 20 else (s.zone z).wp
  | .random => ((look s.media.raSlots n).map (·.fill)).getD 0
  | _ => 2 ^ 20

/-- Whether a stripe row is complete: its data is programmed and so is its parity (R265). -/
def State.rowDone (s : State) (n r : Nat) : Bool :=
  let here := fun (w : Work) => w.why = .parity && w.slot = slotIdx n && w.wl = r && (match s.memberOf w.die with
    | some (a, b, _) => a = slotWard n && b = slotRow n
    | none => false)
  decide (s.fillOf n ≥ (r + 1) * 2048) && !s.rowBusy n r && !s.media.work.any here &&
    !s.media.dies.any fun e => match e.2.op with
      | some o => here o.work
      | none => false

/-- Members of an incomplete row whose shares are known without a read (R278): the running parity in staging, and data shares not
yet programmed, which are zero. A share left to a rebuild is in the running parity and unknown. -/
def State.freeShares (s : State) (n r : Nat) : List Nat :=
  if s.rowDone n r then []
  else (List.range 36).filter fun i =>
    let m := s.mem (slotWard n) (slotRow n) i
    match parityOf r i with
    | some _ => true
    | none => (s.group m.die (slotIdx n)).prog ≤ r && (m.takes (slotIdx n) || decide (s.fillOf n / 64 ≤ r * 32 + symbolOf r i))

/-- The shares of a unit that are known: symbol and bytes. -/
def State.known (s : State) (c : Recon) (u : Nat) : List (Nat × Bytes) :=
  let n := slotNo c.ward c.row c.slot
  (s.freeShares n c.wl).map (fun i => (symbolOf c.wl i,
    if (parityOf c.wl i).isSome then s.shareAt n c.wl i u else List.replicate protectedLen 0)) ++
  (c.got.filter fun e => e.1 = u).map fun e => (symbolOf c.wl e.2.1, e.2.2.getD (s.shareAt n c.wl e.2.1 u))

/-- The lists that leave out `n` members of a list. -/
def leaveOut {α : Type} : Nat → List α → List (List α)
  | 0, l => [l]
  | _ + 1, [] => []
  | n + 1, x :: l => (leaveOut (n + 1) l).map (x :: ·) ++ leaveOut n l

/-- Sets of 32 shares to decode from (R281): every one that the known shares give. -/
def shareSets (k : List (Nat × Bytes)) : List (List (Nat × Bytes)) := if k.length < 32 then [] else leaveOut (k.length - 32) k

/-- A unit decoded by erasure decoding from known shares, if some set of them gives bytes that pass R258. -/
def State.rebuiltUnit (s : State) (c : Recon) (u : Nat) : Option Bytes :=
  let n := slotNo c.ward c.row c.slot
  let t := symbolOf c.wl c.target
  match (s.known c u).find? fun e => e.1 = t with
  | some e => some e.2
  | none => (shareSets (s.known c u)).findSome? fun k =>
    let b := rsRebuild t k
    if s.passesAt n c.wl c.target u (some b) then some b else none

/-- Whether a slice or a read planned for it still brings a share of a reconstruction from a member. -/
def State.shareComes (s : State) (g i : Nat) : Bool :=
  (s.media.work.any fun w => w.why = .share g i) ||
    s.media.slices.any fun x => x.wants.any fun e => e.2 = .recon g i

def State.setRecon (s : State) (g : Nat) (f : Recon → Recon) : State :=
  s.setMedia fun m => { m with recons := m.recons.map fun c => if c.id = g then f c else c }

def State.recon (s : State) (g : Nat) : Option Recon := s.media.recons.find? fun c => c.id = g

/-- Reads a member's share: at the next read point for class 1, as planned work for class 5 (R282). -/
def State.readShare (s : State) (c : Recon) (i : Nat) : State :=
  let die := (s.mem c.ward c.row i).die
  let s := s.setRecon c.id fun c => { c with tried := c.tried ++ [i] }
  if c.cls = 1 then s.setMedia fun m => { m with
    slices := m.slices ++ [⟨die, c.slot, c.wl, c.page, c.wants.map fun e => (e.1, .recon c.id i), 1, .queued⟩] }
  else s.setMedia fun m => { m with work := m.work ++ [⟨5, die, .read, c.slot, c.wl, 0, .share c.id i⟩] }

/-- Shares a reconstruction still lacks, over its units: of 32 known, those got and those on their way; one more where the 32 known
did not pass R258 (R281). -/
def State.lacks (s : State) (c : Recon) : Nat :=
  let coming := (c.tried.filter fun i => s.shareComes c.id i).length
  let free := (s.freeShares (slotNo c.ward c.row c.slot) c.wl).length
  c.wants.foldl (fun k e =>
    let have_ := free + (c.got.filter fun x => x.1 = e.1).length
    max k ((if have_ ≥ 32 then have_ + 1 else 32) - (have_ + coming))) 0

/-- Gives a reconstruction the shares it lacks (R277), in the order of R277. It begins only when 32 shares can be known (R280). A
relocation reads shares only once the ladder has failed on the codeword itself (R293). -/
def State.pushRecon (s : State) (g : Nat) : State :=
  match s.recon g with
  | none => s
  | some c =>
    let n := slotNo c.ward c.row c.slot
    let wait := c.wants.all fun e => e.2 = .copy && !c.dead.contains (e.1, c.target)
    let next := s.reconOrder c.ward c.row c.slot (c.target :: c.tried ++ s.freeShares n c.wl)
    let k := s.lacks c
    if wait || (c.tried.isEmpty && next.length < k) then s else (next.take k).foldl (fun s i => s.readShare c i) s

/-- Whether a unit can no longer be recovered (R181, R280, R281): its own codeword is lost, and fewer than 32 shares can ever be
known, or every share that can be read was and no set of them decodes. -/
def State.hopeless (s : State) (c : Recon) (u : Nat) : Bool :=
  let n := slotNo c.ward c.row c.slot
  let t := s.mem c.ward c.row c.target
  let free := s.freeShares n c.wl
  let rest := (List.range 36).filter fun i => i ≠ c.target && !free.contains i && !c.dead.contains (u, i) &&
    !(s.mem c.ward c.row i).lostFor c.slot
  let read := rest.all fun i => c.got.any fun e => e.1 = u && e.2.1 = i
  (t.lostFor c.slot || t.rebuilding || c.dead.contains (u, c.target)) && (decide (rest.length + free.length < 32) || read)

/-- What can be said of a reconstruction's units is said (R277, R281): those that decode are served, those past hope are lost. An
ended reconstruction needs no more shares. -/
def State.settleRecon (s : State) (g : Nat) : State :=
  match s.recon g with
  | none => s
  | some c =>
    let ends := c.wants.filterMap fun e => match s.rebuiltUnit c e.1 with
      | some b => some (e, some b)
      | none => if s.hopeless c e.1 then some (e, none) else none
    let left := c.wants.filter fun e => !ends.any fun x => x.1 = e
    let s := if left.isEmpty then
        let s := s.setMedia fun m => { m with
          recons := m.recons.filter fun q => q.id ≠ g
          work := m.work.filter fun w => match w.why with
            | .share k _ => k ≠ g
            | _ => true }
        s.dropSlices fun x => x.wants.any fun e => match e.2 with
          | .recon k _ => k = g
          | _ => false
      else (s.setRecon g fun c => { c with wants := left }).pushRecon g
    ends.foldl (fun s (x : (Nat × SliceFor) × Option Bytes) =>
      s.deliver1 c.ward c.row c.slot c.wl c.target x.1.1 x.1.2 x.2) s

/-- Whether the page reads of a reconstruction can still serve further units of its page (R279): no codeword of them has been
transferred. -/
def State.openRecon (s : State) (c : Recon) : Bool :=
  c.got.isEmpty && c.dead.isEmpty && c.tried.all fun i => s.shareComes c.id i &&
    s.media.slices.all fun x => x.phase ≠ .sensed || x.wants.all fun e => e.2 ≠ .recon c.id i

/-- Units join a reconstruction of their page: its reads bring their shares too (R279). -/
def State.joinRecon (s : State) (c : Recon) (wants : List (Nat × SliceFor)) : State :=
  let new := ((wants.map (·.1)).eraseDups).filter fun u => c.wants.all fun e => e.1 ≠ u
  let more := fun (x : Slice) => match x.reader with
    | .recon g i => if g = c.id then { x with wants := x.wants ++ new.map fun u => (u, .recon g i) } else x
    | _ => x
  (s.setRecon c.id fun c => { c with wants := c.wants ++ wants.filter fun e => !c.wants.contains e }).setMedia fun m =>
    { m with slices := m.slices.map more }

/-- Begins a reconstruction of units of one page of a die (R31, R58, R277), or joins one of the same units or page that goes on (R279). -/
def State.newRecon (s : State) (x : Slice) (wants : List (Nat × SliceFor)) (cls : Nat) (busy : Bool) : State :=
  match s.memberOf x.die with
  | none => s
  | some (w, row, i) =>
    let same := fun (c : Recon) => c.ward = w && c.row = row && c.slot = x.slot && c.wl = x.wl && c.page = x.page && c.target = i &&
      c.cls = cls && (s.openRecon c || wants.all fun e => c.wants.any fun y => y.1 = e.1)
    match s.media.recons.find? same with
    | some c => s.joinRecon c wants
    | none =>
      let g := s.media.nextRecon
      ((s.setMedia fun m => { m with
        nextRecon := g + 1
        recons := m.recons ++ [⟨g, wants, w, row, x.slot, x.wl, x.page, i, cls, [], [], [], busy⟩] }).pushRecon g).settleRecon g

/-- A reconstruction of what a die could not serve, which lacks shares (R280), ends where the die can serve again: its units are read
directly. -/
def State.direct (s : State) (g : Nat) : State :=
  match s.recon g with
  | none => s
  | some c =>
    let m := s.mem c.ward c.row c.target
    if !c.busy || s.lacks c = 0 || s.memUnable m c.slot s.nowNs then s
    else
      let s := s.setMedia fun m => { m with
        recons := m.recons.filter fun q => q.id ≠ g
        work := m.work.filter fun w => match w.why with
          | .share k _ => k ≠ g
          | _ => true }
      let s := s.dropSlices fun x => match x.reader with
        | .recon k _ => k = g
        | _ => false
      s.setMedia fun y => { y with slices := y.slices ++ [⟨m.die, c.slot, c.wl, c.page, c.wants, c.cls, .queued⟩] }

/-- A member's share of unit `u` is known, or its whole ladder failed: for every reconstruction that reads it (R277, R281), and for
one of the codeword itself (R181). -/
def State.ladderDone (s : State) (w row i slot wl u : Nat) (ok : Bool) (img : Option Bytes) : State :=
  let here := s.media.recons.filter fun c => c.ward = w && c.row = row && c.slot = slot && c.wl = wl &&
    (c.wants.any fun e => e.1 = u) && (c.target = i || c.tried.contains i)
  here.foldl (fun s c =>
    if !ok then ((s.setRecon c.id fun c => { c with dead := (u, i) :: c.dead }).pushRecon c.id).settleRecon c.id
    else if c.target = i then
      let mine := c.wants.filter fun e => e.1 = u
      let b := img.getD (s.shareAt (slotNo w row slot) wl i u)
      let s := mine.foldl (fun s e => s.deliver1 w row slot wl i u e.2 (some b)) s
      (s.setRecon c.id fun c => { c with wants := c.wants.filter fun e => e.1 ≠ u }).settleRecon c.id
    else (s.setRecon c.id fun c => { c with got := c.got ++ [(u, i, img)] }).settleRecon c.id) s

/-! ### Read points -/

/-- Whether a read may suspend the operation of its die (R30, R46): spending the last suspend makes the die unable, which at most
four members of its row may be. -/
def State.maySuspend (s : State) (d : DieId) (k : Nat) (o : DieOp) : Bool :=
  o.suspends + 1 < o.budget || (match s.memberOf d with
    | some (w, row, _) => decide (s.unableCount w row k < 4)
    | none => false)

/-- A slice whose die cannot serve it (R31, R280): host reads, scans and job reads go to reconstruction, or are unrecoverable at once
where more than four members are lost; a share's place is taken by the next member, and its own member may serve later; a unit of a
relocation or reclaim is reconstructed; a background read is not made. -/
def State.elsewhere (s : State) (x : Slice) : State :=
  let lost := match s.memberOf x.die with
    | some (w, row, _) => decide (s.lostCount w row x.slot > 4)
    | none => true
  let s' := s.dropSlice x
  match x.reader with
  | .recon g i => ((s'.setRecon g fun c => { c with tried := c.tried.erase i }).pushRecon g).settleRecon g
  | .ladder _ _ => match s.memberOf x.die with
    | some (w, row, i) => x.wants.foldl (fun s e => s.ladderDone w row i x.slot x.wl e.1 false none) s'
    | none => s'
  | .patrol _ => s'
  | .copy | .reclaim => s'.newRecon x x.wants 5 true
  | .line _ => s'
  | _ =>
    if lost then x.wants.foldl (fun s e => match e.2 with
      | .cmd r k => s.unitServed r k none
      | .scan j z o => s.scanUnit j z o none
      | .req g => s.reqServed g none
      | _ => s) s'
    else s'.newRecon x x.wants 1 true

/-- Issues one queued slice at a read point (R44, R46, R31). Only reads of class 1 suspend an operation (Table 2.2). -/
def State.issueSlice (s : State) (x : Slice) : State :=
  if s.dieUnable x.die x.slot then s.elsewhere x
  else match (s.die x.die).op with
    | none => s.sense x
    | some o =>
      if o.suspended then s.sense x
      else if x.cls ≠ 1 then s
      else if o.suspending then s.setSlice x { x with phase := .suspending }
      else if !s.maySuspend x.die x.slot o then s.elsewhere x
      else (s.setDie x.die fun d => { d with
          op := some { o with suspending := true, suspends := o.suspends + 1 } }).setSlice x { x with phase := .suspending }

/-- Dies of a channel with a suspended operation. -/
def State.suspendedOn (s : State) (n : Nat) : List DieId :=
  (s.media.dies.filter fun e => dieChan (dieOf e.1) = n && (match e.2.op with
    | some o => o.suspended
    | none => false)).map fun e => dieOf e.1

/-- Scan slices that wait for a die unable to serve them go to reconstruction (R31). -/
def State.scansElsewhere (s : State) (chan : Nat) : State :=
  (s.media.work.filter fun w => w.act = .read && w.cls = 7 && dieChan w.die = chan && s.dieUnable w.die w.slot).foldl (fun s w =>
    (s.setMedia fun m => { m with work := m.work.erase w }).elsewhere (s.sliceOf w)) s

/-- READ_POINT (R44, R45): a new read window opens, reconstructions that wait go on, the channel engine issues every queued slice of
its channel, and operations whose reads are done resume. -/
def execReadPoint (chan : Nat) (s : State) : Res' :=
  if !chanOk chan then .fault .noSuchPart
  else if s.chanIdle chan then go s
  else
    let s := s.setChan chan fun c => { c with window := 0, outside := 0, moved := 0 }
    let waits := (s.media.recons.filter fun c => dieChan (s.mem c.ward c.row c.target).die = chan).map (·.id)
    let s := (waits.foldl (fun s g => ((s.pushRecon g).settleRecon g).direct g) s).scansElsewhere chan
    let s := (s.media.slices.filter fun x => x.phase = .queued && dieChan x.die = chan).foldl State.issueSlice s
    go ((s.suspendedOn chan).foldl State.resumeIfIdle s)

/-- SUSPEND_RESPONSE (R46): the die reports suspended and its planned reads begin. -/
def execSuspendResponse (d : DieId) (s : State) : Res' :=
  if !d.wf then .fault .noSuchPart
  else match (s.die d).op with
  | some o =>
    if o.suspending then
      let s := s.setDie d fun x => { x with
        op := some { o with suspending := false, suspended := true, suspAt := s.nowNs } }
      go (((s.media.slices.filter fun x => x.die = d && x.phase = .suspending).foldl State.sense s).resumeIfIdle d)
    else go s
  | none => go s

/-- SUSPEND_LATE (R57 row 1): the reads go to reconstruction at the next read point, and the event SUSPEND_LATE is
logged with the die address and the response time. -/
def execSuspendLate (d : DieId) (tenths : Nat) (s : State) : Res' :=
  if !d.wf then .fault .noSuchPart
  else match (s.die d).op with
  | some o =>
    if o.suspending then
      let late := s.media.slices.filter fun x => x.die = d && x.phase = .suspending
      let s := (s.overrun 1 1).event 0x0027 0 0 (dieDetail d 32 ++ [(36, 4, tenths)])
      let s := s.setDie d fun x => { x with op := some (o.resume s.nowNs) }
      go (late.foldl State.elsewhere s)
    else go s
  | none => go s

/-- DIE_OP_OVERRUN (R57 row 0): the die stays busy and charged; the overrun is counted. -/
def execDieOpOverrun (d : DieId) (s : State) : Res' :=
  if !d.wf then .fault .noSuchPart
  else if (s.die d).op.isSome then go (s.overrun 0 1) else go s

/-! ### Array reads -/

/-- Whether the bytes decoded for a unit on a die pass R258. -/
def State.passes (s : State) (d : DieId) (k wl u : Nat) (img : Option Bytes) : Bool :=
  match s.memberOf d with
  | some (w, row, i) => s.passesAt (slotNo w row k) wl i u img
  | none => true

/-- A codeword read at step `k` of the ladder, with `n` array reads of the step made or still to make (R257, R258): step 9 decodes
after three reads, step 10 after five. A decode that passes R258 is counted; one that fails is followed by the next step, and after
step 10 the codeword is lost to the inner code. -/
def State.ladderStep (s : State) (y : Slice) (w row i u k n : Nat) (x : Decode) : State :=
  let sound := s.passesAt (slotNo w row y.slot) y.wl i u x.img
  if n > 1 then s.ladderRead y.die y.slot y.wl u k (n - 1)
  else if x.step ≤ k && sound then
    (s.feed y.die y.slot (unitPlane u) y.wl { x with step := k }).ladderDone w row i y.slot y.wl u true x.img
  else if k < 10 then s.ladderRead y.die y.slot y.wl u (k + 1) (stepReads (k + 1))
  else (s.feed y.die y.slot (unitPlane u) y.wl { x with step := 11 }).ladderDone w row i y.slot y.wl u false none

/-- One codeword of an array read has been transferred and decoded (R257, R258). Step 0 that passes R258 serves who waits. A
codeword that fails it takes the later steps in the background; its share of a reconstruction is read from the next member. The
iterations of every step 0 are counted, 20 where it fails (R257, Table 19.12). -/
def State.codewordRead (s : State) (y : Slice) (u : Nat) (who : SliceFor) (x : Decode) : State :=
  match s.memberOf y.die with
  | none => s
  | some (w, row, i) =>
    let n := slotNo w row y.slot
    match who with
    | .ladder k m => s.ladderStep y w row i u k m x
    | _ =>
      let s := s.wearEv y.die.ward .decode (if x.step = 0 then min x.iters 20 else 20)
      if x.step = 0 && s.passesAt n y.wl i u x.img then
        let s := s.feed y.die y.slot (unitPlane u) y.wl x
        match who with
        | .recon g _ => (s.setRecon g fun c => { c with got := c.got ++ [(u, i, x.img)] }).settleRecon g
        | _ => s.deliver1 w row y.slot y.wl i u who (some (x.img.getD (s.shareAt n y.wl i u)))
      else
        let s := s.queueLadder y.die y.slot y.wl u
        match who with
        | .recon g _ => (s.pushRecon g).settleRecon g
        | _ => s

/-- Whether a unit whose codeword failed step 0 goes to reconstruction (R58, R293, R334). -/
def SliceFor.rebuilt : SliceFor → Bool
  | .cmd _ _ | .scan _ _ _ | .req _ | .copy | .reclaim | .patrol true => true
  | _ => false

/-- Whether its reconstruction is internal work, read as class 5 (R282). -/
def SliceFor.background : SliceFor → Bool
  | .copy | .reclaim | .patrol _ => true
  | _ => false

/-- The array read of a die whose codewords are transferred next: one that ended before and waits for its channel, else the oldest. -/
def State.ending (s : State) (d : DieId) : Option Slice :=
  match s.media.slices.find? fun y => y.die = d && y.phase = .sensed with
  | some y => some y
  | none => s.media.slices.find? fun y => y.die = d && y.phase = .sensing

/-- ARRAY_READ_COMPLETE (R45, R257, R279): the oldest array read of the die ends and its codewords are transferred and decoded in
order, as far as its channel has time for their class since the last read point; the rest wait for a later event. The units that
failed step 0 go to reconstruction (R58), and the die's operation resumes when no array read of it is left (R46). -/
def execArrayReadComplete (d : DieId) (xs : List Decode) (s : State) : Res' :=
  if !d.wf then .fault .noSuchPart
  else match s.ending d with
  | some y =>
    let now := y.wants.zip (xs.take (s.room (dieChan d) y.cls))
    let later := y.wants.drop now.length
    let s := s.setChan (dieChan d) fun c => c.took y.cls now.length
    let s := if later.isEmpty then s.dropSlice y else s.setSlice y { y with wants := later, phase := .sensed }
    let s := now.foldl (fun s e => s.codewordRead y e.1.1 e.1.2 e.2) s
    let failed := (now.filter fun e => e.1.2.rebuilt && !(decide (e.2.step = 0) && s.passes d y.slot y.wl e.1.1 e.2.img)).map (·.1)
    let s := if failed.isEmpty then s else s.newRecon y failed (if failed.any fun e => e.2.background then 5 else 1) false
    go (s.resumeIfIdle d)
  | none => go s

end Sys2Proof.Machine
end

