-- ==== Sys2Proof/Machine/Die.lean ====
section
/-! DEFINITION. What a die answers to programs and erases (R260, R265, R286, R297), dies that do not answer (R298), and the
rebuild of a member (R300 to R303). Its reads are in Reads.lean. -/

namespace Sys2Proof.Machine

/-! ### Programs and erases -/

/-- The operation of a die that can end now: it is not suspended (R261). -/
def State.endingOp (s : State) (d : DieId) (a : OpAct) : Option Work :=
  match (s.die d).op with
  | some o => if o.work.act = a && !o.suspended then some o.work else none
  | none => none

/-- A die's cellar block, a single plane-block, is erased and ready, and the ward's next is prepared (R322). -/
def State.cellarReady (s : State) (d : DieId) : State :=
  ((s.wearBlock (s.phys d 0 3071)).setDie d fun x => { x with cellarPrep := false, cellarFree := 512 }).prepNext d.ward

/-- The zone slot of a die's slot, if the die serves one. -/
def State.slotOf (s : State) (d : DieId) (k : Nat) : Option Nat := (s.memberOf d).map fun m => slotNo m.1 m.2.1 k

/-- A word line of a block group has been programmed (R260). -/
def State.programmed (s : State) (d : DieId) (w : Work) : State :=
  s.setGroup d w.slot fun g => { g with prog := w.wl + 1, reads := 0, patrolReads := 0, progAt := if g.prog = 0 then s.poweredNs else g.progAt }

/-- A stream's parking has completed (R531): its partial program unit leaves staging, and the entry of Q3 goes on. -/
def State.streamParked (s : State) (key : Nat) : State :=
  let st := key - 2 ^ 40
  if key < 2 ^ 40 || s.working (.park key) || (look s.media.parking key).isNone || s.media.raParked.contains st then s
  else
    let fill := ((look s.media.streams st).map (·.2)).getD 0
    ({ s with staged := s.staged - fill % 64 }.setMedia fun m => { m with raParked := m.raParked ++ [st] }).entryStep

/-- PROGRAM_COMPLETE (R234, R260, R265): the word line is programmed. A program unit that was staged joins its row's running parity
and leaves staging, and the last data program of a row is followed by its parity; copies of the gleaner in it are recorded (R286).
What was programmed into a block group released meanwhile waits for its erase (R240). -/
def State.programDone (s : State) (d : DieId) (w : Work) : State :=
  let s := s.opEnds d
  let s := { s with health := { s.health with mediaUnits := s.health.mediaUnits + 64 } }
  match w.why with
  | .host =>
    let old := (s.group d w.slot).dirty
    let s := { s with staged := s.staged - 64 }.programmed d w
    match s.memberOf d with
    | some (a, b, i) =>
      let n := slotNo a b w.slot
      if old then s
      else
        let s := (s.joinParity n w.wl (symbolOf w.wl i)).rowStep n w.wl w.tenant
        if s.slotUse n = .random then s.copiesDone a else s
    | none => s
  | .parity => { s with staged := s.staged - 64 }.programmed d w
  | .ckpt => s.programmed d w
  | .park key => (s.programmed d w).streamParked key
  | .rebuild =>
    match s.memberOf d with
    | some (a, b, i) =>
      ((s.programmed d w).setGroup d w.slot fun g => { g with blank := true }).setMem a b i fun m => { m with
        cursor := some (w.slot, w.wl + 1) }
    | none => s
  | .reloc =>
    (s.setMedia fun m => { m with moves := m.moves.map fun v =>
      if v.die = d && v.slot = w.slot then { v with done := v.done + 1 } else v }).copyLine d w.slot
  | _ => s

def execProgramComplete (d : DieId) (s : State) : Res' :=
  if !d.wf then .fault .noSuchPart
  else match s.endingOp d .program with
  | some w => go (s.programDone d w)
  | none => go s

/-- A program to a fresh block of a relocation failed (R293, R297): that block retires, the relocation ends and its other copies
are orphans. The block group stays queued, and a later relocation draws anew. -/
def State.relocFailed (s : State) (d : DieId) (k plane : Nat) : State :=
  match s.media.moves.find? fun v => v.die = d && v.slot = k with
  | none => s
  | some v =>
    let s := s.setMedia fun m => { m with
      moves := m.moves.filter fun x => !(x.die = d && x.slot = k)
      oldBlocks := m.oldBlocks ++ [(d, v.fresh.filter fun e => e.1 ≠ plane, m.begun)] }
    (v.fresh.filter fun e => e.1 = plane).foldl (fun s e => s.retirePhys d plane e.2) s

/-- A program of a rebuild failed (R297, R301): the block is replaced, and the block group is erased and filled afresh. -/
def State.rebuildFailed (s : State) (d : DieId) (k plane : Nat) : State :=
  let s := (s.retireBlock d plane k).replaceBlock d plane k
  match s.memberOf d with
  | some (a, b, i) =>
    if (s.mem a b i).die ≠ d then s
    else ((s.setMem a b i fun m => { m with cursor := some (k, 0), lineLeft := 0 }).setGroup d k fun g => { g with dirty := true }).setMedia
      fun m => { m with erasq := m.erasq ++ [(d, k, m.begun)] }
  | none => s

/-- The effect of a failed program (R294, R297): the plane-block retires at once; a staged program unit stays in staging, and its
block group is relocated before it is programmed again. That of a block group released meanwhile is replaced. -/
def State.programFailed (s : State) (d : DieId) (w : Work) (plane : Nat) : State :=
  let s := s.opEnds d
  match w.why with
  | .reloc => s.relocFailed d w.slot plane
  | .rebuild => s.rebuildFailed d w.slot plane
  | _ =>
    if (s.group d w.slot).dirty then
      { s.programmed d w with staged := s.staged - w.units }.retireBlock d plane w.slot |>.replaceBlock d plane w.slot
    else ((s.setMedia fun m => { m with work := w :: m.work }).queueRetire d w.slot []).retireBlock d plane w.slot

def execProgramFailure (d : DieId) (plane : Nat) (s : State) : Res' :=
  if !d.wf || plane ≥ 4 then .fault .noSuchPart
  else match s.endingOp d .program with
  | some w => go (s.programFailed d w plane)
  | none => go s

/-- ERASE_COMPLETE (R260, R286, R293): the blocks are usable, with one more cycle; swapped-out blocks join the retirement pool.
Parkings that waited for a slot are planned (R235). -/
def State.eraseDone (s : State) (d : DieId) (w : Work) : State :=
  let s := s.opEnds d
  match w.why with
  | .old bs =>
    (bs.foldl (fun s b => s.wearBlock (planeKey d b.1 b.2)) s).setMedia fun m => { m with
      poolGiven := m.poolGiven ++ bs.map fun b => planeKey d b.1 b.2 }
  | .cellar => s.cellarReady d
  | _ =>
    let s := ((List.range 4).foldl (fun s p => s.wearBlock (s.phys d p w.slot)) s).setGroup d w.slot fun _ => Group.fresh
    match s.slotOf d w.slot with
    | some n => if s.slotUse n = .parking then s.replanParks else s
    | none => s

def execEraseComplete (d : DieId) (s : State) : Res' :=
  if !d.wf then .fault .noSuchPart
  else match s.endingOp d .erase with
  | some w => go (s.eraseDone d w)
  | none => go s

/-- ERASE_FAILURE (R297): the plane-block retires at once and does not join the pool; a slot's block is replaced (R252). -/
def State.eraseFailed (s : State) (d : DieId) (w : Work) (plane : Nat) : State :=
  match w.why with
  | .old bs =>
    let s := s.eraseDone d { w with why := .old (bs.filter fun b => b.1 ≠ plane) }
    (bs.filter fun b => b.1 = plane).foldl (fun s b => s.retirePhys d plane b.2) s
  | _ => ((s.eraseDone d w).retireBlock d plane w.slot).replaceBlock d plane w.slot

def execEraseFailure (d : DieId) (plane : Nat) (s : State) : Res' :=
  if !d.wf || plane ≥ 4 then .fault .noSuchPart
  else match s.endingOp d .erase with
  | some w => go (s.eraseFailed d w plane)
  | none => go s

/-- DIE_NO_RESPONSE (R298 cause 1). -/
def execDieNoResponse (d : DieId) (s : State) : Res' :=
  if !d.wf then .fault .noSuchPart else go (s.failDie d 1)

/-! ### Rebuild -/

/-- Slots of a die row with data a rebuild must bring over, in the order of R301: metadata, random area and parking, zones. -/
def State.usedSlots (s : State) (w row : Nat) : List Nat :=
  let all := (List.range 3072).map fun k => (k, s.slotUse (slotNo w row k))
  let pick := fun (p : SlotUse → Bool) => (all.filter fun e => p e.2).map (·.1)
  pick (fun u => u = .meta_) ++ pick (fun u => u = .random || u = .parking) ++ pick fun u => match u with
    | .bound _ | .held _ _ => true
    | _ => false

/-- Units of a slot whose program units are complete (R234, R237): up to a FINISH, its padding with it. -/
def State.unitsDone (s : State) (n : Nat) : Nat :=
  match s.slotUse n with
  | .bound z => match (s.zone z).finishAt with
    | some e => (e + 63) / 64 * 64
    | none => (s.zone z).wp
  | _ => s.fillOf n

/-- Word lines of a member's block group that a rebuild fills (R302): its shares of every row that are written, those that were left to
the rebuild among them. A slot of no zone and no stream has those that any other member has programmed. -/
def State.linesOf (s : State) (w row i k : Nat) : Nat :=
  let n := slotNo w row k
  let rows := fun (f : Nat) => f / 2048 - 4 + ((List.range 5).takeWhile fun j =>
    let r := f / 2048 - 4 + j
    match parityOf r i with
    | some _ => decide (r * 2048 < f) && s.rowFull n r && !s.rowBusy n r
    | none => decide (f / 64 > r * 32 + symbolOf r i)).length
  match s.slotUse n with
  | .bound _ | .random => rows (s.unitsDone n)
  | _ => ((List.range 36).filter (· ≠ i)).foldl (fun n j => max n (s.group (s.mem w row j).die k).prog) 0

/-- The block group a rebuild works on, with the word lines done. -/
def State.rebuildAt (s : State) (m : Member) : Option (Nat × Nat) :=
  let x := s.mem m.ward m.row m.idx
  match x.cursor with
  | some c => some c
  | none => ((s.usedSlots m.ward m.row).find? fun k => !x.passed.contains k).map fun k => (k, 0)

/-- REBUILD_WORD_LINE (R301): the 64 codewords of the next word line are reconstructed from 32 other members, as class 5 (R282);
its program on the spare die follows the last of them. One word line is at hand at a time, and the die's cellar block is prepared first
(R322). -/
def execRebuildWordLine (m : Member) (s : State) : Res' :=
  if !m.wf then .fault .noSuchPart
  else
    let x := s.mem m.ward m.row m.idx
    let mn := memNo m.ward m.row m.idx
    match s.rebuildAt m with
    | some (k, n) =>
      let busy := (s.media.work.any fun w => w.why = .rebuild && w.die = x.die) || (s.die x.die).op.isSome
      if x.rebuilding && x.lineLeft = 0 && !busy && !(s.die x.die).cellarPrep && decide (0 < (s.die x.die).cellarFree) && !(s.group x.die k).dirty && n < s.linesOf m.ward m.row m.idx k then
        let s := (s.dropReads fun e => e = .line mn).setMem m.ward m.row m.idx fun x => { x with
          cursor := some (k, n), lineLeft := 64 }
        go ((List.range 4).foldl (fun s p =>
          let us := (pageUnits p).map fun u => (u, SliceFor.line mn)
          s.newRecon ⟨x.die, k, n, p, us, 5, .queued⟩ us 5 false) s)
      else go s
    | none => go s

/-- The rebuild of a member is complete (R303): the spare is a full member, REBUILD_DONE. -/
def State.rebuilt (s : State) (m : Member) : State :=
  let d := (s.mem m.ward m.row m.idx).die
  ((s.setMem m.ward m.row m.idx fun x => { x with
    rebuilding := false, passed := [], cursor := none, lineLeft := 0 }).journalRec 3).event
    0x0022 1 0 (dieDetail d 32)

/-- BLOCK_GROUP_PASS (R302): a block group whose rebuild has reached its last programmed word line passes to the spare die at
the boundary; after the last one the rebuild is complete. -/
def execBlockGroupPass (m : Member) (s : State) : Res' :=
  if !m.wf then .fault .noSuchPart
  else if !(s.mem m.ward m.row m.idx).rebuilding then go s
  else match s.rebuildAt m with
    | some (k, n) =>
      if n < s.linesOf m.ward m.row m.idx k || (s.mem m.ward m.row m.idx).lineLeft > 0 then go s
      else
        let s := (s.setMem m.ward m.row m.idx fun x => { x with passed := k :: x.passed, cursor := none }).journalRec 3
        go (if (s.rebuildAt m).isNone then s.rebuilt m else s)
    | none => go (s.rebuilt m)

end Sys2Proof.Machine
end

