-- ==== Sys2Proof/Machine/PortRegs.lean ====
section
/-! DEFINITION. The RW registers of a port (Tables 3.1 and 23.5), a port's own addresses (R63), and the limit PORT_MTU sets to a
path MTU (R604). -/

namespace Sys2Proof.Machine

/-- Bits of a word. -/
def wbits (w : W64) (hi lo : Nat) : Nat := bits w.toNat hi lo

/-- Sets a RW register of a port. -/
def State.setPortWord (s : State) (p : PortId) (off : Nat) (v : W64) : State :=
  s.setPort p fun q => { q with regs := put q.regs off v }

/-- PORT_CTRL.ENABLE, PORT_MTU. -/
def State.portEnabled (s : State) (p : PortId) : Bool := bit (s.portWord p 0x008).toNat 0
def State.mtu (s : State) (p : PortId) : Nat := wbits (s.portWord p 0x018) 13 0

/-- Whether a frame's tag is that of the port (R63, R64): its VLAN ID, or none on an untagged port. That a
port with a VLAN ID drops an untagged frame is the model's choice (notes/assumptions/38.md). -/
def State.vlanOk (s : State) (p : PortId) (t : VlanTag) : Bool :=
  let w := s.portWord p 0x020
  match t with
  | .none => !bit w.toNat 12
  | .vid v => bit w.toNat 12 && v = wbits w 11 0
  | .service => false

/-- A path MTU by its code. -/
def pathMtu (code : Nat) : Nat := 1024 * 2 ^ code

/-- The PORT_MTU a path MTU needs on a queue pair with a remote address (R604). -/
def mtuNeeds (code : Nat) (a : W128) : Nat := pathMtu code + (if mappedV4 a then 64 else 84)

/-- Fields of a queue-pair word (Table 23.6). -/
def qpRqpn (w : W64) : Nat := wbits w 23 0
def qpMtu (w : W64) : Nat := wbits w 52 51
def qpTimeout (w : W64) : Nat := wbits w 57 53
def qpRetry (w : W64) : Nat := wbits w 60 58
def qpRnr (w : W64) : Nat := wbits w 63 61

/-- A queue-pair word from its fields. -/
def qpWordOf (rqpn psn : Nat) (st : QpState) (mtu timeout retry rnr : Nat) : W64 :=
  BitVec.ofNat 64 (rqpn % 2 ^ 24 + psn % 2 ^ 24 * 2 ^ 24 + st.num * 2 ^ 48 + mtu % 4 * 2 ^ 51 + timeout % 32 * 2 ^ 53 +
    retry % 8 * 2 ^ 58 + rnr % 8 * 2 ^ 61)

/-- FN_QP_ADDR[p] of a function. -/
def Fn.addr (g : Fn) (p : PortId) : W128 := lookD g.qpAddr 0 p.num

def Fn.setAddr (g : Fn) (p : PortId) (a : W128) : Fn := { g with qpAddr := putD g.qpAddr 0 p.num a }

/-! ### Next hops (R64) -/

/-- The number that `k` bytes in network order hold, the first byte at bits [7:0] (R63). -/
def netNum (k v : Nat) : Nat := (List.range k).foldl (fun n i => n * 256 + v / 256 ^ i % 256) 0

/-- Whether two addresses of `k` bytes agree in their first `n` bits. -/
def sameNet (k n a b : Nat) : Bool := netNum k a / 2 ^ (8 * k - n) = netNum k b / 2 ^ (8 * k - n)

/-- The next hop towards an address (R63, R64): the address itself on a subnet of the port, else the default gateway of its
family where one is set. An address off every subnet with no gateway set is resolved directly: the model's choice
(notes/assumptions/39.md). -/
def State.nextHopOf (s : State) (p : PortId) (a : W128) : W128 :=
  if mappedV4 a then
    let a4 := a.toNat / 2 ^ 96
    let near := (List.range 4).any fun n =>
      let w := (s.portWord p (0x040 + 8 * n)).toNat
      bit w 63 && sameNet 4 (bits w 37 32) (w % 2 ^ 32) a4
    let gw := (s.portWord p 0x060).toNat
    if near || !bit gw 63 then a else BitVec.ofNat 128 (0xFFFF * 2 ^ 80 + gw % 2 ^ 32 * 2 ^ 96)
  else
    let near := (List.range 4).any fun n =>
      let k := 0x080 + 32 * n
      let w := (s.portWord p (k + 16)).toNat
      bit w 63 && sameNet 16 (bits w 7 0) (s.portWord p (k + 8) ++ s.portWord p k : W128).toNat a.toNat
    if near || !bit (s.portWord p 0x110).toNat 63 then a else s.portWord p 0x108 ++ s.portWord p 0x100

/-- Starts the resolution of the next hop towards an address, unless it is resolved or being resolved (R64); only a port in UP asks
(R90). -/
def State.resolve (s : State) (p : PortId) (a : W128) : State :=
  let h := s.nextHopOf p a
  let q := s.port p
  if (q.nextHop.any fun e => e.1 = h) || q.resolving.contains h then s
  else
    let s := s.setPort p fun q => { q with resolving := q.resolving ++ [h] }
    if q.state = .up then s.tell (.whoHas p h) else s

/-- A port that comes UP asks for every next hop not resolved yet (R64, R90). -/
def State.askHops (s : State) (p : PortId) : State := (s.port p).resolving.foldl (fun s h => s.tell (.whoHas p h)) s

/-- Counts a received frame as dropped (R64): PORT_RX_DROP, saturating. -/
def State.rxDropped (s : State) (p : PortId) : State := s.setPort p fun q => { q with rxDrop := satAdd 64 q.rxDrop 1 }

/-- A frame that reaches a port in UP (R90). -/
def State.onUp (s : State) (p : PortId) (k : State → State) : Res' := go (if (s.port p).state = .up then k s else s)

end Sys2Proof.Machine
end

