-- ==== Sys2Proof/Machine/Transport.lean ====
section
/-! DEFINITION. The transport (chapter 3): refused requests, NAKs, retransmission, failover, the connection manager, congestion
control, frames the port answers or discards. -/

namespace Sys2Proof.Machine

/-! ### Reissue (R77, R80) -/

/-- Issues again, in order, the operations that a test picks (R77, R80); those that find no port wait for one. -/
def State.reissueAll (s : State) (pick : RdmaOp → Bool) : State :=
  { s with rdma := s.rdma.map fun o => if pick o then { o with port := none } else o }.retry pick

/-- What waited for a port is sent, then fetching goes on (R80). -/
def State.wakePorts (s : State) : State := (s.reissueAll fun o => o.port.isNone).fetchAll

/-- Whether a failover entry is one of the function whose boundary has come (R77). -/
def State.failDue (s : State) (f : Nat) (e : Nat × PortId × Nat) : Bool := e.1 = f && decide (e.2.2 < s.bell.now)

/-- FAILOVER (R77): at the boundary after its port left UP or a queue pair entered ERROR, a function's work moves to the
port that now carries it, and every unfinished operation is issued again there in its order. -/
def execFailover (fn : Nat) (s : State) : Res' :=
  let due := s.net.failover.filter (s.failDue fn)
  if due.isEmpty then go s
  else
    let s := { s with net := { s.net with failover := s.net.failover.filter fun e => !s.failDue fn e } }
    let s := s.reissueAll fun o => o.fn = fn && (match o.port with
      | some p => !s.carries fn p o.ev ||
          ((due.any fun e => e.2.1 = p) && (s.opPort o ≠ some p || (s.fn fn).qpState p true ≠ .error))
      | none => true)
    go (s.fetchFn fn)

/-! ### Refused requests -/

/-- UNSUPPORTED_REQUEST_NAK (R71): a request Table 3.2 does not admit is answered with a NAK, and the queue pair enters ERROR. -/
def execUnsupportedRequestNak (fn : Nat) (p : QpAt) (q : BadRequest) (s : State) : Res' :=
  if s.respondsOn fn p.port p.ev then go (s.refuseOn fn p.port p.ev (match q with
    | .access => true
    | .unsupported => false))
  else go s

/-! ### NAKs (R75) -/

/-- The operations outstanding on one queue pair that the host end can answer. -/
def State.onQp (s : State) (f : Nat) (p : PortId) (ev : Bool) : List RdmaOp :=
  s.rdma.filter fun o => o.fn = f && o.port = some p && o.ev = ev && s.arrives o

/-- The triple that holds byte `k` of a buffer. -/
def tripleOf : List (Nat × Triple) → Nat → Nat × Triple
  | [], _ => (0, ⟨0, 0, 0⟩)
  | e :: es, k => if k < e.2.len || es.isEmpty then e else tripleOf es (k - e.2.len)

/-- DETAIL of HOST_ACCESS_FAULT (Table 6.4): syndrome, kind of access (0 data, 1 the parameter block, 2 a chained list), faulting
triple. That the fetch of a parameter block is the table's descriptor fetch is the model's reading (notes/assumptions/71.md). -/
def accessDetail (syn : Byte) (kind : Nat) (e : Nat × Triple) : List (Nat × Nat × Nat) :=
  [(32, 1, syn.toNat), (33, 1, kind), (34, 2, e.1), (36, 4, e.2.rkey.toNat), (40, 8, e.2.addr), (48, 4, e.2.len)]

/-- A command whose access the host end refused completes with HOST_ACCESS_FAULT (R75). -/
def State.accessFault (s : State) (r : Ref) (d : List (Nat × Nat × Nat)) : State :=
  ((s.dropWork r).complete r { status := HOST_ACCESS_FAULT, detail := d }).goOn r.fn r.sq

/-- A completion entry that becomes HOST_ACCESS_FAULT (Table 5.7). -/
def faultedCqe (b : Bytes) (logged : Bool) : Bytes :=
  patch (patch (patch b 16 (toLe 0 8)) 30 [BitVec.ofNat 8 HOST_ACCESS_FAULT]) 31
    [BitVec.ofNat 8 (byteAt b 31 % 4 + 4 * b01 logged)]

/-- Output of a command is refused (R75). Its completion was issued behind it on the same queue pair and has not been
carried out: it becomes HOST_ACCESS_FAULT, and the ring freezes. -/
def State.outputRefused (s : State) (c : Cmd) (r : Ref) (d : List (Nat × Nat × Nat)) : State :=
  match s.sq r.fn r.sq with
  | none => s
  | some q =>
    let mine := fun (b : Bytes) => le b 24 2 = r.sq && le b 28 2 = r.tag % 65536
    match s.rdma.findSome? fun o => match o.kind with
      | .cqe cq n b => if o.fn = r.fn && cq = q.cq && mine b then some (n, b) else none
      | _ => none with
    | none => s
    | some (n, b) =>
      let (s, logged) := s.logFailure r c q { status := HOST_ACCESS_FAULT, detail := d }
      let b' := faultedCqe b logged
      let s := s.setSq r.fn r.sq fun q => { q with cmds := q.cmds.map Cmd.unchecked }
      let s := s.setCq r.fn q.cq fun k => { k with unacked := k.unacked.map fun e => if e.1 = n then (n, b') else e }
      { s with rdma := s.rdma.map fun o =>
          if o.fn = r.fn && o.kind = .cqe q.cq n b then { o with kind := .cqe q.cq n b' } else o }

/-- What a NAK to an operation brings about beside the error of its queue pair (R75): refused at byte `k` of its data. An entry
whose checks a freeze stopped, its list or block in flight, completes with no status (R171). A poll, entry fetch or head word is
read again in a later bell. -/
def State.naked (s : State) (o : RdmaOp) (syn : Byte) (k : Nat) : State :=
  let drop := fun (s : State) => { s with rdma := s.rdma.erase o }
  match o.kind with
  | .data r => match s.cmd r with
    | some c => (drop s).accessFault r (accessDetail syn 0 (tripleOf c.numbered k))
    | none => drop s
  | .block r => match s.cmd r with
    | some c => if c.point = .block then (drop s).accessFault r (accessDetail syn 1 (tripleOf c.numbered k)) else drop s
    | none => drop s
  | .list r => match s.cmd r with
    | some c => if c.point = .list then (drop s).accessFault r (accessDetail syn 2 (1, c.buf1)) else drop s
    | none => drop s
  | .outData c r i _ => (drop s).outputRefused c r (accessDetail syn 0 (tripleOf c.numbered (i + k)))
  | .jobOut j i _ => match look s.jobs j with
    | some x => match s.cmd x.r with
      | some c => (drop s).endJob j { status := HOST_ACCESS_FAULT,
                                      detail := accessDetail syn 0 (tripleOf c.numbered (x.blockLen + i + k)) }
      | none => drop s
    | none => drop s
  | .page pg _ => (drop s).setFn o.fn fun g => { g with polling := g.polling.erase pg, left := g.left ++ [pg] }
  | .entries n _ m =>
    let cq := ((s.sq o.fn n).map (·.cq)).getD 0
    ((drop s).setSq o.fn n fun q => { q with reading := q.reading - m, inBell := 64 }).setCq o.fn cq fun c =>
      { c with reserved := c.reserved - m }
  | .head _ => drop s
  | .cqe _ _ _ | .notify _ => s

/-- REMOTE_NAK (R75): the queue pair enters ERROR; a command's own access fails it with HOST_ACCESS_FAULT, an operation no
single command owns counts as not done and is issued again. -/
def execRemoteNak (fn : Nat) (p : PortId) (n : NakInfo) (s : State) : Res' :=
  match (s.onQp fn p n.ev)[n.opIndex]? with
  | some o => go ((s.qpError fn p n.ev).naked o n.syndrome n.at_)
  | none => go s

/-! ### Retransmission (R74, R79, R152) -/

/-- ACK_TIMEOUT (R74): the requests outstanding on the queue pair are sent again, while its retry count lasts. -/
def execAckTimeout (fn : Nat) (p : PortId) (ev : Bool) (s : State) : Res' :=
  let g := s.fn fn
  let k := 2 * p.num + b01 ev
  if s.carries fn p ev && !(s.onQp fn p ev).isEmpty && lookD g.qpTries 0 k < qpRetry (g.qpWord p ev) then
    go ((s.setFn fn fun g => { g with qpTries := adjD g.qpTries 0 k (· + 1) }).tell (.resend p fn ev))
  else go s

/-- QP_RETRY_EXHAUSTED (R79): the timeout after the last retry moves the queue pair to ERROR. -/
def execQpRetryExhausted (fn : Nat) (p : PortId) (ev : Bool) (s : State) : Res' :=
  let g := s.fn fn
  if s.carries fn p ev && !(s.onQp fn p ev).isEmpty &&
      lookD g.qpTries 0 (2 * p.num + b01 ev) ≥ qpRetry (g.qpWord p ev) then go (s.qpError fn p ev)
  else go s

/-- RNR_NAK (R152): a notification is sent again under the event queue pair's RNR retry count, 7 being unlimited; once it is
spent the queue pair enters ERROR. -/
def execRnrNak (fn : Nat) (p : PortId) (s : State) : Res' :=
  let g := s.fn fn
  let k := 4 + p.num
  if s.carries fn p true && !(s.onQp fn p true).isEmpty then
    let r := qpRnr (g.qpWord p true)
    if r = 7 then go (s.tell (.resend p fn true))
    else if lookD g.qpTries 0 k < r then
      go ((s.setFn fn fun g => { g with qpTries := adjD g.qpTries 0 k (· + 1) }).tell (.resend p fn true))
    else go ((s.setFn fn fun g => { g with qpTries := del g.qpTries k }).qpError fn p true)
  else go s

/-! ### The connection manager (R73) -/

/-- The manager and the queue pair a QP number names. -/
def managerQp (qpn : Nat) : Option (Nat × Bool) :=
  if 0x10000 ≤ qpn && qpn < 0x10004 then some ((qpn - 0x10000) / 2, decide (qpn % 2 = 1)) else none

/-- The largest path MTU code at or below a REQ's path MTU (in bytes) that the port admits (Tables 3.3 and 3.7, R604). -/
def State.cmMtu (s : State) (p : PortId) (mtu : Nat) (a : W128) : Option Nat :=
  [2, 1, 0].find? fun c => pathMtu c ≤ mtu && mtuNeeds c a ≤ s.mtu p

/-- CM_REQ (R73, Table 3.7): an accepted REQ sets the queue pair's fields and moves it to RTR with the REP, which carries the REQ's
starting PSN. A REQ for another service or queue pair, or whose path MTU admits none, gets REJ (notes/assumptions/37.md). -/
def State.cmReq (s : State) (p : PortId) (q : CmReq) : State :=
  match managerQp q.qpn with
  | none => s.tell (.cmRej p q.qpn)
  | some (f, ev) =>
    let g := s.fn f
    let busy := g.qpState p ev ≠ .reset
    let other := g.qpState p (!ev) ≠ .reset && g.addr p ≠ q.src
    match s.cmMtu p q.mtu q.src with
    | none => s.tell (.cmRej p q.qpn)
    | some m =>
      if q.sid ≠ s.portWord p 0x160 || busy || other then s.tell (.cmRej p q.qpn)
      else
        let w := qpWordOf q.rqpn.toNat q.psn.toNat .rtr m (max 8 (min 20 q.timeout)) (min 7 q.retry) (min 7 q.rnr)
        let s := s.setFn f fun g => { (g.setQp p ev w).setAddr p q.src with qpTries := del g.qpTries (2 * p.num + b01 ev) }
        (s.resolve p q.src).tell (.cmRep p q.qpn q.psn.toNat)

def execCmReq (p : PortId) (q : CmReq) (s : State) : Res' := s.onUp p fun s => s.cmReq p q

/-- CM_RTU (R73): the queue pair moves to RTS, and what waited for it goes on. -/
def execCmRtu (p : PortId) (qpn : Nat) (s : State) : Res' :=
  s.onUp p fun s => match managerQp qpn with
    | some (f, ev) =>
      if (s.fn f).qpState p ev = .rtr then (s.setFn f fun g => g.setQpState p ev .rts).wakePorts else s
    | none => s

/-- A queue pair returns to RESET; its function's work moves (R76, R77), and its congestion control starts again (R82). -/
def State.qpReset_ (s : State) (f : Nat) (p : PortId) (ev : Bool) : State :=
  let was := (s.fn f).qpState p ev
  let s := s.setFn f fun g => { g.setQpState p ev .reset with
    qpTries := (if ev then del (del g.qpTries (2 * p.num + 1)) (4 + p.num) else del g.qpTries (2 * p.num))
    cc := del g.cc (2 * p.num + b01 ev) }
  if was = .rts then { s with net := { s.net with failover := s.net.failover ++ [(f, p, s.bell.now)] } } else s

/-- CM_DREQ (R73): answered with DREP; the queue pair moves to RESET. -/
def execCmDreq (p : PortId) (qpn : Nat) (s : State) : Res' :=
  s.onUp p fun s => match managerQp qpn with
    | some (f, ev) => (s.qpReset_ f p ev).tell (.cmDrep p qpn)
    | none => s

/-! ### Congestion (R81, R82) -/

/-- CE_MARKED_PACKET (R81): a CNP to the sending queue pair, at most one in 8 µs. -/
def execCeMarkedPacket (fn : Nat) (p : PortId) (ev : Bool) (ns : Nat) (s : State) : Res' :=
  let k := fn * 4 + 2 * p.num + b01 ev
  let free := match look s.net.lastCnp k with
    | some t => decide (t + 8000 ≤ ns)
    | none => true
  if (s.port p).state = .up && ((s.fn fn).qpState p ev = .rtr || (s.fn fn).qpState p ev = .rts) && free then
    go ({ s with net := { s.net with lastCnp := put s.net.lastCnp k ns } }.tell
      (.cnp p (qpRqpn ((s.fn fn).qpWord p ev))))
  else go s

/-- CNP_ARRIVAL (R82): at the queue pair the packet names. -/
def execCnpArrival (fn : Nat) (p : QpAt) (s : State) : Res' :=
  if (s.port p.port).state = .up && (s.fn fn).state ≠ .absent then
    go (s.setFn fn fun g => { g with cc := adjD g.cc Cc.reset (2 * p.port.num + b01 p.ev) fun c => { c with cnp := true } })
  else go s

/-- One update of a rate limit (R82), in units of 0.1 Gb/s. -/
def Cc.update (c : Cc) (floor step : Nat) : Cc :=
  if c.cnp then
    { rate := max (c.rate - c.rate / 8) floor, target := c.rate, hold := 4, probes := 0, cnp := false }
  else if c.hold > 0 then { c with hold := c.hold - 1 }
  else if c.rate < c.target then { c with rate := min (c.rate + (c.target - c.rate) / 2 + step) c.target }
  else
    let r := min (c.rate + step * 2 ^ (min c.probes 4)) 4000
    { c with rate := r, target := r, probes := c.probes + 1 }

/-- CC_RATE_UPDATE (R82): each queue pair of the module is a requester with a rate limit of its own. -/
def execCcRateUpdate (fn : Nat) (p : QpAt) (s : State) : Res' :=
  let w := s.portWord p.port 0x168
  if (s.fn fn).state = .absent then go s
  else go (s.setFn fn fun g => { g with cc := adjD g.cc Cc.reset (2 * p.port.num + b01 p.ev) fun c => c.update (wbits w 9 0) (wbits w 25 16) })

/-! ### Flow control (R60, R67, R68) -/

/-- The paused priorities after a PFC frame: each enabled one pauses, or resumes with a quanta of 0 (R67). -/
def pausedBy (old : List Nat) (enable : BitVec 8) (quanta : List (BitVec 16)) : List Nat :=
  (List.range 8).filter fun i => if enable.getLsbD i then quanta.getD i 0 ≠ 0 else old.contains i

/-- PFC_FRAME (R67): each enabled priority pauses, or resumes with a quanta of 0; what waited for it leaves. -/
def execPfcFrame (p : PortId) (enable : BitVec 8) (quanta : List (BitVec 16)) (s : State) : Res' :=
  s.onUp p fun s => (s.setPort p fun q => { q with paused := pausedBy q.paused enable quanta }).unpause p

/-- PFC_WATCHDOG (R68): PFC_STORM, and the port leaves service as if its link had failed. -/
def execPfcWatchdog (p : PortId) (prio : Nat) (s : State) : Res' :=
  s.onUp p fun s =>
    if (s.port p).paused.contains prio then
      (s.event 0x0013 1 0 [(32, 1, p.num), (33, 1, prio)]).movePort p .down s.nowNs
    else s

/-- PAUSE_FRAME (R60). -/
def execPauseFrame (p : PortId) (s : State) : Res' := s.onUp p fun s => s.rxDropped p

/-! ### Frames answered or discarded (R64, R65, R69, R70) -/

/-- ARP_REQUEST (R64). -/
def execArpRequest (p : PortId) (vid : VlanTag) (target who : W32) (s : State) : Res' :=
  s.onUp p fun s =>
    if !s.vlanOk p vid then s.rxDropped p
    else if s.ownV4 p target then s.tell (.arpReply p target who)
    else s

/-- NEIGHBOR_SOLICITATION (R64). -/
def execNeighborSolicitation (p : PortId) (vid : VlanTag) (target who : W128) (s : State) : Res' :=
  s.onUp p fun s =>
    if !s.vlanOk p vid then s.rxDropped p
    else if s.ownV6 p target then s.tell (.neighborAdv p target who)
    else s

/-- ICMP_ECHO_REQUEST (R64): at most 1,000 replies in a second. -/
def execIcmpEchoRequest (p : PortId) (vid : VlanTag) (v6 : Bool) (dst src : W128) (body : Bytes) (s : State) : Res' :=
  s.onUp p fun s =>
    if !s.vlanOk p vid then s.rxDropped p
    else if (if v6 then s.ownV6 p dst else s.ownV4 p (dst.setWidth 32)) && (s.port p).echoes < 1000 then
      (s.setPort p fun q => { q with echoes := q.echoes + 1 }).tell (.echoReply p src body)
    else s

/-- FRAME_DISCARD (R64, R65, R69, R70): counted in PORT_RX_DROP, but for LLDP. A packet within PORT_MTU is none. -/
def execFrameDiscard (p : PortId) (why : DropWhy) (s : State) : Res' :=
  s.onUp p fun s => match why with
    | .lldp => s
    | .overMtu n => if n > s.mtu p then s.rxDropped p else s
    | _ => s.rxDropped p

/-- NEXT_HOP_RESOLUTION (R64): the answer for a next hop being resolved is recorded. -/
def execNextHopResolution (p : PortId) (addr : W128) (mac : BitVec 48) (s : State) : Res' :=
  s.onUp p fun s =>
    if (s.port p).resolving.contains addr then
      s.setPort p fun q => { q with
        resolving := q.resolving.erase addr, nextHop := (addr, mac) :: q.nextHop.filter fun e => e.1 ≠ addr }
    else s

end Sys2Proof.Machine
end

