-- ==== Sys2Proof/Machine/PortEv.lean ====
section
/-! DEFINITION. Port events (R61, R89, R90) and the PTP time input (R87, R88, R330, R331). -/

namespace Sys2Proof.Machine

/-! ### Ports (Table 3.5) -/

/-- 12 W in units of 0.1 W (R61). -/
def opticMax : Nat := 120

/-- An optical module that is present is judged (R61): above 12 W it is held in low power, and OPTICS_POWER is raised. -/
def State.judgeOptic (s : State) (p : PortId) : State :=
  match (s.port p).optic with
  | some m =>
    if m.advPower > opticMax then
      (s.setPort p fun q => { q with held := true }).event 0x0011 1 0 [(32, 1, p.num), (34, 2, m.advPower)]
    else s.setPort p fun q => { q with held := false }
  | none => s

/-- Whether a port has an optical module it can use (R61, Table 3.5). -/
def Port.usable (q : Port) : Bool := q.optic.isSome && !q.held

/-- Whether start-up has reached "ports up" and no power-loss sequence runs (R34, R89). -/
def State.portsLive (s : State) : Bool := s.pwr.on && s.pwr.loss.isNone && decide (13 ≤ s.boot.step)

/-- Training starts on an enabled port that is OFF, with a usable optical module, once start-up reached "ports up" (R89;
notes/assumptions/83.md: a port whose ENABLE is 0 stays OFF). -/
def State.tryTrain (s : State) (p : PortId) : State :=
  let q := s.port p
  if q.state = .off && q.usable && s.portEnabled p && s.portsLive then s.movePort p .training s.nowNs else s

/-- OPTICS_INSERT (R61, R89). With the cages off (R34) nothing is read: the optical module is judged at the next start-up. -/
def execOpticsInsert (p : PortId) (m : OpticsInfo) (s : State) : Res' :=
  if (s.port p).optic.isSome then go s
  else
    let s := s.setPort p fun q => { q with optic := some m, held := false }
    if !s.pwr.on || s.pwr.loss.isSome then go s
    else
      let s := s.judgeOptic p
      if (s.port p).state = .failed && (s.port p).usable && s.portsLive then
        go ((s.setPort p fun q => { q with fails := 0 }).movePort p .training s.nowNs)
      else go (s.tryTrain p)

/-- OPTICS_REMOVE (R61, R89). -/
def execOpticsRemove (p : PortId) (s : State) : Res' :=
  if (s.port p).optic.isNone then go s
  else
    let s := s.setPort p fun q => { q with optic := none, held := false }
    match (s.port p).state with
    | .up | .training | .down => go (s.movePort p .off s.nowNs)
    | _ => go s

/-- LINK_FAULT (R89, R90): an UP port goes DOWN. -/
def execLinkFault (p : PortId) (ns : Nat) (s : State) : Res' := s.onUp p fun s => s.movePort p .down ns

/-- TRAINING_ATTEMPT_END (R80, R89): to UP, where what waited is sent; the eighth failure in a row is FAILED. -/
def execTrainingAttemptEnd (p : PortId) (ok : Bool) (s : State) : Res' :=
  if (s.port p).state ≠ .training || !s.portsLive then go s
  else if ok then go ((((s.setPort p fun q => { q with fails := 0 }).movePort p .up s.nowNs).askHops p).wakePorts)
  else
    let n := (s.port p).fails + 1
    go ((s.setPort p fun q => { q with fails := n }).movePort p (if n ≥ 8 then .failed else .down) s.nowNs)

/-- DOWN_RETRY (R89): the port trains again. -/
def execDownRetry (p : PortId) (s : State) : Res' :=
  if (s.port p).state = .down && s.portsLive then go (s.movePort p .training s.nowNs) else go s

/-! ### PTP -/

/-- 1 ms and 1 s in the units of the calendar (R329). -/
def calMs : Int := 2 ^ 32 / 1000
def calSec : Int := 2 ^ 32

/-- Nanoseconds in the units of the calendar. -/
def calOf (ns : Int) : Int := ns * 2 ^ 32 / 1000000000

/-- The calendar takes another time (R330): a step by more than 1 ms raises CALENDAR_STEP with the old and the new time. -/
def State.setClock (s : State) (t : Int) : State :=
  let old := s.calendar
  let s := { s with clk := { s.clk with base := t, baseNs := s.nowNs } }
  if (t - old).natAbs > calMs.natAbs then
    s.event 0x0054 1 0 [(32, 8, (old / calSec).toNat), (40, 4, (old % calSec).toNat), (44, 8, (t / calSec).toNat),
      (52, 4, (t % calSec).toNat)]
  else s

/-- A slew towards the transmitter (R331): at most 100 ppm of the time since the last Sync. -/
def State.slewClock (s : State) (off : Int) (since : Nat) : State :=
  let lim : Int := since / 10000
  let d := max (-lim) (min lim off)
  s.setClock (s.calendar - calOf d)

/-- Nanoseconds since a bell. -/
def State.sinceBell (s : State) (b : Nat) : Nat := (s.bell.now - b) * s.period * 1000

/-- Sync has been missing for 3 s (R88), from the boot on where none has come. A gap in Sync is one of 3 s
(notes/assumptions/41.md). -/
def State.noSync (s : State) (p : PortId) : Bool :=
  match (s.port p).lastSync with
  | some b => decide (s.sinceBell b ≥ 3000000000)
  | none => decide (s.nowNs ≥ 3000000000)

/-- Whether one transmitter is better than another (R87): by rank, then by port identity. -/
def outranks (a b : Announce) : Bool := a.rank < b.rank || (a.rank = b.rank && a.src < b.src)

/-- The best of a list of transmitters. -/
def bestOf : List Announce → Option Announce
  | [] => none
  | a :: l => match bestOf l with
    | some b => if outranks a b then some a else some b
    | none => some a

/-- The time transmitter of a port (R87): the best one of the domain it hears. -/
def State.transmitter (s : State) (p : PortId) : Option Announce :=
  if (s.port p).state = .up then bestOf ((s.port p).ptpHeard.filter fun a => a.domain = s.net.ptpDomain) else none

/-- PTP_ANNOUNCE (R87): the transmitter's last Announce is kept. -/
def execPtpAnnounce (p : PortId) (a : Announce) (s : State) : Res' :=
  s.onUp p fun s =>
    if a.domain ≠ s.net.ptpDomain then s
    else s.setPort p fun q => { q with ptpHeard := a :: q.ptpHeard.filter fun b => b.src ≠ a.src }

/-- What an offset measured on the port in use does (R330, R331): 8 Syncs lock the calendar, by a step above 1 ms; while
LOCKED an offset above 1 s is corrected by a step; otherwise the calendar slews. -/
def State.measure (s : State) (off : Int) (since : Nat) : State :=
  let s := { s with clk := { s.clk with offset := off, syncs := s.clk.syncs + 1 } }
  if s.clk.st = 2 then
    if off.natAbs > 1000000000 then s.setClock (s.calendar - calOf off) else s.slewClock off since
  else if s.clk.syncs ≥ 8 then
    let s := { s with clk := { s.clk with st := 2 } }
    if off.natAbs > 1000000 then s.setClock (s.calendar - calOf off) else s.slewClock off since
  else s

/-- Whether a message of a transmitter counts on a port (R87): it is the best one heard there, in its domain. -/
def State.listens (s : State) (p : PortId) (src domain : Nat) : Bool :=
  domain = s.net.ptpDomain && (s.transmitter p).map (·.src) = some src

/-- PTP_SYNC (R87): an offset from the time transmitter of a port (receiver less transmitter), measured by a Sync or
Follow_Up; the path delay is asked for. -/
def execPtpSync (p : PortId) (m : PtpSource) (offNs : Int) (s : State) : Res' :=
  s.onUp p fun s =>
    if !s.listens p m.src m.domain then s
    else
      let gap := (s.port p).lastSync.isNone || s.noSync p
      let since := match (s.port p).lastSync with
        | some b => if gap then 0 else s.sinceBell b
        | none => 0
      let s := s.setPort p fun q => { q with
        lastSync := some s.bell.now, syncSince := if gap then some s.bell.now else q.syncSince }
      if p = s.net.ptpInUse then (s.measure offNs since).tell (.delayReq p) else s

/-- PTP_DELAY_RESP (R87): the path delay of the port in use. -/
def execPtpDelayResp (p : PortId) (m : DelayResp) (s : State) : Res' :=
  s.onUp p fun s =>
    if p = s.net.ptpInUse && s.listens p m.src s.net.ptpDomain then { s with clk := { s.clk with delay := m.delayNs } } else s

/-- The source of time passes to a port: its offset is measured anew. -/
def State.usePtp (s : State) (p : PortId) : State :=
  { s with net := { s.net with ptpInUse := p }, clk := { s.clk with syncs := 0 } }

/-- PTP_SYNC_LOSS (R88, R330): the port in use has received no Sync for 3 s. Under "either" the other port takes over if it has a
time transmitter; else a LOCKED calendar enters HOLDOVER. -/
def execPtpSyncLoss (s : State) : Res' :=
  let p := s.net.ptpInUse
  if !s.noSync p then go s
  else
    let s := s.setPort p fun q => { q with ptpHeard := [], syncSince := none }
    if s.net.ptpSource = 2 && (s.transmitter p.other).isSome then go (s.usePtp p.other)
    else go { s with clk := { s.clk with st := if s.clk.st = 2 then 3 else s.clk.st, syncs := 0 } }

/-- PTP_SOURCE_RETURN (R88): port A has carried Sync without a gap for 60 s. -/
def execPtpSourceReturn (s : State) : Res' :=
  match s.portA.syncSince with
  | some b =>
    if s.net.ptpSource = 2 && s.net.ptpInUse = .B && !s.noSync .A && s.sinceBell b ≥ 60000000000 then go (s.usePtp .A)
    else go s
  | none => go s

end Sys2Proof.Machine
end

