-- ==== Sys2Proof/Machine/Setup.lean ====
section
/-! DEFINITION. Writes to the set-up window (chapter 23): which fields can be written (R18, R577 to R582), the checks of a message
(R118, R120, R571, R572), SETUP_ERR (R575), what each accepted field does, and the rows that write one register. -/

namespace Sys2Proof.Machine

/-! ### Registers -/

/-- The registers of the window that have a writable field (Tables 23.3 to 23.9). -/
inductive SetupReg where
  | glbErr
  | period
  | ovr (n : Nat)
  /-- by offset in the port's half; those that serve both ports count as port A's -/
  | port (p : PortId) (o : Nat)
  | dbAddr (f : Nat)
  | dbRkey (f : Nat)
  | pollN (f : Nat)
  | logSel (f : Nat)
  /-- FN_DB_STALE 0, FN_POLL_DEFER 1, FN_CQ_HEAD_BAD 2 -/
  | fnCount (f k : Nat)
  | qp (f : Nat) (p : PortId) (ev : Bool)
  | qpAddr (f : Nat) (p : PortId) (hi : Bool)
  /-- word k of RING entry i -/
  | ring (i k : Nat)
  | semAssign (n : Nat)
  | semGrace
  | pwrCtrl
  | scrubStart
  | scrubEnd
  | scrubCtrl
  | sveCtrl
  | hltState
  | trcCtrl
  | trcSel
  deriving DecidableEq, Repr

/-- The register of a port's half at an offset (Table 23.5). -/
def portReg (p : PortId) (o : Nat) : Option SetupReg :=
  if o = 0x170 || o = 0x178 then some (.port .A o)
  else if o = 0x008 || o = 0x018 || o = 0x020 || (0x040 ≤ o && o ≤ 0x060) || (0x080 ≤ o && o ≤ 0x110 && o % 32 ≠ 24) ||
      (0x120 ≤ o && o ≤ 0x168) || (0x200 ≤ o && o ≤ 0x210) then some (.port p o)
  else none

/-- The register of a function entry at an offset (Table 23.6). -/
def fnReg (f o : Nat) : Option SetupReg :=
  let p : PortId := if o < 0xA0 then .A else .B
  match o with
  | 0x08 => some (.dbAddr f)
  | 0x10 => some (.dbRkey f)
  | 0x18 => some (.pollN f)
  | 0x28 => some (.logSel f)
  | 0x30 => some (.fnCount f 0)
  | 0x38 => some (.fnCount f 1)
  | 0x40 => some (.fnCount f 2)
  | 0x80 | 0xA0 => some (.qp f p false)
  | 0x88 | 0xA8 => some (.qp f p true)
  | 0x90 | 0xB0 => some (.qpAddr f p false)
  | 0x98 | 0xB8 => some (.qpAddr f p true)
  | _ => none

/-- The register at a window offset (Table 23.3), none where no writable register lies. -/
def regAt (o : Nat) : Option SetupReg :=
  if o = 0x30 then some .glbErr
  else if o = 0x10000 then some .period
  else if 0x10020 ≤ o && o < 0x10048 then some (.ovr ((o - 0x10020) / 8))
  else if 0x20000 ≤ o && o < 0x28000 then portReg .A (o - 0x20000)
  else if 0x28000 ≤ o && o < 0x30000 then portReg .B (o - 0x28000)
  else if 0x40000 ≤ o && o < 0x140000 then fnReg ((o - 0x40000) / 256) ((o - 0x40000) % 256)
  else if 0x140000 ≤ o && o < 0x240000 then some (.ring ((o - 0x140000) / 32) ((o - 0x140000) % 32 / 8))
  else if 0x242000 ≤ o && o < 0x244000 then some (.semAssign ((o - 0x242000) / 8))
  else if o = 0x246000 then some .semGrace
  else if o = 0x2B0008 then some .pwrCtrl
  else if o = 0x2D0000 then some .scrubStart
  else if o = 0x2D0008 then some .scrubEnd
  else if o = 0x2D0010 then some .scrubCtrl
  else if o = 0x2F0000 then some .sveCtrl
  else if o = 0x330000 then some .hltState
  else if o = 0x350000 then some .trcCtrl
  else if o = 0x350010 then some .trcSel
  else none

/-- Bits [hi:lo] set. -/
def ones64 (hi lo : Nat) : W64 := BitVec.ofNat 64 ((2 ^ (hi - lo + 1) - 1) * 2 ^ lo)

/-- RW bits of a port register. -/
def portRw (o : Nat) : W64 :=
  match o with
  | 0x008 => 1
  | 0x018 => ones64 13 0
  | 0x020 => ones64 12 0
  | 0x140 => ones64 7 0
  | 0x148 => ones64 9 0
  | 0x150 => ones64 31 0
  | 0x158 | 0x160 => ones64 63 0
  | 0x168 => ones64 9 0 ||| ones64 25 16
  | 0x170 => ones64 15 0
  | 0x178 => ones64 6 0 ||| ones64 9 8
  | 0x200 | 0x208 | 0x210 => 0
  | _ =>
    if o ≤ 0x060 then ones64 37 0 ||| ones64 63 63
    else if o ≤ 0x110 then (if o % 32 = 16 then ones64 7 0 ||| ones64 63 63 else ones64 63 0)
    else ones64 2 0 ||| ones64 13 8 ||| ones64 18 16

/-- RW bits of a word of a RING entry (Table 23.7): only admin entries have any. -/
def ringRw (i k : Nat) : W64 :=
  match adminEntry i, k with
  | none, _ => 0
  | some _, 0 => ones64 63 12
  | some (_, isCq), 1 => if isCq then ones64 63 3 else 0
  | some (_, isCq), 2 => if isCq then ones64 63 0 else ones64 31 0
  | some _, _ => ones64 45 42

/-- The RW, WO and W1C bits of a register; who may write some depends on the entry (R578, R579, R581, R582). -/
def State.masks (s : State) : SetupReg → W64 × W64 × W64
  | .glbErr => (0, 0, 1)
  | .period => (ones64 1 0, 0, 0)
  | .ovr _ => (0, 0, ones64 31 0)
  | .port _ o => (portRw o, if o = 0x008 then 2 else 0, if o ≥ 0x200 then ones64 63 0 else 0)
  | .dbAddr f => (if isManager f then ones64 63 0 else 0, 0, 0)
  | .dbRkey f => (if isManager f then ones64 31 0 else 0, 0, 0)
  | .pollN _ => (ones64 6 0, 0, 0)
  | .logSel _ => (ones64 18 0, 0, 0)
  | .fnCount _ _ => (0, 0, ones64 31 0)
  | .qp f _ _ | .qpAddr f _ _ => (if isManager f || (s.fn f).state = .absent then 0 else ones64 63 0, 0, 0)
  | .ring i k => (ringRw i k, 0, 0)
  | .semAssign n => (if n = 0 then 0 else ones64 15 0, 0, 0)
  | .semGrace => (ones64 15 0, 0, 0)
  | .pwrCtrl => (ones64 2 0, 0, 0)
  | .scrubStart | .scrubEnd => (ones64 47 40 ||| ones64 35 0, 0, 0)
  | .scrubCtrl => (0, 1, 4)
  | .sveCtrl => (1 ||| ones64 27 16, 0, 0)
  | .hltState => (8, 0, 4)
  | .trcCtrl => (1 ||| ones64 12 8 ||| ones64 44 16, 0, 0)
  | .trcSel => (ones64 23 0, 0, 0)

/-- A word of a submission ring's entry, its RW fields. -/
def Sq.regWord (q : Sq) (k : Nat) : W64 :=
  match k with
  | 0 => q.base
  | 2 => q.rkey.setWidth 64
  | 3 => BitVec.ofNat 64 ((q.sizeLog - 4) * 2 ^ 42)
  | _ => 0

/-- A word of a completion ring's entry, its RW fields. -/
def Cq.regWord (q : Cq) (k : Nat) : W64 :=
  match k with
  | 0 => q.base
  | 1 => q.headAddr
  | 2 => q.headRkey ++ q.rkey
  | _ => BitVec.ofNat 64 ((q.sizeLog - 4) * 2 ^ 42)

/-- The present value of a register's writable fields. -/
def State.regNow (s : State) : SetupReg → W64
  | .glbErr => BitVec.ofNat 64 (b01 s.err.err)
  | .period => BitVec.ofNat 64 s.bell.period
  | .ovr n => BitVec.ofNat 64 (lookD s.bell.ovr 0 n)
  | .port p o => match o with
    | 0x170 => BitVec.ofNat 64 s.net.knockUdp
    | 0x178 => BitVec.ofNat 64 (s.net.ptpDomain + s.net.ptpSource * 2 ^ 8)
    | 0x200 => BitVec.ofNat 64 (s.port p).rxDrop
    | 0x208 => BitVec.ofNat 64 (s.port p).knockDrop
    | 0x210 => BitVec.ofNat 64 (s.port p).knockMerge
    | _ => s.portWord p o
  | .dbAddr f => (s.fn f).dbAddr
  | .dbRkey f => (s.fn f).dbRkey.setWidth 64
  | .pollN f => BitVec.ofNat 64 (s.fn f).pollN
  | .logSel f => (s.fn f).logSel
  | .fnCount f k => BitVec.ofNat 64 (match k with
    | 0 => (s.fn f).dbStale
    | 1 => (s.fn f).pollDefer
    | _ => (s.fn f).cqHeadBad)
  | .qp f p ev => (s.fn f).qpWord p ev
  | .qpAddr f p hi => ((s.fn f).addr p).extractLsb' (if hi then 64 else 0) 64
  | .ring i k => match adminEntry i with
    | some (f, false) => ((s.sq f 0).map fun q => q.regWord k).getD 0
    | some (f, true) => ((s.cq f 0).map fun q => q.regWord k).getD 0
    | none => 0
  | .semAssign n => BitVec.ofNat 64 (s.semAssign n)
  | .semGrace => BitVec.ofNat 64 s.sems.grace
  | .pwrCtrl => BitVec.ofNat 64 s.pwr.deepest
  | .scrubStart => s.edc.start
  | .scrubEnd => s.edc.end_
  | .scrubCtrl => BitVec.ofNat 64 (4 * b01 s.edc.fin)
  | .sveCtrl => BitVec.ofNat 64 (b01 s.sieve.mode + s.sieve.owner * 2 ^ 16)
  | .hltState => BitVec.ofNat 64 (4 * b01 s.health.alert + 8 * b01 s.health.locate)
  | .trcCtrl => s.disp.ctrl
  | .trcSel => BitVec.ofNat 64 s.disp.sel

/-! ### SETUP_ERR (R575) -/

/-- Latches SETUP_ERR: the first failure after a clear gives the fields, every failure counts. -/
def State.latch (s : State) (w : Writer) (cause off len : Nat) : State :=
  if s.err.err then { s with err := { s.err with count := satAdd 32 s.err.count 1 } }
  else { s with err := match w with
    | .rdma f p => ⟨true, cause, false, p, f, 1, off, len⟩
    | .smbus => ⟨true, cause, true, .A, 0, 1, off, len⟩ }

/-! ### Checks of a value (R572 step 4): the cause of a failure -/

/-- The fields a message leaves, register by register (R572): a register it does not touch keeps its value. -/
abbrev Staged := List (SetupReg × W64)

def Staged.val (t : Staged) (s : State) (r : SetupReg) : W64 :=
  match t.find? fun e => e.1 = r with
  | some e => e.2
  | none => s.regNow r

/-- The address of a function's queue pairs on a port, as a message leaves it. -/
def Staged.addr (t : Staged) (s : State) (f : Nat) (p : PortId) : W128 :=
  t.val s (.qpAddr f p true) ++ t.val s (.qpAddr f p false)

/-- The queue pairs of a port in RTR or RTS with a path MTU above what a PORT_MTU allows (R65, R604). -/
def State.mtuBreaks (s : State) (p : PortId) (m : Nat) : Bool :=
  s.fns.any fun e => [false, true].any fun ev =>
    let w := e.2.qpWord p ev
    (qpStateOf w = .rtr || qpStateOf w = .rts) && mtuNeeds (qpMtu w) (e.2.addr p) > m

/-- The shares of the classes that are not strict total 100 (R69). -/
def etsOk (ets bw : W64) : Bool :=
  ((List.range 8).filter fun t => !bit (wbits ets 31 24) t).foldl (fun n t => n + wbits bw (8 * t + 7) (8 * t)) 0 = 100

/-- A port register (Table 23.5). -/
def portCheck (s : State) (t : Staged) (p : PortId) (o : Nat) (v : W64) : Option Nat :=
  let two := fun (b : Bool) => if b then none else some 2
  match o with
  | 0x008 => if !bit v.toNat 0 && (s.port p.other).state ≠ .up then some 3 else none
  | 0x018 =>
    let m := wbits v 13 0
    if m < 1280 || m > 9216 then some 2 else if s.mtuBreaks p m then some 3 else none
  | 0x020 => two (!bit v.toNat 12 || (1 ≤ wbits v 11 0 && wbits v 11 0 ≤ 4094))
  | 0x060 => two (wbits v 37 32 = 0)
  | 0x110 => two (wbits v 7 0 = 0)
  | 0x140 => two (ones 8 (v.setWidth 8) ≤ 2)
  | 0x148 => two (1 ≤ wbits v 9 0 && wbits v 9 0 ≤ 1000)
  | 0x150 => two (etsOk v (t.val s (.port p 0x158)))
  | 0x158 => two (etsOk (t.val s (.port p 0x150)) v)
  | 0x168 => two (5 ≤ wbits v 9 0 && wbits v 9 0 ≤ 500 && 1 ≤ wbits v 25 16 && wbits v 25 16 ≤ 100)
  | 0x170 => two (1024 ≤ wbits v 15 0)
  | 0x178 => two (wbits v 9 8 ≠ 3)
  | _ =>
    if 0x040 ≤ o && o < 0x060 then two (wbits v 37 32 ≤ 32)
    else if 0x080 ≤ o && o < 0x100 && o % 32 = 16 then two (wbits v 7 0 ≤ 128)
    else none

/-- Whether a queue pair may move between two states (R579). -/
def qpMoves (a b : QpState) : Bool :=
  a = b || b = .reset || (a = .reset && b = .init) || (a = .init && b = .rtr) || (a = .rtr && b = .rts)

/-- Whether the fields of a queue pair in a state are fixed (R579). -/
def QpState.fixed (q : QpState) : Bool := q = .rtr || q = .rts || q = .error

/-- A queue-pair word (R74, R579, R604). -/
def qpCheck (s : State) (t : Staged) (f : Nat) (p : PortId) (ev : Bool) (v : W64) : Option Nat :=
  let cur := (s.fn f).qpWord p ev
  let a := qpStateOf cur
  let b := qpStateOf v
  let addr := t.addr s f p
  if wbits v 50 48 > 4 || qpMtu v = 3 || qpTimeout v < 8 || qpTimeout v > 20 then some 2
  else if !qpMoves a b || (a.fixed && withQpState v .reset ≠ withQpState cur .reset) then some 3
  else if a = .init && b = .rtr && (addr = 0 || mtuNeeds (qpMtu v) addr > s.mtu p) then some 3
  else none

/-- Whether an SRAM macro number names a macro (Table 23.10). -/
def macroOk (n : Nat) : Bool := sramMacro (n / 2 ^ 14) (n % 2 ^ 14)

/-- Whether two scrub addresses make a request (R477, Table 17.5). -/
def scrubOk (a b : W64) : Bool :=
  let sp := wbits a 47 44
  a.toNat % 8 = 0 && b.toNat % 8 = 0 && wbits a 47 34 = wbits b 47 34 && a.toNat ≤ b.toNat &&
    ((sp = 0 && wbits a 43 40 ≤ 11 && wbits a 35 34 ≤ 2) ||
     (sp = 1 && wbits a 35 20 = wbits b 35 20 && macroOk (wbits a 35 20)))

/-- Plain-region bytes left after every allotment (R435). -/
def State.plainFree (s : State) : Nat :=
  (s.plainCap - s.fns.foldl (fun n e => if e.2.state = .absent then n else n + e.2.res.allot) 0) * 2 ^ 24

/-- TRC_DISP_CTRL (R435). -/
def trcCheck (s : State) (v : W64) : Option Nat :=
  let n := wbits v 12 8
  if n < 16 || n > 24 then some 2
  else if s.disp.en && n ≠ s.disp.sizeLog then some 3
  else if bit v.toNat 0 && !s.disp.en && s.plainFree < 16 * 2 ^ n then some 3
  else none

/-- SVE_CTRL (R440, R442). -/
def sveCheck (s : State) (v : W64) : Option Nat :=
  let o := wbits v 27 16
  let mode := bit v.toNat 0
  let held := s.sieve.owner = 0 || (s.fn s.sieve.owner).state = .quiesced
  if o = 1 then some 2
  else if mode ≠ s.sieve.mode && ((s.fns.any fun e => e.2.res.sieve ≠ 0) ||
      (s.sieve.mode && s.sieve.arr.any fun e => e.2.valid)) then some 3
  else if o ≠ s.sieve.owner && !(held && (o = 0 || (s.fn o).state ≠ .absent)) then some 3
  else none

/-- The check of a register a message touches: the cause where it fails. -/
def State.regCheck (s : State) (w : Writer) (t : Staged) (r : SetupReg) (v : W64) : Option Nat :=
  let mine := fun (f : Nat) => match w with
    | .rdma g _ => f = g
    | .smbus => false
  match r with
  | .period => if wbits v 1 0 = 3 then some 2 else none
  | .port p o => portCheck s t p o v
  | .dbAddr f => if !mine f then some 3 else if wbits v 11 0 ≠ 0 then some 2 else none
  | .dbRkey f => if !mine f then some 3 else none
  | .pollN _ => if wbits v 6 0 = 0 || wbits v 6 0 > 64 then some 2 else none
  | .qp f p ev => qpCheck s t f p ev v
  | .qpAddr f p _ => if (((s.fn f).qpState p false).fixed || ((s.fn f).qpState p true).fixed) && v ≠ s.regNow r then some 3 else none
  | .ring i k => match adminEntry i with
    | none => none
    | some (f, _) =>
      if !mine f || ((s.sq f 0).map fun q => !q.cmds.isEmpty).getD false then some 3
      else if k = 3 && wbits v 45 42 > 12 then some 2 else none
  | .semAssign n =>
    let f := wbits v 15 0
    if f > 0xFFF && f ≠ 0xFFFF then some 2
    else if semHeld (s.semWord n) || (f ≠ 0xFFFF && (s.fn f).state = .absent) then some 3 else none
  | .semGrace => if wbits v 15 0 = 0 || wbits v 15 0 > 60000 then some 2 else none
  | .pwrCtrl => if wbits v 2 0 > 4 then some 2 else none
  | .scrubCtrl =>
    if !bit v.toNat 0 then none else if s.edc.busy then some 3
    else if scrubOk (t.val s .scrubStart) (t.val s .scrubEnd) then none else some 2
  | .sveCtrl => sveCheck s v
  | .trcCtrl => trcCheck s v
  | .trcSel => if wbits v 23 0 < 2 ^ wbits (t.val s .trcCtrl) 12 8 then none else some 2
  | _ => none

/-! ### What an accepted value does -/

/-- PORT_CTRL (R61, Table 3.5): RETRAIN trains a FAILED port anew, unless its optical module is kept out of service. -/
def State.putPortCtrl (s : State) (p : PortId) (v : W64) : State :=
  let was := s.portEnabled p
  let s := s.setPortWord p 0x008 (v &&& 1)
  let s := if !bit v.toNat 0 then s.movePort p .off s.nowNs else if was then s else s.tryTrain p
  if bit v.toNat 1 && bit v.toNat 0 && (s.port p).state = .failed && (s.port p).usable && s.portsLive then
    (s.setPort p fun q => { q with fails := 0 }).movePort p .training s.nowNs
  else s

/-- PORT_PTP (R87, R88): another domain is listened to afresh; the source named is used. -/
def State.putPtp (s : State) (v : W64) : State :=
  let d := wbits v 6 0
  let src := wbits v 9 8
  let clear := fun (q : Port) => { q with ptpHeard := [], syncSince := none }
  let s := if d = s.net.ptpDomain then s else { s with portA := clear s.portA, portB := clear s.portB }
  let s := { s with net := { s.net with ptpDomain := d, ptpSource := src } }
  let use := if src = 0 then PortId.A else if src = 1 then PortId.B else s.net.ptpInUse
  if use = s.net.ptpInUse then s else s.usePtp use

/-- A queue-pair word: its fields, then its move (R572, R579). -/
def State.putQp (s : State) (f : Nat) (p : PortId) (ev : Bool) (v : W64) : State :=
  let a := (s.fn f).qpState p ev
  let b := qpStateOf v
  let s := s.setFn f fun g => g.setQp p ev (withQpState v a)
  if a = b then s
  else match b with
    | .reset => s.qpReset_ f p ev
    | .rtr => (s.setFn f fun g => { g.setQpState p ev b with qpTries := del g.qpTries (2 * p.num + b01 ev) }).resolve p
        ((s.fn f).addr p)
    | .rts => (s.setFn f fun g => g.setQpState p ev b).wakePorts
    | _ => s.setFn f fun g => g.setQpState p ev b

/-- A word of an admin ring's entry (R581): the field stands at once, the ring is reset at the next boundary. -/
def State.putRing (s : State) (i k : Nat) (v : W64) : State :=
  match adminEntry i with
  | none => s
  | some (f, isCq) =>
    let s := { s with net := { s.net with adminDue := if s.net.adminDue.contains i then s.net.adminDue else s.net.adminDue ++ [i] } }
    let size := wbits v 45 42 + 4
    if isCq then s.setCq f 0 fun q => match k with
      | 0 => { q with base := v }
      | 1 => { q with headAddr := v }
      | 2 => { q with rkey := v.setWidth 32, headRkey := v.extractLsb' 32 32 }
      | _ => { q with sizeLog := size }
    else s.setSq f 0 fun q =>
      let q := { q with activeFrom := s.bell.now + 1 }
      match k with
      | 0 => { q with base := v }
      | 2 => { q with rkey := v.setWidth 32 }
      | 3 => { q with sizeLog := size }
      | _ => q

/-- TRC_DISP_CTRL (R435, R436): setting EN starts the count. -/
def State.putTrc (s : State) (v : W64) : State :=
  let rises := bit v.toNat 0 && !s.disp.en
  { s with disp := { s.disp with
    ctrl := v, cnt := if rises then 0 else s.disp.cnt, recs := if rises then [] else s.disp.recs } }

/-- Applies one register: `v` its fields as the message leaves them, `w` the word written. -/
def State.putReg (s : State) (r : SetupReg) (v w : W64) : State :=
  match r with
  | .glbErr => if bit w.toNat 0 then { s with err := SetupErr.clear } else s
  | .period => { s with bell := { s.bell with period := wbits v 1 0 } }
  | .ovr n => { s with bell := { s.bell with ovr := putD s.bell.ovr 0 n v.toNat } }
  | .port p o => match o with
    | 0x008 => s.putPortCtrl p v
    | 0x170 => { s with net := { s.net with knockUdp := v.toNat } }
    | 0x178 => s.putPtp v
    | 0x200 => s.setPort p fun q => { q with rxDrop := v.toNat }
    | 0x208 => s.setPort p fun q => { q with knockDrop := v.toNat }
    | 0x210 => s.setPort p fun q => { q with knockMerge := v.toNat }
    | _ => s.setPortWord p o v
  | .dbAddr f => s.setFn f fun g => { g with dbAddr := v }
  | .dbRkey f => s.setFn f fun g => { g with dbRkey := v.setWidth 32 }
  | .pollN f => s.setFn f fun g => { g with pollN := v.toNat, phase := s.pickPhase f (max 1 v.toNat) }
  | .logSel f => s.setFn f fun g => { g with logSel := v }
  | .fnCount f k => s.setFn f fun g => match k with
    | 0 => { g with dbStale := v.toNat }
    | 1 => { g with pollDefer := v.toNat }
    | _ => { g with cqHeadBad := v.toNat }
  | .qp f p ev => s.putQp f p ev v
  | .qpAddr f p hi => s.setFn f fun g =>
      let a := g.addr p
      g.setAddr p (if hi then v ++ a.extractLsb' 0 64 else a.extractLsb' 64 64 ++ v)
  | .ring i k => s.putRing i k v
  | .semAssign n => { s with sems := { s.sems with assign := put s.sems.assign n v.toNat } }
  | .semGrace => { s with sems := { s.sems with grace := v.toNat } }
  | .pwrCtrl => { s with pwr := { s.pwr with deepest := v.toNat } }
  | .scrubStart => { s with edc := { s.edc with start := if wbits v 47 44 = 1 then v &&& ~~~(ones64 43 40) else v } }
  | .scrubEnd => { s with edc := { s.edc with end_ := if wbits v 47 44 = 1 then v &&& ~~~(ones64 43 40) else v } }
  | .scrubCtrl => { s with edc := { s.edc with
      busy := s.edc.busy || bit w.toNat 0, fin := s.edc.fin && !bit w.toNat 2 } }
  | .sveCtrl => { s with sieve := { s.sieve with mode := bit v.toNat 0, owner := wbits v 27 16 } }
  | .hltState => { s with health := { s.health with alert := s.health.alert && !bit w.toNat 2, locate := bit v.toNat 3 } }
  | .trcCtrl => s.putTrc v
  | .trcSel => { s with disp := { s.disp with sel := v.toNat } }

/-! ### A write message -/

/-- The blocks of Table 23.1: the number of the block an offset lies in. -/
def blockOf (o : Nat) : Nat :=
  if o < 0x10000 then 0 else if o < 0x20000 then 1 else if o < 0x40000 then 2 else if o < 0x140000 then 3
  else if o < 0x240000 then 4 else if o < 0x250000 then 5 else if o < 0x290000 then 6
  else if o < 0x360000 then o / 0x10000 else 0x36

/-- The form of a message (R571). -/
def formOk (off n : Nat) : Bool :=
  off % 8 = 0 && n % 8 = 0 && 8 ≤ n && n ≤ 4096 && off + n ≤ 2 ^ 24 && blockOf off = blockOf (off + n - 1)

/-- The registers a message covers, in ascending offset, with the words written. -/
def covered (off : Nat) (b : Bytes) : List (SetupReg × W64) :=
  (List.range (b.length / 8)).filterMap fun i => (regAt (off + 8 * i)).map fun r => (r, BitVec.ofNat 64 (le b (8 * i) 8))

/-- What writing `w` touches of a register (R118): RW bits it would change, WO and W1C bits it writes as 1. -/
def State.touch (s : State) (r : SetupReg) (w : W64) : W64 × W64 :=
  let m := s.masks r
  (((w ^^^ s.regNow r) &&& m.1) ||| (w &&& m.2.1), w &&& m.2.2)

/-- The fields of a register after `w` is written (R18). -/
def State.merged (s : State) (r : SetupReg) (w : W64) : W64 :=
  let m := s.masks r
  let cur := s.regNow r
  (cur &&& ~~~(m.1 ||| m.2.1 ||| m.2.2)) ||| (w &&& (m.1 ||| m.2.1)) ||| (cur &&& m.2.2 &&& ~~~w)

/-- Whether a register is writable over SMBus (R585): HLT_STATE and the port addressing. -/
def SetupReg.smbus : SetupReg → Bool
  | .hltState => true
  | .port _ o => 0x020 ≤ o && o ≤ 0x110
  | _ => false

/-- Whether SEM[0] admits a write that touches RW or WO fields (R118, R120): the cause where it does not. -/
def State.sem0 (s : State) : Writer → Option Nat
  | .rdma f p => if semHeldBy (s.semWord 0) f p then none else some 1
  | .smbus => if semHeld (s.semWord 0) then some 4 else none

/-- Whether a message touches a semaphore word of the SEM block (R117, R118): it covers one with another value. -/
def State.touchesSem (s : State) (off : Nat) (b : Bytes) : Bool :=
  (List.range (b.length / 8)).any fun i =>
    let o := off + 8 * i
    decide (0x240000 ≤ o) && decide (o < 0x242000) && BitVec.ofNat 64 (le b (8 * i) 8) ≠ s.semWord ((o - 0x240000) / 8)

/-- The cause of a message's failure, in the order of R572; cause 5 for the semaphore words (R117) follows the form. -/
def State.messageFails (s : State) (w : Writer) (off : Nat) (b : Bytes) : Option Nat :=
  let hits := (covered off b).filter fun e => let t := s.touch e.1 e.2; t.1 ≠ 0 || t.2 ≠ 0
  let stage : Staged := hits.map fun e => (e.1, s.merged e.1 e.2)
  if !formOk off b.length then some 6
  else if w ≠ .smbus && s.touchesSem off b then some 5
  else
    let needs := hits.any fun e => (s.touch e.1 e.2).1 ≠ 0
    match (if needs then s.sem0 w else none) with
    | some c => some c
    | none =>
      if w = .smbus && hits.any (fun e => !e.1.smbus) then some 7
      else stage.findSome? fun e => s.regCheck w stage e.1 e.2

/-- A register a state move of the same structure may follow (R572). -/
def SetupReg.isMove : SetupReg → Bool
  | .qp _ _ _ => true
  | _ => false

/-- Applies a message whole, fields before moves (R572). -/
def State.applyMessage (s : State) (off : Nat) (b : Bytes) : State :=
  let hits := (covered off b).filter fun e => let t := s.touch e.1 e.2; t.1 ≠ 0 || t.2 ≠ 0
  let todo := hits.map fun e => (e.1, s.merged e.1 e.2, e.2)
  ((todo.filter fun e => !e.1.isMove) ++ todo.filter fun e => e.1.isMove).foldl (fun s e => s.putReg e.1 e.2.1 e.2.2) s

/-- A write message is checked and applied whole, or latches SETUP_ERR (R572, R573). -/
def State.judgeMessage (s : State) (w : Writer) (off : Nat) (b : Bytes) : State :=
  match s.messageFails w off b with
  | some c => s.latch w c off b.length
  | none => s.applyMessage off b

/-- The SMBus view is served: from power good, but not in SCRAPPED (R523) nor while PWR_DISABLE is asserted (R594). -/
def State.smbServed (s : State) : Bool := s.pwr.on && !s.pwr.disable && !s.life.scrap

/-- A write message as it arrives (R569, R571, R71): from a manager's queue pair, or over SMBus; one from a tenant, or beyond
the window, is refused. -/
def State.message (s : State) (w : Writer) (off : Nat) (b : Bytes) : State :=
  match w with
  | .smbus => if s.smbServed then s.judgeMessage w off b else s
  | .rdma f p =>
    if !s.responds f p then s
    else if !isManager f || off + b.length > 2 ^ 24 then s.refuse f p true
    else s.judgeMessage w off b

/-! ### The rows -/

/-- SETUP_WRITE (R572). -/
def execSetupWrite (w : Writer) (off : Nat) (data : Bytes) (s : State) : Res' := go (s.message w off data)

/-- A write of one register: a word at an offset. -/
def State.writeWord (s : State) (w : Writer) (off : Nat) (v : W64) : State := s.message w off (toLe v.toNat 8)

/-- SETUP_ERR_CLEAR (R575). -/
def execSetupErrClear (w : Writer) (s : State) : Res' := go (s.writeWord w 0x30 1)

/-- Base of a port's half. -/
def portBase (p : PortId) : Nat := 0x20000 + 0x8000 * p.num

/-- PORT_ENABLE (R89). -/
def execPortEnable (w : Writer) (p : PortId) (en : Bool) (s : State) : Res' :=
  go (s.writeWord w (portBase p + 8) (BitVec.ofNat 64 (b01 en)))

/-- PORT_RETRAIN (R89): ENABLE is written with its present value. -/
def execPortRetrain (w : Writer) (p : PortId) (s : State) : Res' :=
  go (s.writeWord w (portBase p + 8) (s.portWord p 8 ||| 2))

/-- Offset of FN_QP[2p + e] of a function. -/
def qpOff (f : Nat) (p : PortId) (ev : Bool) : Nat := 0x40080 + 256 * f + 32 * p.num + 8 * b01 ev

/-- QP_TO_INIT (R579): one message with the word's fields and the address, the other queue pair's word as it stands. -/
def execQpToInit (w : Writer) (fn : Nat) (p : PortId) (ev : Bool) (word : W64) (addr : W128) (s : State) : Res' :=
  let one := toLe (withQpState word .init).toNat 8
  let a := toLe addr.toNat 16
  let b := if ev then toLe ((s.fn fn).qpWord p false).toNat 8 ++ one ++ a else one ++ toLe ((s.fn fn).qpWord p true).toNat 8 ++ a
  go (s.message w (qpOff fn p false) b)

/-- A move of a queue pair with its other fields as they stand. -/
def State.moveQp (s : State) (w : Writer) (f : Nat) (p : PortId) (ev : Bool) (q : QpState) : State :=
  s.writeWord w (qpOff f p ev) (withQpState ((s.fn f).qpWord p ev) q)

/-- QP_TO_RTR (R579, R604). -/
def execQpToRtr (w : Writer) (fn : Nat) (p : PortId) (ev : Bool) (s : State) : Res' := go (s.moveQp w fn p ev .rtr)

/-- QP_TO_RTS (R579). -/
def execQpToRts (w : Writer) (fn : Nat) (p : PortId) (ev : Bool) (s : State) : Res' := go (s.moveQp w fn p ev .rts)

/-- QP_TO_RESET (R579). -/
def execQpToReset (w : Writer) (fn : Nat) (p : PortId) (ev : Bool) (s : State) : Res' := go (s.moveQp w fn p ev .reset)

/-- ADMIN_RING_WRITE (R581). -/
def execAdminRingWrite (w : Writer) (entry : Nat) (data : Bytes) (s : State) : Res' :=
  go (s.message w (0x140000 + 32 * entry) data)

/-- SVE_MODE_WRITE (R440): OWNER is written with its present value. -/
def execSveModeWrite (w : Writer) (whole : Bool) (s : State) : Res' :=
  go (s.writeWord w 0x2F0000 (BitVec.ofNat 64 (b01 whole + s.sieve.owner * 2 ^ 16)))

/-- SVE_OWNER_WRITE (R442): MODE is written with its present value. -/
def execSveOwnerWrite (w : Writer) (owner : Nat) (s : State) : Res' :=
  go (s.writeWord w 0x2F0000 (BitVec.ofNat 64 (b01 s.sieve.mode + owner % 4096 * 2 ^ 16)))

/-- TRC_DISP_CTRL_WRITE (R435). -/
def execTrcDispCtrlWrite (w : Writer) (v : W64) (s : State) : Res' := go (s.writeWord w 0x350000 v)

/-- SCRUB_GO (R477). -/
def execScrubGo (w : Writer) (s : State) : Res' := go (s.writeWord w 0x2D0010 1)

/-- ALERT_CLEAR (R524): LOCATE is written with its present value. -/
def execAlertClear (w : Writer) (s : State) : Res' :=
  go (s.writeWord w 0x330000 (BitVec.ofNat 64 (4 + 8 * b01 s.health.locate)))

/-- LOCATE (R508). -/
def execLocate (w : Writer) (on : Bool) (s : State) : Res' := go (s.writeWord w 0x330000 (BitVec.ofNat 64 (8 * b01 on)))

end Sys2Proof.Machine
end

