-- ==== Sys2Proof/Machine/HealthOps.lean ====
section
/-! DEFINITION. The accounts of health (chapter 19): margins, spare dies, wear, attention and replacement conditions, the lamp,
HLT_STATE, the telemetry record, the wear report, and the evaluation of R502. -/

namespace Sys2Proof.Machine

/-! ### Accounts of a ward -/

/-- The die of a physical plane-block. -/
def physDie (p : Nat) : DieId := dieOf (p / 4096 / 4)

/-- Whether a physical plane-block lies on a present die-row member of a ward. -/
def State.onMember (s : State) (w p : Nat) : Bool := (physDie p).ward = w && (s.memberOf (physDie p)).isSome

/-- Whether a slot's plane-blocks are the retirement pool's (R252, R291). -/
def SlotUse.pooled (u : SlotUse) : Bool := u = .pool || u = .lost true

/-- Plane-blocks in a ward's retirement pool (R241, R505): 866,520 at delivery. -/
def State.poolLeft (s : State) (w : Nat) : Nat :=
  let here := s.media.slots.filter fun e => decide (slotWard e.1 = w)
  let added := (here.filter fun e => e.2.pooled).length
  let lost := (here.filter fun e => (deliveredUse (slotRow e.1) (slotIdx e.1)).pooled).length
  866520 + 144 * added + (s.media.poolGiven.filter (s.onMember w)).length - 144 * lost -
    (s.media.poolTaken.filter (s.onMember w)).length

/-- The spare-block margin in units of 0.01 %, rounded down (R505). -/
def State.margin (s : State) (w : Nat) : Nat := s.poolLeft w * 10000 / 11501568

/-- Factory spare blocks left on the planes of the ward's present members (Table 19.12). -/
def State.factoryLeft (s : State) (w : Nat) : Nat :=
  359424 - s.media.factory.foldl (fun n e =>
    let d := dieOf (e.1 / 4)
    if d.ward = w && (s.memberOf d).isSome then n + e.2 else n) 0

/-- Spare dies of a ward (R511). -/
def State.spareDies (s : State) (w : Nat) : Nat :=
  ((List.range 37).flatMap fun c => (List.range 28).filter fun p =>
    let d : DieId := ⟨w, c, p⟩
    let k := s.chan (dieChan d)
    (s.memberOf d).isNone && !(s.die d).failed && !k.failedPos.contains p && k.st ≠ .failed).length

/-- Slots whose plane-blocks the wear indicator counts: zone, random-area and parking slots (R307). -/
def SlotUse.worn : SlotUse → Bool
  | .free | .bound _ | .releasing _ | .held _ _ | .random | .parking => true
  | _ => false

/-- How many such slots a ward has. -/
def State.wornSlots (s : State) (w : Nat) : Nat :=
  let here := s.media.slots.filter fun e => decide (slotWard e.1 = w)
  73784 + (here.filter fun e => e.2.worn).length -
    (here.filter fun e => (deliveredUse (slotRow e.1) (slotIdx e.1)).worn).length

/-- Cycle counts, those that are not zero, of the plane-blocks that serve such slots in a ward. -/
def State.cycles (s : State) (w : Nat) : List Nat :=
  (s.media.wear.filter fun e =>
    let d := physDie e.1
    let pl := e.1 / 4096 % 4
    let k := s.slotOfBlock d pl (e.1 % 4096)
    decide (d.ward = w) && decide (s.block d pl k = e.1 % 4096) && (match s.memberOf d with
      | some (a, b, _) => (s.slotUse (slotNo a b k)).worn
      | none => false)).map (·.2)

def sum (l : List Nat) : Nat := l.foldl (· + ·) 0

/-- The wear indicator over a list of wards (R307): a whole percent, saturating at 255. -/
def State.wearInd (s : State) (ws : List Nat) : Nat :=
  let n := sum (ws.map fun w => 144 * s.wornSlots w)
  min 255 (sum (ws.map fun w => sum (s.cycles w)) * 100 / (1500 * max 1 n))

/-- The four wards. -/
def wards : List Nat := [0, 1, 2, 3]

/-! ### Conditions -/

/-- Whether the degraded bound is in force in a ward (Table 19.2 bit 0). -/
def State.degraded (s : State) (w : Nat) : Bool :=
  (s.media.members.any fun e => e.1 / 36 / 26 = w && e.2.rebuilding) ||
    (List.range 36).any fun c =>
      let n := w * 37 + c
      (s.chan n).st = .retraining || ((s.chan n).st = .failed && !(s.membersOn n).isEmpty)

/-- Spare stream cores of a hamlet left (R432): two at delivery. -/
def State.hamletSpares (s : State) (h : Nat) : Nat :=
  ([16, 17].filter fun p => !(s.hamlet h).gone.contains p &&
    !(List.range 16).any fun l => (s.core (h * 16 + l)).phys = some p).length

/-- A rank as delivered: ranks 0 and 1 of a channel active, rank 2 spare (R460). -/
def Rank.fresh (n : Nat) : Rank := ⟨if n % 3 = 2 then .spare else .active, 0, 0, 0, none, none⟩

def State.rank (s : State) (n : Nat) : Rank := (look s.dram.ranks n).getD (Rank.fresh n)

def State.setRank (s : State) (n : Nat) (f : Rank → Rank) : State :=
  { s with dram := { s.dram with ranks := putD s.dram.ranks (Rank.fresh n) n (f (s.rank n)) } }

/-- Remap entries of a DRAM channel in use: its 32 are shared by its three ranks (R478). -/
def State.remapUsed (s : State) (c : Nat) : Nat := sum ((List.range 3).map fun k => lookD s.dram.remap 0 (3 * c + k))

/-- Whether a DRAM channel has a rank in SPARE. -/
def State.chanSpare (s : State) (c : Nat) : Bool :=
  !s.dram.chanOut.contains c && (List.range 3).any fun k => (s.rank (3 * c + k)).st = .spare

/-- Spare loft sectors of banks A, B and K left (R497). -/
def loftSpares (k : Nat) : Nat := if k = 2 then 32 else 64
def State.loftLeft (s : State) (k : Nat) : Nat := loftSpares k - lookD s.loft.used 0 k

/-- A number from flags, flag k worth 2^k. -/
def flags : List Bool → Nat
  | [] => 0
  | b :: bs => b01 b + 2 * flags bs

/-- The attention conditions (Table 19.2). -/
def State.attnNow (s : State) : Nat :=
  flags [wards.any s.degraded,
    s.portA.state = .failed || s.portB.state = .failed || s.portA.held || s.portB.held,
    s.pwr.usable < 400,
    s.cellNow < 30 || s.clk.st = 0,
    !s.health.inhRaised.isEmpty,
    !s.dram.chanOut.isEmpty || s.plainCap < 16128,
    (List.range 12).any fun c => decide (s.remapUsed c ≥ 32),
    !s.sieve.weak.isEmpty,
    [0, 1, 2].any (fun k => s.loftLeft k = 0) || s.loft.erases.any fun e => decide (e.2 ≥ 90000000),
    wards.any fun w => decide (s.wearInd [w] ≥ 100),
    s.health.temps.getD 0 0 > 40 || s.health.temps.getD 2 0 > 80,
    s.media.capShort,
    (match s.bell.lastOver with
     | some b => decide (s.bell.now < b + 65536)
     | none => false),
    s.media.members.any fun e => e.2.pkgShared || e.2.chanShared,
    s.ctlCores < 16 && s.ctlSpares = 0]

/-- A ward that meets condition 0 or 1 of Table 19.3. -/
def State.lowMargin (s : State) (w : Nat) : Bool := s.poolLeft w * 100 < 2 * 11501568
def State.fewSpares (s : State) (w : Nat) : Bool := s.spareDies w < 25

/-- The replacement conditions (Table 19.3). -/
def State.reasonsNow (s : State) : Nat :=
  flags [wards.any s.lowMargin, wards.any s.fewSpares, !(List.range 12).any s.chanSpare,
    (List.range 32).any fun h => decide (s.hamletSpares h = 0), s.ctlSpares = 0]

/-- The ward bitmap (R504). -/
def State.wardsNow (s : State) : Nat := flags (wards.map fun w => s.lowMargin w || s.fewSpares w)

/-! ### The evaluation -/

/-- The health state from the conditions (Table 19.1). -/
def healthOf (old attn reasons : Nat) : Nat := if old = 2 || reasons ≠ 0 then 2 else if attn ≠ 0 then 1 else 0

/-- Evaluates the health state (R502 to R506): one transition, the alert, HEALTH_STATE, and REPLACE_REQUESTED on entry and for
each reason that becomes true later. -/
def State.evaluate (s : State) : State :=
  let h := s.health
  let attn := BitVec.ofNat 32 s.attnNow
  let reasons := h.reasons ||| BitVec.ofNat 5 s.reasonsNow
  let ws := h.wards ||| BitVec.ofNat 4 s.wardsNow
  let st := healthOf h.state attn.toNat reasons.toNat
  let s := { s with health := { h with
    state := st, attn := attn, reasons := reasons, wards := ws, alert := h.alert || decide (st ≠ h.state) } }
  let s := if st = h.state then s
    else s.event 0x0001 1 0 [(32, 1, st), (33, 1, h.state), (36, 4, attn.toNat), (40, 1, reasons.toNat)]
  if reasons = h.reasons then s else s.event 0x0002 2 0 [(40, 1, reasons.toNat), (44, 4, ws.toNat)]

/-- HEALTH_EVALUATION (R502): at a bell boundary after READY. -/
def execHealthEvaluation (s : State) : Res' := if s.boot.ready && s.pwr.on then go s.evaluate else go s

/-! ### HLT_STATE (Tables 19.4 and 19.5) -/

/-- The lamp: 0 off, 1 green, 2 amber, 3 blue, and whether the row of Table 19.4 blinks. -/
def State.lampRow (s : State) : Nat × Bool :=
  if !s.pwr.on || s.pwr.loss.isSome || s.life.scrap then (0, false)
  else if s.boot.halted.isSome then (2, true)
  else if !s.boot.ready then (1, true)
  else if s.health.state = 2 then (3, false) else if s.health.state = 1 then (2, false) else (1, false)

/-- The blink (R508): the row's own, or locate. -/
def State.blinks (s : State) : Bool :=
  s.lampRow.1 ≠ 0 && (s.lampRow.2 || s.pwr.lampReq || s.health.locate)

/-- HLT_STATE (R509). -/
def State.hltState (s : State) : W64 :=
  let h := s.health
  BitVec.ofNat 64 (h.state + 4 * b01 h.alert + 8 * b01 h.locate + 16 * b01 s.pwr.lampReq + 32 * s.lampRow.1 +
    128 * b01 s.blinks + 256 * h.reasons.toNat + 65536 * h.attn.toNat)

/-! ### Telemetry (R521) -/

/-- A figure of telemetry that the spec calls measured and gives no value for: `n` bytes from byte `k` of the record. -/
def State.gauged (s : State) (k n : Nat) : Nat := le ((List.range n).map fun i => Config.gauge (k + i) s.bell.now) 0 n

/-- The health telemetry record (Table 19.11). -/
def State.telemetry (s : State) : Bytes :=
  let h := s.health
  let temp := fun i => (h.temps.getD i 0 % 256).toNat
  let remaps := (List.range 12).map fun c => (68 + c, 1, s.remapUsed c)
  record 128 ([(0, 8, s.bell.now), (8, 1, h.state), (10, 2, h.reasons.toNat), (12, 4, h.attn.toNat), (16, 2, s.bell.inputMv),
    (18, 2, s.gauged 18 2), (20, 2, s.gauged 20 2), (22, 2, s.bell.flashPower), (24, 2, s.pwr.usable), (26, 2, s.cellNow),
    (28, 1, temp 0), (29, 1, temp 1), (30, 1, temp 2), (31, 1, temp 3), (32, 12, s.gauged 32 12),
    (44, 2, flags ((List.range 12).map s.chanSpare)),
    (46, 2, flags ((List.range 12).map fun c => !s.dram.chanOut.contains c)),
    (48, 8, (List.range 32).foldl (fun n h => n + s.hamletSpares h * 4 ^ h) 0),
    (56, 1, s.ctlSpares), (57, 1, s.ctlCores), (58, 2, s.sieve.sparesLeft), (60, 2, s.sieve.weak.length),
    (64, 1, s.loftLeft 0), (65, 1, s.loftLeft 1), (66, 1, s.loftLeft 2)] ++ remaps ++
    [(80, 4, (s.dram.sramRemap.filter fun e => decide (e.2 ≥ 4)).length), (84, 8, s.edc.ce), (92, 8, s.edc.ue),
     (100, 8, s.edc.passBell)])

/-- The telemetry record is sampled at a bell boundary (R521, Table 23.3). -/
def State.sampleTelem (s : State) : State := { s with health := { s.health with telem := s.telemetry } }

/-! ### The wear report (R522) -/

/-- A figure of the last 24 h of powered time in a ward: how many events of a kind, and their sum. -/
def State.wear24 (s : State) (w : Nat) (k : WearKind) : Nat × Nat :=
  let now := s.poweredNs
  let l := (s.ward w).hist.filter fun e => e.2.1 = k && decide (now < e.1 + dayNs)
  (l.length, sum (l.map fun e => e.2.2))

/-- One rebuild in progress: channel-in-ward and position of the spare die, percent done, block groups left. -/
def State.rebuildFigure (s : State) (k : Nat) (m : Mem) : List Nat :=
  let used := s.usedSlots (k / 36 / 26) (k / 36 % 26)
  let left := (used.filter fun n => !m.passed.contains n).length
  [m.die.ch, m.die.pos, (used.length - left) * 100 / max 1 used.length, left]

/-- A ward record (Table 19.12). -/
def State.wardRecord (s : State) (w : Nat) : Bytes :=
  let dec := s.wear24 w .decode
  let rty := s.wear24 w .retry
  let cyc := s.cycles w
  let blocks := 144 * s.wornSlots w
  let x := s.ward w
  let rb := s.media.members.filter fun e => e.1 / 36 / 26 = w && e.2.rebuilding
  let rows := fun (p : Mem → Bool) =>
    (((s.media.members.filter fun e => e.1 / 36 / 26 = w && p e.2).map fun e => e.1 / 36).eraseDups).length
  let figs := ((rb.take 4).mapIdx fun i e =>
    let f := s.rebuildFigure e.1 e.2
    [(72 + 8 * i, 1, f.getD 0 0), (73 + 8 * i, 1, f.getD 1 0), (74 + 8 * i, 1, f.getD 2 0), (76 + 8 * i, 4, f.getD 3 0)]).flatten
  record 128 ([(0, 4, dec.2 * 256 / max 1 dec.1), (4, 4, rty.1 * 1000000 / max 1 dec.1), (8, 4, (s.wear24 w .step9).1),
    (12, 4, (s.wear24 w .step10).1), (16, 4, (s.wear24 w .refreshed).1),
    (20, 4, (s.media.refresh.filter fun e => e.2.1.ward = w && !s.moving e.2.1 e.2.2.1 && s.refreshWaits e.2.1 e.2.2.1 e.2.2.2).length), (24, 4, (s.wear24 w .retired).1), (28, 4, s.poolLeft w),
    (32, 4, s.factoryLeft w), (36, 4, s.margin w), (40, 2, sum cyc / max 1 blocks), (42, 2, cyc.foldl max 0),
    (44, 1, s.wearInd [w]), (45, 1, s.spareDies w), (46, 1, rows (·.pkgShared)), (47, 1, rows (·.chanShared)),
    (48, 2, x.extent), (50, 2, s.randUnits w * 10000 / max 1 (x.extent * 2 ^ 20)), (56, 8, x.copied), (64, 4, rb.length)] ++ figs)

/-- The wear report (R522): header and four ward records. -/
def State.wearReport (s : State) : Bytes :=
  record 64 [(0, 8, s.bell.now), (8, 8, s.health.hostUnits * 4096), (16, 8, s.health.mediaUnits * 4096),
    (24, 1, s.wearInd wards)] ++ wards.flatMap s.wardRecord

end Sys2Proof.Machine
end

