-- ==== Sys2Proof/Machine/PowerOps.lean ====
section
/-! DEFINITION. Shared operations of power states (chapter 20) and of life cycle (chapter 21): the effective tolerance, admitted
states, idleness, the life-cycle state, and the end of a boot's traffic. -/

namespace Sys2Proof.Machine

/-! ### Tolerance (R527, R528) -/

/-- Whether a function's declaration counts (R527). -/
def Fn.declares (f : Nat) (g : Fn) : Bool := g.tol ≠ 0 && (isManager f || g.state = .active)

/-- The smallest declaration that counts, with its function; of equals the lowest function's (notes/assumptions/30.md). -/
def State.effTol (s : State) : Option (Nat × Nat) :=
  (s.fns.filter fun e => e.2.declares e.1).foldl (fun b e => match b with
    | some (f, t) => if e.2.tol < t then some (e.1, e.2.tol) else some (f, t)
    | none => some (e.1, e.2.tol)) none

/-- Wake times, µs (Table 20.1). -/
def wakeTime (n : Nat) : Nat := [0, 20, 200, 2000, 20000].getD n 0

/-- Hold times of R530, µs. -/
def holdTime (n : Nat) : Nat := [0, 1000, 10000, 100000, 1000000].getD n 0

/-- Whether a power state is admitted (R528). -/
def State.admits (s : State) (n : Nat) : Bool :=
  n = 0 || (n ≤ s.pwr.deepest && (match s.effTol with
    | some (_, t) => decide (wakeTime n ≤ t)
    | none => false))

/-- The deepest admitted state. -/
def State.deepestOk (s : State) : Nat := ((List.range 5).filter s.admits).foldl max 0

end Sys2Proof.Machine
end

