-- ==== Sys2Proof/Machine/Window.lean ====
section
/-! DEFINITION. What the set-up window reads (chapter 23, Tables 4.4, 7.12, 15.4, 16.5, 16.6, 17.2, 17.5 to 17.7, 18.6, 19.5, 20.3,
21.8, 22.3, 23.2 to 23.9): every register as one 64-bit word, and the SMBus view (R585). -/

namespace Sys2Proof.Machine

/-- A word from numbered fields: (low bit, value). -/
def pack (l : List (Nat × Nat)) : W64 := BitVec.ofNat 64 (sum (l.map fun e => e.2 * 2 ^ e.1))

/-- Word `k` of a byte string. -/
def wordAt (b : Bytes) (k : Nat) : W64 := BitVec.ofNat 64 (le b (8 * k) 8)

/-! ### GLB, BELL, PORT -/

/-- GLB_PART, GLB_SERIAL: identity fixed at manufacture. -/
def partBytes : Bytes :=
  slice ([0x4A, 0x4C, 0x37, 0x2D, 0x31, 0x31, 0x35, 0x32, 0x2D] ++ [if Config.partO then 0x4F else 0x51]) 0 16
def serialBytes : Bytes := (List.range 16).map Config.serialByte

/-- The image a bank holds. -/
def Loft.image (l : Loft) (bankB : Bool) : Image := if bankB then l.imgB else l.imgA

/-- The GLB block. -/
def State.glbWord (s : State) (o : Nat) : W64 :=
  match o with
  | 0x00 | 0x08 => wordAt partBytes (o / 8)
  | 0x10 | 0x18 => wordAt serialBytes (o / 8 - 2)
  | 0x20 => pack [(0, (s.loft.image s.boot.running).version), (32, Config.stepping.toNat)]
  | 0x28 => pack [(0, s.boot.step), (4, b01 s.boot.ready), (5, b01 s.boot.restored), (6, b01 s.boot.fallback),
      (7, b01 s.boot.bank), (8, s.boot.lastStop), (32, s.boot.readyMs)]
  | 0x30 => pack [(0, b01 s.err.err), (4, s.err.cause), (8, b01 s.err.smbus), (9, s.err.port.num), (10, s.err.func),
      (32, s.err.count)]
  | 0x38 => pack [(0, s.err.offset), (32, s.err.length)]
  | _ => 0

/-- The BELL block (Table 23.4). -/
def State.bellWord (s : State) (o : Nat) : W64 :=
  let b := s.bell
  if o = 0 then BitVec.ofNat 64 b.period
  else if o = 8 then BitVec.ofNat 64 b.active
  else if o = 0x10 then BitVec.ofNat 64 b.now
  else if o = 0x18 then BitVec.ofNat 64 b.boot
  else if 0x20 ≤ o && o < 0x48 then BitVec.ofNat 64 (lookD b.ovr 0 ((o - 0x20) / 8))
  else if 0x100 ≤ o && o < 0x200 then
    match b.stamps[(o - 0x100) / 32]? with
    | some p => BitVec.ofNat 64 (match o % 32 with
      | 0 => p.bell
      | 8 => p.secs
      | 16 => p.sub
      | _ => 0)
    | none => 0
  else 0

/-- A signed number in `n` bits. -/
def twos (n : Nat) (v : Int) : Nat := (v % 2 ^ n).toNat

/-- PORT_MAC of a port (R62): port B's is port A's plus 1. -/
def macOf (p : PortId) : BitVec 48 := match p with
  | .A => Config.macA
  | .B => BitVec.ofNat 48 (netNum 6 (netNum 6 Config.macA.toNat + 1))

/-- A port's half of the PORT block (Table 23.5). The model's choice (notes/assumptions/40.md): an advertised power above 25.5 W is
shown modulo 256, and FAILS, three bits, modulo 8; the count of failures is kept through OFF. -/
def State.portBlock (s : State) (p : PortId) (o : Nat) : W64 :=
  let q := s.port p
  let m := q.optic
  match o with
  | 0x000 => pack [(0, q.state.num), (4, q.fails % 8)]
  | 0x008 => s.portWord p 0x008 &&& 1
  | 0x010 => (macOf p).setWidth 64
  | 0x170 => BitVec.ofNat 64 s.net.knockUdp
  | 0x178 => pack [(0, s.net.ptpDomain), (8, s.net.ptpSource), (16, s.net.ptpInUse.num)]
  | 0x180 => match m with
    | some x => pack [(0, 1), (1, b01 q.held), (8, x.advPower % 256), (16, twos 8 x.temp), (24, x.vcc % 65536)]
    | none => 0
  | 0x200 => BitVec.ofNat 64 q.rxDrop
  | 0x208 => BitVec.ofNat 64 q.knockDrop
  | 0x210 => BitVec.ofNat 64 q.knockMerge
  | _ =>
    if 0x188 ≤ o && o < 0x1A8 then BitVec.ofNat 64 ((((m.map (·.lanes)).getD []).getD ((o - 0x188) / 8) 0) % 2 ^ 48)
    else if 0x1C0 ≤ o && o < 0x200 then wordAt ((m.map (·.id)).getD []) ((o - 0x1C0) / 8)
    else if (portReg p o).isSome then s.portWord p o
    else 0

/-! ### FN, RING, SEM, HOLD -/

/-- A resource block as bytes (Table 7.12). -/
def Res.bytes (r : Res) : Bytes :=
  record 32 [(0, 2, r.sq), (2, 2, r.cq), (4, 2, r.allot), (6, 1, r.dispW), (7, 1, r.bellW), (8, 1, r.sieve), (10, 2, r.readOps),
    (12, 2, r.readBytes), (14, 2, r.writeBytes), (16, 2, r.scanBytes), (18, 1, r.home.num)]

/-- FN_RES as it reads (R578): a manager's shows its rings and zero elsewhere. -/
def State.fnRes (s : State) (f : Nat) : Res :=
  if isManager f then { Res.zero with sq := 16, cq := 16 } else (s.fn f).res

/-- FN_LOG (Table 23.6): the entry FN_LOG_SEL chooses, zero if unused or absent. -/
def State.fnLog (s : State) (f : Nat) : Bytes :=
  let w := (s.fn f).logSel.toNat
  if bit w 0 then (s.fn f).faults.getD (bits w 18 13) []
  else ((s.sq f (bits w 10 1)).map fun q => q.errlog.getD (bits w 12 11) []).getD []

/-- FN_STATE codes (Table 23.6). -/
def FnState.num : FnState → Nat
  | .absent => 0
  | .active => 1
  | .quiescing => 2
  | .quiesced => 3

/-- A function entry (R578, Table 23.6): in an ABSENT function's every RO field reads zero. -/
def State.fnWord (s : State) (f o : Nat) : W64 :=
  let g := s.fn f
  if g.state = .absent then
    if [0x18, 0x28, 0x30, 0x38, 0x40].contains o then ((fnReg f o).map s.regNow).getD 0 else 0
  else match o with
  | 0x00 => pack [(0, g.state.num), (2, g.res.home.num), (3, b01 g.part.isSome), (4, g.part.getD 0), (16, s.jobCmds (· = f))]
  | 0x20 => pack [(0, (Config.semRkey f).toNat), (32, if isManager f then (Config.setupRkey f).toNat else 0)]
  | _ =>
    if 0x60 ≤ o && o < 0x80 then wordAt (s.fnRes f).bytes ((o - 0x60) / 8)
    else if 0xC0 ≤ o then wordAt (s.fnLog f) ((o - 0xC0) / 8)
    else match fnReg f o with
      | some r => s.regNow r
      | none => 0

/-- The ring of a RING entry (R580), with its function and number. -/
def State.sqAt (s : State) (i : Nat) : Option (Nat × Sq) := s.sqs.find? fun e => e.2.index = i
def State.cqAt (s : State) (i : Nat) : Option (Nat × Cq) := s.cqs.find? fun e => e.2.index = i

/-- A RING entry (Table 23.7). Bits [9:0] and [63:32] of word 1 of a submission ring are BOUND_CQ and FETCHED. -/
def State.ringWord (s : State) (i k : Nat) : W64 :=
  if i < 16384 then
    match s.sqAt i with
    | some (n, q) => match k with
      | 0 => (q.base &&& ones64 63 12) ||| BitVec.ofNat 64 (n / 1024)
      | 1 => pack [(0, q.cq), (10, b01 q.frozen), (11, b01 q.dozing), (32, q.fetched)]
      | 2 => pack [(0, q.rkey.toNat), (32, q.tail)]
      | _ => pack [(0, q.gen), (32, n % 1024), (42, q.sizeLog - 4)]
    | none => 0
  else
    match s.cqAt i with
    | some (n, q) => match k with
      | 0 => (q.base &&& ones64 63 12) ||| BitVec.ofNat 64 (n / 1024)
      | 1 => (q.headAddr &&& ones64 63 3) ||| BitVec.ofNat 64 (4 * b01 q.notify)
      | 2 => pack [(0, q.rkey.toNat), (32, q.headRkey.toNat)]
      | _ => pack [(0, q.gen), (32, n % 1024), (42, q.sizeLog - 4), (46, q.coBells)]
    | none => 0

/-- The SEM block (Tables 4.4 and 23.8). -/
def State.semBlock (s : State) (o : Nat) : W64 :=
  if o < 0x2000 then s.semWord (o / 8)
  else if o < 0x4000 then BitVec.ofNat 64 (s.semAssign ((o - 0x2000) / 8))
  else if o < 0x6000 then BitVec.ofNat 64 (lookD s.sems.last 0 ((o - 0x4000) / 8))
  else if o = 0x6000 then BitVec.ofNat 64 s.sems.grace
  else 0

/-- A holding entry (Table 23.8). -/
def State.holdWord (s : State) (h o : Nat) : W64 :=
  match look s.holds h with
  | none => 0
  | some x => match o with
    | 0x00 => pack [(0, x.owner), (12, 1), (13, b01 x.policy), (32, x.quota)]
    | 0x08 => pack [(0, x.openLimit), (16, x.raAllow), (32, s.openCount h)]
    | 0x10 => pack [(0, count (fun z v => zoneHold z = h && v.st ≠ .empty) s.zones), (32, s.raCount h)]
    | 0x18 => BitVec.ofNat 64 x.ledger
    | _ => 0

/-! ### MED, GLN, PWR -/

/-- Slots of a ward in a use that no slot has at delivery. -/
def State.slotsIn (s : State) (w : Nat) (p : SlotUse → Bool) : Nat := count (fun n u => slotWard n = w && p u) s.media.slots

/-- Random-area headroom (R249): the extent less what is filled, by written units and by invalidated copies not reclaimed. -/
def State.raHeadroom (s : State) (w : Nat) : Nat :=
  (s.ward w).extent * 2 ^ 20 -
    sum ((s.media.raSlots.filter fun e => decide (slotWard e.1 = w)).map fun e => e.2.fill)

/-- The MED block (Table 23.9). -/
def State.medWord (s : State) (o : Nat) : W64 :=
  if o < 0x80 then
    let w := o / 32
    let rel := s.slotsIn w fun u => match u with
      | .releasing _ => true
      | _ => false
    let bound := s.slotsIn w fun u => match u with
      | .bound _ | .held _ _ => true
      | _ => false
    let lost := s.slotsIn w fun u => match u with
      | .lost _ => true
      | _ => false
    match o % 32 with
    | 0 => pack [(0, s.freeSlots w - rel), (32, bound)]
    | 8 => pack [(0, rel), (32, lost)]
    | 16 => pack [(0, s.poolLeft w), (32, (s.ward w).extent)]
    | _ => BitVec.ofNat 64 (s.raHeadroom w)
  else if 0x1000 ≤ o && o < 0x14A0 then
    let c := s.chan ((o - 0x1000) / 8)
    pack [(0, c.st.num), (8, c.rdEye), (16, c.wrEye), (24, c.failedPos.length)]
  else 0

/-- The GLN block. -/
def State.glnWord (s : State) (o : Nat) : W64 :=
  if o = 0 then BitVec.ofNat 64 s.media.ckptBell else if o = 8 && s.boot.step > 10 then BitVec.ofNat 64 s.media.journal else 0

/-- The PWR block (Tables 20.3 and 23.9). -/
def State.pwrWord (s : State) (o : Nat) : W64 :=
  match o with
  | 0x00 => pack [(0, s.pwr.cur), (3, b01 s.pwr.waking), (4, s.deepestOk), (8, (s.effTol.map (·.1)).getD 0),
      (20, b01 s.effTol.isSome), (32, (s.effTol.map (·.2)).getD 0)]
  | 0x08 => BitVec.ofNat 64 s.pwr.deepest
  | 0x10 => pack [(0, min 65535 s.pwr.usable), (16, b01 s.pwr.measuring)]
  | 0x18 => pack [(0, s.inhibits),
      (16, if s.health.hot.contains 3 then 4144 else s.pwr.coldDies.length)]
  | _ => 0

/-! ### DRC, EDC, LOFT, SVE, DISP, HAM -/

/-- Codes of rank states (Table 17.7). -/
def RankState.num : RankState → Nat
  | .spare => 0
  | .active => 1
  | .filling => 2
  | .draining => 3
  | .retraining => 4
  | .retired => 5

/-- The DRC block (Tables 17.2 and 17.7). -/
def State.drcWord (s : State) (o : Nat) : W64 :=
  if o = 0 then
    pack [(0, s.plainCap), (16, s.plainFree / 2 ^ 24), (32, 60),
      (40, ((List.range 36).filter fun n => (s.rank n).st = .spare).length), (48, 12 - s.dram.chanOut.length)]
  else if 0x100 ≤ o && o < 0x220 then
    let n := (o - 0x100) / 8
    let r := s.rank n
    pack [(0, r.st.num), (8, r.rdEye), (16, r.wrEye), (24, s.remapUsed (n / 3)), (32, r.ce)]
  else 0

/-- The EDC block (Tables 17.5 and 17.6). -/
def State.edcWord (s : State) (o : Nat) : W64 :=
  match o with
  | 0x00 => s.edc.start
  | 0x08 => s.edc.end_
  | 0x10 => pack [(1, b01 s.edc.busy), (2, b01 s.edc.fin)]
  | 0x18 | 0x20 | 0x28 | 0x30 => s.edc.sum.getD (o / 8 - 3) 0
  | _ => 0

/-- The LOFT block (Table 18.6). -/
def State.loftWord (s : State) (o : Nat) : W64 :=
  let l := s.loft
  let busy := fun (k : Nat) => b01 (look l.busy k).isSome
  if o = 0 then
    pack [(0, b01 s.boot.running), (1, b01 l.next), (2, busy 0), (3, busy 1), (4, busy 2), (5, b01 l.clrOpen), (16, l.wpViol)]
  else if o = 8 then pack [(0, s.loftLeft 0), (8, s.loftLeft 1), (16, s.loftLeft 2)]
  else if o = 0x10 then BitVec.ofNat 64 (min 0xFFFFFFFF (l.erases.foldl (fun n e => max n e.2) 0))
  else if 0x100 ≤ o && o < 0x540 then
    let n := (o - 0x100) / 8
    ~~~(pack (((l.clear.filter fun k => decide (k / 64 = n)).eraseDups).map fun k => (k % 64, 1)))
  else 0

/-- The SVE block (Tables 16.5 and 16.6). -/
def State.sveWord (s : State) (o : Nat) : W64 :=
  let v := s.sieve
  if o = 0 then pack [(0, b01 v.mode), (1, b01 v.active), (16, v.owner)]
  else if o = 8 then pack [(0, v.sparesLeft), (16, v.weak.length), (32, min 0xFFFFFFFF v.repairs)]
  else 0

/-- Logical cores of a hamlet in service (R432, R433). -/
def State.coresIn (s : State) (h : Nat) : Nat :=
  ((List.range 16).filter fun l => (s.core (16 * h + l)).phys.isSome).length

/-- DISP_STATUS and HAM_STATUS (Table 23.9). -/
def State.dispWord (s : State) (o : Nat) : W64 :=
  if o = 0 then pack [(0, s.jobCmds fun _ => true), (16, sum ((List.range 32).map s.coresIn))] else 0

def State.hamWord (s : State) (o : Nat) : W64 :=
  if o < 256 then
    pack [(0, s.coresIn (o / 8)), (5, s.hamletSpares (o / 8)), (8, 64 - (s.hamlet (o / 8)).used)]
  else 0

/-! ### SEC, HLT, CLK, TRC -/

/-- Byte k of the debug challenge of this boot; zero in SEALED (R547, R556). -/
def State.challenge (s : State) : Bytes :=
  if s.life.state = .factory || s.life.state = .return_ then (List.range 32).map fun k => Config.chalByte s.life.chal k
  else List.replicate 32 0

/-- The SEC block (Table 21.8). -/
def State.secWord (s : State) (o : Nat) : W64 :=
  let l := s.life
  if o = 0 then
    pack [(0, l.state.num % 4), (2, b01 l.debugOpen), (8, l.seals), (16, l.returns), (24, l.refurbs), (32, l.floor)]
  else if o = 8 then pack [(0, l.attNext), (31, b01 (l.attNext = 2 ^ 30 && l.attLeft = 0)), (32, l.chainLen)]
  else if 0x10 ≤ o && o < 0x30 then wordAt s.challenge (o / 8 - 2)
  else 0

/-- The HLT block. -/
def State.hltWord (s : State) (o : Nat) : W64 :=
  if o = 0 then s.hltState
  else if 0x40 ≤ o && o < 0x60 then pack [(0, s.spareDies (o / 8 - 8)), (16, s.margin (o / 8 - 8))]
  else if 0x100 ≤ o && o < 0x140 then wordAt s.health.telem ((o - 0x100) / 8)
  else 0

/-- The CLK block. -/
def State.clkWord (s : State) (o : Nat) : W64 :=
  match o with
  | 0x00 => BitVec.ofNat 64 s.clk.st
  | 0x08 => BitVec.ofNat 64 s.calSecs
  | 0x10 => BitVec.ofNat 64 s.calSub
  | 0x18 => BitVec.ofNat 64 s.cellNow
  | 0x20 => BitVec.ofInt 64 s.clk.offset
  | _ => 0

/-- The TRC block (Table 15.4, R436): sixteen records from TRC_DISP_SEL.INDEX, modulo the ring. -/
def State.trcWord (s : State) (o : Nat) : W64 :=
  let d := s.disp
  if o = 0 then d.ctrl
  else if o = 8 then BitVec.ofNat 64 d.cnt
  else if o = 0x10 then BitVec.ofNat 64 d.sel
  else if 0x100 ≤ o && o < 0x200 then
    wordAt (lookD d.recs [] ((d.sel + (o - 0x100) / 16) % 2 ^ d.sizeLog)) ((o - 0x100) / 8 % 2)
  else 0

/-! ### The window -/

/-- The register at a window offset, a multiple of 8 (Tables 23.1 and 23.3); zero where nothing lies (R16). -/
def State.windowWord (s : State) (o : Nat) : W64 :=
  if o < 0x10000 then s.glbWord o
  else if o < 0x20000 then s.bellWord (o - 0x10000)
  else if o < 0x28000 then s.portBlock .A (o - 0x20000)
  else if o < 0x30000 then s.portBlock .B (o - 0x28000)
  else if o < 0x40000 then 0
  else if o < 0x140000 then s.fnWord ((o - 0x40000) / 256) ((o - 0x40000) % 256)
  else if o < 0x240000 then s.ringWord ((o - 0x140000) / 32) ((o - 0x140000) % 32 / 8)
  else if o < 0x250000 then s.semBlock (o - 0x240000)
  else if o < 0x290000 then s.holdWord ((o - 0x250000) / 64) ((o - 0x250000) % 64)
  else
    let k := o % 0x10000
    match o / 0x10000 with
    | 0x29 => s.medWord k
    | 0x2A => s.glnWord k
    | 0x2B => s.pwrWord k
    | 0x2C => s.drcWord k
    | 0x2D => s.edcWord k
    | 0x2E => s.loftWord k
    | 0x2F => s.sveWord k
    | 0x30 => s.dispWord k
    | 0x31 => s.hamWord k
    | 0x32 => s.secWord k
    | 0x33 => s.hltWord k
    | 0x34 => s.clkWord k
    | 0x35 => s.trcWord k
    | _ => 0

/-- An aligned 64-byte piece of the window, sampled at one moment (R574). -/
def State.piece (s : State) (o : Nat) : Bytes := (List.range 8).flatMap fun i => toLe (s.windowWord (o / 64 * 64 + 8 * i)).toNat 8

/-- The pieces `n` bytes from offset `o` of the window lie in, in ascending order (R574). -/
def piecesOf (o n : Nat) : List Nat := if n = 0 then [] else (List.range ((o + n - 1) / 64 - o / 64 + 1)).map fun i => 64 * (o / 64 + i)

/-- What a READ of `n` bytes of the window from offset `o` returns (R574), each piece sampled at a moment of its own: `s k` is the
module as piece `k` is sampled. -/
def windowRead (s : Nat → State) (o n : Nat) : Bytes :=
  (((piecesOf o n).zipIdx.flatMap fun e => (s e.2).piece e.1).drop (o % 64)).take n

/-- Whether a register is part of the SMBus view (R585). -/
def smbusView (o : Nat) : Bool :=
  let port := fun k => k = 0x010 || k = 0x020 || (0x040 ≤ k && k ≤ 0x060) || (0x080 ≤ k && k < 0x118)
  o < 0x28 || o = 0x330000 || (0x330040 ≤ o && o < 0x330060) || (0x330100 ≤ o && o < 0x330140) ||
    (0x20000 ≤ o && o < 0x28000 && port (o - 0x20000)) || (0x28000 ≤ o && o < 0x30000 && port (o - 0x28000))

/-- A word of the SMBus view: zero for every other register. -/
def State.smbusWord (s : State) (o : Nat) : W64 := if smbusView o then s.windowWord o else 0

/-! ### The SMBus commands (R584) -/

/-- SMBUS_SET_OFFSET: three bytes, little-endian; a value that is no multiple of 8 fails with cause 6. A transfer whose PEC
fails is not acknowledged. -/
def execSmbusSetOffset (pecOk : Bool) (data : Bytes) (s : State) : Res' :=
  if !s.smbServed then go s
  else if !pecOk || data.length ≠ 3 then go (s.tell .smbNack)
  else
    let v := le data 0 3
    if v % 8 ≠ 0 then go (s.latch .smbus 6 v 3) else go { s with smbOff := v }

/-- SMBUS_READ: 32 bytes sampled at once, then the offset rises by 32. -/
def execSmbusRead (s : State) : Res' :=
  if !s.smbServed then go s
  else
    let b := (List.range 4).flatMap fun i => toLe (s.smbusWord ((s.smbOff + 8 * i) % 2 ^ 24)).toNat 8
    go ({ s with smbOff := (s.smbOff + 32) % 2 ^ 24 }.tell (.smbData b))

/-- SMBUS_WRITE: one message at the offset. -/
def execSmbusWrite (pecOk : Bool) (data : Bytes) (s : State) : Res' :=
  if !s.smbServed then go s
  else if !pecOk || data.length > 32 then go (s.tell .smbNack)
  else go (s.message .smbus s.smbOff data)

/-- SMBUS_ALERT_RESPONSE: the module answers with its address while ALERT# is asserted (R524). -/
def execSmbusAlertResponse (s : State) : Res' :=
  if s.smbServed && s.health.alert then go (s.tell (.smbAlert 0xD4)) else go s

end Sys2Proof.Machine
end

