-- ==== Sys2Proof/Machine/Dram.lean ====
section
/-! DEFINITION. DRAM (chapter 17): watermark batches, uncorrectable words, hard faults, rank and channel states, migration,
re-mirroring, the scrubber, and what lost plain memory does to allotments (R109). -/

namespace Sys2Proof.Machine

def State.setDram (s : State) (f : Dram → Dram) : State := { s with dram := f s.dram }

/-- The pair of a rank's channel (R463). -/
def rankPair (n : Nat) : Nat := n / 6

/-- WATERMARK_BATCH (R53, R467): a write queue that reached 48 lines is written until 16 remain, at most once per channel and bell;
after a drain that ran over, the batch is shorter by the lines that time would have drained. -/
def execWatermarkBatch (chan : Nat) (s : State) : Res' :=
  if chan ≥ 12 then .fault .noSuchPart
  else if !s.bell.batch.contains chan || s.bell.drained.contains chan then go s
  else
    let n := min (lookD s.dram.wq 0 chan) (16 + lookD s.bell.shorten 0 chan)
    go { s.setDram fun d => { d with wq := put d.wq chan n } with
      bell := { s.bell with drained := chan :: s.bell.drained } }

/-! ### Lost plain memory (R109) -/

/-- Jobs whose memory, or whose parked items (R428), lay on what was lost end with MEMORY_LOST. Where a job's memory lies is not stated: which jobs end is a free
value (notes/assumptions/31.md). -/
def State.loseJobs (s : State) : State :=
  (s.jobs.map (·.1)).foldl (fun s j =>
    let (v, s) := s.draw
    match look s.jobs j with
    | some x => if (x.mem > 0 || s.cores.any fun e => e.2.parked.any fun y => y.job = j) && x.st ≠ .queued && v % 2 = 1 then s.endJob j { status := MEMORY_LOST } else s
    | none => s) s

/-- Where the capacity left no longer covers the allotments, every tenant's is reduced in proportion, rounded down to 16 MiB, and
ALLOTMENT_REDUCED is raised. -/
def State.cutAllotments (s : State) : State :=
  let total := s.fns.foldl (fun n e => if e.2.state = .absent then n else n + e.2.res.allot) 0
  if total ≤ s.plainCap then s
  else
    let cut := fun (r : Res) => { r with allot := r.allot * s.plainCap / total }
    let s := { s with fns := mapV (fun _ (g : Fn) => if g.state = FnState.absent then g else { g with res := cut g.res, eff := cut g.eff }) s.fns }
    s.event 0x0031 1 0 [(32, 2, s.plainCap)]

/-- So much plain capacity is gone, in 16 MiB (R465, R482). -/
def State.losePlain (s : State) (n : Nat) : State :=
  (s.setDram fun d => { d with plainLost := d.plainLost + n }).cutAllotments

/-! ### Ranks (Table 17.3) -/

/-- Moves a rank to another state: RANK_STATE (R480), recorded in bank K; a rank that leaves service frees its remap entries
(R479). -/
def State.moveRank (s : State) (n : Nat) (st : RankState) : State :=
  let old := (s.rank n).st
  if old = st then s
  else
    let s := (s.setRank n fun r => { r with st := st }).setDram fun d =>
      { d with remap := if st = .retired then del d.remap n else d.remap }
    (s.loftRecord 248 (recRank + n) (record 16 [(0, 8, s.bell.now), (8, 1, n), (9, 1, st.num)])).event 0x0030 1 0
      [(32, 1, n), (33, 1, st.num), (34, 1, old.num)]

/-- Both copies of mirrored content are lost (R482): which units were staged or mapped there is a free value each
(notes/assumptions/31.md). -/
def State.losePair (s : State) : State :=
  (s.units.map (·.1) ++ s.rand.map fun e => lostRand e.1).foldl (fun s k =>
    let (v, s) := s.draw
    if v % 2 = 1 && !s.media.lostUnits.contains k then s.setMedia fun m => { m with lostUnits := k :: m.lostUnits } else s) s

/-- Ranks left service without a copy of their content (R482): their mirrored part waits to be re-mirrored, or is lost where a rank of the
pair's other channel waits for that too, the pair's writes go to the detour log (R464), and their plain part is lost. -/
def State.loseRanks (s : State) (ns : List Nat) : State :=
  if ns.isEmpty then s
  else
    let s := if ns.any fun n => s.dram.remirror.any fun m => rankPair m = rankPair n && m / 3 ≠ n / 3 then s.losePair else s
    ((s.setDram fun d => { d with
      remirror := d.remirror ++ ns
      detour := ns.foldl (fun t n => put t (rankPair n) (lookD t 0 (rankPair n))) d.detour }).loseJobs).losePlain (672 * ns.length)

/-- A rank of the channel in SPARE. -/
def State.spareOf (s : State) (n : Nat) : Option Nat :=
  ((List.range 3).map fun k => n / 3 * 3 + k).find? fun k => (s.rank k).st = .spare

/-- An ACTIVE rank fails (Table 17.3): it migrates to the channel's spare, or retires. -/
def State.activeFails (s : State) (n : Nat) : State :=
  match s.spareOf n with
  | some k => ((s.moveRank n .draining).moveRank k .filling).setRank k fun r => { r with partner := some n }
  | none => (s.moveRank n .retired).loseRanks [n]

/-- A rank meets an uncorrectable error, or a write CRC error that repeats (Table 17.3). -/
def State.rankFails (s : State) (n : Nat) : State :=
  let r := s.rank n
  match r.st with
  | .active => s.activeFails n
  | .filling =>
    let s := (s.moveRank n .retired).setRank n fun r => { r with partner := none }
    match r.partner with
    | some k => (s.moveRank k .retired).loseRanks [k]
    | none => s
  | .spare => s.moveRank n .retired
  | _ => s

/-- Whether the re-centring of a rank falls in this bell (R469): those of channel c begin at the bells that are 4,096 c modulo 65,536,
one rank after another within 64 bells each; a rank's turn comes once that before it is done, or its 64 bells have gone. -/
def State.recentreDue (s : State) (n : Nat) : Bool :=
  let t := (s.bell.now + 65536 - 4096 * (n / 3)) % 65536
  let done := fun k => match (s.rank k).centred with
    | some b => decide (s.bell.now ≤ b + t)
    | none => false
  let k := n % 3
  decide (t < 64 * (k + 1)) && !done n &&
    (k = 0 || decide (64 * k ≤ t) || ((List.range k).all fun i => (s.rank (n - k + i)).st = .retired || done (n - k + i)))

/-- RANK_RECENTRE (R469): the eyes are reported; below 0.20 UI, or a margin below 0.10 UI, an ACTIVE rank is retrained, and its
pair's writes go to the detour log meanwhile (R464). -/
def execRankRecentre (rank rdEye wrEye margin : Nat) (s : State) : Res' :=
  if rank ≥ 36 then .fault .noSuchPart
  else if (s.rank rank).st = .retired || !s.recentreDue rank then go s
  else
    let s := s.setRank rank fun r => { r with rdEye := min 255 rdEye, wrEye := min 255 wrEye, centred := some s.bell.now }
    if (s.rank rank).st = .active && (rdEye < 52 || wrEye < 52 || margin < 26) then
      go ((s.moveRank rank .retraining).setDram fun d => { d with
        detour := put d.detour (rankPair rank) (lookD d.detour 0 (rankPair rank)) })
    else go s

/-- RANK_RETRAIN_RESULT (R468 to R470, Table 17.3): a rank passes with eyes of at least 0.25 UI. A rank that fails with a spare at hand retires; the spare fills with the
mirrored part from the partner, and the plain part is lost. -/
def execRankRetrainResult (rank : Nat) (eye : Nat × Nat) (s : State) : Res' :=
  if rank ≥ 36 then .fault .noSuchPart
  else if (s.rank rank).st ≠ .retraining then go s
  else if 64 ≤ eye.1 && 64 ≤ eye.2 then
    go ((s.moveRank rank .active).setRank rank fun r => { r with rdEye := min 255 eye.1, wrEye := min 255 eye.2 })
  else match s.spareOf rank with
    | some k => go ((((s.moveRank rank .retired).moveRank k .filling).setRank k fun r => { r with partner := some rank }).loseJobs)
    | none => go ((s.moveRank rank .retired).loseRanks [rank])

/-- RANK_MIGRATION_START (R480, R481). -/
def execRankMigrationStart (rank : Nat) (s : State) : Res' :=
  if rank ≥ 36 then .fault .noSuchPart else go (s.rankFails rank)

/-- RANK_MIGRATION_COMPLETE (R481): the spare takes the source's place, with what was poisoned there, and the source retires. -/
def execRankMigrationComplete (rank : Nat) (s : State) : Res' :=
  if rank ≥ 36 then .fault .noSuchPart
  else
    let filler := (List.range 36).find? fun k => (s.rank k).st = .filling && (k = rank || (s.rank k).partner = some rank)
    match filler with
    | some k =>
      let src := (s.rank k).partner
      let s := (s.moveRank k .active).setRank k fun r => { r with partner := none }
      match src with
      | some n =>
        go ((s.moveRank n .retired).setDram fun d => { d with
          poison := d.poison.map fun p => if p / 2 ^ 31 = n then k * 2 ^ 31 + p % 2 ^ 31 else p })
      | none => go s
    | none => go s

/-- Mirrored content of a pair is copied to the plain capacity of channels outside it (R482): PLAIN_CAP falls by what it takes, 5 GiB
for each rank lost. -/
def State.remirrorPair (s : State) (pair : Nat) : State :=
  let n := (s.dram.remirror.filter fun n => rankPair n = pair).length
  if n = 0 then s
  else (s.setDram fun d => { d with remirror := d.remirror.filter fun n => rankPair n ≠ pair }).losePlain (320 * n)

/-- REMIRROR (R482). -/
def execRemirror (pair : Nat) (s : State) : Res' :=
  if pair ≥ 6 then .fault .noSuchPart else go (s.remirrorPair pair)

/-- DETOUR_APPLY (R464): a copy that returned or was re-mirrored receives the detour-logged writes. -/
def execDetourApply (pair : Nat) (s : State) : Res' :=
  if pair ≥ 6 then .fault .noSuchPart
  else if (s.dram.remirror.any fun n => rankPair n = pair) || (List.range 6).any (fun k => (s.rank (6 * pair + k)).st = .retraining) then go s
  else go (s.setDram fun d => { d with detour := del d.detour pair })

/-- DRAM_CHANNEL_LOSS (R470, R482): the channel leaves service and its ranks retire. -/
def execDramChannelLoss (chan : Nat) (s : State) : Res' :=
  if chan ≥ 12 then .fault .noSuchPart
  else if s.dram.chanOut.contains chan then go s
  else
    let s := s.setDram fun d => { d with chanOut := d.chanOut ++ [chan] }
    let ns := (List.range 3).map fun k => 3 * chan + k
    let held := ns.filter fun n => match (s.rank n).st with
      | .active | .draining | .retraining => true
      | .filling => ((s.rank n).partner.map fun k => decide ((s.rank k).st = .retired)) = some true
      | _ => false
    go ((ns.foldl (fun s n => (s.moveRank n .retired).setRank n fun r => { r with partner := none }) s).loseRanks held)

/-! ### Words (R473, R478) -/

/-- DRAM_UNCORRECTABLE (R473, R380): a word with a mirror copy is rewritten from it, any other is poisoned; a load, atomic or DMA
read that meets it ends its job; the rank migrates (Table 17.3). -/
def execDramUncorrectable (x : DramHit) (s : State) : Res' :=
  if x.rank ≥ 36 || x.addr ≥ 2 ^ 34 then .fault .noSuchPart
  else
    let s := if x.mirrored then s else match x.job with
      | some j => s.setJob j fun b => { b with poison := if b.poison.contains (x.winOff / 8) then b.poison else (x.winOff / 8) :: b.poison }
      | none => s.setDram fun d =>
          let k := x.rank * 2 ^ 31 + x.addr / 8
          { d with poison := if d.poison.contains k then d.poison else k :: d.poison }
    let s := s.rankFails x.rank
    match x.job, x.mirrored with
    | some j, false => if x.read then go (s.endJob j { status := MEMORY_LOST }) else go s
    | _, _ => go s

/-- REMAP (R478, R479): a hard-faulty place takes a remap entry, recorded in bank K. With the table full, a rank migrates to the
channel's spare, a stream core is retired, and any other word stays in use. -/
def execRemap (x : RemapPlace) (s : State) : Res' :=
  match x with
  | .dram r a =>
    if r ≥ 36 || a ≥ 2 ^ 34 then .fault .noSuchPart
    else
      let s := s.setRank r fun k => { k with ce := satAdd 32 k.ce 1 }
      if s.remapUsed (r / 3) < 32 then
        go ((s.setDram fun d => { d with remap := put d.remap r (lookD d.remap 0 r + 1) }).loftRecord 248 recRemap
          (record 16 [(0, 8, a / 4096), (8, 1, r)]))
      else if (s.rank r).st = .active && (s.spareOf r).isSome then go (s.activeFails r)
      else go s
  | .sram m a =>
    if m ≥ 2 ^ 16 || !macroOk m then .fault .noSuchPart
    else
      let n := lookD s.dram.sramRemap 0 m
      if n < 4 then
        go ((s.setDram fun d => { d with sramRemap := put d.sramRemap m (n + 1) }).loftRecord 248 recRow
          (record 16 [(0, 8, a / 512), (8, 2, m), (10, 1, 1)]))
      else if m < 2 ^ 14 then go (s.retireCore (m / 18) (m % 18))
      else go s

/-- Words corrected in DRAM ranks are counted (DRC_RANK.CE, Table 17.7). -/
def State.corrected (s : State) (l : List (Nat × Nat)) : State :=
  l.foldl (fun s e => s.setRank e.1 fun k => { k with ce := satAdd 32 k.ce e.2 }) s

/-- SCRUB_PASS (R476): the counts of firmware's passes (Table 19.11, Table 17.7); an uncorrectable word of hamlet data is rewritten as
poisoned (R473). -/
def execScrubPass (x : ScrubPassRes) (s : State) : Res' :=
  if x.byRank.any fun e => e.1 ≥ 36 then .fault .noSuchPart
  else
    let s := x.shares.foldl (fun s p => s.setJob p.job fun j => { j with sharePoison := (p.hamlet, p.word) :: j.sharePoison }) s
    go { s.corrected x.byRank with edc := { s.edc with
    ce := satAdd 64 s.edc.ce (x.ce1 + x.ce2), ue := satAdd 64 s.edc.ue x.ue
    passBell := if x.dramEnd then s.bell.now else s.edc.passBell } }

/-- SCRUB_COMPLETE (R477, Table 17.6): the summary and DONE. The words of a DRAM range corrected with one bit in error are counted at
its rank; those with two are hard-faulty, and their REMAP counts them (R478). -/
def execScrubComplete (x : ScrubSum) (s : State) : Res' :=
  if !s.edc.busy then go s
  else
    let cap := fun (n : Nat) => min n 0xFFFFFFFF
    let sum : List W64 := [BitVec.ofNat 64 (cap x.ce1 + cap x.ce2 * 2 ^ 32), BitVec.ofNat 64 (cap x.ue + cap x.remapped * 2 ^ 32),
      BitVec.ofNat 64 (x.first % 2 ^ 48 + x.firstClass % 4 * 2 ^ 48), BitVec.ofNat 64 s.bell.now]
    let a := s.edc.start
    let s := if wbits a 47 44 = 0 then s.corrected [(wbits a 43 40 * 3 + wbits a 35 34, x.ce1)] else s
    go { s with edc := { s.edc with busy := false, fin := true, sum := sum } }

end Sys2Proof.Machine
end

