-- ==== Sys2Proof/Machine/LoftEv.lean ====
section
/-! DEFINITION. The loft (chapter 18): word program, sector erase and its abort, patrol and remaps, and what an image bank holds
(R549, R550). -/

namespace Sys2Proof.Machine

/-! ### Words -/

/-- The bank of a sector (Table 18.1): 0 A, 1 B, 2 K. -/
def loftBank (k : Nat) : Nat := if k < 4096 then 0 else if k < 8192 then 1 else 2

/-- The 80 bits at a word of a sector, and its 64-bit value (R485). -/
def State.loftBits (s : State) (k w : Nat) : BitVec 80 := s.loft.bits k w
def State.loftValue (s : State) (k w : Nat) : Option W64 := s.loft.value k w

/-- A sector that reads erased. -/
def State.clearSector (s : State) (k : Nat) : State :=
  s.setLoft fun l => { l with words := keep (fun i _ => i / 512 ≠ k) l.words }

/-! ### Images (R549, R550) -/

/-- `n` bytes of an image bank from byte `k`, none where a word is not readable. -/
def State.bankBytes (s : State) (bankB : Bool) (k n : Nat) : Option Bytes :=
  let w := fun i => s.loftValue (4096 * b01 bankB + i / 512) (i % 512)
  (((List.range ((k % 8 + n + 7) / 8)).mapM fun i => w (k / 8 + i)).map fun (vs : List W64) =>
    slice (vs.flatMap fun v => toLe v.toNat 8) (k % 8) n)

/-- The image of a bank as its header, body and signature give it (Table 21.6). -/
def State.judgeBank (s : State) (bankB : Bool) : Image :=
  match s.bankBytes bankB 0 4096 with
  | none => Image.none
  | some h =>
    let n := le h 12 4
    let pub := slice h 48 60
    if le h 0 4 ≠ 0x474D494A || byteAt h 4 ≠ 1 || byteAt h 5 > 64 || n % 4096 ≠ 0 || n > 16777216 - 4096 - 8192 then Image.none
    else match s.bankBytes bankB 4096 n, s.bankBytes bankB (4096 + n) 8192 with
      | some body, some rest =>
        match hssLen pub rest with
        | none => Image.none
        | some m =>
          { ok := rootTrusts s.life.root pub && decide (sha256 body = slice h 16 32) &&
              hssVerifies pub (slice h 0 128 ++ body) (slice rest 0 m)
            svn := byteAt h 5, version := le h 8 4, hash := slice h 16 32 }
      | _, _ => Image.none

/-- After a change in a sector: an image bank is judged afresh; whether provisioning verifies after a write to K:0–7 is free. -/
def State.rejudge (s : State) (k : Nat) : State :=
  if k < 4096 then s.setLoft fun l => { l with imgA := s.judgeBank false }
  else if k < 8192 then s.setLoft fun l => { l with imgB := s.judgeBank true }
  else if k < 8200 then
    let (v, s) := s.draw
    { s with life := { s.life with provisioned := decide (v % 2 = 1) } }
  else s

/-- Whether an image verifies: R549, with SVN at or above the floor (R550). -/
def State.verifies (s : State) (g : Image) : Bool := g.ok && decide (s.life.floor ≤ g.svn)

/-! ### Remaps (R498, R499) -/

/-- A word as a remap copies it: corrected; an uncorrectable word is written as poisoned (R473). -/
def copied80 (b : BitVec 80) : BitVec 80 :=
  match loftDecode b with
  | .erased => erased80
  | .value v tag _ => word80 v tag
  | .bad => word80 0 true

/-- The sector goes to a spare of its bank (R498), recorded in the error history, with the event LOFT_REMAP; with no spare left
it stays in use, or leaves its log (R499). The count of erases of the spare begins at its own. -/
def State.loftRemap (s : State) (k : Nat) : State :=
  let b := loftBank k
  if s.loftLeft b = 0 then
    s.setLoft fun l => if logSector k then l.leave k else { l with stuck := l.stuck.insert k }
  else
    let ws := (List.range 512).map fun w => copied80 (s.loftBits k w)
    let s := (s.putWords k ws).setLoft fun l => { l with
      used := adjD l.used 0 b (· + 1), remapped := k :: l.remapped, erases := put l.erases k 1 }
    let s := s.loftRecord 312 recRemapped (record 16 [(0, 2, k), (2, 1, s.loftLeft b), (8, 8, s.bell.now)])
    s.event 0x0061 0 0 [(32, 2, k), (34, 1, s.loftLeft b)]

/-- Counts an erase of a sector (R497): LOFT_WEAR once at 90 million; a remap at 100 million (R498). -/
def State.countErase (s : State) (k : Nat) : State :=
  let n := lookD s.loft.erases 0 k + 1
  let s := s.setLoft fun l => { l with erases := put l.erases k n }
  let s := if n ≥ 90000000 && !s.loft.wearSeen then
      (s.setLoft fun l => { l with wearSeen := true }).event 0x0060 1 0 [(32, 2, k)]
    else s
  if n ≥ 100000000 then s.loftRemap k else s

/-- Whether a sector must be remapped (R498): a word corrected with two bits, an uncorrectable word, or 100 million erases. -/
def State.loftFails (s : State) (k : Nat) : Bool :=
  lookD s.loft.erases 0 k ≥ 100000000 || (List.range 512).any fun w => match loftDecode (s.loftBits k w) with
    | .erased => false
    | .value _ _ n => n = 2
    | .bad => true

/-! ### Operations -/

def State.loftEnds (s : State) (r : LoftRes) : State := s.setLoft fun l => { l with last := r }

/-- A program or erase of a protected sector is refused and counted (R489). -/
def State.loftRefused (s : State) : State :=
  s.setLoft fun l => { l with wpViol := satAdd 16 l.wpViol 1, last := .protected_ }

/-- Programs one word (R486): the AND of the old 80 bits and the encoding; a read-back that differs is PROGRAM_MISMATCH, and
into an erased word it remaps the sector (R498). -/
def State.programWord (s : State) (k w : Nat) (v : W64) : State :=
  let old := s.loftBits k w
  let new := old &&& word80 v false
  let s := s.setLoft fun l => { l with words := put l.words (k * 512 + w) new }
  let s := if loftDecode new = .value v false 0 || (match loftDecode new with
      | .value x tag _ => x = v && !tag
      | .erased => v = 0xFFFFFFFFFFFFFFFF
      | .bad => false) then s.loftEnds .ok
    else
      let s := s.loftEnds .programMismatch
      if loftDecode old = .erased then s.loftRemap k else s
  s.rejudge k

/-- LOFT_WORD_PROGRAM (R486): refused on a busy bank (R487) and on a protected sector (R489). -/
def execLoftWordProgram (k w : Nat) (v : W64) (s : State) : Res' :=
  if !(k < 8704 && w < 512) then .fault .noSuchPart
  else if !s.pwr.on then go s
  else if (look s.loft.busy (loftBank k)).isSome then go (s.loftEnds .loftBusy)
  else if !s.loft.clear.contains k then go s.loftRefused
  else go (s.programWord k w v)

/-- An erase ends (R484, R498): its records are gone, every bit of the sector is 1, or its verify fails and the sector is remapped; with no spare it
keeps what nothing constrains. What waited for the bank is written (R487). -/
def State.eraseEnds (s : State) (k : Nat) (ok : Bool) : State :=
  let s := s.setLoft fun l => { l with busy := del l.busy (loftBank k) }
  let s := if logSector k then s.setLoft fun l => { l.forget k with eraseQ := l.eraseQ.filter (· ≠ k) } else s
  let s := if ok then ((s.clearSector k).loftEnds .ok).countErase k
    else
      let s := ((s.tearSector k).loftEnds .eraseFailed).countErase k
      let s := s.loftRemap k
      if s.loft.gone.contains k || s.loft.stuck.contains k then s else s.clearSector k
  s.flushLoft.rejudge k

/-- LOFT_SECTOR_ERASE (R484): begins the erase on an idle bank; on the bank that runs it, its end (notes/assumptions/33.md).
Refused as R487 and R489 say. -/
def execLoftSectorErase (k : Nat) (ok : Bool) (s : State) : Res' :=
  if !(k < 8704) then .fault .noSuchPart
  else if !s.pwr.on then go s
  else match look s.loft.busy (loftBank k) with
    | some j => if j = k then go (s.eraseEnds k ok) else go (s.loftEnds .loftBusy)
    | none =>
      if !s.loft.clear.contains k then go s.loftRefused
      else go (s.setLoft fun l => { l with busy := put l.busy (loftBank k) k })

/-- LOFT_ERASE_ABORT (R488). -/
def execLoftEraseAbort (b : Nat) (s : State) : Res' := if !(b < 3) then .fault .noSuchPart else go (s.abortErase b).flushLoft

/-- Every running erase is aborted: at a power loss and at a module reset (Table 18.2). -/
def State.abortErases (s : State) : State := [0, 1, 2].foldl State.abortErase s

/-- LOFT_PATROL (R498): firmware reads the sector's words; a read of a busy bank returns nothing (R487). -/
def execLoftPatrol (k : Nat) (s : State) : Res' :=
  if !(k < 8704) then .fault .noSuchPart
  else if !s.boot.ready || (look s.loft.busy (loftBank k)).isSome || s.loft.gone.contains k || s.loft.stuck.contains k then go s
  else if s.loftFails k then go (s.loftRemap k)
  else go s

/-! ### Download (R500) -/

/-- One sector of a download: erased, programmed, and judged by its count of erases; none where it cannot be remapped (R499). -/
def State.downloadSector (s : State) (k : Nat) (b : Bytes) : Option State :=
  let s := (s.clearSector k).countErase k
  if s.loft.stuck.contains k then none
  else some (s.putWords k ((List.range 512).map fun w => word80 (BitVec.ofNat 64 (le b (8 * w) 8)) false))

/-- The sectors of a download in ascending order; whether every one was written. -/
def State.downloadAll (s : State) (k : Nat) (b : Bytes) : Nat → State × Bool
  | 0 => (s, true)
  | n + 1 => match s.downloadSector k (slice b 0 4096) with
    | none => (s, false)
    | some s => s.downloadAll (k + 1) (b.drop 4096) n

end Sys2Proof.Machine
end

