-- ==== Sys2Proof/Machine/Restore.lean ====
section
/-! DEFINITION. The cellar restore of a boot (R325 to R328): maps from checkpoint and journal, incomplete rows, partial program units, and
a start from the last checkpoint where the dump never completed. -/

namespace Sys2Proof.Machine

/-! ### Maps -/

/-- The maps stand as given (R325 step 1). -/
def State.loadMaps (s : State) (m : Maps) : State :=
  { s with zones := m.zones, rand := m.rand }.setMedia fun x => { x with
    slots := m.slots, raSlots := m.raSlots, streams := m.streams, bmap := m.bmap, members := m.members, noted := m }

/-- The maps of the last complete checkpoint, with the dumped journal replayed and then what this boot itself has changed (R285, R325). -/
def State.replayMaps (s : State) (recs : List JRec) : State :=
  let s := s.noteMaps
  let all := recs ++ s.media.recs
  (s.loadMaps (all.foldl Maps.replay s.media.saved.maps)).setMedia fun m => { m with recs := all }

/-! ### Rows -/

/-- ROW_LOST for the units of one lost share (R328): of a zone, or of the random area, by holding. -/
def State.rowLost (s : State) (n o : Nat) : State :=
  let s := s.loseUnits n o 64
  let ev := fun (s : State) (h z a k : Nat) => s.event 0x0025 3 0 [(32, 2, h), (36, 4, z), (40, 4, a), (44, 4, k)]
  match s.slotUse n with
  | .bound z => ev s (zoneHold z) (zoneIdx z) o 64
  | _ =>
    let us := (s.rand.filter fun e => e.2.slot = n && decide (o ≤ e.2.off) && decide (e.2.off < o + 64)).map (·.1)
    ((us.map (· / 2 ^ 26)).eraseDups).foldl (fun s h =>
      let mine := us.filter fun k => k / 2 ^ 26 = h
      ev s h 0xFFFFFFFF (mine.headD 0 % 2 ^ 26) mine.length) s

/-- Whether data share `d` of a row stands on flash: programmed before, or one of the dump's home programs (R324, R325). -/
def State.standing (s : State) (homes : List (Nat × Nat × Nat)) (n r d : Nat) : Bool :=
  let m := s.mem (slotWard n) (slotRow n) (shareMember r d)
  let g := s.group m.die (slotIdx n)
  m.takes (slotIdx n) && !(s.die m.die).failed && ((!g.dirty && decide (r < g.prog)) || homes.contains (dieNo m.die, slotIdx n, r))

/-- One incomplete row at a restore (R325 step 3): its data shares are read, one that cannot be is the XOR of its guard and the
others (R314), and the running parity is formed anew. Two that cannot be read are lost (R328); so is one with no guard. -/
def State.restoreRow (s : State) (guards : Option (Tab Bytes)) (homes : List (Nat × Nat × Nat)) (bad : List Nat) (n r : Nat) : State :=
  let all := List.range (min 32 ((s.fillOf n - r * 2048) / 64))
  let lost := all.filter fun d => bad.contains d || !s.standing homes n r d
  if lost.length ≥ 2 || (guards.isNone && !lost.isEmpty) then lost.foldl (fun s d => s.rowLost n (shareOff r d 0)) s
  else
    let ok := all.filter fun d => !lost.contains d
    s.setMedia fun m => { m with parity := (List.range 64).foldl (fun t u =>
      let known := ok.map fun d => (d, s.bytesAt n (shareOff r d u))
      let guard := lookD (guards.getD []) (List.replicate protectedLen 0) ((n * 512 + r) * 64 + u)
      let shares := known ++ lost.map fun d => (d, xorAll (guard :: known.map (·.2)))
      let par := shares.foldl (fun p e => addShare e.1 e.2 p) []
      par.zipIdx.foldl (fun t e => put t (parityNo n r u e.2) e.1) t) m.parity }

/-- A unit stands at offset `o` of a slot once more, as the map names the slot. -/
def State.putUnit (s : State) (n o : Nat) (u : StUnit) : State :=
  match s.slotUse n with
  | .bound z => { s with units := put s.units (unitNo z o) u }
  | .held _ _ => { s with units := put s.units (unitNo (heldZone n) o) u }
  | _ => s.setMedia fun m => { m with cells := put m.cells (unitNo n o) u }

/-- What stood in staging alone is gone with the DRAM (Table 11.4): partial program units, running parity, the maps' journal. -/
def State.loseDram (s : State) : State :=
  let parts := s.partials
  let rows := s.openRows
  let gone := fun n o => parts.any fun p => p.1 = n && decide (p.2.1 ≤ o) && decide (o < p.2.1 + p.2.2)
  { s with units := keep (fun k _ => match (s.zone (k / 2 ^ 20)).slot with
      | some n => !gone n (k % 2 ^ 20)
      | none => true) s.units }.setMedia fun m => { m with
    cells := keep (fun k _ => !gone (k / 2 ^ 20) (k % 2 ^ 20)) m.cells
    parity := keep (fun k _ => !rows.contains (k / 131072, k / 256 % 512)) m.parity
    recs := [], copies := [] }

/-! ### The dump -/

/-- The newest dump not released (R325, R328). -/
def State.openDump (s : State) : Option Dump :=
  (s.pwr.dumps.filter fun d => !d.released).foldl (fun b d => match b with
    | some x => if x.seq < d.seq then some d else some x
    | none => some d) none

/-- The units that stand in staging: partial program units and complete ones whose program waits (R234). -/
def State.stagedNow (s : State) : Nat := s.partialUnits + s.media.work.foldl (fun n w => n + w.units) 0

/-- One item of a dump comes back (R325 steps 2 and 4). -/
def State.restoreItem (s : State) : DumpItem → State
  | .part n o us => us.zipIdx.foldl (fun s e => s.putUnit n (o + e.2) e.1) s
  | .guards _ _ => s
  | .journal k _ => s.setMedia fun m => { m with journal := k }
  | .moduleState l _ sh => { s with ledger := l + 2 ^ 32, sieve := { s.sieve with shadow := sh, arr := sh } }

/-- The records of the journal in a dump. -/
def Dump.recs (d : Dump) : List JRec := d.items.flatMap fun i => match i with
  | .journal _ r => r
  | _ => []

/-- The checkpoint of restore (R325 step 6, R327): its programs run once no condition of R316 holds, else after READY; it releases the dump. -/
def State.restoreCkpt (s : State) : State :=
  let s := s.ckptBegin 5
  if s.inhibit 0 0 true ≠ 0 then s
  else
    let ws := s.media.work.filter fun w => w.why = .ckpt
    (ws.foldl (fun s w => (s.setMedia fun m => { m with work := m.work.erase w }).programDone w.die w) s).ckptComplete s.bell.now

/-- Restore from a complete dump (R325, R326): the maps, the ledger count and the shadows, the partial program units, the running parity of each
incomplete row, then a checkpoint. -/
def State.restoreDump (s : State) (d : Dump) (bad : List (Nat × Nat × Nat)) : State :=
  let s := d.items.foldl State.restoreItem (s.replayMaps d.recs)
  let s := s.openRows.foldl (fun s x =>
    s.restoreRow (some d.guards) d.homes ((bad.filter fun b => b.1 = x.1 && b.2.1 = x.2).map (·.2.2)) x.1 x.2) s
  let partials := s.partialUnits
  { s with staged := s.stagedNow, boot := { s.boot with restored := decide (partials > 0) } }.restoreCkpt

/-! ### A start from the last checkpoint (R328; what a state not on flash becomes is the model's choice, notes/assumptions/93.md) -/

/-- Whether program unit `pu` of a slot stands on flash, or its member has none. -/
def State.onFlash (s : State) (n pu : Nat) : Bool :=
  let m := (s.puMem n pu).2
  let g := s.group m.die (slotIdx n)
  !m.takes (slotIdx n) || (!g.dirty && decide (pu / 32 < g.prog))

/-- The first program unit of the first `k` of a slot that is not on flash, else `k`. -/
def State.flashEnd (s : State) (n k : Nat) : Nat := ((List.range k).find? fun pu => !s.onFlash n pu).getD k

/-- How much of `wp` units of a slot is left once the staging is gone; a parked partial state is not. -/
def State.leftOf (s : State) (n wp : Nat) (parked : Bool) : Nat :=
  let a := s.flashEnd n (wp / 64)
  if a = wp / 64 && (parked || wp % 64 = 0) then wp else 64 * a

/-- A block group programmed beyond the `fill` units that are left of its slot is relocated with the word lines that count (R260, R293). -/
def State.rewind (s : State) (n fill : Nat) : State :=
  let r := fill / 2048
  (List.range 36).foldl (fun s i =>
    let d := (s.mem (slotWard n) (slotRow n) i).die
    let k := slotIdx n
    let lines := r + b01 ((parityOf r i).isNone && symbolOf r i < fill % 2048 / 64)
    if (s.group d k).dirty || (s.group d k).prog ≤ lines || s.moving d k then s
    else match s.drawFour d true with
      | some (fresh, s) => s.setMedia fun m => { m with moves := m.moves ++ [⟨d, k, fresh, [], lines, 0, 0⟩] }
      | none => s.noSource d k) s

/-- Complete rows of a slot whose parity is not on flash: it is formed anew and programmed (R265). -/
def State.reparity (s : State) (n fill : Nat) : State :=
  ((List.range (fill / 2048)).filter fun r => (List.range 4).any fun j =>
    let m := s.mem (slotWard n) (slotRow n) ((firstParity r + j) % 36)
    m.takes (slotIdx n) && decide ((s.group m.die (slotIdx n)).prog ≤ r)).foldl (fun s r =>
      (s.restoreRow none [] [] n r).queueParity n r 0) s

/-- A bound slot, or one of the random area, from what is on flash: its complete rows get their parity, its incomplete row its running parity,
and blocks that hold more are rewound. -/
def State.refit (s : State) (n fill : Nat) : State :=
  let s := (s.reparity n fill).rewind n fill
  if fill % 2048 = 0 then s else s.restoreRow none [] [] n (fill / 2048)

/-- A zone of the checkpoint from what is on flash: its write pointer falls to where that ends; of a FULL one, what is missing is lost. -/
def State.refitZone (s : State) (k : Nat) : State :=
  let z := s.zone k
  match z.slot with
  | none => s
  | some n =>
    if z.st = .full then
      let lost := (List.range 16384).filter fun pu => !s.onFlash n pu
      (lost.foldl (fun s pu => s.rowLost n (64 * pu)) s).reparity n (2 ^ 20)
    else
      let a := s.leftOf n z.wp (match z.park with
        | .parked _ => true
        | _ => false)
      ({ s.setZone k fun z => { z with wp := a } with
        units := keep (fun u _ => !(u / 2 ^ 20 = k && decide (u % 2 ^ 20 ≥ a))) s.units }).refit n a

/-- A random-area slot of the checkpoint from what is on flash. -/
def State.refitRand (s : State) (n : Nat) (x : RaSlot) : State :=
  let parked := match x.stream with
    | some st => s.media.raParked.contains (slotWard n * 16 + st)
    | none => false
  let a := s.leftOf n x.fill parked
  let s := { s with rand := keep (fun _ u => !(u.slot = n && decide (u.off ≥ a))) s.rand }.setMedia fun m => { m with
    raSlots := put m.raSlots n { x with fill := a }
    streams := match x.stream with
      | some st => put m.streams (slotWard n * 16 + st) (n, a)
      | none => m.streams
    cells := keep (fun c _ => !(c / 2 ^ 20 = n && decide (c % 2 ^ 20 ≥ a))) m.cells }
  s.refit n a

/-- The module starts from the last complete checkpoint (R328): its maps, with the members and blocks that this boot has changed; blocks queued
for erase since it began hold its data; blocks swapped in since, and slots filled since, are erased. -/
def State.fromCheckpoint (s : State) : State :=
  let s := s.noteMaps
  let v := s.media.saved
  let mine := s.media.recs.filter fun r => match r with
    | .member _ _ | .block _ _ => true
    | _ => false
  let maps := mine.foldl Maps.replay { v.maps with
    zones := (mapV (fun _ z => { z with fence := none }) v.maps.zones).filter fun e => e.2 ≠ Zone.fresh
    members := mapV (fun _ m => { m with cursor := none, lineLeft := 0 }) v.maps.members }
  let swapped := s.media.bmap.filter fun e => decide (look maps.bmap e.1 ≠ some e.2)
  let back := s.media.erasq
  let s := (s.loadMaps maps).setMedia fun m => { m with
    recs := [], cells := v.cells, parity := v.parity, raParked := v.raParked, parking := v.parking, journal := 0
    work := m.work.filter fun w => w.units = 0, moves := [], erasq := []
    oldBlocks := swapped.map fun e => (dieOf (e.1 / 16384), [(e.1 / 4096 % 4, e.2)], m.begun) }
  let s := { s with units := v.units, ledger := v.ledger + 2 ^ 32, sieve := { s.sieve with shadow := [], arr := [] } }
  let s := back.foldl (fun s e => s.setGroup e.1 e.2.1 fun g => { g with dirty := false }) s
  let s := (s.media.members.filter fun e => (s.die e.2.die).failed && !e.2.failed).foldl
    (fun s e => s.nameSpare (e.1 / 36 / 26) (e.1 / 36 % 26) (e.1 % 36)) s
  let idle := ((s.media.groups.filter fun e => decide (e.2.prog > 0) && !e.2.dirty).filterMap fun e =>
    match s.memberOf (dieOf (e.1 / 4096)) with
    | some (a, b, _) => if s.slotUse (slotNo a b (e.1 % 4096)) = .free then some (slotNo a b (e.1 % 4096)) else none
    | none => none).eraseDups
  let s := idle.foldl State.queueErase s
  let s := ((s.zones.filter fun e => e.2.slot.isSome).map (·.1)).foldl State.refitZone s
  s.media.raSlots.foldl (fun s e => s.refitRand e.1 e.2) s

/-- Restore (R325, R327, R328): from the newest dump not released; one that never completed is DUMP_LOST. -/
def State.restore (s : State) (e : BootEnv) : State :=
  let s := { s with pwr := { s.pwr with usable := e.usable } }
  match s.openDump with
  | none => s
  | some d =>
    if d.complete && e.manifestOk then s.restoreDump d e.badShares
    else
      let s := s.fromCheckpoint
      ({ s with staged := s.stagedNow }.event 0x0026 3 0 [(32, 8, d.seq)]).releaseDumps

end Sys2Proof.Machine
end

