-- ==== Sys2Proof/Machine/Boot.lean ====
section
/-! DEFINITION. A boot (chapter 22): what a module reset does first (R188), what every boot clears, the steps of Table 22.1, the
off-time check (R333), READY (R562). -/

namespace Sys2Proof.Machine

/-! ### Before the boot -/

/-- Die operations as the module stops (R320, R321): programs run to their end; an erase is stopped and its block stays queued. -/
def State.settleDie (s : State) (d : DieId) : State :=
  match (s.die d).op with
  | none => s
  | some o => match o.work.act with
    | .program => s.programDone d o.work
    | .erase => (s.setDie d fun x => { x with op := none }).setMedia fun m => { m with work := m.work ++ [o.work] }
    | .read => s.setDie d fun x => { x with op := none }

def State.settleDies (s : State) : State :=
  ((s.media.dies.filter fun e => e.2.op.isSome).map fun e => dieOf e.1).foldl State.settleDie s

/-- Every job ends with its cores, memory and reads; its command is not completed here. -/
def State.dropJobs (s : State) : State := (s.jobs.map (·.1)).foldl State.removeJob s

/-- The clock, its cell (R332) and the powered time as the bells of a boot end (R37, R329). -/
def State.stopBells (s : State) : State :=
  { s with
    clk := { s.clk with base := s.calendar, baseNs := 0, cellNs := s.cellCharge }
    pwr := { s.pwr with powered := s.poweredNs }
    bell := { s.bell with now := 0 } }

/-- A piece of a stopped job's output reaches its output zone (R339, R363). -/
def State.appendRest (s : State) (j : Nat) : State :=
  match execOutputAppend j s with
  | .next s' => s'
  | _ => s

/-- A job at a module reset (R188, R338, R339): a RUNNING one is STOPPED, its output delivered, and completes with SUCCESS; any
other is left to its command. -/
def State.stopJob (s : State) (j : Nat) : State :=
  match look s.jobs j with
  | none => s
  | some x =>
    if x.st = .running then
      let s := (s.stopItems j).setJob j fun x => { x with stopped := true }
      let s := ((s.appendRest j).appendRest j).deliver j
      let s := s.setJob j fun x => { x with delivered := x.sent }
      s.endJob j { status := SUCCESS }
    else s.removeJob j

/-- RESULT of a command past its decision point that a module reset completes: the bell of a QUIESCE FUNCTION, the entries a RESTART RING
with DISCARD has discarded (R178). -/
def State.decidedResult (s : State) (r : Ref) (c : Cmd) : Nat :=
  if c.opcode = 0x49 then s.bell.now
  else ((s.sqs.filter fun e => e.1 / 1024 = r.fn).flatMap fun e => e.2.discard.filterMap fun d =>
    if d.2.2.1 = r.sq && d.2.2.2 = r.tag then some d.2.1 else none).headD 0

/-- The completion of an outstanding command at a module reset (R188): SUCCESS past its decision point, else MODULE_RESET. -/
def State.resetCmd (s : State) (r : Ref) : State :=
  match s.cmd r with
  | none => s
  | some c =>
    if c.point = .decided || c.aborted then
      match c.ending with
      | some d => s.complete r d
      | none => s.complete r { status := SUCCESS, ledger := c.ledger, result := BitVec.ofNat 64 (s.decidedResult r c) }
    else (s.dropWork r).complete r { status := MODULE_RESET }

/-- Every outstanding command, in ring order. -/
def State.allCmds (s : State) : List Ref :=
  s.sqs.flatMap fun e => e.2.cmds.map fun c => Ref.mk (e.1 / 1024) (e.1 % 1024) c.tag

/-- The completions of R188, and what a module reset stops: jobs, aborts that wait, erases of the loft (Table 18.2), programs and
erases of the dies, an activation (R568), a media erase (R544). An ABORT completes after its target (R167), with the ledger number it
took (R157). -/
def State.resetBegins (s : State) : State :=
  let s := (s.jobs.map (·.1)).foldl State.stopJob s
  let s := s.postDue
  let waits := s.aborts
  let s := (s.allCmds.filter fun r => !waits.any fun a => a.r = r).foldl State.resetCmd s
  let s := waits.foldl (fun s a => s.complete a.r { status := a.status, ledger := (s.cmd a.r).bind (·.ledger) }) s
  (s.settleDies.abortErases.dropJobs).stopBells

/-! ### What every boot clears -/

/-- A function as a boot leaves it (R99, R107, R527, R576): a tenant QUIESCED, a manager ACTIVE, queue pairs in RESET, buckets
full, no declaration, no cursor. -/
def Fn.boot (f : Nat) (cold : Bool) (period : Nat) (g : Fn) : Fn :=
  if g.state = .absent then { g with logSel := 0 }
  else { g with
    state := if isManager f then .active else .quiesced
    quietAt := 0, logSel := 0, dbStale := 0, pollDefer := 0, cqHeadBad := 0, eff := g.res
    qp := keep (fun _ w => w ≠ qpReset) (mapV (fun _ w => withQpState w .reset) g.qp)
    qpTries := [], cc := [], tol := 0
    buckets := (List.range 4).map fun i => ((64 * bucketGain g.res period i : Nat) : Int)
    cursors := [], faults := if cold then [] else g.faults, knocked := false, knockDue := false
    polling := [], left := [], polled := [], rr := 0, served := none }

/-- A port as a boot leaves it: OFF, its RW registers kept (R576). -/
def Port.boot (q : Port) : Port := { Port.fresh with regs := q.regs, optic := q.optic }

/-- A bell generator at bell 0 of a boot, at the period last written (R35, R37). -/
def Bell.atBoot (b : Bell) : Bell := { Bell.fresh with period := b.period, active := b.period, boot := b.boot, inputMv := b.inputMv }

/-- Rings as a boot leaves them: notification attributes in force (R122), every ring reset (R129). -/
def State.bootRings (s : State) : State :=
  let attr := fun (k : Cq) => match k.attrNext with
    | some (n, c, b) => { k with notify := n, coCount := c, coBells := b, attrNext := none }
    | none => k
  let s := { s with cqs := mapV (fun _ k => attr k) s.cqs }
  let s := ((s.fns.filter fun e => e.2.state ≠ .absent).map (·.1)).foldl State.resetRings s
  { s with rdma := [], due := [], aborts := [], sqs := mapV (fun _ q => { q with activeFrom := 0, lastAdv := 0 }) s.sqs }

/-- Moves not made durable before a power loss (Table 10.2): the old copies stand, and the new blocks are erased for the pool. -/
def State.dropMoves (s : State) : State :=
  s.setMedia fun m => { m with
    moves := [], oldBlocks := m.oldBlocks ++ m.moves.map fun v => (v.die, v.fresh, m.begun) }

/-- A rebuild goes on at the first block group not recorded (R301): one that was partly filled is erased first. -/
def State.bootRebuilds (s : State) : State :=
  (s.media.members.filter fun e => e.2.cursor.isSome).foldl (fun s e =>
    let d := e.2.die
    let k := (e.2.cursor.map (·.1)).getD 0
    let s := s.setMem (e.1 / 36 / 26) (e.1 / 36 % 26) (e.1 % 36) fun m => { m with cursor := none, lineLeft := 0 }
    if (s.group d k).prog = 0 || (s.group d k).dirty then s
    else (s.setGroup d k fun g => { g with dirty := true }).setMedia fun m => { m with erasq := m.erasq ++ [(d, k, m.begun)] }) s

/-- Work that a boot plans anew: reads, checkpoints, parkings, copies and rebuilds. -/
def Work.volatile (w : Work) : Bool :=
  w.act = .read || (match w.why with
    | .ckpt | .park _ | .reloc | .rebuild => true
    | _ => false)

/-- A channel as a boot leaves it: no eyes, no transfer. -/
def Chan.boot (c : Chan) : Chan := { c with rdEye := 0, wrEye := 0, window := 0, busy := 0, centred := 0, due := false, trying := false }

/-- The media's volatile state: reads and plans, a running checkpoint (R285), parkings not complete (R603). -/
def State.bootMedia (s : State) (cold : Bool) : State :=
  let s := (if cold then s.dropMoves else s).bootRebuilds
  s.setMedia fun m => { m with
    slices := [], recons := [], ckpt := none, ckptBell := 0
    work := m.work.filter fun w => !w.volatile
    parking := keep (fun k _ => decide (2 ^ 40 ≤ k) && m.raParked.contains (k - 2 ^ 40)) m.parking
    chans := (mapV (fun _ c => c.boot) m.chans).filter fun e => e.2 ≠ Chan.fresh e.1 }

/-- Sieve at a boot (R440, R449, R452, R456): the written mode in force, spares for retiring rows, the array from its shadows. -/
def Sieve.boot (v : Sieve) : Sieve :=
  { v with
    active := v.mode, arr := v.shadow, repairs := 0, hist := [], retiring := []
    replaced := (v.replaced ++ v.retiring).eraseDups }

/-- Stream cores and hamlets at a boot: substitutions decided take place (R432), nothing is in service, memories filled (R475). -/
def State.bootCores (s : State) : State :=
  let s := s.substitute
  { s with
    cores := mapV (fun _ c => { c with ctx := none, slot := none, parked := [], lastFn := none, lm := [] }) s.cores
    hamlets := mapV (fun _ h => { h with used := 0, ready := [] }) s.hamlets
    disp := State.reset.disp }

/-- DRAM at a boot (R475, Table 17.3): after a power loss a rank that filled has no source any more; plain memory is filled. -/
def State.bootDram (s : State) (cold : Bool) : State :=
  let ranks := (s.dram.ranks.map fun e => (e.1, { e.2 with
    ce := 0, centred := none, rdEye := 0, wrEye := 0, partner := if cold then none else e.2.partner })).filter fun e =>
      e.2 ≠ Rank.fresh e.1
  { s with dram := { s.dram with
    ranks := ranks, wq := [], late := [], poison := [], detour := if cold then [] else s.dram.detour } }

/-- Migrations that a power loss ended (Table 17.3): the source is RETIRED, the spare ACTIVE, filled under R475. -/
def State.endMigrations (s : State) : State :=
  (List.range 36).foldl (fun s n => match (s.rank n).st with
    | .filling => if (s.rank n).partner.isNone then s.moveRank n .active else s
    | .draining => if (List.range 36).any fun k => (s.rank k).partner = some n then s else s.moveRank n .retired
    | _ => s) s

/-- The calendar as a boot finds it (Table 11.5): after a power loss LOCKED and HOLDOVER are SET, and a cell below its minimum
makes it INVALID; with no port UP a LOCKED calendar holds over. `t` is its time; the cell's reserve falls by the time
without power (R332). -/
def Clk.boot (c : Clk) (cold cellOk : Bool) (elapsed t : Int) : Clk :=
  { c with
    cellNs := c.cellNs - (elapsed * 1000000000 / calSec).toNat
    st := if cold && !cellOk then 0 else if c.st < 2 then c.st else if cold then 1 else 3
    base := t, baseNs := 0, syncs := 0, offset := 0, delay := 0 }

/-- The cell after a time in which PWR_DISABLE held the module off (R594): its input charged it, and the boot takes the same time off as
without power. -/
def Clk.fed (c : Clk) (elapsed : Int) : Clk :=
  let ns := (elapsed * 1000000000 / calSec).toNat
  { c with cellNs := min (180 * dayNs) (c.cellNs + 90 * ns) + ns }

/-- Events as a boot finds them (R518): after a power loss, those of classes 2 and 3 from the error history. -/
def State.bootEvents (s : State) (cold : Bool) : State :=
  if cold then
    let kept := (s.loft.valid 312).filter fun e => e.1.kind = recEvent
    let bySeq := kept.foldl (fun (t : Tab Bytes) e => put t (le e.2 8 8) e.2) []
    { s with events := (bySeq.drop (bySeq.length - 8192)).map (·.2), eventSeq := kept.foldl (fun n e => max n (le e.2 8 8)) 0 }
  else s

/-- The state at the start of a boot's step 2, before its tests: everything volatile at its reset value, every field of R576 and
of R99 kept; bell 0 is latched (R41). -/
def State.clearBoot (s : State) (cold : Bool) : State :=
  let s := ((s.bootCores.bootRings).bootMedia cold).bootDram cold
  let s := s.bootEvents cold
  let (c, s) := s.draw
  State.sampleTelem <| State.stamp { s with
    bell := s.bell.atBoot, err := SetupErr.clear
    boot := { State.reset.boot with step := 2, lastStop := s.boot.lastStop, stopLog := s.boot.stopLog, cold := cold }
    portA := s.portA.boot, portB := s.portB.boot
    net := { s.net with ptpInUse := .A, lastCnp := [], failover := [], adminDue := [] }
    fns := s.fns.map fun e => (e.1, e.2.boot e.1 cold (periodUs s.bell.period))
    sems := { s.sems with word := [], acq := [], last := [] }
    holds := mapV (fun _ h => { h with old := none }) s.holds
    zones := (mapV (fun _ z => { z with fence := none }) s.zones).filter fun e => e.2 ≠ Zone.fresh
    sieve := s.sieve.boot
    edc := State.reset.edc
    loft := { s.loft with clear := [], wpViol := 0, clrOpen := true, busy := [], waiting := [] }
    health := { s.health with alert := false, locate := false, attn := 0, hot := [], inhSince := [], inhRaised := [] }
    pwr := { s.pwr with
      on := true, cur := 0, waking := false, idleFrom := none, entering := false, entryCkpt := none, usable := 0, prevUsable := 0,
      measuring := false, coldDies := [], loss := none }
    life := { s.life with debugOpen := false, attLeft := 0, attAt := [], chal := c, erasing := none }
    tap := State.reset.tap, smbOff := 0, act := none, ledger := s.ledger + 2 ^ 32 }

/-! ### Steps 3 and 4 -/

/-- Sectors whose protect bits the boot ROM clears (Table 18.3). -/
def clearedSectors (st : LcState) (bankB : Bool) : List Nat :=
  match st with
  | .scrapped => []
  | .factory => List.range 8704
  | _ => ((List.range 4096).map fun k => k + 4096 * b01 (!bankB)) ++ (List.range 504).map fun k => k + 8200

/-- The bank to boot (R559), and whether it is the fallback; none when neither verifies. -/
def State.chooseBank (s : State) (bad : List Nat) : Option (Bool × Bool) :=
  let ok := fun b => s.verifies (s.loft.image b) && !bad.contains (b01 b)
  if ok s.loft.next then some (s.loft.next, false) else if ok (!s.loft.next) then some (!s.loft.next, true) else none

/-! ### Step 6 -/

/-- A rank fails training at start-up (Table 17.3): as a retrain that fails; with a spare at hand the spare is ACTIVE, filled
in step 7. -/
def State.rankUntrained (s : State) (n : Nat) : State :=
  match (s.rank n).st with
  | .retired => s
  | .spare => s.moveRank n .retired
  | .filling => s.rankFails n
  | _ => match s.spareOf n with
    | some k => ((s.moveRank n .retired).moveRank k .active).setRank k fun r => { r with partner := none }
    | none => (s.moveRank n .retired).loseRanks [n]

/-- Ranks fail at start-up, and with them a channel none of whose ranks is left (R470). -/
def State.dropRanks (s : State) (bad : List Nat) : State :=
  let lost := (List.range 12).filter fun c => !s.dram.chanOut.contains c && (List.range 3).all fun k =>
    bad.contains (3 * c + k) || (s.rank (3 * c + k)).st = .retired
  (bad.foldl State.rankUntrained s).setDram fun d => { d with chanOut := d.chanOut ++ lost }

/-- Training of every rank (R468): those that fail leave service; a rank that was RETRAINING and passes is ACTIVE. -/
def State.trainRanks (s : State) (bad : List Nat) (eye : Nat × Nat) : State :=
  let s := s.endMigrations.dropRanks bad
  let s := ((List.range 36).filter fun n => (s.rank n).st = .retraining).foldl (fun s n => s.moveRank n .active) s
  ((List.range 36).filter fun n => (s.rank n).st ≠ .retired).foldl
    (fun s n => s.setRank n fun r => { r with rdEye := min 255 eye.1, wrEye := min 255 eye.2 }) s

/-! ### Steps 9 to 11 -/

/-- A training attempt in which every position passes with the given eyes. -/
def goodTrain (eye : Nat × Nat) : Train := ⟨true, List.replicate 28 ⟨eye.1, eye.2, true⟩⟩

/-- Training of a channel at start-up (R269, R270, Table 9.4), up to three attempts: the given ones, then one that passes. -/
def State.trainChan (s : State) (n : Nat) (eye : Nat × Nat) : Nat → List Train → State
  | 0, _ => s
  | k + 1, ts =>
    let t := ts.headD (goodTrain eye)
    if s.trains n t then s.trained n t else (s.attemptFailed n).trainChan n eye k (ts.drop 1)

/-- Training of every channel (step 9); FAILED channels try again. -/
def State.trainChans (s : State) (cs : List (Nat × List Train)) (eye : Nat × Nat) : State :=
  (List.range 148).foldl (fun s n =>
    (s.setChan n fun c => { c with fails := 0 }).trainChan n eye 3 (((cs.find? fun e => e.1 = n).map (·.2)).getD [])) s

/-! ### Step 12 -/

/-- The last-up time (R333): the later of the shutdown record and the last heartbeat. -/
def State.lastUp (s : State) : Option Int := match s.pwr.lastBeat, s.pwr.lastShut with
  | some a, some b => some (max a b)
  | some a, none => some a
  | none, b => b

/-- Off-time outcome (Table 11.6): its row, and the off-time in 2^-32 s. -/
def State.offTime (s : State) : Nat × Int :=
  match s.lastUp with
  | none => (2, 0)
  | some t =>
    let d := s.calendar - t
    (if s.clk.st = 0 || d < -60 * calSec then 2 else if d > 21 * 86400 * calSec then 1 else 0, d)

/-- The off-time check (R333): OFF_TIME in the event log, and the scan of Table 11.6, over every block group in use. A scan that a boot
ended goes on. -/
def State.offTimeCheck (s : State) : State :=
  let (row, d) := s.offTime
  let left := s.scanLeft
  let all : Tab (Nat × Nat) := (s.media.groups.filter fun e => decide (e.2.prog > 0)).map fun e => (e.1, 0, e.2.prog)
  let kind := if left.isEmpty then row else max row s.pwr.scan
  ({ s with pwr := { s.pwr with scan := kind } }.setMedia fun m => { m with toScan := if row = 0 then left else all }).event 0x0055 0 0
    [(32, 1, row), (36, 8, ((d / calSec) % 2 ^ 64).toNat)]

/-! ### The first boot in RETURN (R543) -/

/-- The key store is zeroed, holdings and tenant functions go, sieve rows are deleted, SVE_CTRL is as delivered. -/
def State.returnBoot (s : State) : State :=
  if s.life.state ≠ .return_ then s
  else
    let s := s.zeroKeys fun _ => true
    let s := (s.holds.map (·.1)).foldl State.dropHolding s
    let s := ((s.fns.filter fun e => !isManager e.1 && e.2.state ≠ .absent).map (·.1)).foldl State.removeFn s
    { s with sieve := { s.sieve with mode := false, active := false, owner := 0, arr := [], shadow := [], segs := [] } }

/-- A record of the life-cycle journal (R542): state, counters, and the transition's ledger number. -/
def Life.journal (l : Life) (n : Nat) : Bytes :=
  record 16 [(0, 1, l.state.num), (1, 1, l.seals), (2, 1, l.returns), (3, 1, l.refurbs), (8, 8, n)]

/-- The journal record of the last transition is written at a boot that does not find it (R542). -/
def State.journalLife (s : State) : State :=
  let b := s.life.journal s.ledger
  if (s.loft.valid 200).any fun e => e.2.take 4 = b.take 4 then s else s.loftRecord 200 recLife b

/-! ### The boot -/

/-- The step at which a boot stops (Table 22.1), none where it reaches READY. -/
def State.stopStep (s : State) (e : BootEnv) : Option Nat :=
  if !e.romOk then some 2
  else if s.life.state = .scrapped then some 3
  else if (s.chooseBank e.bankBad).isNone then some 4
  else if !e.sramOk then some 5
  else if 12 - (s.trainRanks e.ranksBad e.rankEye).dram.chanOut.length < 6 then some 6
  else if 12 - ((s.trainRanks e.ranksBad e.rankEye).dropRanks e.fillBad).dram.chanOut.length < 6 then some 7
  else if e.coresOk < 12 then some 8
  else if !e.metaOk then some 10
  else none

/-- A boot that stops (R561): ports OFF, nothing fetched; the stop code goes to the error history. SCRAPPED is no failure: the
module is dead (R545). -/
def State.halt (s : State) (n : Nat) : State :=
  let s := { s with boot := { s.boot with step := n, halted := some n } }
  if n = 3 then { s with pwr := { s.pwr with on := false } }
  else
    let s := if n > 3 then match s.chooseBank [] with
        | some (b, _) => State.flushLoft { s with loft := { s.loft.atBoot with clear := clearedSectors s.life.state b, clrOpen := decide (n ≤ 8) } }
        | none => s
      else s
    { s with boot := { s.boot with stopLog := n } }.loftRecord 312 recStop (record 16 [(0, 1, n), (8, 4, s.bell.boot)])

/-- Whether an event of classes 1 to 3 was raised in this boot before READY (R562). -/
def State.heldEvents (s : State) : Bool :=
  s.events.any fun r => le r 20 4 = s.bell.boot && byteAt r 18 ≥ 1

/-- Step `n` of Table 22.1 begins, at its time (R37). -/
def State.enter (s : State) (e : BootEnv) (n : Nat) : State :=
  let s := s.comeTo (e.stepMs.getD (n - 2) 0 * 1000 / s.period)
  { s with boot := { s.boot with step := n } }

/-- Relocations under way go on, and parkings not complete are planned (R603). -/
def State.careGoesOn (s : State) : State := (s.media.moves.foldl (fun s v => s.copyLine v.die v.slot) s).replanParks

/-- TEMPERATURE (R600): the place and its temperature. -/
def State.tempEvent (s : State) (place : Nat) (t : Int) : State :=
  ({ s with health := { s.health with alert := true } }).event 0x0071 1 0 [(32, 1, place), (33, 1, (t % 256).toNat)]

/-- READY (R562): GLB_BOOT.READY, LAST_STOP, held events, FALLBACK's FIRMWARE event (R559), CELL_LOW (R332); media care goes on. -/
def State.reachReady (s : State) (e : BootEnv) : State :=
  let held := s.heldEvents
  let s := (s.comeTo (e.ms * 1000 / s.period)).sampleTelem
  let s := { s with
    boot := { s.boot with step := 14, ready := true, readyMs := e.ms, lastStop := s.boot.stopLog, stopLog := 0 } }
  let s := s.careGoesOn
  let s := if s.pwr.cause = 2 then ({ s with pwr := { s.pwr with cause := 0 } }).tempEvent 0 (s.health.temps.getD 0 0) else s
  let s := if s.boot.fallback then
      s.event 0x0070 1 0 [(32, 1, 1), (36, 4, (s.loft.image (!s.boot.bank)).version)]
    else s
  let s := if s.cellNow ≥ 30 then { s with health := { s.health with cellRaised := false } }
    else if s.health.cellRaised then s
    else ({ s with health := { s.health with cellRaised := true } }).event 0x0053 1 0 [(32, 2, s.cellNow)]
  if held && !s.bell.eventRaised then
    (({ s with bell := { s.bell with eventRaised := true } }).notify 0 0x30000000).notify 1 0x30000000
  else s

/-- The steps before step `k` of a boot (Table 22.1), each at its time, and the work of step `k` that can fail it. -/
def State.bootTo (s : State) (e : BootEnv) (k : Nat) : State :=
  let (b, fb) := (s.chooseBank e.bankBad).getD (false, false)
  let s := if k > 4 then State.flushLoft { s with
      boot := { s.boot with bank := b, running := b, fallback := fb }
      loft := { s.loft.atBoot with clear := clearedSectors s.life.state b } } else s
  let s := if k ≥ 6 then (s.enter e 6).trainRanks e.ranksBad e.rankEye else s
  let s := if k ≥ 7 then (s.enter e 7).dropRanks e.fillBad else s
  let s := if k > 7 then (List.range 6).foldl State.remirrorPair s else s
  let s := if k > 8 then { s.enter e 8 with
      loft := { s.loft with clrOpen := false }, ctlCores := min 16 e.coresOk, ctlSpares := e.coresOk - 16 } else s
  let s := if k > 9 then (s.enter e 9).trainChans e.chans e.eye else s
  s.enter e k

/-- The inlet is measured at power good (Table 24.9): below 0 °C is a condition of its own. -/
def State.inletAtBoot (s : State) (t : Int) : State :=
  let cold := s.boot.cold && decide (t < 0)
  let s := { s with health := { s.health with temps := [t] ++ s.health.temps.drop 1, hot := if cold then [3] else [] } }
  if cold then s.tempEvent 0 t else s

/-- Steps 2 to 14 of a boot whose volatile state stands cleared. -/
def State.runBoot (s : State) (e : BootEnv) : State :=
  let n := (s.bell.boot + 1) % 2 ^ 32
  let s := ({ s with bell := { s.bell with boot := n }, boot := { s.boot with held := false } }.enter e 2).loftRecord 232 recBoot
    (record 16 [(0, 4, n)])
  let s := s.inletAtBoot e.inletTemp
  match s.stopStep e with
  | some k => (s.bootTo e k).halt k
  | none =>
    let s := (((s.bootTo e 11).restore e).enter e 12).offTimeCheck.returnBoot.journalLife.enter e 13
    let s := e.sieveBad.foldl State.retireRow s
    let s := (((s.judgeOptic .A).judgeOptic .B).tryTrain .A).tryTrain .B
    s.reachReady e

/-- A boot from power good (R557): it holds at step 2 while RESET# is low (R593). -/
def State.bootCold (s : State) (e : BootEnv) : State :=
  let s := { s with clk := s.clk.boot true e.cellOk e.elapsed (s.calendar + e.elapsed) }.clearBoot true
  if s.pwr.reset then { s with boot := { s.boot with held := true } } else s.runBoot e

/-- A module reset (R188): completions, then a boot that begins at step 2. -/
def State.moduleReset (s : State) (e : BootEnv) : State :=
  let s := s.resetBegins
  let s := { s with clk := s.clk.boot false true 0 s.calendar }.clearBoot false
  if s.pwr.reset then { s with boot := { s.boot with held := true } } else s.runBoot e

/-- POWER_GOOD (R557, R591, R592, R594): the input has held in range; an asserted PWR_DISABLE, or a disconnect that power good does
not yet follow, keeps the module waiting. -/
def execPowerGood (e : BootEnv) (s : State) : Res' :=
  if !e.wf then .fault .noSuchPart
  else if s.pwr.on || !e.inputHeld || s.pwr.disable || s.pwr.latched then go s
  else go (s.bootCold e)

/-- RESET_ASSERT (R593, R595): a low of 100 µs is recognised; while PWR_DISABLE is asserted or the power-loss sequence runs it resets
nothing, and a boot that finds it still low holds at step 2. -/
def execResetAssert (us : Nat) (e : BootEnv) (s : State) : Res' :=
  if !e.wf then .fault .noSuchPart
  else if us < 100 || s.pwr.reset then go s
  else
    let s := { s with pwr := { s.pwr with reset := true } }
    if s.pwr.on && !s.pwr.disable && s.pwr.loss.isNone then go (s.moduleReset e) else go s

/-- RESET_RELEASE (R593): the held boot proceeds. -/
def execResetRelease (e : BootEnv) (s : State) : Res' :=
  if !e.wf then .fault .noSuchPart
  else
    let s := { s with pwr := { s.pwr with reset := false } }
    if s.boot.held && s.pwr.on then go (s.runBoot e) else go s

end Sys2Proof.Machine
end

