-- ==== Sys2Proof/Machine/AdminCmd.lean ====
section
/-! DEFINITION. Logs, power, time, firmware and life cycle as commands (R218, R224 to R228, R500, R539 to R545, R554, R555, R565 to
R568), the commit of a write (R156), a deferred start (R107), and the retirement of a control core (R512). -/

namespace Sys2Proof.Machine

/-! ### GET LOG (R218) -/

/-- The bytes of the log a GET LOG names (Table 7.10): the ring error log of four entries, unused ones zero; the event log; the
telemetry record of the last bell boundary (R521); the wear report. -/
def State.logBytes (s : State) (r : Ref) (c : Cmd) : Bytes :=
  match byteAt c.entry 4 with
  | 1 => slice ((((s.sq r.fn (le c.entry 6 2)).map (·.errlog)).getD []).flatten) 0 256
  | 2 => s.events.flatten
  | 3 => s.health.telem
  | _ => s.wearReport

/-- GET LOG (R218): up to LENGTH bytes from OFFSET; RESULT is the number written. -/
def State.doGetLog (s : State) (r : Ref) (c : Cmd) : State :=
  let b := ((s.logBytes r c).drop (le c.entry 8 4)).take (le c.entry 12 4)
  ((s.begin_ r .decided).sendOut r 0 b).complete r { status := SUCCESS, result := BitVec.ofNat 64 b.length }

def execGetLog (r : Ref) (s : State) : Res' :=
  s.start r 0x38 fun c => s.doGetLog r c

/-! ### SET LATENCY TOLERANCE (R224, R529) -/

/-- SET LATENCY TOLERANCE: commits at once; completes once the module is in a state the effective tolerance admits, waking for it
if it must (R529, R532). -/
def State.doTolerance (s : State) (r : Ref) (c : Cmd) : State :=
  s.govern r [] fun s =>
    let s := s.setFn r.fn fun g => { g with tol := le c.entry 8 4 }
    if s.admits s.pwr.cur then s.ended r 0
    else { s with pwr := { s.pwr with waking := true, entering := false, idleFrom := none } }

def execSetLatencyTolerance (r : Ref) (s : State) : Res' :=
  s.start r 0x43 fun c => s.doTolerance r c

/-! ### SET CALENDAR (R225, R330) -/

/-- SET CALENDAR: refused while LOCKED (Table 11.5); else the time is set and the calendar is SET. -/
def State.doCalendar (s : State) (r : Ref) (c : Cmd) : State :=
  s.govern r [(s.clk.st = 2, NOT_PERMITTED, 0xFFFF)] fun s =>
    let s := s.setClock ((le c.entry 8 8 : Int) * 2 ^ 32 + (le c.entry 16 4 : Int))
    { s with clk := { s.clk with st := 1, syncs := 0 } }.ended r 0

def execSetCalendar (r : Ref) (s : State) : Res' :=
  s.start r 0x58 fun c => s.doCalendar r c

/-! ### Firmware (R226, R491, R499, R500, R550, R565 to R568) -/

/-- The inactive bank: not the one whose image runs. -/
def State.inactive (s : State) : Bool := !s.boot.running

/-- First sector of the inactive bank a FIRMWARE DOWNLOAD writes. -/
def State.downloadBase (s : State) (c : Cmd) : Nat := 4096 * b01 s.inactive + le c.entry 8 4 / 4096

/-- Whether the inactive bank is protected (R491). -/
def State.bankProtected (s : State) : Bool := !s.loft.clear.contains (4096 * b01 s.inactive)

/-- FIRMWARE DOWNLOAD (R226): waits during an activation (R568); refused while the inactive bank is protected (R491); else its data
is read. -/
def State.doDownload (s : State) (r : Ref) : State :=
  if s.act.isSome then s
  else if s.bankProtected then s.fail r NOT_PERMITTED 0xFFFF
  else (s.begin_ r .data).issue ⟨r.fn, (s.cmd r).bind (fun c => s.cmdPort r.fn c.port), false, .data r⟩

def execFirmwareDownload (r : Ref) (s : State) : Res' :=
  s.start r 0x59 fun _ => s.doDownload r

/-- The commit of a download (R500): its sectors in ascending order; a sector that needs a spare its bank lacks ends it with
CAPACITY_EXHAUSTED (R499). It waits while the bank is busy (R487). -/
def State.commitDownload (s : State) (r : Ref) (c : Cmd) : State :=
  if (look s.loft.busy (b01 s.inactive)).isSome then s
  else
    let k := s.downloadBase c
    let (s, ok) := s.downloadAll k c.data (le c.entry 12 4 / 4096)
    let s := s.rejudge k
    if ok then s.succeed r 0 else s.fail r CAPACITY_EXHAUSTED 0xFFFF

/-- The event FIRMWARE: cause and image version. -/
def State.firmwareEvent (s : State) (cause version : Nat) : State := s.event 0x0070 1 0 [(32, 1, cause), (36, 4, version)]

/-- Whether a FIRMWARE DOWNLOAD has started and not completed. -/
def State.downloading (s : State) : Bool := s.sqs.any fun e => e.2.cmds.any fun c => c.opcode = 0x59 && c.started

/-- FIRMWARE ACTIVATE (R565, R568): one at a time, after every started download. Verify, its start point, and Select; an image that does not verify
completes with NOT_PERMITTED and raises FIRMWARE (R550). -/
def State.doActivate (s : State) (r : Ref) : State :=
  let g := s.loft.image s.inactive
  if s.act.isSome || s.downloading then s
  else if !g.ok then ((s.begin_ r .running).firmwareEvent 1 g.version).fail r NOT_PERMITTED 0xFFFF
  else if g.svn < s.life.floor then ((s.begin_ r .running).firmwareEvent 2 g.version).fail r NOT_PERMITTED 0xFFFF
  else { (s.begin_ r .running).select s.inactive with act := some ⟨r, 2⟩ }

def execFirmwareActivate (r : Ref) (s : State) : Res' :=
  s.start r 0x5A fun _ => s.doActivate r

/-- The close of an activation (R491, R550, R565): both image banks protected, the floor at the image's SVN, FIRMWARE with cause 0,
commit and completion. -/
def State.closeActivation (s : State) (r : Ref) : State :=
  let b := s.inactive
  let g := s.loft.image b
  let s := { s with
    act := none, boot := { s.boot with running := b }
    loft := { s.loft with clear := s.loft.clear.filter fun k => decide (loftBank k ≠ b01 b) }
    life := { s.life with floor := max s.life.floor g.svn } }
  (s.firmwareEvent 0 g.version).succeed r 0

/-- An activation that fails (R567): the selector names the running bank, the cause goes to the error history, and the command
completes with NOT_PERMITTED. -/
def State.failActivation (s : State) (r : Ref) : State :=
  let s := ({ s with act := none }.select s.boot.running).loftRecord 312 recActivation (record 16 [(0, 2, 0x70), (8, 8, s.bell.now)])
  s.fail r NOT_PERMITTED 0xFFFF

/-- ACTIVATION_HANDOVER (R565 to R567): Prepare ends and the handover begins; the same row ends it within 2 ms. Either may fail. -/
def execActivationHandover (ok : Bool) (s : State) : Res' :=
  match s.act with
  | some a =>
    if !ok then go (s.failActivation a.r)
    else if a.phase = 3 then go (s.closeActivation a.r)
    else go { s with act := some { a with phase := 3 } }
  | none => go s

/-! ### MODULE RESET (R227) -/

/-- MODULE RESET: commits, its completion is posted, then the module reset of R188. -/
def execModuleReset (r : Ref) (e : BootEnv) (s : State) : Res' :=
  if !e.wf then .fault .noSuchPart
  else match s.startable r 0x5B with
  | some _ => go ((s.govern r [] fun s => s.ended r 0).moduleReset e)
  | none => go s

/-! ### Tokens (R540, R541, R547) -/

/-- Where a token's public key begins: after the header, and in a debug token after the challenge (Tables 21.3 and 21.10). -/
def tokenKey (debug : Bool) : Nat := if debug then 64 else 32

/-- The public key, the message signed, the signature of a token. -/
def tokenPub (debug : Bool) (b : Bytes) : Bytes := slice b (tokenKey debug) 60
def tokenMsg (debug : Bool) (b : Bytes) : Bytes := slice b 0 (tokenKey debug + 60)
def tokenSig (debug : Bool) (b : Bytes) : Bytes := b.drop (tokenKey debug + 60)

/-- Cause 0x01: form and length of a token. -/
def tokenForm (debug : Bool) (b : Bytes) : Bool :=
  let t := byteAt b 5
  le b 0 4 = 0x4B4F544A && byteAt b 4 = 1 && (if debug then t = 0x10 else 1 ≤ t && t ≤ 4) && zeros b 6 2 && zeros b 27 5 &&
    b.length ≤ 8192 && (match hssLen (tokenPub debug b) (tokenSig debug b) with
      | some n => decide (b.length = tokenKey debug + 60 + n)
      | none => false)

/-- Cause 0x06: whether a transition is permitted from the present state (Table 21.2). -/
def Life.permits (l : Life) (t : Nat) : Bool :=
  match l.state with
  | .factory => t = 4 || (t = 1 && l.seals < 16 && l.provisioned)
  | .sealed_ => t = 2 || t = 4
  | .return_ => t = 3 || t = 4
  | .scrapped => false

/-- Every tenant function is QUIESCED or ABSENT. -/
def State.allQuiet (s : State) : Bool := s.fns.all fun e => isManager e.1 || e.2.state = .quiesced || e.2.state = .absent

/-- The cause of the first check of Table 21.4 that fails, 0 when none does. -/
def State.tokenCause (s : State) (debug : Bool) (b : Bytes) : Nat :=
  let l := s.life
  if !tokenForm debug b then 1
  else if !rootTrusts l.root (tokenPub debug b) then 2
  else if !hssVerifies (tokenPub debug b) (tokenMsg debug b) (tokenSig debug b) then 3
  else if slice b 8 16 ≠ serialBytes then 4
  else if byteAt b 24 ≠ l.seals || byteAt b 25 ≠ l.returns || byteAt b 26 ≠ l.refurbs then 5
  else if !debug && !l.permits (byteAt b 5) then 6
  else if !debug && byteAt b 5 = 2 && !s.allQuiet then 7
  else if debug && slice b 32 32 ≠ s.challenge then 8
  else 0

/-- The status of a cause (Table 21.4). -/
def causeStatus (n : Nat) : Nat := if n = 1 then INVALID_FIELD else if n = 7 then FUNCTION_NOT_QUIESCED else NOT_PERMITTED

/-! ### Life-cycle transitions (R539 to R545) -/

/-- RESULT on SUCCESS (R541). -/
def Life.result (l : Life) : W64 :=
  BitVec.ofNat 64 (l.state.num + 2 ^ 8 * l.seals + 2 ^ 16 * l.returns + 2 ^ 24 * l.refurbs)

/-- The commit of a transition (R542): ledger number, journal record, completion. -/
def State.commitLife (s : State) (r : Ref) (l : Life) : State :=
  let (n, s) := s.commit
  let s := ({ s with life := l }).loftRecord 200 recLife (l.journal n)
  s.complete r { status := SUCCESS, result := l.result, ledger := some n }

/-- SCRAP (R545): the key store is zeroed and the module stops for good. -/
def State.scrapped (s : State) : State :=
  let s := s.zeroKeys fun _ => true
  { s with
    portA := s.portA.boot, portB := s.portB.boot, rdma := [], boot := { s.boot with ready := false, halted := some 3 }
    pwr := { s.pwr with on := false } }

/-- LIFE CYCLE TRANSITION's token is carried out: SEAL and RETURN commit and a module reset follows; REFURBISH erases the media
first (R544); SCRAP stops the module. -/
def State.transition (s : State) (r : Ref) (t : Nat) (e : BootEnv) : State :=
  let l := s.life
  match t with
  | 1 => ((s.atPoint r .decided).commitLife r { l with seals := l.seals + 1 }).moduleReset e
  | 2 => ((s.atPoint r .decided).commitLife r { l with returns := l.returns + 1 }).moduleReset e
  | 3 => { s with life := { l with erasing := some r } }
  | _ => ((s.atPoint r .decided).commitLife r { l with scrap := true }).scrapped

/-- A started LIFE CYCLE TRANSITION is verified (R541) and carried out: the first check that fails gives the status, with its cause in
RESULT. While the erase of a REFURBISH runs it goes no further, started as it is (notes/assumptions/80.md). -/
def State.tryTransition (s : State) (r : Ref) (c : Cmd) (e : BootEnv) : State :=
  if s.life.erasing.isSome then s
  else
    let n := s.tokenCause false c.block
    if n = 0 then s.transition r (byteAt c.block 5) e
    else s.complete r { status := causeStatus n, result := BitVec.ofNat 64 n, field := if n = 7 then 4 else 0xFFFF }

/-- LIFE CYCLE TRANSITION (R539, R541, R154): it starts at once; each further row for one that is held up tries it again. -/
def execLifeCycleTransition (r : Ref) (e : BootEnv) (s : State) : Res' :=
  if !e.wf then .fault .noSuchPart
  else match s.cmd r, s.startable r 0x5C with
  | _, some c => go (((s.begin_ r .running).tryTransition r c e).settle r)
  | some c, none => if c.opcode = 0x5C && c.point = .running then go (s.tryTransition r c e) else go s
  | none, none => go s

/-- The media after the erase of REFURBISH (R544): every block erased, cellar, parking and metadata blocks too, one more cycle on each
plane-block that held data, and blocks that fail retired (Table 10.3). No slot is bound; those that are lost, or that R252 and R291 moved
between the retirement pool and the random area, stay so. No dump is left to restore. -/
def State.mediaErased (s : State) (bad : List PlaneBlock) : State :=
  let used := s.media.groups.filter fun e => e.2.prog > 0 || e.2.dirty
  let s := used.foldl (fun s e => (List.range 4).foldl (fun s p => s.wearBlock (s.phys (dieOf (e.1 / 4096)) p (e.1 % 4096))) s) s
  let s := s.setMedia fun m => { m with
    groups := [], work := [], slices := [], recons := [], refresh := [], retireq := [], moves := [], erasq := [], oldBlocks := []
    streams := [], raParked := [], raSlots := [], copies := [], lostUnits := [], parity := [], cells := [], parking := [], ckpt := none, toScan := []
    wards := mapV (fun _ x => { x with reclaiming := false, victims := [], shrink := none, metaRow := 0, parkRow := 0 }) m.wards
    dies := mapV (fun _ x => { x with op := none, cellarPrep := false, cellarFree := 512, tail := Loop.fresh }) m.dies
    slots := keep (fun _ u => match u with
      | .lost _ | .pool | .random => true
      | _ => false) m.slots }
  let s := { s.releaseDumps with units := [], rand := [], zones := [], cursors := [], staged := 0 }
  let s := bad.foldl (fun s b => (s.retireBlock b.die b.plane b.slot).replaceBlock b.die b.plane b.slot) s
  s.setMedia fun m => { m with recs := [], noted := s.maps, saved := s.toSave, saving := none, journal := 0 }

/-- Bank K and the health accounts after the commit of REFURBISH (R544): areas K:0–7, K:168–199 and K:504–511 are kept. -/
def State.refurbished (s : State) : State :=
  let h := s.health
  let s := { s with
    loft := s.loft.wipe [8, 200, 232, 248, 312]
    health := { h with state := 0, attn := 0, reasons := 0, wards := 0, alert := h.alert || decide (h.state ≠ 0) } }
  if h.state = 0 then s else s.event 0x0001 1 0 [(32, 1, 0), (33, 1, h.state)]

/-- REFURBISH_ERASE_COMPLETE (R544): REFURBS is blown, the command completes, bank K is erased, and a module reset follows. -/
def execRefurbishEraseComplete (bad : List PlaneBlock) (e : BootEnv) (s : State) : Res' :=
  if !(bad.all PlaneBlock.wf) || !e.wf then .fault .noSuchPart
  else match s.life.erasing with
  | some r =>
    let s := (s.mediaErased bad).atPoint r .decided
    let s := s.commitLife r { s.life with refurbs := s.life.refurbs + 1, erasing := none }
    go (s.refurbished.moduleReset e)
  | none => go s

/-! ### ATTEST (R228, R554, R555) -/

/-- Bytes of the identity chain (R553). -/
def State.chainBytes (s : State) : Bytes := (List.range s.life.chainLen).map Config.chainByte

/-- Reserves a signature index (R554): up to the next multiple of 1,024 when none is reserved. The index, and the state. -/
def State.takeIndex (s : State) : Nat × State :=
  let l := s.life
  if l.attLeft = 0 then
    let s := { s with life := { l with attNext := l.attNext + 1024, attLeft := 1023 } }
    (l.attNext, s.loftRecord 168 recSignature (record 8 [(0, 8, s.life.attNext)]))
  else (l.attNext - l.attLeft, { s with life := { l with attLeft := l.attLeft - 1 } })

/-- The report (Table 21.7) of a function with a nonce, a ledger number and an index, without its signature. -/
def State.report (s : State) (f n q : Nat) (nonce : Bytes) : Bytes :=
  let l := s.life
  let on := s.loft.image s.boot.running
  let off := s.loft.image s.inactive
  let good := s.verifies off
  patch (patch (patch (patch (record 168 [(0, 4, 0x5454414A), (4, 1, 1), (5, 1, l.state.num + 4 * b01 l.debugOpen),
      (6, 1, l.floor), (7, 1, s.health.state), (8, 1, l.seals), (9, 1, l.returns), (10, 1, l.refurbs), (12, 4, s.bell.boot),
      (32, 8, s.bell.now), (40, 8, n), (48, 2, f), (52, 4, on.version), (56, 4, if good then off.version else 0), (60, 4, q),
      (160, 4, l.chainLen)])
    16 serialBytes) 64 (slice nonce 0 32)) 96 (slice on.hash 0 32)) 128 (if good then slice off.hash 0 32 else slice [] 0 32) ++
    s.chainBytes

/-- The reports signed within the last second (R555). -/
def State.reportsNow (s : State) : List Nat := s.life.attAt.filter fun b => decide ((s.bell.now - b) * s.period < 1000000)

/-- ATTEST (R228, R555): a signed report over the nonce; CAPACITY_EXHAUSTED when no index remains (R554). Beyond 200 reports per
second it waits, unstarted. -/
def State.doAttest (s : State) (r : Ref) (c : Cmd) : State :=
  if s.reportsNow.length ≥ 200 then s
  else s.govern r [(s.life.exhausted, CAPACITY_EXHAUSTED, 0xFFFF), (decide (le c.entry 8 4 < s.reportLen), BUFFER_TOO_SHORT, 0xFFFF)]
    fun s =>
      let (q, s) := s.takeIndex
      let s := { s with life := { s.life with attAt := s.reportsNow ++ [s.bell.now] } }
      let n := ((s.cmd r).bind (·.ledger)).getD 0
      let b := s.report r.fn n q c.block ++ (List.range 5396).map (Config.signByte q)
      (s.sendOut r 32 b).ended r 0

def execAttest (r : Ref) (s : State) : Res' :=
  s.start r 0x5D fun c => s.doAttest r c

/-! ### Commits and deferred starts -/

/-- COMMAND_COMMIT (R156): a write whose data is on both mirror copies commits in its turn (R164). -/
def execCommandCommit (r : Ref) (s : State) : Res' :=
  match s.cmd r with
  | some c =>
    if c.point ≠ .mirrored || s.pwr.loss.isSome then go s
    else if c.opcode = 0x59 then go ((s.commitDownload r c).goOn r.fn r.sq)
    else if !s.turn r c then go s
    else if c.opcode = 0x11 then go ((s.commitRandom r c).goOn r.fn r.sq)
    else go ((s.commitZone r c).goOn r.fn r.sq)
  | none => go s

/-- The start of a command by its opcode. MODULE RESET and LIFE CYCLE TRANSITION start by their own rows alone, which say what the
boot that follows meets. -/
def State.startByOp (s : State) (r : Ref) (op : Nat) : Res' :=
  match op with
  | 0x01 => execRead r s
  | 0x02 => execWrite r s
  | 0x03 => execZoneAppend r s
  | 0x08 => execOpenZone r s
  | 0x09 => execCloseZone r s
  | 0x0A => execFinishZone r s
  | 0x0B => execResetZone r s
  | 0x0C => execReportZones r s
  | 0x10 => execRandomRead r s
  | 0x11 => execRandomWrite r s
  | 0x12 => execRandomTrim r s
  | 0x18 => execFlush r s
  | 0x19 => execAbort r s
  | 0x1A => execRestartRing r s
  | 0x20 => execScan r s
  | 0x21 => execRun r s
  | 0x28 => execSieveWrite r s
  | 0x29 => execSieveWritePair r s
  | 0x2A => execSieveLookup r s
  | 0x2B => execSieveStep r s
  | 0x30 => execSemAcquire r s
  | 0x31 => execSemRelease r s
  | 0x32 => execSemBreak r s
  | 0x33 => execSemRead r s
  | 0x38 => execGetLog r s
  | 0x40 => execCreateRing r s
  | 0x41 => execDeleteRing r s
  | 0x42 => execSetRingNotify r s
  | 0x43 => execSetLatencyTolerance r s
  | 0x48 => execAddFunction r s
  | 0x49 => execQuiesceFunction r s
  | 0x4A => execResumeFunction r s
  | 0x4B => execResetFunction r s
  | 0x4C => execRemoveFunction r s
  | 0x4D => execSetFunctionResources r s
  | 0x50 => execCreateHolding r s
  | 0x51 => execSetHolding r s
  | 0x52 => execAssignHolding r s
  | 0x53 => execDeleteHolding r s
  | 0x58 => execSetCalendar r s
  | 0x59 => execFirmwareDownload r s
  | 0x5A => execFirmwareActivate r s
  | 0x5D => execAttest r s
  | _ => go s

/-- COMMAND_DEFERRED_START (R107, R154): a checked command that waited starts. -/
def execCommandDeferredStart (r : Ref) (s : State) : Res' :=
  match s.cmd r with
  | some c => s.startByOp r c.opcode
  | none => go s

/-! ### Control cores (R512) -/

/-- CONTROL_CORE_RETIRE (R512): a spare takes over; with none left the active cores number one fewer, and below 12 the module
resets. -/
def execControlCoreRetire (core : Nat) (e : BootEnv) (s : State) : Res' :=
  if core ≥ 18 || !e.wf then .fault .noSuchPart
  else if !s.boot.ready || s.pwr.loss.isSome then go s
  else if s.ctlSpares > 0 then
    go ({ s with ctlSpares := s.ctlSpares - 1 }.event 0x0040 1 0 [(32, 1, 0xFF), (33, 1, core), (34, 1, 18 - s.ctlSpares)])
  else
    let s := { s with ctlCores := s.ctlCores - 1 }
    if s.ctlCores < 12 then go (s.moduleReset e) else go s

end Sys2Proof.Machine
end

