-- ==== Sys2Proof/Machine/Boundary.lean ====
section
/-! DEFINITION. The bell boundary and the close of a plan (chapter 2). -/

namespace Sys2Proof.Machine

/-- BELL_BOUNDARY (R36): the bell number rises by one; stamps, measurements, plans, deferred values, buckets and due
completions pass the boundary, rings fetch again (R136), patrol goes on (R296), idleness is watched (R530), and telemetry is sampled (R521). Bells run only while the module is powered (R37, R40). -/
def execBellBoundary (e : BellEnv) (s : State) : Res' :=
  if !s.pwr.on then go s
  else if s.pwr.loss.isSome then go (s.openBell e).stamp
  else go (((((((((((s.openBell e).stamp.meter e).drains e.drainLate).mirrorDue.startPlan).ringsAtBoundary.adminAtBoundary).grantsAtBoundary).portsAtBoundary.flowControl e
    ).plansAtBoundary).watchInhibit).postDue).fetchAll.ckptFull.patrolStep.watchIdle.sampleTelem)

/-- PLAN_CLOSE (R42): the plan for the next bell closes; a channel plan that is not complete is replaced by a fallback
plan (R57 row 2). Closing a closed plan changes nothing. -/
def execPlanClose (late : List Nat) (badBlank : List PlaneBlock) (s : State) : Res' :=
  if !s.pwr.on || s.pwr.loss.isSome || s.bell.closed then go s
  else if !(late.all chanOk) || !(badBlank.all PlaneBlock.wf) then .fault .noSuchPart
  else
    let s := badBlank.foldl State.blankCheck s
    let s := if late.isEmpty then s else s.overrun 2 late.length
    go (s.feedScan.makePlan late).planDrains

end Sys2Proof.Machine
end

