-- ==== Sys2Proof/Machine/PowerEv.lean ====
section
/-! DEFINITION. Events of power: power states (chapter 20), the energy gauge and the power-loss sequence (chapter 11), disconnects,
temperatures and contacts (R588 to R595, R600). -/

namespace Sys2Proof.Machine

/-- The module serves: READY and no power-loss sequence. -/
def State.serving (s : State) : Bool := s.pwr.on && s.boot.ready && s.pwr.loss.isNone

/-! ### Power states (R530 to R535) -/

/-- Whether idleness has lasted for the hold time of state n (R530). -/
def State.heldFor (s : State) (n : Nat) : Bool :=
  s.idle && match s.pwr.idleFrom with
    | some b => decide ((s.bell.now - b) * s.period ≥ holdTime n)
    | none => false

/-- The energy Q2 asks for (R531), in 0.1 J: 1.2 ms and the slots a dump of the present staging needs. -/
def State.q2Energy (s : State) : Nat := (74 * (120 + 352 * s.slotsNeeded 0 0 false) + 999) / 1000

/-- The partial state of OPEN zones and of streams is planned to be parked (R531), as a CLOSE parks it. -/
def State.parkOpen (s : State) : State :=
  let s := (s.zones.filter fun e => e.2.st = .open_ && e.2.partialRow).foldl (fun s e => match e.2.slot with
    | some n => s.park (slotWard n) e.1 n e.2.wp
    | none => s) s
  (s.liveStreams.filter fun e => e.2.2 % 2048 ≠ 0).foldl (fun s e => s.park (e.1 / 16) (streamKey e.1) e.2.1 e.2.2) s

/-- IDLE_HOLD_EXPIRY (R530, R531, R535): one state deeper, where admitted; into Q3 by way of its entry work, a checkpoint. -/
def execIdleHoldExpiry (s : State) : Res' :=
  let n := s.pwr.cur + 1
  if !s.serving || s.pwr.waking || n > 4 || !s.heldFor n || !s.admits n then go s
  else if n = 2 && s.pwr.usable < s.q2Energy then go s
  else if n = 3 then
    if s.pwr.entering then go s else go ((s.setPwr fun p => { p with entering := true, entryCkpt := none }).parkOpen.entryStep)
  else go (s.setPwr fun p => { p with cur := n })

/-- Q3_ENTRY (R531): the parking programs and the checkpoint of the entry are complete, and no partial state stands in staging. -/
def execQ3Entry (s : State) : Res' :=
  let done := (match s.pwr.entryCkpt with
    | some n => decide (n ≤ s.media.ckptDone)
    | none => false)
  if s.serving && s.pwr.entering && done && s.media.ckpt.isNone && s.allParked then
    go (s.setPwr fun p => { p with entering := false, entryCkpt := none, cur := 3 })
  else go s

/-- WAKE (R532): of its triggers, "unadmitted" counts only where the present state is not admitted. -/
def execWake (t : WakeBy) (s : State) : Res' :=
  if !s.serving || (t = .unadmitted && s.admits s.pwr.cur) then go s else go s.wakeUp

/-- Channels idled in the present state whose eyes are below 0.25 UI retrain (R526, Table 9.4). -/
def State.checkEyes (s : State) (eyes : List Nat) : State :=
  (eyes.filter s.chanIdle).foldl (fun s n => match (s.chan n).st with
    | .inService => (s.moveChan n .retraining).setChan n fun c => { c with fails := 0, due := false, trying := true }
    | .spare => s.setChan n fun c => { c with trying := true }
    | _ => s) s

/-- SET LATENCY TOLERANCE commands that wait for the wake (R529). -/
def State.tolWaits (s : State) : List Ref :=
  s.sqs.flatMap fun e => (e.2.cmds.filter fun c => c.opcode = 0x43 && c.point = .decided).map fun c =>
    Ref.mk (e.1 / 1024) (e.1 % 1024) c.tag

/-- WAKE_COMPLETE (R526, R529, R535): the idled parts are back and the module is in Q0. -/
def execWakeComplete (eyes : List Nat) (s : State) : Res' :=
  if !(eyes.all chanOk) then .fault .noSuchPart
  else if !s.serving || !s.pwr.waking then go s
  else
    let s := (s.checkEyes eyes).setPwr fun p => { p with waking := false, cur := 0 }
    go (s.tolWaits.foldl (fun s r => s.ended r 0) s)

/-- Whether internal work of a kind is due (R534). -/
def State.workDue (s : State) (t : DueWork) : Bool :=
  match t with
  | .rebuild => (s.media.members.any fun e => e.2.rebuilding || e.2.failed) ||
      (s.media.chans.any fun e => e.2.due || e.2.trying || e.2.st = .retraining) ||
      s.dram.ranks.any fun e => e.2.st = .filling || e.2.st = .draining || e.2.st = .retraining
  | .patrol => true
  | .retention => s.scanning
  | .spare => s.media.dies.any fun e => e.2.cellarPrep

/-- INTERNAL_WAKE (R534): internal work falling due wakes the module from Q2, Q3 or Q4. -/
def execInternalWake (t : DueWork) (s : State) : Res' :=
  if s.serving && s.pwr.cur ≥ 2 && s.workDue t then go s.wakeUp else go s

/-! ### The gauge (R311) -/

/-- HOLDUP_LOW once (R311). -/
def State.lowEnergy (s : State) : State :=
  if s.pwr.usable < 400 && !s.health.lowRaised then
    ({ s with health := { s.health with lowRaised := true } }).event 0x0050 1 0 [(32, 2, s.pwr.usable)]
  else s

/-- Whether a capacitance measurement is due (R311): 24 h of powered time after the last. -/
def State.capDue (s : State) : Bool := match s.pwr.capAt with
  | some t => decide (s.poweredNs ≥ t + dayNs)
  | none => true

/-- CAPACITANCE_MEASUREMENT (R311): begins a measurement that is due, while which the lower of the previous and the new figure counts;
the next one is its end. -/
def execCapacitanceMeasurement (energy : Nat) (s : State) : Res' :=
  if !s.serving then go s
  else if s.pwr.measuring then go (s.setPwr fun p => { p with measuring := false, usable := energy, capAt := some s.poweredNs }).lowEnergy
  else if !s.capDue then go s
  else go (s.setPwr fun p => { p with measuring := true, prevUsable := p.usable, usable := energy }).lowEnergy

/-- HEARTBEAT (R333): every 2^24 bells, to the boot log of bank K. -/
def execHeartbeat (s : State) : Res' :=
  if s.serving && s.bell.now % 2 ^ 24 = 0 then
    go ((s.setPwr fun p => { p with lastBeat := some s.calendar }).loftRecord 232 recHeartbeat (record 16 [(0, 8, s.calSecs), (8, 4, s.calSub)]))
  else go s

/-! ### The power-loss sequence (R318 to R321) -/

/-- What stops within 10 µs (R319, R536): cages off, jobs and commands without effect, and idled parts back in service. -/
def State.stopServing (s : State) : State :=
  let s := (((s.dropJobs.abortErases).movePort .A .off s.nowNs).movePort .B .off s.nowNs).dropReads fun _ => true
  let off := fun (q : Port) => { q with leftUp := none }
  { s with
    portA := off s.portA, portB := off s.portB, rdma := [], due := [], aborts := [], act := none
    net := { s.net with failover := [] }
    sqs := mapV (fun _ q => { q with cmds := [], reading := 0 }) s.sqs
    life := { s.life with erasing := none }
    pwr := { s.pwr with cur := 0, waking := false, entering := false, entryCkpt := none, idleFrom := none }
    bell := { s.bell with next := [], closed := false } }

/-- The sequence number of the next dump: one more than the highest, never reused (R324). -/
def State.nextDump (s : State) : Nat := s.pwr.dumps.foldl (fun n d => max n d.seq) 0 + 1

/-- The shutdown record (R319): calendar time, bell, boot count, dump sequence number. -/
def State.shutdownRecord (s : State) : State :=
  let b := record 32 [(0, 8, s.calSecs), (8, 8, s.bell.now), (16, 8, s.bell.boot), (24, 8, s.nextDump)]
  State.flushLoft { s with
    pwr := { s.pwr with lastShut := some s.calendar }
    loft := s.loft.note 232 recShutdown b true }

/-- The module's loads are off. -/
def State.powerOff (s : State) : State :=
  let s := s.stopServing.stopBells
  { s with
    pwr := { s.pwr with on := false, loss := none }
    boot := { s.boot with step := 1, ready := false, held := false, halted := none }
    health := { s.health with alert := false } }

/-- A power-loss sequence begins (R318); before READY no dump is taken and the module stops (Table 22.2). -/
def State.beginLoss (s : State) (standby cut : Bool) : State :=
  if !s.pwr.on || s.pwr.loss.isSome then s
  else if !s.boot.ready then s.powerOff
  else s.stopServing.shutdownRecord.setPwr fun p => { p with loss := some ⟨0, 0, [], standby, cut⟩ }

/-- INPUT_FAIL (R318). With the module off after a disconnect, the input's fall lets power good return (R592). -/
def execInputFail (s : State) : Res' :=
  if s.pwr.on then go (s.beginLoss false false)
  else go (s.setPwr fun p => { p with latched := p.latched && p.cause = 2 })

/-- Running erases are stopped; their blocks stay queued (R320). -/
def State.stopErases (s : State) : State :=
  ((s.media.dies.filter fun e => match e.2.op with
    | some o => decide (o.work.act = .erase)
    | none => false).map fun e => dieOf e.1).foldl State.settleDie s

/-- The newest dump, which the running sequence writes, is changed. -/
def State.setDump (s : State) (f : Dump → Dump) : State :=
  s.setPwr fun p => { p with dumps := p.dumps.map fun d => if d.seq + 1 = s.nextDump then f d else d }

/-- DUMP_PLAN (R314, R320, R321): erases stopped, the contents of the dump fixed and the guards formed, program slot 1 begins. -/
def execDumpPlan (s : State) : Res' :=
  match s.pwr.loss with
  | some l =>
    if l.slot ≠ 0 then go s
    else
      let s := s.stopErases.noteMaps
      let n := dumpStripes (s.dumpBytes 0 0)
      let d := Dump.mk s.nextDump false false s.ledger s.guards s.dumpItems [] n []
      go (s.setPwr fun p => { p with
        dumps := p.dumps ++ [d], loss := some { l with slot := 1, last := s.slotsNeeded 0 0 false, todo := s.cellarTodo n } })
  | none => go s

/-- The home programs of one slot (R321): each die's waiting program unit, at most 1,676. -/
def State.homesDue (s : State) : List Work :=
  (s.media.work.foldl (fun (a : List Work) w => if w.units > 0 && !a.any (fun x => x.die = w.die) then a ++ [w] else a) []).take 1676

/-- Home programs run; the manifest lists them (R324). -/
def State.homePrograms (s : State) : State :=
  let ws := s.homesDue
  (ws.foldl (fun s w => (s.setMedia fun m => { m with work := m.work.erase w }).programDone w.die w) s).setDump fun d =>
    { d with homes := d.homes ++ ws.map fun w => (dieNo w.die, w.slot, w.wl) }

/-- The sequence ends (R321, R324): the dump is complete if its word lines, the manifest among them, are programmed and power lasted, from
the input or from the bank, to its last slot. What stood in DRAM alone is gone. -/
def State.endLoss (s : State) (l : LossSeq) : State :=
  let ok := l.todo.isEmpty && (l.standby || decide (energyFor l.slot ≤ s.pwr.usable))
  (s.setDump fun d => { d with complete := ok }).loseDram.powerOff

/-- Whether slot `l.slot` is the last that the sequence uses (R321). -/
def LossSeq.over (l : LossSeq) : Bool := l.last ≤ l.slot && (l.todo.isEmpty || 12 ≤ l.slot)

/-- PROGRAM_SLOT_END (R321): slot 1 runs programs to their end, slots 2 to 4 take home programs, and the other dies a cellar word line
each; after the last slot the loads switch off. -/
def execProgramSlotEnd (s : State) : Res' :=
  match s.pwr.loss with
  | some l =>
    if l.slot = 0 then go s
    else
      let busy := if l.slot = 1 then (s.media.dies.filter fun e => e.2.op.isSome).map (·.1)
        else if l.slot ≤ 4 then s.homesDue.map fun w => dieNo w.die else []
      let s := if l.slot = 1 then s.settleDies else if l.slot ≤ 4 then s.homePrograms else s
      let (s, l) := s.cellarSlot busy l
      if l.over then go (s.endLoss l) else go (s.setPwr fun p => { p with loss := some { l with slot := l.slot + 1 } })
  | none => go s

/-! ### Disconnects (R592, R600) -/

/-- The module disconnects its input: the cause to the error history, power good withheld, the sequence from the bank. -/
def State.disconnect (s : State) (cause : Nat) : State :=
  let s := s.loftRecord 312 recCause (record 16 [(0, 1, cause), (8, 8, s.bell.now)])
  let s := { s with boot := { s.boot with stopLog := if cause = 1 then 1 else s.boot.stopLog } }
  (s.setPwr fun p => { p with cause := cause, latched := true }).beginLoss false true

/-- INPUT_OVERVOLTAGE_OR_BREAKER (R592). -/
def execInputOvervoltageOrBreaker (_breaker : Bool) (s : State) : Res' := if s.pwr.on then go (s.disconnect 1) else go s

/-- The temperature of a place is measured. -/
def State.setTemp (s : State) (place : Nat) (t : Int) : State :=
  { s with health := { s.health with temps := s.health.temps.set place t } }

/-- THERMAL_SHUTDOWN (R600): inlet above 50 °C for 10 s, or junction above 115 °C. -/
def execThermalShutdown (junction : Bool) (t : Int) (s : State) : Res' :=
  if !s.pwr.on || t ≤ (if junction then 115 else 50) then go s
  else
    let p := b01 junction
    let s := (s.setTemp p t).tempEvent p t
    go (({ s with health := { s.health with hot := s.health.hot.insert 4 } }).disconnect 2)

/-- The rows of Table 24.9 that a temperature at a place meets. -/
def hotRows (place : Nat) (t : Int) : List Nat :=
  if place = 0 then (if t > 40 then [0] else []) ++ (if t > 45 then [1] else [])
  else if place = 2 then (if t > 80 then [0] else []) ++ (if t < 0 || t > 85 then [2] else [])
  else []

/-- TEMPERATURE (R600): a threshold is crossed; its response holds, and the event is raised once per row. `dies` are those outside
0 °C to 85 °C. -/
def execTemperature (place : Nat) (t : Int) (dies : List DieId) (s : State) : Res' :=
  if place ≥ 4 || !(dies.all DieId.wf) then .fault .noSuchPart
  else if !s.pwr.on then go s
  else
    let rows := hotRows place t
    let fresh := rows.filter fun k => !s.health.hot.contains k
    let s := s.setTemp place t
    let s := if rows.contains 2 then s.setPwr fun p => { p with coldDies := (p.coldDies ++ dies.map dieNo).eraseDups } else s
    let s := { s with health := { s.health with hot := s.health.hot ++ fresh } }
    go (if fresh.isEmpty then s else s.tempEvent place t)

/-- TEMPERATURE_CLEAR (R600): a condition has been absent for 60 s; the inlet below 40 °C for 60 s lets power good return after a
thermal disconnect. -/
def execTemperatureClear (place : Nat) (t : Int) (s : State) : Res' :=
  if place ≥ 4 then .fault .noSuchPart
  else if !s.pwr.on then
    if place = 0 && t < 40 && s.pwr.cause = 2 then go (s.setPwr fun p => { p with latched := false }) else go s
  else
    let s := s.setTemp place t
    let inlet := s.health.temps.getD 0 0
    let die := s.health.temps.getD 2 0
    let gone := fun k => match k with
      | 0 => decide (inlet ≤ 40 ∧ die ≤ 80)
      | 1 => decide (inlet ≤ 45)
      | 2 => decide (0 ≤ die ∧ die ≤ 85)
      | 3 => place = 2 && decide (0 ≤ die)
      | _ => false
    let s := if gone 2 then s.setPwr fun p => { p with coldDies := [] } else s
    go { s with health := { s.health with hot := s.health.hot.filter fun k => !gone k } }

/-! ### Contacts (R593 to R595, R508) -/

/-- PWR_DISABLE_ASSERT (R594, R318): a high of 20 µs begins the power-loss sequence, run on input power. -/
def execPwrDisableAssert (us : Nat) (s : State) : Res' :=
  if us < 20 then go s
  else go ((s.setPwr fun p => { p with disable := true }).beginLoss true false)

/-- PWR_DISABLE_RELEASE (R592, R594, R595): the module boots from power good; during a sequence, after its end. -/
def execPwrDisableRelease (e : BootEnv) (s : State) : Res' :=
  if !e.wf then .fault .noSuchPart
  else if !s.pwr.disable then go s
  else
    let s := s.setPwr fun p => { p with disable := false, latched := p.latched && p.cause = 2 }
    if s.pwr.on || !e.inputHeld || s.pwr.latched then go s else go ({ s with clk := s.clk.fed e.elapsed }.bootCold e)

/-- LAMP_REQ (R508): the level of the contact. -/
def execLampReq (on : Bool) (s : State) : Res' := go (s.setPwr fun p => { p with lampReq := on })

end Sys2Proof.Machine
end

