-- ==== Sys2Proof/Machine/TapEv.lean ====
section
/-! DEFINITION. The TAP of the service connector (R546 to R548, R597). -/

namespace Sys2Proof.Machine

/-- Whether the TAP is live (Table 21.5): in FACTORY and RETURN, powered. -/
def State.tapLive (s : State) : Bool := s.pwr.on && (s.life.state = .factory || s.life.state = .return_)

/-- The instruction register takes a code, and the TAP shifts out data; a dead TAP does neither. -/
def State.tapOut (s : State) (ir : Byte) (b : Bytes) (k : State → State) : State :=
  if s.tapLive then (k { s with tap := { s.tap with ir := ir } }).tell (.tap b) else s

/-- TAP_IDCODE (R548): the identification register; its value is not in the spec. -/
def execTapIdcode (s : State) : Res' :=
  let (v, t) := s.draw
  go (if s.tapLive then t.tapOut 0x01 (toLe v 4) id else s)

/-- TAP_EXTEST (R548): the boundary register takes what is shifted in, and drives the outputs. -/
def execTapExtest (outs : Bytes) (s : State) : Res' :=
  go (s.tapOut 0x00 s.tap.boundary fun s => { s with tap := { s.tap with boundary := outs } })

/-- TAP_SAMPLE_PRELOAD (R548): the pins are sampled and shifted out; the boundary register is loaded. -/
def execTapSamplePreload (pins outs : Bytes) (s : State) : Res' :=
  go (s.tapOut 0x02 pins fun s => { s with tap := { s.tap with boundary := outs } })

/-- TAP_BYPASS (R548): the one-bit bypass register. -/
def execTapBypass (s : State) : Res' := go (s.tapOut 0xFF [] id)

/-- TAP_DBG_CHAL (R547, R548): the challenge of the boot, byte 0 first. -/
def execTapDbgChal (s : State) : Res' := go (s.tapOut 0x30 s.challenge id)

/-- TAP_DBG_TOKEN (R547, R548): the shifted-in length and token are checked at Update-DR; a valid token opens maker debug until the
next reset. The next Capture-DR loads the cause and DEBUG_OPEN. What is shifted out now is the status of the token before. -/
def execTapDbgToken (data : Bytes) (s : State) : Res' :=
  let n := le data 0 4
  let b := slice data 4 n
  let cause := if n > 8192 || data.length < n + 4 then 1 else s.tokenCause true b
  go (s.tapOut 0x31 (toLe s.tap.status.toNat 4) fun s =>
    let open_ := s.life.debugOpen || cause = 0
    { s with
      life := { s.life with debugOpen := open_ }
      tap := { s.tap with status := BitVec.ofNat 32 (cause + 256 * b01 open_) } })

end Sys2Proof.Machine
end

