-- ==== Sys2Proof/Machine/Traka.lean ====
section
/-! DEFINITION. How a Traka-S core runs an instruction (chapters 13 and 14): instruction words (R393 to R395), windows
(R377), memory, faults (R391, R392), loops (R374), the end of an item (R386), and the issue of one instruction (R366,
R370, R396). -/

namespace Sys2Proof.Machine

/-! ### Instruction words (R393, Table 14.1) -/

/-- A word of major opcode `op` with the given bits below. -/
def wOp (op low : Nat) : W32 := BitVec.ofNat 32 (op * 2 ^ 26 + low)

def wR (op : Nat) (rd rs1 rs2 : Reg) (fn : Nat) : W32 :=
  wOp op (rd.toNat * 2 ^ 21 + rs1.toNat * 2 ^ 16 + rs2.toNat * 2 ^ 11 + fn)
def wI (op : Nat) (rd rs1 : Reg) (imm : BitVec 16) : W32 := wOp op (rd.toNat * 2 ^ 21 + rs1.toNat * 2 ^ 16 + imm.toNat)
def wJ (op : Nat) (disp : BitVec 26) : W32 := wOp op disp.toNat
def wM (op : Nat) (rt : Reg) (ak : BitVec 3) (upd sz : BitVec 2) (sx : Bool) (imm : BitVec 13) : W32 :=
  wOp op (rt.toNat * 2 ^ 21 + ak.toNat * 2 ^ 18 + upd.toNat * 2 ^ 16 + sz.toNat * 2 ^ 14 + b01 sx * 2 ^ 13 + imm.toNat)
def wA (op : Nat) (rs : Reg) (ak : BitVec 3) (fn2 : Nat) (imm : BitVec 16) : W32 :=
  wOp op (rs.toNat * 2 ^ 21 + ak.toNat * 2 ^ 18 + fn2 * 2 ^ 16 + imm.toNat)
def wS (op : Nat) (r : Reg) (z : BitVec 9) (sr : BitVec 12) : W32 := wOp op (r.toNat * 2 ^ 21 + z.toNat * 2 ^ 12 + sr.toNat)
def wY (ra rb : Reg) (imm : BitVec 8) (fn : Nat) : W32 :=
  wOp 0x3C (ra.toNat * 2 ^ 21 + rb.toNat * 2 ^ 16 + imm.toNat * 2 ^ 8 + fn)

/-- Whether the major opcode and function code of a word are listed (R394, R395). -/
def listed (w : W32) : Bool :=
  let v := w.toNat
  let op := v / 2 ^ 26
  let fn := v % 2 ^ 11
  if op = 0x01 then fn ≤ 5 || (8 ≤ fn && fn ≤ 0xB) || (0x10 ≤ fn && fn ≤ 0x17) || (0x20 ≤ fn && fn ≤ 0x23)
  else if op = 0x0D then fn < 4
  else if op = 0x24 || op = 0x25 then v / 2 ^ 16 % 4 ≠ 3
  else if op = 0x26 then v % 4 ≠ 3
  else if op = 0x30 then fn / 4 % 32 ≤ 26
  else if op = 0x31 then
    let g := fn % 64
    g ≤ 0xB || g = 0x10 || g = 0x11 || (0x18 ≤ g && g ≤ 0x1A)
  else if op = 0x3C then 1 ≤ v % 256 && v % 256 ≤ 9
  else (2 ≤ op && op ≤ 0xB) || (0x10 ≤ op && op ≤ 0x18) || (0x20 ≤ op && op ≤ 0x23) || op = 0x27 ||
    (0x38 ≤ op && op ≤ 0x3A) || op = 0x3D || op = 0x3E

/-! ### Windows (R377, Table 13.3) -/

inductive Win where
  | loc | code | data | scan | dram
  deriving DecidableEq, Repr

/-- The window that holds a whole range, and the offset in it. -/
def Job.win (x : Job) (a n : Nat) : Option (Win × Nat) :=
  let inside := fun b size => decide (b ≤ a) && decide (a + n ≤ b + size)
  if inside 0 0x40000 then some (.loc, a)
  else if inside 0x100000 x.code.length then some (.code, a - 0x100000)
  else if inside 0x200000 (x.need * 65536 - x.code.length) then some (.data, a - 0x200000)
  else if x.isScan && inside 0x40000000 outWindow then some (.scan, a - 0x40000000)
  else if inside 0x100000000 x.windowLen then some (.dram, a - 0x100000000)
  else none

/-- The done address (Table 13.3). -/
def doneAddr : Nat := 0xFFFF0

/-- The instruction word at an address of the code window. -/
def Job.fetch (x : Job) (pc : Nat) : Option W32 :=
  if 0x100000 ≤ pc && pc + 4 ≤ 0x100000 + x.code.length && pc % 4 = 0 then
    some (BitVec.ofNat 32 (le x.code (pc - 0x100000) 4))
  else none

/-! ### Memory -/

/-- Bytes written into sparse memory. -/
def putBytes (t : Tab Byte) (a : Nat) (b : Bytes) : Tab Byte :=
  keep (fun k _ => decide (k < a)) t ++ sparse b a ++ keep (fun k _ => decide (a + b.length ≤ k)) t

/-- `n` bytes of sparse memory. -/
def getBytes (t : Tab Byte) (a n : Nat) : Bytes := (List.range n).map fun i => lookD t 0 (a + i)

/-- The bytes of a window as core `k` reaches it; `lm` is the item's local memory. -/
def winTab (k : Nat) (x : Job) (lm : Tab Byte) (w : Win) : Tab Byte :=
  match w with
  | .loc => lm
  | .code => sparse x.code 0
  | .data => lookD x.share [] (k / 16)
  | .scan => x.scanBuf
  | .dram => x.dram

/-- Whether a read of a range by core `k` meets a poisoned word of the DRAM window or of hamlet memory (R380). -/
def Job.poisoned (x : Job) (k : Nat) (w : Win) (a n : Nat) : Bool :=
  let meets := fun (p : Nat) => decide (8 * p < a + n) && decide (a < 8 * p + 8)
  match w with
  | .dram => x.poison.any meets
  | .data => x.sharePoison.any fun e => e.1 = k / 16 && meets e.2
  | _ => false

/-- A job's memory after a write to its hamlet data or DRAM window (R473: a whole word written clears its poison). -/
def Job.write (x : Job) (k : Nat) (w : Win) (a : Nat) (b : Bytes) : Job :=
  match w with
  | .data => { x with
      share := put x.share (k / 16) (putBytes (lookD x.share [] (k / 16)) a b)
      sharePoison := x.sharePoison.filter fun e => !(e.1 = k / 16 && decide (a ≤ 8 * e.2) && decide (8 * e.2 + 8 ≤ a + b.length)) }
  | .dram => { x with
      dram := putBytes x.dram a b
      poison := x.poison.filter fun p => !(decide (a ≤ 8 * p) && decide (8 * p + 8 ≤ a + b.length)) }
  | _ => x

/-- A write by the item running on core `k`. -/
def State.writeWin (s : State) (k j : Nat) (w : Win) (a : Nat) (b : Bytes) : State :=
  if w = .loc then s.setCore k fun c => { c with lm := putBytes c.lm a b } else s.setJob j fun x => x.write k w a b

/-- A write to an address of hamlet data or the DRAM window. -/
def State.writeAddr (s : State) (k j : Nat) (e : Nat × Bytes) : State :=
  match (look s.jobs j).bind fun x => x.win e.1 e.2.length with
  | some (w, a) => s.writeWin k j w a e.2
  | none => s

/-- Bytes at an address as the core sees them, its own outstanding stores in place (R378). -/
def overlay (st : List (Nat × Bytes)) (a : Nat) (b : Bytes) : Bytes :=
  b.mapIdx fun i v => st.foldl (fun v e => if decide (e.1 ≤ a + i) && decide (a + i < e.1 + e.2.length) then e.2.getD (a + i - e.1) 0
    else v) v

/-- What the running item reads at an address. -/
def State.loadBytes (s : State) (k : Nat) (x : Job) (c : Ctx) (w : Win) (a off n : Nat) : Bytes :=
  overlay c.stores a (getBytes (winTab k x (s.core k).lm w) off n)

/-! ### Items and faults -/

def State.setCtx (s : State) (k : Nat) (x : Ctx) : State := s.setCore k fun c => { c with ctx := some x }

/-- Ends an item (R386): its stores take place, a BATCH frees its batch, END is traced. -/
def State.endItem (s : State) (k : Nat) (x : Ctx) : State :=
  let s := x.stores.foldl (fun s e => s.writeAddr k x.job e) s
  let s := if x.item.kind = 2 then
      s.setJob x.job fun j => { j with batches := j.batches.filter fun b => 0x40000000 + b.addr ≠ x.item.w1.toNat, paused := [] }
    else s
  (s.setCore k fun c => { c with ctx := none }).trace 5 (k / 16) (k % 16) (some x.item) 0 0

/-- Whether nothing holds back the end of an item (R386). -/
def Ctx.quiet (x : Ctx) : Bool := x.dma.isEmpty && x.reqs.isEmpty

/-- An item that reached the done address ends once nothing holds it back (R386). -/
def State.endAtDone (s : State) (k : Nat) : State :=
  match (s.core k).ctx with
  | some x => if x.pc = doneAddr && x.quiet then s.endItem k x else s
  | none => s

/-- Codes of Table 12.4 by fault cause (Table 13.7). -/
def causeCode (cause : Nat) : Nat := if cause = 3 then 2 else 1

/-- A fault of a core (R391, R392, Table 13.8): `pc` is the byte offset in the code. What completed before it stands, and every multiply
in flight lands (R372). -/
def State.coreFault (s : State) (k : Nat) (x : Ctx) (pc : Nat) (word : Nat) (cause : Nat) (addr : W64) : State :=
  ((s.setCtx k x).jobFault x.job cause (causeCode cause) (k / 16 * 256 + k % 16) x.cycle
    [(24, 4, pc), (28, 4, word), (32, 8, addr.toNat), (40, 8, x.item.w0.toNat), (48, 8, x.item.w1.toNat),
     (56, 4, min x.cycle (2 ^ 32 - 1)), (60, 1, x.ldepth)]).haltCore x.job k

/-! ### Loops (R374) -/

/-- Whether the instruction at the PC stands at the LE of an active level. -/
def Ctx.atEnd (x : Ctx) : Bool := (List.range x.ldepth).any fun d => (lookD x.le 0 d).toNat = x.pc

/-- Where execution goes after the instruction at `old`'s PC, level by level from the innermost (R374, R413): LC as it
stands now, LS and LE as they stood when the instruction issued. -/
def loopNext (old : Ctx) : Nat → Ctx → Ctx × Nat
  | 0, x => (x, old.pc + 4)
  | d + 1, x =>
    if (lookD old.le 0 d).toNat ≠ old.pc then (x, old.pc + 4)
    else
      let n := lookD x.lc 0 d - 1
      let x := { x with lc := putD x.lc 0 d n }
      if n ≠ 0 then (x, (lookD old.ls 0 d).toNat) else loopNext old d { x with ldepth := d }

/-! ### Issue -/

/-- What an instruction does when it issues. -/
inductive Eff where
  /-- it waits: one more cycle -/
  | stall
  /-- a fault with its cause and ADDR -/
  | fault (cause : Nat) (addr : W64)
  /-- a read met a poisoned word (R380) -/
  | lost
  /-- it completes; execution goes on at the next instruction or a loop's start -/
  | on (x : Ctx) (s : State)
  /-- it completes; execution goes on at an address, after `n` cycles -/
  | jump (x : Ctx) (s : State) (target n : Nat)
  /-- it ends the item -/
  | finish (s : State)
  /-- its job has ended -/
  | gone (s : State)

/-- Execution arrives at an address: the done address ends the item, which waits there until it may end (R386); a fetch outside the code window raises WINDOW,
one inside it off a word boundary MISALIGNED (R377, R400). INSTR of such a fault is free: no word was fetched. -/
def State.arrive (s : State) (k : Nat) (jb : Job) (x : Ctx) (pc n : Nat) : State :=
  let x := { x with pc := pc, cycle := x.cycle + n }
  if pc = doneAddr then (s.setCtx k x).endAtDone k
  else if (jb.fetch pc).isSome then s.setCtx k x
  else
    let (v, s) := s.draw
    let inside := decide (0x100000 ≤ pc) && decide (pc < 0x100000 + jb.code.length)
    s.coreFault k x ((pc + 2 ^ 32 - 0x100000) % 2 ^ 32) (v % 2 ^ 32) (if inside then 2 else 3) 0

/-- The effect of an instruction on the core and the module. -/
def State.carryOut (s : State) (k : Nat) (jb : Job) (x : Ctx) (word : W32) (e : Eff) : State :=
  match e with
  | .stall => s.setCtx k { x with cycle := x.cycle + 1 }
  | .fault cause addr => s.coreFault k x (x.pc - 0x100000) word.toNat cause addr
  | .lost => s.endJob x.job { status := MEMORY_LOST }
  | .on y t =>
    let (y, pc) := loopNext x y.ldepth y
    t.arrive k jb y pc 1
  | .jump y t pc n => t.arrive k jb y pc n
  | .finish t => t
  | .gone t => t

/-- A core whose job has faulted stops at the boundary after the instruction at hand (R391). -/
def State.stopsAfter (s : State) (jb : Job) (j k : Nat) : State := if jb.fault.isSome then s.haltCore j k else s

/-- One core issues one instruction: the word at its PC, which must be the command's. Products due land first (R370); an
undefined encoding raises ILLEGAL_INSTRUCTION (R394); an instruction that uses a register a load has not filled waits
(R366). `uses` names registers: true a w register, false a g register. A core that has stopped issues none (R391). -/
def State.issueInstr (s : State) (c : CoreId) (word : W32) (bad : Ctx → Bool) (uses : List (Bool × Nat))
    (f : Job → Ctx → Eff) : Res' :=
  if !c.wf then .fault .noSuchPart
  else
    let k := coreNo c
    match (s.core k).ctx with
    | none => go s
    | some x0 =>
      match look s.jobs x0.job with
      | none => go s
      | some jb =>
        match jb.fetch x0.pc with
        | none => go s
        | some v =>
          let x := x0.landDue
          if jb.halted.contains k || (listed v && v ≠ word) then go s
          else
            let e := if !listed v || bad x then .fault 1 0
              else if x.loads.any fun l => uses.contains (l.wide, l.rd) then .stall
              else f jb x
            go ((s.carryOut k jb x v e).stopsAfter jb x0.job k)

/-- Use of a general and of a SIMD register. -/
def useG (r : Reg) : Bool × Nat := (false, r.toNat)
def useW (r : Reg) : Bool × Nat := (true, r.toNat)

/-- Never ill-formed. -/
def fine (_ : Ctx) : Bool := false

/-- Whether fields an instruction leaves unused, or marks zero, are not zero. -/
def nonzero (n : Nat) (_ : Ctx) : Bool := n ≠ 0

/-! ### Contexts of a core, running and parked -/

/-- The first context of a core that satisfies `p`: the running one, then parked ones in order; whether it runs. -/
def State.findCtx (s : State) (k : Nat) (p : Ctx → Bool) : Option (Ctx × Bool) :=
  match (s.core k).ctx.filter p with
  | some x => some (x, true)
  | none => ((s.core k).parked.find? p).map fun x => (x, false)

/-- Replaces that context. -/
def State.putCtx (s : State) (k : Nat) (old new : Ctx) (run : Bool) : State :=
  if run then s.setCtx k new
  else s.setCore k fun c => { c with parked := c.parked.map fun x => if x = old then new else x }

/-- Writes to the local memory of a context: the core's while it runs, else what was saved (R428). -/
def State.writeLocal (s : State) (k : Nat) (old new : Ctx) (run : Bool) (a : Nat) (b : Bytes) : State :=
  if run then (s.setCtx k new).writeWin k new.job .loc a b
  else s.putCtx k old { new with saved := putBytes new.saved a b } false

/-- The local memory of a context. -/
def State.localOf (s : State) (k : Nat) (x : Ctx) (run : Bool) : Tab Byte := if run then (s.core k).lm else x.saved

end Sys2Proof.Machine
end

