-- ==== Sys2Proof/Machine/TrakaInt.lean ====
section
/-! DEFINITION. Integer instructions (R397, R398), CRC (R399), control transfer (R400), loops (R411, R412) and special-register
moves (R376, R413, R417) of a Traka-S core. -/

namespace Sys2Proof.Machine

/-! ### Integer instructions -/

/-- R-format: rd receives a function of rs1 and rs2 (Table 14.4). -/
def State.intR (s : State) (c : CoreId) (fn : Nat) (f : W64 → W64 → W64) (rd rs1 rs2 : Reg) : Res' :=
  s.issueInstr c (wR 0x01 rd rs1 rs2 fn) fine [useG rd, useG rs1, useG rs2] fun _ x =>
    .on (x.setG rd.toNat (f (x.rg rs1.toNat) (x.rg rs2.toNat))) s

/-- Unary R-format: RS2 must be zero. -/
def State.intU (s : State) (c : CoreId) (fn : Nat) (f : W64 → W64) (rd rs1 rs2 : Reg) : Res' :=
  s.issueInstr c (wR 0x01 rd rs1 rs2 fn) (nonzero rs2.toNat) [useG rd, useG rs1] fun _ x =>
    .on (x.setG rd.toNat (f (x.rg rs1.toNat))) s

/-- I-format: rd receives a function of rs1; `bad` marks an illegal immediate. -/
def State.intI (s : State) (c : CoreId) (op : Nat) (bad : Bool) (f : W64 → W64) (rd rs1 : Reg) (imm : BitVec 16) : Res' :=
  s.issueInstr c (wI op rd rs1 imm) (fun _ => bad) [useG rd, useG rs1] fun _ x =>
    .on (x.setG rd.toNat (f (x.rg rs1.toNat))) s

/-- A comparison as 1 or 0. -/
def flag (b : Bool) : W64 := if b then 1 else 0

/-- A shift amount: the low six bits. -/
def shAmt (b : W64) : Nat := b.toNat % 64

/-- Zero bits before the first set bit from the top, and from the bottom; 64 for 0. -/
def leadZeros (a : W64) : Nat := ((List.range 64).find? fun i => a.getLsbD (63 - i)).getD 64
def trailZeros (a : W64) : Nat := ((List.range 64).find? fun i => a.getLsbD i).getD 64

/-- The eight bytes in reverse order. -/
def swapBytes (a : W64) : W64 := BitVec.ofNat 64 (le (toLe a.toNat 8).reverse 0 8)

/-- IMM16 sign-extended and zero-extended. -/
def simm (i : BitVec 16) : W64 := i.signExtend 64
def uimm (i : BitVec 16) : W64 := i.setWidth 64

def opSra (a : W64) (n : Nat) : W64 := a.sshiftRight n
def opRor (a b : W64) : W64 := a.rotateRight (shAmt b)

/-- ADD (R397). -/
def execAdd (c : CoreId) (rd rs1 rs2 : Reg) (s : State) : Res' := s.intR c 0x00 (fun a b => a + b) rd rs1 rs2

/-- SUB (R397). -/
def execSub (c : CoreId) (rd rs1 rs2 : Reg) (s : State) : Res' := s.intR c 0x01 (fun a b => a - b) rd rs1 rs2

/-- AND (R397). -/
def execAnd_ (c : CoreId) (rd rs1 rs2 : Reg) (s : State) : Res' := s.intR c 0x02 (fun a b => a &&& b) rd rs1 rs2

/-- OR (R397). -/
def execOr_ (c : CoreId) (rd rs1 rs2 : Reg) (s : State) : Res' := s.intR c 0x03 (fun a b => a ||| b) rd rs1 rs2

/-- XOR (R397). -/
def execXor (c : CoreId) (rd rs1 rs2 : Reg) (s : State) : Res' := s.intR c 0x04 (fun a b => a ^^^ b) rd rs1 rs2

/-- ANDN (R397). -/
def execAndn (c : CoreId) (rd rs1 rs2 : Reg) (s : State) : Res' := s.intR c 0x05 (fun a b => a &&& ~~~b) rd rs1 rs2

/-- SLL (R397). -/
def execSll (c : CoreId) (rd rs1 rs2 : Reg) (s : State) : Res' := s.intR c 0x08 (fun a b => a <<< shAmt b) rd rs1 rs2

/-- SRL (R397). -/
def execSrl (c : CoreId) (rd rs1 rs2 : Reg) (s : State) : Res' := s.intR c 0x09 (fun a b => a >>> shAmt b) rd rs1 rs2

/-- SRA (R397). -/
def execSra (c : CoreId) (rd rs1 rs2 : Reg) (s : State) : Res' := s.intR c 0x0A (fun a b => opSra a (shAmt b)) rd rs1 rs2

/-- ROR (R397). -/
def execRor (c : CoreId) (rd rs1 rs2 : Reg) (s : State) : Res' := s.intR c 0x0B (opRor) rd rs1 rs2

/-- SEQ (R397). -/
def execSeq (c : CoreId) (rd rs1 rs2 : Reg) (s : State) : Res' := s.intR c 0x10 (fun a b => flag (a = b)) rd rs1 rs2

/-- SNE (R397). -/
def execSne (c : CoreId) (rd rs1 rs2 : Reg) (s : State) : Res' := s.intR c 0x11 (fun a b => flag (a ≠ b)) rd rs1 rs2

/-- SLT (R397). -/
def execSlt (c : CoreId) (rd rs1 rs2 : Reg) (s : State) : Res' := s.intR c 0x12 (fun a b => flag (a.slt b)) rd rs1 rs2

/-- SLTU (R397). -/
def execSltu (c : CoreId) (rd rs1 rs2 : Reg) (s : State) : Res' := s.intR c 0x13 (fun a b => flag (a.ult b)) rd rs1 rs2

/-- MIN (R397). -/
def execMin (c : CoreId) (rd rs1 rs2 : Reg) (s : State) : Res' := s.intR c 0x14 (fun a b => if b.slt a then b else a) rd rs1 rs2

/-- MAX (R397). -/
def execMax (c : CoreId) (rd rs1 rs2 : Reg) (s : State) : Res' := s.intR c 0x15 (fun a b => if a.slt b then b else a) rd rs1 rs2

/-- MINU (R397). -/
def execMinu (c : CoreId) (rd rs1 rs2 : Reg) (s : State) : Res' := s.intR c 0x16 (fun a b => if b.ult a then b else a) rd rs1 rs2

/-- MAXU (R397). -/
def execMaxu (c : CoreId) (rd rs1 rs2 : Reg) (s : State) : Res' := s.intR c 0x17 (fun a b => if a.ult b then b else a) rd rs1 rs2

/-- CLZ (R397). -/
def execClz (c : CoreId) (rd rs1 rs2 : Reg) (s : State) : Res' := s.intU c 0x20 (fun a => BitVec.ofNat 64 (leadZeros a)) rd rs1 rs2

/-- CTZ (R397). -/
def execCtz (c : CoreId) (rd rs1 rs2 : Reg) (s : State) : Res' := s.intU c 0x21 (fun a => BitVec.ofNat 64 (trailZeros a)) rd rs1 rs2

/-- POPC (R397). -/
def execPopc (c : CoreId) (rd rs1 rs2 : Reg) (s : State) : Res' := s.intU c 0x22 (fun a => BitVec.ofNat 64 (ones 64 a)) rd rs1 rs2

/-- BSWAP (R397). -/
def execBswap (c : CoreId) (rd rs1 rs2 : Reg) (s : State) : Res' := s.intU c 0x23 (swapBytes) rd rs1 rs2

/-- ADDI (R398). -/
def execAddi (c : CoreId) (rd rs1 : Reg) (imm : BitVec 16) (s : State) : Res' :=
  s.intI c 0x02 false (fun a => a + simm imm) rd rs1 imm

/-- ANDI (R398). -/
def execAndi (c : CoreId) (rd rs1 : Reg) (imm : BitVec 16) (s : State) : Res' :=
  s.intI c 0x03 false (fun a => a &&& uimm imm) rd rs1 imm

/-- ORI (R398). -/
def execOri (c : CoreId) (rd rs1 : Reg) (imm : BitVec 16) (s : State) : Res' :=
  s.intI c 0x04 false (fun a => a ||| uimm imm) rd rs1 imm

/-- XORI (R398). -/
def execXori (c : CoreId) (rd rs1 : Reg) (imm : BitVec 16) (s : State) : Res' :=
  s.intI c 0x05 false (fun a => a ^^^ uimm imm) rd rs1 imm

/-- SLTI (R398). -/
def execSlti (c : CoreId) (rd rs1 : Reg) (imm : BitVec 16) (s : State) : Res' :=
  s.intI c 0x06 false (fun a => flag (a.slt (simm imm))) rd rs1 imm

/-- SLTIU (R398). -/
def execSltiu (c : CoreId) (rd rs1 : Reg) (imm : BitVec 16) (s : State) : Res' :=
  s.intI c 0x07 false (fun a => flag (a.ult (simm imm))) rd rs1 imm

/-- SLLI (R398). -/
def execSlli (c : CoreId) (rd rs1 : Reg) (imm : BitVec 16) (s : State) : Res' :=
  s.intI c 0x08 (decide (imm.toNat ≥ 64)) (fun a => a <<< (imm.toNat % 64)) rd rs1 imm

/-- SRLI (R398). -/
def execSrli (c : CoreId) (rd rs1 : Reg) (imm : BitVec 16) (s : State) : Res' :=
  s.intI c 0x09 (decide (imm.toNat ≥ 64)) (fun a => a >>> (imm.toNat % 64)) rd rs1 imm

/-- SRAI (R398). -/
def execSrai (c : CoreId) (rd rs1 : Reg) (imm : BitVec 16) (s : State) : Res' :=
  s.intI c 0x0A (decide (imm.toNat ≥ 64)) (fun a => opSra a (imm.toNat % 64)) rd rs1 imm

/-- CATI (R398): rd becomes (rd × 2^16) OR IMM16. -/
def execCati (c : CoreId) (rd z : Reg) (imm : BitVec 16) (s : State) : Res' :=
  s.issueInstr c (wI 0x0B rd z imm) (nonzero z.toNat) [useG rd] fun _ x =>
    .on (x.setG rd.toNat (x.rg rd.toNat <<< 16 ||| uimm imm)) s

/-! ### CRC (R399) -/

/-- The CRC-32C state in rs1[31:0] advanced over the low `n` bytes of rs2. -/
def State.crcInstr (s : State) (c : CoreId) (fn n : Nat) (rd rs1 rs2 : Reg) : Res' :=
  s.issueInstr c (wR 0x0D rd rs1 rs2 fn) fine [useG rd, useG rs1, useG rs2] fun _ x =>
    .on (x.setG rd.toNat
      ((crcFold ((x.rg rs1.toNat).setWidth 32) (toLe (x.rg rs2.toNat).toNat n)).setWidth 64)) s

/-- CRC32C over 1 byte (R399). -/
def execCrc32cB (c : CoreId) (rd rs1 rs2 : Reg) (s : State) : Res' := s.crcInstr c 0 1 rd rs1 rs2

/-- CRC32C over 2 bytes (R399). -/
def execCrc32cH (c : CoreId) (rd rs1 rs2 : Reg) (s : State) : Res' := s.crcInstr c 1 2 rd rs1 rs2

/-- CRC32C over 4 bytes (R399). -/
def execCrc32cW (c : CoreId) (rd rs1 rs2 : Reg) (s : State) : Res' := s.crcInstr c 2 4 rd rs1 rs2

/-- CRC32C over 8 bytes (R399). -/
def execCrc32cD (c : CoreId) (rd rs1 rs2 : Reg) (s : State) : Res' := s.crcInstr c 3 8 rd rs1 rs2

/-! ### Control transfer (R400) -/

/-- A taken transfer: MISALIGNED or WINDOW for a bad target, raised by the transfer itself; two cycles. -/
def transfer (jb : Job) (x : Ctx) (s : State) (target : W64) : Eff :=
  let t := target.toNat
  if t % 4 ≠ 0 then .fault 2 target
  else if t = doneAddr || (jb.fetch t).isSome then .jump x s t 2
  else .fault 3 target

/-- The PC as a word. -/
def Ctx.pcw (x : Ctx) : W64 := BitVec.ofNat 64 x.pc

/-- A branch: taken where the condition on rs1 and rs2 holds. -/
def State.branch (s : State) (c : CoreId) (op : Nat) (f : W64 → W64 → Bool) (rs1 rs2 : Reg) (disp : BitVec 16) : Res' :=
  s.issueInstr c (wI op rs1 rs2 disp) Ctx.atEnd [useG rs1, useG rs2] fun jb x =>
    if f (x.rg rs1.toNat) (x.rg rs2.toNat) then transfer jb x s (x.pcw + 4 * disp.signExtend 64)
    else .on x s

/-- BEQ (R400). -/
def execBeq (c : CoreId) (rs1 rs2 : Reg) (disp : BitVec 16) (s : State) : Res' := s.branch c 0x10 (fun a b => decide (a = b)) rs1 rs2 disp

/-- BNE (R400). -/
def execBne (c : CoreId) (rs1 rs2 : Reg) (disp : BitVec 16) (s : State) : Res' := s.branch c 0x11 (fun a b => decide (a ≠ b)) rs1 rs2 disp

/-- BLT (R400). -/
def execBlt (c : CoreId) (rs1 rs2 : Reg) (disp : BitVec 16) (s : State) : Res' := s.branch c 0x12 (BitVec.slt) rs1 rs2 disp

/-- BGE (R400). -/
def execBge (c : CoreId) (rs1 rs2 : Reg) (disp : BitVec 16) (s : State) : Res' := s.branch c 0x13 (fun a b => !a.slt b) rs1 rs2 disp

/-- BLTU (R400). -/
def execBltu (c : CoreId) (rs1 rs2 : Reg) (disp : BitVec 16) (s : State) : Res' := s.branch c 0x14 (BitVec.ult) rs1 rs2 disp

/-- BGEU (R400). -/
def execBgeu (c : CoreId) (rs1 rs2 : Reg) (disp : BitVec 16) (s : State) : Res' := s.branch c 0x15 (fun a b => !a.ult b) rs1 rs2 disp

/-- J (R400). -/
def execJ (c : CoreId) (disp : BitVec 26) (s : State) : Res' :=
  s.issueInstr c (wJ 0x16 disp) Ctx.atEnd [] fun jb x => transfer jb x s (x.pcw + 4 * disp.signExtend 64)

/-- CALL (R400): PC + 4 to g31. -/
def execCall (c : CoreId) (disp : BitVec 26) (s : State) : Res' :=
  s.issueInstr c (wJ 0x17 disp) Ctx.atEnd [(false, 31)] fun jb x =>
    transfer jb (x.setG 31 (x.pcw + 4)) s (x.pcw + 4 * disp.signExtend 64)

/-- JALR (R400): to rs1 + IMM16, PC + 4 to rd. -/
def execJalr (c : CoreId) (rd rs1 : Reg) (imm : BitVec 16) (s : State) : Res' :=
  s.issueInstr c (wI 0x18 rd rs1 imm) Ctx.atEnd [useG rd, useG rs1] fun jb x =>
    transfer jb (x.setG rd.toNat (x.pcw + 4)) s (x.rg rs1.toNat + simm imm)

/-! ### Loops (R373, R375, R411, R412) -/

/-- Opens a loop level, or passes over the body for a count of 0. -/
def Ctx.openLoop (x : Ctx) (s : State) (n : W32) (fin : BitVec 16) : Eff :=
  let e := x.pc + 4 * fin.toNat
  if n = 0 then .jump x s (e + 4) 1
  else .jump { x with
    ls := putD x.ls 0 x.ldepth (x.pcw + 4), le := putD x.le 0 x.ldepth (BitVec.ofNat 64 e)
    lc := putD x.lc 0 x.ldepth n, ldepth := x.ldepth + 1 } s (x.pc + 4) 1

/-- Whether LOOP or LOOPI is ill-formed: END 0 or negative, four levels open, or at the LE of an active level. -/
def badLoop (fin : BitVec 16) (x : Ctx) : Bool := fin = 0 || fin.msb || x.ldepth ≥ 4 || x.atEnd

/-- LOOP (R373, R411): count from rs[31:0]. -/
def execLoop (c : CoreId) (rs z : Reg) (fin : BitVec 16) (s : State) : Res' :=
  s.issueInstr c (wI 0x38 rs z fin) (fun x => nonzero z.toNat x || badLoop fin x) [useG rs] fun _ x =>
    x.openLoop s ((x.rg rs.toNat).setWidth 32) fin

/-- LOOPI (R373, R411): count from CNT. -/
def execLoopi (c : CoreId) (cnt : BitVec 10) (fin : BitVec 16) (s : State) : Res' :=
  s.issueInstr c (wOp 0x39 (cnt.toNat * 2 ^ 16 + fin.toNat)) (badLoop fin) [] fun _ x => x.openLoop s (cnt.setWidth 32) fin

/-- LBRK (R375, R412): closes the innermost level. -/
def execLbrk (c : CoreId) (z : BitVec 26) (s : State) : Res' :=
  s.issueInstr c (wJ 0x3A z) (fun x => nonzero z.toNat x || x.ldepth = 0 || x.atEnd) [] fun _ x =>
    .on { x with ldepth := x.ldepth - 1 } s

/-! ### Special registers (R376, Table 13.2) -/

/-- Whether a core's output is paused (R340, R390). -/
def Job.outStall (x : Job) : Bool := x.outPaused.isSome

/-- The value of a special register; none for a number Table 13.2 does not list. -/
def State.readSr (s : State) (k : Nat) (jb : Job) (x : Ctx) (sr : Nat) : Option W64 :=
  match sr with
  | 0x000 => some (BitVec.ofNat 64 x.cycle)
  | 0x001 => some (BitVec.ofNat 64 s.bell.now)
  | 0x002 => some (BitVec.ofNat 64 (k % 16 + k / 16 * 256))
  | 0x003 => some x.amode
  | 0x004 => some (BitVec.ofNat 64 x.ldepth)
  | 0x008 | 0x009 | 0x00A | 0x00B => some (lookD x.ls 0 (sr - 0x008))
  | 0x00C | 0x00D | 0x00E | 0x00F => some (lookD x.le 0 (sr - 0x00C))
  | 0x010 | 0x011 | 0x012 | 0x013 => some ((lookD x.lc 0 (sr - 0x010)).setWidth 64)
  | 0x018 => some (flag (s.core k).slot.isSome)
  | 0x019 => some (BitVec.ofNat 64 ((List.range 8).foldl (fun n k => n + if x.dma.any fun d => d.tag = k then 2 ^ k else 0) 0))
  | 0x01A => some (BitVec.ofNat 64 x.reqs.length)
  | 0x01B => some (flag jb.outStall)
  | _ => none

/-- Whether a special register may be written. -/
def srWritable (sr : Nat) : Bool := sr = 0x003 || (0x008 ≤ sr && sr ≤ 0x013)

/-- Whether a value gives AMODE a field of 3 (R367). -/
def badAmode (v : W64) : Bool := (List.range 8).any fun k => bits v.toNat (2 * k + 1) (2 * k) = 3

/-- A core after a write of a special register: loop registers at or above LDEPTH do not change (R375). -/
def Ctx.writeSr (x : Ctx) (sr : Nat) (v : W64) : Ctx :=
  if sr = 0x003 then { x with amode := v }
  else if sr % 4 ≥ x.ldepth then x
  else if sr < 0x00C then { x with ls := putD x.ls 0 (sr % 4) v }
  else if sr < 0x010 then { x with le := putD x.le 0 (sr % 4) v }
  else { x with lc := putD x.lc 0 (sr % 4) (v.setWidth 32) }

/-- MFSR (R417). -/
def execMfsr (c : CoreId) (rd : Reg) (z : BitVec 9) (sr : BitVec 12) (s : State) : Res' :=
  s.issueInstr c (wS 0x3D rd z sr) (nonzero z.toNat) [useG rd] fun jb x =>
    match s.readSr (coreNo c) jb x sr.toNat with
    | some v => .on (x.setG rd.toNat v) s
    | none => .fault 1 0

/-- MTSR (R417): a register that is RO or not listed, or an AMODE field of 3, raises ILLEGAL_INSTRUCTION. -/
def execMtsr (c : CoreId) (rs : Reg) (z : BitVec 9) (sr : BitVec 12) (s : State) : Res' :=
  s.issueInstr c (wS 0x3E rs z sr) (fun x => nonzero z.toNat x || !srWritable sr.toNat) [useG rs] fun _ x =>
    if sr.toNat = 0x003 && badAmode (x.rg rs.toNat) then .fault 1 0 else .on (x.writeSr sr.toNat (x.rg rs.toNat)) s

end Sys2Proof.Machine
end

