-- ==== Sys2Proof/Machine/TrakaMem.lean ====
section
/-! DEFINITION. Memory, address and DMA instructions of a Traka-S core (R401 to R406), and the completion of loads, stores
and DMA transfers (R366, R379, R403). -/

namespace Sys2Proof.Machine

/-! ### Forming an address (R401, R402) -/

/-- The access of a memory instruction: faults in the order of R402, then what it does with the address register updated. -/
def Ctx.access (x : Ctx) (jb : Job) (ak upd : Nat) (inc : Int) (size : Nat) (ok : Win → Bool)
    (f : Ctx → Win → Nat → Nat → Eff) : Eff :=
  let old := x.ra ak
  let new := if upd = 0 then some old else x.bump ak inc
  if upd = 2 && new.isNone then .fault 4 0
  else
    let a := if upd = 0 then old + BitVec.ofInt 64 inc else if upd = 1 then old else new.getD 0
    if a.toNat % size ≠ 0 then .fault 2 a
    else match jb.win a.toNat size with
      | none => .fault 3 a
      | some (w, off) =>
        if !ok w then .fault 3 a
        else match new with
          | none => .fault 4 0
          | some v => f (x.setA ak v) w a.toNat off

/-- Windows that admit a load; those that admit a store or an atomic (Table 13.3). -/
def Win.reads (_ : Win) : Bool := true
def Win.writes (w : Win) : Bool := w = .loc || w = .data || w = .dram

/-- A loaded value waits for its completion (R366); one for g0 is discarded. -/
def Ctx.pend (x : Ctx) (wide : Bool) (rd : Nat) (v : W128) : Ctx :=
  if !wide && rd = 0 then x else { x with loads := x.loads ++ [⟨wide, rd, v⟩] }

/-- The bytes of a number extended to 64 bits. -/
def extend (sx : Bool) (b : Bytes) : W64 :=
  let v := le b 0 b.length
  if sx && bit v (8 * b.length - 1) then BitVec.ofInt 64 ((v : Int) - 2 ^ (8 * b.length)) else BitVec.ofNat 64 v

/-- A load into register `rd` through a window. -/
def State.loadEff (s : State) (k : Nat) (jb : Job) (wide : Bool) (rd n : Nat) (sx : Bool) (x : Ctx) (w : Win) (a off : Nat) :
    Eff :=
  if jb.poisoned k w off n then .lost
  else
    let b := s.loadBytes k jb x w a off n
    .on (x.pend wide rd (if wide then BitVec.ofNat 128 (le b 0 16) else (extend sx b).setWidth 128)) s

/-- A store (R403): complete at once in local memory, else outstanding; a ninth waits. -/
def State.storeEff (s : State) (k : Nat) (b : Bytes) (x : Ctx) (w : Win) (a off : Nat) : Eff :=
  if w = .loc then .on x (s.writeWin k x.job .loc off b)
  else if x.stores.length ≥ 8 then .stall
  else .on { x with stores := x.stores ++ [(a, b)] } s

/-- LD (R401). -/
def execLd (c : CoreId) (rt : Reg) (ak : BitVec 3) (upd sz : BitVec 2) (sx : Bool) (imm : BitVec 13) (s : State) : Res' :=
  let n : Nat := 2 ^ sz.toNat
  s.issueInstr c (wM 0x20 rt ak upd sz sx imm) (fun _ => upd = 3 || (sx && sz = 3)) [useG rt] fun jb x =>
    x.access jb ak.toNat upd.toNat (imm.toInt * n) n Win.reads (s.loadEff (coreNo c) jb false rt.toNat n sx)

/-- ST (R401). -/
def execSt (c : CoreId) (rt : Reg) (ak : BitVec 3) (upd sz : BitVec 2) (sx : Bool) (imm : BitVec 13) (s : State) : Res' :=
  let n : Nat := 2 ^ sz.toNat
  s.issueInstr c (wM 0x21 rt ak upd sz sx imm) (fun _ => upd = 3 || sx) [useG rt] fun jb x =>
    x.access jb ak.toNat upd.toNat (imm.toInt * n) n Win.writes
      (s.storeEff (coreNo c) (toLe (x.rg rt.toNat).toNat n))

/-- LDQ (R401). -/
def execLdq (c : CoreId) (rt : Reg) (ak : BitVec 3) (upd sz : BitVec 2) (sx : Bool) (imm : BitVec 13) (s : State) : Res' :=
  s.issueInstr c (wM 0x22 rt ak upd sz sx imm) (fun _ => upd = 3 || sx || sz ≠ 0 || rt.toNat > 15) [useW rt] fun jb x =>
    x.access jb ak.toNat upd.toNat (imm.toInt * 16) 16 Win.reads (s.loadEff (coreNo c) jb true rt.toNat 16 false)

/-- STQ (R401). -/
def execStq (c : CoreId) (rt : Reg) (ak : BitVec 3) (upd sz : BitVec 2) (sx : Bool) (imm : BitVec 13) (s : State) : Res' :=
  s.issueInstr c (wM 0x23 rt ak upd sz sx imm) (fun _ => upd = 3 || sx || sz ≠ 0 || rt.toNat > 15) [useW rt] fun jb x =>
    x.access jb ak.toNat upd.toNat (imm.toInt * 16) 16 Win.writes
      (s.storeEff (coreNo c) (toLe (x.rw rt.toNat).toNat 16))

/-! ### Atomics (R378, R404) -/

/-- Whether what a FENCE waits for is outstanding (R415). -/
def Ctx.unfenced (x : Ctx) : Bool := !x.stores.isEmpty || !x.dma.isEmpty

/-- An atomic on a window word: `f` gives the new word from the old one and the registers rs1 and rs2. It is ordered as
if a FENCE stood before it, so it waits for what a FENCE waits for. -/
def State.atom (s : State) (c : CoreId) (op : Nat) (f : W64 → W64 → W64 → W64) (rd rs1 rs2 : Reg) (fn : BitVec 11) : Res' :=
  let k := coreNo c
  s.issueInstr c (wR 0x26 rd rs1 rs2 (fn.toNat / 4 * 4 + op))
    (fun _ => fn.toNat / 4 % 64 ≠ 0 || (op ≠ 0 && rs1.toNat ≠ 0)) [useG rd, useG rs1, useG rs2] fun jb x =>
    x.access jb (fn.toNat / 256) 0 0 8 Win.writes fun x w _ off =>
      if x.unfenced then .stall
      else if jb.poisoned k w off 8 then .lost
      else
        let old := BitVec.ofNat 64 (le (getBytes (winTab k jb (s.core k).lm w) off 8) 0 8)
        let new := f old (x.rg rs1.toNat) (x.rg rs2.toNat)
        .on (x.pend false rd.toNat (old.setWidth 128)) (s.writeWin k x.job w off (toLe new.toNat 8))

/-- ATOM CAS: rs2 is stored if the old word equals rs1. -/
def execAtomCas (c : CoreId) (rd rs1 rs2 : Reg) (fn : BitVec 11) (s : State) : Res' :=
  s.atom c 0 (fun old a b => if old = a then b else old) rd rs1 rs2 fn

/-- ATOM SWAP. -/
def execAtomSwap (c : CoreId) (rd rs1 rs2 : Reg) (fn : BitVec 11) (s : State) : Res' :=
  s.atom c 1 (fun _ _ b => b) rd rs1 rs2 fn

/-- ATOM FADD. -/
def execAtomFadd (c : CoreId) (rd rs1 rs2 : Reg) (fn : BitVec 11) (s : State) : Res' :=
  s.atom c 2 (fun old _ b => old + b) rd rs1 rs2 fn

/-! ### Address instructions (R405) -/

/-- ADDA: ak updated by IMM16 bytes under its mode. -/
def execAdda (c : CoreId) (rs : Reg) (ak : BitVec 3) (imm : BitVec 16) (s : State) : Res' :=
  s.issueInstr c (wA 0x24 rs ak 0 imm) (nonzero rs.toNat) [] fun _ x =>
    match x.bump ak.toNat imm.toInt with
    | some v => .on (x.setA ak.toNat v) s
    | none => .fault 4 0

/-- ADDAR: ak updated by rs bytes under its mode. -/
def execAddar (c : CoreId) (rs : Reg) (ak : BitVec 3) (imm : BitVec 16) (s : State) : Res' :=
  s.issueInstr c (wA 0x24 rs ak 1 imm) (nonzero imm.toNat) [useG rs] fun _ x =>
    match x.bump ak.toNat (x.rg rs.toNat).toInt with
    | some v => .on (x.setA ak.toNat v) s
    | none => .fault 4 0

/-- MVA: ak receives rs. MVA has no use for IMM16, which must be zero (R394). -/
def execMva (c : CoreId) (rs : Reg) (ak : BitVec 3) (imm : BitVec 16) (s : State) : Res' :=
  s.issueInstr c (wA 0x24 rs ak 2 imm) (nonzero imm.toNat) [useG rs] fun _ x => .on (x.setA ak.toNat (x.rg rs.toNat)) s

/-- MVM: mk receives rs[31:0]. -/
def execMvm (c : CoreId) (rs : Reg) (ak : BitVec 3) (imm : BitVec 16) (s : State) : Res' :=
  s.issueInstr c (wA 0x25 rs ak 0 imm) (nonzero imm.toNat) [useG rs] fun _ x =>
    .on (x.setM ak.toNat ((x.rg rs.toNat).setWidth 32)) s

/-- MFA: the register of RS receives ak. -/
def execMfa (c : CoreId) (rs : Reg) (ak : BitVec 3) (imm : BitVec 16) (s : State) : Res' :=
  s.issueInstr c (wA 0x25 rs ak 1 imm) (nonzero imm.toNat) [useG rs] fun _ x => .on (x.setG rs.toNat (x.ra ak.toNat)) s

/-- MFM: the register of RS receives mk, zero-extended. -/
def execMfm (c : CoreId) (rs : Reg) (ak : BitVec 3) (imm : BitVec 16) (s : State) : Res' :=
  s.issueInstr c (wA 0x25 rs ak 2 imm) (nonzero imm.toNat) [useG rs] fun _ x =>
    .on (x.setG rs.toNat ((x.rm ak.toNat).setWidth 64)) s

/-! ### DMA (R379, R406) -/

/-- Whether a remote range is admitted for a direction. -/
def dmaRemote (w : Win) (out : Bool) : Bool := w = .data || w = .dram || (w = .scan && !out)

/-- DMA: checks in the order of R402, then the transfer is outstanding; a tag in use waits. -/
def execDma (c : CoreId) (rd rs1 rs2 : Reg) (fn : BitVec 11) (s : State) : Res' :=
  s.issueInstr c (wR 0x27 rd rs1 rs2 fn.toNat) (nonzero (fn.toNat / 16)) [useG rd, useG rs1, useG rs2] fun jb x =>
    let len := x.rg rd.toNat
    let a := x.rg rs1.toNat
    let b := x.rg rs2.toNat
    let n := len.toNat
    let out := bit fn.toNat 3
    let tag := fn.toNat % 8
    if n % 8 ≠ 0 then .fault 2 0
    else if a.toNat % 8 ≠ 0 then .fault 2 a
    else if b.toNat % 8 ≠ 0 then .fault 2 b
    else if n = 0 || n > 65536 then .fault 3 0
    else if (jb.win a.toNat n).map (·.1) ≠ some .loc then .fault 3 a
    else if !(match jb.win b.toNat n with
        | some (w, _) => dmaRemote w out
        | none => false) then .fault 3 b
    else if x.dma.any fun d => d.tag = tag then .stall
    else .on { x with dma := x.dma ++ [⟨tag, out, a.toNat, b.toNat, n⟩] } s

/-- DMA_COMPLETE (R379): the data of an outstanding transfer moves and its tag clears. A source word that is poisoned ends
the job (R380); transfers of a job that faulted are abandoned (R391). -/
def execDmaComplete (c : CoreId) (tag : BitVec 3) (s : State) : Res' :=
  if !c.wf then .fault .noSuchPart
  else
    let k := coreNo c
    let mine := fun (d : Dma) => decide (d.tag = tag.toNat)
    match s.findCtx k fun x => x.dma.any mine with
    | none => go s
    | some (x, run) =>
      match x.dma.find? mine, look s.jobs x.job with
      | some d, some jb =>
        if jb.fault.isSome then go s else
        let y := { x with dma := x.dma.filter fun e => !mine e }
        match jb.win d.remote d.len with
        | some (w, off) =>
          if d.toRemote then
            go (((s.putCtx k x y run).writeWin k x.job w off (getBytes (s.localOf k x run) d.local_ d.len)).endAtDone k)
          else if jb.poisoned k w off d.len then go (s.endJob x.job { status := MEMORY_LOST })
          else go ((s.writeLocal k x y run d.local_ (getBytes (winTab k jb [] w) off d.len)).endAtDone k)
        | none => go ((s.putCtx k x y run).endAtDone k)
      | _, _ => go s

/-! ### Completions -/

/-- LOAD_COMPLETE (R366): the value of the oldest load or atomic outstanding is present in its register. -/
def execLoadComplete (c : CoreId) (s : State) : Res' :=
  if !c.wf then .fault .noSuchPart
  else
    let k := coreNo c
    match s.findCtx k fun x => !x.loads.isEmpty with
    | none => go s
    | some (x, run) =>
      match x.loads with
      | [] => go s
      | l :: ls =>
        let y := if l.wide then x.setW l.rd l.val else x.setG l.rd (l.val.setWidth 64)
        go (s.putCtx k x { y with loads := ls } run)

/-- STORE_COMPLETE (R403): the oldest store outstanding takes place. -/
def execStoreComplete (c : CoreId) (s : State) : Res' :=
  if !c.wf then .fault .noSuchPart
  else
    let k := coreNo c
    match s.findCtx k fun x => !x.stores.isEmpty with
    | none => go s
    | some (x, run) =>
      match x.stores with
      | [] => go s
      | e :: es => go ((s.putCtx k x { x with stores := es } run).writeAddr k x.job e)

end Sys2Proof.Machine
end

