-- ==== Sys2Proof/Machine/TrakaSimd.lean ====
section
/-! DEFINITION. SIMD instructions (R407) and multiply instructions (R408 to R410) of a Traka-S core, and the landing of a
product (R370). -/

namespace Sys2Proof.Machine

/-! ### SIMD (Table 14.7) -/

/-- The word of a SIMD instruction: operation, element width, LANE. -/
def wV (op : Nat) (e : BitVec 2) (lane : BitVec 4) (rd rs1 rs2 : Reg) : W32 :=
  wR 0x30 rd rs1 rs2 (lane.toNat * 2 ^ 7 + op * 2 ^ 2 + e.toNat)

/-- wd receives a function of ws1 and ws2; `only8` where E must be 0. -/
def State.simd (s : State) (c : CoreId) (op : Nat) (only8 : Bool) (f : W128 → W128 → W128) (e : BitVec 2) (lane : BitVec 4)
    (rd rs1 rs2 : Reg) : Res' :=
  s.issueInstr c (wV op e lane rd rs1 rs2)
    (fun _ => lane ≠ 0 || rd.toNat > 15 || rs1.toNat > 15 || rs2.toNat > 15 || (only8 && e ≠ 0))
    [useW rd, useW rs1, useW rs2] fun _ x => .on (x.setW rd.toNat (f (x.rw rs1.toNat) (x.rw rs2.toNat))) s

/-- A signed number as an element of width code E. -/
def unsignedEl (e : Nat) (v : Int) : Nat := (v % (2 ^ elBits e : Nat)).toNat

/-- Saturation to the signed and to the unsigned range of an element. -/
def satS (e : Nat) (v : Int) : Nat :=
  unsignedEl e (max (-(2 ^ (elBits e - 1) : Nat)) (min v ((2 ^ (elBits e - 1) : Nat) - 1)))
def satU (e : Nat) (v : Int) : Nat := (max 0 (min v ((2 ^ elBits e : Nat) - 1))).toNat

/-- All ones or zero in an element. -/
def maskEl (e : Nat) (b : Bool) : Nat := if b then 2 ^ elBits e - 1 else 0

/-- Operations on two elements, by width code. -/
def elAddS (e a b : Nat) : Nat := satS e (signedEl e a + signedEl e b)
def elSubS (e a b : Nat) : Nat := satS e (signedEl e a - signedEl e b)
def elAddU (e a b : Nat) : Nat := satU e ((a : Int) + b)
def elSubU (e a b : Nat) : Nat := satU e ((a : Int) - b)
def elSub (e a b : Nat) : Nat := a + 2 ^ elBits e - b
def elMin (e a b : Nat) : Nat := if signedEl e b < signedEl e a then b else a
def elMax (e a b : Nat) : Nat := if signedEl e a < signedEl e b then b else a
def elGt (e a b : Nat) : Nat := maskEl e (decide (signedEl e a > signedEl e b))
def elSll (e a b : Nat) : Nat := a * 2 ^ (b % elBits e)
def elSrl (e a b : Nat) : Nat := a / 2 ^ (b % elBits e)
def elSra (e a b : Nat) : Nat := unsignedEl e (signedEl e a / (2 ^ (b % elBits e) : Nat))

/-- The bytes of one word picked by the bytes of another; an index of 16 or more gives 0. -/
def shuffle (a b : W128) : W128 := packEl 0 fun i => let j := elem 0 b i; if j < 16 then elem 0 a j else 0

/-- VADD (Table 14.7). -/
def execVadd (c : CoreId) (e : BitVec 2) (lane : BitVec 4) (rd rs1 rs2 : Reg) (s : State) : Res' :=
  s.simd c 0 false (mapEl e.toNat (· + ·)) e lane rd rs1 rs2

/-- VSUB (Table 14.7). -/
def execVsub (c : CoreId) (e : BitVec 2) (lane : BitVec 4) (rd rs1 rs2 : Reg) (s : State) : Res' :=
  s.simd c 1 false (mapEl e.toNat (elSub e.toNat)) e lane rd rs1 rs2

/-- VADDS (Table 14.7). -/
def execVadds (c : CoreId) (e : BitVec 2) (lane : BitVec 4) (rd rs1 rs2 : Reg) (s : State) : Res' :=
  s.simd c 2 false (mapEl e.toNat (elAddS e.toNat)) e lane rd rs1 rs2

/-- VSUBS (Table 14.7). -/
def execVsubs (c : CoreId) (e : BitVec 2) (lane : BitVec 4) (rd rs1 rs2 : Reg) (s : State) : Res' :=
  s.simd c 3 false (mapEl e.toNat (elSubS e.toNat)) e lane rd rs1 rs2

/-- VADDUS (Table 14.7). -/
def execVaddus (c : CoreId) (e : BitVec 2) (lane : BitVec 4) (rd rs1 rs2 : Reg) (s : State) : Res' :=
  s.simd c 4 false (mapEl e.toNat (elAddU e.toNat)) e lane rd rs1 rs2

/-- VSUBUS (Table 14.7). -/
def execVsubus (c : CoreId) (e : BitVec 2) (lane : BitVec 4) (rd rs1 rs2 : Reg) (s : State) : Res' :=
  s.simd c 5 false (mapEl e.toNat (elSubU e.toNat)) e lane rd rs1 rs2

/-- VMIN (Table 14.7). -/
def execVmin (c : CoreId) (e : BitVec 2) (lane : BitVec 4) (rd rs1 rs2 : Reg) (s : State) : Res' :=
  s.simd c 6 false (mapEl e.toNat (elMin e.toNat)) e lane rd rs1 rs2

/-- VMAX (Table 14.7). -/
def execVmax (c : CoreId) (e : BitVec 2) (lane : BitVec 4) (rd rs1 rs2 : Reg) (s : State) : Res' :=
  s.simd c 7 false (mapEl e.toNat (elMax e.toNat)) e lane rd rs1 rs2

/-- VMINU (Table 14.7). -/
def execVminu (c : CoreId) (e : BitVec 2) (lane : BitVec 4) (rd rs1 rs2 : Reg) (s : State) : Res' :=
  s.simd c 8 false (mapEl e.toNat fun a b => Nat.min a b) e lane rd rs1 rs2

/-- VMAXU (Table 14.7). -/
def execVmaxu (c : CoreId) (e : BitVec 2) (lane : BitVec 4) (rd rs1 rs2 : Reg) (s : State) : Res' :=
  s.simd c 9 false (mapEl e.toNat fun a b => Nat.max a b) e lane rd rs1 rs2

/-- VCEQ (Table 14.7). -/
def execVceq (c : CoreId) (e : BitVec 2) (lane : BitVec 4) (rd rs1 rs2 : Reg) (s : State) : Res' :=
  s.simd c 10 false (mapEl e.toNat fun a b => maskEl e.toNat (a = b)) e lane rd rs1 rs2

/-- VCGT (Table 14.7). -/
def execVcgt (c : CoreId) (e : BitVec 2) (lane : BitVec 4) (rd rs1 rs2 : Reg) (s : State) : Res' :=
  s.simd c 11 false (mapEl e.toNat (elGt e.toNat)) e lane rd rs1 rs2

/-- VCGTU (Table 14.7). -/
def execVcgtu (c : CoreId) (e : BitVec 2) (lane : BitVec 4) (rd rs1 rs2 : Reg) (s : State) : Res' :=
  s.simd c 12 false (mapEl e.toNat fun a b => maskEl e.toNat (decide (a > b))) e lane rd rs1 rs2

/-- VSLL (Table 14.7). -/
def execVsll (c : CoreId) (e : BitVec 2) (lane : BitVec 4) (rd rs1 rs2 : Reg) (s : State) : Res' :=
  s.simd c 13 false (mapEl e.toNat (elSll e.toNat)) e lane rd rs1 rs2

/-- VSRL (Table 14.7). -/
def execVsrl (c : CoreId) (e : BitVec 2) (lane : BitVec 4) (rd rs1 rs2 : Reg) (s : State) : Res' :=
  s.simd c 14 false (mapEl e.toNat (elSrl e.toNat)) e lane rd rs1 rs2

/-- VSRA (Table 14.7). -/
def execVsra (c : CoreId) (e : BitVec 2) (lane : BitVec 4) (rd rs1 rs2 : Reg) (s : State) : Res' :=
  s.simd c 15 false (mapEl e.toNat (elSra e.toNat)) e lane rd rs1 rs2

/-- VAND (Table 14.7). -/
def execVand (c : CoreId) (e : BitVec 2) (lane : BitVec 4) (rd rs1 rs2 : Reg) (s : State) : Res' :=
  s.simd c 16 true (fun a b => a &&& b) e lane rd rs1 rs2

/-- VOR (Table 14.7). -/
def execVor (c : CoreId) (e : BitVec 2) (lane : BitVec 4) (rd rs1 rs2 : Reg) (s : State) : Res' :=
  s.simd c 17 true (fun a b => a ||| b) e lane rd rs1 rs2

/-- VXOR (Table 14.7). -/
def execVxor (c : CoreId) (e : BitVec 2) (lane : BitVec 4) (rd rs1 rs2 : Reg) (s : State) : Res' :=
  s.simd c 18 true (fun a b => a ^^^ b) e lane rd rs1 rs2

/-- VANDN (Table 14.7). -/
def execVandn (c : CoreId) (e : BitVec 2) (lane : BitVec 4) (rd rs1 rs2 : Reg) (s : State) : Res' :=
  s.simd c 19 true (fun a b => a &&& ~~~b) e lane rd rs1 rs2

/-- VSHUF (Table 14.7). -/
def execVshuf (c : CoreId) (e : BitVec 2) (lane : BitVec 4) (rd rs1 rs2 : Reg) (s : State) : Res' :=
  s.simd c 21 true (shuffle) e lane rd rs1 rs2

/-- VSEL: the bits of wd choose between ws1 and ws2. -/
def execVsel (c : CoreId) (e : BitVec 2) (lane : BitVec 4) (rd rs1 rs2 : Reg) (s : State) : Res' :=
  s.issueInstr c (wV 20 e lane rd rs1 rs2)
    (fun _ => lane ≠ 0 || e ≠ 0 || rd.toNat > 15 || rs1.toNat > 15 || rs2.toNat > 15) [useW rd, useW rs1, useW rs2] fun _ x =>
    let d := x.rw rd.toNat
    .on (x.setW rd.toNat ((d &&& x.rw rs1.toNat) ||| (~~~d &&& x.rw rs2.toNat))) s

/-- VBCAST: every element takes the low bits of rs1. -/
def execVbcast (c : CoreId) (e : BitVec 2) (lane : BitVec 4) (rd rs1 rs2 : Reg) (s : State) : Res' :=
  s.issueInstr c (wV 22 e lane rd rs1 rs2) (fun _ => lane ≠ 0 || rd.toNat > 15 || rs2.toNat ≠ 0) [useW rd, useG rs1] fun _ x =>
    .on (x.setW rd.toNat (packEl e.toNat fun _ => (x.rg rs1.toNat).toNat)) s

/-- LANE is within the elements of width E. -/
def laneOk (e : BitVec 2) (lane : BitVec 4) : Bool := lane.toNat < elCount e.toNat

/-- VINS: element LANE takes the low bits of rs1. -/
def execVins (c : CoreId) (e : BitVec 2) (lane : BitVec 4) (rd rs1 rs2 : Reg) (s : State) : Res' :=
  s.issueInstr c (wV 23 e lane rd rs1 rs2) (fun _ => !laneOk e lane || rd.toNat > 15 || rs2.toNat ≠ 0) [useW rd, useG rs1]
    fun _ x => .on (x.setW rd.toNat (packEl e.toNat fun i =>
      if i = lane.toNat then (x.rg rs1.toNat).toNat else elem e.toNat (x.rw rd.toNat) i)) s

/-- VEXT: rd takes element LANE, zero-extended. -/
def execVext (c : CoreId) (e : BitVec 2) (lane : BitVec 4) (rd rs1 rs2 : Reg) (s : State) : Res' :=
  s.issueInstr c (wV 24 e lane rd rs1 rs2) (fun _ => !laneOk e lane || rs1.toNat > 15 || rs2.toNat ≠ 0) [useG rd, useW rs1]
    fun _ x => .on (x.setG rd.toNat (BitVec.ofNat 64 (elem e.toNat (x.rw rs1.toNat) lane.toNat))) s

/-- VSUM: rd takes the sum of the zero-extended elements. -/
def execVsum (c : CoreId) (e : BitVec 2) (lane : BitVec 4) (rd rs1 rs2 : Reg) (s : State) : Res' :=
  s.issueInstr c (wV 25 e lane rd rs1 rs2) (fun _ => lane ≠ 0 || rs1.toNat > 15 || rs2.toNat ≠ 0) [useG rd, useW rs1] fun _ x =>
    .on (x.setG rd.toNat (BitVec.ofNat 64
      ((List.range (elCount e.toNat)).foldl (fun n i => n + elem e.toNat (x.rw rs1.toNat) i) 0))) s

/-- VMOV. -/
def execVmov (c : CoreId) (e : BitVec 2) (lane : BitVec 4) (rd rs1 rs2 : Reg) (s : State) : Res' :=
  s.issueInstr c (wV 26 e lane rd rs1 rs2) (fun _ => lane ≠ 0 || e ≠ 0 || rd.toNat > 15 || rs1.toNat > 15 || rs2.toNat ≠ 0)
    [useW rd, useW rs1] fun _ x => .on (x.setW rd.toNat (x.rw rs1.toNat)) s

/-! ### Multiply (Table 14.8) -/

/-- The word of a multiply instruction: FN[10:8] `z`, E and the operation. -/
def wP (op : Nat) (e : BitVec 2) (z : BitVec 3) (rd rs1 rs2 : Reg) : W32 :=
  wR 0x31 rd rs1 rs2 (z.toNat * 2 ^ 8 + e.toNat * 2 ^ 6 + op)

/-- What a multiply reads its sources from. -/
inductive Src where
  /-- two general registers, two SIMD registers, or one of each -/
  | gg | ww | wg
  deriving DecidableEq

/-- A multiply: its product lands four cycles after its issue (R370). `lands` says how, `f` the product; E must be 0 but
for VMUL and VMAC. -/
def State.mulInstr (s : State) (c : CoreId) (op : Nat) (useE : Bool) (src : Src) (lands : Land) (f : Ctx → W128)
    (e : BitVec 2) (z : BitVec 3) (rd rs1 rs2 : Reg) : Res' :=
  let wide1 := decide (src ≠ .gg)
  let wide2 := decide (src = .ww)
  s.issueInstr c (wP op e z rd rs1 rs2)
    (fun _ => z ≠ 0 || (!useE && e ≠ 0) || rd.toNat > 3 || (wide1 && rs1.toNat > 15) || (wide2 && rs2.toNat > 15))
    [(wide1, rs1.toNat), (wide2, rs2.toNat)] fun _ x =>
    .on { x with prods := x.prods ++ [⟨rd.toNat, x.cycle, lands, f x⟩] } s

/-- Signed and unsigned 128-bit products. -/
def mulS (a b : W64) : W128 := a.signExtend 128 * b.signExtend 128
def mulU (a b : W64) : W128 := a.setWidth 128 * b.setWidth 128

/-- Byte products in GF(2^8) (R409). -/
def gfBytes (a : W128) (f : Nat → Nat) : W128 :=
  packEl 0 fun i => (gfMul (BitVec.ofNat 8 (elem 0 a i)) (BitVec.ofNat 8 (f i))).toNat

/-- MUL (Table 14.8). -/
def execMul (c : CoreId) (e : BitVec 2) (z : BitVec 3) (rd rs1 rs2 : Reg) (s : State) : Res' :=
  s.mulInstr c 0 false .gg .replace (fun x => mulS (x.rg rs1.toNat) (x.rg rs2.toNat)) e z rd rs1 rs2

/-- MULU (Table 14.8). -/
def execMulu (c : CoreId) (e : BitVec 2) (z : BitVec 3) (rd rs1 rs2 : Reg) (s : State) : Res' :=
  s.mulInstr c 1 false .gg .replace (fun x => mulU (x.rg rs1.toNat) (x.rg rs2.toNat)) e z rd rs1 rs2

/-- MAC (Table 14.8). -/
def execMac (c : CoreId) (e : BitVec 2) (z : BitVec 3) (rd rs1 rs2 : Reg) (s : State) : Res' :=
  s.mulInstr c 2 false .gg .add (fun x => mulS (x.rg rs1.toNat) (x.rg rs2.toNat)) e z rd rs1 rs2

/-- MACU (Table 14.8). -/
def execMacu (c : CoreId) (e : BitVec 2) (z : BitVec 3) (rd rs1 rs2 : Reg) (s : State) : Res' :=
  s.mulInstr c 3 false .gg .add (fun x => mulU (x.rg rs1.toNat) (x.rg rs2.toNat)) e z rd rs1 rs2

/-- VMUL (Table 14.8). -/
def execVmul (c : CoreId) (e : BitVec 2) (z : BitVec 3) (rd rs1 rs2 : Reg) (s : State) : Res' :=
  s.mulInstr c 4 true .ww .replace (fun x => mapEl e.toNat (· * ·) (x.rw rs1.toNat) (x.rw rs2.toNat)) e z rd rs1 rs2

/-- VMAC (Table 14.8). -/
def execVmac (c : CoreId) (e : BitVec 2) (z : BitVec 3) (rd rs1 rs2 : Reg) (s : State) : Res' :=
  s.mulInstr c 5 true .ww (.addElem e.toNat) (fun x => mapEl e.toNat (· * ·) (x.rw rs1.toNat) (x.rw rs2.toNat)) e z rd rs1 rs2

/-- CLMUL (Table 14.8). -/
def execClmul (c : CoreId) (e : BitVec 2) (z : BitVec 3) (rd rs1 rs2 : Reg) (s : State) : Res' :=
  s.mulInstr c 6 false .gg .replace (fun x => clmul64 (x.rg rs1.toNat) (x.rg rs2.toNat)) e z rd rs1 rs2

/-- CLMAC (Table 14.8). -/
def execClmac (c : CoreId) (e : BitVec 2) (z : BitVec 3) (rd rs1 rs2 : Reg) (s : State) : Res' :=
  s.mulInstr c 7 false .gg .xor (fun x => clmul64 (x.rg rs1.toNat) (x.rg rs2.toNat)) e z rd rs1 rs2

/-- GFMUL (Table 14.8). -/
def execGfmul (c : CoreId) (e : BitVec 2) (z : BitVec 3) (rd rs1 rs2 : Reg) (s : State) : Res' :=
  s.mulInstr c 8 false .ww .replace (fun x => gfBytes (x.rw rs1.toNat) (elem 0 (x.rw rs2.toNat))) e z rd rs1 rs2

/-- GFMAC (Table 14.8). -/
def execGfmac (c : CoreId) (e : BitVec 2) (z : BitVec 3) (rd rs1 rs2 : Reg) (s : State) : Res' :=
  s.mulInstr c 9 false .ww .xor (fun x => gfBytes (x.rw rs1.toNat) (elem 0 (x.rw rs2.toNat))) e z rd rs1 rs2

/-- GFMULS (Table 14.8). -/
def execGfmuls (c : CoreId) (e : BitVec 2) (z : BitVec 3) (rd rs1 rs2 : Reg) (s : State) : Res' :=
  s.mulInstr c 10 false .wg .replace (fun x => gfBytes (x.rw rs1.toNat) fun _ => (x.rg rs2.toNat).toNat) e z rd rs1 rs2

/-- GFMACS (Table 14.8). -/
def execGfmacs (c : CoreId) (e : BitVec 2) (z : BitVec 3) (rd rs1 rs2 : Reg) (s : State) : Res' :=
  s.mulInstr c 11 false .wg .xor (fun x => gfBytes (x.rw rs1.toNat) fun _ => (x.rg rs2.toNat).toNat) e z rd rs1 rs2

/-- PRODUCT_LAND (R370): products issued four cycles ago or more land. -/
def execProductLand (c : CoreId) (s : State) : Res' :=
  if !c.wf then .fault .noSuchPart
  else match (s.core (coreNo c)).ctx with
  | some x => go (s.setCtx (coreNo c) x.landDue)
  | none => go s

/-- A move into a P register in its own cycle (R371, R410). -/
def State.toP (s : State) (c : CoreId) (op : Nat) (wide : Bool) (f : Ctx → W128) (e : BitVec 2) (z : BitVec 3)
    (rd rs1 rs2 : Reg) : Res' :=
  s.issueInstr c (wP op e z rd rs1 rs2)
    (fun _ => z ≠ 0 || e ≠ 0 || rd.toNat > 3 || (wide && rs1.toNat > 15) || rs2.toNat ≠ 0) [(wide, rs1.toNat)] fun _ x =>
    .on (x.setP rd.toNat (f x)) s

/-- A move from a P register as it stands in the issuing cycle (R410). -/
def State.fromP (s : State) (c : CoreId) (op : Nat) (wide : Bool) (f : Ctx → W128 → Ctx) (e : BitVec 2) (z : BitVec 3)
    (rd rs1 rs2 : Reg) : Res' :=
  s.issueInstr c (wP op e z rd rs1 rs2)
    (fun _ => z ≠ 0 || e ≠ 0 || (wide && rd.toNat > 15) || rs1.toNat > 3 || rs2.toNat ≠ 0) [(wide, rd.toNat)] fun _ x =>
    .on (f x (x.rp rs1.toNat)) s

/-- MTP: Pk receives ws1. -/
def execMtp (c : CoreId) (e : BitVec 2) (z : BitVec 3) (rd rs1 rs2 : Reg) (s : State) : Res' :=
  s.toP c 0x10 true (fun x => x.rw rs1.toNat) e z rd rs1 rs2

/-- MTPG: Pk receives rs1, zero-extended. -/
def execMtpg (c : CoreId) (e : BitVec 2) (z : BitVec 3) (rd rs1 rs2 : Reg) (s : State) : Res' :=
  s.toP c 0x11 false (fun x => (x.rg rs1.toNat).setWidth 128) e z rd rs1 rs2

/-- MFP: wd receives Pk. -/
def execMfp (c : CoreId) (e : BitVec 2) (z : BitVec 3) (rd rs1 rs2 : Reg) (s : State) : Res' :=
  s.fromP c 0x18 true (fun x p => x.setW rd.toNat p) e z rd rs1 rs2

/-- MFPL: rd receives Pk[63:0]. -/
def execMfpl (c : CoreId) (e : BitVec 2) (z : BitVec 3) (rd rs1 rs2 : Reg) (s : State) : Res' :=
  s.fromP c 0x19 false (fun x p => x.setG rd.toNat (p.setWidth 64)) e z rd rs1 rs2

/-- MFPH: rd receives Pk[127:64]. -/
def execMfph (c : CoreId) (e : BitVec 2) (z : BitVec 3) (rd rs1 rs2 : Reg) (s : State) : Res' :=
  s.fromP c 0x1A false (fun x p => x.setG rd.toNat (p.extractLsb' 64 64)) e z rd rs1 rs2

end Sys2Proof.Machine
end

