-- ==== Sys2Proof/Machine/TrakaSys.lean ====
section
/-! DEFINITION. Work and system instructions of a Traka-S core (R384, R386, R388, R390, R406, R414 to R416), and the completion
of requests and lookups. -/

namespace Sys2Proof.Machine

/-- DONE (R386): ends the item once its transfers and requests are complete. -/
def execDone (c : CoreId) (ra rb : Reg) (imm : BitVec 8) (s : State) : Res' :=
  s.issueInstr c (wY ra rb imm 1) (fun x => ra ≠ 0 || rb ≠ 0 || imm ≠ 0 || x.atEnd) [] fun _ x =>
    if x.quiet then .finish (s.endItem (coreNo c) x) else .stall

/-- FENCE (R415): waits for the stores and DMA transfers before it. -/
def execFence (c : CoreId) (ra rb : Reg) (imm : BitVec 8) (s : State) : Res' :=
  s.issueInstr c (wY ra rb imm 2) (fun _ => ra ≠ 0 || rb ≠ 0 || imm ≠ 0) [] fun _ x =>
    if x.unfenced then .stall else .on x s

/-- TRAP (R391): raises TRAP with code IMM8. -/
def execTrap (c : CoreId) (ra rb : Reg) (imm : BitVec 8) (s : State) : Res' :=
  s.issueInstr c (wY ra rb imm 3) (fun _ => ra ≠ 0 || rb ≠ 0) [] fun _ _ => .fault 5 (imm.setWidth 64)

/-- A block of local memory of `n` bytes, aligned to `n`: MISALIGNED, then WINDOW. -/
def State.localBlock (s : State) (k n : Nat) (a : W64) (f : Bytes → Eff) : Eff :=
  if a.toNat % n ≠ 0 then .fault 2 a
  else if a.toNat + n > 0x40000 then .fault 3 a
  else f (getBytes (s.core k).lm a.toNat n)

/-- Reserved bits of an item header that a program writes (R418). -/
def headerBad (w : Nat) : Bool := bits w 3 0 ≠ 3 || bits w 47 44 ≠ 0 || bits w 63 59 ≠ 0

/-- The item a POST enters: FUNC and JOB are the module's (R418). -/
def postedItem (f j : Nat) (b : Bytes) : Item :=
  ⟨BitVec.ofNat 64 (le b 0 4 + f * 2 ^ 32 + j * 2 ^ 48), BitVec.ofNat 64 (le b 8 8), BitVec.ofNat 64 (le b 16 8),
    BitVec.ofNat 64 (le b 24 8)⟩

/-- POST (R384, R418, R421): the item enters the poster's hamlet; past 65,536 waiting items it stalls; an item of a job that is
ending is discarded. -/
def execPost (c : CoreId) (ra rb : Reg) (imm : BitVec 8) (s : State) : Res' :=
  let k := coreNo c
  s.issueInstr c (wY ra rb imm 4) (fun _ => rb ≠ 0 || imm ≠ 0) [useG ra] fun jb x =>
    s.localBlock k 32 (x.rg ra.toNat) fun b =>
      if headerBad (le b 0 8) then .fault 1 0
      else
        let i := postedItem jb.r.fn x.job b
        if !jb.live then .on x (s.trace 7 (k / 16) (k % 16) (some i) 0 0)
        else if s.readyItems x.job ≥ 65536 then .stall
        else .on x (s.ready (k / 16) x.job i)

/-- REQ (R361, R388): the request is outstanding; a job read gathers its units now, a job append its data. -/
def execReq (c : CoreId) (ra rb : Reg) (imm : BitVec 8) (s : State) : Res' :=
  let k := coreNo c
  s.issueInstr c (wY ra rb imm 5) (fun _ => rb ≠ 0 || imm ≠ 0) [useG ra] fun jb x =>
    s.localBlock k 32 (x.rg ra.toNat) fun b =>
      if x.reqs.length ≥ 4 then .stall
      else
        let rd := rqRead b
        let len := rqCount b * 4096
        let off := rqAddr b - 0x100000000
        let ok := jb.inDram (rqAddr b) len
        if !rd && byteAt b 0 = 2 && ok && jb.poisoned k .dram off len then .lost
        else
          let (q, s) := if rd then s.issueRead jb x.pc (x.rg ra.toNat).toNat b
            else (⟨x.pc, (x.rg ra.toNat).toNat, false, b, if ok then getBytes jb.dram off len else [], false, 0, 0, 0⟩, s)
          .on { x with reqs := x.reqs ++ [q] } s

/-- EMIT (R340, R390): a piece enters the output; it stalls while output is paused. Output that would overrun the 32 MiB
window ends the job while a port is UP, and stalls while none is, or while the job's output goes to a zone. -/
def execEmit (c : CoreId) (ra rb : Reg) (imm : BitVec 8) (s : State) : Res' :=
  let k := coreNo c
  s.issueInstr c (wY ra rb imm 6) (nonzero imm.toNat) [useG ra, useG rb] fun jb x =>
    let a := x.rg ra.toNat
    let n := (x.rg rb.toNat).toNat
    match if n = 0 || n > 65536 then none else jb.win a.toNat n with
    | none => .fault 3 a
    | some (w, off) =>
      if w ≠ .loc && w ≠ .dram then .fault 3 a
      else if jb.outStall then .stall
      else if jb.undelivered + n > outWindow then
        if s.anyUp && jb.outZone.isNone then .gone ((s.jobFault x.job 0x12 5 noCore 0 []).haltCore x.job k) else .stall
      else if jb.poisoned k w off n then .lost
      else .on x (s.output x.job (s.loadBytes k jb x w a.toNat off n))

/-- SVL (R416): the lookup is outstanding. -/
def execSvl (c : CoreId) (ra rb : Reg) (imm : BitVec 8) (s : State) : Res' :=
  s.issueInstr c (wY ra rb imm 7) (fun _ => rb ≠ 0 || imm ≠ 0) [useG ra] fun _ x =>
    s.localBlock (coreNo c) 64 (x.rg ra.toNat) fun b =>
      if x.reqs.length ≥ 4 then .stall
      else .on { x with reqs := x.reqs ++ [⟨x.pc, (x.rg ra.toNat).toNat, true, b, [], false, 0, 0, 0⟩] } s

/-- WAITD (R406): waits until the tags of IMM8 are clear. -/
def execWaitd (c : CoreId) (ra rb : Reg) (imm : BitVec 8) (s : State) : Res' :=
  s.issueInstr c (wY ra rb imm 8) (fun _ => ra ≠ 0 || rb ≠ 0) [] fun _ x =>
    if x.dma.any fun d => bit imm.toNat d.tag then .stall else .on x s

/-- WAITR (R406): waits until no request is outstanding. -/
def execWaitr (c : CoreId) (ra rb : Reg) (imm : BitVec 8) (s : State) : Res' :=
  s.issueInstr c (wY ra rb imm 9) (fun _ => ra ≠ 0 || rb ≠ 0 || imm ≠ 0) [] fun _ x =>
    if x.reqs.isEmpty then .on x s else .stall

/-! ### Completions -/

/-- Writes STATUS, RESULT and DONE of a request block (Table 13.6) and takes the request off. -/
def State.answerReq (s : State) (k : Nat) (x : Ctx) (run : Bool) (q : Req) (status result : Nat) : State :=
  s.writeLocal k x { x with reqs := x.reqs.erase q } run q.addr
    (patch (patch (patch q.block 28 (toLe result 4)) 2 (toLe status 1)) 3 (toLe 1 1))

/-- A request that fails: its RESULT is free, the spec states none. -/
def State.failReq (s : State) (k : Nat) (x : Ctx) (run : Bool) (q : Req) (status : Nat) : State :=
  let (v, s) := s.draw
  s.answerReq k x run q status v

/-- Charges units of a job read to the scan-bytes ceiling while its bucket covers them (R345): those charged in all. -/
def State.payUnits (s : State) (f : Nat) : Nat → Nat → Nat × State
  | 0, k => (k, s)
  | n + 1, k => match s.rate f [(3, 4096)] with
    | .pay b => State.payUnits (s.setFn f fun g => { g with buckets := b }) f n (k + 1)
    | _ => (k, s)

/-- The end of a request of a job (R361, R389). An append that must wait stays outstanding, and so does a job read whose array reads go
on or that the scan-bytes ceiling slows (R345). -/
def State.endReq (s : State) (k : Nat) (x : Ctx) (run : Bool) (q : Req) (jb : Job) : State :=
  if rqRead q.block then
    match s.reqFails jb q.block q.data.length with
    | some st => s.failReq k x run q st
    | none =>
      let (n, s) := s.payUnits jb.r.fn (rqCount q.block - q.paid) q.paid
      if n < rqCount q.block || (q.left > 0 && !q.bad) then
        s.putCtx k x { x with reqs := x.reqs.map fun p => if p = q then { q with paid := n } else p } run
      else if q.bad then (s.jobFault x.job 0x11 4 (k / 16 * 256 + k % 16) x.cycle
        [(40, 8, x.item.w0.toNat), (48, 8, x.item.w1.toNat), (56, 4, min x.cycle (2 ^ 32 - 1)), (60, 1, x.ldepth),
         (24, 4, q.pc - 0x100000), (28, 4, ((jb.fetch q.pc).getD 0).toNat)]).haltCore x.job k
      else
        (s.answerReq k x run q SUCCESS q.data.length).setJob x.job fun j =>
          j.write k .dram (rqAddr q.block - 0x100000000) q.data
  else if Req.append q then
    match s.appendJob jb q with
    | none => s
    | some (st, off, s) => if st = SUCCESS then s.answerReq k x run q st off else s.failReq k x run q st
  else s.failReq k x run q ((s.reqFails jb q.block 0).getD INVALID_FIELD)

/-- REQUEST_COMPLETE (R388): the core's oldest request ends; those of a job that faulted are abandoned, but for accepted appends
(R391). -/
def execRequestComplete (c : CoreId) (s : State) : Res' :=
  if !c.wf then .fault .noSuchPart
  else
    let k := coreNo c
    match s.findCtx k fun x => x.reqs.any fun q => !q.lookup with
    | none => go s
    | some (x, run) =>
      match x.reqs.find? (fun q => !q.lookup), look s.jobs x.job with
      | some q, some jb => if jb.fault.isSome then go s else go ((s.endReq k x run q jb).endAtDone k)
      | _, _ => go s

/-- The end of a lookup (R416, Table 14.10). ANSWER is free where the lookup is not made: the spec states none. -/
def State.endLookup (s : State) (k : Nat) (x : Ctx) (run : Bool) (q : Req) (f : Nat) : State :=
  let b := q.block
  let bad := byteAt b 40 ≥ 2 || byteAt b 42 ≥ 2 || !zeros b 43 5
  let r := if bad then (INVALID_FIELD, s, none)
    else if !s.ownsRows f then (NOT_PERMITTED, s, none)
    else
      let l := s.lookup f (keyOf b) (bit (byteAt b 40) 0) none
      (if l.2.2.isSome then SUCCESS else NO_MATCH, l.1, some (answerBytes l.2.2 0))
  let p : Bytes × State := match r.2.2 with
    | some a => (a, r.2.1)
    | none => let (v, s) := r.2.1.draw; (toLe v 16, s)
  p.2.writeLocal k x { x with reqs := x.reqs.erase q } run q.addr
    (patch (patch (patch b 48 p.1) 41 (toLe r.1 1)) 42 (toLe 1 1))

/-- SVL_COMPLETE (R416): the core's oldest lookup ends, against the rows its job's function owns. -/
def execSvlComplete (c : CoreId) (s : State) : Res' :=
  if !c.wf then .fault .noSuchPart
  else
    let k := coreNo c
    match s.findCtx k fun x => x.reqs.any (·.lookup) with
    | none => go s
    | some (x, run) =>
      match x.reqs.find? (·.lookup), look s.jobs x.job with
      | some q, some jb => go ((s.endLookup k x run q jb.r.fn).endAtDone k)
      | _, _ => go s

end Sys2Proof.Machine
end

