-- ==== Sys2Proof/Machine/Dispatch.lean ====
section
/-! DEFINITION. The meaning of each command, one arm per constructor: each arm calls one meaning. -/

namespace Sys2Proof.Machine

def exec (i : Instr) (s : State) : Host.Outcome State Fault Refusal :=
  match i with
  | .bellBoundary e => Sys2Proof.Machine.execBellBoundary e s
  | .planClose late badBlank => Sys2Proof.Machine.execPlanClose late badBlank s
  | .readPoint chan => Sys2Proof.Machine.execReadPoint chan s
  | .suspendResponse d => Sys2Proof.Machine.execSuspendResponse d s
  | .suspendLate d tenths => Sys2Proof.Machine.execSuspendLate d tenths s
  | .arrayReadComplete d xs => Sys2Proof.Machine.execArrayReadComplete d xs s
  | .programComplete d => Sys2Proof.Machine.execProgramComplete d s
  | .programFailure d plane => Sys2Proof.Machine.execProgramFailure d plane s
  | .eraseComplete d => Sys2Proof.Machine.execEraseComplete d s
  | .eraseFailure d plane => Sys2Proof.Machine.execEraseFailure d plane s
  | .dieOpOverrun d => Sys2Proof.Machine.execDieOpOverrun d s
  | .dieNoResponse d => Sys2Proof.Machine.execDieNoResponse d s
  | .rebuildWordLine m => Sys2Proof.Machine.execRebuildWordLine m s
  | .blockGroupPass m => Sys2Proof.Machine.execBlockGroupPass m s
  | .channelRecentre chan rdEye wrEye => Sys2Proof.Machine.execChannelRecentre chan rdEye wrEye s
  | .channelFault chan => Sys2Proof.Machine.execChannelFault chan s
  | .channelRetrainBegin chan => Sys2Proof.Machine.execChannelRetrainBegin chan s
  | .channelRetrainResult chan common pos => Sys2Proof.Machine.execChannelRetrainResult chan common pos s
  | .channelRetrainRetry chan => Sys2Proof.Machine.execChannelRetrainRetry chan s
  | .checkpointBegin => Sys2Proof.Machine.execCheckpointBegin s
  | .checkpointComplete => Sys2Proof.Machine.execCheckpointComplete s
  | .randomAreaReclaim ward => Sys2Proof.Machine.execRandomAreaReclaim ward s
  | .relocation d slot => Sys2Proof.Machine.execRelocation d slot s
  | .relocationCommit d slot => Sys2Proof.Machine.execRelocationCommit d slot s
  | .patrolRead d slot wl cw => Sys2Proof.Machine.execPatrolRead d slot wl cw s
  | .parkingComplete h z => Sys2Proof.Machine.execParkingComplete h z s
  | .heldSlotRelease slot => Sys2Proof.Machine.execHeldSlotRelease slot s
  | .stagingDrain => Sys2Proof.Machine.execStagingDrain s
  | .watermarkBatch chan => Sys2Proof.Machine.execWatermarkBatch chan s
  | .doorbellPollIssue fn page => Sys2Proof.Machine.execDoorbellPollIssue fn page s
  | .doorbellPollResponse fn page words => Sys2Proof.Machine.execDoorbellPollResponse fn page words s
  | .ringDoze fn sq => Sys2Proof.Machine.execRingDoze fn sq s
  | .knock p k => Sys2Proof.Machine.execKnock p k s
  | .entryFetchResponse fn sq data => Sys2Proof.Machine.execEntryFetchResponse fn sq data s
  | .headWordResponse fn cq w => Sys2Proof.Machine.execHeadWordResponse fn cq w s
  | .chainedListResponse r data => Sys2Proof.Machine.execChainedListResponse r data s
  | .parameterBlockResponse r data => Sys2Proof.Machine.execParameterBlockResponse r data s
  | .dataReadResponse r data => Sys2Proof.Machine.execDataReadResponse r data s
  | .commandDeferredStart r => Sys2Proof.Machine.execCommandDeferredStart r s
  | .commandCommit r => Sys2Proof.Machine.execCommandCommit r s
  | .completionAck fn cq n => Sys2Proof.Machine.execCompletionAck fn cq n s
  | .notifyDeadline fn cq => Sys2Proof.Machine.execNotifyDeadline fn cq s
  | .internalTimeout r unit => Sys2Proof.Machine.execInternalTimeout r unit s
  | .drainEnd fn => Sys2Proof.Machine.execDrainEnd fn s
  | .read r => Sys2Proof.Machine.execRead r s
  | .write r => Sys2Proof.Machine.execWrite r s
  | .zoneAppend r => Sys2Proof.Machine.execZoneAppend r s
  | .openZone r => Sys2Proof.Machine.execOpenZone r s
  | .closeZone r => Sys2Proof.Machine.execCloseZone r s
  | .finishZone r => Sys2Proof.Machine.execFinishZone r s
  | .resetZone r => Sys2Proof.Machine.execResetZone r s
  | .reportZones r => Sys2Proof.Machine.execReportZones r s
  | .randomRead r => Sys2Proof.Machine.execRandomRead r s
  | .randomWrite r => Sys2Proof.Machine.execRandomWrite r s
  | .randomTrim r => Sys2Proof.Machine.execRandomTrim r s
  | .flush r => Sys2Proof.Machine.execFlush r s
  | .abort r => Sys2Proof.Machine.execAbort r s
  | .restartRing r => Sys2Proof.Machine.execRestartRing r s
  | .scan r => Sys2Proof.Machine.execScan r s
  | .run r => Sys2Proof.Machine.execRun r s
  | .sieveWrite r => Sys2Proof.Machine.execSieveWrite r s
  | .sieveWritePair r => Sys2Proof.Machine.execSieveWritePair r s
  | .sieveLookup r => Sys2Proof.Machine.execSieveLookup r s
  | .sieveStep r => Sys2Proof.Machine.execSieveStep r s
  | .semAcquire r => Sys2Proof.Machine.execSemAcquire r s
  | .semRelease r => Sys2Proof.Machine.execSemRelease r s
  | .semBreak r => Sys2Proof.Machine.execSemBreak r s
  | .semRead r => Sys2Proof.Machine.execSemRead r s
  | .getLog r => Sys2Proof.Machine.execGetLog r s
  | .createRing r => Sys2Proof.Machine.execCreateRing r s
  | .deleteRing r => Sys2Proof.Machine.execDeleteRing r s
  | .setRingNotify r => Sys2Proof.Machine.execSetRingNotify r s
  | .setLatencyTolerance r => Sys2Proof.Machine.execSetLatencyTolerance r s
  | .addFunction r => Sys2Proof.Machine.execAddFunction r s
  | .quiesceFunction r => Sys2Proof.Machine.execQuiesceFunction r s
  | .resumeFunction r => Sys2Proof.Machine.execResumeFunction r s
  | .resetFunction r => Sys2Proof.Machine.execResetFunction r s
  | .removeFunction r => Sys2Proof.Machine.execRemoveFunction r s
  | .setFunctionResources r => Sys2Proof.Machine.execSetFunctionResources r s
  | .createHolding r => Sys2Proof.Machine.execCreateHolding r s
  | .setHolding r => Sys2Proof.Machine.execSetHolding r s
  | .assignHolding r => Sys2Proof.Machine.execAssignHolding r s
  | .deleteHolding r => Sys2Proof.Machine.execDeleteHolding r s
  | .setCalendar r => Sys2Proof.Machine.execSetCalendar r s
  | .firmwareDownload r => Sys2Proof.Machine.execFirmwareDownload r s
  | .firmwareActivate r => Sys2Proof.Machine.execFirmwareActivate r s
  | .activationHandover ok => Sys2Proof.Machine.execActivationHandover ok s
  | .moduleReset r e => Sys2Proof.Machine.execModuleReset r e s
  | .lifeCycleTransition r e => Sys2Proof.Machine.execLifeCycleTransition r e s
  | .refurbishEraseComplete bad e => Sys2Proof.Machine.execRefurbishEraseComplete bad e s
  | .attest r => Sys2Proof.Machine.execAttest r s
  | .jobLoadStart j => Sys2Proof.Machine.execJobLoadStart j s
  | .jobLoaded j => Sys2Proof.Machine.execJobLoaded j s
  | .jobLoadTimeout j => Sys2Proof.Machine.execJobLoadTimeout j s
  | .jobTimeLimit j => Sys2Proof.Machine.execJobTimeLimit j s
  | .jobStop j => Sys2Proof.Machine.execJobStop j s
  | .jobComplete j => Sys2Proof.Machine.execJobComplete j s
  | .batchPost j ward => Sys2Proof.Machine.execBatchPost j ward s
  | .gateContextPause j ward => Sys2Proof.Machine.execGateContextPause j ward s
  | .outputAppend j => Sys2Proof.Machine.execOutputAppend j s
  | .outputPause j => Sys2Proof.Machine.execOutputPause j s
  | .quantumAssignment => Sys2Proof.Machine.execQuantumAssignment s
  | .quantumEnd c => Sys2Proof.Machine.execQuantumEnd c s
  | .slotFill c => Sys2Proof.Machine.execSlotFill c s
  | .itemStart c => Sys2Proof.Machine.execItemStart c s
  | .coreRetire hamlet phys => Sys2Proof.Machine.execCoreRetire hamlet phys s
  | .coreSelfTest hamlet phys ok => Sys2Proof.Machine.execCoreSelfTest hamlet phys ok s
  | .controlCoreRetire core e => Sys2Proof.Machine.execControlCoreRetire core e s
  | .add c rd rs1 rs2 => Sys2Proof.Machine.execAdd c rd rs1 rs2 s
  | .sub c rd rs1 rs2 => Sys2Proof.Machine.execSub c rd rs1 rs2 s
  | .and_ c rd rs1 rs2 => Sys2Proof.Machine.execAnd_ c rd rs1 rs2 s
  | .or_ c rd rs1 rs2 => Sys2Proof.Machine.execOr_ c rd rs1 rs2 s
  | .xor c rd rs1 rs2 => Sys2Proof.Machine.execXor c rd rs1 rs2 s
  | .andn c rd rs1 rs2 => Sys2Proof.Machine.execAndn c rd rs1 rs2 s
  | .sll c rd rs1 rs2 => Sys2Proof.Machine.execSll c rd rs1 rs2 s
  | .srl c rd rs1 rs2 => Sys2Proof.Machine.execSrl c rd rs1 rs2 s
  | .sra c rd rs1 rs2 => Sys2Proof.Machine.execSra c rd rs1 rs2 s
  | .ror c rd rs1 rs2 => Sys2Proof.Machine.execRor c rd rs1 rs2 s
  | .seq c rd rs1 rs2 => Sys2Proof.Machine.execSeq c rd rs1 rs2 s
  | .sne c rd rs1 rs2 => Sys2Proof.Machine.execSne c rd rs1 rs2 s
  | .slt c rd rs1 rs2 => Sys2Proof.Machine.execSlt c rd rs1 rs2 s
  | .sltu c rd rs1 rs2 => Sys2Proof.Machine.execSltu c rd rs1 rs2 s
  | .min c rd rs1 rs2 => Sys2Proof.Machine.execMin c rd rs1 rs2 s
  | .max c rd rs1 rs2 => Sys2Proof.Machine.execMax c rd rs1 rs2 s
  | .minu c rd rs1 rs2 => Sys2Proof.Machine.execMinu c rd rs1 rs2 s
  | .maxu c rd rs1 rs2 => Sys2Proof.Machine.execMaxu c rd rs1 rs2 s
  | .clz c rd rs1 rs2 => Sys2Proof.Machine.execClz c rd rs1 rs2 s
  | .ctz c rd rs1 rs2 => Sys2Proof.Machine.execCtz c rd rs1 rs2 s
  | .popc c rd rs1 rs2 => Sys2Proof.Machine.execPopc c rd rs1 rs2 s
  | .bswap c rd rs1 rs2 => Sys2Proof.Machine.execBswap c rd rs1 rs2 s
  | .addi c rd rs1 imm => Sys2Proof.Machine.execAddi c rd rs1 imm s
  | .andi c rd rs1 imm => Sys2Proof.Machine.execAndi c rd rs1 imm s
  | .ori c rd rs1 imm => Sys2Proof.Machine.execOri c rd rs1 imm s
  | .xori c rd rs1 imm => Sys2Proof.Machine.execXori c rd rs1 imm s
  | .slti c rd rs1 imm => Sys2Proof.Machine.execSlti c rd rs1 imm s
  | .sltiu c rd rs1 imm => Sys2Proof.Machine.execSltiu c rd rs1 imm s
  | .slli c rd rs1 imm => Sys2Proof.Machine.execSlli c rd rs1 imm s
  | .srli c rd rs1 imm => Sys2Proof.Machine.execSrli c rd rs1 imm s
  | .srai c rd rs1 imm => Sys2Proof.Machine.execSrai c rd rs1 imm s
  | .cati c rd z imm => Sys2Proof.Machine.execCati c rd z imm s
  | .crc32cB c rd rs1 rs2 => Sys2Proof.Machine.execCrc32cB c rd rs1 rs2 s
  | .crc32cH c rd rs1 rs2 => Sys2Proof.Machine.execCrc32cH c rd rs1 rs2 s
  | .crc32cW c rd rs1 rs2 => Sys2Proof.Machine.execCrc32cW c rd rs1 rs2 s
  | .crc32cD c rd rs1 rs2 => Sys2Proof.Machine.execCrc32cD c rd rs1 rs2 s
  | .beq c rs1 rs2 disp => Sys2Proof.Machine.execBeq c rs1 rs2 disp s
  | .bne c rs1 rs2 disp => Sys2Proof.Machine.execBne c rs1 rs2 disp s
  | .blt c rs1 rs2 disp => Sys2Proof.Machine.execBlt c rs1 rs2 disp s
  | .bge c rs1 rs2 disp => Sys2Proof.Machine.execBge c rs1 rs2 disp s
  | .bltu c rs1 rs2 disp => Sys2Proof.Machine.execBltu c rs1 rs2 disp s
  | .bgeu c rs1 rs2 disp => Sys2Proof.Machine.execBgeu c rs1 rs2 disp s
  | .j c disp => Sys2Proof.Machine.execJ c disp s
  | .call c disp => Sys2Proof.Machine.execCall c disp s
  | .jalr c rd rs1 imm => Sys2Proof.Machine.execJalr c rd rs1 imm s
  | .ld c rt ak upd sz sx imm => Sys2Proof.Machine.execLd c rt ak upd sz sx imm s
  | .st c rt ak upd sz sx imm => Sys2Proof.Machine.execSt c rt ak upd sz sx imm s
  | .ldq c rt ak upd sz sx imm => Sys2Proof.Machine.execLdq c rt ak upd sz sx imm s
  | .stq c rt ak upd sz sx imm => Sys2Proof.Machine.execStq c rt ak upd sz sx imm s
  | .atomCas c rd rs1 rs2 fn => Sys2Proof.Machine.execAtomCas c rd rs1 rs2 fn s
  | .atomSwap c rd rs1 rs2 fn => Sys2Proof.Machine.execAtomSwap c rd rs1 rs2 fn s
  | .atomFadd c rd rs1 rs2 fn => Sys2Proof.Machine.execAtomFadd c rd rs1 rs2 fn s
  | .adda c rs ak imm => Sys2Proof.Machine.execAdda c rs ak imm s
  | .addar c rs ak imm => Sys2Proof.Machine.execAddar c rs ak imm s
  | .mva c rs ak imm => Sys2Proof.Machine.execMva c rs ak imm s
  | .mvm c rs ak imm => Sys2Proof.Machine.execMvm c rs ak imm s
  | .mfa c rs ak imm => Sys2Proof.Machine.execMfa c rs ak imm s
  | .mfm c rs ak imm => Sys2Proof.Machine.execMfm c rs ak imm s
  | .dma c rd rs1 rs2 fn => Sys2Proof.Machine.execDma c rd rs1 rs2 fn s
  | .dmaComplete c tag => Sys2Proof.Machine.execDmaComplete c tag s
  | .vadd c e lane rd rs1 rs2 => Sys2Proof.Machine.execVadd c e lane rd rs1 rs2 s
  | .vsub c e lane rd rs1 rs2 => Sys2Proof.Machine.execVsub c e lane rd rs1 rs2 s
  | .vadds c e lane rd rs1 rs2 => Sys2Proof.Machine.execVadds c e lane rd rs1 rs2 s
  | .vsubs c e lane rd rs1 rs2 => Sys2Proof.Machine.execVsubs c e lane rd rs1 rs2 s
  | .vaddus c e lane rd rs1 rs2 => Sys2Proof.Machine.execVaddus c e lane rd rs1 rs2 s
  | .vsubus c e lane rd rs1 rs2 => Sys2Proof.Machine.execVsubus c e lane rd rs1 rs2 s
  | .vmin c e lane rd rs1 rs2 => Sys2Proof.Machine.execVmin c e lane rd rs1 rs2 s
  | .vmax c e lane rd rs1 rs2 => Sys2Proof.Machine.execVmax c e lane rd rs1 rs2 s
  | .vminu c e lane rd rs1 rs2 => Sys2Proof.Machine.execVminu c e lane rd rs1 rs2 s
  | .vmaxu c e lane rd rs1 rs2 => Sys2Proof.Machine.execVmaxu c e lane rd rs1 rs2 s
  | .vceq c e lane rd rs1 rs2 => Sys2Proof.Machine.execVceq c e lane rd rs1 rs2 s
  | .vcgt c e lane rd rs1 rs2 => Sys2Proof.Machine.execVcgt c e lane rd rs1 rs2 s
  | .vcgtu c e lane rd rs1 rs2 => Sys2Proof.Machine.execVcgtu c e lane rd rs1 rs2 s
  | .vsll c e lane rd rs1 rs2 => Sys2Proof.Machine.execVsll c e lane rd rs1 rs2 s
  | .vsrl c e lane rd rs1 rs2 => Sys2Proof.Machine.execVsrl c e lane rd rs1 rs2 s
  | .vsra c e lane rd rs1 rs2 => Sys2Proof.Machine.execVsra c e lane rd rs1 rs2 s
  | .vand c e lane rd rs1 rs2 => Sys2Proof.Machine.execVand c e lane rd rs1 rs2 s
  | .vor c e lane rd rs1 rs2 => Sys2Proof.Machine.execVor c e lane rd rs1 rs2 s
  | .vxor c e lane rd rs1 rs2 => Sys2Proof.Machine.execVxor c e lane rd rs1 rs2 s
  | .vandn c e lane rd rs1 rs2 => Sys2Proof.Machine.execVandn c e lane rd rs1 rs2 s
  | .vsel c e lane rd rs1 rs2 => Sys2Proof.Machine.execVsel c e lane rd rs1 rs2 s
  | .vshuf c e lane rd rs1 rs2 => Sys2Proof.Machine.execVshuf c e lane rd rs1 rs2 s
  | .vbcast c e lane rd rs1 rs2 => Sys2Proof.Machine.execVbcast c e lane rd rs1 rs2 s
  | .vins c e lane rd rs1 rs2 => Sys2Proof.Machine.execVins c e lane rd rs1 rs2 s
  | .vext c e lane rd rs1 rs2 => Sys2Proof.Machine.execVext c e lane rd rs1 rs2 s
  | .vsum c e lane rd rs1 rs2 => Sys2Proof.Machine.execVsum c e lane rd rs1 rs2 s
  | .vmov c e lane rd rs1 rs2 => Sys2Proof.Machine.execVmov c e lane rd rs1 rs2 s
  | .mul c e z rd rs1 rs2 => Sys2Proof.Machine.execMul c e z rd rs1 rs2 s
  | .mulu c e z rd rs1 rs2 => Sys2Proof.Machine.execMulu c e z rd rs1 rs2 s
  | .mac c e z rd rs1 rs2 => Sys2Proof.Machine.execMac c e z rd rs1 rs2 s
  | .macu c e z rd rs1 rs2 => Sys2Proof.Machine.execMacu c e z rd rs1 rs2 s
  | .vmul c e z rd rs1 rs2 => Sys2Proof.Machine.execVmul c e z rd rs1 rs2 s
  | .vmac c e z rd rs1 rs2 => Sys2Proof.Machine.execVmac c e z rd rs1 rs2 s
  | .clmul c e z rd rs1 rs2 => Sys2Proof.Machine.execClmul c e z rd rs1 rs2 s
  | .clmac c e z rd rs1 rs2 => Sys2Proof.Machine.execClmac c e z rd rs1 rs2 s
  | .gfmul c e z rd rs1 rs2 => Sys2Proof.Machine.execGfmul c e z rd rs1 rs2 s
  | .gfmac c e z rd rs1 rs2 => Sys2Proof.Machine.execGfmac c e z rd rs1 rs2 s
  | .gfmuls c e z rd rs1 rs2 => Sys2Proof.Machine.execGfmuls c e z rd rs1 rs2 s
  | .gfmacs c e z rd rs1 rs2 => Sys2Proof.Machine.execGfmacs c e z rd rs1 rs2 s
  | .productLand c => Sys2Proof.Machine.execProductLand c s
  | .mtp c e z rd rs1 rs2 => Sys2Proof.Machine.execMtp c e z rd rs1 rs2 s
  | .mtpg c e z rd rs1 rs2 => Sys2Proof.Machine.execMtpg c e z rd rs1 rs2 s
  | .mfp c e z rd rs1 rs2 => Sys2Proof.Machine.execMfp c e z rd rs1 rs2 s
  | .mfpl c e z rd rs1 rs2 => Sys2Proof.Machine.execMfpl c e z rd rs1 rs2 s
  | .mfph c e z rd rs1 rs2 => Sys2Proof.Machine.execMfph c e z rd rs1 rs2 s
  | .loop c rs z fin => Sys2Proof.Machine.execLoop c rs z fin s
  | .loopi c cnt fin => Sys2Proof.Machine.execLoopi c cnt fin s
  | .lbrk c z => Sys2Proof.Machine.execLbrk c z s
  | .done c ra rb imm => Sys2Proof.Machine.execDone c ra rb imm s
  | .fence c ra rb imm => Sys2Proof.Machine.execFence c ra rb imm s
  | .trap c ra rb imm => Sys2Proof.Machine.execTrap c ra rb imm s
  | .post c ra rb imm => Sys2Proof.Machine.execPost c ra rb imm s
  | .req c ra rb imm => Sys2Proof.Machine.execReq c ra rb imm s
  | .requestComplete c => Sys2Proof.Machine.execRequestComplete c s
  | .emit c ra rb imm => Sys2Proof.Machine.execEmit c ra rb imm s
  | .svl c ra rb imm => Sys2Proof.Machine.execSvl c ra rb imm s
  | .svlComplete c => Sys2Proof.Machine.execSvlComplete c s
  | .waitd c ra rb imm => Sys2Proof.Machine.execWaitd c ra rb imm s
  | .waitr c ra rb imm => Sys2Proof.Machine.execWaitr c ra rb imm s
  | .mfsr c rd z sr => Sys2Proof.Machine.execMfsr c rd z sr s
  | .mtsr c rs z sr => Sys2Proof.Machine.execMtsr c rs z sr s
  | .sieveChecker upsets => Sys2Proof.Machine.execSieveChecker upsets s
  | .sieveRowRetired row => Sys2Proof.Machine.execSieveRowRetired row s
  | .semCompareAndSwap fn p key addr cmp swp => Sys2Proof.Machine.execSemCompareAndSwap fn p key addr cmp swp s
  | .semBreakable n => Sys2Proof.Machine.execSemBreakable n s
  | .unsupportedRequestNak fn p q => Sys2Proof.Machine.execUnsupportedRequestNak fn p q s
  | .remoteNak fn p n => Sys2Proof.Machine.execRemoteNak fn p n s
  | .ackTimeout fn p ev => Sys2Proof.Machine.execAckTimeout fn p ev s
  | .qpRetryExhausted fn p ev => Sys2Proof.Machine.execQpRetryExhausted fn p ev s
  | .rnrNak fn p => Sys2Proof.Machine.execRnrNak fn p s
  | .failover fn => Sys2Proof.Machine.execFailover fn s
  | .cmReq p q => Sys2Proof.Machine.execCmReq p q s
  | .cmRtu p qpn => Sys2Proof.Machine.execCmRtu p qpn s
  | .cmDreq p qpn => Sys2Proof.Machine.execCmDreq p qpn s
  | .ceMarkedPacket fn p ev ns => Sys2Proof.Machine.execCeMarkedPacket fn p ev ns s
  | .ccRateUpdate fn p => Sys2Proof.Machine.execCcRateUpdate fn p s
  | .pfcFrame p enable quanta => Sys2Proof.Machine.execPfcFrame p enable quanta s
  | .pfcWatchdog p prio => Sys2Proof.Machine.execPfcWatchdog p prio s
  | .pauseFrame p => Sys2Proof.Machine.execPauseFrame p s
  | .arpRequest p vid target who => Sys2Proof.Machine.execArpRequest p vid target who s
  | .neighborSolicitation p vid target who => Sys2Proof.Machine.execNeighborSolicitation p vid target who s
  | .icmpEchoRequest p vid v6 dst src body => Sys2Proof.Machine.execIcmpEchoRequest p vid v6 dst src body s
  | .frameDiscard p why => Sys2Proof.Machine.execFrameDiscard p why s
  | .ptpAnnounce p a => Sys2Proof.Machine.execPtpAnnounce p a s
  | .ptpSync p m offNs => Sys2Proof.Machine.execPtpSync p m offNs s
  | .ptpDelayResp p m => Sys2Proof.Machine.execPtpDelayResp p m s
  | .ptpSyncLoss => Sys2Proof.Machine.execPtpSyncLoss s
  | .ptpSourceReturn => Sys2Proof.Machine.execPtpSourceReturn s
  | .opticsInsert p m => Sys2Proof.Machine.execOpticsInsert p m s
  | .opticsRemove p => Sys2Proof.Machine.execOpticsRemove p s
  | .linkFault p ns => Sys2Proof.Machine.execLinkFault p ns s
  | .trainingAttemptEnd p ok => Sys2Proof.Machine.execTrainingAttemptEnd p ok s
  | .downRetry p => Sys2Proof.Machine.execDownRetry p s
  | .portEnable w p en => Sys2Proof.Machine.execPortEnable w p en s
  | .portRetrain w p => Sys2Proof.Machine.execPortRetrain w p s
  | .setupWrite w off data => Sys2Proof.Machine.execSetupWrite w off data s
  | .setupErrClear w => Sys2Proof.Machine.execSetupErrClear w s
  | .qpToInit w fn p ev word addr => Sys2Proof.Machine.execQpToInit w fn p ev word addr s
  | .qpToRtr w fn p ev => Sys2Proof.Machine.execQpToRtr w fn p ev s
  | .qpToRts w fn p ev => Sys2Proof.Machine.execQpToRts w fn p ev s
  | .qpToReset w fn p ev => Sys2Proof.Machine.execQpToReset w fn p ev s
  | .adminRingWrite w entry data => Sys2Proof.Machine.execAdminRingWrite w entry data s
  | .sveModeWrite w whole => Sys2Proof.Machine.execSveModeWrite w whole s
  | .sveOwnerWrite w owner => Sys2Proof.Machine.execSveOwnerWrite w owner s
  | .trcDispCtrlWrite w v => Sys2Proof.Machine.execTrcDispCtrlWrite w v s
  | .scrubGo w => Sys2Proof.Machine.execScrubGo w s
  | .scrubComplete x => Sys2Proof.Machine.execScrubComplete x s
  | .alertClear w => Sys2Proof.Machine.execAlertClear w s
  | .locate w on => Sys2Proof.Machine.execLocate w on s
  | .smbusSetOffset pecOk data => Sys2Proof.Machine.execSmbusSetOffset pecOk data s
  | .smbusRead => Sys2Proof.Machine.execSmbusRead s
  | .smbusWrite pecOk data => Sys2Proof.Machine.execSmbusWrite pecOk data s
  | .smbusAlertResponse => Sys2Proof.Machine.execSmbusAlertResponse s
  | .dramUncorrectable x => Sys2Proof.Machine.execDramUncorrectable x s
  | .remap x => Sys2Proof.Machine.execRemap x s
  | .rankRecentre rank rdEye wrEye margin => Sys2Proof.Machine.execRankRecentre rank rdEye wrEye margin s
  | .rankRetrainResult rank eye => Sys2Proof.Machine.execRankRetrainResult rank eye s
  | .rankMigrationStart rank => Sys2Proof.Machine.execRankMigrationStart rank s
  | .rankMigrationComplete rank => Sys2Proof.Machine.execRankMigrationComplete rank s
  | .remirror pair => Sys2Proof.Machine.execRemirror pair s
  | .dramChannelLoss chan => Sys2Proof.Machine.execDramChannelLoss chan s
  | .scrubPass x => Sys2Proof.Machine.execScrubPass x s
  | .detourApply pair => Sys2Proof.Machine.execDetourApply pair s
  | .loftWordProgram sector word v => Sys2Proof.Machine.execLoftWordProgram sector word v s
  | .loftSectorErase sector ok => Sys2Proof.Machine.execLoftSectorErase sector ok s
  | .loftEraseAbort bank => Sys2Proof.Machine.execLoftEraseAbort bank s
  | .loftPatrol sector => Sys2Proof.Machine.execLoftPatrol sector s
  | .healthEvaluation => Sys2Proof.Machine.execHealthEvaluation s
  | .idleHoldExpiry => Sys2Proof.Machine.execIdleHoldExpiry s
  | .q3Entry => Sys2Proof.Machine.execQ3Entry s
  | .wake t => Sys2Proof.Machine.execWake t s
  | .wakeComplete eyes => Sys2Proof.Machine.execWakeComplete eyes s
  | .internalWake t => Sys2Proof.Machine.execInternalWake t s
  | .capacitanceMeasurement energy => Sys2Proof.Machine.execCapacitanceMeasurement energy s
  | .heartbeat => Sys2Proof.Machine.execHeartbeat s
  | .inputFail => Sys2Proof.Machine.execInputFail s
  | .dumpPlan => Sys2Proof.Machine.execDumpPlan s
  | .programSlotEnd => Sys2Proof.Machine.execProgramSlotEnd s
  | .inputOvervoltageOrBreaker breaker => Sys2Proof.Machine.execInputOvervoltageOrBreaker breaker s
  | .thermalShutdown junction temp => Sys2Proof.Machine.execThermalShutdown junction temp s
  | .temperature place temp dies => Sys2Proof.Machine.execTemperature place temp dies s
  | .powerGood e => Sys2Proof.Machine.execPowerGood e s
  | .retentionScan d slot wl cw => Sys2Proof.Machine.execRetentionScan d slot wl cw s
  | .resetAssert us e => Sys2Proof.Machine.execResetAssert us e s
  | .resetRelease e => Sys2Proof.Machine.execResetRelease e s
  | .pwrDisableAssert us => Sys2Proof.Machine.execPwrDisableAssert us s
  | .pwrDisableRelease e => Sys2Proof.Machine.execPwrDisableRelease e s
  | .lampReq on => Sys2Proof.Machine.execLampReq on s
  | .tapDbgToken data => Sys2Proof.Machine.execTapDbgToken data s
  | .tapDbgChal => Sys2Proof.Machine.execTapDbgChal s
  | .tapIdcode => Sys2Proof.Machine.execTapIdcode s
  | .tapExtest outs => Sys2Proof.Machine.execTapExtest outs s
  | .tapSamplePreload pins outs => Sys2Proof.Machine.execTapSamplePreload pins outs s
  | .tapBypass => Sys2Proof.Machine.execTapBypass s
  | .cnpArrival fn p => Sys2Proof.Machine.execCnpArrival fn p s
  | .loadComplete c => Sys2Proof.Machine.execLoadComplete c s
  | .storeComplete c => Sys2Proof.Machine.execStoreComplete c s
  | .nextHopResolution p addr mac => Sys2Proof.Machine.execNextHopResolution p addr mac s
  | .temperatureClear place temp => Sys2Proof.Machine.execTemperatureClear place temp s

end Sys2Proof.Machine
end

