-- ==== Sys2Proof/Safety.lean ====
section
/-! DEFINITION. What a safe step is, what every state of the module keeps, and the terms the statements are made in: a
command that may start, a completion that is posted, a stream core that issues an instruction. -/

namespace Sys2Proof.Machine

/-- A step answers a next state. -/
def Answers (o : Host.Outcome State Fault Refusal) : Prop := ∃ t, o = .next t

/-- Every command that waits names parts the module has. -/
def QueueOk (s : State) : Prop := ∀ c ∈ s.pending, c.wf = true

/-! ### The fuses -/

/-- The counters stand as one of the four states of Table 21.1 allows (R538), and the media erase of REFURBISH runs only in
RETURN (R544). -/
def Life.legal (l : Life) : Prop :=
  ((l.seals = l.returns ∧ l.returns = l.refurbs) ∨ (l.seals = l.returns + 1 ∧ l.returns = l.refurbs) ∨
    (l.seals = l.returns ∧ l.returns = l.refurbs + 1)) ∧
  (l.erasing.isSome = true → l.seals = l.returns ∧ l.returns = l.refurbs + 1 ∧ l.scrap = false)

/-- No fuse of `a` is intact again in `b`: the counters and the floor do not fall, SCRAP stays blown (R538, R550), and the vendor root
hash stays as it is (R541). -/
def Life.burnt (a b : Life) : Prop :=
  a.seals ≤ b.seals ∧ a.returns ≤ b.returns ∧ a.refurbs ≤ b.refurbs ∧ a.floor ≤ b.floor ∧ (a.scrap = true → b.scrap = true) ∧
    b.root = a.root

/-! ### Host commands -/

/-- The state but for rings, functions, zones and what is sent: what the completion of a command and the ring's going on
leave alone. -/
def State.rest (s : State) : State := { s with sqs := [], cqs := [], aborts := [], rdma := [], out := [], zones := [], fns := [] }

/-- The reference names a checked command of an opcode that may start (R153, R154), and its ring and completion ring stand. -/
def Startable (s : State) (r : Ref) (op : Nat) (c : Cmd) : Prop :=
  r.wf = true ∧ s.startable r op = some c ∧ ∃ q k, s.sq r.fn r.sq = some q ∧ s.cq r.fn q.cq = some k

/-- Between `s` and `t` the module has written a completion entry for `r` with a status, result and ledger number into the
completion ring bound to its submission ring (R146): it stands among the writes of that ring that are not acknowledged and were
not there in `s`, its RDMA WRITE is outstanding, and its bytes are those of Table 5.7, made in a state with the bell,
ledger and semaphores of `t`. -/
def Posts (s t : State) (r : Ref) (status : Nat) (result : W64) (ledger : Option Nat) : Prop :=
  ∃ q0 k0 k1 new q k c p u d logged, s.sq r.fn r.sq = some q0 ∧ s.cq r.fn q0.cq = some k0 ∧ t.cq r.fn q0.cq = some k1 ∧
    k1.unacked = k0.unacked ++ new ∧ c.tag = r.tag ∧ u.bell.now = t.bell.now ∧ u.ledger = t.ledger ∧
    u.sems = t.sems ∧ d.status = status ∧ d.result = result ∧ d.ledger = ledger ∧ (k.posted, cqeBytes u r c q k d logged) ∈ new ∧
    RdmaOp.mk r.fn p false (.cqe q0.cq k.posted (cqeBytes u r c q k d logged)) ∈ t.rdma

/-- The command took the next ledger number (R158) and completed with SUCCESS, a result and that number. -/
def Commits (s t : State) (r : Ref) (result : W64) : Prop :=
  t.ledger = s.ledger + 1 ∧ Posts s t r SUCCESS result (some (s.ledger + 1))

/-- An operation of a kind is outstanding for a function. -/
def Sends (t : State) (f : Nat) (k : OpKind) : Prop := ∃ p ev, RdmaOp.mk f p ev k ∈ t.rdma

/-- Bytes are on their way into the buffer of a command, from its byte `k` on (R142). -/
def Delivers (t : State) (r : Ref) (k : Nat) (b : Bytes) : Prop := ∃ c, Sends t r.fn (.outData c r k b)

/-- An event of a code and class stands in the log of `t`, raised in its bell and boot, with its function and DETAIL (R515). -/
def Raised (t : State) (code cls f : Nat) (detail : List (Nat × Nat × Nat)) : Prop :=
  ∃ n, record 64 ([(0, 8, t.bell.now), (8, 8, n), (16, 2, code), (18, 1, cls), (20, 4, t.bell.boot), (24, 2, f)] ++ detail) ∈ t.events

/-- A manager writes through a port whose queue pair serves it, and holds SEM[0] there (R118, R569). -/
def Manages (s : State) (f : Nat) (p : PortId) : Prop :=
  f < 2 ∧ s.responds f p = true ∧ semHeldBy (s.semWord 0) f p = true

/-- Nothing that a boot meets stops it (Table 22.1): the tests pass, a bank verifies, every rank trains, the loft is at rest, and no step begins
after READY. -/
def Bootable (s : State) (e : BootEnv) : Prop :=
  e.wf = true ∧ e.romOk = true ∧ (s.chooseBank e.bankBad).isSome = true ∧ e.sramOk = true ∧ e.ranksBad = [] ∧ e.fillBad = [] ∧ 12 ≤ e.coresOk ∧
    e.metaOk = true ∧ s.life.state ≠ .scrapped ∧ s.dram.ranks = [] ∧ s.dram.chanOut = [] ∧ s.loft.busy = [] ∧ ∀ m ∈ e.stepMs, m ≤ e.ms

/-- The next boot has brought the module to READY (R557, R562): step 14, the boot counted, its volatile state cleared. -/
def Booted (s t : State) (e : BootEnv) : Prop :=
  t.pwr.on = true ∧ t.boot.ready = true ∧ t.boot.step = 14 ∧ t.boot.readyMs = e.ms ∧ t.boot.halted = none ∧
    t.bell.boot = (s.bell.boot + 1) % 2 ^ 32 ∧ t.bell.now = e.ms * 1000 / periodUs s.bell.period ∧ t.due = [] ∧
    t.err = SetupErr.clear ∧ t.tap.ir = 0xFF ∧ t.smbOff = 0

/-! ### Stream cores -/

/-- A running item of core `c` is about to issue the word `w`, which is listed: its job stands, the word is the one at its PC, no
load outstanding fills a register it uses, no fault of its job stops it (R391), and `x` is its context once the products due have landed
(R366, R370). -/
def Issues (s : State) (c : CoreId) (w : W32) (uses : List (Bool × Nat)) (jb : Job) (x : Ctx) : Prop :=
  c.wf = true ∧ listed w = true ∧ look s.jobs x.job = some jb ∧ jb.fetch x.pc = some w ∧ jb.fault = none ∧
    jb.halted.contains (coreNo c) = false ∧
    (∃ x0, (s.core (coreNo c)).ctx = some x0 ∧ x = x0.landDue) ∧ ∀ l ∈ x.loads, (l.wide, l.rd) ∉ uses

/-- Where execution goes on after an instruction that transfers no control: `x` as it issued, `y` with its effect. -/
def Ctx.onward (x y : Ctx) : Ctx × Nat := loopNext x y.ldepth y

/-- The place execution goes on at lies in the job's code. -/
def GoesOn (jb : Job) (x y : Ctx) : Prop := (jb.fetch (x.onward y).2).isSome = true

/-- The state after an instruction that goes on: the core holds the new context, one cycle later, at the place execution goes
on at; `t` is the state with the instruction's effect outside the core. -/
def State.after (t : State) (c : CoreId) (x y : Ctx) : State :=
  t.setCtx (coreNo c) { (x.onward y).1 with pc := (x.onward y).2, cycle := (x.onward y).1.cycle + 1 }

end Sys2Proof.Machine
end

