-- ==== Sys2Proof/Certificates/Slice0/Obligations.lean ====
section
/-! DEFINITION. The statements for the provers. -/

open Sys2Proof Sys2Proof.Machine

/-! ### The queue, the outcomes, the fuses -/

/-- A step runs the command at the front of the queue on the state with the queue's rest. With no command waiting the block idles:
nothing changes (the model's own choice, log entry 4). -/
def Obligations.StepRunsFront : Prop :=
  (∀ (c : Instr) (cs : List Instr) (s : State), step { s with pending := c :: cs } = exec c { s with pending := cs }) ∧
    ∀ s : State, s.pending = [] → step s = .next s

/-- A command's effect is on everything but the queue: the commands that wait stay as they are. -/
def Obligations.QueueKept : Prop := ∀ (i : Instr) (s t : State), exec i s = .next t → t.pending = s.pending

/-- What a host command leaves alone. A row below names the parts of the state its commands may change; every other part of a next
state is as it was. -/
def Obligations.CommandFrames : Prop :=
  ∀ (s t : State) (i : Instr), exec i s = .next t →
    match i with
    | .firmwareDownload _ | .flush _ | .randomWrite _ | .reportZones _ | .write _ | .zoneAppend _ =>
      t = { s with
        out := t.out, rdma := t.rdma, fns := t.fns, sqs := t.sqs, cqs := t.cqs, aborts := t.aborts, zones := t.zones }
    | .deleteRing _ | .resumeFunction _ | .setRingNotify _ =>
      t = { s with
        out := t.out, rdma := t.rdma, ledger := t.ledger, fns := t.fns, sqs := t.sqs, cqs := t.cqs, aborts := t.aborts,
        zones := t.zones }
    | .randomRead _ | .read _ =>
      t = { s with
        out := t.out, rdma := t.rdma, fns := t.fns, sqs := t.sqs, cqs := t.cqs, aborts := t.aborts, zones := t.zones,
        media := t.media }
    | .run _ | .scan _ =>
      t = { s with
        out := t.out, rdma := t.rdma, fns := t.fns, sqs := t.sqs, cqs := t.cqs, aborts := t.aborts, zones := t.zones,
        jobs := t.jobs }
    | .createRing _ =>
      t = { s with
        free := t.free, out := t.out, rdma := t.rdma, ledger := t.ledger, fns := t.fns, sqs := t.sqs, cqs := t.cqs,
        aborts := t.aborts, zones := t.zones }
    | .semAcquire _ | .semBreak _ | .semRead _ | .semRelease _ =>
      t = { s with
        out := t.out, rdma := t.rdma, ledger := t.ledger, fns := t.fns, sqs := t.sqs, cqs := t.cqs, sems := t.sems,
        aborts := t.aborts, zones := t.zones }
    | .setLatencyTolerance _ =>
      t = { s with
        out := t.out, rdma := t.rdma, ledger := t.ledger, fns := t.fns, sqs := t.sqs, cqs := t.cqs, aborts := t.aborts,
        zones := t.zones, pwr := t.pwr }
    | .sieveWrite _ | .sieveWritePair _ =>
      t = { s with
        out := t.out, rdma := t.rdma, ledger := t.ledger, fns := t.fns, sqs := t.sqs, cqs := t.cqs, aborts := t.aborts,
        zones := t.zones, sieve := t.sieve }
    | .addFunction _ =>
      t = { s with
        free := t.free, out := t.out, rdma := t.rdma, ledger := t.ledger, fns := t.fns, sqs := t.sqs, cqs := t.cqs,
        aborts := t.aborts, zones := t.zones, sieve := t.sieve }
    | .attest _ =>
      t = { s with
        out := t.out, rdma := t.rdma, ledger := t.ledger, fns := t.fns, sqs := t.sqs, cqs := t.cqs, aborts := t.aborts,
        zones := t.zones, loft := t.loft, life := t.life }
    | .closeZone _ =>
      t = { s with
        out := t.out, rdma := t.rdma, ledger := t.ledger, fns := t.fns, sqs := t.sqs, cqs := t.cqs, aborts := t.aborts,
        zones := t.zones, media := t.media, dram := t.dram }
    | .setFunctionResources _ =>
      t = { s with
        out := t.out, rdma := t.rdma, ledger := t.ledger, fns := t.fns, sqs := t.sqs, cqs := t.cqs, due := t.due,
        aborts := t.aborts, zones := t.zones, sieve := t.sieve }
    | .assignHolding _ =>
      t = { s with
        out := t.out, rdma := t.rdma, ledger := t.ledger, fns := t.fns, sqs := t.sqs, cqs := t.cqs, aborts := t.aborts,
        holds := t.holds, zones := t.zones, media := t.media, dram := t.dram }
    | .finishZone _ =>
      t = { s with
        out := t.out, rdma := t.rdma, ledger := t.ledger, fns := t.fns, sqs := t.sqs, cqs := t.cqs, aborts := t.aborts,
        zones := t.zones, media := t.media, staged := t.staged, dram := t.dram }
    | .randomTrim _ =>
      t = { s with
        out := t.out, rdma := t.rdma, ledger := t.ledger, fns := t.fns, sqs := t.sqs, cqs := t.cqs, aborts := t.aborts,
        zones := t.zones, rand := t.rand, media := t.media, dram := t.dram }
    | .resetFunction _ =>
      t = { s with
        out := t.out, rdma := t.rdma, ledger := t.ledger, net := t.net, fns := t.fns, sqs := t.sqs, cqs := t.cqs,
        sems := t.sems, due := t.due, aborts := t.aborts, zones := t.zones }
    | .firmwareActivate _ =>
      t = { s with
        out := t.out, rdma := t.rdma, bell := t.bell, fns := t.fns, sqs := t.sqs, cqs := t.cqs, aborts := t.aborts,
        zones := t.zones, loft := t.loft, events := t.events, eventSeq := t.eventSeq, act := t.act }
    | .getLog _ =>
      t = { s with
        out := t.out, rdma := t.rdma, bell := t.bell, fns := t.fns, sqs := t.sqs, cqs := t.cqs, aborts := t.aborts,
        zones := t.zones, media := t.media, loft := t.loft, events := t.events, eventSeq := t.eventSeq }
    | .removeFunction _ =>
      t = { s with
        out := t.out, rdma := t.rdma, ledger := t.ledger, net := t.net, fns := t.fns, sqs := t.sqs, cqs := t.cqs,
        sems := t.sems, due := t.due, aborts := t.aborts, zones := t.zones, sieve := t.sieve }
    | .sieveLookup _ | .sieveStep _ =>
      t = { s with
        out := t.out, rdma := t.rdma, bell := t.bell, fns := t.fns, sqs := t.sqs, cqs := t.cqs, aborts := t.aborts,
        zones := t.zones, sieve := t.sieve, loft := t.loft, events := t.events, eventSeq := t.eventSeq }
    | .setCalendar _ =>
      t = { s with
        out := t.out, rdma := t.rdma, ledger := t.ledger, bell := t.bell, fns := t.fns, sqs := t.sqs, cqs := t.cqs,
        aborts := t.aborts, zones := t.zones, loft := t.loft, events := t.events, eventSeq := t.eventSeq, clk := t.clk }
    | .createHolding _ =>
      t = { s with
        free := t.free, out := t.out, rdma := t.rdma, ledger := t.ledger, bell := t.bell, fns := t.fns, sqs := t.sqs,
        cqs := t.cqs, aborts := t.aborts, holds := t.holds, zones := t.zones, media := t.media, dram := t.dram,
        loft := t.loft, events := t.events, eventSeq := t.eventSeq }
    | .openZone _ =>
      t = { s with
        out := t.out, rdma := t.rdma, ledger := t.ledger, bell := t.bell, fns := t.fns, sqs := t.sqs, cqs := t.cqs,
        aborts := t.aborts, cursors := t.cursors, zones := t.zones, media := t.media, staged := t.staged, dram := t.dram,
        loft := t.loft, events := t.events, eventSeq := t.eventSeq }
    | .resetZone _ =>
      t = { s with
        out := t.out, rdma := t.rdma, ledger := t.ledger, bell := t.bell, fns := t.fns, sqs := t.sqs, cqs := t.cqs,
        aborts := t.aborts, zones := t.zones, units := t.units, media := t.media, staged := t.staged, dram := t.dram,
        loft := t.loft, events := t.events, eventSeq := t.eventSeq }
    | .setHolding _ =>
      t = { s with
        out := t.out, rdma := t.rdma, ledger := t.ledger, bell := t.bell, fns := t.fns, sqs := t.sqs, cqs := t.cqs,
        due := t.due, aborts := t.aborts, holds := t.holds, zones := t.zones, media := t.media, dram := t.dram,
        loft := t.loft, events := t.events, eventSeq := t.eventSeq }
    | .quiesceFunction _ | .restartRing _ =>
      t = { s with
        out := t.out, rdma := t.rdma, ledger := t.ledger, bell := t.bell, fns := t.fns, sqs := t.sqs, cqs := t.cqs,
        aborts := t.aborts, zones := t.zones, units := t.units, media := t.media, staged := t.staged, jobs := t.jobs,
        cores := t.cores, hamlets := t.hamlets, disp := t.disp, dram := t.dram, health := t.health }
    | .deleteHolding _ =>
      t = { s with
        free := t.free, out := t.out, rdma := t.rdma, ledger := t.ledger, bell := t.bell, fns := t.fns, sqs := t.sqs,
        cqs := t.cqs, aborts := t.aborts, holds := t.holds, cursors := t.cursors, zones := t.zones, units := t.units,
        rand := t.rand, media := t.media, staged := t.staged, dram := t.dram, loft := t.loft, events := t.events,
        eventSeq := t.eventSeq }
    | .abort _ =>
      t = { s with
        out := t.out, rdma := t.rdma, ledger := t.ledger, bell := t.bell, fns := t.fns, sqs := t.sqs, cqs := t.cqs,
        aborts := t.aborts, zones := t.zones, units := t.units, media := t.media, staged := t.staged, jobs := t.jobs,
        cores := t.cores, hamlets := t.hamlets, disp := t.disp, dram := t.dram, loft := t.loft, health := t.health,
        life := t.life, act := t.act }
    | .commandDeferredStart _ =>
      t = { s with
        free := t.free, out := t.out, rdma := t.rdma, ledger := t.ledger, bell := t.bell, net := t.net, fns := t.fns,
        sqs := t.sqs, cqs := t.cqs, sems := t.sems, due := t.due, aborts := t.aborts, holds := t.holds,
        cursors := t.cursors, zones := t.zones, units := t.units, rand := t.rand, media := t.media, staged := t.staged,
        jobs := t.jobs, cores := t.cores, hamlets := t.hamlets, disp := t.disp, sieve := t.sieve, dram := t.dram,
        loft := t.loft, health := t.health, events := t.events, eventSeq := t.eventSeq, clk := t.clk, pwr := t.pwr,
        life := t.life, act := t.act }
    | _ => True

/-- What every other command leaves alone, but for those that boot or reset the module. A row below names the parts of the state its
commands may change; every other part of a next state is as it was. -/
def Obligations.EventFrames : Prop :=
  ∀ (s t : State) (i : Instr), exec i s = .next t →
    match i with
    | .ccRateUpdate _ _ | .cnpArrival _ _ =>
      t = { s with fns := t.fns }
    | .channelRecentre _ _ _ | .channelRetrainRetry _ | .checkpointBegin | .eraseComplete _ | .patrolRead _ _ _ _
    | .retentionScan _ _ _ _ =>
      t = { s with media := t.media }
    | .detourApply _ =>
      t = { s with dram := t.dram }
    | .dieOpOverrun _ =>
      t = { s with bell := t.bell }
    | .gateContextPause _ _ | .jobTimeLimit _ =>
      t = { s with jobs := t.jobs }
    | .internalWake _ | .lampReq _ | .q3Entry | .wake _ =>
      t = { s with pwr := t.pwr }
    | .loadComplete _ | .productLand _ =>
      t = { s with cores := t.cores }
    | .ptpDelayResp _ _ =>
      t = { s with clk := t.clk }
    | .quantumAssignment =>
      t = { s with disp := t.disp }
    | .ringDoze _ _ | .stagingDrain =>
      t = { s with sqs := t.sqs }
    | .semBreakable _ =>
      t = { s with sems := t.sems }
    | .sieveRowRetired _ =>
      t = { s with sieve := t.sieve }
    | .smbusAlertResponse =>
      t = { s with out := t.out }
    | .ackTimeout _ _ _ =>
      t = { s with out := t.out, fns := t.fns }
    | .ceMarkedPacket _ _ _ _ =>
      t = { s with out := t.out, net := t.net }
    | .checkpointComplete | .idleHoldExpiry =>
      t = { s with media := t.media, pwr := t.pwr }
    | .frameDiscard _ _ | .nextHopResolution _ _ _ | .pauseFrame _ | .ptpAnnounce _ _ =>
      t = { s with portA := t.portA, portB := t.portB }
    | .heartbeat =>
      t = { s with loft := t.loft, pwr := t.pwr }
    | .loftEraseAbort _ =>
      t = { s with free := t.free, loft := t.loft }
    | .ptpSourceReturn =>
      t = { s with net := t.net, clk := t.clk }
    | .relocationCommit _ _ =>
      t = { s with media := t.media, dram := t.dram }
    | .scrubComplete _ =>
      t = { s with dram := t.dram, edc := t.edc }
    | .smbusRead =>
      t = { s with out := t.out, smbOff := t.smbOff }
    | .storeComplete _ =>
      t = { s with jobs := t.jobs, cores := t.cores }
    | .suspendResponse _ =>
      t = { s with bell := t.bell, media := t.media }
    | .tapBypass | .tapDbgChal | .tapExtest _ | .tapSamplePreload _ _ =>
      t = { s with out := t.out, tap := t.tap }
    | .temperatureClear _ _ =>
      t = { s with health := t.health, pwr := t.pwr }
    | .watermarkBatch _ =>
      t = { s with bell := t.bell, dram := t.dram }
    | .arpRequest _ _ _ _ | .icmpEchoRequest _ _ _ _ _ _ | .neighborSolicitation _ _ _ _ | .pfcFrame _ _ _ =>
      t = { s with out := t.out, portA := t.portA, portB := t.portB }
    | .cmDreq _ _ =>
      t = { s with out := t.out, net := t.net, fns := t.fns }
    | .itemStart _ | .quantumEnd _ | .slotFill _ =>
      t = { s with cores := t.cores, hamlets := t.hamlets, disp := t.disp }
    | .notifyDeadline _ _ =>
      t = { s with out := t.out, rdma := t.rdma, cqs := t.cqs }
    | .outputPause _ =>
      t = { s with out := t.out, rdma := t.rdma, jobs := t.jobs }
    | .scrubPass _ =>
      t = { s with jobs := t.jobs, dram := t.dram, edc := t.edc }
    | .smbusSetOffset _ _ =>
      t = { s with out := t.out, err := t.err, smbOff := t.smbOff }
    | .tapDbgToken _ =>
      t = { s with out := t.out, life := t.life, tap := t.tap }
    | .tapIdcode =>
      t = { s with free := t.free, out := t.out, tap := t.tap }
    | .cmReq _ _ =>
      t = { s with out := t.out, portA := t.portA, portB := t.portB, fns := t.fns }
    | .doorbellPollIssue _ _ =>
      t = { s with out := t.out, rdma := t.rdma, bell := t.bell, fns := t.fns }
    | .ptpSyncLoss =>
      t = { s with portA := t.portA, portB := t.portB, net := t.net, clk := t.clk }
    | .batchPost _ _ =>
      t = { s with out := t.out, rdma := t.rdma, jobs := t.jobs, hamlets := t.hamlets, disp := t.disp }
    | .cmRtu _ _ | .dataReadResponse _ _ | .headWordResponse _ _ _ =>
      t = { s with out := t.out, rdma := t.rdma, fns := t.fns, sqs := t.sqs, cqs := t.cqs }
    | .jobLoaded _ =>
      t = { s with ledger := t.ledger, sqs := t.sqs, jobs := t.jobs, hamlets := t.hamlets, disp := t.disp }
    | .knock _ _ =>
      t = { s with portA := t.portA, portB := t.portB, net := t.net, fns := t.fns, pwr := t.pwr }
    | .parkingComplete _ _ =>
      t = { s with zones := t.zones, media := t.media, staged := t.staged, dram := t.dram, pwr := t.pwr }
    | .doorbellPollResponse _ _ _ =>
      t = { s with out := t.out, rdma := t.rdma, fns := t.fns, sqs := t.sqs, cqs := t.cqs, pwr := t.pwr }
    | .failover _ =>
      t = { s with out := t.out, rdma := t.rdma, net := t.net, fns := t.fns, sqs := t.sqs, cqs := t.cqs }
    | .loftPatrol _ =>
      t = { s with
        out := t.out, rdma := t.rdma, bell := t.bell, loft := t.loft, events := t.events, eventSeq := t.eventSeq }
    | .chainedListResponse _ _ | .drainEnd _ | .parameterBlockResponse _ _ =>
      t = { s with
        out := t.out, rdma := t.rdma, fns := t.fns, sqs := t.sqs, cqs := t.cqs, aborts := t.aborts, zones := t.zones }
    | .channelFault _ | .channelRetrainBegin _ =>
      t = { s with
        out := t.out, rdma := t.rdma, bell := t.bell, media := t.media, loft := t.loft, events := t.events,
        eventSeq := t.eventSeq }
    | .healthEvaluation =>
      t = { s with
        out := t.out, rdma := t.rdma, bell := t.bell, loft := t.loft, health := t.health, events := t.events,
        eventSeq := t.eventSeq }
    | .rankMigrationComplete _ | .rankRecentre _ _ _ _ =>
      t = { s with
        out := t.out, rdma := t.rdma, bell := t.bell, dram := t.dram, loft := t.loft, events := t.events,
        eventSeq := t.eventSeq }
    | .sieveChecker _ =>
      t = { s with
        out := t.out, rdma := t.rdma, bell := t.bell, sieve := t.sieve, loft := t.loft, events := t.events,
        eventSeq := t.eventSeq }
    | .blockGroupPass _ =>
      t = { s with
        out := t.out, rdma := t.rdma, bell := t.bell, media := t.media, dram := t.dram, loft := t.loft,
        events := t.events, eventSeq := t.eventSeq }
    | .capacitanceMeasurement _ | .temperature _ _ _ =>
      t = { s with
        out := t.out, rdma := t.rdma, bell := t.bell, loft := t.loft, health := t.health, events := t.events,
        eventSeq := t.eventSeq, pwr := t.pwr }
    | .completionAck _ _ _ =>
      t = { s with
        out := t.out, rdma := t.rdma, fns := t.fns, sqs := t.sqs, cqs := t.cqs, aborts := t.aborts, zones := t.zones,
        jobs := t.jobs }
    | .loftSectorErase _ _ | .loftWordProgram _ _ _ =>
      t = { s with
        free := t.free, out := t.out, rdma := t.rdma, bell := t.bell, loft := t.loft, events := t.events,
        eventSeq := t.eventSeq, life := t.life }
    | .qpRetryExhausted _ _ _ | .rnrNak _ _ | .unsupportedRequestNak _ _ _ =>
      t = { s with
        out := t.out, rdma := t.rdma, bell := t.bell, net := t.net, fns := t.fns, loft := t.loft, events := t.events,
        eventSeq := t.eventSeq }
    | .remirror _ =>
      t = { s with
        out := t.out, rdma := t.rdma, bell := t.bell, fns := t.fns, dram := t.dram, loft := t.loft, events := t.events,
        eventSeq := t.eventSeq }
    | .channelRetrainResult _ _ _ | .dieNoResponse _ | .eraseFailure _ _ | .programFailure _ _ | .relocation _ _ =>
      t = { s with
        out := t.out, rdma := t.rdma, bell := t.bell, media := t.media, staged := t.staged, dram := t.dram,
        loft := t.loft, events := t.events, eventSeq := t.eventSeq }
    | .downRetry _ | .linkFault _ _ | .opticsInsert _ _ | .opticsRemove _ | .pfcWatchdog _ _ =>
      t = { s with
        out := t.out, rdma := t.rdma, bell := t.bell, portA := t.portA, portB := t.portB, net := t.net, loft := t.loft,
        events := t.events, eventSeq := t.eventSeq }
    | .entryFetchResponse _ _ _ =>
      t = { s with
        out := t.out, rdma := t.rdma, fns := t.fns, sqs := t.sqs, cqs := t.cqs, aborts := t.aborts, zones := t.zones,
        jobOrder := t.jobOrder, pwr := t.pwr }
    | .ptpSync _ _ _ =>
      t = { s with
        out := t.out, rdma := t.rdma, bell := t.bell, portA := t.portA, portB := t.portB, loft := t.loft,
        events := t.events, eventSeq := t.eventSeq, clk := t.clk }
    | .heldSlotRelease _ =>
      t = { s with
        out := t.out, rdma := t.rdma, bell := t.bell, units := t.units, media := t.media, staged := t.staged,
        dram := t.dram, loft := t.loft, events := t.events, eventSeq := t.eventSeq }
    | .randomAreaReclaim _ =>
      t = { s with
        out := t.out, rdma := t.rdma, bell := t.bell, rand := t.rand, media := t.media, staged := t.staged,
        dram := t.dram, loft := t.loft, events := t.events, eventSeq := t.eventSeq }
    | .semCompareAndSwap _ _ _ _ _ _ =>
      t = { s with
        out := t.out, rdma := t.rdma, ledger := t.ledger, bell := t.bell, net := t.net, fns := t.fns, sems := t.sems,
        loft := t.loft, events := t.events, eventSeq := t.eventSeq }
    | .internalTimeout _ _ =>
      t = { s with
        out := t.out, rdma := t.rdma, bell := t.bell, sqs := t.sqs, cqs := t.cqs, aborts := t.aborts, zones := t.zones,
        media := t.media, loft := t.loft, events := t.events, eventSeq := t.eventSeq }
    | .svlComplete _ =>
      t = { s with
        free := t.free, out := t.out, rdma := t.rdma, bell := t.bell, jobs := t.jobs, cores := t.cores, disp := t.disp,
        sieve := t.sieve, loft := t.loft, events := t.events, eventSeq := t.eventSeq }
    | .dumpPlan | .programComplete _ =>
      t = { s with
        out := t.out, rdma := t.rdma, bell := t.bell, rand := t.rand, media := t.media, staged := t.staged,
        dram := t.dram, loft := t.loft, health := t.health, events := t.events, eventSeq := t.eventSeq, pwr := t.pwr }
    | .requestComplete _ =>
      t = { s with
        free := t.free, ledger := t.ledger, fns := t.fns, zones := t.zones, units := t.units, media := t.media,
        staged := t.staged, jobs := t.jobs, cores := t.cores, disp := t.disp, dram := t.dram, health := t.health }
    | .trainingAttemptEnd _ _ =>
      t = { s with
        out := t.out, rdma := t.rdma, bell := t.bell, portA := t.portA, portB := t.portB, net := t.net, fns := t.fns,
        sqs := t.sqs, cqs := t.cqs, loft := t.loft, events := t.events, eventSeq := t.eventSeq }
    | .wakeComplete _ =>
      t = { s with
        out := t.out, rdma := t.rdma, bell := t.bell, sqs := t.sqs, cqs := t.cqs, aborts := t.aborts, zones := t.zones,
        media := t.media, loft := t.loft, events := t.events, eventSeq := t.eventSeq, pwr := t.pwr }
    | .activationHandover _ =>
      t = { s with
        out := t.out, rdma := t.rdma, ledger := t.ledger, bell := t.bell, boot := t.boot, sqs := t.sqs, cqs := t.cqs,
        aborts := t.aborts, zones := t.zones, loft := t.loft, events := t.events, eventSeq := t.eventSeq, life := t.life,
        act := t.act }
    | .coreRetire _ _ | .coreSelfTest _ _ _ | .dmaComplete _ _ | .jobComplete _ | .jobLoadStart _ | .jobStop _
    | .outputAppend _ =>
      t = { s with
        out := t.out, rdma := t.rdma, ledger := t.ledger, bell := t.bell, fns := t.fns, sqs := t.sqs, cqs := t.cqs,
        aborts := t.aborts, zones := t.zones, units := t.units, media := t.media, staged := t.staged, jobs := t.jobs,
        cores := t.cores, hamlets := t.hamlets, disp := t.disp, dram := t.dram, health := t.health }
    | .add _ _ _ _ | .adda _ _ _ _ | .addar _ _ _ _ | .addi _ _ _ _ | .and_ _ _ _ _ | .andi _ _ _ _ | .andn _ _ _ _
    | .atomCas _ _ _ _ _ | .atomFadd _ _ _ _ _ | .atomSwap _ _ _ _ _ | .beq _ _ _ _ | .bge _ _ _ _ | .bgeu _ _ _ _
    | .blt _ _ _ _ | .bltu _ _ _ _ | .bne _ _ _ _ | .bswap _ _ _ _ | .call _ _ | .cati _ _ _ _ | .clmac _ _ _ _ _ _
    | .clmul _ _ _ _ _ _ | .clz _ _ _ _ | .crc32cB _ _ _ _ | .crc32cD _ _ _ _ | .crc32cH _ _ _ _ | .crc32cW _ _ _ _
    | .ctz _ _ _ _ | .dma _ _ _ _ _ | .done _ _ _ _ | .emit _ _ _ _ | .fence _ _ _ _ | .gfmac _ _ _ _ _ _
    | .gfmacs _ _ _ _ _ _ | .gfmul _ _ _ _ _ _ | .gfmuls _ _ _ _ _ _ | .j _ _ | .jalr _ _ _ _ | .lbrk _ _ | .ld _ _ _ _ _ _ _
    | .ldq _ _ _ _ _ _ _ | .loop _ _ _ _ | .loopi _ _ _ | .mac _ _ _ _ _ _ | .macu _ _ _ _ _ _ | .max _ _ _ _ | .maxu _ _ _ _
    | .mfa _ _ _ _ | .mfm _ _ _ _ | .mfp _ _ _ _ _ _ | .mfph _ _ _ _ _ _ | .mfpl _ _ _ _ _ _ | .mfsr _ _ _ _ | .min _ _ _ _
    | .minu _ _ _ _ | .mtp _ _ _ _ _ _ | .mtpg _ _ _ _ _ _ | .mtsr _ _ _ _ | .mul _ _ _ _ _ _ | .mulu _ _ _ _ _ _
    | .mva _ _ _ _ | .mvm _ _ _ _ | .or_ _ _ _ _ | .ori _ _ _ _ | .popc _ _ _ _ | .post _ _ _ _ | .req _ _ _ _ | .ror _ _ _ _
    | .seq _ _ _ _ | .sll _ _ _ _ | .slli _ _ _ _ | .slt _ _ _ _ | .slti _ _ _ _ | .sltiu _ _ _ _ | .sltu _ _ _ _
    | .sne _ _ _ _ | .sra _ _ _ _ | .srai _ _ _ _ | .srl _ _ _ _ | .srli _ _ _ _ | .st _ _ _ _ _ _ _ | .stq _ _ _ _ _ _ _
    | .sub _ _ _ _ | .svl _ _ _ _ | .trap _ _ _ _ | .vadd _ _ _ _ _ _ | .vadds _ _ _ _ _ _ | .vaddus _ _ _ _ _ _
    | .vand _ _ _ _ _ _ | .vandn _ _ _ _ _ _ | .vbcast _ _ _ _ _ _ | .vceq _ _ _ _ _ _ | .vcgt _ _ _ _ _ _
    | .vcgtu _ _ _ _ _ _ | .vext _ _ _ _ _ _ | .vins _ _ _ _ _ _ | .vmac _ _ _ _ _ _ | .vmax _ _ _ _ _ _ | .vmaxu _ _ _ _ _ _
    | .vmin _ _ _ _ _ _ | .vminu _ _ _ _ _ _ | .vmov _ _ _ _ _ _ | .vmul _ _ _ _ _ _ | .vor _ _ _ _ _ _ | .vsel _ _ _ _ _ _
    | .vshuf _ _ _ _ _ _ | .vsll _ _ _ _ _ _ | .vsra _ _ _ _ _ _ | .vsrl _ _ _ _ _ _ | .vsub _ _ _ _ _ _ | .vsubs _ _ _ _ _ _
    | .vsubus _ _ _ _ _ _ | .vsum _ _ _ _ _ _ | .vxor _ _ _ _ _ _ | .waitd _ _ _ _ | .waitr _ _ _ _ | .xor _ _ _ _
    | .xori _ _ _ _ =>
      t = { s with
        free := t.free, out := t.out, rdma := t.rdma, ledger := t.ledger, bell := t.bell, fns := t.fns, sqs := t.sqs,
        cqs := t.cqs, aborts := t.aborts, zones := t.zones, units := t.units, media := t.media, staged := t.staged,
        jobs := t.jobs, cores := t.cores, hamlets := t.hamlets, disp := t.disp, dram := t.dram, health := t.health }
    | .adminRingWrite _ _ _ | .alertClear _ | .locate _ _ | .portEnable _ _ _ | .portRetrain _ _ | .qpToInit _ _ _ _ _ _
    | .qpToReset _ _ _ _ | .qpToRtr _ _ _ _ | .qpToRts _ _ _ _ | .scrubGo _ | .setupErrClear _ | .setupWrite _ _ _
    | .smbusWrite _ _ | .sveModeWrite _ _ | .sveOwnerWrite _ _ | .trcDispCtrlWrite _ _ =>
      t = { s with
        out := t.out, rdma := t.rdma, bell := t.bell, err := t.err, portA := t.portA, portB := t.portB, net := t.net,
        fns := t.fns, sqs := t.sqs, cqs := t.cqs, sems := t.sems, disp := t.disp, sieve := t.sieve, edc := t.edc,
        loft := t.loft, health := t.health, events := t.events, eventSeq := t.eventSeq, clk := t.clk, pwr := t.pwr }
    | .commandCommit _ =>
      t = { s with
        free := t.free, out := t.out, rdma := t.rdma, ledger := t.ledger, bell := t.bell, fns := t.fns, sqs := t.sqs,
        cqs := t.cqs, aborts := t.aborts, zones := t.zones, units := t.units, rand := t.rand, media := t.media,
        staged := t.staged, dram := t.dram, loft := t.loft, health := t.health, events := t.events,
        eventSeq := t.eventSeq, life := t.life }
    | .jobLoadTimeout _ =>
      t = { s with
        out := t.out, rdma := t.rdma, ledger := t.ledger, bell := t.bell, fns := t.fns, sqs := t.sqs, cqs := t.cqs,
        aborts := t.aborts, zones := t.zones, units := t.units, media := t.media, staged := t.staged, jobs := t.jobs,
        cores := t.cores, hamlets := t.hamlets, disp := t.disp, dram := t.dram, loft := t.loft, health := t.health,
        events := t.events, eventSeq := t.eventSeq }
    | .arrayReadComplete _ _ | .planClose _ _ | .readPoint _ | .rebuildWordLine _ | .suspendLate _ _ =>
      t = { s with
        out := t.out, rdma := t.rdma, ledger := t.ledger, bell := t.bell, fns := t.fns, sqs := t.sqs, cqs := t.cqs,
        aborts := t.aborts, zones := t.zones, units := t.units, media := t.media, staged := t.staged, jobs := t.jobs,
        cores := t.cores, hamlets := t.hamlets, disp := t.disp, sieve := t.sieve, dram := t.dram, loft := t.loft,
        health := t.health, events := t.events, eventSeq := t.eventSeq }
    | .dramChannelLoss _ | .dramUncorrectable _ | .rankMigrationStart _ | .rankRetrainResult _ _ | .remap _ =>
      t = { s with
        free := t.free, out := t.out, rdma := t.rdma, ledger := t.ledger, bell := t.bell, fns := t.fns, sqs := t.sqs,
        cqs := t.cqs, aborts := t.aborts, zones := t.zones, units := t.units, media := t.media, staged := t.staged,
        jobs := t.jobs, cores := t.cores, hamlets := t.hamlets, disp := t.disp, dram := t.dram, loft := t.loft,
        health := t.health, events := t.events, eventSeq := t.eventSeq }
    | .remoteNak _ _ _ =>
      t = { s with
        out := t.out, rdma := t.rdma, ledger := t.ledger, bell := t.bell, net := t.net, fns := t.fns, sqs := t.sqs,
        cqs := t.cqs, aborts := t.aborts, zones := t.zones, units := t.units, media := t.media, staged := t.staged,
        jobs := t.jobs, cores := t.cores, hamlets := t.hamlets, disp := t.disp, dram := t.dram, loft := t.loft,
        health := t.health, events := t.events, eventSeq := t.eventSeq }
    | .bellBoundary _ =>
      t = { s with
        out := t.out, rdma := t.rdma, bell := t.bell, portA := t.portA, portB := t.portB, net := t.net, fns := t.fns,
        sqs := t.sqs, cqs := t.cqs, due := t.due, aborts := t.aborts, holds := t.holds, zones := t.zones,
        media := t.media, cores := t.cores, hamlets := t.hamlets, disp := t.disp, sieve := t.sieve, dram := t.dram,
        loft := t.loft, health := t.health, events := t.events, eventSeq := t.eventSeq, pwr := t.pwr }
    | .inputFail | .inputOvervoltageOrBreaker _ | .pwrDisableAssert _ | .thermalShutdown _ _ =>
      t = { s with
        free := t.free, out := t.out, rdma := t.rdma, ledger := t.ledger, bell := t.bell, boot := t.boot,
        portA := t.portA, portB := t.portB, net := t.net, fns := t.fns, sqs := t.sqs, due := t.due, aborts := t.aborts,
        zones := t.zones, units := t.units, media := t.media, staged := t.staged, jobs := t.jobs, cores := t.cores,
        hamlets := t.hamlets, disp := t.disp, dram := t.dram, loft := t.loft, health := t.health, events := t.events,
        eventSeq := t.eventSeq, clk := t.clk, pwr := t.pwr, life := t.life, act := t.act }
    | .programSlotEnd =>
      t = { s with
        free := t.free, out := t.out, rdma := t.rdma, ledger := t.ledger, bell := t.bell, boot := t.boot,
        portA := t.portA, portB := t.portB, net := t.net, fns := t.fns, sqs := t.sqs, due := t.due, aborts := t.aborts,
        zones := t.zones, units := t.units, rand := t.rand, media := t.media, staged := t.staged, jobs := t.jobs,
        cores := t.cores, hamlets := t.hamlets, disp := t.disp, dram := t.dram, loft := t.loft, health := t.health,
        events := t.events, eventSeq := t.eventSeq, clk := t.clk, pwr := t.pwr, life := t.life, act := t.act }
    | _ => True

/-- Zones and their data keep what no command of theirs changes: a host command that is no zone-management, holding or function command
changes no zone but for a fence it sets; OPEN, CLOSE, FINISH and RESET change no zone but the one they name, and no stored unit
outside it. -/
def Obligations.ZonesKept : Prop :=
  ∀ (s t : State) (r : Ref) (i : Instr), exec i s = .next t →
    let same := fun k => { t.zone k with fence := none } = { s.zone k with fence := none }
    (i ∈ [Instr.addFunction r, .assignHolding r, .attest r, .createHolding r, .createRing r, .deleteRing r, .firmwareActivate r,
      .firmwareDownload r, .flush r, .getLog r, .randomRead r, .randomTrim r, .randomWrite r, .read r, .removeFunction r,
      .reportZones r, .resumeFunction r, .run r, .scan r, .semAcquire r, .semBreak r, .semRead r, .semRelease r,
      .setCalendar r, .setFunctionResources r, .setLatencyTolerance r, .setRingNotify r, .sieveLookup r, .sieveStep r,
      .sieveWrite r, .sieveWritePair r, .write r, .zoneAppend r] → ∀ k, same k) ∧
    ∀ c, s.cmd r = some c → i ∈ [Instr.openZone r, .closeZone r, .finishZone r, .resetZone r] →
      (∀ k, k ≠ c.zkey → same k) ∧ ∀ n, n / 2 ^ 20 ≠ c.zkey → n / 2 ^ 20 < 2 ^ 40 → look t.units n = look s.units n

/-- No command is refused, and none but one that names a part the module does not have faults: every command that names parts
the module has answers a next state, in every state. -/
def Obligations.WellFormedAnswers : Prop :=
  ∀ (i : Instr) (s : State), (∀ e, exec i s ≠ .refused e) ∧ (i.wf = true → Answers (exec i s))

/-- The life-cycle counters stay legal (R538, R539, R544): a step taken where they make one of the states of Table 21.1, with a
media erase running only in RETURN, ends where they do. -/
def Obligations.LifeCycleStaysLegal : Prop :=
  ∀ s t : State, s.life.legal → step s = .next t → t.life.legal

/-- No step makes a blown fuse intact: counters and floor never fall, SCRAP stays blown, and the vendor root hash never changes. -/
def Obligations.FusesNeverFall : Prop := ∀ s t : State, step s = .next t → s.life.burnt t.life

/-- What the module is at delivery, where the spec says it: not READY, both ports OFF (R89), the two managers ACTIVE and every other
function ABSENT (R94), the admin rings alone existing with generation 1 (R128), every zone EMPTY (R230), no holding, no job, no
semaphore held (R110), the ledger at 0, the error latch clear (R575), and the legal life-cycle counters of a SEALED module. -/
def Obligations.ResetState : Prop :=
  let s := State.reset
  s.pending = [] ∧ s.boot.ready = false ∧ s.pwr.on = false ∧ s.portA.state = .off ∧ s.portB.state = .off ∧
    (∀ f, (s.fn f).state = if f < 2 then .active else .absent) ∧
    (∀ f n, (s.sq f n).isSome = (decide (f < 2) && decide (n = 0))) ∧
    (∀ f n q, s.sq f n = some q → q.gen = 1 ∧ q.cmds = [] ∧ q.frozen = false) ∧
    (∀ f n k, s.cq f n = some k → k.gen = 1 ∧ k.posted = 0 ∧ k.unacked = []) ∧
    (∀ z, s.zone z = Zone.fresh) ∧ s.holds = [] ∧ s.jobs = [] ∧ (∀ n, s.semWord n = 0) ∧ s.ledger = 0 ∧ s.err = SetupErr.clear ∧
    s.bell.now = 0 ∧ s.life.legal ∧ s.life.state = .sealed_

/-- The completion entry (R146, Table 5.7): LEDGER at byte 0, BELL at 8, RESULT at 16, the submission ring at 24, the low half of
FETCHED at 26, the tag at 28, STATUS at 30, and at 31 the phase, COMMITTED and LOGGED. A commit carries its own ledger number. -/
def Obligations.CompletionLayout : Prop :=
  ∀ (s : State) (r : Ref) (c : Cmd) (q : Sq) (k : Cq) (d : Done) (logged : Bool),
    let b := cqeBytes s r c q k d logged
    b.length = 32 ∧ (∀ n, d.ledger = some n → le b 0 8 = n % 2 ^ 64 ∧ bit (byteAt b 31) 1 = true) ∧
      (d.ledger = none → bit (byteAt b 31) 1 = false ∧
        le b 0 8 = (if (c.started = true ∨ c.ending.isSome = true) ∧ d.status ≠ MODULE_RESET ∧ d.status ≠ NOT_STARTED_FROZEN
          then c.seen else s.ledger) % 2 ^ 64) ∧
      le b 8 8 = s.bell.now % 2 ^ 64 ∧ le b 16 8 = (s.resultOf c d.result).toNat ∧ le b 24 2 = r.sq % 2 ^ 16 ∧
      le b 26 2 = q.fetched % 2 ^ 16 ∧ le b 28 2 = c.tag % 2 ^ 16 ∧ byteAt b 30 = d.status % 256 ∧
      bit (byteAt b 31) 0 = decide (k.posted / k.size % 2 = 0) ∧ bit (byteAt b 31) 2 = logged

/-! ### Stream cores -/

/-- The five common formats of an instruction word (R393, Table 14.1): the major opcode in bits 31 to 26, then the fields. -/
def Obligations.InstructionWords : Prop :=
  (∀ (op : BitVec 6) (rd rs1 rs2 : Sys2Proof.Reg) (fn : BitVec 11), wR op.toNat rd rs1 rs2 fn.toNat = op ++ rd ++ rs1 ++ rs2 ++ fn) ∧
    (∀ (op : BitVec 6) (rd rs1 : Sys2Proof.Reg) (imm : BitVec 16), wI op.toNat rd rs1 imm = op ++ rd ++ rs1 ++ imm) ∧
    (∀ (op : BitVec 6) (disp : BitVec 26), wJ op.toNat disp = op ++ disp) ∧
    (∀ (op : BitVec 6) (rt : Sys2Proof.Reg) (ak : BitVec 3) (upd sz : BitVec 2) (sx : Bool) (imm : BitVec 13),
      wM op.toNat rt ak upd sz sx imm = op ++ rt ++ ak ++ upd ++ sz ++ BitVec.ofBool sx ++ imm) ∧
    (∀ (op : BitVec 6) (rs : Sys2Proof.Reg) (ak : BitVec 3) (fn2 : BitVec 2) (imm : BitVec 16),
      wA op.toNat rs ak fn2.toNat imm = op ++ rs ++ ak ++ fn2 ++ imm) ∧
    (∀ (op : BitVec 6) (r : Sys2Proof.Reg) (z : BitVec 9) (sr : BitVec 12), wS op.toNat r z sr = op ++ r ++ z ++ sr) ∧
    ∀ (ra rb : Sys2Proof.Reg) (imm fn : BitVec 8), wY ra rb imm fn.toNat = (0x3C#6) ++ ra ++ rb ++ imm ++ fn

/-- Integer instructions write the result of Table 14.4 into rd (g0 discards it) and leave the rest of the core and of the module as it
stands, but for the PC and CYCLE. R format: arithmetic, logic, shifts, comparisons, minimum and maximum, the counts and byte
reversal of rs1, and CRC32C, which advances the CRC-32C state in rs1[31:0] over the low 1, 2, 4 or 8 bytes of rs2. I format: IMM16 is
sign-extended for ADDI and the comparisons, zero-extended for the logic rows, and is a shift amount below 64 for the shifts; CATI
shifts rd left by 16 and places IMM16 below. -/
def Obligations.IntegerInstructions : Prop :=
  ((∀ (s : State) (c : CoreId) (rd rs1 rs2 : Sys2Proof.Reg) (jb : Job) (x : Ctx) (i : Instr) (fn : Nat) (v : W64),
    let a := x.rg rs1.toNat
    let b := x.rg rs2.toNat
    let n := b.toNat % 64
    (i, fn, v) ∈ [(Instr.add c rd rs1 rs2, 0x00, a + b), (.sub c rd rs1 rs2, 0x01, a - b), (.and_ c rd rs1 rs2, 0x02, a &&& b),
      (.or_ c rd rs1 rs2, 0x03, a ||| b), (.xor c rd rs1 rs2, 0x04, a ^^^ b), (.andn c rd rs1 rs2, 0x05, a &&& ~~~b),
      (.sll c rd rs1 rs2, 0x08, a <<< n), (.srl c rd rs1 rs2, 0x09, a >>> n), (.sra c rd rs1 rs2, 0x0A, a.sshiftRight n),
      (.ror c rd rs1 rs2, 0x0B, (a >>> n) ||| (a <<< (64 - n))), (.seq c rd rs1 rs2, 0x10, if a = b then 1 else 0),
      (.sne c rd rs1 rs2, 0x11, if a = b then 0 else 1), (.slt c rd rs1 rs2, 0x12, if a.toInt < b.toInt then 1 else 0),
      (.sltu c rd rs1 rs2, 0x13, if a.toNat < b.toNat then 1 else 0),
      (.min c rd rs1 rs2, 0x14, if b.toInt < a.toInt then b else a), (.max c rd rs1 rs2, 0x15, if a.toInt < b.toInt then b else a),
      (.minu c rd rs1 rs2, 0x16, if b.toNat < a.toNat then b else a),
      (.maxu c rd rs1 rs2, 0x17, if a.toNat < b.toNat then b else a)] ++
      (if rs2 = 0 then [(Instr.clz c rd rs1 rs2, 0x20, BitVec.ofNat 64 (leadZeros a)),
        (.ctz c rd rs1 rs2, 0x21, BitVec.ofNat 64 (trailZeros a)), (.popc c rd rs1 rs2, 0x22, BitVec.ofNat 64 (ones 64 a)),
        (.bswap c rd rs1 rs2, 0x23, swapBytes a)] else []) →
    Issues s c (wR 0x01 rd rs1 rs2 fn) [useG rd, useG rs1, useG rs2] jb x → GoesOn jb x (x.setG rd.toNat v) →
      exec i s = .next (s.after c x (x.setG rd.toNat v))) ∧
  ∀ (s : State) (c : CoreId) (rd rs1 rs2 : Sys2Proof.Reg) (jb : Job) (x : Ctx) (i : Instr) (fn n : Nat),
    (i, fn, n) ∈ [(Instr.crc32cB c rd rs1 rs2, 0, 1), (.crc32cH c rd rs1 rs2, 1, 2), (.crc32cW c rd rs1 rs2, 2, 4),
      (.crc32cD c rd rs1 rs2, 3, 8)] →
    Issues s c (wR 0x0D rd rs1 rs2 fn) [useG rd, useG rs1, useG rs2] jb x →
    let bytes := (List.range n).map fun k => (x.rg rs2.toNat).extractLsb' (8 * k) 8
    let v := (bytes.foldl crcByte ((x.rg rs1.toNat).extractLsb' 0 32)).setWidth 64
    GoesOn jb x (x.setG rd.toNat v) → exec i s = .next (s.after c x (x.setG rd.toNat v))) ∧
  ∀ (s : State) (c : CoreId) (rd rs1 : Sys2Proof.Reg) (imm : BitVec 16) (jb : Job) (x : Ctx) (i : Instr) (op : Nat) (v : W64),
    let a := x.rg rs1.toNat
    let sx := imm.signExtend 64
    let zx := imm.setWidth 64
    let n := imm.toNat
    (i, op, v) ∈ [(Instr.addi c rd rs1 imm, 0x02, a + sx), (.andi c rd rs1 imm, 0x03, a &&& zx), (.ori c rd rs1 imm, 0x04, a ||| zx),
      (.xori c rd rs1 imm, 0x05, a ^^^ zx), (.slti c rd rs1 imm, 0x06, if a.toInt < imm.toInt then 1 else 0),
      (.sltiu c rd rs1 imm, 0x07, if a.toNat < sx.toNat then 1 else 0)] ++
      (if n < 64 then [(Instr.slli c rd rs1 imm, 0x08, a <<< n), (.srli c rd rs1 imm, 0x09, a >>> n),
        (.srai c rd rs1 imm, 0x0A, a.sshiftRight n)] else []) ++
      (if rs1 = 0 then [(Instr.cati c rd rs1 imm, 0x0B, (x.rg rd.toNat <<< 16) ||| zx)] else []) →
    Issues s c (wI op rd rs1 imm) [useG rd, useG rs1] jb x → GoesOn jb x (x.setG rd.toNat v) →
      exec i s = .next (s.after c x (x.setG rd.toNat v))

/-- Control transfer (R400): a branch whose condition fails goes on; a branch whose condition holds, J, CALL and JALR arrive at
their target in the code two cycles later, CALL and JALR with the return address in g31 and rd. None stands at the LE of an
active level. -/
def Obligations.ControlTransfer : Prop :=
  ∀ (s : State) (c : CoreId) (jb : Job) (x : Ctx), x.atEnd = false →
    let pc := BitVec.ofNat 64 x.pc
    let arrives := fun (y : Ctx) (t : W64) => s.setCtx (coreNo c) { y with pc := t.toNat, cycle := y.cycle + 2 }
    let inCode := fun (t : W64) => (jb.fetch t.toNat).isSome = true
    (∀ (rs1 rs2 : Sys2Proof.Reg) (disp : BitVec 16) (i : Instr) (op : Nat) (taken : Bool),
      let a := x.rg rs1.toNat
      let b := x.rg rs2.toNat
      (i, op, taken) ∈ [(Instr.beq c rs1 rs2 disp, 0x10, decide (a = b)), (.bne c rs1 rs2 disp, 0x11, decide (a ≠ b)),
        (.blt c rs1 rs2 disp, 0x12, decide (a.toInt < b.toInt)), (.bge c rs1 rs2 disp, 0x13, decide (b.toInt ≤ a.toInt)),
        (.bltu c rs1 rs2 disp, 0x14, decide (a.toNat < b.toNat)), (.bgeu c rs1 rs2 disp, 0x15, decide (b.toNat ≤ a.toNat))] →
      Issues s c (wI op rs1 rs2 disp) [useG rs1, useG rs2] jb x →
      let t := pc + 4 * disp.signExtend 64
      (taken = true → inCode t → exec i s = .next (arrives x t)) ∧
        (taken = false → GoesOn jb x x → exec i s = .next (s.after c x x))) ∧
    (∀ disp : BitVec 26, Issues s c (wJ 0x16 disp) [] jb x → inCode (pc + 4 * disp.signExtend 64) →
      exec (.j c disp) s = .next (arrives x (pc + 4 * disp.signExtend 64))) ∧
    (∀ disp : BitVec 26, Issues s c (wJ 0x17 disp) [(false, 31)] jb x → inCode (pc + 4 * disp.signExtend 64) →
      exec (.call c disp) s = .next (arrives (x.setG 31 (pc + 4)) (pc + 4 * disp.signExtend 64))) ∧
    ∀ (rd rs1 : Sys2Proof.Reg) (imm : BitVec 16), Issues s c (wI 0x18 rd rs1 imm) [useG rd, useG rs1] jb x →
      inCode (x.rg rs1.toNat + imm.signExtend 64) →
      exec (.jalr c rd rs1 imm) s = .next (arrives (x.setG rd.toNat (pc + 4)) (x.rg rs1.toNat + imm.signExtend 64))

/-- Hardware loops (R373, R374, R411, R412): LOOP and LOOPI with a count open the next level with LS after themselves, LE at END and
LC the count; with a count of 0 execution passes over the body; LBRK closes the innermost level. At the LE of the innermost
level LC falls by 1 and execution returns to LS until it is 0, when the level closes. -/
def Obligations.HardwareLoops : Prop :=
  ∀ (s : State) (c : CoreId) (jb : Job) (x : Ctx),
    let pc := BitVec.ofNat 64 x.pc
    let opened := fun (n : W32) (fin : BitVec 16) => { x with
      ls := putD x.ls 0 x.ldepth (pc + 4), le := putD x.le 0 x.ldepth (BitVec.ofNat 64 (x.pc + 4 * fin.toNat))
      lc := putD x.lc 0 x.ldepth n, ldepth := x.ldepth + 1, pc := x.pc + 4, cycle := x.cycle + 1 }
    let past := fun (fin : BitVec 16) => { x with pc := x.pc + 4 * fin.toNat + 4, cycle := x.cycle + 1 }
    let forms := fun (i : Instr) (n : W32) (fin : BitVec 16) => fin ≠ 0 → fin.msb = false → x.ldepth < 4 → x.atEnd = false →
      (n ≠ 0 → (jb.fetch (opened n fin).pc).isSome = true → exec i s = .next (s.setCtx (coreNo c) (opened n fin))) ∧
      (n = 0 → (jb.fetch (past fin).pc).isSome = true → exec i s = .next (s.setCtx (coreNo c) (past fin)))
    (∀ (rs : Sys2Proof.Reg) (fin : BitVec 16), Issues s c (wI 0x38 rs 0 fin) [useG rs] jb x →
      forms (.loop c rs 0 fin) ((x.rg rs.toNat).setWidth 32) fin) ∧
    (∀ (cnt : BitVec 10) (fin : BitVec 16), Issues s c (wOp 0x39 (cnt.toNat * 2 ^ 16 + fin.toNat)) [] jb x →
      forms (.loopi c cnt fin) (cnt.setWidth 32) fin) ∧
    (Issues s c (wJ 0x3A 0) [] jb x → x.ldepth ≠ 0 → x.atEnd = false → GoesOn jb x { x with ldepth := x.ldepth - 1 } →
      exec (.lbrk c 0) s = .next (s.after c x { x with ldepth := x.ldepth - 1 })) ∧
    ∀ d, x.ldepth = d + 1 →
      ((lookD x.le 0 d).toNat ≠ x.pc → x.onward x = (x, x.pc + 4)) ∧
      ((lookD x.le 0 d).toNat = x.pc → lookD x.lc 0 d ≠ 1 →
        x.onward x = ({ x with lc := putD x.lc 0 d (lookD x.lc 0 d - 1) }, (lookD x.ls 0 d).toNat)) ∧
      (d = 0 → (lookD x.le 0 d).toNat = x.pc → lookD x.lc 0 d = 1 →
        x.onward x = ({ x with lc := putD x.lc 0 d 0, ldepth := d }, x.pc + 4))

/-- Special registers (R376, R417, Table 13.2): MFSR copies every register of Table 13.2; MTSR writes AMODE whole, and a loop register of
an open level; one at or above LDEPTH does not change (R375). A read of a number not listed, and a write of one not listed or RO,
raises ILLEGAL_INSTRUCTION. -/
def Obligations.SpecialRegisters : Prop :=
  ∀ (s : State) (c : CoreId) (jb : Job) (x : Ctx) (r : Sys2Proof.Reg) (sr : BitVec 12),
    (∀ v, (sr.toNat, v) ∈ [(0x000, BitVec.ofNat 64 x.cycle), (0x001, BitVec.ofNat 64 s.bell.now),
        (0x002, BitVec.ofNat 64 (c.core + 256 * c.hamlet)), (0x003, x.amode), (0x004, BitVec.ofNat 64 x.ldepth),
        (0x008, lookD x.ls 0 0), (0x009, lookD x.ls 0 1), (0x00A, lookD x.ls 0 2), (0x00B, lookD x.ls 0 3),
        (0x00C, lookD x.le 0 0), (0x00D, lookD x.le 0 1), (0x00E, lookD x.le 0 2), (0x00F, lookD x.le 0 3),
        (0x010, (lookD x.lc 0 0).setWidth 64), (0x011, (lookD x.lc 0 1).setWidth 64), (0x012, (lookD x.lc 0 2).setWidth 64),
        (0x013, (lookD x.lc 0 3).setWidth 64), (0x018, if (s.core (coreNo c)).slot.isSome then 1 else 0),
        (0x019, BitVec.ofNat 64 (((List.range 8).map fun k => if x.dma.any (·.tag = k) then 2 ^ k else 0).sum)),
        (0x01A, BitVec.ofNat 64 x.reqs.length), (0x01B, if jb.outPaused.isSome then 1 else 0)] →
      Issues s c (wS 0x3D r 0 sr) [useG r] jb x → GoesOn jb x (x.setG r.toNat v) →
      exec (.mfsr c r 0 sr) s = .next (s.after c x (x.setG r.toNat v))) ∧
    (∀ y, let v := x.rg r.toNat
      (sr.toNat, y) ∈ (if (List.range 8).all fun k => bits v.toNat (2 * k + 1) (2 * k) ≠ 3 then [(0x003, { x with amode := v })]
          else []) ++ ((List.range 4).flatMap fun d =>
        if d < x.ldepth then [(0x008 + d, { x with ls := putD x.ls 0 d v }), (0x00C + d, { x with le := putD x.le 0 d v }),
          (0x010 + d, { x with lc := putD x.lc 0 d (v.setWidth 32) })]
        else [(0x008 + d, x), (0x00C + d, x), (0x010 + d, x)]) →
      Issues s c (wS 0x3E r 0 sr) [useG r] jb x → GoesOn jb x y → exec (.mtsr c r 0 sr) s = .next (s.after c x y)) ∧
    (¬(sr.toNat ≤ 0x004 ∨ (0x008 ≤ sr.toNat ∧ sr.toNat ≤ 0x013) ∨ (0x018 ≤ sr.toNat ∧ sr.toNat ≤ 0x01B)) →
      Issues s c (wS 0x3D r 0 sr) [useG r] jb x → exec (.mfsr c r 0 sr) s =
        .next (s.coreFault (coreNo c) x (x.pc - 0x100000) (wS 0x3D r 0 sr).toNat 1 0)) ∧
    (¬(sr.toNat = 0x003 ∨ (0x008 ≤ sr.toNat ∧ sr.toNat ≤ 0x013)) →
      Issues s c (wS 0x3E r 0 sr) [useG r] jb x → exec (.mtsr c r 0 sr) s =
        .next (s.coreFault (coreNo c) x (x.pc - 0x100000) (wS 0x3E r 0 sr).toNat 1 0))

/-- Loads and stores (R401 to R403, R366): update 0 adds the scaled immediate to ak for the access alone, 1 accesses at ak and then
updates it, 2 updates it first; the address is aligned and lies in a window. LD and LDQ leave their value outstanding for the
register; ST and STQ take place at once in local memory, and else wait as the youngest of at most eight outstanding stores. -/
def Obligations.LoadsAndStores : Prop :=
  ∀ (s : State) (c : CoreId) (jb : Job) (x : Ctx) (rt : Sys2Proof.Reg) (ak : BitVec 3) (upd sz : BitVec 2) (sx : Bool) (imm : BitVec 13)
    (n : Nat) (v : W64) (w : Win) (off : Nat),
    let old := x.ra ak.toNat
    let inc := imm.toInt * n
    let a := if upd = 0 then old + BitVec.ofInt 64 inc else if upd = 1 then old else v
    let z := x.setA ak.toNat v
    upd ≠ 3 → (if upd = 0 then some old else x.bump ak.toNat inc) = some v → a.toNat % n = 0 → jb.win a.toNat n = some (w, off) →
    let bytes := s.loadBytes (coreNo c) jb x w a.toNat off n
    (n = 2 ^ sz.toNat → ¬(sx = true ∧ sz = 3) → Issues s c (wM 0x20 rt ak upd sz sx imm) [useG rt] jb x →
      jb.poisoned (coreNo c) w off n = false →
      let y := if rt = 0 then z else { z with loads := x.loads ++ [⟨false, rt.toNat, (extend sx bytes).setWidth 128⟩] }
      GoesOn jb x y → exec (.ld c rt ak upd sz sx imm) s = .next (s.after c x y)) ∧
    (n = 16 → sz = 0 → sx = false → rt.toNat < 16 → Issues s c (wM 0x22 rt ak upd 0 false imm) [useW rt] jb x →
      jb.poisoned (coreNo c) w off n = false →
      let y := { z with loads := x.loads ++ [⟨true, rt.toNat, BitVec.ofNat 128 (le bytes 0 16)⟩] }
      GoesOn jb x y → exec (.ldq c rt ak upd 0 false imm) s = .next (s.after c x y)) ∧
    ∀ (i : Instr) (op : Nat) (b : Bytes) (use : Bool × Nat), (i, op, b, use) ∈
        (if n = 2 ^ sz.toNat then [(Instr.st c rt ak upd sz false imm, 0x21, toLe (x.rg rt.toNat).toNat n, useG rt)] else []) ++
        (if n = 16 ∧ sz = 0 ∧ rt.toNat < 16 then [(Instr.stq c rt ak upd sz false imm, 0x23, toLe (x.rw rt.toNat).toNat 16, useW rt)]
          else []) →
      Issues s c (wM op rt ak upd sz false imm) [use] jb x →
      (w = .loc → GoesOn jb x z → exec i s = .next ((s.writeWin (coreNo c) x.job .loc off b).after c x z)) ∧
      (w = .data ∨ w = .dram → x.stores.length < 8 → GoesOn jb x { z with stores := x.stores ++ [(a.toNat, b)] } →
        exec i s = .next (s.after c x { z with stores := x.stores ++ [(a.toNat, b)] }))

/-- What is outstanding completes (R366, R403): the oldest load or atomic fills its register, the oldest store takes place at its
address, and nothing else of the core changes. After bytes are written at an address of a window (R377), each address of the range
reads the byte written and every other address as before, and the canonical form (rising addresses, no zero listed) is kept. -/
def Obligations.LoadsAndStoresComplete : Prop :=
  (∀ (s : State) (c : CoreId) (x : Ctx), c.wf = true → (s.core (coreNo c)).ctx = some x →
    (∀ l ls, x.loads = l :: ls → exec (.loadComplete c) s = .next (s.setCtx (coreNo c)
      { (if l.wide then x.setW l.rd l.val else x.setG l.rd (l.val.setWidth 64)) with loads := ls })) ∧
    ∀ e es, x.stores = e :: es → exec (.storeComplete c) s =
      .next ((s.setCtx (coreNo c) { x with stores := es }).writeAddr (coreNo c) x.job e)) ∧
  ∀ (t : Tab Byte) (a k : Nat) (b : Bytes),
    lookD (putBytes t a b) 0 k = (if a ≤ k ∧ k < a + b.length then b.getD (k - a) 0 else lookD t 0 k) ∧
      (Canon 0 t = true → Canon 0 (putBytes t a b) = true)

/-- Atomics (R378, R404): with no store or DMA transfer outstanding the 64-bit word at ak is read and written in one act, and the
old word is outstanding for rd: CAS stores rs2 where the word equals rs1, SWAP stores rs2, FADD adds it. -/
def Obligations.Atomics : Prop :=
  ∀ (s : State) (c : CoreId) (rd rs1 rs2 : Sys2Proof.Reg) (ak : BitVec 3) (jb : Job) (x : Ctx) (w : Win) (off : Nat),
    let k := coreNo c
    let a := x.ra ak.toNat
    let fn : BitVec 11 := ak ++ (0#8)
    let old := BitVec.ofNat 64 (le (getBytes (winTab k jb (s.core k).lm w) off 8) 0 8)
    a.toNat % 8 = 0 → jb.win a.toNat 8 = some (w, off) → w = .loc ∨ w = .data ∨ w = .dram → jb.poisoned k w off 8 = false →
    x.stores = [] → x.dma = [] →
    ∀ (i : Instr) (op : Nat) (new : W64),
      (i, op, new) ∈ [(Instr.atomCas c rd rs1 rs2 fn, 0, if old = x.rg rs1.toNat then x.rg rs2.toNat else old)] ++
        (if rs1 = 0 then [(Instr.atomSwap c rd rs1 rs2 fn, 1, x.rg rs2.toNat), (.atomFadd c rd rs1 rs2 fn, 2, old + x.rg rs2.toNat)]
          else []) →
      Issues s c (wR 0x26 rd rs1 rs2 (ak.toNat * 256 + op)) [useG rd, useG rs1, useG rs2] jb x →
      let z := x.setA ak.toNat a
      let y := if rd = 0 then z else { z with loads := x.loads ++ [⟨false, rd.toNat, old.setWidth 128⟩] }
      GoesOn jb x y → exec i s = .next ((s.writeWin k x.job w off (toLe new.toNat 8)).after c x y)

/-- Address instructions (R405, R367 to R369): ADDA and ADDAR update ak by IMM16 or rs under its mode, MVA and MVM set ak and mk from
rs, MFA and MFM copy ak and mk to the register of RS. The update is linear in mode 0 and with a length of 0, modulo the length within the
region in mode 1, and bit-reversed in mode 2; where R368 or R369 admits none, ADDA and ADDAR raise ADDRESS_MODE. -/
def Obligations.AddressInstructions : Prop :=
  (∀ (s : State) (c : CoreId) (rs : Sys2Proof.Reg) (ak : BitVec 3) (imm : BitVec 16) (jb : Job) (x : Ctx) (v : W64),
    let k := ak.toNat
    (x.bump k imm.toInt = some v → Issues s c (wA 0x24 0 ak 0 imm) [] jb x → GoesOn jb x (x.setA k v) →
      exec (.adda c 0 ak imm) s = .next (s.after c x (x.setA k v))) ∧
    (x.bump k (x.rg rs.toNat).toInt = some v → Issues s c (wA 0x24 rs ak 1 0) [useG rs] jb x → GoesOn jb x (x.setA k v) →
      exec (.addar c rs ak 0) s = .next (s.after c x (x.setA k v))) ∧
    (Issues s c (wA 0x24 rs ak 2 0) [useG rs] jb x → GoesOn jb x (x.setA k (x.rg rs.toNat)) →
      exec (.mva c rs ak 0) s = .next (s.after c x (x.setA k (x.rg rs.toNat)))) ∧
    (let y := x.setM k ((x.rg rs.toNat).extractLsb' 0 32)
     Issues s c (wA 0x25 rs ak 0 0) [useG rs] jb x → GoesOn jb x y → exec (.mvm c rs ak 0) s = .next (s.after c x y)) ∧
    (Issues s c (wA 0x25 rs ak 1 0) [useG rs] jb x → GoesOn jb x (x.setG rs.toNat (x.ra k)) →
      exec (.mfa c rs ak 0) s = .next (s.after c x (x.setG rs.toNat (x.ra k)))) ∧
    (let y := x.setG rs.toNat ((x.rm k).setWidth 64)
     Issues s c (wA 0x25 rs ak 2 0) [useG rs] jb x → GoesOn jb x y → exec (.mfm c rs ak 0) s = .next (s.after c x y)) ∧
    (x.bump k imm.toInt = none → Issues s c (wA 0x24 0 ak 0 imm) [] jb x →
      exec (.adda c 0 ak imm) s = .next (s.coreFault (coreNo c) x (x.pc - 0x100000) (wA 0x24 0 ak 0 imm).toNat 4 0)) ∧
    (x.bump k (x.rg rs.toNat).toInt = none → Issues s c (wA 0x24 rs ak 1 0) [useG rs] jb x →
      exec (.addar c rs ak 0) s = .next (s.coreFault (coreNo c) x (x.pc - 0x100000) (wA 0x24 rs ak 1 0).toNat 4 0))) ∧
  ∀ (x : Ctx) (k q : Nat) (inc : Int),
    let m := (x.rm k).toNat
    let a := (x.ra k).toNat
    (x.mode k = 0 ∨ (x.mode k = 1 ∧ m = 0) → x.bump k inc = some (x.ra k + BitVec.ofInt 64 inc)) ∧
    (x.mode k = 1 → m ≠ 0 → m ≤ 2 ^ q → (∀ p, p < q → 2 ^ p < m) → x.bump k inc =
      if a % 2 ^ q < m then some (BitVec.ofNat 64 (a - a % 2 ^ q + (((a % 2 ^ q : Nat) + inc) % (m : Int)).toNat)) else none) ∧
    (x.mode k = 2 → (∃ n, 1 ≤ n ∧ n ≤ 31 ∧ m = 2 ^ n) → q < 32 → m = 2 ^ q → x.bump k inc =
      some (BitVec.ofNat 64 (a - a % m + revBits q ((revBits q (a % m) + revBits q (inc % (m : Int)).toNat) % m)))) ∧
    (x.mode k = 2 → (∀ n, 1 ≤ n → n ≤ 31 → m ≠ 2 ^ n) → x.bump k inc = none)

/-- DMA (R379, R406): a transfer of 1 to 65,536 bytes, whole and aligned to 8, between local memory and hamlet data, the DRAM window
or (inwards) the scan buffer becomes outstanding under a free tag; its completion moves the bytes and clears the tag, and ends an
item that stands at the done address with nothing outstanding (R386); WAITD goes on once its tags are clear. -/
def Obligations.DmaTransfers : Prop :=
  ∀ (s : State) (c : CoreId) (jb : Job) (x : Ctx),
    let k := coreNo c
    (∀ (rd rs1 rs2 : Sys2Proof.Reg) (tag : BitVec 3) (out : Bool) (w : Win) (lo off : Nat),
      let n := (x.rg rd.toNat).toNat
      let a := (x.rg rs1.toNat).toNat
      let b := (x.rg rs2.toNat).toNat
      let fn : BitVec 11 := (0#7) ++ BitVec.ofBool out ++ tag
      n % 8 = 0 → a % 8 = 0 → b % 8 = 0 → 0 < n → n ≤ 65536 → jb.win a n = some (.loc, lo) → jb.win b n = some (w, off) →
      w = .data ∨ w = .dram ∨ (w = .scan ∧ out = false) → (∀ d ∈ x.dma, d.tag ≠ tag.toNat) →
      Issues s c (wR 0x27 rd rs1 rs2 fn.toNat) [useG rd, useG rs1, useG rs2] jb x →
      let y := { x with dma := x.dma ++ [⟨tag.toNat, out, a, b, n⟩] }
      GoesOn jb x y → exec (.dma c rd rs1 rs2 fn) s = .next (s.after c x y)) ∧
    (∀ (tag : BitVec 3) (d : Dma) (w : Win) (off : Nat), c.wf = true → (s.core k).ctx = some x → look s.jobs x.job = some jb →
      jb.fault = none → x.dma.find? (fun d => d.tag = tag.toNat) = some d → jb.win d.remote d.len = some (w, off) →
      let y := { x with dma := x.dma.filter fun d => d.tag ≠ tag.toNat }
      (d.toRemote = true → exec (.dmaComplete c tag) s =
        .next (((s.setCtx k y).writeWin k x.job w off (getBytes (s.core k).lm d.local_ d.len)).endAtDone k)) ∧
      (d.toRemote = false → jb.poisoned k w off d.len = false → exec (.dmaComplete c tag) s =
        .next (((s.setCtx k y).writeWin k x.job .loc d.local_ (getBytes (winTab k jb [] w) off d.len)).endAtDone k))) ∧
    ∀ imm : BitVec 8, (∀ d ∈ x.dma, bit imm.toNat d.tag = false) → Issues s c (wY 0 0 imm 8) [] jb x → GoesOn jb x x →
      exec (.waitd c 0 0 imm) s = .next (s.after c x x)

/-- SIMD instructions (R407, Table 14.7): every element of width E of wd takes its value of the table, independently; the bitwise rows
and VSHUF have E 0; VBCAST and VINS take elements of g, VEXT and VSUM give g, VMOV copies. -/
def Obligations.SimdElements : Prop :=
  ∀ (s : State) (c : CoreId) (e : BitVec 2) (lane : BitVec 4) (rd rs1 rs2 : Sys2Proof.Reg) (jb : Job) (x : Ctx) (i : Instr) (op : Nat)
    (y : Ctx),
    let w := e.toNat
    let a := x.rw rs1.toNat
    let b := x.rw rs2.toNat
    let d := x.rw rd.toNat
    let sg := signedEl w
    let el := fun (f : Nat → Nat → Nat) => x.setW rd.toNat (packEl w fun k => f (elem w a k) (elem w b k))
    let g := (x.rg rs1.toNat).toNat
    (i, op, y) ∈
      (if lane = 0 ∧ rd.toNat < 16 ∧ rs1.toNat < 16 ∧ rs2.toNat < 16 then
        [(Instr.vadd c e lane rd rs1 rs2, 0, el fun p q => p + q), (.vsub c e lane rd rs1 rs2, 1, el fun p q => p + 2 ^ elBits w - q),
          (.vadds c e lane rd rs1 rs2, 2, el fun p q => satS w (sg p + sg q)),
          (.vsubs c e lane rd rs1 rs2, 3, el fun p q => satS w (sg p - sg q)),
          (.vaddus c e lane rd rs1 rs2, 4, el fun p q => min (p + q) (2 ^ elBits w - 1)),
          (.vsubus c e lane rd rs1 rs2, 5, el fun p q => p - q),
          (.vmin c e lane rd rs1 rs2, 6, el fun p q => if sg q < sg p then q else p),
          (.vmax c e lane rd rs1 rs2, 7, el fun p q => if sg p < sg q then q else p),
          (.vminu c e lane rd rs1 rs2, 8, el fun p q => min p q), (.vmaxu c e lane rd rs1 rs2, 9, el fun p q => max p q),
          (.vceq c e lane rd rs1 rs2, 10, el fun p q => if p = q then 2 ^ elBits w - 1 else 0),
          (.vcgt c e lane rd rs1 rs2, 11, el fun p q => if sg q < sg p then 2 ^ elBits w - 1 else 0),
          (.vcgtu c e lane rd rs1 rs2, 12, el fun p q => if q < p then 2 ^ elBits w - 1 else 0),
          (.vsll c e lane rd rs1 rs2, 13, el fun p q => p * 2 ^ (q % elBits w)),
          (.vsrl c e lane rd rs1 rs2, 14, el fun p q => p / 2 ^ (q % elBits w)),
          (.vsra c e lane rd rs1 rs2, 15, el fun p q => unsignedEl w (sg p / (2 ^ (q % elBits w) : Nat)))] ++
        (if e = 0 then [(Instr.vand c e lane rd rs1 rs2, 16, x.setW rd.toNat (a &&& b)), (.vor c e lane rd rs1 rs2, 17, x.setW rd.toNat (a ||| b)),
          (.vxor c e lane rd rs1 rs2, 18, x.setW rd.toNat (a ^^^ b)), (.vandn c e lane rd rs1 rs2, 19, x.setW rd.toNat (a &&& ~~~b)),
          (.vsel c e lane rd rs1 rs2, 20, x.setW rd.toNat ((d &&& a) ||| (~~~d &&& b))),
          (.vshuf c e lane rd rs1 rs2, 21, x.setW rd.toNat (packEl 0 fun k => if elem 0 b k < 16 then elem 0 a (elem 0 b k) else 0))]
          else []) else []) ++
      (if lane = 0 ∧ rd.toNat < 16 ∧ rs2 = 0 then [(Instr.vbcast c e lane rd rs1 rs2, 22, x.setW rd.toNat (packEl w fun _ => g))] else []) ++
      (if lane.toNat < elCount w ∧ rd.toNat < 16 ∧ rs2 = 0 then
        [(.vins c e lane rd rs1 rs2, 23, x.setW rd.toNat (packEl w fun k => if k = lane.toNat then g else elem w d k))] else []) ++
      (if lane.toNat < elCount w ∧ rs1.toNat < 16 ∧ rs2 = 0 then
        [(.vext c e lane rd rs1 rs2, 24, x.setG rd.toNat (BitVec.ofNat 64 (elem w a lane.toNat)))] else []) ++
      (if lane = 0 ∧ rs1.toNat < 16 ∧ rs2 = 0 then
        [(.vsum c e lane rd rs1 rs2, 25, x.setG rd.toNat (BitVec.ofNat 64 (((List.range (elCount w)).map (elem w a)).sum)))] else []) ++
      (if lane = 0 ∧ e = 0 ∧ rd.toNat < 16 ∧ rs1.toNat < 16 ∧ rs2 = 0 then [(Instr.vmov c e lane rd rs1 rs2, 26, x.setW rd.toNat a)]
        else []) →
    Issues s c (wV op e lane rd rs1 rs2) [useG rd, useW rd, useG rs1, useW rs1, useW rs2] jb x → GoesOn jb x y →
    exec i s = .next (s.after c x y)

/-- Multiply instructions (R408, R409, R370, R371, R410): the product is in flight with the cycle of its issue and the way it will land
in Pk (E is 0 but for VMUL and VMAC); it lands four cycles after its issue, replacing Pk, added to it or combined with it without
carries, and Pk is untouched before. The P moves act in their own cycle. -/
def Obligations.Products : Prop :=
  (∀ (s : State) (c : CoreId) (e : BitVec 2) (rd rs1 rs2 : Sys2Proof.Reg) (jb : Job) (x : Ctx) (i : Instr) (op : Nat) (how : Land) (v : W128),
    let w := e.toNat
    let a := x.rg rs1.toNat
    let b := x.rg rs2.toNat
    let p := x.rw rs1.toNat
    let q := x.rw rs2.toNat
    let gf := fun (f : Nat → Nat) => packEl 0 fun k => (gfMul (BitVec.ofNat 8 (elem 0 p k)) (BitVec.ofNat 8 (f k))).toNat
    rd.toNat < 4 →
    (i, op, how, v) ∈
      (if e = 0 then [(Instr.mul c e 0 rd rs1 rs2, 0, Land.replace, BitVec.ofInt 128 (a.toInt * b.toInt)),
        (.mulu c e 0 rd rs1 rs2, 1, .replace, BitVec.ofNat 128 (a.toNat * b.toNat)),
        (.mac c e 0 rd rs1 rs2, 2, .add, BitVec.ofInt 128 (a.toInt * b.toInt)),
        (.macu c e 0 rd rs1 rs2, 3, .add, BitVec.ofNat 128 (a.toNat * b.toNat)),
        (.clmul c e 0 rd rs1 rs2, 6, .replace, clmul64 a b), (.clmac c e 0 rd rs1 rs2, 7, .xor, clmul64 a b)] else []) ++
      (if rs1.toNat < 16 ∧ rs2.toNat < 16 then
        [(.vmul c e 0 rd rs1 rs2, 4, .replace, packEl w fun k => elem w p k * elem w q k),
          (.vmac c e 0 rd rs1 rs2, 5, .addElem w, packEl w fun k => elem w p k * elem w q k)] ++
        (if e = 0 then [(Instr.gfmul c e 0 rd rs1 rs2, 8, .replace, gf (elem 0 q)), (.gfmac c e 0 rd rs1 rs2, 9, .xor, gf (elem 0 q))]
          else []) else []) ++
      (if e = 0 ∧ rs1.toNat < 16 then [(Instr.gfmuls c e 0 rd rs1 rs2, 10, .replace, gf fun _ => b.toNat),
        (.gfmacs c e 0 rd rs1 rs2, 11, .xor, gf fun _ => b.toNat)] else []) →
    Issues s c (wP op e 0 rd rs1 rs2) [useG rs1, useW rs1, useG rs2, useW rs2] jb x →
    let y := { x with prods := x.prods ++ [⟨rd.toNat, x.cycle, how, v⟩] }
    GoesOn jb x y → exec i s = .next (s.after c x y)) ∧
  ∀ (s : State) (c : CoreId) (jb : Job) (x : Ctx),
    (c.wf = true → (s.core (coreNo c)).ctx = some x → exec (.productLand c) s = .next (s.setCtx (coreNo c) x.landDue)) ∧
    (∀ q, x.prods = [q] →
      (q.issued + 4 ≤ x.cycle → x.landDue = { (x.setP q.p (match q.how with
        | .replace => q.val
        | .add => x.rp q.p + q.val
        | .addElem e => packEl e fun k => elem e (x.rp q.p) k + elem e q.val k
        | .xor => x.rp q.p ^^^ q.val)) with prods := [] }) ∧
      (x.cycle < q.issued + 4 → x.landDue = x)) ∧
    ∀ (rd rs1 : Sys2Proof.Reg) (i : Instr) (op : Nat) (y : Ctx),
      let p := x.rp rs1.toNat
      (i, op, y) ∈ (if rd.toNat < 4 then [(Instr.mtpg c 0 0 rd rs1 0, 0x11, x.setP rd.toNat ((x.rg rs1.toNat).setWidth 128))] ++
          (if rs1.toNat < 16 then [(Instr.mtp c 0 0 rd rs1 0, 0x10, x.setP rd.toNat (x.rw rs1.toNat))] else []) else []) ++
        (if rs1.toNat < 4 then [(Instr.mfpl c 0 0 rd rs1 0, 0x19, x.setG rd.toNat (p.extractLsb' 0 64)),
          (.mfph c 0 0 rd rs1 0, 0x1A, x.setG rd.toNat (p.extractLsb' 64 64))] ++
          (if rd.toNat < 16 then [(Instr.mfp c 0 0 rd rs1 0, 0x18, x.setW rd.toNat p)] else []) else []) →
      Issues s c (wP op 0 0 rd rs1 0) [useG rd, useW rd, useG rs1, useW rs1] jb x → GoesOn jb x y →
      exec i s = .next (s.after c x y)

/-- Work instructions (R384, R386, R388, R390, R391, R406, R414 to R416): DONE ends the item once no transfer or request is outstanding;
FENCE, WAITR go on once nothing they wait for is; TRAP faults its job with its code; POST enters an item of kind 3 with the
poster's function and job; REQ and SVL add an outstanding request of at most four; EMIT appends a piece to the output. -/
def Obligations.WorkInstructions : Prop :=
  ∀ (s : State) (c : CoreId) (jb : Job) (x : Ctx),
    let k := coreNo c
    (x.dma = [] → x.reqs = [] → x.atEnd = false → Issues s c (wY 0 0 0 1) [] jb x →
      exec (.done c 0 0 0) s = .next (s.endItem k x)) ∧
    (x.stores = [] → x.dma = [] → Issues s c (wY 0 0 0 2) [] jb x → GoesOn jb x x →
      exec (.fence c 0 0 0) s = .next (s.after c x x)) ∧
    (x.reqs = [] → Issues s c (wY 0 0 0 9) [] jb x → GoesOn jb x x → exec (.waitr c 0 0 0) s = .next (s.after c x x)) ∧
    (∀ imm : BitVec 8, Issues s c (wY 0 0 imm 3) [] jb x →
      exec (.trap c 0 0 imm) s = .next (s.coreFault k x (x.pc - 0x100000) (wY 0 0 imm 3).toNat 5 (imm.setWidth 64))) ∧
    (∀ ra : Sys2Proof.Reg,
      let a := (x.rg ra.toNat).toNat
      let b := getBytes (s.core k).lm a 32
      let i : Item := ⟨BitVec.ofNat 64 (le b 0 4 + jb.r.fn * 2 ^ 32 + x.job * 2 ^ 48), BitVec.ofNat 64 (le b 8 8),
        BitVec.ofNat 64 (le b 16 8), BitVec.ofNat 64 (le b 24 8)⟩
      a % 32 = 0 → a + 32 ≤ 0x40000 →
      (bits (le b 0 8) 3 0 = 3 → bits (le b 0 8) 47 44 = 0 → bits (le b 0 8) 63 59 = 0 → jb.live = true →
        s.readyItems x.job < 65536 → Issues s c (wY ra 0 0 4) [useG ra] jb x → GoesOn jb x x →
        exec (.post c ra 0 0) s = .next ((s.ready (k / 16) x.job i).after c x x)) ∧
      (x.reqs.length < 4 → byteAt b 0 = 1 → Issues s c (wY ra 0 0 5) [useG ra] jb x →
        let q := s.issueRead jb x.pc a b
        let y := { x with reqs := x.reqs ++ [q.1] }
        GoesOn jb x y → exec (.req c ra 0 0) s = .next (q.2.after c x y)) ∧
      (x.reqs.length < 4 → byteAt b 0 = 2 → Issues s c (wY ra 0 0 5) [useG ra] jb x →
        let n := 4096 * le b 12 2
        let off := le b 16 8 - 0x100000000
        let within := jb.inDram (le b 16 8) n
        let y := { x with reqs := x.reqs ++
          [⟨x.pc, a, false, b, if within then getBytes jb.dram off n else [], false, 0, 0, 0⟩] }
        (within = true → jb.poisoned k .dram off n = false) → GoesOn jb x y →
          exec (.req c ra 0 0) s = .next (s.after c x y))) ∧
    (∀ ra : Sys2Proof.Reg,
      let a := (x.rg ra.toNat).toNat
      a % 64 = 0 → a + 64 ≤ 0x40000 → x.reqs.length < 4 → Issues s c (wY ra 0 0 7) [useG ra] jb x →
      let y := { x with reqs := x.reqs ++ [⟨x.pc, a, true, getBytes (s.core k).lm a 64, [], false, 0, 0, 0⟩] }
      GoesOn jb x y → exec (.svl c ra 0 0) s = .next (s.after c x y)) ∧
    ∀ (ra rb : Sys2Proof.Reg) (w : Win) (off : Nat),
      let a := (x.rg ra.toNat).toNat
      let n := (x.rg rb.toNat).toNat
      0 < n → n ≤ 65536 → jb.win a n = some (w, off) → w = .loc ∨ w = .dram → jb.outPaused = none →
      jb.undelivered + n ≤ outWindow → jb.poisoned (coreNo c) w off n = false → Issues s c (wY ra rb 0 6) [useG ra, useG rb] jb x →
      GoesOn jb x x → exec (.emit c ra rb 0) s = .next ((s.output x.job (s.loadBytes k jb x w a off n)).after c x x)

/-- Requests and lookups of a core complete (R345, R361, R388, R416): a job read whose checks pass, once its units are charged to the
scan-bytes ceiling and its array reads have ended, puts them into the DRAM window and writes STATUS, RESULT and DONE into its block; a
job append whose checks pass commits its units at the write pointer with the next ledger number, and RESULT is the pointer; a request
that fails a check writes its STATUS, and its RESULT is free; a lookup writes the winner and SUCCESS, or NO_MATCH, NOT_PERMITTED or
INVALID_FIELD with a free answer, and DONE. An item that waited at the done address for the last of them ends (R386). -/
def Obligations.RequestsComplete : Prop :=
  ∀ (s u : State) (c : CoreId) (jb : Job) (x : Ctx) (q : Req) (paid : Nat),
    let k := coreNo c
    c.wf = true → (s.core k).ctx = some x → look s.jobs x.job = some jb →
    let y := { x with reqs := x.reqs.erase q }
    let answered := fun (v : State) (res st : Nat) => (v.setCtx k y).writeWin k x.job .loc q.addr
      (patch (patch (patch q.block 28 (toLe res 4)) 2 (toLe st 1)) 3 (toLe 1 1))
    (x.reqs.find? (fun q => !q.lookup) = some q → jb.fault = none → byteAt q.block 0 = 1 → q.bad = false → q.left = 0 →
      s.reqFails jb q.block q.data.length = none →
      s.payUnits jb.r.fn (rqCount q.block - q.paid) q.paid = (paid, u) → rqCount q.block ≤ paid →
      exec (.requestComplete c) s = .next (((answered u q.data.length SUCCESS).setJob x.job fun j =>
        j.write k .dram (le q.block 16 8 - 0x100000000) q.data).endAtDone k)) ∧
    (∀ b, x.reqs.find? (fun q => !q.lookup) = some q → jb.fault = none → byteAt q.block 0 = 2 → s.reqFails jb q.block 0 = none →
      s.rate jb.r.fn [(2, le q.block 12 2 * 4096)] = .pay b →
      let z := zoneNo (jb.holding.getD 0) (le q.block 4 4)
      let a := (s.zone z).wp
      let t := { s.setFn jb.r.fn fun g => { g with buckets := b } with ledger := s.ledger + 1 }
      s.zoneHeld z (le q.block 12 2) = false → exec (.requestComplete c) s = .next ((answered
        (t.store z (s.ledger + 1) (t.zone z).lclass (t.sealZone z a ((cut4k q.data).map fun u => (u, false)))) a SUCCESS).endAtDone k)) ∧
    (∀ st, x.reqs.find? (fun q => !q.lookup) = some q → jb.fault = none →
      s.reqFails jb q.block (if byteAt q.block 0 = 1 then q.data.length else 0) = some st →
      ∃ v, exec (.requestComplete c) s = .next ((answered { s with free := s.free + 1 } v st).endAtDone k)) ∧
    (x.reqs.find? (·.lookup) = some q →
      let ended := fun (v : State) (ans : Bytes) (st : Nat) => ((v.setCtx k y).writeWin k x.job .loc q.addr
        (patch (patch (patch q.block 48 ans) 41 (toLe st 1)) 42 (toLe 1 1))).endAtDone k
      let valid := byteAt q.block 40 < 2 ∧ byteAt q.block 42 < 2 ∧ zeros q.block 43 5 = true
      let l := s.lookup jb.r.fn (keyOf q.block) (bit (byteAt q.block 40) 0) none
      (valid → s.ownsRows jb.r.fn = true → exec (.svlComplete c) s =
        .next (ended l.1 (answerBytes l.2.2 0) (if l.2.2.isSome then SUCCESS else NO_MATCH))) ∧
      (¬valid ∨ s.ownsRows jb.r.fn = false → ∃ v, exec (.svlComplete c) s =
        .next (ended { s with free := s.free + 1 } (toLe v 16) (if valid then NOT_PERMITTED else INVALID_FIELD))))

/-! ### Host commands -/

/-- READ and RANDOM READ (R198, R210): units that need no flash read are delivered at once in order, an unwritten one as zeros, and
RESULT is COUNT; when some lie on flash, their array reads are queued instead, units of one page as one. -/
def Obligations.ReadsDeliver : Prop :=
  ∀ (s : State) (r : Ref) (c : Cmd) (b : List Int) (i : Instr) (op : Nat) (ps : List Piece),
    (i, op, ps) ∈ [(Instr.read r, 0x01, (List.range c.cnt).map fun k => s.zonePiece c.zkey (c.offset + k) (.cmd r k)),
      (.randomRead r, 0x10, (List.range c.cnt).map fun k => s.randPiece c.f12 (c.zone + k) (.cmd r k))] →
    Startable s r op c → s.rate r.fn (rateCost c) = .pay b → 0 < c.cnt →
    (op = 0x01 → ∀ k < c.cnt, s.media.lostUnits.contains (unitNo c.zkey (c.offset + k)) = false) →
    (op = 0x10 → ∀ k < c.cnt, s.media.lostUnits.contains (lostRand (randNo c.f12 (c.zone + k))) = false) →
    (ps.filterMap (·.2) = [] → ∃ t, exec i s = .next t ∧ Posts s t r SUCCESS (BitVec.ofNat 64 c.cnt) none ∧
      Delivers t r 0 (ps.flatMap (·.1)) ∧ t.rest = s.rest) ∧
    (ps.filterMap (·.2) ≠ [] → ∃ t, exec i s = .next t ∧ t.media.slices = s.media.slices ++ joinSlices (ps.filterMap (·.2)) ∧
      t.ledger = s.ledger) ∧
    (op = 0x01 → ∀ k < c.cnt, look s.units (unitNo c.zkey (c.offset + k)) = none →
      ps[k]? = some (List.replicate 4096 0, none))

/-- FLUSH (R166) with no earlier state-changing command of its ring outstanding completes with SUCCESS. REPORT ZONES (R207) delivers a
16-byte descriptor for each zone from ZONE on, up to the quota, and RESULT is their number; GET LOG (R218) delivers up to LENGTH bytes
of the log from OFFSET, and RESULT is their number. None changes anything but rings and traffic. -/
def Obligations.FlushAndReports : Prop :=
  (∀ (s : State) (r : Ref) (c : Cmd) (q : Sq), Startable s r 0x18 c → s.sq r.fn r.sq = some q →
    (earlier q.cmds c.pos).any Cmd.changes = false →
    ∃ t, exec (.flush r) s = .next t ∧ Posts s t r SUCCESS 0 none ∧ t.rest = s.rest) ∧
  ∀ (s : State) (r : Ref) (c : Cmd),
    (let n := min c.cnt (s.quota c.f12 - c.zone)
     Startable s r 0x0C c → 0 < n → ∃ t, exec (.reportZones r) s = .next t ∧ Posts s t r SUCCESS (BitVec.ofNat 64 n) none ∧
      Delivers t r 0 ((List.range n).flatMap fun k => s.descriptor c.f12 (c.zone + k)) ∧ t.rest = s.rest) ∧
    (let b := ((s.logBytes r c).drop (le c.entry 8 4)).take (le c.entry 12 4)
     Startable s r 0x38 c → b ≠ [] → ∃ t, exec (.getLog r) s = .next t ∧
      Posts s t r SUCCESS (BitVec.ofNat 64 b.length) none ∧ Delivers t r 0 b ∧ t.rest = s.rest) ∧
    ∀ (h z : Nat), z < 2 ^ 32 → (s.zone (zoneNo h z)).lclass < 256 →
      let d := s.descriptor h z
      le d 0 4 = z ∧ byteAt d 4 = (s.zone (zoneNo h z)).st.num ∧ bit (byteAt d 5) 0 = (s.zone (zoneNo h z)).fence.isSome ∧
        byteAt d 6 = (s.zone (zoneNo h z)).lclass

/-- Zone management (R204, R205, R235, R237): in its turn and judged again, each takes a ledger number; OPEN of an EMPTY zone binds the
slot chosen, OPEN of a CLOSED one keeps its pointer, CLOSE parks partial state from staging, FINISH makes it FULL at the zone's end,
RESET returns it to EMPTY with its slot let go. -/
def Obligations.ZoneManagement : Prop :=
  ∀ (s : State) (r : Ref) (c : Cmd), s.turn r c = true → s.decides r c = none →
    let k := c.zkey
    let z := s.zone k
    (∀ n, Startable s r 0x08 c → z.st = .empty → s.stagingZones < 4160 → s.place c = some n → ∃ t, exec (.openZone r) s = .next t ∧ Commits s t r 0 ∧
      (t.zone k).st = .open_ ∧ (t.zone k).wp = 0 ∧ (t.zone k).slot = some n ∧ (t.zone k).lclass = c.lclass ∧
      (t.zone k).sgroup = c.sgroup ∧ t.slotUse n = .bound k) ∧
    (Startable s r 0x08 c → z.st = .closed → z.partialRow = true ∨ s.stagingZones < 4160 →
      ∃ t, exec (.openZone r) s = .next t ∧ Commits s t r 0 ∧ (t.zone k).st = .open_ ∧ (t.zone k).wp = z.wp ∧
        (t.zone k).slot = z.slot) ∧
    (Startable s r 0x09 c → z.st = .open_ → ∃ t, exec (.closeZone r) s = .next t ∧ Commits s t r 0 ∧ (t.zone k).st = .closed ∧
      (t.zone k).wp = z.wp ∧ (z.wp % 2048 = 0 → (t.zone k).park = .none) ∧
      (z.wp % 2048 ≠ 0 → z.park = .none → (t.zone k).park = .staging)) ∧
    (Startable s r 0x0A c → z.st = .open_ ∨ z.st = .closed → ∃ t, exec (.finishZone r) s = .next t ∧ Commits s t r 0 ∧
      (t.zone k).st = .full ∧ (t.zone k).wp = 2 ^ 20 ∧ (t.zone k).finishAt = some z.wp) ∧
    ∀ n, Startable s r 0x0B c → z.slot = some n → ∃ t, exec (.resetZone r) s = .next t ∧ Commits s t r 0 ∧
      (t.zone k).st = .empty ∧ (t.zone k).wp = 0 ∧ (t.zone k).slot = none

/-- Writes (R26, R29, R42, R107, R156, R158, R199 to R201, R209, R210): a write that nothing holds back and whose function can pay has its
data read from the host; COUNT units are sealed as they arrive, under the holding's key and each unit's tweak; the staging drain
mirrors what a bell plan has placed; the commit of a WRITE or ZONE APPEND stores its units at the write pointer with the next ledger
number and advances the pointer, and RESULT is the pointer (WRITE) or the offset and count (ZONE APPEND); a RANDOM WRITE stores its
unit and leaves every other unit as it was, and RANDOM TRIM unwrites its units; RESULT of these is the holding's written units. Units
sealed for another place are sealed again for theirs (notes/assumptions/94.md). -/
def Obligations.Writes : Prop :=
  (∀ (s : State) (r : Ref) (c : Cmd) (b : List Int) (i : Instr) (op : Nat),
    (i, op) ∈ [(Instr.write r, 0x02), (.zoneAppend r, 0x03), (.randomWrite r, 0x11)] →
    Startable s r op c → s.writeHeld r c = false → s.rate r.fn (rateCost c) = .pay b →
    ∃ t, exec i s = .next t ∧ Sends t r.fn (.data r) ∧ t.rest = s.rest) ∧
  (∀ s : State,
    let due := fun (c : Cmd) => decide (c.point = .queued) && c.drainBell.any fun b => decide (b ≤ s.bell.now)
    let drain := fun (c : Cmd) => if due c then { c with point := .mirrored } else c
    exec .stagingDrain s = .next { s with sqs := mapV (fun _ q => { q with cmds := q.cmds.map drain }) s.sqs }) ∧
  (∀ (s : State) (c : Cmd) (data : Bytes) (j : Nat), j < c.cnt →
    let sealedAt := fun (h tweak : Nat) => ∃ u, (s.sealIn c data)[j]? = some u ∧ u.hold = h ∧ u.cmp = false ∧ u.key = s.holdKey h ∧
      u.tweak = tweak ∧ u.data = xtsSeal u.key u.tweak (slice data (4096 * j) 4096)
    (c.opcode = 0x02 → sealedAt (zoneHold c.zkey) (zoneIdx c.zkey * 2 ^ 20 + c.offset + j)) ∧
    (c.opcode = 0x03 → c.compress = false → sealedAt (zoneHold c.zkey) (zoneIdx c.zkey * 2 ^ 20 + (s.zone c.zkey).wp + j)) ∧
    (c.opcode = 0x11 → sealedAt c.f12 (2 ^ 63 + c.zone + j))) ∧
  (∀ (u : StUnit) (key tweak : Nat), (u.under key tweak).key = key ∧ (u.under key tweak).tweak = tweak ∧
    (u.under key tweak).data = if u.key = key ∧ u.tweak = tweak then u.data else xtsSeal key tweak (xtsOpen u.key u.tweak u.data)) ∧
  (∀ (s : State) (r : Ref) (c : Cmd) (q : Sq) (kq : Cq), s.cmd r = some c → s.sq r.fn r.sq = some q → s.cq r.fn q.cq = some kq →
    c.point = .mirrored → s.pwr.loss = none → s.turn r c = true → s.decides r c = none →
    (c.opcode = 0x02 ∨ c.opcode = 0x03 →
      let k := c.zkey
      let a := (s.zone k).wp
      let n := c.units.length
      0 < n → a + n ≤ 2 ^ 20 → ∃ t, exec (.commandCommit r) s = .next t ∧
        Commits s t r (BitVec.ofNat 64 (if c.opcode = 0x02 then a + n else a % 2 ^ 20 + n * 2 ^ 32)) ∧
        (t.zone k).wp = a + n ∧ (a + n = 2 ^ 20 → (t.zone k).st = .full) ∧
        (∀ j u, c.units[j]? = some u → look t.units (unitNo k (a + j)) =
          some { u.under (s.holdKey (zoneHold k)) (zoneIdx k * 2 ^ 20 + (a + j)) with
            hold := zoneHold k, kind := .zone, lclass := (s.zone k).lclass, addr := zoneIdx k, off := a + j, ledger := s.ledger + 1 }) ∧
        ∀ i, (∀ j < n, i ≠ unitNo k (a + j)) → look t.units i = look s.units i) ∧
    (c.opcode = 0x11 → s.randFits r c = true → ∃ t, exec (.commandCommit r) s = .next t ∧
      Commits s t r (BitVec.ofNat 64 (t.raCount c.f12)) ∧
      (∀ n, (∀ u ∈ c.units, n ≠ randNo c.f12 u.addr) → (look t.rand n).map (·.unit) = (look s.rand n).map (·.unit)) ∧
      ∀ u p, c.units = [u] → look s.media.streams (u.addr / 2048 % 4 * 16 + s.cmdStream c) = some p →
        ∃ v, look t.rand (randNo c.f12 u.addr) = some v ∧
          v.unit = { u.under (s.holdKey c.f12) (2 ^ 63 + u.addr) with ledger := s.ledger + 1 })) ∧
  ∀ (s : State) (r : Ref) (c : Cmd), Startable s r 0x12 c → s.turn r c = true → s.decides r c = none →
    let k := randNo c.f12 c.zone
    ∃ t, exec (.randomTrim r) s = .next t ∧ Commits s t r (BitVec.ofNat 64 (t.raCount c.f12)) ∧
      ∀ n, look t.rand n = if k ≤ n ∧ n < k + c.cnt then none else look s.rand n

/-- Semaphores (R110, R113 to R116, R217). Commands: ACQUIRE takes a free semaphore with the next generation and the lease asked for, and
renews one its requester holds on the command's port; RELEASE frees one it holds, BREAK a breakable one, each with the next
generation; a change takes a ledger number. Where the word forbids it, the command ends with SEMAPHORE_BUSY and the word stays. READ
only reads. RESULT is the word as it then stands. Window: a compare-and-swap of a permitted function on its queue pair returns the
word as it stood, and stores a swap value that the rule admits; a held semaphore becomes breakable when its lease has run out. -/
def Obligations.Semaphores : Prop :=
  (∀ (s : State) (r : Ref) (c : Cmd) (i : Instr) (op : Nat) (nx : Option W64),
    let n := le c.entry 4 2
    let lease := le c.entry 6 2
    let w := s.semWord n
    let gen := bits w.toNat 63 32
    let held := bit w.toNat 13
    let mine := held && decide (bits w.toNat 11 0 = r.fn) && decide (b01 (bit w.toNat 12) = c.port.num)
    let word := fun g => BitVec.ofNat 64 (g * 2 ^ 32 + lease * 2 ^ 16 + 2 ^ 13 + c.port.num * 2 ^ 12 + r.fn)
    let freed := BitVec.ofNat 64 ((gen + 1) % 2 ^ 32 * 2 ^ 32)
    (i, op, nx) ∈ [(Instr.semAcquire r, 0x30, if held then (if mine then some (word gen) else none) else
        some (word ((gen + 1) % 2 ^ 32))), (.semRelease r, 0x31, if mine then some freed else none),
      (.semBreak r, 0x32, if held && bit w.toNat 14 then some freed else none)] →
    n < 1024 → firstFail (step4 s r c) = none →
    (Startable s r op c → (∀ v, nx = some v → ∃ t, exec i s = .next t ∧ Commits s t r 0 ∧ t.semWord n = v ∧
        ∀ m, m ≠ n → t.semWord m = s.semWord m) ∧
      (nx = none → ∃ t, exec i s = .next t ∧ Posts s t r SEMAPHORE_BUSY 0 none ∧ t.rest = s.rest)) ∧
    (Startable s r 0x33 c → ∃ t, exec (.semRead r) s = .next t ∧ Posts s t r SUCCESS 0 none ∧ t.rest = s.rest)) ∧
  (∀ (s : State) (f : Nat) (p : PortId) (n : Nat) (cmp swp : W64), n < 1024 → s.responds f p = true → (s.fn f).state = .active →
    s.semPermitted f n true = true →
    let w := s.semWord n
    ∃ t, exec (.semCompareAndSwap f p (Config.semRkey f) (8 * n) cmp swp) s = .next t ∧ t.told (.atomic p f w) = true ∧
      (∀ m, m ≠ n → t.semWord m = s.semWord m) ∧
      (w ≠ cmp → t.semWord n = w ∧ t.ledger = s.ledger) ∧
      (w = cmp → bit cmp.toNat 15 = false → s.semPermitted f n false = true → bit w.toNat 13 = false → f < 4096 →
        (∃ lease, 0 < lease ∧ lease < 2 ^ 16 ∧ swp = BitVec.ofNat 64 ((bits w.toNat 63 32 + 1) % 2 ^ 32 * 2 ^ 32 + lease * 2 ^ 16 +
          2 ^ 13 + p.num * 2 ^ 12 + f)) → t.semWord n = swp ∧ t.ledger = s.ledger + 1)) ∧
  ∀ (s : State) (n : Nat), let w := s.semWord n
    bit w.toNat 13 = true → bit w.toNat 14 = false → lookD s.sems.acq 0 n + bits w.toNat 31 16 ≤ s.bell.now →
    exec (.semBreakable n) s = .next { s with sems := { s.sems with word := putD s.sems.word 0 n (w ||| 0x4000) } }

/-- Ring management (R122, R125, R128, R220): CREATE RING makes a ring of the block's values with the next generation of its number,
and RESULT holds the generation and the RING entry; DELETE RING removes an idle one; SET RING NOTIFY keeps attributes for the next
boundary. Each takes a ledger number. -/
def Obligations.RingManagement : Prop :=
  ∀ (s : State) (r : Ref) (c : Cmd),
    (let b := c.block
     let n := le b 0 2
     Startable s r 0x40 c → ringFails s r.fn b = false →
      (byteAt b 2 ≠ 1 → ∃ t q, exec (.createRing r) s = .next t ∧ t.sq r.fn n = some q ∧
        q.gen = (s.fn r.fn).nextGen false n ∧ q.base = BitVec.ofNat 64 (le b 8 8) ∧ q.sizeLog = byteAt b 3 ∧ q.cq = le b 16 2 ∧
        q.fetched = 0 ∧ q.tail = 0 ∧ q.activeFrom = s.bell.now + 1 ∧ Commits s t r (BitVec.ofNat 64 (q.gen + q.index * 2 ^ 32))) ∧
      (byteAt b 2 = 1 → ∃ t k, exec (.createRing r) s = .next t ∧ t.cq r.fn n = some k ∧
        k.gen = (s.fn r.fn).nextGen true n ∧ k.base = BitVec.ofNat 64 (le b 8 8) ∧ k.sizeLog = byteAt b 3 ∧
        k.notify = bit (byteAt b 18) 0 ∧ k.coCount = le b 20 2 ∧ k.coBells = byteAt b 19 ∧ k.posted = 0 ∧
        Commits s t r (BitVec.ofNat 64 (k.gen + k.index * 2 ^ 32)))) ∧
    (Startable s r 0x41 c → firstFail (s.deleteFails r.fn c.f10 (byteAt c.entry 6 = 1)) = none →
      ∃ t, exec (.deleteRing r) s = .next t ∧ Commits s t r 0 ∧
        (if byteAt c.entry 6 = 1 then t.cq r.fn c.f10 = none else t.sq r.fn c.f10 = none)) ∧
    (∀ k0, Startable s r 0x42 c → s.cq r.fn c.f10 = some k0 → ∃ t k, exec (.setRingNotify r) s = .next t ∧ Commits s t r 0 ∧
      t.cq r.fn c.f10 = some k ∧ k.attrNext = some (bit (byteAt c.entry 6) 0, le c.entry 8 2, byteAt c.entry 7))

/-- ABORT and RESTART RING (R178, R179, R185 to R187): ABORT of a tag that is not outstanding, or is an ABORT's, ends with NO_MATCH; of a
command before its decision point, the target ends with ABORTED, once no earlier command of its zone or unit is outstanding (R167), and
the ABORT, which took a ledger number, waits for that completion's acknowledgement; past it, or of a command that was aborted before,
the ABORT waits with ABORT_TOO_LATE. RESTART RING of a ring that is not frozen changes nothing else; a frozen ring whose started
commands have ended is unfrozen: in RESUME mode its entries are checked afresh, in DISCARD mode they end, and RESULT is their
number; with nothing fetched its log is clear. While a started command runs it waits. Unfreezing lifts every fence the ring set. -/
def Obligations.AbortAndRestart : Prop :=
  ∀ (s : State) (r : Ref) (c : Cmd),
    (∀ q, Startable s r 0x19 c → s.sq r.fn c.f10 = some q →
      let found := q.cmds.find? fun d => d.tag % 65536 = le c.entry 6 2
      (found = none ∨ (∃ d, found = some d ∧ d.opcode = 0x19) → ∃ t, exec (.abort r) s = .next t ∧ Posts s t r NO_MATCH 0 none ∧
        t.rest = s.rest) ∧
      ∀ d k, found = some d → d.opcode ≠ 0x19 → s.cq r.fn q.cq = some k →
        let tr : Ref := ⟨r.fn, c.f10, d.tag⟩
        (d.point ≠ .decided → d.aborted = false → ∃ t, exec (.abort r) s = .next t ∧ t.ledger = s.ledger + 1 ∧
          (orderWaits q.cmds d = false → Posts s t tr ABORTED 0 none) ∧
          ∃ a ∈ t.aborts, a.r = r ∧ a.target = tr ∧ a.status = SUCCESS) ∧
        (d.point = .decided ∨ d.aborted = true → ∃ t, exec (.abort r) s = .next t ∧ t.ledger = s.ledger ∧
          ∃ a ∈ t.aborts, a.r = r ∧ a.target = tr ∧ a.status = ABORT_TOO_LATE)) ∧
    (∀ q, Startable s r 0x1A c → s.sq r.fn c.f10 = some q →
      (q.frozen = false → ∃ t, exec (.restartRing r) s = .next t ∧ Commits s t r 0) ∧
      (q.frozen = true → q.cmds.any Cmd.started = true → ∃ t d, exec (.restartRing r) s = .next t ∧ t.ledger = s.ledger ∧
        t.sq r.fn c.f10 = some q ∧ t.cmd r = some d ∧ d.point = .running) ∧
      (q.frozen = true → q.cmds.any Cmd.started = false →
        (byteAt c.entry 6 = 0 → ∃ t q', exec (.restartRing r) s = .next t ∧ Commits s t r 0 ∧ t.sq r.fn c.f10 = some q' ∧
          (q.cmds = [] → q'.frozen = false ∧ q'.errlog = [])) ∧
        (byteAt c.entry 6 ≠ 0 → q.fetched = q.tail → ∃ t, exec (.restartRing r) s = .next t ∧
          Commits s t r (BitVec.ofNat 64 (q.cmds.filter fun d => !d.aborted).length)))) ∧
    ∀ (f n z p : Nat), ((s.unfreeze f n).zone z).fence ≠ some (ringNo f n, p)

/-- Function management (R94, R95, R97, R98, R104, R105, R115, R128, R129): each takes a ledger number; ADD FUNCTION makes an ABSENT
function ACTIVE with its block's resources and doorbell page; QUIESCE starts its drain, and of a QUIESCED one gives the bell it ended;
RESUME makes it ACTIVE again, and leaves one that was not QUIESCED; a manager neither quiesces nor resets itself; RESET gives its rings new generations and frees its semaphores; REMOVE takes its rings away and leaves it
ABSENT; SET FUNCTION RESOURCES records the new block and completes after the next boundary. -/
def Obligations.FunctionManagement : Prop :=
  ∀ (s : State) (r : Ref) (c : Cmd),
    let f := c.f12
    let own := Posts s (r := r) (status := SUCCESS) (ledger := some (s.ledger + 1))
    (Startable s r 0x4A c → (s.fn f).state ≠ .absent → ∃ t, exec (.resumeFunction r) s = .next t ∧ own t 0 ∧
      t.ledger = s.ledger + 1 ∧ (t.fn f).state = if (s.fn f).state = .quiesced then .active else (s.fn f).state) ∧
    (f = r.fn → (Startable s r 0x49 c → ∃ t, exec (.quiesceFunction r) s = .next t ∧ Posts s t r NOT_PERMITTED 0 none) ∧
      (Startable s r 0x4B c → ∃ t, exec (.resetFunction r) s = .next t ∧ Posts s t r NOT_PERMITTED 0 none)) ∧
    (f ≠ r.fn →
      (Startable s r 0x48 c → s.life.state ≠ .return_ → (s.fn f).state = .absent → addBlockOk c.block = true →
        s.overTotals f (resAt c.block 0) = false → ∃ t, exec (.addFunction r) s = .next t ∧ own t 0 ∧ t.ledger = s.ledger + 1 ∧
          (t.fn f).state = .active ∧ (t.fn f).res = resAt c.block 0 ∧ (t.fn f).dbAddr = BitVec.ofNat 64 (le c.block 32 8) ∧
          (∃ q, t.sq f 0 = some q ∧ q.gen = (s.fn f).nextGen false 0) ∧ ∃ k, t.cq f 0 = some k ∧ k.gen = (s.fn f).nextGen true 0) ∧
      (Startable s r 0x49 c →
        ((s.fn f).state = .active ∨ (s.fn f).state = .quiescing → ∃ t, exec (.quiesceFunction r) s = .next t ∧
          (t.fn f).state = .quiescing ∧ t.ledger = s.ledger + 1) ∧
        ((s.fn f).state = .quiesced → ∃ t, exec (.quiesceFunction r) s = .next t ∧ own t (BitVec.ofNat 64 (s.fn f).quietAt) ∧
          (t.fn f).state = .quiesced)) ∧
      (Startable s r 0x4B c → (s.fn f).state = .quiesced → ∃ t, exec (.resetFunction r) s = .next t ∧ own t 0 ∧
        (t.fn f).state = .quiesced ∧ (∀ n, ¬(bit (t.semWord n).toNat 13 = true ∧ bits (t.semWord n).toNat 11 0 = f)) ∧
        ∀ n q, n < 1024 → s.sq f n = some q → ∃ q', t.sq f n = some q' ∧ q'.gen = (s.fn f).nextGen false n ∧ q'.cmds = [] ∧
          q'.frozen = false ∧ q'.fetched = 0 ∧ q'.tail = 0) ∧
      (Startable s r 0x4C c → isManager f = false → (s.fn f).state = .quiesced → (∀ h ∈ s.holds, h.2.owner ≠ f) →
        ∃ t, exec (.removeFunction r) s = .next t ∧ own t 0 ∧ (t.fn f).state = .absent ∧ (t.fn f).res = Res.zero ∧
          (∀ n < 1024, t.sq f n = none ∧ t.cq f n = none) ∧
          ∀ n, ¬(bit (t.semWord n).toNat 13 = true ∧ bits (t.semWord n).toNat 11 0 = f)) ∧
      (Startable s r 0x4D c → isManager f = false → (s.fn f).state ≠ .absent → resOk c.block 0 = true →
        s.overTotals f (resAt c.block 0) = false → s.shrinks f (resAt c.block 0) = false →
        ∃ t, exec (.setFunctionResources r) s = .next t ∧ (t.fn f).res = resAt c.block 0 ∧ t.ledger = s.ledger + 1 ∧
          Due.mk r SUCCESS 0 (some (s.ledger + 1)) ∈ t.due))

/-- Holdings (R101 to R105, R223): each takes a ledger number and records it in the holding; CREATE gives the values asked for and a key
drawn anew; SET replaces the values, the old ones standing until the boundary after which it completes; ASSIGN changes the owner alone;
DELETE leaves no holding, no zone of it and no random-area unit. -/
def Obligations.Holdings : Prop :=
  ∀ (s : State) (r : Ref) (c : Cmd),
    let h := c.f12
    (Startable s r 0x50 c → s.life.state ≠ .return_ → look s.holds h = none → s.mayOwn c.owner = true → s.holdOver c = false →
      ∃ t key, exec (.createHolding r) s = .next t ∧ Commits s t r 0 ∧
        look t.holds h = some ⟨c.owner, c.policy, c.quota, c.openLimit, c.raAllow, s.ledger + 1, key, none⟩ ∧
        ∀ k, k ≠ h → look t.holds k = look s.holds k) ∧
    ∀ x, look s.holds h = some x →
      (Startable s r 0x51 c → s.holdOver c = false → s.holdShrinks c = false → ∃ t, exec (.setHolding r) s = .next t ∧
        t.ledger = s.ledger + 1 ∧ Due.mk r SUCCESS 0 (some (s.ledger + 1)) ∈ t.due ∧ look t.holds h = some { x with
          policy := c.policy, quota := c.quota, openLimit := c.openLimit, raAllow := c.raAllow, ledger := s.ledger + 1
          old := some (x.policyNow, x.quotaNow, x.openNow, x.raNow) }) ∧
      (Startable s r 0x52 c → s.mayOwn c.owner = true → (s.fn x.owner).state = .quiesced → ∃ t, exec (.assignHolding r) s = .next t ∧
        Commits s t r 0 ∧ look t.holds h = some { x with owner := c.owner, ledger := s.ledger + 1 } ∧
        (∀ z, (t.zone z).wp = (s.zone z).wp) ∧ t.units = s.units ∧ t.rand = s.rand) ∧
      (Startable s r 0x53 c → (s.fn x.owner).state = .quiesced → ∃ t, exec (.deleteHolding r) s = .next t ∧ Commits s t r 0 ∧
        look t.holds h = none ∧ (∀ z, zoneHold z = h → (t.zone z).st = .empty ∧ (t.zone z).wp = 0) ∧
        ∀ k, k / 2 ^ 26 = h → look t.rand k = none)

/-- Management of power, time and firmware (R224 to R226, R529, R565, R567): SET LATENCY TOLERANCE records the declaration and completes at
once where the power state is then admitted, waking the module where not; SET CALENDAR sets an unlocked calendar; FIRMWARE DOWNLOAD
to an unprotected bank reads its data; FIRMWARE ACTIVATE of an image that verifies selects its bank and starts the activation, whose
handover, once begun and ended, runs the other bank's image, raises the floor to its SVN and completes the command, or leaves all as it was. -/
def Obligations.PowerTimeFirmware : Prop :=
  ∀ (s : State) (r : Ref) (c : Cmd),
    (let s1 := s.setFn r.fn fun g => { g with tol := le c.entry 8 4 }
     Startable s r 0x43 c → ∃ t, exec (.setLatencyTolerance r) s = .next t ∧ (t.fn r.fn).tol = le c.entry 8 4 ∧
      (s1.admits s.pwr.cur = true → Commits s t r 0) ∧ (s1.admits s.pwr.cur = false → t.pwr.waking = true)) ∧
    (Startable s r 0x58 c → s.clk.st ≠ 2 → ∃ t, exec (.setCalendar r) s = .next t ∧ Commits s t r 0 ∧ t.clk.st = 1 ∧
      t.clk.base = (le c.entry 8 8 : Int) * 2 ^ 32 + (le c.entry 16 4 : Int) ∧ t.clk.baseNs = s.nowNs) ∧
    (Startable s r 0x59 c → s.act = none → s.bankProtected = false → ∃ t, exec (.firmwareDownload r) s = .next t ∧
      Sends t r.fn (.data r) ∧ t.rest = s.rest) ∧
    (Startable s r 0x5A c → s.act = none → s.downloading = false → (s.loft.image s.inactive).ok = true →
      s.life.floor ≤ (s.loft.image s.inactive).svn → ∃ t, exec (.firmwareActivate r) s = .next t ∧ t.act = some ⟨r, 2⟩ ∧
        t.loft.next = s.inactive ∧ t.boot.running = s.boot.running) ∧
    ∀ a q k, s.act = some a → s.cmd a.r = some c → s.sq a.r.fn a.r.sq = some q → s.cq a.r.fn q.cq = some k →
      orderWaits q.cmds c = false →
      (a.phase ≠ 3 → exec (.activationHandover true) s = .next { s with act := some { a with phase := 3 } }) ∧
      (a.phase = 3 → ∃ t, exec (.activationHandover true) s = .next t ∧ Commits s t a.r 0 ∧ t.act = none ∧ t.boot.running = s.inactive ∧
        t.life.floor = max s.life.floor (s.loft.image s.inactive).svn) ∧
      ∃ t, exec (.activationHandover false) s = .next t ∧ Posts s t a.r NOT_PERMITTED 0 none ∧ t.act = none ∧
        t.boot.running = s.boot.running ∧ t.life.floor = s.life.floor ∧ t.loft.next = s.boot.running

/-- Life cycle and attestation (R539, R542, R544, R545, R555): a transition whose token passes every check blows the fuse of its type, SEAL,
RETURN or SCRAP, and REFURBISH starts the media erase, whose end blows REFURBS; SCRAP turns the module off; one whose token fails a check
ends with its cause; one that starts during the erase goes no further (notes/assumptions/80.md). ATTEST delivers a report of
the stated length that carries the command's own ledger number. -/
def Obligations.LifeCycle : Prop :=
  ∀ (s : State) (r : Ref) (c : Cmd) (e : BootEnv), e.wf = true →
    let l := s.life
    (Startable s r 0x5C c → l.erasing = none → s.tokenCause false c.block = 0 →
      ∃ t, exec (.lifeCycleTransition r e) s = .next t ∧
        (byteAt c.block 5 = 1 → t.life.seals = l.seals + 1 ∧ t.life.returns = l.returns ∧ t.life.refurbs = l.refurbs) ∧
        (byteAt c.block 5 = 2 → t.life.seals = l.seals ∧ t.life.returns = l.returns + 1 ∧ t.life.refurbs = l.refurbs) ∧
        (byteAt c.block 5 = 3 → t.life = { l with erasing := some r }) ∧
        (byteAt c.block 5 = 4 → t.life = { l with scrap := true } ∧ t.pwr.on = false)) ∧
    (Startable s r 0x5C c → l.erasing = none → s.tokenCause false c.block ≠ 0 → ∃ t, exec (.lifeCycleTransition r e) s = .next t ∧
      t.life = l ∧ Posts s t r (causeStatus (s.tokenCause false c.block)) (BitVec.ofNat 64 (s.tokenCause false c.block)) none) ∧
    (Startable s r 0x5C c → l.erasing.isSome = true → ∃ t d, exec (.lifeCycleTransition r e) s = .next t ∧ t.life = l ∧
      t.ledger = s.ledger ∧ t.cmd r = some d ∧ d.point = .running) ∧
    (∀ bad : List PlaneBlock, l.erasing = some r → (∀ b ∈ bad, b.wf = true) →
      ∃ t, exec (.refurbishEraseComplete bad e) s = .next t ∧ t.life.refurbs = l.refurbs + 1 ∧ t.life.erasing = none ∧
        t.life.seals = l.seals ∧ t.life.returns = l.returns) ∧
    (Startable s r 0x5D c → s.reportsNow.length < 200 → l.exhausted = false → s.reportLen ≤ le c.entry 8 4 → ∃ t b, exec (.attest r) s = .next t ∧ Commits s t r 0 ∧
      Delivers t r 32 b ∧ b.length = 168 + l.chainLen + 5396 ∧ le b 0 4 = 0x5454414A ∧ le b 40 8 = (s.ledger + 1) % 2 ^ 64 ∧
      le b 48 2 = r.fn % 2 ^ 16)

/-- COMMAND_DEFERRED_START (R107, R154) starts a waiting command exactly as its own row does, for every opcode but those whose rows
carry what the boot that follows meets. -/
def Obligations.DeferredStart : Prop :=
  ∀ (s : State) (r : Ref) (c : Cmd) (i : Instr), s.cmd r = some c →
    (c.opcode, i) ∈ [(0x01, Instr.read r), (0x02, .write r), (0x03, .zoneAppend r), (0x08, .openZone r), (0x09, .closeZone r),
      (0x0A, .finishZone r), (0x0B, .resetZone r), (0x0C, .reportZones r), (0x10, .randomRead r), (0x11, .randomWrite r),
      (0x12, .randomTrim r), (0x18, .flush r), (0x19, .abort r), (0x1A, .restartRing r), (0x20, .scan r), (0x21, .run r),
      (0x28, .sieveWrite r), (0x29, .sieveWritePair r), (0x2A, .sieveLookup r), (0x2B, .sieveStep r), (0x30, .semAcquire r),
      (0x31, .semRelease r), (0x32, .semBreak r), (0x33, .semRead r), (0x38, .getLog r), (0x40, .createRing r), (0x41, .deleteRing r),
      (0x42, .setRingNotify r), (0x43, .setLatencyTolerance r), (0x48, .addFunction r), (0x49, .quiesceFunction r),
      (0x4A, .resumeFunction r), (0x4B, .resetFunction r), (0x4C, .removeFunction r), (0x4D, .setFunctionResources r),
      (0x50, .createHolding r), (0x51, .setHolding r), (0x52, .assignHolding r), (0x53, .deleteHolding r), (0x58, .setCalendar r),
      (0x59, .firmwareDownload r), (0x5A, .firmwareActivate r), (0x5D, .attest r)] →
    ∃ t, exec (.commandDeferredStart r) s = .next t ∧ exec i s = .next t

/-- Sieve commands (R215, R216, R439, R444 to R447, R450): a write in its turn puts every row of it into array and shadow at once; a lookup
answers with the first of the matching rows in rank order, or with NO_MATCH where none matches, when the winner agrees with its shadow;
STEP answers with the first match after its cursor's position. After the checker (R453, R454, R456) each of the bell's 64 rows equals
its shadow, and a retired row's spare is loaded from the shadow. -/
def Obligations.SieveCommands : Prop :=
  (∀ (s : State) (r : Ref) (c : Cmd),
    (∀ p, Startable s r 0x28 c → s.rowTurn r c = true → s.sieveFails r c = none → s.physRow r.fn (le c.entry 4 4) = some p →
      let w := rowAt c.block 0
      ∃ t, exec (.sieveWrite r) s = .next t ∧ Commits s t r 0 ∧
        ∀ n, lookD t.sieve.arr Row.none n = (if n = p then if w.valid then w else Row.none else lookD s.sieve.arr Row.none n) ∧
          lookD t.sieve.shadow Row.none n = if n = p then if w.valid then w else Row.none else lookD s.sieve.shadow Row.none n) ∧
    (∀ p q, Startable s r 0x29 c → s.rowTurn r c = true → s.sieveFails r c = none → s.physRow r.fn (le c.entry 4 4) = some p →
      s.physRow r.fn (le c.entry 8 4) = some q → p ≠ q →
      ∃ t, exec (.sieveWritePair r) s = .next t ∧ Commits s t r 0 ∧
        (∀ n w, (n, w) ∈ [(p, rowAt c.block 0), (q, rowAt c.block 96)] →
          lookD t.sieve.arr Row.none n = (if w.valid then w else Row.none) ∧
            lookD t.sieve.shadow Row.none n = if w.valid then w else Row.none) ∧
        ∀ n, n ≠ p → n ≠ q → lookD t.sieve.arr Row.none n = lookD s.sieve.arr Row.none n) ∧
    (∀ b, Startable s r 0x2A c → s.rate r.fn (rateCost c) = .pay b →
      let hits := s.hits s.sieve.arr r.fn (keyOf (slice c.block 0 40))
      (hits = [] → ∃ t, exec (.sieveLookup r) s = .next t ∧ Posts s t r NO_MATCH 0 none ∧ t.rest = s.rest) ∧
      ∀ x ms, hits = x :: ms → s.rowBad x.2.1 = false → ∃ t a cur, exec (.sieveLookup r) s = .next t ∧
        Posts s t r SUCCESS x.2.2.result none ∧ Delivers t r 40 (answerBytes (some a) cur) ∧ a.result = x.2.2.result ∧ a.row = x.1 ∧
        a.multi = !ms.isEmpty ∧ t.rest = s.rest) ∧
    ∀ b cur, Startable s r 0x2B c → s.rate r.fn (rateCost c) = .pay b →
      (s.fn r.fn).cursors.find? (fun x => x.value = le c.entry 8 4) = some cur →
      let hits := (s.hits s.sieve.arr r.fn (keyOf cur.key)).filter fun x =>
        ranksBefore s.sieve.active cur.len cur.row x.2.2.len x.1
      (hits = [] → ∃ t, exec (.sieveStep r) s = .next t ∧ Posts s t r NO_MATCH 0 none) ∧
      ∀ x ms, hits = x :: ms → s.rowBad x.2.1 = false → ∃ t, exec (.sieveStep r) s = .next t ∧
        Posts s t r SUCCESS x.2.2.result none ∧ t.rest = s.rest) ∧
  ∀ s : State,
    (s.boot.ready = true → ∀ ups, ∃ t, exec (.sieveChecker ups) s = .next t ∧ t.sieve.shadow = s.sieve.shadow ∧
      ∀ i < 64, lookD t.sieve.arr Row.none (64 * (s.bell.now % 1024) + i) =
        lookD t.sieve.shadow Row.none (64 * (s.bell.now % 1024) + i)) ∧
    ∀ p, p ∈ s.sieve.retiring → ∃ t, exec (.sieveRowRetired p) s = .next t ∧ p ∈ t.sieve.replaced ∧
      t.sieve.retiring = s.sieve.retiring.erase p ∧ lookD t.sieve.arr Row.none p = lookD s.sieve.shadow Row.none p ∧
      ∀ n, n ≠ p → lookD t.sieve.arr Row.none n = lookD s.sieve.arr Row.none n

/-! ### Jobs -/

/-- Jobs (R335, R337 to R339, R341, R342, R387, R391): a checked SCAN or RUN becomes a QUEUED job in the lowest free slot; with its resources
available and no earlier job to take them it enters LOADING at this bell; loaded, it takes a ledger number and enters RUNNING. 2 s of
LOADING ends it with INTERNAL_TIMEOUT; TIME_LIMIT is a fault of code 3, and the job then completes with JOB_FAULT; stopped, or with
everything consumed, it ends with SUCCESS once its output is delivered; what the gates of a stopped job with no stage emitted is output. -/
def Obligations.Jobs : Prop :=
  (∀ (s : State) (j : Nat),
    (∀ (r : Ref) (c : Cmd) (i : Instr) (op : Nat), (i, op) ∈ [(Instr.scan r, 0x20), (.run r, 0x21)] → s.cmd r = some c →
      c.opcode = op → c.point = .checked ∨ c.point = .held → s.jobOf r = none → lowestFree 2048 (s.jobs.map (·.1)) = some j →
      ∃ t, exec i s = .next t ∧ look t.jobs j = some (newJob r c) ∧ (newJob r c).st = .queued) ∧
    ∀ x, look s.jobs j = some x →
      (s.jobMayStart x = true → (x.holding.isSome = true → (s.fn x.r.fn).eff.scanBytes ≠ 0) → x.mem ≤ s.memFree x.r.fn →
        s.canLoad x = true → s.jobBefore x = false → ∃ t y, exec (.jobLoadStart j) s = .next t ∧ look t.jobs j = some y ∧
          y.st = .loading ∧ y.loadBell = s.bell.now ∧ y.code = x.code ∧ y.mem = x.mem) ∧
      (x.st = .loading → ∃ t y, exec (.jobLoaded j) s = .next t ∧ t.ledger = s.ledger + 1 ∧ look t.jobs j = some y ∧
        y.st = .running ∧ y.ledger = s.ledger + 1 ∧ y.runBell = s.bell.now)) ∧
  ∀ (s : State) (j : Nat) (x : Job) (q : Sq) (k : Cq) (c : Cmd), look s.jobs j = some x → s.cmd x.r = some c →
    s.sq x.r.fn x.r.sq = some q → s.cq x.r.fn q.cq = some k → x.r.wf = true → orderWaits q.cmds c = false → x.fault = none →
    (x.st = .loading → 2000000 ≤ s.ranFor x.loadBell c.startStill → ∃ t, exec (.jobLoadTimeout j) s = .next t ∧
      look t.jobs j = none ∧ Posts s t x.r INTERNAL_TIMEOUT 0 c.ledger) ∧
    (x.st = .running → x.stopped = false → x.ending = none → x.outPaused = none → x.timeLimit ≠ 0 →
      x.runBell + x.timeLimit ≤ s.bell.now → ∃ t y, exec (.jobTimeLimit j) s = .next t ∧ look t.jobs j = some y ∧
        y.ending = some JOB_FAULT ∧ y.faultCode = 3 ∧ ∃ u, exec (.jobComplete j) t = .next u ∧ look u.jobs j = none ∧
        Posts t u x.r JOB_FAULT (y.result JOB_FAULT) c.ledger) ∧
    (x.st = .running → x.output = [] → x.sent = x.delivered →
      (x.stopped = true → x.cores ≠ 0 ∨ x.filling.flatMap (·.2) = [] → ∃ t, exec (.jobStop j) s = .next t ∧ look t.jobs j = none ∧
        Posts s t x.r SUCCESS (x.result SUCCESS) c.ledger) ∧
      (x.stopped = false → x.ending = none → s.consumed j x = true → ∃ t, exec (.jobComplete j) s = .next t ∧
        look t.jobs j = none ∧ Posts s t x.r SUCCESS (x.result SUCCESS) c.ledger)) ∧
    (x.st = .running → x.stopped = true → x.cores = 0 → s.workPort x.r.fn = none → ∃ t y, exec (.jobStop j) s = .next t ∧
      (x.output ++ x.filling.flatMap (·.2) ≠ [] → look t.jobs j = some y ∧ y.output = x.output ++ x.filling.flatMap (·.2) ∧
        y.filling = []))

/-- Batches and output (R340, R355, R356, R363): a full or final batch goes into the scan buffer, or with no stage to the output, where there
is room, and its gate pauses where there is none; output to a zone is appended to it with its own ledger number, which frees a paused
gate; with no port UP a buffer without room for a further piece of 64 KiB pauses the job (notes/assumptions/87.md), and a port that
carries its function again resumes it. -/
def Obligations.BatchesAndOutput : Prop :=
  ∀ (s : State) (j : Nat) (x : Job), look s.jobs j = some x →
    (∀ ward, x.live = true → x.isScan = true → 0 < x.nextBatch ward →
      let n := x.nextBatch ward
      (x.cores ≠ 0 → ∀ a, x.batchPlace n = some a → ∃ t y, exec (.batchPost j ward) s = .next t ∧ look t.jobs j = some y ∧
        y.batches = x.batches ++ [⟨a, ward, n⟩] ∧ lookD y.filling [] ward = (lookD x.filling [] ward).drop n) ∧
      (x.cores = 0 → x.undelivered + n ≤ outWindow → exec (.batchPost j ward) s = .next ((s.setJob j fun x => { x with
        filling := putD x.filling [] ward ((lookD x.filling [] ward).drop n) }).output j ((lookD x.filling [] ward).take n))) ∧
      ((if x.cores = 0 then outWindow < x.undelivered + n else x.batchPlace n = none) → x.paused.contains ward = false →
        exec (.gateContextPause j ward) s = .next (s.setJob j fun x => { x with paused := ward :: x.paused }))) ∧
    (∀ z, x.outZone = some z →
      let b := s.appendPiece j x
      let n := (b.length + 4095) / 4096
      let zn := s.zone z
      x.st = .running → b ≠ [] → zn.fence = none → zn.st = .open_ → zn.wp + n ≤ 2 ^ 20 → s.zoneHeld z n = false →
      ∃ t y, exec (.outputAppend j) s = .next t ∧ t.ledger = s.ledger + 1 ∧ (t.zone z).wp = zn.wp + n ∧
        look t.jobs j = some y ∧ y.output = x.output.drop b.length ∧ y.delivered = x.delivered + b.length ∧ y.paused = []) ∧
    (x.live = true → s.portA.state ≠ .up → s.portB.state ≠ .up → x.outZone = none → outWindow < x.undelivered + 65536 → x.outPaused = none →
      exec (.outputPause j) s = .next (s.setJob j fun x => { x with outPaused := some s.bell.now })) ∧
    ∀ b, x.outPaused = some b → (s.workPort x.r.fn).isSome = true → exec (.outputPause j) s =
      .next ((s.setJob j fun x => { x with outPaused := none, runBell := x.runBell + (s.bell.now - b) }).deliver j)

/-! ### Ports, frames, time, transport -/

/-- Port states (R61, R77, R89, Table 3.5): a usable optical module starts training on an enabled OFF port, one above 12 W is held in
low power; an optical module that goes, or ENABLE written 0, makes the port OFF; a link fault makes an UP port DOWN and the work of
every function that runs through it fail over at the next boundary; training ends UP, or DOWN, or FAILED at the eighth failure; DOWN and a RETRAIN of FAILED train again. -/
def Obligations.PortStates : Prop :=
  ∀ (s : State) (p : PortId),
    let q := s.port p
    (∀ m : OpticsInfo, q.optic = none → s.portsLive = true →
      (m.advPower ≤ 120 → (q.state = .off ∧ s.portEnabled p = true) ∨ q.state = .failed → ∃ t, exec (.opticsInsert p m) s = .next t ∧
        (t.port p).state = .training ∧ (t.port p).optic = some m) ∧
      (120 < m.advPower → ∃ t, exec (.opticsInsert p m) s = .next t ∧ (t.port p).state = q.state ∧ (t.port p).held = true ∧
        (t.port p).optic = some m ∧ Raised t 0x0011 1 0 [(32, 1, p.num), (34, 2, m.advPower)])) ∧
    (q.optic.isSome = true → ∃ t, exec (.opticsRemove p) s = .next t ∧ (t.port p).optic = none ∧
      (q.state = .up ∨ q.state = .training ∨ q.state = .down → (t.port p).state = .off)) ∧
    (∀ ns, q.state = .up → ∃ t, exec (.linkFault p ns) s = .next t ∧ (t.port p).state = .down ∧ (t.port p).leftUp = some ns ∧
      ∀ f, (s.fn f).state ≠ .absent → s.uses f p = true → (f, p, s.bell.now) ∈ t.net.failover) ∧
    (q.state = .training → s.portsLive = true → (∃ t, exec (.trainingAttemptEnd p true) s = .next t ∧ (t.port p).state = .up ∧ (t.port p).fails = 0) ∧
      ∃ t, exec (.trainingAttemptEnd p false) s = .next t ∧ (t.port p).fails = q.fails + 1 ∧
        (t.port p).state = if q.fails + 1 ≥ 8 then .failed else .down) ∧
    (q.state = .down → s.portsLive = true → ∃ t, exec (.downRetry p) s = .next t ∧ (t.port p).state = .training) ∧
    ∀ f g, Manages s f g →
      (s.portEnabled p = true → (s.port p.other).state = .up → ∃ t, exec (.portEnable (.rdma f g) p false) s = .next t ∧
        (t.port p).state = .off ∧ t.portEnabled p = false) ∧
      (s.portEnabled p = false → q.state = .off → q.usable = true → s.portsLive = true →
        ∃ t, exec (.portEnable (.rdma f g) p true) s = .next t ∧ (t.port p).state = .training ∧ t.portEnabled p = true) ∧
      (s.portEnabled p = true → q.state = .failed → q.usable = true → s.portsLive = true → ∃ t, exec (.portRetrain (.rdma f g) p) s = .next t ∧
        (t.port p).state = .training ∧ (t.port p).fails = 0)

/-- Frames an UP port takes (R60, R63 to R65, R67 to R70): PFC pauses and resumes priorities; the watchdog takes the port down and
raises PFC_STORM; PAUSE and frames it may not take are dropped and counted; ARP, Neighbor Solicitation and echo requests for its
own addresses are answered, echoes up to 1,000 a second; a next hop being resolved is learned. -/
def Obligations.Frames : Prop :=
  ∀ (s : State) (p : PortId), (s.port p).state = .up →
    let q := s.port p
    let dropped := s.setPort p fun q => { q with rxDrop := min (q.rxDrop + 1) (2 ^ 64 - 1) }
    (∀ (en : BitVec 8) (quanta : List (BitVec 16)), ∃ paused, (exec (.pfcFrame p en quanta) s = .next ((s.setPort p fun q =>
      { q with paused := paused }).unpause p)) ∧ ∀ k < 8, k ∈ paused ↔ if en.getLsbD k = true then quanta.getD k 0 ≠ 0 else k ∈ q.paused) ∧
    (∀ k, k ∈ q.paused → ∃ t, exec (.pfcWatchdog p k) s = .next t ∧ (t.port p).state = .down ∧
      Raised t 0x0013 1 0 [(32, 1, p.num), (33, 1, k)]) ∧
    exec (.pauseFrame p) s = .next dropped ∧
    (∀ vid, s.vlanOk p vid = false → (∀ a b, exec (.arpRequest p vid a b) s = .next dropped) ∧
      (∀ a b, exec (.neighborSolicitation p vid a b) s = .next dropped) ∧
      ∀ v6 a b d, exec (.icmpEchoRequest p vid v6 a b d) s = .next dropped) ∧
    (∀ vid, s.vlanOk p vid = true →
      (∀ a b, exec (.arpRequest p vid a b) s = .next (if s.ownV4 p a = true then s.tell (.arpReply p a b) else s)) ∧
      (∀ a b, exec (.neighborSolicitation p vid a b) s = .next (if s.ownV6 p a = true then s.tell (.neighborAdv p a b) else s)) ∧
      ∀ v6 a b d, (if v6 = true then s.ownV6 p a else s.ownV4 p (a.setWidth 32)) = true →
        exec (.icmpEchoRequest p vid v6 a b d) s = .next (if q.echoes < 1000 then
          (s.setPort p fun q => { q with echoes := q.echoes + 1 }).tell (.echoReply p b d) else s)) ∧
    (∀ why, why ∈ [DropWhy.serviceTag, .otherVlan, .ipv4Fragment, .ipv4Options, .ipv6Extension, .icrc] →
      exec (.frameDiscard p why) s = .next dropped) ∧
    (∀ n, s.mtu p < n → exec (.frameDiscard p (.overMtu n)) s = .next dropped) ∧ exec (.frameDiscard p .lldp) s = .next s ∧
    ∀ a m, a ∈ q.resolving → exec (.nextHopResolution p a m) s = .next (s.setPort p fun q =>
      { q with resolving := q.resolving.erase a, nextHop := (a, m) :: q.nextHop.filter fun e => e.1 ≠ a })

/-- The PTP time input (R87, R88, R330, R331): each transmitter's last Announce is kept, and the best one heard in the domain is
listened to; its Sync on the port in use is measured and
answered by a Delay_Req, the eighth in a row locks the calendar, and an offset above the limit steps it; the path delay is kept;
Sync missing for 3 s passes to the other port under SOURCE 2 or to HOLDOVER, and port A takes over again after 60 s. -/
def Obligations.TimeInput : Prop :=
  ∀ (s : State) (p : PortId),
    let c := s.clk
    let u := s.net.ptpInUse
    (∀ a : Announce, (s.port p).state = .up → a.domain = s.net.ptpDomain → ∃ t b, exec (.ptpAnnounce p a) s = .next t ∧
      (∀ x, x ∈ (t.port p).ptpHeard ↔ x = a ∨ (x ∈ (s.port p).ptpHeard ∧ x.src ≠ a.src)) ∧
      t.transmitter p = some b ∧ b ∈ (t.port p).ptpHeard ∧ b.domain = a.domain ∧
      ∀ x ∈ (t.port p).ptpHeard, x.domain = a.domain → b.rank < x.rank ∨ (b.rank = x.rank ∧ b.src ≤ x.src)) ∧
    (∀ (src : Nat) (off : Int), s.listens p src s.net.ptpDomain = true → p = u →
      ∃ t, exec (.ptpSync p ⟨src, s.net.ptpDomain⟩ off) s = .next t ∧ (t.port p).lastSync = some s.bell.now ∧ t.clk.offset = off ∧
        t.clk.syncs = c.syncs + 1 ∧ t.told (.delayReq p) = true ∧ (c.st ≠ 2 → c.syncs + 1 < 8 → t.clk.st = c.st ∧ t.calendar = s.calendar) ∧
        (c.st ≠ 2 → 8 ≤ c.syncs + 1 → t.clk.st = 2 ∧ (1000000 < off.natAbs → t.calendar = s.calendar - off * 2 ^ 32 / 1000000000)) ∧
        (c.st = 2 → t.clk.st = 2 ∧ (1000000000 < off.natAbs → t.calendar = s.calendar - off * 2 ^ 32 / 1000000000))) ∧
    (∀ src d, s.listens u src s.net.ptpDomain = true → exec (.ptpDelayResp u ⟨src, d⟩) s =
      .next { s with clk := { c with delay := d } }) ∧
    (s.noSync u = true → ∃ t, exec .ptpSyncLoss s = .next t ∧ (t.port u).ptpHeard = [] ∧
      (if s.net.ptpSource = 2 ∧ (s.transmitter u.other).isSome = true then t.net.ptpInUse = u.other ∧ t.clk.st = c.st
        else t.net.ptpInUse = u ∧ t.clk.st = if c.st = 2 then 3 else c.st)) ∧
    ∀ b, s.portA.syncSince = some b → s.net.ptpSource = 2 → u = .B → s.noSync .A = false → 60000000000 ≤ s.sinceBell b →
      ∃ t, exec .ptpSourceReturn s = .next t ∧ t.net.ptpInUse = .A ∧ t.clk.st = c.st

/-- Transport errors (R71, R74, R75, R77, R79, R152): a request Table 3.2 does not admit is answered with a NAK and its queue pair goes
to ERROR, as does one whose operation the host end refuses, whose command then ends with HOST_ACCESS_FAULT; a timeout or RNR NAK
sends again while the retries last, and then is ERROR; failover, at the boundary, issues every operation again on a port that carries it. -/
def Obligations.TransportErrors : Prop :=
  ∀ (s : State) (f : Nat) (p : PortId) (ev : Bool),
    let tries := fun (u : State) k => lookD (u.fn f).qpTries 0 k
    let k := 2 * p.num + b01 ev
    (∀ q, s.respondsOn f p ev = true → ∃ t, exec (.unsupportedRequestNak f ⟨p, ev⟩ q) s = .next t ∧ (t.fn f).qpState p ev = .error ∧
      t.told (.nak p f (decide (q = .access))) = true ∧ (f, p, s.bell.now) ∈ t.net.failover) ∧
    (∀ n o, (s.onQp f p n.ev)[n.opIndex]? = some o →
      ∃ t, exec (.remoteNak f p n) s = .next t ∧ (t.fn f).qpState p n.ev = .error ∧
        ∀ r c q k, o.kind = .data r → s.cmd r = some c → s.sq r.fn r.sq = some q → s.cq r.fn q.cq = some k → r.wf = true →
          orderWaits q.cmds c = false → Posts s t r HOST_ACCESS_FAULT 0 none) ∧
    (s.carries f p ev = true → s.onQp f p ev ≠ [] →
      (tries s k < qpRetry ((s.fn f).qpWord p ev) → ∃ t, exec (.ackTimeout f p ev) s = .next t ∧ tries t k = tries s k + 1 ∧
        t.told (.resend p f ev) = true ∧ t.rdma = s.rdma) ∧
      (qpRetry ((s.fn f).qpWord p ev) ≤ tries s k → ∃ t, exec (.qpRetryExhausted f p ev) s = .next t ∧
        (t.fn f).qpState p ev = .error ∧ (f, p, s.bell.now) ∈ t.net.failover)) ∧
    (let r := qpRnr ((s.fn f).qpWord p true)
     s.carries f p true = true → s.onQp f p true ≠ [] → ∃ t, exec (.rnrNak f p) s = .next t ∧
      (r = 7 ∨ tries s (4 + p.num) < r → t.told (.resend p f true) = true ∧ (t.fn f).qpState p true = .rts) ∧
      (r ≠ 7 → r ≤ tries s (4 + p.num) → (t.fn f).qpState p true = .error)) ∧
    ((∃ e ∈ s.net.failover, s.failDue f e = true) → ∃ t, exec (.failover f) s = .next t ∧
      (∀ e ∈ t.net.failover, s.failDue f e = false) ∧
      ∀ o ∈ t.rdma, o.fn = f → ∀ q, o.port = some q → s.carries f q o.ev = true)

/-- Queue pairs (R73, R81, R82, R579, R604): an accepted connection request takes a manager's queue pair to RTR with the fields it
brings, RTU takes it to RTS, DREQ to RESET; a manager with SEM[0] takes a tenant's queue pair through INIT, RTR and RTS, or back to
RESET; a marked packet is answered by one CNP in 8 µs, and a CNP lowers the rate by an eighth at the next update. -/
def Obligations.QueuePairs : Prop :=
  ∀ (s : State) (p : PortId) (f : Nat) (ev : Bool),
    let g := s.fn f
    let w := g.qpWord p ev
    let c := lookD g.cc Cc.reset (2 * p.num + b01 ev)
    let cc := s.portWord p 0x168
    ((s.port p).state = .up → f < 2 →
      (∀ q m, q.qpn = qpNumber f ev → q.sid = s.portWord p 0x160 → s.cmMtu p q.mtu q.src = some m → g.qpState p ev = .reset →
        g.qpState p (!ev) = .reset ∨ g.addr p = q.src → ∃ t, exec (.cmReq p q) s = .next t ∧ (t.fn f).addr p = q.src ∧
          (t.fn f).qpWord p ev = qpWordOf q.rqpn.toNat q.psn.toNat .rtr m (max 8 (min 20 q.timeout)) (min 7 q.retry) (min 7 q.rnr) ∧
          t.told (.cmRep p q.qpn q.psn.toNat) = true) ∧
      (g.qpState p ev = .rtr → ∃ t, exec (.cmRtu p (qpNumber f ev)) s = .next t ∧ (t.fn f).qpState p ev = .rts) ∧
      ∃ t, exec (.cmDreq p (qpNumber f ev)) s = .next t ∧ (t.fn f).qpState p ev = .reset ∧ t.told (.cmDrep p (qpNumber f ev)) = true) ∧
    (∀ m q, Manages s m q → 2 ≤ f → f < 4096 → g.state ≠ .absent →
      (∀ word addr, g.qpState p ev = .reset → (g.qpState p (!ev)).fixed = false → qpMtu word ≠ 3 → 8 ≤ qpTimeout word →
        qpTimeout word ≤ 20 → ∃ t, exec (.qpToInit (.rdma m q) f p ev word addr) s = .next t ∧
          (t.fn f).qpWord p ev = withQpState word .init ∧ (t.fn f).addr p = addr) ∧
      (qpMtu w ≠ 3 → 8 ≤ qpTimeout w → qpTimeout w ≤ 20 →
        (g.qpState p ev = .init → g.addr p ≠ 0 → mtuNeeds (qpMtu w) (g.addr p) ≤ s.mtu p →
          ∃ t, exec (.qpToRtr (.rdma m q) f p ev) s = .next t ∧ (t.fn f).qpState p ev = .rtr) ∧
        (g.qpState p ev = .rtr → ∃ t, exec (.qpToRts (.rdma m q) f p ev) s = .next t ∧ (t.fn f).qpState p ev = .rts) ∧
        (g.qpState p ev ≠ .reset → ∃ t, exec (.qpToReset (.rdma m q) f p ev) s = .next t ∧ (t.fn f).qpState p ev = .reset))) ∧
    (∀ ns, (s.port p).state = .up → g.qpState p ev = .rtr ∨ g.qpState p ev = .rts →
      (∀ b, look s.net.lastCnp (f * 4 + 2 * p.num + b01 ev) = some b → b + 8000 ≤ ns) →
      ∃ t, exec (.ceMarkedPacket f p ev ns) s = .next t ∧ t.told (.cnp p (qpRqpn w)) = true ∧
        look t.net.lastCnp (f * 4 + 2 * p.num + b01 ev) = some ns) ∧
    (g.state ≠ .absent →
      ((s.port p).state = .up → ∃ t, exec (.cnpArrival f ⟨p, ev⟩) s = .next t ∧
        lookD (t.fn f).cc Cc.reset (2 * p.num + b01 ev) = { c with cnp := true }) ∧
      ∃ t d, exec (.ccRateUpdate f ⟨p, ev⟩) s = .next t ∧ lookD (t.fn f).cc Cc.reset (2 * p.num + b01 ev) = d ∧
        (c.cnp = true → d = ⟨max (c.rate - c.rate / 8) (wbits cc 9 0 : Nat), c.rate, 4, 0, false⟩) ∧
        (c.cnp = false → 0 < c.hold → d = { c with hold := c.hold - 1 }) ∧
        (c.cnp = false → c.hold = 0 → c.rate < c.target → d.rate = min (c.rate + (c.target - c.rate) / 2 + (wbits cc 25 16 : Nat)) c.target))

/-! ### The set-up window, the service buses, DRAM and loft -/

/-- Writes to the set-up window (R118, R120, R435, R440, R477, R509, R572, R575, R581): a message is applied whole or latches SETUP_ERR
and changes nothing else, the first failure with its fields; a manager with SEM[0] clears the latch, sets SVE_CTRL, TRC_DISP_CTRL, the
scrubber, HLT_STATE and its own admin rings; a scrub ends with its summary. -/
def Obligations.SetupWrites : Prop :=
  ∀ (s : State) (f : Nat) (p : PortId), Manages s f p →
    let w := Writer.rdma f p
    (∀ off b, off + b.length ≤ 2 ^ 24 → (s.messageFails w off b = none → exec (.setupWrite w off b) s = .next (s.applyMessage off b)) ∧
      ∀ c, s.messageFails w off b = some c → ∃ x, exec (.setupWrite w off b) s = .next { s with err := x } ∧
        (s.err.err = false → x = ⟨true, c, false, p, f, 1, off, b.length⟩) ∧
        (s.err.err = true → x = { s.err with count := min (s.err.count + 1) (2 ^ 32 - 1) })) ∧
    exec (.setupErrClear w) s = .next { s with err := SetupErr.clear } ∧
    (∀ m, s.sieve.owner ≠ 1 → s.sieve.owner < 4096 → (∀ e ∈ s.fns, e.2.res.sieve = 0) → (∀ e ∈ s.sieve.arr, e.2.valid = false) →
      exec (.sveModeWrite w m) s = .next { s with sieve := { s.sieve with mode := m } }) ∧
    (∀ o, o ≠ 1 → o < 4096 → s.sieve.owner < 4096 → s.sieve.owner = 0 ∨ (s.fn s.sieve.owner).state = .quiesced →
      o = 0 ∨ (s.fn o).state ≠ .absent → exec (.sveOwnerWrite w o) s = .next { s with sieve := { s.sieve with owner := o } }) ∧
    (∀ v : W64, let n := bits v.toNat 12 8
      bit v.toNat 0 = true → 16 ≤ n → n ≤ 24 → s.disp.en = false → 16 * 2 ^ n ≤ s.plainFree → ∃ t, exec (.trcDispCtrlWrite w v) s = .next t ∧
        t.disp.en = true ∧ t.disp.sizeLog = n ∧ t.disp.recs = [] ∧ t.disp.cnt = 0) ∧
    (s.edc.busy = false → scrubOk s.edc.start s.edc.end_ = true →
      exec (.scrubGo w) s = .next { s with edc := { s.edc with busy := true } }) ∧
    (∀ x, s.edc.busy = true → ∃ t, exec (.scrubComplete x) s = .next t ∧ t.edc.busy = false ∧ t.edc.fin = true ∧
      t.edc.sum.length = 4 ∧ t.edc.sum.getD 3 0 = BitVec.ofNat 64 s.bell.now ∧
      (wbits s.edc.start 47 44 = 0 → let n := wbits s.edc.start 43 40 * 3 + wbits s.edc.start 35 34
        (t.rank n).ce = min ((s.rank n).ce + x.ce1) (2 ^ 32 - 1))) ∧
    exec (.alertClear w) s = .next { s with health := { s.health with alert := false } } ∧
    (∀ on, exec (.locate w on) s = .next { s with health := { s.health with locate := on } }) ∧
    ∀ (q : Sq) (v : W64), s.sq f 0 = some q → q.cmds = [] → q.base.toNat % 4096 = 0 → v.toNat % 4096 = 0 →
      ∃ t q', exec (.adminRingWrite w f (toLe v.toNat 8)) s = .next t ∧ t.sq f 0 = some q' ∧ q'.base = v ∧
        (v ≠ q.base → f ∈ t.net.adminDue)

/-- SMBus and TAP (R523, R524, R547, R548, R584, R585): the SMBus sets its offset, reads four words of the window and writes one message
at it, refuses a bad PEC and answers an alert response; in FACTORY and RETURN the TAP shifts out the code, boundary register, challenge
and status, and a valid debug token opens maker debug; elsewhere it is dead. -/
def Obligations.ServiceBuses : Prop :=
  ∀ s : State,
    (s.smbServed = true →
      (∀ b, b.length = 3 → exec (.smbusSetOffset true b) s = .next (if le b 0 3 % 8 = 0 then { s with smbOff := le b 0 3 }
        else s.latch .smbus 6 (le b 0 3) 3)) ∧
      (∃ b, exec .smbusRead s = .next ({ s with smbOff := (s.smbOff + 32) % 2 ^ 24 }.tell (.smbData b)) ∧ b.length = 32 ∧
        ∀ i < 4, le b (8 * i) 8 = (s.smbusWord ((s.smbOff + 8 * i) % 2 ^ 24)).toNat) ∧
      (∀ b, b.length ≤ 32 → (s.messageFails .smbus s.smbOff b = none →
        exec (.smbusWrite true b) s = .next (s.applyMessage s.smbOff b)) ∧ ∀ c, s.messageFails .smbus s.smbOff b = some c →
          exec (.smbusWrite true b) s = .next (s.latch .smbus c s.smbOff b.length)) ∧
      (∀ b, exec (.smbusSetOffset false b) s = .next (s.tell .smbNack) ∧ exec (.smbusWrite false b) s = .next (s.tell .smbNack)) ∧
      (s.health.alert = true → exec .smbusAlertResponse s = .next (s.tell (.smbAlert 0xD4)))) ∧
    (let shifts := fun (i : Instr) (ir : Byte) (b : Bytes) (bnd : Bytes) =>
        exec i s = .next ({ s with tap := { s.tap with ir := ir, boundary := bnd } }.tell (.tap b))
     s.pwr.on = true → s.life.state = .factory ∨ s.life.state = .return_ →
      (∃ t v, exec .tapIdcode s = .next t ∧ t.tap.ir = 0x01 ∧ t.told (.tap (toLe v 4)) = true) ∧
      (∀ o, shifts (.tapExtest o) 0x00 s.tap.boundary o) ∧ (∀ i o, shifts (.tapSamplePreload i o) 0x02 i o) ∧
      shifts .tapBypass 0xFF [] s.tap.boundary ∧ shifts .tapDbgChal 0x30 s.challenge s.tap.boundary ∧
      ∀ b, let n := le b 0 4
        ∃ t, exec (.tapDbgToken b) s = .next t ∧ t.tap.ir = 0x31 ∧ t.told (.tap (toLe s.tap.status.toNat 4)) = true ∧
          (n ≤ 8192 → n + 4 ≤ b.length → s.tokenCause true (slice b 4 n) = 0 → t.life.debugOpen = true ∧ t.tap.status = 0x100) ∧
          (8192 < n → t.life.debugOpen = s.life.debugOpen)) ∧
    (s.life.state = .sealed_ ∨ s.life.state = .scrapped → ∀ b i o, ∀ c ∈ [Instr.tapIdcode, .tapExtest o, .tapSamplePreload i o,
      .tapBypass, .tapDbgChal, .tapDbgToken b], exec c s = .next s)

/-- DRAM (R467, R469, R473, R476, R478 to R482, Table 17.3): an ACTIVE rank with small eyes retrains; an ACTIVE rank that fails drains
into a spare, or retires and its share waits to be mirrored again; migration and re-mirror end; a lost channel retires its ranks;
an uncorrectable word is poisoned, and ends the job that reads it; a watermark batch is drained where one was due, and no further
one in the bell; a remap uses one entry; a patrol pass adds to the counts and poisons hamlet data it could not correct. -/
def Obligations.DramRanks : Prop :=
  ∀ s : State,
    let st := fun (u : State) n => (u.rank n).st
    (∀ c < 12, (c ∈ s.bell.batch → c ∉ s.bell.drained → ∃ t, exec (.watermarkBatch c) s = .next t ∧ c ∈ t.bell.drained ∧
        look t.dram.wq c = some (min (lookD s.dram.wq 0 c) (16 + lookD s.bell.shorten 0 c))) ∧
      (c ∉ s.bell.batch ∨ c ∈ s.bell.drained → exec (.watermarkBatch c) s = .next s)) ∧
    (∀ n < 36,
      (∀ r w m, st s n = .active → s.recentreDue n = true → ∃ t, exec (.rankRecentre n r w m) s = .next t ∧ (t.rank n).rdEye = min 255 r ∧
        (t.rank n).wrEye = min 255 w ∧ (if r < 52 ∨ w < 52 ∨ m < 26 then st t n = .retraining ∧ (look t.dram.detour (n / 6)).isSome = true
          else st t n = .active)) ∧
      (∀ r w, st s n = .retraining → (64 ≤ r → 64 ≤ w → ∃ t, exec (.rankRetrainResult n (r, w)) s = .next t ∧ st t n = .active) ∧
        (r < 64 ∨ w < 64 → ∃ t, exec (.rankRetrainResult n (r, w)) s = .next t ∧ st t n = .retired ∧
          (∀ k, s.spareOf n = some k → st t k = .filling ∧ (t.rank k).partner = some n) ∧
          (s.spareOf n = none → n ∈ t.dram.remirror ∧ t.dram.plainLost = s.dram.plainLost + 672))) ∧
      (st s n = .active → ∃ t, exec (.rankMigrationStart n) s = .next t ∧
        (∀ k, s.spareOf n = some k → st t n = .draining ∧ st t k = .filling ∧ (t.rank k).partner = some n) ∧
        (s.spareOf n = none → st t n = .retired ∧ n ∈ t.dram.remirror)) ∧
      ∀ k, st s n = .filling → (s.rank n).partner = some k → k ≠ n → (∀ j < 36, j ≠ n → (s.rank j).partner ≠ some n) →
        ∃ t, exec (.rankMigrationComplete n) s = .next t ∧ st t n = .active ∧ (t.rank n).partner = none ∧ st t k = .retired) ∧
    (∀ p < 6, ((∃ n ∈ s.dram.remirror, n / 6 = p) → ∃ t, exec (.remirror p) s = .next t ∧ (∀ n ∈ t.dram.remirror, n / 6 ≠ p) ∧
        s.dram.plainLost + 320 ≤ t.dram.plainLost) ∧
      ((∀ n ∈ s.dram.remirror, n / 6 ≠ p) → (∀ k < 6, st s (6 * p + k) ≠ .retraining) → ∃ t, exec (.detourApply p) s = .next t ∧
        look t.dram.detour p = none)) ∧
    (∀ c < 12, c ∉ s.dram.chanOut → ∃ t, exec (.dramChannelLoss c) s = .next t ∧ c ∈ t.dram.chanOut ∧
      ∀ k < 3, st t (3 * c + k) = .retired) ∧
    (∀ x : DramHit, x.rank < 36 → x.addr < 2 ^ 34 → ∃ t, exec (.dramUncorrectable x) s = .next t ∧
      (∀ j, x.mirrored = false → x.job = some j → t.dram.poison = s.dram.poison ∧ (x.read = true → look t.jobs j = none) ∧
        (x.read = false → ∀ y, look s.jobs j = some y → ∃ z, look t.jobs j = some z ∧ x.winOff / 8 ∈ z.poison)) ∧
      (x.mirrored = false → x.job = none → x.rank * 2 ^ 31 + x.addr / 8 ∈ t.dram.poison) ∧
      (x.mirrored = true → t.dram.poison = s.dram.poison)) ∧
    (∀ r a, r < 36 → a < 2 ^ 34 → s.remapUsed (r / 3) < 32 → ∃ t, exec (.remap (.dram r a)) s = .next t ∧
      lookD t.dram.remap 0 r = lookD s.dram.remap 0 r + 1 ∧ (t.rank r).ce = min ((s.rank r).ce + 1) (2 ^ 32 - 1) ∧ st t r = st s r) ∧
    (∀ m a, m < 2 ^ 16 → macroOk m = true → lookD s.dram.sramRemap 0 m < 4 → ∃ t, exec (.remap (.sram m a)) s = .next t ∧
      lookD t.dram.sramRemap 0 m = lookD s.dram.sramRemap 0 m + 1) ∧
    ∀ x, (∀ e ∈ x.byRank, e.1 < 36) →
      let u := x.shares.foldl (fun s p => s.setJob p.job fun j => { j with sharePoison := (p.hamlet, p.word) :: j.sharePoison }) s
      exec (.scrubPass x) s = .next { u.corrected x.byRank with edc := { s.edc with
      ce := min (s.edc.ce + (x.ce1 + x.ce2)) (2 ^ 64 - 1), ue := min (s.edc.ue + x.ue) (2 ^ 64 - 1)
      passBell := if x.dramEnd = true then s.bell.now else s.edc.passBell } }

/-- The loft (R484 to R489, R498, Table 18.2): programming a word of an unprotected sector ANDs its 80 bits with the encoding; an erase
begins on an idle bank and ends with every bit of its sector 1; a busy bank refuses with LOFT_BUSY, a protected sector is counted;
an abort leaves the bank idle and its image unverified; the patrol remaps a failing sector to a spare. -/
def Obligations.LoftOperations : Prop :=
  ∀ (s : State) (k : Nat), k < 8704 → s.pwr.on = true →
    let b := loftBank k
    let refused := s.setLoft fun l => { l with wpViol := min (l.wpViol + 1) 65535, last := .protected_ }
    (look s.loft.busy b = none →
      (k ∈ s.loft.clear → (∀ w v, w < 512 → ∃ t, exec (.loftWordProgram k w v) s = .next t ∧ t.loft.busy = s.loft.busy ∧
          (loftDecode (s.loftBits k w) ≠ .erased → t.loftBits k w = s.loftBits k w &&& word80 v false) ∧
          (s.loftBits k w = BitVec.allOnes 80 → ones 80 (word80 v false) < 78 → t.loft.last = .ok ∧ t.loftBits k w = word80 v false)) ∧
        ∀ ok, ∃ t, exec (.loftSectorErase k ok) s = .next t ∧ look t.loft.busy b = some k ∧ t.loft.words = s.loft.words) ∧
      (k ∉ s.loft.clear → (∀ w v, w < 512 → exec (.loftWordProgram k w v) s = .next refused) ∧
        ∀ ok, exec (.loftSectorErase k ok) s = .next refused)) ∧
    (∀ j, look s.loft.busy b = some j →
      (∀ w v, w < 512 → exec (.loftWordProgram k w v) s = .next (s.setLoft fun l => { l with last := .loftBusy })) ∧
      (∀ ok, j ≠ k → exec (.loftSectorErase k ok) s = .next (s.setLoft fun l => { l with last := .loftBusy })) ∧
      (j = k → lookD s.loft.erases 0 k + 1 < 90000000 → ∃ t, exec (.loftSectorErase k true) s = .next t ∧ look t.loft.busy b = none ∧
        t.loft.last = .ok ∧ lookD t.loft.erases 0 k = lookD s.loft.erases 0 k + 1 ∧
        (s.loft.waiting = [] → ∀ w < 512, t.loftBits k w = BitVec.allOnes 80)) ∧
      ∃ t, exec (.loftEraseAbort b) s = .next t ∧ look t.loft.busy b = none ∧ t.loft.last = .aborted ∧
        (b < 2 → (t.loft.image (decide (b = 1))).ok = false)) ∧
    (s.boot.ready = true → look s.loft.busy b = none → k ∉ s.loft.gone → k ∉ s.loft.stuck →
      (s.loftFails k = true → 0 < s.loftLeft b → ∃ t, exec (.loftPatrol k) s = .next t ∧ k ∈ t.loft.remapped ∧
        Raised t 0x0061 0 0 [(32, 2, k), (34, 1, s.loftLeft b - 1)]) ∧
      (s.loftFails k = false → exec (.loftPatrol k) s = .next s))

/-! ### Health, power, boots, bells -/

/-- Health (R502 to R506, Table 19.1): an evaluation after READY records the attention conditions that hold and adds the replacement
conditions that hold to those that held; the health state follows; a change sets ALERT and raises HEALTH_STATE, a new reason raises
REPLACE_REQUESTED. -/
def Obligations.HealthEvaluated : Prop :=
  ∀ s : State, s.boot.ready = true → s.pwr.on = true →
    let h := s.health
    let attn := BitVec.ofNat 32 s.attnNow
    let why := h.reasons ||| BitVec.ofNat 5 s.reasonsNow
    let st := if h.state = 2 ∨ why ≠ 0 then 2 else if attn ≠ 0 then 1 else 0
    ∃ t, exec .healthEvaluation s = .next t ∧ t.health.state = st ∧ t.health.attn = attn ∧ t.health.reasons = why ∧
      t.health.alert = (h.alert || decide (st ≠ h.state)) ∧ t.health.locate = h.locate ∧
      (st ≠ h.state → Raised t 0x0001 1 0 [(32, 1, st), (33, 1, h.state), (36, 4, attn.toNat), (40, 1, why.toNat)]) ∧
      (why ≠ h.reasons → Raised t 0x0002 2 0 [(40, 1, why.toNat), (44, 4, t.health.wards.toNat)])

/-- Power states (R311, R333, R530 to R535): after its hold time an admitted state one deeper is entered, Q2 with its energy, Q3 by way
of a checkpoint and with every partial zone parked; a trigger or due work wakes the module, and it then stands in Q0; a measurement
gives a new figure, and the one before stands beside it until it ends; a heartbeat keeps the time. -/
def Obligations.PowerStates : Prop :=
  ∀ s : State, s.serving = true →
    let n := s.pwr.cur
    (s.pwr.waking = false → s.heldFor (n + 1) = true → s.admits (n + 1) = true →
      (n = 0 ∨ (n = 1 ∧ s.q2Energy ≤ s.pwr.usable) ∨ n = 3 → exec .idleHoldExpiry s = .next (s.setPwr fun p => { p with cur := n + 1 })) ∧
      (n = 2 → s.pwr.entering = false → ∃ t, exec .idleHoldExpiry s = .next t ∧ t.pwr.entering = true ∧ t.pwr.cur = 2)) ∧
    (s.pwr.entering = true → (∀ n, s.pwr.entryCkpt = some n → n ≤ s.media.ckptDone → s.media.ckpt = none → s.allParked = true →
        ∃ t, exec .q3Entry s = .next t ∧ t.pwr.cur = 3 ∧ t.pwr.entering = false ∧ t.zones = s.zones) ∧
      (s.allParked = false → exec .q3Entry s = .next s)) ∧
    (∀ b, (b = .unadmitted → s.admits n = false) → n ≠ 0 → ∃ t, exec (.wake b) s = .next t ∧ t.pwr.waking = true ∧
      t.pwr.entering = false ∧ t.pwr.cur = n) ∧
    (∀ b, 2 ≤ n → s.workDue b = true → ∃ t, exec (.internalWake b) s = .next t ∧ t.pwr.waking = true ∧ t.pwr.cur = n) ∧
    (∀ eyes, s.pwr.waking = true → (∀ c ∈ eyes, chanOk c = true) → ∃ t, exec (.wakeComplete eyes) s = .next t ∧ t.pwr.cur = 0 ∧
      t.pwr.waking = false) ∧
    (∀ e, ∃ t, exec (.capacitanceMeasurement e) s = .next t ∧ (s.pwr.measuring = false → s.capDue = true → t.pwr.measuring = true ∧
        t.pwr.prevUsable = s.pwr.usable ∧ t.pwr.usable = e) ∧
      (s.pwr.measuring = true → t.pwr.measuring = false ∧ t.pwr.usable = e ∧ t.pwr.capAt = some s.poweredNs)) ∧
    (s.bell.now % 2 ^ 24 = 0 → ∃ t, exec .heartbeat s = .next t ∧ t.pwr.lastBeat = some s.calendar)

/-- The power-loss sequence (R318 to R321, R592, R594): the input's fall, PWR_DISABLE, or a disconnect stops service after READY, with
the shutdown record written; the dump is fixed; program slots run in turn, each with the cellar word lines of dies that are free in it;
after the last, or the twelfth, the loads switch off, and the dump is complete where its word lines are programmed and the power lasted. -/
def Obligations.PowerLoss : Prop :=
  ∀ s : State,
    let stops := fun (i : Instr) (standby cut : Bool) => ∃ t, exec i s = .next t ∧ t.pwr.loss = some ⟨0, 0, [], standby, cut⟩ ∧
      t.portA.state = .off ∧ t.portB.state = .off ∧ t.rdma = [] ∧ t.jobs = [] ∧ (∀ r, t.cmd r = none) ∧ t.pwr.lastShut = some s.calendar
    (s.pwr.on = true → s.boot.ready = true → s.pwr.loss = none → stops .inputFail false false ∧
      (∀ us, 20 ≤ us → stops (.pwrDisableAssert us) true false) ∧ ∀ b, stops (.inputOvervoltageOrBreaker b) false true) ∧
    (∀ us, 20 ≤ us → ∃ t, exec (.pwrDisableAssert us) s = .next t ∧ t.pwr.disable = true) ∧
    (s.pwr.on = true → s.boot.ready = false → s.pwr.loss = none → ∃ t, exec .inputFail s = .next t ∧ t.pwr.on = false) ∧
    (s.pwr.on = true → ∀ b, ∃ t, exec (.inputOvervoltageOrBreaker b) s = .next t ∧ t.pwr.cause = 1 ∧ t.pwr.latched = true) ∧
    ∀ l, s.pwr.loss = some l →
      (l.slot = 0 →
        let u := s.stopErases.noteMaps
        let n := dumpStripes (u.dumpBytes 0 0)
        ∃ t, exec .dumpPlan s = .next t ∧
          t.pwr.loss = some { l with slot := 1, last := u.slotsNeeded 0 0 false, todo := u.cellarTodo n } ∧
          t.pwr.dumps = s.pwr.dumps ++ [⟨u.nextDump, false, false, u.ledger, u.guards, u.dumpItems, [], n, []⟩]) ∧
      (l.slot ≠ 0 →
        let busy := if l.slot = 1 then (s.media.dies.filter fun e => e.2.op.isSome).map (·.1)
          else if l.slot ≤ 4 then s.homesDue.map fun w => dieNo w.die else []
        let u := if l.slot = 1 then s.settleDies else if l.slot ≤ 4 then s.homePrograms else s
        let left := (u.cellarSlot busy l).2.todo
        let ends := l.last ≤ l.slot ∧ (left = [] ∨ 12 ≤ l.slot)
        (¬ends → ∃ t, exec .programSlotEnd s = .next t ∧ t.pwr.loss = some { l with slot := l.slot + 1, todo := left } ∧
          t.pwr.on = s.pwr.on) ∧
        (ends → ∃ t, exec .programSlotEnd s = .next t ∧ t.pwr.on = false ∧ t.pwr.loss = none ∧
          t.boot.ready = false ∧ t.bell.now = 0 ∧ ∀ d ∈ t.pwr.dumps, d.seq + 1 = s.nextDump →
            d.complete = (left.isEmpty && (l.standby || decide (energyFor l.slot ≤ s.pwr.usable)))))

/-- Temperatures and contacts (R508, R600, Table 24.9): a threshold crossed is recorded with the rows it meets, and raises TEMPERATURE
once; a condition absent for 60 s clears; above 50 °C at the inlet or 115 °C at the junction the module disconnects; LAMP_REQ is
seen. -/
def Obligations.Temperatures : Prop :=
  ∀ s : State, s.health.temps.length = 4 →
    let hot := s.health.hot
    (s.pwr.on = true →
      (∀ p < 4, ∀ (x : Int) ds, (∀ d ∈ ds, d.wf = true) → ∃ t, exec (.temperature p x ds) s = .next t ∧ t.health.temps = s.health.temps.set p x ∧
        (∀ k, k ∈ t.health.hot ↔ k ∈ hot ∨ (p = 0 ∧ 40 < x ∧ k = 0) ∨ (p = 0 ∧ 45 < x ∧ k = 1) ∨ (p = 2 ∧ 80 < x ∧ k = 0) ∨
          (p = 2 ∧ (x < 0 ∨ 85 < x) ∧ k = 2)) ∧
        ((∃ k ∈ t.health.hot, k ∉ hot) → t.health.alert = true ∧ Raised t 0x0071 1 0 [(32, 1, p), (33, 1, (x % 256).toNat)]) ∧
        (p = 2 → x < 0 ∨ 85 < x → ∀ d ∈ ds, t.dieCold d = true)) ∧
      (∀ p < 4, ∀ x : Int, ∃ t, exec (.temperatureClear p x) s = .next t ∧ t.health.temps = s.health.temps.set p x ∧
        (∀ k ∈ t.health.hot, k ∈ hot) ∧ (p = 0 → x ≤ 45 → 1 ∉ t.health.hot) ∧
        (p = 2 → 0 ≤ x → x ≤ 85 → 2 ∉ t.health.hot ∧ t.pwr.coldDies = []) ∧ (4 ∈ hot → 4 ∈ t.health.hot)) ∧
      ∀ j (x : Int), (if j = true then 115 else 50) < x → ∃ t, exec (.thermalShutdown j x) s = .next t ∧ t.pwr.cause = 2 ∧ t.pwr.latched = true ∧
        (s.boot.ready = true → s.pwr.loss = none → t.pwr.loss = some ⟨0, 0, [], false, true⟩ ∧
          Raised t 0x0071 1 0 [(32, 1, b01 j), (33, 1, (x % 256).toNat)])) ∧
    (s.pwr.on = false → s.pwr.cause = 2 → ∀ x : Int, x < 40 → exec (.temperatureClear 0 x) s =
      .next (s.setPwr fun p => { p with latched := false })) ∧
    ∀ on, exec (.lampReq on) s = .next (s.setPwr fun p => { p with lampReq := on })

/-- Boots (R188, R227, R512, R557, R559, R561, R562, R592 to R595): power good, the release of PWR_DISABLE or RESET#, MODULE RESET and the
loss of too many control cores boot the module to READY where nothing stops it; a test that fails stops the boot with its step; a held
RESET# holds it at step 2. -/
def Obligations.Boots : Prop :=
  ∀ (s : State) (e : BootEnv),
    let good := s.pwr.on = false ∧ s.pwr.disable = false ∧ s.pwr.latched = false ∧ e.inputHeld = true
    (good → s.pwr.reset = false →
      (Bootable s e → ∃ t, exec (.powerGood e) s = .next t ∧ Booted s t e) ∧
      (e.wf = true → e.romOk = false → ∃ t, exec (.powerGood e) s = .next t ∧ t.boot.halted = some 2 ∧ t.boot.ready = false) ∧
      (e.wf = true → e.romOk = true → s.life.state ≠ .scrapped → s.chooseBank e.bankBad = none →
        ∃ t, exec (.powerGood e) s = .next t ∧ t.boot.halted = some 4 ∧ t.boot.ready = false)) ∧
    (good → s.pwr.reset = true → e.wf = true → ∃ t, exec (.powerGood e) s = .next t ∧ t.pwr.on = true ∧ t.boot.held = true ∧
      t.boot.step = 2 ∧ t.boot.ready = false) ∧
    (s.pwr.disable = true → s.pwr.on = false → e.inputHeld = true → s.pwr.cause ≠ 2 → s.pwr.reset = false → Bootable s e →
      ∃ t, exec (.pwrDisableRelease e) s = .next t ∧ Booted s t e ∧ t.pwr.disable = false) ∧
    (∀ us, 100 ≤ us → e.wf = true → s.pwr.disable = false → s.pwr.loss = none → s.pwr.reset = false →
      ∃ t, exec (.resetAssert us e) s = .next t ∧ t.pwr.reset = true ∧ t.pwr.on = s.pwr.on ∧
        (s.pwr.on = true → t.boot.held = true ∧ t.boot.step = 2 ∧ t.boot.ready = false ∧ t.rdma = [] ∧ t.jobs = [])) ∧
    (s.boot.held = true → s.pwr.on = true → s.boot.halted = none → Bootable s e → ∃ t, exec (.resetRelease e) s = .next t ∧
      t.boot.ready = true ∧ t.boot.step = 14 ∧ t.boot.held = false ∧ t.pwr.reset = false ∧ t.bell.boot = (s.bell.boot + 1) % 2 ^ 32) ∧
    (∀ r c, Startable s r 0x5B c → s.pwr.reset = false → Bootable s e → ∃ t, exec (.moduleReset r e) s = .next t ∧ Booted s t e) ∧
    ∀ n < 18, e.wf = true → s.boot.ready = true → s.pwr.loss = none →
      (0 < s.ctlSpares → ∃ t, exec (.controlCoreRetire n e) s = .next t ∧ t.ctlSpares = s.ctlSpares - 1 ∧ t.ctlCores = s.ctlCores ∧
        Raised t 0x0040 1 0 [(32, 1, 0xFF), (33, 1, n), (34, 1, 18 - s.ctlSpares)]) ∧
      (s.ctlSpares = 0 → 12 < s.ctlCores → exec (.controlCoreRetire n e) s = .next { s with ctlCores := s.ctlCores - 1 }) ∧
      (s.ctlSpares = 0 → s.ctlCores ≤ 12 → s.pwr.reset = false → Bootable s e → ∃ t, exec (.controlCoreRetire n e) s = .next t ∧
        Booted s t e)

/-- Bells (R37, R41, R42, R44, R46, R57, R86, R105, R311, R422, R440): a boundary raises the bell number by one, latches what was
measured, opens the next plan, brings deferred values into force and posts what waited for it; in the power-loss sequence it does no
more than count and measure (R320); a plan closes once, and places a watermark batch on each channel whose write queue has reached 48
lines; a read point begins the array reads of its channel, a suspended die begins its own; overruns are counted. -/
def Obligations.Bells : Prop :=
  ∀ s : State,
    let ovr := fun (u : State) n => lookD u.bell.ovr 0 n
    let up := fun n => min (n + 1) (2 ^ 32 - 1)
    (∀ e : BellEnv, s.pwr.on = true → s.pwr.loss.isSome = true → ∃ t, exec (.bellBoundary e) s = .next t ∧ t.bell.now = s.bell.now + 1 ∧
      t.pwr.usable = e.energy ∧ t.bell.closed = false) ∧
    (∀ e : BellEnv, s.pwr.on = true → s.pwr.loss = none → ∃ t, exec (.bellBoundary e) s = .next t ∧ t.bell.now = s.bell.now + 1 ∧ t.bell.closed = false ∧
      t.bell.inputMv = e.inputMv ∧ t.bell.flashPower = e.flashPower ∧ t.due = [] ∧
      t.dram.late = e.drainLate.map (·.1) ∧
      t.pwr.usable = e.energy ∧ t.bell.batch = s.bell.batchNext ∧ t.bell.drained = [] ∧
      t.sieve.active = s.sieve.mode ∧ t.disp.now = s.disp.place ∧ t.disp.place = [] ∧
      ((s.bell.now + 1) % 65536 = 0 → ∃ p, t.bell.stamps.head? = some p ∧ p.bell = s.bell.now + 1) ∧ t.bell.stamps.length ≤ max 8 s.bell.stamps.length ∧
      (∀ f, (s.fn f).state ≠ .absent → (t.fn f).eff = (s.fn f).res ∧ (t.fn f).knockDue = (s.fn f).knocked ∧ (t.fn f).knocked = false) ∧
      ∀ d c q k, s.due = [d] → s.net.adminDue = [] → s.cmd d.r = some c → s.sq d.r.fn d.r.sq = some q → s.cq d.r.fn q.cq = some k →
        d.r.wf = true → orderWaits q.cmds c = false → Posts s t d.r d.status d.result d.ledger) ∧
    (∀ late bad, s.pwr.on = true → s.pwr.loss = none → s.bell.closed = false → (∀ c ∈ late, chanOk c = true) → (∀ b ∈ bad, b.wf = true) →
      ∃ t, exec (.planClose late bad) s = .next t ∧ t.bell.closed = true ∧ (∀ c, c ∈ t.bell.batchNext ↔ ∃ e ∈ t.dram.wq, e.1 = c ∧ 48 ≤ e.2) ∧ t.bell.now = s.bell.now ∧ t.bell.fallbackNext = late ∧
        ovr t 2 = if late = [] then ovr s 2 else min (ovr s 2 + late.length) (2 ^ 32 - 1)) ∧
    (∀ c x, chanOk c = true → s.chanIdle c = false → s.media.slices = [x] → s.media.recons = [] → x.phase = .queued → x.cls = 1 → dieChan x.die = c →
      s.dieUnable x.die x.slot = false → (s.die x.die).op = none → lookD s.bell.reserved 0 x.die.ward + 40 ≤ 15000 →
      ∃ t, exec (.readPoint c) s = .next t ∧ { x with phase := .sensing } ∈ t.media.slices) ∧
    ∀ d o, d.wf = true → (s.die d).op = some o →
      (exec (.dieOpOverrun d) s = .next (s.overrun 0 1) ∧ ovr (s.overrun 0 1) 0 = up (ovr s 0)) ∧
      (o.suspending = true →
        (∀ x, s.media.slices = [x] → x.die = d → x.phase = .suspending → x.cls = 1 →
          lookD s.bell.reserved 0 d.ward + 40 ≤ 15000 → ∃ t, exec (.suspendResponse d) s = .next t ∧
          t.media.slices = [{ x with phase := .sensing }] ∧ (t.die d).op = some { o with suspending := false, suspended := true, suspAt := s.nowNs }) ∧
        (o.suspended = false → ∀ n, ∃ t, exec (.suspendLate d n) s = .next t ∧
          (t.die d).op = some { o with suspending := false, resumeNs := s.nowNs } ∧ ovr t 1 = up (ovr s 1)))

/-! ### Flash -/

/-- Flash channels (R270 to R273, R298, R304, Table 9.4): a re-centring takes the scan time the channel has left in the read point
(notes/assumptions/88.md); small eyes make an IN_SERVICE channel due for a retrain and retrain a spare; a
fault, or a due retrain that is admitted, begins one; an attempt that passes returns the channel to service, with up to four failed
positions as failed dies; the third that fails makes it FAILED with every member on it. -/
def Obligations.FlashChannels : Prop :=
  ∀ (s : State) (n : Nat), chanOk n = true →
    let c := s.chan n
    (∀ a b, c.st = .inService ∨ c.st = .spare → c.centred + 65536 ≤ s.bell.now → 0 < s.room n 7 → ∃ t, exec (.channelRecentre n a b) s = .next t ∧ (t.chan n).st = c.st ∧
      (t.chan n).rdEye = min 255 a ∧ (t.chan n).wrEye = min 255 b ∧ (t.chan n).centred = s.bell.now ∧ t.room n 7 = 0 ∧
      (min a b < 64 → (c.st = .inService → (t.chan n).due = true) ∧ (c.st = .spare → (t.chan n).trying = true))) ∧
    (c.st = .inService → ∃ t, exec (.channelFault n) s = .next t ∧ (t.chan n).st = .retraining ∧ (t.chan n).fails = 0 ∧
      (t.chan n).trying = true) ∧
    (c.st = .spare → ∃ t, exec (.channelFault n) s = .next t ∧ (t.chan n).st = .spare ∧ (t.chan n).trying = true) ∧
    (c.due = true → c.st = .inService → s.retrainAdmitted n = true → ∃ t, exec (.channelRetrainBegin n) s = .next t ∧
      (t.chan n).st = .retraining ∧ (t.chan n).due = false ∧ (t.chan n).trying = true) ∧
    (c.trying = false → 0 < c.fails → c.fails < 3 → c.st = .retraining ∨ c.st = .spare →
      ∃ t, exec (.channelRetrainRetry n) s = .next t ∧ (t.chan n).trying = true ∧ (t.chan n).st = c.st) ∧
    (c.trying = true → ∀ x : Train,
      let bad := (List.range 28).filter fun i => !((x.pos[i]?).map fun p => p.ident && 90 ≤ p.rd && 90 ≤ p.wr).getD false
      let live := bad.filter fun p => (s.memberOf (dieAt n p)).isSome
      (x.shared = true → live.length ≤ 4 → ∃ t, exec (.channelRetrainResult n x.shared x.pos) s = .next t ∧ (t.chan n).trying = false ∧
        (t.chan n).fails = 0 ∧ (c.st = .retraining → (t.chan n).st = .inService) ∧
        ∀ p ∈ bad, p ∈ (t.chan n).failedPos ∧ (t.die (dieAt n p)).failed = true) ∧
      (x.shared = false ∨ 4 < live.length → ∃ t, exec (.channelRetrainResult n x.shared x.pos) s = .next t ∧ (t.chan n).trying = false ∧
        (t.chan n).fails = c.fails + 1 ∧ (c.fails + 1 < 3 → (t.chan n).st = c.st) ∧
        (3 ≤ c.fails + 1 → (t.chan n).st = .failed ∧ ∀ d ∈ s.membersOn n, (t.die d).failed = true)))

/-- Dies (R26, R58, R234, R257, R260, R265, R286, R293, R296 to R298, R300 to R303): an array read that passes step 0 serves its host
unit, deciphered, and the last one completes its command; one that fails step 0 goes to a reconstruction; a page waits while the channel
has no transfer left for its class (R45); a program or erase that ends
frees the die and moves its block group on, one that fails retires its plane-block, in a relocation the fresh one; a die that does not
answer is failed; a rebuild waits for its die's cellar block (R322), reconstructs word line after word line, each programmed on the spare before the next, and ends with its last
block group. -/
def Obligations.Dies : Prop :=
  (∀ (s : State) (d : DieId), d.wf = true →
    (∀ x y w row m, s.ending d = some y → s.memberOf d = some (w, row, m) → 0 < s.room (dieChan d) y.cls →
      (∀ u r i c, y.wants = [(u, .cmd r i)] → s.cmd r = some c →
        (x.step = 0 → x.img = none → (s.group d y.slot).window + 1 < 64 → ∃ t, exec (.arrayReadComplete d [x]) s = .next t ∧ t.media.slices = s.media.slices.erase y ∧
          (t.group d y.slot).reads = (s.group d y.slot).reads + 1 ∧
          (2 ≤ c.slices → t.cmd r = some { c with
            slices := c.slices - 1
            data := patch c.data (4096 * i) (xtsOpen (s.holdKey c.f12) (c.tweak i)
              (s.shareAt (slotNo w row y.slot) y.wl m u)) }) ∧
          (∀ q k, c.slices = 1 → c.point = .running → c.bad = none → s.sq r.fn r.sq = some q → s.cq r.fn q.cq = some k →
            r.wf = true → orderWaits q.cmds c = false → Posts s t r SUCCESS (BitVec.ofNat 64 c.cnt) none)) ∧
        (1 ≤ x.step → s.media.recons = [] → ∃ t, exec (.arrayReadComplete d [x]) s = .next t ∧
          s.media.nextRecon < t.media.nextRecon))) ∧
    (∀ xs y, s.ending d = some y → s.room (dieChan d) y.cls = 0 → y.wants ≠ [] → ∃ t, exec (.arrayReadComplete d xs) s = .next t ∧
      t.media.slices = replaceSlice y { y with phase := .sensed } s.media.slices) ∧
    (∀ o, (s.die d).op = some o → o.suspended = false →
      let w := o.work
      (w.act = .program → (∃ t, exec (.programComplete d) s = .next t ∧ (t.die d).op = none ∧
          t.health.mediaUnits = s.health.mediaUnits + 64 ∧
          (w.why = .host ∨ w.why = .parity → (t.group d w.slot).prog = w.wl + 1) ∧ (w.why = .parity → t.staged = s.staged - 64) ∧
          (∀ a b i, s.memberOf d = some (a, b, i) →
            (w.why = .host → s.rowFull (slotNo a b w.slot) w.wl = false → s.slotUse (slotNo a b w.slot) ≠ .random → t.staged = s.staged - 64) ∧
            (w.why = .rebuild → (t.mem a b i).cursor = some (w.slot, w.wl + 1) ∧ (t.group d w.slot).prog = w.wl + 1))) ∧
        ∀ p < 4, ∃ t, exec (.programFailure d p) s = .next t ∧ (t.die d).op = none ∧
          (w.why ≠ .reloc → s.phys d p w.slot ∈ t.media.retired) ∧
          ∀ v b, w.why = .reloc → s.media.moves.find? (fun v => decide (v.die = d) && decide (v.slot = w.slot)) = some v →
            (p, b) ∈ v.fresh → planeKey d p b ∈ t.media.retired) ∧
      (w.act = .erase → (∃ t, exec (.eraseComplete d) s = .next t ∧ (t.die d).op = none ∧
          (w.why = .internal → t.group d w.slot = Group.fresh)) ∧
        ∀ p < 4, ∃ t, exec (.eraseFailure d p) s = .next t ∧ (t.die d).op = none ∧
          (w.why = .internal → s.phys d p w.slot ∈ t.media.retired))) ∧
    ((s.die d).failed = false → ∃ t, exec (.dieNoResponse d) s = .next t ∧ (t.die d).failed = true ∧ (t.die d).op = none ∧
      Raised t 0x0020 3 0 (dieDetail d 32 ++ [(35, 1, 1)]))) ∧
  ∀ (s : State) (m : Member), m.wf = true →
    let x := s.mem m.ward m.row m.idx
    let lines := s.linesOf m.ward m.row m.idx
    x.rebuilding = true → (∀ k n, s.rebuildAt m = some (k, n) →
      (n < lines k → x.lineLeft = 0 → (s.die x.die).op = none → (∀ w ∈ s.media.work, ¬(w.why = .rebuild ∧ w.die = x.die)) →
        (s.group x.die k).dirty = false → (s.die x.die).cellarPrep = false → 0 < (s.die x.die).cellarFree →
          ∃ t, exec (.rebuildWordLine m) s = .next t ∧ (t.mem m.ward m.row m.idx).cursor = some (k, n) ∧
            (s.media.recons = [] → t.media.nextRecon = s.media.nextRecon + 4)) ∧
      (lines k ≤ n → x.lineLeft = 0 → ∃ t, exec (.blockGroupPass m) s = .next t ∧
        ((t.mem m.ward m.row m.idx).rebuilding = true → k ∈ (t.mem m.ward m.row m.idx).passed))) ∧
    (s.rebuildAt m = none → ∃ t, exec (.blockGroupPass m) s = .next t ∧ (t.mem m.ward m.row m.idx).rebuilding = false ∧
      Raised t 0x0022 1 0 (dieDetail x.die 32))

/-- Care of the media (R235, R240, R285, R286, R290, R293, R295, R296, R334, R343, R603): a checkpoint begins at its bells or by its journal
with the next rows of each ward's metadata slots, and its end keeps the journal since its begin, frees what was released before and
releases the dumps; a reclaim takes a victim, which is free once nothing valid is left in it; a relocation, one that must be or the
first of the refresh queue, draws four blocks and its commit swaps them in; patrol and retention reads are planned, four pages each; a
parking whose programs are done leaves staging; a held slot is released once no SCAN reads it. -/
def Obligations.MediaCare : Prop :=
  ∀ s : State,
    (s.boot.ready = true → s.pwr.loss = none → s.media.ckpt = none → s.bell.now % 16384 = 0 ∨ 33554432 ≤ s.media.journal →
      let n := metaRows (moduleUnits (s.noteMaps.media.recs.flatMap JRec.bytes) s.ledger)
      ∃ t, exec .checkpointBegin s = .next t ∧ t.media.ckpt = some s.bell.now ∧ t.media.begun = s.media.begun + 1 ∧
        (t.media.saving.map fun x => x.2.1) = some s.media.journal ∧ ∀ w < 4, (t.ward w).metaRow = ((s.ward w).metaRow + n) % 32768) ∧
    (∀ b, s.media.ckpt = some b → s.working .ckpt = false → s.pwr.entering = false → ∃ t, exec .checkpointComplete s = .next t ∧ t.media.ckpt = none ∧ t.media.ckptBell = b ∧
      t.media.ckptDone = s.media.begun ∧ (∀ d ∈ t.pwr.dumps, d.released = true) ∧
      (∀ m bytes k, s.media.saving = some (m, bytes, k) → t.media.saved = m ∧ t.media.journal = s.media.journal - bytes) ∧
      ∀ n g, look s.media.slots n = some (.releasing g) → g < s.media.begun → t.slotUse n = .free) ∧
    (∀ w < 4, let u := (s.raFit w).copiesDone w
      ∀ n, (u.ward w).victims = [] → u.raVictim w = some n → (u.freeRand w).length ≤ 4 →
        ∃ t, exec (.randomAreaReclaim w) s = .next t ∧ (n ∈ (t.ward w).victims ∨ look t.media.raSlots n = none)) ∧
    (∀ (d : DieId) (k : Nat), d.wf = true → k < 3072 →
      (∀ new u, s.media.retireq.find? (fun e => decide (e.1 = d ∧ e.2.1 = k)) = some (d, k, []) →
        (∀ e ∈ s.media.refresh, ¬(e.2.1 = d ∧ e.2.2.1 = k)) → (∀ v ∈ s.media.moves, ¬(v.die = d ∧ v.slot = k)) →
        (s.die d).op = none → (s.die d).failed = false → s.mustMove d k = true → s.drawFour d true = some (new, u) → ∃ t v, exec (.relocation d k) s = .next t ∧
          v ∈ t.media.moves ∧ v.die = d ∧ v.slot = k ∧ v.fresh = new ∧ v.wls = (t.group d k).prog) ∧
      (∀ new u, s.mustMove d k = false → s.nextRefresh d.ward = some (d, k) → s.media.crossed = [] → s.drawFour d false = some (new, u) →
        ∃ t v, exec (.relocation d k) s = .next t ∧ v ∈ t.media.moves ∧ v.die = d ∧ v.slot = k ∧ v.fresh = new) ∧
      (∀ v (f : Nat → Nat), s.media.moves.find? (fun v => decide (v.die = d ∧ v.slot = k)) = some v →
        v.fresh = (List.range 4).map (fun p => (p, f p)) → v.wls ≤ v.done → ∃ t, exec (.relocationCommit d k) s = .next t ∧
          (∀ p < 4, t.block d p k = f p) ∧ (t.group d k).prog = v.wls ∧ (∀ v ∈ t.media.moves, ¬(v.die = d ∧ v.slot = k)) ∧
          ∀ e ∈ t.media.retireq, ¬(e.1 = d ∧ e.2.1 = k)) ∧
      ∀ wl < 512, s.boot.ready = true → (s.die d).failed = false → wl < (s.group d k).prog → (∀ w ∈ s.media.work, w.die ≠ d) →
        ∀ cw < 4, ∀ i, (i = Instr.patrolRead d k wl cw ∨ (i = .retentionScan d k wl cw ∧ s.scanNext = some (groupNo d k) ∧
          (look s.scanLeft (groupNo d k)).map (·.1) = some wl)) → ∃ t, exec i s = .next t ∧
          t.media.work.length = s.media.work.length + 4 ∧
          ∀ w ∈ t.media.work, w ∈ s.media.work ∨ (w.cls = 5 ∧ w.die = d ∧ w.act = .read ∧ w.slot = k ∧ w.wl = wl)) ∧
    (∀ h z, let x := s.zone (zoneNo h z)
      ∀ p, look s.media.parking (zoneNo h z) = some p → x.partialRow = true → s.working (.park (zoneNo h z)) = false →
        ∃ t, exec (.parkingComplete h z) s = .next t ∧ t.zone (zoneNo h z) = { x with park := .parked p } ∧
          t.staged = s.staged - x.wp % 64) ∧
    ∀ n a b, n < 4 * 26 * 4096 → slotIdx n < 3072 → s.slotUse n = .held a b → s.scanned n = false → ∃ t, exec (.heldSlotRelease n) s = .next t ∧
      (t.slotUse n = .releasing s.media.begun ∨ t.slotUse n = .lost false) ∧
      ∀ o, o < 2 ^ 20 → look t.units (unitNo (heldZone n) o) = none

/-! ### Dispatcher and sieve checker -/

/-- The dispatcher (R358, R372, R382, R383, R385, R420 to R433): no function gets more quanta than its demand; an idle core takes its slot's
item or the first eligible one, with the registers of R382; a slot takes the next; at the end of a quantum an item goes on, is parked
with its local memory, or a parked one resumes; a retired core leaves its number. -/
def Obligations.Dispatching : Prop :=
  (∀ s : State, s.bell.closed = false → ∃ t, exec .quantumAssignment s = .next t ∧ t.jobs = s.jobs ∧ t.cores = s.cores ∧ t.hamlets = s.hamlets ∧
    (∀ f, lookD t.disp.grants 0 f ≤ s.demand f) ∧
    ((∀ e ∈ s.jobs, e.2.r.fn < 4096) → ∀ k v, look t.disp.place k = some v → 0 < lookD t.disp.grants 0 (v % 4096))) ∧
  (∀ (s : State) (c : CoreId) (f step : Nat), c.wf = true → s.served (coreNo c) = some (f, step) →
    let k := coreNo c
    let x := s.core k
    (∀ p j i jb, x.ctx = none → x.phys = some p → look s.jobs j = some jb → jb.r.fn = f → jb.live = true →
      (x.slot = some (j, i) → s.jobFull j = false → ∃ t, exec (.itemStart c) s = .next t ∧ (t.core k).ctx = some (freshCtx jb j i) ∧ (t.core k).slot = none ∧
        (t.core k).lm = if x.lastFn = some f then x.lm else []) ∧
      (x.slot = none → (s.candidates c.hamlet f).find? (s.eligible c.hamlet) = some (j, i) → ∃ t, exec (.itemStart c) s = .next t ∧
        (t.core k).ctx = some (freshCtx jb j i) ∧ (t.hamlet c.hamlet).ready = (s.hamlet c.hamlet).ready.erase (j, i))) ∧
    (∀ y e, x.ctx = some y → x.slot = none → (∀ v, look s.disp.place k = some v → v % 4096 = f) →
      (s.candidates c.hamlet f).find? (s.flowOpen c.hamlet) = some e → ∃ t, exec (.slotFill c) s = .next t ∧
        (t.core k).slot = some e ∧ (t.hamlet c.hamlet).ready = (s.hamlet c.hamlet).ready.erase e) ∧
    (step = 1 → x.ctx.isSome = true → exec (.quantumEnd c) s = .next s) ∧
    (∀ y jb, step = 2 → x.ctx = none → x.slot = none → x.parked = [y] → look s.jobs y.job = some jb → jb.r.fn = f → jb.live = true →
      s.coresFull y.job = false →
      ∃ t, exec (.quantumEnd c) s = .next t ∧ (t.core k).ctx = some { y with saved := [] } ∧ (t.core k).parked = [] ∧
        (t.core k).lm = y.saved)) ∧
  (∀ (s : State) (c : CoreId) (y : Ctx), c.wf = true → s.served (coreNo c) = none → (s.core (coreNo c)).ctx = some y →
    ∃ t, exec (.quantumEnd c) s = .next t ∧ (t.core (coreNo c)).ctx = none ∧
      (t.core (coreNo c)).parked = (s.core (coreNo c)).parked ++ [{ y.landAll with saved := (s.core (coreNo c)).lm }]) ∧
  (∀ (x : Job) (j : Nat) (i : Item), let c := freshCtx x j i
    c.pc = 0x100000 + x.entry ∧ c.rg 1 = i.w0 ∧ c.rg 2 = i.w1 ∧ c.rg 3 = i.w2 ∧ c.rg 4 = i.w3 ∧ c.rg 29 = 0x200000 ∧
      c.rg 30 = 0x40000 ∧ c.rg 31 = 0xFFFF0 ∧ (∀ n, (5 ≤ n ∧ n ≤ 28) ∨ n = 0 → c.rg n = 0) ∧ c.ldepth = 0 ∧ c.amode = 0 ∧ c.cycle = 0 ∧
      (∀ n, c.rw n = 0 ∧ c.ra n = 0 ∧ c.rm n = 0 ∧ c.rp n = 0 ∧ lookD c.ls 0 n = 0 ∧ lookD c.le 0 n = 0 ∧ lookD c.lc 0 n = 0) ∧
      c.prods = [] ∧ c.loads = [] ∧ c.stores = [] ∧ c.dma = [] ∧ c.reqs = []) ∧
  ∀ (s : State) (h p : Nat), h < 32 → p < 18 → p ∉ (s.hamlet h).gone →
    (∃ t, exec (.coreRetire h p) s = .next t ∧ p ∈ (t.hamlet h).gone ∧
      ∀ l, (List.range 16).find? (fun l => (s.core (h * 16 + l)).phys = some p) = some l →
        (t.core (h * 16 + l)).phys = none ∧ (t.core (h * 16 + l)).ctx = none) ∧
    exec (.coreSelfTest h p true) s = .next s ∧
    ((∀ l < 16, (s.core (h * 16 + l)).phys = some p → (s.core (h * 16 + l)).ctx = none) →
      ∃ t, exec (.coreSelfTest h p false) s = .next t ∧ p ∈ (t.hamlet h).gone)

/-! ### The ring engine -/

/-- Doorbells and entries (R54, R55, R83 to R86, R127, R133 to R136): a due page is polled, past the limit it is left over and counted; a valid
word moves its ring's TAIL and ends its doze, a stale one is counted, any other freezes the ring; a ring unadvanced for 256 bells dozes;
an accepted knock is remembered, another is counted; entries that arrive advance FETCHED. -/
def Obligations.Doorbells : Prop :=
  ∀ (s : State) (f : Nat),
    let g := s.fn f
    (∀ page top p, page < 2 → s.topRing f page = some top → s.workPort f = some p → s.boot.ready = true → g.state = .active →
      s.pollDue f page = true → s.pollBehind f page = false → page ∉ g.polling →
      (s.bell.polls < 2048 → ∃ t, exec (.doorbellPollIssue f page) s = .next t ∧ Sends t f (.page page (top + 1)) ∧
        page ∈ (t.fn f).polling ∧ t.bell.polls = s.bell.polls + 1) ∧
      (2048 ≤ s.bell.polls → page ∉ g.left → ∃ t, exec (.doorbellPollIssue f page) s = .next t ∧ page ∈ (t.fn f).left ∧
        (t.fn f).pollDefer = min (g.pollDefer + 1) (2 ^ 32 - 1) ∧ t.rdma = s.rdma)) ∧
    (∀ page o k words, s.pagePoll f page = some (o, k) → ∃ t, exec (.doorbellPollResponse f page words) s = .next t ∧
      ∀ i q, i < k → s.sq f (512 * page + i) = some q → q.activeFrom ≤ s.bell.now →
        let w := words.getD i 0
        let d := (bits w.toNat 31 0 + 2 ^ 32 - q.fetched % 2 ^ 32) % 2 ^ 32
        ∃ q', t.sq f (512 * page + i) = some q' ∧
          (bits w.toNat 63 32 = q.gen → 0 < d → d < q.size → q'.tail = bits w.toNat 31 0 ∧ q'.dozing = false ∧
            q'.lastAdv = s.bell.now ∧ q'.frozen = q.frozen) ∧
          (bits w.toNat 63 32 = q.gen → q.size ≤ d → q'.tail = q.tail ∧ q'.frozen = true) ∧
          (bits w.toNat 63 32 ≠ q.gen → q'.tail = q.tail ∧ q'.frozen = q.frozen)) ∧
    (∀ n q, s.sq f n = some q → q.lastAdv + 256 ≤ s.bell.now → ∃ t q', exec (.ringDoze f n) s = .next t ∧ t.sq f n = some q' ∧
      q' = { q with dozing := true }) ∧
    (∀ p k, (s.port p).state = .up → k.dstPort = s.net.knockUdp →
      (s.knockOk p k = true → be k.payload 4 2 = f → g.knocked = false → (s.port p).knockSrc.length < 64 →
        ((s.port p).knockSrc.filter (· = k.src)).length < 8 → ∃ t, exec (.knock p k) s = .next t ∧ (t.fn f).knocked = true) ∧
      (s.knockOk p k = false → ∃ t, exec (.knock p k) s = .next t ∧ t.fns = s.fns ∧
        (t.port p).knockDrop = min ((s.port p).knockDrop + 1) (2 ^ 64 - 1))) ∧
    ∀ n q o k data, s.sq f n = some q → 0 < k → s.reads f n = some (o, q.fetched, k) →
      (∀ i < k, jobOp (byteAt data (64 * i)) = false) → ∃ t q', exec (.entryFetchResponse f n data) s = .next t ∧
        t.sq f n = some q' ∧ q'.fetched = (q.fetched + k) % 2 ^ 32

/-- Responses and deadlines (R95, R141, R144, R148, R149, R156, R182, R187, R193): a valid head word is taken, others counted; a chained
list, a parameter block and write data bring their command to its next point, or fail it; an acknowledgement takes its completions
off and releases a waiting ABORT; a pending notification is sent at its deadline; a command 2 s old ends with INTERNAL_TIMEOUT; a
drain that is over makes its function QUIESCED. -/
def Obligations.RingResponses : Prop :=
  ∀ s : State,
    (∀ f n k (w : W64), s.cq f n = some k → s.hears f (.head n) = true → ∃ t k', exec (.headWordResponse f n w) s = .next t ∧
      t.cq f n = some k' ∧
      (let seen := fun a => (a + 2 ^ 32 - k.headSeen % 2 ^ 32) % 2 ^ 32
       (bits w.toNat 63 32 = k.gen → seen (bits w.toNat 31 0) ≤ seen (k.posted % 2 ^ 32) → k'.headSeen = bits w.toNat 31 0) ∧
       (bits w.toNat 63 32 = k.gen → seen (k.posted % 2 ^ 32) < seen (bits w.toNat 31 0) →
         (t.fn f).cqHeadBad = min ((s.fn f).cqHeadBad + 1) (2 ^ 32 - 1)) ∧
       (bits w.toNat 63 32 ≠ k.gen → (t.fn f).dbStale = min ((s.fn f).dbStale + 1) (2 ^ 32 - 1)))) ∧
    (∀ (r : Ref) c q k data, s.cmd r = some c → s.sq r.fn r.sq = some q → s.cq r.fn q.cq = some k → r.wf = true →
      let next := ∃ rest, q.cmds.dropWhile Cmd.settled = c :: rest
      (next → c.point = .list → s.hears r.fn (.list r) = true →
        let d := { c with list := triples (slice data 0 c.buf1.len) }
        (bufferFails s d = none → ∃ t, exec (.chainedListResponse r data) s = .next t ∧
          t.cmd r = some { d with point := if hasBlock c.opcode = true then .block else .checked }) ∧
        ∀ st fld, bufferFails s d = some (st, fld) → orderWaits q.cmds c = false → ∃ t, exec (.chainedListResponse r data) s = .next t ∧ Posts s t r st 0 none) ∧
      (next → c.point = .block → s.hears r.fn (.block r) = true → orderWaits q.cmds c = false →
        let d := { c with block := slice data 0 (blockLen c) }
        ∃ t, exec (.parameterBlockResponse r data) s = .next t ∧ (t.cmd r = some { d with point := .checked } ∨ ∃ st, Posts s t r st 0 none)) ∧
      (c.point = .data → s.hears r.fn (.data r) = true →
        let d := slice data 0 (dataLen c)
        ∃ t, exec (.dataReadResponse r data) s = .next t ∧ t.ledger = s.ledger ∧ t.cmd r = some { c with
          data := if c.opcode = 0x59 then d else [], units := s.sealIn c d
          point := if c.opcode = 0x59 then .mirrored else .queued, queuedBell := s.bell.now, drainBell := none })) ∧
    (∀ f n m k, s.cq f n = some k → 0 < m → m ≤ k.unacked.length →
      (∀ e ∈ k.unacked.take m, ∃ o ∈ s.rdma, o.fn = f ∧ o.kind = .cqe n e.1 e.2 ∧ s.arrives o = true) →
      ∃ t k' new, exec (.completionAck f n m) s = .next t ∧ t.cq f n = some k' ∧ k'.unacked = k.unacked.drop m ++ new ∧
        (s.aborts = [] → new = []) ∧
        ∀ a c q x, s.aborts = [a] → a.r.fn = f → a.cq = n → (∃ e ∈ k.unacked.take m, a.count = some e.1) → s.cmd a.r = some c →
          s.sq a.r.fn a.r.sq = some q → s.cq a.r.fn q.cq = some x → orderWaits q.cmds c = false → t.aborts = [] ∧ t.cmd a.r = none) ∧
    (∀ f n k b, s.cq f n = some k → k.pendFrom = some b → b + k.coBells ≤ s.bell.now → k.unacked = [] →
      ∃ t, exec (.notifyDeadline f n) s = .next t ∧ Sends t f (.notify (BitVec.ofNat 32 (0x10000000 + n))) ∧
        t.cq f n = some { k with pendFrom := none, pendCount := 0, pendNow := false }) ∧
    (∀ (r : Ref) c q k unit, s.cmd r = some c → s.sq r.fn r.sq = some q → s.cq r.fn q.cq = some k → r.wf = true →
      c.started = true → c.point ≠ .decided → jobOp c.opcode = false → orderWaits q.cmds c = false →
      2000000 ≤ s.ranFor c.startBell c.startStill → s.act = none → s.life.erasing ≠ some r →
      ∃ t, exec (.internalTimeout r unit) s = .next t ∧ Posts s t r INTERNAL_TIMEOUT 0 none ∧
        Raised t 0x0072 3 r.fn [(32, 2, unit), (36, 2, r.fn), (38, 2, r.sq)]) ∧
    ∀ f, (s.fn f).state = .quiescing → s.anyUp = true → s.drained f = true → ∃ t, exec (.drainEnd f) s = .next t ∧ (t.fn f).state = .quiesced ∧
      (t.fn f).quietAt = s.bell.now ∧ ∀ (r : Ref) c q k, s.quiesceWaits f = [r] → s.cmd r = some c → s.sq r.fn r.sq = some q →
        s.cq r.fn q.cq = some k → r.wf = true → orderWaits q.cmds c = false →
        Posts s t r SUCCESS (BitVec.ofNat 64 s.bell.now) c.ledger
end

