-- ==== Sys2Proof/Laws/Host.lean ====
section
/-! SUPPORT. What completing commands, checking entries and fetching leave alone (chapter 6): one lemma per operation. -/

namespace Sys2Proof.Machine

/-- What completing commands, checking entries and fetching leave alone: all but rings, commands in flight, RDMA operations, fences
and the round-robin place of a function. -/
def State.besides (s : State) : State :=
  { s with sqs := [], cqs := [], aborts := [], rdma := [], out := [], zones := [], fns := [] }

theorem foldl_besides {α : Type} {f : State → α → State} (hf : ∀ x a, (f x a).besides = x.besides) :
    ∀ {l : List α} {x : State}, (l.foldl f x).besides = x.besides
  | [], _ => rfl
  | a :: l, x => (foldl_besides hf (l := l) (x := f x a)).trans (hf x a)

theorem setFn_besides (s : State) (f : Nat) (g : Fn → Fn) : (s.setFn f g).besides = s.besides := rfl
theorem setSq_besides (s : State) (f n : Nat) (g : Sq → Sq) : (s.setSq f n g).besides = s.besides := rfl
theorem setCq_besides (s : State) (f n : Nat) (g : Cq → Cq) : (s.setCq f n g).besides = s.besides := rfl
theorem setZone_besides (s : State) (z : Nat) (g : Zone → Zone) : (s.setZone z g).besides = s.besides := rfl
theorem setCmd_besides (s : State) (r : Ref) (g : Cmd → Cmd) : (s.setCmd r g).besides = s.besides := rfl
theorem atPoint_besides (s : State) (r : Ref) (p : Point) : (s.atPoint r p).besides = s.besides := rfl
theorem begin_besides (s : State) (r : Ref) (p : Point) : (s.begin_ r p).besides = s.besides := rfl
theorem tell_besides (s : State) (m : Msg) : (s.tell m).besides = s.besides := rfl
theorem issue_besides (s : State) (o : RdmaOp) : (s.issue o).besides = s.besides := by
  unfold State.issue
  by_cases h : ((s.admitted o o.port).isSome) = true <;> simp only [h] <;> rfl
theorem notify_besides (s : State) (f : Nat) (i : W32) : (s.notify f i).besides = s.besides := issue_besides _ _
theorem logFailure_besides (s : State) (r : Ref) (c : Cmd) (q : Sq) (d : Done) : (s.logFailure r c q d).1.besides = s.besides := by
  unfold State.logFailure; split <;> rfl
theorem fenceFor_besides (s : State) (r : Ref) (c : Cmd) (st : Nat) : (s.fenceFor r c st).besides = s.besides := by
  unfold State.fenceFor; split <;> rfl
theorem aborts_besides (s : State) (l : List AbortWait) : ({ s with aborts := l } : State).besides = s.besides := rfl
theorem post_besides (s : State) (r : Ref) (d : Done) : (s.post r d).besides = s.besides := by
  unfold State.post
  split
  · dsimp only
    split
    · rfl
    · simp only [issue_besides, aborts_besides, setCq_besides, setSq_besides, fenceFor_besides, logFailure_besides]
  · rfl
theorem postEnded_besides (f n : Nat) : ∀ (k : Nat) (s : State), (State.postEnded f n k s).besides = s.besides
  | 0, _ => rfl
  | k + 1, s => by
    unfold State.postEnded
    split
    · split
      · split
        · exact (postEnded_besides f n k _).trans (post_besides _ _ _)
        · rfl
      · rfl
    · rfl
theorem complete_besides (s : State) (r : Ref) (d : Done) : (s.complete r d).besides = s.besides := by
  unfold State.complete
  split
  · split
    · rfl
    · exact (postEnded_besides _ _ _ _).trans (post_besides _ _ _)
  · rfl
theorem failCheck_besides (s : State) (r : Ref) (st f : Nat) (l : List (Nat × Nat × Nat)) : (s.failCheck r st f l).besides = s.besides := by
  unfold State.failCheck
  dsimp only
  split
  · split
    · rfl
    · exact complete_besides _ _ _
  · rfl
theorem fail_besides (s : State) (r : Ref) (st f : Nat) : (s.fail r st f).besides = s.besides := complete_besides _ _ _
theorem sendOut_besides (s : State) (r : Ref) (k : Nat) (b : Bytes) : (s.sendOut r k b).besides = s.besides := by
  unfold State.sendOut
  split
  · split
    · rfl
    · exact issue_besides _ _
  · rfl
theorem askHead_besides (s : State) (f n : Nat) (k : Cq) : (s.askHead f n k).besides = s.besides := by
  unfold State.askHead
  split
  · rfl
  · exact issue_besides _ _
theorem fetch_besides (s : State) (f n : Nat) : (s.fetch f n).2.besides = s.besides := by
  unfold State.fetch
  split
  · rfl
  · split
    · dsimp only
      repeat' split
      all_goals simp only [issue_besides, setSq_besides, setCq_besides, askHead_besides]
    · rfl
theorem fetchFn_besides (s : State) (f : Nat) : (s.fetchFn f).besides = s.besides := by
  have h : ∀ (l : List (Nat × Sq)) (a : Option Nat × State), (l.foldl (fun (a : Option Nat × State) e =>
      let (did, s) := a.2.fetch f (e.1 % 1024)
      (if did && a.1.isNone then some (e.1 % 1024) else a.1, s)) a).2.besides = a.2.besides := by
    intro l
    induction l with
    | nil => intro a; rfl
    | cons e l ih => intro a; exact (ih _).trans (fetch_besides a.2 f (e.1 % 1024))
  unfold State.fetchFn
  dsimp only
  split
  · rw [setFn_besides]
    exact h _ _
  · exact h _ _
theorem checkBuffer_besides (s : State) (r : Ref) (c : Cmd) : (s.checkBuffer r c).besides = s.besides := by
  unfold State.checkBuffer
  split
  · exact failCheck_besides _ _ _ _ _
  · split
    · exact issue_besides _ _
    · rfl
theorem checkEntry_besides (s : State) (r : Ref) (c : Cmd) : (s.checkEntry r c).besides = s.besides := by
  unfold State.checkEntry
  split
  · exact failCheck_besides _ _ _ _ _
  · split
    · exact issue_besides _ _
    · exact checkBuffer_besides _ _ _
theorem checkLoop_besides (f n : Nat) : ∀ (k : Nat) (s : State), (State.checkLoop f n k s).besides = s.besides
  | 0, _ => rfl
  | k + 1, s => by
    unfold State.checkLoop
    split
    · split
      · rfl
      · split
        · exact (checkLoop_besides f n k _).trans (checkEntry_besides _ _ _)
        · rfl
    · rfl
theorem checkRing_besides (s : State) (f n : Nat) : (s.checkRing f n).besides = s.besides := checkLoop_besides _ _ _ _
theorem goOn_besides (s : State) (f n : Nat) : (s.goOn f n).besides = s.besides :=
  (fetchFn_besides _ _).trans (checkRing_besides _ _ _)
theorem settle_besides (s : State) (r : Ref) : (s.settle r).besides = s.besides := by
  unfold State.settle
  split
  · rw [goOn_besides]
    split <;> rfl
  · exact goOn_besides _ _ _
end Sys2Proof.Machine
end

