-- ==== Sys2Proof/Laws/Kept.lean ====
section
/-! SUPPORT. What the shared operations keep: the waiting commands (only the model's step takes them), and the one-time
storage of the fuse array (R538, R550). One lemma per operation. -/

namespace Sys2Proof.Machine

set_option linter.all false
/-- The one-time storage of the fuse array (R538, R550): life-cycle counters, the SCRAP bit and the anti-rollback floor. -/
def Life.fuses (l : Life) : Nat × Nat × Nat × Bool × Nat := (l.seals, l.returns, l.refurbs, l.scrap, l.floor)
theorem foldl_kept {α : Type} {f : State → α → State}
    (hf : ∀ x a, (f x a).pending = x.pending ∧ (f x a).life.fuses = x.life.fuses) :
    ∀ {l : List α} {x : State}, (l.foldl f x).pending = x.pending ∧ (l.foldl f x).life.fuses = x.life.fuses
  | [], _ => ⟨rfl, rfl⟩
  | a :: l, x => by
    have h := foldl_kept hf (l := l) (x := f x a)
    exact ⟨h.1.trans (hf x a).1, h.2.trans (hf x a).2⟩
theorem kept_of_besides {s t : State} (h : t.besides = s.besides) : t.pending = s.pending ∧ t.life.fuses = s.life.fuses := by
  have h1 := congrArg State.pending h
  have h2 := congrArg (fun x : State => x.life.fuses) h
  exact ⟨h1, h2⟩
/-! ### LoftLog -/

theorem loftRecord_kept (s : State) (area kind : Nat) (b : Bytes) : (State.loftRecord s area kind b).pending = s.pending ∧ (State.loftRecord s area kind b).life.fuses = s.life.fuses := by
  unfold State.loftRecord
  (try dsimp only [State.commit, State.draw])
  repeat' split
  all_goals first | (simp only [foldl_kept, and_self, implies_true]; done) | exact ⟨rfl, rfl⟩

theorem flushLoft_kept (s : State) : (State.flushLoft s).pending = s.pending ∧ (State.flushLoft s).life.fuses = s.life.fuses := by
  unfold State.flushLoft
  (try dsimp only [State.commit, State.draw])
  repeat' split
  all_goals first | (simp only [foldl_kept, and_self, implies_true]; done) | exact ⟨rfl, rfl⟩

theorem setLoft_kept (s : State) (f : Loft → Loft) : (State.setLoft s f).pending = s.pending ∧ (State.setLoft s f).life.fuses = s.life.fuses := by
  unfold State.setLoft
  (try dsimp only [State.commit, State.draw])
  repeat' split
  all_goals first | (simp only [foldl_kept, and_self, implies_true]; done) | exact ⟨rfl, rfl⟩

theorem putWords_kept (s : State) (k : Nat) (ws : List (BitVec 80)) : (State.putWords s k ws).pending = s.pending ∧ (State.putWords s k ws).life.fuses = s.life.fuses := by
  unfold State.putWords
  (try dsimp only [State.commit, State.draw])
  repeat' split
  all_goals first | (simp only [setLoft_kept, foldl_kept, and_self, implies_true]; done) | exact ⟨rfl, rfl⟩

theorem tearSector_kept (s : State) (k : Nat) : (State.tearSector s k).pending = s.pending ∧ (State.tearSector s k).life.fuses = s.life.fuses := by
  unfold State.tearSector
  (try dsimp only [State.commit, State.draw])
  repeat' split
  all_goals first | (simp only [putWords_kept, foldl_kept, and_self, implies_true]; done) | exact ⟨rfl, rfl⟩

theorem abortErase_kept (s : State) (b : Nat) : (State.abortErase s b).pending = s.pending ∧ (State.abortErase s b).life.fuses = s.life.fuses := by
  unfold State.abortErase
  (try dsimp only [State.commit, State.draw])
  repeat' split
  all_goals first | (simp only [setLoft_kept, tearSector_kept, foldl_kept, and_self, implies_true]; done) | exact ⟨rfl, rfl⟩

theorem zeroKeys_kept (s : State) (pick : Nat → Bool) : (State.zeroKeys s pick).pending = s.pending ∧ (State.zeroKeys s pick).life.fuses = s.life.fuses := by
  unfold State.zeroKeys
  (try dsimp only [State.commit, State.draw])
  repeat' split
  all_goals first | (simp only [abortErase_kept, flushLoft_kept, setLoft_kept, foldl_kept, and_self, implies_true]; done) | exact ⟨rfl, rfl⟩

/-! ### Ops -/

theorem setPwr_kept (s : State) (f : Pwr → Pwr) : (State.setPwr s f).pending = s.pending ∧ (State.setPwr s f).life.fuses = s.life.fuses := by
  unfold State.setPwr
  (try dsimp only [State.commit, State.draw])
  repeat' split
  all_goals first | (simp only [foldl_kept, and_self, implies_true]; done) | exact ⟨rfl, rfl⟩

theorem wakeUp_kept (s : State) : (State.wakeUp s).pending = s.pending ∧ (State.wakeUp s).life.fuses = s.life.fuses := by
  unfold State.wakeUp
  (try dsimp only [State.commit, State.draw])
  repeat' split
  all_goals first | (simp only [setPwr_kept, foldl_kept, and_self, implies_true]; done) | exact ⟨rfl, rfl⟩

theorem setPort_kept (s : State) (p : PortId) (f : Port → Port) : (State.setPort s p f).pending = s.pending ∧ (State.setPort s p f).life.fuses = s.life.fuses := by
  unfold State.setPort
  (try dsimp only [State.commit, State.draw])
  repeat' split
  all_goals first | (simp only [foldl_kept, and_self, implies_true]; done) | exact ⟨rfl, rfl⟩

theorem setFn_kept (s : State) (f : Nat) (g : Fn → Fn) : (State.setFn s f g).pending = s.pending ∧ (State.setFn s f g).life.fuses = s.life.fuses := by
  unfold State.setFn
  (try dsimp only [State.commit, State.draw])
  repeat' split
  all_goals first | (simp only [foldl_kept, and_self, implies_true]; done) | exact ⟨rfl, rfl⟩

theorem setSq_kept (s : State) (f n : Nat) (g : Sq → Sq) : (State.setSq s f n g).pending = s.pending ∧ (State.setSq s f n g).life.fuses = s.life.fuses := by
  unfold State.setSq
  (try dsimp only [State.commit, State.draw])
  repeat' split
  all_goals first | (simp only [foldl_kept, and_self, implies_true]; done) | exact ⟨rfl, rfl⟩

theorem setCq_kept (s : State) (f n : Nat) (g : Cq → Cq) : (State.setCq s f n g).pending = s.pending ∧ (State.setCq s f n g).life.fuses = s.life.fuses := by
  unfold State.setCq
  (try dsimp only [State.commit, State.draw])
  repeat' split
  all_goals first | (simp only [foldl_kept, and_self, implies_true]; done) | exact ⟨rfl, rfl⟩

theorem setZone_kept (s : State) (z : Nat) (g : Zone → Zone) : (State.setZone s z g).pending = s.pending ∧ (State.setZone s z g).life.fuses = s.life.fuses := by
  unfold State.setZone
  (try dsimp only [State.commit, State.draw])
  repeat' split
  all_goals first | (simp only [foldl_kept, and_self, implies_true]; done) | exact ⟨rfl, rfl⟩

theorem setCmd_kept (s : State) (r : Ref) (g : Cmd → Cmd) : (State.setCmd s r g).pending = s.pending ∧ (State.setCmd s r g).life.fuses = s.life.fuses := by
  unfold State.setCmd
  (try dsimp only [State.commit, State.draw])
  repeat' split
  all_goals first | (simp only [setSq_kept, foldl_kept, and_self, implies_true]; done) | exact ⟨rfl, rfl⟩

theorem draw_kept (s : State) : ((State.draw s).2).pending = s.pending ∧ ((State.draw s).2).life.fuses = s.life.fuses := by
  unfold State.draw
  (try dsimp only [State.commit, State.draw])
  repeat' split
  all_goals first | (simp only [foldl_kept, and_self, implies_true]; done) | exact ⟨rfl, rfl⟩

theorem tell_kept (s : State) (m : Msg) : (State.tell s m).pending = s.pending ∧ (State.tell s m).life.fuses = s.life.fuses := by
  unfold State.tell
  (try dsimp only [State.commit, State.draw])
  repeat' split
  all_goals first | (simp only [foldl_kept, and_self, implies_true]; done) | exact ⟨rfl, rfl⟩

theorem unpause_kept (s : State) (p : PortId) : (State.unpause s p).pending = s.pending ∧ (State.unpause s p).life.fuses = s.life.fuses := by
  unfold State.unpause
  (try dsimp only [State.commit, State.draw])
  repeat' split
  all_goals first | (simp only [foldl_kept, and_self, implies_true]; done) | exact ⟨rfl, rfl⟩

theorem issue_kept (s : State) (op : RdmaOp) : (State.issue s op).pending = s.pending ∧ (State.issue s op).life.fuses = s.life.fuses := by
  unfold State.issue
  (try dsimp only [State.commit, State.draw])
  repeat' split
  all_goals first | (simp only [tell_kept, foldl_kept, and_self, implies_true]; done) | exact ⟨rfl, rfl⟩

theorem progress_kept (s : State) (o : RdmaOp) : (State.progress s o).pending = s.pending ∧ (State.progress s o).life.fuses = s.life.fuses := by
  unfold State.progress
  (try dsimp only [State.commit, State.draw])
  repeat' split
  all_goals first | (simp only [setFn_kept, foldl_kept, and_self, implies_true]; done) | exact ⟨rfl, rfl⟩

theorem asPosted_kept (s : State) (o : RdmaOp) : (s.asPosted o).2.pending = s.pending ∧ (s.asPosted o).2.life.fuses = s.life.fuses := by
  unfold State.asPosted
  repeat' split
  all_goals exact ⟨rfl, rfl⟩

theorem retryAt_kept (s : State) (pick : RdmaOp → Bool) (i : Nat) : (State.retryAt s pick i).pending = s.pending ∧ (State.retryAt s pick i).life.fuses = s.life.fuses := by
  unfold State.retryAt
  split
  · split
    · exact ⟨rfl, rfl⟩
    · split
      · exact asPosted_kept s _
      · exact ⟨rfl, rfl⟩
  · exact ⟨rfl, rfl⟩

theorem retry_kept (s : State) (pick : RdmaOp → Bool) : (State.retry s pick).pending = s.pending ∧ (State.retry s pick).life.fuses = s.life.fuses := by
  unfold State.retry
  (try dsimp only [State.commit, State.draw])
  repeat' split
  all_goals first | (simp only [retryAt_kept, foldl_kept, and_self, implies_true]; done) | exact ⟨rfl, rfl⟩

theorem answered_kept (s : State) (f : Nat) (k : OpKind) : (State.answered s f k).pending = s.pending ∧ (State.answered s f k).life.fuses = s.life.fuses := by
  unfold State.answered
  (try dsimp only [State.commit, State.draw])
  repeat' split
  all_goals first | (simp only [progress_kept, retry_kept, foldl_kept, and_self, implies_true]; done) | exact ⟨rfl, rfl⟩

theorem notify_kept (s : State) (f : Nat) (imm : W32) : (State.notify s f imm).pending = s.pending ∧ (State.notify s f imm).life.fuses = s.life.fuses := by
  unfold State.notify
  (try dsimp only [State.commit, State.draw])
  repeat' split
  all_goals first | (simp only [issue_kept, foldl_kept, and_self, implies_true]; done) | exact ⟨rfl, rfl⟩

theorem eventAt_kept (s : State) (b code cls f : Nat) (detail : List (Nat × Nat × Nat)) : (State.eventAt s b code cls f detail).pending = s.pending ∧ (State.eventAt s b code cls f detail).life.fuses = s.life.fuses := by
  unfold State.eventAt
  generalize record 64 _ = r
  dsimp only
  generalize List.drop _ _ = evs
  have h : ∀ x y : State, (x.pending = s.pending ∧ x.life.fuses = s.life.fuses) → (if cls ≥ 2 then x.loftRecord 312 recEvent r else x) = y →
      y.pending = s.pending ∧ y.life.fuses = s.life.fuses := fun x y hx e => by
    subst e
    split
    · exact ⟨(loftRecord_kept _ _ _ _).1.trans hx.1, (loftRecord_kept _ _ _ _).2.trans hx.2⟩
    · exact hx
  generalize e : (if cls ≥ 2 then _ else _) = y
  have hy := h { s with events := evs, eventSeq := s.eventSeq + 1 } y ⟨rfl, rfl⟩ e
  split
  · exact hy
  · split
    · simpa only [notify_kept] using hy
    · exact hy

theorem event_kept (s : State) (code cls f : Nat) (detail : List (Nat × Nat × Nat)) : (State.event s code cls f detail).pending = s.pending ∧ (State.event s code cls f detail).life.fuses = s.life.fuses := by
  unfold State.event
  (try dsimp only [State.commit, State.draw])
  repeat' split
  all_goals first | (simp only [eventAt_kept, foldl_kept, and_self, implies_true]; done) | exact ⟨rfl, rfl⟩

theorem movePort_kept (s : State) (p : PortId) (st : PortState) (ns : Nat) : (State.movePort s p st ns).pending = s.pending ∧ (State.movePort s p st ns).life.fuses = s.life.fuses := by
  unfold State.movePort
  (try dsimp only [State.commit, State.draw])
  repeat' split
  all_goals first | (simp only [event_kept, setPort_kept, foldl_kept, and_self, implies_true]; done) | exact ⟨rfl, rfl⟩

theorem qpError_kept (s : State) (f : Nat) (p : PortId) (ev : Bool) : (State.qpError s f p ev).pending = s.pending ∧ (State.qpError s f p ev).life.fuses = s.life.fuses := by
  unfold State.qpError
  (try dsimp only [State.commit, State.draw])
  repeat' split
  all_goals first | (simp only [event_kept, setFn_kept, foldl_kept, and_self, implies_true]; done) | exact ⟨rfl, rfl⟩

theorem commit_kept (s : State) : ((State.commit s).2).pending = s.pending ∧ ((State.commit s).2).life.fuses = s.life.fuses := by
  unfold State.commit
  (try dsimp only [State.commit, State.draw])
  repeat' split
  all_goals first | (simp only [foldl_kept, and_self, implies_true]; done) | exact ⟨rfl, rfl⟩

theorem noteMaps_kept (s : State) : (State.noteMaps s).pending = s.pending ∧ (State.noteMaps s).life.fuses = s.life.fuses := by
  unfold State.noteMaps
  (try dsimp only [State.commit, State.draw])
  repeat' split
  all_goals first | (simp only [foldl_kept, and_self, implies_true]; done) | exact ⟨rfl, rfl⟩

theorem journalRec_kept (s : State) (kind : Nat) : (State.journalRec s kind).pending = s.pending ∧ (State.journalRec s kind).life.fuses = s.life.fuses := by
  unfold State.journalRec
  (try dsimp only [State.commit, State.draw])
  repeat' split
  all_goals first | (simp only [noteMaps_kept, foldl_kept, and_self, implies_true]; done) | exact ⟨rfl, rfl⟩

theorem sendDue_kept (s : State) (f n : Nat) : (State.sendDue s f n).pending = s.pending ∧ (State.sendDue s f n).life.fuses = s.life.fuses := by
  unfold State.sendDue
  (try dsimp only [State.commit, State.draw])
  repeat' split
  all_goals first | (simp only [notify_kept, setCq_kept, foldl_kept, and_self, implies_true]; done) | exact ⟨rfl, rfl⟩

theorem fenceFor_kept (s : State) (r : Ref) (c : Cmd) (st : Nat) : (State.fenceFor s r c st).pending = s.pending ∧ (State.fenceFor s r c st).life.fuses = s.life.fuses := by
  unfold State.fenceFor
  (try dsimp only [State.commit, State.draw])
  repeat' split
  all_goals first | (simp only [setZone_kept, foldl_kept, and_self, implies_true]; done) | exact ⟨rfl, rfl⟩

theorem post_kept (s : State) (r : Ref) (d : Done) : (State.post s r d).pending = s.pending ∧ (State.post s r d).life.fuses = s.life.fuses := kept_of_besides (post_besides _ _ _)

theorem complete_kept (s : State) (r : Ref) (d : Done) : (State.complete s r d).pending = s.pending ∧ (State.complete s r d).life.fuses = s.life.fuses := kept_of_besides (complete_besides _ _ _)

theorem fail_kept (s : State) (r : Ref) (status field : Nat) : (State.fail s r status field).pending = s.pending ∧ (State.fail s r status field).life.fuses = s.life.fuses := by
  unfold State.fail
  (try dsimp only [State.commit, State.draw])
  repeat' split
  all_goals first | (simp only [complete_kept, foldl_kept, and_self, implies_true]; done) | exact ⟨rfl, rfl⟩

theorem failCheck_kept (s : State) (r : Ref) (status field : Nat) (detail : List (Nat × Nat × Nat)) : (State.failCheck s r status field detail).pending = s.pending ∧ (State.failCheck s r status field detail).life.fuses = s.life.fuses := by
  unfold State.failCheck
  (try dsimp only [State.commit, State.draw])
  repeat' split
  all_goals first | (simp only [complete_kept, setCmd_kept, foldl_kept, and_self, implies_true]; done) | exact ⟨rfl, rfl⟩

theorem succeed_kept (s : State) (r : Ref) (result : W64) : (State.succeed s r result).pending = s.pending ∧ (State.succeed s r result).life.fuses = s.life.fuses := by
  unfold State.succeed
  (try dsimp only [State.commit, State.draw])
  repeat' split
  all_goals first | (simp only [commit_kept, complete_kept, foldl_kept, and_self, implies_true]; done) | exact ⟨rfl, rfl⟩

theorem atPoint_kept (s : State) (r : Ref) (p : Point) : (State.atPoint s r p).pending = s.pending ∧ (State.atPoint s r p).life.fuses = s.life.fuses := by
  unfold State.atPoint
  (try dsimp only [State.commit, State.draw])
  repeat' split
  all_goals first | (simp only [setCmd_kept, foldl_kept, and_self, implies_true]; done) | exact ⟨rfl, rfl⟩

/-! ### MediaOps -/

theorem setMedia_kept (s : State) (f : Media → Media) : (State.setMedia s f).pending = s.pending ∧ (State.setMedia s f).life.fuses = s.life.fuses := by
  unfold State.setMedia
  (try dsimp only [State.commit, State.draw])
  repeat' split
  all_goals first | (simp only [foldl_kept, and_self, implies_true]; done) | exact ⟨rfl, rfl⟩

theorem setDie_kept (s : State) (d : DieId) (f : Die → Die) : (State.setDie s d f).pending = s.pending ∧ (State.setDie s d f).life.fuses = s.life.fuses := by
  unfold State.setDie
  (try dsimp only [State.commit, State.draw])
  repeat' split
  all_goals first | (simp only [setMedia_kept, foldl_kept, and_self, implies_true]; done) | exact ⟨rfl, rfl⟩

theorem setGroup_kept (s : State) (d : DieId) (k : Nat) (f : Group → Group) : (State.setGroup s d k f).pending = s.pending ∧ (State.setGroup s d k f).life.fuses = s.life.fuses := by
  unfold State.setGroup
  (try dsimp only [State.commit, State.draw])
  repeat' split
  all_goals first | (simp only [setMedia_kept, foldl_kept, and_self, implies_true]; done) | exact ⟨rfl, rfl⟩

theorem setChan_kept (s : State) (n : Nat) (f : Chan → Chan) : (State.setChan s n f).pending = s.pending ∧ (State.setChan s n f).life.fuses = s.life.fuses := by
  unfold State.setChan
  (try dsimp only [State.commit, State.draw])
  repeat' split
  all_goals first | (simp only [setMedia_kept, foldl_kept, and_self, implies_true]; done) | exact ⟨rfl, rfl⟩

theorem setMem_kept (s : State) (w row i : Nat) (f : Mem → Mem) : (State.setMem s w row i f).pending = s.pending ∧ (State.setMem s w row i f).life.fuses = s.life.fuses := by
  unfold State.setMem
  (try dsimp only [State.commit, State.draw])
  repeat' split
  all_goals first | (simp only [setMedia_kept, foldl_kept, and_self, implies_true]; done) | exact ⟨rfl, rfl⟩

theorem setWard_kept (s : State) (w : Nat) (f : Ward → Ward) : (State.setWard s w f).pending = s.pending ∧ (State.setWard s w f).life.fuses = s.life.fuses := by
  unfold State.setWard
  (try dsimp only [State.commit, State.draw])
  repeat' split
  all_goals first | (simp only [setMedia_kept, foldl_kept, and_self, implies_true]; done) | exact ⟨rfl, rfl⟩

theorem setSlot_kept (s : State) (n : Nat) (u : SlotUse) : (State.setSlot s n u).pending = s.pending ∧ (State.setSlot s n u).life.fuses = s.life.fuses := by
  unfold State.setSlot
  (try dsimp only [State.commit, State.draw])
  repeat' split
  all_goals first | (simp only [setMedia_kept, foldl_kept, and_self, implies_true]; done) | exact ⟨rfl, rfl⟩

theorem setBlock_kept (s : State) (d : DieId) (plane k b : Nat) : (State.setBlock s d plane k b).pending = s.pending ∧ (State.setBlock s d plane k b).life.fuses = s.life.fuses := by
  unfold State.setBlock
  (try dsimp only [State.commit, State.draw])
  repeat' split
  all_goals first | (simp only [setMedia_kept, foldl_kept, and_self, implies_true]; done) | exact ⟨rfl, rfl⟩

theorem moveChan_kept (s : State) (n : Nat) (st : ChanState) : (State.moveChan s n st).pending = s.pending ∧ (State.moveChan s n st).life.fuses = s.life.fuses := by
  unfold State.moveChan
  (try dsimp only [State.commit, State.draw])
  repeat' split
  all_goals first | (simp only [event_kept, setChan_kept, foldl_kept, and_self, implies_true]; done) | exact ⟨rfl, rfl⟩

theorem prepNext_kept (s : State) (w : Nat) : (State.prepNext s w).pending = s.pending ∧ (State.prepNext s w).life.fuses = s.life.fuses := by
  unfold State.prepNext
  (try dsimp only [State.commit, State.draw])
  repeat' split
  all_goals first | (simp only [setDie_kept, setMedia_kept, foldl_kept, and_self, implies_true]; done) | exact ⟨rfl, rfl⟩

theorem nameSpare_kept (s : State) (w row i : Nat) : (State.nameSpare s w row i).pending = s.pending ∧ (State.nameSpare s w row i).life.fuses = s.life.fuses := by
  unfold State.nameSpare
  (try dsimp only [State.commit, State.draw])
  repeat' split
  all_goals first | (simp only [event_kept, journalRec_kept, moveChan_kept, prepNext_kept, setDie_kept, setMem_kept, foldl_kept, and_self, implies_true]; done) | exact ⟨rfl, rfl⟩

theorem joinParity_kept (s : State) (n r d : Nat) : (State.joinParity s n r d).pending = s.pending ∧ (State.joinParity s n r d).life.fuses = s.life.fuses := by
  unfold State.joinParity
  (try dsimp only [State.commit, State.draw])
  repeat' split
  all_goals first | (simp only [setMedia_kept, foldl_kept, and_self, implies_true]; done) | exact ⟨rfl, rfl⟩

theorem clearShares_kept (s : State) (n : Nat) : (State.clearShares s n).pending = s.pending ∧ (State.clearShares s n).life.fuses = s.life.fuses := by
  unfold State.clearShares
  (try dsimp only [State.commit, State.draw])
  repeat' split
  all_goals first | (simp only [setMedia_kept, foldl_kept, and_self, implies_true]; done) | exact ⟨rfl, rfl⟩

theorem queueParity_kept (s : State) (n r tenant : Nat) : (State.queueParity s n r tenant).pending = s.pending ∧ (State.queueParity s n r tenant).life.fuses = s.life.fuses := by
  unfold State.queueParity
  exact foldl_kept fun x j => by dsimp only; split <;> exact ⟨rfl, rfl⟩

theorem rowStep_kept (s : State) (n r tenant : Nat) : (State.rowStep s n r tenant).pending = s.pending ∧ (State.rowStep s n r tenant).life.fuses = s.life.fuses := by
  unfold State.rowStep
  (try dsimp only [State.commit, State.draw])
  repeat' split
  all_goals first | (simp only [queueParity_kept, foldl_kept, and_self, implies_true]; done) | exact ⟨rfl, rfl⟩

theorem loseUnits_kept (s : State) (n o k : Nat) : (State.loseUnits s n o k).pending = s.pending ∧ (State.loseUnits s n o k).life.fuses = s.life.fuses := by
  unfold State.loseUnits
  (try dsimp only [State.commit, State.draw])
  repeat' split
  all_goals first | (simp only [setMedia_kept, foldl_kept, and_self, implies_true]; done) | exact ⟨rfl, rfl⟩

theorem redirect_kept (s : State) (d : DieId) (w row i : Nat) (gone : List Work) : (State.redirect s d w row i gone).pending = s.pending ∧ (State.redirect s d w row i gone).life.fuses = s.life.fuses := by
  unfold State.redirect
  (try dsimp only [State.commit, State.draw])
  repeat' split
  all_goals first | (simp only [setMedia_kept, foldl_kept, and_self, implies_true]; done) | exact ⟨rfl, rfl⟩

theorem opEnds_kept (s : State) (d : DieId) : (State.opEnds s d).pending = s.pending ∧ (State.opEnds s d).life.fuses = s.life.fuses := by
  unfold State.opEnds
  (try dsimp only [State.commit, State.draw])
  repeat' split
  all_goals first | (simp only [setDie_kept, setMedia_kept, foldl_kept, and_self, implies_true]; done) | exact ⟨rfl, rfl⟩

theorem leaveShares_kept (s : State) (w row i : Nat) (gone : List Work) : (State.leaveShares s w row i gone).pending = s.pending ∧ (State.leaveShares s w row i gone).life.fuses = s.life.fuses := by
  unfold State.leaveShares
  (try dsimp only [State.commit, State.draw])
  repeat' split
  all_goals first | (simp only [joinParity_kept, rowStep_kept, foldl_kept, and_self, implies_true]; done) | exact ⟨rfl, rfl⟩

theorem failDie_kept (s : State) (d : DieId) (cause : Nat) : (State.failDie s d cause).pending = s.pending ∧ (State.failDie s d cause).life.fuses = s.life.fuses := by
  unfold State.failDie
  (try dsimp only [State.commit, State.draw])
  repeat' split
  all_goals first | (simp only [event_kept, leaveShares_kept, nameSpare_kept, redirect_kept, setDie_kept, setMedia_kept, foldl_kept, and_self, implies_true]; done) | exact ⟨rfl, rfl⟩

theorem nameAgain_kept (s : State) (w : Nat) : (State.nameAgain s w).pending = s.pending ∧ (State.nameAgain s w).life.fuses = s.life.fuses := by
  unfold State.nameAgain
  (try dsimp only [State.commit, State.draw])
  repeat' split
  all_goals first | (simp only [nameSpare_kept, foldl_kept, and_self, implies_true]; done) | exact ⟨rfl, rfl⟩

theorem wearEv_kept (s : State) (w : Nat) (k : WearKind) (n : Nat) : (State.wearEv s w k n).pending = s.pending ∧ (State.wearEv s w k n).life.fuses = s.life.fuses := by
  unfold State.wearEv
  (try dsimp only [State.commit, State.draw])
  repeat' split
  all_goals first | (simp only [setWard_kept, foldl_kept, and_self, implies_true]; done) | exact ⟨rfl, rfl⟩

theorem retirePhys_kept (s : State) (d : DieId) (plane b : Nat) : (State.retirePhys s d plane b).pending = s.pending ∧ (State.retirePhys s d plane b).life.fuses = s.life.fuses := by
  unfold State.retirePhys
  (try dsimp only [State.commit, State.draw])
  repeat' split
  all_goals first | (simp only [failDie_kept, loftRecord_kept, setDie_kept, setMedia_kept, wearEv_kept, foldl_kept, and_self, implies_true]; done) | exact ⟨rfl, rfl⟩

theorem retireBlock_kept (s : State) (d : DieId) (plane k : Nat) : (State.retireBlock s d plane k).pending = s.pending ∧ (State.retireBlock s d plane k).life.fuses = s.life.fuses := by
  unfold State.retireBlock
  (try dsimp only [State.commit, State.draw])
  repeat' split
  all_goals first | (simp only [retirePhys_kept, foldl_kept, and_self, implies_true]; done) | exact ⟨rfl, rfl⟩

theorem capCheck_kept (s : State) : (State.capCheck s).pending = s.pending ∧ (State.capCheck s).life.fuses = s.life.fuses := by
  unfold State.capCheck
  (try dsimp only [State.commit, State.draw])
  repeat' split
  all_goals first | (simp only [event_kept, setMedia_kept, foldl_kept, and_self, implies_true]; done) | exact ⟨rfl, rfl⟩

theorem noSource_kept (s : State) (d : DieId) (k : Nat) : (State.noSource s d k).pending = s.pending ∧ (State.noSource s d k).life.fuses = s.life.fuses := by
  unfold State.noSource
  (try dsimp only [State.commit, State.draw])
  repeat' split
  all_goals first | (simp only [failDie_kept, journalRec_kept, leaveShares_kept, setMedia_kept, setMem_kept, foldl_kept, and_self, implies_true]; done) | exact ⟨rfl, rfl⟩

theorem drawPool_kept {s : State} {d : DieId} {plane : Nat} {x : Nat × State} (h : s.drawPool d plane = some x) :
    x.2.pending = s.pending ∧ x.2.life.fuses = s.life.fuses := by
  unfold State.drawPool State.poolBlock at h
  dsimp only at h
  split at h
  · rw [← Option.some.inj h]
    dsimp only
    exact setMedia_kept s _
  · split at h
    · cases h
    · split at h
      · rw [← Option.some.inj h]
        dsimp only
        exact setMedia_kept s _
      · obtain ⟨k, -, rfl⟩ := Option.map_eq_some_iff.mp h
        exact setMedia_kept s _
theorem drawFrom_kept {s : State} {d : DieId} {plane : Nat} {wet : Bool} {x : Nat × Bool × State}
    (h : s.drawFrom d plane wet = some x) : x.2.2.pending = s.pending ∧ x.2.2.life.fuses = s.life.fuses := by
  unfold State.drawFrom at h
  split at h
  · next e => cases h; exact drawPool_kept e
  · dsimp only at h
    repeat' split at h
    all_goals first
      | (cases h; done)
      | (cases h; simp only [setMedia_kept, setWard_kept, setSlot_kept, capCheck_kept, and_self]; done)

theorem replaceBlock_kept (s : State) (d : DieId) (plane k : Nat) : (State.replaceBlock s d plane k).pending = s.pending ∧ (State.replaceBlock s d plane k).life.fuses = s.life.fuses := by
  unfold State.replaceBlock
  split
  · next h =>
    have hd := drawFrom_kept h
    dsimp only at hd ⊢
    split
    · simp only [setGroup_kept, setMedia_kept, setBlock_kept, journalRec_kept]
      exact hd
    · simp only [setBlock_kept, journalRec_kept]
      exact hd
  · exact noSource_kept s _ _

theorem queueRetire_kept (s : State) (d : DieId) (k : Nat) (planes : List Nat) : (State.queueRetire s d k planes).pending = s.pending ∧ (State.queueRetire s d k planes).life.fuses = s.life.fuses := by
  unfold State.queueRetire
  (try dsimp only [State.commit, State.draw])
  repeat' split
  all_goals first | (simp only [setMedia_kept, foldl_kept, and_self, implies_true]; done) | exact ⟨rfl, rfl⟩

theorem wearBlock_kept (s : State) (p : Nat) : (State.wearBlock s p).pending = s.pending ∧ (State.wearBlock s p).life.fuses = s.life.fuses := by
  unfold State.wearBlock
  (try dsimp only [State.commit, State.draw])
  repeat' split
  all_goals first | (simp only [setMedia_kept, foldl_kept, and_self, implies_true]; done) | exact ⟨rfl, rfl⟩

theorem markRefresh_kept (s : State) (pri : Nat) (d : DieId) (k plane : Nat) : (State.markRefresh s pri d k plane).pending = s.pending ∧ (State.markRefresh s pri d k plane).life.fuses = s.life.fuses := by
  unfold State.markRefresh
  (try dsimp only [State.commit, State.draw])
  repeat' split
  all_goals first | (simp only [setMedia_kept, foldl_kept, and_self, implies_true]; done) | exact ⟨rfl, rfl⟩

theorem track_kept (s : State) (d : DieId) (k plane wl : Nat) (x : Decode) : (State.track s d k plane wl x).pending = s.pending ∧ (State.track s d k plane wl x).life.fuses = s.life.fuses := by
  unfold State.track
  (try dsimp only [State.commit, State.draw])
  repeat' split
  all_goals first | (simp only [feed_kept, setDie_kept, setGroup_kept, foldl_kept, and_self, implies_true]; done) | exact ⟨rfl, rfl⟩

theorem decoded_kept (s : State) (d : DieId) (k plane wl : Nat) (x : Decode) : (State.decoded s d k plane wl x).pending = s.pending ∧ (State.decoded s d k plane wl x).life.fuses = s.life.fuses := by
  unfold State.decoded
  (try dsimp only [State.commit, State.draw])
  repeat' split
  all_goals first | (simp only [markRefresh_kept, retry_kept, setGroup_kept, track_kept, wearEv_kept, foldl_kept, and_self, implies_true]; done) | exact ⟨rfl, rfl⟩

theorem retireWorst_kept (s : State) (d : DieId) (pb : Nat) : (State.retireWorst s d pb).pending = s.pending ∧ (State.retireWorst s d pb).life.fuses = s.life.fuses := by
  unfold State.retireWorst
  (try dsimp only [State.commit, State.draw])
  repeat' split
  all_goals first | (simp only [queueRetire_kept, replaceBlock_kept, retirePhys_kept, setDie_kept, foldl_kept, and_self, implies_true]; done) | exact ⟨rfl, rfl⟩

theorem listDefect_kept (s : State) (d : DieId) (k l : Nat) : (State.listDefect s d k l).pending = s.pending ∧ (State.listDefect s d k l).life.fuses = s.life.fuses := by
  unfold State.listDefect
  (try dsimp only [State.commit, State.draw])
  repeat' split
  all_goals first | (simp only [retireWorst_kept, setDie_kept, foldl_kept, and_self, implies_true]; done) | exact ⟨rfl, rfl⟩

theorem feed_kept (s : State) (d : DieId) (k plane wl : Nat) (x : Decode) : (State.feed s d k plane wl x).pending = s.pending ∧ (State.feed s d k plane wl x).life.fuses = s.life.fuses := by
  unfold State.feed
  (try dsimp only [State.commit, State.draw])
  repeat' split
  all_goals first | (simp only [decoded_kept, listDefect_kept, setGroup_kept, foldl_kept, and_self, implies_true]; done) | exact ⟨rfl, rfl⟩

theorem queueUnit_kept (s : State) (n pu cls tenant : Nat) : (State.queueUnit s n pu cls tenant).pending = s.pending ∧ (State.queueUnit s n pu cls tenant).life.fuses = s.life.fuses := by
  unfold State.queueUnit
  (try dsimp only [State.commit, State.draw])
  repeat' split
  all_goals first | (simp only [joinParity_kept, queueParity_kept, setMedia_kept, foldl_kept, and_self, implies_true]; done) | exact ⟨rfl, rfl⟩

theorem queueUnits_kept (s : State) (n a b cls tenant : Nat) : (State.queueUnits s n a b cls tenant).pending = s.pending ∧ (State.queueUnits s n a b cls tenant).life.fuses = s.life.fuses := by
  unfold State.queueUnits
  (try dsimp only [State.commit, State.draw])
  repeat' split
  all_goals first | (simp only [queueUnit_kept, foldl_kept, and_self, implies_true]; done) | exact ⟨rfl, rfl⟩

theorem dropSlotWork_kept (s : State) (n : Nat) : (State.dropSlotWork s n).pending = s.pending ∧ (State.dropSlotWork s n).life.fuses = s.life.fuses := by
  unfold State.dropSlotWork
  (try dsimp only [State.commit, State.draw])
  repeat' split
  all_goals first | (simp only [setMedia_kept, foldl_kept, and_self, implies_true]; done) | exact ⟨rfl, rfl⟩

theorem queueErase_kept (s : State) (n : Nat) : (State.queueErase s n).pending = s.pending ∧ (State.queueErase s n).life.fuses = s.life.fuses := by
  unfold State.queueErase
  (try dsimp only [State.commit, State.draw])
  repeat' split
  all_goals first | (simp only [clearShares_kept, setGroup_kept, setMedia_kept, foldl_kept, and_self, implies_true]; done) | exact ⟨rfl, rfl⟩

theorem endCopies_kept (s : State) (n : Nat) : (State.endCopies s n).pending = s.pending ∧ (State.endCopies s n).life.fuses = s.life.fuses := by
  unfold State.endCopies
  (try dsimp only [State.commit, State.draw])
  repeat' split
  all_goals first | (simp only [setMedia_kept, foldl_kept, and_self, implies_true]; done) | exact ⟨rfl, rfl⟩

theorem endMoves_kept (s : State) (n : Nat) : (State.endMoves s n).pending = s.pending ∧ (State.endMoves s n).life.fuses = s.life.fuses := by
  unfold State.endMoves
  dsimp only
  generalize slotIdx n = k
  have h : ∀ (x : State) (p : DieId × Nat × List Nat), (p.2.2.foldl (fun s q => s.retireBlock p.1 q k) x).pending = x.pending ∧
      (p.2.2.foldl (fun s q => s.retireBlock p.1 q k) x).life.fuses = x.life.fuses :=
    fun x p => foldl_kept fun y q => retireBlock_kept y _ _ _
  generalize hl : (List.filter _ _ : List (DieId × Nat × List Nat)) = l
  generalize hy : (State.setMedia _ _) = y
  have hy' : y.pending = s.pending ∧ y.life.fuses = s.life.fuses := by
    subst hy
    simp only [setMedia_kept, endCopies_kept, and_self]
  generalize hz : List.foldl (fun s (e : DieId × Nat × List Nat) => _) y l = z
  have hz' : z.pending = y.pending ∧ z.life.fuses = y.life.fuses := by
    subst hz
    exact foldl_kept h
  have hw := foldl_kept (f := fun (s : State) d => (List.range 4).foldl (fun s p =>
    if s.media.retired.contains (s.phys d p k) && (s.memberOf d).isSome && !(s.die d).failed then s.replaceBlock d p k else s) s)
    (fun x d => foldl_kept fun y p => by
      split
      · exact replaceBlock_kept y _ _ _
      · exact ⟨rfl, rfl⟩) (l := z.slotDies n) (x := z)
  rw [hw.1, hw.2, hz'.1, hz'.2]
  exact hy'

theorem releaseSlot_kept (s : State) (n : Nat) : (State.releaseSlot s n).pending = s.pending ∧ (State.releaseSlot s n).life.fuses = s.life.fuses := by
  unfold State.releaseSlot
  (try dsimp only [State.commit, State.draw])
  repeat' split
  all_goals first | (simp only [dropSlotWork_kept, endMoves_kept, journalRec_kept, queueErase_kept, setSlot_kept, foldl_kept, and_self, implies_true]; done) | exact ⟨rfl, rfl⟩

theorem freeVictims_kept (s : State) (w : Nat) : (State.freeVictims s w).pending = s.pending ∧ (State.freeVictims s w).life.fuses = s.life.fuses := by
  unfold State.freeVictims
  refine foldl_kept fun x n => ?_
  dsimp only
  split <;> simp only [dropSlotWork_kept, endMoves_kept, journalRec_kept, queueErase_kept, setMedia_kept, setSlot_kept, setWard_kept, and_self]

theorem copiesDone_kept (s : State) (w : Nat) : (State.copiesDone s w).pending = s.pending ∧ (State.copiesDone s w).life.fuses = s.life.fuses := by
  unfold State.copiesDone
  have h : ∀ (l : List Copy), (l.foldl (fun (s : State) c => match look s.rand c.key with
    | some u =>
      if u.slot = c.slot && u.off = c.off then
        ({ s with rand := put s.rand c.key { u with slot := c.toSlot, off := c.toOff } }.journalRec 1).setWard w fun x =>
          { x with copied := x.copied + 1 }
      else s
    | none => s) s).pending = s.pending ∧ (l.foldl (fun (s : State) c => match look s.rand c.key with
    | some u =>
      if u.slot = c.slot && u.off = c.off then
        ({ s with rand := put s.rand c.key { u with slot := c.toSlot, off := c.toOff } }.journalRec 1).setWard w fun x =>
          { x with copied := x.copied + 1 }
      else s
    | none => s) s).life.fuses = s.life.fuses := fun l => foldl_kept fun x c => by
      split
      · split
        · simp only [setWard_kept, journalRec_kept, and_self]
        · exact ⟨rfl, rfl⟩
      · exact ⟨rfl, rfl⟩
  simp only [freeVictims_kept, setMedia_kept]
  exact h _

theorem writeRow_kept (s : State) (n r : Nat) (us : List StUnit) : (State.writeRow s n r us).pending = s.pending ∧ (State.writeRow s n r us).life.fuses = s.life.fuses := by
  unfold State.writeRow
  (try dsimp only [State.commit, State.draw])
  repeat' split
  all_goals first | (simp only [joinParity_kept, setMedia_kept, foldl_kept, and_self, implies_true]; done) | exact ⟨rfl, rfl⟩

/-! ### CmdOps -/

theorem sendOut_kept (s : State) (r : Ref) (k : Nat) (b : Bytes) : (State.sendOut s r k b).pending = s.pending ∧ (State.sendOut s r k b).life.fuses = s.life.fuses := by
  unfold State.sendOut
  (try dsimp only [State.commit, State.draw])
  repeat' split
  all_goals first | (simp only [issue_kept, foldl_kept, and_self, implies_true]; done) | exact ⟨rfl, rfl⟩

theorem finishRead_kept (s : State) (r : Ref) : (State.finishRead s r).pending = s.pending ∧ (State.finishRead s r).life.fuses = s.life.fuses := by
  unfold State.finishRead
  (try dsimp only [State.commit, State.draw])
  repeat' split
  all_goals first | (simp only [atPoint_kept, complete_kept, sendOut_kept, foldl_kept, and_self, implies_true]; done) | exact ⟨rfl, rfl⟩

theorem unitServed_kept (s : State) (r : Ref) (i : Nat) (b : Option Bytes) : (State.unitServed s r i b).pending = s.pending ∧ (State.unitServed s r i b).life.fuses = s.life.fuses := by
  unfold State.unitServed
  (try dsimp only [State.commit, State.draw])
  repeat' split
  all_goals first | (simp only [finishRead_kept, setCmd_kept, foldl_kept, and_self, implies_true]; done) | exact ⟨rfl, rfl⟩

theorem postDue_kept (s : State) : (State.postDue s).pending = s.pending ∧ (State.postDue s).life.fuses = s.life.fuses := by
  unfold State.postDue
  (try dsimp only [State.commit, State.draw])
  repeat' split
  all_goals first | (simp only [complete_kept, foldl_kept, and_self, implies_true]; done) | exact ⟨rfl, rfl⟩

theorem select_kept (s : State) (bankB : Bool) : (State.select s bankB).pending = s.pending ∧ (State.select s bankB).life.fuses = s.life.fuses := by
  unfold State.select
  (try dsimp only [State.commit, State.draw])
  repeat' split
  all_goals first | (simp only [loftRecord_kept, foldl_kept, and_self, implies_true]; done) | exact ⟨rfl, rfl⟩

theorem begin__kept (s : State) (r : Ref) (p : Point) : (State.begin_ s r p).pending = s.pending ∧ (State.begin_ s r p).life.fuses = s.life.fuses := by
  unfold State.begin_
  (try dsimp only [State.commit, State.draw])
  repeat' split
  all_goals first | (simp only [setCmd_kept, foldl_kept, and_self, implies_true]; done) | exact ⟨rfl, rfl⟩

/-! ### Trace -/

theorem setCore_kept (s : State) (n : Nat) (f : Core → Core) : (State.setCore s n f).pending = s.pending ∧ (State.setCore s n f).life.fuses = s.life.fuses := by
  unfold State.setCore
  (try dsimp only [State.commit, State.draw])
  repeat' split
  all_goals first | (simp only [foldl_kept, and_self, implies_true]; done) | exact ⟨rfl, rfl⟩

theorem setHamlet_kept (s : State) (h : Nat) (f : Hamlet → Hamlet) : (State.setHamlet s h f).pending = s.pending ∧ (State.setHamlet s h f).life.fuses = s.life.fuses := by
  unfold State.setHamlet
  (try dsimp only [State.commit, State.draw])
  repeat' split
  all_goals first | (simp only [foldl_kept, and_self, implies_true]; done) | exact ⟨rfl, rfl⟩

theorem putTrace_kept (s : State) (b : Bytes) : (State.putTrace s b).pending = s.pending ∧ (State.putTrace s b).life.fuses = s.life.fuses := by
  unfold State.putTrace
  (try dsimp only [State.commit, State.draw])
  repeat' split
  all_goals first | (simp only [foldl_kept, and_self, implies_true]; done) | exact ⟨rfl, rfl⟩

theorem trace_kept (s : State) (e h c : Nat) (i : Option Item) (flow aux : Nat) : (State.trace s e h c i flow aux).pending = s.pending ∧ (State.trace s e h c i flow aux).life.fuses = s.life.fuses := by
  unfold State.trace
  (try dsimp only [State.commit, State.draw])
  repeat' split
  all_goals first | (simp only [putTrace_kept, foldl_kept, and_self, implies_true]; done) | exact ⟨rfl, rfl⟩

theorem traceGrant_kept (s : State) (f n : Nat) : (State.traceGrant s f n).pending = s.pending ∧ (State.traceGrant s f n).life.fuses = s.life.fuses := by
  unfold State.traceGrant
  (try dsimp only [State.commit, State.draw])
  repeat' split
  all_goals first | (simp only [putTrace_kept, foldl_kept, and_self, implies_true]; done) | exact ⟨rfl, rfl⟩

theorem traceLost_kept (s : State) : (State.traceLost s).pending = s.pending ∧ (State.traceLost s).life.fuses = s.life.fuses := by
  unfold State.traceLost
  (try dsimp only [State.commit, State.draw])
  repeat' split
  all_goals first | (simp only [trace_kept, foldl_kept, and_self, implies_true]; done) | exact ⟨rfl, rfl⟩

/-! ### SieveOps -/

theorem retireRow_kept (s : State) (p : Nat) : (State.retireRow s p).pending = s.pending ∧ (State.retireRow s p).life.fuses = s.life.fuses := by
  unfold State.retireRow
  (try dsimp only [State.commit, State.draw])
  repeat' split
  all_goals first | (simp only [event_kept, loftRecord_kept, foldl_kept, and_self, implies_true]; done) | exact ⟨rfl, rfl⟩

theorem repairRow_kept (s : State) (p : Nat) : (State.repairRow s p).pending = s.pending ∧ (State.repairRow s p).life.fuses = s.life.fuses := by
  unfold State.repairRow
  (try dsimp only [State.commit, State.draw])
  repeat' split
  all_goals first | (simp only [event_kept, retireRow_kept, foldl_kept, and_self, implies_true]; done) | exact ⟨rfl, rfl⟩

theorem putRow_kept (s : State) (p : Nat) (r : Row) : (State.putRow s p r).pending = s.pending ∧ (State.putRow s p r).life.fuses = s.life.fuses := by
  unfold State.putRow
  (try dsimp only [State.commit, State.draw])
  repeat' split
  all_goals first | (simp only [foldl_kept, and_self, implies_true]; done) | exact ⟨rfl, rfl⟩

theorem clearSeg_kept (s : State) (seg : Nat) : (State.clearSeg s seg).pending = s.pending ∧ (State.clearSeg s seg).life.fuses = s.life.fuses := by
  unfold State.clearSeg
  (try dsimp only [State.commit, State.draw])
  repeat' split
  all_goals first | (simp only [foldl_kept, and_self, implies_true]; done) | exact ⟨rfl, rfl⟩

theorem addSeg_kept (s : State) (f : Nat) : (State.addSeg s f).pending = s.pending ∧ (State.addSeg s f).life.fuses = s.life.fuses := by
  unfold State.addSeg
  (try dsimp only [State.commit, State.draw])
  repeat' split
  all_goals first | (simp only [clearSeg_kept, foldl_kept, and_self, implies_true]; done) | exact ⟨rfl, rfl⟩

theorem dropSeg_kept (s : State) (f : Nat) : (State.dropSeg s f).pending = s.pending ∧ (State.dropSeg s f).life.fuses = s.life.fuses := by
  unfold State.dropSeg
  (try dsimp only [State.commit, State.draw])
  repeat' split
  all_goals first | (simp only [clearSeg_kept, foldl_kept, and_self, implies_true]; done) | exact ⟨rfl, rfl⟩

theorem setGrant_kept (s : State) (f g : Nat) : (State.setGrant s f g).pending = s.pending ∧ (State.setGrant s f g).life.fuses = s.life.fuses := by
  unfold State.setGrant
  (try dsimp only [State.commit, State.draw])
  repeat' split
  all_goals first | (simp only [addSeg_kept, dropSeg_kept, setFn_kept, foldl_kept, and_self, implies_true]; done) | exact ⟨rfl, rfl⟩

/-! ### Bell -/

theorem resumeIfIdle_kept (s : State) (d : DieId) : (State.resumeIfIdle s d).pending = s.pending ∧ (State.resumeIfIdle s d).life.fuses = s.life.fuses := by
  unfold State.resumeIfIdle
  (try dsimp only [State.commit, State.draw])
  repeat' split
  all_goals first | (simp only [resume_kept, setDie_kept, foldl_kept, and_self, implies_true]; done) | exact ⟨rfl, rfl⟩

theorem dropSlices_kept (s : State) (p : Slice → Bool) : (State.dropSlices s p).pending = s.pending ∧ (State.dropSlices s p).life.fuses = s.life.fuses := by
  unfold State.dropSlices
  (try dsimp only [State.commit, State.draw])
  repeat' split
  all_goals first | (simp only [resumeIfIdle_kept, setMedia_kept, foldl_kept, and_self, implies_true]; done) | exact ⟨rfl, rfl⟩

theorem dropReads_kept (s : State) (p : SliceFor → Bool) : (State.dropReads s p).pending = s.pending ∧ (State.dropReads s p).life.fuses = s.life.fuses := by
  unfold State.dropReads
  (try dsimp only [State.commit, State.draw])
  repeat' split
  all_goals first | (simp only [dropSlices_kept, setMedia_kept, foldl_kept, and_self, implies_true]; done) | exact ⟨rfl, rfl⟩

/-! ### FnOps -/

theorem pickEntry_kept (s : State) (isCq : Bool) : ((State.pickEntry s isCq).2).pending = s.pending ∧ ((State.pickEntry s isCq).2).life.fuses = s.life.fuses := by
  unfold State.pickEntry
  (try dsimp only [State.commit, State.draw])
  repeat' split
  all_goals first | (simp only [draw_kept, foldl_kept, and_self, implies_true]; done) | exact ⟨rfl, rfl⟩

theorem newRing_kept (s : State) (f n : Nat) (b : Bytes) (k : Nat) : (State.newRing s f n b k).pending = s.pending ∧ (State.newRing s f n b k).life.fuses = s.life.fuses := by
  unfold State.newRing
  (try dsimp only [State.commit, State.draw])
  repeat' split
  all_goals first | (simp only [notify_kept, pickEntry_kept, setFn_kept, foldl_kept, and_self, implies_true]; done) | exact ⟨rfl, rfl⟩

theorem dropOps_kept (s : State) (f : Nat) : (State.dropOps s f).pending = s.pending ∧ (State.dropOps s f).life.fuses = s.life.fuses := by
  unfold State.dropOps
  (try dsimp only [State.commit, State.draw])
  repeat' split
  all_goals first | (simp only [setFn_kept, foldl_kept, and_self, implies_true]; done) | exact ⟨rfl, rfl⟩

theorem resetRings_kept (s : State) (f : Nat) : (State.resetRings s f).pending = s.pending ∧ (State.resetRings s f).life.fuses = s.life.fuses := by
  unfold State.resetRings
  (try dsimp only [State.commit, State.draw])
  repeat' split
  all_goals first | (simp only [dropOps_kept, setFn_kept, foldl_kept, and_self, implies_true]; done) | exact ⟨rfl, rfl⟩

theorem resetAdmin_kept (s : State) (i : Nat) : (State.resetAdmin s i).pending = s.pending ∧ (State.resetAdmin s i).life.fuses = s.life.fuses := by
  unfold State.resetAdmin
  (try dsimp only [State.commit, State.draw])
  repeat' split
  all_goals first | (simp only [notify_kept, setCq_kept, setFn_kept, setSq_kept, foldl_kept, and_self, implies_true]; done) | exact ⟨rfl, rfl⟩

theorem adminAtBoundary_kept (s : State) : (State.adminAtBoundary s).pending = s.pending ∧ (State.adminAtBoundary s).life.fuses = s.life.fuses := by
  unfold State.adminAtBoundary
  (try dsimp only [State.commit, State.draw])
  repeat' split
  all_goals first | (simp only [resetAdmin_kept, foldl_kept, and_self, implies_true]; done) | exact ⟨rfl, rfl⟩

theorem releaseSems_kept (s : State) (f : Nat) : (State.releaseSems s f).pending = s.pending ∧ (State.releaseSems s f).life.fuses = s.life.fuses := by
  unfold State.releaseSems
  (try dsimp only [State.commit, State.draw])
  repeat' split
  all_goals first | (simp only [commit_kept, foldl_kept, and_self, implies_true]; done) | exact ⟨rfl, rfl⟩

theorem liftFences_kept (s : State) (f : Nat) : (State.liftFences s f).pending = s.pending ∧ (State.liftFences s f).life.fuses = s.life.fuses := by
  unfold State.liftFences
  (try dsimp only [State.commit, State.draw])
  repeat' split
  all_goals first | (simp only [foldl_kept, and_self, implies_true]; done) | exact ⟨rfl, rfl⟩

/-! ### HealthOps -/

theorem setRank_kept (s : State) (n : Nat) (f : Rank → Rank) : (State.setRank s n f).pending = s.pending ∧ (State.setRank s n f).life.fuses = s.life.fuses := by
  unfold State.setRank
  (try dsimp only [State.commit, State.draw])
  repeat' split
  all_goals first | (simp only [foldl_kept, and_self, implies_true]; done) | exact ⟨rfl, rfl⟩

theorem evaluate_kept (s : State) : (State.evaluate s).pending = s.pending ∧ (State.evaluate s).life.fuses = s.life.fuses := by
  unfold State.evaluate
  (try dsimp only [State.commit, State.draw])
  repeat' split
  all_goals first | (simp only [event_kept, foldl_kept, and_self, implies_true]; done) | exact ⟨rfl, rfl⟩

theorem sampleTelem_kept (s : State) : (State.sampleTelem s).pending = s.pending ∧ (State.sampleTelem s).life.fuses = s.life.fuses := by
  unfold State.sampleTelem
  (try dsimp only [State.commit, State.draw])
  repeat' split
  all_goals first | (simp only [foldl_kept, and_self, implies_true]; done) | exact ⟨rfl, rfl⟩

/-! ### Window -/

theorem execSmbusRead_kept (s : State) : ∀ t, execSmbusRead s = .next t → t.pending = s.pending ∧ t.life.fuses = s.life.fuses := by
  intro t h
  unfold execSmbusRead at h
  (try dsimp only [go, State.commit, State.draw] at h)
  repeat' split at h
  all_goals first | (cases h; done) | (cases h; simp only [tell_kept, foldl_kept, and_self, implies_true]; done) | (cases h; exact ⟨rfl, rfl⟩)

theorem execSmbusAlertResponse_kept (s : State) : ∀ t, execSmbusAlertResponse s = .next t → t.pending = s.pending ∧ t.life.fuses = s.life.fuses := by
  intro t h
  unfold execSmbusAlertResponse at h
  (try dsimp only [go, State.commit, State.draw] at h)
  repeat' split at h
  all_goals first | (cases h; done) | (cases h; simp only [tell_kept, foldl_kept, and_self, implies_true]; done) | (cases h; exact ⟨rfl, rfl⟩)

/-! ### PortRegs -/

theorem setPortWord_kept (s : State) (p : PortId) (off : Nat) (v : W64) : (State.setPortWord s p off v).pending = s.pending ∧ (State.setPortWord s p off v).life.fuses = s.life.fuses := by
  unfold State.setPortWord
  (try dsimp only [State.commit, State.draw])
  repeat' split
  all_goals first | (simp only [setPort_kept, foldl_kept, and_self, implies_true]; done) | exact ⟨rfl, rfl⟩

theorem resolve_kept (s : State) (p : PortId) (a : W128) : (State.resolve s p a).pending = s.pending ∧ (State.resolve s p a).life.fuses = s.life.fuses := by
  unfold State.resolve
  (try dsimp only [State.commit, State.draw])
  repeat' split
  all_goals first | (simp only [setPort_kept, tell_kept, foldl_kept, and_self, implies_true]; done) | exact ⟨rfl, rfl⟩

theorem askHops_kept (s : State) (p : PortId) : (State.askHops s p).pending = s.pending ∧ (State.askHops s p).life.fuses = s.life.fuses := by
  unfold State.askHops
  (try dsimp only [State.commit, State.draw])
  repeat' split
  all_goals first | (simp only [tell_kept, foldl_kept, and_self, implies_true]; done) | exact ⟨rfl, rfl⟩

theorem rxDropped_kept (s : State) (p : PortId) : (State.rxDropped s p).pending = s.pending ∧ (State.rxDropped s p).life.fuses = s.life.fuses := by
  unfold State.rxDropped
  (try dsimp only [State.commit, State.draw])
  repeat' split
  all_goals first | (simp only [setPort_kept, foldl_kept, and_self, implies_true]; done) | exact ⟨rfl, rfl⟩

theorem onUp_kept (s : State) (p : PortId) (k : State → State) (hk : ∀ v0, (k v0).pending = v0.pending ∧ (k v0).life.fuses = v0.life.fuses) : ∀ t, State.onUp s p k = .next t → t.pending = s.pending ∧ t.life.fuses = s.life.fuses := by
  intro t h
  unfold State.onUp at h
  (try dsimp only [go, State.commit, State.draw] at h)
  repeat' split at h
  all_goals first | (cases h; done) | (cases h; simp only [hk, foldl_kept, and_self, implies_true]; done) | (cases h; exact ⟨rfl, rfl⟩)

/-! ### Ring -/

theorem askHead_kept (s : State) (f n : Nat) (k : Cq) : (State.askHead s f n k).pending = s.pending ∧ (State.askHead s f n k).life.fuses = s.life.fuses := by
  unfold State.askHead
  (try dsimp only [State.commit, State.draw])
  repeat' split
  all_goals first | (simp only [issue_kept, setCq_kept, foldl_kept, and_self, implies_true]; done) | exact ⟨rfl, rfl⟩

theorem fetch_kept (s : State) (f n : Nat) : ((State.fetch s f n).2).pending = s.pending ∧ ((State.fetch s f n).2).life.fuses = s.life.fuses := by
  unfold State.fetch
  (try dsimp only [State.commit, State.draw])
  repeat' split
  all_goals first | (simp only [askHead_kept, issue_kept, setCq_kept, setSq_kept, foldl_kept, and_self, implies_true]; done) | exact ⟨rfl, rfl⟩

theorem fetchFn_kept (s : State) (f : Nat) : (State.fetchFn s f).pending = s.pending ∧ (State.fetchFn s f).life.fuses = s.life.fuses := kept_of_besides (fetchFn_besides _ _)

theorem fetchAll_kept (s : State) : (State.fetchAll s).pending = s.pending ∧ (State.fetchAll s).life.fuses = s.life.fuses := by
  unfold State.fetchAll
  (try dsimp only [State.commit, State.draw])
  repeat' split
  all_goals first | (simp only [fetchFn_kept, foldl_kept, and_self, implies_true]; done) | exact ⟨rfl, rfl⟩

theorem checkBuffer_kept (s : State) (r : Ref) (c : Cmd) : (State.checkBuffer s r c).pending = s.pending ∧ (State.checkBuffer s r c).life.fuses = s.life.fuses := kept_of_besides (checkBuffer_besides _ _ _)

theorem checkEntry_kept (s : State) (r : Ref) (c : Cmd) : (State.checkEntry s r c).pending = s.pending ∧ (State.checkEntry s r c).life.fuses = s.life.fuses := kept_of_besides (checkEntry_besides _ _ _)

theorem checkRing_kept (s : State) (f n : Nat) : (State.checkRing s f n).pending = s.pending ∧ (State.checkRing s f n).life.fuses = s.life.fuses := kept_of_besides (checkRing_besides _ _ _)

theorem takeEntry_kept (s : State) (f n : Nat) (port : PortId) (e : Bytes) : (State.takeEntry s f n port e).pending = s.pending ∧ (State.takeEntry s f n port e).life.fuses = s.life.fuses := by
  unfold State.takeEntry
  (try dsimp only [State.commit, State.draw])
  repeat' split
  all_goals first | (simp only [fail_kept, setSq_kept, wakeUp_kept, foldl_kept, and_self, implies_true]; done) | exact ⟨rfl, rfl⟩

theorem endDiscard_kept (s : State) (f n : Nat) : (State.endDiscard s f n).pending = s.pending ∧ (State.endDiscard s f n).life.fuses = s.life.fuses := by
  unfold State.endDiscard
  (try dsimp only [State.commit, State.draw])
  repeat' split
  all_goals first | (simp only [complete_kept, setSq_kept, foldl_kept, and_self, implies_true]; done) | exact ⟨rfl, rfl⟩

theorem finishDiscard_kept (s : State) (f n : Nat) : (State.finishDiscard s f n).pending = s.pending ∧ (State.finishDiscard s f n).life.fuses = s.life.fuses := by
  unfold State.finishDiscard
  (try dsimp only [State.commit, State.draw])
  repeat' split
  all_goals first | (simp only [endDiscard_kept, foldl_kept, and_self, implies_true]; done) | exact ⟨rfl, rfl⟩

theorem execDoorbellPollIssue_kept (fn page : Nat) (s : State) : ∀ t, execDoorbellPollIssue fn page s = .next t → t.pending = s.pending ∧ t.life.fuses = s.life.fuses := by
  intro t h
  unfold execDoorbellPollIssue at h
  (try dsimp only [go, State.commit, State.draw] at h)
  repeat' split at h
  all_goals first | (cases h; done) | (cases h; simp only [issue_kept, setFn_kept, foldl_kept, and_self, implies_true]; done) | (cases h; exact ⟨rfl, rfl⟩)

theorem doorbellFreeze_kept (s : State) (f n : Nat) (q : Sq) (w : W64) : (State.doorbellFreeze s f n q w).pending = s.pending ∧ (State.doorbellFreeze s f n q w).life.fuses = s.life.fuses := by
  unfold State.doorbellFreeze
  (try dsimp only [State.commit, State.draw])
  repeat' split
  all_goals first | (simp only [notify_kept, setSq_kept, foldl_kept, and_self, implies_true]; done) | exact ⟨rfl, rfl⟩

theorem judgeWord_kept (s : State) (f n : Nat) (w : W64) : (State.judgeWord s f n w).pending = s.pending ∧ (State.judgeWord s f n w).life.fuses = s.life.fuses := by
  unfold State.judgeWord
  (try dsimp only [State.commit, State.draw])
  repeat' split
  all_goals first | (simp only [doorbellFreeze_kept, setFn_kept, setSq_kept, wakeUp_kept, foldl_kept, and_self, implies_true]; done) | exact ⟨rfl, rfl⟩

theorem execDoorbellPollResponse_kept (fn page : Nat) (words : List W64) (s : State) : ∀ t, execDoorbellPollResponse fn page words s = .next t → t.pending = s.pending ∧ t.life.fuses = s.life.fuses := by
  intro t h
  unfold execDoorbellPollResponse at h
  (try dsimp only [go, State.commit, State.draw] at h)
  repeat' split at h
  all_goals first | (cases h; done) | (cases h; simp only [answered_kept, fetchFn_kept, judgeWord_kept, setFn_kept, foldl_kept, and_self, implies_true]; done) | (cases h; exact ⟨rfl, rfl⟩)

theorem execRingDoze_kept (fn sq : Nat) (s : State) : ∀ t, execRingDoze fn sq s = .next t → t.pending = s.pending ∧ t.life.fuses = s.life.fuses := by
  intro t h
  unfold execRingDoze at h
  (try dsimp only [go, State.commit, State.draw] at h)
  repeat' split at h
  all_goals first | (cases h; done) | (cases h; simp only [setSq_kept, foldl_kept, and_self, implies_true]; done) | (cases h; exact ⟨rfl, rfl⟩)

theorem execKnock_kept (p : PortId) (k : KnockPkt) (s : State) : ∀ t, execKnock p k s = .next t → t.pending = s.pending ∧ t.life.fuses = s.life.fuses := by
  intro t h
  unfold execKnock at h
  (try dsimp only [go, State.commit, State.draw] at h)
  repeat' split at h
  all_goals first | (cases h; done) | (cases h; simp only [setFn_kept, setPort_kept, wakeUp_kept, foldl_kept, and_self, implies_true]; done) | (cases h; exact ⟨rfl, rfl⟩)

theorem execHeadWordResponse_kept (fn cq : Nat) (w : W64) (s : State) : ∀ t, execHeadWordResponse fn cq w s = .next t → t.pending = s.pending ∧ t.life.fuses = s.life.fuses := by
  intro t h
  unfold execHeadWordResponse at h
  (try dsimp only [go, State.commit, State.draw] at h)
  repeat' split at h
  all_goals first | (cases h; done) | (cases h; simp only [answered_kept, fetchFn_kept, setCq_kept, setFn_kept, foldl_kept, and_self, implies_true]; done) | (cases h; exact ⟨rfl, rfl⟩)

theorem execChainedListResponse_kept (r : Ref) (data : Bytes) (s : State) : ∀ t, execChainedListResponse r data s = .next t → t.pending = s.pending ∧ t.life.fuses = s.life.fuses := by
  intro t h
  unfold execChainedListResponse at h
  (try dsimp only [go, State.commit, State.draw] at h)
  repeat' split at h
  all_goals first | (cases h; done) | (cases h; simp only [answered_kept, checkBuffer_kept, checkRing_kept, setCmd_kept, foldl_kept, and_self, implies_true]; done) | (cases h; exact ⟨rfl, rfl⟩)

theorem execParameterBlockResponse_kept (r : Ref) (data : Bytes) (s : State) : ∀ t, execParameterBlockResponse r data s = .next t → t.pending = s.pending ∧ t.life.fuses = s.life.fuses := by
  intro t h
  unfold execParameterBlockResponse at h
  (try dsimp only [go, State.commit, State.draw] at h)
  repeat' split at h
  all_goals first | (cases h; done) | (cases h; simp only [answered_kept, atPoint_kept, checkRing_kept, failCheck_kept, setCmd_kept, foldl_kept, and_self, implies_true]; done) | (cases h; exact ⟨rfl, rfl⟩)

theorem execDataReadResponse_kept (r : Ref) (data : Bytes) (s : State) : ∀ t, execDataReadResponse r data s = .next t → t.pending = s.pending ∧ t.life.fuses = s.life.fuses := by
  intro t h
  unfold execDataReadResponse at h
  (try dsimp only [go, State.commit, State.draw] at h)
  repeat' split at h
  all_goals first | (cases h; done) | (cases h; simp only [answered_kept, setCmd_kept, foldl_kept, and_self, implies_true]; done) | (cases h; exact ⟨rfl, rfl⟩)

theorem creditOut_kept (s : State) (o : RdmaOp) : (State.creditOut s o).pending = s.pending ∧ (State.creditOut s o).life.fuses = s.life.fuses := by
  unfold State.creditOut
  (try dsimp only [State.commit, State.draw])
  repeat' split
  all_goals first | (simp only [foldl_kept, and_self, implies_true]; done) | exact ⟨rfl, rfl⟩

theorem execNotifyDeadline_kept (fn cq : Nat) (s : State) : ∀ t, execNotifyDeadline fn cq s = .next t → t.pending = s.pending ∧ t.life.fuses = s.life.fuses := by
  intro t h
  unfold execNotifyDeadline at h
  (try dsimp only [go, State.commit, State.draw] at h)
  repeat' split at h
  all_goals first | (cases h; done) | (cases h; simp only [sendDue_kept, setCq_kept, foldl_kept, and_self, implies_true]; done) | (cases h; exact ⟨rfl, rfl⟩)

theorem dropWork_kept (s : State) (r : Ref) : (State.dropWork s r).pending = s.pending ∧ (State.dropWork s r).life.fuses = s.life.fuses := by
  unfold State.dropWork
  dsimp only
  exact dropReads_kept s _

theorem execInternalTimeout_kept (r : Ref) (unit : Nat) (s : State) : ∀ t, execInternalTimeout r unit s = .next t → t.pending = s.pending ∧ t.life.fuses = s.life.fuses := by
  intro t h
  unfold execInternalTimeout at h
  (try dsimp only [go, State.commit, State.draw] at h)
  repeat' split at h
  all_goals first | (cases h; done) | (cases h; simp only [checkRing_kept, complete_kept, dropWork_kept, event_kept, foldl_kept, and_self, implies_true]; done) | (cases h; exact ⟨rfl, rfl⟩)

theorem execDrainEnd_kept (fn : Nat) (s : State) : ∀ t, execDrainEnd fn s = .next t → t.pending = s.pending ∧ t.life.fuses = s.life.fuses := by
  intro t h
  unfold execDrainEnd at h
  (try dsimp only [go, State.commit, State.draw] at h)
  repeat' split at h
  all_goals first | (cases h; done) | (cases h; simp only [complete_kept, setFn_kept, foldl_kept, and_self, implies_true]; done) | (cases h; exact ⟨rfl, rfl⟩)

end Sys2Proof.Machine
end

