-- ==== Sys2Proof/Laws/Table.lean ====
section
/-! SUPPORT. Laws of the sparse tables: what an entry reads as after each operation, and that every operation keeps the keys rising
and, for the operations with a default, the canonical form. -/

namespace Sys2Proof.Machine

variable {α : Type}

/-! ### Reads after writes -/

@[simp] theorem look_nil (k : Nat) : look ([] : Tab α) k = none := rfl

@[simp] theorem look_put_same (t : Tab α) (k : Nat) (v : α) : look (put t k v) k = some v := by
  induction t with
  | nil => simp [put, look]
  | cons e t ih =>
    simp only [put]
    split
    · simp [look]
    · split
      · simp [look]
      · rw [look, if_neg ‹_›, ih]

theorem look_put_other (t : Tab α) {k j : Nat} (v : α) (h : j ≠ k) : look (put t k v) j = look t j := by
  induction t with
  | nil => simp [put, look, Ne.symm h]
  | cons e t ih =>
    simp only [put]
    split
    · simp [look, Ne.symm h]
    · split
      · rename_i h'; subst h'; simp [look, Ne.symm h]
      · simp only [look, ih]

@[simp] theorem look_del_same (t : Tab α) (k : Nat) : look (del t k) k = none := by
  induction t with
  | nil => rfl
  | cons e t ih =>
    simp only [del]
    split
    · exact ih
    · rw [look, if_neg ‹_›, ih]

theorem look_del_other (t : Tab α) {k j : Nat} (h : j ≠ k) : look (del t k) j = look t j := by
  induction t with
  | nil => rfl
  | cons e t ih =>
    simp only [del]
    split
    · rename_i h'; subst h'; simp [look, Ne.symm h, ih]
    · simp only [look, ih]

@[simp] theorem look_adj_same (t : Tab α) (k : Nat) (f : α → α) : look (adj t k f) k = (look t k).map f := by
  induction t with
  | nil => rfl
  | cons e t ih =>
    simp only [adj]
    split <;> simp [look, *]

theorem look_adj_other (t : Tab α) {k j : Nat} (f : α → α) (h : j ≠ k) : look (adj t k f) j = look t j := by
  induction t with
  | nil => rfl
  | cons e t ih =>
    simp only [adj]
    split
    · rename_i h'; subst h'; simp [look, Ne.symm h]
    · simp only [look, ih]

section
variable [DecidableEq α]

@[simp] theorem lookD_putD_same (t : Tab α) (d : α) (k : Nat) (v : α) : lookD (putD t d k v) d k = v := by
  unfold putD lookD
  split <;> simp [*]

theorem lookD_putD_other (t : Tab α) (d e : α) {k j : Nat} (v : α) (h : j ≠ k) : lookD (putD t d k v) e j = lookD t e j := by
  unfold putD lookD
  split
  · rw [look_del_other t h]
  · rw [look_put_other t v h]

@[simp] theorem lookD_adjD_same (t : Tab α) (d : α) (k : Nat) (f : α → α) : lookD (adjD t d k f) d k = f (lookD t d k) :=
  lookD_putD_same t d k _

theorem lookD_adjD_other (t : Tab α) (d e : α) {k j : Nat} (f : α → α) (h : j ≠ k) : lookD (adjD t d k f) e j = lookD t e j :=
  lookD_putD_other t d e _ h
end

/-! ### Rising keys -/

/-- Every key of a table is above `b`. -/
def Above (b : Nat) (t : Tab α) : Prop := ∀ e ∈ t, b < e.1

theorem rising_cons {e : Nat × α} {t : Tab α} : Rising (e :: t) = true ↔ Above e.1 t ∧ Rising t = true := by
  induction t generalizing e with
  | nil => simp [Rising, Above]
  | cons x t ih =>
    obtain ⟨a, v⟩ := e; obtain ⟨b, w⟩ := x
    simp only [Rising, Bool.and_eq_true, decide_eq_true_eq]
    refine ⟨fun ⟨h, r⟩ => ⟨fun y hy => ?_, r⟩, fun ⟨h, r⟩ => ⟨h _ (List.mem_cons_self ..), r⟩⟩
    rcases List.mem_cons.mp hy with rfl | hy
    · exact h
    · exact Nat.lt_trans h ((ih.mp r).1 y hy)

theorem mem_put {t : Tab α} {k : Nat} {v : α} {e : Nat × α} (h : e ∈ put t k v) : e = (k, v) ∨ e ∈ t := by
  induction t with
  | nil => simpa [put] using h
  | cons x t ih =>
    simp only [put] at h
    split at h
    · simpa using h
    · split at h
      · rcases List.mem_cons.mp h with h | h
        · exact .inl h
        · exact .inr (List.mem_cons_of_mem _ h)
      · rcases List.mem_cons.mp h with h | h
        · exact .inr (h ▸ List.mem_cons_self ..)
        · exact (ih h).imp_right (List.mem_cons_of_mem _)

theorem mem_del {t : Tab α} {k : Nat} {e : Nat × α} (h : e ∈ del t k) : e ∈ t := by
  induction t with
  | nil => exact h
  | cons x t ih =>
    simp only [del] at h
    split at h
    · exact List.mem_cons_of_mem _ (ih h)
    · rcases List.mem_cons.mp h with h | h
      · exact h ▸ List.mem_cons_self ..
      · exact List.mem_cons_of_mem _ (ih h)

theorem rising_put {t : Tab α} (h : Rising t = true) (k : Nat) (v : α) : Rising (put t k v) = true := by
  induction t with
  | nil => rfl
  | cons x t ih =>
    obtain ⟨ha, hr⟩ := rising_cons.mp h
    simp only [put]
    split
    · rename_i hk
      refine rising_cons.mpr ⟨fun e he => ?_, h⟩
      rcases List.mem_cons.mp he with rfl | he
      · exact hk
      · exact Nat.lt_trans hk (ha e he)
    · split
      · rename_i hk; subst hk; exact rising_cons.mpr ⟨ha, hr⟩
      · refine rising_cons.mpr ⟨fun e he => ?_, ih hr⟩
        rcases mem_put he with rfl | he
        · show x.1 < k; omega
        · exact ha e he

theorem rising_del {t : Tab α} (h : Rising t = true) (k : Nat) : Rising (del t k) = true := by
  induction t with
  | nil => rfl
  | cons x t ih =>
    obtain ⟨ha, hr⟩ := rising_cons.mp h
    simp only [del]
    split
    · exact ih hr
    · exact rising_cons.mpr ⟨fun e he => ha e (mem_del he), ih hr⟩

theorem adj_keys (t : Tab α) (k : Nat) (f : α → α) : (adj t k f).map Prod.fst = t.map Prod.fst := by
  induction t with
  | nil => rfl
  | cons x t ih => simp only [adj]; split <;> simp [*]

theorem rising_iff_keys (t : Tab α) : Rising t = true ↔ (t.map Prod.fst).Pairwise (· < ·) := by
  induction t with
  | nil => simp [Rising]
  | cons x t ih =>
    rw [rising_cons, List.map_cons, List.pairwise_cons, ih]
    simp [Above]

theorem rising_adj {t : Tab α} (h : Rising t = true) (k : Nat) (f : α → α) : Rising (adj t k f) = true := by
  rw [rising_iff_keys, adj_keys, ← rising_iff_keys]; exact h

theorem rising_keep {t : Tab α} (h : Rising t = true) (p : Nat → α → Bool) : Rising (keep p t) = true := by
  have sub : ∀ t : Tab α, (keep p t).Sublist t := fun t => by
    induction t with
    | nil => exact .slnil
    | cons x t ih =>
      simp only [keep]
      split
      · exact ih.cons_cons _
      · exact ih.cons _
  rw [rising_iff_keys] at h ⊢
  exact h.sublist ((sub t).map _)

/-! ### Canonical form -/

theorem canon_iff [DecidableEq α] {d : α} {t : Tab α} : Canon d t = true ↔ Rising t = true ∧ ∀ e ∈ t, e.2 ≠ d := by
  simp [Canon]

theorem canon_putD [DecidableEq α] {d : α} {t : Tab α} (h : Canon d t = true) (k : Nat) (v : α) : Canon d (putD t d k v) = true := by
  obtain ⟨hr, hd⟩ := canon_iff.mp h
  unfold putD
  split
  · exact canon_iff.mpr ⟨rising_del hr k, fun e he => hd e (mem_del he)⟩
  · refine canon_iff.mpr ⟨rising_put hr k v, fun e he => ?_⟩
    rcases mem_put he with rfl | he
    · assumption
    · exact hd e he

theorem canon_adjD [DecidableEq α] {d : α} {t : Tab α} (h : Canon d t = true) (k : Nat) (f : α → α) : Canon d (adjD t d k f) = true :=
  canon_putD h k _

end Sys2Proof.Machine
end

