-- ==== Sys2Proof/Laws/Memory.lean ====
section
/-! SUPPORT. The memories of the stream cores (R385 to R390): a write keeps the canonical form. -/

namespace Sys2Proof.Machine

theorem look_append {α : Type} (t u : Tab α) (k : Nat) : look (t ++ u) k = (look t k).or (look u k) := by
  induction t with
  | nil => rfl
  | cons e t ih =>
    simp only [List.cons_append, look]
    split <;> simp [ih]

theorem look_keep {α : Type} (p : Nat → Bool) (t : Tab α) (k : Nat) :
    look (keep (fun i _ => p i) t) k = if p k then look t k else none := by
  induction t with
  | nil => simp [keep, look]
  | cons e t ih =>
    simp only [keep]
    by_cases hk : e.1 = k
    · subst hk
      by_cases hp : p e.1 = true <;> simp [look, hp, ih]
    · split
      · simp only [look, if_neg hk, ih]
      · simp only [look, if_neg hk, ih]

theorem mem_keep {α : Type} {p : Nat → α → Bool} {t : Tab α} {e : Nat × α} (h : e ∈ keep p t) : e ∈ t ∧ p e.1 e.2 = true := by
  induction t with
  | nil => cases h
  | cons x t ih =>
    simp only [keep] at h
    split at h
    · rcases List.mem_cons.mp h with rfl | h
      · exact ⟨List.mem_cons_self .., by assumption⟩
      · exact ⟨List.mem_cons_of_mem _ (ih h).1, (ih h).2⟩
    · exact ⟨List.mem_cons_of_mem _ (ih h).1, (ih h).2⟩

theorem sparse_cons (x : Byte) (b : Bytes) (a : Nat) :
    sparse (x :: b) a = if x = 0 then sparse b (a + 1) else (a, x) :: sparse b (a + 1) := by
  unfold sparse
  rw [List.zipIdx_cons, List.filterMap_cons]
  have h : (b.zipIdx (0 + 1)).filterMap (fun e => if e.1 = 0 then none else some (a + e.2, e.1)) =
      b.zipIdx.filterMap fun e => if e.1 = 0 then none else some (a + 1 + e.2, e.1) := by
    rw [List.zipIdx_succ, List.filterMap_map]
    refine List.filterMap_congr fun e _ => ?_
    simp [Nat.add_assoc, Nat.add_comm 1]
  rw [h]
  split <;> simp_all

theorem mem_sparse {b : Bytes} {a : Nat} {e : Nat × Byte} (h : e ∈ sparse b a) : a ≤ e.1 ∧ e.1 < a + b.length ∧ e.2 ≠ 0 := by
  induction b generalizing a with
  | nil => cases h
  | cons x b ih =>
    rw [sparse_cons] at h
    split at h
    · obtain ⟨h1, h2, h3⟩ := ih h
      simp only [List.length_cons]
      exact ⟨by omega, by omega, h3⟩
    · simp only [List.length_cons]
      rcases List.mem_cons.mp h with rfl | h
      · exact ⟨Nat.le_refl _, by omega, by assumption⟩
      · obtain ⟨h1, h2, h3⟩ := ih h
        exact ⟨by omega, by omega, h3⟩

/-- A write keeps the canonical form: rising addresses, no zero listed. -/
theorem canon_putBytes {t : Tab Byte} (h : Canon 0 t = true) (a : Nat) (b : Bytes) : Canon 0 (putBytes t a b) = true := by
  obtain ⟨hr, hd⟩ := canon_iff.mp h
  have rs : ∀ (b : Bytes) (a : Nat), Rising (sparse b a) = true := fun b => by
    induction b with
    | nil => exact fun _ => rfl
    | cons x b ih =>
      intro a
      rw [sparse_cons]
      split
      · exact ih _
      · exact rising_cons.mpr ⟨fun e he => Nat.lt_of_succ_le (mem_sparse he).1, ih _⟩
  refine canon_iff.mpr ⟨?_, fun e he => ?_⟩
  · rw [rising_iff_keys, putBytes, List.map_append, List.map_append, List.pairwise_append, List.pairwise_append, ← rising_iff_keys,
      ← rising_iff_keys, ← rising_iff_keys]
    refine ⟨⟨rising_keep hr _, rs _ _, ?_⟩, rising_keep hr _, ?_⟩
    · intro x hx y hy
      obtain ⟨e, he, rfl⟩ := List.mem_map.mp hx
      obtain ⟨f, hf, rfl⟩ := List.mem_map.mp hy
      have h1 := (mem_keep he).2
      have h2 := (mem_sparse hf).1
      simp only [decide_eq_true_eq] at h1
      omega
    · intro x hx y hy
      obtain ⟨f, hf, rfl⟩ := List.mem_map.mp hy
      have h2 := (mem_keep hf).2
      simp only [decide_eq_true_eq] at h2
      rcases List.mem_append.mp hx with hx | hx
      · obtain ⟨e, he, rfl⟩ := List.mem_map.mp hx
        have h1 := (mem_keep he).2
        simp only [decide_eq_true_eq] at h1
        omega
      · obtain ⟨e, he, rfl⟩ := List.mem_map.mp hx
        have h1 := (mem_sparse he).2.1
        omega
  · rcases List.mem_append.mp he with he | he
    · rcases List.mem_append.mp he with he | he
      · exact hd e (mem_keep he).1
      · exact (mem_sparse he).2.2
    · exact hd e (mem_keep he).1

end Sys2Proof.Machine
end

