-- ==== Sys2Proof/Laws/State.lean ====
section
/-! SUPPORT. What each update of State leaves in each field: one lemma per field per update, so that no proof unfolds a record update.
The updates of one part (a die, a block group, a command of a ring) are those of the table that holds it. -/

namespace Sys2Proof.Machine

variable (s : State)

/-! ### setFn -/

@[simp] theorem State.setFn_fns (f : Nat) (g : Fn → Fn) : (s.setFn f g).fns = adjD s.fns Fn.fresh f g := rfl
@[simp] theorem State.setFn_pending (f : Nat) (g : Fn → Fn) : (s.setFn f g).pending = s.pending := rfl
@[simp] theorem State.setFn_free (f : Nat) (g : Fn → Fn) : (s.setFn f g).free = s.free := rfl
@[simp] theorem State.setFn_out (f : Nat) (g : Fn → Fn) : (s.setFn f g).out = s.out := rfl
@[simp] theorem State.setFn_rdma (f : Nat) (g : Fn → Fn) : (s.setFn f g).rdma = s.rdma := rfl
@[simp] theorem State.setFn_ledger (f : Nat) (g : Fn → Fn) : (s.setFn f g).ledger = s.ledger := rfl
@[simp] theorem State.setFn_bell (f : Nat) (g : Fn → Fn) : (s.setFn f g).bell = s.bell := rfl
@[simp] theorem State.setFn_err (f : Nat) (g : Fn → Fn) : (s.setFn f g).err = s.err := rfl
@[simp] theorem State.setFn_boot (f : Nat) (g : Fn → Fn) : (s.setFn f g).boot = s.boot := rfl
@[simp] theorem State.setFn_portA (f : Nat) (g : Fn → Fn) : (s.setFn f g).portA = s.portA := rfl
@[simp] theorem State.setFn_portB (f : Nat) (g : Fn → Fn) : (s.setFn f g).portB = s.portB := rfl
@[simp] theorem State.setFn_net (f : Nat) (g : Fn → Fn) : (s.setFn f g).net = s.net := rfl
@[simp] theorem State.setFn_sqs (f : Nat) (g : Fn → Fn) : (s.setFn f g).sqs = s.sqs := rfl
@[simp] theorem State.setFn_cqs (f : Nat) (g : Fn → Fn) : (s.setFn f g).cqs = s.cqs := rfl
@[simp] theorem State.setFn_sems (f : Nat) (g : Fn → Fn) : (s.setFn f g).sems = s.sems := rfl
@[simp] theorem State.setFn_due (f : Nat) (g : Fn → Fn) : (s.setFn f g).due = s.due := rfl
@[simp] theorem State.setFn_aborts (f : Nat) (g : Fn → Fn) : (s.setFn f g).aborts = s.aborts := rfl
@[simp] theorem State.setFn_holds (f : Nat) (g : Fn → Fn) : (s.setFn f g).holds = s.holds := rfl
@[simp] theorem State.setFn_cursors (f : Nat) (g : Fn → Fn) : (s.setFn f g).cursors = s.cursors := rfl
@[simp] theorem State.setFn_zones (f : Nat) (g : Fn → Fn) : (s.setFn f g).zones = s.zones := rfl
@[simp] theorem State.setFn_units (f : Nat) (g : Fn → Fn) : (s.setFn f g).units = s.units := rfl
@[simp] theorem State.setFn_rand (f : Nat) (g : Fn → Fn) : (s.setFn f g).rand = s.rand := rfl
@[simp] theorem State.setFn_media (f : Nat) (g : Fn → Fn) : (s.setFn f g).media = s.media := rfl
@[simp] theorem State.setFn_staged (f : Nat) (g : Fn → Fn) : (s.setFn f g).staged = s.staged := rfl
@[simp] theorem State.setFn_jobs (f : Nat) (g : Fn → Fn) : (s.setFn f g).jobs = s.jobs := rfl
@[simp] theorem State.setFn_jobOrder (f : Nat) (g : Fn → Fn) : (s.setFn f g).jobOrder = s.jobOrder := rfl
@[simp] theorem State.setFn_cores (f : Nat) (g : Fn → Fn) : (s.setFn f g).cores = s.cores := rfl
@[simp] theorem State.setFn_hamlets (f : Nat) (g : Fn → Fn) : (s.setFn f g).hamlets = s.hamlets := rfl
@[simp] theorem State.setFn_disp (f : Nat) (g : Fn → Fn) : (s.setFn f g).disp = s.disp := rfl
@[simp] theorem State.setFn_sieve (f : Nat) (g : Fn → Fn) : (s.setFn f g).sieve = s.sieve := rfl
@[simp] theorem State.setFn_dram (f : Nat) (g : Fn → Fn) : (s.setFn f g).dram = s.dram := rfl
@[simp] theorem State.setFn_edc (f : Nat) (g : Fn → Fn) : (s.setFn f g).edc = s.edc := rfl
@[simp] theorem State.setFn_loft (f : Nat) (g : Fn → Fn) : (s.setFn f g).loft = s.loft := rfl
@[simp] theorem State.setFn_health (f : Nat) (g : Fn → Fn) : (s.setFn f g).health = s.health := rfl
@[simp] theorem State.setFn_events (f : Nat) (g : Fn → Fn) : (s.setFn f g).events = s.events := rfl
@[simp] theorem State.setFn_eventSeq (f : Nat) (g : Fn → Fn) : (s.setFn f g).eventSeq = s.eventSeq := rfl
@[simp] theorem State.setFn_clk (f : Nat) (g : Fn → Fn) : (s.setFn f g).clk = s.clk := rfl
@[simp] theorem State.setFn_pwr (f : Nat) (g : Fn → Fn) : (s.setFn f g).pwr = s.pwr := rfl
@[simp] theorem State.setFn_life (f : Nat) (g : Fn → Fn) : (s.setFn f g).life = s.life := rfl
@[simp] theorem State.setFn_tap (f : Nat) (g : Fn → Fn) : (s.setFn f g).tap = s.tap := rfl
@[simp] theorem State.setFn_smbOff (f : Nat) (g : Fn → Fn) : (s.setFn f g).smbOff = s.smbOff := rfl
@[simp] theorem State.setFn_act (f : Nat) (g : Fn → Fn) : (s.setFn f g).act = s.act := rfl
@[simp] theorem State.setFn_ctlCores (f : Nat) (g : Fn → Fn) : (s.setFn f g).ctlCores = s.ctlCores := rfl
@[simp] theorem State.setFn_ctlSpares (f : Nat) (g : Fn → Fn) : (s.setFn f g).ctlSpares = s.ctlSpares := rfl

/-! ### setSq -/

@[simp] theorem State.setSq_sqs (f n : Nat) (g : Sq → Sq) : (s.setSq f n g).sqs = adj s.sqs (ringNo f n) g := rfl
@[simp] theorem State.setSq_pending (f n : Nat) (g : Sq → Sq) : (s.setSq f n g).pending = s.pending := rfl
@[simp] theorem State.setSq_free (f n : Nat) (g : Sq → Sq) : (s.setSq f n g).free = s.free := rfl
@[simp] theorem State.setSq_out (f n : Nat) (g : Sq → Sq) : (s.setSq f n g).out = s.out := rfl
@[simp] theorem State.setSq_rdma (f n : Nat) (g : Sq → Sq) : (s.setSq f n g).rdma = s.rdma := rfl
@[simp] theorem State.setSq_ledger (f n : Nat) (g : Sq → Sq) : (s.setSq f n g).ledger = s.ledger := rfl
@[simp] theorem State.setSq_bell (f n : Nat) (g : Sq → Sq) : (s.setSq f n g).bell = s.bell := rfl
@[simp] theorem State.setSq_err (f n : Nat) (g : Sq → Sq) : (s.setSq f n g).err = s.err := rfl
@[simp] theorem State.setSq_boot (f n : Nat) (g : Sq → Sq) : (s.setSq f n g).boot = s.boot := rfl
@[simp] theorem State.setSq_portA (f n : Nat) (g : Sq → Sq) : (s.setSq f n g).portA = s.portA := rfl
@[simp] theorem State.setSq_portB (f n : Nat) (g : Sq → Sq) : (s.setSq f n g).portB = s.portB := rfl
@[simp] theorem State.setSq_net (f n : Nat) (g : Sq → Sq) : (s.setSq f n g).net = s.net := rfl
@[simp] theorem State.setSq_fns (f n : Nat) (g : Sq → Sq) : (s.setSq f n g).fns = s.fns := rfl
@[simp] theorem State.setSq_cqs (f n : Nat) (g : Sq → Sq) : (s.setSq f n g).cqs = s.cqs := rfl
@[simp] theorem State.setSq_sems (f n : Nat) (g : Sq → Sq) : (s.setSq f n g).sems = s.sems := rfl
@[simp] theorem State.setSq_due (f n : Nat) (g : Sq → Sq) : (s.setSq f n g).due = s.due := rfl
@[simp] theorem State.setSq_aborts (f n : Nat) (g : Sq → Sq) : (s.setSq f n g).aborts = s.aborts := rfl
@[simp] theorem State.setSq_holds (f n : Nat) (g : Sq → Sq) : (s.setSq f n g).holds = s.holds := rfl
@[simp] theorem State.setSq_cursors (f n : Nat) (g : Sq → Sq) : (s.setSq f n g).cursors = s.cursors := rfl
@[simp] theorem State.setSq_zones (f n : Nat) (g : Sq → Sq) : (s.setSq f n g).zones = s.zones := rfl
@[simp] theorem State.setSq_units (f n : Nat) (g : Sq → Sq) : (s.setSq f n g).units = s.units := rfl
@[simp] theorem State.setSq_rand (f n : Nat) (g : Sq → Sq) : (s.setSq f n g).rand = s.rand := rfl
@[simp] theorem State.setSq_media (f n : Nat) (g : Sq → Sq) : (s.setSq f n g).media = s.media := rfl
@[simp] theorem State.setSq_staged (f n : Nat) (g : Sq → Sq) : (s.setSq f n g).staged = s.staged := rfl
@[simp] theorem State.setSq_jobs (f n : Nat) (g : Sq → Sq) : (s.setSq f n g).jobs = s.jobs := rfl
@[simp] theorem State.setSq_jobOrder (f n : Nat) (g : Sq → Sq) : (s.setSq f n g).jobOrder = s.jobOrder := rfl
@[simp] theorem State.setSq_cores (f n : Nat) (g : Sq → Sq) : (s.setSq f n g).cores = s.cores := rfl
@[simp] theorem State.setSq_hamlets (f n : Nat) (g : Sq → Sq) : (s.setSq f n g).hamlets = s.hamlets := rfl
@[simp] theorem State.setSq_disp (f n : Nat) (g : Sq → Sq) : (s.setSq f n g).disp = s.disp := rfl
@[simp] theorem State.setSq_sieve (f n : Nat) (g : Sq → Sq) : (s.setSq f n g).sieve = s.sieve := rfl
@[simp] theorem State.setSq_dram (f n : Nat) (g : Sq → Sq) : (s.setSq f n g).dram = s.dram := rfl
@[simp] theorem State.setSq_edc (f n : Nat) (g : Sq → Sq) : (s.setSq f n g).edc = s.edc := rfl
@[simp] theorem State.setSq_loft (f n : Nat) (g : Sq → Sq) : (s.setSq f n g).loft = s.loft := rfl
@[simp] theorem State.setSq_health (f n : Nat) (g : Sq → Sq) : (s.setSq f n g).health = s.health := rfl
@[simp] theorem State.setSq_events (f n : Nat) (g : Sq → Sq) : (s.setSq f n g).events = s.events := rfl
@[simp] theorem State.setSq_eventSeq (f n : Nat) (g : Sq → Sq) : (s.setSq f n g).eventSeq = s.eventSeq := rfl
@[simp] theorem State.setSq_clk (f n : Nat) (g : Sq → Sq) : (s.setSq f n g).clk = s.clk := rfl
@[simp] theorem State.setSq_pwr (f n : Nat) (g : Sq → Sq) : (s.setSq f n g).pwr = s.pwr := rfl
@[simp] theorem State.setSq_life (f n : Nat) (g : Sq → Sq) : (s.setSq f n g).life = s.life := rfl
@[simp] theorem State.setSq_tap (f n : Nat) (g : Sq → Sq) : (s.setSq f n g).tap = s.tap := rfl
@[simp] theorem State.setSq_smbOff (f n : Nat) (g : Sq → Sq) : (s.setSq f n g).smbOff = s.smbOff := rfl
@[simp] theorem State.setSq_act (f n : Nat) (g : Sq → Sq) : (s.setSq f n g).act = s.act := rfl
@[simp] theorem State.setSq_ctlCores (f n : Nat) (g : Sq → Sq) : (s.setSq f n g).ctlCores = s.ctlCores := rfl
@[simp] theorem State.setSq_ctlSpares (f n : Nat) (g : Sq → Sq) : (s.setSq f n g).ctlSpares = s.ctlSpares := rfl

/-! ### setCq -/

@[simp] theorem State.setCq_cqs (f n : Nat) (g : Cq → Cq) : (s.setCq f n g).cqs = adj s.cqs (ringNo f n) g := rfl
@[simp] theorem State.setCq_pending (f n : Nat) (g : Cq → Cq) : (s.setCq f n g).pending = s.pending := rfl
@[simp] theorem State.setCq_free (f n : Nat) (g : Cq → Cq) : (s.setCq f n g).free = s.free := rfl
@[simp] theorem State.setCq_out (f n : Nat) (g : Cq → Cq) : (s.setCq f n g).out = s.out := rfl
@[simp] theorem State.setCq_rdma (f n : Nat) (g : Cq → Cq) : (s.setCq f n g).rdma = s.rdma := rfl
@[simp] theorem State.setCq_ledger (f n : Nat) (g : Cq → Cq) : (s.setCq f n g).ledger = s.ledger := rfl
@[simp] theorem State.setCq_bell (f n : Nat) (g : Cq → Cq) : (s.setCq f n g).bell = s.bell := rfl
@[simp] theorem State.setCq_err (f n : Nat) (g : Cq → Cq) : (s.setCq f n g).err = s.err := rfl
@[simp] theorem State.setCq_boot (f n : Nat) (g : Cq → Cq) : (s.setCq f n g).boot = s.boot := rfl
@[simp] theorem State.setCq_portA (f n : Nat) (g : Cq → Cq) : (s.setCq f n g).portA = s.portA := rfl
@[simp] theorem State.setCq_portB (f n : Nat) (g : Cq → Cq) : (s.setCq f n g).portB = s.portB := rfl
@[simp] theorem State.setCq_net (f n : Nat) (g : Cq → Cq) : (s.setCq f n g).net = s.net := rfl
@[simp] theorem State.setCq_fns (f n : Nat) (g : Cq → Cq) : (s.setCq f n g).fns = s.fns := rfl
@[simp] theorem State.setCq_sqs (f n : Nat) (g : Cq → Cq) : (s.setCq f n g).sqs = s.sqs := rfl
@[simp] theorem State.setCq_sems (f n : Nat) (g : Cq → Cq) : (s.setCq f n g).sems = s.sems := rfl
@[simp] theorem State.setCq_due (f n : Nat) (g : Cq → Cq) : (s.setCq f n g).due = s.due := rfl
@[simp] theorem State.setCq_aborts (f n : Nat) (g : Cq → Cq) : (s.setCq f n g).aborts = s.aborts := rfl
@[simp] theorem State.setCq_holds (f n : Nat) (g : Cq → Cq) : (s.setCq f n g).holds = s.holds := rfl
@[simp] theorem State.setCq_cursors (f n : Nat) (g : Cq → Cq) : (s.setCq f n g).cursors = s.cursors := rfl
@[simp] theorem State.setCq_zones (f n : Nat) (g : Cq → Cq) : (s.setCq f n g).zones = s.zones := rfl
@[simp] theorem State.setCq_units (f n : Nat) (g : Cq → Cq) : (s.setCq f n g).units = s.units := rfl
@[simp] theorem State.setCq_rand (f n : Nat) (g : Cq → Cq) : (s.setCq f n g).rand = s.rand := rfl
@[simp] theorem State.setCq_media (f n : Nat) (g : Cq → Cq) : (s.setCq f n g).media = s.media := rfl
@[simp] theorem State.setCq_staged (f n : Nat) (g : Cq → Cq) : (s.setCq f n g).staged = s.staged := rfl
@[simp] theorem State.setCq_jobs (f n : Nat) (g : Cq → Cq) : (s.setCq f n g).jobs = s.jobs := rfl
@[simp] theorem State.setCq_jobOrder (f n : Nat) (g : Cq → Cq) : (s.setCq f n g).jobOrder = s.jobOrder := rfl
@[simp] theorem State.setCq_cores (f n : Nat) (g : Cq → Cq) : (s.setCq f n g).cores = s.cores := rfl
@[simp] theorem State.setCq_hamlets (f n : Nat) (g : Cq → Cq) : (s.setCq f n g).hamlets = s.hamlets := rfl
@[simp] theorem State.setCq_disp (f n : Nat) (g : Cq → Cq) : (s.setCq f n g).disp = s.disp := rfl
@[simp] theorem State.setCq_sieve (f n : Nat) (g : Cq → Cq) : (s.setCq f n g).sieve = s.sieve := rfl
@[simp] theorem State.setCq_dram (f n : Nat) (g : Cq → Cq) : (s.setCq f n g).dram = s.dram := rfl
@[simp] theorem State.setCq_edc (f n : Nat) (g : Cq → Cq) : (s.setCq f n g).edc = s.edc := rfl
@[simp] theorem State.setCq_loft (f n : Nat) (g : Cq → Cq) : (s.setCq f n g).loft = s.loft := rfl
@[simp] theorem State.setCq_health (f n : Nat) (g : Cq → Cq) : (s.setCq f n g).health = s.health := rfl
@[simp] theorem State.setCq_events (f n : Nat) (g : Cq → Cq) : (s.setCq f n g).events = s.events := rfl
@[simp] theorem State.setCq_eventSeq (f n : Nat) (g : Cq → Cq) : (s.setCq f n g).eventSeq = s.eventSeq := rfl
@[simp] theorem State.setCq_clk (f n : Nat) (g : Cq → Cq) : (s.setCq f n g).clk = s.clk := rfl
@[simp] theorem State.setCq_pwr (f n : Nat) (g : Cq → Cq) : (s.setCq f n g).pwr = s.pwr := rfl
@[simp] theorem State.setCq_life (f n : Nat) (g : Cq → Cq) : (s.setCq f n g).life = s.life := rfl
@[simp] theorem State.setCq_tap (f n : Nat) (g : Cq → Cq) : (s.setCq f n g).tap = s.tap := rfl
@[simp] theorem State.setCq_smbOff (f n : Nat) (g : Cq → Cq) : (s.setCq f n g).smbOff = s.smbOff := rfl
@[simp] theorem State.setCq_act (f n : Nat) (g : Cq → Cq) : (s.setCq f n g).act = s.act := rfl
@[simp] theorem State.setCq_ctlCores (f n : Nat) (g : Cq → Cq) : (s.setCq f n g).ctlCores = s.ctlCores := rfl
@[simp] theorem State.setCq_ctlSpares (f n : Nat) (g : Cq → Cq) : (s.setCq f n g).ctlSpares = s.ctlSpares := rfl

/-! ### setZone -/

@[simp] theorem State.setZone_zones (z : Nat) (g : Zone → Zone) : (s.setZone z g).zones = adjD s.zones Zone.fresh z g := rfl
@[simp] theorem State.setZone_pending (z : Nat) (g : Zone → Zone) : (s.setZone z g).pending = s.pending := rfl
@[simp] theorem State.setZone_free (z : Nat) (g : Zone → Zone) : (s.setZone z g).free = s.free := rfl
@[simp] theorem State.setZone_out (z : Nat) (g : Zone → Zone) : (s.setZone z g).out = s.out := rfl
@[simp] theorem State.setZone_rdma (z : Nat) (g : Zone → Zone) : (s.setZone z g).rdma = s.rdma := rfl
@[simp] theorem State.setZone_ledger (z : Nat) (g : Zone → Zone) : (s.setZone z g).ledger = s.ledger := rfl
@[simp] theorem State.setZone_bell (z : Nat) (g : Zone → Zone) : (s.setZone z g).bell = s.bell := rfl
@[simp] theorem State.setZone_err (z : Nat) (g : Zone → Zone) : (s.setZone z g).err = s.err := rfl
@[simp] theorem State.setZone_boot (z : Nat) (g : Zone → Zone) : (s.setZone z g).boot = s.boot := rfl
@[simp] theorem State.setZone_portA (z : Nat) (g : Zone → Zone) : (s.setZone z g).portA = s.portA := rfl
@[simp] theorem State.setZone_portB (z : Nat) (g : Zone → Zone) : (s.setZone z g).portB = s.portB := rfl
@[simp] theorem State.setZone_net (z : Nat) (g : Zone → Zone) : (s.setZone z g).net = s.net := rfl
@[simp] theorem State.setZone_fns (z : Nat) (g : Zone → Zone) : (s.setZone z g).fns = s.fns := rfl
@[simp] theorem State.setZone_sqs (z : Nat) (g : Zone → Zone) : (s.setZone z g).sqs = s.sqs := rfl
@[simp] theorem State.setZone_cqs (z : Nat) (g : Zone → Zone) : (s.setZone z g).cqs = s.cqs := rfl
@[simp] theorem State.setZone_sems (z : Nat) (g : Zone → Zone) : (s.setZone z g).sems = s.sems := rfl
@[simp] theorem State.setZone_due (z : Nat) (g : Zone → Zone) : (s.setZone z g).due = s.due := rfl
@[simp] theorem State.setZone_aborts (z : Nat) (g : Zone → Zone) : (s.setZone z g).aborts = s.aborts := rfl
@[simp] theorem State.setZone_holds (z : Nat) (g : Zone → Zone) : (s.setZone z g).holds = s.holds := rfl
@[simp] theorem State.setZone_cursors (z : Nat) (g : Zone → Zone) : (s.setZone z g).cursors = s.cursors := rfl
@[simp] theorem State.setZone_units (z : Nat) (g : Zone → Zone) : (s.setZone z g).units = s.units := rfl
@[simp] theorem State.setZone_rand (z : Nat) (g : Zone → Zone) : (s.setZone z g).rand = s.rand := rfl
@[simp] theorem State.setZone_media (z : Nat) (g : Zone → Zone) : (s.setZone z g).media = s.media := rfl
@[simp] theorem State.setZone_staged (z : Nat) (g : Zone → Zone) : (s.setZone z g).staged = s.staged := rfl
@[simp] theorem State.setZone_jobs (z : Nat) (g : Zone → Zone) : (s.setZone z g).jobs = s.jobs := rfl
@[simp] theorem State.setZone_jobOrder (z : Nat) (g : Zone → Zone) : (s.setZone z g).jobOrder = s.jobOrder := rfl
@[simp] theorem State.setZone_cores (z : Nat) (g : Zone → Zone) : (s.setZone z g).cores = s.cores := rfl
@[simp] theorem State.setZone_hamlets (z : Nat) (g : Zone → Zone) : (s.setZone z g).hamlets = s.hamlets := rfl
@[simp] theorem State.setZone_disp (z : Nat) (g : Zone → Zone) : (s.setZone z g).disp = s.disp := rfl
@[simp] theorem State.setZone_sieve (z : Nat) (g : Zone → Zone) : (s.setZone z g).sieve = s.sieve := rfl
@[simp] theorem State.setZone_dram (z : Nat) (g : Zone → Zone) : (s.setZone z g).dram = s.dram := rfl
@[simp] theorem State.setZone_edc (z : Nat) (g : Zone → Zone) : (s.setZone z g).edc = s.edc := rfl
@[simp] theorem State.setZone_loft (z : Nat) (g : Zone → Zone) : (s.setZone z g).loft = s.loft := rfl
@[simp] theorem State.setZone_health (z : Nat) (g : Zone → Zone) : (s.setZone z g).health = s.health := rfl
@[simp] theorem State.setZone_events (z : Nat) (g : Zone → Zone) : (s.setZone z g).events = s.events := rfl
@[simp] theorem State.setZone_eventSeq (z : Nat) (g : Zone → Zone) : (s.setZone z g).eventSeq = s.eventSeq := rfl
@[simp] theorem State.setZone_clk (z : Nat) (g : Zone → Zone) : (s.setZone z g).clk = s.clk := rfl
@[simp] theorem State.setZone_pwr (z : Nat) (g : Zone → Zone) : (s.setZone z g).pwr = s.pwr := rfl
@[simp] theorem State.setZone_life (z : Nat) (g : Zone → Zone) : (s.setZone z g).life = s.life := rfl
@[simp] theorem State.setZone_tap (z : Nat) (g : Zone → Zone) : (s.setZone z g).tap = s.tap := rfl
@[simp] theorem State.setZone_smbOff (z : Nat) (g : Zone → Zone) : (s.setZone z g).smbOff = s.smbOff := rfl
@[simp] theorem State.setZone_act (z : Nat) (g : Zone → Zone) : (s.setZone z g).act = s.act := rfl
@[simp] theorem State.setZone_ctlCores (z : Nat) (g : Zone → Zone) : (s.setZone z g).ctlCores = s.ctlCores := rfl
@[simp] theorem State.setZone_ctlSpares (z : Nat) (g : Zone → Zone) : (s.setZone z g).ctlSpares = s.ctlSpares := rfl

/-! ### setMedia -/

@[simp] theorem State.setMedia_media (f : Media → Media) : (s.setMedia f).media = f s.media := rfl
@[simp] theorem State.setMedia_pending (f : Media → Media) : (s.setMedia f).pending = s.pending := rfl
@[simp] theorem State.setMedia_free (f : Media → Media) : (s.setMedia f).free = s.free := rfl
@[simp] theorem State.setMedia_out (f : Media → Media) : (s.setMedia f).out = s.out := rfl
@[simp] theorem State.setMedia_rdma (f : Media → Media) : (s.setMedia f).rdma = s.rdma := rfl
@[simp] theorem State.setMedia_ledger (f : Media → Media) : (s.setMedia f).ledger = s.ledger := rfl
@[simp] theorem State.setMedia_bell (f : Media → Media) : (s.setMedia f).bell = s.bell := rfl
@[simp] theorem State.setMedia_err (f : Media → Media) : (s.setMedia f).err = s.err := rfl
@[simp] theorem State.setMedia_boot (f : Media → Media) : (s.setMedia f).boot = s.boot := rfl
@[simp] theorem State.setMedia_portA (f : Media → Media) : (s.setMedia f).portA = s.portA := rfl
@[simp] theorem State.setMedia_portB (f : Media → Media) : (s.setMedia f).portB = s.portB := rfl
@[simp] theorem State.setMedia_net (f : Media → Media) : (s.setMedia f).net = s.net := rfl
@[simp] theorem State.setMedia_fns (f : Media → Media) : (s.setMedia f).fns = s.fns := rfl
@[simp] theorem State.setMedia_sqs (f : Media → Media) : (s.setMedia f).sqs = s.sqs := rfl
@[simp] theorem State.setMedia_cqs (f : Media → Media) : (s.setMedia f).cqs = s.cqs := rfl
@[simp] theorem State.setMedia_sems (f : Media → Media) : (s.setMedia f).sems = s.sems := rfl
@[simp] theorem State.setMedia_due (f : Media → Media) : (s.setMedia f).due = s.due := rfl
@[simp] theorem State.setMedia_aborts (f : Media → Media) : (s.setMedia f).aborts = s.aborts := rfl
@[simp] theorem State.setMedia_holds (f : Media → Media) : (s.setMedia f).holds = s.holds := rfl
@[simp] theorem State.setMedia_cursors (f : Media → Media) : (s.setMedia f).cursors = s.cursors := rfl
@[simp] theorem State.setMedia_zones (f : Media → Media) : (s.setMedia f).zones = s.zones := rfl
@[simp] theorem State.setMedia_units (f : Media → Media) : (s.setMedia f).units = s.units := rfl
@[simp] theorem State.setMedia_rand (f : Media → Media) : (s.setMedia f).rand = s.rand := rfl
@[simp] theorem State.setMedia_staged (f : Media → Media) : (s.setMedia f).staged = s.staged := rfl
@[simp] theorem State.setMedia_jobs (f : Media → Media) : (s.setMedia f).jobs = s.jobs := rfl
@[simp] theorem State.setMedia_jobOrder (f : Media → Media) : (s.setMedia f).jobOrder = s.jobOrder := rfl
@[simp] theorem State.setMedia_cores (f : Media → Media) : (s.setMedia f).cores = s.cores := rfl
@[simp] theorem State.setMedia_hamlets (f : Media → Media) : (s.setMedia f).hamlets = s.hamlets := rfl
@[simp] theorem State.setMedia_disp (f : Media → Media) : (s.setMedia f).disp = s.disp := rfl
@[simp] theorem State.setMedia_sieve (f : Media → Media) : (s.setMedia f).sieve = s.sieve := rfl
@[simp] theorem State.setMedia_dram (f : Media → Media) : (s.setMedia f).dram = s.dram := rfl
@[simp] theorem State.setMedia_edc (f : Media → Media) : (s.setMedia f).edc = s.edc := rfl
@[simp] theorem State.setMedia_loft (f : Media → Media) : (s.setMedia f).loft = s.loft := rfl
@[simp] theorem State.setMedia_health (f : Media → Media) : (s.setMedia f).health = s.health := rfl
@[simp] theorem State.setMedia_events (f : Media → Media) : (s.setMedia f).events = s.events := rfl
@[simp] theorem State.setMedia_eventSeq (f : Media → Media) : (s.setMedia f).eventSeq = s.eventSeq := rfl
@[simp] theorem State.setMedia_clk (f : Media → Media) : (s.setMedia f).clk = s.clk := rfl
@[simp] theorem State.setMedia_pwr (f : Media → Media) : (s.setMedia f).pwr = s.pwr := rfl
@[simp] theorem State.setMedia_life (f : Media → Media) : (s.setMedia f).life = s.life := rfl
@[simp] theorem State.setMedia_tap (f : Media → Media) : (s.setMedia f).tap = s.tap := rfl
@[simp] theorem State.setMedia_smbOff (f : Media → Media) : (s.setMedia f).smbOff = s.smbOff := rfl
@[simp] theorem State.setMedia_act (f : Media → Media) : (s.setMedia f).act = s.act := rfl
@[simp] theorem State.setMedia_ctlCores (f : Media → Media) : (s.setMedia f).ctlCores = s.ctlCores := rfl
@[simp] theorem State.setMedia_ctlSpares (f : Media → Media) : (s.setMedia f).ctlSpares = s.ctlSpares := rfl

/-! ### setDram -/

@[simp] theorem State.setDram_dram (f : Dram → Dram) : (s.setDram f).dram = f s.dram := rfl
@[simp] theorem State.setDram_pending (f : Dram → Dram) : (s.setDram f).pending = s.pending := rfl
@[simp] theorem State.setDram_free (f : Dram → Dram) : (s.setDram f).free = s.free := rfl
@[simp] theorem State.setDram_out (f : Dram → Dram) : (s.setDram f).out = s.out := rfl
@[simp] theorem State.setDram_rdma (f : Dram → Dram) : (s.setDram f).rdma = s.rdma := rfl
@[simp] theorem State.setDram_ledger (f : Dram → Dram) : (s.setDram f).ledger = s.ledger := rfl
@[simp] theorem State.setDram_bell (f : Dram → Dram) : (s.setDram f).bell = s.bell := rfl
@[simp] theorem State.setDram_err (f : Dram → Dram) : (s.setDram f).err = s.err := rfl
@[simp] theorem State.setDram_boot (f : Dram → Dram) : (s.setDram f).boot = s.boot := rfl
@[simp] theorem State.setDram_portA (f : Dram → Dram) : (s.setDram f).portA = s.portA := rfl
@[simp] theorem State.setDram_portB (f : Dram → Dram) : (s.setDram f).portB = s.portB := rfl
@[simp] theorem State.setDram_net (f : Dram → Dram) : (s.setDram f).net = s.net := rfl
@[simp] theorem State.setDram_fns (f : Dram → Dram) : (s.setDram f).fns = s.fns := rfl
@[simp] theorem State.setDram_sqs (f : Dram → Dram) : (s.setDram f).sqs = s.sqs := rfl
@[simp] theorem State.setDram_cqs (f : Dram → Dram) : (s.setDram f).cqs = s.cqs := rfl
@[simp] theorem State.setDram_sems (f : Dram → Dram) : (s.setDram f).sems = s.sems := rfl
@[simp] theorem State.setDram_due (f : Dram → Dram) : (s.setDram f).due = s.due := rfl
@[simp] theorem State.setDram_aborts (f : Dram → Dram) : (s.setDram f).aborts = s.aborts := rfl
@[simp] theorem State.setDram_holds (f : Dram → Dram) : (s.setDram f).holds = s.holds := rfl
@[simp] theorem State.setDram_cursors (f : Dram → Dram) : (s.setDram f).cursors = s.cursors := rfl
@[simp] theorem State.setDram_zones (f : Dram → Dram) : (s.setDram f).zones = s.zones := rfl
@[simp] theorem State.setDram_units (f : Dram → Dram) : (s.setDram f).units = s.units := rfl
@[simp] theorem State.setDram_rand (f : Dram → Dram) : (s.setDram f).rand = s.rand := rfl
@[simp] theorem State.setDram_media (f : Dram → Dram) : (s.setDram f).media = s.media := rfl
@[simp] theorem State.setDram_staged (f : Dram → Dram) : (s.setDram f).staged = s.staged := rfl
@[simp] theorem State.setDram_jobs (f : Dram → Dram) : (s.setDram f).jobs = s.jobs := rfl
@[simp] theorem State.setDram_jobOrder (f : Dram → Dram) : (s.setDram f).jobOrder = s.jobOrder := rfl
@[simp] theorem State.setDram_cores (f : Dram → Dram) : (s.setDram f).cores = s.cores := rfl
@[simp] theorem State.setDram_hamlets (f : Dram → Dram) : (s.setDram f).hamlets = s.hamlets := rfl
@[simp] theorem State.setDram_disp (f : Dram → Dram) : (s.setDram f).disp = s.disp := rfl
@[simp] theorem State.setDram_sieve (f : Dram → Dram) : (s.setDram f).sieve = s.sieve := rfl
@[simp] theorem State.setDram_edc (f : Dram → Dram) : (s.setDram f).edc = s.edc := rfl
@[simp] theorem State.setDram_loft (f : Dram → Dram) : (s.setDram f).loft = s.loft := rfl
@[simp] theorem State.setDram_health (f : Dram → Dram) : (s.setDram f).health = s.health := rfl
@[simp] theorem State.setDram_events (f : Dram → Dram) : (s.setDram f).events = s.events := rfl
@[simp] theorem State.setDram_eventSeq (f : Dram → Dram) : (s.setDram f).eventSeq = s.eventSeq := rfl
@[simp] theorem State.setDram_clk (f : Dram → Dram) : (s.setDram f).clk = s.clk := rfl
@[simp] theorem State.setDram_pwr (f : Dram → Dram) : (s.setDram f).pwr = s.pwr := rfl
@[simp] theorem State.setDram_life (f : Dram → Dram) : (s.setDram f).life = s.life := rfl
@[simp] theorem State.setDram_tap (f : Dram → Dram) : (s.setDram f).tap = s.tap := rfl
@[simp] theorem State.setDram_smbOff (f : Dram → Dram) : (s.setDram f).smbOff = s.smbOff := rfl
@[simp] theorem State.setDram_act (f : Dram → Dram) : (s.setDram f).act = s.act := rfl
@[simp] theorem State.setDram_ctlCores (f : Dram → Dram) : (s.setDram f).ctlCores = s.ctlCores := rfl
@[simp] theorem State.setDram_ctlSpares (f : Dram → Dram) : (s.setDram f).ctlSpares = s.ctlSpares := rfl

/-! ### setLoft -/

@[simp] theorem State.setLoft_loft (f : Loft → Loft) : (s.setLoft f).loft = f s.loft := rfl
@[simp] theorem State.setLoft_pending (f : Loft → Loft) : (s.setLoft f).pending = s.pending := rfl
@[simp] theorem State.setLoft_free (f : Loft → Loft) : (s.setLoft f).free = s.free := rfl
@[simp] theorem State.setLoft_out (f : Loft → Loft) : (s.setLoft f).out = s.out := rfl
@[simp] theorem State.setLoft_rdma (f : Loft → Loft) : (s.setLoft f).rdma = s.rdma := rfl
@[simp] theorem State.setLoft_ledger (f : Loft → Loft) : (s.setLoft f).ledger = s.ledger := rfl
@[simp] theorem State.setLoft_bell (f : Loft → Loft) : (s.setLoft f).bell = s.bell := rfl
@[simp] theorem State.setLoft_err (f : Loft → Loft) : (s.setLoft f).err = s.err := rfl
@[simp] theorem State.setLoft_boot (f : Loft → Loft) : (s.setLoft f).boot = s.boot := rfl
@[simp] theorem State.setLoft_portA (f : Loft → Loft) : (s.setLoft f).portA = s.portA := rfl
@[simp] theorem State.setLoft_portB (f : Loft → Loft) : (s.setLoft f).portB = s.portB := rfl
@[simp] theorem State.setLoft_net (f : Loft → Loft) : (s.setLoft f).net = s.net := rfl
@[simp] theorem State.setLoft_fns (f : Loft → Loft) : (s.setLoft f).fns = s.fns := rfl
@[simp] theorem State.setLoft_sqs (f : Loft → Loft) : (s.setLoft f).sqs = s.sqs := rfl
@[simp] theorem State.setLoft_cqs (f : Loft → Loft) : (s.setLoft f).cqs = s.cqs := rfl
@[simp] theorem State.setLoft_sems (f : Loft → Loft) : (s.setLoft f).sems = s.sems := rfl
@[simp] theorem State.setLoft_due (f : Loft → Loft) : (s.setLoft f).due = s.due := rfl
@[simp] theorem State.setLoft_aborts (f : Loft → Loft) : (s.setLoft f).aborts = s.aborts := rfl
@[simp] theorem State.setLoft_holds (f : Loft → Loft) : (s.setLoft f).holds = s.holds := rfl
@[simp] theorem State.setLoft_cursors (f : Loft → Loft) : (s.setLoft f).cursors = s.cursors := rfl
@[simp] theorem State.setLoft_zones (f : Loft → Loft) : (s.setLoft f).zones = s.zones := rfl
@[simp] theorem State.setLoft_units (f : Loft → Loft) : (s.setLoft f).units = s.units := rfl
@[simp] theorem State.setLoft_rand (f : Loft → Loft) : (s.setLoft f).rand = s.rand := rfl
@[simp] theorem State.setLoft_media (f : Loft → Loft) : (s.setLoft f).media = s.media := rfl
@[simp] theorem State.setLoft_staged (f : Loft → Loft) : (s.setLoft f).staged = s.staged := rfl
@[simp] theorem State.setLoft_jobs (f : Loft → Loft) : (s.setLoft f).jobs = s.jobs := rfl
@[simp] theorem State.setLoft_jobOrder (f : Loft → Loft) : (s.setLoft f).jobOrder = s.jobOrder := rfl
@[simp] theorem State.setLoft_cores (f : Loft → Loft) : (s.setLoft f).cores = s.cores := rfl
@[simp] theorem State.setLoft_hamlets (f : Loft → Loft) : (s.setLoft f).hamlets = s.hamlets := rfl
@[simp] theorem State.setLoft_disp (f : Loft → Loft) : (s.setLoft f).disp = s.disp := rfl
@[simp] theorem State.setLoft_sieve (f : Loft → Loft) : (s.setLoft f).sieve = s.sieve := rfl
@[simp] theorem State.setLoft_dram (f : Loft → Loft) : (s.setLoft f).dram = s.dram := rfl
@[simp] theorem State.setLoft_edc (f : Loft → Loft) : (s.setLoft f).edc = s.edc := rfl
@[simp] theorem State.setLoft_health (f : Loft → Loft) : (s.setLoft f).health = s.health := rfl
@[simp] theorem State.setLoft_events (f : Loft → Loft) : (s.setLoft f).events = s.events := rfl
@[simp] theorem State.setLoft_eventSeq (f : Loft → Loft) : (s.setLoft f).eventSeq = s.eventSeq := rfl
@[simp] theorem State.setLoft_clk (f : Loft → Loft) : (s.setLoft f).clk = s.clk := rfl
@[simp] theorem State.setLoft_pwr (f : Loft → Loft) : (s.setLoft f).pwr = s.pwr := rfl
@[simp] theorem State.setLoft_life (f : Loft → Loft) : (s.setLoft f).life = s.life := rfl
@[simp] theorem State.setLoft_tap (f : Loft → Loft) : (s.setLoft f).tap = s.tap := rfl
@[simp] theorem State.setLoft_smbOff (f : Loft → Loft) : (s.setLoft f).smbOff = s.smbOff := rfl
@[simp] theorem State.setLoft_act (f : Loft → Loft) : (s.setLoft f).act = s.act := rfl
@[simp] theorem State.setLoft_ctlCores (f : Loft → Loft) : (s.setLoft f).ctlCores = s.ctlCores := rfl
@[simp] theorem State.setLoft_ctlSpares (f : Loft → Loft) : (s.setLoft f).ctlSpares = s.ctlSpares := rfl

/-! ### setPwr -/

@[simp] theorem State.setPwr_pwr (f : Pwr → Pwr) : (s.setPwr f).pwr = f s.pwr := rfl
@[simp] theorem State.setPwr_pending (f : Pwr → Pwr) : (s.setPwr f).pending = s.pending := rfl
@[simp] theorem State.setPwr_free (f : Pwr → Pwr) : (s.setPwr f).free = s.free := rfl
@[simp] theorem State.setPwr_out (f : Pwr → Pwr) : (s.setPwr f).out = s.out := rfl
@[simp] theorem State.setPwr_rdma (f : Pwr → Pwr) : (s.setPwr f).rdma = s.rdma := rfl
@[simp] theorem State.setPwr_ledger (f : Pwr → Pwr) : (s.setPwr f).ledger = s.ledger := rfl
@[simp] theorem State.setPwr_bell (f : Pwr → Pwr) : (s.setPwr f).bell = s.bell := rfl
@[simp] theorem State.setPwr_err (f : Pwr → Pwr) : (s.setPwr f).err = s.err := rfl
@[simp] theorem State.setPwr_boot (f : Pwr → Pwr) : (s.setPwr f).boot = s.boot := rfl
@[simp] theorem State.setPwr_portA (f : Pwr → Pwr) : (s.setPwr f).portA = s.portA := rfl
@[simp] theorem State.setPwr_portB (f : Pwr → Pwr) : (s.setPwr f).portB = s.portB := rfl
@[simp] theorem State.setPwr_net (f : Pwr → Pwr) : (s.setPwr f).net = s.net := rfl
@[simp] theorem State.setPwr_fns (f : Pwr → Pwr) : (s.setPwr f).fns = s.fns := rfl
@[simp] theorem State.setPwr_sqs (f : Pwr → Pwr) : (s.setPwr f).sqs = s.sqs := rfl
@[simp] theorem State.setPwr_cqs (f : Pwr → Pwr) : (s.setPwr f).cqs = s.cqs := rfl
@[simp] theorem State.setPwr_sems (f : Pwr → Pwr) : (s.setPwr f).sems = s.sems := rfl
@[simp] theorem State.setPwr_due (f : Pwr → Pwr) : (s.setPwr f).due = s.due := rfl
@[simp] theorem State.setPwr_aborts (f : Pwr → Pwr) : (s.setPwr f).aborts = s.aborts := rfl
@[simp] theorem State.setPwr_holds (f : Pwr → Pwr) : (s.setPwr f).holds = s.holds := rfl
@[simp] theorem State.setPwr_cursors (f : Pwr → Pwr) : (s.setPwr f).cursors = s.cursors := rfl
@[simp] theorem State.setPwr_zones (f : Pwr → Pwr) : (s.setPwr f).zones = s.zones := rfl
@[simp] theorem State.setPwr_units (f : Pwr → Pwr) : (s.setPwr f).units = s.units := rfl
@[simp] theorem State.setPwr_rand (f : Pwr → Pwr) : (s.setPwr f).rand = s.rand := rfl
@[simp] theorem State.setPwr_media (f : Pwr → Pwr) : (s.setPwr f).media = s.media := rfl
@[simp] theorem State.setPwr_staged (f : Pwr → Pwr) : (s.setPwr f).staged = s.staged := rfl
@[simp] theorem State.setPwr_jobs (f : Pwr → Pwr) : (s.setPwr f).jobs = s.jobs := rfl
@[simp] theorem State.setPwr_jobOrder (f : Pwr → Pwr) : (s.setPwr f).jobOrder = s.jobOrder := rfl
@[simp] theorem State.setPwr_cores (f : Pwr → Pwr) : (s.setPwr f).cores = s.cores := rfl
@[simp] theorem State.setPwr_hamlets (f : Pwr → Pwr) : (s.setPwr f).hamlets = s.hamlets := rfl
@[simp] theorem State.setPwr_disp (f : Pwr → Pwr) : (s.setPwr f).disp = s.disp := rfl
@[simp] theorem State.setPwr_sieve (f : Pwr → Pwr) : (s.setPwr f).sieve = s.sieve := rfl
@[simp] theorem State.setPwr_dram (f : Pwr → Pwr) : (s.setPwr f).dram = s.dram := rfl
@[simp] theorem State.setPwr_edc (f : Pwr → Pwr) : (s.setPwr f).edc = s.edc := rfl
@[simp] theorem State.setPwr_loft (f : Pwr → Pwr) : (s.setPwr f).loft = s.loft := rfl
@[simp] theorem State.setPwr_health (f : Pwr → Pwr) : (s.setPwr f).health = s.health := rfl
@[simp] theorem State.setPwr_events (f : Pwr → Pwr) : (s.setPwr f).events = s.events := rfl
@[simp] theorem State.setPwr_eventSeq (f : Pwr → Pwr) : (s.setPwr f).eventSeq = s.eventSeq := rfl
@[simp] theorem State.setPwr_clk (f : Pwr → Pwr) : (s.setPwr f).clk = s.clk := rfl
@[simp] theorem State.setPwr_life (f : Pwr → Pwr) : (s.setPwr f).life = s.life := rfl
@[simp] theorem State.setPwr_tap (f : Pwr → Pwr) : (s.setPwr f).tap = s.tap := rfl
@[simp] theorem State.setPwr_smbOff (f : Pwr → Pwr) : (s.setPwr f).smbOff = s.smbOff := rfl
@[simp] theorem State.setPwr_act (f : Pwr → Pwr) : (s.setPwr f).act = s.act := rfl
@[simp] theorem State.setPwr_ctlCores (f : Pwr → Pwr) : (s.setPwr f).ctlCores = s.ctlCores := rfl
@[simp] theorem State.setPwr_ctlSpares (f : Pwr → Pwr) : (s.setPwr f).ctlSpares = s.ctlSpares := rfl

/-! ### setJob -/

@[simp] theorem State.setJob_jobs (j : Nat) (f : Job → Job) : (s.setJob j f).jobs = adj s.jobs j f := rfl
@[simp] theorem State.setJob_pending (j : Nat) (f : Job → Job) : (s.setJob j f).pending = s.pending := rfl
@[simp] theorem State.setJob_free (j : Nat) (f : Job → Job) : (s.setJob j f).free = s.free := rfl
@[simp] theorem State.setJob_out (j : Nat) (f : Job → Job) : (s.setJob j f).out = s.out := rfl
@[simp] theorem State.setJob_rdma (j : Nat) (f : Job → Job) : (s.setJob j f).rdma = s.rdma := rfl
@[simp] theorem State.setJob_ledger (j : Nat) (f : Job → Job) : (s.setJob j f).ledger = s.ledger := rfl
@[simp] theorem State.setJob_bell (j : Nat) (f : Job → Job) : (s.setJob j f).bell = s.bell := rfl
@[simp] theorem State.setJob_err (j : Nat) (f : Job → Job) : (s.setJob j f).err = s.err := rfl
@[simp] theorem State.setJob_boot (j : Nat) (f : Job → Job) : (s.setJob j f).boot = s.boot := rfl
@[simp] theorem State.setJob_portA (j : Nat) (f : Job → Job) : (s.setJob j f).portA = s.portA := rfl
@[simp] theorem State.setJob_portB (j : Nat) (f : Job → Job) : (s.setJob j f).portB = s.portB := rfl
@[simp] theorem State.setJob_net (j : Nat) (f : Job → Job) : (s.setJob j f).net = s.net := rfl
@[simp] theorem State.setJob_fns (j : Nat) (f : Job → Job) : (s.setJob j f).fns = s.fns := rfl
@[simp] theorem State.setJob_sqs (j : Nat) (f : Job → Job) : (s.setJob j f).sqs = s.sqs := rfl
@[simp] theorem State.setJob_cqs (j : Nat) (f : Job → Job) : (s.setJob j f).cqs = s.cqs := rfl
@[simp] theorem State.setJob_sems (j : Nat) (f : Job → Job) : (s.setJob j f).sems = s.sems := rfl
@[simp] theorem State.setJob_due (j : Nat) (f : Job → Job) : (s.setJob j f).due = s.due := rfl
@[simp] theorem State.setJob_aborts (j : Nat) (f : Job → Job) : (s.setJob j f).aborts = s.aborts := rfl
@[simp] theorem State.setJob_holds (j : Nat) (f : Job → Job) : (s.setJob j f).holds = s.holds := rfl
@[simp] theorem State.setJob_cursors (j : Nat) (f : Job → Job) : (s.setJob j f).cursors = s.cursors := rfl
@[simp] theorem State.setJob_zones (j : Nat) (f : Job → Job) : (s.setJob j f).zones = s.zones := rfl
@[simp] theorem State.setJob_units (j : Nat) (f : Job → Job) : (s.setJob j f).units = s.units := rfl
@[simp] theorem State.setJob_rand (j : Nat) (f : Job → Job) : (s.setJob j f).rand = s.rand := rfl
@[simp] theorem State.setJob_media (j : Nat) (f : Job → Job) : (s.setJob j f).media = s.media := rfl
@[simp] theorem State.setJob_staged (j : Nat) (f : Job → Job) : (s.setJob j f).staged = s.staged := rfl
@[simp] theorem State.setJob_jobOrder (j : Nat) (f : Job → Job) : (s.setJob j f).jobOrder = s.jobOrder := rfl
@[simp] theorem State.setJob_cores (j : Nat) (f : Job → Job) : (s.setJob j f).cores = s.cores := rfl
@[simp] theorem State.setJob_hamlets (j : Nat) (f : Job → Job) : (s.setJob j f).hamlets = s.hamlets := rfl
@[simp] theorem State.setJob_disp (j : Nat) (f : Job → Job) : (s.setJob j f).disp = s.disp := rfl
@[simp] theorem State.setJob_sieve (j : Nat) (f : Job → Job) : (s.setJob j f).sieve = s.sieve := rfl
@[simp] theorem State.setJob_dram (j : Nat) (f : Job → Job) : (s.setJob j f).dram = s.dram := rfl
@[simp] theorem State.setJob_edc (j : Nat) (f : Job → Job) : (s.setJob j f).edc = s.edc := rfl
@[simp] theorem State.setJob_loft (j : Nat) (f : Job → Job) : (s.setJob j f).loft = s.loft := rfl
@[simp] theorem State.setJob_health (j : Nat) (f : Job → Job) : (s.setJob j f).health = s.health := rfl
@[simp] theorem State.setJob_events (j : Nat) (f : Job → Job) : (s.setJob j f).events = s.events := rfl
@[simp] theorem State.setJob_eventSeq (j : Nat) (f : Job → Job) : (s.setJob j f).eventSeq = s.eventSeq := rfl
@[simp] theorem State.setJob_clk (j : Nat) (f : Job → Job) : (s.setJob j f).clk = s.clk := rfl
@[simp] theorem State.setJob_pwr (j : Nat) (f : Job → Job) : (s.setJob j f).pwr = s.pwr := rfl
@[simp] theorem State.setJob_life (j : Nat) (f : Job → Job) : (s.setJob j f).life = s.life := rfl
@[simp] theorem State.setJob_tap (j : Nat) (f : Job → Job) : (s.setJob j f).tap = s.tap := rfl
@[simp] theorem State.setJob_smbOff (j : Nat) (f : Job → Job) : (s.setJob j f).smbOff = s.smbOff := rfl
@[simp] theorem State.setJob_act (j : Nat) (f : Job → Job) : (s.setJob j f).act = s.act := rfl
@[simp] theorem State.setJob_ctlCores (j : Nat) (f : Job → Job) : (s.setJob j f).ctlCores = s.ctlCores := rfl
@[simp] theorem State.setJob_ctlSpares (j : Nat) (f : Job → Job) : (s.setJob j f).ctlSpares = s.ctlSpares := rfl

/-! ### setCore -/

@[simp] theorem State.setCore_cores (n : Nat) (f : Core → Core) : (s.setCore n f).cores = putD s.cores (Core.fresh n) n (f (s.core n)) := rfl
@[simp] theorem State.setCore_pending (n : Nat) (f : Core → Core) : (s.setCore n f).pending = s.pending := rfl
@[simp] theorem State.setCore_free (n : Nat) (f : Core → Core) : (s.setCore n f).free = s.free := rfl
@[simp] theorem State.setCore_out (n : Nat) (f : Core → Core) : (s.setCore n f).out = s.out := rfl
@[simp] theorem State.setCore_rdma (n : Nat) (f : Core → Core) : (s.setCore n f).rdma = s.rdma := rfl
@[simp] theorem State.setCore_ledger (n : Nat) (f : Core → Core) : (s.setCore n f).ledger = s.ledger := rfl
@[simp] theorem State.setCore_bell (n : Nat) (f : Core → Core) : (s.setCore n f).bell = s.bell := rfl
@[simp] theorem State.setCore_err (n : Nat) (f : Core → Core) : (s.setCore n f).err = s.err := rfl
@[simp] theorem State.setCore_boot (n : Nat) (f : Core → Core) : (s.setCore n f).boot = s.boot := rfl
@[simp] theorem State.setCore_portA (n : Nat) (f : Core → Core) : (s.setCore n f).portA = s.portA := rfl
@[simp] theorem State.setCore_portB (n : Nat) (f : Core → Core) : (s.setCore n f).portB = s.portB := rfl
@[simp] theorem State.setCore_net (n : Nat) (f : Core → Core) : (s.setCore n f).net = s.net := rfl
@[simp] theorem State.setCore_fns (n : Nat) (f : Core → Core) : (s.setCore n f).fns = s.fns := rfl
@[simp] theorem State.setCore_sqs (n : Nat) (f : Core → Core) : (s.setCore n f).sqs = s.sqs := rfl
@[simp] theorem State.setCore_cqs (n : Nat) (f : Core → Core) : (s.setCore n f).cqs = s.cqs := rfl
@[simp] theorem State.setCore_sems (n : Nat) (f : Core → Core) : (s.setCore n f).sems = s.sems := rfl
@[simp] theorem State.setCore_due (n : Nat) (f : Core → Core) : (s.setCore n f).due = s.due := rfl
@[simp] theorem State.setCore_aborts (n : Nat) (f : Core → Core) : (s.setCore n f).aborts = s.aborts := rfl
@[simp] theorem State.setCore_holds (n : Nat) (f : Core → Core) : (s.setCore n f).holds = s.holds := rfl
@[simp] theorem State.setCore_cursors (n : Nat) (f : Core → Core) : (s.setCore n f).cursors = s.cursors := rfl
@[simp] theorem State.setCore_zones (n : Nat) (f : Core → Core) : (s.setCore n f).zones = s.zones := rfl
@[simp] theorem State.setCore_units (n : Nat) (f : Core → Core) : (s.setCore n f).units = s.units := rfl
@[simp] theorem State.setCore_rand (n : Nat) (f : Core → Core) : (s.setCore n f).rand = s.rand := rfl
@[simp] theorem State.setCore_media (n : Nat) (f : Core → Core) : (s.setCore n f).media = s.media := rfl
@[simp] theorem State.setCore_staged (n : Nat) (f : Core → Core) : (s.setCore n f).staged = s.staged := rfl
@[simp] theorem State.setCore_jobs (n : Nat) (f : Core → Core) : (s.setCore n f).jobs = s.jobs := rfl
@[simp] theorem State.setCore_jobOrder (n : Nat) (f : Core → Core) : (s.setCore n f).jobOrder = s.jobOrder := rfl
@[simp] theorem State.setCore_hamlets (n : Nat) (f : Core → Core) : (s.setCore n f).hamlets = s.hamlets := rfl
@[simp] theorem State.setCore_disp (n : Nat) (f : Core → Core) : (s.setCore n f).disp = s.disp := rfl
@[simp] theorem State.setCore_sieve (n : Nat) (f : Core → Core) : (s.setCore n f).sieve = s.sieve := rfl
@[simp] theorem State.setCore_dram (n : Nat) (f : Core → Core) : (s.setCore n f).dram = s.dram := rfl
@[simp] theorem State.setCore_edc (n : Nat) (f : Core → Core) : (s.setCore n f).edc = s.edc := rfl
@[simp] theorem State.setCore_loft (n : Nat) (f : Core → Core) : (s.setCore n f).loft = s.loft := rfl
@[simp] theorem State.setCore_health (n : Nat) (f : Core → Core) : (s.setCore n f).health = s.health := rfl
@[simp] theorem State.setCore_events (n : Nat) (f : Core → Core) : (s.setCore n f).events = s.events := rfl
@[simp] theorem State.setCore_eventSeq (n : Nat) (f : Core → Core) : (s.setCore n f).eventSeq = s.eventSeq := rfl
@[simp] theorem State.setCore_clk (n : Nat) (f : Core → Core) : (s.setCore n f).clk = s.clk := rfl
@[simp] theorem State.setCore_pwr (n : Nat) (f : Core → Core) : (s.setCore n f).pwr = s.pwr := rfl
@[simp] theorem State.setCore_life (n : Nat) (f : Core → Core) : (s.setCore n f).life = s.life := rfl
@[simp] theorem State.setCore_tap (n : Nat) (f : Core → Core) : (s.setCore n f).tap = s.tap := rfl
@[simp] theorem State.setCore_smbOff (n : Nat) (f : Core → Core) : (s.setCore n f).smbOff = s.smbOff := rfl
@[simp] theorem State.setCore_act (n : Nat) (f : Core → Core) : (s.setCore n f).act = s.act := rfl
@[simp] theorem State.setCore_ctlCores (n : Nat) (f : Core → Core) : (s.setCore n f).ctlCores = s.ctlCores := rfl
@[simp] theorem State.setCore_ctlSpares (n : Nat) (f : Core → Core) : (s.setCore n f).ctlSpares = s.ctlSpares := rfl

/-! ### setHamlet -/

@[simp] theorem State.setHamlet_hamlets (h : Nat) (f : Hamlet → Hamlet) : (s.setHamlet h f).hamlets = adjD s.hamlets Hamlet.fresh h f := rfl
@[simp] theorem State.setHamlet_pending (h : Nat) (f : Hamlet → Hamlet) : (s.setHamlet h f).pending = s.pending := rfl
@[simp] theorem State.setHamlet_free (h : Nat) (f : Hamlet → Hamlet) : (s.setHamlet h f).free = s.free := rfl
@[simp] theorem State.setHamlet_out (h : Nat) (f : Hamlet → Hamlet) : (s.setHamlet h f).out = s.out := rfl
@[simp] theorem State.setHamlet_rdma (h : Nat) (f : Hamlet → Hamlet) : (s.setHamlet h f).rdma = s.rdma := rfl
@[simp] theorem State.setHamlet_ledger (h : Nat) (f : Hamlet → Hamlet) : (s.setHamlet h f).ledger = s.ledger := rfl
@[simp] theorem State.setHamlet_bell (h : Nat) (f : Hamlet → Hamlet) : (s.setHamlet h f).bell = s.bell := rfl
@[simp] theorem State.setHamlet_err (h : Nat) (f : Hamlet → Hamlet) : (s.setHamlet h f).err = s.err := rfl
@[simp] theorem State.setHamlet_boot (h : Nat) (f : Hamlet → Hamlet) : (s.setHamlet h f).boot = s.boot := rfl
@[simp] theorem State.setHamlet_portA (h : Nat) (f : Hamlet → Hamlet) : (s.setHamlet h f).portA = s.portA := rfl
@[simp] theorem State.setHamlet_portB (h : Nat) (f : Hamlet → Hamlet) : (s.setHamlet h f).portB = s.portB := rfl
@[simp] theorem State.setHamlet_net (h : Nat) (f : Hamlet → Hamlet) : (s.setHamlet h f).net = s.net := rfl
@[simp] theorem State.setHamlet_fns (h : Nat) (f : Hamlet → Hamlet) : (s.setHamlet h f).fns = s.fns := rfl
@[simp] theorem State.setHamlet_sqs (h : Nat) (f : Hamlet → Hamlet) : (s.setHamlet h f).sqs = s.sqs := rfl
@[simp] theorem State.setHamlet_cqs (h : Nat) (f : Hamlet → Hamlet) : (s.setHamlet h f).cqs = s.cqs := rfl
@[simp] theorem State.setHamlet_sems (h : Nat) (f : Hamlet → Hamlet) : (s.setHamlet h f).sems = s.sems := rfl
@[simp] theorem State.setHamlet_due (h : Nat) (f : Hamlet → Hamlet) : (s.setHamlet h f).due = s.due := rfl
@[simp] theorem State.setHamlet_aborts (h : Nat) (f : Hamlet → Hamlet) : (s.setHamlet h f).aborts = s.aborts := rfl
@[simp] theorem State.setHamlet_holds (h : Nat) (f : Hamlet → Hamlet) : (s.setHamlet h f).holds = s.holds := rfl
@[simp] theorem State.setHamlet_cursors (h : Nat) (f : Hamlet → Hamlet) : (s.setHamlet h f).cursors = s.cursors := rfl
@[simp] theorem State.setHamlet_zones (h : Nat) (f : Hamlet → Hamlet) : (s.setHamlet h f).zones = s.zones := rfl
@[simp] theorem State.setHamlet_units (h : Nat) (f : Hamlet → Hamlet) : (s.setHamlet h f).units = s.units := rfl
@[simp] theorem State.setHamlet_rand (h : Nat) (f : Hamlet → Hamlet) : (s.setHamlet h f).rand = s.rand := rfl
@[simp] theorem State.setHamlet_media (h : Nat) (f : Hamlet → Hamlet) : (s.setHamlet h f).media = s.media := rfl
@[simp] theorem State.setHamlet_staged (h : Nat) (f : Hamlet → Hamlet) : (s.setHamlet h f).staged = s.staged := rfl
@[simp] theorem State.setHamlet_jobs (h : Nat) (f : Hamlet → Hamlet) : (s.setHamlet h f).jobs = s.jobs := rfl
@[simp] theorem State.setHamlet_jobOrder (h : Nat) (f : Hamlet → Hamlet) : (s.setHamlet h f).jobOrder = s.jobOrder := rfl
@[simp] theorem State.setHamlet_cores (h : Nat) (f : Hamlet → Hamlet) : (s.setHamlet h f).cores = s.cores := rfl
@[simp] theorem State.setHamlet_disp (h : Nat) (f : Hamlet → Hamlet) : (s.setHamlet h f).disp = s.disp := rfl
@[simp] theorem State.setHamlet_sieve (h : Nat) (f : Hamlet → Hamlet) : (s.setHamlet h f).sieve = s.sieve := rfl
@[simp] theorem State.setHamlet_dram (h : Nat) (f : Hamlet → Hamlet) : (s.setHamlet h f).dram = s.dram := rfl
@[simp] theorem State.setHamlet_edc (h : Nat) (f : Hamlet → Hamlet) : (s.setHamlet h f).edc = s.edc := rfl
@[simp] theorem State.setHamlet_loft (h : Nat) (f : Hamlet → Hamlet) : (s.setHamlet h f).loft = s.loft := rfl
@[simp] theorem State.setHamlet_health (h : Nat) (f : Hamlet → Hamlet) : (s.setHamlet h f).health = s.health := rfl
@[simp] theorem State.setHamlet_events (h : Nat) (f : Hamlet → Hamlet) : (s.setHamlet h f).events = s.events := rfl
@[simp] theorem State.setHamlet_eventSeq (h : Nat) (f : Hamlet → Hamlet) : (s.setHamlet h f).eventSeq = s.eventSeq := rfl
@[simp] theorem State.setHamlet_clk (h : Nat) (f : Hamlet → Hamlet) : (s.setHamlet h f).clk = s.clk := rfl
@[simp] theorem State.setHamlet_pwr (h : Nat) (f : Hamlet → Hamlet) : (s.setHamlet h f).pwr = s.pwr := rfl
@[simp] theorem State.setHamlet_life (h : Nat) (f : Hamlet → Hamlet) : (s.setHamlet h f).life = s.life := rfl
@[simp] theorem State.setHamlet_tap (h : Nat) (f : Hamlet → Hamlet) : (s.setHamlet h f).tap = s.tap := rfl
@[simp] theorem State.setHamlet_smbOff (h : Nat) (f : Hamlet → Hamlet) : (s.setHamlet h f).smbOff = s.smbOff := rfl
@[simp] theorem State.setHamlet_act (h : Nat) (f : Hamlet → Hamlet) : (s.setHamlet h f).act = s.act := rfl
@[simp] theorem State.setHamlet_ctlCores (h : Nat) (f : Hamlet → Hamlet) : (s.setHamlet h f).ctlCores = s.ctlCores := rfl
@[simp] theorem State.setHamlet_ctlSpares (h : Nat) (f : Hamlet → Hamlet) : (s.setHamlet h f).ctlSpares = s.ctlSpares := rfl

/-! ### tell -/

@[simp] theorem State.tell_out (m : Msg) : (s.tell m).out = s.out ++ [s.sentAs m] := rfl
@[simp] theorem State.tell_pending (m : Msg) : (s.tell m).pending = s.pending := rfl
@[simp] theorem State.tell_free (m : Msg) : (s.tell m).free = s.free := rfl
@[simp] theorem State.tell_rdma (m : Msg) : (s.tell m).rdma = s.rdma := rfl
@[simp] theorem State.tell_ledger (m : Msg) : (s.tell m).ledger = s.ledger := rfl
@[simp] theorem State.tell_bell (m : Msg) : (s.tell m).bell = s.bell := rfl
@[simp] theorem State.tell_err (m : Msg) : (s.tell m).err = s.err := rfl
@[simp] theorem State.tell_boot (m : Msg) : (s.tell m).boot = s.boot := rfl
@[simp] theorem State.tell_portA (m : Msg) : (s.tell m).portA = s.portA := rfl
@[simp] theorem State.tell_portB (m : Msg) : (s.tell m).portB = s.portB := rfl
@[simp] theorem State.tell_net (m : Msg) : (s.tell m).net = s.net := rfl
@[simp] theorem State.tell_fns (m : Msg) : (s.tell m).fns = s.fns := rfl
@[simp] theorem State.tell_sqs (m : Msg) : (s.tell m).sqs = s.sqs := rfl
@[simp] theorem State.tell_cqs (m : Msg) : (s.tell m).cqs = s.cqs := rfl
@[simp] theorem State.tell_sems (m : Msg) : (s.tell m).sems = s.sems := rfl
@[simp] theorem State.tell_due (m : Msg) : (s.tell m).due = s.due := rfl
@[simp] theorem State.tell_aborts (m : Msg) : (s.tell m).aborts = s.aborts := rfl
@[simp] theorem State.tell_holds (m : Msg) : (s.tell m).holds = s.holds := rfl
@[simp] theorem State.tell_cursors (m : Msg) : (s.tell m).cursors = s.cursors := rfl
@[simp] theorem State.tell_zones (m : Msg) : (s.tell m).zones = s.zones := rfl
@[simp] theorem State.tell_units (m : Msg) : (s.tell m).units = s.units := rfl
@[simp] theorem State.tell_rand (m : Msg) : (s.tell m).rand = s.rand := rfl
@[simp] theorem State.tell_media (m : Msg) : (s.tell m).media = s.media := rfl
@[simp] theorem State.tell_staged (m : Msg) : (s.tell m).staged = s.staged := rfl
@[simp] theorem State.tell_jobs (m : Msg) : (s.tell m).jobs = s.jobs := rfl
@[simp] theorem State.tell_jobOrder (m : Msg) : (s.tell m).jobOrder = s.jobOrder := rfl
@[simp] theorem State.tell_cores (m : Msg) : (s.tell m).cores = s.cores := rfl
@[simp] theorem State.tell_hamlets (m : Msg) : (s.tell m).hamlets = s.hamlets := rfl
@[simp] theorem State.tell_disp (m : Msg) : (s.tell m).disp = s.disp := rfl
@[simp] theorem State.tell_sieve (m : Msg) : (s.tell m).sieve = s.sieve := rfl
@[simp] theorem State.tell_dram (m : Msg) : (s.tell m).dram = s.dram := rfl
@[simp] theorem State.tell_edc (m : Msg) : (s.tell m).edc = s.edc := rfl
@[simp] theorem State.tell_loft (m : Msg) : (s.tell m).loft = s.loft := rfl
@[simp] theorem State.tell_health (m : Msg) : (s.tell m).health = s.health := rfl
@[simp] theorem State.tell_events (m : Msg) : (s.tell m).events = s.events := rfl
@[simp] theorem State.tell_eventSeq (m : Msg) : (s.tell m).eventSeq = s.eventSeq := rfl
@[simp] theorem State.tell_clk (m : Msg) : (s.tell m).clk = s.clk := rfl
@[simp] theorem State.tell_pwr (m : Msg) : (s.tell m).pwr = s.pwr := rfl
@[simp] theorem State.tell_life (m : Msg) : (s.tell m).life = s.life := rfl
@[simp] theorem State.tell_tap (m : Msg) : (s.tell m).tap = s.tap := rfl
@[simp] theorem State.tell_smbOff (m : Msg) : (s.tell m).smbOff = s.smbOff := rfl
@[simp] theorem State.tell_act (m : Msg) : (s.tell m).act = s.act := rfl
@[simp] theorem State.tell_ctlCores (m : Msg) : (s.tell m).ctlCores = s.ctlCores := rfl
@[simp] theorem State.tell_ctlSpares (m : Msg) : (s.tell m).ctlSpares = s.ctlSpares := rfl

/-! ### setPort -/

@[simp] theorem State.setPort_A (f : Port → Port) : s.setPort .A f = { s with portA := f s.portA } := rfl
@[simp] theorem State.setPort_B (f : Port → Port) : s.setPort .B f = { s with portB := f s.portB } := rfl
@[simp] theorem State.setPort_pending (p : PortId) (f : Port → Port) : (s.setPort p f).pending = s.pending := by cases p <;> rfl
@[simp] theorem State.setPort_free (p : PortId) (f : Port → Port) : (s.setPort p f).free = s.free := by cases p <;> rfl
@[simp] theorem State.setPort_out (p : PortId) (f : Port → Port) : (s.setPort p f).out = s.out := by cases p <;> rfl
@[simp] theorem State.setPort_rdma (p : PortId) (f : Port → Port) : (s.setPort p f).rdma = s.rdma := by cases p <;> rfl
@[simp] theorem State.setPort_ledger (p : PortId) (f : Port → Port) : (s.setPort p f).ledger = s.ledger := by cases p <;> rfl
@[simp] theorem State.setPort_bell (p : PortId) (f : Port → Port) : (s.setPort p f).bell = s.bell := by cases p <;> rfl
@[simp] theorem State.setPort_err (p : PortId) (f : Port → Port) : (s.setPort p f).err = s.err := by cases p <;> rfl
@[simp] theorem State.setPort_boot (p : PortId) (f : Port → Port) : (s.setPort p f).boot = s.boot := by cases p <;> rfl
@[simp] theorem State.setPort_net (p : PortId) (f : Port → Port) : (s.setPort p f).net = s.net := by cases p <;> rfl
@[simp] theorem State.setPort_fns (p : PortId) (f : Port → Port) : (s.setPort p f).fns = s.fns := by cases p <;> rfl
@[simp] theorem State.setPort_sqs (p : PortId) (f : Port → Port) : (s.setPort p f).sqs = s.sqs := by cases p <;> rfl
@[simp] theorem State.setPort_cqs (p : PortId) (f : Port → Port) : (s.setPort p f).cqs = s.cqs := by cases p <;> rfl
@[simp] theorem State.setPort_sems (p : PortId) (f : Port → Port) : (s.setPort p f).sems = s.sems := by cases p <;> rfl
@[simp] theorem State.setPort_due (p : PortId) (f : Port → Port) : (s.setPort p f).due = s.due := by cases p <;> rfl
@[simp] theorem State.setPort_aborts (p : PortId) (f : Port → Port) : (s.setPort p f).aborts = s.aborts := by cases p <;> rfl
@[simp] theorem State.setPort_holds (p : PortId) (f : Port → Port) : (s.setPort p f).holds = s.holds := by cases p <;> rfl
@[simp] theorem State.setPort_cursors (p : PortId) (f : Port → Port) : (s.setPort p f).cursors = s.cursors := by cases p <;> rfl
@[simp] theorem State.setPort_zones (p : PortId) (f : Port → Port) : (s.setPort p f).zones = s.zones := by cases p <;> rfl
@[simp] theorem State.setPort_units (p : PortId) (f : Port → Port) : (s.setPort p f).units = s.units := by cases p <;> rfl
@[simp] theorem State.setPort_rand (p : PortId) (f : Port → Port) : (s.setPort p f).rand = s.rand := by cases p <;> rfl
@[simp] theorem State.setPort_media (p : PortId) (f : Port → Port) : (s.setPort p f).media = s.media := by cases p <;> rfl
@[simp] theorem State.setPort_staged (p : PortId) (f : Port → Port) : (s.setPort p f).staged = s.staged := by cases p <;> rfl
@[simp] theorem State.setPort_jobs (p : PortId) (f : Port → Port) : (s.setPort p f).jobs = s.jobs := by cases p <;> rfl
@[simp] theorem State.setPort_jobOrder (p : PortId) (f : Port → Port) : (s.setPort p f).jobOrder = s.jobOrder := by cases p <;> rfl
@[simp] theorem State.setPort_cores (p : PortId) (f : Port → Port) : (s.setPort p f).cores = s.cores := by cases p <;> rfl
@[simp] theorem State.setPort_hamlets (p : PortId) (f : Port → Port) : (s.setPort p f).hamlets = s.hamlets := by cases p <;> rfl
@[simp] theorem State.setPort_disp (p : PortId) (f : Port → Port) : (s.setPort p f).disp = s.disp := by cases p <;> rfl
@[simp] theorem State.setPort_sieve (p : PortId) (f : Port → Port) : (s.setPort p f).sieve = s.sieve := by cases p <;> rfl
@[simp] theorem State.setPort_dram (p : PortId) (f : Port → Port) : (s.setPort p f).dram = s.dram := by cases p <;> rfl
@[simp] theorem State.setPort_edc (p : PortId) (f : Port → Port) : (s.setPort p f).edc = s.edc := by cases p <;> rfl
@[simp] theorem State.setPort_loft (p : PortId) (f : Port → Port) : (s.setPort p f).loft = s.loft := by cases p <;> rfl
@[simp] theorem State.setPort_health (p : PortId) (f : Port → Port) : (s.setPort p f).health = s.health := by cases p <;> rfl
@[simp] theorem State.setPort_events (p : PortId) (f : Port → Port) : (s.setPort p f).events = s.events := by cases p <;> rfl
@[simp] theorem State.setPort_eventSeq (p : PortId) (f : Port → Port) : (s.setPort p f).eventSeq = s.eventSeq := by cases p <;> rfl
@[simp] theorem State.setPort_clk (p : PortId) (f : Port → Port) : (s.setPort p f).clk = s.clk := by cases p <;> rfl
@[simp] theorem State.setPort_pwr (p : PortId) (f : Port → Port) : (s.setPort p f).pwr = s.pwr := by cases p <;> rfl
@[simp] theorem State.setPort_life (p : PortId) (f : Port → Port) : (s.setPort p f).life = s.life := by cases p <;> rfl
@[simp] theorem State.setPort_tap (p : PortId) (f : Port → Port) : (s.setPort p f).tap = s.tap := by cases p <;> rfl
@[simp] theorem State.setPort_smbOff (p : PortId) (f : Port → Port) : (s.setPort p f).smbOff = s.smbOff := by cases p <;> rfl
@[simp] theorem State.setPort_act (p : PortId) (f : Port → Port) : (s.setPort p f).act = s.act := by cases p <;> rfl
@[simp] theorem State.setPort_ctlCores (p : PortId) (f : Port → Port) : (s.setPort p f).ctlCores = s.ctlCores := by cases p <;> rfl
@[simp] theorem State.setPort_ctlSpares (p : PortId) (f : Port → Port) : (s.setPort p f).ctlSpares = s.ctlSpares := by cases p <;> rfl

/-! ### Updates of a part, as updates of the table that holds it -/

theorem State.setCmd_eq (r : Ref) (g : Cmd → Cmd) :
    s.setCmd r g = s.setSq r.fn r.sq fun q => { q with cmds := q.cmds.map fun c => if c.tag = r.tag then g c else c } := rfl
theorem State.setDie_eq (d : DieId) (f : Die → Die) :
    s.setDie d f = s.setMedia fun m => { m with dies := adjD m.dies Die.fresh (dieNo d) f } := rfl
theorem State.setGroup_eq (d : DieId) (k : Nat) (f : Group → Group) :
    s.setGroup d k f = s.setMedia fun m => { m with groups := adjD m.groups Group.fresh (groupNo d k) f } := rfl
theorem State.setChan_eq (n : Nat) (f : Chan → Chan) :
    s.setChan n f = s.setMedia fun m => { m with chans := putD m.chans (Chan.fresh n) n (f (s.chan n)) } := rfl
theorem State.setMem_eq (w row i : Nat) (f : Mem → Mem) :
    s.setMem w row i f = s.setMedia fun m => { m with
      members := putD m.members (Mem.fresh w row i) (memNo w row i) (f (s.mem w row i)) } := rfl
theorem State.setWard_eq (w : Nat) (f : Ward → Ward) :
    s.setWard w f = s.setMedia fun m => { m with wards := adjD m.wards Ward.fresh w f } := rfl
theorem State.setSlot_eq (n : Nat) (u : SlotUse) :
    s.setSlot n u = s.setMedia fun m => { m with slots := putD m.slots (deliveredUse (slotRow n) (slotIdx n)) n u } := rfl
theorem State.setRank_eq (n : Nat) (f : Rank → Rank) :
    s.setRank n f = s.setDram fun d => { d with ranks := putD d.ranks (Rank.fresh n) n (f (s.rank n)) } := rfl
theorem State.setCtx_eq (k : Nat) (x : Ctx) : s.setCtx k x = s.setCore k fun c => { c with ctx := some x } := rfl

end Sys2Proof.Machine
end

