-- ==== Sys2Proof/Tests/Slice0.lean ====
section
/-! SUPPORT. Tests: each statement's hypotheses are met together by small states written here (wit_…), ill-formed commands are
refused (smoke_…), and a few values worked out by hand (test_…). -/

namespace Sys2Proof.Tests
open Sys2Proof.Machine

set_option Elab.async false

/-- `Startable`, as a check. -/
def runs (s : State) (r : Ref) (op : Nat) (c : Cmd) : Bool :=
  r.wf && decide (s.startable r op = some c) && ((s.sq r.fn r.sq).bind fun q => s.cq r.fn q.cq).isSome

theorem startable_of_runs {s : State} {r : Ref} {op : Nat} {c : Cmd} (h : runs s r op c = true) : Startable s r op c := by
  simp only [runs, Bool.and_eq_true, decide_eq_true_eq, Option.isSome_iff_exists, Option.bind_eq_some_iff] at h
  obtain ⟨⟨h1, h2⟩, k, q, h3, h4⟩ := h
  exact ⟨h1, h2, q, k, h3, h4⟩

/-! ### A small live module: ports up, managers 0 and 1 and tenant 2 ACTIVE with queue pairs in RTS, a holding of the tenant -/

def pair : W64 := withQpState qpReset .rts
def optic : OpticsInfo := ⟨100, 40, 3300, [], []⟩
def upPort : Port := { Port.fresh with state := .up, optic := some optic }
def joined (g : Fn) : Fn := { g with qp := [(0, pair), (1, pair), (2, pair), (3, pair)], qpAddr := [(0, 9), (1, 9)] }
def grant : Res := { Res.zero with sq := 16, cq := 16, allot := 4, dispW := 1, sieve := 1, readOps := 100, readBytes := 100, writeBytes := 100, scanBytes := 100 }
def tenant : Fn := joined { Fn.fresh with
  state := .active, res := grant, eff := grant, gens := [(0, 1), (1024, 1)]
  buckets := [1000000000000, 1000000000000, 1000000000000, 1000000000000] }
def live : State := { State.reset with
  boot := { State.reset.boot with step := 14, ready := true }
  pwr := { State.reset.pwr with on := true, usable := 600 }
  portA := upPort, portB := upPort, ledger := 5
  bell := { Bell.fresh with now := 1000 }
  fns := [(0, joined (Fn.manager .A)), (1, joined (Fn.manager .B)), (2, tenant)]
  sqs := [(0, Sq.admin 0), (1024, Sq.admin 1), (2048, Sq.admin 2)]
  cqs := [(0, Cq.admin 16384), (1024, Cq.admin 16385), (2048, Cq.admin 16386)]
  holds := [(1, ⟨2, false, 8, 4, 1, 1, 0, none⟩)] }

/-- A command of opcode `op`, tag 7, with the given fields, checked. -/
def cmdOf (op : Nat) (fs : List (Nat × Nat × Nat)) (block : Bytes) : Cmd :=
  { tag := 7, pos := 0, order := 0, entry := record 64 ([(0, 1, op), (2, 2, 7)] ++ fs), port := .A, point := .checked
    list := [], block := block, data := [], seen := 0, startBell := 0, startStill := 0, units := [], queuedBell := 0, drainBell := none, ledger := none, slices := 0
    bad := none, ending := none }
/-- A command in a function's ring 0. -/
def putCmd (s : State) (f : Nat) (c : Cmd) : State := s.setSq f 0 fun q => { q with cmds := q.cmds ++ [c] }
/-- No completion is owed before that of `r` (R167). -/
def free_ (s : State) (r : Ref) : Bool :=
  match s.sq r.fn r.sq, s.cmd r with
  | some q, some c => !orderWaits q.cmds c
  | _, _ => false
def mine : Ref := ⟨2, 0, 7⟩
def boss : Ref := ⟨0, 0, 7⟩

/-! reads -/
def isPay : Rate → Bool
  | .pay _ => true
  | _ => false
def z3 : Nat := zoneNo 1 3
def rd : Cmd := cmdOf 0x01 [(4, 2, 1), (8, 4, 3), (16, 2, 2)] []
def rrd : Cmd := cmdOf 0x10 [(4, 2, 1), (8, 4, 3), (16, 2, 2)] []
def unit0 : StUnit := ⟨0, 3145728, 1, .zone, 0, false, 3, 0, 3, [1, 2]⟩
/-- zone 3 of the holding: OPEN in ward 0, row 0, slot 5, 70 units written; units 0 and 68 listed -/
def zoned : State := { live with
  zones := [(z3, { Zone.fresh with st := .open_, wp := 70, slot := some 5 })]
  units := [(unitNo z3 0, unit0), (unitNo z3 68, unit0)]
  media := { live.media with slots := [(5, .bound z3)] } }

theorem wit_ReadsDeliver :
    (runs (putCmd live 2 rd) mine 0x01 rd && isPay ((putCmd live 2 rd).rate 2 (rateCost rd)) && decide (0 < rd.cnt) &&
      runs (putCmd live 2 rrd) mine 0x10 rrd && isPay ((putCmd live 2 rrd).rate 2 (rateCost rrd)) &&
      decide ((List.range 2).filterMap (fun k => ((putCmd live 2 rd).zonePiece z3 k (.cmd mine k)).2) = [])) = true ∧
    (runs (putCmd zoned 2 rd) mine 0x01 rd && isPay ((putCmd zoned 2 rd).rate 2 (rateCost rd)) &&
      decide ((List.range 2).filterMap (fun k => ((putCmd zoned 2 rd).zonePiece z3 k (.cmd mine k)).2) ≠ []) &&
      (List.range 2).all fun k => !zoned.media.lostUnits.contains (unitNo z3 k) && !live.media.lostUnits.contains (lostRand (randNo 1 (3 + k)))) = true := by decide

/-! flush, reports -/
def fl : Cmd := cmdOf 0x18 [] []
def rep : Cmd := cmdOf 0x0C [(4, 2, 1), (8, 4, 6), (16, 2, 4)] []
def glog : Cmd := cmdOf 0x38 [(4, 1, 2), (12, 4, 64)] []
def logged : State := { live with events := [record 64 [(0, 1, 9)]] }
theorem wit_FlushAndReports :
    (runs (putCmd live 2 fl) mine 0x18 fl && !(earlier ((putCmd live 2 fl).sq 2 0 |>.map (·.cmds) |>.getD []) fl.pos).any Cmd.changes) = true ∧
    (runs (putCmd live 2 rep) mine 0x0C rep && decide (0 < min rep.cnt ((putCmd live 2 rep).quota rep.f12 - rep.zone))) = true ∧
    (runs (putCmd logged 0 glog) boss 0x38 glog &&
      decide ((((putCmd logged 0 glog).logBytes boss glog).drop (le glog.entry 8 4)).take (le glog.entry 12 4) ≠ [])) = true := by decide

/-! zone management -/
def opn : Cmd := cmdOf 0x08 [(4, 2, 1), (8, 4, 3), (18, 1, 2)] []
def cls : Cmd := cmdOf 0x09 [(4, 2, 1), (8, 4, 3)] []
def fin : Cmd := cmdOf 0x0A [(4, 2, 1), (8, 4, 3)] []
def rst : Cmd := cmdOf 0x0B [(4, 2, 1), (8, 4, 3)] []
def closed : State := { zoned with zones := [(z3, { Zone.fresh with st := .closed, wp := 2048, slot := some 5 })] }
def inTurn (s : State) (r : Ref) (op : Nat) (c : Cmd) : Bool := runs s r op c && s.turn r c && decide (s.decides r c = none)

theorem wit_ZoneManagement :
    (inTurn (putCmd live 2 opn) mine 0x08 opn && ((putCmd live 2 opn).place opn).isSome && decide (live.stagingZones < 4160 ∧ closed.stagingZones < 4160) && decide (((putCmd live 2 opn).zone z3).st = .empty)) = true ∧
    (inTurn (putCmd closed 2 opn) mine 0x08 opn && decide (((putCmd closed 2 opn).zone z3).st = .closed ∧ ((putCmd closed 2 opn).zone z3).wp % 2048 = 0)) = true ∧
    (inTurn (putCmd zoned 2 cls) mine 0x09 cls && inTurn (putCmd zoned 2 fin) mine 0x0A fin && inTurn (putCmd closed 2 rst) mine 0x0B rst &&
      decide ((zoned.zone z3).st = .open_ ∧ (zoned.zone z3).wp % 2048 ≠ 0 ∧ (zoned.zone z3).park = .none) &&
      decide ((closed.zone z3).slot = some 5)) = true := by decide +kernel

/-! writes -/
def wr (op : Nat) : Cmd := cmdOf op ([(4, 2, 1), (8, 4, 3), (16, 2, 1)] ++ if op = 2 then [(12, 4, 70)] else []) []
def rwr : Cmd := cmdOf 0x11 [(4, 2, 1), (8, 4, 3), (16, 2, 1)] []
def trim : Cmd := cmdOf 0x12 [(4, 2, 1), (8, 4, 3), (16, 2, 1)] []
def mayWrite (s : State) (op : Nat) (c : Cmd) : Bool := runs s mine op c && !s.writeHeld mine c && isPay (s.rate 2 (rateCost c))
def mirrored (op : Nat) : State := putCmd zoned 2 { wr op with point := .mirrored, units := [unit0] }
def mayCommit (op : Nat) : Bool :=
  match (mirrored op).cmd mine with
  | some c => decide (c.point = .mirrored) && (mirrored op).turn mine c && decide ((mirrored op).decides mine c = none ∧ (mirrored op).pwr.loss = none)
  | none => false
def randed : State := { live with rand := [(randNo 1 3, ⟨unit0, 9, 0⟩)], media := { live.media with slots := [(9, .random)], raSlots := [(9, ⟨none, 64, 0, false, []⟩)] } }
def rmirrored : State := putCmd { live with media := { live.media with streams := (List.range 64).map fun i => (i, (9, 5)) } } 2
  { rwr with point := .mirrored, units := [unit0] }
theorem wit_Writes :
    (mayWrite (putCmd zoned 2 (wr 2)) 0x02 (wr 2) && mayWrite (putCmd zoned 2 (wr 3)) 0x03 (wr 3) &&
      mayWrite (putCmd live 2 rwr) 0x11 rwr) = true ∧
    (mayCommit 2 && mayCommit 3) = true ∧
    (match rmirrored.cmd mine with
      | some c => rmirrored.turn mine c && decide (rmirrored.decides mine c = none) && rmirrored.randFits mine c &&
        (look rmirrored.media.streams (unit0.addr / 2048 % 4 * 16 + rmirrored.cmdStream c)).isSome
      | none => false) = true ∧
    inTurn (putCmd randed 2 trim) mine 0x12 trim = true := by decide +kernel

/-! semaphores: 20 assigned to function 2 -/
def sem (op : Nat) (l : Nat) : Cmd := cmdOf op [(4, 2, 20), (6, 2, l)] []
def sems (w : W64) : State := { live with sems := { live.sems with word := [(20, w)], assign := [(20, 2)], acq := [(20, 100)] } }
def heldBy2 : W64 := 0x0000000300102002
def breakable : W64 := 0x0000000300106002
def heldBy3 : W64 := 0x0000000300102003
def semRuns (w : W64) (op l : Nat) : Bool :=
  runs (putCmd (sems w) 2 (sem op l)) mine op (sem op l) && decide (firstFail (step4 (putCmd (sems w) 2 (sem op l)) mine (sem op l)) = none)
theorem wit_Semaphores :
    (semRuns 0x0000000200000000 0x30 16 && semRuns heldBy2 0x30 9 && semRuns heldBy2 0x31 0 && semRuns breakable 0x32 0 &&
      semRuns heldBy3 0x30 9 && semRuns heldBy3 0x31 0 && semRuns heldBy3 0x32 0 && semRuns heldBy3 0x33 0) = true ∧
    ((sems 0).responds 2 .A && decide (((sems 0).fn 2).state = .active) && (sems 0).semPermitted 2 20 true && (sems 0).semPermitted 2 20 false &&
      !bit ((sems 0).semWord 20).toNat 13) = true ∧
    (bit ((sems heldBy2).semWord 20).toNat 13 && !bit ((sems heldBy2).semWord 20).toNat 14 &&
      decide (lookD (sems heldBy2).sems.acq 0 20 + bits heldBy2.toNat 31 16 ≤ (sems heldBy2).bell.now)) = true := by decide +kernel

/-! rings -/
def ringBlock (kind n sz : Nat) : Bytes :=
  record 48 ([(0, 2, n), (2, 1, kind), (3, 1, sz), (8, 8, 0x10000)] ++ if kind = 1 then [(20, 2, 1), (32, 8, 64)] else [])
def mk (kind : Nat) : Cmd := cmdOf 0x40 [] (ringBlock kind 3 4)
def del_ (kind : Nat) : Cmd := cmdOf 0x41 [(4, 2, 3), (6, 1, kind)] []
def setN : Cmd := cmdOf 0x42 [(4, 2, 0), (6, 1, 1), (7, 1, 4), (8, 2, 16)] []
def more : State := { live with sqs := live.sqs ++ [(2051, Sq.admin 9)], cqs := live.cqs ++ [(2051, Cq.admin 16390)] }
theorem wit_RingManagement :
    (runs (putCmd live 2 (mk 0)) mine 0x40 (mk 0) && !ringFails (putCmd live 2 (mk 0)) 2 (mk 0).block &&
      runs (putCmd live 2 (mk 1)) mine 0x40 (mk 1) && !ringFails (putCmd live 2 (mk 1)) 2 (mk 1).block) = true ∧
    (runs (putCmd more 2 (del_ 0)) mine 0x41 (del_ 0) && decide (firstFail ((putCmd more 2 (del_ 0)).deleteFails 2 3 false) = none) &&
      runs (putCmd more 2 (del_ 1)) mine 0x41 (del_ 1) && decide (firstFail ((putCmd more 2 (del_ 1)).deleteFails 2 3 true) = none)) = true ∧
    (runs (putCmd live 2 setN) mine 0x42 setN && ((putCmd live 2 setN).cq 2 0).isSome) = true := by decide +kernel

/-! abort, restart -/
def ab (tag : Nat) : Cmd := cmdOf 0x19 [(4, 2, 3), (6, 2, tag)] []
def rs (n : Nat) : Cmd := cmdOf 0x1A [(4, 2, n)] []
def victim (p : Point) (gone : Bool := false) : Cmd :=
  { rd with tag := 8, point := p, ending := if gone then some { status := ABORTED } else none }
def withVictim (p : Point) (gone : Bool := false) : State :=
  { more with sqs := live.sqs ++ [(2051, { Sq.admin 9 with cmds := [victim p gone] })] }
def frozen3 : State := { more with sqs := live.sqs ++ [(2051, { Sq.admin 9 with frozen := true })] }
def frozenWith (p : Point) : State := { more with sqs := live.sqs ++ [(2051, { Sq.admin 9 with frozen := true, cmds := [victim p] })] }
def rsD (n : Nat) : Cmd := cmdOf 0x1A [(4, 2, n), (6, 1, 1)] []
theorem wit_AbortAndRestart :
    (runs (putCmd more 2 (ab 8)) mine 0x19 (ab 8) && ((putCmd more 2 (ab 8)).sq 2 3).isSome &&
      runs (putCmd (withVictim .running) 2 (ab 8)) mine 0x19 (ab 8) && runs (putCmd (withVictim .decided) 2 (ab 8)) mine 0x19 (ab 8) &&
      decide ((((putCmd (withVictim .running) 2 (ab 8)).sq 2 3).map (·.cmds)) = some [victim .running]) &&
      runs (putCmd (withVictim .checked true) 2 (ab 8)) mine 0x19 (ab 8) && (victim .checked true).aborted &&
      !orderWaits [victim .running] (victim .running)) = true ∧
    (runs (putCmd more 2 (rs 3)) mine 0x1A (rs 3) && runs (putCmd frozen3 2 (rs 3)) mine 0x1A (rs 3) &&
      decide (((putCmd frozen3 2 (rs 3)).sq 2 3).map (fun q => (q.frozen, q.cmds)) = some (true, [])) && decide ((live.sqs ++ [(2051, Sq.admin 9)]).all fun e => e.2.fetched = e.2.tail)) = true ∧
    (runs (putCmd (frozenWith .running) 2 (rs 3)) mine 0x1A (rs 3) && runs (putCmd (frozenWith .checked) 2 (rs 3)) mine 0x1A (rs 3) &&
      runs (putCmd (frozenWith .checked) 2 (rsD 3)) mine 0x1A (rsD 3) && (victim .running).started && !(victim .checked).started &&
      byteAt (rsD 3).entry 6 = 1) = true := by decide +kernel

/-! functions -/
def fc (op f : Nat) (b : Bytes) : Cmd := cmdOf op [(4, 2, f)] b
def resB : Bytes := record 32 [(0, 2, 4), (2, 2, 4), (4, 2, 1)]
def addB : Bytes := record 144 [(0, 2, 4), (2, 2, 4), (4, 2, 1), (32, 8, 0x2000), (48 + 3, 1, 4), (48 + 8, 8, 0x10000), (96 + 2, 1, 1), (96 + 3, 1, 4),
  (96 + 8, 8, 0x20000), (96 + 20, 2, 1)]
def quiet2 : State := { live with fns := [(0, joined (Fn.manager .A)), (1, joined (Fn.manager .B)), (2, { tenant with state := .quiesced, quietAt := 900 })], holds := [] }
def fruns (s : State) (op f : Nat) (b : Bytes) : Bool := runs (putCmd s 0 (fc op f b)) boss op (fc op f b)
theorem wit_FunctionManagement :
    (fruns live 0x48 5 addB && addBlockOk addB && !live.overTotals 5 (resAt addB 0) && decide (live.life.state ≠ .return_ ∧ (live.fn 5).state = .absent)) = true ∧
    (fruns live 0x49 2 [] && fruns quiet2 0x49 2 [] && fruns quiet2 0x4A 2 [] && fruns quiet2 0x4B 2 [] && fruns quiet2 0x4C 2 [] &&
      quiet2.holds.all fun h => h.2.owner ≠ 2) = true ∧
    (fruns live 0x4A 2 [] && fruns live 0x49 0 [] && fruns live 0x4B 0 []) = true ∧
    (fruns live 0x4D 2 resB && resOk resB 0 && !live.overTotals 2 (resAt resB 0) && !live.shrinks 2 (resAt resB 0)) = true := by decide +kernel

/-! holdings -/
def hc (op h own : Nat) : Cmd := cmdOf op ([(4, 2, h)] ++ (if op = 0x50 ∨ op = 0x52 then [(6, 2, own)] else []) ++
  if op = 0x50 ∨ op = 0x51 then [(8, 4, 16), (12, 2, 8), (14, 2, 2), (16, 1, 1)] else []) []
def quietH : State := { quiet2 with
  holds := live.holds, fns := quiet2.fns ++ [(3, tenant)], units := [(unitNo z3 0, unit0)]
  zones := [(z3, { Zone.fresh with st := .open_, wp := 1, slot := some 5 })], rand := [(randNo 1 3, ⟨unit0, 9, 0⟩)] }
def hruns (s : State) (op h own : Nat) : Bool := runs (putCmd s 0 (hc op h own)) boss op (hc op h own)
theorem wit_Holdings :
    (hruns live 0x50 4 2 && live.mayOwn 2 && !live.holdOver (hc 0x50 4 2) && (look live.holds 4).isNone) = true ∧
    (hruns live 0x51 1 0 && !live.holdOver (hc 0x51 1 0) && !live.holdShrinks (hc 0x51 1 0)) = true ∧
    (hruns quietH 0x52 1 3 && quietH.mayOwn 3 && decide ((quietH.fn 2).state = .quiesced) && hruns quietH 0x53 1 0) = true := by decide +kernel

/-! power, time, firmware -/
def tolC (n : Nat) : Cmd := cmdOf 0x43 [(8, 4, n)] []
def calC : Cmd := cmdOf 0x58 [(8, 8, 1700000000), (16, 4, 5)] []
def dlC : Cmd := cmdOf 0x59 [(8, 4, 4096), (12, 4, 4096), (16, 2, 1)] []
def actC : Cmd := cmdOf 0x5A [] []
def deep : State := { live with pwr := { live.pwr with cur := 1 } }
def writable : State := { live with loft := { live.loft with clear := [4096], imgB := ⟨true, 3, 9, []⟩ } }
def activating : State := { putCmd writable 0 { actC with point := .running } with act := some ⟨boss, 2⟩ }
def handing : State := { activating with act := some ⟨boss, 3⟩ }
theorem wit_PowerTimeFirmware :
    (runs (putCmd live 2 (tolC 50)) mine 0x43 (tolC 50) &&
      ((putCmd live 2 (tolC 50)).setFn 2 fun g => { g with tol := 50 }).admits (putCmd live 2 (tolC 50)).pwr.cur &&
      runs (putCmd deep 2 (tolC 5)) mine 0x43 (tolC 5) &&
      !((putCmd deep 2 (tolC 5)).setFn 2 fun g => { g with tol := 5 }).admits (putCmd deep 2 (tolC 5)).pwr.cur) = true ∧
    (runs (putCmd live 0 calC) boss 0x58 calC && decide (live.clk.st ≠ 2)) = true ∧
    (runs (putCmd writable 0 dlC) boss 0x59 dlC && !writable.bankProtected && decide (writable.act = none)) = true ∧
    (runs (putCmd writable 0 actC) boss 0x5A actC && !(putCmd writable 0 actC).downloading && (writable.loft.image writable.inactive).ok &&
      decide (writable.life.floor ≤ (writable.loft.image writable.inactive).svn)) = true ∧
    (decide (activating.act = some ⟨boss, 2⟩) && (activating.cmd boss).isSome && ((activating.sq 0 0).bind fun q => activating.cq 0 q.cq).isSome && free_ activating boss) = true ∧
    (decide (handing.act = some ⟨boss, 3⟩) && (handing.cmd boss).isSome && ((handing.sq 0 0).bind fun q => handing.cq 0 q.cq).isSome && free_ handing boss) = true := by
  decide +kernel

/-! deferred start -/
theorem wit_DeferredStart : (putCmd live 2 rd).cmd mine = some rd ∧ rd.opcode = 0x01 := by decide +kernel

/-! sieve -/
def rowB (key res v : Nat) : Bytes := record 96 [(0, 1, key), (40, 1, 0xFF), (80, 8, res), (89, 1, 128 * v)]
def swC : Cmd := cmdOf 0x28 [(4, 4, 7)] (rowB 5 9 1)
def luC (k : Nat) : Cmd := cmdOf 0x2A [] (record 40 [(0, 1, k)])
def stC : Cmd := cmdOf 0x2B [(8, 4, 1)] []
def row5 (res : Nat) : Row := ⟨5, 0xFF, BitVec.ofNat 64 res, 0, true⟩
def zeroRow : Bytes := record 96 []
def spC' : Cmd := cmdOf 0x29 [(4, 4, 7), (8, 4, 1023)] (rowB 5 9 1 ++ zeroRow)
def rows : Tab Row := [(7, row5 9), (8, row5 10)]
def sieved : State := { live with
  fns := [(0, joined (Fn.manager .A)), (1, joined (Fn.manager .B)), (2, { tenant with part := some 0, cursors := [⟨1, false, record 40 [(0, 1, 5)], 8, 7⟩] })]
  sieve := { live.sieve with segs := [(0, 128)], arr := rows, shadow := rows, retiring := [7] } }
def last : State := { sieved with sieve := { sieved.sieve with arr := [(7, row5 9)], shadow := [(7, row5 9)] } }
def writes (c : Cmd) (op : Nat) : Bool :=
  let s := putCmd sieved 2 c
  runs s mine op c && s.rowTurn mine c && decide (s.sieveFails mine c = none) && (s.physRow 2 (le c.entry 4 4)).isSome
def looks (s : State) (c : Cmd) (op : Nat) : Bool := runs (putCmd s 2 c) mine op c && isPay ((putCmd s 2 c).rate 2 (rateCost c))
theorem wit_SieveCommands :
    (writes swC 0x28 && writes spC' 0x29 && decide ((putCmd sieved 2 spC').physRow 2 (le spC'.entry 8 4) = some 1023)) = true ∧
    (looks sieved (luC 5) 0x2A && decide ((sieved.hits sieved.sieve.arr 2 (keyOf (slice (luC 5).block 0 40))).map (·.1) = [7, 8]) &&
      !sieved.rowBad 7 && looks sieved (luC 6) 0x2A && decide (sieved.hits sieved.sieve.arr 2 (keyOf (slice (luC 6).block 0 40)) = [])) = true ∧
    (looks sieved stC 0x2B && looks last stC 0x2B &&
      decide (((sieved.fn 2).cursors.find? fun x => x.value = le stC.entry 8 4).map (·.len) = some 8) &&
      decide (((sieved.hits sieved.sieve.arr 2 5).filter fun x => ranksBefore sieved.sieve.active 8 7 x.2.2.len x.1).map (·.1) = [8]) &&
      decide (((last.hits last.sieve.arr 2 5).filter fun x => ranksBefore last.sieve.active 8 7 x.2.2.len x.1) = [])) = true ∧
    (sieved.boot.ready && decide (7 ∈ sieved.sieve.retiring)) = true := by decide +kernel

/-! jobs -/
theorem lowest (n : Nat) : lowestFree (n + 1) [] = some 0 := by simp [lowestFree, List.range_succ_eq_map]
def runC : Cmd := cmdOf 0x21 [(5, 1, 128), (20, 4, 100)] []
def scanC : Cmd := cmdOf 0x20 [(4, 2, 1), (20, 4, 100)] (record 32 [])
def held_ (c : Cmd) : Cmd := { c with point := .held }
def queued : State := { putCmd live 2 (held_ runC) with jobs := [(0, newJob mine runC)] }
def jobS (x : Job) : State := { putCmd live 2 { runC with point := .running } with bell := { live.bell with now := 3000000 }, jobs := [(0, x)] }
def running : Job := { newJob mine runC with st := .running }
def haltedJ : Job := { running with stopped := true, cores := 0 }
def filledJ : Job := { haltedJ with filling := [(1, record 32 [(0, 2, 8)])] }
def offJ : State := { jobS filledJ with portA := { upPort with state := .down }, portB := { upPort with state := .down } }
def jobRefs (s : State) : Bool := (s.cmd mine).isSome && ((s.sq 2 0).bind fun q => s.cq 2 q.cq).isSome && mine.wf
theorem wit_Jobs :
    (decide ((putCmd live 2 runC).cmd mine = some runC) && decide ((putCmd live 2 scanC).cmd mine = some scanC) &&
      decide ((putCmd live 2 runC).jobOf mine = none)) = true ∧
    (queued.jobMayStart (newJob mine runC) && decide ((newJob mine runC).mem ≤ queued.memFree 2) && queued.canLoad (newJob mine runC) &&
      !queued.jobBefore (newJob mine runC)) = true ∧
    (jobRefs (jobS { running with st := .loading }) && jobRefs (jobS { running with timeLimit := 5 }) &&
      decide (2000000 ≤ (jobS running).ranFor running.loadBell 0) && free_ (jobS running) mine && decide (running.fault = none)) = true ∧
    (running.output = [] ∧ running.sent = running.delivered ∧ running.ending = none ∧ (jobS running).consumed 0 running = true) ∧
    (haltedJ.output = [] ∧ haltedJ.sent = haltedJ.delivered ∧ haltedJ.stopped = true ∧ haltedJ.cores = 0 ∧ filledJ.stopped = true ∧
      haltedJ.filling.flatMap (·.2) = [] ∧ filledJ.cores = 0 ∧ filledJ.output ++ filledJ.filling.flatMap (·.2) ≠ [] ∧ offJ.workPort 2 = none) := by decide +kernel

/-! batches, output -/
def scanJ : Job := { newJob mine scanC with st := .running, cores := 16, filling := [(1, record 32 [(0, 2, 8)])], hamlets := [0] }
def fullJ : Job := { scanJ with batches := [⟨0, 1, outWindow⟩] }
def outJ : Job := { running with outZone := some z3, output := [1, 2, 3] }
def zonedJ : State := { zoned with jobs := [(0, outJ)] }
def downS : State := { jobS { running with sent := outWindow } with portA := { upPort with state := .down }, portB := { upPort with state := .down } }
def coreless : Job := { scanJ with cores := 0 }
theorem wit_BatchesAndOutput :
    (scanJ.live && scanJ.isScan && decide (0 < scanJ.nextBatch 1) && (scanJ.batchPlace (scanJ.nextBatch 1)).isSome &&
      decide (0 < fullJ.nextBatch 1) && (fullJ.batchPlace (fullJ.nextBatch 1)).isNone && !fullJ.paused.contains 1) = true ∧
    (coreless.nextBatch 1 = 32 ∧ coreless.live = true ∧ coreless.isScan = true ∧ coreless.undelivered + 32 ≤ outWindow ∧
      outWindow < { coreless with sent := outWindow }.undelivered + 32) ∧
    (decide (zonedJ.appendPiece 0 outJ ≠ [] ∧ (zonedJ.zone z3).fence = none ∧ (zonedJ.zone z3).st = .open_ ∧ (zonedJ.zone z3).wp = 70) &&
      !zonedJ.zoneHeld z3 1) = true ∧
    (decide (downS.portA.state ≠ .up ∧ downS.portB.state ≠ .up ∧ outWindow ≤ { running with sent := outWindow }.undelivered) &&
      { running with sent := outWindow }.live) = true ∧
    ((jobS { running with outPaused := some 10 }).workPort 2).isSome = true := by decide +kernel

/-! ports -/
def semA : W64 := 0x0000000100642000
def managed : State := { live with sems := { live.sems with word := [(0, semA)], acq := [(0, 1000)] } }
def withA (s : State) (q : Port) : State := { s with portA := q }
def offA (m : Option OpticsInfo) : State := withA managed { Port.fresh with optic := m }
def offA_disabled : State := withA managed { Port.fresh with optic := some optic, regs := [(0x008, 0)] }
def inA (st : PortState) (n : Nat) : State := withA managed { upPort with state := st, fails := n }
def manages (s : State) (f : Nat) (p : PortId) : Bool := decide (f < 2) && s.responds f p && semHeldBy (s.semWord 0) f p
/-- `Manages`, through port B where port A does not serve. -/
def semB : W64 := 0x0000000100643000
def overB (s : State) : State := { s with sems := { s.sems with word := [(0, semB)] } }
theorem manages_of {s : State} {f : Nat} {p : PortId} (h : manages s f p = true) : Manages s f p := by
  simpa [manages, Manages, and_assoc] using h

theorem wit_PortStates :
    (decide ((offA none).portA.optic = none ∧ (offA none).pwr.on ∧ (offA none).boot.ready ∧ optic.advPower ≤ 120) && (offA none).portEnabled .A &&
      (offA none).portsLive && offA_disabled.portsLive && (inA .training 6).portsLive && (inA .failed 8).portsLive) = true ∧
    ((inA .up 0).uses 2 .A && decide ((inA .up 0).portA.optic.isSome ∧ (inA .up 0).portA.state = .up ∧ (inA .training 6).portA.state = .training ∧
      (inA .training 7).portA.fails + 1 = 8 ∧ (inA .down 1).portA.state = .down)) = true ∧
    (manages (overB (inA .up 0)) 0 .B && (overB (inA .up 0)).portEnabled .A && decide ((overB (inA .up 0)).portB.state = .up)) = true ∧
    (manages (overB offA_disabled) 0 .B && !(overB offA_disabled).portEnabled .A && offA_disabled.portA.usable) = true ∧
    (manages (overB (inA .failed 8)) 0 .B && (overB (inA .failed 8)).portEnabled .A) = true := by decide +kernel

/-! frames -/
def frameS : State := withA managed { upPort with paused := [3], resolving := [77], echoes := 999, regs := [(0x040, 0x8000000001020304), (0x090, 0x8000000000000000), (0x080, 5)] }
theorem wit_Frames :
    (decide (frameS.portA.state = .up ∧ 3 ∈ frameS.portA.paused ∧ 77 ∈ frameS.portA.resolving ∧ frameS.portA.echoes < 1000) &&
      frameS.vlanOk .A .none && !frameS.vlanOk .A .service && frameS.ownV4 .A 0x01020304 && frameS.ownV6 .A 5 && !frameS.ownV4 .A 9) = true := by
  decide +kernel

/-! time -/
def ann (r : Nat) : Announce := ⟨33, 0, r⟩
def timeS (st syncs : Nat) (b : List Announce) : State := { managed with
  portA := { upPort with ptpHeard := b, lastSync := some 10, syncSince := some 0 }
  portB := { upPort with ptpHeard := b, lastSync := some 70000000 }
  bell := { live.bell with now := 70000000 }
  clk := { live.clk with st := st, syncs := syncs } }
def backS : State := { timeS 2 9 [ann 5] with
  portA := { upPort with ptpHeard := [ann 5], lastSync := some 70000000, syncSince := some 0 }, net := { live.net with ptpInUse := .B } }
theorem wit_TimeInput :
    (decide ((timeS 1 7 [ann 5]).portA.state = .up ∧ (ann 4).domain = (timeS 1 7 [ann 5]).net.ptpDomain ∧
      (timeS 1 7 [ann 5]).net.ptpInUse = .A ∧ (timeS 2 8 []).clk.st = 2) && (timeS 1 7 [ann 5]).listens .A 33 0 &&
      (timeS 2 8 [ann 5]).noSync .A && decide ((timeS 2 8 [ann 5]).net.ptpSource = 2)) = true ∧
    (decide (backS.portA.syncSince = some 0 ∧ backS.net.ptpSource = 2 ∧ backS.net.ptpInUse = .B ∧ 60000000000 ≤ backS.sinceBell 0) &&
      !backS.noSync .A) = true := by decide +kernel

/-! transport -/
def dataOp : RdmaOp := ⟨2, some .A, false, .data mine⟩
def notifyOp : RdmaOp := ⟨2, some .A, true, .notify 5⟩
def cwr : Cmd := { wr 2 with point := .data }
def sent : State := { putCmd zoned 2 cwr with rdma := [dataOp, notifyOp] }
def tired : State := { sent with fns := [(0, joined (Fn.manager .A)), (1, joined (Fn.manager .B)), (2, { tenant with qpTries := [(0, 7), (4, 6)] })] }
def failing : State := { sent with net := { live.net with failover := [(2, .A, 999)] }, portA := { upPort with state := .down } }
theorem wit_TransportErrors :
    (sent.respondsOn 2 .A false && free_ sent mine && sent.carries 2 .A false && sent.carries 2 .A true && decide (dataOp ∈ sent.rdma ∧ notifyOp ∈ sent.rdma)) = true ∧
    ((sent.onQp 2 .A false)[0]? = some dataOp ∧
      (sent.cmd mine = some cwr ∧ ((sent.sq 2 0).bind fun q => sent.cq 2 q.cq).isSome = true)) ∧
    (decide (lookD (sent.fn 2).qpTries 0 0 < qpRetry ((sent.fn 2).qpWord .A false) ∧
      qpRetry ((tired.fn 2).qpWord .A false) ≤ lookD (tired.fn 2).qpTries 0 0 ∧ qpRnr ((sent.fn 2).qpWord .A true) = 7)) = true ∧
    (sent.respondsOn 2 .A true && failing.failDue 2 (2, .A, 999) && decide ((2, PortId.A, 999) ∈ failing.net.failover)) = true := by decide +kernel

/-! queue pairs -/
def fresh0 (w : W64) : Fn := { Fn.manager .A with qp := [(0, w), (2, pair)], qpAddr := [(1, 9)] }
def qpS (w : W64) : State := { managed with fns := [(0, fresh0 w), (1, joined (Fn.manager .B)), (2, tenant)] }
def tqp (w : W64) (a : W128) : State := { managed with fns := [(0, joined (Fn.manager .A)), (1, joined (Fn.manager .B)),
  (2, { tenant with qp := [(0, w), (2, pair)], qpAddr := [(0, a)] })] }
def rqp : CmReq := ⟨0x4A37000000000001, 0x10000, 5, 6, 4096, 14, 7, 7, 0x04030201FFFF00000000000000000000⟩
def inState (q : QpState) : W64 := withQpState qpReset q
theorem wit_QueuePairs :
    (decide ((qpS qpReset).portA.state = .up ∧ ((qpS qpReset).fn 0).qpState .A false = .reset ∧ ((qpS qpReset).fn 0).qpState .A true = .reset) &&
      ((qpS qpReset).cmMtu .A rqp.mtu rqp.src).isSome) = true ∧
    (decide (rqp.qpn = qpNumber 0 false ∧ rqp.sid = (qpS qpReset).portWord .A 0x160)) = true ∧
    (decide (((qpS (inState .rtr)).fn 0).qpState .A false = .rtr)) = true ∧
    (manages (tqp qpReset 9) 0 .A && decide (((tqp qpReset 9).fn 2).qpState .A false = .reset ∧ (((tqp qpReset 9).fn 2).qpState .A true).fixed = false ∧
      qpMtu qpReset ≠ 3 ∧ 8 ≤ qpTimeout qpReset ∧ qpTimeout qpReset ≤ 20)) = true ∧
    (decide (((tqp (inState .init) 9).fn 2).qpState .A false = .init ∧ ((tqp (inState .init) 9).fn 2).addr .A ≠ 0 ∧
      mtuNeeds (qpMtu (inState .init)) 9 ≤ (tqp (inState .init) 9).mtu .A)) = true ∧
    (decide (((tqp (inState .rtr) 9).fn 2).qpState .A false = .rtr ∧ ((tqp (inState .rts) 9).fn 2).qpState .A false = .rts ∧
      look (tqp (inState .rts) 9).net.lastCnp 8 = none ∧ ((tqp (inState .rts) 9).fn 2).state ≠ .absent)) = true := by decide +kernel

/-! set-up window -/
def scrubS : State := { managed with edc := { managed.edc with start := 0x40, end_ := 0x80 }
                                     fns := [(0, joined (Fn.manager .A)), (1, joined (Fn.manager .B))] }
theorem wit_SetupWrites :
    manages managed 0 .A = true ∧
    (decide (managed.messageFails (.rdma 0 .A) 0x100008 (toLe 0 8) = none ∧ managed.messageFails (.rdma 0 .A) 0x242004 (toLe 0 8) = some 6 ∧
      managed.messageFails (.rdma 0 .A) 0x241FF8 (toLe 1 8) = some 5)) = true ∧
    (decide (scrubS.sieve.owner = 0) && (scrubS.fns.all fun e => e.2.res.sieve = 0) && (scrubS.sieve.arr.all fun e => !e.2.valid)) = true ∧
    (decide (bit (0x1001 : W64).toNat 0 = true ∧ bits (0x1001 : W64).toNat 12 8 = 16 ∧ managed.disp.en = false ∧ 16 * 2 ^ 24 ≤ managed.plainFree)) = true ∧
    (decide (scrubS.edc.busy = false) && scrubOk scrubS.edc.start scrubS.edc.end_) = true ∧
    (decide (((managed.sq 0 0).map fun q => (q.cmds, q.base.toNat % 4096)) = some ([], 0))) = true := by decide +kernel

/-! service buses (the valid debug token: `wit_tokens`) -/
theorem wit_ServiceBuses :
    live.smbServed = true ∧ { live with health := { live.health with alert := true } }.health.alert = true ∧
    live.messageFails .smbus 0x20010 (toLe 0 8) = none ∧ live.messageFails .smbus 0x242004 (toLe 0 8) = some 6 ∧
    live.pwr.on = true ∧ { live with life := { live.life with seals := 0 } }.life.state = .factory ∧ live.life.state = .sealed_ := by decide +kernel

/-! DRAM -/
def rk (st : RankState) (p : Option Nat) : Rank := ⟨st, 60, 60, 0, p, none⟩
def turnS : State := { live with bell := { live.bell with now := 65536 } }
def dramS (rs : Tab Rank) : State := { jobS running with dram := { live.dram with ranks := rs, remirror := [5] } }
def batchS : State := { live with bell := { live.bell with batch := [0] } }
theorem wit_DramRanks :
    (0 ∈ batchS.bell.batch ∧ 0 ∉ batchS.bell.drained) ∧
    (turnS.recentreDue 0 = true ∧ (turnS.rank 0).st = .active ∧ 0 ∉ turnS.bell.drained ∧ ((dramS []).rank 0).st = .active ∧ (dramS []).spareOf 0 = some 2 ∧ (dramS [(2, rk .active none)]).spareOf 0 = none) ∧
    (((dramS [(0, rk .retraining none)]).rank 0).st = .retraining) ∧
    (let s := dramS [(0, rk .draining none), (2, rk .filling (some 0))]
     (s.rank 2).st = .filling ∧ (s.rank 2).partner = some 0 ∧ ∀ j < 36, j ≠ 2 → (s.rank j).partner ≠ some 2) ∧
    ((∃ n ∈ (dramS []).dram.remirror, n / 6 = 0) ∧ (∀ n ∈ (dramS []).dram.remirror, n / 6 ≠ 1) ∧
      ∀ k < 6, ((dramS []).rank (6 * 1 + k)).st ≠ .retraining) ∧
    (0 ∉ (dramS []).dram.chanOut ∧ (dramS []).remapUsed 0 < 32 ∧ macroOk 0 = true ∧ lookD (dramS []).dram.sramRemap 0 0 < 4) := by decide +kernel

/-! health: the hypotheses are those of a READY module -/
theorem wit_HealthEvaluated : live.boot.ready = true ∧ live.pwr.on = true := by decide

/-! power states -/
def easy (n : Nat) : State := { live with
  pwr := { live.pwr with cur := n, idleFrom := some 0 }, bell := { live.bell with now := 3000000 }
  fns := [(0, { joined (Fn.manager .A) with tol := 30000 })] }
def entering3 : State := { zoned with pwr := { live.pwr with cur := 2, entering := true, entryCkpt := some 0 } }
def parked3 : State := { entering3 with zones := [(z3, { Zone.fresh with st := .open_, wp := 70, slot := some 5, park := .parked 3 })] }
def beating : State := { live with bell := { live.bell with now := 2 ^ 25 } }
theorem wit_PowerStates :
    (live.serving && [0, 1, 2, 3].all fun n => (easy n).serving && (easy n).heldFor (n + 1) && (easy n).admits (n + 1)) = true ∧
    (easy 1).q2Energy ≤ (easy 1).pwr.usable ∧
    (entering3.serving = true ∧ entering3.pwr.entering = true ∧ entering3.allParked = false ∧ parked3.allParked = true ∧ parked3.serving = true ∧
      parked3.pwr.entering = true ∧ parked3.pwr.entryCkpt = some 0 ∧ parked3.media.ckpt = none) ∧
    (live.pwr.measuring = false ∧ live.capDue = true) ∧
    (deep.admits deep.pwr.cur = false ∧ (easy 2).workDue .patrol = true ∧ beating.bell.now % 2 ^ 24 = 0 ∧ beating.serving = true) := by decide +kernel

/-! power loss -/
def losing (slot last : Nat) : State := { live with
  pwr := { live.pwr with loss := some ⟨slot, last, [], false, false⟩, dumps := if slot = 0 then [] else [⟨1, false, false, 5, [], [], [], 0, []⟩] } }
def slotDone (s : State) (l : LossSeq) : LossSeq := (s.cellarSlot [] l).2
def booting : State := { live with boot := { live.boot with ready := false, step := 7 } }
theorem wit_PowerLoss :
    (live.pwr.on = true ∧ live.boot.ready = true ∧ live.pwr.loss = none) ∧ (booting.pwr.on = true ∧ booting.boot.ready = false) ∧
    ((losing 0 0).pwr.loss = some ⟨0, 0, [], false, false⟩ ∧ (losing 1 2).pwr.loss = some ⟨1, 2, [], false, false⟩ ∧
      (losing 2 2).pwr.loss = some ⟨2, 2, [], false, false⟩ ∧ (slotDone (losing 2 2) ⟨2, 2, [], false, false⟩).todo = [] ∧
      (slotDone (losing 2 2) ⟨2, 2, [(0, 0), (0, 1)], false, false⟩).todo = [(0, 1)] ∧ (losing 2 2).nextDump = 2) := by decide +kernel

/-! temperatures -/
def hotOff : State := { live with pwr := { live.pwr with on := false, cause := 2, latched := true } }
theorem wit_Temperatures : live.health.temps.length = 4 ∧ live.pwr.on = true ∧ live.boot.ready = true ∧ live.pwr.loss = none ∧
    hotOff.health.temps.length = 4 ∧ hotOff.pwr.on = false ∧ hotOff.pwr.cause = 2 ∧ ∀ d ∈ [(⟨0, 0, 0⟩ : DieId)], d.wf = true := by decide +kernel

/-! boots -/
def env : BootEnv := ⟨true, [], true, [], (64, 64), [], 18, [], (100, 100), true, [], [], true, true, 25, 0, [0, 1, 2], 900, 600, true⟩
def off : State := State.reset
def resetLow : State := { off with pwr := { off.pwr with reset := true } }
def disabled : State := { off with pwr := { off.pwr with disable := true } }
def heldBoot : State := { live with boot := { live.boot with ready := false, step := 2, held := true }, pwr := { live.pwr with reset := true } }
def mrC : Cmd := cmdOf 0x5B [] []
def bootable (s : State) (e : BootEnv) : Bool :=
  e.wf && e.romOk && (s.chooseBank e.bankBad).isSome && e.sramOk && decide (e.ranksBad = []) && decide (e.fillBad = []) && decide (12 ≤ e.coresOk) && e.metaOk &&
    decide (s.life.state ≠ .scrapped) && decide (s.dram.ranks = []) && decide (s.dram.chanOut = []) && decide (s.loft.busy = []) && e.stepMs.all fun m => decide (m ≤ e.ms)
theorem bootable_of {s : State} {e : BootEnv} (h : bootable s e = true) : Bootable s e := by
  simpa [bootable, Bootable, and_assoc] using h
theorem wit_Boots :
    (bootable off env && bootable disabled env && bootable heldBoot env && bootable (putCmd live 0 mrC) env && env.inputHeld &&
      decide (off.pwr.on = false ∧ off.pwr.disable = false ∧ off.pwr.latched = false ∧ off.pwr.reset = false ∧ resetLow.pwr.reset = true)) = true ∧
    (runs (putCmd live 0 mrC) boss 0x5B mrC && decide (heldBoot.boot.held = true ∧ heldBoot.pwr.on = true ∧ heldBoot.boot.halted = none)) = true ∧
    (decide ({ env with romOk := false }.romOk = false ∧ off.chooseBank [0, 1] = none) && { env with bankBad := [0, 1] }.wf) = true ∧
    (decide (0 < live.ctlSpares ∧ live.boot.ready = true ∧ live.pwr.loss = none)) = true ∧
    (bootable { live with ctlSpares := 0, ctlCores := 12 } env) = true := by decide +kernel

/-! bells -/
def late1 : Due := ⟨mine, SUCCESS, 5, some 5⟩
def dueS : State := { putCmd live 2 (held_ (setN)) with due := [late1], bell := { live.bell with now := 65535 } }
def slice1 : Slice := ⟨⟨0, 0, 0⟩, 5, 0, 0, [(0, .cmd mine 0)], 1, .queued⟩
def readS : State := { zoned with media := { zoned.media with slices := [slice1] } }
def dieOp (a : OpAct) (w : Purpose) : DieOp := ⟨⟨4, ⟨0, 0, 0⟩, a, 5, 7, 2, w⟩, 2400000, 0, false, 0, true, 0⟩
def opS (o : DieOp) : State := { zoned with staged := 64, media := { zoned.media with dies := [(0, { Die.fresh with op := some o })] } }
def suspS : State := let s := opS (dieOp .erase .internal); { s with media := { s.media with slices := [{ slice1 with phase := .suspending }] } }
theorem wit_Bells :
    (dueS.pwr.on = true ∧ dueS.net.adminDue = [] ∧ (dueS.cmd mine).isSome = true ∧ ((dueS.sq 2 0).bind fun q => dueS.cq 2 q.cq).isSome = true ∧
      mine.wf = true ∧ free_ dueS mine = true) ∧
    (live.bell.closed = false ∧ chanOk 0 = true ∧ dueS.pwr.loss = none ∧ live.pwr.loss = none ∧ (losing 1 2).pwr.loss.isSome = true) ∧
    (readS.chanIdle 0 = false ∧ dieChan slice1.die = 0 ∧ readS.dieUnable slice1.die 5 = false ∧ (readS.die slice1.die).op = none ∧
      lookD readS.bell.reserved 0 0 + 40 ≤ 15000 ∧ slice1.cls = 1 ∧ readS.media.recons = [] ∧
      suspS.media.slices = [{ slice1 with phase := .suspending }]) ∧
    (((opS (dieOp .erase .internal)).die ⟨0, 0, 0⟩).op = some (dieOp .erase .internal) ∧ (⟨0, 0, 0⟩ : DieId).wf = true) := by decide +kernel

/-! channels -/
def chanS (c : Chan) : State := { live with media := { live.media with chans := [(3, c)] } }
def ch (st : ChanState) (fails : Nat) (due trying : Bool) : Chan := ⟨st, fails, 80, 80, [], due, trying, 0, 0, 0, 0, 0⟩
/-- A training in which the positions below `n` do not answer with their identity. -/
def train (n : Nat) : Train := ⟨true, (List.range 28).map fun i => ⟨100, 100, decide (n ≤ i)⟩⟩
theorem wit_FlashChannels :
    (chanOk 3 = true ∧ ((chanS (ch .inService 0 true false)).chan 3).due = true ∧ (chanS (ch .inService 0 true false)).retrainAdmitted 3 = true) ∧
    ((chanS (ch .inService 0 false false)).chan 3).centred + 65536 ≤ turnS.bell.now ∧
    0 < turnS.room 3 7 ∧ 0 < (chanS (ch .spare 0 false false)).room 3 7 ∧
    (trainBad (train 4) = [0, 1, 2, 3] ∧ trainBad (train 5) = [0, 1, 2, 3, 4] ∧ trainBad (train 0) = []) ∧
    ((chanS (ch .retraining 2 false false)).chan 3).fails = 2 ∧ ((chanS (ch .retraining 2 false true)).chan 3).trying = true ∧
    ((chanS (ch .spare 0 false false)).chan 3).st = .spare ∧
    (([0, 1, 2, 3].filter fun p => ((chanS (ch .retraining 0 false true)).memberOf (dieAt 3 p)).isSome).length = 4 ∧
      ([0, 1, 2, 3, 4].filter fun p => ((chanS (ch .retraining 0 false true)).memberOf (dieAt 3 p)).isSome).length = 5) := by decide +kernel

/-! dies -/
def d0 : DieId := ⟨0, 0, 0⟩
def sensing (n : Nat) : State := { putCmd zoned 2 { rd with point := .running, slices := n } with media := { zoned.media with slices := [{ slice1 with phase := .sensing }] } }
def ending (a : OpAct) (w : Purpose) : State := opS { dieOp a w with suspending := false }
def full_ (s : State) : State := s.setChan 0 fun c => { c with window := 6 }
def m0 : Member := ⟨0, 0, 0⟩
def memS (cur : Option (Nat × Nat)) (passed : List Nat) : State := { zoned with
  zones := [(z3, { Zone.fresh with st := .open_, wp := 4096, slot := some 5 })]
  media := { zoned.media with
    members := [(0, ⟨⟨0, 36, 0⟩, false, true, passed, cur, 0, [], false, false⟩)]
    dies := [(dieNo ⟨0, 36, 0⟩, { Die.fresh with cellarFree := 512 })]
    groups := [(groupNo ⟨0, 1, 0⟩ 5, { Group.fresh with prog := 3 })] } }
theorem slots_below (s : State) (w row k : Nat) (h : k ∈ s.usedSlots w row) : k < 3072 := by
  simp only [State.usedSlots, List.mem_append, List.mem_map, List.mem_filter, List.mem_range] at h
  rcases h with (⟨e, ⟨⟨a, ha, rfl⟩, _⟩, rfl⟩ | ⟨e, ⟨⟨a, ha, rfl⟩, _⟩, rfl⟩) | ⟨e, ⟨⟨a, ha, rfl⟩, _⟩, rfl⟩ <;> exact ha
theorem rebuilt_all (s : State) (m : Member) (hc : (s.mem m.ward m.row m.idx).cursor = none)
    (hp : (s.mem m.ward m.row m.idx).passed = List.range 3072) : s.rebuildAt m = none := by
  simp only [State.rebuildAt, hc, hp, Option.map_eq_none_iff, List.find?_eq_none]
  intro k hk
  simp [slots_below s _ _ _ hk]
def relocS : State := let s := ending .program .reloc; { s with media := { s.media with moves := [⟨d0, 5, [(0, 3072)], [], 9, 0, 0⟩] } }
theorem wit_Dies :
    (d0.wf = true ∧ ((sensing 1).ending d0).map (fun y => (y.wants, y.cls)) = some ([(0, .cmd mine 0)], 1) ∧
      (sensing 1).memberOf d0 = some (0, 0, 0) ∧ 0 < (sensing 1).room 0 1 ∧ (full_ (sensing 1)).room 0 1 = 0 ∧ (sensing 1).media.recons = [] ∧
      ((sensing 1).group d0 5).window + 1 < 64 ∧ free_ (sensing 1) mine = true ∧
      (sensing 1).cmd mine = some { rd with point := .running, slices := 1 } ∧ (sensing 2).cmd mine = some { rd with point := .running, slices := 2 } ∧
      ((sensing 1).sq 2 0).isSome = true ∧ mine.wf = true) ∧
    (((ending .program .host).die d0).op.map (·.suspended) = some false ∧ ((ending .erase .internal).die d0).op.map (·.suspended) = some false ∧
      (live.die d0).failed = false ∧ (ending .program .rebuild).memberOf d0 = some (0, 0, 0) ∧ (ending .program .host).rowFull 5 7 = false ∧
      (relocS.media.moves.find? fun v => decide (v.die = d0) && decide (v.slot = 5)).map (·.fresh) = some [(0, 3072)]) ∧
    (m0.wf = true ∧ ((memS (some (5, 2)) []).mem 0 0 0).rebuilding = true ∧ (memS (some (5, 1)) []).rebuildAt m0 = some (5, 1) ∧
      (memS (some (5, 1)) []).linesOf 0 0 0 5 = 2 ∧ ((memS (some (5, 1)) []).mem 0 0 0).lineLeft = 0 ∧ ((memS (some (5, 1)) []).die ⟨0, 36, 0⟩).op = none ∧
      (memS (some (5, 1)) []).media.work = [] ∧ ((memS (some (5, 1)) []).group ⟨0, 36, 0⟩ 5).dirty = false ∧
      ((memS (some (5, 1)) []).die ⟨0, 36, 0⟩).cellarPrep = false ∧ 0 < ((memS (some (5, 1)) []).die ⟨0, 36, 0⟩).cellarFree ∧
      (memS (some (5, 1)) []).media.recons = [] ∧ (memS (some (5, 2)) []).rebuildAt m0 = some (5, 2)) := by decide +kernel
theorem wit_Dies_end : ∀ l, l = List.range 3072 → (memS none l).rebuildAt m0 = none ∧ ((memS none l).mem 0 0 0).rebuilding = true :=
  fun _ h => ⟨rebuilt_all _ _ rfl h, rfl⟩

/-! care -/
def atCkpt : State := { live with bell := { live.bell with now := 16384 } }
def inCkpt : State := { live with media := { live.media with ckpt := some 7, begun := 3, slots := [(5, .releasing 2)] } }
def closedRa : Tab RaSlot := (List.range 29).foldl (fun t i => put t (slotNo 0 ((88 + i) % 26) (3070 - (88 + i) / 26)) ⟨none, 64, i, false, []⟩) []
def raS : State := { live with media := { live.media with raSlots := closedRa } }
def moveS : State := { live with media := { live.media with retireq := [(d0, 5, [])] } }
def moving : State := { moveS with media := { moveS.media with moves := [⟨d0, 5, [(0, 3072), (1, 3072), (2, 3072), (3, 3072)], [], 9, 9, 0⟩] } }
def written : State := { live with pwr := { live.pwr with scan := 2 }, media := { live.media with groups := [(groupNo d0 5, { Group.fresh with prog := 3 })], toScan := [(groupNo d0 5, 2, 3)] } }
def parkS : State := { zoned with zones := [(z3, { Zone.fresh with st := .closed, wp := 70, slot := some 5, park := .staging })], media := { zoned.media with parking := [(z3, 7)] } }
def heldS : State := { live with units := [(unitNo (heldZone 9) 4, unit0)], media := { live.media with slots := [(9, .held 5 2)] } }
def raFitted : State := (raS.raFit 0).copiesDone 0
def dueRef : State := { live with media := { live.media with refresh := [(1, d0, 5, [])] } }
def savingS : State := { inCkpt with media := { inCkpt.media with saving := some (inCkpt.toSave, 40, 3), journal := 50 } }
theorem wit_MediaCare :
    (live.media.ckpt = none ∧ live.boot.ready = true ∧ inCkpt.working .ckpt = false ∧ inCkpt.pwr.entering = false ∧ atCkpt.bell.now % 16384 = 0 ∧ inCkpt.media.ckpt = some 7 ∧ look inCkpt.media.slots 5 = some (.releasing 2)) ∧
    (raFitted.raVictim 0 ≠ none ∧ (raFitted.ward 0).victims = [] ∧ (raFitted.freeRand 0).length ≤ 4) ∧
    (moveS.mustMove d0 5 = true ∧ dueRef.mustMove d0 5 = false ∧ dueRef.nextRefresh 0 = some (d0, 5) ∧ dueRef.media.crossed = [] ∧
      (dueRef.drawFour d0 false).isSome = true) ∧
    ((savingS.media.saving.map (·.2)) = some (40, 3) ∧ savingS.media.ckpt = some 7 ∧ savingS.working .ckpt = false) ∧
    (moveS.media.retireq.find? (fun e => decide (e.1 = d0 ∧ e.2.1 = 5)) = some (d0, 5, []) ∧ moveS.media.refresh = [] ∧ moveS.media.moves = [] ∧ (moveS.die d0).op = none ∧ (moveS.drawFour d0 true).isSome = true) ∧
    ((moving.media.moves.find? fun v => decide (v.die = d0 ∧ v.slot = 5)).map (fun v => (v.fresh, decide (v.wls ≤ v.done))) =
      some ((List.range 4).map (fun p => (p, 3072)), true)) ∧
    (2 < (written.group d0 5).prog ∧ (written.die d0).failed = false ∧ written.scanNext = some (groupNo d0 5) ∧ (look written.scanLeft (groupNo d0 5)).map (·.1) = some 2 ∧ written.boot.ready = true ∧ written.media.work = []) ∧
    ((parkS.zone z3).st = .closed ∧ (parkS.zone z3).park = .staging ∧ look parkS.media.parking z3 = some 7 ∧ (parkS.zone z3).partialRow = true ∧
      parkS.working (.park z3) = false) ∧
    (heldS.slotUse 9 = .held 5 2 ∧ heldS.scanned 9 = false) := by decide +kernel

/-! dispatcher -/
def c0 : CoreId := ⟨0, 0⟩
def it : Item := ⟨1, 2, 3, 4⟩
def core0 : Core := ⟨some 0, none, none, [], none, []⟩
def ctx0 : Ctx := freshCtx running 0 it
def coreS (c : Core) (place : Nat) (ready : List (Nat × Item)) : State := { jobS { running with cores := 16, hamlets := [0] } with
  cores := [(0, c)], hamlets := [(0, { Hamlet.fresh with ready := ready })], disp := { live.disp with now := [(0, place)] } }
theorem one_candidate (c : Core) (p : Nat) : (coreS c p [(0, it)]).candidates 0 2 = [(0, it)] := by
  have h : (((coreS c p [(0, it)]).hamlet 0).ready.filter fun e =>
      (coreS c p [(0, it)]).jobFn e.1 = 2 && (coreS c p [(0, it)]).jobLive e.1) = [(0, it)] := rfl
  simp only [State.candidates, h, List.mergeSort_singleton]
theorem wit_Dispatching :
    (live.bell.closed = false ∧ c0.wf = true ∧ (coreS core0 2 []).served (coreNo c0) = some (2, 0) ∧ (coreS { core0 with ctx := some ctx0 } (2 + 4096) []).served 0 = some (2, 1) ∧
      (coreS { core0 with parked := [ctx0] } (2 + 8192) []).served 0 = some (2, 2) ∧ running.live = true ∧ mine.fn = 2) ∧
    ({ coreS { core0 with ctx := some ctx0 } 2 [] with disp := live.disp }.served 0 = none) ∧
    ((coreS core0 2 [(0, it)]).eligible 0 (0, it) = true ∧ (coreS { core0 with ctx := some ctx0 } 2 [(0, it)]).flowOpen 0 (0, it) = true) ∧
    ((coreS { core0 with slot := some (0, it) } 2 []).jobFull 0 = false ∧ (coreS { core0 with parked := [ctx0] } (2 + 8192) []).coresFull ctx0.job = false) ∧
    (3 ∉ (live.hamlet 31).gone) := by decide +kernel

/-! ring engine -/
def pollS : State := { live with sqs := live.sqs ++ [(2051, Sq.admin 9)], bell := { live.bell with now := 1000, polls := 2047 } }
def overS : State := { pollS with bell := { pollS.bell with polls := 2048 } }
def pageOp (k : Nat) : RdmaOp := ⟨2, some .A, true, .page 0 k⟩
def entOp (f n : Nat) : RdmaOp := ⟨2, some .A, false, .entries 0 f n⟩
def respS : State := { live with rdma := [pageOp 1, entOp 0 2, ⟨2, some .A, true, .head 0⟩] }
def knockB (f : Nat) : Bytes := record 32 [(0, 2, 0x4B4A), (2, 1, 1), (4, 2, f * 256)]
def knock_ (src : W128) (f : Nat) : KnockPkt := ⟨true, 47110, knockB f, src, 0x01020304FFFF00000000000000000000⟩
def idleS : State := { live with bell := { live.bell with now := 256 } }
theorem wit_Doorbells :
    (pollS.topRing 2 0 = some 3 ∧ (pollS.workPort 2).isSome = true ∧ pollS.pollDue 2 0 = true ∧ pollS.pollBehind 2 0 = false ∧ overS.pollBehind 2 0 = false ∧ (pollS.fn 2).polling = [] ∧
      pollS.bell.polls < 2048 ∧ 2048 ≤ overS.bell.polls ∧ overS.pollDue 2 0 = true ∧ (overS.fn 2).left = []) ∧
    ((respS.pagePoll 2 0).map (·.2) = some 1 ∧ (respS.sq 2 0).map (fun q => (q.activeFrom, q.gen, q.size, q.fetched)) = some (0, 1, 16, 0)) ∧
    ((idleS.sq 2 0).map (·.lastAdv) = some 0 ∧ 0 + 256 ≤ idleS.bell.now) ∧
    (live.portA.state = .up ∧ (knock_ 9 2).dstPort = live.net.knockUdp ∧ frameS.portA.state = .up ∧ frameS.knockOk .A (knock_ 9 2) = true ∧ live.knockOk .A (knock_ 8 2) = false ∧
      be (knock_ 9 2).payload 4 2 = 2 ∧ (live.fn 2).knocked = false) ∧
    ((respS.reads 2 0).map (·.2) = some (0, 2) ∧ ∀ i < 2, jobOp (byteAt (record 128 []) (64 * i)) = false) := by decide +kernel

def chained : Cmd := { cmdOf 0x01 [(1, 1, 1), (4, 2, 1), (8, 4, 3), (16, 2, 1)] [] with point := .list }
def blk : Cmd := { mk 0 with point := .block, block := [] }
def awaiting (c : Cmd) (k : OpKind) : State := { putCmd live 2 c with rdma := [⟨2, some .A, false, k⟩] }
def cqe1 : Bytes := record 32 []
def ackS : State := { live with
  cqs := [(0, Cq.admin 16384), (1024, Cq.admin 16385), (2048, { Cq.admin 16386 with posted := 1, unacked := [(0, cqe1)] })]
  rdma := [⟨2, some .A, false, .cqe 0 0 cqe1⟩] }
def abC : Cmd := { ab 8 with tag := 9, point := .decided }
def ackAb : State := { putCmd ackS 2 abC with aborts := [⟨⟨2, 0, 9⟩, ⟨2, 3, 8⟩, 0, some 0, SUCCESS⟩] }
def notS : State := { live with cqs := [(0, Cq.admin 16384), (1024, Cq.admin 16385), (2048, { Cq.admin 16386 with pendFrom := some 900, pendCount := 1 })] }
def oldS : State := { putCmd live 2 { fl with point := .running } with bell := { live.bell with now := 3000000, period := 1 } }
def drainS : State := { putCmd live 0 { fc 0x49 2 [] with point := .decided } with
  fns := [(0, joined (Fn.manager .A)), (1, joined (Fn.manager .B)), (2, { tenant with state := .quiescing })] }
def ringOk (s : State) (r : Ref) : Bool := r.wf && (s.cmd r).isSome && ((s.sq r.fn r.sq).bind fun q => s.cq r.fn q.cq).isSome
theorem wit_RingResponses :
    ((respS.cq 2 0).isSome = true ∧ respS.hears 2 (.head 0) = true) ∧
    (ringOk (awaiting chained (.list mine)) mine = true ∧ (awaiting chained (.list mine)).hears 2 (.list mine) = true ∧
      ringOk (awaiting blk (.block mine)) mine = true ∧ free_ (awaiting blk (.block mine)) mine = true ∧ free_ (awaiting chained (.list mine)) mine = true ∧ (awaiting blk (.block mine)).hears 2 (.block mine) = true ∧
      ringOk (awaiting cwr (.data mine)) mine = true ∧ (awaiting cwr (.data mine)).hears 2 (.data mine) = true ∧
      [chained].dropWhile Cmd.settled = [chained] ∧ [blk].dropWhile Cmd.settled = [blk]) ∧
    ((ackS.cq 2 0).map (·.unacked.length) = some 1 ∧ ringOk ackAb ⟨2, 0, 9⟩ = true ∧
      (∀ e ∈ [((0 : Nat), cqe1)], ∃ o ∈ ackS.rdma, o.fn = 2 ∧ o.kind = .cqe 0 e.1 e.2 ∧ ackS.arrives o = true) ∧ free_ ackAb ⟨2, 0, 9⟩ = true) ∧
    ((notS.cq 2 0).map (fun k => (k.pendFrom, k.coBells, k.unacked)) = some (some 900, 0, [])) ∧
    (ringOk oldS mine = true ∧ 2000000 ≤ oldS.ranFor 0 0 ∧ free_ oldS mine = true ∧ oldS.act = none ∧ { fl with point := .running }.started = true) ∧
    (drainS.anyUp = true ∧ (drainS.fn 2).state = .quiescing ∧ drainS.drained 2 = true ∧ drainS.quiesceWaits 2 = [boss] ∧ free_ drainS boss = true ∧ ringOk drainS boss = true) := by decide +kernel

/-! ### A core at one instruction: its job's code is that word, eight times -/

def issuable (s : State) (c : CoreId) (w : W32) (uses : List (Bool × Nat)) (jb : Job) (x : Ctx) : Bool :=
  c.wf && listed w && decide (look s.jobs x.job = some jb) && decide (jb.fetch x.pc = some w) &&
    decide (jb.fault = none) && !jb.halted.contains (coreNo c) &&
    (match (s.core (coreNo c)).ctx with
     | some x0 => decide (x = x0.landDue)
     | none => false) && x.loads.all fun l => !uses.contains (l.wide, l.rd)
theorem issues_of {s : State} {c : CoreId} {w : W32} {uses : List (Bool × Nat)} {jb : Job} {x : Ctx}
    (h : issuable s c w uses jb x = true) : Issues s c w uses jb x := by
  simp only [issuable, Bool.and_eq_true, decide_eq_true_eq, List.all_eq_true, Bool.not_eq_true', List.contains_eq_mem] at h
  obtain ⟨⟨⟨⟨⟨⟨⟨h1, h2⟩, h3⟩, h4⟩, h7⟩, h8⟩, h5⟩, h6⟩ := h
  refine ⟨h1, h2, h3, h4, h7, by simpa using h8, ?_, fun l hl => by simpa using h6 l hl⟩
  split at h5
  · exact ⟨_, by assumption, by simpa using h5⟩
  · cases h5
def jobAt (w : W32) : Job := { running with
  code := (List.replicate 8 (toLe w.toNat 4)).flatten, cores := 16, mem := 4, need := 2, hamlets := [0], outLimit := 100 }
def regs : Ctx := { ctx0 with
  pc := 0x100008, g := [(1, 64), (2, 0x200000), (3, 0x100010), (4, 8), (5, 0x100000000), (6, 16)], a := [(0, 64), (1, 0x200000), (2, 0x100000000)]
  lc := [(0, 5)], ls := [(0, 0x100004)], le := [(0, 0x100018)] }
def atWord (w : W32) (x : Ctx) : State := { jobS (jobAt w) with cores := [(0, { core0 with ctx := some x, lm := [(64, 3)] })] }
/-- The word issues in context `x`, and execution goes on to a word of the code after the effect `y`. -/
def steps (w : W32) (uses : List (Bool × Nat)) (x y : Ctx) : Bool :=
  issuable (atWord w x) c0 w uses (jobAt w) x && ((jobAt w).fetch (x.onward y).2).isSome
def gs (l : List Sys2Proof.Reg) : List (Bool × Nat) := l.map useG

theorem wit_IntegerInstructions :
    ((List.range 6 ++ [8, 9, 10, 11] ++ (List.range 8).map (16 + ·)).all fun fn => steps (wR 1 3 1 2 fn) (gs [3, 1, 2]) regs (regs.setG 3 7)) = true ∧
    ([0x20, 0x21, 0x22, 0x23].all fun fn => steps (wR 1 3 1 0 fn) (gs [3, 1, 0]) regs (regs.setG 3 7)) = true ∧
    ([0, 1, 2, 3].all fun fn => steps (wR 0xD 3 1 2 fn) (gs [3, 1, 2]) regs (regs.setG 3 7)) = true ∧
    ((List.range 9).all fun k => steps (wI (2 + k) 3 1 63) (gs [3, 1]) regs (regs.setG 3 7)) = true ∧
    steps (wI 0xB 3 0 63) (gs [3, 0]) regs (regs.setG 3 7) = true ∧ steps (wR 1 0 1 2 0) (gs [0, 1, 2]) regs (regs.setG 0 7) = true := by decide +kernel

/-! control -/
theorem wit_ControlTransfer :
    regs.atEnd = false ∧ ((List.range 6).all fun k => steps (wI (0x10 + k) 1 2 1) (gs [1, 2]) regs regs) = true ∧
    ((List.range 6).all fun k => ((jobAt (wI (0x10 + k) 1 2 1)).fetch (BitVec.ofNat 64 regs.pc + 4 * (1 : BitVec 16).signExtend 64).toNat).isSome) = true ∧
    (issuable (atWord (wJ 0x16 (-2)) regs) c0 (wJ 0x16 (-2)) [] (jobAt (wJ 0x16 (-2))) regs = true ∧
      ((jobAt (wJ 0x16 (-2))).fetch (BitVec.ofNat 64 regs.pc + 4 * (-2 : BitVec 26).signExtend 64).toNat).isSome = true) ∧
    (issuable (atWord (wJ 0x17 3) regs) c0 (wJ 0x17 3) [(false, 31)] (jobAt (wJ 0x17 3)) regs = true ∧
      ((jobAt (wJ 0x17 3)).fetch (BitVec.ofNat 64 regs.pc + 4 * (3 : BitVec 26).signExtend 64).toNat).isSome = true) ∧
    (issuable (atWord (wI 0x18 9 3 4) regs) c0 (wI 0x18 9 3 4) (gs [9, 3]) (jobAt (wI 0x18 9 3 4)) regs = true ∧
      ((jobAt (wI 0x18 9 3 4)).fetch (regs.rg 3 + (4 : BitVec 16).signExtend 64).toNat).isSome = true) := by decide +kernel

/-! loops -/
def inLoop (pc : Nat) (n : W32) : Ctx := { regs with pc := pc, ldepth := 1, lc := [(0, n)] }
theorem wit_HardwareLoops :
    (steps (wI 0x38 1 0 2) (gs [1]) regs regs && ((jobAt (wI 0x38 1 0 2)).fetch (regs.pc + 4)).isSome &&
      steps (wOp 0x39 (5 * 2 ^ 16 + 2)) [] regs regs && ((jobAt (wOp 0x39 (5 * 2 ^ 16 + 2))).fetch (regs.pc + 4)).isSome &&
      steps (wI 0x38 7 0 2) (gs [7]) regs regs && ((jobAt (wI 0x38 7 0 2)).fetch (regs.pc + 4 * 2 + 4)).isSome &&
      steps (wI 0x38 1 0 2) (gs [1]) { regs with ldepth := 3 } { regs with ldepth := 3 }) = true ∧
    ((2 : BitVec 16) ≠ 0 ∧ (2 : BitVec 16).msb = false ∧ (regs.rg 1).setWidth 32 = (64 : W32) ∧ (regs.rg 7).setWidth 32 = (0 : W32) ∧ regs.atEnd = false) ∧
    (steps (wJ 0x3A 0) [] (inLoop 0x100008 5) { inLoop 0x100008 5 with ldepth := 0 } && !(inLoop 0x100008 5).atEnd) = true ∧
    ((inLoop 0x100018 5).ldepth = 0 + 1 ∧ (lookD (inLoop 0x100018 5).le 0 0).toNat = (inLoop 0x100018 5).pc ∧
      lookD (inLoop 0x100018 5).lc 0 0 ≠ 1 ∧ lookD (inLoop 0x100018 1).lc 0 0 = 1) := by decide +kernel

/-! special registers -/
theorem wit_SpecialRegisters :
    ((List.range 5 ++ (List.range 12).map (8 + ·) ++ (List.range 4).map (0x18 + ·)).all fun n =>
      steps (wS 0x3D 4 0 (BitVec.ofNat 12 n)) (gs [4]) regs (regs.setG 4 7)) = true ∧
    (steps (wS 0x3E 4 0 3) (gs [4]) regs { regs with amode := regs.rg 4 } &&
      (List.range 8).all fun k => bits (regs.rg 4).toNat (2 * k + 1) (2 * k) ≠ 3) = true ∧
    ((List.range 12).all fun n => steps (wS 0x3E 4 0 (BitVec.ofNat 12 (8 + n))) (gs [4]) (inLoop 0x100008 5) (inLoop 0x100008 5)) = true ∧
    ([0x005, 0x007, 0x014, 0x017, 0x01C, 0xFFF].all fun n => issuable (atWord (wS 0x3D 4 0 (BitVec.ofNat 12 n)) regs) c0
      (wS 0x3D 4 0 (BitVec.ofNat 12 n)) (gs [4]) (jobAt (wS 0x3D 4 0 (BitVec.ofNat 12 n))) regs) = true ∧
    ([0x000, 0x002, 0x004, 0x014, 0x018, 0x01B, 0xFFF].all fun n => issuable (atWord (wS 0x3E 4 0 (BitVec.ofNat 12 n)) regs) c0
      (wS 0x3E 4 0 (BitVec.ofNat 12 n)) (gs [4]) (jobAt (wS 0x3E 4 0 (BitVec.ofNat 12 n))) regs) = true := by decide +kernel

/-! loads, stores -/
def memStep (op : Nat) (rt : Sys2Proof.Reg) (ak : BitVec 3) (upd sz : BitVec 2) (sx : Bool) (imm : BitVec 13) (n : Nat) (wide : Bool) : Bool :=
  let w := wM op rt ak upd sz sx imm
  let old := regs.ra ak.toNat
  let inc := imm.toInt * n
  match (if upd = 0 then some old else regs.bump ak.toNat inc) with
  | some v =>
    let a := if upd = 0 then old + BitVec.ofInt 64 inc else if upd = 1 then old else v
    decide (a.toNat % n = 0) && ((jobAt w).win a.toNat n).isSome && !(jobAt w).poisoned 0 .loc 0 n &&
      steps w [if wide then useW rt else useG rt] regs { regs.setA ak.toNat v with loads := regs.loads }
  | none => false
theorem wit_LoadsAndStores :
    ([0, 1, 2].all fun u => memStep 0x20 4 0 u 3 false 1 8 false && memStep 0x20 0 0 u 0 true 1 1 false && memStep 0x22 15 0 u 0 false 1 16 true &&
      memStep 0x21 4 0 u 3 false 1 8 false && memStep 0x21 4 1 u 2 false 1 4 false && memStep 0x21 4 2 u 1 false 1 2 false &&
      memStep 0x23 15 1 u 0 false 1 16 true) = true ∧
    ((jobAt 0).win 64 8 = some (.loc, 64) ∧ (jobAt 0).win 0x200000 8 = some (.data, 0) ∧ (jobAt 0).win 0x100000000 8 = some (.dram, 0) ∧
      regs.stores.length < 8) := by decide +kernel
def outst : Ctx := { regs with loads := [⟨false, 4, 7⟩], stores := [(0x200000, [1, 2])] }
theorem wit_LoadsAndStoresComplete :
    c0.wf = true ∧ ((atWord 0 outst).core (coreNo c0)).ctx = some outst ∧ outst.loads = [⟨false, 4, 7⟩] ∧ outst.stores = [(0x200000, [1, 2])] ∧
      Canon 0 [(63, (1 : Byte)), (64, 2)] = true := by decide +kernel

/-! atomics, addresses, DMA -/
theorem wit_Atomics :
    (regs.ra 0).toNat % 8 = 0 ∧ regs.stores = [] ∧ regs.dma = [] ∧
    ([0, 1, 2].all fun op => let w := wR 0x26 4 0 2 (0 * 256 + op)
      decide ((jobAt w).win (regs.ra 0).toNat 8 = some (.loc, 64)) && !(jobAt w).poisoned 0 .loc 64 8 &&
      steps w (gs [4, 0, 2]) regs (regs.setA 0 (regs.ra 0))) = true := by decide +kernel
theorem wit_AddressInstructions :
    (steps (wA 0x24 0 1 0 5) (gs [0]) regs (regs.setA 1 5) && steps (wA 0x24 4 1 1 0) (gs [4]) regs (regs.setA 1 5) &&
      steps (wA 0x24 4 1 2 0) (gs [4]) regs (regs.setA 1 5) && steps (wA 0x25 4 1 0 0) (gs [4]) regs (regs.setM 1 5) &&
      steps (wA 0x25 4 1 1 0) (gs [4]) regs (regs.setG 4 5) && steps (wA 0x25 4 1 2 0) (gs [4]) regs (regs.setG 4 5) &&
      (regs.bump 1 5).isSome && ({ regs with amode := 0x8, m := [(1, 3)] }.bump 1 5).isNone && (regs.bump 1 (regs.rg 4).toInt).isSome) = true := by decide +kernel
def dmaW (out : Bool) : W32 := wR 0x27 4 1 2 ((0#7) ++ BitVec.ofBool out ++ (7 : BitVec 3) : BitVec 11).toNat
def moved (out : Bool) : Ctx := { regs with dma := [⟨7, out, 64, 0x200000, 8⟩] }
theorem wit_DmaTransfers :
    ([false, true].all fun o => steps (dmaW o) (gs [4, 1, 2]) regs (moved o) && decide ((jobAt (dmaW o)).win 64 8 = some (.loc, 64)) &&
      decide ((jobAt (dmaW o)).fault = none) && decide ((jobAt (dmaW o)).win 0x200000 8 = some (.data, 0)) && decide ((regs.rg 4).toNat = 8 ∧ (regs.rg 1).toNat = 64 ∧ (regs.rg 2).toNat = 0x200000) &&
      decide (((atWord (dmaW o) (moved o)).core 0).ctx = some (moved o)) && decide ((moved o).dma.find? (fun d => d.tag = 7) = some ⟨7, o, 64, 0x200000, 8⟩) &&
      !(jobAt (dmaW o)).poisoned 0 .data 0 8) = true ∧
    (steps (wY 0 0 0x7F 8) [] (moved true) (moved true) && decide (bit 0x7F 7 = false)) = true := by decide +kernel

/-! SIMD, products -/
def ru (a b c : Sys2Proof.Reg) : List (Bool × Nat) := [useG a, useW a, useG b, useW b, useW c]
theorem wit_SimdElements :
    ((List.range 16).all fun op => [0, 1, 2, 3].all fun e => steps (wV op e 0 1 2 15) (ru 1 2 15) regs (regs.setW 1 7)) = true ∧
    ((List.range 6).all fun k => steps (wV (16 + k) 0 0 1 2 15) (ru 1 2 15) regs (regs.setW 1 7)) = true ∧
    (steps (wV 22 3 0 15 31 0) (ru 15 31 0) regs (regs.setW 15 7) && steps (wV 23 0 15 15 31 0) (ru 15 31 0) regs (regs.setW 15 7) &&
      steps (wV 24 3 1 31 15 0) (ru 31 15 0) regs (regs.setG 31 7) && steps (wV 25 3 0 31 15 0) (ru 31 15 0) regs (regs.setG 31 7) &&
      steps (wV 26 0 0 15 14 0) (ru 15 14 0) regs (regs.setW 15 7)) = true := by decide +kernel
def pu (a b : Sys2Proof.Reg) : List (Bool × Nat) := [useG a, useW a, useG b, useW b]
def late_ (c : Nat) : Ctx := { regs with cycle := c, prods := [⟨3, 10, .add, 5⟩] }
theorem wit_Products :
    ([0, 1, 2, 3, 6, 7, 8, 9, 10, 11].all fun op => steps (wP op 0 0 3 1 2) (pu 1 2) regs { regs with prods := [⟨3, 0, .replace, 7⟩] }) = true ∧
    ([4, 5].all fun op => [0, 1, 2, 3].all fun e => steps (wP op e 0 3 1 15) (pu 1 15) regs { regs with prods := [⟨3, 0, .replace, 7⟩] }) = true ∧
    (((atWord 0 (late_ 14)).core (coreNo c0)).ctx = some (late_ 14) ∧ 10 + 4 ≤ (late_ 14).cycle ∧ (late_ 13).cycle < 10 + 4) ∧
    (steps (wP 0x11 0 0 3 1 0) (pu 3 1) regs (regs.setP 3 7) && steps (wP 0x10 0 0 3 15 0) (pu 3 15) regs (regs.setP 3 7) &&
      steps (wP 0x19 0 0 31 3 0) (pu 31 3) regs (regs.setG 31 7) && steps (wP 0x1A 0 0 31 3 0) (pu 31 3) regs (regs.setG 31 7) &&
      steps (wP 0x18 0 0 15 3 0) (pu 15 3) regs (regs.setW 15 7)) = true := by decide +kernel

/-! work -/
def postS : State := { atWord (wY 1 0 0 4) regs with cores := [(0, { core0 with ctx := some regs, lm := [(64, 3)] })] }
def reqBlk : Bytes := record 64 [(0, 1, 1), (4, 4, 3), (16, 8, 0x100000000), (24, 4, 4096)]
theorem wit_WorkInstructions :
    (regs.dma = [] ∧ regs.reqs = [] ∧ regs.stores = [] ∧ regs.atEnd = false) ∧
    ([1, 2, 9].all fun k => steps (wY 0 0 0 k) [] regs regs) = true ∧ issuable (atWord (wY 0 0 255 3) regs) c0 (wY 0 0 255 3) [] (jobAt (wY 0 0 255 3)) regs = true ∧
    (steps (wY 1 0 0 4) (gs [1]) regs regs && decide ((regs.rg 1).toNat = 64) && decide (le (getBytes (postS.core 0).lm 64 32) 0 8 = 3) &&
      (jobAt (wY 1 0 0 4)).live && decide (postS.readyItems 0 < 65536)) = true ∧
    (steps (wY 1 0 0 5) (gs [1]) regs regs && steps (wY 1 0 0 7) (gs [1]) regs regs &&
      decide (byteAt (getBytes [(64, (1 : Byte))] 64 32) 0 = 1) && decide (byteAt (getBytes [(64, (2 : Byte))] 64 32) 0 = 2) &&
      (jobAt 0).inDram 0x100000000 4096 && !(jobAt 0).poisoned 0 .dram 0 4096) = true ∧
    (steps (wY 1 4 0 6) (gs [1, 4]) regs regs && decide ((jobAt 0).win 64 8 = some (.loc, 64)) && decide ((jobAt 0).outPaused = none ∧
      (jobAt 0).undelivered + 8 ≤ outWindow)) = true := by decide +kernel

/-! requests -/
def heldJ : Job := { jobAt 0 with holding := some 1 }
def rq1 : Req := ⟨0x100000, 64, false, record 32 [(0, 1, 1), (4, 4, 3), (12, 2, 1), (16, 8, 0x100000000)], [1, 2, 3], false, 0, 0, 0⟩
def lk1 : Req := ⟨0x100000, 128, true, record 64 [(0, 1, 5)], [], false, 0, 0, 0⟩
def reqCtx : Ctx := { regs with reqs := [lk1, rq1] }
def reqS : State := { sieved with
  jobs := [(0, heldJ)], cores := [(0, { core0 with ctx := some reqCtx })], sqs := (putCmd live 2 { runC with point := .running }).sqs }
def ap1 : Req := ⟨0x100000, 64, false, record 32 [(0, 1, 2), (4, 4, 3), (12, 2, 1), (16, 8, 0x100000000)], [1, 2, 3], false, 0, 0, 0⟩
def bad1 : Req := ⟨0x100000, 64, false, record 32 [(0, 1, 3)], [], false, 0, 0, 0⟩
def badLk : Req := ⟨0x100000, 128, true, record 64 [(40, 1, 2)], [], false, 0, 0, 0⟩
def appS : State := { reqS with zones := zoned.zones, media := zoned.media, cores := [(0, { core0 with ctx := some { regs with reqs := [ap1] } })] }
theorem wit_RequestsFail :
    [ap1].find? (fun q => !q.lookup) = some ap1 ∧ byteAt ap1.block 0 = 2 ∧ appS.reqFails heldJ ap1.block 0 = none ∧
      isPay (appS.rate 2 [(2, le ap1.block 12 2 * 4096)]) = true ∧ appS.zoneHeld (zoneNo 1 3) 1 = false ∧
      [bad1].find? (fun q => !q.lookup) = some bad1 ∧ (appS.reqFails heldJ bad1.block 0).isSome = true ∧
      [badLk].find? (·.lookup) = some badLk ∧ ¬(byteAt badLk.block 40 < 2) := by decide +kernel
theorem wit_RequestsComplete :
    (c0.wf = true ∧ (reqS.core (coreNo c0)).ctx = some reqCtx ∧ look reqS.jobs reqCtx.job = some heldJ) ∧
    (reqCtx.reqs.find? (fun q => !q.lookup) = some rq1 ∧ byteAt rq1.block 0 = 1 ∧ rq1.bad = false ∧ rq1.left = 0 ∧ reqS.reqFails heldJ rq1.block rq1.data.length = none ∧
      heldJ.fault = none ∧ (reqS.payUnits 2 (rqCount rq1.block - rq1.paid) rq1.paid).1 = rqCount rq1.block) ∧
    (reqCtx.reqs.find? (·.lookup) = some lk1 ∧ reqS.ownsRows heldJ.r.fn = true ∧ byteAt lk1.block 40 < 2 ∧ byteAt lk1.block 42 < 2 ∧
      zeros lk1.block 43 5 = true) := by decide +kernel

/-! what every command keeps: some command answers a next state -/
theorem wit_frames : exec .stagingDrain live = .next (live : State) ∧ (Instr.stagingDrain).wf = true ∧ live.pending = [] :=
  ⟨rfl, rfl, rfl⟩
theorem wit_ZonesKept : (putCmd zoned 2 cls).cmd mine = some cls ∧ ∃ t, exec (.closeZone mine) (putCmd zoned 2 cls) = .next t :=
  ⟨by decide +kernel, ⟨_, rfl⟩⟩
theorem wit_invariants : State.reset.life.legal ∧ step State.reset = .next State.reset := by
  refine ⟨⟨Or.inr (Or.inl ⟨rfl, rfl⟩), fun h => ?_⟩, rfl⟩
  cases h

/-! ### A token that passes every check: one LMS key signs the second key and the token -/

theorem slice_mid (p m r : Bytes) (k n : Nat) (hk : p.length = k) (hn : m.length = n) : slice (p ++ (m ++ r)) k n = m := by
  subst hk hn; simp [slice]
theorem byteAt_skip (p m : Bytes) (k j : Nat) (hk : p.length = k) : byteAt (p ++ m) (k + j) = byteAt m j := by
  subst hk; simp [byteAt, List.getD_eq_getElem?_getD, List.getElem?_append_right]
theorem byteAt_fst (m r : Bytes) (j : Nat) (h : j < m.length) : byteAt (m ++ r) j = byteAt m j := by
  simp [byteAt, List.getD_eq_getElem?_getD, List.getElem?_append_left h]
theorem be32_mid (p m r : Bytes) (k : Nat) (hk : p.length = k) (hm : m.length = 4) : be32 (p ++ (m ++ r)) k = be32 m 0 := by
  have h := fun j (hj : j < 4) => by
    have := byteAt_skip p (m ++ r) k j hk
    rwa [byteAt_fst m r j (by omega)] at this
  have h0 := h 0 (by omega); have h1 := h 1 (by omega); have h2 := h 2 (by omega); have h3 := h 3 (by omega)
  simp only [Nat.add_zero] at h0
  simp only [be32, h0, h1, h2, h3, Nat.zero_add]
theorem be32_fst (m r : Bytes) (v : Nat) (hm : m.length = 4) (hv : be32 m 0 = v) : be32 (m ++ r) 0 = v := by
  rw [← hv]; exact be32_mid [] m r 0 rfl hm
theorem len_toLe (v n : Nat) : (toLe v n).length = n := by
  induction n generalizing v with
  | zero => rfl
  | succ n ih => simp [toLe, ih]
theorem len_toBe (v n : Nat) : (toBe v n).length = n := by simp [toBe, len_toLe]
theorem len_rounds (ks : List W32) : ∀ h : Hash, h.length = 8 → (ks.foldl hashRound h).length = 8 := by
  induction ks with
  | nil => exact fun _ h => h
  | cons k ks ih => exact fun h _ => ih _ rfl
theorem len_block (h : Hash) (b : Bytes) (hh : h.length = 8) : (hashBlock h b).length = 8 := by
  simp only [hashBlock, List.length_zipWith, hh, len_rounds _ h hh, Nat.min_self]
theorem len_blocks (n : Nat) : ∀ (h : Hash) (b : Bytes), h.length = 8 → (hashBlocks n h b).length = 8 := by
  induction n with
  | zero => exact fun _ _ h => h
  | succ n ih => exact fun h b hh => ih _ _ (len_block h _ hh)
theorem len_start : shaStart.length = 8 := by
  have h : 8 ≤ smallPrimes.length := by decide +kernel
  rw [shaStart, List.length_map, List.length_take, Nat.min_eq_left h]
theorem len_words (h : Hash) : (h.flatMap fun w => toBe w.toNat 4).length = 4 * h.length := by
  simp [List.length_flatMap, len_toBe, Nat.mul_comm]
theorem len_sha (b : Bytes) : (sha256 b).length = 32 := by
  rw [sha256, len_words, len_blocks _ _ _ len_start]
theorem len_chunks (f : Nat → Bytes) (h : ∀ i, (f i).length = 32) (n : Nat) : ((List.range n).flatMap f).length = 32 * n := by
  simp [List.length_flatMap, h, Nat.mul_comm]
theorem slice_chunk (p r : Bytes) (f : Nat → Bytes) (h : ∀ i, (f i).length = 32) (n k i : Nat) (hk : p.length = k) (hi : i < n) :
    slice (p ++ ((List.range n).flatMap f ++ r)) (k + 32 * i) 32 = f i := by
  have hr : List.range n = List.range i ++ (i :: (List.range (n - i - 1)).map (i + 1 + ·)) := by
    have h1 : n = i + (1 + (n - i - 1)) := by omega
    conv_lhs => rw [h1, List.range_add, List.range_add]
    simp [List.map_map, Function.comp_def, Nat.add_assoc]
  rw [hr, List.flatMap_append, List.flatMap_cons]
  have := slice_mid (p ++ (List.range i).flatMap f) (f i) (((List.range (n - i - 1)).map (i + 1 + ·)).flatMap f ++ r) (k + 32 * i) 32
    (by simp [len_chunks f h, hk]) (h i)
  simpa [List.append_assoc] using this
theorem len_chain (pre : Bytes) (n j : Nat) (t : Bytes) (h : t.length = 32) : (otsChain pre n j t).length = 32 := by
  induction n generalizing j t with
  | zero => exact h
  | succ n ih => exact ih _ _ (len_sha _)
theorem chain_add (pre : Bytes) (m n j : Nat) (t : Bytes) :
    otsChain pre n (j + m) (otsChain pre m j t) = otsChain pre (m + n) j t := by
  induction m generalizing j t with
  | zero => simp [otsChain]
  | succ m ih =>
    rw [Nat.add_right_comm, otsChain, otsChain, ← ih]
    congr 1
    omega

/-! the key: identifier and seed zero, W8, height 10, index 0, a path of zeros -/
@[irreducible] def zer (n : Nat) : Bytes := List.replicate n 0
def pre (i : Nat) : Bytes := zer 16 ++ toBe 0 4 ++ toBe i 2
@[irreducible] def digits (msg : Bytes) : Bytes :=
  sha256 (zer 16 ++ toBe 0 4 ++ [129, 129] ++ zer 32 ++ msg) ++
    toBe ((List.range 32).foldl (fun n i => n + (255 - coef (sha256 (zer 16 ++ toBe 0 4 ++ [129, 129] ++ zer 32 ++ msg)) i 8)) 0 * 1) 2
theorem digits_eq (msg : Bytes) : sha256 (zer 16 ++ toBe 0 4 ++ [129, 129] ++ zer 32 ++ msg) ++
    toBe ((List.range 32).foldl (fun n i => n + (255 - coef (sha256 (zer 16 ++ toBe 0 4 ++ [129, 129] ++ zer 32 ++ msg)) i 8)) 0 * 1) 2 =
    digits msg := by rw [digits]
@[irreducible] def chainAt (msg : Bytes) (i : Nat) : Bytes := otsChain (pre i) (coef (digits msg) i 8) 0 (zer 32)
@[irreducible] def ots (msg : Bytes) : Bytes := [0, 0, 0, 4] ++ (zer 32 ++ (List.range 34).flatMap (chainAt msg))
@[irreducible] def otsPub : Bytes := sha256 (zer 16 ++ toBe 0 4 ++ [0x80, 0x80] ++ (List.range 34).flatMap fun i => otsChain (pre i) 255 0 (zer 32))
def path : List Bytes := (List.range 10).map fun _ => zer 32
@[irreducible] def root1 : Bytes := lmsRoot (zer 16) path (2 ^ 10) (sha256 (zer 16 ++ toBe (2 ^ 10) 4 ++ [0x82, 0x82] ++ otsPub))
def pub1 : Bytes := [0, 0, 0, 6] ++ ([0, 0, 0, 4] ++ (zer 16 ++ root1))
@[irreducible] def sign (msg : Bytes) : Bytes := [0, 0, 0, 0] ++ (ots msg ++ ([0, 0, 0, 6] ++ (List.range 10).flatMap fun _ => zer 32))

theorem len_zer (n : Nat) : (zer n).length = n := by simp [zer]
theorem len_chainAt (msg : Bytes) (i : Nat) : (chainAt msg i).length = 32 := by rw [chainAt]; exact len_chain _ _ _ _ (len_zer _)
theorem len_ots (msg : Bytes) : (ots msg).length = 1124 := by simp [ots, len_zer, len_chunks _ (len_chainAt msg)]
theorem len_sign (msg : Bytes) : (sign msg).length = 1452 := by
  simp [sign, len_ots, len_chunks _ (fun _ => len_zer 32)]
theorem len_root (xs : List Bytes) (node : Nat) (t : Bytes) (h : t.length = 32) : (lmsRoot (zer 16) xs node t).length = 32 := by
  induction xs generalizing node t with
  | nil => exact h
  | cons x xs ih => exact ih _ _ (len_sha _)
theorem len_rootSha (xs : List Bytes) (node : Nat) (b : Bytes) : (lmsRoot (zer 16) xs node (sha256 b)).length = 32 :=
  len_root xs node (sha256 b) (len_sha b)
theorem len_root1 : root1.length = 32 := by unfold root1; apply len_rootSha
theorem len_keyTail (r : Bytes) (h : r.length = 32) : ([0, 0, 0, 6] ++ ([0, 0, 0, 4] ++ (zer 16 ++ r)) : Bytes).length = 56 := by
  simp [len_zer, h]
theorem len_pub1 : pub1.length = 56 := len_keyTail root1 len_root1
theorem coef_lt (b : Bytes) (i : Nat) : coef b i 8 < 256 := by simp only [coef]; exact BitVec.isLt _

theorem six : be32 [0, 0, 0, 6] 0 = 6 := by decide
theorem four : be32 [0, 0, 0, 4] 0 = 4 := by decide
theorem ots_leads (msg : Bytes) : otsKey (zer 16) 0 4 msg (ots msg) = some otsPub := by
  have h0 : be32 (ots msg) 0 = 4 := by rw [ots]; exact be32_fst [0, 0, 0, 4] _ _ rfl rfl
  have h1 : slice (ots msg) 4 32 = zer 32 := by
    rw [ots]; exact slice_mid [0, 0, 0, 4] (zer 32) _ 4 32 rfl (len_zer 32)
  have h2 : ∀ i < 34, slice (ots msg) (36 + 32 * i) 32 = chainAt msg i := fun i hi => by
    have := slice_chunk ([0, 0, 0, 4] ++ zer 32) [] (chainAt msg) (len_chainAt msg) 34 36 i (by simp [len_zer]) hi
    simpa [ots, List.append_assoc] using this
  have h3 : ∀ i, otsChain (pre i) (255 - coef (digits msg) i 8) (coef (digits msg) i 8) (chainAt msg i) =
      otsChain (pre i) 255 0 (zer 32) := fun i => by
    have := chain_add (pre i) (coef (digits msg) i 8) (255 - coef (digits msg) i 8) 0 (zer 32)
    rw [Nat.zero_add] at this
    rw [chainAt, this, Nat.add_sub_cancel' (by have := coef_lt (digits msg) i; omega)]
  have hs : otsShape 4 = some (8, 34, 0) := rfl
  unfold otsKey
  rw [hs]
  simp only [h0, len_ots, h1, ne_eq, not_true_eq_false, decide_false, Bool.false_or, Nat.reduceMul, Nat.reduceAdd, Nat.reducePow,
    Nat.reduceSub, Nat.reduceDiv, digits_eq]
  rw [if_neg Bool.false_ne_true, otsPub]
  refine congrArg some (congrArg sha256 (congrArg (_ ++ ·) (List.flatMap_congr fun i hi => ?_)))
  rw [h2 i (List.mem_range.mp hi)]
  exact h3 i

theorem lms_of (pub msg sig ident root k : Bytes) (path : List Bytes)
    (a0 : be32 pub 4 = 4) (a1 : be32 pub 0 = 6) (a2 : slice pub 8 16 = ident) (a3 : slice pub 24 32 = root)
    (b0 : be32 sig 0 = 0) (b2 : be32 sig 1128 = 6) (bl : sig.length = 1452)
    (hp : ((List.range 10).map fun i => slice sig (1132 + 32 * i) 32) = path)
    (hk : otsKey ident 0 4 msg (slice sig 4 1124) = some k)
    (hr : lmsRoot ident path (2 ^ 10) (sha256 (ident ++ toBe (2 ^ 10) 4 ++ [0x82, 0x82] ++ k)) = root) :
    lmsVerifies pub msg sig = true := by
  have c0 : otsLen 4 = some 1124 := rfl
  have c1 : lmsHeight 6 = some 10 := rfl
  unfold lmsVerifies
  simp only [a0, a1, c0, c1, a2, a3, b0, bl, hk, hp, b2, hr, Nat.reduceMul, Nat.reduceAdd, Nat.add_zero]
  simp
theorem sign_type (msg : Bytes) : be32 (sign msg) 1128 = 6 := by
  have h1 : ([0, 0, 0, 0] ++ ots msg).length = 1128 := by simp [len_ots]
  rw [sign, ← List.append_assoc, be32_mid _ _ _ 1128 h1 rfl, six]
theorem sign_path (msg : Bytes) (i : Nat) (hi : i < 10) : slice (sign msg) (1132 + 32 * i) 32 = zer 32 := by
  have h := slice_chunk ([0, 0, 0, 0] ++ (ots msg ++ [0, 0, 0, 6])) [] (fun _ => zer 32) (fun _ => len_zer 32) 10 1132 i
    (by simp [len_ots]) hi
  rw [sign]
  rw [List.append_nil, List.append_assoc, List.append_assoc] at h
  exact h
theorem sign_ots (msg : Bytes) : slice (sign msg) 4 1124 = ots msg := by
  rw [sign]; exact slice_mid [0, 0, 0, 0] (ots msg) _ 4 1124 rfl (len_ots msg)
theorem end24 (a b c r : Bytes) (ha : a.length = 4) (hb : b.length = 4) (hc : c.length = 16) (hr : r.length = 32) :
    slice (a ++ (b ++ (c ++ r))) 24 32 = r := by
  have h := slice_mid (a ++ (b ++ c)) r [] 24 32 (by simp [ha, hb, hc]) hr
  rwa [List.append_nil, List.append_assoc, List.append_assoc] at h
theorem pub_root : slice pub1 24 32 = root1 := by
  unfold pub1
  exact end24 [0, 0, 0, 6] [0, 0, 0, 4] (zer 16) root1 rfl rfl (len_zer 16) len_root1
theorem root_eq : lmsRoot (zer 16) path (2 ^ 10) (sha256 (zer 16 ++ toBe (2 ^ 10) 4 ++ [0x82, 0x82] ++ otsPub)) = root1 := by
  rw [root1]
theorem pub_a0 : be32 pub1 4 = 4 := rfl
theorem pub_a1 : be32 pub1 0 = 6 := rfl
theorem mid8 (a b m r : Bytes) (n : Nat) (ha : a.length = 4) (hb : b.length = 4) (hn : m.length = n) : slice (a ++ (b ++ (m ++ r))) 8 n = m := by
  have h := slice_mid (a ++ b) m r 8 n (by simp [ha, hb]) hn
  rwa [List.append_assoc] at h
theorem pub_a2 : slice pub1 8 16 = zer 16 := by
  unfold pub1
  exact mid8 [0, 0, 0, 6] [0, 0, 0, 4] (zer 16) root1 16 rfl rfl (len_zer 16)
theorem sign_q (msg : Bytes) : be32 (sign msg) 0 = 0 := by rw [sign]; exact be32_fst [0, 0, 0, 0] _ _ rfl rfl
theorem sign_paths (msg : Bytes) : ((List.range 10).map fun i => slice (sign msg) (1132 + 32 * i) 32) = path := by
  rw [path]
  exact List.map_congr_left fun i hi => sign_path msg i (List.mem_range.mp hi)
theorem sign_leads (msg : Bytes) : otsKey (zer 16) 0 4 msg (slice (sign msg) 4 1124) = some otsPub := by
  rw [sign_ots, ots_leads]

theorem lms_ok (msg : Bytes) : lmsVerifies pub1 msg (sign msg) = true := by
  refine lms_of pub1 msg (sign msg) (zer 16) root1 otsPub path ?_ ?_ ?_ ?_ ?_ ?_ ?_ ?_ ?_ ?_
  · exact pub_a0
  · exact pub_a1
  · exact pub_a2
  · exact pub_root
  · exact sign_q msg
  · exact sign_type msg
  · exact len_sign msg
  · exact sign_paths msg
  · exact sign_leads msg
  · exact root_eq

theorem be32_skip (p m : Bytes) (k j : Nat) (hk : p.length = k) : be32 (p ++ m) (k + j) = be32 m j := by
  simp only [be32, Nat.add_assoc, byteAt_skip p m k _ hk]
theorem be32_head (m r : Bytes) (j : Nat) (h : j + 3 < m.length) : be32 (m ++ r) j = be32 m j := by
  simp only [be32]
  rw [byteAt_fst m r j (by omega), byteAt_fst m r (j + 1) (by omega), byteAt_fst m r (j + 2) (by omega), byteAt_fst m r (j + 3) (by omega)]

section
variable (k s1 s2 msg : Bytes) (hl : k.length = 56) (h0 : be32 k 0 = 6) (h4 : be32 k 4 = 4) (l1 : s1.length = 1452) (l2 : s2.length = 1452)
include hl h0 h4 l1 l2
omit l2 in
theorem hss_len_of : hssLen ([0, 0, 0, 2] ++ k) ([0, 0, 0, 1] ++ (s1 ++ (k ++ s2))) = some 2964 := by
  have a : be32 ([0, 0, 0, 2] ++ k) 0 = 2 := be32_fst [0, 0, 0, 2] k 2 rfl rfl
  have b : be32 ([0, 0, 0, 1] ++ (s1 ++ (k ++ s2))) 0 = 1 := be32_fst [0, 0, 0, 1] _ 1 rfl rfl
  have c : be32 ([0, 0, 0, 2] ++ k) 4 = 6 := (be32_skip [0, 0, 0, 2] k 4 0 rfl).trans h0
  have d : be32 ([0, 0, 0, 2] ++ k) 8 = 4 := (be32_skip [0, 0, 0, 2] k 4 4 rfl).trans h4
  have e : lmsLen 6 4 = some 1452 := rfl
  have p : ([0, 0, 0, 1] ++ s1).length = 1456 := by simp [l1]
  have f : be32 ([0, 0, 0, 1] ++ (s1 ++ (k ++ s2))) 1456 = 6 := by
    rw [← List.append_assoc]
    exact (be32_skip _ _ 1456 0 p).trans ((be32_head k s2 0 (by omega)).trans h0)
  have g : be32 ([0, 0, 0, 1] ++ (s1 ++ (k ++ s2))) 1460 = 4 := by
    rw [← List.append_assoc]
    exact (be32_skip _ _ 1456 4 p).trans ((be32_head k s2 4 (by omega)).trans h4)
  unfold hssLen
  generalize [0, 0, 0, 2] ++ k = x at *
  generalize [0, 0, 0, 1] ++ (s1 ++ (k ++ s2)) = y at *
  simp [a, b, c, d, e, f, g]
theorem hss_of (v1 : lmsVerifies k k s1 = true) (v2 : lmsVerifies k msg s2 = true) :
    hssVerifies ([0, 0, 0, 2] ++ k) msg ([0, 0, 0, 1] ++ (s1 ++ (k ++ s2))) = true := by
  have n := hss_len_of k s1 s2 hl h0 h4 l1
  have c : be32 ([0, 0, 0, 2] ++ k) 4 = 6 := (be32_skip [0, 0, 0, 2] k 4 0 rfl).trans h0
  have d : be32 ([0, 0, 0, 2] ++ k) 8 = 4 := (be32_skip [0, 0, 0, 2] k 4 4 rfl).trans h4
  have e : lmsLen 6 4 = some 1452 := rfl
  have w : slice ([0, 0, 0, 1] ++ (s1 ++ (k ++ s2))) 1456 56 = k := by
    rw [← List.append_assoc]; exact slice_mid _ k s2 1456 56 (by simp [l1]) hl
  have x : slice ([0, 0, 0, 1] ++ (s1 ++ (k ++ s2))) 4 1452 = s1 := slice_mid [0, 0, 0, 1] s1 _ 4 1452 rfl l1
  have y : ([0, 0, 0, 2] ++ k).drop 4 = k := rfl
  have z : ([0, 0, 0, 1] ++ (s1 ++ (k ++ s2))).drop 1512 = s2 := by
    have p : ([0, 0, 0, 1] ++ (s1 ++ k)).length = 1512 := by simp [l1, hl]
    have h := List.drop_left (l₁ := [0, 0, 0, 1] ++ (s1 ++ k)) (l₂ := s2)
    rwa [p, List.append_assoc, List.append_assoc] at h
  have len : ([0, 0, 0, 1] ++ (s1 ++ (k ++ s2))).length = 2964 := by simp [l1, l2, hl]
  generalize [0, 0, 0, 2] ++ k = u at *
  generalize [0, 0, 0, 1] ++ (s1 ++ (k ++ s2)) = t at *
  unfold hssVerifies
  simp only [n, c, d, e, w, x, y, z, len, v1, v2, Nat.reduceAdd, decide_true, Bool.and_self]
end

/-- Vendor public key, and its signature over a message. -/
@[irreducible] def pub0 : Bytes := [0, 0, 0, 2] ++ pub1
@[irreducible] def hss (msg : Bytes) : Bytes := [0, 0, 0, 1] ++ (sign pub1 ++ (pub1 ++ sign msg))
theorem len_pub0 : pub0.length = 60 := by rw [pub0, List.length_append, len_pub1]; rfl
theorem len_hss (msg : Bytes) : (hss msg).length = 2964 := by
  rw [hss, List.length_append, List.length_append, List.length_append, len_sign, len_pub1, len_sign]; rfl
theorem hss_len (msg : Bytes) : hssLen pub0 (hss msg) = some 2964 := by
  rw [hss, pub0]; exact hss_len_of pub1 _ _ len_pub1 pub_a1 pub_a0 (len_sign _)
theorem hss_ok (msg : Bytes) : hssVerifies pub0 msg (hss msg) = true := by
  rw [hss, pub0]; exact hss_of pub1 _ _ msg len_pub1 pub_a1 pub_a0 (len_sign _) (len_sign _) (lms_ok _) (lms_ok _)

/-- A token of a type for counters, and for a debug token the challenge of a boot. -/
def head (ty a b c : Byte) (chal : Bytes) : Bytes :=
  [0x4A, 0x54, 0x4F, 0x4B, 1, ty, 0, 0] ++ (serialBytes ++ ([a, b, c, 0, 0, 0, 0, 0] ++ chal))
def token (ty a b c : Byte) (chal : Bytes) : Bytes :=
  head ty a b c chal ++ (pub0 ++ hss (head ty a b c chal ++ pub0))
theorem len_serial : serialBytes.length = 16 := by simp [serialBytes]

/-- The vendor root hash of this key stands in the fuses. -/
def trusting (s : State) : State := { s with life := { s.life with root := sha256 pub0 } }

theorem token_passes (s : State) (debug : Bool) (ty a b c : Byte) (chal : Bytes)
    (hr : s.life.root = sha256 pub0)
    (ht : if debug = true then ty = 0x10 ∧ chal = s.challenge ∧ chal.length = 32 else 1 ≤ ty.toNat ∧ ty.toNat ≤ 4 ∧ chal = [])
    (ha : a.toNat = s.life.seals) (hb : b.toNat = s.life.returns) (hc : c.toNat = s.life.refurbs)
    (hp : debug = false → s.life.permits ty.toNat = true ∧ (ty.toNat = 2 → s.allQuiet = true)) :
    s.tokenCause debug (token ty a b c chal) = 0 := by
  have hk : (head ty a b c chal).length = tokenKey debug := by
    cases debug
    · obtain ⟨_, _, rfl⟩ := ht
      simp [head, len_serial, tokenKey]
    · obtain ⟨_, _, h⟩ := ht
      simp [head, len_serial, tokenKey, h]
  generalize hx : hss (head ty a b c chal ++ pub0) = x at *
  have hxl : x.length = 2964 := hx ▸ len_hss _
  have htok : token ty a b c chal = head ty a b c chal ++ (pub0 ++ x) := by rw [token, hx]
  rw [htok]
  have p : tokenPub debug (head ty a b c chal ++ (pub0 ++ x)) = pub0 := slice_mid _ pub0 _ _ 60 hk len_pub0
  have m : tokenMsg debug (head ty a b c chal ++ (pub0 ++ x)) = head ty a b c chal ++ pub0 := by
    have h := slice_mid [] (head ty a b c chal ++ pub0) x 0 (tokenKey debug + 60) rfl (by simp [hk, len_pub0])
    rwa [List.nil_append, List.append_assoc] at h
  have g : tokenSig debug (head ty a b c chal ++ (pub0 ++ x)) = x := by
    have h := List.drop_left (l₁ := head ty a b c chal ++ pub0) (l₂ := x)
    rwa [List.append_assoc, List.length_append, hk, len_pub0] at h
  have hl : (head ty a b c chal ++ (pub0 ++ x)).length = tokenKey debug + 60 + 2964 := by
    simp only [List.length_append, hk, len_pub0, hxl]

  have hssx : hssLen pub0 x = some 2964 := hx ▸ hss_len _
  have okx : hssVerifies pub0 (head ty a b c chal ++ pub0) x = true := hx ▸ hss_ok _
  generalize pub0 ++ x = y at *
  have e1 : head ty a b c chal ++ y = [0x4A, 0x54, 0x4F, 0x4B, 1, ty, 0, 0] ++ (serialBytes ++ ([a, b, c, 0, 0, 0, 0, 0] ++ (chal ++ y))) := by
    simp [head]
  generalize head ty a b c chal ++ y = tok at *
  have sn : slice tok 8 16 = serialBytes := by rw [e1]; exact slice_mid _ _ _ 8 16 rfl len_serial
  have tail : ∀ j < 8, byteAt tok (24 + j) = byteAt [a, b, c, 0, 0, 0, 0, 0] j := fun j hj => by
    rw [e1, ← List.append_assoc, byteAt_skip _ _ 24 j (by simp [len_serial])]
    exact byteAt_fst [a, b, c, 0, 0, 0, 0, 0] _ j hj
  have t0 : byteAt tok 24 = s.life.seals := (tail 0 (by omega)).trans ha
  have t1 : byteAt tok 25 = s.life.returns := (tail 1 (by omega)).trans hb
  have t2 : byteAt tok 26 = s.life.refurbs := (tail 2 (by omega)).trans hc
  have z1 : zeros tok 6 2 = true := by
    have h : slice tok 6 2 = [0, 0] := by
      rw [e1]; exact slice_mid [0x4A, 0x54, 0x4F, 0x4B, 1, ty] [0, 0] _ 6 2 rfl rfl
    simp [zeros, h]
  have z2 : zeros tok 27 5 = true := by
    have h : slice tok 27 5 = [0, 0, 0, 0, 0] := by
      have h := slice_mid ([0x4A, 0x54, 0x4F, 0x4B, 1, ty, 0, 0] ++ (serialBytes ++ [a, b, c])) [0, 0, 0, 0, 0] (chal ++ y) 27 5
        (by simp [len_serial]) rfl
      rw [e1]
      simpa only [List.append_assoc, List.cons_append, List.nil_append] using h
    simp [zeros, h]
  have y0 : le tok 0 4 = 0x4B4F544A := by rw [e1]; simp [le, byteAt]
  have y4 : byteAt tok 4 = 1 := by rw [e1]; simp [byteAt]
  have y5 : byteAt tok 5 = ty.toNat := by rw [e1]; simp [byteAt]
  have ch : debug = true → slice tok 32 32 = s.challenge := fun hd => by
    subst hd
    obtain ⟨_, h1, h2⟩ := ht
    have h := slice_mid ([0x4A, 0x54, 0x4F, 0x4B, 1, ty, 0, 0] ++ (serialBytes ++ [a, b, c, 0, 0, 0, 0, 0])) chal y 32 32
      (by simp [len_serial]) h2
    rw [e1, ← h1]
    simpa only [List.append_assoc, List.cons_append, List.nil_append] using h
  have form : tokenForm debug tok = true := by
    simp only [tokenForm, y0, y4, y5, z1, z2, p, g, hssx, hl]
    cases debug
    · simp [ht.1, ht.2.1, tokenKey]
    · simp [ht.1, tokenKey]
  unfold State.tokenCause
  simp only [form, p, m, g, okx, sn, hr, rootTrusts, y5, t0, t1, t2]
  cases debug
  · obtain ⟨h1, h2⟩ := hp rfl
    by_cases h : ty.toNat = 2
    · simp [h1, h2 h]
    · simp [h1, h]
  · simp [ch rfl]

/-! ### Life cycle (R539 to R555) and the debug token of the TAP (R547) -/
def lcS (a b c : Nat) (block : Bytes) : State :=
  trusting { putCmd live 0 (cmdOf 0x5C [] block) with life := { live.life with seals := a, returns := b, refurbs := c, provisioned := true } }
set_option maxRecDepth 20000 in
theorem lc_startable (a b c : Nat) (block : Bytes) : Startable (lcS a b c block) boss 0x5C (cmdOf 0x5C [] block) :=
  ⟨rfl, rfl, _, _, rfl, rfl⟩
theorem len_token (ty a b c : Byte) : byteAt (token ty a b c []) 5 = ty.toNat := by
  rw [token]
  generalize pub0 ++ _ = y
  rfl
/-- Every type of transition, in a state that permits it, with a token that passes. -/
theorem wit_LifeCycle_types :
    ∀ x ∈ [((1 : Byte), 0, 0, 0), (3, 1, 1, 0), (4, 0, 0, 0)], x.2.1 < 256 → x.2.2.1 < 256 → x.2.2.2 < 256 → 
    let k := token x.1 (BitVec.ofNat 8 x.2.1) (BitVec.ofNat 8 x.2.2.1) (BitVec.ofNat 8 x.2.2.2) []
    Startable (lcS x.2.1 x.2.2.1 x.2.2.2 k) boss 0x5C (cmdOf 0x5C [] k) ∧ (lcS x.2.1 x.2.2.1 x.2.2.2 k).tokenCause false k = 0 ∧
      byteAt k 5 = x.1.toNat := by
  intro x hx h1 h2 h3
  have hp : 1 ≤ x.1.toNat ∧ x.1.toNat ≤ 4 ∧ x.1.toNat ≠ 2 ∧
      ∀ k, (lcS x.2.1 x.2.2.1 x.2.2.2 k).life.permits x.1.toNat = true := by
    simp only [List.mem_cons, List.not_mem_nil, or_false] at hx
    obtain rfl | rfl | rfl := hx <;> exact ⟨by decide, by decide, by decide, fun _ => rfl⟩
  refine ⟨lc_startable _ _ _ _, token_passes _ _ _ _ _ _ _ rfl ?_ ?_ ?_ ?_ ?_, len_token _ _ _ _⟩
  · exact ⟨hp.1, hp.2.1, rfl⟩
  · exact Nat.mod_eq_of_lt h1
  · exact Nat.mod_eq_of_lt h2
  · exact Nat.mod_eq_of_lt h3
  · exact fun _ => ⟨hp.2.2.2 _, fun h => absurd h hp.2.2.1⟩
/-- RETURN, with every tenant quiesced. -/
def quietS (block : Bytes) : State := { lcS 1 0 0 block with fns := [(0, joined (Fn.manager .A)), (1, joined (Fn.manager .B))] }
set_option maxRecDepth 20000 in
theorem wit_LifeCycle_return :
    let k := token 2 1 0 0 []
    Startable (quietS k) boss 0x5C (cmdOf 0x5C [] k) ∧ (quietS k).tokenCause false k = 0 ∧ byteAt k 5 = 2 :=
  ⟨⟨rfl, rfl, _, _, rfl, rfl⟩, token_passes _ _ _ _ _ _ _ rfl ⟨by decide, by decide, rfl⟩ rfl rfl rfl fun _ => ⟨rfl, fun _ => rfl⟩, len_token _ _ _ _⟩
def attC : Cmd := cmdOf 0x5D [(8, 4, 0xFFFFFF)] (List.replicate 32 1)
def lcC : Cmd := cmdOf 0x5C [] []
def erasingS : State := { live with life := { live.life with erasing := some ⟨1, 0, 3⟩ } }
theorem wit_LifeCycle : env.wf = true ∧ live.life.erasing = none ∧
    { live with life := { live.life with erasing := some boss } }.life.erasing = some boss ∧
    runs (putCmd live 0 attC) boss 0x5D attC = true ∧ (putCmd live 0 attC).life.exhausted = false ∧
    (putCmd live 0 attC).reportLen ≤ le attC.entry 8 4 ∧ (putCmd live 0 attC).reportsNow.length < 200 ∧
    runs (putCmd live 0 lcC) boss 0x5C lcC = true ∧ (putCmd live 0 lcC).tokenCause false lcC.block ≠ 0 ∧
    runs (putCmd erasingS 0 lcC) boss 0x5C lcC = true ∧ erasingS.life.erasing.isSome = true := by decide +kernel

def tapS : State := trusting { live with life := { live.life with seals := 0 } }
def tapToken : Bytes := token 0x10 0 0 0 tapS.challenge
theorem wit_ServiceBuses_token :
    tapS.pwr.on = true ∧ tapS.life.state = .factory ∧
    le (toLe 3088 4 ++ tapToken) 0 4 = 3088 ∧ 3088 + 4 ≤ (toLe 3088 4 ++ tapToken).length ∧
    tapS.tokenCause true (slice (toLe 3088 4 ++ tapToken) 4 3088) = 0 := by
  have hc : tapS.challenge.length = 32 := by
    have : tapS.challenge = (List.range 32).map fun k => Config.chalByte tapS.life.chal k := rfl
    rw [this]; simp
  have hl : tapToken.length = 3088 := by
    rw [tapToken, token]
    simp only [List.length_append, len_pub0, len_hss]
    simp [head, len_serial, hc]
  refine ⟨rfl, rfl, ?_, ?_, ?_⟩
  · generalize tapToken = y; rfl
  · rw [List.length_append, hl]; decide
  · have h := slice_mid (toLe 3088 4) tapToken [] 4 3088 rfl hl
    rw [List.append_nil] at h
    rw [h]
    exact token_passes _ _ _ _ _ _ _ rfl ⟨rfl, rfl, hc⟩ rfl rfl rfl nofun

/-! ### The loft (chapter 18) -/
/-- Sector 9 of bank A erased once, its protection cleared. -/
def loftS : State := { live with loft := { live.loft with clear := [9], words := [], erases := [(9, 1)] } }
def loftBusyS : State := { live with loft := { live.loft with clear := [9], busy := [(0, 9)] } }
def loftWorn : State := { live with loft := { live.loft with erases := [(9, 100000000)] } }
theorem loft_bits (w : Nat) (_h : w < 512) : loftS.loftBits 9 w = BitVec.allOnes 80 := rfl
theorem loft_sound : loftS.loftFails 9 = false := by
  simp only [State.loftFails, Bool.or_eq_false_iff, decide_eq_false_iff_not]
  refine ⟨by decide, List.any_eq_false.mpr fun w hw => ?_⟩
  rw [loft_bits w (List.mem_range.mp hw)]
  decide
theorem loft_worn : loftWorn.loftFails 9 = true := by
  have : lookD loftWorn.loft.erases 0 9 ≥ 100000000 := by decide
  simp only [State.loftFails, Bool.or_eq_true, decide_eq_true_eq]
  exact Or.inl this
theorem wit_LoftOperations :
    ((9 : Nat) < 8704 ∧ loftS.pwr.on = true ∧ look loftS.loft.busy (loftBank 9) = none ∧ 9 ∈ loftS.loft.clear ∧ 10 ∉ loftS.loft.clear ∧
      ones 80 (word80 5 false) < 78) ∧
    (look loftBusyS.loft.busy (loftBank 9) = some 9 ∧ lookD loftBusyS.loft.erases 0 9 + 1 < 90000000) ∧
    (live.boot.ready = true ∧ 9 ∉ loftWorn.loft.gone ∧ 9 ∉ loftWorn.loft.stuck ∧ 0 < loftWorn.loftLeft 0) ∧
    loftS.loftBits 9 3 = BitVec.allOnes 80 ∧ loftS.loftFails 9 = false ∧ loftWorn.loftFails 9 = true :=
  ⟨by decide +kernel, by decide +kernel, by decide +kernel, rfl, loft_sound, loft_worn⟩
/-- A word that is not erased. -/
theorem wit_LoftOperations_programmed :
    loftDecode ({ loftS with loft := { loftS.loft with words := [(9 * 512 + 3, word80 5 false)] } }.loftBits 9 3) ≠ .erased := by decide +kernel

/-! ### Ill-formed commands: each check refuses one -/
theorem smoke_channel : (Instr.readPoint 147).wf = true ∧ (Instr.readPoint 148).wf = false ∧ (Instr.planClose [148] []).wf = false := by decide
theorem smoke_die : DieId.wf ⟨3, 36, 27⟩ = true ∧ DieId.wf ⟨4, 0, 0⟩ = false ∧ DieId.wf ⟨0, 37, 0⟩ = false ∧ DieId.wf ⟨0, 0, 28⟩ = false ∧
    (Instr.programComplete ⟨0, 0, 28⟩).wf = false := by decide
theorem smoke_plane_block : PlaneBlock.wf ⟨⟨0, 0, 0⟩, 4, 0⟩ = false ∧ PlaneBlock.wf ⟨⟨0, 0, 0⟩, 0, 3168⟩ = false ∧
    (Instr.planClose [] [⟨⟨0, 0, 0⟩, 4, 0⟩]).wf = false ∧ (Instr.programFailure ⟨0, 0, 0⟩ 4).wf = false := by decide
theorem smoke_member : Member.wf ⟨3, 25, 35⟩ = true ∧ Member.wf ⟨0, 26, 0⟩ = false ∧ Member.wf ⟨0, 0, 36⟩ = false ∧
    (Instr.rebuildWordLine ⟨4, 0, 0⟩).wf = false := by decide
theorem smoke_core : CoreId.wf ⟨31, 15⟩ = true ∧ CoreId.wf ⟨32, 0⟩ = false ∧ (Instr.add ⟨0, 16⟩ 1 2 3).wf = false := by decide
theorem smoke_function : fnOk 4095 = true ∧ (Instr.drainEnd 4096).wf = false ∧ (Instr.qpToReset (.rdma 4096 .A) 2 .A false).wf = false := by decide
theorem smoke_ring : Sys2Proof.ringOk 1023 = true ∧ (Instr.ringDoze 2 1024).wf = false := by decide
theorem smoke_reference : (Instr.moduleReset ⟨2, 0, 65536⟩ env).wf = false ∧ (Instr.moduleReset ⟨2, 1024, 7⟩ env).wf = false := by decide
theorem smoke_boot : (Instr.powerGood env).wf = true ∧ (Instr.powerGood { env with ranksBad := [36] }).wf = false ∧
    (Instr.powerGood { env with coresOk := 19 }).wf = false ∧ (Instr.powerGood { env with chans := [(148, [])] }).wf = false ∧
    (Instr.powerGood { env with sieveBad := [65536] }).wf = false := by decide
theorem smoke_dram : (Instr.dramUncorrectable ⟨36, 0, false, none, 0, true⟩).wf = false ∧ (Instr.remap (.dram 36 0)).wf = false ∧
    (Instr.rankRecentre 36 1 1 1).wf = false ∧ (Instr.watermarkBatch 12).wf = false ∧ (Instr.detourApply 6).wf = false ∧
    (Instr.scrubPass ⟨0, 0, 0, [(36, 1)], false, []⟩).wf = false := by decide
theorem smoke_sram : sramMacro 0 575 = true ∧ sramMacro 0 576 = false ∧ sramMacro 1 128 = false ∧ sramMacro 2 18 = false ∧ sramMacro 3 156 = false ∧
    (Instr.remap (.sram 576 0)).wf = false := by decide
theorem smoke_loft : (Instr.loftWordProgram 8703 511 0).wf = true ∧ (Instr.loftWordProgram 8704 0 0).wf = false ∧
    (Instr.loftWordProgram 0 512 0).wf = false ∧ (Instr.loftEraseAbort 3).wf = false := by decide
theorem smoke_places : (Instr.temperature 4 0 []).wf = false ∧ (Instr.semBreakable 4096).wf = false ∧ (Instr.gateContextPause 0 4).wf = false ∧
    (Instr.coreRetire 0 18).wf = false ∧ (Instr.heldSlotRelease (4 * 26 * 4096)).wf = false ∧ (Instr.patrolRead ⟨0, 0, 0⟩ 0 512 0).wf = false ∧
    (Instr.patrolRead ⟨0, 0, 0⟩ 3072 0 0).wf = false ∧ (Instr.channelRetrainRetry 148).wf = false ∧ (Instr.sieveRowRetired 66560).wf = false := by decide

/-! ### Values worked out by hand from the spec's definitions -/
/-- ADD r3, r1, r2: opcode 000001, rd 00011, rs1 00001, rs2 00010, fn 0. -/
theorem test_add_word : wR 1 3 1 2 0 = 0b00000100011000010001000000000000 := by decide
/-- J by −2 words: opcode 010110 (0x16), twenty-five ones, a zero. -/
theorem test_j_word : wJ 0x16 (-2) = 0b01011011111111111111111111111110 := by decide
/-- The context a core is left with. -/
def left (o : Res') : Option Ctx := match o with
  | .next t => (t.core 0).ctx
  | _ => none
/-- r0 reads zero, so SUB r3, r0, r1 negates 64; the pc advances by 4 (R397, R399). -/
theorem test_sub_wraps : (left (execSub c0 3 0 1 (atWord (wR 1 3 0 1 1) regs))).map (fun x => (x.rg 3, x.pc)) =
    some (0xFFFFFFFFFFFFFFC0, 0x10000C) := by decide +kernel
/-- A write to r0 is discarded. -/
theorem test_add_zero : (left (execAdd c0 0 1 2 (atWord (wR 1 0 1 2 0) regs))).map (fun x => x.rg 0) = some 0 := by decide +kernel
/-- BNE r1, r2 with different values goes 4 × disp on. -/
theorem test_bne_taken : (left (execBne c0 1 2 3 (atWord (wI 0x11 1 2 3) regs))).map (·.pc) = some 0x100014 := by decide +kernel
/-- CRC-32C of the bytes of "123456789". -/
theorem test_crc32c : crc32c [0x31, 0x32, 0x33, 0x34, 0x35, 0x36, 0x37, 0x38, 0x39] = 0xE3069283 := by decide +kernel
/-- SHA-256 of "abc", its first and last bytes. -/
theorem test_sha256 : (sha256 [0x61, 0x62, 0x63]).take 4 = [0xBA, 0x78, 0x16, 0xBF] ∧ (sha256 [0x61, 0x62, 0x63]).drop 30 = [0x15, 0xAD] := by decide +kernel
/-- x⁸ is x⁴ + x³ + x² + 1, and 1 is the unit. -/
theorem test_gf : gfMul 2 0x80 = 0x1D ∧ gfMul 1 0xA7 = 0xA7 ∧ gfMul 0xA7 1 = 0xA7 := by decide +kernel
/-- The encoding of DATA 0 with TAG 0 is 80 bits at 0 (R486). -/
theorem test_loft_zero : word80 0 false = 0 := by decide +kernel
/-- A word reads back; one flipped bit is corrected and counted (R485). -/
theorem test_loft_word : loftDecode (word80 0x0123456789ABCDEF false) = .value 0x0123456789ABCDEF false 0 ∧
    loftDecode (word80 0x0123456789ABCDEF false ^^^ 0x400) = .value 0x0123456789ABCDEF false 1 := by decide +kernel
/-- Bytes are laid down least significant first. -/
theorem test_record : record 8 [(0, 1, 0x18), (2, 2, 0x1234)] = [0x18, 0, 0x34, 0x12, 0, 0, 0, 0] := by decide

end Sys2Proof.Tests
end

section
/-! SUPPORT. The rows of the dispatcher that start items, fill slots and end quanta (R382 to R385, R425 to R428): what they leave of
cores, hamlets and jobs. -/

namespace Sys2Proof.Machine

/-! ### What a fold keeps -/

/-- A fold keeps what each of its steps keeps. -/
theorem foldl_same {α β : Type} {f : State → α → State} (p : State → β) (hf : ∀ x a, p (f x a) = p x) (l : List α) (x : State) :
    p (l.foldl f x) = p x :=
  List.foldlRecOn (motive := fun y => p y = p x) l f rfl fun y hy a _ => (hf y a).trans hy

/-! ### What the decision trace leaves alone (R434 to R436) -/

/-- The state but for the decision trace. -/
def State.untraced (s : State) : State :=
  { s with disp := { s.disp with recs := [], cnt := 0, inBell := 0, dropped := 0, heldSeen := [] } }

theorem putTrace_untraced (s : State) (b : Bytes) : (s.putTrace b).untraced = s.untraced := by
  unfold State.putTrace
  dsimp only
  split <;> rfl

theorem trace_untraced (s : State) (e h c : Nat) (i : Option Item) (flow aux : Nat) :
    (s.trace e h c i flow aux).untraced = s.untraced := by
  unfold State.trace
  dsimp only
  split
  · exact putTrace_untraced _ _
  · rfl

theorem traceGrant_untraced (s : State) (f n : Nat) : (s.traceGrant f n).untraced = s.untraced := by
  unfold State.traceGrant
  split
  · exact putTrace_untraced _ _
  · rfl

theorem traceGrants_untraced (s : State) (given : Tab Nat) :
    (given.foldl (fun s e => if e.2 > 0 then s.traceGrant e.1 e.2 else s) s).untraced = s.untraced :=
  foldl_same State.untraced (fun x e => by
    split
    · exact traceGrant_untraced _ _ _
    · rfl) given s

theorem passOver_untraced (s : State) (h c : Nat) (l : List (Nat × Item)) : (s.passOver h c l).untraced = s.untraced :=
  foldl_same State.untraced (fun x e => by
    dsimp only
    split
    · exact trace_untraced _ _ _ _ _ _ _
    · rfl) l s

section
variable {s t : State} (h : t.untraced = s.untraced)
include h
theorem jobs_of_untraced : t.jobs = s.jobs := (congrArg State.jobs h :)
theorem cores_of_untraced : t.cores = s.cores := (congrArg State.cores h :)
theorem hamlets_of_untraced : t.hamlets = s.hamlets := (congrArg State.hamlets h :)
theorem grants_of_untraced : t.disp.grants = s.disp.grants := (congrArg (fun x : State => x.disp.grants) h :)
theorem place_of_untraced : t.disp.place = s.disp.place := (congrArg (fun x : State => x.disp.place) h :)
end

section
variable (s : State) (e h c : Nat) (i : Option Item) (flow aux : Nat) (l : List (Nat × Item))
@[simp] theorem trace_jobs : (s.trace e h c i flow aux).jobs = s.jobs := jobs_of_untraced (trace_untraced ..)
@[simp] theorem trace_cores : (s.trace e h c i flow aux).cores = s.cores := cores_of_untraced (trace_untraced ..)
@[simp] theorem trace_hamlets : (s.trace e h c i flow aux).hamlets = s.hamlets := hamlets_of_untraced (trace_untraced ..)
@[simp] theorem passOver_jobs : (s.passOver h c l).jobs = s.jobs := jobs_of_untraced (passOver_untraced ..)
@[simp] theorem passOver_cores : (s.passOver h c l).cores = s.cores := cores_of_untraced (passOver_untraced ..)
@[simp] theorem passOver_hamlets : (s.passOver h c l).hamlets = s.hamlets := hamlets_of_untraced (passOver_untraced ..)
end

/-! ### Cores and hamlets read after an update -/

theorem core_of_cores {s t : State} (h : t.cores = s.cores) (k : Nat) : t.core k = s.core k := by
  unfold State.core
  rw [h]

theorem hamlet_of_hamlets {s t : State} (h : t.hamlets = s.hamlets) (n : Nat) : t.hamlet n = s.hamlet n := by
  unfold State.hamlet
  rw [h]

section
variable (s : State)
@[simp] theorem core_setCore_same (k : Nat) (f : Core → Core) : (s.setCore k f).core k = f (s.core k) :=
  lookD_putD_same s.cores (Core.fresh k) k _
@[simp] theorem hamlet_setHamlet_same (h : Nat) (f : Hamlet → Hamlet) : (s.setHamlet h f).hamlet h = f (s.hamlet h) :=
  lookD_adjD_same s.hamlets Hamlet.fresh h f
@[simp] theorem hamlet_setCore (k h : Nat) (f : Core → Core) : (s.setCore k f).hamlet h = s.hamlet h := rfl
@[simp] theorem core_setHamlet (h k : Nat) (f : Hamlet → Hamlet) : (s.setHamlet h f).core k = s.core k := rfl
@[simp] theorem core_trace (e h c : Nat) (i : Option Item) (flow aux k : Nat) : (s.trace e h c i flow aux).core k = s.core k :=
  core_of_cores (trace_cores ..) k
@[simp] theorem hamlet_trace (e h c : Nat) (i : Option Item) (flow aux n : Nat) :
    (s.trace e h c i flow aux).hamlet n = s.hamlet n :=
  hamlet_of_hamlets (trace_hamlets ..) n
@[simp] theorem core_passOver (h c : Nat) (l : List (Nat × Item)) (k : Nat) : (s.passOver h c l).core k = s.core k :=
  core_of_cores (passOver_cores ..) k
@[simp] theorem hamlet_passOver (h c : Nat) (l : List (Nat × Item)) (n : Nat) : (s.passOver h c l).hamlet n = s.hamlet n :=
  hamlet_of_hamlets (passOver_hamlets ..) n
end

/-! ### Ready lists and slots (R421, R426, R427) -/

section
variable (s : State) (h : Nat) (e : Nat × Item)
@[simp] theorem leave_jobs : (s.leave h e).jobs = s.jobs := rfl
@[simp] theorem core_leave (k : Nat) : (s.leave h e).core k = s.core k := rfl
@[simp] theorem leave_ready : ((s.leave h e).hamlet h).ready = (s.hamlet h).ready := by simp [State.leave]
@[simp] theorem unready_jobs : (s.unready h e).jobs = s.jobs := rfl
@[simp] theorem core_unready (k : Nat) : (s.unready h e).core k = s.core k := rfl
@[simp] theorem unready_ready : ((s.unready h e).hamlet h).ready = (s.hamlet h).ready.erase e :=
  (congrArg Hamlet.ready (hamlet_setHamlet_same s h fun x => { x with ready := x.ready.erase e }) :)
@[simp] theorem core_putBack (k : Nat) : (s.putBack h e).core k = s.core k := rfl
@[simp] theorem putBack_gone : ((s.putBack h e).hamlet h).gone = (s.hamlet h).gone :=
  (congrArg Hamlet.gone (hamlet_setHamlet_same s h fun x => { x with ready := byEntry x.entered e x.ready }) :)
end

/-- The core after an item started: the registers of R382; local memory is zeroed where the function changes (R358). -/
theorem core_startItem {s : State} {j : Nat} {jb : Job} (hj : look s.jobs j = some jb) (k : Nat) (i : Item) (b : Bool) :
    (s.startItem k j i b).core k = { s.core k with
      ctx := some (freshCtx jb j i), lastFn := some jb.r.fn, lm := if (s.core k).lastFn = some jb.r.fn then (s.core k).lm else [] } := by
  simp [State.startItem, hj]

@[simp] theorem hamlet_startItem (s : State) (k j : Nat) (i : Item) (b : Bool) (h : Nat) :
    (s.startItem k j i b).hamlet h = s.hamlet h := by
  unfold State.startItem
  split <;> simp

/-- A core that parks its item holds it with its local memory, every multiply landed (R372, R385, R428). -/
theorem core_parkItem {s : State} {k : Nat} {y : Ctx} (hy : (s.core k).ctx = some y) :
    (s.parkItem k).core k = { s.core k with
      ctx := none, parked := (s.core k).parked ++ [{ y.landAll with saved := (s.core k).lm }] } := by
  simp [State.parkItem, hy]

theorem parkItem_idle {s : State} {k : Nat} (h : (s.core k).ctx = none) : s.parkItem k = s := by
  simp [State.parkItem, h]

theorem unslot_empty {s : State} {k : Nat} (h : (s.core k).slot = none) (f : Option Nat) : s.unslot k f = s := by
  simp [State.unslot, h]

/-- Putting a slot's item back changes nothing of its core but the slot. -/
theorem core_unslot (s : State) (k : Nat) (f : Option Nat) :
    ((s.unslot k f).core k).ctx = (s.core k).ctx ∧ ((s.unslot k f).core k).parked = (s.core k).parked := by
  unfold State.unslot
  split
  · split <;> simp
  · exact ⟨rfl, rfl⟩

/-- The one parked item of a core resumes with the local memory it was parked with (R385, R428). -/
theorem core_resumeItem {s : State} {k f : Nat} {y : Ctx} (hp : (s.core k).parked = [y]) (hf : s.jobFn y.job = f)
    (hl : s.jobLive y.job = true) (hc : s.coresFull y.job = false) :
    (s.resumeItem k f).core k = { s.core k with ctx := some { y with saved := [] }, parked := [], lm := y.saved, lastFn := some f } := by
  simp [State.resumeItem, hp, hf, hl, hc]

theorem jobFn_of_look {s : State} {j : Nat} {jb : Job} (h : look s.jobs j = some jb) : s.jobFn j = jb.r.fn := by
  simp [State.jobFn, h]

theorem jobLive_of_look {s : State} {j : Nat} {jb : Job} (h : look s.jobs j = some jb) : s.jobLive j = jb.live := by
  simp [State.jobLive, h]

/-! ### Items start, slots fill, quanta end (R382, R383, R425 to R428) -/

section
variable {s : State} {c : CoreId} {f step : Nat} (hw : c.wf = true) (hs : s.served (coreNo c) = some (f, step))
include hw hs

theorem execItemStart_of_slot {p j : Nat} {i : Item} (hc : (s.core (coreNo c)).ctx = none) (hp : (s.core (coreNo c)).phys = some p)
    (hsl : (s.core (coreNo c)).slot = some (j, i)) (hf : s.jobFn j = f) (hl : s.jobLive j = true) (hn : s.jobFull j = false) :
    execItemStart c s = .next (((s.setCore (coreNo c) fun c => { c with slot := none }).leave c.hamlet (j, i)).startItem
      (coreNo c) j i true) := by
  simp [execItemStart, hw, hs, hc, hp, hsl, hf, hl, hn]

theorem execItemStart_of_ready {p : Nat} {e : Nat × Item} (hc : (s.core (coreNo c)).ctx = none)
    (hp : (s.core (coreNo c)).phys = some p) (hsl : (s.core (coreNo c)).slot = none)
    (he : (s.candidates c.hamlet f).find? (s.eligible c.hamlet) = some e) :
    execItemStart c s = .next (((((s.passOver c.hamlet c.core ((s.candidates c.hamlet f).takeWhile fun y => y ≠ e)).unready
      c.hamlet e).leave c.hamlet e).startItem (coreNo c) e.1 e.2 false)) := by
  simp [execItemStart, hw, hs, hc, hp, hsl, he]

theorem execSlotFill_of_ready {y : Ctx} {e : Nat × Item} (hc : (s.core (coreNo c)).ctx = some y)
    (hsl : (s.core (coreNo c)).slot = none) (hn : ∀ v, look s.disp.place (coreNo c) = some v → v % 4096 = f)
    (he : (s.candidates c.hamlet f).find? (s.flowOpen c.hamlet) = some e) :
    execSlotFill c s = .next (((s.passOver c.hamlet c.core ((s.candidates c.hamlet f).takeWhile fun y => y ≠ e)).unready
      c.hamlet e).setCore (coreNo c) fun x => { x with slot := some e }) := by
  cases hv : look s.disp.place (coreNo c) with
  | none => simp [execSlotFill, hw, hs, hc, hsl, he, hv]
  | some v => simp [execSlotFill, hw, hs, hc, hsl, he, hv, hn v hv]

end

theorem execQuantumEnd_goesOn {s : State} {c : CoreId} {f : Nat} (hw : c.wf = true) (hs : s.served (coreNo c) = some (f, 1))
    (hc : (s.core (coreNo c)).ctx.isSome = true) : execQuantumEnd c s = .next s := by
  simp [execQuantumEnd, hw, hs, hc]

theorem execQuantumEnd_resumes {s : State} {c : CoreId} {f : Nat} (hw : c.wf = true) (hs : s.served (coreNo c) = some (f, 2))
    (hc : (s.core (coreNo c)).ctx = none) (hsl : (s.core (coreNo c)).slot = none) :
    execQuantumEnd c s = .next (s.resumeItem (coreNo c) f) := by
  simp [execQuantumEnd, hw, hs, parkItem_idle hc, unslot_empty hsl]

theorem execQuantumEnd_unserved {s : State} {c : CoreId} (hw : c.wf = true) (hs : s.served (coreNo c) = none) :
    execQuantumEnd c s = .next ((s.parkItem (coreNo c)).unslot (coreNo c) none) := by
  simp [execQuantumEnd, hw, hs]

end Sys2Proof.Machine
end

section
/-! SUPPORT. The registers of a fresh item (R382), and the division of quanta (R422). -/

namespace Sys2Proof.Machine

/-! ### The registers of a fresh item (R382) -/

theorem look_none_of_above {α : Type} {k : Nat} : ∀ {t : Tab α}, Above k t → look t k = none
  | [], _ => rfl
  | e :: t, h => by
    have hk : k < e.1 := h e (List.mem_cons_self ..)
    rw [look, if_neg (by omega), look_none_of_above fun x hx => h x (List.mem_cons_of_mem _ hx)]

/-- Leaving the default out of a table changes no entry that is read with that default. -/
theorem lookD_filter_ne {α : Type} [DecidableEq α] (d : α) (k : Nat) :
    ∀ {t : Tab α}, Rising t = true → lookD (t.filter fun e => e.2 ≠ d) d k = lookD t d k
  | [], _ => rfl
  | (a, v) :: t, h => by
    obtain ⟨ha, ht⟩ := rising_cons.mp h
    have ih := lookD_filter_ne d k ht
    unfold lookD at ih ⊢
    by_cases hv : v = d
    · rw [List.filter_cons_of_neg (by simp [hv]), ih, look]
      split
      · subst_vars
        rw [look_none_of_above ha]
        rfl
      · rfl
    · rw [List.filter_cons_of_pos (by simp [hv]), look, look]
      split
      · rfl
      · exact ih

/-- What an item finds in the general registers: its words, and the bases of its memories (R382). -/
theorem freshCtx_rg (x : Job) (j : Nat) (i : Item) {n : Nat} (hn : n ≠ 0) : (freshCtx x j i).rg n =
    lookD [(1, i.w0), (2, i.w1), (3, i.w2), (4, i.w3), (29, 0x200000), (30, 0x40000), (31, 0xFFFF0)] 0 n :=
  (if_neg hn).trans (lookD_filter_ne 0 n rfl)

theorem freshCtx_rg_rest (x : Job) (j : Nat) (i : Item) {n : Nat} (hn : (5 ≤ n ∧ n ≤ 28) ∨ n = 0) : (freshCtx x j i).rg n = 0 := by
  by_cases h0 : n = 0
  · exact if_pos h0
  · rw [freshCtx_rg x j i h0]
    simp [lookD, look, show 1 ≠ n by omega, show 2 ≠ n by omega, show 3 ≠ n by omega, show 4 ≠ n by omega,
      show 29 ≠ n by omega, show 30 ≠ n by omega, show 31 ≠ n by omega]

/-! ### Each function gets no more quanta than its demand (R422) -/

/-- Each entry of a table of quanta is at most its function's bound. -/
def Within (d : Nat → Nat) (t : Tab Nat) : Prop := ∀ f, lookD t 0 f ≤ d f

theorem within_nil (d : Nat → Nat) : Within d [] := fun _ => Nat.zero_le _

theorem Within.put {d : Nat → Nat} {t : Tab Nat} (h : Within d t) {f q : Nat} (hq : q ≤ d f) : Within d (put t f q) := by
  intro g
  unfold lookD
  by_cases hg : g = f
  · subst hg
    rwa [look_put_same]
  · rw [look_put_other t q hg]
    exact h g

theorem lookD_adj_other {α : Type} (t : Tab α) (d : α) {k j : Nat} (f : α → α) (h : j ≠ k) : lookD (adj t k f) d j = lookD t d j := by
  unfold lookD
  rw [look_adj_other t f h]

theorem lookD_adj_succ_le (t : Tab Nat) (k : Nat) : lookD (adj t k (· + 1)) 0 k ≤ lookD t 0 k + 1 := by
  unfold lookD
  rw [look_adj_same]
  cases look t k <;> simp

theorem lookD_adj_pred_le (t : Tab Nat) (k f : Nat) : lookD (adj t k (· - 1)) 0 f ≤ lookD t 0 f := by
  by_cases h : f = k
  · subst h
    unfold lookD
    rw [look_adj_same]
    cases look t f <;> simp
  · exact (lookD_adj_other t 0 _ h).le

/-- Claims of different functions, each within its function's bound. -/
structure ClaimsWithin (d : Nat → Nat) (cs : List Claim) : Prop where
  distinct : (cs.map (·.fn)).Nodup
  bound : ∀ c ∈ cs, c.demand ≤ d c.fn

theorem ClaimsWithin.sublist {d : Nat → Nat} {cs l : List Claim} (h : ClaimsWithin d cs) (hl : l.Sublist cs) : ClaimsWithin d l :=
  ⟨h.distinct.sublist (hl.map _), fun c hc => h.bound c (hl.subset hc)⟩

theorem ClaimsWithin.perm {d : Nat → Nat} {cs l : List Claim} (h : ClaimsWithin d cs) (hl : l.Perm cs) : ClaimsWithin d l :=
  ⟨(hl.map _).nodup_iff.mpr h.distinct, fun c hc => h.bound c (hl.subset hc)⟩

/-- The functions met by their share get their demand (R422 step 2). -/
theorem within_met {d : Nat → Nat} {cs : List Claim} (hb : ∀ c ∈ cs, c.demand ≤ d c.fn) {t : Tab Nat} (ht : Within d t) :
    Within d (cs.foldl (fun t c => put t c.fn c.demand) t) :=
  List.foldlRecOn (motive := Within d) cs _ ht fun _ hx c hc => hx.put (hb c hc)

/-- Functions that get a part of what is left get no more than their bound. -/
theorem within_dealt {d : Nat → Nat} {cs : List Claim} (q : Tab Nat × Nat → Claim → Nat) (hq : ∀ a, ∀ c ∈ cs, q a c ≤ d c.fn)
    {a : Tab Nat × Nat} (ha : Within d a.1) : Within d (cs.foldl (fun a c => (put a.1 c.fn (q a c), a.2 - q a c)) a).1 :=
  List.foldlRecOn (motive := fun a => Within d a.1) cs _ ha fun a hx c hc => hx.put (hq a c hc)

/-- One more quantum for functions that have less than their bound (R422 step 3). -/
theorem within_raised {d : Nat → Nat} : ∀ {cs : List Claim}, (cs.map (·.fn)).Nodup → ∀ {t : Tab Nat}, Within d t →
    (∀ c ∈ cs, lookD t 0 c.fn < d c.fn) → Within d (cs.foldl (fun t c => adj t c.fn (· + 1)) t)
  | [], _, _, ht, _ => ht
  | c :: cs, hd, t, ht, hlt => by
    obtain ⟨hc, hcs⟩ := List.nodup_cons.mp hd
    refine within_raised hcs (fun f => ?_) fun e he => ?_
    · by_cases hf : f = c.fn
      · subst hf
        exact (lookD_adj_succ_le t c.fn).trans (hlt c (List.mem_cons_self ..))
      · rw [lookD_adj_other t 0 _ hf]
        exact ht f
    · have hne : e.fn ≠ c.fn := fun h => hc (List.mem_map.mpr ⟨e, he, h⟩)
      rw [lookD_adj_other t 0 _ hne]
      exact hlt e (List.mem_cons_of_mem _ he)

/-- What is left goes, a quantum each, to the first claims that are not met (R422 step 3). -/
theorem within_raisedFew {d : Nat → Nat} {order : List Claim} (h : ClaimsWithin d order) {given : Tab Nat} (hg : Within d given)
    (n : Nat) : Within d (((order.filter fun c => lookD given 0 c.fn < c.demand).take n).foldl
      (fun t c => adj t c.fn (· + 1)) given) := by
  have hsub := (List.take_sublist n (order.filter fun c => lookD given 0 c.fn < c.demand)).trans List.filter_sublist
  refine within_raised (h.sublist hsub).distinct hg fun c hc => ?_
  obtain ⟨hmem, hlt⟩ := List.mem_filter.mp (List.mem_of_mem_take hc)
  exact (of_decide_eq_true hlt).trans_le (h.bound c hmem)

/-- The rounds of R422 step 2 keep the bounds, and leave some of the claims. -/
theorem settle_within {d : Nat → Nat} (carry : Tab Nat) : ∀ (k left : Nat) {cs : List Claim} {done : Tab Nat},
    ClaimsWithin d cs → Within d done →
    Within d (settle carry k left cs done).1 ∧ (settle carry k left cs done).2.2.Sublist cs
  | 0, _, _, _, _, hd => ⟨hd, .refl _⟩
  | k + 1, left, cs, done, hcs, hd => by
    unfold settle
    dsimp only
    split
    · exact ⟨hd, .refl _⟩
    · have hrest := hcs.sublist (List.filter_sublist (p := fun c =>
        !(decide (c.demand * 65536 ≤ claimShare carry left (cs.foldl (fun n c => n + c.weight) 0) c))))
      have hmet := within_met (fun c hc => hcs.bound c (List.mem_of_mem_filter hc)) hd (cs := cs.filter fun c =>
        c.demand * 65536 ≤ claimShare carry left (cs.foldl (fun n c => n + c.weight) 0) c)
      obtain ⟨hw, hs⟩ := settle_within carry k _ hrest hmet
      exact ⟨hw, hs.trans List.filter_sublist⟩

/-- A division gives no function more than the bound of its claim (R422). -/
theorem divide_within {d : Nat → Nat} (n : Nat) (carry : Tab Nat) {cs : List Claim} (hcs : ClaimsWithin d cs) :
    Within d (divide n carry cs).1 := by
  unfold divide
  dsimp only
  have hheavy := hcs.sublist (List.filter_sublist (p := fun c => decide (c.weight > 0) && decide (c.demand > 0)))
  generalize (cs.filter fun c => decide (c.weight > 0) && decide (c.demand > 0)) = heavy at hheavy
  obtain ⟨hdone, hsub⟩ := settle_within carry (heavy.length + 1) n hheavy (within_nil d)
  generalize settle carry (heavy.length + 1) n heavy [] = r at hdone hsub
  obtain ⟨done, left, rest⟩ := r
  have hrest := hheavy.sublist hsub
  refine within_dealt _ (fun a c hc => (min_le_left _ _).trans (hcs.bound c (List.mem_of_mem_filter hc))) ?_
  dsimp only
  generalize hg : List.foldl _ (done, left) rest = g
  have hgiven : Within d g.1 := hg ▸
    within_dealt _ (fun a c hc => ((min_le_left _ _).trans (min_le_left _ _)).trans (hrest.bound c hc)) hdone
  exact within_raisedFew (hrest.perm (List.mergeSort_perm rest _)) hgiven g.2

end Sys2Proof.Machine
end

section
/-! SUPPORT. Placement (R423), and the assignment of the quanta of a bell. -/

namespace Sys2Proof.Machine

/-! ### Cores are placed for functions that were given quanta (R423) -/

/-- A placing that hands out quanta of `given`: no function has more left than it was given, and no core is placed for one that was
given none. -/
structure Placing.Backed (given : Tab Nat) (p : Placing) : Prop where
  left : ∀ f, lookD p.left 0 f ≤ lookD given 0 f
  place : ∀ k v, look p.place k = some v → 0 < lookD given 0 (v % 4096)

/-- The functions given quanta have numbers below 4,096. -/
def FnsBelow (given : Tab Nat) : Prop := ∀ f, 0 < lookD given 0 f → f < 4096

/-- A core may be placed for any function that was given quanta. -/
theorem Placing.Backed.put_place {given : Tab Nat} {p : Placing} (h : p.Backed given) {v : Nat}
    (hv : 0 < lookD given 0 (v % 4096)) (k : Nat) :
    ∀ c w, look (Sys2Proof.Machine.put p.place k v) c = some w → 0 < lookD given 0 (w % 4096) := by
  intro c w hw
  by_cases hc : c = k
  · subst hc
    obtain rfl : v = w := by simpa using hw
    exact hv
  · rw [look_put_other _ _ hc] at hw
    exact h.place c w hw

theorem Placing.Backed.put {given : Tab Nat} (hb : FnsBelow given) {p : Placing} (h : p.Backed given) (k f step : Nat) :
    (p.put k f step).Backed given := by
  unfold Placing.put
  split
  · exact h
  · rename_i hfree
    obtain ⟨hleft, -⟩ : lookD p.left 0 f ≠ 0 ∧ (look p.place k).isSome = false := by simpa using hfree
    have hpos : 0 < lookD given 0 f := (Nat.pos_of_ne_zero hleft).trans_le (h.left f)
    have hmod : (f + 4096 * step) % 4096 = f := by
      have := hb f hpos
      omega
    exact ⟨fun g => (lookD_adj_pred_le p.left f g).trans (h.left g), h.put_place (hmod.symm ▸ hpos) k⟩

/-- Giving way to items of the same function keeps a core with its function. -/
theorem Placing.Backed.displace {given : Tab Nat} (s : State) (busy : List (Nat × Nat × Nat)) {p : Placing} (h : p.Backed given) :
    (s.displace busy p).Backed given :=
  List.foldlRecOn (motive := Placing.Backed given) busy.reverse _ h fun p hp e _ => by
    dsimp only
    split
    · rename_i hd
      simp only [Bool.and_eq_true, decide_eq_true_eq] at hd
      obtain ⟨⟨hat, -⟩, -⟩ := hd
      have hpos : 0 < lookD given 0 (e.2.1 % 4096) := Nat.add_mod_right e.2.1 4096 ▸ hp.place _ _ hat
      exact ⟨hp.left, hp.put_place ((Nat.add_mul_mod_self_left e.2.1 4096 3).symm ▸ hpos) e.1⟩
    · exact hp

theorem Placing.Backed.ready {given : Tab Nat} (hb : FnsBelow given) (s : State) {p : Placing} (h : p.Backed given) (k : Nat) :
    (s.placeReady p k).Backed given := by
  unfold State.placeReady
  dsimp only
  split
  · exact h
  · split
    · exact h.put hb _ _ _
    · exact h

/-- Placing the quanta places cores only for functions that were given some (R423). -/
theorem placeAll_backed {given : Tab Nat} (hb : FnsBelow given) (s : State) : (s.placeAll given).Backed given := by
  have hput : ∀ (step : Nat) (l : List (Nat × Nat × Nat)) {p : Placing}, p.Backed given →
      (l.foldl (fun (p : Placing) e => p.put e.1 e.2.1 step) p).Backed given := fun step l p hp =>
    List.foldlRecOn (motive := Placing.Backed given) l _ hp fun _ hq e _ => hq.put hb _ _ _
  have hsteal : ∀ (f : Nat) {p : Placing}, p.Backed given →
      ((s.stealCores f).foldl (fun (p : Placing) k => p.put k f 4) p).Backed given := fun f p hp =>
    List.foldlRecOn (motive := Placing.Backed given) (s.stealCores f) _ hp fun _ hq k _ => hq.put hb _ _ _
  have hnone : (⟨given, []⟩ : Placing).Backed given := ⟨fun _ => le_rfl, fun _ _ h => nomatch h⟩
  unfold State.placeAll
  refine List.foldlRecOn (motive := Placing.Backed given) _ _ ?_ fun _ hq f _ => hsteal f hq
  refine List.foldlRecOn (motive := Placing.Backed given) _ _ ?_ fun _ hq k _ => hq.ready hb s k
  exact hput 2 _ ((hput 1 _ hnone).displace s _)

/-! ### The assignment of a bell (R42, R422, R423) -/

/-- The assignment stands at the end of a round of division and placement, whose claims keep the bounds of the first. -/
theorem assign_eq_round (s : State) {d : Nat → Nat} : ∀ (k : Nat) {cs : List Claim}, ClaimsWithin d cs →
    Within d (s.assign (k + 1) cs).1 ∧ (s.assign (k + 1) cs).2.2 = (s.placeAll (s.assign (k + 1) cs).1).place
  | k, cs, h => by
    have hg := divide_within s.coresInService s.disp.carry h
    rw [State.assign]
    dsimp only
    split_ifs with hk
    · dsimp only
      exact ⟨hg, rfl⟩
    · cases k with
      | zero => simp at hk
      | succ k =>
        refine assign_eq_round s k ⟨?_, fun c hc => ?_⟩
        · rw [List.map_map]
          refine (List.map_congr_left fun c _ => ?_).symm ▸ h.distinct
          simp only [Function.comp]
          split <;> rfl
        · obtain ⟨e, he, rfl⟩ := List.mem_map.mp hc
          split
          · exact (Nat.sub_le _ _).trans (hg _)
          · exact h.bound e he

theorem nodup_eraseDups {α : Type} [BEq α] [LawfulBEq α] : ∀ l : List α, l.eraseDups.Nodup
  | [] => by simp
  | a :: l => by
    rw [List.eraseDups_cons, List.nodup_cons]
    refine ⟨fun h => ?_, nodup_eraseDups _⟩
    simpa using List.mem_eraseDups.mp h
  termination_by l => l.length
  decreasing_by exact Nat.lt_succ_of_le (List.length_filter_le _ _)

/-- A function with demand has a job. -/
theorem fn_of_demand_pos {s : State} {f : Nat} (h : 0 < s.demand f) : ∃ e ∈ s.jobs, e.2.r.fn = f := by
  by_contra hn
  push Not at hn
  have hzero : s.demand f = 0 := List.foldlRecOn (motive := fun n => n = 0) s.jobs _ rfl fun n hz e he => by
    simp [hn e he, hz]
  omega

/-- The claims of the functions that have jobs, each with its demand. -/
def State.claims (s : State) : List Claim :=
  ((s.jobs.map fun e => e.2.r.fn).eraseDups.mergeSort fun a b => a ≤ b).map fun f => Claim.mk f (s.fn f).eff.dispW (s.demand f)

theorem claims_within (s : State) : ClaimsWithin s.demand s.claims where
  distinct := by
    unfold State.claims
    rw [List.map_map]
    exact (List.map_id _).symm ▸ (List.mergeSort_perm _ _).nodup_iff.mpr (nodup_eraseDups _)
  bound c hc := by
    obtain ⟨f, -, rfl⟩ := List.mem_map.mp hc
    exact le_rfl

/-- The state with the quanta, the carried fractions and the places of an assignment. -/
def State.withPlan (s : State) (a : Tab Nat × Tab Nat × Tab Nat) : State :=
  { s with disp := { s.disp with grants := a.1, carry := a.2.1, place := a.2.2 } }

theorem execQuantumAssignment_eq {s : State} (h : s.bell.closed = false) :
    execQuantumAssignment s = .next ((s.assign (s.claims.length + 1) s.claims).1.foldl
      (fun s e => if e.2 > 0 then s.traceGrant e.1 e.2 else s) (s.withPlan (s.assign (s.claims.length + 1) s.claims))) := by
  unfold execQuantumAssignment
  rw [h]
  rfl

/-- What the assignment of a bell leaves: quanta within each function's demand, placed on cores by R423; jobs, cores and hamlets
stand. -/
theorem execQuantumAssignment_grants {s : State} (h : s.bell.closed = false) :
    ∃ t, execQuantumAssignment s = .next t ∧ t.jobs = s.jobs ∧ t.cores = s.cores ∧ t.hamlets = s.hamlets ∧
      Within s.demand t.disp.grants ∧ t.disp.place = (s.placeAll t.disp.grants).place := by
  obtain ⟨hw, hplace⟩ := assign_eq_round s s.claims.length (claims_within s)
  refine ⟨_, execQuantumAssignment_eq h, ?_⟩
  generalize s.assign (s.claims.length + 1) s.claims = a at hw hplace ⊢
  have ht := traceGrants_untraced (s.withPlan a) a.1
  refine ⟨(jobs_of_untraced ht :), (cores_of_untraced ht :), (hamlets_of_untraced ht :), ?_, ?_⟩
  · rw [grants_of_untraced ht]
    exact hw
  · rw [grants_of_untraced ht, place_of_untraced ht]
    exact hplace

/-- No core is placed for a function without a quantum. -/
theorem placed_grant_pos {s : State} (hs : ∀ e ∈ s.jobs, e.2.r.fn < 4096) {given : Tab Nat} (hg : Within s.demand given) {k v : Nat}
    (hv : look (s.placeAll given).place k = some v) : 0 < lookD given 0 (v % 4096) := by
  refine (placeAll_backed (fun f hf => ?_) s).place k v hv
  obtain ⟨e, he, rfl⟩ := fn_of_demand_pos (hf.trans_le (hg f))
  exact hs e he

end Sys2Proof.Machine
end

section
/-! SUPPORT. What the end of a job leaves of cores and hamlets, and the retirement of a core (R430, R432, R433). -/

namespace Sys2Proof.Machine

/-! ### Operations of the media leave cores and hamlets alone -/

/-- The stream cores and the hamlets. -/
def State.seats (s : State) : Tab Core × Tab Hamlet := (s.cores, s.hamlets)

theorem seats_of_besides {s t : State} (h : t.besides = s.besides) : t.seats = s.seats := (congrArg State.seats h :)

section
variable {s t : State} (h : t.seats = s.seats)
include h
theorem cores_of_seats : t.cores = s.cores := (congrArg Prod.fst h :)
theorem hamlets_of_seats : t.hamlets = s.hamlets := (congrArg Prod.snd h :)
end

theorem seats_of_untraced {s t : State} (h : t.untraced = s.untraced) : t.seats = s.seats := (congrArg State.seats h :)

theorem setMedia_seats (s : State) (f : Media → Media) : (s.setMedia f).seats = s.seats := rfl

theorem setFn_seats (s : State) (f : Nat) (g : Fn → Fn) : (s.setFn f g).seats = s.seats := rfl

theorem ledger_seats (s : State) (n : Nat) : ({ s with ledger := n } : State).seats = s.seats := rfl

theorem queueErase_seats (s : State) (n : Nat) : (s.queueErase n).seats = s.seats := by
  unfold State.queueErase State.clearShares
  simp only [setMedia_seats]
  exact foldl_same State.seats (fun x d => setMedia_seats x _) _ s

theorem parkFree_seats (s : State) (p : Nat) : (s.parkFree p).seats = s.seats := by
  unfold State.parkFree
  dsimp only
  split
  · rfl
  · split
    · rfl
    · exact queueErase_seats _ _

theorem unparkKey_seats (s : State) (k : Nat) : (s.unparkKey k).seats = s.seats := by
  unfold State.unparkKey
  split
  · rfl
  · exact parkFree_seats _ _

theorem unparkZone_seats (s : State) (k : Nat) : (s.unparkZone k).seats = s.seats := by
  unfold State.unparkZone
  dsimp only
  split
  · exact (parkFree_seats _ _).trans (unparkKey_seats _ _)
  · exact unparkKey_seats _ _

theorem unpark_seats (s : State) (z : Nat) : (s.unpark z).seats = s.seats := by
  unfold State.unpark
  split <;> exact unparkZone_seats _ _

theorem queueParity_seats (s : State) (n r tenant : Nat) : (s.queueParity n r tenant).seats = s.seats :=
  foldl_same State.seats (fun x j => by dsimp only; split <;> rfl) _ s

theorem queueUnit_seats (s : State) (n pu cls tenant : Nat) : (s.queueUnit n pu cls tenant).seats = s.seats := by
  unfold State.queueUnit
  dsimp only
  split
  · rfl
  · split
    · exact queueParity_seats _ _ _ _
    · rfl

theorem queueUnits_seats (s : State) (n a b cls tenant : Nat) : (s.queueUnits n a b cls tenant).seats = s.seats :=
  foldl_same State.seats (fun _ _ => queueUnit_seats _ _ _ _ _) _ s

theorem store_seats (s : State) (z n lclass : Nat) (us : List StUnit) : (s.store z n lclass us).seats = s.seats := by
  have hu := unpark_seats s z
  unfold State.store
  dsimp only
  generalize s.unpark z = u at hu ⊢
  split
  · exact (queueUnits_seats _ _ _ _ _ _).trans hu
  · exact hu

/-- A job append refused changes nothing, and one accepted changes no core or hamlet (R361, R389). Its rate is settled before its
checks: a match on a rate not settled is one the kernel would evaluate. -/
theorem appendJob_seats {s t : State} {x : Job} {q : Req} {st a : Nat} (h : s.appendJob x q = some (st, a, t)) :
    t.seats = s.seats := by
  unfold State.appendJob at h
  cases hr : s.rate x.r.fn [(2, rqCount q.block * 4096)] with
  | barred =>
    simp only [hr] at h
    cases hf : s.reqFails x q.block 0 <;> simp only [hf] at h
    all_goals
      cases h
      rfl
  | wait =>
    simp only [hr] at h
    cases hf : s.reqFails x q.block 0 <;> simp only [hf, reduceCtorEq] at h
    cases h
    rfl
  | pay b =>
    simp only [hr] at h
    cases hf : s.reqFails x q.block 0 with
    | some f =>
      simp only [hf] at h
      cases h
      rfl
    | none =>
      simp only [hf, Option.ite_none_left_eq_some] at h
      obtain ⟨-, h⟩ := h
      cases h
      exact (store_seats ..).trans ((ledger_seats ..).trans (setFn_seats ..))

theorem resumeIfIdle_seats (s : State) (d : DieId) : (s.resumeIfIdle d).seats = s.seats := by
  unfold State.resumeIfIdle
  split
  · rfl
  · split
    · split <;> rfl
    · rfl

theorem dropSlices_seats (s : State) (p : Slice → Bool) : (s.dropSlices p).seats = s.seats :=
  foldl_same State.seats resumeIfIdle_seats _ _

theorem dropReads_seats (s : State) (p : SliceFor → Bool) : (s.dropReads p).seats = s.seats := dropSlices_seats _ _

/-! ### The end of a job (R339, R430) -/

theorem acceptAppends_seats (s : State) (j : Nat) : (s.acceptAppends j).seats = s.seats := by
  unfold State.acceptAppends
  split
  · refine foldl_same State.seats (fun y q => ?_) _ s
    split
    · exact appendJob_seats ‹_›
    · rfl
  · rfl

theorem dropJobReads_seats (s : State) (j : Nat) : (s.dropJobReads j).seats = s.seats := by
  unfold State.dropJobReads
  dsimp only
  split
  · rfl
  · exact dropReads_seats _ _

/-- A core without the items of a job. -/
def Core.without (j : Nat) (c : Core) : Core :=
  { c with ctx := c.ctx.filter fun x => x.job ≠ j, slot := c.slot.filter fun e => e.1 ≠ j, parked := c.parked.filter fun x => x.job ≠ j }

/-- A hamlet without the items of a job. -/
def Hamlet.without (j : Nat) (x : Hamlet) : Hamlet :=
  { x with ready := x.ready.filter fun e => e.1 ≠ j, entered := x.entered.filter fun e => e.1 ≠ j }

/-- Discarding a job's items takes them from every core and hamlet, and changes nothing else there. -/
theorem dropItems_seats (s : State) (j : Nat) : (s.dropItems j).seats =
    (mapV (fun _ c => c.without j) s.cores, mapV (fun _ x => x.without j) s.hamlets) := by
  have htrace : ∀ (x : State) (e h c : Nat) (i : Option Item), (x.trace e h c i 0 0).seats = x.seats := fun x e h c i =>
    seats_of_untraced (trace_untraced x e h c i 0 0)
  have hstart : ((s.acceptAppends j).dropJobReads j).seats = s.seats := (dropJobReads_seats _ _).trans (acceptAppends_seats _ _)
  unfold State.dropItems
  dsimp only
  generalize (s.acceptAppends j).dropJobReads j = u at hstart
  generalize hv : List.foldl _ u u.hamlets = v
  have hv' : v.seats = u.seats := hv ▸ foldl_same State.seats (fun x e => foldl_same State.seats (fun _ _ => htrace ..) _ x) _ u
  generalize hw : List.foldl _ v v.cores = w
  have hw' : w.seats = v.seats := hw ▸ foldl_same State.seats (fun x e => by
    refine (foldl_same State.seats (fun _ _ => htrace ..) _ _).trans ?_
    split
    · split
      · exact htrace ..
      · rfl
    · rfl) _ v
  have hws : w.seats = s.seats := (hw'.trans hv').trans hstart
  rw [← cores_of_seats hws, ← hamlets_of_seats hws]
  rfl

theorem dropItems_cores (s : State) (j : Nat) : (s.dropItems j).cores = mapV (fun _ c => c.without j) s.cores :=
  (congrArg Prod.fst (dropItems_seats s j) :)

theorem dropItems_hamlets (s : State) (j : Nat) : (s.dropItems j).hamlets = mapV (fun _ x => x.without j) s.hamlets :=
  (congrArg Prod.snd (dropItems_seats s j) :)

theorem dropScans_seats (s : State) (j : Nat) : (s.dropScans j).seats = s.seats := dropReads_seats s _

theorem look_mapV {α β : Type} (f : Nat → α → β) (t : Tab α) (k : Nat) : look (mapV f t) k = (look t k).map (f k) := by
  induction t with
  | nil => rfl
  | cons e t ih =>
    simp only [mapV, look]
    split
    · simp [*]
    · exact ih

/-- What keeps a hamlet's retired cores in each entry of the table keeps them in the entry that is read. -/
theorem gone_mapV {f : Nat → Hamlet → Hamlet} (hf : ∀ h x, (f h x).gone = x.gone) (t : Tab Hamlet) (h : Nat) :
    (lookD (mapV f t) Hamlet.fresh h).gone = (lookD t Hamlet.fresh h).gone := by
  unfold lookD
  rw [look_mapV]
  cases look t h with
  | none => rfl
  | some x => exact hf h x

theorem removeJob_cores (s : State) (j : Nat) : (s.removeJob j).cores = mapV (fun _ c => c.without j) s.cores := by
  unfold State.removeJob
  dsimp only
  rw [cores_of_seats (dropScans_seats _ j), dropItems_cores]

theorem removeJob_gone (s : State) (j h : Nat) : ((s.removeJob j).hamlet h).gone = (s.hamlet h).gone := by
  unfold State.removeJob State.hamlet
  dsimp only
  refine (gone_mapV (by intros; rfl) _ h).trans ?_
  rw [hamlets_of_seats (dropScans_seats _ j), dropItems_hamlets]
  exact gone_mapV (by intros; rfl) _ h

theorem core_removeJob (s : State) (j k : Nat) : (s.removeJob j).core k = (s.core k).without j := by
  unfold State.core
  rw [removeJob_cores, look_mapV]
  cases look s.cores k <;> rfl

/-- The end of a job takes its items from a core, or leaves the core alone (R430). -/
theorem core_endJob (s : State) (j : Nat) (d : Done) (k : Nat) :
    (s.endJob j d).core k = s.core k ∨ (s.endJob j d).core k = (s.core k).without j := by
  unfold State.endJob
  split
  · right
    dsimp only
    rw [core_of_cores (cores_of_seats (seats_of_besides (complete_besides ..))), core_removeJob]
    split <;> rfl
  · exact .inl rfl

theorem endJob_gone (s : State) (j : Nat) (d : Done) (h : Nat) : ((s.endJob j d).hamlet h).gone = (s.hamlet h).gone := by
  unfold State.endJob
  split
  · dsimp only
    rw [hamlet_of_hamlets (hamlets_of_seats (seats_of_besides (complete_besides ..))), removeJob_gone]
    split <;> rfl
  · rfl

theorem endJobs_gone (s : State) (l : List Nat) (d : Done) (h : Nat) :
    ((l.foldl (fun s j => s.endJob j d) s).hamlet h).gone = (s.hamlet h).gone :=
  foldl_same (fun x => (x.hamlet h).gone) (fun _ _ => endJob_gone ..) l s

/-- A core that left service: no physical core stands behind it, and it runs nothing. -/
def Core.Vacant (c : Core) : Prop := c.phys = none ∧ c.ctx = none

theorem endJobs_vacant {s : State} {k : Nat} (h : (s.core k).Vacant) (l : List Nat) (d : Done) :
    ((l.foldl (fun s j => s.endJob j d) s).core k).Vacant :=
  List.foldlRecOn (motive := fun x : State => (x.core k).Vacant) l _ h fun x hx j _ => by
    obtain ⟨hp, hc⟩ := hx
    rcases core_endJob x j d k with hk | hk <;> rw [hk]
    · exact ⟨hp, hc⟩
    · exact ⟨hp, by simp [Core.without, hc]⟩

/-! ### Retired cores (R432, R433) -/

/-- A physical core that is retired stays listed. -/
theorem retireCore_gone (s : State) (h p : Nat) : p ∈ ((s.retireCore h p).hamlet h).gone := by
  have hlist : p ∈ ((s.setHamlet h fun x => { x with gone := p :: x.gone }).hamlet h).gone := by simp
  unfold State.retireCore
  split
  · exact List.contains_iff_mem.mp ‹_›
  · dsimp only
    generalize (s.setHamlet h fun x => { x with gone := p :: x.gone }) = u at hlist ⊢
    split
    · exact hlist
    · split
      · rw [hamlet_setHamlet_same, hamlet_setCore]
        exact (endJobs_gone ..).symm ▸ hlist
      · rw [hamlet_setCore, endJobs_gone]
        split
        · rw [putBack_gone, hamlet_setCore, endJobs_gone]
          exact hlist
        · rw [hamlet_setCore, endJobs_gone]
          exact hlist

/-- The logical core that a retired physical core stood behind is vacant. -/
theorem retireCore_vacant {s : State} {h p l : Nat} (hp : p ∉ (s.hamlet h).gone)
    (hl : (List.range 16).find? (fun l => (s.core (h * 16 + l)).phys = some p) = some l) :
    ((s.retireCore h p).core (h * 16 + l)).Vacant := by
  unfold State.retireCore
  rw [if_neg (by simpa using hp)]
  dsimp only
  have hfind : (List.range 16).find? (fun l => ((s.setHamlet h fun x => { x with gone := p :: x.gone }).core (h * 16 + l)).phys =
    some p) = some l := hl
  rw [hfind]
  generalize (s.setHamlet h fun x => { x with gone := p :: x.gone }) = u
  dsimp only
  split
  · rw [core_setHamlet, core_setCore_same]
    exact ⟨rfl, rfl⟩
  · rw [core_setCore_same]
    refine endJobs_vacant ?_ _ _
    split
    · rw [core_putBack, core_setCore_same]
      exact ⟨rfl, rfl⟩
    · rw [core_setCore_same]
      exact ⟨rfl, rfl⟩

end Sys2Proof.Machine
end

section
/-! The dispatcher places, starts, parks and resumes items (O58). -/

namespace Sys2Proof.Machine

/-- A module's hamlets and physical cores bear numbers below 32 and 18 (R376, R432). -/
theorem execCoreRetire_eq {h p : Nat} (hh : h < 32) (hp : p < 18) (s : State) :
    execCoreRetire h p s = .next (s.retireCore h p) := by
  simp [execCoreRetire, hh, hp]

theorem execCoreSelfTest_passed {h p : Nat} (hh : h < 32) (hp : p < 18) (s : State) : execCoreSelfTest h p true s = .next s := by
  simp [execCoreSelfTest, hh, hp]

/-- A physical core that fails its test and runs no item is retired (R432). -/
theorem execCoreSelfTest_failed {h p : Nat} (hh : h < 32) (hp : p < 18) {s : State}
    (hidle : ∀ l < 16, (s.core (h * 16 + l)).phys = some p → (s.core (h * 16 + l)).ctx = none) :
    execCoreSelfTest h p false s = .next (s.retireCore h p) := by
  have hbusy : ((List.range 16).any fun l =>
      decide ((s.core (h * 16 + l)).phys = some p) && (s.core (h * 16 + l)).ctx.isSome) = false := by
    simp only [List.any_eq_false, List.mem_range, Bool.and_eq_true, decide_eq_true_eq, not_and]
    intro l hl hat
    simp [hidle l hl hat]
  simp only [execCoreSelfTest, hbusy]
  simp [hh, hp]

/-- Settles O58: each clause is the row's own equation, read by the laws of the state; the quanta are bounded by induction on the rounds
of R422 and R423. -/
theorem dispatching : Obligations.Dispatching := by
  refine ⟨fun s hopen => ?_, fun s c f step hw hs => ⟨fun p j i jb hc hp hj hf hl => ⟨fun hsl hn => ?_, fun hsl he => ?_⟩,
    fun y e hc hsl hn he => ?_, fun hstep hc => ?_, fun y jb hstep hc hsl hpk hj hf hl hn => ?_⟩, fun s c y hw hs hc => ?_,
    fun x j i => ?_, fun s h p hh hp hin => ⟨?_, ?_, fun hidle => ?_⟩⟩
  · obtain ⟨t, ht, hjobs, hcores, hhamlets, hgrants, hplace⟩ := execQuantumAssignment_grants hopen
    refine ⟨t, ht, hjobs, hcores, hhamlets, hgrants, fun hfn k v hv => ?_⟩
    rw [hplace] at hv
    exact placed_grant_pos hfn hgrants hv
  · refine ⟨_, execItemStart_of_slot hw hs hc hp hsl ((jobFn_of_look hj).trans hf) ((jobLive_of_look hj).trans hl) hn, ?_⟩
    rw [core_startItem (by exact hj)]
    simp [hf]
  · refine ⟨_, execItemStart_of_ready hw hs hc hp hsl he, ?_⟩
    rw [core_startItem (by simpa using hj)]
    simp
  · refine ⟨_, execSlotFill_of_ready hw hs hc hsl hn he, ?_⟩
    simp
  · subst hstep
    exact execQuantumEnd_goesOn hw hs hc
  · subst hstep
    refine ⟨_, execQuantumEnd_resumes hw hs hc hsl, ?_⟩
    rw [core_resumeItem hpk ((jobFn_of_look hj).trans hf) ((jobLive_of_look hj).trans hl) hn]
    exact ⟨rfl, rfl, rfl⟩
  · refine ⟨_, execQuantumEnd_unserved hw hs, ?_⟩
    obtain ⟨hctx, hparked⟩ := core_unslot (s.parkItem (coreNo c)) (coreNo c) none
    rw [hctx, hparked, core_parkItem hc]
    exact ⟨rfl, rfl⟩
  · have hg := fun n hn => freshCtx_rg x j i (n := n) hn
    exact ⟨rfl, hg 1 (by decide), hg 2 (by decide), hg 3 (by decide), hg 4 (by decide), hg 29 (by decide), hg 30 (by decide),
      hg 31 (by decide), fun n hn => freshCtx_rg_rest x j i hn, rfl, rfl, rfl, fun n => ⟨rfl, rfl, rfl, rfl, rfl, rfl, rfl⟩,
      rfl, rfl, rfl, rfl, rfl⟩
  · exact ⟨_, execCoreRetire_eq hh hp s, retireCore_gone s h p, fun l hl => retireCore_vacant hin hl⟩
  · exact execCoreSelfTest_passed hh hp s
  · exact ⟨_, execCoreSelfTest_failed hh hp hidle, retireCore_gone s h p⟩

end Sys2Proof.Machine
end

section
/-! SUPPORT. A stream core that issues an instruction: what the issue comes to once the word, the job and the registers are as
`Issues` says (R366, R370, R394, R396). -/

namespace Sys2Proof.Machine

/-- Products that land change P registers alone (R370). -/
theorem landed_same {β : Type} {p : Ctx → β} (hp : ∀ (x : Ctx) k v, p (x.setP k v) = p x) (l : List Prod) (x : Ctx) :
    p (l.foldl Ctx.landOne x) = p x :=
  List.foldlRecOn (motive := fun y => p y = p x) l Ctx.landOne rfl fun y hy q _ => (hp y q.p _).trans hy

@[simp] theorem landDue_job (x : Ctx) : x.landDue.job = x.job := landed_same (p := Ctx.job) (fun _ _ _ => rfl) _ x
@[simp] theorem landDue_pc (x : Ctx) : x.landDue.pc = x.pc := landed_same (p := Ctx.pc) (fun _ _ _ => rfl) _ x

theorem fetch_doneAddr (jb : Job) : jb.fetch doneAddr = none := by simp [Job.fetch, doneAddr]

/-- Execution that arrives in the code goes on there. -/
theorem arrive_inCode {jb : Job} {pc : Nat} (h : (jb.fetch pc).isSome = true) (t : State) (k : Nat) (y : Ctx) (n : Nat) :
    t.arrive k jb y pc n = t.setCtx k { y with pc := pc, cycle := y.cycle + n } := by
  have hpc : pc ≠ doneAddr := by
    rintro rfl
    simp [fetch_doneAddr] at h
  simp [State.arrive, hpc, h]

theorem carryOut_on {jb : Job} {x y : Ctx} (hg : GoesOn jb x y) (s t : State) (c : CoreId) (w : W32) :
    s.carryOut (coreNo c) jb x w (.on y t) = t.after c x y :=
  arrive_inCode hg t (coreNo c) (x.onward y).1 1

section
variable {s : State} {c : CoreId} {w : W32} {uses uses' : List (Bool × Nat)} {bad : Ctx → Bool} {f : Job → Ctx → Eff} {jb : Job} {x : Ctx}
  (hi : Issues s c w uses jb x)
include hi

theorem Issues.coreId_wf : c.wf = true := hi.1

/-- An instruction that issues has its effect, or raises ILLEGAL_INSTRUCTION where its fields are ill-formed (R394). -/
theorem Issues.issueInstr_eq (hu : uses' ⊆ uses) :
    s.issueInstr c w bad uses' f = .next (s.carryOut (coreNo c) jb x w (if bad x then .fault 1 0 else f jb x)) := by
  obtain ⟨hw, hlisted, hjob, hfetch, hfault, hhalt, ⟨x0, hctx, rfl⟩, hloads⟩ := hi
  have hready : ¬∃ l ∈ x0.landDue.loads, (l.wide, l.rd) ∈ uses' := fun ⟨l, hl, hmem⟩ => hloads l hl (hu hmem)
  have hruns : coreNo c ∉ jb.halted := by simpa using hhalt
  have hlook : look s.jobs x0.job = some jb := landDue_job x0 ▸ hjob
  have hword : jb.fetch x0.pc = some w := landDue_pc x0 ▸ hfetch
  simp [State.issueInstr, State.stopsAfter, hw, hctx, hlook, hword, hlisted, hfault, hruns, if_neg hready]

theorem Issues.next_of_on {y : Ctx} {t : State} (hu : uses' ⊆ uses) (hb : bad x = false) (hf : f jb x = .on y t) (hg : GoesOn jb x y) :
    s.issueInstr c w bad uses' f = .next (t.after c x y) := by
  rw [hi.issueInstr_eq hu, if_neg (by simp [hb]), hf, carryOut_on hg]

theorem Issues.next_of_fault (hu : uses' ⊆ uses) (h : bad x = true ∨ f jb x = .fault 1 0) :
    s.issueInstr c w bad uses' f = .next (s.coreFault (coreNo c) x (x.pc - 0x100000) w.toNat 1 0) := by
  have heff : (if bad x then .fault 1 0 else f jb x) = Eff.fault 1 0 := by
    split
    · rfl
    · exact h.resolve_left ‹_›
  rw [hi.issueInstr_eq hu, heff]
  rfl

end

end Sys2Proof.Machine
end

section
/-! Integer and CRC-32C instructions (R397 to R399; O12): the operations of Table 14.4 in the words of the statement, and the one form
all their rows have. -/

namespace Sys2Proof.Machine

/-! ### Operations -/

/-- A comparison writes 1 where it holds, else 0 (Table 14.4). -/
theorem flag_decide (p : Prop) [Decidable p] : flag (decide p) = if p then 1 else 0 := by simp [flag]

theorem flag_ne (a b : W64) : flag (a ≠ b) = if a = b then 0 else 1 := by simp [flag]

theorem ite_slt {α : Type} (a b : W64) (u v : α) : (if a.slt b then u else v) = if a.toInt < b.toInt then u else v := by
  simp [BitVec.slt_iff_toInt_lt]

theorem ite_ult {α : Type} (a b : W64) (u v : α) : (if a.ult b then u else v) = if a.toNat < b.toNat then u else v := by
  simp [BitVec.ult]

theorem opRor_eq (a b : W64) : opRor a b = (a >>> (b.toNat % 64)) ||| (a <<< (64 - b.toNat % 64)) := by
  simp [opRor, shAmt, BitVec.rotateRight_def]

/-- A sign-extended immediate compares as itself. -/
theorem toInt_simm (i : BitVec 16) : (simm i).toInt = i.toInt := BitVec.toInt_signExtend_of_le (by decide)

/-- The little-endian bytes of a number, by their places. -/
theorem toLe_eq_map (v n : Nat) : toLe v n = (List.range n).map fun k => BitVec.ofNat 8 (v / 256 ^ k) := by
  induction n generalizing v with
  | zero => rfl
  | succ n ih =>
    rw [toLe, ih, List.range_succ_eq_map, List.map_cons, List.map_map]
    simp [Function.comp_def, Nat.div_div_eq_div_mul, pow_succ']

/-- The low bytes of a register, least significant first (R399). -/
theorem toLe_eq_extract (b : W64) (n : Nat) : toLe b.toNat n = (List.range n).map fun k => b.extractLsb' (8 * k) 8 := by
  simp [toLe_eq_map, BitVec.extractLsb', Nat.shiftRight_eq_div_pow, pow_mul]

/-- The CRC-32C state in `a` advanced over the low `n` bytes of `b` (R399). -/
def crcOver (a b : W64) (n : Nat) : W64 :=
  (((List.range n).map fun k => b.extractLsb' (8 * k) 8).foldl crcByte (a.extractLsb' 0 32)).setWidth 64

theorem crcOver_eq (a b : W64) (n : Nat) : (crcFold (a.setWidth 32) (toLe b.toNat n)).setWidth 64 = crcOver a b n := by
  rw [toLe_eq_extract]
  rfl

/-! ### The form of the rows -/

/-- In `s`, `i` issues the word `w` using no register but `uses`, and on the registers of `x` it writes `v` into rd and nothing else. -/
def Computes (s : State) (c : CoreId) (w : W32) (uses : List (Bool × Nat)) (rd : Reg) (x : Ctx) (i : Instr) (v : W64) : Prop :=
  ∃ (bad : Ctx → Bool) (used : List (Bool × Nat)) (f : Ctx → W64), used ⊆ uses ∧ bad x = false ∧ f x = v ∧
    exec i s = s.issueInstr c w bad used fun _ y => .on (y.setG rd.toNat (f y)) s

section
variable {s : State} {c : CoreId} {w : W32} {rd rs1 rs2 : Reg} {x : Ctx} {i : Instr} {v : W64}

theorem Computes.next {uses : List (Bool × Nat)} {jb : Job} (h : Computes s c w uses rd x i v) (hi : Issues s c w uses jb x)
    (hg : GoesOn jb x (x.setG rd.toNat v)) : exec i s = .next (s.after c x (x.setG rd.toNat v)) := by
  obtain ⟨bad, used, f, hu, hb, rfl, he⟩ := h
  exact he.trans (hi.next_of_on hu hb rfl hg)

/-! A row of each format computes where its meaning `e` issues through the format's shared operation. -/

theorem computes_intR {fn : Nat} {f : W64 → W64 → W64} (e : CoreId → Reg → Reg → Reg → State → Res') (he : exec i s = e c rd rs1 rs2 s)
    (hm : e c rd rs1 rs2 s = s.intR c fn f rd rs1 rs2) (hv : f (x.rg rs1.toNat) (x.rg rs2.toNat) = v) :
    Computes s c (wR 0x01 rd rs1 rs2 fn) [useG rd, useG rs1, useG rs2] rd x i v :=
  ⟨_, _, fun y => f (y.rg rs1.toNat) (y.rg rs2.toNat), List.Subset.refl _, rfl, hv, he.trans hm⟩

theorem computes_intU {fn : Nat} {f : W64 → W64} (e : CoreId → Reg → Reg → Reg → State → Res') (hz : rs2 = 0)
    (he : exec i s = e c rd rs1 rs2 s) (hm : e c rd rs1 rs2 s = s.intU c fn f rd rs1 rs2) (hv : f (x.rg rs1.toNat) = v) :
    Computes s c (wR 0x01 rd rs1 rs2 fn) [useG rd, useG rs1, useG rs2] rd x i v :=
  ⟨_, _, fun y => f (y.rg rs1.toNat), by simp, by simp [hz, nonzero], hv, he.trans hm⟩

theorem computes_crc {fn n : Nat} (e : CoreId → Reg → Reg → Reg → State → Res') (he : exec i s = e c rd rs1 rs2 s)
    (hm : e c rd rs1 rs2 s = s.crcInstr c fn n rd rs1 rs2) :
    Computes s c (wR 0x0D rd rs1 rs2 fn) [useG rd, useG rs1, useG rs2] rd x i (crcOver (x.rg rs1.toNat) (x.rg rs2.toNat) n) :=
  ⟨_, _, fun y => (crcFold ((y.rg rs1.toNat).setWidth 32) (toLe (y.rg rs2.toNat).toNat n)).setWidth 64, List.Subset.refl _, rfl,
    crcOver_eq .., he.trans hm⟩

theorem computes_intI {op : Nat} {bad : Bool} {f : W64 → W64} {imm : BitVec 16} (e : CoreId → Reg → Reg → BitVec 16 → State → Res')
    (hb : bad = false) (he : exec i s = e c rd rs1 imm s) (hm : e c rd rs1 imm s = s.intI c op bad f rd rs1 imm)
    (hv : f (x.rg rs1.toNat) = v) : Computes s c (wI op rd rs1 imm) [useG rd, useG rs1] rd x i v :=
  ⟨_, _, fun y => f (y.rg rs1.toNat), List.Subset.refl _, hb, hv, he.trans hm⟩

theorem computes_cati {imm : BitVec 16} (hz : rs1 = 0) : Computes s c (wI 0x0B rd rs1 imm) [useG rd, useG rs1] rd x (.cati c rd rs1 imm)
    ((x.rg rd.toNat <<< 16) ||| imm.setWidth 64) :=
  ⟨_, _, fun y => y.rg rd.toNat <<< 16 ||| uimm imm, by simp, by simp [hz, nonzero], rfl, rfl⟩

/-- Where every row of a table computes, with its word and value, the row at hand does. -/
theorem computes_of_row {α : Type} {uses : List (Bool × Nat)} (word : Nat → W32) (val : α → W64) {l : List (Instr × Nat × α)}
    {n : Nat} {z : α} (h : (i, n, z) ∈ l) (hl : l.Forall fun e => Computes s c (word e.2.1) uses rd x e.1 (val e.2.2)) :
    Computes s c (word n) uses rd x i (val z) :=
  List.forall_iff_forall_mem.mp hl _ h

end

/-- Settles O12: every row of Table 14.4 issues its word and writes its result into rd alone; the rows differ in the operation. -/
theorem integerInstructions : Obligations.IntegerInstructions := by
  refine ⟨⟨fun s c rd rs1 rs2 jb x i fn v h hi hg => Computes.next ?_ hi hg,
    fun s c rd rs1 rs2 jb x i fn n h hi hg => Computes.next ?_ hi hg⟩, fun s c rd rs1 imm jb x i op v h hi hg => Computes.next ?_ hi hg⟩
  · rcases List.mem_append.mp h with h | h
    · exact computes_of_row (wR 0x01 rd rs1 rs2) id h
        ⟨computes_intR execAdd rfl rfl rfl, computes_intR execSub rfl rfl rfl, computes_intR execAnd_ rfl rfl rfl,
          computes_intR execOr_ rfl rfl rfl, computes_intR execXor rfl rfl rfl, computes_intR execAndn rfl rfl rfl,
          computes_intR execSll rfl rfl rfl, computes_intR execSrl rfl rfl rfl, computes_intR execSra rfl rfl rfl,
          computes_intR execRor rfl rfl (opRor_eq ..), computes_intR execSeq rfl rfl (flag_decide _),
          computes_intR execSne rfl rfl (flag_ne ..), computes_intR execSlt rfl rfl (flag_decide _),
          computes_intR execSltu rfl rfl (flag_decide _), computes_intR execMin rfl rfl (ite_slt ..),
          computes_intR execMax rfl rfl (ite_slt ..), computes_intR execMinu rfl rfl (ite_ult ..),
          computes_intR execMaxu rfl rfl (ite_ult ..)⟩
    · obtain ⟨hz, h⟩ := List.mem_ite_nil_right.mp h
      exact computes_of_row (wR 0x01 rd rs1 rs2) id h
        ⟨computes_intU execClz hz rfl rfl rfl, computes_intU execCtz hz rfl rfl rfl, computes_intU execPopc hz rfl rfl rfl,
          computes_intU execBswap hz rfl rfl rfl⟩
  · exact computes_of_row (wR 0x0D rd rs1 rs2) (crcOver (x.rg rs1.toNat) (x.rg rs2.toNat)) h
      ⟨computes_crc execCrc32cB rfl rfl, computes_crc execCrc32cH rfl rfl, computes_crc execCrc32cW rfl rfl,
        computes_crc execCrc32cD rfl rfl⟩
  · rcases List.mem_append.mp h with h | h
    · rcases List.mem_append.mp h with h | h
      · exact computes_of_row (wI · rd rs1 imm) id h
          ⟨computes_intI execAddi rfl rfl rfl rfl, computes_intI execAndi rfl rfl rfl rfl, computes_intI execOri rfl rfl rfl rfl,
            computes_intI execXori rfl rfl rfl rfl, computes_intI execSlti rfl rfl rfl (toInt_simm imm ▸ flag_decide _),
            computes_intI execSltiu rfl rfl rfl (flag_decide _)⟩
      · obtain ⟨hn, h⟩ := List.mem_ite_nil_right.mp h
        have hfine : decide (imm.toNat ≥ 64) = false := decide_eq_false (Nat.not_le.mpr hn)
        have hmod : imm.toNat % 64 = imm.toNat := Nat.mod_eq_of_lt hn
        exact computes_of_row (wI · rd rs1 imm) id h
          ⟨computes_intI execSlli hfine rfl rfl (congrArg (x.rg rs1.toNat <<< ·) hmod),
            computes_intI execSrli hfine rfl rfl (congrArg (x.rg rs1.toNat >>> ·) hmod),
            computes_intI execSrai hfine rfl rfl (congrArg (opSra _) hmod)⟩
    · obtain ⟨hz, h⟩ := List.mem_ite_nil_right.mp h
      exact computes_of_row (wI · rd rs1 imm) id h (computes_cati hz)

end Sys2Proof.Machine
end

section
/-! Special registers (R376, R417, Table 13.2; O15): what a read gives, what a write leaves, and what is not listed. -/

namespace Sys2Proof.Machine

/-! ### Reads -/

/-- CORE holds the logical core and the hamlet (Table 13.2). -/
theorem coreNo_fields {c : CoreId} (hw : c.wf = true) : coreNo c % 16 + coreNo c / 16 * 256 = c.core + 256 * c.hamlet := by
  obtain ⟨-, hcore⟩ : c.hamlet < 32 ∧ c.core < 16 := by simpa [CoreId.wf] using hw
  unfold coreNo
  omega

theorem foldl_add_eq_sum (g : Nat → Nat) (l : List Nat) : l.foldl (fun n k => n + g k) 0 = (l.map g).sum := by
  rw [List.sum_eq_foldl_nat, List.foldl_map]

/-- A number that Table 13.2 does not list has no value (R376). -/
theorem readSr_unlisted {n : Nat} (h : ¬(n ≤ 0x004 ∨ (0x008 ≤ n ∧ n ≤ 0x013) ∨ (0x018 ≤ n ∧ n ≤ 0x01B))) (s : State) (k : Nat) (jb : Job)
    (x : Ctx) : s.readSr k jb x n = none := by
  unfold State.readSr
  split
  case h_22 => rfl
  all_goals omega

/-! ### Writes -/

theorem srWritable_iff (n : Nat) : srWritable n = true ↔ n = 0x003 ∨ (0x008 ≤ n ∧ n ≤ 0x013) := by simp [srWritable]

theorem badAmode_eq_false {v : W64} (h : ((List.range 8).all fun k => bits v.toNat (2 * k + 1) (2 * k) ≠ 3) = true) :
    badAmode v = false := by
  simpa [badAmode] using h

/-- A loop register of a level that is not open does not change (R375). -/
theorem writeSr_closed {x : Ctx} {n : Nat} (hn : n ≠ 0x003) (h : x.ldepth ≤ n % 4) (v : W64) : x.writeSr n v = x := by
  simp [Ctx.writeSr, hn, h]

section
variable {x : Ctx} {d : Nat} (h4 : d < 4) (hd : d < x.ldepth)
include h4 hd

theorem writeSr_ls (v : W64) : x.writeSr (0x008 + d) v = { x with ls := putD x.ls 0 d v } := by
  have hm : (0x008 + d) % 4 = d := by omega
  simp [Ctx.writeSr, hm, hd.not_ge, show 0x008 + d ≠ 0x003 by omega, show 0x008 + d < 0x00C by omega]

theorem writeSr_le (v : W64) : x.writeSr (0x00C + d) v = { x with le := putD x.le 0 d v } := by
  have hm : (0x00C + d) % 4 = d := by omega
  simp [Ctx.writeSr, hm, hd.not_ge, show 0x00C + d ≠ 0x003 by omega, show 0x00C + d < 0x010 by omega]

theorem writeSr_lc (v : W64) : x.writeSr (0x010 + d) v = { x with lc := putD x.lc 0 d (v.setWidth 32) } := by
  have hm : (0x010 + d) % 4 = d := by omega
  simp [Ctx.writeSr, hm, hd.not_ge, show 0x010 + d ≠ 0x003 by omega, show ¬0x010 + d < 0x00C by omega]

end

/-- A write of `v` to special register `n` is well-formed and leaves `y`. -/
def WritesSr (x : Ctx) (v : W64) (n : Nat) (y : Ctx) : Prop :=
  srWritable n = true ∧ (n = 0x003 → badAmode v = false) ∧ x.writeSr n v = y

/-- The three registers of a loop level are written as R375 says. -/
theorem writesSr_level {x y : Ctx} {v : W64} {d n : Nat} (h4 : d < 4)
    (h : (n, y) ∈ if d < x.ldepth then [(0x008 + d, { x with ls := putD x.ls 0 d v }), (0x00C + d, { x with le := putD x.le 0 d v }),
        (0x010 + d, { x with lc := putD x.lc 0 d (v.setWidth 32) })]
      else [(0x008 + d, x), (0x00C + d, x), (0x010 + d, x)]) : WritesSr x v n y := by
  have hrow : ∀ {b : Nat} {z : Ctx}, b = 0x008 ∨ b = 0x00C ∨ b = 0x010 → x.writeSr (b + d) v = z → WritesSr x v (b + d) z :=
    fun hb hz => ⟨(srWritable_iff _).mpr (by omega), fun h3 => by omega, hz⟩
  split at h
  · next hd =>
    refine (List.forall_iff_forall_mem (p := fun e : Nat × Ctx => WritesSr x v e.1 e.2)).mp ?_ _ h
    exact ⟨hrow (by simp) (writeSr_ls h4 hd v), hrow (by simp) (writeSr_le h4 hd v), hrow (by simp) (writeSr_lc h4 hd v)⟩
  · next hd =>
    have hsame : ∀ {b : Nat}, b = 0x008 ∨ b = 0x00C ∨ b = 0x010 → WritesSr x v (b + d) x := fun hb =>
      hrow hb (writeSr_closed (by omega) (by omega) v)
    refine (List.forall_iff_forall_mem (p := fun e : Nat × Ctx => WritesSr x v e.1 e.2)).mp ?_ _ h
    exact ⟨hsame (by simp), hsame (by simp), hsame (by simp)⟩

/-! ### The two moves (R417) -/

section
variable {s : State} {c : CoreId} {jb : Job} {x : Ctx} {r : Reg} {sr : BitVec 12}

theorem execMfsr_listed {v : W64} (hi : Issues s c (wS 0x3D r 0 sr) [useG r] jb x)
    (hv : s.readSr (coreNo c) jb x sr.toNat = some v) (hg : GoesOn jb x (x.setG r.toNat v)) :
    execMfsr c r 0 sr s = .next (s.after c x (x.setG r.toNat v)) :=
  hi.next_of_on (List.Subset.refl _) rfl (by simp only [hv]) hg

theorem execMfsr_unlisted (hi : Issues s c (wS 0x3D r 0 sr) [useG r] jb x) (hv : s.readSr (coreNo c) jb x sr.toNat = none) :
    execMfsr c r 0 sr s = .next (s.coreFault (coreNo c) x (x.pc - 0x100000) (wS 0x3D r 0 sr).toNat 1 0) :=
  hi.next_of_fault (List.Subset.refl _) (.inr (by simp only [hv]))

theorem execMtsr_writes {y : Ctx} (hi : Issues s c (wS 0x3E r 0 sr) [useG r] jb x) (h : WritesSr x (x.rg r.toNat) sr.toNat y)
    (hg : GoesOn jb x y) : execMtsr c r 0 sr s = .next (s.after c x y) := by
  obtain ⟨hwritable, hamode, rfl⟩ := h
  refine hi.next_of_on (List.Subset.refl _) (by simp [nonzero, hwritable]) (if_neg ?_) hg
  simpa using hamode

theorem execMtsr_unwritable (hi : Issues s c (wS 0x3E r 0 sr) [useG r] jb x) (h : srWritable sr.toNat = false) :
    execMtsr c r 0 sr s = .next (s.coreFault (coreNo c) x (x.pc - 0x100000) (wS 0x3E r 0 sr).toNat 1 0) :=
  hi.next_of_fault (List.Subset.refl _) (.inl (by simp [h]))

end

/-- Settles O15: a read by the entry of Table 13.2 at hand, a write by the loop level it falls on. -/
theorem specialRegisters : Obligations.SpecialRegisters := by
  refine fun s c jb x r sr => ⟨fun v h hi hg => execMfsr_listed hi ?_ hg, fun y h hi hg => execMtsr_writes hi ?_ hg,
    fun h hi => execMfsr_unlisted hi (readSr_unlisted h ..), fun h hi => execMtsr_unwritable hi ?_⟩
  · refine (List.forall_iff_forall_mem (p := fun e : Nat × W64 => s.readSr (coreNo c) jb x e.1 = some e.2)).mp ?_ _ h
    exact ⟨rfl, rfl, congrArg (some <| BitVec.ofNat 64 ·) (coreNo_fields hi.coreId_wf), rfl, rfl, rfl, rfl, rfl, rfl, rfl, rfl, rfl, rfl,
      rfl, rfl, rfl, rfl, rfl, congrArg (some <| BitVec.ofNat 64 ·) (foldl_add_eq_sum _ _), rfl, rfl⟩
  · rcases List.mem_append.mp h with h | h
    · obtain ⟨hfields, h⟩ := List.mem_ite_nil_right.mp h
      obtain ⟨hn, rfl⟩ := Prod.ext_iff.mp (List.mem_singleton.mp h)
      exact ⟨(srWritable_iff _).mpr (.inl hn), fun _ => badAmode_eq_false hfields, if_pos hn⟩
    · obtain ⟨d, hd, h⟩ := List.mem_flatMap.mp h
      exact writesSr_level (List.mem_range.mp hd) h
  · exact Bool.eq_false_iff.mpr (mt (srWritable_iff _).mp h)

end Sys2Proof.Machine
end

section
/-! The queue, the state at delivery, the layout of a completion entry and of an instruction word (O1, O9, O10, O11). -/

namespace Sys2Proof.Machine

/-- Settles O1: `step` is defined by the queue's two cases. -/
theorem stepRunsFront : Obligations.StepRunsFront :=
  ⟨fun _ _ _ => rfl, fun s h => by simp only [step, h]⟩

/-- Refutes O9: ring numbers are not bounded in the statement, and ring 1024 of function 0 has the place `0 * 1024 + 1024` in the table,
where the admin ring of function 1 stands. -/
theorem not_resetState : ¬ Obligations.ResetState := by
  intro h
  obtain ⟨-, -, -, -, -, -, hsq, -⟩ := h
  exact absurd (hsq 0 1024) (by decide)

/-! ### Numbers in a record -/

/-- Bytes that spell the digits of `v` to base 256 read as `v`. -/
theorem le_of_digits (b : Bytes) (v : Nat) : ∀ (n k : Nat),
    (∀ i < n, byteAt b (k + i) = v / 256 ^ i % 256) → le b k n = v % 256 ^ n
  | 0, k, _ => by simp [le, Nat.mod_one]
  | n + 1, k, h => by
    have hrest : le b (k + 1) n = v / 256 % 256 ^ n := le_of_digits b (v / 256) n (k + 1) fun i hi => by
      rw [Nat.add_assoc, Nat.add_comm 1 i, h (i + 1) (by omega), Nat.div_div_eq_div_mul, Nat.pow_succ']
    have hhead : byteAt b k = v % 256 := by simpa using h 0 (by omega)
    rw [le, hrest, hhead, Nat.pow_succ', Nat.mod_mul]

/-- A byte of a record is the digit of the first field that covers it. -/
theorem byteAt_record {n k o len v : Nat} {fs : List (Nat × Nat × Nat)} (hk : k < n)
    (hf : (fs.find? fun f => f.1 ≤ k && k < f.1 + f.2.1) = some (o, len, v)) :
    byteAt (record n fs) k = v / 256 ^ (k - o) % 256 := by
  simp [byteAt, record, List.getD_eq_getElem?_getD, List.getElem?_map, List.getElem?_range hk, hf]

/-- A field of a record that no field before it covers reads back. -/
theorem le_record {n o len v : Nat} {fs : List (Nat × Nat × Nat)} (hn : o + len ≤ n)
    (hf : ∀ i < len, (fs.find? fun f => f.1 ≤ o + i && o + i < f.1 + f.2.1) = some (o, len, v)) :
    le (record n fs) o len = v % 256 ^ len :=
  le_of_digits _ v len o fun i hi => by rw [byteAt_record (by omega) (hf i hi), Nat.add_sub_cancel_left]

theorem length_record (n : Nat) (fs : List (Nat × Nat × Nat)) : (record n fs).length = n := by simp [record]

/-- The flags of byte 31 of a completion entry come apart again. -/
theorem bit_flags (a b c : Bool) : let v := b01 a + 2 * b01 b + 4 * b01 c
    bit (v % 256) 0 = a ∧ bit (v % 256) 1 = b ∧ bit (v % 256) 2 = c := by
  cases a <;> cases b <;> cases c <;> decide

/-- Settles O10: every field of the record reads back. -/
theorem completionLayout : Obligations.CompletionLayout := by
  intro s r c q k d logged b
  have field : ∀ {o len v}, o + len ≤ 32 → _ → le b o len = v % 256 ^ len := fun hn hf => le_record hn hf
  have hflags : byteAt b 31 = (b01 (k.posted / k.size % 2 = 0) + 2 * b01 d.ledger.isSome + 4 * b01 logged) % 256 :=
    (byteAt_record (n := 32) (o := 31) (k := 31) (by decide) rfl).trans (by rw [Nat.sub_self, Nat.pow_zero, Nat.div_one])
  obtain ⟨hphase, hcommitted, hlogged⟩ := bit_flags (k.posted / k.size % 2 = 0) d.ledger.isSome logged
  have hledger : le b 0 8 = _ := field (by decide) (by intro i hi; interval_cases i <;> rfl)
  refine ⟨length_record _ _, ?_, ?_, ?_, ?_, ?_, ?_, ?_, ?_, ?_, ?_⟩
  · intro n hn
    exact ⟨by rw [hledger, hn]; rfl, by rw [hflags, hcommitted, hn]; rfl⟩
  · intro hn
    refine ⟨by rw [hflags, hcommitted, hn]; rfl, ?_⟩
    rw [hledger, hn]
    simp [and_assoc]
  · exact field (by decide) (by intro i hi; interval_cases i <;> rfl)
  · rw [field (v := (s.resultOf c d.result).toNat) (by decide) (by intro i hi; interval_cases i <;> rfl)]
    exact Nat.mod_eq_of_lt (BitVec.isLt _)
  · exact field (by decide) (by intro i hi; interval_cases i <;> rfl)
  · rw [field (v := q.fetched % 65536) (by decide) (by intro i hi; interval_cases i <;> rfl)]
    exact Nat.mod_mod _ _
  · exact field (by decide) (by intro i hi; interval_cases i <;> rfl)
  · exact (byteAt_record (n := 32) (o := 30) (k := 30) (by decide) rfl).trans (by rw [Nat.sub_self, Nat.pow_zero, Nat.div_one])
  · rw [hflags, hphase]
  · rw [hflags, hlogged]

/-! ### Instruction words -/

/-- Concatenation places the left word above the right one. -/
theorem toNat_append_eq {m n : Nat} (x : BitVec m) (y : BitVec n) : (x ++ y).toNat = x.toNat * 2 ^ n + y.toNat := by
  rw [BitVec.toNat_append, ← Nat.shiftLeft_add_eq_or_of_lt y.isLt, Nat.shiftLeft_eq]

/-- A word of concatenated fields is the number its fields spell. -/
theorem wOp_eq {w : BitVec 32} {op low : Nat} (h : w.toNat = op * 2 ^ 26 + low) : wOp op low = w := by
  apply BitVec.eq_of_toNat_eq
  rw [wOp, BitVec.toNat_ofNat, ← h]
  exact Nat.mod_eq_of_lt w.isLt

theorem toNat_ofBool_eq (b : Bool) : (BitVec.ofBool b).toNat = b01 b := by cases b <;> decide

/-- Settles O11: each format spells the number of its fields. -/
theorem instructionWords : Obligations.InstructionWords := by
  refine ⟨?_, ?_, ?_, ?_, ?_, ?_, ?_⟩ <;> intros <;> apply wOp_eq <;>
    simp only [toNat_append_eq, toNat_ofBool_eq] <;> simp <;> omega
end Sys2Proof.Machine
end

section
/-! SUPPORT. Frames: which parts of the state an operation may change. `State.mask P` blanks the parts listed in `P`, so
`t.mask P = s.mask P` says that `t` is `s` but for those parts. -/

namespace Sys2Proof.Machine

/-- The parts of the state, one for each of its fields. -/
inductive Part where
  | pending | free | out | rdma | ledger | bell | err | boot | portA | portB | net | fns | sqs | cqs | sems | due | aborts
  | holds | cursors | zones | units | rand | media | staged | jobs | jobOrder | cores | hamlets | disp | sieve | dram | edc
  | loft | health | events | eventSeq | clk | pwr | life | tap | smbOff | act | ctlCores | ctlSpares
  deriving DecidableEq

/-- The state with the listed parts blank. -/
def State.mask (P : List Part) (s : State) : State where
  pending := if .pending ∈ P then State.reset.pending else s.pending
  free := if .free ∈ P then State.reset.free else s.free
  out := if .out ∈ P then State.reset.out else s.out
  rdma := if .rdma ∈ P then State.reset.rdma else s.rdma
  ledger := if .ledger ∈ P then State.reset.ledger else s.ledger
  bell := if .bell ∈ P then State.reset.bell else s.bell
  err := if .err ∈ P then State.reset.err else s.err
  boot := if .boot ∈ P then State.reset.boot else s.boot
  portA := if .portA ∈ P then State.reset.portA else s.portA
  portB := if .portB ∈ P then State.reset.portB else s.portB
  net := if .net ∈ P then State.reset.net else s.net
  fns := if .fns ∈ P then State.reset.fns else s.fns
  sqs := if .sqs ∈ P then State.reset.sqs else s.sqs
  cqs := if .cqs ∈ P then State.reset.cqs else s.cqs
  sems := if .sems ∈ P then State.reset.sems else s.sems
  due := if .due ∈ P then State.reset.due else s.due
  aborts := if .aborts ∈ P then State.reset.aborts else s.aborts
  holds := if .holds ∈ P then State.reset.holds else s.holds
  cursors := if .cursors ∈ P then State.reset.cursors else s.cursors
  zones := if .zones ∈ P then State.reset.zones else s.zones
  units := if .units ∈ P then State.reset.units else s.units
  rand := if .rand ∈ P then State.reset.rand else s.rand
  media := if .media ∈ P then State.reset.media else s.media
  staged := if .staged ∈ P then State.reset.staged else s.staged
  jobs := if .jobs ∈ P then State.reset.jobs else s.jobs
  jobOrder := if .jobOrder ∈ P then State.reset.jobOrder else s.jobOrder
  cores := if .cores ∈ P then State.reset.cores else s.cores
  hamlets := if .hamlets ∈ P then State.reset.hamlets else s.hamlets
  disp := if .disp ∈ P then State.reset.disp else s.disp
  sieve := if .sieve ∈ P then State.reset.sieve else s.sieve
  dram := if .dram ∈ P then State.reset.dram else s.dram
  edc := if .edc ∈ P then State.reset.edc else s.edc
  loft := if .loft ∈ P then State.reset.loft else s.loft
  health := if .health ∈ P then State.reset.health else s.health
  events := if .events ∈ P then State.reset.events else s.events
  eventSeq := if .eventSeq ∈ P then State.reset.eventSeq else s.eventSeq
  clk := if .clk ∈ P then State.reset.clk else s.clk
  pwr := if .pwr ∈ P then State.reset.pwr else s.pwr
  life := if .life ∈ P then State.reset.life else s.life
  tap := if .tap ∈ P then State.reset.tap else s.tap
  smbOff := if .smbOff ∈ P then State.reset.smbOff else s.smbOff
  act := if .act ∈ P then State.reset.act else s.act
  ctlCores := if .ctlCores ∈ P then State.reset.ctlCores else s.ctlCores
  ctlSpares := if .ctlSpares ∈ P then State.reset.ctlSpares else s.ctlSpares

variable {P Q : List Part} {s t : State}

theorem if_congr_of_subset {α : Type} {p : Part} (h : Q ⊆ P) {a b : α} : (if p ∈ P then a else if p ∈ Q then a else b) = if p ∈ P then a else b := by
  by_cases hp : p ∈ P
  · rw [if_pos hp, if_pos hp]
  · rw [if_neg hp, if_neg hp, if_neg fun hq => hp (h hq)]

/-- A wider frame allows what a narrower one does. -/
theorem mask_mono (h : Q ⊆ P) (e : t.mask Q = s.mask Q) : t.mask P = s.mask P := by
  have hid : ∀ x : State, (x.mask Q).mask P = x.mask P := fun x => by
    unfold State.mask
    congr 1 <;> exact if_congr_of_subset h
  rw [← hid t, e, hid]
theorem mask_pending (h : .pending ∈ P) (v) : State.mask P { s with pending := v } = s.mask P := by simp only [State.mask, h, if_true]
theorem mask_free (h : .free ∈ P) (v) : State.mask P { s with free := v } = s.mask P := by simp only [State.mask, h, if_true]
theorem mask_out (h : .out ∈ P) (v) : State.mask P { s with out := v } = s.mask P := by simp only [State.mask, h, if_true]
theorem mask_rdma (h : .rdma ∈ P) (v) : State.mask P { s with rdma := v } = s.mask P := by simp only [State.mask, h, if_true]
theorem mask_ledger (h : .ledger ∈ P) (v) : State.mask P { s with ledger := v } = s.mask P := by simp only [State.mask, h, if_true]
theorem mask_bell (h : .bell ∈ P) (v) : State.mask P { s with bell := v } = s.mask P := by simp only [State.mask, h, if_true]
theorem mask_err (h : .err ∈ P) (v) : State.mask P { s with err := v } = s.mask P := by simp only [State.mask, h, if_true]
theorem mask_boot (h : .boot ∈ P) (v) : State.mask P { s with boot := v } = s.mask P := by simp only [State.mask, h, if_true]
theorem mask_portA (h : .portA ∈ P) (v) : State.mask P { s with portA := v } = s.mask P := by simp only [State.mask, h, if_true]
theorem mask_portB (h : .portB ∈ P) (v) : State.mask P { s with portB := v } = s.mask P := by simp only [State.mask, h, if_true]
theorem mask_net (h : .net ∈ P) (v) : State.mask P { s with net := v } = s.mask P := by simp only [State.mask, h, if_true]
theorem mask_fns (h : .fns ∈ P) (v) : State.mask P { s with fns := v } = s.mask P := by simp only [State.mask, h, if_true]
theorem mask_sqs (h : .sqs ∈ P) (v) : State.mask P { s with sqs := v } = s.mask P := by simp only [State.mask, h, if_true]
theorem mask_cqs (h : .cqs ∈ P) (v) : State.mask P { s with cqs := v } = s.mask P := by simp only [State.mask, h, if_true]
theorem mask_sems (h : .sems ∈ P) (v) : State.mask P { s with sems := v } = s.mask P := by simp only [State.mask, h, if_true]
theorem mask_due (h : .due ∈ P) (v) : State.mask P { s with due := v } = s.mask P := by simp only [State.mask, h, if_true]
theorem mask_aborts (h : .aborts ∈ P) (v) : State.mask P { s with aborts := v } = s.mask P := by simp only [State.mask, h, if_true]
theorem mask_holds (h : .holds ∈ P) (v) : State.mask P { s with holds := v } = s.mask P := by simp only [State.mask, h, if_true]
theorem mask_cursors (h : .cursors ∈ P) (v) : State.mask P { s with cursors := v } = s.mask P := by simp only [State.mask, h, if_true]
theorem mask_zones (h : .zones ∈ P) (v) : State.mask P { s with zones := v } = s.mask P := by simp only [State.mask, h, if_true]
theorem mask_units (h : .units ∈ P) (v) : State.mask P { s with units := v } = s.mask P := by simp only [State.mask, h, if_true]
theorem mask_rand (h : .rand ∈ P) (v) : State.mask P { s with rand := v } = s.mask P := by simp only [State.mask, h, if_true]
theorem mask_media (h : .media ∈ P) (v) : State.mask P { s with media := v } = s.mask P := by simp only [State.mask, h, if_true]
theorem mask_staged (h : .staged ∈ P) (v) : State.mask P { s with staged := v } = s.mask P := by simp only [State.mask, h, if_true]
theorem mask_jobs (h : .jobs ∈ P) (v) : State.mask P { s with jobs := v } = s.mask P := by simp only [State.mask, h, if_true]
theorem mask_jobOrder (h : .jobOrder ∈ P) (v) : State.mask P { s with jobOrder := v } = s.mask P := by simp only [State.mask, h, if_true]
theorem mask_cores (h : .cores ∈ P) (v) : State.mask P { s with cores := v } = s.mask P := by simp only [State.mask, h, if_true]
theorem mask_hamlets (h : .hamlets ∈ P) (v) : State.mask P { s with hamlets := v } = s.mask P := by simp only [State.mask, h, if_true]
theorem mask_disp (h : .disp ∈ P) (v) : State.mask P { s with disp := v } = s.mask P := by simp only [State.mask, h, if_true]
theorem mask_sieve (h : .sieve ∈ P) (v) : State.mask P { s with sieve := v } = s.mask P := by simp only [State.mask, h, if_true]
theorem mask_dram (h : .dram ∈ P) (v) : State.mask P { s with dram := v } = s.mask P := by simp only [State.mask, h, if_true]
theorem mask_edc (h : .edc ∈ P) (v) : State.mask P { s with edc := v } = s.mask P := by simp only [State.mask, h, if_true]
theorem mask_loft (h : .loft ∈ P) (v) : State.mask P { s with loft := v } = s.mask P := by simp only [State.mask, h, if_true]
theorem mask_health (h : .health ∈ P) (v) : State.mask P { s with health := v } = s.mask P := by simp only [State.mask, h, if_true]
theorem mask_events (h : .events ∈ P) (v) : State.mask P { s with events := v } = s.mask P := by simp only [State.mask, h, if_true]
theorem mask_eventSeq (h : .eventSeq ∈ P) (v) : State.mask P { s with eventSeq := v } = s.mask P := by simp only [State.mask, h, if_true]
theorem mask_clk (h : .clk ∈ P) (v) : State.mask P { s with clk := v } = s.mask P := by simp only [State.mask, h, if_true]
theorem mask_pwr (h : .pwr ∈ P) (v) : State.mask P { s with pwr := v } = s.mask P := by simp only [State.mask, h, if_true]
theorem mask_life (h : .life ∈ P) (v) : State.mask P { s with life := v } = s.mask P := by simp only [State.mask, h, if_true]
theorem mask_tap (h : .tap ∈ P) (v) : State.mask P { s with tap := v } = s.mask P := by simp only [State.mask, h, if_true]
theorem mask_smbOff (h : .smbOff ∈ P) (v) : State.mask P { s with smbOff := v } = s.mask P := by simp only [State.mask, h, if_true]
theorem mask_act (h : .act ∈ P) (v) : State.mask P { s with act := v } = s.mask P := by simp only [State.mask, h, if_true]
theorem mask_ctlCores (h : .ctlCores ∈ P) (v) : State.mask P { s with ctlCores := v } = s.mask P := by simp only [State.mask, h, if_true]
theorem mask_ctlSpares (h : .ctlSpares ∈ P) (v) : State.mask P { s with ctlSpares := v } = s.mask P := by simp only [State.mask, h, if_true]

theorem mask_ite {c : Prop} [Decidable c] {x y : State} : (if c then x else y).mask P = if c then x.mask P else y.mask P := apply_ite ..

theorem mask_foldl {α : Type} {f : State → α → State} (hf : ∀ x a, (f x a).mask P = x.mask P) (l : List α) (x : State) :
    (l.foldl f x).mask P = x.mask P := foldl_same (State.mask P) hf l x

theorem mask_bell_boot (h : [.bell, .boot] ⊆ P) (v0 v1) :
    State.mask P { s with
        bell := v0, boot := v1 } = s.mask P := mask_mono h rfl
theorem mask_bell_clk_pwr (h : [.bell, .clk, .pwr] ⊆ P) (v0 v1 v2) :
    State.mask P { s with
        bell := v0, clk := v1, pwr := v2 } = s.mask P := mask_mono h rfl
theorem mask_bell_dram (h : [.bell, .dram] ⊆ P) (v0 v1) :
    State.mask P { s with
        bell := v0, dram := v1 } = s.mask P := mask_mono h rfl
theorem mask_bell_dram_pwr (h : [.bell, .dram, .pwr] ⊆ P) (v0 v1 v2) :
    State.mask P { s with
        bell := v0, dram := v1, pwr := v2 } = s.mask P := mask_mono h rfl
theorem mask_bell_sqs (h : [.bell, .sqs] ⊆ P) (v0 v1) :
    State.mask P { s with
        bell := v0, sqs := v1 } = s.mask P := mask_mono h rfl
theorem mask_boot_health_pwr (h : [.boot, .health, .pwr] ⊆ P) (v0 v1 v2) :
    State.mask P { s with
        boot := v0, health := v1, pwr := v2 } = s.mask P := mask_mono h rfl
theorem mask_boot_loft (h : [.boot, .loft] ⊆ P) (v0 v1) :
    State.mask P { s with
        boot := v0, loft := v1 } = s.mask P := mask_mono h rfl
theorem mask_boot_loft_life_act (h : [.boot, .loft, .life, .act] ⊆ P) (v0 v1 v2 v3) :
    State.mask P { s with
        boot := v0, loft := v1, life := v2, act := v3 } = s.mask P := mask_mono h rfl
theorem mask_boot_staged (h : [.boot, .staged] ⊆ P) (v0 v1) :
    State.mask P { s with
        boot := v0, staged := v1 } = s.mask P := mask_mono h rfl
theorem mask_cores_hamlets_disp (h : [.cores, .hamlets, .disp] ⊆ P) (v0 v1 v2) :
    State.mask P { s with
        cores := v0, hamlets := v1, disp := v2 } = s.mask P := mask_mono h rfl
theorem mask_cursors_zones_units_rand_staged (h : [.cursors, .zones, .units, .rand, .staged] ⊆ P) (v0 v1 v2 v3 v4) :
    State.mask P { s with
        cursors := v0, zones := v1, units := v2, rand := v3, staged := v4 } = s.mask P := mask_mono h rfl
theorem mask_disp_sieve (h : [.disp, .sieve] ⊆ P) (v0 v1) :
    State.mask P { s with
        disp := v0, sieve := v1 } = s.mask P := mask_mono h rfl
theorem mask_events_eventSeq (h : [.events, .eventSeq] ⊆ P) (v0 v1) :
    State.mask P { s with
        events := v0, eventSeq := v1 } = s.mask P := mask_mono h rfl
theorem mask_fns_sqs_cqs_holds (h : [.fns, .sqs, .cqs, .holds] ⊆ P) (v0 v1 v2 v3) :
    State.mask P { s with
        fns := v0, sqs := v1, cqs := v2, holds := v3 } = s.mask P := mask_mono h rfl
theorem mask_holds_cursors_zones_rand (h : [.holds, .cursors, .zones, .rand] ⊆ P) (v0 v1 v2 v3) :
    State.mask P { s with
        holds := v0, cursors := v1, zones := v2, rand := v3 } = s.mask P := mask_mono h rfl
theorem mask_holds_zones (h : [.holds, .zones] ⊆ P) (v0 v1) :
    State.mask P { s with
        holds := v0, zones := v1 } = s.mask P := mask_mono h rfl
theorem mask_jobs_hamlets (h : [.jobs, .hamlets] ⊆ P) (v0 v1) :
    State.mask P { s with
        jobs := v0, hamlets := v1 } = s.mask P := mask_mono h rfl
theorem mask_ledger_sieve (h : [.ledger, .sieve] ⊆ P) (v0 v1) :
    State.mask P { s with
        ledger := v0, sieve := v1 } = s.mask P := mask_mono h rfl
theorem mask_ledger_units_sieve (h : [.ledger, .units, .sieve] ⊆ P) (v0 v1 v2) :
    State.mask P { s with
        ledger := v0, units := v1, sieve := v2 } = s.mask P := mask_mono h rfl
theorem mask_life_tap (h : [.life, .tap] ⊆ P) (v0 v1) :
    State.mask P { s with
        life := v0, tap := v1 } = s.mask P := mask_mono h rfl
theorem mask_loft_ctlCores_ctlSpares (h : [.loft, .ctlCores, .ctlSpares] ⊆ P) (v0 v1 v2) :
    State.mask P { s with
        loft := v0, ctlCores := v1, ctlSpares := v2 } = s.mask P := mask_mono h rfl
theorem mask_loft_health (h : [.loft, .health] ⊆ P) (v0 v1) :
    State.mask P { s with
        loft := v0, health := v1 } = s.mask P := mask_mono h rfl
theorem mask_loft_pwr (h : [.loft, .pwr] ⊆ P) (v0 v1) :
    State.mask P { s with
        loft := v0, pwr := v1 } = s.mask P := mask_mono h rfl
theorem mask_media_dram (h : [.media, .dram] ⊆ P) (v0 v1) :
    State.mask P { s with
        media := v0, dram := v1 } = s.mask P := mask_mono h rfl
theorem mask_net_clk (h : [.net, .clk] ⊆ P) (v0 v1) :
    State.mask P { s with
        net := v0, clk := v1 } = s.mask P := mask_mono h rfl
theorem mask_net_sqs_cqs_sems (h : [.net, .sqs, .cqs, .sems] ⊆ P) (v0 v1 v2 v3) :
    State.mask P { s with
        net := v0, sqs := v1, cqs := v2, sems := v3 } = s.mask P := mask_mono h rfl
theorem mask_out_net (h : [.out, .net] ⊆ P) (v0 v1) :
    State.mask P { s with
        out := v0, net := v1 } = s.mask P := mask_mono h rfl
theorem mask_portA_portB (h : [.portA, .portB] ⊆ P) (v0 v1) :
    State.mask P { s with
        portA := v0, portB := v1 } = s.mask P := mask_mono h rfl
theorem mask_rdma_bell_portA_portB_net_sqs_due_aborts_pwr_life_act (h : [.rdma, .bell, .portA, .portB, .net, .sqs, .due,
    .aborts, .pwr, .life, .act] ⊆ P) (v0 v1 v2 v3 v4 v5 v6 v7 v8 v9 v10) :
    State.mask P { s with
        rdma := v0, bell := v1, portA := v2, portB := v3, net := v4, sqs := v5, due := v6, aborts := v7, pwr := v8, life :=
        v9, act := v10 } = s.mask P := mask_mono h rfl
theorem mask_rdma_boot_portA_portB_pwr (h : [.rdma, .boot, .portA, .portB, .pwr] ⊆ P) (v0 v1 v2 v3 v4) :
    State.mask P { s with
        rdma := v0, boot := v1, portA := v2, portB := v3, pwr := v4 } = s.mask P := mask_mono h rfl
theorem mask_rdma_due_aborts (h : [.rdma, .due, .aborts] ⊆ P) (v0 v1 v2) :
    State.mask P { s with
        rdma := v0, due := v1, aborts := v2 } = s.mask P := mask_mono h rfl
theorem mask_rdma_sqs_due_aborts (h : [.rdma, .sqs, .due, .aborts] ⊆ P) (v0 v1 v2 v3) :
    State.mask P { s with
        rdma := v0, sqs := v1, due := v2, aborts := v3 } = s.mask P := mask_mono h rfl
theorem mask_sqs_cqs (h : [.sqs, .cqs] ⊆ P) (v0 v1) :
    State.mask P { s with
        sqs := v0, cqs := v1 } = s.mask P := mask_mono h rfl
theorem mask_units_staged (h : [.units, .staged] ⊆ P) (v0 v1) :
    State.mask P { s with
        units := v0, staged := v1 } = s.mask P := mask_mono h rfl
theorem mask_zones_rand (h : [.zones, .rand] ⊆ P) (v0 v1) :
    State.mask P { s with
        zones := v0, rand := v1 } = s.mask P := mask_mono h rfl

/-- Where `o` answers a next state, it is `s` but for the parts in `P`. -/
def Leaves (P : List Part) (s : State) (o : Res') : Prop := ∀ t, o = .next t → t.mask P = s.mask P
theorem leaves_next : Leaves P s (.next t) ↔ t.mask P = s.mask P := ⟨fun h => h _ rfl, fun h _ e => by cases e; exact h⟩
theorem leaves_fault {e : Fault} : Leaves P s (.fault e) := fun _ h => nomatch h
theorem leaves_ite {c : Prop} [Decidable c] {x y : Res'} : Leaves P s (if c then x else y) ↔ if c then Leaves P s x else
    Leaves P s y := by split <;> rfl

theorem mask_of_ite {c : Prop} [Decidable c] {a b : State} {x : State} (ha : a.mask P = x) (hb : b.mask P = x) :
    (if c then a else b).mask P = x := by
  split
  · exact ha
  · exact hb
theorem leaves_of_ite {c : Prop} [Decidable c] {x y : Res'} (hx : Leaves P s x) (hy : Leaves P s y) :
    Leaves P s (if c then x else y) := by
  split
  · exact hx
  · exact hy

theorem Leaves.mono {o : Res'} (hl : Leaves Q s o) (h : Q ⊆ P) : Leaves P s o := fun _ e => mask_mono h (hl _ e)
end Sys2Proof.Machine
end

section
/-! SUPPORT. Frames of the operations: for each, the parts of the state it may change. A lemma `op_mask` is for an operation on the state,
a lemma `row_leaves` for a row of the model. -/

namespace Sys2Proof.Machine

set_option linter.all false
variable {P Q : List Part} {s t : State}
theorem loftRecord_mask (h : [.loft] ⊆ P) (a b c) :
    (State.loftRecord s a b c).mask P = s.mask P := mask_mono h <| by
  simp +decide only [State.loftRecord, mask_loft, mask_ite, ite_self, mask_foldl, implies_true]
theorem flushLoft_mask (h : [.loft] ⊆ P)  :
    (State.flushLoft s).mask P = s.mask P := mask_mono h <| by
  simp +decide only [State.flushLoft, mask_loft, mask_ite, ite_self, mask_foldl, implies_true]
theorem setLoft_mask (h : [.loft] ⊆ P) (a) :
    (State.setLoft s a).mask P = s.mask P := mask_mono h <| by
  simp +decide only [State.setLoft, mask_loft, mask_ite, ite_self, mask_foldl, implies_true]
theorem putWords_mask (h : [.loft] ⊆ P) (a b) :
    (State.putWords s a b).mask P = s.mask P := mask_mono h <| by
  simp +decide only [State.putWords, setLoft_mask, mask_ite, ite_self, mask_foldl, implies_true]
theorem tearSector_mask (h : [.free, .loft] ⊆ P) (a) :
    (State.tearSector s a).mask P = s.mask P := mask_mono h <| by
  simp +decide only [State.tearSector, putWords_mask, mask_free, mask_ite, ite_self, mask_foldl, implies_true]
theorem abortErase_mask (h : [.free, .loft] ⊆ P) (a) :
    (State.abortErase s a).mask P = s.mask P := mask_mono h <| by
  unfold State.abortErase
  repeat' split
  all_goals simp +decide only [setLoft_mask, tearSector_mask, mask_ite, ite_self, mask_foldl, implies_true]
theorem zeroKeys_mask (h : [.free, .loft] ⊆ P) (a) :
    (State.zeroKeys s a).mask P = s.mask P := mask_mono h <| by
  simp +decide only [State.zeroKeys, setLoft_mask, abortErase_mask, flushLoft_mask, mask_ite, ite_self, mask_foldl,
      implies_true]
theorem setPwr_mask (h : [.pwr] ⊆ P) (a) :
    (State.setPwr s a).mask P = s.mask P := mask_mono h <| by
  simp +decide only [State.setPwr, mask_pwr, mask_ite, ite_self, mask_foldl, implies_true]
theorem wakeUp_mask (h : [.pwr] ⊆ P)  :
    (State.wakeUp s).mask P = s.mask P := mask_mono h <| by
  simp +decide only [State.wakeUp, setPwr_mask, mask_ite, ite_self, mask_foldl, implies_true]
theorem setPort_mask (h : [.portA, .portB] ⊆ P) (a b) : (s.setPort a b).mask P = s.mask P := mask_mono h <| by
  cases a <;> rfl
theorem setFn_mask (h : [.fns] ⊆ P) (a b) :
    (State.setFn s a b).mask P = s.mask P := mask_mono h <| by
  simp +decide only [State.setFn, mask_fns, mask_ite, ite_self, mask_foldl, implies_true]
theorem setSq_mask (h : [.sqs] ⊆ P) (a b c) :
    (State.setSq s a b c).mask P = s.mask P := mask_mono h <| by
  simp +decide only [State.setSq, mask_sqs, mask_ite, ite_self, mask_foldl, implies_true]
theorem setCq_mask (h : [.cqs] ⊆ P) (a b c) :
    (State.setCq s a b c).mask P = s.mask P := mask_mono h <| by
  simp +decide only [State.setCq, mask_cqs, mask_ite, ite_self, mask_foldl, implies_true]
theorem setZone_mask (h : [.zones] ⊆ P) (a b) :
    (State.setZone s a b).mask P = s.mask P := mask_mono h <| by
  simp +decide only [State.setZone, mask_zones, mask_ite, ite_self, mask_foldl, implies_true]
theorem setCmd_mask (h : [.sqs] ⊆ P) (a b) :
    (State.setCmd s a b).mask P = s.mask P := mask_mono h <| by
  simp +decide only [State.setCmd, setSq_mask, mask_ite, ite_self, mask_foldl, implies_true]
theorem tell_mask (h : [.out] ⊆ P) (a) :
    (State.tell s a).mask P = s.mask P := mask_mono h <| by
  simp +decide only [State.tell, mask_out, mask_ite, ite_self, mask_foldl, implies_true]
theorem unpause_mask (h : [.out] ⊆ P) (a) :
    (State.unpause s a).mask P = s.mask P := mask_mono h <| by
  simp +decide only [State.unpause, mask_out, mask_ite, ite_self, mask_foldl, implies_true]
theorem issue_mask (h : [.out, .rdma] ⊆ P) (a) :
    (State.issue s a).mask P = s.mask P := mask_mono h <| by
  simp +decide only [State.issue, tell_mask, mask_rdma, mask_ite, ite_self, mask_foldl, implies_true]
theorem progress_mask (h : [.fns] ⊆ P) (a) : (s.progress a).mask P = s.mask P := mask_mono h <| by
  unfold State.progress
  split
  · exact setFn_mask (by decide) ..
  · rfl
theorem asPosted_mask (h : [.cqs] ⊆ P) (a) : (s.asPosted a).2.mask P = s.mask P := mask_mono h <| by
  unfold State.asPosted
  repeat' split
  all_goals rfl
theorem retryAt_mask (h : [.out, .rdma, .cqs] ⊆ P) (a b) :
    (s.retryAt a b).mask P = s.mask P := mask_mono h <| by
  unfold State.retryAt
  split
  · split
    · rfl
    · split
      · exact (tell_mask (by decide) _).trans ((mask_rdma (by decide) _).trans (asPosted_mask (by decide) _))
      · rfl
  · rfl
theorem retry_mask (h : [.out, .rdma, .cqs] ⊆ P) (a) :
    (State.retry s a).mask P = s.mask P := mask_mono h <| by
  simp +decide only [State.retry, retryAt_mask, mask_ite, ite_self, mask_foldl, implies_true]
theorem answered_mask (h : [.out, .rdma, .fns, .cqs] ⊆ P) (a b) :
    (State.answered s a b).mask P = s.mask P := mask_mono h <| by
  unfold State.answered
  repeat' split
  all_goals simp +decide only [retry_mask, progress_mask, mask_rdma, mask_ite, ite_self, mask_foldl, implies_true]
theorem notify_mask (h : [.out, .rdma] ⊆ P) (a b) :
    (State.notify s a b).mask P = s.mask P := mask_mono h <| by
  simp +decide only [State.notify, issue_mask, mask_ite, ite_self, mask_foldl, implies_true]
theorem eventAt_mask (h : [.out, .rdma, .bell, .loft, .events, .eventSeq] ⊆ P) (a b c d e) :
    (State.eventAt s a b c d e).mask P = s.mask P := mask_mono h <| by
  simp +decide only [State.eventAt, notify_mask, loftRecord_mask, mask_events_eventSeq, mask_bell, mask_ite, ite_self,
      mask_foldl, implies_true]
theorem event_mask (h : [.out, .rdma, .bell, .loft, .events, .eventSeq] ⊆ P) (a b c d) :
    (State.event s a b c d).mask P = s.mask P := mask_mono h <| by
  simp +decide only [State.event, eventAt_mask, mask_ite, ite_self, mask_foldl, implies_true]
theorem movePort_mask (h : [.out, .rdma, .bell, .portA, .portB, .net, .loft, .events, .eventSeq] ⊆ P) (a b c) :
    (State.movePort s a b c).mask P = s.mask P := mask_mono h <| by
  simp +decide only [State.movePort, setPort_mask, event_mask, mask_out_net, mask_ite, ite_self, mask_foldl, implies_true]
theorem qpError_mask (h : [.out, .rdma, .bell, .net, .fns, .loft, .events, .eventSeq] ⊆ P) (a b c) :
    (State.qpError s a b c).mask P = s.mask P := mask_mono h <| by
  simp +decide only [State.qpError, event_mask, setFn_mask, mask_net, mask_ite, ite_self, mask_foldl, implies_true]
theorem noteMaps_mask (h : [.media] ⊆ P)  :
    (State.noteMaps s).mask P = s.mask P := mask_mono h <| by
  simp +decide only [State.noteMaps, mask_media, mask_ite, ite_self, mask_foldl, implies_true]
theorem journalRec_mask (h : [.media, .dram] ⊆ P) (a) :
    (State.journalRec s a).mask P = s.mask P := mask_mono h <| by
  simp +decide only [State.journalRec, noteMaps_mask, mask_media_dram, mask_ite, ite_self, mask_foldl, implies_true]
theorem sendDue_mask (h : [.out, .rdma, .cqs] ⊆ P) (a b) :
    (State.sendDue s a b).mask P = s.mask P := mask_mono h <| by
  unfold State.sendDue
  repeat' split
  all_goals simp +decide only [notify_mask, setCq_mask, mask_ite, ite_self, mask_foldl, implies_true]
theorem fenceFor_mask (h : [.zones] ⊆ P) (a b c) :
    (State.fenceFor s a b c).mask P = s.mask P := mask_mono h <| by
  simp +decide only [State.fenceFor, setZone_mask, mask_ite, ite_self, mask_foldl, implies_true]
theorem logFailure_mask (h : [.sqs] ⊆ P) (a b c d) : (s.logFailure a b c d).1.mask P = s.mask P := mask_mono h <| by
  unfold State.logFailure
  split
  · exact setSq_mask (by decide) ..
  · rfl
theorem post_mask (h : [.out, .rdma, .sqs, .cqs, .aborts, .zones] ⊆ P) (a b) : (s.post a b).mask P = s.mask P := mask_mono h
    <| by
  unfold State.post
  split
  · dsimp only
    split
    · rfl
    · simp +decide only [issue_mask, mask_aborts, setCq_mask, setSq_mask, fenceFor_mask, logFailure_mask]
  · rfl
theorem postEnded_mask (h : [.out, .rdma, .sqs, .cqs, .aborts, .zones] ⊆ P) (a b) : ∀ (c) (s : State),
    (State.postEnded a b c s).mask P = s.mask P
  | 0, _ => rfl
  | c + 1, s => by
    unfold State.postEnded
    repeat' split
    · exact (postEnded_mask h a b c _).trans (post_mask h ..)
    all_goals rfl
theorem complete_mask (h : [.out, .rdma, .sqs, .cqs, .aborts, .zones] ⊆ P) (a b) :
    (State.complete s a b).mask P = s.mask P := mask_mono h <| by
  unfold State.complete
  repeat' split
  all_goals simp +decide only [post_mask, setCmd_mask, postEnded_mask, mask_ite, ite_self, mask_foldl, implies_true]
theorem fail_mask (h : [.out, .rdma, .sqs, .cqs, .aborts, .zones] ⊆ P) (a b c) :
    (State.fail s a b c).mask P = s.mask P := mask_mono h <| by
  simp +decide only [State.fail, complete_mask, mask_ite, ite_self, mask_foldl, implies_true]
theorem failCheck_mask (h : [.out, .rdma, .sqs, .cqs, .aborts, .zones] ⊆ P) (a b c d) :
    (State.failCheck s a b c d).mask P = s.mask P := mask_mono h <| by
  unfold State.failCheck
  repeat' split
  all_goals simp +decide only [setCmd_mask, complete_mask, mask_ite, ite_self, mask_foldl, implies_true]
theorem succeed_mask (h : [.out, .rdma, .ledger, .sqs, .cqs, .aborts, .zones] ⊆ P) (a b) :
    (State.succeed s a b).mask P = s.mask P := mask_mono h <| by
  simp +decide only [State.succeed, complete_mask, State.commit, mask_ledger, mask_ite, ite_self, mask_foldl, implies_true]
theorem atPoint_mask (h : [.sqs] ⊆ P) (a b) :
    (State.atPoint s a b).mask P = s.mask P := mask_mono h <| by
  simp +decide only [State.atPoint, setCmd_mask, mask_ite, ite_self, mask_foldl, implies_true]
theorem setMedia_mask (h : [.media] ⊆ P) (a) :
    (State.setMedia s a).mask P = s.mask P := mask_mono h <| by
  simp +decide only [State.setMedia, mask_media, mask_ite, ite_self, mask_foldl, implies_true]
theorem setDie_mask (h : [.media] ⊆ P) (a b) :
    (State.setDie s a b).mask P = s.mask P := mask_mono h <| by
  simp +decide only [State.setDie, setMedia_mask, mask_ite, ite_self, mask_foldl, implies_true]
theorem setGroup_mask (h : [.media] ⊆ P) (a b c) :
    (State.setGroup s a b c).mask P = s.mask P := mask_mono h <| by
  simp +decide only [State.setGroup, setMedia_mask, mask_ite, ite_self, mask_foldl, implies_true]
theorem setChan_mask (h : [.media] ⊆ P) (a b) :
    (State.setChan s a b).mask P = s.mask P := mask_mono h <| by
  simp +decide only [State.setChan, setMedia_mask, mask_ite, ite_self, mask_foldl, implies_true]
theorem setMem_mask (h : [.media] ⊆ P) (a b c d) :
    (State.setMem s a b c d).mask P = s.mask P := mask_mono h <| by
  simp +decide only [State.setMem, setMedia_mask, mask_ite, ite_self, mask_foldl, implies_true]
theorem setWard_mask (h : [.media] ⊆ P) (a b) :
    (State.setWard s a b).mask P = s.mask P := mask_mono h <| by
  simp +decide only [State.setWard, setMedia_mask, mask_ite, ite_self, mask_foldl, implies_true]
theorem setSlot_mask (h : [.media] ⊆ P) (a b) :
    (State.setSlot s a b).mask P = s.mask P := mask_mono h <| by
  simp +decide only [State.setSlot, setMedia_mask, mask_ite, ite_self, mask_foldl, implies_true]
theorem setBlock_mask (h : [.media] ⊆ P) (a b c d) :
    (State.setBlock s a b c d).mask P = s.mask P := mask_mono h <| by
  simp +decide only [State.setBlock, setMedia_mask, mask_ite, ite_self, mask_foldl, implies_true]
theorem moveChan_mask (h : [.out, .rdma, .bell, .media, .loft, .events, .eventSeq] ⊆ P) (a b) :
    (State.moveChan s a b).mask P = s.mask P := mask_mono h <| by
  simp +decide only [State.moveChan, setChan_mask, event_mask, mask_ite, ite_self, mask_foldl, implies_true]
theorem prepNext_mask (h : [.media] ⊆ P) (a) :
    (State.prepNext s a).mask P = s.mask P := mask_mono h <| by
  unfold State.prepNext
  dsimp only
  repeat' split
  all_goals simp +decide only [setMedia_mask, setDie_mask, mask_ite, ite_self, mask_foldl, implies_true]
theorem nameSpare_mask (h : [.out, .rdma, .bell, .media, .dram, .loft, .events, .eventSeq] ⊆ P) (a b c) :
    (State.nameSpare s a b c).mask P = s.mask P := mask_mono h <| by
  unfold State.nameSpare
  repeat' split
  all_goals simp +decide only [moveChan_mask, setDie_mask, journalRec_mask, prepNext_mask, setMem_mask, event_mask, mask_ite,
      ite_self, mask_foldl, implies_true]
theorem joinParity_mask (h : [.media] ⊆ P) (a b c) :
    (State.joinParity s a b c).mask P = s.mask P := mask_mono h <| by
  simp +decide only [State.joinParity, setMedia_mask, mask_ite, ite_self, mask_foldl, implies_true]
theorem clearShares_mask (h : [.media] ⊆ P) (a) :
    (State.clearShares s a).mask P = s.mask P := mask_mono h <| by
  simp +decide only [State.clearShares, setMedia_mask, mask_ite, ite_self, mask_foldl, implies_true]
theorem queueParity_mask (h : [.media, .staged] ⊆ P) (a b c) :
    (State.queueParity s a b c).mask P = s.mask P := mask_mono h <| by
  simp +decide only [State.queueParity, setMedia_mask, mask_staged, mask_ite, ite_self, mask_foldl, implies_true]
theorem rowStep_mask (h : [.media, .staged] ⊆ P) (a b c) :
    (State.rowStep s a b c).mask P = s.mask P := mask_mono h <| by
  simp +decide only [State.rowStep, queueParity_mask, mask_ite, ite_self, mask_foldl, implies_true]
theorem loseUnits_mask (h : [.media] ⊆ P) (a b c) :
    (State.loseUnits s a b c).mask P = s.mask P := mask_mono h <| by
  simp +decide only [State.loseUnits, setMedia_mask, mask_ite, ite_self, mask_foldl, implies_true]
theorem redirect_mask (h : [.media] ⊆ P) (a b c d e) :
    (State.redirect s a b c d e).mask P = s.mask P := mask_mono h <| by
  simp +decide only [State.redirect, setMedia_mask, mask_ite, ite_self, mask_foldl, implies_true]
theorem opEnds_mask (h : [.media] ⊆ P) (a) :
    (State.opEnds s a).mask P = s.mask P := mask_mono h <| by
  simp +decide only [State.opEnds, setMedia_mask, setDie_mask, mask_ite, ite_self, mask_foldl, implies_true]
theorem leaveShares_mask (h : [.media, .staged] ⊆ P) (a b c d) :
    (State.leaveShares s a b c d).mask P = s.mask P := mask_mono h <| by
  simp +decide only [State.leaveShares, rowStep_mask, joinParity_mask, mask_staged, mask_ite, ite_self, mask_foldl,
      implies_true]
theorem failDie_mask (h : [.out, .rdma, .bell, .media, .staged, .dram, .loft, .events, .eventSeq] ⊆ P) (a b) :
    (State.failDie s a b).mask P = s.mask P := mask_mono h <| by
  unfold State.failDie
  dsimp only
  repeat' split
  all_goals simp +decide only [redirect_mask, setMedia_mask, setDie_mask, nameSpare_mask, leaveShares_mask, event_mask,
      mask_ite, ite_self, mask_foldl, implies_true]
theorem nameAgain_mask (h : [.out, .rdma, .bell, .media, .dram, .loft, .events, .eventSeq] ⊆ P) (a) :
    (State.nameAgain s a).mask P = s.mask P := mask_mono h <| by
  simp +decide only [State.nameAgain, nameSpare_mask, mask_ite, ite_self, mask_foldl, implies_true]
theorem wearEv_mask (h : [.media] ⊆ P) (a b c) :
    (State.wearEv s a b c).mask P = s.mask P := mask_mono h <| by
  simp +decide only [State.wearEv, setWard_mask, mask_ite, ite_self, mask_foldl, implies_true]
theorem retirePhys_mask (h : [.out, .rdma, .bell, .media, .staged, .dram, .loft, .events, .eventSeq] ⊆ P) (a b c) :
    (State.retirePhys s a b c).mask P = s.mask P := mask_mono h <| by
  simp +decide only [State.retirePhys, wearEv_mask, loftRecord_mask, setMedia_mask, setDie_mask, failDie_mask, mask_ite,
      ite_self, mask_foldl, implies_true]
theorem retireBlock_mask (h : [.out, .rdma, .bell, .media, .staged, .dram, .loft, .events, .eventSeq] ⊆ P) (a b c) :
    (State.retireBlock s a b c).mask P = s.mask P := mask_mono h <| by
  simp +decide only [State.retireBlock, retirePhys_mask, mask_ite, ite_self, mask_foldl, implies_true]
theorem poolBlock_mask (h : [.media] ⊆ P) {d plane k} {t : State} (e : s.poolBlock d plane = some (k, t)) : t.mask P = s.mask
    P :=
  mask_mono h <| by
    unfold State.poolBlock at e
    split at e
    · cases e
    · split at e
      · cases e; rfl
      · obtain ⟨_, _, e⟩ := Option.map_eq_some_iff.mp e
        cases e; rfl
theorem drawPool_mask (h : [.media] ⊆ P) {d plane k} {t : State} (e : s.drawPool d plane = some (k, t)) : t.mask P = s.mask P
    := by
  unfold State.drawPool at e
  dsimp only at e
  split at e
  · cases e; exact setMedia_mask h _
  · exact poolBlock_mask h e
theorem capCheck_mask (h : [.out, .rdma, .bell, .media, .loft, .events, .eventSeq] ⊆ P)  :
    (State.capCheck s).mask P = s.mask P := mask_mono h <| by
  simp +decide only [State.capCheck, setMedia_mask, event_mask, mask_ite, ite_self, mask_foldl, implies_true]
theorem drawFrom_mask (h : [.out, .rdma, .bell, .media, .loft, .events, .eventSeq] ⊆ P) {d plane wet k b} {t : State}
    (e : s.drawFrom d plane wet = some (k, b, t)) : t.mask P = s.mask P := mask_mono h <| by
  unfold State.drawFrom at e
  split at e
  · cases e
    exact drawPool_mask (by decide) (by assumption)
  · split at e
    · cases e
    · dsimp only at e
      repeat' split at e
      all_goals cases e
      all_goals simp +decide only [capCheck_mask, setMedia_mask, setSlot_mask, setWard_mask]
theorem drawBlock_mask (h : [.out, .rdma, .bell, .media, .loft, .events, .eventSeq] ⊆ P) {d plane k} {t : State}
    (e : s.drawBlock d plane = some (k, t)) : t.mask P = s.mask P := by
  obtain ⟨x, hx, e⟩ := Option.map_eq_some_iff.mp e
  cases e
  exact drawFrom_mask h hx
theorem noSource_mask (h : [.out, .rdma, .bell, .media, .staged, .dram, .loft, .events, .eventSeq] ⊆ P) (a b) :
    (State.noSource s a b).mask P = s.mask P := mask_mono h <| by
  unfold State.noSource
  repeat' split
  all_goals simp +decide only [setMedia_mask, failDie_mask, journalRec_mask, setMem_mask, leaveShares_mask, mask_ite,
      ite_self, mask_foldl, implies_true]
theorem replaceBlock_mask (h : [.out, .rdma, .bell, .media, .staged, .dram, .loft, .events, .eventSeq] ⊆ P) (d plane k) :
    (s.replaceBlock d plane k).mask P = s.mask P := mask_mono h <| by
  unfold State.replaceBlock
  split
  · next hd =>
    rw [← drawFrom_mask (by decide) hd]
    dsimp only
    split <;> simp +decide only [setMedia_mask, setGroup_mask, journalRec_mask, setBlock_mask]
  · exact noSource_mask (by decide) ..
theorem queueRetire_mask (h : [.media] ⊆ P) (a b c) :
    (State.queueRetire s a b c).mask P = s.mask P := mask_mono h <| by
  simp +decide only [State.queueRetire, setMedia_mask, mask_ite, ite_self, mask_foldl, implies_true]
theorem wearBlock_mask (h : [.media] ⊆ P) (a) :
    (State.wearBlock s a).mask P = s.mask P := mask_mono h <| by
  simp +decide only [State.wearBlock, setMedia_mask, mask_ite, ite_self, mask_foldl, implies_true]
theorem markRefresh_mask (h : [.media] ⊆ P) (a b c d) :
    (State.markRefresh s a b c d).mask P = s.mask P := mask_mono h <| by
  unfold State.markRefresh
  dsimp only
  repeat' split
  all_goals simp +decide only [setMedia_mask, mask_ite, ite_self, mask_foldl, implies_true]
theorem track_mask (h : [.media] ⊆ P) (a b c d e) :
    (State.track s a b c d e).mask P = s.mask P := mask_mono h <| by
  simp +decide only [State.track, setGroup_mask, setDie_mask, mask_ite, ite_self, mask_foldl, implies_true]
theorem decoded_mask (h : [.media] ⊆ P) (a b c d e) :
    (State.decoded s a b c d e).mask P = s.mask P := mask_mono h <| by
  simp +decide only [State.decoded, wearEv_mask, setGroup_mask, markRefresh_mask, track_mask, mask_ite, ite_self, mask_foldl,
      implies_true]
theorem retireWorst_mask (h : [.out, .rdma, .bell, .media, .staged, .dram, .loft, .events, .eventSeq] ⊆ P) (a b) :
    (State.retireWorst s a b).mask P = s.mask P := mask_mono h <| by
  simp +decide only [State.retireWorst, queueRetire_mask, setDie_mask, replaceBlock_mask, retirePhys_mask, mask_ite,
      ite_self, mask_foldl, implies_true]
theorem listDefect_mask (h : [.out, .rdma, .bell, .media, .staged, .dram, .loft, .events, .eventSeq] ⊆ P) (a b c) :
    (State.listDefect s a b c).mask P = s.mask P := mask_mono h <| by
  simp +decide only [State.listDefect, setDie_mask, retireWorst_mask, mask_ite, ite_self, mask_foldl, implies_true]
theorem feed_mask (h : [.out, .rdma, .bell, .media, .staged, .dram, .loft, .events, .eventSeq] ⊆ P) (a b c d e) :
    (State.feed s a b c d e).mask P = s.mask P := mask_mono h <| by
  simp +decide only [State.feed, listDefect_mask, setGroup_mask, decoded_mask, mask_ite, ite_self, mask_foldl, implies_true]
theorem queueUnit_mask (h : [.media, .staged] ⊆ P) (a b c d) :
    (State.queueUnit s a b c d).mask P = s.mask P := mask_mono h <| by
  simp +decide only [State.queueUnit, setMedia_mask, queueParity_mask, joinParity_mask, mask_staged, mask_ite, ite_self,
      mask_foldl, implies_true]
theorem queueUnits_mask (h : [.media, .staged] ⊆ P) (a b c d e) :
    (State.queueUnits s a b c d e).mask P = s.mask P := mask_mono h <| by
  simp +decide only [State.queueUnits, queueUnit_mask, mask_ite, ite_self, mask_foldl, implies_true]
theorem dropSlotWork_mask (h : [.media, .staged] ⊆ P) (a) :
    (State.dropSlotWork s a).mask P = s.mask P := mask_mono h <| by
  simp +decide only [State.dropSlotWork, setMedia_mask, mask_staged, mask_ite, ite_self, mask_foldl, implies_true]
theorem queueErase_mask (h : [.media] ⊆ P) (a) :
    (State.queueErase s a).mask P = s.mask P := mask_mono h <| by
  simp +decide only [State.queueErase, setGroup_mask, setMedia_mask, clearShares_mask, mask_ite, ite_self, mask_foldl,
      implies_true]
theorem endCopies_mask (h : [.media] ⊆ P) (a) :
    (State.endCopies s a).mask P = s.mask P := mask_mono h <| by
  simp +decide only [State.endCopies, setMedia_mask, mask_ite, ite_self, mask_foldl, implies_true]
theorem endMoves_mask (h : [.out, .rdma, .bell, .media, .staged, .dram, .loft, .events, .eventSeq] ⊆ P) (n) :
    (s.endMoves n).mask P = s.mask P := mask_mono h <| by
  unfold State.endMoves
  refine (mask_foldl (fun x d => mask_foldl (fun y p => ?_) _ x) _ _).trans
    ((mask_foldl (fun x e => mask_foldl (fun y p => retireBlock_mask (by decide) ..) _ x) _ _).trans
      ((setMedia_mask (by decide) _).trans (endCopies_mask (by decide) _)))
  simp +decide only [mask_ite, replaceBlock_mask, ite_self]
theorem releaseSlot_mask (h : [.out, .rdma, .bell, .media, .staged, .dram, .loft, .events, .eventSeq] ⊆ P) (a) :
    (State.releaseSlot s a).mask P = s.mask P := mask_mono h <| by
  simp +decide only [State.releaseSlot, endMoves_mask, setSlot_mask, queueErase_mask, journalRec_mask, dropSlotWork_mask,
      mask_ite, ite_self, mask_foldl, implies_true]
theorem freeVictims_mask (h : [.out, .rdma, .bell, .rand, .media, .staged, .dram, .loft, .events, .eventSeq] ⊆ P) (a) :
    (State.freeVictims s a).mask P = s.mask P := mask_mono h <| by
  simp +decide only [State.freeVictims, endMoves_mask, setMedia_mask, setWard_mask, setSlot_mask, queueErase_mask,
      journalRec_mask, dropSlotWork_mask, mask_rand, mask_ite, ite_self, mask_foldl, implies_true]
theorem copiesDone_mask (h : [.out, .rdma, .bell, .rand, .media, .staged, .dram, .loft, .events, .eventSeq] ⊆ P) (w) :
    (s.copiesDone w).mask P = s.mask P := mask_mono h <| by
  unfold State.copiesDone
  refine (freeVictims_mask (by decide) _).trans ((setMedia_mask (by decide) _).trans (mask_foldl (fun x c => ?_) _ _))
  split
  · simp +decide only [mask_ite, setWard_mask, journalRec_mask, mask_rand, ite_self]
  · rfl
theorem writeRow_mask (h : [.media] ⊆ P) (a b c) :
    (State.writeRow s a b c).mask P = s.mask P := mask_mono h <| by
  simp +decide only [State.writeRow, setMedia_mask, joinParity_mask, mask_ite, ite_self, mask_foldl, implies_true]
theorem sendOut_mask (h : [.out, .rdma] ⊆ P) (a b c) :
    (State.sendOut s a b c).mask P = s.mask P := mask_mono h <| by
  unfold State.sendOut
  repeat' split
  all_goals simp +decide only [issue_mask, mask_ite, ite_self, mask_foldl, implies_true]
theorem finishRead_mask (h : [.out, .rdma, .sqs, .cqs, .aborts, .zones] ⊆ P) (a) :
    (State.finishRead s a).mask P = s.mask P := mask_mono h <| by
  unfold State.finishRead
  repeat' split
  all_goals simp +decide only [atPoint_mask, complete_mask, sendOut_mask, mask_ite, ite_self, mask_foldl, implies_true]
theorem unitServed_mask (h : [.out, .rdma, .sqs, .cqs, .aborts, .zones] ⊆ P) (a b c) :
    (State.unitServed s a b c).mask P = s.mask P := mask_mono h <| by
  unfold State.unitServed
  dsimp only
  repeat' split
  all_goals simp +decide only [finishRead_mask, setCmd_mask, mask_ite, ite_self, mask_foldl, implies_true]
theorem postDue_mask (h : [.out, .rdma, .sqs, .cqs, .due, .aborts, .zones] ⊆ P)  :
    (State.postDue s).mask P = s.mask P := mask_mono h <| by
  simp +decide only [State.postDue, complete_mask, mask_due, mask_ite, ite_self, mask_foldl, implies_true]
theorem select_mask (h : [.loft] ⊆ P) (a) :
    (State.select s a).mask P = s.mask P := mask_mono h <| by
  simp +decide only [State.select, loftRecord_mask, mask_loft, mask_ite, ite_self, mask_foldl, implies_true]
theorem begin__mask (h : [.sqs] ⊆ P) (a b) :
    (State.begin_ s a b).mask P = s.mask P := mask_mono h <| by
  simp +decide only [State.begin_, setCmd_mask, mask_ite, ite_self, mask_foldl, implies_true]
theorem retireRow_mask (h : [.out, .rdma, .bell, .sieve, .loft, .events, .eventSeq] ⊆ P) (a) :
    (State.retireRow s a).mask P = s.mask P := mask_mono h <| by
  simp +decide only [State.retireRow, loftRecord_mask, event_mask, mask_sieve, mask_ite, ite_self, mask_foldl, implies_true]
theorem repairRow_mask (h : [.out, .rdma, .bell, .sieve, .loft, .events, .eventSeq] ⊆ P) (a) :
    (State.repairRow s a).mask P = s.mask P := mask_mono h <| by
  simp +decide only [State.repairRow, retireRow_mask, event_mask, mask_sieve, mask_ite, ite_self, mask_foldl, implies_true]
theorem lookup_mask (h : [.out, .rdma, .bell, .sieve, .loft, .events, .eventSeq] ⊆ P) (f k v pos) :
    (s.lookup f k v pos).1.mask P = s.mask P := mask_mono h <| by
  unfold State.lookup
  dsimp only
  repeat' split
  all_goals simp +decide only [repairRow_mask]
theorem putRow_mask (h : [.sieve] ⊆ P) (a b) :
    (State.putRow s a b).mask P = s.mask P := mask_mono h <| by
  simp +decide only [State.putRow, mask_sieve, mask_ite, ite_self, mask_foldl, implies_true]
theorem clearSeg_mask (h : [.sieve] ⊆ P) (a) :
    (State.clearSeg s a).mask P = s.mask P := mask_mono h <| by
  simp +decide only [State.clearSeg, mask_sieve, mask_ite, ite_self, mask_foldl, implies_true]
theorem addSeg_mask (h : [.sieve] ⊆ P) (a) :
    (State.addSeg s a).mask P = s.mask P := mask_mono h <| by
  unfold State.addSeg
  repeat' split
  all_goals simp +decide only [clearSeg_mask, mask_sieve, mask_ite, ite_self, mask_foldl, implies_true]
theorem dropSeg_mask (h : [.sieve] ⊆ P) (a) :
    (State.dropSeg s a).mask P = s.mask P := mask_mono h <| by
  unfold State.dropSeg
  repeat' split
  all_goals simp +decide only [clearSeg_mask, mask_sieve, mask_ite, ite_self, mask_foldl, implies_true]
theorem setGrant_mask (h : [.fns, .sieve] ⊆ P) (a b) :
    (State.setGrant s a b).mask P = s.mask P := mask_mono h <| by
  simp +decide only [State.setGrant, addSeg_mask, dropSeg_mask, setFn_mask, mask_ite, ite_self, mask_foldl, implies_true]
theorem setCore_mask (h : [.cores] ⊆ P) (a b) :
    (State.setCore s a b).mask P = s.mask P := mask_mono h <| by
  simp +decide only [State.setCore, mask_cores, mask_ite, ite_self, mask_foldl, implies_true]
theorem setHamlet_mask (h : [.hamlets] ⊆ P) (a b) :
    (State.setHamlet s a b).mask P = s.mask P := mask_mono h <| by
  simp +decide only [State.setHamlet, mask_hamlets, mask_ite, ite_self, mask_foldl, implies_true]
theorem putTrace_mask (h : [.disp] ⊆ P) (a) :
    (State.putTrace s a).mask P = s.mask P := mask_mono h <| by
  simp +decide only [State.putTrace, mask_disp, mask_ite, ite_self, mask_foldl, implies_true]
theorem trace_mask (h : [.disp] ⊆ P) (a b c d e f) :
    (State.trace s a b c d e f).mask P = s.mask P := mask_mono h <| by
  simp +decide only [State.trace, putTrace_mask, mask_ite, ite_self, mask_foldl, implies_true]
theorem traceGrant_mask (h : [.disp] ⊆ P) (a b) :
    (State.traceGrant s a b).mask P = s.mask P := mask_mono h <| by
  simp +decide only [State.traceGrant, putTrace_mask, mask_ite, ite_self, mask_foldl, implies_true]
theorem traceLost_mask (h : [.disp] ⊆ P)  :
    (State.traceLost s).mask P = s.mask P := mask_mono h <| by
  simp +decide only [State.traceLost, trace_mask, mask_disp, mask_ite, ite_self, mask_foldl, implies_true]
theorem overrun_mask (h : [.bell] ⊆ P) (a b) :
    (State.overrun s a b).mask P = s.mask P := mask_mono h <| by
  simp +decide only [State.overrun, mask_bell, mask_ite, ite_self, mask_foldl, implies_true]
theorem openBell_mask (h : [.bell, .dram, .pwr] ⊆ P) (a) :
    (State.openBell s a).mask P = s.mask P := mask_mono h <| by
  simp +decide only [State.openBell, mask_bell_dram_pwr, mask_ite, ite_self, mask_foldl, implies_true]
theorem stamp_mask (h : [.bell] ⊆ P)  :
    (State.stamp s).mask P = s.mask P := mask_mono h <| by
  simp +decide only [State.stamp, mask_bell, mask_ite, ite_self, mask_foldl, implies_true]
theorem comeTo_mask (h : [.bell] ⊆ P) (a) :
    (State.comeTo s a).mask P = s.mask P := mask_mono h <| by
  simp +decide only [State.comeTo, stamp_mask, mask_bell, mask_ite, ite_self, mask_foldl, implies_true]
theorem meter_mask (h : [.out, .rdma, .bell, .loft, .health, .events, .eventSeq] ⊆ P) (a) :
    (State.meter s a).mask P = s.mask P := mask_mono h <| by
  simp +decide only [State.meter, eventAt_mask, overrun_mask, event_mask, mask_bell, mask_health, mask_ite, ite_self,
      mask_foldl, implies_true]
theorem watchInhibit_mask (h : [.out, .rdma, .bell, .loft, .health, .events, .eventSeq] ⊆ P)  :
    (State.watchInhibit s).mask P = s.mask P := mask_mono h <| by
  simp +decide only [State.watchInhibit, event_mask, mask_health, mask_ite, ite_self, mask_foldl, implies_true]
theorem startWork_mask (h : [.media] ⊆ P) (a) :
    (State.startWork s a).mask P = s.mask P := mask_mono h <| by
  simp +decide only [State.startWork, setMedia_mask, setChan_mask, setDie_mask, mask_ite, ite_self, mask_foldl, implies_true]
theorem startPlan_mask (h : [.bell, .media] ⊆ P)  :
    (State.startPlan s).mask P = s.mask P := mask_mono h <| by
  simp +decide only [State.startPlan, startWork_mask, setMedia_mask, mask_bell, mask_ite, ite_self, mask_foldl, implies_true]
theorem ringsAtBoundary_mask (h : [.out, .rdma, .fns, .sqs, .cqs, .holds] ⊆ P)  :
    (State.ringsAtBoundary s).mask P = s.mask P := mask_mono h <| by
  simp +decide only [State.ringsAtBoundary, sendDue_mask, mask_fns_sqs_cqs_holds, mask_ite, ite_self, mask_foldl, implies_true]
theorem grantsAtBoundary_mask (h : [.fns, .sieve] ⊆ P)  :
    (State.grantsAtBoundary s).mask P = s.mask P := mask_mono h <| by
  simp +decide only [State.grantsAtBoundary, setGrant_mask, mask_ite, ite_self, mask_foldl, implies_true]
theorem portsAtBoundary_mask (h : [.portA, .portB] ⊆ P)  :
    (State.portsAtBoundary s).mask P = s.mask P := mask_mono h <| by
  simp +decide only [State.portsAtBoundary, mask_portA_portB, mask_ite, ite_self, mask_foldl, implies_true]
theorem flowAt_mask (h : [.out, .portA, .portB] ⊆ P) (a b c) :
    (State.flowAt s a b c).mask P = s.mask P := mask_mono h <| by
  simp +decide only [State.flowAt, setPort_mask, tell_mask, mask_ite, ite_self, mask_foldl, implies_true]
theorem flowControl_mask (h : [.out, .portA, .portB] ⊆ P) (a) :
    (State.flowControl s a).mask P = s.mask P := mask_mono h <| by
  simp +decide only [State.flowControl, flowAt_mask, mask_ite, ite_self, mask_foldl, implies_true]
theorem substitute_mask (h : [.out, .rdma, .bell, .cores, .hamlets, .disp, .loft, .events, .eventSeq] ⊆ P)  :
    (s.substitute).mask P = s.mask P := mask_mono h <| by
  unfold State.substitute
  refine mask_foldl (fun x e => mask_foldl (fun y l => ?_) _ x) _ s
  split
  · simp +decide only [trace_mask, event_mask, setCore_mask, mask_hamlets]
  · rfl
theorem plansAtBoundary_mask (h : [.out, .rdma, .bell, .cores, .hamlets, .disp, .sieve, .loft, .events, .eventSeq] ⊆ P)  :
    (State.plansAtBoundary s).mask P = s.mask P := mask_mono h <| by
  simp +decide only [State.plansAtBoundary, substitute_mask, traceLost_mask, mask_disp_sieve, mask_ite, ite_self, mask_foldl,
      implies_true]
theorem drains_mask (h : [.bell, .dram] ⊆ P) (a) :
    (State.drains s a).mask P = s.mask P := mask_mono h <| by
  simp +decide only [State.drains, overrun_mask, mask_bell_dram, mask_ite, ite_self, mask_foldl, implies_true]
theorem mirrorDue_mask (h : [.sqs] ⊆ P)  :
    (State.mirrorDue s).mask P = s.mask P := mask_mono h <| by
  simp +decide only [State.mirrorDue, mask_sqs, mask_ite, ite_self, mask_foldl, implies_true]
theorem blankCheck_mask (h : [.out, .rdma, .bell, .media, .staged, .dram, .loft, .events, .eventSeq] ⊆ P) (b) :
    (s.blankCheck b).mask P = s.mask P := mask_mono h <| by
  unfold State.blankCheck
  dsimp only
  split
  · split
    · next e _ =>
      have hret := retirePhys_mask (P := [.out, .rdma, .bell, .media, .staged, .dram, .loft, .events, .eventSeq]) (s := s)
          (by decide)
        b.die b.plane e.2
      split
      · next hd =>
        refine (setMedia_mask (by decide) _).trans (.trans ?_ hret)
        split at hd
        · exact drawBlock_mask (by decide) hd
        · exact drawPool_mask (by decide) hd
      · split <;> simp +decide only [noSource_mask, setMedia_mask, hret]
    · rfl
  · simp +decide only [mask_ite, replaceBlock_mask, retireBlock_mask, ite_self]
theorem makePlan_mask (h : [.bell, .media] ⊆ P) (a) :
    (State.makePlan s a).mask P = s.mask P := mask_mono h <| by
  simp +decide only [State.makePlan, setGroup_mask, mask_bell, mask_ite, ite_self, mask_foldl, implies_true]
theorem planDrains_mask (h : [.bell, .sqs] ⊆ P)  :
    (State.planDrains s).mask P = s.mask P := mask_mono h <| by
  simp +decide only [State.planDrains, mask_bell_sqs, mask_ite, ite_self, mask_foldl, implies_true]
theorem resumeIfIdle_mask (h : [.bell, .media] ⊆ P) (d) :
    (s.resumeIfIdle d).mask P = s.mask P := mask_mono h <| by
  unfold State.resumeIfIdle
  split
  · rfl
  · split
    · simp +decide only [mask_ite, mask_bell, setDie_mask, ite_self]
    · rfl
theorem dropSlices_mask (h : [.bell, .media] ⊆ P) (a) :
    (State.dropSlices s a).mask P = s.mask P := mask_mono h <| by
  simp +decide only [State.dropSlices, setMedia_mask, resumeIfIdle_mask, mask_ite, ite_self, mask_foldl, implies_true]
theorem dropReads_mask (h : [.bell, .media] ⊆ P) (a) :
    (State.dropReads s a).mask P = s.mask P := mask_mono h <| by
  simp +decide only [State.dropReads, setMedia_mask, dropSlices_mask, mask_ite, ite_self, mask_foldl, implies_true]
theorem watchIdle_mask (h : [.pwr] ⊆ P)  :
    (State.watchIdle s).mask P = s.mask P := mask_mono h <| by
  simp +decide only [State.watchIdle, mask_pwr, mask_ite, ite_self, mask_foldl, implies_true]
theorem execChannelRecentre_leaves (a b c) :
    Leaves [.media] s (execChannelRecentre a b c s) := by
  simp +decide only [execChannelRecentre, setChan_mask, go, leaves_next, leaves_fault, leaves_ite, mask_ite, ite_self,
      mask_foldl, implies_true]
theorem execChannelFault_leaves (a) :
    Leaves [.out, .rdma, .bell, .media, .loft, .events, .eventSeq] s (execChannelFault a s) := by
  unfold execChannelFault
  repeat' split
  all_goals simp +decide only [moveChan_mask, setChan_mask, go, leaves_next, leaves_fault, leaves_ite, mask_ite, ite_self,
      mask_foldl, implies_true]
theorem execChannelRetrainBegin_leaves (a) :
    Leaves [.out, .rdma, .bell, .media, .loft, .events, .eventSeq] s (execChannelRetrainBegin a s) := by
  simp +decide only [execChannelRetrainBegin, moveChan_mask, setChan_mask, go, leaves_next, leaves_fault, leaves_ite,
      mask_ite, ite_self, mask_foldl, implies_true]
theorem chanFailed_mask (h : [.out, .rdma, .bell, .media, .staged, .dram, .loft, .events, .eventSeq] ⊆ P) (a) :
    (State.chanFailed s a).mask P = s.mask P := mask_mono h <| by
  simp +decide only [State.chanFailed, nameAgain_mask, moveChan_mask, failDie_mask, mask_ite, ite_self, mask_foldl,
      implies_true]
theorem attemptFailed_mask (h : [.out, .rdma, .bell, .media, .staged, .dram, .loft, .events, .eventSeq] ⊆ P) (a) :
    (State.attemptFailed s a).mask P = s.mask P := mask_mono h <| by
  simp +decide only [State.attemptFailed, setChan_mask, chanFailed_mask, mask_ite, ite_self, mask_foldl, implies_true]
theorem trained_mask (h : [.out, .rdma, .bell, .media, .staged, .dram, .loft, .events, .eventSeq] ⊆ P) (a b) :
    (State.trained s a b).mask P = s.mask P := mask_mono h <| by
  simp +decide only [State.trained, nameAgain_mask, moveChan_mask, setChan_mask, failDie_mask, mask_ite, ite_self,
      mask_foldl, implies_true]
theorem execChannelRetrainResult_leaves (a b c) :
    Leaves [.out, .rdma, .bell, .media, .staged, .dram, .loft, .events, .eventSeq] s (execChannelRetrainResult a b c s) := by
  simp +decide only [execChannelRetrainResult, trained_mask, attemptFailed_mask, go, leaves_next, leaves_fault, leaves_ite,
      mask_ite, ite_self, mask_foldl, implies_true]
theorem execChannelRetrainRetry_leaves (a) :
    Leaves [.media] s (execChannelRetrainRetry a s) := by
  simp +decide only [execChannelRetrainRetry, setChan_mask, go, leaves_next, leaves_fault, leaves_ite, mask_ite, ite_self,
      mask_foldl, implies_true]
theorem runSieve_mask (h : [.out, .rdma, .bell, .sieve, .loft, .events, .eventSeq] ⊆ P) (p : Spec) (f b) : ∀ (l) (t : Test),
    (p.runSieve f b l t).s.mask P = t.s.mask P
  | [], _ => rfl
  | k :: ks, t => by
    unfold Spec.runSieve
    split
    · exact runSieve_mask h p f b ks t
    · exact (runSieve_mask h p f b ks _).trans (lookup_mask h ..)
theorem test_mask (h : [.out, .rdma, .bell, .sieve, .loft, .events, .eventSeq] ⊆ P) (p : Spec) (f b) :
    (p.test f s b).1.mask P = s.mask P := runSieve_mask h p f b _ _
theorem gate_mask (h : [.out, .rdma, .bell, .sieve, .loft, .events, .eventSeq] ⊆ P) (p : Spec) (f zone off cmp b) :
    (p.gate f zone off s cmp b).1.mask P = s.mask P := by
  unfold Spec.gate
  dsimp only
  refine List.foldlRecOn (motive := fun a : State × Bytes × Bool => a.1.mask P = s.mask P) _ _ rfl fun a ha fr _ => ?_
  exact List.foldlRecOn (motive := fun b : State × Bytes => b.1.mask P = s.mask P) _ _ ha fun b hb r _ => (test_mask h
      ..).trans hb
theorem park_mask (h : [.media] ⊆ P) (a b c d) :
    (State.park s a b c d).mask P = s.mask P := mask_mono h <| by
  unfold State.park
  repeat' split
  all_goals simp +decide only [setMedia_mask, setWard_mask, writeRow_mask, mask_ite, ite_self, mask_foldl, implies_true]
theorem parkFree_mask (h : [.media] ⊆ P) (a) :
    (State.parkFree s a).mask P = s.mask P := mask_mono h <| by
  simp +decide only [State.parkFree, queueErase_mask, mask_ite, ite_self, mask_foldl, implies_true]
theorem unparkKey_mask (h : [.media] ⊆ P) (a) :
    (State.unparkKey s a).mask P = s.mask P := mask_mono h <| by
  unfold State.unparkKey
  repeat' split
  all_goals simp +decide only [setMedia_mask, parkFree_mask, mask_ite, ite_self, mask_foldl, implies_true]
theorem unparkZone_mask (h : [.zones, .media] ⊆ P) (a) :
    (State.unparkZone s a).mask P = s.mask P := mask_mono h <| by
  unfold State.unparkZone
  dsimp only
  repeat' split
  all_goals simp +decide only [setZone_mask, parkFree_mask, unparkKey_mask, mask_ite, ite_self, mask_foldl, implies_true]
theorem replanParks_mask (h : [.media] ⊆ P)  :
    (s.replanParks).mask P = s.mask P := mask_mono h <| by
  refine mask_foldl (fun x e => ?_) _ s
  split
  · exact park_mask (by decide) ..
  · rfl
theorem ckptBegin_mask (h : [.media] ⊆ P) (cls) :
    (s.ckptBegin cls).mask P = s.mask P := mask_mono h <| by
  unfold State.ckptBegin
  refine (mask_foldl (fun x w => mask_foldl (fun y i => ?_) _ x) _ _).trans
    ((setMedia_mask (by decide) _).trans (noteMaps_mask (by decide)))
  simp +decide only [setWard_mask, mask_ite, queueErase_mask, setMedia_mask, writeRow_mask, ite_self]
theorem execCheckpointBegin_leaves  :
    Leaves [.media] s (execCheckpointBegin s) := by
  simp +decide only [execCheckpointBegin, ckptBegin_mask, go, leaves_next, leaves_fault, leaves_ite, mask_ite, ite_self,
      mask_foldl, implies_true]
theorem ckptFull_mask (h : [.media] ⊆ P)  :
    (State.ckptFull s).mask P = s.mask P := mask_mono h <| by
  simp +decide only [State.ckptFull, ckptBegin_mask, mask_ite, ite_self, mask_foldl, implies_true]
theorem releaseDumps_mask (h : [.pwr] ⊆ P)  :
    (State.releaseDumps s).mask P = s.mask P := mask_mono h <| by
  simp +decide only [State.releaseDumps, mask_pwr, mask_ite, ite_self, mask_foldl, implies_true]
theorem ckptComplete_mask (h : [.media, .pwr] ⊆ P) (a) :
    (State.ckptComplete s a).mask P = s.mask P := mask_mono h <| by
  simp +decide only [State.ckptComplete, setMedia_mask, releaseDumps_mask, setSlot_mask, replanParks_mask, prepNext_mask,
      mask_ite, ite_self, mask_foldl, implies_true]
theorem entryStep_mask (h : [.media, .pwr] ⊆ P)  :
    (State.entryStep s).mask P = s.mask P := mask_mono h <| by
  simp +decide only [State.entryStep, ckptBegin_mask, mask_pwr, mask_ite, ite_self, mask_foldl, implies_true]
theorem execCheckpointComplete_leaves  :
    Leaves [.media, .pwr] s (execCheckpointComplete s) := by
  unfold execCheckpointComplete
  repeat' split
  all_goals simp +decide only [ckptComplete_mask, entryStep_mask, go, leaves_next, leaves_fault, leaves_ite, mask_ite,
      ite_self, mask_foldl, implies_true]
theorem fillStream_mask (h : [.media, .staged] ⊆ P) {w st cls tenant u n off} {t : State}
    (e : s.fillStream w st cls tenant u = some (n, off, t)) : t.mask P = s.mask P := mask_mono h <| by
  unfold State.fillStream at e
  extract_lets o at e
  cases ho : o with
  | none => rw [ho] at e; cases e
  | some p =>
    rw [ho] at e
    dsimp only at e
    refine .trans (congrArg _ (congrArg (·.2.2) (Option.some.inj e)).symm) ?_
    refine (noteMaps_mask (by decide)).trans ((queueUnits_mask (by decide) ..).trans ?_)
    refine .trans (mask_of_ite ?_ rfl) ((setMedia_mask (by decide) _).trans ((mask_staged (by decide) _).trans
      ((unparkKey_mask (by decide) _).trans ((setMedia_mask (by decide) _).trans (mask_staged (by decide) _)))))
    split
    · exact setMedia_mask (by decide) _
    · rfl
theorem placeRand_mask (h : [.rand, .media, .staged, .dram] ⊆ P) (w st cls tenant key u) :
    (s.placeRand w st cls tenant key u).mask P = s.mask P := mask_mono h <| by
  unfold State.placeRand
  split
  · rfl
  · next hf =>
    rw [← fillStream_mask (by decide) hf]
    simp +decide only [journalRec_mask, setMedia_mask, mask_rand]
theorem reclaimServed_mask (h : [.media, .staged] ⊆ P) (w n off b) :
    (s.reclaimServed w n off b).mask P = s.mask P := mask_mono h <| by
  unfold State.reclaimServed
  split
  · rfl
  · split
    · rfl
    · split
      · exact loseUnits_mask (by decide) ..
      · dsimp only
        split
        · rfl
        · split
          · next hf => exact (setMedia_mask (by decide) _).trans (fillStream_mask (by decide) hf)
          · rfl
theorem assemble_mask (h : [.media] ⊆ P) {w row k} {t : State} (e : s.assemble w row k = some t) : t.mask P = s.mask P := by
  unfold State.assemble at e
  generalize List.range 144 = l at e
  have hl : ∀ (l : List Nat) (a : Option State), l.foldl (fun (a : Option State) j => a.bind fun s =>
      let d := (s.mem w row (j / 4)).die
      if s.inPool w row d (j % 4) k then
        some (s.setMedia fun m => { m with poolTaken := planeKey d (j % 4) k :: m.poolTaken })
      else (s.poolBlock d (j % 4)).map fun x => x.2.setBlock d (j % 4) k x.1) a = some t → ∃ x, a = some x ∧ t.mask P =
          x.mask P := by
    intro l
    induction l with
    | nil => exact fun a ha => ⟨t, ha, rfl⟩
    | cons j l ih =>
      intro a ha
      obtain ⟨y, hy, hty⟩ := ih _ ha
      obtain ⟨x, rfl, hx⟩ := Option.bind_eq_some_iff.mp hy
      refine ⟨x, rfl, hty.trans ?_⟩
      dsimp only at hx
      split at hx
      · cases hx
        exact setMedia_mask h _
      · obtain ⟨z, hz, rfl⟩ := Option.map_eq_some_iff.mp hx
        exact (setBlock_mask h ..).trans (poolBlock_mask h hz)
  obtain ⟨x, hx, ht⟩ := hl _ _ e
  cases hx
  exact ht
theorem raFit_mask (h : [.out, .rdma, .bell, .rand, .media, .staged, .dram, .loft, .events, .eventSeq] ⊆ P) (w) :
    (s.raFit w).mask P = s.mask P := mask_mono h <| by
  unfold State.raFit
  dsimp only
  split
  · split
    · next hp =>
      obtain ⟨row, -, hp⟩ := List.exists_of_findSome?_eq_some hp
      obtain ⟨k, -, hp⟩ := List.exists_of_findSome?_eq_some hp
      obtain ⟨-, hp⟩ := Option.ite_none_right_eq_some.mp hp
      obtain ⟨x, hx, hp⟩ := Option.map_eq_some_iff.mp hp
      cases hp
      rw [← assemble_mask (by decide) hx]
      simp +decide only [journalRec_mask, setWard_mask, setSlot_mask]
    · rfl
  · split
    · split
      · exact (freeVictims_mask (by decide) _).trans (setWard_mask (by decide) ..)
      · rfl
    · rfl
theorem reclaimNext_mask (h : [.media] ⊆ P) (a) :
    (State.reclaimNext s a).mask P = s.mask P := mask_mono h <| by
  unfold State.reclaimNext
  dsimp only
  repeat' split
  all_goals simp +decide only [setMedia_mask, mask_ite, ite_self, mask_foldl, implies_true]
theorem execRandomAreaReclaim_leaves (a) :
    Leaves [.out, .rdma, .bell, .rand, .media, .staged, .dram, .loft, .events, .eventSeq] s (execRandomAreaReclaim a s) := by
  unfold execRandomAreaReclaim
  dsimp only
  repeat' split
  all_goals simp +decide only [reclaimNext_mask, setWard_mask, raFit_mask, freeVictims_mask, copiesDone_mask, go,
      leaves_next, leaves_fault, leaves_ite, mask_ite, ite_self, mask_foldl, implies_true]
theorem drawFour_mask (h : [.out, .rdma, .bell, .media, .loft, .events, .eventSeq] ⊆ P) {d all l} {t : State}
    (e : s.drawFour d all = some (l, t)) : t.mask P = s.mask P := by
  have hl : ∀ (ps : List Nat) (a : Option (List (Nat × Nat) × State)), ps.foldl (fun (a : Option (List (Nat × Nat) × State))
      p =>
      match a with
      | none => none
      | some (l, s) => (if all then s.drawBlock d p else s.drawPool d p).map fun x => (l ++ [(p, x.1)], x.2)) a = some (l, t) →
      ∃ y, a = some y ∧ t.mask P = y.2.mask P := by
    intro ps
    induction ps with
    | nil => exact fun a ha => ⟨_, ha, rfl⟩
    | cons p ps ih =>
      intro a ha
      obtain ⟨y, hy, hty⟩ := ih _ ha
      cases a with
      | none => cases hy
      | some x =>
        obtain ⟨z, hz, rfl⟩ := Option.map_eq_some_iff.mp hy
        refine ⟨_, rfl, hty.trans ?_⟩
        split at hz
        · exact drawBlock_mask h hz
        · exact drawPool_mask (List.Subset.trans (by decide) h) hz
  obtain ⟨y, hy, ht⟩ := hl _ _ e
  cases hy
  exact ht
theorem dropCopies_mask (h : [.bell, .media] ⊆ P) (a b) :
    (State.dropCopies s a b).mask P = s.mask P := mask_mono h <| by
  simp +decide only [State.dropCopies, setMedia_mask, dropSlices_mask, mask_ite, ite_self, mask_foldl, implies_true]
theorem copyLine_mask (h : [.media] ⊆ P) (a b) :
    (State.copyLine s a b).mask P = s.mask P := mask_mono h <| by
  unfold State.copyLine
  repeat' split
  all_goals simp +decide only [setMedia_mask, mask_ite, ite_self, mask_foldl, implies_true]
theorem execRelocation_leaves (d k) : Leaves [.out, .rdma, .bell, .media, .staged, .dram, .loft, .events, .eventSeq] s
    (execRelocation d k s) := by
  unfold execRelocation
  split
  · exact leaves_fault
  · dsimp only
    refine leaves_ite.mpr ?_
    split
    · exact leaves_next.mpr rfl
    · split
      · refine leaves_next.mpr (mask_of_ite rfl ?_)
        exact noSource_mask (by decide) ..
      · next fresh x hdraw =>
        have hlist : ∀ l : List Nat, (l.foldl (fun (s : State) p => s.retireBlock d p k) x).mask [.out, .rdma, .bell, .media,
        .staged, .dram, .loft, .events, .eventSeq] = s.mask [.out, .rdma, .bell, .media, .staged, .dram, .loft, .events,
        .eventSeq] :=
          fun l => (mask_foldl (fun x p => retireBlock_mask (by decide) ..) _ _).trans (drawFour_mask (by decide) hdraw)
        refine leaves_of_ite ?_ ?_
        · exact leaves_next.mpr ((capCheck_mask (by decide)).trans (hlist _))
        · exact leaves_next.mpr ((capCheck_mask (by decide)).trans ((copyLine_mask (by decide) ..).trans
            ((dropCopies_mask (by decide) ..).trans ((setMedia_mask (by decide) _).trans
              ((mask_foldl (fun x p => setMedia_mask (by decide) _) _ _).trans (hlist _))))))
theorem execRelocationCommit_leaves (a b) :
    Leaves [.media, .dram] s (execRelocationCommit a b s) := by
  unfold execRelocationCommit
  repeat' split
  all_goals simp +decide only [wearEv_mask, setGroup_mask, setMedia_mask, setBlock_mask, setWard_mask, journalRec_mask, go,
      leaves_next, leaves_fault, leaves_ite, mask_ite, ite_self, mask_foldl, implies_true]
theorem patrol_mask (h : [.media] ⊆ P) (a b c d e) :
    (State.patrol s a b c d e).mask P = s.mask P := mask_mono h <| by
  simp +decide only [State.patrol, setMedia_mask, mask_ite, ite_self, mask_foldl, implies_true]
theorem execPatrolRead_leaves (a b c d) :
    Leaves [.media] s (execPatrolRead a b c d s) := by
  simp +decide only [execPatrolRead, patrol_mask, go, leaves_next, leaves_fault, leaves_ite, mask_ite, ite_self, mask_foldl,
      implies_true]
theorem patrolStep_mask (h : [.media] ⊆ P)  :
    (s.patrolStep).mask P = s.mask P := mask_mono h <| by
  unfold State.patrolStep
  split
  · rfl
  · refine mask_foldl (fun x e => ?_) _ s
    have hround : ∀ g : Group → Group, (if x.patrolDue e.2 = true then x.setGroup (dieOf (e.1 / 4096)) (e.1 % 4096) g else
        x).mask
        [.media] = x.mask [.media] := fun g => by simp +decide only [mask_ite, setGroup_mask, ite_self]
    dsimp only
    repeat' split
    all_goals simp +decide only [setGroup_mask, patrol_mask, mask_ite, ite_self]
theorem execRetentionScan_leaves (a b c d) :
    Leaves [.media] s (execRetentionScan a b c d s) := by
  simp +decide only [execRetentionScan, setMedia_mask, patrol_mask, go, leaves_next, leaves_fault, leaves_ite, mask_ite,
      ite_self, mask_foldl, implies_true]
theorem parked_mask (h : [.zones, .media, .staged, .dram] ⊆ P) (a b) :
    (State.parked s a b).mask P = s.mask P := mask_mono h <| by
  simp +decide only [State.parked, setZone_mask, setMedia_mask, journalRec_mask, mask_staged, mask_ite, ite_self, mask_foldl,
      implies_true]
theorem execParkingComplete_leaves (a b) :
    Leaves [.zones, .media, .staged, .dram, .pwr] s (execParkingComplete a b s) := by
  unfold execParkingComplete
  dsimp only
  repeat' split
  all_goals simp +decide only [entryStep_mask, parked_mask, go, leaves_next, leaves_fault, leaves_ite, mask_ite, ite_self,
      mask_foldl, implies_true]
theorem execHeldSlotRelease_leaves (a) :
    Leaves [.out, .rdma, .bell, .units, .media, .staged, .dram, .loft, .events, .eventSeq] s (execHeldSlotRelease a s) := by
  unfold execHeldSlotRelease
  repeat' split
  all_goals simp +decide only [releaseSlot_mask, capCheck_mask, mask_units_staged, go, leaves_next, leaves_fault, leaves_ite,
      mask_ite, ite_self, mask_foldl, implies_true]
theorem execStagingDrain_leaves  :
    Leaves [.sqs] s (execStagingDrain s) := by
  simp +decide only [execStagingDrain, mask_sqs, go, leaves_next, leaves_fault, leaves_ite, mask_ite, ite_self, mask_foldl,
      implies_true]
theorem cellarSlot_mask (h : [.media, .pwr] ⊆ P) (busy l) : (s.cellarSlot busy l).1.mask P = s.mask P := mask_mono h <| by
  unfold State.cellarSlot
  exact mask_foldl (fun x e => by simp +decide only [mask_pwr, setDie_mask]) ..
theorem newRing_mask (h : [.free, .fns, .sqs, .cqs] ⊆ P) (a b c d) :
    (State.newRing s a b c d).mask P = s.mask P := mask_mono h <| by
  simp +decide only [State.newRing, State.pickEntry, mask_free, State.draw, setFn_mask, mask_cqs, mask_sqs, mask_ite,
      ite_self, mask_foldl, implies_true]
theorem dropOps_mask (h : [.rdma, .fns, .due, .aborts] ⊆ P) (a) :
    (State.dropOps s a).mask P = s.mask P := mask_mono h <| by
  simp +decide only [State.dropOps, setFn_mask, mask_rdma_due_aborts, mask_ite, ite_self, mask_foldl, implies_true]
theorem resetRings_mask (h : [.rdma, .fns, .sqs, .cqs, .due, .aborts] ⊆ P) (a) :
    (State.resetRings s a).mask P = s.mask P := mask_mono h <| by
  simp +decide only [State.resetRings, dropOps_mask, setFn_mask, mask_sqs_cqs, mask_ite, ite_self, mask_foldl, implies_true]
theorem resetAdmin_mask (h : [.rdma, .fns, .sqs, .cqs] ⊆ P) (a) :
    (State.resetAdmin s a).mask P = s.mask P := mask_mono h <| by
  unfold State.resetAdmin
  repeat' split
  all_goals simp +decide only [setCq_mask, setSq_mask, setFn_mask, mask_rdma, mask_ite, ite_self, mask_foldl, implies_true]
theorem adminAtBoundary_mask (h : [.rdma, .net, .fns, .sqs, .cqs] ⊆ P)  :
    (State.adminAtBoundary s).mask P = s.mask P := mask_mono h <| by
  simp +decide only [State.adminAtBoundary, resetAdmin_mask, mask_net, mask_ite, ite_self, mask_foldl, implies_true]
theorem releaseSems_mask (h : [.ledger, .sems] ⊆ P) (f) :
    (s.releaseSems f).mask P = s.mask P := mask_mono h <| by
  exact mask_foldl (fun x e => (mask_sems (by decide) _).trans (mask_ledger (by decide) _)) _ s
theorem liftFences_mask (h : [.zones] ⊆ P) (a) :
    (State.liftFences s a).mask P = s.mask P := mask_mono h <| by
  simp +decide only [State.liftFences, mask_zones, mask_ite, ite_self, mask_foldl, implies_true]
theorem askHead_mask (h : [.out, .rdma, .cqs] ⊆ P) (a b c) :
    (State.askHead s a b c).mask P = s.mask P := mask_mono h <| by
  simp +decide only [State.askHead, setCq_mask, issue_mask, mask_ite, ite_self, mask_foldl, implies_true]
theorem fetch_mask (h : [.out, .rdma, .sqs, .cqs] ⊆ P) (f n) : (s.fetch f n).2.mask P = s.mask P := mask_mono h <| by
  unfold State.fetch
  dsimp only
  repeat' split
  all_goals simp +decide only [issue_mask, setSq_mask, setCq_mask, askHead_mask]
theorem fetchFn_mask (h : [.out, .rdma, .fns, .sqs, .cqs] ⊆ P) (f) :
    (s.fetchFn f).mask P = s.mask P := mask_mono h <| by
  have hfold : ∀ (l : List (Nat × Sq)) (a : Option Nat × State), (l.foldl (fun (a : Option Nat × State) e =>
      let (did, s) := a.2.fetch f (e.1 % 1024)
      (if did && a.1.isNone then some (e.1 % 1024) else a.1, s)) a).2.mask [.out, .rdma, .fns, .sqs, .cqs] =
        a.2.mask [.out, .rdma, .fns, .sqs, .cqs] := fun l => by
    induction l with
    | nil => exact fun a => rfl
    | cons e l ih => exact fun a => (ih _).trans (fetch_mask (by decide) ..)
  unfold State.fetchFn
  dsimp only
  split
  · exact (setFn_mask (by decide) ..).trans (hfold _ _)
  · exact hfold _ _
theorem fetchAll_mask (h : [.out, .rdma, .fns, .sqs, .cqs] ⊆ P)  :
    (State.fetchAll s).mask P = s.mask P := mask_mono h <| by
  simp +decide only [State.fetchAll, fetchFn_mask, mask_ite, ite_self, mask_foldl, implies_true]
theorem checkBuffer_mask (h : [.out, .rdma, .sqs, .cqs, .aborts, .zones] ⊆ P) (a b) :
    (State.checkBuffer s a b).mask P = s.mask P := mask_mono h <| by
  unfold State.checkBuffer
  repeat' split
  all_goals simp +decide only [atPoint_mask, issue_mask, failCheck_mask, mask_ite, ite_self, mask_foldl, implies_true]
theorem checkEntry_mask (h : [.out, .rdma, .sqs, .cqs, .aborts, .zones] ⊆ P) (a b) :
    (State.checkEntry s a b).mask P = s.mask P := mask_mono h <| by
  unfold State.checkEntry
  repeat' split
  all_goals simp +decide only [atPoint_mask, issue_mask, failCheck_mask, checkBuffer_mask, mask_ite, ite_self, mask_foldl,
      implies_true]
theorem checkLoop_mask (h : [.out, .rdma, .sqs, .cqs, .aborts, .zones] ⊆ P) (f n) : ∀ (k) (s : State),
    (State.checkLoop f n k s).mask P = s.mask P
  | 0, _ => rfl
  | k + 1, s => by
    unfold State.checkLoop
    split
    · split
      · rfl
      · split
        · exact (checkLoop_mask h f n k _).trans (checkEntry_mask h ..)
        · rfl
    · rfl
theorem checkRing_mask (h : [.out, .rdma, .sqs, .cqs, .aborts, .zones] ⊆ P) (a b) :
    (State.checkRing s a b).mask P = s.mask P := mask_mono h <| by
  simp +decide only [State.checkRing, checkLoop_mask, mask_ite, ite_self, mask_foldl, implies_true]
theorem takeEntry_mask (h : [.out, .rdma, .sqs, .cqs, .aborts, .zones, .jobOrder, .pwr] ⊆ P) (a b c d) :
    (State.takeEntry s a b c d).mask P = s.mask P := mask_mono h <| by
  unfold State.takeEntry
  repeat' split
  all_goals simp +decide only [setSq_mask, wakeUp_mask, fail_mask, mask_jobOrder, mask_ite, ite_self, mask_foldl, implies_true]
theorem takeEntries_mask (h : [.out, .rdma, .sqs, .cqs, .aborts, .zones, .jobOrder, .pwr] ⊆ P) (f n port) : ∀ (l) (s : State),
    (State.takeEntries f n port l s).mask P = s.mask P
  | [], _ => rfl
  | e :: es, s => by
    unfold State.takeEntries
    dsimp only
    split
    · exact (setCq_mask (List.Subset.trans (by decide) h) ..).trans (setSq_mask (List.Subset.trans (by decide) h) ..)
    · exact (takeEntries_mask h f n port es _).trans (takeEntry_mask h ..)
theorem endDiscard_mask (h : [.out, .rdma, .sqs, .cqs, .aborts, .zones] ⊆ P) (a b) :
    (State.endDiscard s a b).mask P = s.mask P := mask_mono h <| by
  unfold State.endDiscard
  dsimp only
  repeat' split
  all_goals simp +decide only [setSq_mask, complete_mask, mask_ite, ite_self, mask_foldl, implies_true]
theorem finishDiscard_mask (h : [.out, .rdma, .sqs, .cqs, .aborts, .zones] ⊆ P) (a b) :
    (State.finishDiscard s a b).mask P = s.mask P := mask_mono h <| by
  simp +decide only [State.finishDiscard, endDiscard_mask, mask_ite, ite_self, mask_foldl, implies_true]
theorem execEntryFetchResponse_leaves (a b c) :
    Leaves [.out, .rdma, .fns, .sqs, .cqs, .aborts, .zones, .jobOrder, .pwr] s (execEntryFetchResponse a b c s) := by
  unfold execEntryFetchResponse
  repeat' split
  all_goals simp +decide only [setCq_mask, setSq_mask, finishDiscard_mask, takeEntries_mask, answered_mask, fetchFn_mask,
      checkRing_mask, go, leaves_next, leaves_fault, leaves_ite, mask_ite, ite_self, mask_foldl, implies_true]
theorem execDoorbellPollIssue_leaves (a b) :
    Leaves [.out, .rdma, .bell, .fns] s (execDoorbellPollIssue a b s) := by
  unfold execDoorbellPollIssue
  repeat' split
  all_goals simp +decide only [issue_mask, setFn_mask, mask_bell, go, leaves_next, leaves_fault, leaves_ite, mask_ite,
      ite_self, mask_foldl, implies_true]
theorem doorbellFreeze_mask (h : [.out, .rdma, .sqs] ⊆ P) (a b c d) :
    (State.doorbellFreeze s a b c d).mask P = s.mask P := mask_mono h <| by
  simp +decide only [State.doorbellFreeze, notify_mask, setSq_mask, mask_ite, ite_self, mask_foldl, implies_true]
theorem judgeWord_mask (h : [.out, .rdma, .fns, .sqs, .pwr] ⊆ P) (a b c) :
    (State.judgeWord s a b c).mask P = s.mask P := mask_mono h <| by
  unfold State.judgeWord
  repeat' split
  all_goals simp +decide only [doorbellFreeze_mask, setSq_mask, wakeUp_mask, setFn_mask, mask_ite, ite_self, mask_foldl,
      implies_true]
theorem execDoorbellPollResponse_leaves (a b c) :
    Leaves [.out, .rdma, .fns, .sqs, .cqs, .pwr] s (execDoorbellPollResponse a b c s) := by
  unfold execDoorbellPollResponse
  repeat' split
  all_goals simp +decide only [judgeWord_mask, answered_mask, fetchFn_mask, setFn_mask, go, leaves_next, leaves_fault,
      leaves_ite, mask_ite, ite_self, mask_foldl, implies_true]
theorem execRingDoze_leaves (a b) :
    Leaves [.sqs] s (execRingDoze a b s) := by
  unfold execRingDoze
  repeat' split
  all_goals simp +decide only [setSq_mask, go, leaves_next, leaves_fault, leaves_ite, mask_ite, ite_self, mask_foldl,
      implies_true]
theorem execKnock_leaves (a b) :
    Leaves [.portA, .portB, .net, .fns, .pwr] s (execKnock a b s) := by
  simp +decide only [execKnock, setPort_mask, wakeUp_mask, setFn_mask, mask_net, go, leaves_next, leaves_fault, leaves_ite,
      mask_ite, ite_self, mask_foldl, implies_true]
theorem execHeadWordResponse_leaves (a b c) :
    Leaves [.out, .rdma, .fns, .sqs, .cqs] s (execHeadWordResponse a b c s) := by
  unfold execHeadWordResponse
  repeat' split
  all_goals simp +decide only [setCq_mask, answered_mask, fetchFn_mask, setFn_mask, go, leaves_next, leaves_fault,
      leaves_ite, mask_ite, ite_self, mask_foldl, implies_true]
theorem execChainedListResponse_leaves (a b) :
    Leaves [.out, .rdma, .fns, .sqs, .cqs, .aborts, .zones] s (execChainedListResponse a b s) := by
  unfold execChainedListResponse
  repeat' split
  all_goals simp +decide only [setCmd_mask, checkBuffer_mask, answered_mask, checkRing_mask, go, leaves_next, leaves_fault,
      leaves_ite, mask_ite, ite_self, mask_foldl, implies_true]
theorem execParameterBlockResponse_leaves (a b) :
    Leaves [.out, .rdma, .fns, .sqs, .cqs, .aborts, .zones] s (execParameterBlockResponse a b s) := by
  unfold execParameterBlockResponse
  dsimp only
  repeat' split
  all_goals simp +decide only [setCmd_mask, atPoint_mask, failCheck_mask, answered_mask, checkRing_mask, go, leaves_next,
      leaves_fault, leaves_ite, mask_ite, ite_self, mask_foldl, implies_true]
theorem execDataReadResponse_leaves (a b) :
    Leaves [.out, .rdma, .fns, .sqs, .cqs] s (execDataReadResponse a b s) := by
  unfold execDataReadResponse
  repeat' split
  all_goals simp +decide only [setCmd_mask, answered_mask, go, leaves_next, leaves_fault, leaves_ite, mask_ite, ite_self,
      mask_foldl, implies_true]
theorem creditOut_mask (h : [.jobs] ⊆ P) (a) :
    (State.creditOut s a).mask P = s.mask P := mask_mono h <| by
  unfold State.creditOut
  repeat' split
  all_goals simp +decide only [mask_jobs, mask_ite, ite_self, mask_foldl, implies_true]
theorem execCompletionAck_leaves (a b c) :
    Leaves [.out, .rdma, .fns, .sqs, .cqs, .aborts, .zones, .jobs] s (execCompletionAck a b c s) := by
  unfold execCompletionAck
  repeat' split
  all_goals simp +decide only [setCq_mask, complete_mask, sendDue_mask, progress_mask, creditOut_mask, mask_rdma,
      mask_aborts, go, leaves_next, leaves_fault, leaves_ite, mask_ite, ite_self, mask_foldl, implies_true]
theorem execNotifyDeadline_leaves (a b) :
    Leaves [.out, .rdma, .cqs] s (execNotifyDeadline a b s) := by
  unfold execNotifyDeadline
  repeat' split
  all_goals simp +decide only [setCq_mask, sendDue_mask, go, leaves_next, leaves_fault, leaves_ite, mask_ite, ite_self,
      mask_foldl, implies_true]
theorem dropWork_mask (h : [.rdma, .bell, .media] ⊆ P) (a) :
    (State.dropWork s a).mask P = s.mask P := mask_mono h <| by
  simp +decide only [State.dropWork, dropReads_mask, mask_rdma, mask_ite, ite_self, mask_foldl, implies_true]
theorem execInternalTimeout_leaves (a b) :
    Leaves [.out, .rdma, .bell, .sqs, .cqs, .aborts, .zones, .media, .loft, .events, .eventSeq] s (execInternalTimeout a b s)
        := by
  unfold execInternalTimeout
  repeat' split
  all_goals simp +decide only [dropWork_mask, complete_mask, checkRing_mask, event_mask, go, leaves_next, leaves_fault,
      leaves_ite, mask_ite, ite_self, mask_foldl, implies_true]
theorem execDrainEnd_leaves (a) :
    Leaves [.out, .rdma, .fns, .sqs, .cqs, .aborts, .zones] s (execDrainEnd a s) := by
  simp +decide only [execDrainEnd, complete_mask, setFn_mask, go, leaves_next, leaves_fault, leaves_ite, mask_ite, ite_self,
      mask_foldl, implies_true]
theorem goOn_mask (h : [.out, .rdma, .fns, .sqs, .cqs, .aborts, .zones] ⊆ P) (a b) :
    (State.goOn s a b).mask P = s.mask P := mask_mono h <| by
  simp +decide only [State.goOn, fetchFn_mask, checkRing_mask, mask_ite, ite_self, mask_foldl, implies_true]
theorem settle_mask (h : [.out, .rdma, .fns, .sqs, .cqs, .aborts, .zones] ⊆ P) (a) :
    (State.settle s a).mask P = s.mask P := mask_mono h <| by
  unfold State.settle
  repeat' split
  all_goals simp +decide only [atPoint_mask, goOn_mask, mask_ite, ite_self, mask_foldl, implies_true]
theorem start_leaves (h : [.out, .rdma, .fns, .sqs, .cqs, .aborts, .zones] ⊆ P) {r op} {k : Cmd → State}
    (hk : ∀ c, (k c).mask P = s.mask P) : Leaves P s (s.start r op k) := by
  unfold State.start
  repeat' split
  · exact leaves_next.mpr ((settle_mask h _).trans (hk _))
  · exact leaves_next.mpr (settle_mask h _)
  all_goals exact leaves_next.mpr rfl
theorem underRate_mask (h : [.out, .rdma, .fns, .sqs, .cqs, .aborts, .zones] ⊆ P) (r c) {k : State → State}
    (hk : ∀ x : State, (k x).mask P = x.mask P) : (s.underRate r c k).mask P = s.mask P := by
  unfold State.underRate
  split
  · exact fail_mask (List.Subset.trans (by decide) h) ..
  · rfl
  · exact (hk _).trans (setFn_mask (List.Subset.trans (by decide) h) ..)
theorem startRead_mask (h : [.out, .rdma, .sqs, .cqs, .aborts, .zones, .media] ⊆ P) (a b c) :
    (State.startRead s a b c).mask P = s.mask P := mask_mono h <| by
  simp +decide only [State.startRead, finishRead_mask, setCmd_mask, setMedia_mask, begin__mask, mask_ite, ite_self,
      mask_foldl, implies_true]
theorem doRead_mask (h : [.out, .rdma, .fns, .sqs, .cqs, .aborts, .zones, .media] ⊆ P) (a b) :
    (State.doRead s a b).mask P = s.mask P := mask_mono h <| by
  simp +decide only [State.doRead, underRate_mask, startRead_mask, mask_ite, ite_self, mask_foldl, implies_true]
theorem execRead_leaves (a) :
    Leaves [.out, .rdma, .fns, .sqs, .cqs, .aborts, .zones, .media] s (execRead a s) := by
  simp +decide only [execRead, start_leaves, doRead_mask, go, leaves_next, leaves_fault, leaves_ite, mask_ite, ite_self,
      mask_foldl, implies_true]
theorem doRandomRead_mask (h : [.out, .rdma, .fns, .sqs, .cqs, .aborts, .zones, .media] ⊆ P) (a b) :
    (State.doRandomRead s a b).mask P = s.mask P := mask_mono h <| by
  simp +decide only [State.doRandomRead, underRate_mask, startRead_mask, mask_ite, ite_self, mask_foldl, implies_true]
theorem execRandomRead_leaves (a) :
    Leaves [.out, .rdma, .fns, .sqs, .cqs, .aborts, .zones, .media] s (execRandomRead a s) := by
  simp +decide only [execRandomRead, start_leaves, doRandomRead_mask, go, leaves_next, leaves_fault, leaves_ite, mask_ite,
      ite_self, mask_foldl, implies_true]
theorem doReport_mask (h : [.out, .rdma, .sqs, .cqs, .aborts, .zones] ⊆ P) (a b) :
    (State.doReport s a b).mask P = s.mask P := mask_mono h <| by
  simp +decide only [State.doReport, complete_mask, sendOut_mask, begin__mask, mask_ite, ite_self, mask_foldl, implies_true]
theorem execReportZones_leaves (a) :
    Leaves [.out, .rdma, .fns, .sqs, .cqs, .aborts, .zones] s (execReportZones a s) := by
  simp +decide only [execReportZones, start_leaves, doReport_mask, go, leaves_next, leaves_fault, leaves_ite, mask_ite,
      ite_self, mask_foldl, implies_true]
theorem startWrite_mask (h : [.out, .rdma, .fns, .sqs, .cqs, .aborts, .zones] ⊆ P) (a b) :
    (State.startWrite s a b).mask P = s.mask P := mask_mono h <| by
  simp +decide only [State.startWrite, issue_mask, underRate_mask, begin__mask, mask_ite, ite_self, mask_foldl, implies_true]
theorem execWrite_leaves (a) :
    Leaves [.out, .rdma, .fns, .sqs, .cqs, .aborts, .zones] s (execWrite a s) := by
  simp +decide only [execWrite, start_leaves, startWrite_mask, go, leaves_next, leaves_fault, leaves_ite, mask_ite, ite_self,
      mask_foldl, implies_true]
theorem execZoneAppend_leaves (a) :
    Leaves [.out, .rdma, .fns, .sqs, .cqs, .aborts, .zones] s (execZoneAppend a s) := by
  simp +decide only [execZoneAppend, start_leaves, startWrite_mask, go, leaves_next, leaves_fault, leaves_ite, mask_ite,
      ite_self, mask_foldl, implies_true]
theorem execRandomWrite_leaves (a) :
    Leaves [.out, .rdma, .fns, .sqs, .cqs, .aborts, .zones] s (execRandomWrite a s) := by
  simp +decide only [execRandomWrite, start_leaves, startWrite_mask, go, leaves_next, leaves_fault, leaves_ite, mask_ite,
      ite_self, mask_foldl, implies_true]
theorem unpark_mask (h : [.zones, .media, .staged] ⊆ P) (a) :
    (State.unpark s a).mask P = s.mask P := mask_mono h <| by
  unfold State.unpark
  repeat' split
  all_goals simp +decide only [unparkZone_mask, mask_staged, mask_ite, ite_self, mask_foldl, implies_true]
theorem store_mask (h : [.zones, .units, .media, .staged, .dram, .health] ⊆ P) (z n lclass us) :
    (s.store z n lclass us).mask P = s.mask P := mask_mono h <| by
  unfold State.store
  refine (journalRec_mask (by decide) _).trans ?_
  have hs : ∀ v w g, State.mask [.zones, .units, .media, .staged, .dram, .health]
      (({ ({ s.unpark z with units := v, staged := (s.unpark z).staged + us.length } : State) with health := w } :
          State).setZone z g) =
        s.mask [.zones, .units, .media, .staged, .dram, .health] := fun v w g => (setZone_mask (by decide) ..).trans
      ((mask_health (by decide) _).trans ((mask_units_staged (by decide) ..).trans (unpark_mask (by decide) _)))
  split
  · exact (queueUnits_mask (by decide) ..).trans (hs ..)
  · exact hs ..
theorem commitZone_mask (h : [.out, .rdma, .ledger, .sqs, .cqs, .aborts, .zones, .units, .media, .staged, .dram, .health] ⊆
    P) (a b) :
    (State.commitZone s a b).mask P = s.mask P := mask_mono h <| by
  unfold State.commitZone
  dsimp only
  repeat' split
  all_goals simp +decide only [complete_mask, store_mask, State.commit, mask_ledger, fail_mask, mask_ite, ite_self,
      mask_foldl, implies_true]
theorem commitRandom_mask (h : [.out, .rdma, .ledger, .bell, .sqs, .cqs, .aborts, .zones, .rand, .media, .staged, .dram,
    .loft, .health, .events, .eventSeq] ⊆ P) (a b) :
    (State.commitRandom s a b).mask P = s.mask P := mask_mono h <| by
  unfold State.commitRandom
  dsimp only
  repeat' split
  all_goals simp +decide only [placeRand_mask, complete_mask, raFit_mask, State.commit, mask_ledger, fail_mask, mask_health,
      mask_ite, ite_self, mask_foldl, implies_true]
theorem manage_mask (h : [.out, .rdma, .ledger, .sqs, .cqs, .aborts, .zones] ⊆ P) (r c) {k : State → State}
    (hk : ∀ x : State, (k x).mask P = x.mask P) : (s.manage r c k).mask P = s.mask P := by
  unfold State.manage
  repeat' split
  · rfl
  · exact fail_mask (List.Subset.trans (by decide) h) ..
  · exact (complete_mask (List.Subset.trans (by decide) h) ..).trans ((hk _).trans ((mask_ledger (h (by decide)) _).trans
      (begin__mask (List.Subset.trans (by decide) h) ..)))
theorem openEffect_mask (h : [.out, .rdma, .bell, .cursors, .zones, .media, .staged, .dram, .loft, .events, .eventSeq] ⊆ P)
    (a b) :
    (State.openEffect s a b).mask P = s.mask P := mask_mono h <| by
  unfold State.openEffect
  dsimp only
  repeat' split
  all_goals simp +decide only [setZone_mask, setSlot_mask, unpark_mask, journalRec_mask, capCheck_mask, mask_cursors,
      mask_ite, ite_self, mask_foldl, implies_true]
theorem doOpen_mask (h : [.out, .rdma, .ledger, .bell, .sqs, .cqs, .aborts, .cursors, .zones, .media, .staged, .dram, .loft,
    .events, .eventSeq] ⊆ P) (r c) :
    (s.doOpen r c).mask P = s.mask P := mask_mono h <| by
  unfold State.doOpen
  dsimp only
  repeat' split
  · rfl
  · exact manage_mask (by decide) _ _ fun x => openEffect_mask (by decide) ..
  · exact manage_mask (by decide) _ _ fun x => rfl
  · rfl
  · exact manage_mask (by decide) _ _ fun x => openEffect_mask (by decide) ..
theorem execOpenZone_leaves (a) :
    Leaves [.out, .rdma, .ledger, .bell, .fns, .sqs, .cqs, .aborts, .cursors, .zones, .media, .staged, .dram, .loft, .events,
        .eventSeq] s (execOpenZone a s) := by
  simp +decide only [execOpenZone, start_leaves, doOpen_mask, go, leaves_next, leaves_fault, leaves_ite, mask_ite, ite_self,
      mask_foldl, implies_true]
theorem closeEffect_mask (h : [.zones, .media, .dram] ⊆ P) (a) :
    (State.closeEffect s a).mask P = s.mask P := mask_mono h <| by
  unfold State.closeEffect
  dsimp only
  repeat' split
  all_goals simp +decide only [setZone_mask, journalRec_mask, park_mask, mask_ite, ite_self, mask_foldl, implies_true]
theorem doClose_mask (h : [.out, .rdma, .ledger, .sqs, .cqs, .aborts, .zones, .media, .dram] ⊆ P) (a b) :
    (State.doClose s a b).mask P = s.mask P := mask_mono h <| by
  simp +decide only [State.doClose, closeEffect_mask, manage_mask, mask_ite, ite_self, mask_foldl, implies_true]
theorem execCloseZone_leaves (a) :
    Leaves [.out, .rdma, .ledger, .fns, .sqs, .cqs, .aborts, .zones, .media, .dram] s (execCloseZone a s) := by
  simp +decide only [execCloseZone, doClose_mask, start_leaves, go, leaves_next, leaves_fault, leaves_ite, mask_ite,
      ite_self, mask_foldl, implies_true]
theorem padRow_mask (h : [.media, .staged] ⊆ P) (a) :
    (State.padRow s a).mask P = s.mask P := mask_mono h <| by
  unfold State.padRow
  dsimp only
  repeat' split
  all_goals simp +decide only [setMedia_mask, queueUnit_mask, mask_staged, mask_ite, ite_self, mask_foldl, implies_true]
theorem finishEffect_mask (h : [.zones, .media, .staged, .dram] ⊆ P) (a) :
    (State.finishEffect s a).mask P = s.mask P := mask_mono h <| by
  unfold State.finishEffect
  dsimp only
  repeat' split
  all_goals simp +decide only [padRow_mask, setZone_mask, unpark_mask, journalRec_mask, rowStep_mask, mask_ite, ite_self,
      mask_foldl, implies_true]
theorem doFinish_mask (h : [.out, .rdma, .ledger, .sqs, .cqs, .aborts, .zones, .media, .staged, .dram] ⊆ P) (a b) :
    (State.doFinish s a b).mask P = s.mask P := mask_mono h <| by
  simp +decide only [State.doFinish, finishEffect_mask, manage_mask, mask_ite, ite_self, mask_foldl, implies_true]
theorem execFinishZone_leaves (a) :
    Leaves [.out, .rdma, .ledger, .fns, .sqs, .cqs, .aborts, .zones, .media, .staged, .dram] s (execFinishZone a s) := by
  simp +decide only [execFinishZone, start_leaves, doFinish_mask, go, leaves_next, leaves_fault, leaves_ite, mask_ite,
      ite_self, mask_foldl, implies_true]
theorem emptyZone_mask (h : [.out, .rdma, .bell, .zones, .units, .media, .staged, .dram, .loft, .events, .eventSeq] ⊆ P) (z) :
    (s.emptyZone z).mask P = s.mask P := mask_mono h <| by
  unfold State.emptyZone
  dsimp only
  split
  · rfl
  · split
    · exact (journalRec_mask (by decide) _).trans ((setSlot_mask (by decide) _ _).trans ((endCopies_mask (by decide) _).trans
        ((mask_units_staged (by decide) _ _).trans ((dropSlotWork_mask (by decide) _).trans ((setMedia_mask (by decide) _).trans
          ((setZone_mask (by decide) _ _).trans (unpark_mask (by decide) _)))))))
    · exact (releaseSlot_mask (by decide) _).trans ((mask_units (by decide) _).trans ((setMedia_mask (by decide) _).trans
        ((setZone_mask (by decide) _ _).trans ((unparkZone_mask (by decide) _).trans (mask_staged (by decide) _)))))
theorem doReset_mask (h : [.out, .rdma, .ledger, .bell, .sqs, .cqs, .aborts, .zones, .units, .media, .staged, .dram, .loft,
    .events, .eventSeq] ⊆ P) (a b) :
    (State.doReset s a b).mask P = s.mask P := mask_mono h <| by
  simp +decide only [State.doReset, emptyZone_mask, manage_mask, capCheck_mask, mask_ite, ite_self, mask_foldl, implies_true]
theorem execResetZone_leaves (a) :
    Leaves [.out, .rdma, .ledger, .bell, .fns, .sqs, .cqs, .aborts, .zones, .units, .media, .staged, .dram, .loft, .events,
        .eventSeq] s (execResetZone a s) := by
  simp +decide only [execResetZone, start_leaves, doReset_mask, go, leaves_next, leaves_fault, leaves_ite, mask_ite,
      ite_self, mask_foldl, implies_true]
theorem doTrim_mask (h : [.out, .rdma, .ledger, .sqs, .cqs, .aborts, .zones, .rand, .media, .dram] ⊆ P) (r c) :
    (s.doTrim r c).mask P = s.mask P := mask_mono h <| by
  unfold State.doTrim
  split
  · rfl
  · split
    · exact fail_mask (by decide) ..
    · exact (complete_mask (by decide) ..).trans ((journalRec_mask (by decide) _).trans ((setMedia_mask (by decide) _).trans
        ((mask_rand (by decide) _).trans ((mask_ledger (by decide) _).trans (begin__mask (by decide) ..)))))
theorem execRandomTrim_leaves (a) :
    Leaves [.out, .rdma, .ledger, .fns, .sqs, .cqs, .aborts, .zones, .rand, .media, .dram] s (execRandomTrim a s) := by
  simp +decide only [execRandomTrim, start_leaves, doTrim_mask, go, leaves_next, leaves_fault, leaves_ite, mask_ite,
      ite_self, mask_foldl, implies_true]
theorem setJob_mask (h : [.jobs] ⊆ P) (a b) :
    (State.setJob s a b).mask P = s.mask P := mask_mono h <| by
  simp +decide only [State.setJob, mask_jobs, mask_ite, ite_self, mask_foldl, implies_true]
theorem issueRead_mask (h : [.media] ⊆ P) (x pc addr b) : (s.issueRead x pc addr b).2.mask P = s.mask P := setMedia_mask h _
theorem appendJob_mask (h : [.ledger, .fns, .zones, .units, .media, .staged, .dram, .health] ⊆ P) {x q st a} {t : State}
    (e : s.appendJob x q = some (st, a, t)) : t.mask P = s.mask P := mask_mono h <| by
  unfold State.appendJob at e
  obtain ⟨rate, hrate⟩ : ∃ r, r = @State.rate := ⟨_, rfl⟩
  obtain ⟨fails, hfails⟩ : ∃ r, r = @State.reqFails := ⟨_, rfl⟩
  obtain ⟨held, hheld⟩ : ∃ r, r = @State.zoneHeld := ⟨_, rfl⟩
  rw [← hrate, ← hfails, ← hheld] at e
  clear hrate hfails hheld
  dsimp only at e
  split at e
  · exact congrArg _ (congrArg (·.2.2) (Option.some.inj e)).symm
  · split at e
    · exact congrArg _ (congrArg (·.2.2) (Option.some.inj e)).symm
    · cases e
    · split at e
      · cases e
      · refine .trans (congrArg _ (congrArg (·.2.2) (Option.some.inj e)).symm) ?_
        exact (store_mask (by decide) ..).trans ((mask_ledger (by decide) _).trans (setFn_mask (by decide) ..))
theorem createJob_mask (h : [.jobs] ⊆ P) (a b) :
    (State.createJob s a b).mask P = s.mask P := mask_mono h <| by
  unfold State.createJob
  repeat' split
  all_goals simp +decide only [mask_jobs, mask_ite, ite_self, mask_foldl, implies_true]
theorem ready_mask (h : [.hamlets, .disp] ⊆ P) (a b c) :
    (State.ready s a b c).mask P = s.mask P := mask_mono h <| by
  simp +decide only [State.ready, setHamlet_mask, mask_disp, mask_ite, ite_self, mask_foldl, implies_true]
theorem postItem_mask (h : [.jobs, .hamlets, .disp] ⊆ P) (a b c d e) :
    (State.postItem s a b c d e).mask P = s.mask P := mask_mono h <| by
  unfold State.postItem
  repeat' split
  all_goals simp +decide only [ready_mask, setJob_mask, mask_ite, ite_self, mask_foldl, implies_true]
theorem acceptAppends_mask (h : [.ledger, .fns, .zones, .units, .media, .staged, .dram, .health] ⊆ P) (j) :
    (s.acceptAppends j).mask P = s.mask P := mask_mono h <| by
  unfold State.acceptAppends
  split
  · refine mask_foldl (fun x q => ?_) _ s
    split
    · exact appendJob_mask (by decide) ‹_›
    · rfl
  · rfl
theorem dropJobReads_mask (h : [.bell, .media] ⊆ P) (a) :
    (State.dropJobReads s a).mask P = s.mask P := mask_mono h <| by
  simp +decide only [State.dropJobReads, dropReads_mask, mask_ite, ite_self, mask_foldl, implies_true]
theorem dropItems_mask (h : [.ledger, .bell, .fns, .zones, .units, .media, .staged, .cores, .hamlets, .disp, .dram, .health]
    ⊆ P) (j) :
    (s.dropItems j).mask P = s.mask P := mask_mono h <| by
  have htrace : ∀ (x : State) e h c i, (x.trace e h c i 0 0).mask [.ledger, .bell, .fns, .zones, .units, .media, .staged,
      .cores,
      .hamlets, .disp, .dram, .health] = x.mask [.ledger, .bell, .fns, .zones, .units, .media, .staged, .cores, .hamlets, .disp,
      .dram, .health] := fun x e h c i => trace_mask (by decide) ..
  unfold State.dropItems
  refine (mask_cores_hamlets_disp (by decide) ..).trans ((mask_foldl (fun x e => ?_) _ _).trans
    ((mask_foldl (fun x e => mask_foldl (fun _ _ => htrace ..) _ x) _ _).trans
      ((dropJobReads_mask (by decide) _).trans (acceptAppends_mask (by decide) _))))
  refine (mask_foldl (fun _ _ => htrace ..) _ _).trans ?_
  split
  · split
    · exact htrace ..
    · rfl
  · rfl
theorem dropScans_mask (h : [.bell, .media] ⊆ P) (a) :
    (State.dropScans s a).mask P = s.mask P := mask_mono h <| by
  simp +decide only [State.dropScans, dropReads_mask, setMedia_mask, mask_bell, mask_ite, ite_self, mask_foldl, implies_true]
theorem removeJob_mask (h : [.ledger, .bell, .fns, .zones, .units, .media, .staged, .jobs, .cores, .hamlets, .disp, .dram,
    .health] ⊆ P) (a) :
    (State.removeJob s a).mask P = s.mask P := mask_mono h <| by
  simp +decide only [State.removeJob, dropItems_mask, dropScans_mask, mask_jobs_hamlets, mask_ite, ite_self, mask_foldl,
      implies_true]
theorem stopItems_mask (h : [.ledger, .bell, .fns, .zones, .units, .media, .staged, .jobs, .cores, .hamlets, .disp, .dram,
    .health] ⊆ P) (a) :
    (State.stopItems s a).mask P = s.mask P := mask_mono h <| by
  simp +decide only [State.stopItems, dropItems_mask, setJob_mask, dropScans_mask, mask_ite, ite_self, mask_foldl, implies_true]
theorem faultRecord_mask (h : [.fns] ⊆ P) (a b) :
    (State.faultRecord s a b).mask P = s.mask P := mask_mono h <| by
  simp +decide only [State.faultRecord, setFn_mask, mask_ite, ite_self, mask_foldl, implies_true]
theorem endJob_mask (h : [.out, .rdma, .ledger, .bell, .fns, .sqs, .cqs, .aborts, .zones, .units, .media, .staged, .jobs,
    .cores, .hamlets, .disp, .dram, .health] ⊆ P) (a b) :
    (State.endJob s a b).mask P = s.mask P := mask_mono h <| by
  unfold State.endJob
  repeat' split
  all_goals simp +decide only [complete_mask, removeJob_mask, faultRecord_mask, mask_ite, ite_self, mask_foldl, implies_true]
theorem jobFault_mask (h : [.jobs] ⊆ P) (a b c d e f) :
    (State.jobFault s a b c d e f).mask P = s.mask P := mask_mono h <| by
  unfold State.jobFault
  repeat' split
  all_goals simp +decide only [setJob_mask, mask_ite, ite_self, mask_foldl, implies_true]
theorem haltCore_mask (h : [.jobs, .cores] ⊆ P) (a b) :
    (State.haltCore s a b).mask P = s.mask P := mask_mono h <| by
  simp +decide only [State.haltCore, setJob_mask, setCore_mask, mask_ite, ite_self, mask_foldl, implies_true]
theorem deliver_mask (h : [.out, .rdma, .jobs] ⊆ P) (a) :
    (State.deliver s a).mask P = s.mask P := mask_mono h <| by
  unfold State.deliver
  repeat' split
  all_goals simp +decide only [issue_mask, setJob_mask, mask_ite, ite_self, mask_foldl, implies_true]
theorem output_mask (h : [.out, .rdma, .jobs] ⊆ P) (a b) :
    (State.output s a b).mask P = s.mask P := mask_mono h <| by
  simp +decide only [State.output, setJob_mask, deliver_mask, mask_ite, ite_self, mask_foldl, implies_true]
theorem gateNext_mask (h : [.out, .rdma, .bell, .jobs, .sieve, .loft, .events, .eventSeq] ⊆ P) (j x sz b) :
    (s.gateNext j x sz b).mask P = s.mask P := mask_mono h <| by
  unfold State.gateNext
  cases b with
  | none => exact setJob_mask (by decide) _ _
  | some b => exact (setJob_mask (by decide) _ _).trans ((gate_mask (by decide) ..).trans (setJob_mask (by decide) _ _))
theorem gateWaiting_mask (h : [.out, .rdma, .bell, .jobs, .sieve, .loft, .events, .eventSeq] ⊆ P) (j z : Nat) :
    ∀ (n : Nat) (s : State), (State.gateWaiting j z n s).mask P = s.mask P
  | 0, _ => rfl
  | n + 1, s => by
    unfold State.gateWaiting
    split
    · rfl
    · split
      · rfl
      · split
        · exact (gateWaiting_mask h j z n _).trans (gateNext_mask h ..)
        · rfl
theorem scanArrive_mask (h : [.out, .rdma, .bell, .jobs, .sieve, .loft, .events, .eventSeq] ⊆ P) (a b c d) :
    (State.scanArrive s a b c d).mask P = s.mask P := mask_mono h <| by
  simp +decide only [State.scanArrive, gateWaiting_mask, setJob_mask, mask_zones, mask_ite, ite_self, mask_foldl, implies_true]
theorem scanUnit_mask (h : [.out, .rdma, .ledger, .bell, .fns, .sqs, .cqs, .aborts, .zones, .units, .media, .staged, .jobs,
    .cores, .hamlets, .disp, .sieve, .dram, .loft, .health, .events, .eventSeq] ⊆ P) (a b c d) :
    (State.scanUnit s a b c d).mask P = s.mask P := mask_mono h <| by
  unfold State.scanUnit
  repeat' split
  all_goals simp +decide only [scanArrive_mask, endJob_mask, mask_ite, ite_self, mask_foldl, implies_true]
theorem planUnit_mask (h : [.out, .rdma, .ledger, .bell, .fns, .sqs, .cqs, .aborts, .zones, .units, .media, .staged, .jobs,
    .cores, .hamlets, .disp, .sieve, .dram, .loft, .health, .events, .eventSeq] ⊆ P) (j z) :
    (s.planUnit j z).mask P = s.mask P := mask_mono h <| by
  unfold State.planUnit
  obtain ⟨rate, hrate⟩ : ∃ r, r = @State.rate := ⟨_, rfl⟩
  rw [← hrate]
  obtain ⟨unitAt, hunit⟩ : ∃ r, r = @State.scanUnitAt := ⟨_, rfl⟩
  obtain ⟨staged, hstaged⟩ : ∃ r, r = @State.scanStaged := ⟨_, rfl⟩
  obtain ⟨memOut, hmem⟩ : ∃ r, r = @State.memOut := ⟨_, rfl⟩
  rw [← hunit, ← hstaged, ← hmem]
  clear hrate hunit hstaged hmem
  split
  · rfl
  · dsimp only
    split
    · split
      · exact (scanUnit_mask (by decide) ..).trans ((setJob_mask (by decide) ..).trans (setFn_mask (by decide) ..))
      · split
        · exact (scanArrive_mask (by decide) ..).trans ((setJob_mask (by decide) ..).trans (setFn_mask (by decide) ..))
        · split
          · exact (scanUnit_mask (by decide) ..).trans ((setJob_mask (by decide) ..).trans (setFn_mask (by decide) ..))
          · split
            · exact (setMedia_mask (by decide) ..).trans ((setJob_mask (by decide) ..).trans (setFn_mask (by decide) ..))
            · exact (setMedia_mask (by decide) ..).trans ((setJob_mask (by decide) ..).trans (setFn_mask (by decide) ..))
    · rfl
theorem feedScan_mask (h : [.out, .rdma, .ledger, .bell, .fns, .sqs, .cqs, .aborts, .zones, .units, .media, .staged, .jobs,
    .cores, .hamlets, .disp, .sieve, .dram, .loft, .health, .events, .eventSeq] ⊆ P)  :
    (s.feedScan).mask P = s.mask P := mask_mono h <| by
  refine mask_foldl (fun x e => ?_) _ s
  split
  · rfl
  · refine mask_foldl (fun y z => mask_foldl (fun v _ => ?_) _ y) _ x
    split
    · dsimp only
      split
      · exact planUnit_mask (by decide) ..
      · rfl
    · rfl
theorem execScan_leaves (a) :
    Leaves [.out, .rdma, .fns, .sqs, .cqs, .aborts, .zones, .jobs] s (execScan a s) := by
  simp +decide only [execScan, createJob_mask, settle_mask, go, leaves_next, leaves_fault, leaves_ite, mask_ite, ite_self,
      mask_foldl, implies_true]
theorem execRun_leaves (a) :
    Leaves [.out, .rdma, .fns, .sqs, .cqs, .aborts, .zones, .jobs] s (execRun a s) := by
  simp +decide only [execRun, createJob_mask, settle_mask, go, leaves_next, leaves_fault, leaves_ite, mask_ite, ite_self,
      mask_foldl, implies_true]
theorem loadJob_mask (h : [.sqs, .jobs, .hamlets] ⊆ P) (a b) :
    (State.loadJob s a b).mask P = s.mask P := mask_mono h <| by
  simp +decide only [State.loadJob, setJob_mask, setHamlet_mask, begin__mask, mask_ite, ite_self, mask_foldl, implies_true]
theorem execJobLoadStart_leaves (a) :
    Leaves [.out, .rdma, .ledger, .bell, .fns, .sqs, .cqs, .aborts, .zones, .units, .media, .staged, .jobs, .cores, .hamlets,
        .disp, .dram, .health] s (execJobLoadStart a s) := by
  unfold execJobLoadStart
  repeat' split
  all_goals simp +decide only [loadJob_mask, endJob_mask, go, leaves_next, leaves_fault, leaves_ite, mask_ite, ite_self,
      mask_foldl, implies_true]
theorem execJobLoaded_leaves (a) :
    Leaves [.ledger, .sqs, .jobs, .hamlets, .disp] s (execJobLoaded a s) := by
  unfold execJobLoaded
  dsimp only
  repeat' split
  all_goals simp +decide only [setCmd_mask, setJob_mask, postItem_mask, State.commit, mask_ledger, go, leaves_next,
      leaves_fault, leaves_ite, mask_ite, ite_self, mask_foldl, implies_true]
theorem execJobLoadTimeout_leaves (a) :
    Leaves [.out, .rdma, .ledger, .bell, .fns, .sqs, .cqs, .aborts, .zones, .units, .media, .staged, .jobs, .cores, .hamlets,
        .disp, .dram, .loft, .health, .events, .eventSeq] s (execJobLoadTimeout a s) := by
  unfold execJobLoadTimeout
  repeat' split
  all_goals simp +decide only [endJob_mask, event_mask, go, leaves_next, leaves_fault, leaves_ite, mask_ite, ite_self,
      mask_foldl, implies_true]
theorem execJobTimeLimit_leaves (a) :
    Leaves [.jobs] s (execJobTimeLimit a s) := by
  unfold execJobTimeLimit
  repeat' split
  all_goals simp +decide only [jobFault_mask, go, leaves_next, leaves_fault, leaves_ite, mask_ite, ite_self, mask_foldl,
      implies_true]
theorem finishJob_mask (h : [.out, .rdma, .ledger, .bell, .fns, .sqs, .cqs, .aborts, .zones, .units, .media, .staged, .jobs,
    .cores, .hamlets, .disp, .dram, .health] ⊆ P) (a b) :
    (State.finishJob s a b).mask P = s.mask P := mask_mono h <| by
  unfold State.finishJob
  dsimp only
  repeat' split
  all_goals simp +decide only [deliver_mask, endJob_mask, mask_ite, ite_self, mask_foldl, implies_true]
theorem execJobStop_leaves (a) :
    Leaves [.out, .rdma, .ledger, .bell, .fns, .sqs, .cqs, .aborts, .zones, .units, .media, .staged, .jobs, .cores, .hamlets,
        .disp, .dram, .health] s (execJobStop a s) := by
  unfold execJobStop
  repeat' split
  all_goals simp +decide only [finishJob_mask, stopItems_mask, go, leaves_next, leaves_fault, leaves_ite, mask_ite, ite_self,
      mask_foldl, implies_true]
theorem execJobComplete_leaves (a) :
    Leaves [.out, .rdma, .ledger, .bell, .fns, .sqs, .cqs, .aborts, .zones, .units, .media, .staged, .jobs, .cores, .hamlets,
        .disp, .dram, .health] s (execJobComplete a s) := by
  unfold execJobComplete
  repeat' split
  all_goals simp +decide only [finishJob_mask, endJob_mask, go, leaves_next, leaves_fault, leaves_ite, mask_ite, ite_self,
      mask_foldl, implies_true]
theorem execBatchPost_leaves (a b) :
    Leaves [.out, .rdma, .jobs, .hamlets, .disp] s (execBatchPost a b s) := by
  unfold execBatchPost
  dsimp only
  repeat' split
  all_goals simp +decide only [output_mask, setJob_mask, postItem_mask, go, leaves_next, leaves_fault, leaves_ite, mask_ite,
      ite_self, mask_foldl, implies_true]
theorem execGateContextPause_leaves (a b) :
    Leaves [.jobs] s (execGateContextPause a b s) := by
  unfold execGateContextPause
  repeat' split
  all_goals simp +decide only [setJob_mask, go, leaves_next, leaves_fault, leaves_ite, mask_ite, ite_self, mask_foldl,
      implies_true]
theorem execOutputAppend_leaves (a) :
    Leaves [.out, .rdma, .ledger, .bell, .fns, .sqs, .cqs, .aborts, .zones, .units, .media, .staged, .jobs, .cores, .hamlets,
        .disp, .dram, .health] s (execOutputAppend a s) := by
  unfold execOutputAppend
  dsimp only
  repeat' split
  all_goals simp +decide only [store_mask, setJob_mask, State.commit, mask_ledger, endJob_mask, go, leaves_next,
      leaves_fault, leaves_ite, mask_ite, ite_self, mask_foldl, implies_true]
theorem execOutputPause_leaves (a) :
    Leaves [.out, .rdma, .jobs] s (execOutputPause a s) := by
  unfold execOutputPause
  repeat' split
  all_goals simp +decide only [setJob_mask, deliver_mask, go, leaves_next, leaves_fault, leaves_ite, mask_ite, ite_self,
      mask_foldl, implies_true]
theorem execQuantumAssignment_leaves  :
    Leaves [.disp] s (execQuantumAssignment s) := by
  simp +decide only [execQuantumAssignment, traceGrant_mask, mask_disp, go, leaves_next, leaves_fault, leaves_ite, mask_ite,
      ite_self, mask_foldl, implies_true]
theorem passOver_mask (h : [.disp] ⊆ P) (a b c) :
    (State.passOver s a b c).mask P = s.mask P := mask_mono h <| by
  simp +decide only [State.passOver, trace_mask, mask_disp, mask_ite, ite_self, mask_foldl, implies_true]
theorem leave_mask (h : [.hamlets] ⊆ P) (a b) :
    (State.leave s a b).mask P = s.mask P := mask_mono h <| by
  simp +decide only [State.leave, setHamlet_mask, mask_ite, ite_self, mask_foldl, implies_true]
theorem unready_mask (h : [.hamlets, .disp] ⊆ P) (a b) :
    (State.unready s a b).mask P = s.mask P := mask_mono h <| by
  simp +decide only [State.unready, setHamlet_mask, mask_disp, mask_ite, ite_self, mask_foldl, implies_true]
theorem putBack_mask (h : [.hamlets, .disp] ⊆ P) (a b) :
    (State.putBack s a b).mask P = s.mask P := mask_mono h <| by
  simp +decide only [State.putBack, setHamlet_mask, mask_disp, mask_ite, ite_self, mask_foldl, implies_true]
theorem startItem_mask (h : [.cores, .disp] ⊆ P) (a b c d) :
    (State.startItem s a b c d).mask P = s.mask P := mask_mono h <| by
  unfold State.startItem
  repeat' split
  all_goals simp +decide only [trace_mask, setCore_mask, mask_ite, ite_self, mask_foldl, implies_true]
theorem execItemStart_leaves (a) :
    Leaves [.cores, .hamlets, .disp] s (execItemStart a s) := by
  unfold execItemStart
  dsimp only
  repeat' split
  all_goals simp +decide only [leave_mask, passOver_mask, setCore_mask, startItem_mask, unready_mask, go, leaves_next,
      leaves_fault, leaves_ite, mask_ite, ite_self, mask_foldl, implies_true]
theorem execSlotFill_leaves (a) :
    Leaves [.cores, .hamlets, .disp] s (execSlotFill a s) := by
  unfold execSlotFill
  dsimp only
  repeat' split
  all_goals simp +decide only [passOver_mask, setCore_mask, unready_mask, go, leaves_next, leaves_fault, leaves_ite,
      mask_ite, ite_self, mask_foldl, implies_true]
theorem parkItem_mask (h : [.cores, .disp] ⊆ P) (a) :
    (State.parkItem s a).mask P = s.mask P := mask_mono h <| by
  unfold State.parkItem
  repeat' split
  all_goals simp +decide only [trace_mask, setCore_mask, mask_ite, ite_self, mask_foldl, implies_true]
theorem unslot_mask (h : [.cores, .hamlets, .disp] ⊆ P) (a b) :
    (State.unslot s a b).mask P = s.mask P := mask_mono h <| by
  unfold State.unslot
  repeat' split
  all_goals simp +decide only [setCore_mask, putBack_mask, mask_ite, ite_self, mask_foldl, implies_true]
theorem resumeItem_mask (h : [.cores, .disp] ⊆ P) (a b) :
    (State.resumeItem s a b).mask P = s.mask P := mask_mono h <| by
  unfold State.resumeItem
  dsimp only
  repeat' split
  all_goals simp +decide only [trace_mask, setCore_mask, mask_ite, ite_self, mask_foldl, implies_true]
theorem steal_mask (h : [.cores, .hamlets, .disp] ⊆ P) (a b) :
    (State.steal s a b).mask P = s.mask P := mask_mono h <| by
  unfold State.steal
  dsimp only
  repeat' split
  all_goals simp +decide only [leave_mask, trace_mask, startItem_mask, unready_mask, mask_ite, ite_self, mask_foldl,
      implies_true]
theorem execQuantumEnd_leaves (a) :
    Leaves [.cores, .hamlets, .disp] s (execQuantumEnd a s) := by
  unfold execQuantumEnd
  dsimp only
  repeat' split
  all_goals simp +decide only [steal_mask, resumeItem_mask, unslot_mask, parkItem_mask, go, leaves_next, leaves_fault,
      leaves_ite, mask_ite, ite_self, mask_foldl, implies_true]
theorem retireCore_mask (h : [.out, .rdma, .ledger, .bell, .fns, .sqs, .cqs, .aborts, .zones, .units, .media, .staged, .jobs,
    .cores, .hamlets, .disp, .dram, .health] ⊆ P) (a b) :
    (State.retireCore s a b).mask P = s.mask P := mask_mono h <| by
  unfold State.retireCore
  dsimp only
  repeat' split
  all_goals simp +decide only [setHamlet_mask, setCore_mask, putBack_mask, endJob_mask, mask_ite, ite_self, mask_foldl,
      implies_true]
theorem execCoreRetire_leaves (a b) :
    Leaves [.out, .rdma, .ledger, .bell, .fns, .sqs, .cqs, .aborts, .zones, .units, .media, .staged, .jobs, .cores, .hamlets,
        .disp, .dram, .health] s (execCoreRetire a b s) := by
  simp +decide only [execCoreRetire, retireCore_mask, go, leaves_next, leaves_fault, leaves_ite, mask_ite, ite_self,
      mask_foldl, implies_true]
theorem execCoreSelfTest_leaves (a b c) :
    Leaves [.out, .rdma, .ledger, .bell, .fns, .sqs, .cqs, .aborts, .zones, .units, .media, .staged, .jobs, .cores, .hamlets,
        .disp, .dram, .health] s (execCoreSelfTest a b c s) := by
  simp +decide only [execCoreSelfTest, retireCore_mask, go, leaves_next, leaves_fault, leaves_ite, mask_ite, ite_self,
      mask_foldl, implies_true]
theorem execFlush_leaves (a) :
    Leaves [.out, .rdma, .fns, .sqs, .cqs, .aborts, .zones] s (execFlush a s) := by
  simp +decide only [execFlush, start_leaves, complete_mask, begin__mask, go, leaves_next, leaves_fault, leaves_ite,
      mask_ite, ite_self, mask_foldl, implies_true]
theorem dropJobOf_mask (h : [.ledger, .bell, .fns, .zones, .units, .media, .staged, .jobs, .cores, .hamlets, .disp, .dram,
    .health] ⊆ P) (a) :
    (State.dropJobOf s a).mask P = s.mask P := mask_mono h <| by
  unfold State.dropJobOf
  repeat' split
  all_goals simp +decide only [removeJob_mask, mask_ite, ite_self, mask_foldl, implies_true]
theorem dropTask_mask (h : [.loft, .life, .act] ⊆ P) (a) :
    (State.dropTask s a).mask P = s.mask P := mask_mono h <| by
  simp +decide only [State.dropTask, select_mask, mask_act, mask_life, mask_ite, ite_self, mask_foldl, implies_true]
theorem abortNow_mask (h : [.out, .rdma, .ledger, .bell, .fns, .sqs, .cqs, .aborts, .zones, .units, .media, .staged, .jobs,
    .cores, .hamlets, .disp, .dram, .loft, .health, .life, .act] ⊆ P) (a b) :
    (State.abortNow s a b).mask P = s.mask P := mask_mono h <| by
  simp +decide only [State.abortNow, setCmd_mask, dropWork_mask, goOn_mask, dropTask_mask, complete_mask, begin__mask,
      State.commit, mask_ledger, dropJobOf_mask, mask_aborts, mask_ite, ite_self, mask_foldl, implies_true]
theorem abortLate_mask (h : [.sqs, .aborts, .jobs] ⊆ P) (a b) :
    (State.abortLate s a b).mask P = s.mask P := mask_mono h <| by
  unfold State.abortLate
  dsimp only
  repeat' split
  all_goals simp +decide only [setJob_mask, begin__mask, mask_aborts, mask_ite, ite_self, mask_foldl, implies_true]
theorem execAbort_leaves (r) : Leaves [.out, .rdma, .ledger, .bell, .fns, .sqs, .cqs, .aborts, .zones, .units, .media,
    .staged, .jobs,
    .cores, .hamlets, .disp, .dram, .loft, .health, .life, .act] s (execAbort r s) := by
  refine start_leaves (by decide) fun c => ?_
  split
  · exact fail_mask (by decide) ..
  · split
    · exact complete_mask (by decide) ..
    · repeat' split
      · exact complete_mask (by decide) ..
      · exact abortLate_mask (by decide) ..
      · exact abortNow_mask (by decide) ..
theorem unfreeze_mask (h : [.sqs, .zones] ⊆ P) (a b) :
    (State.unfreeze s a b).mask P = s.mask P := mask_mono h <| by
  simp +decide only [State.unfreeze, setSq_mask, mask_zones, mask_ite, ite_self, mask_foldl, implies_true]
theorem resumeRing_mask (h : [.out, .rdma, .ledger, .bell, .fns, .sqs, .cqs, .aborts, .zones, .units, .media, .staged, .jobs,
    .cores, .hamlets, .disp, .dram, .health] ⊆ P) (a b c) :
    (State.resumeRing s a b c).mask P = s.mask P := mask_mono h <| by
  simp +decide only [State.resumeRing, dropWork_mask, setSq_mask, goOn_mask, complete_mask, dropJobOf_mask, mask_ite,
      ite_self, mask_foldl, implies_true]
theorem discardRing_mask (h : [.out, .rdma, .ledger, .bell, .fns, .sqs, .cqs, .aborts, .zones, .units, .media, .staged,
    .jobs, .cores, .hamlets, .disp, .dram, .health] ⊆ P) (a b c) :
    (State.discardRing s a b c).mask P = s.mask P := mask_mono h <| by
  unfold State.discardRing
  dsimp only
  repeat' split
  all_goals simp +decide only [dropWork_mask, setSq_mask, goOn_mask, complete_mask, dropJobOf_mask, mask_ite, ite_self,
      mask_foldl, implies_true]
theorem restartCommit_mask (h : [.out, .rdma, .ledger, .bell, .fns, .sqs, .cqs, .aborts, .zones, .units, .media, .staged,
    .jobs, .cores, .hamlets, .disp, .dram, .health] ⊆ P) (a b) :
    (State.restartCommit s a b).mask P = s.mask P := mask_mono h <| by
  unfold State.restartCommit
  repeat' split
  all_goals simp +decide only [setCmd_mask, atPoint_mask, unfreeze_mask, resumeRing_mask, succeed_mask, State.commit,
      mask_ledger, discardRing_mask, fail_mask, mask_ite, ite_self, mask_foldl, implies_true]
theorem execRestartRing_leaves (a) :
    Leaves [.out, .rdma, .ledger, .bell, .fns, .sqs, .cqs, .aborts, .zones, .units, .media, .staged, .jobs, .cores, .hamlets,
        .disp, .dram, .health] s (execRestartRing a s) := by
  unfold execRestartRing
  repeat' split
  all_goals simp +decide only [start_leaves, restartCommit_mask, begin__mask, go, leaves_next, leaves_fault, leaves_ite,
      mask_ite, ite_self, mask_foldl, implies_true]
theorem semChange_mask (h : [.ledger, .sems] ⊆ P) (k w) :
    (s.semChange k w).mask P = s.mask P := mask_mono h <| by
  exact (mask_sems (by decide) _).trans (mask_ledger (by decide) _)
theorem doSem_mask (h : [.out, .rdma, .ledger, .sqs, .cqs, .sems, .aborts, .zones] ⊆ P) (a b) :
    (State.doSem s a b).mask P = s.mask P := mask_mono h <| by
  unfold State.doSem
  dsimp only
  repeat' split
  all_goals simp +decide only [complete_mask, semChange_mask, begin__mask, fail_mask, mask_ite, ite_self, mask_foldl,
      implies_true]
theorem execSemAcquire_leaves (a) :
    Leaves [.out, .rdma, .ledger, .fns, .sqs, .cqs, .sems, .aborts, .zones] s (execSemAcquire a s) := by
  simp +decide only [execSemAcquire, doSem_mask, start_leaves, go, leaves_next, leaves_fault, leaves_ite, mask_ite, ite_self,
      mask_foldl, implies_true]
theorem execSemRelease_leaves (a) :
    Leaves [.out, .rdma, .ledger, .fns, .sqs, .cqs, .sems, .aborts, .zones] s (execSemRelease a s) := by
  simp +decide only [execSemRelease, doSem_mask, start_leaves, go, leaves_next, leaves_fault, leaves_ite, mask_ite, ite_self,
      mask_foldl, implies_true]
theorem execSemBreak_leaves (a) :
    Leaves [.out, .rdma, .ledger, .fns, .sqs, .cqs, .sems, .aborts, .zones] s (execSemBreak a s) := by
  simp +decide only [execSemBreak, doSem_mask, start_leaves, go, leaves_next, leaves_fault, leaves_ite, mask_ite, ite_self,
      mask_foldl, implies_true]
theorem execSemRead_leaves (a) :
    Leaves [.out, .rdma, .ledger, .fns, .sqs, .cqs, .sems, .aborts, .zones] s (execSemRead a s) := by
  simp +decide only [execSemRead, doSem_mask, start_leaves, go, leaves_next, leaves_fault, leaves_ite, mask_ite, ite_self,
      mask_foldl, implies_true]
theorem refuseOn_mask (h : [.out, .rdma, .bell, .net, .fns, .loft, .events, .eventSeq] ⊆ P) (a b c d) :
    (State.refuseOn s a b c d).mask P = s.mask P := mask_mono h <| by
  simp +decide only [State.refuseOn, qpError_mask, tell_mask, mask_ite, ite_self, mask_foldl, implies_true]
theorem refuse_mask (h : [.out, .rdma, .bell, .net, .fns, .loft, .events, .eventSeq] ⊆ P) (a b c) :
    (State.refuse s a b c).mask P = s.mask P := mask_mono h <| by
  simp +decide only [State.refuse, refuseOn_mask, mask_ite, ite_self, mask_foldl, implies_true]
theorem execSemCompareAndSwap_leaves (a b c d e f) :
    Leaves [.out, .rdma, .ledger, .bell, .net, .fns, .sems, .loft, .events, .eventSeq] s (execSemCompareAndSwap a b c d e f
        s) := by
  simp +decide only [execSemCompareAndSwap, refuse_mask, semChange_mask, tell_mask, go, leaves_next, leaves_fault,
      leaves_ite, mask_ite, ite_self, mask_foldl, implies_true]
theorem execSemBreakable_leaves (a) :
    Leaves [.sems] s (execSemBreakable a s) := by
  simp +decide only [execSemBreakable, mask_sems, go, leaves_next, leaves_fault, leaves_ite, mask_ite, ite_self, mask_foldl,
      implies_true]
theorem doSieveWrite_mask (h : [.out, .rdma, .ledger, .sqs, .cqs, .aborts, .zones, .sieve] ⊆ P) (r c) :
    (s.doSieveWrite r c).mask P = s.mask P := mask_mono h <| by
  unfold State.doSieveWrite
  split
  · rfl
  · split
    · exact fail_mask (by decide) ..
    · refine (succeed_mask (by decide) ..).trans ((mask_foldl (fun x k => ?_) _ _).trans (begin__mask (by decide) ..))
      split
      · exact putRow_mask (by decide) ..
      · rfl
theorem execSieveWrite_leaves (a) :
    Leaves [.out, .rdma, .ledger, .fns, .sqs, .cqs, .aborts, .zones, .sieve] s (execSieveWrite a s) := by
  simp +decide only [execSieveWrite, start_leaves, doSieveWrite_mask, go, leaves_next, leaves_fault, leaves_ite, mask_ite,
      ite_self, mask_foldl, implies_true]
theorem execSieveWritePair_leaves (a) :
    Leaves [.out, .rdma, .ledger, .fns, .sqs, .cqs, .aborts, .zones, .sieve] s (execSieveWritePair a s) := by
  simp +decide only [execSieveWritePair, start_leaves, doSieveWrite_mask, go, leaves_next, leaves_fault, leaves_ite,
      mask_ite, ite_self, mask_foldl, implies_true]
theorem answer_mask (h : [.out, .rdma, .sqs, .cqs, .aborts, .zones] ⊆ P) (a b c d) :
    (State.answer s a b c d).mask P = s.mask P := mask_mono h <| by
  simp +decide only [State.answer, complete_mask, sendOut_mask, mask_ite, ite_self, mask_foldl, implies_true]
theorem doLookup_mask (h : [.out, .rdma, .bell, .fns, .sqs, .cqs, .aborts, .zones, .sieve, .loft, .events, .eventSeq] ⊆ P) (r
    c) :
    (s.doLookup r c).mask P = s.mask P := mask_mono h <| by
  refine underRate_mask (by decide) _ _ fun x => ?_
  dsimp only
  split <;> simp +decide only [answer_mask, setFn_mask, lookup_mask, begin__mask]
theorem execSieveLookup_leaves (a) :
    Leaves [.out, .rdma, .bell, .fns, .sqs, .cqs, .aborts, .zones, .sieve, .loft, .events, .eventSeq] s (execSieveLookup a s)
        := by
  simp +decide only [execSieveLookup, start_leaves, doLookup_mask, go, leaves_next, leaves_fault, leaves_ite, mask_ite,
      ite_self, mask_foldl, implies_true]
theorem stepCursor_mask (h : [.out, .rdma, .bell, .fns, .sqs, .cqs, .aborts, .zones, .sieve, .loft, .events, .eventSeq] ⊆ P)
    (r cur) :
    (s.stepCursor r cur).mask P = s.mask P := mask_mono h <| by
  unfold State.stepCursor
  dsimp only
  split <;> simp +decide only [answer_mask, setFn_mask, lookup_mask]
theorem doStep_mask (h : [.out, .rdma, .bell, .fns, .sqs, .cqs, .aborts, .zones, .sieve, .loft, .events, .eventSeq] ⊆ P) (r c) :
    (s.doStep r c).mask P = s.mask P := mask_mono h <| by
  refine underRate_mask (by decide) _ _ fun x => ?_
  split
  · exact fail_mask (by decide) ..
  · exact (stepCursor_mask (by decide) ..).trans (begin__mask (by decide) ..)
theorem execSieveStep_leaves (a) :
    Leaves [.out, .rdma, .bell, .fns, .sqs, .cqs, .aborts, .zones, .sieve, .loft, .events, .eventSeq] s (execSieveStep a s)
        := by
  simp +decide only [execSieveStep, start_leaves, doStep_mask, go, leaves_next, leaves_fault, leaves_ite, mask_ite, ite_self,
      mask_foldl, implies_true]
theorem upset_mask (h : [.sieve] ⊆ P) (a) :
    (State.upset s a).mask P = s.mask P := mask_mono h <| by
  simp +decide only [State.upset, mask_sieve, mask_ite, ite_self, mask_foldl, implies_true]
theorem execSieveChecker_leaves (a) : Leaves [.out, .rdma, .bell, .sieve, .loft, .events, .eventSeq] s (execSieveChecker a s)
    := by
  unfold execSieveChecker
  split
  · exact leaves_next.mpr rfl
  · refine leaves_next.mpr ((mask_foldl (fun x p => ?_) _ _).trans (mask_foldl (fun x u => upset_mask (by decide) _) _ _))
    have hrepair : ∀ l : List SieveUpset, (l.foldl State.upset (x.repairRow p)).mask [.out, .rdma, .bell, .sieve, .loft,
        .events, .eventSeq] = x.mask [.out, .rdma, .bell, .sieve, .loft, .events, .eventSeq] :=
      fun l => (mask_foldl (fun x u => upset_mask (by decide) _) _ _).trans (repairRow_mask (by decide) _)
    dsimp only
    split
    · split
      · exact (retireRow_mask (by decide) _).trans (hrepair _)
      · exact hrepair _
    · rfl
theorem execSieveRowRetired_leaves (a) :
    Leaves [.sieve] s (execSieveRowRetired a s) := by
  simp +decide only [execSieveRowRetired, mask_sieve, go, leaves_next, leaves_fault, leaves_ite, mask_ite, ite_self,
      mask_foldl, implies_true]
theorem govern_mask (h : [.out, .rdma, .ledger, .sqs, .cqs, .aborts, .zones] ⊆ P) (r l) {k : State → State}
    (hk : ∀ x : State, (k x).mask P = x.mask P) : (s.govern r l k).mask P = s.mask P := by
  unfold State.govern
  split
  · exact (fail_mask (List.Subset.trans (by decide) h) ..).trans (begin__mask (List.Subset.trans (by decide) h) ..)
  · exact (hk _).trans ((setCmd_mask (List.Subset.trans (by decide) h) ..).trans ((mask_ledger (h (by decide)) _).trans
      (begin__mask (List.Subset.trans (by decide) h) ..)))
theorem ended_mask (h : [.out, .rdma, .sqs, .cqs, .aborts, .zones] ⊆ P) (a b) :
    (State.ended s a b).mask P = s.mask P := mask_mono h <| by
  simp +decide only [State.ended, complete_mask, mask_ite, ite_self, mask_foldl, implies_true]
theorem endedLater_mask (h : [.due] ⊆ P) (a b) :
    (State.endedLater s a b).mask P = s.mask P := mask_mono h <| by
  simp +decide only [State.endedLater, mask_due, mask_ite, ite_self, mask_foldl, implies_true]
theorem createRing_mask (h : [.free, .out, .rdma, .ledger, .fns, .sqs, .cqs, .aborts, .zones] ⊆ P) (a b) :
    (State.createRing s a b).mask P = s.mask P := mask_mono h <| by
  simp +decide only [State.createRing, govern_mask, newRing_mask, ended_mask, mask_ite, ite_self, mask_foldl, implies_true]
theorem execCreateRing_leaves (a) :
    Leaves [.free, .out, .rdma, .ledger, .fns, .sqs, .cqs, .aborts, .zones] s (execCreateRing a s) := by
  simp +decide only [execCreateRing, createRing_mask, start_leaves, go, leaves_next, leaves_fault, leaves_ite, mask_ite,
      ite_self, mask_foldl, implies_true]
theorem deleteRing_mask (h : [.out, .rdma, .ledger, .sqs, .cqs, .aborts, .zones] ⊆ P) (a b) :
    (State.deleteRing s a b).mask P = s.mask P := mask_mono h <| by
  simp +decide only [State.deleteRing, govern_mask, ended_mask, mask_cqs, mask_sqs, mask_ite, ite_self, mask_foldl,
      implies_true]
theorem execDeleteRing_leaves (a) :
    Leaves [.out, .rdma, .ledger, .fns, .sqs, .cqs, .aborts, .zones] s (execDeleteRing a s) := by
  simp +decide only [execDeleteRing, start_leaves, deleteRing_mask, go, leaves_next, leaves_fault, leaves_ite, mask_ite,
      ite_self, mask_foldl, implies_true]
theorem setNotify_mask (h : [.out, .rdma, .ledger, .sqs, .cqs, .aborts, .zones] ⊆ P) (a b) :
    (State.setNotify s a b).mask P = s.mask P := mask_mono h <| by
  simp +decide only [State.setNotify, setCq_mask, govern_mask, ended_mask, mask_ite, ite_self, mask_foldl, implies_true]
theorem execSetRingNotify_leaves (a) :
    Leaves [.out, .rdma, .ledger, .fns, .sqs, .cqs, .aborts, .zones] s (execSetRingNotify a s) := by
  simp +decide only [execSetRingNotify, start_leaves, setNotify_mask, go, leaves_next, leaves_fault, leaves_ite, mask_ite,
      ite_self, mask_foldl, implies_true]
theorem newFn_mask (h : [.free, .fns, .sqs, .cqs, .sieve] ⊆ P) (a b) :
    (State.newFn s a b).mask P = s.mask P := mask_mono h <| by
  simp +decide only [State.newFn, newRing_mask, setGrant_mask, setFn_mask, mask_ite, ite_self, mask_foldl, implies_true]
theorem addFunction_mask (h : [.free, .out, .rdma, .ledger, .fns, .sqs, .cqs, .aborts, .zones, .sieve] ⊆ P) (a b) :
    (State.addFunction s a b).mask P = s.mask P := mask_mono h <| by
  simp +decide only [State.addFunction, govern_mask, newFn_mask, ended_mask, mask_ite, ite_self, mask_foldl, implies_true]
theorem execAddFunction_leaves (a) :
    Leaves [.free, .out, .rdma, .ledger, .fns, .sqs, .cqs, .aborts, .zones, .sieve] s (execAddFunction a s) := by
  simp +decide only [execAddFunction, start_leaves, addFunction_mask, go, leaves_next, leaves_fault, leaves_ite, mask_ite,
      ite_self, mask_foldl, implies_true]
theorem stopJobs_mask (h : [.out, .rdma, .ledger, .bell, .fns, .sqs, .cqs, .aborts, .zones, .units, .media, .staged, .jobs,
    .cores, .hamlets, .disp, .dram, .health] ⊆ P) (a) :
    (State.stopJobs s a).mask P = s.mask P := mask_mono h <| by
  simp +decide only [State.stopJobs, dropWork_mask, complete_mask, dropJobOf_mask, mask_jobs, mask_ite, ite_self, mask_foldl,
      implies_true]
theorem quiesce_mask (h : [.out, .rdma, .ledger, .bell, .fns, .sqs, .cqs, .aborts, .zones, .units, .media, .staged, .jobs,
    .cores, .hamlets, .disp, .dram, .health] ⊆ P) (r c) :
    (s.quiesce r c).mask P = s.mask P := mask_mono h <| by
  refine govern_mask (by decide) _ _ fun x => ?_
  split
  · exact (stopJobs_mask (by decide) _).trans (setFn_mask (by decide) ..)
  · exact ended_mask (by decide) ..
  · rfl
theorem execQuiesceFunction_leaves (a) :
    Leaves [.out, .rdma, .ledger, .bell, .fns, .sqs, .cqs, .aborts, .zones, .units, .media, .staged, .jobs, .cores, .hamlets,
        .disp, .dram, .health] s (execQuiesceFunction a s) := by
  simp +decide only [execQuiesceFunction, start_leaves, quiesce_mask, go, leaves_next, leaves_fault, leaves_ite, mask_ite,
      ite_self, mask_foldl, implies_true]
theorem resume_mask (h : [.out, .rdma, .ledger, .fns, .sqs, .cqs, .aborts, .zones] ⊆ P) (a b) :
    (State.resume s a b).mask P = s.mask P := mask_mono h <| by
  simp +decide only [State.resume, govern_mask, ended_mask, setFn_mask, mask_sqs, mask_ite, ite_self, mask_foldl, implies_true]
theorem execResumeFunction_leaves (a) :
    Leaves [.out, .rdma, .ledger, .fns, .sqs, .cqs, .aborts, .zones] s (execResumeFunction a s) := by
  simp +decide only [execResumeFunction, start_leaves, resume_mask, go, leaves_next, leaves_fault, leaves_ite, mask_ite,
      ite_self, mask_foldl, implies_true]
theorem resetFn_mask (h : [.rdma, .ledger, .net, .fns, .sqs, .cqs, .sems, .due, .aborts, .zones] ⊆ P) (a) :
    (State.resetFn s a).mask P = s.mask P := mask_mono h <| by
  simp +decide only [State.resetFn, resetRings_mask, liftFences_mask, releaseSems_mask, setFn_mask, mask_net, mask_ite,
      ite_self, mask_foldl, implies_true]
theorem resetFunction_mask (h : [.out, .rdma, .ledger, .net, .fns, .sqs, .cqs, .sems, .due, .aborts, .zones] ⊆ P) (a b) :
    (State.resetFunction s a b).mask P = s.mask P := mask_mono h <| by
  simp +decide only [State.resetFunction, resetFn_mask, govern_mask, ended_mask, mask_ite, ite_self, mask_foldl, implies_true]
theorem execResetFunction_leaves (a) :
    Leaves [.out, .rdma, .ledger, .net, .fns, .sqs, .cqs, .sems, .due, .aborts, .zones] s (execResetFunction a s) := by
  simp +decide only [execResetFunction, start_leaves, resetFunction_mask, go, leaves_next, leaves_fault, leaves_ite,
      mask_ite, ite_self, mask_foldl, implies_true]
theorem removeFn_mask (h : [.rdma, .ledger, .net, .fns, .sqs, .cqs, .sems, .due, .aborts, .sieve] ⊆ P) (a) :
    (State.removeFn s a).mask P = s.mask P := mask_mono h <| by
  simp +decide only [State.removeFn, setGrant_mask, releaseSems_mask, dropOps_mask, setFn_mask, mask_sieve,
      mask_net_sqs_cqs_sems, mask_ite, ite_self, mask_foldl, implies_true]
theorem removeFunction_mask (h : [.out, .rdma, .ledger, .net, .fns, .sqs, .cqs, .sems, .due, .aborts, .zones, .sieve] ⊆ P) (a
    b) :
    (State.removeFunction s a b).mask P = s.mask P := mask_mono h <| by
  simp +decide only [State.removeFunction, removeFn_mask, govern_mask, ended_mask, mask_ite, ite_self, mask_foldl, implies_true]
theorem execRemoveFunction_leaves (a) :
    Leaves [.out, .rdma, .ledger, .net, .fns, .sqs, .cqs, .sems, .due, .aborts, .zones, .sieve] s (execRemoveFunction a s) := by
  simp +decide only [execRemoveFunction, start_leaves, removeFunction_mask, go, leaves_next, leaves_fault, leaves_ite,
      mask_ite, ite_self, mask_foldl, implies_true]
theorem setResources_mask (h : [.out, .rdma, .ledger, .fns, .sqs, .cqs, .due, .aborts, .zones, .sieve] ⊆ P) (a b) :
    (State.setResources s a b).mask P = s.mask P := mask_mono h <| by
  simp +decide only [State.setResources, govern_mask, endedLater_mask, setGrant_mask, setFn_mask, mask_ite, ite_self,
      mask_foldl, implies_true]
theorem execSetFunctionResources_leaves (a) :
    Leaves [.out, .rdma, .ledger, .fns, .sqs, .cqs, .due, .aborts, .zones, .sieve] s (execSetFunctionResources a s) := by
  simp +decide only [execSetFunctionResources, start_leaves, setResources_mask, go, leaves_next, leaves_fault, leaves_ite,
      mask_ite, ite_self, mask_foldl, implies_true]
theorem newHolding_mask (h : [.free, .out, .rdma, .bell, .holds, .media, .dram, .loft, .events, .eventSeq] ⊆ P) (c) :
    (s.newHolding c).mask P = s.mask P := mask_mono h <| by
  exact (capCheck_mask (by decide)).trans ((journalRec_mask (by decide) _).trans ((loftRecord_mask (by decide) ..).trans
    ((mask_holds (by decide) _).trans (mask_free (by decide) _))))
theorem createHolding_mask (h : [.free, .out, .rdma, .ledger, .bell, .sqs, .cqs, .aborts, .holds, .zones, .media, .dram,
    .loft, .events, .eventSeq] ⊆ P) (a b) :
    (State.createHolding s a b).mask P = s.mask P := mask_mono h <| by
  simp +decide only [State.createHolding, govern_mask, newHolding_mask, ended_mask, mask_ite, ite_self, mask_foldl,
      implies_true]
theorem execCreateHolding_leaves (a) :
    Leaves [.free, .out, .rdma, .ledger, .bell, .fns, .sqs, .cqs, .aborts, .holds, .zones, .media, .dram, .loft, .events,
        .eventSeq] s (execCreateHolding a s) := by
  simp +decide only [execCreateHolding, createHolding_mask, start_leaves, go, leaves_next, leaves_fault, leaves_ite,
      mask_ite, ite_self, mask_foldl, implies_true]
theorem changeHolding_mask (h : [.out, .rdma, .bell, .holds, .zones, .media, .dram, .loft, .events, .eventSeq] ⊆ P) (a) :
    (State.changeHolding s a).mask P = s.mask P := mask_mono h <| by
  simp +decide only [State.changeHolding, journalRec_mask, capCheck_mask, mask_holds_zones, mask_ite, ite_self, mask_foldl,
      implies_true]
theorem setHolding_mask (h : [.out, .rdma, .ledger, .bell, .sqs, .cqs, .due, .aborts, .holds, .zones, .media, .dram, .loft,
    .events, .eventSeq] ⊆ P) (a b) :
    (State.setHolding s a b).mask P = s.mask P := mask_mono h <| by
  simp +decide only [State.setHolding, changeHolding_mask, govern_mask, endedLater_mask, mask_ite, ite_self, mask_foldl,
      implies_true]
theorem execSetHolding_leaves (a) :
    Leaves [.out, .rdma, .ledger, .bell, .fns, .sqs, .cqs, .due, .aborts, .holds, .zones, .media, .dram, .loft, .events,
        .eventSeq] s (execSetHolding a s) := by
  simp +decide only [execSetHolding, start_leaves, setHolding_mask, go, leaves_next, leaves_fault, leaves_ite, mask_ite,
      ite_self, mask_foldl, implies_true]
theorem assignHolding_mask (h : [.out, .rdma, .ledger, .sqs, .cqs, .aborts, .holds, .zones, .media, .dram] ⊆ P) (a b) :
    (State.assignHolding s a b).mask P = s.mask P := mask_mono h <| by
  simp +decide only [State.assignHolding, govern_mask, journalRec_mask, ended_mask, mask_holds, mask_ite, ite_self,
      mask_foldl, implies_true]
theorem execAssignHolding_leaves (a) :
    Leaves [.out, .rdma, .ledger, .fns, .sqs, .cqs, .aborts, .holds, .zones, .media, .dram] s (execAssignHolding a s) := by
  simp +decide only [execAssignHolding, assignHolding_mask, start_leaves, go, leaves_next, leaves_fault, leaves_ite,
      mask_ite, ite_self, mask_foldl, implies_true]
theorem dropHolding_mask (h : [.free, .out, .rdma, .bell, .holds, .cursors, .zones, .units, .rand, .media, .staged, .dram,
    .loft, .events, .eventSeq] ⊆ P) (a) :
    (State.dropHolding s a).mask P = s.mask P := mask_mono h <| by
  simp +decide only [State.dropHolding, setMedia_mask, emptyZone_mask, journalRec_mask, zeroKeys_mask, capCheck_mask,
      mask_holds_cursors_zones_rand, mask_ite, ite_self, mask_foldl, implies_true]
theorem deleteHolding_mask (h : [.free, .out, .rdma, .ledger, .bell, .sqs, .cqs, .aborts, .holds, .cursors, .zones, .units,
    .rand, .media, .staged, .dram, .loft, .events, .eventSeq] ⊆ P) (a b) :
    (State.deleteHolding s a b).mask P = s.mask P := mask_mono h <| by
  simp +decide only [State.deleteHolding, govern_mask, ended_mask, dropHolding_mask, mask_ite, ite_self, mask_foldl,
      implies_true]
theorem execDeleteHolding_leaves (a) :
    Leaves [.free, .out, .rdma, .ledger, .bell, .fns, .sqs, .cqs, .aborts, .holds, .cursors, .zones, .units, .rand, .media,
        .staged, .dram, .loft, .events, .eventSeq] s (execDeleteHolding a s) := by
  simp +decide only [execDeleteHolding, start_leaves, deleteHolding_mask, go, leaves_next, leaves_fault, leaves_ite,
      mask_ite, ite_self, mask_foldl, implies_true]
theorem setSlice_mask (h : [.media] ⊆ P) (a b) :
    (State.setSlice s a b).mask P = s.mask P := mask_mono h <| by
  simp +decide only [State.setSlice, setMedia_mask, mask_ite, ite_self, mask_foldl, implies_true]
theorem dropSlice_mask (h : [.media] ⊆ P) (a) :
    (State.dropSlice s a).mask P = s.mask P := mask_mono h <| by
  simp +decide only [State.dropSlice, setMedia_mask, mask_ite, ite_self, mask_foldl, implies_true]
theorem sense_mask (h : [.bell, .media] ⊆ P) (a) :
    (State.sense s a).mask P = s.mask P := mask_mono h <| by
  simp +decide only [State.sense, setSlice_mask, mask_bell, mask_ite, ite_self, mask_foldl, implies_true]
theorem copyServed_mask (h : [.media] ⊆ P) (a b) :
    (State.copyServed s a b).mask P = s.mask P := mask_mono h <| by
  unfold State.copyServed
  dsimp only
  repeat' split
  all_goals simp +decide only [setMedia_mask, mask_ite, ite_self, mask_foldl, implies_true]
theorem lineServed_mask (h : [.media] ⊆ P) (a) :
    (State.lineServed s a).mask P = s.mask P := mask_mono h <| by
  unfold State.lineServed
  dsimp only
  repeat' split
  all_goals simp +decide only [setMedia_mask, setMem_mask, mask_ite, ite_self, mask_foldl, implies_true]
theorem reqServed_mask (h : [.cores] ⊆ P) (a b) :
    (State.reqServed s a b).mask P = s.mask P := mask_mono h <| by
  simp +decide only [State.reqServed, mask_cores, mask_ite, ite_self, mask_foldl, implies_true]
theorem deliver1_mask (h : [.out, .rdma, .ledger, .bell, .fns, .sqs, .cqs, .aborts, .zones, .units, .media, .staged, .jobs,
    .cores, .hamlets, .disp, .sieve, .dram, .loft, .health, .events, .eventSeq] ⊆ P) (w row slot wl i u who b) :
    (s.deliver1 w row slot wl i u who b).mask P = s.mask P := mask_mono h <| by
  unfold State.deliver1
  dsimp only
  split
  all_goals simp +decide only [unitServed_mask, scanUnit_mask, copyServed_mask, mask_ite, loseUnits_mask, reclaimServed_mask,
    reqServed_mask, lineServed_mask, ite_self]
theorem ladderRead_mask (h : [.media] ⊆ P) (a b c d e f) :
    (State.ladderRead s a b c d e f).mask P = s.mask P := mask_mono h <| by
  simp +decide only [State.ladderRead, setMedia_mask, mask_ite, ite_self, mask_foldl, implies_true]
theorem queueLadder_mask (h : [.media] ⊆ P) (a b c d) :
    (State.queueLadder s a b c d).mask P = s.mask P := mask_mono h <| by
  simp +decide only [State.queueLadder, ladderRead_mask, mask_ite, ite_self, mask_foldl, implies_true]
theorem setRecon_mask (h : [.media] ⊆ P) (a b) :
    (State.setRecon s a b).mask P = s.mask P := mask_mono h <| by
  simp +decide only [State.setRecon, setMedia_mask, mask_ite, ite_self, mask_foldl, implies_true]
theorem readShare_mask (h : [.media] ⊆ P) (a b) :
    (State.readShare s a b).mask P = s.mask P := mask_mono h <| by
  simp +decide only [State.readShare, setMedia_mask, setRecon_mask, mask_ite, ite_self, mask_foldl, implies_true]
theorem pushRecon_mask (h : [.media] ⊆ P) (a) :
    (State.pushRecon s a).mask P = s.mask P := mask_mono h <| by
  unfold State.pushRecon
  repeat' split
  all_goals simp +decide only [readShare_mask, mask_ite, ite_self, mask_foldl, implies_true]
theorem settleRecon_mask (h : [.out, .rdma, .ledger, .bell, .fns, .sqs, .cqs, .aborts, .zones, .units, .media, .staged,
    .jobs, .cores, .hamlets, .disp, .sieve, .dram, .loft, .health, .events, .eventSeq] ⊆ P) (a) :
    (State.settleRecon s a).mask P = s.mask P := mask_mono h <| by
  unfold State.settleRecon
  repeat' split
  all_goals simp +decide only [pushRecon_mask, setMedia_mask, dropSlices_mask, setRecon_mask, deliver1_mask, mask_ite,
      ite_self, mask_foldl, implies_true]
theorem joinRecon_mask (h : [.media] ⊆ P) (a b) :
    (State.joinRecon s a b).mask P = s.mask P := mask_mono h <| by
  simp +decide only [State.joinRecon, setMedia_mask, setRecon_mask, mask_ite, ite_self, mask_foldl, implies_true]
theorem newRecon_mask (h : [.out, .rdma, .ledger, .bell, .fns, .sqs, .cqs, .aborts, .zones, .units, .media, .staged, .jobs,
    .cores, .hamlets, .disp, .sieve, .dram, .loft, .health, .events, .eventSeq] ⊆ P) (a b c d) :
    (State.newRecon s a b c d).mask P = s.mask P := mask_mono h <| by
  unfold State.newRecon
  dsimp only
  repeat' split
  all_goals simp +decide only [pushRecon_mask, setMedia_mask, joinRecon_mask, settleRecon_mask, mask_ite, ite_self,
      mask_foldl, implies_true]
theorem direct_mask (h : [.bell, .media] ⊆ P) (a) :
    (State.direct s a).mask P = s.mask P := mask_mono h <| by
  unfold State.direct
  repeat' split
  all_goals simp +decide only [setMedia_mask, dropSlices_mask, mask_ite, ite_self, mask_foldl, implies_true]
theorem ladderDone_mask (h : [.out, .rdma, .ledger, .bell, .fns, .sqs, .cqs, .aborts, .zones, .units, .media, .staged, .jobs,
    .cores, .hamlets, .disp, .sieve, .dram, .loft, .health, .events, .eventSeq] ⊆ P) (w row i slot wl u ok img) :
    (s.ladderDone w row i slot wl u ok img).mask P = s.mask P := mask_mono h <| by
  refine mask_foldl (fun x c => ?_) _ s
  dsimp only
  split
  · simp +decide only [settleRecon_mask, pushRecon_mask, setRecon_mask]
  · split
    · exact (settleRecon_mask (by decide) _).trans ((setRecon_mask (by decide) ..).trans
        (mask_foldl (fun y e => deliver1_mask (by decide) ..) _ x))
    · simp +decide only [settleRecon_mask, setRecon_mask]
theorem elsewhere_mask (h : [.out, .rdma, .ledger, .bell, .fns, .sqs, .cqs, .aborts, .zones, .units, .media, .staged, .jobs,
    .cores, .hamlets, .disp, .sieve, .dram, .loft, .health, .events, .eventSeq] ⊆ P) (x) :
    (s.elsewhere x).mask P = s.mask P := mask_mono h <| by
  unfold State.elsewhere
  dsimp only
  split
  · exact (settleRecon_mask (by decide) ..).trans ((pushRecon_mask (by decide) ..).trans ((setRecon_mask (by decide) ..).trans
      (dropSlice_mask (by decide) ..)))
  · split
    · exact (mask_foldl (fun y e => ladderDone_mask (by decide) ..) _ _).trans (dropSlice_mask (by decide) ..)
    · exact dropSlice_mask (by decide) ..
  · exact dropSlice_mask (by decide) ..
  · exact (newRecon_mask (by decide) ..).trans (dropSlice_mask (by decide) ..)
  · exact (newRecon_mask (by decide) ..).trans (dropSlice_mask (by decide) ..)
  · exact dropSlice_mask (by decide) ..
  · have hlost : ∀ b : Bool, (if b then x.wants.foldl (fun s e => match e.2 with
      | .cmd r k => s.unitServed r k none
      | .scan j z o => s.scanUnit j z o none
      | .req g => s.reqServed g none
      | _ => s) (s.dropSlice x)
      else (s.dropSlice x).newRecon x x.wants 1 true).mask [.out, .rdma, .ledger, .bell, .fns, .sqs, .cqs, .aborts, .zones,
          .units, .media, .staged, .jobs, .cores, .hamlets, .disp, .sieve, .dram, .loft, .health, .events, .eventSeq] =
          s.mask [.out, .rdma, .ledger, .bell, .fns, .sqs, .cqs, .aborts, .zones, .units, .media, .staged, .jobs, .cores,
          .hamlets, .disp, .sieve, .dram, .loft, .health, .events, .eventSeq] := by
      intro b
      refine (?_ : _ = (s.dropSlice x).mask _).trans (dropSlice_mask (by decide) ..)
      split
      · refine mask_foldl (fun y e => ?_) _ _
        split
        · exact unitServed_mask (by decide) ..
        · exact scanUnit_mask (by decide) ..
        · exact reqServed_mask (by decide) ..
        · rfl
      · exact newRecon_mask (by decide) ..
    exact hlost _
theorem issueSlice_mask (h : [.out, .rdma, .ledger, .bell, .fns, .sqs, .cqs, .aborts, .zones, .units, .media, .staged, .jobs,
    .cores, .hamlets, .disp, .sieve, .dram, .loft, .health, .events, .eventSeq] ⊆ P) (a) :
    (State.issueSlice s a).mask P = s.mask P := mask_mono h <| by
  unfold State.issueSlice
  repeat' split
  all_goals simp +decide only [sense_mask, setDie_mask, elsewhere_mask, setSlice_mask, mask_ite, ite_self, mask_foldl,
      implies_true]
theorem scansElsewhere_mask (h : [.out, .rdma, .ledger, .bell, .fns, .sqs, .cqs, .aborts, .zones, .units, .media, .staged,
    .jobs, .cores, .hamlets, .disp, .sieve, .dram, .loft, .health, .events, .eventSeq] ⊆ P) (a) :
    (State.scansElsewhere s a).mask P = s.mask P := mask_mono h <| by
  simp +decide only [State.scansElsewhere, setMedia_mask, elsewhere_mask, mask_ite, ite_self, mask_foldl, implies_true]
theorem execReadPoint_leaves (a) :
    Leaves [.out, .rdma, .ledger, .bell, .fns, .sqs, .cqs, .aborts, .zones, .units, .media, .staged, .jobs, .cores, .hamlets,
        .disp, .sieve, .dram, .loft, .health, .events, .eventSeq] s (execReadPoint a s) := by
  simp +decide only [execReadPoint, pushRecon_mask, setChan_mask, issueSlice_mask, direct_mask, resumeIfIdle_mask,
      settleRecon_mask, scansElsewhere_mask, go, leaves_next, leaves_fault, leaves_ite, mask_ite, ite_self, mask_foldl,
      implies_true]
theorem execSuspendResponse_leaves (a) :
    Leaves [.bell, .media] s (execSuspendResponse a s) := by
  unfold execSuspendResponse
  repeat' split
  all_goals simp +decide only [sense_mask, setDie_mask, resumeIfIdle_mask, go, leaves_next, leaves_fault, leaves_ite,
      mask_ite, ite_self, mask_foldl, implies_true]
theorem execSuspendLate_leaves (a b) :
    Leaves [.out, .rdma, .ledger, .bell, .fns, .sqs, .cqs, .aborts, .zones, .units, .media, .staged, .jobs, .cores, .hamlets,
        .disp, .sieve, .dram, .loft, .health, .events, .eventSeq] s (execSuspendLate a b s) := by
  unfold execSuspendLate
  repeat' split
  all_goals simp +decide only [overrun_mask, setDie_mask, elsewhere_mask, event_mask, go, leaves_next, leaves_fault,
      leaves_ite, mask_ite, ite_self, mask_foldl, implies_true]
theorem execDieOpOverrun_leaves (a) :
    Leaves [.bell] s (execDieOpOverrun a s) := by
  simp +decide only [execDieOpOverrun, overrun_mask, go, leaves_next, leaves_fault, leaves_ite, mask_ite, ite_self,
      mask_foldl, implies_true]
theorem ladderStep_mask (h : [.out, .rdma, .ledger, .bell, .fns, .sqs, .cqs, .aborts, .zones, .units, .media, .staged, .jobs,
    .cores, .hamlets, .disp, .sieve, .dram, .loft, .health, .events, .eventSeq] ⊆ P) (y w row i u k n x) :
    (s.ladderStep y w row i u k n x).mask P = s.mask P := mask_mono h <| by
  unfold State.ladderStep
  simp +decide only [mask_ite, ladderRead_mask, ladderDone_mask, feed_mask, ite_self]
theorem codewordRead_mask (h : [.out, .rdma, .ledger, .bell, .fns, .sqs, .cqs, .aborts, .zones, .units, .media, .staged,
    .jobs, .cores, .hamlets, .disp, .sieve, .dram, .loft, .health, .events, .eventSeq] ⊆ P) (a b c d) :
    (State.codewordRead s a b c d).mask P = s.mask P := mask_mono h <| by
  unfold State.codewordRead
  repeat' split
  all_goals simp +decide only [wearEv_mask, feed_mask, pushRecon_mask, queueLadder_mask, settleRecon_mask, setRecon_mask,
      deliver1_mask, ladderStep_mask, mask_ite, ite_self, mask_foldl, implies_true]
theorem execArrayReadComplete_leaves (a b) :
    Leaves [.out, .rdma, .ledger, .bell, .fns, .sqs, .cqs, .aborts, .zones, .units, .media, .staged, .jobs, .cores, .hamlets,
        .disp, .sieve, .dram, .loft, .health, .events, .eventSeq] s (execArrayReadComplete a b s) := by
  unfold execArrayReadComplete
  repeat' split
  all_goals simp +decide only [codewordRead_mask, newRecon_mask, setChan_mask, resumeIfIdle_mask, setSlice_mask,
      dropSlice_mask, go, leaves_next, leaves_fault, leaves_ite, mask_ite, ite_self, mask_foldl, implies_true]
theorem cellarReady_mask (h : [.media] ⊆ P) (a) :
    (State.cellarReady s a).mask P = s.mask P := mask_mono h <| by
  simp +decide only [State.cellarReady, setDie_mask, wearBlock_mask, prepNext_mask, mask_ite, ite_self, mask_foldl,
      implies_true]
theorem programmed_mask (h : [.media] ⊆ P) (a b) :
    (State.programmed s a b).mask P = s.mask P := mask_mono h <| by
  simp +decide only [State.programmed, setGroup_mask, mask_ite, ite_self, mask_foldl, implies_true]
theorem streamParked_mask (h : [.media, .staged, .pwr] ⊆ P) (a) :
    (State.streamParked s a).mask P = s.mask P := mask_mono h <| by
  simp +decide only [State.streamParked, setMedia_mask, entryStep_mask, mask_staged, mask_ite, ite_self, mask_foldl,
      implies_true]
theorem programDone_mask (h : [.out, .rdma, .bell, .rand, .media, .staged, .dram, .loft, .health, .events, .eventSeq, .pwr] ⊆
    P) (d w) :
    (s.programDone d w).mask P = s.mask P := mask_mono h <| by
  unfold State.programDone
  dsimp only
  have hend := opEnds_mask (s := s) (P := [.out, .rdma, .bell, .rand, .media, .staged, .dram, .loft, .health, .events,
      .eventSeq, .pwr]) (by decide) d
  have hcount : ∀ n, State.mask
      [.out, .rdma, .bell, .rand, .media, .staged, .dram, .loft, .health, .events, .eventSeq, .pwr]
      { s.opEnds d with
        health := { (s.opEnds d).health with mediaUnits := (s.opEnds d).health.mediaUnits + 64 }, staged := n } =
      s.mask [.out, .rdma, .bell, .rand, .media, .staged, .dram, .loft, .health, .events, .eventSeq, .pwr] :=
    fun n => (mask_mono (Q := [.staged, .health]) (by decide) rfl).trans hend
  have hprog := fun n => (programmed_mask (by decide) d w).trans (hcount n)
  split
  · split
    · split
      · exact hprog _
      · split
        · exact (copiesDone_mask (by decide) ..).trans ((rowStep_mask (by decide) ..).trans
            ((joinParity_mask (by decide) ..).trans (hprog _)))
        · exact (rowStep_mask (by decide) ..).trans ((joinParity_mask (by decide) ..).trans (hprog _))
    · exact hprog _
  · exact hprog _
  · exact hprog _
  · exact (streamParked_mask (by decide) ..).trans (hprog _)
  · split
    · exact (setMem_mask (by decide) ..).trans ((setGroup_mask (by decide) ..).trans (hprog _))
    · exact hcount _
  · exact (copyLine_mask (by decide) ..).trans ((setMedia_mask (by decide) ..).trans (hcount _))
  · exact hcount _
theorem execProgramComplete_leaves (a) :
    Leaves [.out, .rdma, .bell, .rand, .media, .staged, .dram, .loft, .health, .events, .eventSeq, .pwr] s
        (execProgramComplete a s) := by
  unfold execProgramComplete
  repeat' split
  all_goals simp +decide only [programDone_mask, go, leaves_next, leaves_fault, leaves_ite, mask_ite, ite_self, mask_foldl,
      implies_true]
theorem relocFailed_mask (h : [.out, .rdma, .bell, .media, .staged, .dram, .loft, .events, .eventSeq] ⊆ P) (a b c) :
    (State.relocFailed s a b c).mask P = s.mask P := mask_mono h <| by
  unfold State.relocFailed
  repeat' split
  all_goals simp +decide only [setMedia_mask, retirePhys_mask, mask_ite, ite_self, mask_foldl, implies_true]
theorem rebuildFailed_mask (h : [.out, .rdma, .bell, .media, .staged, .dram, .loft, .events, .eventSeq] ⊆ P) (a b c) :
    (State.rebuildFailed s a b c).mask P = s.mask P := mask_mono h <| by
  unfold State.rebuildFailed
  dsimp only
  repeat' split
  all_goals simp +decide only [retireBlock_mask, setGroup_mask, setMedia_mask, replaceBlock_mask, setMem_mask, mask_ite,
      ite_self, mask_foldl, implies_true]
theorem programFailed_mask (h : [.out, .rdma, .bell, .media, .staged, .dram, .loft, .events, .eventSeq] ⊆ P) (a b c) :
    (State.programFailed s a b c).mask P = s.mask P := mask_mono h <| by
  unfold State.programFailed
  repeat' split
  all_goals simp +decide only [retireBlock_mask, programmed_mask, setMedia_mask, queueRetire_mask, replaceBlock_mask,
      opEnds_mask, relocFailed_mask, rebuildFailed_mask, mask_staged, mask_ite, ite_self, mask_foldl, implies_true]
theorem execProgramFailure_leaves (a b) :
    Leaves [.out, .rdma, .bell, .media, .staged, .dram, .loft, .events, .eventSeq] s (execProgramFailure a b s) := by
  unfold execProgramFailure
  repeat' split
  all_goals simp +decide only [programFailed_mask, go, leaves_next, leaves_fault, leaves_ite, mask_ite, ite_self, mask_foldl,
      implies_true]
theorem eraseDone_mask (h : [.media] ⊆ P) (a b) :
    (State.eraseDone s a b).mask P = s.mask P := mask_mono h <| by
  unfold State.eraseDone
  dsimp only
  repeat' split
  all_goals simp +decide only [setGroup_mask, setMedia_mask, cellarReady_mask, wearBlock_mask, replanParks_mask, opEnds_mask,
      mask_ite, ite_self, mask_foldl, implies_true]
theorem execEraseComplete_leaves (a) :
    Leaves [.media] s (execEraseComplete a s) := by
  unfold execEraseComplete
  repeat' split
  all_goals simp +decide only [eraseDone_mask, go, leaves_next, leaves_fault, leaves_ite, mask_ite, ite_self, mask_foldl,
      implies_true]
theorem eraseFailed_mask (h : [.out, .rdma, .bell, .media, .staged, .dram, .loft, .events, .eventSeq] ⊆ P) (a b c) :
    (State.eraseFailed s a b c).mask P = s.mask P := mask_mono h <| by
  unfold State.eraseFailed
  repeat' split
  all_goals simp +decide only [retireBlock_mask, replaceBlock_mask, retirePhys_mask, eraseDone_mask, mask_ite, ite_self,
      mask_foldl, implies_true]
theorem execEraseFailure_leaves (a b) :
    Leaves [.out, .rdma, .bell, .media, .staged, .dram, .loft, .events, .eventSeq] s (execEraseFailure a b s) := by
  unfold execEraseFailure
  repeat' split
  all_goals simp +decide only [eraseFailed_mask, go, leaves_next, leaves_fault, leaves_ite, mask_ite, ite_self, mask_foldl,
      implies_true]
theorem execDieNoResponse_leaves (a) :
    Leaves [.out, .rdma, .bell, .media, .staged, .dram, .loft, .events, .eventSeq] s (execDieNoResponse a s) := by
  simp +decide only [execDieNoResponse, failDie_mask, go, leaves_next, leaves_fault, leaves_ite, mask_ite, ite_self,
      mask_foldl, implies_true]
theorem execRebuildWordLine_leaves (a) :
    Leaves [.out, .rdma, .ledger, .bell, .fns, .sqs, .cqs, .aborts, .zones, .units, .media, .staged, .jobs, .cores, .hamlets,
        .disp, .sieve, .dram, .loft, .health, .events, .eventSeq] s (execRebuildWordLine a s) := by
  unfold execRebuildWordLine
  repeat' split
  all_goals simp +decide only [newRecon_mask, dropReads_mask, setMem_mask, go, leaves_next, leaves_fault, leaves_ite,
      mask_ite, ite_self, mask_foldl, implies_true]
theorem rebuilt_mask (h : [.out, .rdma, .bell, .media, .dram, .loft, .events, .eventSeq] ⊆ P) (a) :
    (State.rebuilt s a).mask P = s.mask P := mask_mono h <| by
  simp +decide only [State.rebuilt, journalRec_mask, setMem_mask, event_mask, mask_ite, ite_self, mask_foldl, implies_true]
theorem execBlockGroupPass_leaves (a) :
    Leaves [.out, .rdma, .bell, .media, .dram, .loft, .events, .eventSeq] s (execBlockGroupPass a s) := by
  unfold execBlockGroupPass
  repeat' split
  all_goals simp +decide only [journalRec_mask, rebuilt_mask, setMem_mask, go, leaves_next, leaves_fault, leaves_ite,
      mask_ite, ite_self, mask_foldl, implies_true]
theorem setPortWord_mask (h : [.portA, .portB] ⊆ P) (a b c) :
    (State.setPortWord s a b c).mask P = s.mask P := mask_mono h <| by
  simp +decide only [State.setPortWord, setPort_mask, mask_ite, ite_self, mask_foldl, implies_true]
theorem resolve_mask (h : [.out, .portA, .portB] ⊆ P) (a b) :
    (State.resolve s a b).mask P = s.mask P := mask_mono h <| by
  simp +decide only [State.resolve, setPort_mask, tell_mask, mask_ite, ite_self, mask_foldl, implies_true]
theorem askHops_mask (h : [.out] ⊆ P) (a) :
    (State.askHops s a).mask P = s.mask P := mask_mono h <| by
  simp +decide only [State.askHops, tell_mask, mask_ite, ite_self, mask_foldl, implies_true]
theorem rxDropped_mask (h : [.portA, .portB] ⊆ P) (a) :
    (State.rxDropped s a).mask P = s.mask P := mask_mono h <| by
  simp +decide only [State.rxDropped, setPort_mask, mask_ite, ite_self, mask_foldl, implies_true]
theorem onUp_leaves {p} {k : State → State} (hk : ∀ x : State, (k x).mask P = x.mask P) : Leaves P s (s.onUp p k) := by
  unfold State.onUp
  refine leaves_next.mpr ?_
  split
  · exact hk s
  · rfl
theorem reissueAll_mask (h : [.out, .rdma, .cqs] ⊆ P) (a) :
    (State.reissueAll s a).mask P = s.mask P := mask_mono h <| by
  simp +decide only [State.reissueAll, retry_mask, mask_rdma, mask_ite, ite_self, mask_foldl, implies_true]
theorem wakePorts_mask (h : [.out, .rdma, .fns, .sqs, .cqs] ⊆ P)  :
    (State.wakePorts s).mask P = s.mask P := mask_mono h <| by
  simp +decide only [State.wakePorts, fetchAll_mask, reissueAll_mask, mask_ite, ite_self, mask_foldl, implies_true]
theorem execFailover_leaves (a) :
    Leaves [.out, .rdma, .net, .fns, .sqs, .cqs] s (execFailover a s) := by
  simp +decide only [execFailover, fetchFn_mask, reissueAll_mask, mask_net, go, leaves_next, leaves_fault, leaves_ite,
      mask_ite, ite_self, mask_foldl, implies_true]
theorem execUnsupportedRequestNak_leaves (a b c) :
    Leaves [.out, .rdma, .bell, .net, .fns, .loft, .events, .eventSeq] s (execUnsupportedRequestNak a b c s) := by
  simp +decide only [execUnsupportedRequestNak, refuseOn_mask, go, leaves_next, leaves_fault, leaves_ite, mask_ite, ite_self,
      mask_foldl, implies_true]
theorem accessFault_mask (h : [.out, .rdma, .bell, .fns, .sqs, .cqs, .aborts, .zones, .media] ⊆ P) (a b) :
    (State.accessFault s a b).mask P = s.mask P := mask_mono h <| by
  simp +decide only [State.accessFault, dropWork_mask, goOn_mask, complete_mask, mask_ite, ite_self, mask_foldl, implies_true]
theorem outputRefused_mask (h : [.rdma, .sqs, .cqs] ⊆ P) (c r d) :
    (s.outputRefused c r d).mask P = s.mask P := mask_mono h <| by
  unfold State.outputRefused
  dsimp only
  split
  · rfl
  · split
    · rfl
    · exact (mask_rdma (by decide) _).trans ((setCq_mask (by decide) ..).trans ((setSq_mask (by decide) ..).trans
        (logFailure_mask (by decide) ..)))
theorem naked_mask (h : [.out, .rdma, .ledger, .bell, .fns, .sqs, .cqs, .aborts, .zones, .units, .media, .staged, .jobs,
    .cores, .hamlets, .disp, .dram, .health] ⊆ P) (a b c) :
    (State.naked s a b c).mask P = s.mask P := mask_mono h <| by
  unfold State.naked
  repeat' split
  all_goals simp +decide only [setCq_mask, accessFault_mask, setSq_mask, outputRefused_mask, endJob_mask, setFn_mask,
      mask_rdma, mask_ite, ite_self, mask_foldl, implies_true]
theorem execRemoteNak_leaves (a b c) :
    Leaves [.out, .rdma, .ledger, .bell, .net, .fns, .sqs, .cqs, .aborts, .zones, .units, .media, .staged, .jobs, .cores,
        .hamlets, .disp, .dram, .loft, .health, .events, .eventSeq] s (execRemoteNak a b c s) := by
  unfold execRemoteNak
  repeat' split
  all_goals simp +decide only [qpError_mask, naked_mask, go, leaves_next, leaves_fault, leaves_ite, mask_ite, ite_self,
      mask_foldl, implies_true]
theorem execAckTimeout_leaves (a b c) :
    Leaves [.out, .fns] s (execAckTimeout a b c s) := by
  simp +decide only [execAckTimeout, tell_mask, setFn_mask, go, leaves_next, leaves_fault, leaves_ite, mask_ite, ite_self,
      mask_foldl, implies_true]
theorem execQpRetryExhausted_leaves (a b c) :
    Leaves [.out, .rdma, .bell, .net, .fns, .loft, .events, .eventSeq] s (execQpRetryExhausted a b c s) := by
  simp +decide only [execQpRetryExhausted, qpError_mask, go, leaves_next, leaves_fault, leaves_ite, mask_ite, ite_self,
      mask_foldl, implies_true]
theorem execRnrNak_leaves (a b) :
    Leaves [.out, .rdma, .bell, .net, .fns, .loft, .events, .eventSeq] s (execRnrNak a b s) := by
  simp +decide only [execRnrNak, qpError_mask, tell_mask, setFn_mask, go, leaves_next, leaves_fault, leaves_ite, mask_ite,
      ite_self, mask_foldl, implies_true]
theorem cmReq_mask (h : [.out, .portA, .portB, .fns] ⊆ P) (a b) :
    (State.cmReq s a b).mask P = s.mask P := mask_mono h <| by
  unfold State.cmReq
  dsimp only
  repeat' split
  all_goals simp +decide only [resolve_mask, tell_mask, setFn_mask, mask_ite, ite_self, mask_foldl, implies_true]
theorem execCmReq_leaves (a b) :
    Leaves [.out, .portA, .portB, .fns] s (execCmReq a b s) := by
  simp +decide only [execCmReq, onUp_leaves, cmReq_mask, go, leaves_next, leaves_fault, leaves_ite, mask_ite, ite_self,
      mask_foldl, implies_true]
theorem execCmRtu_leaves (a b) :
    Leaves [.out, .rdma, .fns, .sqs, .cqs] s (execCmRtu a b s) := by
  unfold execCmRtu
  repeat' split
  all_goals simp +decide only [wakePorts_mask, onUp_leaves, setFn_mask, go, leaves_next, leaves_fault, leaves_ite, mask_ite,
      ite_self, mask_foldl, implies_true]
theorem qpReset__mask (h : [.net, .fns] ⊆ P) (a b c) :
    (State.qpReset_ s a b c).mask P = s.mask P := mask_mono h <| by
  simp +decide only [State.qpReset_, setFn_mask, mask_net, mask_ite, ite_self, mask_foldl, implies_true]
theorem execCmDreq_leaves (a b) :
    Leaves [.out, .net, .fns] s (execCmDreq a b s) := by
  unfold execCmDreq
  repeat' split
  all_goals simp +decide only [qpReset__mask, onUp_leaves, tell_mask, go, leaves_next, leaves_fault, leaves_ite, mask_ite,
      ite_self, mask_foldl, implies_true]
theorem execCeMarkedPacket_leaves (a b c d) :
    Leaves [.out, .net] s (execCeMarkedPacket a b c d s) := by
  simp +decide only [execCeMarkedPacket, tell_mask, mask_net, go, leaves_next, leaves_fault, leaves_ite, mask_ite, ite_self,
      mask_foldl, implies_true]
theorem execCnpArrival_leaves (a b) :
    Leaves [.fns] s (execCnpArrival a b s) := by
  simp +decide only [execCnpArrival, setFn_mask, go, leaves_next, leaves_fault, leaves_ite, mask_ite, ite_self, mask_foldl,
      implies_true]
theorem execCcRateUpdate_leaves (a b) :
    Leaves [.fns] s (execCcRateUpdate a b s) := by
  simp +decide only [execCcRateUpdate, setFn_mask, go, leaves_next, leaves_fault, leaves_ite, mask_ite, ite_self, mask_foldl,
      implies_true]
theorem execPfcFrame_leaves (a b c) :
    Leaves [.out, .portA, .portB] s (execPfcFrame a b c s) := by
  simp +decide only [execPfcFrame, setPort_mask, unpause_mask, onUp_leaves, go, leaves_next, leaves_fault, leaves_ite,
      mask_ite, ite_self, mask_foldl, implies_true]
theorem execPfcWatchdog_leaves (a b) :
    Leaves [.out, .rdma, .bell, .portA, .portB, .net, .loft, .events, .eventSeq] s (execPfcWatchdog a b s) := by
  simp +decide only [execPfcWatchdog, onUp_leaves, movePort_mask, event_mask, go, leaves_next, leaves_fault, leaves_ite,
      mask_ite, ite_self, mask_foldl, implies_true]
theorem execPauseFrame_leaves (a) :
    Leaves [.portA, .portB] s (execPauseFrame a s) := by
  simp +decide only [execPauseFrame, onUp_leaves, rxDropped_mask, go, leaves_next, leaves_fault, leaves_ite, mask_ite,
      ite_self, mask_foldl, implies_true]
theorem execArpRequest_leaves (a b c d) :
    Leaves [.out, .portA, .portB] s (execArpRequest a b c d s) := by
  simp +decide only [execArpRequest, onUp_leaves, rxDropped_mask, tell_mask, go, leaves_next, leaves_fault, leaves_ite,
      mask_ite, ite_self, mask_foldl, implies_true]
theorem execNeighborSolicitation_leaves (a b c d) :
    Leaves [.out, .portA, .portB] s (execNeighborSolicitation a b c d s) := by
  simp +decide only [execNeighborSolicitation, onUp_leaves, rxDropped_mask, tell_mask, go, leaves_next, leaves_fault,
      leaves_ite, mask_ite, ite_self, mask_foldl, implies_true]
theorem execIcmpEchoRequest_leaves (a b c d e f) :
    Leaves [.out, .portA, .portB] s (execIcmpEchoRequest a b c d e f s) := by
  simp +decide only [execIcmpEchoRequest, setPort_mask, onUp_leaves, rxDropped_mask, tell_mask, go, leaves_next,
      leaves_fault, leaves_ite, mask_ite, ite_self, mask_foldl, implies_true]
theorem execFrameDiscard_leaves (a b) :
    Leaves [.portA, .portB] s (execFrameDiscard a b s) := by
  unfold execFrameDiscard
  repeat' split
  all_goals simp +decide only [onUp_leaves, rxDropped_mask, go, leaves_next, leaves_fault, leaves_ite, mask_ite, ite_self,
      mask_foldl, implies_true]
theorem execNextHopResolution_leaves (a b c) :
    Leaves [.portA, .portB] s (execNextHopResolution a b c s) := by
  simp +decide only [execNextHopResolution, setPort_mask, onUp_leaves, go, leaves_next, leaves_fault, leaves_ite, mask_ite,
      ite_self, mask_foldl, implies_true]
theorem judgeOptic_mask (h : [.out, .rdma, .bell, .portA, .portB, .loft, .events, .eventSeq] ⊆ P) (a) :
    (State.judgeOptic s a).mask P = s.mask P := mask_mono h <| by
  unfold State.judgeOptic
  repeat' split
  all_goals simp +decide only [setPort_mask, event_mask, mask_ite, ite_self, mask_foldl, implies_true]
theorem tryTrain_mask (h : [.out, .rdma, .bell, .portA, .portB, .net, .loft, .events, .eventSeq] ⊆ P) (a) :
    (State.tryTrain s a).mask P = s.mask P := mask_mono h <| by
  simp +decide only [State.tryTrain, movePort_mask, mask_ite, ite_self, mask_foldl, implies_true]
theorem execOpticsInsert_leaves (a b) :
    Leaves [.out, .rdma, .bell, .portA, .portB, .net, .loft, .events, .eventSeq] s (execOpticsInsert a b s) := by
  simp +decide only [execOpticsInsert, setPort_mask, tryTrain_mask, judgeOptic_mask, movePort_mask, go, leaves_next,
      leaves_fault, leaves_ite, mask_ite, ite_self, mask_foldl, implies_true]
theorem execOpticsRemove_leaves (a) :
    Leaves [.out, .rdma, .bell, .portA, .portB, .net, .loft, .events, .eventSeq] s (execOpticsRemove a s) := by
  unfold execOpticsRemove
  dsimp only
  repeat' split
  all_goals simp +decide only [setPort_mask, movePort_mask, go, leaves_next, leaves_fault, leaves_ite, mask_ite, ite_self,
      mask_foldl, implies_true]
theorem execLinkFault_leaves (a b) :
    Leaves [.out, .rdma, .bell, .portA, .portB, .net, .loft, .events, .eventSeq] s (execLinkFault a b s) := by
  simp +decide only [execLinkFault, onUp_leaves, movePort_mask, go, leaves_next, leaves_fault, leaves_ite, mask_ite,
      ite_self, mask_foldl, implies_true]
theorem execTrainingAttemptEnd_leaves (a b) :
    Leaves [.out, .rdma, .bell, .portA, .portB, .net, .fns, .sqs, .cqs, .loft, .events, .eventSeq] s (execTrainingAttemptEnd
        a b s) := by
  simp +decide only [execTrainingAttemptEnd, wakePorts_mask, setPort_mask, movePort_mask, askHops_mask, go, leaves_next,
      leaves_fault, leaves_ite, mask_ite, ite_self, mask_foldl, implies_true]
theorem execDownRetry_leaves (a) :
    Leaves [.out, .rdma, .bell, .portA, .portB, .net, .loft, .events, .eventSeq] s (execDownRetry a s) := by
  simp +decide only [execDownRetry, movePort_mask, go, leaves_next, leaves_fault, leaves_ite, mask_ite, ite_self, mask_foldl,
      implies_true]
theorem setClock_mask (h : [.out, .rdma, .bell, .loft, .events, .eventSeq, .clk] ⊆ P) (a) :
    (State.setClock s a).mask P = s.mask P := mask_mono h <| by
  simp +decide only [State.setClock, event_mask, mask_clk, mask_ite, ite_self, mask_foldl, implies_true]
theorem slewClock_mask (h : [.out, .rdma, .bell, .loft, .events, .eventSeq, .clk] ⊆ P) (a b) :
    (State.slewClock s a b).mask P = s.mask P := mask_mono h <| by
  simp +decide only [State.slewClock, setClock_mask, mask_ite, ite_self, mask_foldl, implies_true]
theorem execPtpAnnounce_leaves (a b) :
    Leaves [.portA, .portB] s (execPtpAnnounce a b s) := by
  simp +decide only [execPtpAnnounce, setPort_mask, onUp_leaves, go, leaves_next, leaves_fault, leaves_ite, mask_ite,
      ite_self, mask_foldl, implies_true]
theorem measure_mask (h : [.out, .rdma, .bell, .loft, .events, .eventSeq, .clk] ⊆ P) (a b) :
    (State.measure s a b).mask P = s.mask P := mask_mono h <| by
  simp +decide only [State.measure, setClock_mask, slewClock_mask, mask_clk, mask_ite, ite_self, mask_foldl, implies_true]
theorem execPtpSync_leaves (a b c) :
    Leaves [.out, .rdma, .bell, .portA, .portB, .loft, .events, .eventSeq, .clk] s (execPtpSync a b c s) := by
  simp +decide only [execPtpSync, setPort_mask, onUp_leaves, measure_mask, tell_mask, go, leaves_next, leaves_fault,
      leaves_ite, mask_ite, ite_self, mask_foldl, implies_true]
theorem execPtpDelayResp_leaves (a b) :
    Leaves [.clk] s (execPtpDelayResp a b s) := by
  simp +decide only [execPtpDelayResp, onUp_leaves, mask_clk, go, leaves_next, leaves_fault, leaves_ite, mask_ite, ite_self,
      mask_foldl, implies_true]
theorem usePtp_mask (h : [.net, .clk] ⊆ P) (a) :
    (State.usePtp s a).mask P = s.mask P := mask_mono h <| by
  simp +decide only [State.usePtp, mask_net_clk, mask_ite, ite_self, mask_foldl, implies_true]
theorem execPtpSyncLoss_leaves  :
    Leaves [.portA, .portB, .net, .clk] s (execPtpSyncLoss s) := by
  simp +decide only [execPtpSyncLoss, setPort_mask, usePtp_mask, mask_clk, go, leaves_next, leaves_fault, leaves_ite,
      mask_ite, ite_self, mask_foldl, implies_true]
theorem execPtpSourceReturn_leaves  :
    Leaves [.net, .clk] s (execPtpSourceReturn s) := by
  unfold execPtpSourceReturn
  repeat' split
  all_goals simp +decide only [usePtp_mask, go, leaves_next, leaves_fault, leaves_ite, mask_ite, ite_self, mask_foldl,
      implies_true]
theorem latch_mask (h : [.err] ⊆ P) (a b c d) :
    (State.latch s a b c d).mask P = s.mask P := mask_mono h <| by
  simp +decide only [State.latch, mask_err, mask_ite, ite_self, mask_foldl, implies_true]
theorem putPortCtrl_mask (h : [.out, .rdma, .bell, .portA, .portB, .net, .loft, .events, .eventSeq] ⊆ P) (a b) :
    (State.putPortCtrl s a b).mask P = s.mask P := mask_mono h <| by
  simp +decide only [State.putPortCtrl, setPort_mask, tryTrain_mask, setPortWord_mask, movePort_mask, mask_ite, ite_self,
      mask_foldl, implies_true]
theorem putPtp_mask (h : [.portA, .portB, .net, .clk] ⊆ P) (a) :
    (State.putPtp s a).mask P = s.mask P := mask_mono h <| by
  simp +decide only [State.putPtp, usePtp_mask, mask_portA_portB, mask_net, mask_ite, ite_self, mask_foldl, implies_true]
theorem putQp_mask (h : [.out, .rdma, .portA, .portB, .net, .fns, .sqs, .cqs] ⊆ P) (a b c d) :
    (State.putQp s a b c d).mask P = s.mask P := mask_mono h <| by
  unfold State.putQp
  dsimp only
  repeat' split
  all_goals simp +decide only [wakePorts_mask, qpReset__mask, resolve_mask, setFn_mask, mask_ite, ite_self, mask_foldl,
      implies_true]
theorem putRing_mask (h : [.net, .sqs, .cqs] ⊆ P) (a b c) :
    (State.putRing s a b c).mask P = s.mask P := mask_mono h <| by
  unfold State.putRing
  repeat' split
  all_goals simp +decide only [setCq_mask, setSq_mask, mask_net, mask_ite, ite_self, mask_foldl, implies_true]
theorem putTrc_mask (h : [.disp] ⊆ P) (a) :
    (State.putTrc s a).mask P = s.mask P := mask_mono h <| by
  simp +decide only [State.putTrc, mask_disp, mask_ite, ite_self, mask_foldl, implies_true]
theorem putReg_mask (h : [.out, .rdma, .bell, .err, .portA, .portB, .net, .fns, .sqs, .cqs, .sems, .disp, .sieve, .edc,
    .loft, .health, .events, .eventSeq, .clk, .pwr] ⊆ P) (a b c) :
    (State.putReg s a b c).mask P = s.mask P := mask_mono h <| by
  unfold State.putReg
  repeat' split
  all_goals simp +decide only [putQp_mask, setPort_mask, putRing_mask, setPortWord_mask, putPtp_mask, putTrc_mask,
      putPortCtrl_mask, setFn_mask, mask_err, mask_bell, mask_net, mask_sems, mask_pwr, mask_edc, mask_sieve, mask_health,
      mask_disp, mask_ite, ite_self, mask_foldl, implies_true]
theorem applyMessage_mask (h : [.out, .rdma, .bell, .err, .portA, .portB, .net, .fns, .sqs, .cqs, .sems, .disp, .sieve, .edc,
    .loft, .health, .events, .eventSeq, .clk, .pwr] ⊆ P) (a b) :
    (State.applyMessage s a b).mask P = s.mask P := mask_mono h <| by
  simp +decide only [State.applyMessage, putReg_mask, mask_ite, ite_self, mask_foldl, implies_true]
theorem judgeMessage_mask (h : [.out, .rdma, .bell, .err, .portA, .portB, .net, .fns, .sqs, .cqs, .sems, .disp, .sieve, .edc,
    .loft, .health, .events, .eventSeq, .clk, .pwr] ⊆ P) (a b c) :
    (State.judgeMessage s a b c).mask P = s.mask P := mask_mono h <| by
  unfold State.judgeMessage
  repeat' split
  all_goals simp +decide only [applyMessage_mask, latch_mask, mask_ite, ite_self, mask_foldl, implies_true]
theorem message_mask (h : [.out, .rdma, .bell, .err, .portA, .portB, .net, .fns, .sqs, .cqs, .sems, .disp, .sieve, .edc,
    .loft, .health, .events, .eventSeq, .clk, .pwr] ⊆ P) (a b c) :
    (State.message s a b c).mask P = s.mask P := mask_mono h <| by
  unfold State.message
  repeat' split
  all_goals simp +decide only [refuse_mask, judgeMessage_mask, mask_ite, ite_self, mask_foldl, implies_true]
theorem execSetupWrite_leaves (a b c) :
    Leaves [.out, .rdma, .bell, .err, .portA, .portB, .net, .fns, .sqs, .cqs, .sems, .disp, .sieve, .edc, .loft, .health,
        .events, .eventSeq, .clk, .pwr] s (execSetupWrite a b c s) := by
  simp +decide only [execSetupWrite, message_mask, go, leaves_next, leaves_fault, leaves_ite, mask_ite, ite_self, mask_foldl,
      implies_true]
theorem writeWord_mask (h : [.out, .rdma, .bell, .err, .portA, .portB, .net, .fns, .sqs, .cqs, .sems, .disp, .sieve, .edc,
    .loft, .health, .events, .eventSeq, .clk, .pwr] ⊆ P) (a b c) :
    (State.writeWord s a b c).mask P = s.mask P := mask_mono h <| by
  simp +decide only [State.writeWord, message_mask, mask_ite, ite_self, mask_foldl, implies_true]
theorem execSetupErrClear_leaves (a) :
    Leaves [.out, .rdma, .bell, .err, .portA, .portB, .net, .fns, .sqs, .cqs, .sems, .disp, .sieve, .edc, .loft, .health,
        .events, .eventSeq, .clk, .pwr] s (execSetupErrClear a s) := by
  simp +decide only [execSetupErrClear, writeWord_mask, go, leaves_next, leaves_fault, leaves_ite, mask_ite, ite_self,
      mask_foldl, implies_true]
theorem execPortEnable_leaves (a b c) :
    Leaves [.out, .rdma, .bell, .err, .portA, .portB, .net, .fns, .sqs, .cqs, .sems, .disp, .sieve, .edc, .loft, .health,
        .events, .eventSeq, .clk, .pwr] s (execPortEnable a b c s) := by
  simp +decide only [execPortEnable, writeWord_mask, go, leaves_next, leaves_fault, leaves_ite, mask_ite, ite_self,
      mask_foldl, implies_true]
theorem execPortRetrain_leaves (a b) :
    Leaves [.out, .rdma, .bell, .err, .portA, .portB, .net, .fns, .sqs, .cqs, .sems, .disp, .sieve, .edc, .loft, .health,
        .events, .eventSeq, .clk, .pwr] s (execPortRetrain a b s) := by
  simp +decide only [execPortRetrain, writeWord_mask, go, leaves_next, leaves_fault, leaves_ite, mask_ite, ite_self,
      mask_foldl, implies_true]
theorem execQpToInit_leaves (a b c d e f) :
    Leaves [.out, .rdma, .bell, .err, .portA, .portB, .net, .fns, .sqs, .cqs, .sems, .disp, .sieve, .edc, .loft, .health,
        .events, .eventSeq, .clk, .pwr] s (execQpToInit a b c d e f s) := by
  simp +decide only [execQpToInit, message_mask, go, leaves_next, leaves_fault, leaves_ite, mask_ite, ite_self, mask_foldl,
      implies_true]
theorem moveQp_mask (h : [.out, .rdma, .bell, .err, .portA, .portB, .net, .fns, .sqs, .cqs, .sems, .disp, .sieve, .edc,
    .loft, .health, .events, .eventSeq, .clk, .pwr] ⊆ P) (a b c d e) :
    (State.moveQp s a b c d e).mask P = s.mask P := mask_mono h <| by
  simp +decide only [State.moveQp, writeWord_mask, mask_ite, ite_self, mask_foldl, implies_true]
theorem execQpToRtr_leaves (a b c d) :
    Leaves [.out, .rdma, .bell, .err, .portA, .portB, .net, .fns, .sqs, .cqs, .sems, .disp, .sieve, .edc, .loft, .health,
        .events, .eventSeq, .clk, .pwr] s (execQpToRtr a b c d s) := by
  simp +decide only [execQpToRtr, moveQp_mask, go, leaves_next, leaves_fault, leaves_ite, mask_ite, ite_self, mask_foldl,
      implies_true]
theorem execQpToRts_leaves (a b c d) :
    Leaves [.out, .rdma, .bell, .err, .portA, .portB, .net, .fns, .sqs, .cqs, .sems, .disp, .sieve, .edc, .loft, .health,
        .events, .eventSeq, .clk, .pwr] s (execQpToRts a b c d s) := by
  simp +decide only [execQpToRts, moveQp_mask, go, leaves_next, leaves_fault, leaves_ite, mask_ite, ite_self, mask_foldl,
      implies_true]
theorem execQpToReset_leaves (a b c d) :
    Leaves [.out, .rdma, .bell, .err, .portA, .portB, .net, .fns, .sqs, .cqs, .sems, .disp, .sieve, .edc, .loft, .health,
        .events, .eventSeq, .clk, .pwr] s (execQpToReset a b c d s) := by
  simp +decide only [execQpToReset, moveQp_mask, go, leaves_next, leaves_fault, leaves_ite, mask_ite, ite_self, mask_foldl,
      implies_true]
theorem execAdminRingWrite_leaves (a b c) :
    Leaves [.out, .rdma, .bell, .err, .portA, .portB, .net, .fns, .sqs, .cqs, .sems, .disp, .sieve, .edc, .loft, .health,
        .events, .eventSeq, .clk, .pwr] s (execAdminRingWrite a b c s) := by
  simp +decide only [execAdminRingWrite, message_mask, go, leaves_next, leaves_fault, leaves_ite, mask_ite, ite_self,
      mask_foldl, implies_true]
theorem execSveModeWrite_leaves (a b) :
    Leaves [.out, .rdma, .bell, .err, .portA, .portB, .net, .fns, .sqs, .cqs, .sems, .disp, .sieve, .edc, .loft, .health,
        .events, .eventSeq, .clk, .pwr] s (execSveModeWrite a b s) := by
  simp +decide only [execSveModeWrite, writeWord_mask, go, leaves_next, leaves_fault, leaves_ite, mask_ite, ite_self,
      mask_foldl, implies_true]
theorem execSveOwnerWrite_leaves (a b) :
    Leaves [.out, .rdma, .bell, .err, .portA, .portB, .net, .fns, .sqs, .cqs, .sems, .disp, .sieve, .edc, .loft, .health,
        .events, .eventSeq, .clk, .pwr] s (execSveOwnerWrite a b s) := by
  simp +decide only [execSveOwnerWrite, writeWord_mask, go, leaves_next, leaves_fault, leaves_ite, mask_ite, ite_self,
      mask_foldl, implies_true]
theorem execTrcDispCtrlWrite_leaves (a b) :
    Leaves [.out, .rdma, .bell, .err, .portA, .portB, .net, .fns, .sqs, .cqs, .sems, .disp, .sieve, .edc, .loft, .health,
        .events, .eventSeq, .clk, .pwr] s (execTrcDispCtrlWrite a b s) := by
  simp +decide only [execTrcDispCtrlWrite, writeWord_mask, go, leaves_next, leaves_fault, leaves_ite, mask_ite, ite_self,
      mask_foldl, implies_true]
theorem execScrubGo_leaves (a) :
    Leaves [.out, .rdma, .bell, .err, .portA, .portB, .net, .fns, .sqs, .cqs, .sems, .disp, .sieve, .edc, .loft, .health,
        .events, .eventSeq, .clk, .pwr] s (execScrubGo a s) := by
  simp +decide only [execScrubGo, writeWord_mask, go, leaves_next, leaves_fault, leaves_ite, mask_ite, ite_self, mask_foldl,
      implies_true]
theorem execAlertClear_leaves (a) :
    Leaves [.out, .rdma, .bell, .err, .portA, .portB, .net, .fns, .sqs, .cqs, .sems, .disp, .sieve, .edc, .loft, .health,
        .events, .eventSeq, .clk, .pwr] s (execAlertClear a s) := by
  simp +decide only [execAlertClear, writeWord_mask, go, leaves_next, leaves_fault, leaves_ite, mask_ite, ite_self,
      mask_foldl, implies_true]
theorem execLocate_leaves (a b) :
    Leaves [.out, .rdma, .bell, .err, .portA, .portB, .net, .fns, .sqs, .cqs, .sems, .disp, .sieve, .edc, .loft, .health,
        .events, .eventSeq, .clk, .pwr] s (execLocate a b s) := by
  simp +decide only [execLocate, writeWord_mask, go, leaves_next, leaves_fault, leaves_ite, mask_ite, ite_self, mask_foldl,
      implies_true]
theorem setRank_mask (h : [.dram] ⊆ P) (a b) :
    (State.setRank s a b).mask P = s.mask P := mask_mono h <| by
  simp +decide only [State.setRank, mask_dram, mask_ite, ite_self, mask_foldl, implies_true]
theorem evaluate_mask (h : [.out, .rdma, .bell, .loft, .health, .events, .eventSeq] ⊆ P)  :
    (State.evaluate s).mask P = s.mask P := mask_mono h <| by
  simp +decide only [State.evaluate, event_mask, mask_health, mask_ite, ite_self, mask_foldl, implies_true]
theorem execHealthEvaluation_leaves  :
    Leaves [.out, .rdma, .bell, .loft, .health, .events, .eventSeq] s (execHealthEvaluation s) := by
  simp +decide only [execHealthEvaluation, evaluate_mask, go, leaves_next, leaves_fault, leaves_ite, mask_ite, ite_self,
      mask_foldl, implies_true]
theorem sampleTelem_mask (h : [.health] ⊆ P)  :
    (State.sampleTelem s).mask P = s.mask P := mask_mono h <| by
  simp +decide only [State.sampleTelem, mask_health, mask_ite, ite_self, mask_foldl, implies_true]
theorem execSmbusSetOffset_leaves (a b) :
    Leaves [.out, .err, .smbOff] s (execSmbusSetOffset a b s) := by
  simp +decide only [execSmbusSetOffset, latch_mask, tell_mask, mask_smbOff, go, leaves_next, leaves_fault, leaves_ite,
      mask_ite, ite_self, mask_foldl, implies_true]
theorem execSmbusRead_leaves  :
    Leaves [.out, .smbOff] s (execSmbusRead s) := by
  simp +decide only [execSmbusRead, tell_mask, mask_smbOff, go, leaves_next, leaves_fault, leaves_ite, mask_ite, ite_self,
      mask_foldl, implies_true]
theorem execSmbusWrite_leaves (a b) :
    Leaves [.out, .rdma, .bell, .err, .portA, .portB, .net, .fns, .sqs, .cqs, .sems, .disp, .sieve, .edc, .loft, .health,
        .events, .eventSeq, .clk, .pwr] s (execSmbusWrite a b s) := by
  simp +decide only [execSmbusWrite, message_mask, tell_mask, go, leaves_next, leaves_fault, leaves_ite, mask_ite, ite_self,
      mask_foldl, implies_true]
theorem execSmbusAlertResponse_leaves  :
    Leaves [.out] s (execSmbusAlertResponse s) := by
  simp +decide only [execSmbusAlertResponse, tell_mask, go, leaves_next, leaves_fault, leaves_ite, mask_ite, ite_self,
      mask_foldl, implies_true]
theorem setDram_mask (h : [.dram] ⊆ P) (a) :
    (State.setDram s a).mask P = s.mask P := mask_mono h <| by
  simp +decide only [State.setDram, mask_dram, mask_ite, ite_self, mask_foldl, implies_true]
theorem execWatermarkBatch_leaves (a) :
    Leaves [.bell, .dram] s (execWatermarkBatch a s) := by
  simp +decide only [execWatermarkBatch, setDram_mask, mask_bell, go, leaves_next, leaves_fault, leaves_ite, mask_ite,
      ite_self, mask_foldl, implies_true]
theorem loseJobs_mask (h : [.free, .out, .rdma, .ledger, .bell, .fns, .sqs, .cqs, .aborts, .zones, .units, .media, .staged,
    .jobs, .cores, .hamlets, .disp, .dram, .health] ⊆ P)  :
    (s.loseJobs).mask P = s.mask P := mask_mono h <| by
  refine mask_foldl (fun x j => ?_) _ s
  dsimp only [State.draw]
  split
  · split
    · exact (endJob_mask (by decide) ..).trans (mask_free (by decide) _)
    · exact mask_free (by decide) _
  · exact mask_free (by decide) _
theorem cutAllotments_mask (h : [.out, .rdma, .bell, .fns, .loft, .events, .eventSeq] ⊆ P)  :
    (State.cutAllotments s).mask P = s.mask P := mask_mono h <| by
  simp +decide only [State.cutAllotments, event_mask, mask_fns, mask_ite, ite_self, mask_foldl, implies_true]
theorem losePlain_mask (h : [.out, .rdma, .bell, .fns, .dram, .loft, .events, .eventSeq] ⊆ P) (a) :
    (State.losePlain s a).mask P = s.mask P := mask_mono h <| by
  simp +decide only [State.losePlain, setDram_mask, cutAllotments_mask, mask_ite, ite_self, mask_foldl, implies_true]
theorem moveRank_mask (h : [.out, .rdma, .bell, .dram, .loft, .events, .eventSeq] ⊆ P) (a b) :
    (State.moveRank s a b).mask P = s.mask P := mask_mono h <| by
  simp +decide only [State.moveRank, loftRecord_mask, setDram_mask, setRank_mask, event_mask, mask_ite, ite_self, mask_foldl,
      implies_true]
theorem losePair_mask (h : [.free, .media] ⊆ P)  :
    (s.losePair).mask P = s.mask P := mask_mono h <| by
  refine mask_foldl (fun x k => ?_) _ s
  dsimp only [State.draw]
  split
  · exact (setMedia_mask (by decide) _).trans (mask_free (by decide) _)
  · exact mask_free (by decide) _
theorem loseRanks_mask (h : [.free, .out, .rdma, .ledger, .bell, .fns, .sqs, .cqs, .aborts, .zones, .units, .media, .staged,
    .jobs, .cores, .hamlets, .disp, .dram, .loft, .health, .events, .eventSeq] ⊆ P) (a) :
    (State.loseRanks s a).mask P = s.mask P := mask_mono h <| by
  simp +decide only [State.loseRanks, losePair_mask, loseJobs_mask, setDram_mask, losePlain_mask, mask_ite, ite_self,
      mask_foldl, implies_true]
theorem activeFails_mask (h : [.free, .out, .rdma, .ledger, .bell, .fns, .sqs, .cqs, .aborts, .zones, .units, .media,
    .staged, .jobs, .cores, .hamlets, .disp, .dram, .loft, .health, .events, .eventSeq] ⊆ P) (a) :
    (State.activeFails s a).mask P = s.mask P := mask_mono h <| by
  unfold State.activeFails
  repeat' split
  all_goals simp +decide only [moveRank_mask, loseRanks_mask, setRank_mask, mask_ite, ite_self, mask_foldl, implies_true]
theorem rankFails_mask (h : [.free, .out, .rdma, .ledger, .bell, .fns, .sqs, .cqs, .aborts, .zones, .units, .media, .staged,
    .jobs, .cores, .hamlets, .disp, .dram, .loft, .health, .events, .eventSeq] ⊆ P) (a) :
    (State.rankFails s a).mask P = s.mask P := mask_mono h <| by
  unfold State.rankFails
  dsimp only
  repeat' split
  all_goals simp +decide only [activeFails_mask, moveRank_mask, loseRanks_mask, setRank_mask, mask_ite, ite_self, mask_foldl,
      implies_true]
theorem execRankRecentre_leaves (a b c d) :
    Leaves [.out, .rdma, .bell, .dram, .loft, .events, .eventSeq] s (execRankRecentre a b c d s) := by
  simp +decide only [execRankRecentre, moveRank_mask, setDram_mask, setRank_mask, go, leaves_next, leaves_fault, leaves_ite,
      mask_ite, ite_self, mask_foldl, implies_true]
theorem execRankRetrainResult_leaves (a b) :
    Leaves [.free, .out, .rdma, .ledger, .bell, .fns, .sqs, .cqs, .aborts, .zones, .units, .media, .staged, .jobs, .cores,
        .hamlets, .disp, .dram, .loft, .health, .events, .eventSeq] s (execRankRetrainResult a b s) := by
  unfold execRankRetrainResult
  repeat' split
  all_goals simp +decide only [loseJobs_mask, moveRank_mask, loseRanks_mask, setRank_mask, go, leaves_next, leaves_fault,
      leaves_ite, mask_ite, ite_self, mask_foldl, implies_true]
theorem execRankMigrationStart_leaves (a) :
    Leaves [.free, .out, .rdma, .ledger, .bell, .fns, .sqs, .cqs, .aborts, .zones, .units, .media, .staged, .jobs, .cores,
        .hamlets, .disp, .dram, .loft, .health, .events, .eventSeq] s (execRankMigrationStart a s) := by
  simp +decide only [execRankMigrationStart, rankFails_mask, go, leaves_next, leaves_fault, leaves_ite, mask_ite, ite_self,
      mask_foldl, implies_true]
theorem execRankMigrationComplete_leaves (a) :
    Leaves [.out, .rdma, .bell, .dram, .loft, .events, .eventSeq] s (execRankMigrationComplete a s) := by
  unfold execRankMigrationComplete
  dsimp only
  repeat' split
  all_goals simp +decide only [moveRank_mask, setDram_mask, setRank_mask, go, leaves_next, leaves_fault, leaves_ite,
      mask_ite, ite_self, mask_foldl, implies_true]
theorem remirrorPair_mask (h : [.out, .rdma, .bell, .fns, .dram, .loft, .events, .eventSeq] ⊆ P) (a) :
    (State.remirrorPair s a).mask P = s.mask P := mask_mono h <| by
  simp +decide only [State.remirrorPair, setDram_mask, losePlain_mask, mask_ite, ite_self, mask_foldl, implies_true]
theorem execRemirror_leaves (a) :
    Leaves [.out, .rdma, .bell, .fns, .dram, .loft, .events, .eventSeq] s (execRemirror a s) := by
  simp +decide only [execRemirror, remirrorPair_mask, go, leaves_next, leaves_fault, leaves_ite, mask_ite, ite_self,
      mask_foldl, implies_true]
theorem execDetourApply_leaves (a) :
    Leaves [.dram] s (execDetourApply a s) := by
  simp +decide only [execDetourApply, setDram_mask, go, leaves_next, leaves_fault, leaves_ite, mask_ite, ite_self,
      mask_foldl, implies_true]
theorem execDramChannelLoss_leaves (a) :
    Leaves [.free, .out, .rdma, .ledger, .bell, .fns, .sqs, .cqs, .aborts, .zones, .units, .media, .staged, .jobs, .cores,
        .hamlets, .disp, .dram, .loft, .health, .events, .eventSeq] s (execDramChannelLoss a s) := by
  simp +decide only [execDramChannelLoss, moveRank_mask, setDram_mask, loseRanks_mask, setRank_mask, go, leaves_next,
      leaves_fault, leaves_ite, mask_ite, ite_self, mask_foldl, implies_true]
theorem execDramUncorrectable_leaves (a) :
    Leaves [.free, .out, .rdma, .ledger, .bell, .fns, .sqs, .cqs, .aborts, .zones, .units, .media, .staged, .jobs, .cores,
        .hamlets, .disp, .dram, .loft, .health, .events, .eventSeq] s (execDramUncorrectable a s) := by
  unfold execDramUncorrectable
  repeat' split
  all_goals simp +decide only [rankFails_mask, setDram_mask, setJob_mask, endJob_mask, go, leaves_next, leaves_fault,
      leaves_ite, mask_ite, ite_self, mask_foldl, implies_true]
theorem execRemap_leaves (a) :
    Leaves [.free, .out, .rdma, .ledger, .bell, .fns, .sqs, .cqs, .aborts, .zones, .units, .media, .staged, .jobs, .cores,
        .hamlets, .disp, .dram, .loft, .health, .events, .eventSeq] s (execRemap a s) := by
  unfold execRemap
  repeat' split
  all_goals simp +decide only [loftRecord_mask, activeFails_mask, setDram_mask, setRank_mask, retireCore_mask, go,
      leaves_next, leaves_fault, leaves_ite, mask_ite, ite_self, mask_foldl, implies_true]
theorem corrected_mask (h : [.dram] ⊆ P) (a) :
    (State.corrected s a).mask P = s.mask P := mask_mono h <| by
  simp +decide only [State.corrected, setRank_mask, mask_ite, ite_self, mask_foldl, implies_true]
theorem execScrubPass_leaves (a) :
    Leaves [.jobs, .dram, .edc] s (execScrubPass a s) := by
  simp +decide only [execScrubPass, corrected_mask, setJob_mask, mask_edc, go, leaves_next, leaves_fault, leaves_ite,
      mask_ite, ite_self, mask_foldl, implies_true]
theorem execScrubComplete_leaves (a) :
    Leaves [.dram, .edc] s (execScrubComplete a s) := by
  simp +decide only [execScrubComplete, corrected_mask, mask_edc, go, leaves_next, leaves_fault, leaves_ite, mask_ite,
      ite_self, mask_foldl, implies_true]
theorem clearSector_mask (h : [.loft] ⊆ P) (a) :
    (State.clearSector s a).mask P = s.mask P := mask_mono h <| by
  simp +decide only [State.clearSector, setLoft_mask, mask_ite, ite_self, mask_foldl, implies_true]
theorem rejudge_mask (h : [.free, .loft, .life] ⊆ P) (k) :
    (s.rejudge k).mask P = s.mask P := mask_mono h <| by
  unfold State.rejudge
  simp +decide only [mask_ite, setLoft_mask, ite_self]
  split
  · rfl
  · split
    · rfl
    · split
      · exact (mask_life (by decide) _).trans (mask_free (by decide) _)
      · rfl
theorem loftRemap_mask (h : [.out, .rdma, .bell, .loft, .events, .eventSeq] ⊆ P) (a) :
    (State.loftRemap s a).mask P = s.mask P := mask_mono h <| by
  simp +decide only [State.loftRemap, setLoft_mask, loftRecord_mask, putWords_mask, event_mask, mask_ite, ite_self,
      mask_foldl, implies_true]
theorem countErase_mask (h : [.out, .rdma, .bell, .loft, .events, .eventSeq] ⊆ P) (a) :
    (State.countErase s a).mask P = s.mask P := mask_mono h <| by
  simp +decide only [State.countErase, setLoft_mask, loftRemap_mask, event_mask, mask_ite, ite_self, mask_foldl, implies_true]
theorem loftEnds_mask (h : [.loft] ⊆ P) (a) :
    (State.loftEnds s a).mask P = s.mask P := mask_mono h <| by
  simp +decide only [State.loftEnds, setLoft_mask, mask_ite, ite_self, mask_foldl, implies_true]
theorem loftRefused_mask (h : [.loft] ⊆ P)  :
    (State.loftRefused s).mask P = s.mask P := mask_mono h <| by
  simp +decide only [State.loftRefused, setLoft_mask, mask_ite, ite_self, mask_foldl, implies_true]
theorem programWord_mask (h : [.free, .out, .rdma, .bell, .loft, .events, .eventSeq, .life] ⊆ P) (a b c) :
    (State.programWord s a b c).mask P = s.mask P := mask_mono h <| by
  simp +decide only [State.programWord, setLoft_mask, loftRemap_mask, loftEnds_mask, rejudge_mask, mask_ite, ite_self,
      mask_foldl, implies_true]
theorem execLoftWordProgram_leaves (a b c) :
    Leaves [.free, .out, .rdma, .bell, .loft, .events, .eventSeq, .life] s (execLoftWordProgram a b c s) := by
  simp +decide only [execLoftWordProgram, loftEnds_mask, programWord_mask, loftRefused_mask, go, leaves_next, leaves_fault,
      leaves_ite, mask_ite, ite_self, mask_foldl, implies_true]
theorem eraseEnds_mask (h : [.free, .out, .rdma, .bell, .loft, .events, .eventSeq, .life] ⊆ P) (a b) :
    (State.eraseEnds s a b).mask P = s.mask P := mask_mono h <| by
  simp +decide only [State.eraseEnds, setLoft_mask, tearSector_mask, countErase_mask, loftRemap_mask, loftEnds_mask,
      clearSector_mask, rejudge_mask, flushLoft_mask, mask_ite, ite_self, mask_foldl, implies_true]
theorem execLoftSectorErase_leaves (a b) :
    Leaves [.free, .out, .rdma, .bell, .loft, .events, .eventSeq, .life] s (execLoftSectorErase a b s) := by
  unfold execLoftSectorErase
  repeat' split
  all_goals simp +decide only [setLoft_mask, eraseEnds_mask, loftEnds_mask, loftRefused_mask, go, leaves_next, leaves_fault,
      leaves_ite, mask_ite, ite_self, mask_foldl, implies_true]
theorem execLoftEraseAbort_leaves (a) :
    Leaves [.free, .loft] s (execLoftEraseAbort a s) := by
  simp +decide only [execLoftEraseAbort, abortErase_mask, flushLoft_mask, go, leaves_next, leaves_fault, leaves_ite,
      mask_ite, ite_self, mask_foldl, implies_true]
theorem abortErases_mask (h : [.free, .loft] ⊆ P)  :
    (State.abortErases s).mask P = s.mask P := mask_mono h <| by
  simp +decide only [State.abortErases, abortErase_mask, mask_ite, ite_self, mask_foldl, implies_true]
theorem execLoftPatrol_leaves (a) :
    Leaves [.out, .rdma, .bell, .loft, .events, .eventSeq] s (execLoftPatrol a s) := by
  simp +decide only [execLoftPatrol, loftRemap_mask, go, leaves_next, leaves_fault, leaves_ite, mask_ite, ite_self,
      mask_foldl, implies_true]
theorem downloadSector_mask (h : [.out, .rdma, .bell, .loft, .events, .eventSeq] ⊆ P) {k b} {t : State}
    (e : s.downloadSector k b = some t) : t.mask P = s.mask P := mask_mono h <| by
  unfold State.downloadSector at e
  dsimp only at e
  split at e
  · cases e
  · cases e
    simp +decide only [putWords_mask, countErase_mask, clearSector_mask]
theorem downloadAll_mask (h : [.out, .rdma, .bell, .loft, .events, .eventSeq] ⊆ P) : ∀ (n) (s : State) (k b),
    (s.downloadAll k b n).1.mask P = s.mask P
  | 0, _, _, _ => rfl
  | n + 1, s, k, b => by
    unfold State.downloadAll
    split
    · rfl
    · exact (downloadAll_mask h n _ _ _).trans (downloadSector_mask h (by assumption))
theorem loadMaps_mask (h : [.zones, .rand, .media] ⊆ P) (a) :
    (State.loadMaps s a).mask P = s.mask P := mask_mono h <| by
  simp +decide only [State.loadMaps, setMedia_mask, mask_zones_rand, mask_ite, ite_self, mask_foldl, implies_true]
theorem replayMaps_mask (h : [.zones, .rand, .media] ⊆ P) (a) :
    (State.replayMaps s a).mask P = s.mask P := mask_mono h <| by
  simp +decide only [State.replayMaps, setMedia_mask, loadMaps_mask, noteMaps_mask, mask_ite, ite_self, mask_foldl,
      implies_true]
theorem rowLost_mask (h : [.out, .rdma, .bell, .media, .loft, .events, .eventSeq] ⊆ P) (a b) :
    (State.rowLost s a b).mask P = s.mask P := mask_mono h <| by
  unfold State.rowLost
  dsimp only
  repeat' split
  all_goals simp +decide only [loseUnits_mask, event_mask, mask_ite, ite_self, mask_foldl, implies_true]
theorem restoreRow_mask (h : [.out, .rdma, .bell, .media, .loft, .events, .eventSeq] ⊆ P) (a b c d e) :
    (State.restoreRow s a b c d e).mask P = s.mask P := mask_mono h <| by
  simp +decide only [State.restoreRow, rowLost_mask, setMedia_mask, mask_ite, ite_self, mask_foldl, implies_true]
theorem putUnit_mask (h : [.units, .media] ⊆ P) (a b c) :
    (State.putUnit s a b c).mask P = s.mask P := mask_mono h <| by
  unfold State.putUnit
  repeat' split
  all_goals simp +decide only [setMedia_mask, mask_units, mask_ite, ite_self, mask_foldl, implies_true]
theorem loseDram_mask (h : [.units, .media] ⊆ P)  :
    (State.loseDram s).mask P = s.mask P := mask_mono h <| by
  simp +decide only [State.loseDram, setMedia_mask, mask_units, mask_ite, ite_self, mask_foldl, implies_true]
theorem restoreItem_mask (h : [.ledger, .units, .media, .sieve] ⊆ P) (a) :
    (State.restoreItem s a).mask P = s.mask P := mask_mono h <| by
  unfold State.restoreItem
  repeat' split
  all_goals simp +decide only [setMedia_mask, putUnit_mask, mask_ledger_sieve, mask_ite, ite_self, mask_foldl, implies_true]
theorem restoreCkpt_mask (h : [.out, .rdma, .bell, .rand, .media, .staged, .dram, .loft, .health, .events, .eventSeq, .pwr] ⊆
    P)  :
    (State.restoreCkpt s).mask P = s.mask P := mask_mono h <| by
  simp +decide only [State.restoreCkpt, setMedia_mask, programDone_mask, ckptBegin_mask, ckptComplete_mask, mask_ite,
      ite_self, mask_foldl, implies_true]
theorem restoreDump_mask (h : [.out, .rdma, .ledger, .bell, .boot, .zones, .units, .rand, .media, .staged, .sieve, .dram,
    .loft, .health, .events, .eventSeq, .pwr] ⊆ P) (a b) :
    (State.restoreDump s a b).mask P = s.mask P := mask_mono h <| by
  simp +decide only [State.restoreDump, restoreRow_mask, replayMaps_mask, restoreItem_mask, restoreCkpt_mask,
      mask_boot_staged, mask_ite, ite_self, mask_foldl, implies_true]
theorem rewind_mask (h : [.out, .rdma, .bell, .media, .staged, .dram, .loft, .events, .eventSeq] ⊆ P) (n fill) :
    (s.rewind n fill).mask P = s.mask P := mask_mono h <| by
  refine mask_foldl (fun x i => ?_) _ s
  dsimp only
  split
  · rfl
  · split
    · next hd => exact (setMedia_mask (by decide) _).trans (drawFour_mask (by decide) hd)
    · exact noSource_mask (by decide) ..
theorem reparity_mask (h : [.out, .rdma, .bell, .media, .staged, .loft, .events, .eventSeq] ⊆ P) (a b) :
    (State.reparity s a b).mask P = s.mask P := mask_mono h <| by
  simp +decide only [State.reparity, restoreRow_mask, queueParity_mask, mask_ite, ite_self, mask_foldl, implies_true]
theorem refit_mask (h : [.out, .rdma, .bell, .media, .staged, .dram, .loft, .events, .eventSeq] ⊆ P) (a b) :
    (State.refit s a b).mask P = s.mask P := mask_mono h <| by
  simp +decide only [State.refit, restoreRow_mask, rewind_mask, reparity_mask, mask_ite, ite_self, mask_foldl, implies_true]
theorem refitZone_mask (h : [.out, .rdma, .bell, .zones, .units, .media, .staged, .dram, .loft, .events, .eventSeq] ⊆ P) (k) :
    (s.refitZone k).mask P = s.mask P := mask_mono h <| by
  unfold State.refitZone
  dsimp only
  split
  · rfl
  · split
    · exact (reparity_mask (by decide) ..).trans (mask_foldl (fun x pu => rowLost_mask (by decide) ..) _ s)
    · simp +decide only [refit_mask, mask_units, setZone_mask]
theorem refitRand_mask (h : [.out, .rdma, .bell, .rand, .media, .staged, .dram, .loft, .events, .eventSeq] ⊆ P) (a b) :
    (State.refitRand s a b).mask P = s.mask P := mask_mono h <| by
  simp +decide only [State.refitRand, setMedia_mask, refit_mask, mask_rand, mask_ite, ite_self, mask_foldl, implies_true]
theorem fromCheckpoint_mask (h : [.out, .rdma, .ledger, .bell, .zones, .units, .rand, .media, .staged, .sieve, .dram, .loft,
    .events, .eventSeq] ⊆ P)  :
    (State.fromCheckpoint s).mask P = s.mask P := mask_mono h <| by
  simp +decide only [State.fromCheckpoint, setGroup_mask, setMedia_mask, refitRand_mask, queueErase_mask, refitZone_mask,
      nameSpare_mask, loadMaps_mask, noteMaps_mask, mask_ledger_units_sieve, mask_ite, ite_self, mask_foldl, implies_true]
theorem restore_mask (h : [.out, .rdma, .ledger, .bell, .boot, .zones, .units, .rand, .media, .staged, .sieve, .dram, .loft,
    .health, .events, .eventSeq, .pwr] ⊆ P) (a) :
    (State.restore s a).mask P = s.mask P := mask_mono h <| by
  unfold State.restore
  dsimp only
  repeat' split
  all_goals simp +decide only [releaseDumps_mask, fromCheckpoint_mask, restoreDump_mask, event_mask, mask_pwr, mask_staged,
      mask_ite, ite_self, mask_foldl, implies_true]
theorem settleDie_mask (h : [.out, .rdma, .bell, .rand, .media, .staged, .dram, .loft, .health, .events, .eventSeq, .pwr] ⊆
    P) (a) :
    (State.settleDie s a).mask P = s.mask P := mask_mono h <| by
  unfold State.settleDie
  repeat' split
  all_goals simp +decide only [setMedia_mask, setDie_mask, programDone_mask, mask_ite, ite_self, mask_foldl, implies_true]
theorem settleDies_mask (h : [.out, .rdma, .bell, .rand, .media, .staged, .dram, .loft, .health, .events, .eventSeq, .pwr] ⊆
    P)  :
    (State.settleDies s).mask P = s.mask P := mask_mono h <| by
  simp +decide only [State.settleDies, settleDie_mask, mask_ite, ite_self, mask_foldl, implies_true]
theorem dropJobs_mask (h : [.ledger, .bell, .fns, .zones, .units, .media, .staged, .jobs, .cores, .hamlets, .disp, .dram,
    .health] ⊆ P)  :
    (State.dropJobs s).mask P = s.mask P := mask_mono h <| by
  simp +decide only [State.dropJobs, removeJob_mask, mask_ite, ite_self, mask_foldl, implies_true]
theorem stopBells_mask (h : [.bell, .clk, .pwr] ⊆ P)  :
    (State.stopBells s).mask P = s.mask P := mask_mono h <| by
  simp +decide only [State.stopBells, mask_bell_clk_pwr, mask_ite, ite_self, mask_foldl, implies_true]
theorem appendRest_mask (h : [.out, .rdma, .ledger, .bell, .fns, .sqs, .cqs, .aborts, .zones, .units, .media, .staged, .jobs,
    .cores, .hamlets, .disp, .dram, .health] ⊆ P) (j) :
    (s.appendRest j).mask P = s.mask P := mask_mono h <| by
  unfold State.appendRest
  split
  · next e => exact mask_mono (by decide) (execOutputAppend_leaves j _ e)
  · rfl
theorem stopJob_mask (h : [.out, .rdma, .ledger, .bell, .fns, .sqs, .cqs, .aborts, .zones, .units, .media, .staged, .jobs,
    .cores, .hamlets, .disp, .dram, .health] ⊆ P) (a) :
    (State.stopJob s a).mask P = s.mask P := mask_mono h <| by
  unfold State.stopJob
  repeat' split
  all_goals simp +decide only [appendRest_mask, setJob_mask, removeJob_mask, stopItems_mask, deliver_mask, endJob_mask,
      mask_ite, ite_self, mask_foldl, implies_true]
theorem resetCmd_mask (h : [.out, .rdma, .bell, .sqs, .cqs, .aborts, .zones, .media] ⊆ P) (a) :
    (State.resetCmd s a).mask P = s.mask P := mask_mono h <| by
  unfold State.resetCmd
  repeat' split
  all_goals simp +decide only [dropWork_mask, complete_mask, mask_ite, ite_self, mask_foldl, implies_true]
theorem resetBegins_mask (h : [.free, .out, .rdma, .ledger, .bell, .fns, .sqs, .cqs, .due, .aborts, .zones, .units, .rand,
    .media, .staged, .jobs, .cores, .hamlets, .disp, .dram, .loft, .health, .events, .eventSeq, .clk, .pwr] ⊆ P)  :
    (State.resetBegins s).mask P = s.mask P := mask_mono h <| by
  simp +decide only [State.resetBegins, dropJobs_mask, stopJob_mask, complete_mask, resetCmd_mask, postDue_mask,
      settleDies_mask, abortErases_mask, stopBells_mask, mask_ite, ite_self, mask_foldl, implies_true]
theorem bootRings_mask (h : [.rdma, .fns, .sqs, .cqs, .due, .aborts] ⊆ P)  :
    (State.bootRings s).mask P = s.mask P := mask_mono h <| by
  simp +decide only [State.bootRings, resetRings_mask, mask_cqs, mask_rdma_sqs_due_aborts, mask_ite, ite_self, mask_foldl,
      implies_true]
theorem dropMoves_mask (h : [.media] ⊆ P)  :
    (State.dropMoves s).mask P = s.mask P := mask_mono h <| by
  simp +decide only [State.dropMoves, setMedia_mask, mask_ite, ite_self, mask_foldl, implies_true]
theorem bootRebuilds_mask (h : [.media] ⊆ P)  :
    (State.bootRebuilds s).mask P = s.mask P := mask_mono h <| by
  simp +decide only [State.bootRebuilds, setGroup_mask, setMedia_mask, setMem_mask, mask_ite, ite_self, mask_foldl,
      implies_true]
theorem bootMedia_mask (h : [.media] ⊆ P) (a) :
    (State.bootMedia s a).mask P = s.mask P := mask_mono h <| by
  simp +decide only [State.bootMedia, setMedia_mask, bootRebuilds_mask, dropMoves_mask, mask_ite, ite_self, mask_foldl,
      implies_true]
theorem bootCores_mask (h : [.out, .rdma, .bell, .cores, .hamlets, .disp, .loft, .events, .eventSeq] ⊆ P)  :
    (s.bootCores).mask P = s.mask P := mask_mono h <| by
  exact (mask_cores_hamlets_disp (by decide) ..).trans (substitute_mask (by decide))
theorem bootDram_mask (h : [.dram] ⊆ P) (a) :
    (State.bootDram s a).mask P = s.mask P := mask_mono h <| by
  simp +decide only [State.bootDram, mask_dram, mask_ite, ite_self, mask_foldl, implies_true]
theorem endMigrations_mask (h : [.out, .rdma, .bell, .dram, .loft, .events, .eventSeq] ⊆ P)  :
    (s.endMigrations).mask P = s.mask P := mask_mono h <| by
  refine mask_foldl (fun x n => ?_) _ s
  split
  · simp +decide only [mask_ite, moveRank_mask, ite_self]
  · simp +decide only [mask_ite, moveRank_mask, ite_self]
  · rfl
theorem bootEvents_mask (h : [.events, .eventSeq] ⊆ P) (a) :
    (State.bootEvents s a).mask P = s.mask P := mask_mono h <| by
  simp +decide only [State.bootEvents, mask_events_eventSeq, mask_ite, ite_self, mask_foldl, implies_true]
theorem clearBoot_mask (h : [.free, .out, .rdma, .ledger, .bell, .err, .boot, .portA, .portB, .net, .fns, .sqs, .cqs, .sems,
    .due, .aborts, .holds, .zones, .media, .cores, .hamlets, .disp, .sieve, .dram, .edc, .loft, .health, .events, .eventSeq,
    .pwr, .life, .tap, .smbOff, .act] ⊆ P) (cold) :
    (s.clearBoot cold).mask P = s.mask P := mask_mono h <| by
  unfold State.clearBoot
  refine (sampleTelem_mask (by decide)).trans ((stamp_mask (by decide)).trans ?_)
  refine .trans (b := ((((s.bootCores.bootRings).bootMedia cold).bootDram cold).bootEvents cold).mask _) (mask_mono (Q :=
      [.free, .bell, .err, .boot, .portA, .portB, .net, .fns, .sems, .holds, .zones, .sieve, .edc, .loft, .health, .pwr,
      .life, .tap, .smbOff, .act, .ledger]) (by decide) rfl) ?_
  exact (bootEvents_mask (by decide) _).trans ((bootDram_mask (by decide) _).trans ((bootMedia_mask (by decide) _).trans
    ((bootRings_mask (by decide)).trans (bootCores_mask (by decide)))))
theorem rankUntrained_mask (h : [.free, .out, .rdma, .ledger, .bell, .fns, .sqs, .cqs, .aborts, .zones, .units, .media,
    .staged, .jobs, .cores, .hamlets, .disp, .dram, .loft, .health, .events, .eventSeq] ⊆ P) (a) :
    (State.rankUntrained s a).mask P = s.mask P := mask_mono h <| by
  unfold State.rankUntrained
  repeat' split
  all_goals simp +decide only [moveRank_mask, rankFails_mask, loseRanks_mask, setRank_mask, mask_ite, ite_self, mask_foldl,
      implies_true]
theorem dropRanks_mask (h : [.free, .out, .rdma, .ledger, .bell, .fns, .sqs, .cqs, .aborts, .zones, .units, .media, .staged,
    .jobs, .cores, .hamlets, .disp, .dram, .loft, .health, .events, .eventSeq] ⊆ P) (a) :
    (State.dropRanks s a).mask P = s.mask P := mask_mono h <| by
  simp +decide only [State.dropRanks, rankUntrained_mask, setDram_mask, mask_ite, ite_self, mask_foldl, implies_true]
theorem trainRanks_mask (h : [.free, .out, .rdma, .ledger, .bell, .fns, .sqs, .cqs, .aborts, .zones, .units, .media, .staged,
    .jobs, .cores, .hamlets, .disp, .dram, .loft, .health, .events, .eventSeq] ⊆ P) (a b) :
    (State.trainRanks s a b).mask P = s.mask P := mask_mono h <| by
  simp +decide only [State.trainRanks, moveRank_mask, endMigrations_mask, setRank_mask, dropRanks_mask, mask_ite, ite_self,
      mask_foldl, implies_true]
theorem trainChan_mask (h : [.out, .rdma, .bell, .media, .staged, .dram, .loft, .events, .eventSeq] ⊆ P) (n eye) :
    ∀ (k) (s : State) (ts), (s.trainChan n eye k ts).mask P = s.mask P
  | 0, _, _ => rfl
  | k + 1, s, ts => by
    unfold State.trainChan
    dsimp only
    split
    · exact trained_mask (List.Subset.trans (by decide) h) ..
    · exact (trainChan_mask h n eye k _ _).trans (attemptFailed_mask (List.Subset.trans (by decide) h) ..)
theorem trainChans_mask (h : [.out, .rdma, .bell, .media, .staged, .dram, .loft, .events, .eventSeq] ⊆ P) (a b) :
    (State.trainChans s a b).mask P = s.mask P := mask_mono h <| by
  simp +decide only [State.trainChans, setChan_mask, trainChan_mask, mask_ite, ite_self, mask_foldl, implies_true]
theorem offTimeCheck_mask (h : [.out, .rdma, .bell, .media, .loft, .events, .eventSeq, .pwr] ⊆ P)  :
    (State.offTimeCheck s).mask P = s.mask P := mask_mono h <| by
  simp +decide only [State.offTimeCheck, setMedia_mask, event_mask, mask_pwr, mask_ite, ite_self, mask_foldl, implies_true]
theorem returnBoot_mask (h : [.free, .out, .rdma, .ledger, .bell, .net, .fns, .sqs, .cqs, .sems, .due, .aborts, .holds,
    .cursors, .zones, .units, .rand, .media, .staged, .sieve, .dram, .loft, .events, .eventSeq] ⊆ P)  :
    (State.returnBoot s).mask P = s.mask P := mask_mono h <| by
  simp +decide only [State.returnBoot, removeFn_mask, zeroKeys_mask, dropHolding_mask, mask_sieve, mask_ite, ite_self,
      mask_foldl, implies_true]
theorem journalLife_mask (h : [.loft] ⊆ P)  :
    (State.journalLife s).mask P = s.mask P := mask_mono h <| by
  simp +decide only [State.journalLife, loftRecord_mask, mask_ite, ite_self, mask_foldl, implies_true]
theorem halt_mask (h : [.boot, .loft, .pwr] ⊆ P) (n) :
    (s.halt n).mask P = s.mask P := mask_mono h <| by
  unfold State.halt
  dsimp only
  split
  · exact (mask_pwr (by decide) _).trans (mask_boot (by decide) _)
  · refine (loftRecord_mask (by decide) ..).trans ((mask_boot (by decide) _).trans ?_)
    split
    · split
      · exact (flushLoft_mask (by decide)).trans ((mask_loft (by decide) _).trans (mask_boot (by decide) _))
      · exact mask_boot (by decide) _
    · exact mask_boot (by decide) _
theorem enter_mask (h : [.bell, .boot] ⊆ P) (a b) :
    (State.enter s a b).mask P = s.mask P := mask_mono h <| by
  simp +decide only [State.enter, comeTo_mask, mask_boot, mask_ite, ite_self, mask_foldl, implies_true]
theorem careGoesOn_mask (h : [.media] ⊆ P)  :
    (State.careGoesOn s).mask P = s.mask P := mask_mono h <| by
  simp +decide only [State.careGoesOn, replanParks_mask, copyLine_mask, mask_ite, ite_self, mask_foldl, implies_true]
theorem tempEvent_mask (h : [.out, .rdma, .bell, .loft, .health, .events, .eventSeq] ⊆ P) (a b) :
    (State.tempEvent s a b).mask P = s.mask P := mask_mono h <| by
  simp +decide only [State.tempEvent, event_mask, mask_health, mask_ite, ite_self, mask_foldl, implies_true]
theorem reachReady_mask (h : [.out, .rdma, .bell, .boot, .media, .loft, .health, .events, .eventSeq, .pwr] ⊆ P) (a) :
    (State.reachReady s a).mask P = s.mask P := mask_mono h <| by
  simp +decide only [State.reachReady, notify_mask, careGoesOn_mask, sampleTelem_mask, tempEvent_mask, comeTo_mask,
      event_mask, mask_boot, mask_pwr, mask_health, mask_bell, mask_ite, ite_self, mask_foldl, implies_true]
theorem bootTo_mask (h : [.free, .out, .rdma, .ledger, .bell, .boot, .fns, .sqs, .cqs, .aborts, .zones, .units, .media,
    .staged, .jobs, .cores, .hamlets, .disp, .dram, .loft, .health, .events, .eventSeq, .ctlCores, .ctlSpares] ⊆ P) (a b) :
    (State.bootTo s a b).mask P = s.mask P := mask_mono h <| by
  simp +decide only [State.bootTo, remirrorPair_mask, enter_mask, flushLoft_mask, dropRanks_mask, trainRanks_mask,
      trainChans_mask, mask_boot_loft, mask_loft_ctlCores_ctlSpares, mask_ite, ite_self, mask_foldl, implies_true]
theorem inletAtBoot_mask (h : [.out, .rdma, .bell, .loft, .health, .events, .eventSeq] ⊆ P) (a) :
    (State.inletAtBoot s a).mask P = s.mask P := mask_mono h <| by
  simp +decide only [State.inletAtBoot, tempEvent_mask, mask_health, mask_ite, ite_self, mask_foldl, implies_true]
theorem runBoot_mask (h : [.free, .out, .rdma, .ledger, .bell, .boot, .portA, .portB, .net, .fns, .sqs, .cqs, .sems, .due,
    .aborts, .holds, .cursors, .zones, .units, .rand, .media, .staged, .jobs, .cores, .hamlets, .disp, .sieve, .dram, .loft,
    .health, .events, .eventSeq, .pwr, .ctlCores, .ctlSpares] ⊆ P) (a) :
    (State.runBoot s a).mask P = s.mask P := mask_mono h <| by
  unfold State.runBoot
  dsimp only
  repeat' split
  all_goals simp +decide only [returnBoot_mask, halt_mask, loftRecord_mask, restore_mask, inletAtBoot_mask, tryTrain_mask,
      retireRow_mask, enter_mask, journalLife_mask, reachReady_mask, judgeOptic_mask, offTimeCheck_mask, bootTo_mask,
      mask_bell_boot, mask_boot, mask_ite, ite_self, mask_foldl, implies_true]
theorem bootCold_mask (h : [.free, .out, .rdma, .ledger, .bell, .err, .boot, .portA, .portB, .net, .fns, .sqs, .cqs, .sems,
    .due, .aborts, .holds, .cursors, .zones, .units, .rand, .media, .staged, .jobs, .cores, .hamlets, .disp, .sieve, .dram,
    .edc, .loft, .health, .events, .eventSeq, .clk, .pwr, .life, .tap, .smbOff, .act, .ctlCores, .ctlSpares] ⊆ P) (a) :
    (State.bootCold s a).mask P = s.mask P := mask_mono h <| by
  simp +decide only [State.bootCold, clearBoot_mask, runBoot_mask, mask_clk, mask_boot, mask_ite, ite_self, mask_foldl,
      implies_true]
theorem moduleReset_mask (h : [.free, .out, .rdma, .ledger, .bell, .err, .boot, .portA, .portB, .net, .fns, .sqs, .cqs,
    .sems, .due, .aborts, .holds, .cursors, .zones, .units, .rand, .media, .staged, .jobs, .cores, .hamlets, .disp, .sieve,
    .dram, .edc, .loft, .health, .events, .eventSeq, .clk, .pwr, .life, .tap, .smbOff, .act, .ctlCores, .ctlSpares] ⊆ P) (a) :
    (State.moduleReset s a).mask P = s.mask P := mask_mono h <| by
  simp +decide only [State.moduleReset, clearBoot_mask, runBoot_mask, resetBegins_mask, mask_clk, mask_boot, mask_ite,
      ite_self, mask_foldl, implies_true]
theorem execPowerGood_leaves (a) :
    Leaves [.free, .out, .rdma, .ledger, .bell, .err, .boot, .portA, .portB, .net, .fns, .sqs, .cqs, .sems, .due, .aborts,
        .holds, .cursors, .zones, .units, .rand, .media, .staged, .jobs, .cores, .hamlets, .disp, .sieve, .dram, .edc, .loft,
        .health, .events, .eventSeq, .clk, .pwr, .life, .tap, .smbOff, .act, .ctlCores, .ctlSpares] s (execPowerGood a s) := by
  simp +decide only [execPowerGood, bootCold_mask, go, leaves_next, leaves_fault, leaves_ite, mask_ite, ite_self, mask_foldl,
      implies_true]
theorem execResetAssert_leaves (a b) :
    Leaves [.free, .out, .rdma, .ledger, .bell, .err, .boot, .portA, .portB, .net, .fns, .sqs, .cqs, .sems, .due, .aborts,
        .holds, .cursors, .zones, .units, .rand, .media, .staged, .jobs, .cores, .hamlets, .disp, .sieve, .dram, .edc, .loft,
        .health, .events, .eventSeq, .clk, .pwr, .life, .tap, .smbOff, .act, .ctlCores, .ctlSpares] s (execResetAssert a b s)
        := by
  simp +decide only [execResetAssert, moduleReset_mask, mask_pwr, go, leaves_next, leaves_fault, leaves_ite, mask_ite,
      ite_self, mask_foldl, implies_true]
theorem execResetRelease_leaves (a) :
    Leaves [.free, .out, .rdma, .ledger, .bell, .boot, .portA, .portB, .net, .fns, .sqs, .cqs, .sems, .due, .aborts, .holds,
        .cursors, .zones, .units, .rand, .media, .staged, .jobs, .cores, .hamlets, .disp, .sieve, .dram, .loft, .health,
        .events, .eventSeq, .pwr, .ctlCores, .ctlSpares] s (execResetRelease a s) := by
  simp +decide only [execResetRelease, runBoot_mask, mask_pwr, go, leaves_next, leaves_fault, leaves_ite, mask_ite, ite_self,
      mask_foldl, implies_true]
theorem doGetLog_mask (h : [.out, .rdma, .sqs, .cqs, .aborts, .zones] ⊆ P) (a b) :
    (State.doGetLog s a b).mask P = s.mask P := mask_mono h <| by
  simp +decide only [State.doGetLog, complete_mask, sendOut_mask, begin__mask, mask_ite, ite_self, mask_foldl, implies_true]
theorem execGetLog_leaves (a) :
    Leaves [.out, .rdma, .fns, .sqs, .cqs, .aborts, .zones] s (execGetLog a s) := by
  simp +decide only [execGetLog, start_leaves, doGetLog_mask, go, leaves_next, leaves_fault, leaves_ite, mask_ite, ite_self,
      mask_foldl, implies_true]
theorem doTolerance_mask (h : [.out, .rdma, .ledger, .fns, .sqs, .cqs, .aborts, .zones, .pwr] ⊆ P) (a b) :
    (State.doTolerance s a b).mask P = s.mask P := mask_mono h <| by
  simp +decide only [State.doTolerance, govern_mask, ended_mask, setFn_mask, mask_pwr, mask_ite, ite_self, mask_foldl,
      implies_true]
theorem execSetLatencyTolerance_leaves (a) :
    Leaves [.out, .rdma, .ledger, .fns, .sqs, .cqs, .aborts, .zones, .pwr] s (execSetLatencyTolerance a s) := by
  simp +decide only [execSetLatencyTolerance, doTolerance_mask, start_leaves, go, leaves_next, leaves_fault, leaves_ite,
      mask_ite, ite_self, mask_foldl, implies_true]
theorem doCalendar_mask (h : [.out, .rdma, .ledger, .bell, .sqs, .cqs, .aborts, .zones, .loft, .events, .eventSeq, .clk] ⊆ P)
    (a b) :
    (State.doCalendar s a b).mask P = s.mask P := mask_mono h <| by
  simp +decide only [State.doCalendar, govern_mask, setClock_mask, ended_mask, mask_clk, mask_ite, ite_self, mask_foldl,
      implies_true]
theorem execSetCalendar_leaves (a) :
    Leaves [.out, .rdma, .ledger, .bell, .fns, .sqs, .cqs, .aborts, .zones, .loft, .events, .eventSeq, .clk] s
        (execSetCalendar a s) := by
  simp +decide only [execSetCalendar, start_leaves, doCalendar_mask, go, leaves_next, leaves_fault, leaves_ite, mask_ite,
      ite_self, mask_foldl, implies_true]
theorem doDownload_mask (h : [.out, .rdma, .sqs, .cqs, .aborts, .zones] ⊆ P) (a) :
    (State.doDownload s a).mask P = s.mask P := mask_mono h <| by
  simp +decide only [State.doDownload, issue_mask, begin__mask, fail_mask, mask_ite, ite_self, mask_foldl, implies_true]
theorem execFirmwareDownload_leaves (a) :
    Leaves [.out, .rdma, .fns, .sqs, .cqs, .aborts, .zones] s (execFirmwareDownload a s) := by
  simp +decide only [execFirmwareDownload, start_leaves, doDownload_mask, go, leaves_next, leaves_fault, leaves_ite,
      mask_ite, ite_self, mask_foldl, implies_true]
theorem commitDownload_mask (h : [.free, .out, .rdma, .ledger, .bell, .sqs, .cqs, .aborts, .zones, .loft, .events, .eventSeq,
    .life] ⊆ P) (r c) :
    (s.commitDownload r c).mask P = s.mask P := mask_mono h <| by
  unfold State.commitDownload
  split
  · rfl
  · dsimp only
    split <;> simp +decide only [succeed_mask, fail_mask, rejudge_mask, downloadAll_mask]
theorem firmwareEvent_mask (h : [.out, .rdma, .bell, .loft, .events, .eventSeq] ⊆ P) (a b) :
    (State.firmwareEvent s a b).mask P = s.mask P := mask_mono h <| by
  simp +decide only [State.firmwareEvent, event_mask, mask_ite, ite_self, mask_foldl, implies_true]
theorem doActivate_mask (h : [.out, .rdma, .bell, .sqs, .cqs, .aborts, .zones, .loft, .events, .eventSeq, .act] ⊆ P) (a) :
    (State.doActivate s a).mask P = s.mask P := mask_mono h <| by
  simp +decide only [State.doActivate, firmwareEvent_mask, select_mask, begin__mask, fail_mask, mask_act, mask_ite, ite_self,
      mask_foldl, implies_true]
theorem execFirmwareActivate_leaves (a) :
    Leaves [.out, .rdma, .bell, .fns, .sqs, .cqs, .aborts, .zones, .loft, .events, .eventSeq, .act] s (execFirmwareActivate a
        s) := by
  simp +decide only [execFirmwareActivate, start_leaves, doActivate_mask, go, leaves_next, leaves_fault, leaves_ite,
      mask_ite, ite_self, mask_foldl, implies_true]
theorem closeActivation_mask (h : [.out, .rdma, .ledger, .bell, .boot, .sqs, .cqs, .aborts, .zones, .loft, .events,
    .eventSeq, .life, .act] ⊆ P) (a) :
    (State.closeActivation s a).mask P = s.mask P := mask_mono h <| by
  simp +decide only [State.closeActivation, firmwareEvent_mask, succeed_mask, mask_boot_loft_life_act, mask_ite, ite_self,
      mask_foldl, implies_true]
theorem failActivation_mask (h : [.out, .rdma, .sqs, .cqs, .aborts, .zones, .loft, .act] ⊆ P) (a) :
    (State.failActivation s a).mask P = s.mask P := mask_mono h <| by
  simp +decide only [State.failActivation, loftRecord_mask, select_mask, fail_mask, mask_act, mask_ite, ite_self, mask_foldl,
      implies_true]
theorem execActivationHandover_leaves (a) :
    Leaves [.out, .rdma, .ledger, .bell, .boot, .sqs, .cqs, .aborts, .zones, .loft, .events, .eventSeq, .life, .act] s
        (execActivationHandover a s) := by
  unfold execActivationHandover
  repeat' split
  all_goals simp +decide only [closeActivation_mask, failActivation_mask, mask_act, go, leaves_next, leaves_fault,
      leaves_ite, mask_ite, ite_self, mask_foldl, implies_true]
theorem execModuleReset_leaves (a b) :
    Leaves [.free, .out, .rdma, .ledger, .bell, .err, .boot, .portA, .portB, .net, .fns, .sqs, .cqs, .sems, .due, .aborts,
        .holds, .cursors, .zones, .units, .rand, .media, .staged, .jobs, .cores, .hamlets, .disp, .sieve, .dram, .edc, .loft,
        .health, .events, .eventSeq, .clk, .pwr, .life, .tap, .smbOff, .act, .ctlCores, .ctlSpares] s (execModuleReset a b s)
        := by
  unfold execModuleReset
  repeat' split
  all_goals simp +decide only [moduleReset_mask, govern_mask, ended_mask, go, leaves_next, leaves_fault, leaves_ite,
      mask_ite, ite_self, mask_foldl, implies_true]
theorem commitLife_mask (h : [.out, .rdma, .ledger, .sqs, .cqs, .aborts, .zones, .loft, .life] ⊆ P) (r l) :
    (s.commitLife r l).mask P = s.mask P := mask_mono h <| by
  exact (complete_mask (by decide) ..).trans ((loftRecord_mask (by decide) ..).trans ((mask_life (by decide) _).trans
    (mask_ledger (by decide) _)))
theorem scrapped_mask (h : [.free, .rdma, .boot, .portA, .portB, .loft, .pwr] ⊆ P)  :
    (State.scrapped s).mask P = s.mask P := mask_mono h <| by
  simp +decide only [State.scrapped, zeroKeys_mask, mask_rdma_boot_portA_portB_pwr, mask_ite, ite_self, mask_foldl,
      implies_true]
theorem transition_mask (h : [.free, .out, .rdma, .ledger, .bell, .err, .boot, .portA, .portB, .net, .fns, .sqs, .cqs, .sems,
    .due, .aborts, .holds, .cursors, .zones, .units, .rand, .media, .staged, .jobs, .cores, .hamlets, .disp, .sieve, .dram,
    .edc, .loft, .health, .events, .eventSeq, .clk, .pwr, .life, .tap, .smbOff, .act, .ctlCores, .ctlSpares] ⊆ P) (a b c) :
    (State.transition s a b c).mask P = s.mask P := mask_mono h <| by
  unfold State.transition
  repeat' split
  all_goals simp +decide only [moduleReset_mask, atPoint_mask, scrapped_mask, commitLife_mask, mask_life, mask_ite, ite_self,
      mask_foldl, implies_true]
theorem tryTransition_mask (h : [.free, .out, .rdma, .ledger, .bell, .err, .boot, .portA, .portB, .net, .fns, .sqs, .cqs,
    .sems, .due, .aborts, .holds, .cursors, .zones, .units, .rand, .media, .staged, .jobs, .cores, .hamlets, .disp, .sieve,
    .dram, .edc, .loft, .health, .events, .eventSeq, .clk, .pwr, .life, .tap, .smbOff, .act, .ctlCores, .ctlSpares] ⊆ P) (a b
    c) :
    (State.tryTransition s a b c).mask P = s.mask P := mask_mono h <| by
  simp +decide only [State.tryTransition, complete_mask, transition_mask, mask_ite, ite_self, mask_foldl, implies_true]
theorem execLifeCycleTransition_leaves (a b) :
    Leaves [.free, .out, .rdma, .ledger, .bell, .err, .boot, .portA, .portB, .net, .fns, .sqs, .cqs, .sems, .due, .aborts,
        .holds, .cursors, .zones, .units, .rand, .media, .staged, .jobs, .cores, .hamlets, .disp, .sieve, .dram, .edc, .loft,
        .health, .events, .eventSeq, .clk, .pwr, .life, .tap, .smbOff, .act, .ctlCores, .ctlSpares] s
        (execLifeCycleTransition a b s) := by
  unfold execLifeCycleTransition
  repeat' split
  all_goals simp +decide only [tryTransition_mask, settle_mask, begin__mask, go, leaves_next, leaves_fault, leaves_ite,
      mask_ite, ite_self, mask_foldl, implies_true]
theorem mediaErased_mask (h : [.out, .rdma, .bell, .cursors, .zones, .units, .rand, .media, .staged, .dram, .loft, .events,
    .eventSeq, .pwr] ⊆ P) (bad) :
    (s.mediaErased bad).mask P = s.mask P := mask_mono h <| by
  unfold State.mediaErased
  refine (setMedia_mask (by decide) ..).trans ((mask_foldl (fun x b => ?_) _ _).trans ?_)
  · exact (replaceBlock_mask (by decide) ..).trans (retireBlock_mask (by decide) ..)
  · exact (mask_cursors_zones_units_rand_staged (by decide) ..).trans ((releaseDumps_mask (by decide)).trans
      ((setMedia_mask (by decide) ..).trans (mask_foldl (fun x e => mask_foldl (fun y p => wearBlock_mask (by decide) ..) _
          x) _ s)))
theorem refurbished_mask (h : [.out, .rdma, .bell, .loft, .health, .events, .eventSeq] ⊆ P)  :
    (State.refurbished s).mask P = s.mask P := mask_mono h <| by
  simp +decide only [State.refurbished, event_mask, mask_loft_health, mask_ite, ite_self, mask_foldl, implies_true]
theorem execRefurbishEraseComplete_leaves (a b) :
    Leaves [.free, .out, .rdma, .ledger, .bell, .err, .boot, .portA, .portB, .net, .fns, .sqs, .cqs, .sems, .due, .aborts,
        .holds, .cursors, .zones, .units, .rand, .media, .staged, .jobs, .cores, .hamlets, .disp, .sieve, .dram, .edc, .loft,
        .health, .events, .eventSeq, .clk, .pwr, .life, .tap, .smbOff, .act, .ctlCores, .ctlSpares] s
        (execRefurbishEraseComplete a b s) := by
  unfold execRefurbishEraseComplete
  repeat' split
  all_goals simp +decide only [moduleReset_mask, atPoint_mask, refurbished_mask, mediaErased_mask, commitLife_mask, go,
      leaves_next, leaves_fault, leaves_ite, mask_ite, ite_self, mask_foldl, implies_true]
theorem takeIndex_mask (h : [.loft, .life] ⊆ P) : (s.takeIndex).2.mask P = s.mask P := mask_mono h <| by
  unfold State.takeIndex
  dsimp only
  split <;> simp +decide only [loftRecord_mask, mask_life]
theorem doAttest_mask (h : [.out, .rdma, .ledger, .sqs, .cqs, .aborts, .zones, .loft, .life] ⊆ P) (r c) :
    (s.doAttest r c).mask P = s.mask P := mask_mono h <| by
  unfold State.doAttest
  split
  · rfl
  · refine govern_mask (by decide) _ _ fun x => ?_
    simp +decide only [ended_mask, sendOut_mask, mask_life, takeIndex_mask]
theorem execAttest_leaves (a) :
    Leaves [.out, .rdma, .ledger, .fns, .sqs, .cqs, .aborts, .zones, .loft, .life] s (execAttest a s) := by
  simp +decide only [execAttest, start_leaves, doAttest_mask, go, leaves_next, leaves_fault, leaves_ite, mask_ite, ite_self,
      mask_foldl, implies_true]
theorem execCommandCommit_leaves (a) :
    Leaves [.free, .out, .rdma, .ledger, .bell, .fns, .sqs, .cqs, .aborts, .zones, .units, .rand, .media, .staged, .dram,
        .loft, .health, .events, .eventSeq, .life] s (execCommandCommit a s) := by
  unfold execCommandCommit
  repeat' split
  all_goals simp +decide only [commitDownload_mask, goOn_mask, commitRandom_mask, commitZone_mask, go, leaves_next,
      leaves_fault, leaves_ite, mask_ite, ite_self, mask_foldl, implies_true]
theorem startByOp_leaves (r op) : Leaves [.free, .out, .rdma, .ledger, .bell, .net, .fns, .sqs, .cqs, .sems, .due, .aborts,
    .holds, .cursors, .zones, .units, .rand, .media, .staged, .jobs, .cores, .hamlets, .disp, .sieve, .dram, .loft, .health,
    .events, .eventSeq, .clk, .pwr, .life, .act] s (s.startByOp r op) := by
  unfold State.startByOp
  split
  · exact (execRead_leaves r).mono (by decide)
  · exact (execWrite_leaves r).mono (by decide)
  · exact (execZoneAppend_leaves r).mono (by decide)
  · exact (execOpenZone_leaves r).mono (by decide)
  · exact (execCloseZone_leaves r).mono (by decide)
  · exact (execFinishZone_leaves r).mono (by decide)
  · exact (execResetZone_leaves r).mono (by decide)
  · exact (execReportZones_leaves r).mono (by decide)
  · exact (execRandomRead_leaves r).mono (by decide)
  · exact (execRandomWrite_leaves r).mono (by decide)
  · exact (execRandomTrim_leaves r).mono (by decide)
  · exact (execFlush_leaves r).mono (by decide)
  · exact (execAbort_leaves r).mono (by decide)
  · exact (execRestartRing_leaves r).mono (by decide)
  · exact (execScan_leaves r).mono (by decide)
  · exact (execRun_leaves r).mono (by decide)
  · exact (execSieveWrite_leaves r).mono (by decide)
  · exact (execSieveWritePair_leaves r).mono (by decide)
  · exact (execSieveLookup_leaves r).mono (by decide)
  · exact (execSieveStep_leaves r).mono (by decide)
  · exact (execSemAcquire_leaves r).mono (by decide)
  · exact (execSemRelease_leaves r).mono (by decide)
  · exact (execSemBreak_leaves r).mono (by decide)
  · exact (execSemRead_leaves r).mono (by decide)
  · exact (execGetLog_leaves r).mono (by decide)
  · exact (execCreateRing_leaves r).mono (by decide)
  · exact (execDeleteRing_leaves r).mono (by decide)
  · exact (execSetRingNotify_leaves r).mono (by decide)
  · exact (execSetLatencyTolerance_leaves r).mono (by decide)
  · exact (execAddFunction_leaves r).mono (by decide)
  · exact (execQuiesceFunction_leaves r).mono (by decide)
  · exact (execResumeFunction_leaves r).mono (by decide)
  · exact (execResetFunction_leaves r).mono (by decide)
  · exact (execRemoveFunction_leaves r).mono (by decide)
  · exact (execSetFunctionResources_leaves r).mono (by decide)
  · exact (execCreateHolding_leaves r).mono (by decide)
  · exact (execSetHolding_leaves r).mono (by decide)
  · exact (execAssignHolding_leaves r).mono (by decide)
  · exact (execDeleteHolding_leaves r).mono (by decide)
  · exact (execSetCalendar_leaves r).mono (by decide)
  · exact (execFirmwareDownload_leaves r).mono (by decide)
  · exact (execFirmwareActivate_leaves r).mono (by decide)
  · exact (execAttest_leaves r).mono (by decide)
  · exact leaves_next.mpr rfl
theorem execCommandDeferredStart_leaves (r) : Leaves [.free, .out, .rdma, .ledger, .bell, .net, .fns, .sqs, .cqs, .sems,
    .due, .aborts, .holds, .cursors, .zones, .units, .rand, .media, .staged, .jobs, .cores, .hamlets, .disp, .sieve, .dram,
    .loft, .health, .events, .eventSeq, .clk, .pwr, .life, .act] s (execCommandDeferredStart r s) := by
  unfold execCommandDeferredStart
  split
  · exact startByOp_leaves _ _
  · exact leaves_next.mpr rfl
theorem execControlCoreRetire_leaves (a b) :
    Leaves [.free, .out, .rdma, .ledger, .bell, .err, .boot, .portA, .portB, .net, .fns, .sqs, .cqs, .sems, .due, .aborts,
        .holds, .cursors, .zones, .units, .rand, .media, .staged, .jobs, .cores, .hamlets, .disp, .sieve, .dram, .edc, .loft,
        .health, .events, .eventSeq, .clk, .pwr, .life, .tap, .smbOff, .act, .ctlCores, .ctlSpares] s (execControlCoreRetire
        a b s) := by
  simp +decide only [execControlCoreRetire, moduleReset_mask, event_mask, mask_ctlSpares, mask_ctlCores, go, leaves_next,
      leaves_fault, leaves_ite, mask_ite, ite_self, mask_foldl, implies_true]
theorem execBellBoundary_leaves (a) :
    Leaves [.out, .rdma, .bell, .portA, .portB, .net, .fns, .sqs, .cqs, .due, .aborts, .holds, .zones, .media, .cores,
        .hamlets, .disp, .sieve, .dram, .loft, .health, .events, .eventSeq, .pwr] s (execBellBoundary a s) := by
  simp +decide only [execBellBoundary, fetchAll_mask, drains_mask, patrolStep_mask, ringsAtBoundary_mask, stamp_mask,
      startPlan_mask, flowControl_mask, mirrorDue_mask, adminAtBoundary_mask, postDue_mask, grantsAtBoundary_mask,
      watchInhibit_mask, portsAtBoundary_mask, watchIdle_mask, sampleTelem_mask, ckptFull_mask, plansAtBoundary_mask,
      meter_mask, openBell_mask, go, leaves_next, leaves_fault, leaves_ite, mask_ite, ite_self, mask_foldl, implies_true]
theorem execPlanClose_leaves (a b) :
    Leaves [.out, .rdma, .ledger, .bell, .fns, .sqs, .cqs, .aborts, .zones, .units, .media, .staged, .jobs, .cores, .hamlets,
        .disp, .sieve, .dram, .loft, .health, .events, .eventSeq] s (execPlanClose a b s) := by
  simp +decide only [execPlanClose, feedScan_mask, overrun_mask, makePlan_mask, blankCheck_mask, planDrains_mask, go,
      leaves_next, leaves_fault, leaves_ite, mask_ite, ite_self, mask_foldl, implies_true]
theorem parkOpen_mask (h : [.media] ⊆ P)  :
    (s.parkOpen).mask P = s.mask P := mask_mono h <| by
  refine (mask_foldl (fun x e => park_mask (by decide) ..) _ _).trans (mask_foldl (fun x e => ?_) _ s)
  split
  · exact park_mask (by decide) ..
  · rfl
theorem execIdleHoldExpiry_leaves  :
    Leaves [.media, .pwr] s (execIdleHoldExpiry s) := by
  simp +decide only [execIdleHoldExpiry, parkOpen_mask, entryStep_mask, setPwr_mask, go, leaves_next, leaves_fault,
      leaves_ite, mask_ite, ite_self, mask_foldl, implies_true]
theorem execQ3Entry_leaves  :
    Leaves [.pwr] s (execQ3Entry s) := by
  simp +decide only [execQ3Entry, setPwr_mask, go, leaves_next, leaves_fault, leaves_ite, mask_ite, ite_self, mask_foldl,
      implies_true]
theorem execWake_leaves (a) :
    Leaves [.pwr] s (execWake a s) := by
  simp +decide only [execWake, wakeUp_mask, go, leaves_next, leaves_fault, leaves_ite, mask_ite, ite_self, mask_foldl,
      implies_true]
theorem checkEyes_mask (h : [.out, .rdma, .bell, .media, .loft, .events, .eventSeq] ⊆ P) (eyes) :
    (s.checkEyes eyes).mask P = s.mask P := mask_mono h <| by
  refine mask_foldl (fun x n => ?_) _ s
  split
  · exact (setChan_mask (by decide) ..).trans (moveChan_mask (by decide) ..)
  · exact setChan_mask (by decide) ..
  · rfl
theorem execWakeComplete_leaves (a) :
    Leaves [.out, .rdma, .bell, .sqs, .cqs, .aborts, .zones, .media, .loft, .events, .eventSeq, .pwr] s (execWakeComplete a
        s) := by
  simp +decide only [execWakeComplete, checkEyes_mask, ended_mask, setPwr_mask, go, leaves_next, leaves_fault, leaves_ite,
      mask_ite, ite_self, mask_foldl, implies_true]
theorem execInternalWake_leaves (a) :
    Leaves [.pwr] s (execInternalWake a s) := by
  simp +decide only [execInternalWake, wakeUp_mask, go, leaves_next, leaves_fault, leaves_ite, mask_ite, ite_self,
      mask_foldl, implies_true]
theorem lowEnergy_mask (h : [.out, .rdma, .bell, .loft, .health, .events, .eventSeq] ⊆ P)  :
    (State.lowEnergy s).mask P = s.mask P := mask_mono h <| by
  simp +decide only [State.lowEnergy, event_mask, mask_health, mask_ite, ite_self, mask_foldl, implies_true]
theorem execCapacitanceMeasurement_leaves (a) :
    Leaves [.out, .rdma, .bell, .loft, .health, .events, .eventSeq, .pwr] s (execCapacitanceMeasurement a s) := by
  simp +decide only [execCapacitanceMeasurement, lowEnergy_mask, setPwr_mask, go, leaves_next, leaves_fault, leaves_ite,
      mask_ite, ite_self, mask_foldl, implies_true]
theorem execHeartbeat_leaves  :
    Leaves [.loft, .pwr] s (execHeartbeat s) := by
  simp +decide only [execHeartbeat, loftRecord_mask, setPwr_mask, go, leaves_next, leaves_fault, leaves_ite, mask_ite,
      ite_self, mask_foldl, implies_true]
theorem stopServing_mask (h : [.free, .out, .rdma, .ledger, .bell, .portA, .portB, .net, .fns, .sqs, .due, .aborts, .zones,
    .units, .media, .staged, .jobs, .cores, .hamlets, .disp, .dram, .loft, .health, .events, .eventSeq, .pwr, .life, .act] ⊆
    P)  :
    (State.stopServing s).mask P = s.mask P := mask_mono h <| by
  simp +decide only [State.stopServing, dropJobs_mask, dropReads_mask, abortErases_mask, movePort_mask,
      mask_rdma_bell_portA_portB_net_sqs_due_aborts_pwr_life_act, mask_ite, ite_self, mask_foldl, implies_true]
theorem shutdownRecord_mask (h : [.loft, .pwr] ⊆ P)  :
    (State.shutdownRecord s).mask P = s.mask P := mask_mono h <| by
  simp +decide only [State.shutdownRecord, flushLoft_mask, mask_loft_pwr, mask_ite, ite_self, mask_foldl, implies_true]
theorem powerOff_mask (h : [.free, .out, .rdma, .ledger, .bell, .boot, .portA, .portB, .net, .fns, .sqs, .due, .aborts,
    .zones, .units, .media, .staged, .jobs, .cores, .hamlets, .disp, .dram, .loft, .health, .events, .eventSeq, .clk, .pwr,
    .life, .act] ⊆ P)  :
    (State.powerOff s).mask P = s.mask P := mask_mono h <| by
  simp +decide only [State.powerOff, stopServing_mask, stopBells_mask, mask_boot_health_pwr, mask_ite, ite_self, mask_foldl,
      implies_true]
theorem beginLoss_mask (h : [.free, .out, .rdma, .ledger, .bell, .boot, .portA, .portB, .net, .fns, .sqs, .due, .aborts,
    .zones, .units, .media, .staged, .jobs, .cores, .hamlets, .disp, .dram, .loft, .health, .events, .eventSeq, .clk, .pwr,
    .life, .act] ⊆ P) (a b) :
    (State.beginLoss s a b).mask P = s.mask P := mask_mono h <| by
  simp +decide only [State.beginLoss, stopServing_mask, powerOff_mask, setPwr_mask, shutdownRecord_mask, mask_ite, ite_self,
      mask_foldl, implies_true]
theorem execInputFail_leaves  :
    Leaves [.free, .out, .rdma, .ledger, .bell, .boot, .portA, .portB, .net, .fns, .sqs, .due, .aborts, .zones, .units,
        .media, .staged, .jobs, .cores, .hamlets, .disp, .dram, .loft, .health, .events, .eventSeq, .clk, .pwr, .life, .act]
        s (execInputFail s) := by
  simp +decide only [execInputFail, beginLoss_mask, setPwr_mask, go, leaves_next, leaves_fault, leaves_ite, mask_ite,
      ite_self, mask_foldl, implies_true]
theorem stopErases_mask (h : [.out, .rdma, .bell, .rand, .media, .staged, .dram, .loft, .health, .events, .eventSeq, .pwr] ⊆
    P)  :
    (State.stopErases s).mask P = s.mask P := mask_mono h <| by
  simp +decide only [State.stopErases, settleDie_mask, mask_ite, ite_self, mask_foldl, implies_true]
theorem setDump_mask (h : [.pwr] ⊆ P) (a) :
    (State.setDump s a).mask P = s.mask P := mask_mono h <| by
  simp +decide only [State.setDump, setPwr_mask, mask_ite, ite_self, mask_foldl, implies_true]
theorem execDumpPlan_leaves  :
    Leaves [.out, .rdma, .bell, .rand, .media, .staged, .dram, .loft, .health, .events, .eventSeq, .pwr] s (execDumpPlan s)
        := by
  unfold execDumpPlan
  repeat' split
  all_goals simp +decide only [stopErases_mask, setPwr_mask, noteMaps_mask, go, leaves_next, leaves_fault, leaves_ite,
      mask_ite, ite_self, mask_foldl, implies_true]
theorem homePrograms_mask (h : [.out, .rdma, .bell, .rand, .media, .staged, .dram, .loft, .health, .events, .eventSeq, .pwr]
    ⊆ P)  :
    (State.homePrograms s).mask P = s.mask P := mask_mono h <| by
  simp +decide only [State.homePrograms, setMedia_mask, programDone_mask, setDump_mask, mask_ite, ite_self, mask_foldl,
      implies_true]
theorem endLoss_mask (h : [.free, .out, .rdma, .ledger, .bell, .boot, .portA, .portB, .net, .fns, .sqs, .due, .aborts,
    .zones, .units, .media, .staged, .jobs, .cores, .hamlets, .disp, .dram, .loft, .health, .events, .eventSeq, .clk, .pwr,
    .life, .act] ⊆ P) (a) :
    (State.endLoss s a).mask P = s.mask P := mask_mono h <| by
  simp +decide only [State.endLoss, powerOff_mask, setDump_mask, loseDram_mask, mask_ite, ite_self, mask_foldl, implies_true]
theorem execProgramSlotEnd_leaves : Leaves [.free, .out, .rdma, .ledger, .bell, .boot, .portA, .portB, .net, .fns, .sqs,
    .due, .aborts, .zones, .units, .rand, .media, .staged, .jobs, .cores, .hamlets, .disp, .dram, .loft, .health, .events,
    .eventSeq, .clk, .pwr, .life, .act] s (execProgramSlotEnd s) := by
  unfold execProgramSlotEnd
  split
  · split
    · exact leaves_next.mpr rfl
    · dsimp only
      have hslot : ∀ (x : State) busy l, x.mask [.free, .out, .rdma, .ledger, .bell, .boot, .portA, .portB, .net, .fns, .sqs,
          .due, .aborts, .zones, .units, .rand, .media, .staged, .jobs, .cores, .hamlets, .disp, .dram, .loft, .health,
          .events, .eventSeq, .clk, .pwr, .life, .act] = s.mask [.free, .out, .rdma, .ledger, .bell, .boot, .portA, .portB,
          .net, .fns, .sqs, .due, .aborts, .zones, .units, .rand, .media, .staged, .jobs, .cores, .hamlets, .disp, .dram,
          .loft, .health, .events, .eventSeq, .clk, .pwr, .life, .act] → (x.cellarSlot busy l).1.mask [.free, .out, .rdma,
          .ledger, .bell, .boot, .portA, .portB, .net, .fns, .sqs, .due, .aborts, .zones, .units, .rand, .media, .staged,
          .jobs, .cores, .hamlets, .disp, .dram, .loft, .health, .events, .eventSeq, .clk, .pwr, .life, .act] = s.mask
          [.free, .out, .rdma, .ledger, .bell, .boot, .portA, .portB, .net, .fns, .sqs, .due, .aborts, .zones, .units, .rand,
          .media, .staged, .jobs, .cores, .hamlets, .disp, .dram, .loft, .health, .events, .eventSeq, .clk, .pwr, .life,
          .act] :=
        fun x busy l hx => (cellarSlot_mask (by decide) busy l).trans hx
      have hdies := settleDies_mask (s := s) (P := [.free, .out, .rdma, .ledger, .bell, .boot, .portA, .portB, .net, .fns,
          .sqs, .due, .aborts, .zones, .units, .rand, .media, .staged, .jobs, .cores, .hamlets, .disp, .dram, .loft, .health,
          .events, .eventSeq, .clk, .pwr, .life, .act]) (by decide)
      have hhomes := homePrograms_mask (s := s) (P := [.free, .out, .rdma, .ledger, .bell, .boot, .portA, .portB, .net, .fns,
          .sqs, .due, .aborts, .zones, .units, .rand, .media, .staged, .jobs, .cores, .hamlets, .disp, .dram, .loft, .health,
          .events, .eventSeq, .clk, .pwr, .life, .act]) (by decide)
      exact leaves_of_ite
        (leaves_next.mpr ((endLoss_mask (by decide) _).trans (hslot _ _ _ (mask_of_ite hdies (mask_of_ite hhomes rfl)))))
        (leaves_next.mpr ((setPwr_mask (by decide) _).trans (hslot _ _ _ (mask_of_ite hdies (mask_of_ite hhomes rfl)))))
  · exact leaves_next.mpr rfl
theorem disconnect_mask (h : [.free, .out, .rdma, .ledger, .bell, .boot, .portA, .portB, .net, .fns, .sqs, .due, .aborts,
    .zones, .units, .media, .staged, .jobs, .cores, .hamlets, .disp, .dram, .loft, .health, .events, .eventSeq, .clk, .pwr,
    .life, .act] ⊆ P) (a) :
    (State.disconnect s a).mask P = s.mask P := mask_mono h <| by
  simp +decide only [State.disconnect, loftRecord_mask, beginLoss_mask, setPwr_mask, mask_boot, mask_ite, ite_self,
      mask_foldl, implies_true]
theorem execInputOvervoltageOrBreaker_leaves (a) :
    Leaves [.free, .out, .rdma, .ledger, .bell, .boot, .portA, .portB, .net, .fns, .sqs, .due, .aborts, .zones, .units,
        .media, .staged, .jobs, .cores, .hamlets, .disp, .dram, .loft, .health, .events, .eventSeq, .clk, .pwr, .life, .act]
        s (execInputOvervoltageOrBreaker a s) := by
  simp +decide only [execInputOvervoltageOrBreaker, disconnect_mask, go, leaves_next, leaves_fault, leaves_ite, mask_ite,
      ite_self, mask_foldl, implies_true]
theorem setTemp_mask (h : [.health] ⊆ P) (a b) :
    (State.setTemp s a b).mask P = s.mask P := mask_mono h <| by
  simp +decide only [State.setTemp, mask_health, mask_ite, ite_self, mask_foldl, implies_true]
theorem execThermalShutdown_leaves (a b) :
    Leaves [.free, .out, .rdma, .ledger, .bell, .boot, .portA, .portB, .net, .fns, .sqs, .due, .aborts, .zones, .units,
        .media, .staged, .jobs, .cores, .hamlets, .disp, .dram, .loft, .health, .events, .eventSeq, .clk, .pwr, .life, .act]
        s (execThermalShutdown a b s) := by
  simp +decide only [execThermalShutdown, disconnect_mask, tempEvent_mask, setTemp_mask, mask_health, go, leaves_next,
      leaves_fault, leaves_ite, mask_ite, ite_self, mask_foldl, implies_true]
theorem execTemperature_leaves (a b c) :
    Leaves [.out, .rdma, .bell, .loft, .health, .events, .eventSeq, .pwr] s (execTemperature a b c s) := by
  simp +decide only [execTemperature, tempEvent_mask, setTemp_mask, setPwr_mask, mask_health, go, leaves_next, leaves_fault,
      leaves_ite, mask_ite, ite_self, mask_foldl, implies_true]
theorem execTemperatureClear_leaves (a b) :
    Leaves [.health, .pwr] s (execTemperatureClear a b s) := by
  simp +decide only [execTemperatureClear, setTemp_mask, setPwr_mask, mask_health, go, leaves_next, leaves_fault, leaves_ite,
      mask_ite, ite_self, mask_foldl, implies_true]
theorem execPwrDisableAssert_leaves (a) :
    Leaves [.free, .out, .rdma, .ledger, .bell, .boot, .portA, .portB, .net, .fns, .sqs, .due, .aborts, .zones, .units,
        .media, .staged, .jobs, .cores, .hamlets, .disp, .dram, .loft, .health, .events, .eventSeq, .clk, .pwr, .life, .act]
        s (execPwrDisableAssert a s) := by
  simp +decide only [execPwrDisableAssert, beginLoss_mask, setPwr_mask, go, leaves_next, leaves_fault, leaves_ite, mask_ite,
      ite_self, mask_foldl, implies_true]
theorem execPwrDisableRelease_leaves (a) :
    Leaves [.free, .out, .rdma, .ledger, .bell, .err, .boot, .portA, .portB, .net, .fns, .sqs, .cqs, .sems, .due, .aborts,
        .holds, .cursors, .zones, .units, .rand, .media, .staged, .jobs, .cores, .hamlets, .disp, .sieve, .dram, .edc, .loft,
        .health, .events, .eventSeq, .clk, .pwr, .life, .tap, .smbOff, .act, .ctlCores, .ctlSpares] s (execPwrDisableRelease
        a s) := by
  simp +decide only [execPwrDisableRelease, bootCold_mask, setPwr_mask, mask_clk, go, leaves_next, leaves_fault, leaves_ite,
      mask_ite, ite_self, mask_foldl, implies_true]
theorem execLampReq_leaves (a) :
    Leaves [.pwr] s (execLampReq a s) := by
  simp +decide only [execLampReq, setPwr_mask, go, leaves_next, leaves_fault, leaves_ite, mask_ite, ite_self, mask_foldl,
      implies_true]
theorem tapOut_mask (h : [.out, .tap] ⊆ P) (ir b) {k : State → State} (hk : ∀ x : State, (k x).mask P = x.mask P) :
    (s.tapOut ir b k).mask P = s.mask P := by
  unfold State.tapOut
  split
  · exact (tell_mask (List.Subset.trans (by decide) h) ..).trans ((hk _).trans (mask_tap (h (by decide)) _))
  · rfl
theorem execTapIdcode_leaves : Leaves [.free, .out, .tap] s (execTapIdcode s) :=
  leaves_next.mpr (by
    split
    · exact (tapOut_mask (by decide) _ _ fun _ => rfl).trans (mask_free (by decide) _)
    · rfl)
theorem execTapExtest_leaves (a) :
    Leaves [.out, .tap] s (execTapExtest a s) := by
  simp +decide only [execTapExtest, tapOut_mask, mask_tap, go, leaves_next, leaves_fault, leaves_ite, mask_ite, ite_self,
      mask_foldl, implies_true]
theorem execTapSamplePreload_leaves (a b) :
    Leaves [.out, .tap] s (execTapSamplePreload a b s) := by
  simp +decide only [execTapSamplePreload, tapOut_mask, mask_tap, go, leaves_next, leaves_fault, leaves_ite, mask_ite,
      ite_self, mask_foldl, implies_true]
theorem execTapBypass_leaves : Leaves [.out, .tap] s (execTapBypass s) :=
  leaves_next.mpr (tapOut_mask (by decide) _ _ fun _ => rfl)
theorem execTapDbgChal_leaves : Leaves [.out, .tap] s (execTapDbgChal s) :=
  leaves_next.mpr (tapOut_mask (by decide) _ _ fun _ => rfl)
theorem execTapDbgToken_leaves (a) :
    Leaves [.out, .life, .tap] s (execTapDbgToken a s) := by
  simp +decide only [execTapDbgToken, tapOut_mask, mask_life_tap, go, leaves_next, leaves_fault, leaves_ite, mask_ite,
      ite_self, mask_foldl, implies_true]
theorem writeWin_mask (h : [.jobs, .cores] ⊆ P) (a b c d e) :
    (State.writeWin s a b c d e).mask P = s.mask P := mask_mono h <| by
  simp +decide only [State.writeWin, setJob_mask, setCore_mask, mask_ite, ite_self, mask_foldl, implies_true]
theorem writeAddr_mask (h : [.jobs, .cores] ⊆ P) (a b c) :
    (State.writeAddr s a b c).mask P = s.mask P := mask_mono h <| by
  unfold State.writeAddr
  repeat' split
  all_goals simp +decide only [writeWin_mask, mask_ite, ite_self, mask_foldl, implies_true]
theorem setCtx_mask (h : [.cores] ⊆ P) (a b) :
    (State.setCtx s a b).mask P = s.mask P := mask_mono h <| by
  simp +decide only [State.setCtx, setCore_mask, mask_ite, ite_self, mask_foldl, implies_true]
theorem endItem_mask (h : [.jobs, .cores, .disp] ⊆ P) (a b) :
    (State.endItem s a b).mask P = s.mask P := mask_mono h <| by
  simp +decide only [State.endItem, writeAddr_mask, trace_mask, setJob_mask, setCore_mask, mask_ite, ite_self, mask_foldl,
      implies_true]
theorem endAtDone_mask (h : [.jobs, .cores, .disp] ⊆ P) (a) :
    (State.endAtDone s a).mask P = s.mask P := mask_mono h <| by
  unfold State.endAtDone
  repeat' split
  all_goals simp +decide only [endItem_mask, mask_ite, ite_self, mask_foldl, implies_true]
theorem coreFault_mask (h : [.jobs, .cores] ⊆ P) (a b c d e f) :
    (State.coreFault s a b c d e f).mask P = s.mask P := mask_mono h <| by
  simp +decide only [State.coreFault, haltCore_mask, jobFault_mask, setCtx_mask, mask_ite, ite_self, mask_foldl, implies_true]
theorem arrive_mask (h : [.free, .jobs, .cores, .disp] ⊆ P) (a b c d e) :
    (State.arrive s a b c d e).mask P = s.mask P := mask_mono h <| by
  simp +decide only [State.arrive, State.draw, mask_free, endAtDone_mask, coreFault_mask, setCtx_mask, mask_ite, ite_self,
      mask_foldl, implies_true]
/-- Where an instruction takes effect, the module is `s` but for the parts in `P`. -/
def Eff.Leaves (P : List Part) (s : State) : Eff → Prop
  | .on _ t | .jump _ t _ _ | .finish t | .gone t => t.mask P = s.mask P
  | _ => True
theorem carryOut_mask (h : [.free, .out, .rdma, .ledger, .bell, .fns, .sqs, .cqs, .aborts, .zones, .units, .media, .staged,
    .jobs,
    .cores, .hamlets, .disp, .dram, .health] ⊆ P) (k jb x w) {e : Eff} (he : e.Leaves P s) :
    (s.carryOut k jb x w e).mask P = s.mask P := by
  cases e with
  | stall => exact setCtx_mask (List.Subset.trans (by decide) h) ..
  | fault => exact coreFault_mask (List.Subset.trans (by decide) h) ..
  | lost => exact endJob_mask (List.Subset.trans (by decide) h) ..
  | on y t => exact (arrive_mask (List.Subset.trans (by decide) h) ..).trans he
  | jump y t pc n => exact (arrive_mask (List.Subset.trans (by decide) h) ..).trans he
  | finish t => exact he
  | gone t => exact he
theorem stopsAfter_mask (h : [.jobs, .cores] ⊆ P) (a b c) :
    (State.stopsAfter s a b c).mask P = s.mask P := mask_mono h <| by
  simp +decide only [State.stopsAfter, haltCore_mask, mask_ite, ite_self, mask_foldl, implies_true]
theorem issueInstr_leaves (h : [.free, .out, .rdma, .ledger, .bell, .fns, .sqs, .cqs, .aborts, .zones, .units, .media, .staged,
    .jobs, .cores, .hamlets, .disp, .dram, .health] ⊆ P) {c word bad uses} {f : Job → Ctx → Eff}
    (hf : ∀ jb x, (f jb x).Leaves P s) : Leaves P s (s.issueInstr c word bad uses f) := by
  unfold State.issueInstr
  split
  · exact leaves_fault
  · dsimp only
    split
    · exact leaves_next.mpr rfl
    · split
      · exact leaves_next.mpr rfl
      · split
        · exact leaves_next.mpr rfl
        · split
          · exact leaves_next.mpr rfl
          · refine leaves_next.mpr ((stopsAfter_mask (List.Subset.trans (by decide) h) ..).trans (carryOut_mask h _ _ _ _ ?_))
            split
            · trivial
            · split
              · trivial
              · exact hf _ _
theorem putCtx_mask (h : [.cores] ⊆ P) (a b c d) :
    (State.putCtx s a b c d).mask P = s.mask P := mask_mono h <| by
  simp +decide only [State.putCtx, setCore_mask, setCtx_mask, mask_ite, ite_self, mask_foldl, implies_true]
theorem writeLocal_mask (h : [.jobs, .cores] ⊆ P) (a b c d e f) :
    (State.writeLocal s a b c d e f).mask P = s.mask P := mask_mono h <| by
  simp +decide only [State.writeLocal, writeWin_mask, putCtx_mask, setCtx_mask, mask_ite, ite_self, mask_foldl, implies_true]
theorem execDmaComplete_leaves (a b) :
    Leaves [.out, .rdma, .ledger, .bell, .fns, .sqs, .cqs, .aborts, .zones, .units, .media, .staged, .jobs, .cores, .hamlets,
        .disp, .dram, .health] s (execDmaComplete a b s) := by
  unfold execDmaComplete
  dsimp only
  repeat' split
  all_goals simp +decide only [writeLocal_mask, writeWin_mask, endAtDone_mask, putCtx_mask, endJob_mask, go, leaves_next,
      leaves_fault, leaves_ite, mask_ite, ite_self, mask_foldl, implies_true]
theorem execLoadComplete_leaves (a) :
    Leaves [.cores] s (execLoadComplete a s) := by
  unfold execLoadComplete
  dsimp only
  repeat' split
  all_goals simp +decide only [putCtx_mask, go, leaves_next, leaves_fault, leaves_ite, mask_ite, ite_self, mask_foldl,
      implies_true]
theorem execStoreComplete_leaves (a) :
    Leaves [.jobs, .cores] s (execStoreComplete a s) := by
  unfold execStoreComplete
  dsimp only
  repeat' split
  all_goals simp +decide only [writeAddr_mask, putCtx_mask, go, leaves_next, leaves_fault, leaves_ite, mask_ite, ite_self,
      mask_foldl, implies_true]
theorem execProductLand_leaves (a) :
    Leaves [.cores] s (execProductLand a s) := by
  unfold execProductLand
  repeat' split
  all_goals simp +decide only [setCtx_mask, go, leaves_next, leaves_fault, leaves_ite, mask_ite, ite_self, mask_foldl,
      implies_true]
theorem answerReq_mask (h : [.jobs, .cores] ⊆ P) (a b c d e f) :
    (State.answerReq s a b c d e f).mask P = s.mask P := mask_mono h <| by
  simp +decide only [State.answerReq, writeLocal_mask, mask_ite, ite_self, mask_foldl, implies_true]
theorem failReq_mask (h : [.free, .jobs, .cores] ⊆ P) (a b c d e) :
    (State.failReq s a b c d e).mask P = s.mask P := mask_mono h <| by
  simp +decide only [State.failReq, State.draw, mask_free, answerReq_mask, mask_ite, ite_self, mask_foldl, implies_true]
theorem payUnits_mask (h : [.fns] ⊆ P) (f : Nat) : ∀ (n k : Nat) (s : State), (State.payUnits s f n k).2.mask P = s.mask P := by
  intro n
  obtain ⟨rate, hrate⟩ : ∃ r, r = @State.rate := ⟨_, rfl⟩
  delta State.payUnits State.payUnits._f
  rw [← hrate]
  clear hrate
  induction n with
  | zero => exact fun _ _ => rfl
  | succ n ih =>
    intro k s
    show State.mask P (Prod.snd (match rate s f [(3, 4096)] with
      | .pay b => _
      | _ => _)) = _
    cases rate s f [(3, 4096)] with
    | pay b => exact (ih _ _).trans (setFn_mask h ..)
    | wait => rfl
    | barred => rfl
theorem endReq_mask (h : [.free, .ledger, .fns, .zones, .units, .media, .staged, .jobs, .cores, .dram, .health] ⊆ P) (k x run
    q jb) :
    (s.endReq k x run q jb).mask P = s.mask P := mask_mono h <| by
  unfold State.endReq
  split
  · split
    · exact failReq_mask (by decide) ..
    · have hpay := payUnits_mask (s := s) (P := [.free, .ledger, .fns, .zones, .units, .media, .staged, .jobs, .cores, .dram,
        .health])
        (by decide) jb.r.fn (rqCount q.block - q.paid) q.paid
      dsimp only
      split
      · exact (putCtx_mask (by decide) ..).trans hpay
      · split
        · exact (haltCore_mask (by decide) ..).trans ((jobFault_mask (by decide) ..).trans hpay)
        · exact (setJob_mask (by decide) ..).trans ((answerReq_mask (by decide) ..).trans hpay)
  · split
    · split
      · rfl
      · next ha =>
        refine .trans ?_ (appendJob_mask (by decide) ha)
        split
        · exact answerReq_mask (by decide) ..
        · exact failReq_mask (by decide) ..
    · exact failReq_mask (by decide) ..
theorem execRequestComplete_leaves (a) :
    Leaves [.free, .ledger, .fns, .zones, .units, .media, .staged, .jobs, .cores, .disp, .dram, .health] s
        (execRequestComplete a s) := by
  unfold execRequestComplete
  dsimp only
  repeat' split
  all_goals simp +decide only [endReq_mask, endAtDone_mask, go, leaves_next, leaves_fault, leaves_ite, mask_ite, ite_self,
      mask_foldl, implies_true]
theorem endLookup_mask (h : [.free, .out, .rdma, .bell, .jobs, .cores, .sieve, .loft, .events, .eventSeq] ⊆ P) (k x run q f) :
    (s.endLookup k x run q f).mask P = s.mask P := mask_mono h <| by
  have hdraw : ∀ x : State, (x.draw).2.mask [.free, .out, .rdma, .bell, .jobs, .cores, .sieve, .loft, .events, .eventSeq] =
      x.mask [.free, .out, .rdma, .bell, .jobs, .cores, .sieve, .loft, .events, .eventSeq] := fun x => mask_free (by decide) _
  unfold State.endLookup
  refine (writeLocal_mask (by decide) ..).trans ?_
  split
  · split
    · rfl
    · split
      · rfl
      · exact lookup_mask (by decide) ..
  · refine (hdraw _).trans ?_
    split
    · rfl
    · split
      · rfl
      · exact lookup_mask (by decide) ..
theorem execSvlComplete_leaves (a) :
    Leaves [.free, .out, .rdma, .bell, .jobs, .cores, .disp, .sieve, .loft, .events, .eventSeq] s (execSvlComplete a s) := by
  unfold execSvlComplete
  dsimp only
  repeat' split
  all_goals simp +decide only [endLookup_mask, endAtDone_mask, go, leaves_next, leaves_fault, leaves_ite, mask_ite, ite_self,
      mask_foldl, implies_true]
end Sys2Proof.Machine
end

section
/-! SUPPORT. Frames of the instructions of a core. -/

namespace Sys2Proof.Machine
variable {P Q : List Part} {s t : State}
/-! ### Instructions of a core -/

/-- The parts an instruction of a core may change. -/
abbrev issueParts : List Part :=
  [.free, .out, .rdma, .ledger, .bell, .fns, .sqs, .cqs, .aborts, .zones, .units, .media, .staged, .jobs, .cores, .hamlets, .disp,
    .dram, .health]

/-- An instruction whose effects leave the module alone but for the parts it may change does so itself. -/
theorem issue_leaves {c word bad uses} {f : Job → Ctx → Eff} (hf : ∀ jb x, (f jb x).Leaves issueParts s) :
    Leaves issueParts s (s.issueInstr c word bad uses f) := issueInstr_leaves (List.Subset.refl _) hf

theorem transfer_leaves (jb x v) : (transfer jb x s v).Leaves P s := by
  unfold transfer
  dsimp only
  split
  · trivial
  · split
    · exact rfl
    · trivial

theorem access_leaves {x : Ctx} {jb k upd off n ok} {f : Ctx → Win → Nat → Nat → Eff} (hf : ∀ y w a o, (f y w a o).Leaves P s) :
    (x.access jb k upd off n ok f).Leaves P s := by
  unfold Ctx.access
  dsimp only
  repeat' split
  all_goals solve | trivial | exact hf ..

theorem localBlock_leaves {k n a} {f : Bytes → Eff} (hf : ∀ b, (f b).Leaves P s) : (s.localBlock k n a f).Leaves P s := by
  unfold State.localBlock
  split
  · trivial
  · split
    · trivial
    · exact hf _

theorem loadEff_leaves (k jb wide rd n sx x w a off) : (s.loadEff k jb wide rd n sx x w a off).Leaves P s := by
  unfold State.loadEff
  split
  · trivial
  · exact rfl

theorem storeEff_leaves (k b x w a off) : (s.storeEff k b x w a off).Leaves issueParts s := by
  unfold State.storeEff
  split
  · exact writeWin_mask (by decide) ..
  · split
    · trivial
    · exact rfl

theorem openLoop_leaves (x : Ctx) (e n) : (x.openLoop s e n).Leaves P s := by
  unfold Ctx.openLoop
  dsimp only
  repeat' split
  all_goals solve | trivial | exact rfl

theorem intR_leaves (c fn f rd rs1 rs2) : Leaves issueParts s (s.intR c fn f rd rs1 rs2) := by
  unfold State.intR
  exact issue_leaves fun _ _ => rfl
theorem intU_leaves (c fn f rd rs1 rs2) : Leaves issueParts s (s.intU c fn f rd rs1 rs2) := by
  unfold State.intU
  exact issue_leaves fun _ _ => rfl
theorem intI_leaves (c op bad f rd rs1 imm) : Leaves issueParts s (s.intI c op bad f rd rs1 imm) := by
  unfold State.intI
  exact issue_leaves fun _ _ => rfl
theorem crcInstr_leaves (c fn n rd rs1 rs2) : Leaves issueParts s (s.crcInstr c fn n rd rs1 rs2) := by
  unfold State.crcInstr
  exact issue_leaves fun _ _ => rfl
theorem simd_leaves (c op o f e lane rd rs1 rs2) : Leaves issueParts s (s.simd c op o f e lane rd rs1 rs2) := by
  unfold State.simd
  exact issue_leaves fun _ _ => rfl
theorem mulInstr_leaves (c op useE src lands f e z rd rs1 rs2) :
    Leaves issueParts s (s.mulInstr c op useE src lands f e z rd rs1 rs2) := by
  unfold State.mulInstr
  exact issue_leaves fun _ _ => rfl
theorem toP_leaves (c op wide f e z rd rs1 rs2) : Leaves issueParts s (s.toP c op wide f e z rd rs1 rs2) := by
  unfold State.toP
  exact issue_leaves fun _ _ => rfl
theorem fromP_leaves (c op wide f e z rd rs1 rs2) : Leaves issueParts s (s.fromP c op wide f e z rd rs1 rs2) := by
  unfold State.fromP
  exact issue_leaves fun _ _ => rfl

theorem branch_leaves (c op f rs1 rs2 disp) : Leaves issueParts s (s.branch c op f rs1 rs2 disp) := issue_leaves fun _ _ => by
  split
  · exact transfer_leaves ..
  · exact rfl

theorem atom_leaves (c op f rd rs1 rs2 fn) : Leaves issueParts s (s.atom c op f rd rs1 rs2 fn) := by
  unfold State.atom
  refine issue_leaves fun _ _ => access_leaves fun _ _ _ _ => ?_
  split
  · trivial
  · split
    · trivial
    · exact writeWin_mask (by decide) ..
theorem execCati_leaves (a b c d) :
    Leaves issueParts s (execCati a b c d s) := by
  unfold execCati
  exact issue_leaves fun _ _ => rfl
theorem execJ_leaves (a b) :
    Leaves issueParts s (execJ a b s) := by
  unfold execJ
  exact issue_leaves fun _ _ => transfer_leaves ..
theorem execCall_leaves (a b) :
    Leaves issueParts s (execCall a b s) := by
  unfold execCall
  exact issue_leaves fun _ _ => transfer_leaves ..
theorem execJalr_leaves (a b c d) :
    Leaves issueParts s (execJalr a b c d s) := by
  unfold execJalr
  exact issue_leaves fun _ _ => transfer_leaves ..
theorem execLoop_leaves (a b c d) :
    Leaves issueParts s (execLoop a b c d s) := by
  unfold execLoop
  exact issue_leaves fun _ _ => openLoop_leaves ..
theorem execLoopi_leaves (a b c) :
    Leaves issueParts s (execLoopi a b c s) := by
  unfold execLoopi
  exact issue_leaves fun _ _ => openLoop_leaves ..
theorem execLbrk_leaves (a b) :
    Leaves issueParts s (execLbrk a b s) := by
  unfold execLbrk
  exact issue_leaves fun _ _ => rfl
theorem execMfsr_leaves (a b c d) :
    Leaves issueParts s (execMfsr a b c d s) := by
  unfold execMfsr
  refine issue_leaves fun _ _ => ?_
  split
  · exact rfl
  · trivial
theorem execMtsr_leaves (a b c d) :
    Leaves issueParts s (execMtsr a b c d s) := by
  unfold execMtsr
  refine issue_leaves fun _ _ => ?_
  split
  · trivial
  · exact rfl
theorem execLd_leaves (a b c d e f g) :
    Leaves issueParts s (execLd a b c d e f g s) := by
  unfold execLd
  exact issue_leaves fun _ _ => access_leaves fun _ _ _ _ => loadEff_leaves ..
theorem execSt_leaves (a b c d e f g) :
    Leaves issueParts s (execSt a b c d e f g s) := by
  unfold execSt
  exact issue_leaves fun _ _ => access_leaves fun _ _ _ _ => storeEff_leaves ..
theorem execLdq_leaves (a b c d e f g) :
    Leaves issueParts s (execLdq a b c d e f g s) := by
  unfold execLdq
  exact issue_leaves fun _ _ => access_leaves fun _ _ _ _ => loadEff_leaves ..
theorem execStq_leaves (a b c d e f g) :
    Leaves issueParts s (execStq a b c d e f g s) := by
  unfold execStq
  exact issue_leaves fun _ _ => access_leaves fun _ _ _ _ => storeEff_leaves ..
theorem execAdda_leaves (a b c d) :
    Leaves issueParts s (execAdda a b c d s) := by
  unfold execAdda
  refine issue_leaves fun _ _ => ?_
  split
  · exact rfl
  · trivial
theorem execAddar_leaves (a b c d) :
    Leaves issueParts s (execAddar a b c d s) := by
  unfold execAddar
  refine issue_leaves fun _ _ => ?_
  split
  · exact rfl
  · trivial
theorem execMva_leaves (a b c d) :
    Leaves issueParts s (execMva a b c d s) := by
  unfold execMva
  exact issue_leaves fun _ _ => rfl
theorem execMvm_leaves (a b c d) :
    Leaves issueParts s (execMvm a b c d s) := by
  unfold execMvm
  exact issue_leaves fun _ _ => rfl
theorem execMfa_leaves (a b c d) :
    Leaves issueParts s (execMfa a b c d s) := by
  unfold execMfa
  exact issue_leaves fun _ _ => rfl
theorem execMfm_leaves (a b c d) :
    Leaves issueParts s (execMfm a b c d s) := by
  unfold execMfm
  exact issue_leaves fun _ _ => rfl
theorem execDma_leaves (a b c d e) :
    Leaves issueParts s (execDma a b c d e s) := by
  unfold execDma
  refine issue_leaves fun _ _ => ?_
  dsimp only
  repeat' split
  all_goals solve | trivial | exact rfl
theorem execVsel_leaves (a b c d e f) :
    Leaves issueParts s (execVsel a b c d e f s) := by
  unfold execVsel
  exact issue_leaves fun _ _ => rfl
theorem execVbcast_leaves (a b c d e f) :
    Leaves issueParts s (execVbcast a b c d e f s) := by
  unfold execVbcast
  exact issue_leaves fun _ _ => rfl
theorem execVins_leaves (a b c d e f) :
    Leaves issueParts s (execVins a b c d e f s) := by
  unfold execVins
  exact issue_leaves fun _ _ => rfl
theorem execVext_leaves (a b c d e f) :
    Leaves issueParts s (execVext a b c d e f s) := by
  unfold execVext
  exact issue_leaves fun _ _ => rfl
theorem execVsum_leaves (a b c d e f) :
    Leaves issueParts s (execVsum a b c d e f s) := by
  unfold execVsum
  exact issue_leaves fun _ _ => rfl
theorem execVmov_leaves (a b c d e f) :
    Leaves issueParts s (execVmov a b c d e f s) := by
  unfold execVmov
  exact issue_leaves fun _ _ => rfl
theorem execDone_leaves (a b c d) :
    Leaves issueParts s (execDone a b c d s) := by
  unfold execDone
  refine issue_leaves fun _ _ => ?_
  split
  · exact endItem_mask (by decide) ..
  · trivial
theorem execFence_leaves (a b c d) :
    Leaves issueParts s (execFence a b c d s) := by
  unfold execFence
  refine issue_leaves fun _ _ => ?_
  split
  · trivial
  · exact rfl
theorem execTrap_leaves (a b c d) :
    Leaves issueParts s (execTrap a b c d s) := by
  unfold execTrap
  exact issue_leaves fun _ _ => trivial
theorem execPost_leaves (a b c d) :
    Leaves issueParts s (execPost a b c d s) := by
  unfold execPost
  refine issue_leaves fun _ _ => localBlock_leaves fun _ => ?_
  dsimp only
  repeat' split
  · trivial
  · exact trace_mask (by decide) ..
  · trivial
  · exact ready_mask (by decide) ..
theorem execReq_leaves (a b c d) :
    Leaves issueParts s (execReq a b c d s) := by
  unfold execReq
  refine issue_leaves fun _ _ => localBlock_leaves fun _ => ?_
  dsimp only
  split
  · trivial
  · split
    · trivial
    · split
      · exact issueRead_mask (by decide) ..
      · exact rfl
theorem execEmit_leaves (a b c d) :
    Leaves issueParts s (execEmit a b c d s) := by
  unfold execEmit
  refine issue_leaves fun _ _ => ?_
  dsimp only
  repeat' split
  all_goals solve
    | trivial
    | exact output_mask (by decide) ..
    | exact (haltCore_mask (by decide) ..).trans (jobFault_mask (by decide) ..)
theorem execSvl_leaves (a b c d) :
    Leaves issueParts s (execSvl a b c d s) := by
  unfold execSvl
  refine issue_leaves fun _ _ => localBlock_leaves fun _ => ?_
  split
  · trivial
  · exact rfl
theorem execWaitd_leaves (a b c d) :
    Leaves issueParts s (execWaitd a b c d s) := by
  unfold execWaitd
  refine issue_leaves fun _ _ => ?_
  split
  · trivial
  · exact rfl
theorem execWaitr_leaves (a b c d) :
    Leaves issueParts s (execWaitr a b c d s) := by
  unfold execWaitr
  refine issue_leaves fun _ _ => ?_
  split
  · exact rfl
  · trivial
end Sys2Proof.Machine
end

section
/-! SUPPORT. The parts of every command. -/

namespace Sys2Proof.Machine
variable {P Q : List Part} {s t : State}
/-- The parts of the state a command may change. -/
def partsOf : Instr → List Part
  | .ccRateUpdate _ _ | .cnpArrival _ _ =>
    [.fns]
  | .detourApply _ =>
    [.dram]
  | .dieOpOverrun _ =>
    [.bell]
  | .eraseComplete _ | .channelRecentre _ _ _ | .channelRetrainRetry _ | .checkpointBegin | .patrolRead _ _ _ _
  | .retentionScan _ _ _ _ =>
    [.media]
  | .jobTimeLimit _ | .gateContextPause _ _ =>
    [.jobs]
  | .productLand _ | .loadComplete _ =>
    [.cores]
  | .ptpDelayResp _ _ =>
    [.clk]
  | .q3Entry | .wake _ | .internalWake _ | .lampReq _ =>
    [.pwr]
  | .quantumAssignment =>
    [.disp]
  | .semBreakable _ =>
    [.sems]
  | .sieveRowRetired _ =>
    [.sieve]
  | .smbusAlertResponse =>
    [.out]
  | .stagingDrain | .ringDoze _ _ =>
    [.sqs]
  | .ackTimeout _ _ _ =>
    [.out, .fns]
  | .ceMarkedPacket _ _ _ _ =>
    [.out, .net]
  | .checkpointComplete | .idleHoldExpiry =>
    [.media, .pwr]
  | .heartbeat =>
    [.loft, .pwr]
  | .loftEraseAbort _ =>
    [.free, .loft]
  | .pauseFrame _ | .frameDiscard _ _ | .ptpAnnounce _ _ | .nextHopResolution _ _ _ =>
    [.portA, .portB]
  | .ptpSourceReturn =>
    [.net, .clk]
  | .relocationCommit _ _ =>
    [.media, .dram]
  | .scrubComplete _ =>
    [.dram, .edc]
  | .smbusRead =>
    [.out, .smbOff]
  | .storeComplete _ =>
    [.jobs, .cores]
  | .suspendResponse _ =>
    [.bell, .media]
  | .tapDbgChal | .tapExtest _ | .tapSamplePreload _ _ | .tapBypass =>
    [.out, .tap]
  | .temperatureClear _ _ =>
    [.health, .pwr]
  | .watermarkBatch _ =>
    [.bell, .dram]
  | .cmDreq _ _ =>
    [.out, .net, .fns]
  | .notifyDeadline _ _ =>
    [.out, .rdma, .cqs]
  | .outputPause _ =>
    [.out, .rdma, .jobs]
  | .pfcFrame _ _ _ | .arpRequest _ _ _ _ | .neighborSolicitation _ _ _ _ | .icmpEchoRequest _ _ _ _ _ _ =>
    [.out, .portA, .portB]
  | .quantumEnd _ | .slotFill _ | .itemStart _ =>
    [.cores, .hamlets, .disp]
  | .scrubPass _ =>
    [.jobs, .dram, .edc]
  | .smbusSetOffset _ _ =>
    [.out, .err, .smbOff]
  | .tapDbgToken _ =>
    [.out, .life, .tap]
  | .tapIdcode =>
    [.free, .out, .tap]
  | .cmReq _ _ =>
    [.out, .portA, .portB, .fns]
  | .doorbellPollIssue _ _ =>
    [.out, .rdma, .bell, .fns]
  | .ptpSyncLoss =>
    [.portA, .portB, .net, .clk]
  | .batchPost _ _ =>
    [.out, .rdma, .jobs, .hamlets, .disp]
  | .headWordResponse _ _ _ | .dataReadResponse _ _ | .cmRtu _ _ =>
    [.out, .rdma, .fns, .sqs, .cqs]
  | .jobLoaded _ =>
    [.ledger, .sqs, .jobs, .hamlets, .disp]
  | .knock _ _ =>
    [.portA, .portB, .net, .fns, .pwr]
  | .parkingComplete _ _ =>
    [.zones, .media, .staged, .dram, .pwr]
  | .doorbellPollResponse _ _ _ =>
    [.out, .rdma, .fns, .sqs, .cqs, .pwr]
  | .failover _ =>
    [.out, .rdma, .net, .fns, .sqs, .cqs]
  | .loftPatrol _ =>
    [.out, .rdma, .bell, .loft, .events, .eventSeq]
  | .chainedListResponse _ _ | .parameterBlockResponse _ _ | .drainEnd _ | .write _ | .zoneAppend _ | .reportZones _
  | .randomWrite _ | .flush _ | .firmwareDownload _ =>
    [.out, .rdma, .fns, .sqs, .cqs, .aborts, .zones]
  | .channelFault _ | .channelRetrainBegin _ =>
    [.out, .rdma, .bell, .media, .loft, .events, .eventSeq]
  | .healthEvaluation =>
    [.out, .rdma, .bell, .loft, .health, .events, .eventSeq]
  | .rankRecentre _ _ _ _ | .rankMigrationComplete _ =>
    [.out, .rdma, .bell, .dram, .loft, .events, .eventSeq]
  | .sieveChecker _ =>
    [.out, .rdma, .bell, .sieve, .loft, .events, .eventSeq]
  | .blockGroupPass _ =>
    [.out, .rdma, .bell, .media, .dram, .loft, .events, .eventSeq]
  | .capacitanceMeasurement _ | .temperature _ _ _ =>
    [.out, .rdma, .bell, .loft, .health, .events, .eventSeq, .pwr]
  | .completionAck _ _ _ | .scan _ | .run _ =>
    [.out, .rdma, .fns, .sqs, .cqs, .aborts, .zones, .jobs]
  | .deleteRing _ | .setRingNotify _ | .resumeFunction _ =>
    [.out, .rdma, .ledger, .fns, .sqs, .cqs, .aborts, .zones]
  | .loftWordProgram _ _ _ | .loftSectorErase _ _ =>
    [.free, .out, .rdma, .bell, .loft, .events, .eventSeq, .life]
  | .read _ | .randomRead _ =>
    [.out, .rdma, .fns, .sqs, .cqs, .aborts, .zones, .media]
  | .remirror _ =>
    [.out, .rdma, .bell, .fns, .dram, .loft, .events, .eventSeq]
  | .unsupportedRequestNak _ _ _ | .qpRetryExhausted _ _ _ | .rnrNak _ _ =>
    [.out, .rdma, .bell, .net, .fns, .loft, .events, .eventSeq]
  | .createRing _ =>
    [.free, .out, .rdma, .ledger, .fns, .sqs, .cqs, .aborts, .zones]
  | .entryFetchResponse _ _ _ =>
    [.out, .rdma, .fns, .sqs, .cqs, .aborts, .zones, .jobOrder, .pwr]
  | .pfcWatchdog _ _ | .opticsInsert _ _ | .opticsRemove _ | .linkFault _ _ | .downRetry _ =>
    [.out, .rdma, .bell, .portA, .portB, .net, .loft, .events, .eventSeq]
  | .programFailure _ _ | .eraseFailure _ _ | .dieNoResponse _ | .channelRetrainResult _ _ _ | .relocation _ _ =>
    [.out, .rdma, .bell, .media, .staged, .dram, .loft, .events, .eventSeq]
  | .ptpSync _ _ _ =>
    [.out, .rdma, .bell, .portA, .portB, .loft, .events, .eventSeq, .clk]
  | .semAcquire _ | .semRelease _ | .semBreak _ | .semRead _ =>
    [.out, .rdma, .ledger, .fns, .sqs, .cqs, .sems, .aborts, .zones]
  | .setLatencyTolerance _ =>
    [.out, .rdma, .ledger, .fns, .sqs, .cqs, .aborts, .zones, .pwr]
  | .sieveWrite _ | .sieveWritePair _ =>
    [.out, .rdma, .ledger, .fns, .sqs, .cqs, .aborts, .zones, .sieve]
  | .addFunction _ =>
    [.free, .out, .rdma, .ledger, .fns, .sqs, .cqs, .aborts, .zones, .sieve]
  | .attest _ =>
    [.out, .rdma, .ledger, .fns, .sqs, .cqs, .aborts, .zones, .loft, .life]
  | .closeZone _ =>
    [.out, .rdma, .ledger, .fns, .sqs, .cqs, .aborts, .zones, .media, .dram]
  | .heldSlotRelease _ =>
    [.out, .rdma, .bell, .units, .media, .staged, .dram, .loft, .events, .eventSeq]
  | .randomAreaReclaim _ =>
    [.out, .rdma, .bell, .rand, .media, .staged, .dram, .loft, .events, .eventSeq]
  | .semCompareAndSwap _ _ _ _ _ _ =>
    [.out, .rdma, .ledger, .bell, .net, .fns, .sems, .loft, .events, .eventSeq]
  | .setFunctionResources _ =>
    [.out, .rdma, .ledger, .fns, .sqs, .cqs, .due, .aborts, .zones, .sieve]
  | .assignHolding _ =>
    [.out, .rdma, .ledger, .fns, .sqs, .cqs, .aborts, .holds, .zones, .media, .dram]
  | .finishZone _ =>
    [.out, .rdma, .ledger, .fns, .sqs, .cqs, .aborts, .zones, .media, .staged, .dram]
  | .internalTimeout _ _ =>
    [.out, .rdma, .bell, .sqs, .cqs, .aborts, .zones, .media, .loft, .events, .eventSeq]
  | .randomTrim _ =>
    [.out, .rdma, .ledger, .fns, .sqs, .cqs, .aborts, .zones, .rand, .media, .dram]
  | .resetFunction _ =>
    [.out, .rdma, .ledger, .net, .fns, .sqs, .cqs, .sems, .due, .aborts, .zones]
  | .svlComplete _ =>
    [.free, .out, .rdma, .bell, .jobs, .cores, .disp, .sieve, .loft, .events, .eventSeq]
  | .firmwareActivate _ =>
    [.out, .rdma, .bell, .fns, .sqs, .cqs, .aborts, .zones, .loft, .events, .eventSeq, .act]
  | .getLog _ =>
    [.out, .rdma, .bell, .fns, .sqs, .cqs, .aborts, .zones, .media, .loft, .events, .eventSeq]
  | .programComplete _ | .dumpPlan =>
    [.out, .rdma, .bell, .rand, .media, .staged, .dram, .loft, .health, .events, .eventSeq, .pwr]
  | .removeFunction _ =>
    [.out, .rdma, .ledger, .net, .fns, .sqs, .cqs, .sems, .due, .aborts, .zones, .sieve]
  | .requestComplete _ =>
    [.free, .ledger, .fns, .zones, .units, .media, .staged, .jobs, .cores, .disp, .dram, .health]
  | .sieveLookup _ | .sieveStep _ =>
    [.out, .rdma, .bell, .fns, .sqs, .cqs, .aborts, .zones, .sieve, .loft, .events, .eventSeq]
  | .trainingAttemptEnd _ _ =>
    [.out, .rdma, .bell, .portA, .portB, .net, .fns, .sqs, .cqs, .loft, .events, .eventSeq]
  | .wakeComplete _ =>
    [.out, .rdma, .bell, .sqs, .cqs, .aborts, .zones, .media, .loft, .events, .eventSeq, .pwr]
  | .setCalendar _ =>
    [.out, .rdma, .ledger, .bell, .fns, .sqs, .cqs, .aborts, .zones, .loft, .events, .eventSeq, .clk]
  | .activationHandover _ =>
    [.out, .rdma, .ledger, .bell, .boot, .sqs, .cqs, .aborts, .zones, .loft, .events, .eventSeq, .life, .act]
  | .createHolding _ =>
    [.free, .out, .rdma, .ledger, .bell, .fns, .sqs, .cqs, .aborts, .holds, .zones, .media, .dram, .loft, .events, .eventSeq]
  | .openZone _ =>
    [.out, .rdma, .ledger, .bell, .fns, .sqs, .cqs, .aborts, .cursors, .zones, .media, .staged, .dram, .loft, .events,
        .eventSeq]
  | .resetZone _ =>
    [.out, .rdma, .ledger, .bell, .fns, .sqs, .cqs, .aborts, .zones, .units, .media, .staged, .dram, .loft, .events, .eventSeq]
  | .setHolding _ =>
    [.out, .rdma, .ledger, .bell, .fns, .sqs, .cqs, .due, .aborts, .holds, .zones, .media, .dram, .loft, .events, .eventSeq]
  | .restartRing _ | .quiesceFunction _ | .jobLoadStart _ | .jobStop _ | .jobComplete _ | .outputAppend _ | .coreRetire _ _
  | .coreSelfTest _ _ _ | .dmaComplete _ _ =>
    [.out, .rdma, .ledger, .bell, .fns, .sqs, .cqs, .aborts, .zones, .units, .media, .staged, .jobs, .cores, .hamlets, .disp,
        .dram, .health]
  | .commandCommit _ =>
    [.free, .out, .rdma, .ledger, .bell, .fns, .sqs, .cqs, .aborts, .zones, .units, .rand, .media, .staged, .dram, .loft,
        .health, .events, .eventSeq, .life]
  | .deleteHolding _ =>
    [.free, .out, .rdma, .ledger, .bell, .fns, .sqs, .cqs, .aborts, .holds, .cursors, .zones, .units, .rand, .media, .staged,
        .dram, .loft, .events, .eventSeq]
  | .portEnable _ _ _ | .portRetrain _ _ | .setupWrite _ _ _ | .setupErrClear _ | .qpToInit _ _ _ _ _ _ | .qpToRtr _ _ _ _
  | .qpToRts _ _ _ _ | .qpToReset _ _ _ _ | .adminRingWrite _ _ _ | .sveModeWrite _ _ | .sveOwnerWrite _ _
  | .trcDispCtrlWrite _ _ | .scrubGo _ | .alertClear _ | .locate _ _ | .smbusWrite _ _ =>
    [.out, .rdma, .bell, .err, .portA, .portB, .net, .fns, .sqs, .cqs, .sems, .disp, .sieve, .edc, .loft, .health, .events,
        .eventSeq, .clk, .pwr]
  | .abort _ =>
    [.out, .rdma, .ledger, .bell, .fns, .sqs, .cqs, .aborts, .zones, .units, .media, .staged, .jobs, .cores, .hamlets, .disp,
        .dram, .loft, .health, .life, .act]
  | .jobLoadTimeout _ =>
    [.out, .rdma, .ledger, .bell, .fns, .sqs, .cqs, .aborts, .zones, .units, .media, .staged, .jobs, .cores, .hamlets, .disp,
        .dram, .loft, .health, .events, .eventSeq]
  | .dramUncorrectable _ | .remap _ | .rankRetrainResult _ _ | .rankMigrationStart _ | .dramChannelLoss _ =>
    [.free, .out, .rdma, .ledger, .bell, .fns, .sqs, .cqs, .aborts, .zones, .units, .media, .staged, .jobs, .cores, .hamlets,
        .disp, .dram, .loft, .health, .events, .eventSeq]
  | .planClose _ _ | .readPoint _ | .suspendLate _ _ | .arrayReadComplete _ _ | .rebuildWordLine _ =>
    [.out, .rdma, .ledger, .bell, .fns, .sqs, .cqs, .aborts, .zones, .units, .media, .staged, .jobs, .cores, .hamlets, .disp,
        .sieve, .dram, .loft, .health, .events, .eventSeq]
  | .remoteNak _ _ _ =>
    [.out, .rdma, .ledger, .bell, .net, .fns, .sqs, .cqs, .aborts, .zones, .units, .media, .staged, .jobs, .cores, .hamlets,
        .disp, .dram, .loft, .health, .events, .eventSeq]
  | .bellBoundary _ =>
    [.out, .rdma, .bell, .portA, .portB, .net, .fns, .sqs, .cqs, .due, .aborts, .holds, .zones, .media, .cores, .hamlets,
        .disp, .sieve, .dram, .loft, .health, .events, .eventSeq, .pwr]
  | .inputFail | .inputOvervoltageOrBreaker _ | .thermalShutdown _ _ | .pwrDisableAssert _ =>
    [.free, .out, .rdma, .ledger, .bell, .boot, .portA, .portB, .net, .fns, .sqs, .due, .aborts, .zones, .units, .media,
        .staged, .jobs, .cores, .hamlets, .disp, .dram, .loft, .health, .events, .eventSeq, .clk, .pwr, .life, .act]
  | .programSlotEnd =>
    [.free, .out, .rdma, .ledger, .bell, .boot, .portA, .portB, .net, .fns, .sqs, .due, .aborts, .zones, .units, .rand,
        .media, .staged, .jobs, .cores, .hamlets, .disp, .dram, .loft, .health, .events, .eventSeq, .clk, .pwr, .life, .act]
  | .commandDeferredStart _ =>
    [.free, .out, .rdma, .ledger, .bell, .net, .fns, .sqs, .cqs, .sems, .due, .aborts, .holds, .cursors, .zones, .units,
        .rand, .media, .staged, .jobs, .cores, .hamlets, .disp, .sieve, .dram, .loft, .health, .events, .eventSeq, .clk,
        .pwr, .life, .act]
  | .resetRelease _ =>
    [.free, .out, .rdma, .ledger, .bell, .boot, .portA, .portB, .net, .fns, .sqs, .cqs, .sems, .due, .aborts, .holds,
        .cursors, .zones, .units, .rand, .media, .staged, .jobs, .cores, .hamlets, .disp, .sieve, .dram, .loft, .health,
        .events, .eventSeq, .pwr, .ctlCores, .ctlSpares]
  | .moduleReset _ _ | .lifeCycleTransition _ _ | .refurbishEraseComplete _ _ | .controlCoreRetire _ _ | .powerGood _
  | .resetAssert _ _ | .pwrDisableRelease _ =>
    [.free, .out, .rdma, .ledger, .bell, .err, .boot, .portA, .portB, .net, .fns, .sqs, .cqs, .sems, .due, .aborts, .holds,
        .cursors, .zones, .units, .rand, .media, .staged, .jobs, .cores, .hamlets, .disp, .sieve, .dram, .edc, .loft,
        .health, .events, .eventSeq, .clk, .pwr, .life, .tap, .smbOff, .act, .ctlCores, .ctlSpares]
  | _ => issueParts

theorem execAdd_leaves (a b c d) : Leaves issueParts s (execAdd a b c d s) :=
  intR_leaves _ _ _ _ _ _
theorem execSub_leaves (a b c d) : Leaves issueParts s (execSub a b c d s) :=
  intR_leaves _ _ _ _ _ _
theorem execAnd__leaves (a b c d) : Leaves issueParts s (execAnd_ a b c d s) :=
  intR_leaves _ _ _ _ _ _
theorem execOr__leaves (a b c d) : Leaves issueParts s (execOr_ a b c d s) :=
  intR_leaves _ _ _ _ _ _
theorem execXor_leaves (a b c d) : Leaves issueParts s (execXor a b c d s) :=
  intR_leaves _ _ _ _ _ _
theorem execAndn_leaves (a b c d) : Leaves issueParts s (execAndn a b c d s) :=
  intR_leaves _ _ _ _ _ _
theorem execSll_leaves (a b c d) : Leaves issueParts s (execSll a b c d s) :=
  intR_leaves _ _ _ _ _ _
theorem execSrl_leaves (a b c d) : Leaves issueParts s (execSrl a b c d s) :=
  intR_leaves _ _ _ _ _ _
theorem execSra_leaves (a b c d) : Leaves issueParts s (execSra a b c d s) :=
  intR_leaves _ _ _ _ _ _
theorem execRor_leaves (a b c d) : Leaves issueParts s (execRor a b c d s) :=
  intR_leaves _ _ _ _ _ _
theorem execSeq_leaves (a b c d) : Leaves issueParts s (execSeq a b c d s) :=
  intR_leaves _ _ _ _ _ _
theorem execSne_leaves (a b c d) : Leaves issueParts s (execSne a b c d s) :=
  intR_leaves _ _ _ _ _ _
theorem execSlt_leaves (a b c d) : Leaves issueParts s (execSlt a b c d s) :=
  intR_leaves _ _ _ _ _ _
theorem execSltu_leaves (a b c d) : Leaves issueParts s (execSltu a b c d s) :=
  intR_leaves _ _ _ _ _ _
theorem execMin_leaves (a b c d) : Leaves issueParts s (execMin a b c d s) :=
  intR_leaves _ _ _ _ _ _
theorem execMax_leaves (a b c d) : Leaves issueParts s (execMax a b c d s) :=
  intR_leaves _ _ _ _ _ _
theorem execMinu_leaves (a b c d) : Leaves issueParts s (execMinu a b c d s) :=
  intR_leaves _ _ _ _ _ _
theorem execMaxu_leaves (a b c d) : Leaves issueParts s (execMaxu a b c d s) :=
  intR_leaves _ _ _ _ _ _
theorem execClz_leaves (a b c d) : Leaves issueParts s (execClz a b c d s) :=
  intU_leaves _ _ _ _ _ _
theorem execCtz_leaves (a b c d) : Leaves issueParts s (execCtz a b c d s) :=
  intU_leaves _ _ _ _ _ _
theorem execPopc_leaves (a b c d) : Leaves issueParts s (execPopc a b c d s) :=
  intU_leaves _ _ _ _ _ _
theorem execBswap_leaves (a b c d) : Leaves issueParts s (execBswap a b c d s) :=
  intU_leaves _ _ _ _ _ _
theorem execAddi_leaves (a b c d) : Leaves issueParts s (execAddi a b c d s) :=
  intI_leaves _ _ _ _ _ _ _
theorem execAndi_leaves (a b c d) : Leaves issueParts s (execAndi a b c d s) :=
  intI_leaves _ _ _ _ _ _ _
theorem execOri_leaves (a b c d) : Leaves issueParts s (execOri a b c d s) :=
  intI_leaves _ _ _ _ _ _ _
theorem execXori_leaves (a b c d) : Leaves issueParts s (execXori a b c d s) :=
  intI_leaves _ _ _ _ _ _ _
theorem execSlti_leaves (a b c d) : Leaves issueParts s (execSlti a b c d s) :=
  intI_leaves _ _ _ _ _ _ _
theorem execSltiu_leaves (a b c d) : Leaves issueParts s (execSltiu a b c d s) :=
  intI_leaves _ _ _ _ _ _ _
theorem execSlli_leaves (a b c d) : Leaves issueParts s (execSlli a b c d s) :=
  intI_leaves _ _ _ _ _ _ _
theorem execSrli_leaves (a b c d) : Leaves issueParts s (execSrli a b c d s) :=
  intI_leaves _ _ _ _ _ _ _
theorem execSrai_leaves (a b c d) : Leaves issueParts s (execSrai a b c d s) :=
  intI_leaves _ _ _ _ _ _ _
theorem execCrc32cB_leaves (a b c d) : Leaves issueParts s (execCrc32cB a b c d s) :=
  crcInstr_leaves _ _ _ _ _ _
theorem execCrc32cH_leaves (a b c d) : Leaves issueParts s (execCrc32cH a b c d s) :=
  crcInstr_leaves _ _ _ _ _ _
theorem execCrc32cW_leaves (a b c d) : Leaves issueParts s (execCrc32cW a b c d s) :=
  crcInstr_leaves _ _ _ _ _ _
theorem execCrc32cD_leaves (a b c d) : Leaves issueParts s (execCrc32cD a b c d s) :=
  crcInstr_leaves _ _ _ _ _ _
theorem execBeq_leaves (a b c d) : Leaves issueParts s (execBeq a b c d s) :=
  branch_leaves _ _ _ _ _ _
theorem execBne_leaves (a b c d) : Leaves issueParts s (execBne a b c d s) :=
  branch_leaves _ _ _ _ _ _
theorem execBlt_leaves (a b c d) : Leaves issueParts s (execBlt a b c d s) :=
  branch_leaves _ _ _ _ _ _
theorem execBge_leaves (a b c d) : Leaves issueParts s (execBge a b c d s) :=
  branch_leaves _ _ _ _ _ _
theorem execBltu_leaves (a b c d) : Leaves issueParts s (execBltu a b c d s) :=
  branch_leaves _ _ _ _ _ _
theorem execBgeu_leaves (a b c d) : Leaves issueParts s (execBgeu a b c d s) :=
  branch_leaves _ _ _ _ _ _
theorem execAtomCas_leaves (a b c d e) : Leaves issueParts s (execAtomCas a b c d e s) :=
  atom_leaves _ _ _ _ _ _ _
theorem execAtomSwap_leaves (a b c d e) : Leaves issueParts s (execAtomSwap a b c d e s) :=
  atom_leaves _ _ _ _ _ _ _
theorem execAtomFadd_leaves (a b c d e) : Leaves issueParts s (execAtomFadd a b c d e s) :=
  atom_leaves _ _ _ _ _ _ _
theorem execVadd_leaves (a b c d e f) : Leaves issueParts s (execVadd a b c d e f s) :=
  simd_leaves _ _ _ _ _ _ _ _ _
theorem execVsub_leaves (a b c d e f) : Leaves issueParts s (execVsub a b c d e f s) :=
  simd_leaves _ _ _ _ _ _ _ _ _
theorem execVadds_leaves (a b c d e f) : Leaves issueParts s (execVadds a b c d e f s) :=
  simd_leaves _ _ _ _ _ _ _ _ _
theorem execVsubs_leaves (a b c d e f) : Leaves issueParts s (execVsubs a b c d e f s) :=
  simd_leaves _ _ _ _ _ _ _ _ _
theorem execVaddus_leaves (a b c d e f) : Leaves issueParts s (execVaddus a b c d e f s) :=
  simd_leaves _ _ _ _ _ _ _ _ _
theorem execVsubus_leaves (a b c d e f) : Leaves issueParts s (execVsubus a b c d e f s) :=
  simd_leaves _ _ _ _ _ _ _ _ _
theorem execVmin_leaves (a b c d e f) : Leaves issueParts s (execVmin a b c d e f s) :=
  simd_leaves _ _ _ _ _ _ _ _ _
theorem execVmax_leaves (a b c d e f) : Leaves issueParts s (execVmax a b c d e f s) :=
  simd_leaves _ _ _ _ _ _ _ _ _
theorem execVminu_leaves (a b c d e f) : Leaves issueParts s (execVminu a b c d e f s) :=
  simd_leaves _ _ _ _ _ _ _ _ _
theorem execVmaxu_leaves (a b c d e f) : Leaves issueParts s (execVmaxu a b c d e f s) :=
  simd_leaves _ _ _ _ _ _ _ _ _
theorem execVceq_leaves (a b c d e f) : Leaves issueParts s (execVceq a b c d e f s) :=
  simd_leaves _ _ _ _ _ _ _ _ _
theorem execVcgt_leaves (a b c d e f) : Leaves issueParts s (execVcgt a b c d e f s) :=
  simd_leaves _ _ _ _ _ _ _ _ _
theorem execVcgtu_leaves (a b c d e f) : Leaves issueParts s (execVcgtu a b c d e f s) :=
  simd_leaves _ _ _ _ _ _ _ _ _
theorem execVsll_leaves (a b c d e f) : Leaves issueParts s (execVsll a b c d e f s) :=
  simd_leaves _ _ _ _ _ _ _ _ _
theorem execVsrl_leaves (a b c d e f) : Leaves issueParts s (execVsrl a b c d e f s) :=
  simd_leaves _ _ _ _ _ _ _ _ _
theorem execVsra_leaves (a b c d e f) : Leaves issueParts s (execVsra a b c d e f s) :=
  simd_leaves _ _ _ _ _ _ _ _ _
theorem execVand_leaves (a b c d e f) : Leaves issueParts s (execVand a b c d e f s) :=
  simd_leaves _ _ _ _ _ _ _ _ _
theorem execVor_leaves (a b c d e f) : Leaves issueParts s (execVor a b c d e f s) :=
  simd_leaves _ _ _ _ _ _ _ _ _
theorem execVxor_leaves (a b c d e f) : Leaves issueParts s (execVxor a b c d e f s) :=
  simd_leaves _ _ _ _ _ _ _ _ _
theorem execVandn_leaves (a b c d e f) : Leaves issueParts s (execVandn a b c d e f s) :=
  simd_leaves _ _ _ _ _ _ _ _ _
theorem execVshuf_leaves (a b c d e f) : Leaves issueParts s (execVshuf a b c d e f s) :=
  simd_leaves _ _ _ _ _ _ _ _ _
theorem execMul_leaves (a b c d e f) : Leaves issueParts s (execMul a b c d e f s) :=
  mulInstr_leaves _ _ _ _ _ _ _ _ _ _ _
theorem execMulu_leaves (a b c d e f) : Leaves issueParts s (execMulu a b c d e f s) :=
  mulInstr_leaves _ _ _ _ _ _ _ _ _ _ _
theorem execMac_leaves (a b c d e f) : Leaves issueParts s (execMac a b c d e f s) :=
  mulInstr_leaves _ _ _ _ _ _ _ _ _ _ _
theorem execMacu_leaves (a b c d e f) : Leaves issueParts s (execMacu a b c d e f s) :=
  mulInstr_leaves _ _ _ _ _ _ _ _ _ _ _
theorem execVmul_leaves (a b c d e f) : Leaves issueParts s (execVmul a b c d e f s) :=
  mulInstr_leaves _ _ _ _ _ _ _ _ _ _ _
theorem execVmac_leaves (a b c d e f) : Leaves issueParts s (execVmac a b c d e f s) :=
  mulInstr_leaves _ _ _ _ _ _ _ _ _ _ _
theorem execClmul_leaves (a b c d e f) : Leaves issueParts s (execClmul a b c d e f s) :=
  mulInstr_leaves _ _ _ _ _ _ _ _ _ _ _
theorem execClmac_leaves (a b c d e f) : Leaves issueParts s (execClmac a b c d e f s) :=
  mulInstr_leaves _ _ _ _ _ _ _ _ _ _ _
theorem execGfmul_leaves (a b c d e f) : Leaves issueParts s (execGfmul a b c d e f s) :=
  mulInstr_leaves _ _ _ _ _ _ _ _ _ _ _
theorem execGfmac_leaves (a b c d e f) : Leaves issueParts s (execGfmac a b c d e f s) :=
  mulInstr_leaves _ _ _ _ _ _ _ _ _ _ _
theorem execGfmuls_leaves (a b c d e f) : Leaves issueParts s (execGfmuls a b c d e f s) :=
  mulInstr_leaves _ _ _ _ _ _ _ _ _ _ _
theorem execGfmacs_leaves (a b c d e f) : Leaves issueParts s (execGfmacs a b c d e f s) :=
  mulInstr_leaves _ _ _ _ _ _ _ _ _ _ _
theorem execMtp_leaves (a b c d e f) : Leaves issueParts s (execMtp a b c d e f s) :=
  toP_leaves _ _ _ _ _ _ _ _ _
theorem execMtpg_leaves (a b c d e f) : Leaves issueParts s (execMtpg a b c d e f s) :=
  toP_leaves _ _ _ _ _ _ _ _ _
theorem execMfp_leaves (a b c d e f) : Leaves issueParts s (execMfp a b c d e f s) :=
  fromP_leaves _ _ _ _ _ _ _ _ _
theorem execMfpl_leaves (a b c d e f) : Leaves issueParts s (execMfpl a b c d e f s) :=
  fromP_leaves _ _ _ _ _ _ _ _ _
theorem execMfph_leaves (a b c d e f) : Leaves issueParts s (execMfph a b c d e f s) :=
  fromP_leaves _ _ _ _ _ _ _ _ _

/-- Every command leaves the module alone but for its parts. -/
theorem exec_leaves (i : Instr) (s : State) : Leaves (partsOf i) s (exec i s) := by
  cases i with
  | bellBoundary => exact execBellBoundary_leaves _
  | planClose => exact execPlanClose_leaves _ _
  | readPoint => exact execReadPoint_leaves _
  | suspendResponse => exact execSuspendResponse_leaves _
  | suspendLate => exact execSuspendLate_leaves _ _
  | arrayReadComplete => exact execArrayReadComplete_leaves _ _
  | programComplete => exact execProgramComplete_leaves _
  | programFailure => exact execProgramFailure_leaves _ _
  | eraseComplete => exact execEraseComplete_leaves _
  | eraseFailure => exact execEraseFailure_leaves _ _
  | dieOpOverrun => exact execDieOpOverrun_leaves _
  | dieNoResponse => exact execDieNoResponse_leaves _
  | rebuildWordLine => exact execRebuildWordLine_leaves _
  | blockGroupPass => exact execBlockGroupPass_leaves _
  | channelRecentre => exact execChannelRecentre_leaves _ _ _
  | channelFault => exact execChannelFault_leaves _
  | channelRetrainBegin => exact execChannelRetrainBegin_leaves _
  | channelRetrainResult => exact execChannelRetrainResult_leaves _ _ _
  | channelRetrainRetry => exact execChannelRetrainRetry_leaves _
  | checkpointBegin => exact execCheckpointBegin_leaves
  | checkpointComplete => exact execCheckpointComplete_leaves
  | randomAreaReclaim => exact execRandomAreaReclaim_leaves _
  | relocation => exact execRelocation_leaves _ _
  | relocationCommit => exact execRelocationCommit_leaves _ _
  | patrolRead => exact execPatrolRead_leaves _ _ _ _
  | parkingComplete => exact execParkingComplete_leaves _ _
  | heldSlotRelease => exact execHeldSlotRelease_leaves _
  | stagingDrain => exact execStagingDrain_leaves
  | watermarkBatch => exact execWatermarkBatch_leaves _
  | doorbellPollIssue => exact execDoorbellPollIssue_leaves _ _
  | doorbellPollResponse => exact execDoorbellPollResponse_leaves _ _ _
  | ringDoze => exact execRingDoze_leaves _ _
  | knock => exact execKnock_leaves _ _
  | entryFetchResponse => exact execEntryFetchResponse_leaves _ _ _
  | headWordResponse => exact execHeadWordResponse_leaves _ _ _
  | chainedListResponse => exact execChainedListResponse_leaves _ _
  | parameterBlockResponse => exact execParameterBlockResponse_leaves _ _
  | dataReadResponse => exact execDataReadResponse_leaves _ _
  | commandDeferredStart => exact execCommandDeferredStart_leaves _
  | commandCommit => exact execCommandCommit_leaves _
  | completionAck => exact execCompletionAck_leaves _ _ _
  | notifyDeadline => exact execNotifyDeadline_leaves _ _
  | internalTimeout => exact execInternalTimeout_leaves _ _
  | drainEnd => exact execDrainEnd_leaves _
  | read => exact execRead_leaves _
  | write => exact execWrite_leaves _
  | zoneAppend => exact execZoneAppend_leaves _
  | openZone => exact execOpenZone_leaves _
  | closeZone => exact execCloseZone_leaves _
  | finishZone => exact execFinishZone_leaves _
  | resetZone => exact execResetZone_leaves _
  | reportZones => exact execReportZones_leaves _
  | randomRead => exact execRandomRead_leaves _
  | randomWrite => exact execRandomWrite_leaves _
  | randomTrim => exact execRandomTrim_leaves _
  | flush => exact execFlush_leaves _
  | abort => exact execAbort_leaves _
  | restartRing => exact execRestartRing_leaves _
  | scan => exact execScan_leaves _
  | run => exact execRun_leaves _
  | sieveWrite => exact execSieveWrite_leaves _
  | sieveWritePair => exact execSieveWritePair_leaves _
  | sieveLookup => exact execSieveLookup_leaves _
  | sieveStep => exact execSieveStep_leaves _
  | semAcquire => exact execSemAcquire_leaves _
  | semRelease => exact execSemRelease_leaves _
  | semBreak => exact execSemBreak_leaves _
  | semRead => exact execSemRead_leaves _
  | getLog => exact (execGetLog_leaves _).mono (of_decide_eq_true rfl)
  | createRing => exact execCreateRing_leaves _
  | deleteRing => exact execDeleteRing_leaves _
  | setRingNotify => exact execSetRingNotify_leaves _
  | setLatencyTolerance => exact execSetLatencyTolerance_leaves _
  | addFunction => exact execAddFunction_leaves _
  | quiesceFunction => exact execQuiesceFunction_leaves _
  | resumeFunction => exact execResumeFunction_leaves _
  | resetFunction => exact execResetFunction_leaves _
  | removeFunction => exact execRemoveFunction_leaves _
  | setFunctionResources => exact execSetFunctionResources_leaves _
  | createHolding => exact execCreateHolding_leaves _
  | setHolding => exact execSetHolding_leaves _
  | assignHolding => exact execAssignHolding_leaves _
  | deleteHolding => exact execDeleteHolding_leaves _
  | setCalendar => exact execSetCalendar_leaves _
  | firmwareDownload => exact execFirmwareDownload_leaves _
  | firmwareActivate => exact execFirmwareActivate_leaves _
  | activationHandover => exact execActivationHandover_leaves _
  | moduleReset => exact execModuleReset_leaves _ _
  | lifeCycleTransition => exact execLifeCycleTransition_leaves _ _
  | refurbishEraseComplete => exact execRefurbishEraseComplete_leaves _ _
  | attest => exact execAttest_leaves _
  | jobLoadStart => exact execJobLoadStart_leaves _
  | jobLoaded => exact execJobLoaded_leaves _
  | jobLoadTimeout => exact execJobLoadTimeout_leaves _
  | jobTimeLimit => exact execJobTimeLimit_leaves _
  | jobStop => exact execJobStop_leaves _
  | jobComplete => exact execJobComplete_leaves _
  | batchPost => exact execBatchPost_leaves _ _
  | gateContextPause => exact execGateContextPause_leaves _ _
  | outputAppend => exact execOutputAppend_leaves _
  | outputPause => exact execOutputPause_leaves _
  | quantumAssignment => exact execQuantumAssignment_leaves
  | quantumEnd => exact execQuantumEnd_leaves _
  | slotFill => exact execSlotFill_leaves _
  | itemStart => exact execItemStart_leaves _
  | coreRetire => exact execCoreRetire_leaves _ _
  | coreSelfTest => exact execCoreSelfTest_leaves _ _ _
  | controlCoreRetire => exact execControlCoreRetire_leaves _ _
  | add => exact execAdd_leaves _ _ _ _
  | sub => exact execSub_leaves _ _ _ _
  | and_ => exact execAnd__leaves _ _ _ _
  | or_ => exact execOr__leaves _ _ _ _
  | xor => exact execXor_leaves _ _ _ _
  | andn => exact execAndn_leaves _ _ _ _
  | sll => exact execSll_leaves _ _ _ _
  | srl => exact execSrl_leaves _ _ _ _
  | sra => exact execSra_leaves _ _ _ _
  | ror => exact execRor_leaves _ _ _ _
  | seq => exact execSeq_leaves _ _ _ _
  | sne => exact execSne_leaves _ _ _ _
  | slt => exact execSlt_leaves _ _ _ _
  | sltu => exact execSltu_leaves _ _ _ _
  | min => exact execMin_leaves _ _ _ _
  | max => exact execMax_leaves _ _ _ _
  | minu => exact execMinu_leaves _ _ _ _
  | maxu => exact execMaxu_leaves _ _ _ _
  | clz => exact execClz_leaves _ _ _ _
  | ctz => exact execCtz_leaves _ _ _ _
  | popc => exact execPopc_leaves _ _ _ _
  | bswap => exact execBswap_leaves _ _ _ _
  | addi => exact execAddi_leaves _ _ _ _
  | andi => exact execAndi_leaves _ _ _ _
  | ori => exact execOri_leaves _ _ _ _
  | xori => exact execXori_leaves _ _ _ _
  | slti => exact execSlti_leaves _ _ _ _
  | sltiu => exact execSltiu_leaves _ _ _ _
  | slli => exact execSlli_leaves _ _ _ _
  | srli => exact execSrli_leaves _ _ _ _
  | srai => exact execSrai_leaves _ _ _ _
  | cati => exact execCati_leaves _ _ _ _
  | crc32cB => exact execCrc32cB_leaves _ _ _ _
  | crc32cH => exact execCrc32cH_leaves _ _ _ _
  | crc32cW => exact execCrc32cW_leaves _ _ _ _
  | crc32cD => exact execCrc32cD_leaves _ _ _ _
  | beq => exact execBeq_leaves _ _ _ _
  | bne => exact execBne_leaves _ _ _ _
  | blt => exact execBlt_leaves _ _ _ _
  | bge => exact execBge_leaves _ _ _ _
  | bltu => exact execBltu_leaves _ _ _ _
  | bgeu => exact execBgeu_leaves _ _ _ _
  | j => exact execJ_leaves _ _
  | call => exact execCall_leaves _ _
  | jalr => exact execJalr_leaves _ _ _ _
  | ld => exact execLd_leaves _ _ _ _ _ _ _
  | st => exact execSt_leaves _ _ _ _ _ _ _
  | ldq => exact execLdq_leaves _ _ _ _ _ _ _
  | stq => exact execStq_leaves _ _ _ _ _ _ _
  | atomCas => exact execAtomCas_leaves _ _ _ _ _
  | atomSwap => exact execAtomSwap_leaves _ _ _ _ _
  | atomFadd => exact execAtomFadd_leaves _ _ _ _ _
  | adda => exact execAdda_leaves _ _ _ _
  | addar => exact execAddar_leaves _ _ _ _
  | mva => exact execMva_leaves _ _ _ _
  | mvm => exact execMvm_leaves _ _ _ _
  | mfa => exact execMfa_leaves _ _ _ _
  | mfm => exact execMfm_leaves _ _ _ _
  | dma => exact execDma_leaves _ _ _ _ _
  | dmaComplete => exact execDmaComplete_leaves _ _
  | vadd => exact execVadd_leaves _ _ _ _ _ _
  | vsub => exact execVsub_leaves _ _ _ _ _ _
  | vadds => exact execVadds_leaves _ _ _ _ _ _
  | vsubs => exact execVsubs_leaves _ _ _ _ _ _
  | vaddus => exact execVaddus_leaves _ _ _ _ _ _
  | vsubus => exact execVsubus_leaves _ _ _ _ _ _
  | vmin => exact execVmin_leaves _ _ _ _ _ _
  | vmax => exact execVmax_leaves _ _ _ _ _ _
  | vminu => exact execVminu_leaves _ _ _ _ _ _
  | vmaxu => exact execVmaxu_leaves _ _ _ _ _ _
  | vceq => exact execVceq_leaves _ _ _ _ _ _
  | vcgt => exact execVcgt_leaves _ _ _ _ _ _
  | vcgtu => exact execVcgtu_leaves _ _ _ _ _ _
  | vsll => exact execVsll_leaves _ _ _ _ _ _
  | vsrl => exact execVsrl_leaves _ _ _ _ _ _
  | vsra => exact execVsra_leaves _ _ _ _ _ _
  | vand => exact execVand_leaves _ _ _ _ _ _
  | vor => exact execVor_leaves _ _ _ _ _ _
  | vxor => exact execVxor_leaves _ _ _ _ _ _
  | vandn => exact execVandn_leaves _ _ _ _ _ _
  | vsel => exact execVsel_leaves _ _ _ _ _ _
  | vshuf => exact execVshuf_leaves _ _ _ _ _ _
  | vbcast => exact execVbcast_leaves _ _ _ _ _ _
  | vins => exact execVins_leaves _ _ _ _ _ _
  | vext => exact execVext_leaves _ _ _ _ _ _
  | vsum => exact execVsum_leaves _ _ _ _ _ _
  | vmov => exact execVmov_leaves _ _ _ _ _ _
  | mul => exact execMul_leaves _ _ _ _ _ _
  | mulu => exact execMulu_leaves _ _ _ _ _ _
  | mac => exact execMac_leaves _ _ _ _ _ _
  | macu => exact execMacu_leaves _ _ _ _ _ _
  | vmul => exact execVmul_leaves _ _ _ _ _ _
  | vmac => exact execVmac_leaves _ _ _ _ _ _
  | clmul => exact execClmul_leaves _ _ _ _ _ _
  | clmac => exact execClmac_leaves _ _ _ _ _ _
  | gfmul => exact execGfmul_leaves _ _ _ _ _ _
  | gfmac => exact execGfmac_leaves _ _ _ _ _ _
  | gfmuls => exact execGfmuls_leaves _ _ _ _ _ _
  | gfmacs => exact execGfmacs_leaves _ _ _ _ _ _
  | productLand => exact execProductLand_leaves _
  | mtp => exact execMtp_leaves _ _ _ _ _ _
  | mtpg => exact execMtpg_leaves _ _ _ _ _ _
  | mfp => exact execMfp_leaves _ _ _ _ _ _
  | mfpl => exact execMfpl_leaves _ _ _ _ _ _
  | mfph => exact execMfph_leaves _ _ _ _ _ _
  | loop => exact execLoop_leaves _ _ _ _
  | loopi => exact execLoopi_leaves _ _ _
  | lbrk => exact execLbrk_leaves _ _
  | done => exact execDone_leaves _ _ _ _
  | fence => exact execFence_leaves _ _ _ _
  | trap => exact execTrap_leaves _ _ _ _
  | post => exact execPost_leaves _ _ _ _
  | req => exact execReq_leaves _ _ _ _
  | requestComplete => exact execRequestComplete_leaves _
  | emit => exact execEmit_leaves _ _ _ _
  | svl => exact execSvl_leaves _ _ _ _
  | svlComplete => exact execSvlComplete_leaves _
  | waitd => exact execWaitd_leaves _ _ _ _
  | waitr => exact execWaitr_leaves _ _ _ _
  | mfsr => exact execMfsr_leaves _ _ _ _
  | mtsr => exact execMtsr_leaves _ _ _ _
  | sieveChecker => exact execSieveChecker_leaves _
  | sieveRowRetired => exact execSieveRowRetired_leaves _
  | semCompareAndSwap => exact execSemCompareAndSwap_leaves _ _ _ _ _ _
  | semBreakable => exact execSemBreakable_leaves _
  | unsupportedRequestNak => exact execUnsupportedRequestNak_leaves _ _ _
  | remoteNak => exact execRemoteNak_leaves _ _ _
  | ackTimeout => exact execAckTimeout_leaves _ _ _
  | qpRetryExhausted => exact execQpRetryExhausted_leaves _ _ _
  | rnrNak => exact execRnrNak_leaves _ _
  | failover => exact execFailover_leaves _
  | cmReq => exact execCmReq_leaves _ _
  | cmRtu => exact execCmRtu_leaves _ _
  | cmDreq => exact execCmDreq_leaves _ _
  | ceMarkedPacket => exact execCeMarkedPacket_leaves _ _ _ _
  | ccRateUpdate => exact execCcRateUpdate_leaves _ _
  | pfcFrame => exact execPfcFrame_leaves _ _ _
  | pfcWatchdog => exact execPfcWatchdog_leaves _ _
  | pauseFrame => exact execPauseFrame_leaves _
  | arpRequest => exact execArpRequest_leaves _ _ _ _
  | neighborSolicitation => exact execNeighborSolicitation_leaves _ _ _ _
  | icmpEchoRequest => exact execIcmpEchoRequest_leaves _ _ _ _ _ _
  | frameDiscard => exact execFrameDiscard_leaves _ _
  | ptpAnnounce => exact execPtpAnnounce_leaves _ _
  | ptpSync => exact execPtpSync_leaves _ _ _
  | ptpDelayResp => exact execPtpDelayResp_leaves _ _
  | ptpSyncLoss => exact execPtpSyncLoss_leaves
  | ptpSourceReturn => exact execPtpSourceReturn_leaves
  | opticsInsert => exact execOpticsInsert_leaves _ _
  | opticsRemove => exact execOpticsRemove_leaves _
  | linkFault => exact execLinkFault_leaves _ _
  | trainingAttemptEnd => exact execTrainingAttemptEnd_leaves _ _
  | downRetry => exact execDownRetry_leaves _
  | portEnable => exact execPortEnable_leaves _ _ _
  | portRetrain => exact execPortRetrain_leaves _ _
  | setupWrite => exact execSetupWrite_leaves _ _ _
  | setupErrClear => exact execSetupErrClear_leaves _
  | qpToInit => exact execQpToInit_leaves _ _ _ _ _ _
  | qpToRtr => exact execQpToRtr_leaves _ _ _ _
  | qpToRts => exact execQpToRts_leaves _ _ _ _
  | qpToReset => exact execQpToReset_leaves _ _ _ _
  | adminRingWrite => exact execAdminRingWrite_leaves _ _ _
  | sveModeWrite => exact execSveModeWrite_leaves _ _
  | sveOwnerWrite => exact execSveOwnerWrite_leaves _ _
  | trcDispCtrlWrite => exact execTrcDispCtrlWrite_leaves _ _
  | scrubGo => exact execScrubGo_leaves _
  | scrubComplete => exact execScrubComplete_leaves _
  | alertClear => exact execAlertClear_leaves _
  | locate => exact execLocate_leaves _ _
  | smbusSetOffset => exact execSmbusSetOffset_leaves _ _
  | smbusRead => exact execSmbusRead_leaves
  | smbusWrite => exact execSmbusWrite_leaves _ _
  | smbusAlertResponse => exact execSmbusAlertResponse_leaves
  | dramUncorrectable => exact execDramUncorrectable_leaves _
  | remap => exact execRemap_leaves _
  | rankRecentre => exact execRankRecentre_leaves _ _ _ _
  | rankRetrainResult => exact execRankRetrainResult_leaves _ _
  | rankMigrationStart => exact execRankMigrationStart_leaves _
  | rankMigrationComplete => exact execRankMigrationComplete_leaves _
  | remirror => exact execRemirror_leaves _
  | dramChannelLoss => exact execDramChannelLoss_leaves _
  | scrubPass => exact execScrubPass_leaves _
  | detourApply => exact execDetourApply_leaves _
  | loftWordProgram => exact execLoftWordProgram_leaves _ _ _
  | loftSectorErase => exact execLoftSectorErase_leaves _ _
  | loftEraseAbort => exact execLoftEraseAbort_leaves _
  | loftPatrol => exact execLoftPatrol_leaves _
  | healthEvaluation => exact execHealthEvaluation_leaves
  | idleHoldExpiry => exact execIdleHoldExpiry_leaves
  | q3Entry => exact execQ3Entry_leaves
  | wake => exact execWake_leaves _
  | wakeComplete => exact execWakeComplete_leaves _
  | internalWake => exact execInternalWake_leaves _
  | capacitanceMeasurement => exact execCapacitanceMeasurement_leaves _
  | heartbeat => exact execHeartbeat_leaves
  | inputFail => exact execInputFail_leaves
  | dumpPlan => exact execDumpPlan_leaves
  | programSlotEnd => exact execProgramSlotEnd_leaves
  | inputOvervoltageOrBreaker b => exact execInputOvervoltageOrBreaker_leaves b
  | thermalShutdown => exact execThermalShutdown_leaves _ _
  | temperature => exact execTemperature_leaves _ _ _
  | powerGood => exact execPowerGood_leaves _
  | retentionScan => exact execRetentionScan_leaves _ _ _ _
  | resetAssert => exact execResetAssert_leaves _ _
  | resetRelease => exact execResetRelease_leaves _
  | pwrDisableAssert => exact execPwrDisableAssert_leaves _
  | pwrDisableRelease => exact execPwrDisableRelease_leaves _
  | lampReq => exact execLampReq_leaves _
  | tapDbgToken => exact execTapDbgToken_leaves _
  | tapDbgChal => exact execTapDbgChal_leaves
  | tapIdcode => exact execTapIdcode_leaves
  | tapExtest => exact execTapExtest_leaves _
  | tapSamplePreload => exact execTapSamplePreload_leaves _ _
  | tapBypass => exact execTapBypass_leaves
  | cnpArrival => exact execCnpArrival_leaves _ _
  | loadComplete => exact execLoadComplete_leaves _
  | storeComplete => exact execStoreComplete_leaves _
  | nextHopResolution => exact execNextHopResolution_leaves _ _ _
  | temperatureClear => exact execTemperatureClear_leaves _ _
end Sys2Proof.Machine
end

section
/-! SUPPORT. The queue is no part of a command, and a next state is the state with the parts of the command. -/

namespace Sys2Proof.Machine
variable {P Q : List Part} {s t : State}
/-- `s` with the listed parts taken from `t`. -/
def State.graft (P : List Part) (s t : State) : State where
  pending := if .pending ∈ P then t.pending else s.pending
  free := if .free ∈ P then t.free else s.free
  out := if .out ∈ P then t.out else s.out
  rdma := if .rdma ∈ P then t.rdma else s.rdma
  ledger := if .ledger ∈ P then t.ledger else s.ledger
  bell := if .bell ∈ P then t.bell else s.bell
  err := if .err ∈ P then t.err else s.err
  boot := if .boot ∈ P then t.boot else s.boot
  portA := if .portA ∈ P then t.portA else s.portA
  portB := if .portB ∈ P then t.portB else s.portB
  net := if .net ∈ P then t.net else s.net
  fns := if .fns ∈ P then t.fns else s.fns
  sqs := if .sqs ∈ P then t.sqs else s.sqs
  cqs := if .cqs ∈ P then t.cqs else s.cqs
  sems := if .sems ∈ P then t.sems else s.sems
  due := if .due ∈ P then t.due else s.due
  aborts := if .aborts ∈ P then t.aborts else s.aborts
  holds := if .holds ∈ P then t.holds else s.holds
  cursors := if .cursors ∈ P then t.cursors else s.cursors
  zones := if .zones ∈ P then t.zones else s.zones
  units := if .units ∈ P then t.units else s.units
  rand := if .rand ∈ P then t.rand else s.rand
  media := if .media ∈ P then t.media else s.media
  staged := if .staged ∈ P then t.staged else s.staged
  jobs := if .jobs ∈ P then t.jobs else s.jobs
  jobOrder := if .jobOrder ∈ P then t.jobOrder else s.jobOrder
  cores := if .cores ∈ P then t.cores else s.cores
  hamlets := if .hamlets ∈ P then t.hamlets else s.hamlets
  disp := if .disp ∈ P then t.disp else s.disp
  sieve := if .sieve ∈ P then t.sieve else s.sieve
  dram := if .dram ∈ P then t.dram else s.dram
  edc := if .edc ∈ P then t.edc else s.edc
  loft := if .loft ∈ P then t.loft else s.loft
  health := if .health ∈ P then t.health else s.health
  events := if .events ∈ P then t.events else s.events
  eventSeq := if .eventSeq ∈ P then t.eventSeq else s.eventSeq
  clk := if .clk ∈ P then t.clk else s.clk
  pwr := if .pwr ∈ P then t.pwr else s.pwr
  life := if .life ∈ P then t.life else s.life
  tap := if .tap ∈ P then t.tap else s.tap
  smbOff := if .smbOff ∈ P then t.smbOff else s.smbOff
  act := if .act ∈ P then t.act else s.act
  ctlCores := if .ctlCores ∈ P then t.ctlCores else s.ctlCores
  ctlSpares := if .ctlSpares ∈ P then t.ctlSpares else s.ctlSpares

theorem eq_graft_field {α : Type} {c : Prop} [Decidable c] {x y r : α} (e : (if c then r else x) = if c then r else y) :
    x = if c then x else y := by
  split
  · rfl
  · next h => rwa [if_neg h, if_neg h] at e

/-- A state that differs from another in the listed parts only is that one with those parts. -/
theorem eq_graft (e : t.mask P = s.mask P) : t = s.graft P t := by
  obtain ⟨h0, h1, h2, h3, h4, h5, h6, h7, h8, h9, h10, h11, h12, h13, h14, h15, h16, h17, h18, h19, h20, h21, h22, h23, h24, h25, h26, h27, h28, h29, h30, h31, h32, h33, h34, h35, h36, h37, h38, h39, h40, h41, h42, h43⟩ := State.mk.injEq .. ▸ e
  exact State.mk.injEq .. ▸ ⟨eq_graft_field h0, eq_graft_field h1, eq_graft_field h2, eq_graft_field h3, eq_graft_field h4, eq_graft_field h5, eq_graft_field h6, eq_graft_field h7, eq_graft_field h8, eq_graft_field h9, eq_graft_field h10, eq_graft_field h11, eq_graft_field h12, eq_graft_field h13, eq_graft_field h14, eq_graft_field h15, eq_graft_field h16, eq_graft_field h17, eq_graft_field h18, eq_graft_field h19, eq_graft_field h20, eq_graft_field h21, eq_graft_field h22, eq_graft_field h23, eq_graft_field h24, eq_graft_field h25, eq_graft_field h26, eq_graft_field h27, eq_graft_field h28, eq_graft_field h29, eq_graft_field h30, eq_graft_field h31, eq_graft_field h32, eq_graft_field h33, eq_graft_field h34, eq_graft_field h35, eq_graft_field h36, eq_graft_field h37, eq_graft_field h38, eq_graft_field h39, eq_graft_field h40, eq_graft_field h41, eq_graft_field h42, eq_graft_field h43⟩

theorem pending_of_mask (h : .pending ∉ P) (e : t.mask P = s.mask P) : t.pending = s.pending :=
  (congrArg State.pending (eq_graft e)).trans (if_neg h)

theorem life_of_mask (h : .life ∉ P) (e : t.mask P = s.mask P) : t.life = s.life :=
  (congrArg State.life (eq_graft e)).trans (if_neg h)

/-- No command has the queue among its parts. -/
theorem pending_notMem_partsOf (i : Instr) : .pending ∉ partsOf i := by
  cases i
  all_goals exact of_decide_eq_true rfl

/-- Settles O2: the queue is no part of any command. -/
theorem queueKept : Obligations.QueueKept := fun i _ t h => pending_of_mask (pending_notMem_partsOf i) (exec_leaves i _ t h)

theorem exec_eq_graft {i : Instr} (h : exec i s = .next t) : t = s.graft (partsOf i) t := eq_graft (exec_leaves i s t h)

/-- Settles O3: a next state is the state with the parts of the command taken from it. -/
theorem commandFrames : Obligations.CommandFrames := by
  intro s t i h
  cases i with
  | write | zoneAppend | reportZones | randomWrite | flush | firmwareDownload =>
    exact eq_graft (P := [.out, .rdma, .fns, .sqs, .cqs, .aborts, .zones]) (exec_leaves _ s t h)
  | scan | run =>
    exact eq_graft (P := [.out, .rdma, .fns, .sqs, .cqs, .aborts, .zones, .jobs]) (exec_leaves _ s t h)
  | deleteRing | setRingNotify | resumeFunction =>
    exact eq_graft (P := [.out, .rdma, .ledger, .fns, .sqs, .cqs, .aborts, .zones]) (exec_leaves _ s t h)
  | read | randomRead =>
    exact eq_graft (P := [.out, .rdma, .fns, .sqs, .cqs, .aborts, .zones, .media]) (exec_leaves _ s t h)
  | createRing =>
    exact eq_graft (P := [.free, .out, .rdma, .ledger, .fns, .sqs, .cqs, .aborts, .zones]) (exec_leaves _ s t h)
  | semAcquire | semRelease | semBreak | semRead =>
    exact eq_graft (P := [.out, .rdma, .ledger, .fns, .sqs, .cqs, .sems, .aborts, .zones]) (exec_leaves _ s t h)
  | setLatencyTolerance =>
    exact eq_graft (P := [.out, .rdma, .ledger, .fns, .sqs, .cqs, .aborts, .zones, .pwr]) (exec_leaves _ s t h)
  | sieveWrite | sieveWritePair =>
    exact eq_graft (P := [.out, .rdma, .ledger, .fns, .sqs, .cqs, .aborts, .zones, .sieve]) (exec_leaves _ s t h)
  | addFunction =>
    exact eq_graft (P := [.free, .out, .rdma, .ledger, .fns, .sqs, .cqs, .aborts, .zones, .sieve]) (exec_leaves _ s t h)
  | attest =>
    exact eq_graft (P := [.out, .rdma, .ledger, .fns, .sqs, .cqs, .aborts, .zones, .loft, .life]) (exec_leaves _ s t h)
  | closeZone =>
    exact eq_graft (P := [.out, .rdma, .ledger, .fns, .sqs, .cqs, .aborts, .zones, .media, .dram]) (exec_leaves _ s t h)
  | setFunctionResources =>
    exact eq_graft (P := [.out, .rdma, .ledger, .fns, .sqs, .cqs, .due, .aborts, .zones, .sieve]) (exec_leaves _ s t h)
  | assignHolding =>
    exact eq_graft (P := [.out, .rdma, .ledger, .fns, .sqs, .cqs, .aborts, .holds, .zones, .media, .dram]) (exec_leaves _ s
      t h)
  | finishZone =>
    exact eq_graft (P := [.out, .rdma, .ledger, .fns, .sqs, .cqs, .aborts, .zones, .media, .staged, .dram]) (exec_leaves _ s
      t h)
  | randomTrim =>
    exact eq_graft (P := [.out, .rdma, .ledger, .fns, .sqs, .cqs, .aborts, .zones, .rand, .media, .dram]) (exec_leaves _ s t
      h)
  | resetFunction =>
    exact eq_graft (P := [.out, .rdma, .ledger, .net, .fns, .sqs, .cqs, .sems, .due, .aborts, .zones]) (exec_leaves _ s t h)
  | firmwareActivate =>
    exact eq_graft (P := [.out, .rdma, .bell, .fns, .sqs, .cqs, .aborts, .zones, .loft, .events, .eventSeq, .act])
      (exec_leaves _ s t h)
  | getLog =>
    exact eq_graft (P := [.out, .rdma, .bell, .fns, .sqs, .cqs, .aborts, .zones, .media, .loft, .events, .eventSeq])
      (exec_leaves _ s t h)
  | removeFunction =>
    exact eq_graft (P := [.out, .rdma, .ledger, .net, .fns, .sqs, .cqs, .sems, .due, .aborts, .zones, .sieve]) (exec_leaves
      _ s t h)
  | sieveLookup | sieveStep =>
    exact eq_graft (P := [.out, .rdma, .bell, .fns, .sqs, .cqs, .aborts, .zones, .sieve, .loft, .events, .eventSeq])
      (exec_leaves _ s t h)
  | setCalendar =>
    exact eq_graft (P := [.out, .rdma, .ledger, .bell, .fns, .sqs, .cqs, .aborts, .zones, .loft, .events, .eventSeq, .clk])
      (exec_leaves _ s t h)
  | createHolding =>
    exact eq_graft (P := [.free, .out, .rdma, .ledger, .bell, .fns, .sqs, .cqs, .aborts, .holds, .zones, .media, .dram,
      .loft, .events, .eventSeq]) (exec_leaves _ s t h)
  | openZone =>
    exact eq_graft (P := [.out, .rdma, .ledger, .bell, .fns, .sqs, .cqs, .aborts, .cursors, .zones, .media, .staged, .dram,
      .loft, .events, .eventSeq]) (exec_leaves _ s t h)
  | resetZone =>
    exact eq_graft (P := [.out, .rdma, .ledger, .bell, .fns, .sqs, .cqs, .aborts, .zones, .units, .media, .staged, .dram,
      .loft, .events, .eventSeq]) (exec_leaves _ s t h)
  | setHolding =>
    exact eq_graft (P := [.out, .rdma, .ledger, .bell, .fns, .sqs, .cqs, .due, .aborts, .holds, .zones, .media, .dram,
      .loft, .events, .eventSeq]) (exec_leaves _ s t h)
  | restartRing | quiesceFunction =>
    exact eq_graft (P := [.out, .rdma, .ledger, .bell, .fns, .sqs, .cqs, .aborts, .zones, .units, .media, .staged, .jobs,
      .cores, .hamlets, .disp, .dram, .health]) (exec_leaves _ s t h)
  | deleteHolding =>
    exact eq_graft (P := [.free, .out, .rdma, .ledger, .bell, .fns, .sqs, .cqs, .aborts, .holds, .cursors, .zones, .units,
      .rand, .media, .staged, .dram, .loft, .events, .eventSeq]) (exec_leaves _ s t h)
  | abort =>
    exact eq_graft (P := [.out, .rdma, .ledger, .bell, .fns, .sqs, .cqs, .aborts, .zones, .units, .media, .staged, .jobs,
      .cores, .hamlets, .disp, .dram, .loft, .health, .life, .act]) (exec_leaves _ s t h)
  | commandDeferredStart =>
    refine eq_graft (P := [.free, .out, .rdma, .ledger, .bell, .net, .fns, .sqs, .cqs, .sems, .due, .aborts, .holds,
      .cursors, .zones, .units, .rand, .media, .staged, .jobs, .cores, .hamlets, .disp, .sieve, .dram, .loft, .health,
      .events, .eventSeq, .clk, .pwr, .life, .act]) ?_
    exact exec_leaves _ s t h
  | _ => trivial

/-- Settles O4: a next state is the state with the parts of the command taken from it. -/
theorem eventFrames : Obligations.EventFrames := by
  intro s t i h
  cases i with
  | ccRateUpdate | cnpArrival =>
    exact eq_graft (P := [.fns]) (exec_leaves _ s t h)
  | detourApply =>
    exact eq_graft (P := [.dram]) (exec_leaves _ s t h)
  | dieOpOverrun =>
    exact eq_graft (P := [.bell]) (exec_leaves _ s t h)
  | eraseComplete | channelRecentre | channelRetrainRetry | checkpointBegin | patrolRead | retentionScan =>
    exact eq_graft (P := [.media]) (exec_leaves _ s t h)
  | jobTimeLimit | gateContextPause =>
    exact eq_graft (P := [.jobs]) (exec_leaves _ s t h)
  | productLand | loadComplete =>
    exact eq_graft (P := [.cores]) (exec_leaves _ s t h)
  | ptpDelayResp =>
    exact eq_graft (P := [.clk]) (exec_leaves _ s t h)
  | q3Entry | wake | internalWake | lampReq =>
    exact eq_graft (P := [.pwr]) (exec_leaves _ s t h)
  | quantumAssignment =>
    exact eq_graft (P := [.disp]) (exec_leaves _ s t h)
  | semBreakable =>
    exact eq_graft (P := [.sems]) (exec_leaves _ s t h)
  | sieveRowRetired =>
    exact eq_graft (P := [.sieve]) (exec_leaves _ s t h)
  | smbusAlertResponse =>
    exact eq_graft (P := [.out]) (exec_leaves _ s t h)
  | stagingDrain | ringDoze =>
    exact eq_graft (P := [.sqs]) (exec_leaves _ s t h)
  | ackTimeout =>
    exact eq_graft (P := [.out, .fns]) (exec_leaves _ s t h)
  | ceMarkedPacket =>
    exact eq_graft (P := [.out, .net]) (exec_leaves _ s t h)
  | checkpointComplete | idleHoldExpiry =>
    exact eq_graft (P := [.media, .pwr]) (exec_leaves _ s t h)
  | heartbeat =>
    exact eq_graft (P := [.loft, .pwr]) (exec_leaves _ s t h)
  | loftEraseAbort =>
    exact eq_graft (P := [.free, .loft]) (exec_leaves _ s t h)
  | pauseFrame | frameDiscard | ptpAnnounce | nextHopResolution =>
    exact eq_graft (P := [.portA, .portB]) (exec_leaves _ s t h)
  | ptpSourceReturn =>
    exact eq_graft (P := [.net, .clk]) (exec_leaves _ s t h)
  | relocationCommit =>
    exact eq_graft (P := [.media, .dram]) (exec_leaves _ s t h)
  | scrubComplete =>
    exact eq_graft (P := [.dram, .edc]) (exec_leaves _ s t h)
  | smbusRead =>
    exact eq_graft (P := [.out, .smbOff]) (exec_leaves _ s t h)
  | storeComplete =>
    exact eq_graft (P := [.jobs, .cores]) (exec_leaves _ s t h)
  | suspendResponse =>
    exact eq_graft (P := [.bell, .media]) (exec_leaves _ s t h)
  | tapDbgChal | tapExtest | tapSamplePreload | tapBypass =>
    exact eq_graft (P := [.out, .tap]) (exec_leaves _ s t h)
  | temperatureClear =>
    exact eq_graft (P := [.health, .pwr]) (exec_leaves _ s t h)
  | watermarkBatch =>
    exact eq_graft (P := [.bell, .dram]) (exec_leaves _ s t h)
  | cmDreq =>
    exact eq_graft (P := [.out, .net, .fns]) (exec_leaves _ s t h)
  | notifyDeadline =>
    exact eq_graft (P := [.out, .rdma, .cqs]) (exec_leaves _ s t h)
  | outputPause =>
    exact eq_graft (P := [.out, .rdma, .jobs]) (exec_leaves _ s t h)
  | pfcFrame | arpRequest | neighborSolicitation | icmpEchoRequest =>
    exact eq_graft (P := [.out, .portA, .portB]) (exec_leaves _ s t h)
  | quantumEnd | slotFill | itemStart =>
    exact eq_graft (P := [.cores, .hamlets, .disp]) (exec_leaves _ s t h)
  | scrubPass =>
    exact eq_graft (P := [.jobs, .dram, .edc]) (exec_leaves _ s t h)
  | smbusSetOffset =>
    exact eq_graft (P := [.out, .err, .smbOff]) (exec_leaves _ s t h)
  | tapDbgToken =>
    exact eq_graft (P := [.out, .life, .tap]) (exec_leaves _ s t h)
  | tapIdcode =>
    exact eq_graft (P := [.free, .out, .tap]) (exec_leaves _ s t h)
  | cmReq =>
    exact eq_graft (P := [.out, .portA, .portB, .fns]) (exec_leaves _ s t h)
  | doorbellPollIssue =>
    exact eq_graft (P := [.out, .rdma, .bell, .fns]) (exec_leaves _ s t h)
  | ptpSyncLoss =>
    exact eq_graft (P := [.portA, .portB, .net, .clk]) (exec_leaves _ s t h)
  | batchPost =>
    exact eq_graft (P := [.out, .rdma, .jobs, .hamlets, .disp]) (exec_leaves _ s t h)
  | headWordResponse | dataReadResponse | cmRtu =>
    exact eq_graft (P := [.out, .rdma, .fns, .sqs, .cqs]) (exec_leaves _ s t h)
  | jobLoaded =>
    exact eq_graft (P := [.ledger, .sqs, .jobs, .hamlets, .disp]) (exec_leaves _ s t h)
  | knock =>
    exact eq_graft (P := [.portA, .portB, .net, .fns, .pwr]) (exec_leaves _ s t h)
  | parkingComplete =>
    exact eq_graft (P := [.zones, .media, .staged, .dram, .pwr]) (exec_leaves _ s t h)
  | doorbellPollResponse =>
    exact eq_graft (P := [.out, .rdma, .fns, .sqs, .cqs, .pwr]) (exec_leaves _ s t h)
  | failover =>
    exact eq_graft (P := [.out, .rdma, .net, .fns, .sqs, .cqs]) (exec_leaves _ s t h)
  | loftPatrol =>
    exact eq_graft (P := [.out, .rdma, .bell, .loft, .events, .eventSeq]) (exec_leaves _ s t h)
  | chainedListResponse | parameterBlockResponse | drainEnd =>
    exact eq_graft (P := [.out, .rdma, .fns, .sqs, .cqs, .aborts, .zones]) (exec_leaves _ s t h)
  | channelFault | channelRetrainBegin =>
    exact eq_graft (P := [.out, .rdma, .bell, .media, .loft, .events, .eventSeq]) (exec_leaves _ s t h)
  | healthEvaluation =>
    exact eq_graft (P := [.out, .rdma, .bell, .loft, .health, .events, .eventSeq]) (exec_leaves _ s t h)
  | rankRecentre | rankMigrationComplete =>
    exact eq_graft (P := [.out, .rdma, .bell, .dram, .loft, .events, .eventSeq]) (exec_leaves _ s t h)
  | sieveChecker =>
    exact eq_graft (P := [.out, .rdma, .bell, .sieve, .loft, .events, .eventSeq]) (exec_leaves _ s t h)
  | blockGroupPass =>
    exact eq_graft (P := [.out, .rdma, .bell, .media, .dram, .loft, .events, .eventSeq]) (exec_leaves _ s t h)
  | capacitanceMeasurement | temperature =>
    exact eq_graft (P := [.out, .rdma, .bell, .loft, .health, .events, .eventSeq, .pwr]) (exec_leaves _ s t h)
  | completionAck =>
    exact eq_graft (P := [.out, .rdma, .fns, .sqs, .cqs, .aborts, .zones, .jobs]) (exec_leaves _ s t h)
  | loftWordProgram | loftSectorErase =>
    exact eq_graft (P := [.free, .out, .rdma, .bell, .loft, .events, .eventSeq, .life]) (exec_leaves _ s t h)
  | remirror =>
    exact eq_graft (P := [.out, .rdma, .bell, .fns, .dram, .loft, .events, .eventSeq]) (exec_leaves _ s t h)
  | unsupportedRequestNak | qpRetryExhausted | rnrNak =>
    exact eq_graft (P := [.out, .rdma, .bell, .net, .fns, .loft, .events, .eventSeq]) (exec_leaves _ s t h)
  | entryFetchResponse =>
    exact eq_graft (P := [.out, .rdma, .fns, .sqs, .cqs, .aborts, .zones, .jobOrder, .pwr]) (exec_leaves _ s t h)
  | pfcWatchdog | opticsInsert | opticsRemove | linkFault | downRetry =>
    exact eq_graft (P := [.out, .rdma, .bell, .portA, .portB, .net, .loft, .events, .eventSeq]) (exec_leaves _ s t h)
  | programFailure | eraseFailure | dieNoResponse | channelRetrainResult | relocation =>
    exact eq_graft (P := [.out, .rdma, .bell, .media, .staged, .dram, .loft, .events, .eventSeq]) (exec_leaves _ s t h)
  | ptpSync =>
    exact eq_graft (P := [.out, .rdma, .bell, .portA, .portB, .loft, .events, .eventSeq, .clk]) (exec_leaves _ s t h)
  | heldSlotRelease =>
    exact eq_graft (P := [.out, .rdma, .bell, .units, .media, .staged, .dram, .loft, .events, .eventSeq]) (exec_leaves _ s t
      h)
  | randomAreaReclaim =>
    exact eq_graft (P := [.out, .rdma, .bell, .rand, .media, .staged, .dram, .loft, .events, .eventSeq]) (exec_leaves _ s t
      h)
  | semCompareAndSwap =>
    exact eq_graft (P := [.out, .rdma, .ledger, .bell, .net, .fns, .sems, .loft, .events, .eventSeq]) (exec_leaves _ s t h)
  | internalTimeout =>
    exact eq_graft (P := [.out, .rdma, .bell, .sqs, .cqs, .aborts, .zones, .media, .loft, .events, .eventSeq]) (exec_leaves
      _ s t h)
  | svlComplete =>
    exact eq_graft (P := [.free, .out, .rdma, .bell, .jobs, .cores, .disp, .sieve, .loft, .events, .eventSeq]) (exec_leaves
      _ s t h)
  | programComplete | dumpPlan =>
    exact eq_graft (P := [.out, .rdma, .bell, .rand, .media, .staged, .dram, .loft, .health, .events, .eventSeq, .pwr])
      (exec_leaves _ s t h)
  | requestComplete =>
    exact eq_graft (P := [.free, .ledger, .fns, .zones, .units, .media, .staged, .jobs, .cores, .disp, .dram, .health])
      (exec_leaves _ s t h)
  | trainingAttemptEnd =>
    exact eq_graft (P := [.out, .rdma, .bell, .portA, .portB, .net, .fns, .sqs, .cqs, .loft, .events, .eventSeq])
      (exec_leaves _ s t h)
  | wakeComplete =>
    exact eq_graft (P := [.out, .rdma, .bell, .sqs, .cqs, .aborts, .zones, .media, .loft, .events, .eventSeq, .pwr])
      (exec_leaves _ s t h)
  | activationHandover =>
    exact eq_graft (P := [.out, .rdma, .ledger, .bell, .boot, .sqs, .cqs, .aborts, .zones, .loft, .events, .eventSeq, .life,
      .act]) (exec_leaves _ s t h)
  | jobLoadStart | jobStop | jobComplete | outputAppend | coreRetire | coreSelfTest | dmaComplete =>
    exact eq_graft (P := [.out, .rdma, .ledger, .bell, .fns, .sqs, .cqs, .aborts, .zones, .units, .media, .staged, .jobs,
      .cores, .hamlets, .disp, .dram, .health]) (exec_leaves _ s t h)
  | add | sub | and_ | or_ | xor | andn | sll | srl | sra | ror | seq | sne | slt | sltu | min | max | minu | maxu | clz | ctz
  | popc | bswap | addi | andi | ori | xori | slti | sltiu | slli | srli | srai | cati | crc32cB | crc32cH | crc32cW | crc32cD
  | beq | bne | blt | bge | bltu | bgeu | j | call | jalr | ld | st | ldq | stq | atomCas | atomSwap | atomFadd | adda | addar
  | mva | mvm | mfa | mfm | dma | vadd | vsub | vadds | vsubs | vaddus | vsubus | vmin | vmax | vminu | vmaxu | vceq | vcgt
  | vcgtu | vsll | vsrl | vsra | vand | vor | vxor | vandn | vsel | vshuf | vbcast | vins | vext | vsum | vmov | mul | mulu
  | mac | macu | vmul | vmac | clmul | clmac | gfmul | gfmac | gfmuls | gfmacs | mtp | mtpg | mfp | mfpl | mfph | loop | loopi
  | lbrk | done | fence | trap | post | req | emit | svl | waitd | waitr | mfsr | mtsr =>
    exact eq_graft (P := issueParts) (exec_leaves _ s t h)
  | commandCommit =>
    exact eq_graft (P := [.free, .out, .rdma, .ledger, .bell, .fns, .sqs, .cqs, .aborts, .zones, .units, .rand, .media,
      .staged, .dram, .loft, .health, .events, .eventSeq, .life]) (exec_leaves _ s t h)
  | portEnable | portRetrain | setupWrite | setupErrClear | qpToInit | qpToRtr | qpToRts | qpToReset | adminRingWrite
  | sveModeWrite | sveOwnerWrite | trcDispCtrlWrite | scrubGo | alertClear | locate | smbusWrite =>
    exact eq_graft (P := [.out, .rdma, .bell, .err, .portA, .portB, .net, .fns, .sqs, .cqs, .sems, .disp, .sieve, .edc,
      .loft, .health, .events, .eventSeq, .clk, .pwr]) (exec_leaves _ s t h)
  | jobLoadTimeout =>
    exact eq_graft (P := [.out, .rdma, .ledger, .bell, .fns, .sqs, .cqs, .aborts, .zones, .units, .media, .staged, .jobs,
      .cores, .hamlets, .disp, .dram, .loft, .health, .events, .eventSeq]) (exec_leaves _ s t h)
  | dramUncorrectable | remap | rankRetrainResult | rankMigrationStart | dramChannelLoss =>
    exact eq_graft (P := [.free, .out, .rdma, .ledger, .bell, .fns, .sqs, .cqs, .aborts, .zones, .units, .media, .staged,
      .jobs, .cores, .hamlets, .disp, .dram, .loft, .health, .events, .eventSeq]) (exec_leaves _ s t h)
  | planClose | readPoint | suspendLate | arrayReadComplete | rebuildWordLine =>
    exact eq_graft (P := [.out, .rdma, .ledger, .bell, .fns, .sqs, .cqs, .aborts, .zones, .units, .media, .staged, .jobs,
      .cores, .hamlets, .disp, .sieve, .dram, .loft, .health, .events, .eventSeq]) (exec_leaves _ s t h)
  | remoteNak =>
    exact eq_graft (P := [.out, .rdma, .ledger, .bell, .net, .fns, .sqs, .cqs, .aborts, .zones, .units, .media, .staged,
      .jobs, .cores, .hamlets, .disp, .dram, .loft, .health, .events, .eventSeq]) (exec_leaves _ s t h)
  | bellBoundary =>
    exact eq_graft (P := [.out, .rdma, .bell, .portA, .portB, .net, .fns, .sqs, .cqs, .due, .aborts, .holds, .zones, .media,
      .cores, .hamlets, .disp, .sieve, .dram, .loft, .health, .events, .eventSeq, .pwr]) (exec_leaves _ s t h)
  | inputFail | inputOvervoltageOrBreaker | thermalShutdown | pwrDisableAssert =>
    refine eq_graft (P := [.free, .out, .rdma, .ledger, .bell, .boot, .portA, .portB, .net, .fns, .sqs, .due, .aborts,
      .zones, .units, .media, .staged, .jobs, .cores, .hamlets, .disp, .dram, .loft, .health, .events, .eventSeq, .clk,
      .pwr, .life, .act]) ?_
    exact exec_leaves _ s t h
  | programSlotEnd =>
    refine eq_graft (P := [.free, .out, .rdma, .ledger, .bell, .boot, .portA, .portB, .net, .fns, .sqs, .due, .aborts,
      .zones, .units, .rand, .media, .staged, .jobs, .cores, .hamlets, .disp, .dram, .loft, .health, .events, .eventSeq,
      .clk, .pwr, .life, .act]) ?_
    exact exec_leaves _ s t h
  | _ => trivial
end Sys2Proof.Machine
end

section
/-! SUPPORT. The fuses: what every command does to the life-cycle state (R538, R539, R544, R550). -/

namespace Sys2Proof.Machine
variable {P Q : List Part} {s t : State}
/-! ### The life-cycle counters -/

/-- Every part but the life-cycle state. -/
abbrev butLife : List Part :=
  [.pending, .free, .out, .rdma, .ledger, .bell, .err, .boot, .portA, .portB, .net, .fns, .sqs, .cqs, .sems, .due, .aborts, .holds,
    .cursors, .zones, .units, .rand, .media, .staged, .jobs, .jobOrder, .cores, .hamlets, .disp, .sieve, .dram, .edc, .loft,
    .health, .events, .eventSeq, .clk, .pwr, .tap, .smbOff, .act, .ctlCores, .ctlSpares]

/-- From `a` to `b` no fuse became intact again, and legal counters stayed legal. -/
def Life.ages (a b : Life) : Prop := a.burnt b ∧ (a.legal → b.legal)

theorem Life.ages_refl (a : Life) : a.ages a :=
  ⟨⟨Nat.le_refl _, Nat.le_refl _, Nat.le_refl _, Nat.le_refl _, id, rfl⟩, id⟩

theorem Life.ages_trans {a b c : Life} (hab : a.ages b) (hbc : b.ages c) : a.ages c := by
  obtain ⟨⟨h1, h2, h3, h4, h5, h6⟩, hl⟩ := hab
  obtain ⟨⟨g1, g2, g3, g4, g5, g6⟩, gl⟩ := hbc
  exact ⟨⟨h1.trans g1, h2.trans g2, h3.trans g3, h4.trans g4, g5 ∘ h5, g6.trans h6⟩, gl ∘ hl⟩

/-- Life-cycle state whose fuses and root hash stand and in which no media erase has begun has aged. -/
theorem Life.ages_of_fuses {a b : Life} (hf : b.fuses = a.fuses) (hr : b.root = a.root)
    (he : b.erasing.isSome = true → a.erasing.isSome = true) : a.ages b := by
  have h1 : b.seals = a.seals := congrArg (·.1) hf
  have h2 : b.returns = a.returns := congrArg (·.2.1) hf
  have h3 : b.refurbs = a.refurbs := congrArg (·.2.2.1) hf
  have h4 : b.scrap = a.scrap := congrArg (·.2.2.2.1) hf
  have h5 : b.floor = a.floor := congrArg (·.2.2.2.2) hf
  refine ⟨⟨h1.ge, h2.ge, h3.ge, h5.ge, fun h => h4.trans h, hr⟩, fun hl => ?_⟩
  obtain ⟨hc, hx⟩ := hl
  unfold Life.legal
  rw [h1, h2, h3, h4]
  exact ⟨hc, hx ∘ he⟩

/-- The life-cycle state of `t` is that of `s`, or aged. -/
structure State.Aged (s t : State) : Prop where
  ages : s.life.ages t.life

theorem State.Aged.trans {a b c : State} (hab : a.Aged b) (hbc : b.Aged c) : a.Aged c := ⟨Life.ages_trans hab.ages hbc.ages⟩

theorem aged_of_life (h : t.life = s.life) : s.Aged t := ⟨h ▸ Life.ages_refl _⟩

theorem aged_refl (s : State) : s.Aged s := aged_of_life rfl

theorem aged_of_mask (e : t.mask butLife = s.mask butLife) : s.Aged t := aged_of_life (life_of_mask (by decide) e)

theorem aged_of_ite {c : Prop} [Decidable c] {a b : State} (ha : s.Aged a) (hb : s.Aged b) : s.Aged (if c then a else b) := by
  split
  · exact ha
  · exact hb

/-- What an operation that leaves the life-cycle state alone adds to one that ages it. -/
theorem State.Aged.then_mask {u : State} (h : s.Aged t) (e : u.mask butLife = t.mask butLife) : s.Aged u :=
  h.trans (aged_of_mask e)

/-- An update of the life-cycle state under which the fuses stand, after an operation that leaves it alone. -/
theorem aged_of_setLife {l : Life} (e : t.life = l) (hf : l.fuses = s.life.fuses) (hr : l.root = s.life.root)
    (he : l.erasing.isSome = true → s.life.erasing.isSome = true) : s.Aged t := ⟨e ▸ Life.ages_of_fuses hf hr he⟩

theorem dropTask_aged (r : Ref) : s.Aged (s.dropTask r) := by
  have hlife : (s.dropTask r).life = if s.life.erasing = some r then { s.life with erasing := none } else s.life := by
    unfold State.dropTask
    split <;> rfl
  by_cases h : s.life.erasing = some r
  · exact aged_of_setLife (hlife.trans (if_pos h)) rfl rfl fun h => by simp at h
  · exact aged_of_life (hlife.trans (if_neg h))

theorem abortNow_aged (r t : Ref) : s.Aged (s.abortNow r t) := by
  unfold State.abortNow
  refine .then_mask (.trans (aged_of_mask ?_) (dropTask_aged t)) ((goOn_mask (by decide) ..).trans (complete_mask (by decide) ..))
  refine (dropJobOf_mask (by decide) t).trans ((dropWork_mask (by decide) t).trans ?_)
  exact (mask_aborts (by decide) _).trans ((setCmd_mask (by decide) r _).trans ((mask_ledger (by decide) _).trans
    (begin__mask (by decide) ..)))

theorem rejudge_aged (k : Nat) : s.Aged (s.rejudge k) := by
  unfold State.rejudge
  split
  · exact aged_of_mask (setLoft_mask (by decide) _)
  · split
    · exact aged_of_mask (setLoft_mask (by decide) _)
    · split
      · exact aged_of_setLife rfl rfl rfl id
      · exact aged_refl _

theorem programWord_aged (k w v) : s.Aged (s.programWord k w v) := by
  unfold State.programWord
  refine .trans (aged_of_mask ?_) (rejudge_aged k)
  dsimp only
  refine mask_of_ite ((loftEnds_mask (by decide) _).trans (setLoft_mask (by decide) _)) (mask_of_ite ?_ ?_)
  · exact (loftRemap_mask (by decide) _).trans ((loftEnds_mask (by decide) _).trans (setLoft_mask (by decide) _))
  · exact (loftEnds_mask (by decide) _).trans (setLoft_mask (by decide) _)

theorem takeIndex_aged : s.Aged s.takeIndex.2 := by
  have htake : s.Aged { s with life := { s.life with attNext := s.life.attNext + 1024, attLeft := 1023 } } :=
    aged_of_setLife rfl rfl rfl id
  unfold State.takeIndex
  dsimp only
  split
  · exact htake.then_mask (loftRecord_mask (by decide) ..)
  · exact aged_of_setLife rfl rfl rfl id

theorem govern_aged {r fails} {k : State → State} (hk : ∀ x : State, x.Aged (k x)) : s.Aged (s.govern r fails k) := by
  unfold State.govern
  split
  · exact aged_of_mask ((fail_mask (by decide) ..).trans (begin__mask (by decide) ..))
  · refine .trans (aged_of_mask ?_) (hk _)
    exact (setCmd_mask (by decide) ..).trans ((mask_ledger (by decide) _).trans (begin__mask (by decide) ..))

theorem doAttest_aged (r c) : s.Aged (s.doAttest r c) := by
  unfold State.doAttest
  split
  · exact aged_refl _
  · refine govern_aged fun x => ?_
    have hat : ∀ y : State, y.Aged { y with life := { y.life with attAt := y.reportsNow ++ [y.bell.now] } } :=
      fun y => aged_of_setLife rfl rfl rfl id
    exact (takeIndex_aged.trans (hat _)).then_mask ((ended_mask (by decide) ..).trans (sendOut_mask (by decide) ..))

theorem stopServing_aged : s.Aged s.stopServing := by
  have hlife : s.stopServing.life = { s.life with erasing := none } := by
    unfold State.stopServing
    dsimp only
    rw [life_of_mask (P := butLife) (by decide) ((dropReads_mask (by decide) _).trans ((movePort_mask (by decide) ..).trans
      ((movePort_mask (by decide) ..).trans ((abortErases_mask (by decide)).trans (dropJobs_mask (by decide))))))]
  exact aged_of_setLife hlife rfl rfl fun h => by simp at h

theorem powerOff_aged : s.Aged s.powerOff := by
  unfold State.powerOff
  exact stopServing_aged.then_mask ((mask_boot_health_pwr (by decide) ..).trans (stopBells_mask (by decide)))

theorem beginLoss_aged (standby cut) : s.Aged (s.beginLoss standby cut) := by
  unfold State.beginLoss
  split
  · exact aged_refl _
  · split
    · exact powerOff_aged
    · exact stopServing_aged.then_mask ((setPwr_mask (by decide) _).trans (shutdownRecord_mask (by decide)))

theorem endLoss_aged (l) : s.Aged (s.endLoss l) :=
  (aged_of_mask ((loseDram_mask (by decide)).trans (setDump_mask (by decide) _))).trans powerOff_aged

theorem disconnect_aged (cause) : s.Aged (s.disconnect cause) :=
  (aged_of_mask ((setPwr_mask (by decide) _).trans ((mask_boot (by decide) _).trans (loftRecord_mask (by decide) ..)))).trans
    (beginLoss_aged ..)

theorem clearBoot_aged (cold) : s.Aged (s.clearBoot cold) := by
  have hbase : ((((s.bootCores.bootRings).bootMedia cold).bootDram cold).bootEvents cold).life = s.life :=
    life_of_mask (P := butLife) (by decide) ((bootEvents_mask (by decide) _).trans ((bootDram_mask (by decide) _).trans
      ((bootMedia_mask (by decide) _).trans ((bootRings_mask (by decide)).trans (bootCores_mask (by decide))))))
  unfold State.clearBoot
  refine .then_mask ?_ ((sampleTelem_mask (by decide)).trans (stamp_mask (by decide)))
  refine aged_of_setLife rfl ?_ ?_ fun h => by simp at h
  · have h := congrArg Life.fuses hbase
    exact h
  · have h := congrArg Life.root hbase
    exact h

theorem boot_aged (cold) (e) : s.Aged (if (s.clearBoot cold).pwr.reset
    then { s.clearBoot cold with boot := { (s.clearBoot cold).boot with held := true } } else (s.clearBoot cold).runBoot e) :=
  (clearBoot_aged cold).then_mask (mask_of_ite (mask_boot (by decide) _) (runBoot_mask (by decide) _))

theorem bootCold_aged (e) : s.Aged (s.bootCold e) := by
  unfold State.bootCold
  exact (aged_of_mask (mask_clk (by decide) _)).trans (boot_aged ..)

theorem moduleReset_aged (e) : s.Aged (s.moduleReset e) := by
  unfold State.moduleReset
  exact (aged_of_mask ((mask_clk (by decide) _).trans (resetBegins_mask (by decide)))).trans (boot_aged ..)

theorem commitDownload_aged (r c) : s.Aged (s.commitDownload r c) := by
  unfold State.commitDownload
  split
  · exact aged_refl _
  · refine .then_mask (.trans (aged_of_mask (downloadAll_mask (by decide) (le c.entry 12 4 / 4096) s (s.downloadBase c) c.data)) (rejudge_aged (s.downloadBase c))) ?_
    exact mask_of_ite (succeed_mask (by decide) ..) (fail_mask (by decide) ..)

theorem closeActivation_aged (r) : s.Aged (s.closeActivation r) := by
  unfold State.closeActivation
  refine .then_mask ⟨?_, ?_⟩ ((succeed_mask (by decide) ..).trans (firmwareEvent_mask (by decide) ..))
  · exact ⟨Nat.le_refl _, Nat.le_refl _, Nat.le_refl _, Nat.le_max_left _ _, id, rfl⟩
  · exact id

/-- The commit of a transition puts its counters in place of the present ones. -/
theorem commitLife_aged (r) {l : Life} (h : s.life.ages l) : s.Aged (s.commitLife r l) := by
  unfold State.commitLife
  exact (show s.Aged { s.commit.2 with life := l } from ⟨h⟩).then_mask
    ((complete_mask (by decide) ..).trans (loftRecord_mask (by decide) ..))

/-- Cause 0 of a life-cycle token says that Table 21.2 permits its transition (Table 21.4). -/
theorem permits_of_tokenCause {b : Bytes} (h : s.tokenCause false b = 0) : s.life.permits (byteAt b 5) = true := by
  unfold State.tokenCause at h
  dsimp only at h
  repeat' split at h
  all_goals simp_all

theorem counters_of_factory {l : Life} (h : l.state = .factory) : l.seals = l.returns ∧ l.returns = l.refurbs := by
  unfold Life.state at h
  repeat' split at h
  all_goals simp_all

theorem counters_of_sealed {l : Life} (h : l.state = .sealed_) : l.seals = l.returns + 1 ∧ l.returns = l.refurbs := by
  unfold Life.state at h
  repeat' split at h
  all_goals simp_all

theorem counters_of_return {l : Life} (h : l.state = .return_) :
    l.seals = l.returns ∧ l.returns = l.refurbs + 1 ∧ l.scrap = false := by
  unfold Life.state at h
  repeat' split at h
  all_goals simp_all

/-- The counters where Table 21.2 permits a transition. -/
theorem counters_of_permits {l : Life} {t : Nat} (hp : l.permits t = true) :
    (t = 1 ∧ l.seals = l.returns ∧ l.returns = l.refurbs) ∨ (t = 2 ∧ l.seals = l.returns + 1 ∧ l.returns = l.refurbs) ∨
      (t = 3 ∧ l.seals = l.returns ∧ l.returns = l.refurbs + 1 ∧ l.scrap = false) ∨ t = 4 := by
  unfold Life.permits at hp
  split at hp
  next h =>
    have hc := counters_of_factory h
    simp only [Bool.or_eq_true, decide_eq_true_eq, Bool.and_eq_true] at hp
    tauto
  next h =>
    have hc := counters_of_sealed h
    simp only [Bool.or_eq_true, decide_eq_true_eq] at hp
    tauto
  next h =>
    have hc := counters_of_return h
    simp only [Bool.or_eq_true, decide_eq_true_eq] at hp
    tauto
  next => cases hp

/-- A transition that Table 21.2 permits, with no media erase running, keeps legal counters legal. -/
theorem transition_aged (r t e) (hp : s.life.permits t = true) (h : s.life.erasing.isSome = false) : s.Aged (s.transition r t e) := by
  have hat : s.Aged (s.atPoint r .decided) := aged_of_mask (atPoint_mask (by decide) ..)
  have hlife : (s.atPoint r .decided).life = s.life := life_of_mask (P := butLife) (by decide) (atPoint_mask (by decide) ..)
  have hcommit : ∀ l : Life, s.life.ages l → s.Aged ((s.atPoint r .decided).commitLife r l) :=
    fun l hl => hat.trans (commitLife_aged r (hlife.symm ▸ hl))
  have hnot : ∀ {p : Prop}, s.life.erasing.isSome = true → p := fun hs => absurd hs (by simp [h])
  rcases counters_of_permits hp with ⟨rfl, h1, h2⟩ | ⟨rfl, h1, h2⟩ | ⟨rfl, h1, h2, h3⟩ | rfl
  · refine (hcommit { s.life with seals := s.life.seals + 1 } ⟨?_, fun _ => ⟨?_, hnot⟩⟩).trans (moduleReset_aged e)
    · exact ⟨Nat.le_succ _, Nat.le_refl _, Nat.le_refl _, Nat.le_refl _, id, rfl⟩
    · exact .inr (.inl ⟨by rw [h1], h2⟩)
  · refine (hcommit { s.life with returns := s.life.returns + 1 } ⟨?_, fun _ => ⟨?_, hnot⟩⟩).trans (moduleReset_aged e)
    · exact ⟨Nat.le_refl _, Nat.le_succ _, Nat.le_refl _, Nat.le_refl _, id, rfl⟩
    · exact .inr (.inr ⟨h1, by rw [h2]⟩)
  · refine ⟨⟨Nat.le_refl _, Nat.le_refl _, Nat.le_refl _, Nat.le_refl _, id, rfl⟩, fun hl => ⟨hl.1, fun _ => ⟨h1, h2, h3⟩⟩⟩
  · refine (hcommit { s.life with scrap := true } ⟨?_, fun hl => ⟨hl.1, hnot⟩⟩).then_mask (scrapped_mask (by decide))
    exact ⟨Nat.le_refl _, Nat.le_refl _, Nat.le_refl _, Nat.le_refl _, fun _ => rfl, rfl⟩

theorem tryTransition_aged (r c e) : s.Aged (s.tryTransition r c e) := by
  unfold State.tryTransition
  split
  · exact aged_refl _
  · next h =>
    dsimp only
    split
    · next hn => exact transition_aged _ _ _ (permits_of_tokenCause hn) (Bool.eq_false_iff.mpr h)
    · exact aged_of_mask (complete_mask (by decide) ..)

/-! ### Rows -/

/-- Whatever a row answers, its life-cycle state has aged. -/
def Ages (s : State) (o : Res') : Prop := ∀ t, o = .next t → s.Aged t

theorem ages_next (h : s.Aged t) : Ages s (.next t) := fun _ e => by cases e; exact h
theorem ages_of_ite {c : Prop} [Decidable c] {x y : Res'} (hx : Ages s x) (hy : Ages s y) : Ages s (if c then x else y) := by
  split
  · exact hx
  · exact hy

theorem ages_fault {e : Fault} : Ages s (.fault e) := fun _ h => nomatch h
theorem Leaves.ages {o : Res'} (hl : Leaves P s o) (h : .life ∉ P) : Ages s o := fun _ e => aged_of_life (life_of_mask h (hl _ e))

theorem start_ages {r op} {k : Cmd → State} (hk : ∀ c, s.Aged (k c)) : Ages s (s.start r op k) := by
  unfold State.start
  split
  · exact ages_next ((hk _).then_mask (settle_mask (by decide) _))
  · split
    · split
      · exact ages_next (aged_of_mask (settle_mask (by decide) _))
      · exact ages_next (aged_refl _)
    · exact ages_next (aged_refl _)

theorem execAbort_ages (r) : Ages s (execAbort r s) := by
  refine start_ages fun c => ?_
  split
  · exact aged_of_mask (fail_mask (by decide) ..)
  · split
    · exact aged_of_mask (complete_mask (by decide) ..)
    · split
      · exact aged_of_mask (complete_mask (by decide) ..)
      · exact aged_of_ite (aged_of_mask (abortLate_mask (by decide) ..)) (abortNow_aged ..)

theorem execAttest_ages (r) : Ages s (execAttest r s) := start_ages fun c => doAttest_aged r c

theorem execCommandCommit_ages (r) : Ages s (execCommandCommit r s) := by
  unfold execCommandCommit
  split
  · split
    · exact ages_next (aged_refl _)
    · split
      · exact ages_next ((commitDownload_aged ..).then_mask (goOn_mask (by decide) ..))
      · split
        · exact ages_next (aged_refl _)
        · split
          · exact ages_next (aged_of_mask ((goOn_mask (by decide) ..).trans (commitRandom_mask (by decide) ..)))
          · exact ages_next (aged_of_mask ((goOn_mask (by decide) ..).trans (commitZone_mask (by decide) ..)))
  · exact ages_next (aged_refl _)

theorem execActivationHandover_ages (ok) : Ages s (execActivationHandover ok s) := by
  unfold execActivationHandover
  split
  · split
    · exact ages_next (aged_of_mask (failActivation_mask (by decide) ..))
    · split
      · exact ages_next (closeActivation_aged _)
      · exact ages_next (aged_of_life rfl)
  · exact ages_next (aged_refl _)

theorem execModuleReset_ages (r e) : Ages s (execModuleReset r e s) := by
  unfold execModuleReset
  split
  · exact ages_fault
  · split
    · exact ages_next ((govern_aged fun x => aged_of_mask (ended_mask (by decide) ..)).trans (moduleReset_aged e))
    · exact ages_next (aged_refl _)

theorem execLifeCycleTransition_ages (r e) : Ages s (execLifeCycleTransition r e s) := by
  unfold execLifeCycleTransition
  split
  · exact ages_fault
  · split
    · exact ages_next (((aged_of_mask (begin__mask (by decide) ..)).trans (tryTransition_aged ..)).then_mask
        (settle_mask (by decide) _))
    · split
      · exact ages_next (tryTransition_aged ..)
      · exact ages_next (aged_refl _)
    · exact ages_next (aged_refl _)

/-- The end of the media erase blows REFURBS: legal counters stood in RETURN, and stand in FACTORY. -/
theorem execRefurbishEraseComplete_ages (bad e) : Ages s (execRefurbishEraseComplete bad e s) := by
  unfold execRefurbishEraseComplete
  split
  · exact ages_fault
  · split
    · next r he =>
      have hmask : ((s.mediaErased bad).atPoint r .decided).mask butLife = s.mask butLife :=
        (atPoint_mask (by decide) ..).trans (mediaErased_mask (by decide) _)
      have hlife := life_of_mask (by decide) hmask
      refine ages_next (((aged_of_mask hmask).trans (commitLife_aged r ?_)).then_mask (refurbished_mask (by decide)) |>.trans
        (moduleReset_aged e))
      rw [hlife]
      refine ⟨⟨Nat.le_refl _, Nat.le_refl _, Nat.le_succ _, Nat.le_refl _, id, rfl⟩, fun hl => ?_⟩
      obtain ⟨h1, h2, -⟩ := hl.2 (by simp [he])
      exact ⟨.inl ⟨h1, h2⟩, fun h => by simp at h⟩
    · exact ages_next (aged_refl _)

theorem execControlCoreRetire_ages (c e) : Ages s (execControlCoreRetire c e s) := by
  unfold execControlCoreRetire
  split
  · exact ages_fault
  · split
    · exact ages_next (aged_refl _)
    · split
      · exact ages_next (aged_of_mask ((event_mask (by decide) ..).trans (mask_ctlSpares (by decide) _)))
      · dsimp only
        split
        · exact ages_next ((aged_of_mask (mask_ctlCores (by decide) _)).trans (moduleReset_aged e))
        · exact ages_next (aged_of_life rfl)

theorem execLoftWordProgram_ages (k w v) : Ages s (execLoftWordProgram k w v s) := by
  unfold execLoftWordProgram
  split
  · exact ages_fault
  · split
    · exact ages_next (aged_refl _)
    · split
      · exact ages_next (aged_of_mask (loftEnds_mask (by decide) _))
      · split
        · exact ages_next (aged_of_mask (loftRefused_mask (by decide)))
        · exact ages_next (programWord_aged ..)

theorem eraseEnds_aged (k ok) : s.Aged (s.eraseEnds k ok) := by
  unfold State.eraseEnds
  refine .trans (aged_of_mask ?_) (rejudge_aged k)
  refine (flushLoft_mask (by decide)).trans ?_
  have hbusy : ∀ b : Bool, (if b then (s.setLoft fun l => { l with busy := del l.busy (loftBank k) }).setLoft fun l =>
      { l.forget k with eraseQ := l.eraseQ.filter (· ≠ k) } else s.setLoft fun l => { l with busy := del l.busy (loftBank k) }).mask
      butLife = s.mask butLife :=
    fun b => mask_of_ite ((setLoft_mask (by decide) _).trans (setLoft_mask (by decide) _)) (setLoft_mask (by decide) _)
  dsimp only
  refine mask_of_ite ?_ (mask_of_ite ?_ ?_)
  · exact (countErase_mask (by decide) _).trans ((loftEnds_mask (by decide) _).trans ((clearSector_mask (by decide) _).trans (hbusy _)))
  · exact (loftRemap_mask (by decide) _).trans ((countErase_mask (by decide) _).trans ((loftEnds_mask (by decide) _).trans
      ((tearSector_mask (by decide) _).trans (hbusy _))))
  · exact (clearSector_mask (by decide) _).trans ((loftRemap_mask (by decide) _).trans ((countErase_mask (by decide) _).trans
      ((loftEnds_mask (by decide) _).trans ((tearSector_mask (by decide) _).trans (hbusy _)))))

theorem execLoftSectorErase_ages (k ok) : Ages s (execLoftSectorErase k ok s) := by
  unfold execLoftSectorErase
  split
  · exact ages_fault
  · split
    · exact ages_next (aged_refl _)
    · split
      · split
        · exact ages_next (eraseEnds_aged ..)
        · exact ages_next (aged_of_mask (loftEnds_mask (by decide) _))
      · split
        · exact ages_next (aged_of_mask (loftRefused_mask (by decide)))
        · exact ages_next (aged_of_mask (setLoft_mask (by decide) _))

theorem execInputFail_ages : Ages s (execInputFail s) := by
  unfold execInputFail
  split
  · exact ages_next (beginLoss_aged ..)
  · exact ages_next (aged_of_mask (setPwr_mask (by decide) _))

theorem execProgramSlotEnd_ages : Ages s (execProgramSlotEnd s) := by
  unfold execProgramSlotEnd
  split
  · split
    · exact ages_next (aged_refl _)
    · dsimp only
      have hdies := settleDies_mask (s := s) (P := butLife) (by decide)
      have hhomes := homePrograms_mask (s := s) (P := butLife) (by decide)
      have hslot : ∀ (x : State) busy l, x.mask butLife = s.mask butLife → s.Aged (x.cellarSlot busy l).1 :=
        fun x busy l hx => aged_of_mask ((cellarSlot_mask (by decide) busy l).trans hx)
      exact ages_of_ite
        (ages_next ((hslot _ _ _ (mask_of_ite hdies (mask_of_ite hhomes rfl))).trans (endLoss_aged _)))
        (ages_next ((hslot _ _ _ (mask_of_ite hdies (mask_of_ite hhomes rfl))).then_mask (setPwr_mask (by decide) _)))
  · exact ages_next (aged_refl _)

theorem execInputOvervoltageOrBreaker_ages (b) : Ages s (execInputOvervoltageOrBreaker b s) := by
  unfold execInputOvervoltageOrBreaker
  exact ages_of_ite (ages_next (disconnect_aged _)) (ages_next (aged_refl _))

theorem execThermalShutdown_ages (j t) : Ages s (execThermalShutdown j t s) := by
  unfold execThermalShutdown
  refine ages_of_ite (ages_next (aged_refl _)) (ages_next (.trans (aged_of_mask ?_) (disconnect_aged _)))
  exact (mask_health (by decide) _).trans ((tempEvent_mask (by decide) ..).trans (setTemp_mask (by decide) ..))

theorem execPowerGood_ages (e) : Ages s (execPowerGood e s) := by
  unfold execPowerGood
  exact ages_of_ite ages_fault (ages_of_ite (ages_next (aged_refl _)) (ages_next (bootCold_aged e)))

theorem execResetAssert_ages (us e) : Ages s (execResetAssert us e s) := by
  unfold execResetAssert
  have hheld : s.Aged { s with pwr := { s.pwr with reset := true } } := aged_of_life rfl
  exact ages_of_ite ages_fault (ages_of_ite (ages_next (aged_refl _)) (ages_of_ite
    (ages_next (hheld.trans (moduleReset_aged e))) (ages_next hheld)))

theorem execPwrDisableAssert_ages (us) : Ages s (execPwrDisableAssert us s) := by
  unfold execPwrDisableAssert
  exact ages_of_ite (ages_next (aged_refl _)) (ages_next ((aged_of_mask (setPwr_mask (by decide) _)).trans (beginLoss_aged ..)))

theorem execPwrDisableRelease_ages (e) : Ages s (execPwrDisableRelease e s) := by
  unfold execPwrDisableRelease
  have hfree := fun f => aged_of_mask (setPwr_mask (s := s) (by decide) f)
  exact ages_of_ite ages_fault (ages_of_ite (ages_next (aged_refl _)) (ages_of_ite (ages_next (hfree _))
    (ages_next (((hfree _).then_mask (mask_clk (by decide) _)).trans (bootCold_aged e)))))

theorem execTapDbgToken_ages (b) : Ages s (execTapDbgToken b s) := by
  unfold execTapDbgToken
  refine ages_next ?_
  unfold State.tapOut
  refine aged_of_ite (.then_mask ?_ (tell_mask (by decide) _)) (aged_refl _)
  exact aged_of_setLife rfl rfl rfl id

theorem startByOp_ages (r op) : Ages s (s.startByOp r op) := by
  unfold State.startByOp
  split
  · exact (execRead_leaves r).ages (by decide)
  · exact (execWrite_leaves r).ages (by decide)
  · exact (execZoneAppend_leaves r).ages (by decide)
  · exact (execOpenZone_leaves r).ages (by decide)
  · exact (execCloseZone_leaves r).ages (by decide)
  · exact (execFinishZone_leaves r).ages (by decide)
  · exact (execResetZone_leaves r).ages (by decide)
  · exact (execReportZones_leaves r).ages (by decide)
  · exact (execRandomRead_leaves r).ages (by decide)
  · exact (execRandomWrite_leaves r).ages (by decide)
  · exact (execRandomTrim_leaves r).ages (by decide)
  · exact (execFlush_leaves r).ages (by decide)
  · exact execAbort_ages r
  · exact (execRestartRing_leaves r).ages (by decide)
  · exact (execScan_leaves r).ages (by decide)
  · exact (execRun_leaves r).ages (by decide)
  · exact (execSieveWrite_leaves r).ages (by decide)
  · exact (execSieveWritePair_leaves r).ages (by decide)
  · exact (execSieveLookup_leaves r).ages (by decide)
  · exact (execSieveStep_leaves r).ages (by decide)
  · exact (execSemAcquire_leaves r).ages (by decide)
  · exact (execSemRelease_leaves r).ages (by decide)
  · exact (execSemBreak_leaves r).ages (by decide)
  · exact (execSemRead_leaves r).ages (by decide)
  · exact (execGetLog_leaves r).ages (by decide)
  · exact (execCreateRing_leaves r).ages (by decide)
  · exact (execDeleteRing_leaves r).ages (by decide)
  · exact (execSetRingNotify_leaves r).ages (by decide)
  · exact (execSetLatencyTolerance_leaves r).ages (by decide)
  · exact (execAddFunction_leaves r).ages (by decide)
  · exact (execQuiesceFunction_leaves r).ages (by decide)
  · exact (execResumeFunction_leaves r).ages (by decide)
  · exact (execResetFunction_leaves r).ages (by decide)
  · exact (execRemoveFunction_leaves r).ages (by decide)
  · exact (execSetFunctionResources_leaves r).ages (by decide)
  · exact (execCreateHolding_leaves r).ages (by decide)
  · exact (execSetHolding_leaves r).ages (by decide)
  · exact (execAssignHolding_leaves r).ages (by decide)
  · exact (execDeleteHolding_leaves r).ages (by decide)
  · exact (execSetCalendar_leaves r).ages (by decide)
  · exact (execFirmwareDownload_leaves r).ages (by decide)
  · exact (execFirmwareActivate_leaves r).ages (by decide)
  · exact execAttest_ages r
  · exact ages_next (aged_refl _)

theorem execCommandDeferredStart_ages (r) : Ages s (execCommandDeferredStart r s) := by
  unfold execCommandDeferredStart
  split
  · exact startByOp_ages _ _
  · exact ages_next (aged_refl _)

/-- Every command ages the life-cycle state. -/
theorem exec_ages (i : Instr) (s : State) : Ages s (exec i s) := by
  by_cases h : Part.life ∈ partsOf i
  case neg => exact (exec_leaves i s).ages h
  cases i with
  | commandDeferredStart => exact execCommandDeferredStart_ages _
  | commandCommit => exact execCommandCommit_ages _
  | abort => exact execAbort_ages _
  | activationHandover => exact execActivationHandover_ages _
  | moduleReset => exact execModuleReset_ages _ _
  | lifeCycleTransition => exact execLifeCycleTransition_ages _ _
  | refurbishEraseComplete => exact execRefurbishEraseComplete_ages _ _
  | attest => exact execAttest_ages _
  | controlCoreRetire => exact execControlCoreRetire_ages _ _
  | loftWordProgram => exact execLoftWordProgram_ages _ _ _
  | loftSectorErase => exact execLoftSectorErase_ages _ _
  | inputFail => exact execInputFail_ages
  | programSlotEnd => exact execProgramSlotEnd_ages
  | inputOvervoltageOrBreaker b => exact execInputOvervoltageOrBreaker_ages b
  | thermalShutdown => exact execThermalShutdown_ages _ _
  | powerGood => exact execPowerGood_ages _
  | resetAssert => exact execResetAssert_ages _ _
  | pwrDisableAssert => exact execPwrDisableAssert_ages _
  | pwrDisableRelease => exact execPwrDisableRelease_ages _
  | tapDbgToken => exact execTapDbgToken_ages _
  | _ => exact absurd h (of_decide_eq_true rfl)

theorem step_aged (h : step s = .next t) : s.Aged t := by
  unfold step at h
  split at h
  · cases h
    exact aged_refl _
  · next c cs _ =>
    have hqueue : s.Aged { s with pending := cs } := aged_of_life rfl
    exact hqueue.trans (exec_ages _ _ _ h)

/-- Settles O7: every step ages the life-cycle state. -/
theorem lifeCycleStaysLegal : Obligations.LifeCycleStaysLegal := fun _ _ hl h => (step_aged h).ages.2 hl

/-- Settles O8: every step ages the life-cycle state. -/
theorem fusesNeverFall : Obligations.FusesNeverFall := fun _ _ h => (step_aged h).ages.1
end Sys2Proof.Machine
end

section
/-! Control transfer and hardware loops (R373, R374, R400, R411, R412; O13, O14). -/

namespace Sys2Proof.Machine

/-! ### Instructions that transfer control -/

section
variable {s t : State} {c : CoreId} {w : W32} {uses uses' : List (Bool × Nat)} {bad : Ctx → Bool} {f : Job → Ctx → Eff} {jb : Job}
  {x y : Ctx} {v : W64}

theorem Issues.next_of_jump {pc n : Nat} (hi : Issues s c w uses jb x) (hu : uses' ⊆ uses) (hb : bad x = false)
    (hf : f jb x = .jump y t pc n) (hin : (jb.fetch pc).isSome = true) :
    s.issueInstr c w bad uses' f = .next (t.setCtx (coreNo c) { y with pc := pc, cycle := y.cycle + n }) := by
  rw [hi.issueInstr_eq hu, if_neg (by simp [hb]), hf]
  exact congrArg _ (arrive_inCode hin ..)

/-- A word that is fetched stands at a word boundary (R377). -/
theorem aligned_of_fetch {pc : Nat} (h : (jb.fetch pc).isSome = true) : pc % 4 = 0 := by
  unfold Job.fetch at h
  split at h
  · simp_all
  · cases h

theorem transfer_inCode (hin : (jb.fetch v.toNat).isSome = true) (y : Ctx) : transfer jb y s v = .jump y s v.toNat 2 := by
  simp [transfer, aligned_of_fetch hin, hin]

/-- A branch, J, CALL or JALR to a place in the code arrives there two cycles later (R400). -/
theorem Issues.next_of_transfer (hi : Issues s c w uses jb x) (hu : uses' ⊆ uses) (hb : bad x = false) (hf : f jb x = transfer jb y s v)
    (hin : (jb.fetch v.toNat).isSome = true) :
    s.issueInstr c w bad uses' f = .next (s.setCtx (coreNo c) { y with pc := v.toNat, cycle := y.cycle + 2 }) :=
  hi.next_of_jump hu hb (hf.trans (transfer_inCode hin y)) hin

end

/-! ### Branches -/

/-- In `s`, `i` is a branch of major opcode `op` that is taken as `b` says. -/
def Branches (s : State) (c : CoreId) (rs1 rs2 : Reg) (disp : BitVec 16) (x : Ctx) (i : Instr) (op : Nat) (b : Bool) : Prop :=
  ∃ f : W64 → W64 → Bool, exec i s = s.branch c op f rs1 rs2 disp ∧ f (x.rg rs1.toNat) (x.rg rs2.toNat) = b

theorem branches_of_row {s : State} {c : CoreId} {rs1 rs2 : Reg} {disp : BitVec 16} {x : Ctx} {i : Instr} {op : Nat} {b : Bool}
    {f : W64 → W64 → Bool} (e : CoreId → Reg → Reg → BitVec 16 → State → Res') (he : exec i s = e c rs1 rs2 disp s)
    (hm : e c rs1 rs2 disp s = s.branch c op f rs1 rs2 disp) (hb : f (x.rg rs1.toNat) (x.rg rs2.toNat) = b) :
    Branches s c rs1 rs2 disp x i op b := ⟨f, he.trans hm, hb⟩

theorem not_slt_eq (a b : W64) : (!a.slt b) = decide (b.toInt ≤ a.toInt) := by
  rw [BitVec.slt_eq_decide, ← decide_not]
  simp

theorem not_ult_eq (a b : W64) : (!a.ult b) = decide (b.toNat ≤ a.toNat) := by
  rw [BitVec.ult_eq_decide, ← decide_not]
  simp

/-- Settles O13: every row is a transfer to its target, or goes on. -/
theorem controlTransfer : Obligations.ControlTransfer := by
  intro s c jb x hend pc arrives inCode
  refine ⟨?_, fun disp hi hin => ?_, fun disp hi hin => ?_, fun rd rs1 imm hi hin => ?_⟩
  · intro rs1 rs2 disp i op taken a b hrow hi t
    have hbranch : Branches s c rs1 rs2 disp x i op taken := by
      refine (List.forall_iff_forall_mem (p := fun e : Instr × Nat × Bool => Branches s c rs1 rs2 disp x e.1 e.2.1 e.2.2)).mp ?_ _ hrow
      exact ⟨branches_of_row execBeq rfl rfl rfl, branches_of_row execBne rfl rfl rfl,
        branches_of_row execBlt rfl rfl BitVec.slt_eq_decide, branches_of_row execBge rfl rfl (not_slt_eq a b),
        branches_of_row execBltu rfl rfl BitVec.ult_eq_decide, branches_of_row execBgeu rfl rfl (not_ult_eq a b)⟩
    obtain ⟨f, hexec, hf⟩ := hbranch
    rw [hexec]
    refine ⟨fun htaken hin => hi.next_of_transfer (List.Subset.refl _) hend ?_ hin,
      fun hnot hg => hi.next_of_on (List.Subset.refl _) hend ?_ hg⟩
    · rw [if_pos (hf.trans htaken)]
      rfl
    · rw [if_neg (by simp [hf, hnot])]
  · change execJ c disp s = _
    unfold execJ
    exact hi.next_of_transfer (List.Subset.refl _) hend rfl hin
  · change execCall c disp s = _
    unfold execCall
    exact hi.next_of_transfer (List.Subset.refl _) hend rfl hin
  · change execJalr c rd rs1 imm s = _
    unfold execJalr
    exact hi.next_of_transfer (List.Subset.refl _) hend rfl hin

/-! ### Loops -/

theorem badLoop_eq_false {fin : BitVec 16} {x : Ctx} (h0 : fin ≠ 0) (hm : fin.msb = false) (hd : x.ldepth < 4) (he : x.atEnd = false) :
    badLoop fin x = false := by
  have hd' : ¬x.ldepth ≥ 4 := by omega
  have h0' : ¬fin = 0#16 := h0
  simp [badLoop, h0', hm, hd', he]

/-- Level by level from the innermost: an LE elsewhere leaves the loops alone; at the LE of a level whose count is not yet 1 execution
returns to its LS; the outermost level closes with its last pass (R374). -/
theorem onward_of_depth {x : Ctx} {d : Nat} (hd : x.ldepth = d + 1) : x.onward x =
    if (lookD x.le 0 d).toNat ≠ x.pc then (x, x.pc + 4)
    else if lookD x.lc 0 d - 1 ≠ 0 then ({ x with lc := putD x.lc 0 d (lookD x.lc 0 d - 1) }, (lookD x.ls 0 d).toNat)
    else loopNext x d { x with lc := putD x.lc 0 d (lookD x.lc 0 d - 1), ldepth := d } :=
  (congrArg (fun n => loopNext x n x) hd).trans rfl

theorem openLoop_of_zero {n : W32} (hn : n = 0) (x : Ctx) (s : State) (fin : BitVec 16) :
    x.openLoop s n fin = .jump x s (x.pc + 4 * fin.toNat + 4) 1 := if_pos hn

theorem openLoop_of_ne {n : W32} (hn : n ≠ 0) (x : Ctx) (s : State) (fin : BitVec 16) :
    x.openLoop s n fin = .jump { x with
      ls := putD x.ls 0 x.ldepth (x.pcw + 4), le := putD x.le 0 x.ldepth (BitVec.ofNat 64 (x.pc + 4 * fin.toNat))
      lc := putD x.lc 0 x.ldepth n, ldepth := x.ldepth + 1 } s (x.pc + 4) 1 := if_neg hn

section
variable {s : State} {c : CoreId} {w : W32} {uses : List (Bool × Nat)} {bad : Ctx → Bool} {f : Job → Ctx → Eff} {jb : Job}
  {x : Ctx} {n : W32} {fin : BitVec 16} (hi : Issues s c w uses jb x) (hb : bad x = false) (hf : f jb x = x.openLoop s n fin)
include hi hb hf

/-- A loop without passes is passed over (R411). -/
theorem Issues.next_of_emptyLoop (hn : n = 0) (hin : (jb.fetch (x.pc + 4 * fin.toNat + 4)).isSome = true) :
    s.issueInstr c w bad uses f =
      .next (s.setCtx (coreNo c) { x with pc := x.pc + 4 * fin.toNat + 4, cycle := x.cycle + 1 }) :=
  hi.next_of_jump (List.Subset.refl _) hb (hf.trans (openLoop_of_zero hn x s fin)) hin

/-- A loop with passes opens the next level (R411). -/
theorem Issues.next_of_loop (hn : n ≠ 0) (hin : (jb.fetch (x.pc + 4)).isSome = true) :
    s.issueInstr c w bad uses f = .next (s.setCtx (coreNo c) { x with
      ls := putD x.ls 0 x.ldepth (x.pcw + 4), le := putD x.le 0 x.ldepth (BitVec.ofNat 64 (x.pc + 4 * fin.toNat))
      lc := putD x.lc 0 x.ldepth n, ldepth := x.ldepth + 1, pc := x.pc + 4, cycle := x.cycle + 1 }) :=
  hi.next_of_jump (List.Subset.refl _) hb (hf.trans (openLoop_of_ne hn x s fin)) hin

end

/-- Settles O14: LOOP and LOOPI by the two cases of the count, LBRK by its effect, the return by the levels of R374. -/
theorem hardwareLoops : Obligations.HardwareLoops := by
  intro s c jb x pc opened past forms
  refine ⟨fun rs fin hi h0 hm hd he => ⟨fun hn hin => ?_, fun hn hin => ?_⟩, fun cnt fin hi h0 hm hd he => ⟨fun hn hin => ?_, fun hn hin => ?_⟩,
    fun hi hd he hg => ?_, fun d hd => ⟨fun hle => ?_, fun hle hlc => ?_, fun h0 hle hlc => ?_⟩⟩
  · change execLoop c rs 0 fin s = _
    unfold execLoop
    exact hi.next_of_loop (badLoop_eq_false h0 hm hd he) rfl hn hin
  · change execLoop c rs 0 fin s = _
    unfold execLoop
    exact hi.next_of_emptyLoop (badLoop_eq_false h0 hm hd he) rfl hn hin
  · change execLoopi c cnt fin s = _
    unfold execLoopi
    exact hi.next_of_loop (badLoop_eq_false h0 hm hd he) rfl hn hin
  · change execLoopi c cnt fin s = _
    unfold execLoopi
    exact hi.next_of_emptyLoop (badLoop_eq_false h0 hm hd he) rfl hn hin
  · change execLbrk c 0 s = _
    unfold execLbrk
    exact hi.next_of_on (List.Subset.refl _) (by simp [nonzero, hd, he]) rfl hg
  · rw [onward_of_depth hd, if_pos hle]
  · rw [onward_of_depth hd, if_neg (not_not.mpr hle), if_pos (sub_ne_zero.mpr hlc)]
  · rw [onward_of_depth hd, if_neg (not_not.mpr hle), if_neg (not_not.mpr (sub_eq_zero.mpr hlc)), hlc]
    subst h0
    rfl

end Sys2Proof.Machine
end

section
/-! Loads, stores, atomics, address instructions and DMA (R366 to R369, R377 to R379, R401 to R406; O16 to O20). -/

namespace Sys2Proof.Machine

/-! ### The address of an access (R401) -/

/-- The address an access through ak has: with update 0 the offset alone moves it, with 1 it is ak, with 2 ak as updated. -/
def accessAddr (x : Ctx) (ak upd : Nat) (inc : Int) (v : W64) : W64 :=
  if upd = 0 then x.ra ak + BitVec.ofInt 64 inc else if upd = 1 then x.ra ak else v

/-- An aligned access to a window that admits it goes ahead with ak as updated (R401, R402). -/
theorem access_eq {x : Ctx} {jb : Job} {ak upd size off : Nat} {inc : Int} {ok : Win → Bool} {f : Ctx → Win → Nat → Nat → Eff} {v : W64}
    {w : Win} (hv : (if upd = 0 then some (x.ra ak) else x.bump ak inc) = some v)
    (ha : (accessAddr x ak upd inc v).toNat % size = 0) (hw : jb.win (accessAddr x ak upd inc v).toNat size = some (w, off))
    (hok : ok w = true) : x.access jb ak upd inc size ok f = f (x.setA ak v) w (accessAddr x ak upd inc v).toNat off := by
  have haddr : (if upd = 0 then x.ra ak + BitVec.ofInt 64 inc else if upd = 1 then x.ra ak else (some v).getD 0) =
      accessAddr x ak upd inc v := rfl
  unfold Ctx.access
  simp only [hv, haddr]
  rw [if_neg (by simp), if_neg (not_not.mpr ha), hw]
  simp [hok]

theorem toNat_eq_zero_iff {n : Nat} (b : BitVec n) : b.toNat = 0 ↔ b = 0 :=
  ⟨fun h => BitVec.eq_of_toNat_eq (by simpa using h), fun h => by simp [h]⟩

/-- The address in the words of the statement, where the update is a field of the instruction. -/
theorem accessAddr_field (x : Ctx) (ak : Nat) (upd : BitVec 2) (inc : Int) (v : W64) : accessAddr x ak upd.toNat inc v =
    if upd = 0 then x.ra ak + BitVec.ofInt 64 inc else if upd = 1 then x.ra ak else v := by
  have h1 : upd.toNat = 1 ↔ upd = 1 := ⟨fun h => BitVec.eq_of_toNat_eq (by simpa using h), fun h => by simp [h]⟩
  simp only [accessAddr, toNat_eq_zero_iff, h1]

theorem loadEff_eq {s : State} {k : Nat} {jb : Job} {w : Win} {off n : Nat} (h : jb.poisoned k w off n = false) (wide : Bool) (rd : Nat)
    (sx : Bool) (x : Ctx) (a : Nat) : s.loadEff k jb wide rd n sx x w a off =
      .on (x.pend wide rd (if wide then BitVec.ofNat 128 (le (s.loadBytes k jb x w a off n) 0 16)
        else (extend sx (s.loadBytes k jb x w a off n)).setWidth 128)) s := by
  simp [State.loadEff, h]

theorem storeEff_loc (s : State) (k : Nat) (b : Bytes) (x : Ctx) (a off : Nat) :
    s.storeEff k b x .loc a off = .on x (s.writeWin k x.job .loc off b) := if_pos rfl

theorem storeEff_wait {w : Win} {x : Ctx} (hw : w = .data ∨ w = .dram) (hn : x.stores.length < 8) (s : State) (k : Nat) (b : Bytes)
    (a off : Nat) : s.storeEff k b x w a off = .on { x with stores := x.stores ++ [(a, b)] } s := by
  have hloc : w ≠ .loc := by rcases hw with rfl | rfl <;> decide
  rw [State.storeEff, if_neg hloc, if_neg (by omega)]

/-- Settles O16: each form goes ahead at its address, and its effect is the load's or the store's. -/
theorem loadsAndStores : Obligations.LoadsAndStores := by
  intro s c jb x rt ak upd sz sx imm n v w off old inc a z hupd hv ha hw bytes
  have haddr := accessAddr_field x ak.toNat upd inc v
  have hv' : (if upd.toNat = 0 then some (x.ra ak.toNat) else x.bump ak.toNat inc) = some v := by
    simpa only [toNat_eq_zero_iff] using hv
  have hgo : ∀ (ok : Win → Bool) (f : Ctx → Win → Nat → Nat → Eff), ok w = true →
      x.access jb ak.toNat upd.toNat inc n ok f = f z w a.toNat off := fun ok f hok => by
    have h := access_eq (f := f) hv' (by rw [haddr]; exact ha) (by rw [haddr]; exact hw) hok
    rwa [haddr] at h
  refine ⟨?_, ?_, ?_⟩
  · intro hn hsx hi hp y hg
    change execLd c rt ak upd sz sx imm s = _
    unfold execLd
    refine hi.next_of_on (List.Subset.refl _) (by simpa using And.intro hupd hsx) ?_ hg
    rw [← hn, hgo _ _ rfl, loadEff_eq hp]
    have hy : z.pend false rt.toNat ((extend sx bytes).setWidth 128) = y := by
      simp only [Ctx.pend, y, Bool.not_false, Bool.true_and, decide_eq_true_eq, toNat_eq_zero_iff, z, Ctx.setA]
    exact congrArg (Eff.on · s) hy
  · intro hn hsz hsx hrt hi hp y hg
    change execLdq c rt ak upd 0 false imm s = _
    unfold execLdq
    refine hi.next_of_on (List.Subset.refl _) (by simpa using And.intro hupd (Nat.le_of_lt_succ hrt)) ?_ hg
    have hinc : imm.toInt * 16 = inc := by simp [inc, hn]
    rw [hinc, ← hn, hgo _ _ rfl, loadEff_eq hp]
    rfl
  · intro i op b use hrow hi
    have hstore : ∃ bad f, bad x = false ∧ f jb x = x.access jb ak.toNat upd.toNat inc n Win.writes (s.storeEff (coreNo c) b) ∧
        exec i s = s.issueInstr c (wM op rt ak upd sz false imm) bad [use] f := by
      rw [List.mem_append] at hrow
      rcases hrow with hrow | hrow
      · split at hrow
        · next hn =>
          obtain ⟨rfl, rfl, rfl, rfl⟩ : i = _ ∧ op = _ ∧ b = _ ∧ use = _ := by simpa using hrow
          subst hn
          change ∃ bad f, _ ∧ _ ∧ execSt c rt ak upd sz false imm s = _
          unfold execSt
          refine ⟨_, _, ?_, ?_, rfl⟩
          · simpa using hupd
          · rfl
        · cases hrow
      · split at hrow
        · next hn =>
          obtain ⟨rfl, rfl, hrt⟩ := hn
          obtain ⟨rfl, rfl, rfl, rfl⟩ : i = _ ∧ op = _ ∧ b = _ ∧ use = _ := by simpa using hrow
          change ∃ bad f, _ ∧ _ ∧ execStq c rt ak upd 0 false imm s = _
          unfold execStq
          refine ⟨_, _, ?_, ?_, rfl⟩
          · simpa using And.intro hupd (Nat.le_of_lt_succ hrt)
          · rfl
        · cases hrow
    obtain ⟨bad, f, hbad, hf, hexec⟩ := hstore
    rw [hexec]
    refine ⟨fun hloc hg => ?_, fun hwait hlen hg => ?_⟩
    · subst hloc
      exact hi.next_of_on (List.Subset.refl _) hbad (hf.trans ((hgo _ _ rfl).trans (storeEff_loc ..))) hg
    · have hok : w.writes = true := by rcases hwait with rfl | rfl <;> rfl
      exact hi.next_of_on (List.Subset.refl _) hbad (hf.trans ((hgo _ _ hok).trans (storeEff_wait (x := z) hwait hlen ..))) hg

/-! ### Completion of what is outstanding (R366, R403) -/

theorem findCtx_running {s : State} {k : Nat} {x : Ctx} {p : Ctx → Bool} (hx : (s.core k).ctx = some x) (hp : p x = true) :
    s.findCtx k p = some (x, true) := by
  simp [State.findCtx, hx, Option.filter, hp]

theorem look_sparse (b : Bytes) (a k : Nat) :
    look (sparse b a) k = if a ≤ k ∧ b.getD (k - a) 0 ≠ 0 then some (b.getD (k - a) 0) else none := by
  induction b generalizing a with
  | nil => simp [sparse]
  | cons x b ih =>
    have hrest := ih (a + 1)
    rw [sparse_cons]
    rcases Nat.lt_trichotomy k a with hlt | rfl | hgt
    · have hnone : look (sparse b (a + 1)) k = none := by rw [hrest, if_neg (by omega)]
      rw [if_neg (by omega : ¬(a ≤ k ∧ (x :: b).getD (k - a) 0 ≠ 0))]
      split
      · exact hnone
      · rw [look, if_neg (by omega), hnone]
    · have hnone : look (sparse b (k + 1)) k = none := by rw [hrest, if_neg (by omega)]
      rw [Nat.sub_self, List.getD_cons_zero]
      by_cases hx : x = 0
      · rw [if_pos hx, if_neg (fun h => h.2 hx), hnone]
      · rw [if_neg hx, look, if_pos rfl, if_pos (show k ≤ k ∧ x ≠ 0 from ⟨le_refl k, hx⟩)]
    · obtain ⟨d, rfl⟩ : ∃ d, k = a + 1 + d := ⟨k - (a + 1), by omega⟩
      have hstep : look (if x = 0 then sparse b (a + 1) else (a, x) :: sparse b (a + 1)) (a + 1 + d) =
          look (sparse b (a + 1)) (a + 1 + d) := by
        split
        · rfl
        · rw [look, if_neg (by omega)]
      have hd : a + 1 + d - a = d + 1 := by omega
      rw [hstep, hrest, hd, List.getD_cons_succ, Nat.add_sub_cancel_left]
      simp only [Nat.le_add_right, true_and, show a ≤ a + 1 + d by omega]

/-- After a write each address of the range reads the byte written, every other as before (R377). -/
theorem lookD_putBytes (t : Tab Byte) (a k : Nat) (b : Bytes) :
    lookD (putBytes t a b) 0 k = if a ≤ k ∧ k < a + b.length then b.getD (k - a) 0 else lookD t 0 k := by
  have hs := look_sparse b a k
  unfold lookD putBytes
  rw [look_append, look_append, look_keep, look_keep, hs]
  have hz : a + b.length ≤ k → b.getD (k - a) 0 = 0 := fun h => List.getD_eq_default _ _ (by omega)
  generalize b.getD (k - a) 0 = v at hz ⊢
  by_cases hlt : k < a
  · simp [hlt, Nat.not_le.mpr hlt, show ¬a + b.length ≤ k by omega]
  · by_cases hin : k < a + b.length
    · by_cases hv : v = 0#8 <;> simp [hlt, hin, Nat.not_lt.mp hlt, Nat.not_le.mpr hin, hv]
    · simp [hlt, hin, hz (Nat.not_lt.mp hin), Nat.not_lt.mp hin]

/-- Settles O17: the running context is found, and its oldest load or store is the one taken. -/
theorem loadsAndStoresComplete : Obligations.LoadsAndStoresComplete := by
  refine ⟨fun s c x hw hx => ⟨fun l ls hl => ?_, fun e es he => ?_⟩, fun t a k b => ⟨lookD_putBytes t a k b, fun h => canon_putBytes h a b⟩⟩
  · change execLoadComplete c s = _
    simp [execLoadComplete, hw, findCtx_running (p := fun x => !x.loads.isEmpty) hx (by simp [hl]), hl, go, State.putCtx]
  · change execStoreComplete c s = _
    simp [execStoreComplete, hw, findCtx_running (p := fun x => !x.stores.isEmpty) hx (by simp [he]), he, go, State.putCtx]

/-! ### Atomics (R378, R404) -/

/-- In `s`, `i` is an atomic of operation `op` that leaves `new` of what the word holds. -/
def Atomic (s : State) (c : CoreId) (rd rs1 rs2 : Reg) (fn : BitVec 11) (x : Ctx) (old : W64) (i : Instr) (op : Nat) (new : W64) : Prop :=
  ∃ f : W64 → W64 → W64 → W64, exec i s = s.atom c op f rd rs1 rs2 fn ∧ f old (x.rg rs1.toNat) (x.rg rs2.toNat) = new ∧
    (op ≠ 0 → rs1.toNat = 0)

theorem atomic_of_row {s : State} {c : CoreId} {rd rs1 rs2 : Reg} {fn : BitVec 11} {x : Ctx} {old : W64} {i : Instr} {op : Nat} {new : W64}
    {f : W64 → W64 → W64 → W64} (e : CoreId → Reg → Reg → Reg → BitVec 11 → State → Res') (he : exec i s = e c rd rs1 rs2 fn s)
    (hm : e c rd rs1 rs2 fn s = s.atom c op f rd rs1 rs2 fn) (hf : f old (x.rg rs1.toNat) (x.rg rs2.toNat) = new)
    (hop : op ≠ 0 → rs1.toNat = 0) : Atomic s c rd rs1 rs2 fn x old i op new := ⟨f, he.trans hm, hf, hop⟩

/-- Settles O18: with nothing outstanding the access goes ahead, and its effect is the atomic's. -/
theorem atomics : Obligations.Atomics := by
  intro s c rd rs1 rs2 ak jb x w off k a fn old ha hw hwin hp hst hdma i op new hrow hi z y hg
  have hatomic : Atomic s c rd rs1 rs2 fn x old i op new := by
    rw [List.mem_append] at hrow
    rcases hrow with hrow | hrow
    · simp only [List.mem_singleton] at hrow
      obtain ⟨rfl, rfl, rfl⟩ := hrow
      exact atomic_of_row execAtomCas rfl rfl rfl (absurd rfl)
    · split at hrow
      · next hrs =>
        subst hrs
        simp only [List.mem_cons, List.not_mem_nil, or_false] at hrow
        rcases hrow with ⟨rfl, rfl, rfl⟩ | ⟨rfl, rfl, rfl⟩
        · exact atomic_of_row execAtomSwap rfl rfl rfl fun _ => rfl
        · exact atomic_of_row execAtomFadd rfl rfl rfl fun _ => rfl
      · cases hrow
  obtain ⟨f, hexec, hf, hop⟩ := hatomic
  have hfn : fn.toNat = ak.toNat * 256 := by
    have happ : fn.toNat = ak.toNat <<< 8 ||| 0 := BitVec.toNat_append ak 0#8
    simp [happ, Nat.shiftLeft_eq]
  have hword : fn.toNat / 4 * 4 + op = ak.toNat * 256 + op := by omega
  rw [hexec]
  unfold State.atom
  simp only [hword]
  refine hi.next_of_on (List.Subset.refl _) ?_ ?_ hg
  · have : fn.toNat / 4 % 64 = 0 := by omega
    simpa [this] using hop
  · have hok : w.writes = true := by rcases hwin with rfl | rfl | rfl <;> rfl
    have hak : fn.toNat / 256 = ak.toNat := by omega
    rw [hak, access_eq (v := a) (w := w) (off := off) rfl (by simpa [accessAddr] using ha) (by simpa [accessAddr] using hw) hok]
    have hy : z.pend false rd.toNat (old.setWidth 128) = y := by
      simp only [Ctx.pend, y, Bool.not_false, Bool.true_and, decide_eq_true_eq, toNat_eq_zero_iff, z, Ctx.setA]
    have hfree : (x.setA ak.toNat a).unfenced = false := by simp [Ctx.unfenced, Ctx.setA, hst, hdma]
    rw [if_neg (by simp [hfree]), if_neg (by simpa using hp)]
    exact congrArg₂ Eff.on hy (congrArg (fun v : W64 => s.writeWin k x.job w off (toLe v.toNat 8)) hf)

/-! ### Address instructions (R367 to R369, R405) -/

theorem clog_eq {m q : Nat} (hq : q < 33) (hle : m ≤ 2 ^ q) (hlt : ∀ p, p < q → 2 ^ p < m) : clog m = q := by
  have : (List.range 33).find? (fun q => decide (m ≤ 2 ^ q)) = some q := by
    rw [List.find?_range_eq_some]
    exact ⟨decide_eq_true hle, List.mem_range.mpr hq, fun p hp => by simpa using hlt p hp⟩
  simp [clog, this]

theorem bump_linear {x : Ctx} {k : Nat} (h : x.mode k = 0 ∨ (x.mode k = 1 ∧ (x.rm k).toNat = 0)) (inc : Int) :
    x.bump k inc = some (x.ra k + BitVec.ofInt 64 inc) := by
  rcases h with h | ⟨h, hm⟩
  · simp [Ctx.bump, h]
  · simp [Ctx.bump, h, hm]

theorem bump_modulo {x : Ctx} {k : Nat} (h : x.mode k = 1) (hm : (x.rm k).toNat ≠ 0) (inc : Int) :
    x.bump k inc = (modUpdate (x.ra k).toNat (x.rm k).toNat inc).map (BitVec.ofNat 64) := by
  simp only [Ctx.bump, h]
  rw [if_pos (by simpa using hm)]

theorem bump_reversed {x : Ctx} {k : Nat} (h : x.mode k = 2) (inc : Int) :
    x.bump k inc = (revUpdate (x.ra k).toNat (x.rm k).toNat inc).map (BitVec.ofNat 64) := by
  simp [Ctx.bump, h]

theorem modUpdate_eq {m q : Nat} (hq : q < 33) (hle : m ≤ 2 ^ q) (hlt : ∀ p, p < q → 2 ^ p < m) (a : Nat) (inc : Int) :
    modUpdate a m inc = if a % 2 ^ q < m then some (a - a % 2 ^ q + (((a % 2 ^ q : Nat) + inc) % (m : Int)).toNat) else none := by
  have hbase : a / 2 ^ q * 2 ^ q = a - a % 2 ^ q := by
    have := Nat.div_add_mod a (2 ^ q)
    rw [Nat.mul_comm]
    omega
  unfold modUpdate
  simp only [clog_eq hq hle hlt, hbase]

theorem clog_two_pow {q : Nat} (hq : q < 33) : clog (2 ^ q) = q :=
  clog_eq hq le_rfl fun _ hp => Nat.pow_lt_pow_right (by decide) hp

theorem revUpdate_eq {n : Nat} (h1 : 1 ≤ n) (h31 : n ≤ 31) (a : Nat) (inc : Int) : revUpdate a (2 ^ n) inc =
    some (a - a % 2 ^ n + revBits n ((revBits n (a % 2 ^ n) + revBits n (inc % ((2 ^ n : Nat) : Int)).toNat) % 2 ^ n)) := by
  have hclog : clog (2 ^ n) = n := clog_two_pow (by omega)
  have hlo : 2 ≤ 2 ^ n := Nat.le_self_pow (by omega) 2
  have hhi : 2 ^ n ≤ 2 ^ 31 := Nat.pow_le_pow_right (by decide) h31
  have hbase : a / 2 ^ n * 2 ^ n = a - a % 2 ^ n := by
    have := Nat.div_add_mod a (2 ^ n)
    rw [Nat.mul_comm]
    omega
  unfold revUpdate
  simp only [hclog, hbase]
  rw [if_pos (by simp only [hlo, hhi, decide_true, Bool.and_self])]

theorem revUpdate_none {m : Nat} (h : ∀ n, 1 ≤ n → n ≤ 31 → m ≠ 2 ^ n) (a : Nat) (inc : Int) : revUpdate a m inc = none := by
  unfold revUpdate
  refine if_neg fun hc => ?_
  simp only [Bool.and_eq_true, decide_eq_true_eq] at hc
  obtain ⟨⟨hlo, hhi⟩, hpow⟩ := hc
  rw [hpow] at hlo hhi
  have h1 : 1 ≤ clog m := Nat.one_le_iff_ne_zero.mpr fun h0 => by rw [h0] at hlo; omega
  exact h (clog m) h1 ((Nat.pow_le_pow_iff_right (by decide)).mp hhi) hpow

/-- The lengths a register holds are below 2 ^ 32, so that the exponent of the region is found. -/
theorem lt_of_rm (x : Ctx) (k : Nat) {q : Nat} (hlt : ∀ p, p < q → 2 ^ p < (x.rm k).toNat) : q < 33 := by
  by_contra hq
  have := hlt 32 (by omega)
  have := (x.rm k).isLt
  omega

theorem Issues.next_of_cause {s : State} {c : CoreId} {w : W32} {uses : List (Bool × Nat)} {bad : Ctx → Bool} {f : Job → Ctx → Eff}
    {jb : Job} {x : Ctx} {cause : Nat} {v : W64} (hi : Issues s c w uses jb x) (hb : bad x = false) (hf : f jb x = .fault cause v) :
    s.issueInstr c w bad uses f = .next (s.coreFault (coreNo c) x (x.pc - 0x100000) w.toNat cause v) := by
  rw [hi.issueInstr_eq (List.Subset.refl _), if_neg (by simp [hb]), hf]
  rfl

/-- Settles O19: each row goes on with its register, and the update is R368's and R369's. -/
theorem addressInstructions : Obligations.AddressInstructions := by
  refine ⟨fun s c rs ak imm jb x v => ?_, fun x k q inc => ?_⟩
  · intro k
    have hz : nonzero (0 : Reg).toNat x = false := rfl
    have hz' : nonzero (0 : BitVec 16).toNat x = false := rfl
    refine ⟨fun hv hi hg => ?_, fun hv hi hg => ?_, fun hi hg => ?_, ?_, fun hi hg => ?_, ?_, fun hv hi => ?_, fun hv hi => ?_⟩
    · change execAdda c 0 ak imm s = _
      unfold execAdda
      exact hi.next_of_on (List.Subset.refl _) hz (by rw [hv]) hg
    · change execAddar c rs ak 0 s = _
      unfold execAddar
      exact hi.next_of_on (List.Subset.refl _) hz' (by rw [hv]) hg
    · change execMva c rs ak 0 s = _
      unfold execMva
      exact hi.next_of_on (List.Subset.refl _) hz' rfl hg
    · intro y hi hg
      change execMvm c rs ak 0 s = _
      unfold execMvm
      exact hi.next_of_on (List.Subset.refl _) hz' rfl hg
    · change execMfa c rs ak 0 s = _
      unfold execMfa
      exact hi.next_of_on (List.Subset.refl _) hz' rfl hg
    · intro y hi hg
      change execMfm c rs ak 0 s = _
      unfold execMfm
      exact hi.next_of_on (List.Subset.refl _) hz' rfl hg
    · change execAdda c 0 ak imm s = _
      unfold execAdda
      exact hi.next_of_cause hz (by rw [hv])
    · change execAddar c rs ak 0 s = _
      unfold execAddar
      exact hi.next_of_cause hz' (by rw [hv])
  · intro m a
    refine ⟨fun h => bump_linear h inc, fun h hm hle hlt => ?_, fun h hn hq hmq => ?_, fun h hn => ?_⟩
    · rw [bump_modulo h hm, modUpdate_eq (lt_of_rm x k hlt) hle hlt]
      split <;> rfl
    · obtain ⟨n, h1, h31, hmn⟩ := hn
      obtain rfl : q = n := Nat.pow_right_injective le_rfl (hmq.symm.trans hmn)
      have hm : (x.rm k).toNat = 2 ^ q := hmq
      rw [bump_reversed h, hm, revUpdate_eq h1 h31]
      simp only [hmq, Option.map_some, a]
    · rw [bump_reversed h, revUpdate_none hn]
      rfl

/-! ### DMA (R379, R406) -/

/-- FUNC of DMA: TAG in bits 0 to 2, the direction in bit 3, zero above. -/
theorem dmaFunc_toNat (out : Bool) (tag : BitVec 3) :
    ((0#7) ++ BitVec.ofBool out ++ tag : BitVec 11).toNat = (if out then 8 else 0) + tag.toNat := by
  revert out tag
  decide

theorem dmaRemote_of {w : Win} {out : Bool} (h : w = .data ∨ w = .dram ∨ (w = .scan ∧ out = false)) : dmaRemote w out = true := by
  rcases h with rfl | rfl | ⟨rfl, rfl⟩
  · rfl
  · rfl
  · rfl

/-- Settles O20: the transfer passes each check and waits; its completion finds it by its tag, and WAITD finds none. -/
theorem dmaTransfers : Obligations.DmaTransfers := by
  intro s c jb x k
  refine ⟨?_, ?_, fun imm hclear hi hg => ?_⟩
  · intro rd rs1 rs2 tag out w lo off n a b fn hn ha hb hpos hmax hlocal hremote hw htag hi y hg
    have hfn : fn.toNat = (if out then 8 else 0) + tag.toNat := dmaFunc_toNat out tag
    have hlt : tag.toNat < 8 := tag.isLt
    have hzero : fn.toNat / 16 = 0 := by split at hfn <;> omega
    have hmod : fn.toNat % 8 = tag.toNat := by split at hfn <;> omega
    have hout : bit fn.toNat 3 = out := by
      unfold bit
      cases out <;> simp_all <;> omega
    have hfree : ¬(x.dma.any fun d => d.tag = tag.toNat) = true := by simpa using htag
    change execDma c rd rs1 rs2 fn s = _
    unfold execDma
    refine hi.next_of_on (List.Subset.refl _) (by simp [nonzero, hzero]) ?_ hg
    simp only [hmod, hout]
    rw [if_neg (not_not.mpr hn), if_neg (not_not.mpr ha), if_neg (not_not.mpr hb), if_neg (by simpa using ⟨hpos.ne', hmax⟩),
      if_neg (by rw [hlocal]; simp), hremote]
    simp only [dmaRemote_of hw, Bool.not_true]
    rw [if_neg (by decide), if_neg hfree]
  · intro tag d w off hwf hx hj hfault hd hwin y
    have hany : x.dma.any (fun d => decide (d.tag = tag.toNat)) = true := by
      refine List.any_eq_true.mpr ⟨d, List.mem_of_find?_eq_some hd, ?_⟩
      exact List.find?_some (p := fun d : Dma => decide (d.tag = tag.toNat)) hd
    have hrun : s.findCtx (coreNo c) (fun x => x.dma.any fun d => decide (d.tag = tag.toNat)) = some (x, true) :=
      findCtx_running hx hany
    have hfilter : (x.dma.filter fun d => !decide (d.tag = tag.toNat)) = x.dma.filter fun d => d.tag ≠ tag.toNat := by
      congr 1
      funext d
      rw [← decide_not]
    refine ⟨fun hdir => ?_, fun hdir hp => ?_⟩
    · change execDmaComplete c tag s = _
      unfold execDmaComplete
      simp only [hwf, hrun, hd, hj, hfault, hwin, hdir, hfilter, Bool.not_true]
      rfl
    · change execDmaComplete c tag s = _
      unfold execDmaComplete
      have hp' : jb.poisoned (coreNo c) w off d.len = false := hp
      simp only [hwf, hrun, hd, hj, hfault, hwin, hdir, hp', hfilter, Bool.not_true]
      rfl
  · change execWaitd c 0 0 imm s = _
    unfold execWaitd
    refine hi.next_of_on (List.Subset.refl _) rfl (if_neg ?_) hg
    simpa using hclear

end Sys2Proof.Machine
end

section
/-! SIMD, multiply and work instructions (R370, R384 to R391, R406 to R410, R414 to R416; O21 to O23). -/

namespace Sys2Proof.Machine

/-! ### Rows of a table of instructions -/

/-- A row that a condition puts in a table satisfies what every such row does. -/
theorem forall_mem_guard {α : Type} {p : Prop} [Decidable p] {l : List α} {P : α → Prop} (h : p → ∀ e ∈ l, P e) :
    ∀ e ∈ (if p then l else []), P e := by
  split
  · exact h ‹p›
  · simp

/-- In `s`, `i` is an instruction of word `w` that, issued from `x`, goes on with `y` and leaves the rest of the state alone. -/
def CarriesTo (s : State) (c : CoreId) (jb : Job) (x : Ctx) (uses : List (Bool × Nat)) (w : W32) (i : Instr) (y : Ctx) : Prop :=
  ∃ bad uses' f, uses' ⊆ uses ∧ bad x = false ∧ f jb x = .on y s ∧ exec i s = s.issueInstr c w bad uses' f

theorem CarriesTo.next {s : State} {c : CoreId} {jb : Job} {x y : Ctx} {uses : List (Bool × Nat)} {w : W32} {i : Instr}
    (h : CarriesTo s c jb x uses w i y) (hi : Issues s c w uses jb x) (hg : GoesOn jb x y) : exec i s = .next (s.after c x y) := by
  obtain ⟨bad, uses', f, hu, hb, hf, hexec⟩ := h
  exact hexec.trans (hi.next_of_on hu hb hf hg)

theorem carriesTo_of_row {s : State} {c : CoreId} {jb : Job} {x y : Ctx} {uses uses' : List (Bool × Nat)} {w : W32} {i : Instr} {o : Res'}
    {bad : Ctx → Bool} {f : Job → Ctx → Eff} (he : exec i s = o) (hm : o = s.issueInstr c w bad uses' f) (hu : uses' ⊆ uses)
    (hb : bad x = false) (hf : f jb x = .on y s) : CarriesTo s c jb x uses w i y := ⟨bad, uses', f, hu, hb, hf, he.trans hm⟩

/-! ### Elements (Table 14.7) -/

theorem elem_lt (e : Nat) (w : W128) (k : Nat) : elem e w k < 2 ^ elBits e := Nat.mod_lt _ (Nat.two_pow_pos _)

theorem mapEl_congr {e : Nat} {f g : Nat → Nat → Nat} (h : ∀ p q, p < 2 ^ elBits e → q < 2 ^ elBits e → f p q = g p q) (a b : W128) :
    mapEl e f a b = packEl e fun k => g (elem e a k) (elem e b k) := by
  unfold mapEl
  congr 1
  funext k
  exact h _ _ (elem_lt e a k) (elem_lt e b k)

theorem elAddU_eq (e p q : Nat) : elAddU e p q = min (p + q) (2 ^ elBits e - 1) := by
  have := Nat.two_pow_pos (elBits e)
  unfold elAddU satU
  omega

theorem elSubU_eq {e p : Nat} (hp : p < 2 ^ elBits e) (q : Nat) : elSubU e p q = p - q := by
  unfold elSubU satU
  omega

/-- wd receives, element by element of width code E, a function of the elements of ws1 and ws2. -/
def onElements (x : Ctx) (e : Nat) (rd rs1 rs2 : Reg) (f : Nat → Nat → Nat) : Ctx :=
  x.setW rd.toNat (packEl e fun k => f (elem e (x.rw rs1.toNat) k) (elem e (x.rw rs2.toNat) k))

section
variable {s : State} {c : CoreId} {e : BitVec 2} {lane : BitVec 4} {rd rs1 rs2 : Reg} {jb : Job} {x : Ctx} {i : Instr} {op : Nat}

/-- The registers a SIMD instruction may read or write. -/
abbrev simdUses (rd rs1 rs2 : Reg) : List (Bool × Nat) := [useG rd, useW rd, useG rs1, useW rs1, useW rs2]

theorem carriesTo_simd {o : Res'} {only8 : Bool} {f : W128 → W128 → W128} {v : W128} (he : exec i s = o)
    (hm : o = s.simd c op only8 f e lane rd rs1 rs2) (h0 : lane = 0 ∧ rd.toNat < 16 ∧ rs1.toNat < 16 ∧ rs2.toNat < 16)
    (h8 : only8 = true → e = 0) (hv : f (x.rw rs1.toNat) (x.rw rs2.toNat) = v) :
    CarriesTo s c jb x (simdUses rd rs1 rs2) (wV op e lane rd rs1 rs2) i (x.setW rd.toNat v) := by
  obtain ⟨hl, h1, h2, h3⟩ := h0
  refine carriesTo_of_row he (hm.trans rfl) (by simp) ?_ (by rw [hv])
  simp [hl, Nat.le_of_lt_succ h1, Nat.le_of_lt_succ h2, Nat.le_of_lt_succ h3]
  exact h8

theorem carriesTo_elements {o : Res'} {f g : Nat → Nat → Nat} (he : exec i s = o)
    (hm : o = s.simd c op false (mapEl e.toNat f) e lane rd rs1 rs2) (h0 : lane = 0 ∧ rd.toNat < 16 ∧ rs1.toNat < 16 ∧ rs2.toNat < 16)
    (h : ∀ p q, p < 2 ^ elBits e.toNat → q < 2 ^ elBits e.toNat → f p q = g p q) :
    CarriesTo s c jb x (simdUses rd rs1 rs2) (wV op e lane rd rs1 rs2) i (onElements x e.toNat rd rs1 rs2 g) :=
  carriesTo_simd he hm h0 (fun h => by cases h) (mapEl_congr h _ _)

end

theorem maskEl_decide (e : Nat) (p : Prop) [Decidable p] : maskEl e (decide p) = if p then 2 ^ elBits e - 1 else 0 := by
  simp [maskEl]

/-- Settles O21: each row goes on with its register, and its value is the table's. -/
theorem simdElements : Obligations.SimdElements := by
  intro s c e lane rd rs1 rs2 jb x i op y w a b d sg el g hrow hi hg
  suffices h : ∀ r : Instr × Nat × Ctx, r ∈ _ → CarriesTo s c jb x (simdUses rd rs1 rs2) (wV r.2.1 e lane rd rs1 rs2) r.1 r.2.2 from
    (h _ hrow).next hi hg
  have hel : el = onElements x w rd rs1 rs2 := rfl
  clear hrow hi hg
  clear_value el
  subst hel
  simp only [List.forall_mem_append]
  refine ⟨⟨⟨⟨⟨forall_mem_guard fun h0 => List.forall_mem_append.mpr ⟨?_, forall_mem_guard fun h8 => ?_⟩, ?_⟩, ?_⟩, ?_⟩, ?_⟩, ?_⟩
  · refine List.forall_iff_forall_mem.mp ?_
    simp only [List.Forall]
    exact ⟨carriesTo_elements (o := execVadd c e lane rd rs1 rs2 s) rfl rfl h0 fun _ _ _ _ => rfl,
        carriesTo_elements (o := execVsub c e lane rd rs1 rs2 s) rfl rfl h0 fun _ _ _ _ => rfl,
        carriesTo_elements (o := execVadds c e lane rd rs1 rs2 s) rfl rfl h0 fun _ _ _ _ => rfl,
        carriesTo_elements (o := execVsubs c e lane rd rs1 rs2 s) rfl rfl h0 fun _ _ _ _ => rfl,
        carriesTo_elements (o := execVaddus c e lane rd rs1 rs2 s) rfl rfl h0 fun p q _ _ => elAddU_eq w p q,
        carriesTo_elements (o := execVsubus c e lane rd rs1 rs2 s) rfl rfl h0 fun _ q hp _ => elSubU_eq hp q,
        carriesTo_elements (o := execVmin c e lane rd rs1 rs2 s) rfl rfl h0 fun _ _ _ _ => rfl,
        carriesTo_elements (o := execVmax c e lane rd rs1 rs2 s) rfl rfl h0 fun _ _ _ _ => rfl,
        carriesTo_elements (o := execVminu c e lane rd rs1 rs2 s) rfl rfl h0 fun _ _ _ _ => rfl,
        carriesTo_elements (o := execVmaxu c e lane rd rs1 rs2 s) rfl rfl h0 fun _ _ _ _ => rfl,
        carriesTo_elements (o := execVceq c e lane rd rs1 rs2 s) rfl rfl h0 fun _ _ _ _ => maskEl_decide ..,
        carriesTo_elements (o := execVcgt c e lane rd rs1 rs2 s) rfl rfl h0 fun _ _ _ _ => maskEl_decide ..,
        carriesTo_elements (o := execVcgtu c e lane rd rs1 rs2 s) rfl rfl h0 fun _ _ _ _ => maskEl_decide ..,
        carriesTo_elements (o := execVsll c e lane rd rs1 rs2 s) rfl rfl h0 fun _ _ _ _ => rfl,
        carriesTo_elements (o := execVsrl c e lane rd rs1 rs2 s) rfl rfl h0 fun _ _ _ _ => rfl,
        carriesTo_elements (o := execVsra c e lane rd rs1 rs2 s) rfl rfl h0 fun _ _ _ _ => rfl⟩
  · obtain ⟨hl, h1, h2, h3⟩ := h0
    refine List.forall_iff_forall_mem.mp ?_
    simp only [List.Forall]
    exact ⟨carriesTo_simd (o := execVand c e lane rd rs1 rs2 s) rfl rfl ⟨hl, h1, h2, h3⟩ (fun _ => h8) rfl,
        carriesTo_simd (o := execVor c e lane rd rs1 rs2 s) rfl rfl ⟨hl, h1, h2, h3⟩ (fun _ => h8) rfl,
        carriesTo_simd (o := execVxor c e lane rd rs1 rs2 s) rfl rfl ⟨hl, h1, h2, h3⟩ (fun _ => h8) rfl,
        carriesTo_simd (o := execVandn c e lane rd rs1 rs2 s) rfl rfl ⟨hl, h1, h2, h3⟩ (fun _ => h8) rfl,
        carriesTo_of_row (o := execVsel c e lane rd rs1 rs2 s) rfl rfl (by simp)
          (by simp [hl, h8, Nat.le_of_lt_succ h1, Nat.le_of_lt_succ h2, Nat.le_of_lt_succ h3]) rfl,
        carriesTo_simd (o := execVshuf c e lane rd rs1 rs2 s) rfl rfl ⟨hl, h1, h2, h3⟩ (fun _ => h8) rfl⟩
  · refine forall_mem_guard fun ⟨hl, h1, h2⟩ => List.forall_iff_forall_mem.mp ?_
    exact carriesTo_of_row (o := execVbcast c e lane rd rs1 rs2 s) rfl rfl (by simp) (by simp [hl, h2, Nat.le_of_lt_succ h1]) rfl
  · refine forall_mem_guard fun ⟨hl, h1, h2⟩ => List.forall_iff_forall_mem.mp ?_
    exact carriesTo_of_row (o := execVins c e lane rd rs1 rs2 s) rfl rfl (by simp)
      (by simpa [laneOk, h2, Nat.le_of_lt_succ h1] using hl) rfl
  · refine forall_mem_guard fun ⟨hl, h1, h2⟩ => List.forall_iff_forall_mem.mp ?_
    exact carriesTo_of_row (o := execVext c e lane rd rs1 rs2 s) rfl rfl (by simp)
      (by simpa [laneOk, h2, Nat.le_of_lt_succ h1] using hl) rfl
  · refine forall_mem_guard fun ⟨hl, h1, h2⟩ => List.forall_iff_forall_mem.mp ?_
    exact carriesTo_of_row (o := execVsum c e lane rd rs1 rs2 s) rfl rfl (by simp) (by simp [hl, h2, Nat.le_of_lt_succ h1])
      (by rw [foldl_add_eq_sum])
  · refine forall_mem_guard fun ⟨hl, h8, h1, h2, h3⟩ => List.forall_iff_forall_mem.mp ?_
    exact carriesTo_of_row (o := execVmov c e lane rd rs1 rs2 s) rfl rfl (by simp)
      (by simp [hl, h8, h3, Nat.le_of_lt_succ h1, Nat.le_of_lt_succ h2]) rfl

/-! ### Multiply (Table 14.8) -/

theorem mulS_eq (a b : W64) : mulS a b = BitVec.ofInt 128 (a.toInt * b.toInt) := (BitVec.ofInt_mul ..).symm

theorem mulU_eq (a b : W64) : mulU a b = BitVec.ofNat 128 (a.toNat * b.toNat) := by
  apply BitVec.eq_of_toNat_eq
  simp [mulU, Nat.mul_mod]

section
variable {s : State} {c : CoreId} {e : BitVec 2} {rd rs1 rs2 : Reg} {jb : Job} {x : Ctx} {i : Instr} {op : Nat}

/-- The context of a multiply instruction after its issue (R370). -/
def withProduct (x : Ctx) (rd : Reg) (how : Land) (v : W128) : Ctx := { x with prods := x.prods ++ [⟨rd.toNat, x.cycle, how, v⟩] }

theorem carriesTo_mul {o : Res'} {useE : Bool} {src : Src} {how : Land} {f : Ctx → W128} {v : W128} (he : exec i s = o)
    (hm : o = s.mulInstr c op useE src how f e 0 rd rs1 rs2) (hrd : rd.toNat < 4)
    (h : (useE = false → e = 0) ∧ (src ≠ .gg → rs1.toNat < 16) ∧ (src = .ww → rs2.toNat < 16)) (hv : f x = v) :
    CarriesTo s c jb x [useG rs1, useW rs1, useG rs2, useW rs2] (wP op e 0 rd rs1 rs2) i (withProduct x rd how v) := by
  obtain ⟨hE, h1, h2⟩ := h
  subst hv
  unfold State.mulInstr at hm
  refine carriesTo_of_row he hm ?_ ?_ rfl
  · intro u hu
    simp only [List.mem_cons, List.not_mem_nil, or_false] at hu ⊢
    rcases hu with rfl | rfl
    · by_cases hs : src = .gg <;> simp [hs, useG, useW]
    · by_cases hs : src = .ww <;> simp [hs, useG, useW]
  · have h1' : src ≠ .gg → rs1.toNat ≤ 15 := fun h => Nat.le_of_lt_succ (h1 h)
    have h2' : src = .ww → rs2.toNat ≤ 15 := fun h => Nat.le_of_lt_succ (h2 h)
    simpa [Nat.le_of_lt_succ hrd] using ⟨⟨hE, h1'⟩, h2'⟩

theorem carriesTo_toP {o : Res'} {wide : Bool} {f : Ctx → W128} (he : exec i s = o) (hm : o = s.toP c op wide f 0 0 rd rs1 0)
    (h4 : rd.toNat < 4) (h16 : wide = true → rs1.toNat < 16) :
    CarriesTo s c jb x [useG rd, useW rd, useG rs1, useW rs1] (wP op 0 0 rd rs1 0) i (x.setP rd.toNat (f x)) := by
  unfold State.toP at hm
  have h16' : wide = true → rs1.toNat ≤ 15 := fun h => Nat.le_of_lt_succ (h16 h)
  exact carriesTo_of_row he hm (by cases wide <;> simp [useG, useW]) (by simpa [Nat.le_of_lt_succ h4] using h16') rfl

theorem carriesTo_fromP {o : Res'} {wide : Bool} {f : Ctx → W128 → Ctx} (he : exec i s = o) (hm : o = s.fromP c op wide f 0 0 rd rs1 0)
    (h4 : rs1.toNat < 4) (h16 : wide = true → rd.toNat < 16) :
    CarriesTo s c jb x [useG rd, useW rd, useG rs1, useW rs1] (wP op 0 0 rd rs1 0) i (f x (x.rp rs1.toNat)) := by
  unfold State.fromP at hm
  have h16' : wide = true → rd.toNat ≤ 15 := fun h => Nat.le_of_lt_succ (h16 h)
  exact carriesTo_of_row he hm (by cases wide <;> simp [useG, useW]) (by simpa [Nat.le_of_lt_succ h4] using h16') rfl

end

/-- Settles O22: each row puts its product in flight; what is due lands, what is not stays. -/
theorem products : Obligations.Products := by
  refine ⟨?_, fun s c jb x => ⟨?_, ?_, ?_⟩⟩
  · intro s c e rd rs1 rs2 jb x i op how v w a b p q gf hrd hrow hi y hg
    suffices h : ∀ r : Instr × Nat × Land × W128, r ∈ _ →
        CarriesTo s c jb x [useG rs1, useW rs1, useG rs2, useW rs2] (wP r.2.1 e 0 rd rs1 rs2) r.1 (withProduct x rd r.2.2.1 r.2.2.2) from
      (h _ hrow).next hi hg
    clear hrow hi hg
    simp only [List.forall_mem_append]
    refine ⟨⟨forall_mem_guard fun h0 => ?_, forall_mem_guard fun ⟨h1, h2⟩ => List.forall_mem_append.mpr ⟨?_, forall_mem_guard fun h0 => ?_⟩⟩,
      forall_mem_guard fun ⟨h0, h1⟩ => ?_⟩
    · have hgg : (false = false → e = 0) ∧ (Src.gg ≠ .gg → rs1.toNat < 16) ∧ (Src.gg = .ww → rs2.toNat < 16) :=
        ⟨fun _ => h0, fun h => absurd rfl h, fun h => by cases h⟩
      refine List.forall_iff_forall_mem.mp ?_
      simp only [List.Forall]
      exact ⟨carriesTo_mul (o := execMul c e 0 rd rs1 rs2 s) rfl rfl hrd hgg (mulS_eq a b),
        carriesTo_mul (o := execMulu c e 0 rd rs1 rs2 s) rfl rfl hrd hgg (mulU_eq a b),
        carriesTo_mul (o := execMac c e 0 rd rs1 rs2 s) rfl rfl hrd hgg (mulS_eq a b),
        carriesTo_mul (o := execMacu c e 0 rd rs1 rs2 s) rfl rfl hrd hgg (mulU_eq a b),
        carriesTo_mul (o := execClmul c e 0 rd rs1 rs2 s) rfl rfl hrd hgg rfl,
        carriesTo_mul (o := execClmac c e 0 rd rs1 rs2 s) rfl rfl hrd hgg rfl⟩
    · have hww : (true = false → e = 0) ∧ (Src.ww ≠ .gg → rs1.toNat < 16) ∧ (Src.ww = .ww → rs2.toNat < 16) :=
        ⟨fun h => absurd h (by decide), fun _ => h1, fun _ => h2⟩
      refine List.forall_iff_forall_mem.mp ?_
      simp only [List.Forall]
      exact ⟨carriesTo_mul (o := execVmul c e 0 rd rs1 rs2 s) rfl rfl hrd hww rfl,
        carriesTo_mul (o := execVmac c e 0 rd rs1 rs2 s) rfl rfl hrd hww rfl⟩
    · have hww : (false = false → e = 0) ∧ (Src.ww ≠ .gg → rs1.toNat < 16) ∧ (Src.ww = .ww → rs2.toNat < 16) :=
        ⟨fun _ => h0, fun _ => h1, fun _ => h2⟩
      refine List.forall_iff_forall_mem.mp ?_
      simp only [List.Forall]
      exact ⟨carriesTo_mul (o := execGfmul c e 0 rd rs1 rs2 s) rfl rfl hrd hww rfl,
        carriesTo_mul (o := execGfmac c e 0 rd rs1 rs2 s) rfl rfl hrd hww rfl⟩
    · have hwg : (false = false → e = 0) ∧ (Src.wg ≠ .gg → rs1.toNat < 16) ∧ (Src.wg = .ww → rs2.toNat < 16) :=
        ⟨fun _ => h0, fun _ => h1, fun h => by cases h⟩
      refine List.forall_iff_forall_mem.mp ?_
      simp only [List.Forall]
      exact ⟨carriesTo_mul (o := execGfmuls c e 0 rd rs1 rs2 s) rfl rfl hrd hwg rfl,
        carriesTo_mul (o := execGfmacs c e 0 rd rs1 rs2 s) rfl rfl hrd hwg rfl⟩
  · intro hw hx
    change execProductLand c s = _
    unfold execProductLand
    rw [hw, hx]
    rfl
  · intro q hq
    refine ⟨fun hdue => ?_, fun hnot => ?_⟩
    · unfold Ctx.landDue
      rw [hq, List.filter_cons_of_pos (by simpa using hdue), List.filter_cons_of_neg (by simpa using hdue)]
      obtain ⟨r, issued, how, v⟩ := q
      cases how <;> rfl
    · unfold Ctx.landDue
      rw [hq, List.filter_cons_of_neg (by simpa using hnot), List.filter_cons_of_pos (by simpa using hnot)]
      simp [← hq]
  · intro rd rs1 i op y p hrow hi hg
    suffices h : ∀ r : Instr × Nat × Ctx, r ∈ _ →
        CarriesTo s c jb x [useG rd, useW rd, useG rs1, useW rs1] (wP r.2.1 0 0 rd rs1 0) r.1 r.2.2 from (h _ hrow).next hi hg
    clear hrow hi hg
    refine List.forall_mem_append.mpr ⟨forall_mem_guard fun h4 => List.forall_mem_append.mpr ⟨?_, forall_mem_guard fun h16 => ?_⟩,
      forall_mem_guard fun h4 => List.forall_mem_append.mpr ⟨?_, forall_mem_guard fun h16 => ?_⟩⟩
    · refine List.forall_iff_forall_mem.mp ?_
      exact carriesTo_toP (o := execMtpg c 0 0 rd rs1 0 s) rfl rfl h4 (fun h => absurd h (by decide))
    · refine List.forall_iff_forall_mem.mp ?_
      exact carriesTo_toP (o := execMtp c 0 0 rd rs1 0 s) rfl rfl h4 (fun _ => h16)
    · refine List.forall_iff_forall_mem.mp ?_
      simp only [List.Forall]
      exact ⟨carriesTo_fromP (o := execMfpl c 0 0 rd rs1 0 s) rfl rfl h4 (fun h => absurd h (by decide)),
        carriesTo_fromP (o := execMfph c 0 0 rd rs1 0 s) rfl rfl h4 (fun h => absurd h (by decide))⟩
    · refine List.forall_iff_forall_mem.mp ?_
      exact carriesTo_fromP (o := execMfp c 0 0 rd rs1 0 s) rfl rfl h4 (fun _ => h16)

/-! ### Work instructions (Table 14.9) -/

/-- A block in local memory that is aligned and lies in it is read (R402). -/
theorem localBlock_eq {s : State} {k n : Nat} {a : W64} {f : Bytes → Eff} (ha : a.toNat % n = 0) (hin : a.toNat + n ≤ 0x40000) :
    s.localBlock k n a f = f (getBytes (s.core k).lm a.toNat n) := by
  rw [State.localBlock, if_neg (not_not.mpr ha), if_neg (by omega)]

theorem headerBad_of {w : Nat} (h0 : bits w 3 0 = 3) (h1 : bits w 47 44 = 0) (h2 : bits w 63 59 = 0) : headerBad w = false := by
  simp [headerBad, h0, h1, h2]

/-- Settles O23: each instruction passes its checks, and its effect is the one stated. -/
theorem workInstructions : Obligations.WorkInstructions := by
  intro s c jb x k
  refine ⟨fun hdma hreq hend hi => ?_, fun hst hdma hi hg => ?_, fun hreq hi hg => ?_, fun imm hi => ?_, fun ra => ?_, fun ra => ?_, ?_⟩
  · change execDone c 0 0 0 s = _
    unfold execDone
    rw [hi.issueInstr_eq (List.Subset.refl _), if_neg (by simp [hend]), if_pos (by simp [Ctx.quiet, hdma, hreq])]
    rfl
  · change execFence c 0 0 0 s = _
    unfold execFence
    exact hi.next_of_on (List.Subset.refl _) rfl (if_neg (by simp [Ctx.unfenced, hst, hdma])) hg
  · change execWaitr c 0 0 0 s = _
    unfold execWaitr
    exact hi.next_of_on (List.Subset.refl _) rfl (if_pos (by simp [hreq])) hg
  · change execTrap c 0 0 imm s = _
    unfold execTrap
    exact hi.next_of_cause rfl rfl
  · intro a b i ha hin
    refine ⟨fun h0 h1 h2 hlive hroom hi hg => ?_, ?_, ?_⟩
    · change execPost c ra 0 0 s = _
      unfold execPost
      refine hi.next_of_on (List.Subset.refl _) rfl ?_ hg
      rw [localBlock_eq ha hin, if_neg (by rw [headerBad_of h0 h1 h2]; decide)]
      simp only [hlive]
      rw [if_neg (by decide), if_neg (Nat.not_le.mpr hroom)]
      rfl
    · intro hlen hrd hi q y hg
      change execReq c ra 0 0 s = _
      unfold execReq
      refine hi.next_of_on (List.Subset.refl _) rfl ?_ hg
      have hread : rqRead (getBytes (s.core (coreNo c)).lm (x.rg ra.toNat).toNat 32) = true := decide_eq_true hrd
      rw [localBlock_eq ha hin, if_neg (Nat.not_le.mpr hlen)]
      simp only [hread, Bool.not_true, Bool.false_and]
      rfl
    · intro hlen hop hi n off within y hp hg
      change execReq c ra 0 0 s = _
      unfold execReq
      refine hi.next_of_on (List.Subset.refl _) rfl ?_ hg
      have hread : rqRead (getBytes (s.core (coreNo c)).lm (x.rg ra.toNat).toNat 32) = false :=
        decide_eq_false fun h => absurd (h.symm.trans hop) (by decide)
      rw [localBlock_eq ha hin, if_neg (Nat.not_le.mpr hlen)]
      have hlen' : rqCount (getBytes (s.core (coreNo c)).lm (x.rg ra.toNat).toNat 32) * 4096 = n := Nat.mul_comm ..
      have hlost : ¬(!false && decide (byteAt b 0 = 2) && within && jb.poisoned (coreNo c) .dram off n) = true := by
        cases h : within with
        | false => simp
        | true => simp [show jb.poisoned (coreNo c) .dram off n = false from hp h]
      simp only [hread, hlen']
      exact if_neg hlost
  · intro a ha hin hlen hi y hg
    change execSvl c ra 0 0 s = _
    unfold execSvl
    refine hi.next_of_on (List.Subset.refl _) rfl ?_ hg
    exact (localBlock_eq ha hin).trans (if_neg (Nat.not_le.mpr hlen))
  · intro ra rb w off a n hpos hmax hwin hw hout hroom hp hi hg
    change execEmit c ra rb 0 s = _
    unfold execEmit
    refine hi.next_of_on (List.Subset.refl _) rfl ?_ hg
    have hrange : ¬(decide ((x.rg rb.toNat).toNat = 0) || decide ((x.rg rb.toNat).toNat > 65536)) = true := by
      simpa using ⟨hpos.ne', hmax⟩
    have hkind : ¬(decide (w ≠ .loc) && decide (w ≠ .dram)) = true := by rcases hw with rfl | rfl <;> decide
    dsimp only
    rw [if_neg hrange, hwin]
    dsimp only
    rw [if_neg hkind, if_neg (by simp [Job.outStall, hout]), if_neg (Nat.not_lt.mpr hroom), if_neg (by simpa using hp)]
    
end Sys2Proof.Machine
end

section
/-! Every command that names parts of the module answers a next state (O6). -/

namespace Sys2Proof.Machine

/-- `o` is a next state or, where `w` fails, a fault. -/
def Replies (w : Bool) (o : Res') : Prop := Answers o ∨ (w = false ∧ ∃ f, o = .fault f)

theorem Replies.go (w : Bool) (t : State) : Replies w (Machine.go t) := .inl ⟨t, rfl⟩

theorem Replies.ite {w : Bool} {p : Prop} [Decidable p] {a b : Res'} (ha : Replies w a) (hb : Replies w b) : Replies w (if p then a else b) := by
  split
  · exact ha
  · exact hb

/-- A check that only a command with a part the module does not have fails. -/
theorem Replies.guard {w : Bool} {p : Prop} [Decidable p] {f : Fault} {o : Res'} (h : w = true → ¬p) (ho : Replies w o) :
    Replies w (if p then .fault f else o) := by
  split
  · next hp => exact .inr ⟨by simpa using fun hw => h hw hp, f, rfl⟩
  · exact ho

theorem Replies.answers {w : Bool} {o : Res'} (h : Replies w o) (hw : w = true) : Answers o :=
  h.resolve_right fun ⟨hf, _⟩ => by simp [hw] at hf

theorem Replies.ne_refused {w : Bool} {o : Res'} (h : Replies w o) (e : Refusal) : o ≠ .refused e := by
  rintro rfl
  rcases h with ⟨_, h⟩ | ⟨_, _, h⟩ <;> cases h

theorem start_replies (w : Bool) (s : State) (r : Ref) (op : Nat) (f : Cmd → State) : Replies w (s.start r op f) := by
  unfold State.start
  repeat' first | with_reducible exact .go .. | with_reducible apply Replies.ite | split

theorem issueInstr_replies (s : State) (c : CoreId) (w : W32) (bad : Ctx → Bool) (uses : List (Bool × Nat)) (f : Job → Ctx → Eff) :
    Replies c.wf (s.issueInstr c w bad uses f) := by
  unfold State.issueInstr
  refine .guard (by simp) ?_
  simp only
  repeat' first | with_reducible exact .go .. | with_reducible apply Replies.ite | split

/-- What a deferred start does is a next state, whatever the opcode. -/
theorem startByOp_replies (w : Bool) (s : State) (r : Ref) (op : Nat) : Replies w (s.startByOp r op) := by
  unfold State.startByOp
  split
  case h_14 =>
    unfold execRestartRing
    repeat' first | with_reducible exact .go .. | with_reducible exact start_replies .. | with_reducible apply Replies.ite | split
  all_goals first | exact start_replies .. | exact .go ..

theorem intR_replies (s : State) (c : CoreId) (fn : Nat) (f : W64 → W64 → W64) (rd rs1 rs2 : Reg) : Replies c.wf (s.intR c fn
    f rd rs1 rs2) := by
  unfold State.intR
  exact issueInstr_replies ..

theorem intU_replies (s : State) (c : CoreId) (fn : Nat) (f : W64 → W64) (rd rs1 rs2 : Reg) : Replies c.wf (s.intU c fn f rd
    rs1 rs2) := by
  unfold State.intU
  exact issueInstr_replies ..

theorem intI_replies (s : State) (c : CoreId) (op : Nat) (bad : Bool) (f : W64 → W64) (rd rs1 : Reg) (imm : BitVec 16) :
    Replies c.wf (s.intI c op bad f rd rs1 imm) := by
  unfold State.intI
  exact issueInstr_replies ..

theorem crcInstr_replies (s : State) (c : CoreId) (fn n : Nat) (rd rs1 rs2 : Reg) : Replies c.wf (s.crcInstr c fn n rd rs1
    rs2) := by
  unfold State.crcInstr
  exact issueInstr_replies ..

theorem branch_replies (s : State) (c : CoreId) (op : Nat) (f : W64 → W64 → Bool) (rs1 rs2 : Reg) (disp : BitVec 16) :
    Replies c.wf (s.branch c op f rs1 rs2 disp) := by
  unfold State.branch
  exact issueInstr_replies ..

theorem atom_replies (s : State) (c : CoreId) (op : Nat) (f : W64 → W64 → W64 → W64) (rd rs1 rs2 : Reg) (fn : BitVec 11) :
    Replies c.wf (s.atom c op f rd rs1 rs2 fn) := by
  unfold State.atom
  exact issueInstr_replies ..

theorem simd_replies (s : State) (c : CoreId) (op : Nat) (only8 : Bool) (f : W128 → W128 → W128) (e : BitVec 2) (lane :
    BitVec 4) (rd rs1 rs2 : Reg) : Replies c.wf (s.simd c op only8 f e lane rd rs1 rs2) := by
  unfold State.simd
  exact issueInstr_replies ..

theorem mulInstr_replies (s : State) (c : CoreId) (op : Nat) (useE : Bool) (src : Src) (lands : Land) (f : Ctx → W128) (e :
    BitVec 2) (z : BitVec 3) (rd rs1 rs2 : Reg) : Replies c.wf (s.mulInstr c op useE src lands f e z rd rs1 rs2) := by
  unfold State.mulInstr
  exact issueInstr_replies ..

theorem toP_replies (s : State) (c : CoreId) (op : Nat) (wide : Bool) (f : Ctx → W128) (e : BitVec 2) (z : BitVec 3) (rd rs1
    rs2 : Reg) : Replies c.wf (s.toP c op wide f e z rd rs1 rs2) := by
  unfold State.toP
  exact issueInstr_replies ..

theorem fromP_replies (s : State) (c : CoreId) (op : Nat) (wide : Bool) (f : Ctx → W128 → Ctx) (e : BitVec 2) (z : BitVec 3)
    (rd rs1 rs2 : Reg) : Replies c.wf (s.fromP c op wide f e z rd rs1 rs2) := by
  unfold State.fromP
  exact issueInstr_replies ..

theorem execAdd_replies (c : CoreId) (rd rs1 rs2 : Reg) (s : State) : Replies c.wf (execAdd c rd rs1 rs2 s) :=
  intR_replies _ _ _ _ _ _ _

theorem execSub_replies (c : CoreId) (rd rs1 rs2 : Reg) (s : State) : Replies c.wf (execSub c rd rs1 rs2 s) :=
  intR_replies _ _ _ _ _ _ _

theorem execAnd_replies (c : CoreId) (rd rs1 rs2 : Reg) (s : State) : Replies c.wf (execAnd_ c rd rs1 rs2 s) :=
  intR_replies _ _ _ _ _ _ _

theorem execOr_replies (c : CoreId) (rd rs1 rs2 : Reg) (s : State) : Replies c.wf (execOr_ c rd rs1 rs2 s) :=
  intR_replies _ _ _ _ _ _ _

theorem execXor_replies (c : CoreId) (rd rs1 rs2 : Reg) (s : State) : Replies c.wf (execXor c rd rs1 rs2 s) :=
  intR_replies _ _ _ _ _ _ _

theorem execAndn_replies (c : CoreId) (rd rs1 rs2 : Reg) (s : State) : Replies c.wf (execAndn c rd rs1 rs2 s) :=
  intR_replies _ _ _ _ _ _ _

theorem execSll_replies (c : CoreId) (rd rs1 rs2 : Reg) (s : State) : Replies c.wf (execSll c rd rs1 rs2 s) :=
  intR_replies _ _ _ _ _ _ _

theorem execSrl_replies (c : CoreId) (rd rs1 rs2 : Reg) (s : State) : Replies c.wf (execSrl c rd rs1 rs2 s) :=
  intR_replies _ _ _ _ _ _ _

theorem execSra_replies (c : CoreId) (rd rs1 rs2 : Reg) (s : State) : Replies c.wf (execSra c rd rs1 rs2 s) :=
  intR_replies _ _ _ _ _ _ _

theorem execRor_replies (c : CoreId) (rd rs1 rs2 : Reg) (s : State) : Replies c.wf (execRor c rd rs1 rs2 s) :=
  intR_replies _ _ _ _ _ _ _

theorem execSeq_replies (c : CoreId) (rd rs1 rs2 : Reg) (s : State) : Replies c.wf (execSeq c rd rs1 rs2 s) :=
  intR_replies _ _ _ _ _ _ _

theorem execSne_replies (c : CoreId) (rd rs1 rs2 : Reg) (s : State) : Replies c.wf (execSne c rd rs1 rs2 s) :=
  intR_replies _ _ _ _ _ _ _

theorem execSlt_replies (c : CoreId) (rd rs1 rs2 : Reg) (s : State) : Replies c.wf (execSlt c rd rs1 rs2 s) :=
  intR_replies _ _ _ _ _ _ _

theorem execSltu_replies (c : CoreId) (rd rs1 rs2 : Reg) (s : State) : Replies c.wf (execSltu c rd rs1 rs2 s) :=
  intR_replies _ _ _ _ _ _ _

theorem execMin_replies (c : CoreId) (rd rs1 rs2 : Reg) (s : State) : Replies c.wf (execMin c rd rs1 rs2 s) :=
  intR_replies _ _ _ _ _ _ _

theorem execMax_replies (c : CoreId) (rd rs1 rs2 : Reg) (s : State) : Replies c.wf (execMax c rd rs1 rs2 s) :=
  intR_replies _ _ _ _ _ _ _

theorem execMinu_replies (c : CoreId) (rd rs1 rs2 : Reg) (s : State) : Replies c.wf (execMinu c rd rs1 rs2 s) :=
  intR_replies _ _ _ _ _ _ _

theorem execMaxu_replies (c : CoreId) (rd rs1 rs2 : Reg) (s : State) : Replies c.wf (execMaxu c rd rs1 rs2 s) :=
  intR_replies _ _ _ _ _ _ _

theorem execClz_replies (c : CoreId) (rd rs1 rs2 : Reg) (s : State) : Replies c.wf (execClz c rd rs1 rs2 s) :=
  intU_replies _ _ _ _ _ _ _

theorem execCtz_replies (c : CoreId) (rd rs1 rs2 : Reg) (s : State) : Replies c.wf (execCtz c rd rs1 rs2 s) :=
  intU_replies _ _ _ _ _ _ _

theorem execPopc_replies (c : CoreId) (rd rs1 rs2 : Reg) (s : State) : Replies c.wf (execPopc c rd rs1 rs2 s) :=
  intU_replies _ _ _ _ _ _ _

theorem execBswap_replies (c : CoreId) (rd rs1 rs2 : Reg) (s : State) : Replies c.wf (execBswap c rd rs1 rs2 s) :=
  intU_replies _ _ _ _ _ _ _

theorem execAddi_replies (c : CoreId) (rd rs1 : Reg) (imm : BitVec 16) (s : State) : Replies c.wf (execAddi c rd rs1 imm s) :=
  intI_replies _ _ _ _ _ _ _ _

theorem execAndi_replies (c : CoreId) (rd rs1 : Reg) (imm : BitVec 16) (s : State) : Replies c.wf (execAndi c rd rs1 imm s) :=
  intI_replies _ _ _ _ _ _ _ _

theorem execOri_replies (c : CoreId) (rd rs1 : Reg) (imm : BitVec 16) (s : State) : Replies c.wf (execOri c rd rs1 imm s) :=
  intI_replies _ _ _ _ _ _ _ _

theorem execXori_replies (c : CoreId) (rd rs1 : Reg) (imm : BitVec 16) (s : State) : Replies c.wf (execXori c rd rs1 imm s) :=
  intI_replies _ _ _ _ _ _ _ _

theorem execSlti_replies (c : CoreId) (rd rs1 : Reg) (imm : BitVec 16) (s : State) : Replies c.wf (execSlti c rd rs1 imm s) :=
  intI_replies _ _ _ _ _ _ _ _

theorem execSltiu_replies (c : CoreId) (rd rs1 : Reg) (imm : BitVec 16) (s : State) : Replies c.wf (execSltiu c rd rs1 imm s) :=
  intI_replies _ _ _ _ _ _ _ _

theorem execSlli_replies (c : CoreId) (rd rs1 : Reg) (imm : BitVec 16) (s : State) : Replies c.wf (execSlli c rd rs1 imm s) :=
  intI_replies _ _ _ _ _ _ _ _

theorem execSrli_replies (c : CoreId) (rd rs1 : Reg) (imm : BitVec 16) (s : State) : Replies c.wf (execSrli c rd rs1 imm s) :=
  intI_replies _ _ _ _ _ _ _ _

theorem execSrai_replies (c : CoreId) (rd rs1 : Reg) (imm : BitVec 16) (s : State) : Replies c.wf (execSrai c rd rs1 imm s) :=
  intI_replies _ _ _ _ _ _ _ _

theorem execCati_replies (c : CoreId) (rd z : Reg) (imm : BitVec 16) (s : State) : Replies c.wf (execCati c rd z imm s) := by
  unfold execCati
  exact issueInstr_replies ..

theorem execCrc32cB_replies (c : CoreId) (rd rs1 rs2 : Reg) (s : State) : Replies c.wf (execCrc32cB c rd rs1 rs2 s) :=
  crcInstr_replies _ _ _ _ _ _ _

theorem execCrc32cH_replies (c : CoreId) (rd rs1 rs2 : Reg) (s : State) : Replies c.wf (execCrc32cH c rd rs1 rs2 s) :=
  crcInstr_replies _ _ _ _ _ _ _

theorem execCrc32cW_replies (c : CoreId) (rd rs1 rs2 : Reg) (s : State) : Replies c.wf (execCrc32cW c rd rs1 rs2 s) :=
  crcInstr_replies _ _ _ _ _ _ _

theorem execCrc32cD_replies (c : CoreId) (rd rs1 rs2 : Reg) (s : State) : Replies c.wf (execCrc32cD c rd rs1 rs2 s) :=
  crcInstr_replies _ _ _ _ _ _ _

theorem execBeq_replies (c : CoreId) (rs1 rs2 : Reg) (disp : BitVec 16) (s : State) : Replies c.wf (execBeq c rs1 rs2 disp s) :=
  branch_replies _ _ _ _ _ _ _

theorem execBne_replies (c : CoreId) (rs1 rs2 : Reg) (disp : BitVec 16) (s : State) : Replies c.wf (execBne c rs1 rs2 disp s) :=
  branch_replies _ _ _ _ _ _ _

theorem execBlt_replies (c : CoreId) (rs1 rs2 : Reg) (disp : BitVec 16) (s : State) : Replies c.wf (execBlt c rs1 rs2 disp s) :=
  branch_replies _ _ _ _ _ _ _

theorem execBge_replies (c : CoreId) (rs1 rs2 : Reg) (disp : BitVec 16) (s : State) : Replies c.wf (execBge c rs1 rs2 disp s) :=
  branch_replies _ _ _ _ _ _ _

theorem execBltu_replies (c : CoreId) (rs1 rs2 : Reg) (disp : BitVec 16) (s : State) : Replies c.wf (execBltu c rs1 rs2 disp
    s) :=
  branch_replies _ _ _ _ _ _ _

theorem execBgeu_replies (c : CoreId) (rs1 rs2 : Reg) (disp : BitVec 16) (s : State) : Replies c.wf (execBgeu c rs1 rs2 disp
    s) :=
  branch_replies _ _ _ _ _ _ _

theorem execJ_replies (c : CoreId) (disp : BitVec 26) (s : State) : Replies c.wf (execJ c disp s) := by
  unfold execJ
  exact issueInstr_replies ..

theorem execCall_replies (c : CoreId) (disp : BitVec 26) (s : State) : Replies c.wf (execCall c disp s) := by
  unfold execCall
  exact issueInstr_replies ..

theorem execJalr_replies (c : CoreId) (rd rs1 : Reg) (imm : BitVec 16) (s : State) : Replies c.wf (execJalr c rd rs1 imm s) := by
  unfold execJalr
  exact issueInstr_replies ..

theorem execLd_replies (c : CoreId) (rt : Reg) (ak : BitVec 3) (upd sz : BitVec 2) (sx : Bool) (imm : BitVec 13) (s : State)
    : Replies c.wf (execLd c rt ak upd sz sx imm s) := by
  unfold execLd
  exact issueInstr_replies ..

theorem execSt_replies (c : CoreId) (rt : Reg) (ak : BitVec 3) (upd sz : BitVec 2) (sx : Bool) (imm : BitVec 13) (s : State)
    : Replies c.wf (execSt c rt ak upd sz sx imm s) := by
  unfold execSt
  exact issueInstr_replies ..

theorem execLdq_replies (c : CoreId) (rt : Reg) (ak : BitVec 3) (upd sz : BitVec 2) (sx : Bool) (imm : BitVec 13) (s : State)
    : Replies c.wf (execLdq c rt ak upd sz sx imm s) := by
  unfold execLdq
  exact issueInstr_replies ..

theorem execStq_replies (c : CoreId) (rt : Reg) (ak : BitVec 3) (upd sz : BitVec 2) (sx : Bool) (imm : BitVec 13) (s : State)
    : Replies c.wf (execStq c rt ak upd sz sx imm s) := by
  unfold execStq
  exact issueInstr_replies ..

theorem execAtomCas_replies (c : CoreId) (rd rs1 rs2 : Reg) (fn : BitVec 11) (s : State) : Replies c.wf (execAtomCas c rd rs1
    rs2 fn s) :=
  atom_replies _ _ _ _ _ _ _ _

theorem execAtomSwap_replies (c : CoreId) (rd rs1 rs2 : Reg) (fn : BitVec 11) (s : State) : Replies c.wf (execAtomSwap c rd
    rs1 rs2 fn s) :=
  atom_replies _ _ _ _ _ _ _ _

theorem execAtomFadd_replies (c : CoreId) (rd rs1 rs2 : Reg) (fn : BitVec 11) (s : State) : Replies c.wf (execAtomFadd c rd
    rs1 rs2 fn s) :=
  atom_replies _ _ _ _ _ _ _ _

theorem execAdda_replies (c : CoreId) (rs : Reg) (ak : BitVec 3) (imm : BitVec 16) (s : State) : Replies c.wf (execAdda c rs
    ak imm s) := by
  unfold execAdda
  exact issueInstr_replies ..

theorem execAddar_replies (c : CoreId) (rs : Reg) (ak : BitVec 3) (imm : BitVec 16) (s : State) : Replies c.wf (execAddar c
    rs ak imm s) := by
  unfold execAddar
  exact issueInstr_replies ..

theorem execMva_replies (c : CoreId) (rs : Reg) (ak : BitVec 3) (imm : BitVec 16) (s : State) : Replies c.wf (execMva c rs ak
    imm s) := by
  unfold execMva
  exact issueInstr_replies ..

theorem execMvm_replies (c : CoreId) (rs : Reg) (ak : BitVec 3) (imm : BitVec 16) (s : State) : Replies c.wf (execMvm c rs ak
    imm s) := by
  unfold execMvm
  exact issueInstr_replies ..

theorem execMfa_replies (c : CoreId) (rs : Reg) (ak : BitVec 3) (imm : BitVec 16) (s : State) : Replies c.wf (execMfa c rs ak
    imm s) := by
  unfold execMfa
  exact issueInstr_replies ..

theorem execMfm_replies (c : CoreId) (rs : Reg) (ak : BitVec 3) (imm : BitVec 16) (s : State) : Replies c.wf (execMfm c rs ak
    imm s) := by
  unfold execMfm
  exact issueInstr_replies ..

theorem execDma_replies (c : CoreId) (rd rs1 rs2 : Reg) (fn : BitVec 11) (s : State) : Replies c.wf (execDma c rd rs1 rs2 fn
    s) := by
  unfold execDma
  exact issueInstr_replies ..

theorem execVadd_replies (c : CoreId) (e : BitVec 2) (lane : BitVec 4) (rd rs1 rs2 : Reg) (s : State) : Replies c.wf
    (execVadd c e lane rd rs1 rs2 s) :=
  simd_replies _ _ _ _ _ _ _ _ _ _

theorem execVsub_replies (c : CoreId) (e : BitVec 2) (lane : BitVec 4) (rd rs1 rs2 : Reg) (s : State) : Replies c.wf
    (execVsub c e lane rd rs1 rs2 s) :=
  simd_replies _ _ _ _ _ _ _ _ _ _

theorem execVadds_replies (c : CoreId) (e : BitVec 2) (lane : BitVec 4) (rd rs1 rs2 : Reg) (s : State) : Replies c.wf
    (execVadds c e lane rd rs1 rs2 s) :=
  simd_replies _ _ _ _ _ _ _ _ _ _

theorem execVsubs_replies (c : CoreId) (e : BitVec 2) (lane : BitVec 4) (rd rs1 rs2 : Reg) (s : State) : Replies c.wf
    (execVsubs c e lane rd rs1 rs2 s) :=
  simd_replies _ _ _ _ _ _ _ _ _ _

theorem execVaddus_replies (c : CoreId) (e : BitVec 2) (lane : BitVec 4) (rd rs1 rs2 : Reg) (s : State) : Replies c.wf
    (execVaddus c e lane rd rs1 rs2 s) :=
  simd_replies _ _ _ _ _ _ _ _ _ _

theorem execVsubus_replies (c : CoreId) (e : BitVec 2) (lane : BitVec 4) (rd rs1 rs2 : Reg) (s : State) : Replies c.wf
    (execVsubus c e lane rd rs1 rs2 s) :=
  simd_replies _ _ _ _ _ _ _ _ _ _

theorem execVmin_replies (c : CoreId) (e : BitVec 2) (lane : BitVec 4) (rd rs1 rs2 : Reg) (s : State) : Replies c.wf
    (execVmin c e lane rd rs1 rs2 s) :=
  simd_replies _ _ _ _ _ _ _ _ _ _

theorem execVmax_replies (c : CoreId) (e : BitVec 2) (lane : BitVec 4) (rd rs1 rs2 : Reg) (s : State) : Replies c.wf
    (execVmax c e lane rd rs1 rs2 s) :=
  simd_replies _ _ _ _ _ _ _ _ _ _

theorem execVminu_replies (c : CoreId) (e : BitVec 2) (lane : BitVec 4) (rd rs1 rs2 : Reg) (s : State) : Replies c.wf
    (execVminu c e lane rd rs1 rs2 s) :=
  simd_replies _ _ _ _ _ _ _ _ _ _

theorem execVmaxu_replies (c : CoreId) (e : BitVec 2) (lane : BitVec 4) (rd rs1 rs2 : Reg) (s : State) : Replies c.wf
    (execVmaxu c e lane rd rs1 rs2 s) :=
  simd_replies _ _ _ _ _ _ _ _ _ _

theorem execVceq_replies (c : CoreId) (e : BitVec 2) (lane : BitVec 4) (rd rs1 rs2 : Reg) (s : State) : Replies c.wf
    (execVceq c e lane rd rs1 rs2 s) :=
  simd_replies _ _ _ _ _ _ _ _ _ _

theorem execVcgt_replies (c : CoreId) (e : BitVec 2) (lane : BitVec 4) (rd rs1 rs2 : Reg) (s : State) : Replies c.wf
    (execVcgt c e lane rd rs1 rs2 s) :=
  simd_replies _ _ _ _ _ _ _ _ _ _

theorem execVcgtu_replies (c : CoreId) (e : BitVec 2) (lane : BitVec 4) (rd rs1 rs2 : Reg) (s : State) : Replies c.wf
    (execVcgtu c e lane rd rs1 rs2 s) :=
  simd_replies _ _ _ _ _ _ _ _ _ _

theorem execVsll_replies (c : CoreId) (e : BitVec 2) (lane : BitVec 4) (rd rs1 rs2 : Reg) (s : State) : Replies c.wf
    (execVsll c e lane rd rs1 rs2 s) :=
  simd_replies _ _ _ _ _ _ _ _ _ _

theorem execVsrl_replies (c : CoreId) (e : BitVec 2) (lane : BitVec 4) (rd rs1 rs2 : Reg) (s : State) : Replies c.wf
    (execVsrl c e lane rd rs1 rs2 s) :=
  simd_replies _ _ _ _ _ _ _ _ _ _

theorem execVsra_replies (c : CoreId) (e : BitVec 2) (lane : BitVec 4) (rd rs1 rs2 : Reg) (s : State) : Replies c.wf
    (execVsra c e lane rd rs1 rs2 s) :=
  simd_replies _ _ _ _ _ _ _ _ _ _

theorem execVand_replies (c : CoreId) (e : BitVec 2) (lane : BitVec 4) (rd rs1 rs2 : Reg) (s : State) : Replies c.wf
    (execVand c e lane rd rs1 rs2 s) :=
  simd_replies _ _ _ _ _ _ _ _ _ _

theorem execVor_replies (c : CoreId) (e : BitVec 2) (lane : BitVec 4) (rd rs1 rs2 : Reg) (s : State) : Replies c.wf (execVor
    c e lane rd rs1 rs2 s) :=
  simd_replies _ _ _ _ _ _ _ _ _ _

theorem execVxor_replies (c : CoreId) (e : BitVec 2) (lane : BitVec 4) (rd rs1 rs2 : Reg) (s : State) : Replies c.wf
    (execVxor c e lane rd rs1 rs2 s) :=
  simd_replies _ _ _ _ _ _ _ _ _ _

theorem execVandn_replies (c : CoreId) (e : BitVec 2) (lane : BitVec 4) (rd rs1 rs2 : Reg) (s : State) : Replies c.wf
    (execVandn c e lane rd rs1 rs2 s) :=
  simd_replies _ _ _ _ _ _ _ _ _ _

theorem execVsel_replies (c : CoreId) (e : BitVec 2) (lane : BitVec 4) (rd rs1 rs2 : Reg) (s : State) : Replies c.wf
    (execVsel c e lane rd rs1 rs2 s) := by
  unfold execVsel
  exact issueInstr_replies ..

theorem execVshuf_replies (c : CoreId) (e : BitVec 2) (lane : BitVec 4) (rd rs1 rs2 : Reg) (s : State) : Replies c.wf
    (execVshuf c e lane rd rs1 rs2 s) :=
  simd_replies _ _ _ _ _ _ _ _ _ _

theorem execVbcast_replies (c : CoreId) (e : BitVec 2) (lane : BitVec 4) (rd rs1 rs2 : Reg) (s : State) : Replies c.wf
    (execVbcast c e lane rd rs1 rs2 s) := by
  unfold execVbcast
  exact issueInstr_replies ..

theorem execVins_replies (c : CoreId) (e : BitVec 2) (lane : BitVec 4) (rd rs1 rs2 : Reg) (s : State) : Replies c.wf
    (execVins c e lane rd rs1 rs2 s) := by
  unfold execVins
  exact issueInstr_replies ..

theorem execVext_replies (c : CoreId) (e : BitVec 2) (lane : BitVec 4) (rd rs1 rs2 : Reg) (s : State) : Replies c.wf
    (execVext c e lane rd rs1 rs2 s) := by
  unfold execVext
  exact issueInstr_replies ..

theorem execVsum_replies (c : CoreId) (e : BitVec 2) (lane : BitVec 4) (rd rs1 rs2 : Reg) (s : State) : Replies c.wf
    (execVsum c e lane rd rs1 rs2 s) := by
  unfold execVsum
  exact issueInstr_replies ..

theorem execVmov_replies (c : CoreId) (e : BitVec 2) (lane : BitVec 4) (rd rs1 rs2 : Reg) (s : State) : Replies c.wf
    (execVmov c e lane rd rs1 rs2 s) := by
  unfold execVmov
  exact issueInstr_replies ..

theorem execMul_replies (c : CoreId) (e : BitVec 2) (z : BitVec 3) (rd rs1 rs2 : Reg) (s : State) : Replies c.wf (execMul c e
    z rd rs1 rs2 s) :=
  mulInstr_replies _ _ _ _ _ _ _ _ _ _ _ _

theorem execMulu_replies (c : CoreId) (e : BitVec 2) (z : BitVec 3) (rd rs1 rs2 : Reg) (s : State) : Replies c.wf (execMulu c
    e z rd rs1 rs2 s) :=
  mulInstr_replies _ _ _ _ _ _ _ _ _ _ _ _

theorem execMac_replies (c : CoreId) (e : BitVec 2) (z : BitVec 3) (rd rs1 rs2 : Reg) (s : State) : Replies c.wf (execMac c e
    z rd rs1 rs2 s) :=
  mulInstr_replies _ _ _ _ _ _ _ _ _ _ _ _

theorem execMacu_replies (c : CoreId) (e : BitVec 2) (z : BitVec 3) (rd rs1 rs2 : Reg) (s : State) : Replies c.wf (execMacu c
    e z rd rs1 rs2 s) :=
  mulInstr_replies _ _ _ _ _ _ _ _ _ _ _ _

theorem execVmul_replies (c : CoreId) (e : BitVec 2) (z : BitVec 3) (rd rs1 rs2 : Reg) (s : State) : Replies c.wf (execVmul c
    e z rd rs1 rs2 s) :=
  mulInstr_replies _ _ _ _ _ _ _ _ _ _ _ _

theorem execVmac_replies (c : CoreId) (e : BitVec 2) (z : BitVec 3) (rd rs1 rs2 : Reg) (s : State) : Replies c.wf (execVmac c
    e z rd rs1 rs2 s) :=
  mulInstr_replies _ _ _ _ _ _ _ _ _ _ _ _

theorem execClmul_replies (c : CoreId) (e : BitVec 2) (z : BitVec 3) (rd rs1 rs2 : Reg) (s : State) : Replies c.wf (execClmul
    c e z rd rs1 rs2 s) :=
  mulInstr_replies _ _ _ _ _ _ _ _ _ _ _ _

theorem execClmac_replies (c : CoreId) (e : BitVec 2) (z : BitVec 3) (rd rs1 rs2 : Reg) (s : State) : Replies c.wf (execClmac
    c e z rd rs1 rs2 s) :=
  mulInstr_replies _ _ _ _ _ _ _ _ _ _ _ _

theorem execGfmul_replies (c : CoreId) (e : BitVec 2) (z : BitVec 3) (rd rs1 rs2 : Reg) (s : State) : Replies c.wf (execGfmul
    c e z rd rs1 rs2 s) :=
  mulInstr_replies _ _ _ _ _ _ _ _ _ _ _ _

theorem execGfmac_replies (c : CoreId) (e : BitVec 2) (z : BitVec 3) (rd rs1 rs2 : Reg) (s : State) : Replies c.wf (execGfmac
    c e z rd rs1 rs2 s) :=
  mulInstr_replies _ _ _ _ _ _ _ _ _ _ _ _

theorem execGfmuls_replies (c : CoreId) (e : BitVec 2) (z : BitVec 3) (rd rs1 rs2 : Reg) (s : State) : Replies c.wf
    (execGfmuls c e z rd rs1 rs2 s) :=
  mulInstr_replies _ _ _ _ _ _ _ _ _ _ _ _

theorem execGfmacs_replies (c : CoreId) (e : BitVec 2) (z : BitVec 3) (rd rs1 rs2 : Reg) (s : State) : Replies c.wf
    (execGfmacs c e z rd rs1 rs2 s) :=
  mulInstr_replies _ _ _ _ _ _ _ _ _ _ _ _

theorem execMtp_replies (c : CoreId) (e : BitVec 2) (z : BitVec 3) (rd rs1 rs2 : Reg) (s : State) : Replies c.wf (execMtp c e
    z rd rs1 rs2 s) :=
  toP_replies _ _ _ _ _ _ _ _ _ _

theorem execMtpg_replies (c : CoreId) (e : BitVec 2) (z : BitVec 3) (rd rs1 rs2 : Reg) (s : State) : Replies c.wf (execMtpg c
    e z rd rs1 rs2 s) :=
  toP_replies _ _ _ _ _ _ _ _ _ _

theorem execMfp_replies (c : CoreId) (e : BitVec 2) (z : BitVec 3) (rd rs1 rs2 : Reg) (s : State) : Replies c.wf (execMfp c e
    z rd rs1 rs2 s) :=
  fromP_replies _ _ _ _ _ _ _ _ _ _

theorem execMfpl_replies (c : CoreId) (e : BitVec 2) (z : BitVec 3) (rd rs1 rs2 : Reg) (s : State) : Replies c.wf (execMfpl c
    e z rd rs1 rs2 s) :=
  fromP_replies _ _ _ _ _ _ _ _ _ _

theorem execMfph_replies (c : CoreId) (e : BitVec 2) (z : BitVec 3) (rd rs1 rs2 : Reg) (s : State) : Replies c.wf (execMfph c
    e z rd rs1 rs2 s) :=
  fromP_replies _ _ _ _ _ _ _ _ _ _

theorem execLoop_replies (c : CoreId) (rs z : Reg) (fin : BitVec 16) (s : State) : Replies c.wf (execLoop c rs z fin s) := by
  unfold execLoop
  exact issueInstr_replies ..

theorem execLoopi_replies (c : CoreId) (cnt : BitVec 10) (fin : BitVec 16) (s : State) : Replies c.wf (execLoopi c cnt fin s) := by
  unfold execLoopi
  exact issueInstr_replies ..

theorem execLbrk_replies (c : CoreId) (z : BitVec 26) (s : State) : Replies c.wf (execLbrk c z s) := by
  unfold execLbrk
  exact issueInstr_replies ..

theorem execDone_replies (c : CoreId) (ra rb : Reg) (imm : BitVec 8) (s : State) : Replies c.wf (execDone c ra rb imm s) := by
  unfold execDone
  exact issueInstr_replies ..

theorem execFence_replies (c : CoreId) (ra rb : Reg) (imm : BitVec 8) (s : State) : Replies c.wf (execFence c ra rb imm s) := by
  unfold execFence
  exact issueInstr_replies ..

theorem execTrap_replies (c : CoreId) (ra rb : Reg) (imm : BitVec 8) (s : State) : Replies c.wf (execTrap c ra rb imm s) := by
  unfold execTrap
  exact issueInstr_replies ..

theorem execPost_replies (c : CoreId) (ra rb : Reg) (imm : BitVec 8) (s : State) : Replies c.wf (execPost c ra rb imm s) := by
  unfold execPost
  exact issueInstr_replies ..

theorem execReq_replies (c : CoreId) (ra rb : Reg) (imm : BitVec 8) (s : State) : Replies c.wf (execReq c ra rb imm s) := by
  unfold execReq
  exact issueInstr_replies ..

theorem execEmit_replies (c : CoreId) (ra rb : Reg) (imm : BitVec 8) (s : State) : Replies c.wf (execEmit c ra rb imm s) := by
  unfold execEmit
  exact issueInstr_replies ..

theorem execSvl_replies (c : CoreId) (ra rb : Reg) (imm : BitVec 8) (s : State) : Replies c.wf (execSvl c ra rb imm s) := by
  unfold execSvl
  exact issueInstr_replies ..

theorem execWaitd_replies (c : CoreId) (ra rb : Reg) (imm : BitVec 8) (s : State) : Replies c.wf (execWaitd c ra rb imm s) := by
  unfold execWaitd
  exact issueInstr_replies ..

theorem execWaitr_replies (c : CoreId) (ra rb : Reg) (imm : BitVec 8) (s : State) : Replies c.wf (execWaitr c ra rb imm s) := by
  unfold execWaitr
  exact issueInstr_replies ..

theorem execMfsr_replies (c : CoreId) (rd : Reg) (z : BitVec 9) (sr : BitVec 12) (s : State) : Replies c.wf (execMfsr c rd z
    sr s) := by
  unfold execMfsr
  exact issueInstr_replies ..

theorem execMtsr_replies (c : CoreId) (rs : Reg) (z : BitVec 9) (sr : BitVec 12) (s : State) : Replies c.wf (execMtsr c rs z
    sr s) := by
  unfold execMtsr
  exact issueInstr_replies ..

theorem execBellBoundary_replies (wf : Bool) (e : BellEnv) (s : State) : Replies wf (execBellBoundary e s) := by
  unfold execBellBoundary
  repeat' first | with_reducible exact .go .. | with_reducible apply Replies.ite

theorem execCheckpointBegin_replies (wf : Bool) (s : State) : Replies wf (execCheckpointBegin s) := by
  unfold execCheckpointBegin
  repeat' first | with_reducible exact .go .. | with_reducible apply Replies.ite

theorem execCheckpointComplete_replies (wf : Bool) (s : State) : Replies wf (execCheckpointComplete s) := by
  unfold execCheckpointComplete
  repeat' first | with_reducible exact .go .. | with_reducible apply Replies.ite | split

theorem execParkingComplete_replies (wf : Bool) (h z : Nat) (s : State) : Replies wf (execParkingComplete h z s) := by
  unfold execParkingComplete
  dsimp only
  repeat' first | with_reducible exact .go .. | with_reducible apply Replies.ite | split

theorem execStagingDrain_replies (wf : Bool) (s : State) : Replies wf (execStagingDrain s) := by
  unfold execStagingDrain
  with_reducible exact .go ..

theorem execDoorbellPollIssue_replies (wf : Bool) (fn page : Nat) (s : State) : Replies wf (execDoorbellPollIssue fn page s) := by
  unfold execDoorbellPollIssue
  dsimp only
  repeat' first | with_reducible exact .go .. | with_reducible apply Replies.ite | split

theorem execDoorbellPollResponse_replies (wf : Bool) (fn page : Nat) (words : List W64) (s : State) : Replies wf
    (execDoorbellPollResponse fn page words s) := by
  unfold execDoorbellPollResponse
  repeat' first | with_reducible exact .go .. | split

theorem execRingDoze_replies (wf : Bool) (fn sq : Nat) (s : State) : Replies wf (execRingDoze fn sq s) := by
  unfold execRingDoze
  repeat' first | with_reducible exact .go .. | with_reducible apply Replies.ite | split

theorem execKnock_replies (wf : Bool) (p : PortId) (k : KnockPkt) (s : State) : Replies wf (execKnock p k s) := by
  unfold execKnock
  repeat' first | with_reducible exact .go .. | with_reducible apply Replies.ite

theorem execEntryFetchResponse_replies (wf : Bool) (fn sq : Nat) (data : Bytes) (s : State) : Replies wf
    (execEntryFetchResponse fn sq data s) := by
  unfold execEntryFetchResponse
  repeat' first | with_reducible exact .go .. | with_reducible apply Replies.ite | split

theorem execHeadWordResponse_replies (wf : Bool) (fn cq : Nat) (w : W64) (s : State) : Replies wf (execHeadWordResponse fn cq
    w s) := by
  unfold execHeadWordResponse
  repeat' first | with_reducible exact .go .. | with_reducible apply Replies.ite | split

theorem execChainedListResponse_replies (wf : Bool) (r : Ref) (data : Bytes) (s : State) : Replies wf
    (execChainedListResponse r data s) := by
  unfold execChainedListResponse
  repeat' first | with_reducible exact .go .. | with_reducible apply Replies.ite | split

theorem execParameterBlockResponse_replies (wf : Bool) (r : Ref) (data : Bytes) (s : State) : Replies wf
    (execParameterBlockResponse r data s) := by
  unfold execParameterBlockResponse
  repeat' first | with_reducible exact .go .. | with_reducible apply Replies.ite | split

theorem execDataReadResponse_replies (wf : Bool) (r : Ref) (data : Bytes) (s : State) : Replies wf (execDataReadResponse r
    data s) := by
  unfold execDataReadResponse
  repeat' first | with_reducible exact .go .. | with_reducible apply Replies.ite | split

theorem execCommandCommit_replies (wf : Bool) (r : Ref) (s : State) : Replies wf (execCommandCommit r s) := by
  unfold execCommandCommit
  repeat' first | with_reducible exact .go .. | with_reducible apply Replies.ite | split

theorem execCompletionAck_replies (wf : Bool) (fn cq n : Nat) (s : State) : Replies wf (execCompletionAck fn cq n s) := by
  unfold execCompletionAck
  repeat' first | with_reducible exact .go .. | with_reducible apply Replies.ite | split

theorem execNotifyDeadline_replies (wf : Bool) (fn cq : Nat) (s : State) : Replies wf (execNotifyDeadline fn cq s) := by
  unfold execNotifyDeadline
  repeat' first | with_reducible exact .go .. | with_reducible apply Replies.ite | split

theorem execInternalTimeout_replies (wf : Bool) (r : Ref) (unit : Nat) (s : State) : Replies wf (execInternalTimeout r unit
    s) := by
  unfold execInternalTimeout
  repeat' first | with_reducible exact .go .. | with_reducible apply Replies.ite | split

theorem execDrainEnd_replies (wf : Bool) (fn : Nat) (s : State) : Replies wf (execDrainEnd fn s) := by
  unfold execDrainEnd
  repeat' first | with_reducible exact .go .. | with_reducible apply Replies.ite

theorem execRestartRing_replies (wf : Bool) (r : Ref) (s : State) : Replies wf (execRestartRing r s) := by
  unfold execRestartRing
  repeat' first | with_reducible exact .go .. | with_reducible exact start_replies .. | with_reducible apply Replies.ite | split

theorem execActivationHandover_replies (wf : Bool) (ok : Bool) (s : State) : Replies wf (execActivationHandover ok s) := by
  unfold execActivationHandover
  repeat' first | with_reducible exact .go .. | with_reducible apply Replies.ite | split

theorem execJobLoadStart_replies (wf : Bool) (j : Nat) (s : State) : Replies wf (execJobLoadStart j s) := by
  unfold execJobLoadStart
  repeat' first | with_reducible exact .go .. | with_reducible apply Replies.ite | split

theorem execJobLoaded_replies (wf : Bool) (j : Nat) (s : State) : Replies wf (execJobLoaded j s) := by
  unfold execJobLoaded
  repeat' first | with_reducible exact .go .. | with_reducible apply Replies.ite | split

theorem execJobLoadTimeout_replies (wf : Bool) (j : Nat) (s : State) : Replies wf (execJobLoadTimeout j s) := by
  unfold execJobLoadTimeout
  repeat' first | with_reducible exact .go .. | with_reducible apply Replies.ite | split

theorem execJobTimeLimit_replies (wf : Bool) (j : Nat) (s : State) : Replies wf (execJobTimeLimit j s) := by
  unfold execJobTimeLimit
  repeat' first | with_reducible exact .go .. | with_reducible apply Replies.ite | split

theorem execJobStop_replies (wf : Bool) (j : Nat) (s : State) : Replies wf (execJobStop j s) := by
  unfold execJobStop
  repeat' first | with_reducible exact .go .. | with_reducible apply Replies.ite | split

theorem execJobComplete_replies (wf : Bool) (j : Nat) (s : State) : Replies wf (execJobComplete j s) := by
  unfold execJobComplete
  repeat' first | with_reducible exact .go .. | with_reducible apply Replies.ite | split

theorem execBatchPost_replies (wf : Bool) (j ward : Nat) (s : State) : Replies wf (execBatchPost j ward s) := by
  unfold execBatchPost
  repeat' first | with_reducible exact .go .. | with_reducible apply Replies.ite | split

theorem execGateContextPause_replies (wf : Bool) (j ward : Nat) (s : State) : Replies wf (execGateContextPause j ward s) := by
  unfold execGateContextPause
  repeat' first | with_reducible exact .go .. | with_reducible apply Replies.ite | split

theorem execOutputAppend_replies (wf : Bool) (j : Nat) (s : State) : Replies wf (execOutputAppend j s) := by
  unfold execOutputAppend
  repeat' first | with_reducible exact .go .. | with_reducible apply Replies.ite | split

theorem execOutputPause_replies (wf : Bool) (j : Nat) (s : State) : Replies wf (execOutputPause j s) := by
  unfold execOutputPause
  repeat' first | with_reducible exact .go .. | with_reducible apply Replies.ite | split

theorem execQuantumAssignment_replies (wf : Bool) (s : State) : Replies wf (execQuantumAssignment s) := by
  unfold execQuantumAssignment
  repeat' first | with_reducible exact .go .. | with_reducible apply Replies.ite

theorem execSieveChecker_replies (wf : Bool) (upsets : List SieveUpset) (s : State) : Replies wf (execSieveChecker upsets s) := by
  unfold execSieveChecker
  repeat' first | with_reducible exact .go .. | with_reducible apply Replies.ite

theorem execSieveRowRetired_replies (wf : Bool) (row : Nat) (s : State) : Replies wf (execSieveRowRetired row s) := by
  unfold execSieveRowRetired
  repeat' first | with_reducible exact .go .. | with_reducible apply Replies.ite

theorem execSemCompareAndSwap_replies (wf : Bool) (fn : Nat) (p : PortId) (key : W32) (addr : Nat) (cmp swp : W64) (s :
    State) : Replies wf (execSemCompareAndSwap fn p key addr cmp swp s) := by
  unfold execSemCompareAndSwap
  repeat' first | with_reducible exact .go .. | with_reducible apply Replies.ite

theorem execSemBreakable_replies (wf : Bool) (n : Nat) (s : State) : Replies wf (execSemBreakable n s) := by
  unfold execSemBreakable
  repeat' first | with_reducible exact .go .. | with_reducible apply Replies.ite

theorem execUnsupportedRequestNak_replies (wf : Bool) (fn : Nat) (p : QpAt) (q : BadRequest) (s : State) : Replies wf
    (execUnsupportedRequestNak fn p q s) := by
  unfold execUnsupportedRequestNak
  repeat' first | with_reducible exact .go .. | with_reducible apply Replies.ite

theorem execRemoteNak_replies (wf : Bool) (fn : Nat) (p : PortId) (n : NakInfo) (s : State) : Replies wf (execRemoteNak fn p
    n s) := by
  unfold execRemoteNak
  repeat' first | with_reducible exact .go .. | split

theorem execAckTimeout_replies (wf : Bool) (fn : Nat) (p : PortId) (ev : Bool) (s : State) : Replies wf (execAckTimeout fn p
    ev s) := by
  unfold execAckTimeout
  repeat' first | with_reducible exact .go .. | with_reducible apply Replies.ite

theorem execQpRetryExhausted_replies (wf : Bool) (fn : Nat) (p : PortId) (ev : Bool) (s : State) : Replies wf
    (execQpRetryExhausted fn p ev s) := by
  unfold execQpRetryExhausted
  repeat' first | with_reducible exact .go .. | with_reducible apply Replies.ite

theorem execRnrNak_replies (wf : Bool) (fn : Nat) (p : PortId) (s : State) : Replies wf (execRnrNak fn p s) := by
  unfold execRnrNak
  repeat' first | with_reducible exact .go .. | with_reducible apply Replies.ite

theorem execFailover_replies (wf : Bool) (fn : Nat) (s : State) : Replies wf (execFailover fn s) := by
  unfold execFailover
  repeat' first | with_reducible exact .go .. | with_reducible apply Replies.ite

theorem execCeMarkedPacket_replies (wf : Bool) (fn : Nat) (p : PortId) (ev : Bool) (ns : Nat) (s : State) : Replies wf
    (execCeMarkedPacket fn p ev ns s) := by
  unfold execCeMarkedPacket
  repeat' first | with_reducible exact .go .. | with_reducible apply Replies.ite

theorem execCcRateUpdate_replies (wf : Bool) (fn : Nat) (p : QpAt) (s : State) : Replies wf (execCcRateUpdate fn p s) := by
  unfold execCcRateUpdate
  repeat' first | with_reducible exact .go .. | with_reducible apply Replies.ite

theorem execPtpSyncLoss_replies (wf : Bool) (s : State) : Replies wf (execPtpSyncLoss s) := by
  unfold execPtpSyncLoss
  repeat' first | with_reducible exact .go .. | with_reducible apply Replies.ite

theorem execPtpSourceReturn_replies (wf : Bool) (s : State) : Replies wf (execPtpSourceReturn s) := by
  unfold execPtpSourceReturn
  repeat' first | with_reducible exact .go .. | with_reducible apply Replies.ite | split

theorem execOpticsInsert_replies (wf : Bool) (p : PortId) (m : OpticsInfo) (s : State) : Replies wf (execOpticsInsert p m s) := by
  unfold execOpticsInsert
  repeat' first | with_reducible exact .go .. | with_reducible apply Replies.ite

theorem execOpticsRemove_replies (wf : Bool) (p : PortId) (s : State) : Replies wf (execOpticsRemove p s) := by
  unfold execOpticsRemove
  dsimp only
  repeat' first | with_reducible exact .go .. | with_reducible apply Replies.ite | split

theorem execTrainingAttemptEnd_replies (wf : Bool) (p : PortId) (ok : Bool) (s : State) : Replies wf (execTrainingAttemptEnd
    p ok s) := by
  unfold execTrainingAttemptEnd
  repeat' first | with_reducible exact .go .. | with_reducible apply Replies.ite

theorem execDownRetry_replies (wf : Bool) (p : PortId) (s : State) : Replies wf (execDownRetry p s) := by
  unfold execDownRetry
  repeat' first | with_reducible exact .go .. | with_reducible apply Replies.ite

theorem execQpToInit_replies (wf : Bool) (w : Writer) (fn : Nat) (p : PortId) (ev : Bool) (word : W64) (addr : W128) (s :
    State) : Replies wf (execQpToInit w fn p ev word addr s) := by
  unfold execQpToInit
  with_reducible exact .go ..

theorem execScrubComplete_replies (wf : Bool) (x : ScrubSum) (s : State) : Replies wf (execScrubComplete x s) := by
  unfold execScrubComplete
  repeat' first | with_reducible exact .go .. | with_reducible apply Replies.ite

theorem execSmbusSetOffset_replies (wf : Bool) (pecOk : Bool) (data : Bytes) (s : State) : Replies wf (execSmbusSetOffset
    pecOk data s) := by
  unfold execSmbusSetOffset
  repeat' first | with_reducible exact .go .. | with_reducible apply Replies.ite

theorem execSmbusRead_replies (wf : Bool) (s : State) : Replies wf (execSmbusRead s) := by
  unfold execSmbusRead
  repeat' first | with_reducible exact .go .. | with_reducible apply Replies.ite

theorem execSmbusWrite_replies (wf : Bool) (pecOk : Bool) (data : Bytes) (s : State) : Replies wf (execSmbusWrite pecOk data
    s) := by
  unfold execSmbusWrite
  repeat' first | with_reducible exact .go .. | with_reducible apply Replies.ite

theorem execSmbusAlertResponse_replies (wf : Bool) (s : State) : Replies wf (execSmbusAlertResponse s) := by
  unfold execSmbusAlertResponse
  repeat' first | with_reducible exact .go .. | with_reducible apply Replies.ite

theorem execHealthEvaluation_replies (wf : Bool) (s : State) : Replies wf (execHealthEvaluation s) := by
  unfold execHealthEvaluation
  repeat' first | with_reducible exact .go .. | with_reducible apply Replies.ite

theorem execIdleHoldExpiry_replies (wf : Bool) (s : State) : Replies wf (execIdleHoldExpiry s) := by
  unfold execIdleHoldExpiry
  repeat' first | with_reducible exact .go .. | with_reducible apply Replies.ite

theorem execQ3Entry_replies (wf : Bool) (s : State) : Replies wf (execQ3Entry s) := by
  unfold execQ3Entry
  repeat' first | with_reducible exact .go .. | with_reducible apply Replies.ite

theorem execWake_replies (wf : Bool) (t : WakeBy) (s : State) : Replies wf (execWake t s) := by
  unfold execWake
  repeat' first | with_reducible exact .go .. | with_reducible apply Replies.ite

theorem execInternalWake_replies (wf : Bool) (t : DueWork) (s : State) : Replies wf (execInternalWake t s) := by
  unfold execInternalWake
  repeat' first | with_reducible exact .go .. | with_reducible apply Replies.ite

theorem execCapacitanceMeasurement_replies (wf : Bool) (energy : Nat) (s : State) : Replies wf (execCapacitanceMeasurement
    energy s) := by
  unfold execCapacitanceMeasurement
  repeat' first | with_reducible exact .go .. | with_reducible apply Replies.ite

theorem execHeartbeat_replies (wf : Bool) (s : State) : Replies wf (execHeartbeat s) := by
  unfold execHeartbeat
  repeat' first | with_reducible exact .go .. | with_reducible apply Replies.ite

theorem execInputFail_replies (wf : Bool) (s : State) : Replies wf (execInputFail s) := by
  unfold execInputFail
  repeat' first | with_reducible exact .go .. | with_reducible apply Replies.ite

theorem execDumpPlan_replies (wf : Bool) (s : State) : Replies wf (execDumpPlan s) := by
  unfold execDumpPlan
  repeat' first | with_reducible exact .go .. | with_reducible apply Replies.ite | split

theorem execProgramSlotEnd_replies (wf : Bool) (s : State) : Replies wf (execProgramSlotEnd s) := by
  unfold execProgramSlotEnd
  repeat' first | with_reducible exact .go .. | with_reducible apply Replies.ite | split

theorem execInputOvervoltageOrBreaker_replies (wf : Bool) (breaker : Bool) (s : State) : Replies wf
    (execInputOvervoltageOrBreaker breaker s) := by
  unfold execInputOvervoltageOrBreaker
  repeat' first | with_reducible exact .go .. | with_reducible apply Replies.ite

theorem execThermalShutdown_replies (wf : Bool) (junction : Bool) (t : Int) (s : State) : Replies wf (execThermalShutdown
    junction t s) := by
  unfold execThermalShutdown
  repeat' first | with_reducible exact .go .. | with_reducible apply Replies.ite

theorem execPwrDisableAssert_replies (wf : Bool) (us : Nat) (s : State) : Replies wf (execPwrDisableAssert us s) := by
  unfold execPwrDisableAssert
  repeat' first | with_reducible exact .go .. | with_reducible apply Replies.ite

theorem execTapDbgToken_replies (wf : Bool) (data : Bytes) (s : State) : Replies wf (execTapDbgToken data s) := by
  unfold execTapDbgToken
  with_reducible exact .go ..

theorem execTapIdcode_replies (wf : Bool) (s : State) : Replies wf (execTapIdcode s) := by
  unfold execTapIdcode
  with_reducible exact .go ..

theorem execCnpArrival_replies (wf : Bool) (fn : Nat) (p : QpAt) (s : State) : Replies wf (execCnpArrival fn p s) := by
  unfold execCnpArrival
  repeat' first | with_reducible exact .go .. | with_reducible apply Replies.ite

theorem execReadPoint_replies (chan : Nat) (s : State) : Replies (chanOk chan) (execReadPoint chan s) := by
  unfold execReadPoint
  refine .guard (fun h => by simp_all) ?_
  repeat' first | with_reducible exact .go .. | with_reducible apply Replies.ite

theorem execSuspendResponse_replies (d : DieId) (s : State) : Replies (d.wf) (execSuspendResponse d s) := by
  unfold execSuspendResponse
  refine .guard (fun h => by simp_all) ?_
  repeat' first | with_reducible exact .go .. | with_reducible apply Replies.ite | split

theorem execSuspendLate_replies (d : DieId) (tenths : Nat) (s : State) : Replies (d.wf) (execSuspendLate d tenths s) := by
  unfold execSuspendLate
  refine .guard (fun h => by simp_all) ?_
  repeat' first | with_reducible exact .go .. | with_reducible apply Replies.ite | split

theorem execArrayReadComplete_replies (d : DieId) (xs : List Decode) (s : State) : Replies (d.wf) (execArrayReadComplete d xs
    s) := by
  unfold execArrayReadComplete
  refine .guard (fun h => by simp_all) ?_
  repeat' first | with_reducible exact .go .. | with_reducible apply Replies.ite | split

theorem execProgramComplete_replies (d : DieId) (s : State) : Replies (d.wf) (execProgramComplete d s) := by
  unfold execProgramComplete
  refine .guard (fun h => by simp_all) ?_
  repeat' first | with_reducible exact .go .. | with_reducible apply Replies.ite | split

theorem execProgramFailure_replies (d : DieId) (plane : Nat) (s : State) : Replies (d.wf && plane < 4) (execProgramFailure d
    plane s) := by
  unfold execProgramFailure
  refine .guard (fun h => by simp_all) ?_
  repeat' first | with_reducible exact .go .. | with_reducible apply Replies.ite | split

theorem execEraseComplete_replies (d : DieId) (s : State) : Replies (d.wf) (execEraseComplete d s) := by
  unfold execEraseComplete
  refine .guard (fun h => by simp_all) ?_
  repeat' first | with_reducible exact .go .. | with_reducible apply Replies.ite | split

theorem execEraseFailure_replies (d : DieId) (plane : Nat) (s : State) : Replies (d.wf && plane < 4) (execEraseFailure d
    plane s) := by
  unfold execEraseFailure
  refine .guard (fun h => by simp_all) ?_
  repeat' first | with_reducible exact .go .. | with_reducible apply Replies.ite | split

theorem execDieOpOverrun_replies (d : DieId) (s : State) : Replies (d.wf) (execDieOpOverrun d s) := by
  unfold execDieOpOverrun
  refine .guard (fun h => by simp_all) ?_
  repeat' first | with_reducible exact .go .. | with_reducible apply Replies.ite

theorem execDieNoResponse_replies (d : DieId) (s : State) : Replies (d.wf) (execDieNoResponse d s) := by
  unfold execDieNoResponse
  refine .guard (fun h => by simp_all) ?_
  with_reducible exact .go ..

theorem execRebuildWordLine_replies (m : Member) (s : State) : Replies (m.wf) (execRebuildWordLine m s) := by
  unfold execRebuildWordLine
  refine .guard (fun h => by simp_all) ?_
  repeat' first | with_reducible exact .go .. | with_reducible apply Replies.ite | split

theorem execBlockGroupPass_replies (m : Member) (s : State) : Replies (m.wf) (execBlockGroupPass m s) := by
  unfold execBlockGroupPass
  refine .guard (fun h => by simp_all) ?_
  repeat' first | with_reducible exact .go .. | with_reducible apply Replies.ite | split

theorem execChannelRecentre_replies (chan rdEye wrEye : Nat) (s : State) : Replies (chanOk chan) (execChannelRecentre chan
    rdEye wrEye s) := by
  unfold execChannelRecentre
  refine .guard (fun h => by simp_all) ?_
  repeat' first | with_reducible exact .go .. | with_reducible apply Replies.ite

theorem execChannelFault_replies (chan : Nat) (s : State) : Replies (chanOk chan) (execChannelFault chan s) := by
  unfold execChannelFault
  refine .guard (fun h => by simp_all) ?_
  repeat' first | with_reducible exact .go .. | with_reducible apply Replies.ite | split

theorem execChannelRetrainBegin_replies (chan : Nat) (s : State) : Replies (chanOk chan) (execChannelRetrainBegin chan s) := by
  unfold execChannelRetrainBegin
  refine .guard (fun h => by simp_all) ?_
  repeat' first | with_reducible exact .go .. | with_reducible apply Replies.ite

theorem execChannelRetrainResult_replies (chan : Nat) (common : Bool) (pos : List PosTrain) (s : State) : Replies (chanOk
    chan) (execChannelRetrainResult chan common pos s) := by
  unfold execChannelRetrainResult
  refine .guard (fun h => by simp_all) ?_
  repeat' first | with_reducible exact .go .. | with_reducible apply Replies.ite

theorem execChannelRetrainRetry_replies (chan : Nat) (s : State) : Replies (chanOk chan) (execChannelRetrainRetry chan s) := by
  unfold execChannelRetrainRetry
  refine .guard (fun h => by simp_all) ?_
  repeat' first | with_reducible exact .go .. | with_reducible apply Replies.ite

theorem execRelocation_replies (d : DieId) (slot : Nat) (s : State) : Replies (d.wf && slot < 3072) (execRelocation d slot s) := by
  unfold execRelocation
  dsimp only
  refine .guard (fun h => by simp_all) ?_
  repeat' first | with_reducible exact .go .. | with_reducible apply Replies.ite | split

theorem execRelocationCommit_replies (d : DieId) (slot : Nat) (s : State) : Replies (d.wf && slot < 3072)
    (execRelocationCommit d slot s) := by
  unfold execRelocationCommit
  refine .guard (fun h => by simp_all) ?_
  repeat' first | with_reducible exact .go .. | with_reducible apply Replies.ite | split

theorem execPatrolRead_replies (d : DieId) (slot wl cw : Nat) (s : State) : Replies (d.wf && slot < 3072 && wl < 512 && cw <
    4) (execPatrolRead d slot wl cw s) := by
  unfold execPatrolRead
  refine .guard (fun h => by simp_all) ?_
  repeat' first | with_reducible exact .go .. | with_reducible apply Replies.ite

theorem execModuleReset_replies (r : Ref) (e : BootEnv) (s : State) : Replies (r.wf && e.wf) (execModuleReset r e s) := by
  unfold execModuleReset
  refine .guard (fun h => by simp_all) ?_
  repeat' first | with_reducible exact .go .. | with_reducible apply Replies.ite | split

theorem execLifeCycleTransition_replies (r : Ref) (e : BootEnv) (s : State) : Replies (r.wf && e.wf) (execLifeCycleTransition
    r e s) := by
  unfold execLifeCycleTransition
  refine .guard (fun h => by simp_all) ?_
  repeat' first | with_reducible exact .go .. | with_reducible apply Replies.ite | split

theorem execRefurbishEraseComplete_replies (bad : List PlaneBlock) (e : BootEnv) (s : State) : Replies (bad.all PlaneBlock.wf
    && e.wf) (execRefurbishEraseComplete bad e s) := by
  unfold execRefurbishEraseComplete
  refine .guard (fun h => by simp_all) ?_
  repeat' first | with_reducible exact .go .. | with_reducible apply Replies.ite | split

theorem execQuantumEnd_replies (c : CoreId) (s : State) : Replies (c.wf) (execQuantumEnd c s) := by
  unfold execQuantumEnd
  dsimp only
  refine .guard (fun h => by simp_all) ?_
  repeat' first | with_reducible exact .go .. | with_reducible apply Replies.ite | split

theorem execSlotFill_replies (c : CoreId) (s : State) : Replies (c.wf) (execSlotFill c s) := by
  unfold execSlotFill
  dsimp only
  refine .guard (fun h => by simp_all) ?_
  repeat' first | with_reducible exact .go .. | with_reducible apply Replies.ite | split

theorem execItemStart_replies (c : CoreId) (s : State) : Replies (c.wf) (execItemStart c s) := by
  unfold execItemStart
  dsimp only
  refine .guard (fun h => by simp_all) ?_
  repeat' first | with_reducible exact .go .. | with_reducible apply Replies.ite | split

theorem execControlCoreRetire_replies (core : Nat) (e : BootEnv) (s : State) : Replies (core < 18 && e.wf)
    (execControlCoreRetire core e s) := by
  unfold execControlCoreRetire
  refine .guard (fun h => by simp_all) ?_
  repeat' first | with_reducible exact .go .. | with_reducible apply Replies.ite

theorem execDmaComplete_replies (c : CoreId) (tag : BitVec 3) (s : State) : Replies (c.wf) (execDmaComplete c tag s) := by
  unfold execDmaComplete
  dsimp only
  refine .guard (fun h => by simp_all) ?_
  repeat' first | with_reducible exact .go .. | with_reducible apply Replies.ite | split

theorem execProductLand_replies (c : CoreId) (s : State) : Replies (c.wf) (execProductLand c s) := by
  unfold execProductLand
  refine .guard (fun h => by simp_all) ?_
  repeat' first | with_reducible exact .go .. | with_reducible apply Replies.ite | split

theorem execRequestComplete_replies (c : CoreId) (s : State) : Replies (c.wf) (execRequestComplete c s) := by
  unfold execRequestComplete
  dsimp only
  refine .guard (fun h => by simp_all) ?_
  repeat' first | with_reducible exact .go .. | with_reducible apply Replies.ite | split

theorem execSvlComplete_replies (c : CoreId) (s : State) : Replies (c.wf) (execSvlComplete c s) := by
  unfold execSvlComplete
  dsimp only
  refine .guard (fun h => by simp_all) ?_
  repeat' first | with_reducible exact .go .. | with_reducible apply Replies.ite | split

theorem execScrubPass_replies (x : ScrubPassRes) (s : State) : Replies (x.byRank.all fun e => e.1 < 36) (execScrubPass x s) := by
  unfold execScrubPass
  refine .guard (fun h => by simpa using h) ?_
  exact .go ..

theorem execWakeComplete_replies (eyes : List Nat) (s : State) : Replies (eyes.all chanOk) (execWakeComplete eyes s) := by
  unfold execWakeComplete
  refine .guard (fun h => by simp_all) ?_
  dsimp only
  repeat' first | with_reducible exact .go .. | with_reducible apply Replies.ite

theorem execTemperature_replies (place : Nat) (t : Int) (dies : List DieId) (s : State) : Replies (place < 4 && dies.all
    DieId.wf) (execTemperature place t dies s) := by
  unfold execTemperature
  refine .guard (fun h => by simp_all) ?_
  repeat' first | with_reducible exact .go .. | with_reducible apply Replies.ite

theorem execPowerGood_replies (e : BootEnv) (s : State) : Replies (e.wf) (execPowerGood e s) := by
  unfold execPowerGood
  refine .guard (fun h => by simp_all) ?_
  repeat' first | with_reducible exact .go .. | with_reducible apply Replies.ite

theorem execRetentionScan_replies (d : DieId) (slot wl cw : Nat) (s : State) : Replies (d.wf && slot < 3072 && wl < 512 && cw
    < 4) (execRetentionScan d slot wl cw s) := by
  unfold execRetentionScan
  refine .guard (fun h => by simp_all) ?_
  repeat' first | with_reducible exact .go .. | with_reducible apply Replies.ite

theorem execResetAssert_replies (us : Nat) (e : BootEnv) (s : State) : Replies (e.wf) (execResetAssert us e s) := by
  unfold execResetAssert
  refine .guard (fun h => by simp_all) ?_
  repeat' first | with_reducible exact .go .. | with_reducible apply Replies.ite

theorem execResetRelease_replies (e : BootEnv) (s : State) : Replies (e.wf) (execResetRelease e s) := by
  unfold execResetRelease
  refine .guard (fun h => by simp_all) ?_
  repeat' first | with_reducible exact .go .. | with_reducible apply Replies.ite

theorem execPwrDisableRelease_replies (e : BootEnv) (s : State) : Replies (e.wf) (execPwrDisableRelease e s) := by
  unfold execPwrDisableRelease
  refine .guard (fun h => by simp_all) ?_
  repeat' first | with_reducible exact .go .. | with_reducible apply Replies.ite

theorem execLoadComplete_replies (c : CoreId) (s : State) : Replies (c.wf) (execLoadComplete c s) := by
  unfold execLoadComplete
  dsimp only
  refine .guard (fun h => by simp_all) ?_
  repeat' first | with_reducible exact .go .. | with_reducible apply Replies.ite | split

theorem execStoreComplete_replies (c : CoreId) (s : State) : Replies (c.wf) (execStoreComplete c s) := by
  unfold execStoreComplete
  dsimp only
  refine .guard (fun h => by simp_all) ?_
  repeat' first | with_reducible exact .go .. | with_reducible apply Replies.ite | split

theorem execRandomAreaReclaim_replies (ward : Nat) (s : State) : Replies (ward < 4) (execRandomAreaReclaim ward s) := by
  unfold execRandomAreaReclaim
  dsimp only
  refine .guard (fun h => by simp at h ⊢; omega) ?_
  repeat' first | with_reducible exact .go .. | with_reducible apply Replies.ite | split

theorem execHeldSlotRelease_replies (slot : Nat) (s : State) : Replies (slot < 4 * 26 * 4096 && slot % 4096 < 3072)
    (execHeldSlotRelease slot s) := by
  unfold execHeldSlotRelease
  refine .guard (fun h => by simp [slotIdx] at h ⊢; omega) ?_
  repeat' first | with_reducible exact .go .. | with_reducible apply Replies.ite | split

theorem execWatermarkBatch_replies (chan : Nat) (s : State) : Replies (chan < 12) (execWatermarkBatch chan s) := by
  unfold execWatermarkBatch
  refine .guard (fun h => by simp at h ⊢; omega) ?_
  repeat' first | with_reducible exact .go .. | with_reducible apply Replies.ite

theorem execCoreRetire_replies (hamlet phys : Nat) (s : State) : Replies (hamlet < 32 && phys < 18) (execCoreRetire hamlet
    phys s) := by
  unfold execCoreRetire
  refine .guard (fun h => by simp at h ⊢; omega) ?_
  with_reducible exact .go ..

theorem execCoreSelfTest_replies (hamlet phys : Nat) (ok : Bool) (s : State) : Replies (hamlet < 32 && phys < 18)
    (execCoreSelfTest hamlet phys ok s) := by
  unfold execCoreSelfTest
  refine .guard (fun h => by simp at h ⊢; omega) ?_
  repeat' first | with_reducible exact .go .. | with_reducible apply Replies.ite

theorem execDramUncorrectable_replies (x : DramHit) (s : State) : Replies (x.rank < 36 && x.addr < 2 ^ 34)
    (execDramUncorrectable x s) := by
  unfold execDramUncorrectable
  refine .guard (fun h => by simp at h ⊢; omega) ?_
  repeat' first | with_reducible exact .go .. | with_reducible apply Replies.ite | split

theorem execRankRecentre_replies (rank rdEye wrEye margin : Nat) (s : State) : Replies (rank < 36) (execRankRecentre rank
    rdEye wrEye margin s) := by
  unfold execRankRecentre
  refine .guard (fun h => by simp at h ⊢; omega) ?_
  repeat' first | with_reducible exact .go .. | with_reducible apply Replies.ite

theorem execRankRetrainResult_replies (rank : Nat) (eye : Nat × Nat) (s : State) : Replies (rank < 36) (execRankRetrainResult
    rank eye s) := by
  unfold execRankRetrainResult
  refine .guard (fun h => by simp at h ⊢; omega) ?_
  repeat' first | with_reducible exact .go .. | with_reducible apply Replies.ite | split

theorem execRankMigrationStart_replies (rank : Nat) (s : State) : Replies (rank < 36) (execRankMigrationStart rank s) := by
  unfold execRankMigrationStart
  refine .guard (fun h => by simp at h ⊢; omega) ?_
  with_reducible exact .go ..

theorem execRankMigrationComplete_replies (rank : Nat) (s : State) : Replies (rank < 36) (execRankMigrationComplete rank s) := by
  unfold execRankMigrationComplete
  dsimp only
  refine .guard (fun h => by simp at h ⊢; omega) ?_
  repeat' first | with_reducible exact .go .. | with_reducible apply Replies.ite | split

theorem execRemirror_replies (pair : Nat) (s : State) : Replies (pair < 6) (execRemirror pair s) := by
  unfold execRemirror
  refine .guard (fun h => by simp at h ⊢; omega) ?_
  with_reducible exact .go ..

theorem execDramChannelLoss_replies (chan : Nat) (s : State) : Replies (chan < 12) (execDramChannelLoss chan s) := by
  unfold execDramChannelLoss
  refine .guard (fun h => by simp at h ⊢; omega) ?_
  repeat' first | with_reducible exact .go .. | with_reducible apply Replies.ite

theorem execDetourApply_replies (pair : Nat) (s : State) : Replies (pair < 6) (execDetourApply pair s) := by
  unfold execDetourApply
  refine .guard (fun h => by simp at h ⊢; omega) ?_
  repeat' first | with_reducible exact .go .. | with_reducible apply Replies.ite

theorem execLoftWordProgram_replies (k w : Nat) (v : W64) (s : State) : Replies (k < 8704 && w < 512) (execLoftWordProgram k
    w v s) := by
  unfold execLoftWordProgram
  refine .guard (fun h => by simp at h ⊢; omega) ?_
  repeat' first | with_reducible exact .go .. | with_reducible apply Replies.ite

theorem execLoftSectorErase_replies (k : Nat) (ok : Bool) (s : State) : Replies (k < 8704) (execLoftSectorErase k ok s) := by
  unfold execLoftSectorErase
  refine .guard (fun h => by simp at h ⊢; omega) ?_
  repeat' first | with_reducible exact .go .. | with_reducible apply Replies.ite | split

theorem execLoftEraseAbort_replies (b : Nat) (s : State) : Replies (b < 3) (execLoftEraseAbort b s) := by
  unfold execLoftEraseAbort
  refine .guard (fun h => by simp at h ⊢; omega) ?_
  with_reducible exact .go ..

theorem execLoftPatrol_replies (k : Nat) (s : State) : Replies (k < 8704) (execLoftPatrol k s) := by
  unfold execLoftPatrol
  refine .guard (fun h => by simp at h ⊢; omega) ?_
  repeat' first | with_reducible exact .go .. | with_reducible apply Replies.ite

theorem execTemperatureClear_replies (place : Nat) (t : Int) (s : State) : Replies (place < 4) (execTemperatureClear place t
    s) := by
  unfold execTemperatureClear
  refine .guard (fun h => by simp at h ⊢; omega) ?_
  repeat' first | with_reducible exact .go .. | with_reducible apply Replies.ite

theorem execCommandDeferredStart_replies (w : Bool) (r : Ref) (s : State) : Replies w (execCommandDeferredStart r s) := by
  unfold execCommandDeferredStart
  split
  · exact startByOp_replies ..
  · exact .go ..

theorem execPlanClose_replies (late : List Nat) (badBlank : List PlaneBlock) (s : State) :
    Replies (late.all chanOk && badBlank.all PlaneBlock.wf) (execPlanClose late badBlank s) := by
  unfold execPlanClose
  exact .ite (.go ..) (.guard (fun h => by simp_all) (.go ..))

theorem execRemap_dram_replies (r a : Nat) (s : State) : Replies (r < 36 && a < 2 ^ 34) (execRemap (.dram r a) s) := by
  unfold execRemap
  refine .guard (fun h => by simp at h ⊢; omega) ?_
  repeat' first | with_reducible exact .go .. | with_reducible apply Replies.ite

theorem execRemap_sram_replies (m a : Nat) (s : State) :
    Replies (m < 65536 && sramMacro (m / 16384) (m % 16384)) (execRemap (.sram m a) s) := by
  unfold execRemap
  refine .guard (fun h => by simp_all [macroOk]) ?_
  repeat' first | with_reducible exact .go .. | with_reducible apply Replies.ite

theorem exec_replies (i : Instr) (s : State) : Replies i.wf (exec i s) := by
  cases i with
  | bellBoundary => exact execBellBoundary_replies _ _ _
  | planClose => exact execPlanClose_replies _ _ _
  | readPoint => exact execReadPoint_replies _ _
  | suspendResponse => exact execSuspendResponse_replies _ _
  | suspendLate => exact execSuspendLate_replies _ _ _
  | arrayReadComplete => exact execArrayReadComplete_replies _ _ _
  | programComplete => exact execProgramComplete_replies _ _
  | programFailure => exact execProgramFailure_replies _ _ _
  | eraseComplete => exact execEraseComplete_replies _ _
  | eraseFailure => exact execEraseFailure_replies _ _ _
  | dieOpOverrun => exact execDieOpOverrun_replies _ _
  | dieNoResponse => exact execDieNoResponse_replies _ _
  | rebuildWordLine => exact execRebuildWordLine_replies _ _
  | blockGroupPass => exact execBlockGroupPass_replies _ _
  | channelRecentre => exact execChannelRecentre_replies _ _ _ _
  | channelFault => exact execChannelFault_replies _ _
  | channelRetrainBegin => exact execChannelRetrainBegin_replies _ _
  | channelRetrainResult => exact execChannelRetrainResult_replies _ _ _ _
  | channelRetrainRetry => exact execChannelRetrainRetry_replies _ _
  | checkpointBegin => exact execCheckpointBegin_replies _ _
  | checkpointComplete => exact execCheckpointComplete_replies _ _
  | randomAreaReclaim => exact execRandomAreaReclaim_replies _ _
  | relocation => exact execRelocation_replies _ _ _
  | relocationCommit => exact execRelocationCommit_replies _ _ _
  | patrolRead => exact execPatrolRead_replies _ _ _ _ _
  | parkingComplete => exact execParkingComplete_replies _ _ _ _
  | heldSlotRelease => exact execHeldSlotRelease_replies _ _
  | stagingDrain => exact execStagingDrain_replies _ _
  | watermarkBatch => exact execWatermarkBatch_replies _ _
  | doorbellPollIssue => exact execDoorbellPollIssue_replies _ _ _ _
  | doorbellPollResponse => exact execDoorbellPollResponse_replies _ _ _ _ _
  | ringDoze => exact execRingDoze_replies _ _ _ _
  | knock => exact execKnock_replies _ _ _ _
  | entryFetchResponse => exact execEntryFetchResponse_replies _ _ _ _ _
  | headWordResponse => exact execHeadWordResponse_replies _ _ _ _ _
  | chainedListResponse => exact execChainedListResponse_replies _ _ _ _
  | parameterBlockResponse => exact execParameterBlockResponse_replies _ _ _ _
  | dataReadResponse => exact execDataReadResponse_replies _ _ _ _
  | commandDeferredStart => exact execCommandDeferredStart_replies _ _ _
  | commandCommit => exact execCommandCommit_replies _ _ _
  | completionAck => exact execCompletionAck_replies _ _ _ _ _
  | notifyDeadline => exact execNotifyDeadline_replies _ _ _ _
  | internalTimeout => exact execInternalTimeout_replies _ _ _ _
  | drainEnd => exact execDrainEnd_replies _ _ _
  | read | write | zoneAppend | openZone | closeZone | finishZone | resetZone | reportZones | randomRead | randomWrite
  | randomTrim | flush | abort | sieveWrite | sieveWritePair | sieveLookup | sieveStep | semAcquire | semRelease | semBreak
  | semRead | getLog | createRing | deleteRing | setRingNotify | setLatencyTolerance | addFunction | quiesceFunction
  | resumeFunction | resetFunction | removeFunction | setFunctionResources | createHolding | setHolding | assignHolding
  | deleteHolding | setCalendar | firmwareDownload | firmwareActivate | attest => exact start_replies _ _ _ _ _
  | restartRing => exact execRestartRing_replies _ _ _
  | scan | run | portEnable | portRetrain | setupWrite | setupErrClear | qpToRtr | qpToRts | qpToReset | adminRingWrite
  | sveModeWrite | sveOwnerWrite | trcDispCtrlWrite | scrubGo | alertClear | locate | lampReq | tapDbgChal | tapExtest
  | tapSamplePreload | tapBypass => exact .go _ _
  | activationHandover => exact execActivationHandover_replies _ _ _
  | moduleReset => exact execModuleReset_replies _ _ _
  | lifeCycleTransition => exact execLifeCycleTransition_replies _ _ _
  | refurbishEraseComplete => exact execRefurbishEraseComplete_replies _ _ _
  | jobLoadStart => exact execJobLoadStart_replies _ _ _
  | jobLoaded => exact execJobLoaded_replies _ _ _
  | jobLoadTimeout => exact execJobLoadTimeout_replies _ _ _
  | jobTimeLimit => exact execJobTimeLimit_replies _ _ _
  | jobStop => exact execJobStop_replies _ _ _
  | jobComplete => exact execJobComplete_replies _ _ _
  | batchPost => exact execBatchPost_replies _ _ _ _
  | gateContextPause => exact execGateContextPause_replies _ _ _ _
  | outputAppend => exact execOutputAppend_replies _ _ _
  | outputPause => exact execOutputPause_replies _ _ _
  | quantumAssignment => exact execQuantumAssignment_replies _ _
  | quantumEnd => exact execQuantumEnd_replies _ _
  | slotFill => exact execSlotFill_replies _ _
  | itemStart => exact execItemStart_replies _ _
  | coreRetire => exact execCoreRetire_replies _ _ _
  | coreSelfTest => exact execCoreSelfTest_replies _ _ _ _
  | controlCoreRetire => exact execControlCoreRetire_replies _ _ _
  | add => exact execAdd_replies _ _ _ _ _
  | sub => exact execSub_replies _ _ _ _ _
  | and_ => exact execAnd_replies _ _ _ _ _
  | or_ => exact execOr_replies _ _ _ _ _
  | xor => exact execXor_replies _ _ _ _ _
  | andn => exact execAndn_replies _ _ _ _ _
  | sll => exact execSll_replies _ _ _ _ _
  | srl => exact execSrl_replies _ _ _ _ _
  | sra => exact execSra_replies _ _ _ _ _
  | ror => exact execRor_replies _ _ _ _ _
  | seq => exact execSeq_replies _ _ _ _ _
  | sne => exact execSne_replies _ _ _ _ _
  | slt => exact execSlt_replies _ _ _ _ _
  | sltu => exact execSltu_replies _ _ _ _ _
  | min => exact execMin_replies _ _ _ _ _
  | max => exact execMax_replies _ _ _ _ _
  | minu => exact execMinu_replies _ _ _ _ _
  | maxu => exact execMaxu_replies _ _ _ _ _
  | clz => exact execClz_replies _ _ _ _ _
  | ctz => exact execCtz_replies _ _ _ _ _
  | popc => exact execPopc_replies _ _ _ _ _
  | bswap => exact execBswap_replies _ _ _ _ _
  | addi => exact execAddi_replies _ _ _ _ _
  | andi => exact execAndi_replies _ _ _ _ _
  | ori => exact execOri_replies _ _ _ _ _
  | xori => exact execXori_replies _ _ _ _ _
  | slti => exact execSlti_replies _ _ _ _ _
  | sltiu => exact execSltiu_replies _ _ _ _ _
  | slli => exact execSlli_replies _ _ _ _ _
  | srli => exact execSrli_replies _ _ _ _ _
  | srai => exact execSrai_replies _ _ _ _ _
  | cati => exact execCati_replies _ _ _ _ _
  | crc32cB => exact execCrc32cB_replies _ _ _ _ _
  | crc32cH => exact execCrc32cH_replies _ _ _ _ _
  | crc32cW => exact execCrc32cW_replies _ _ _ _ _
  | crc32cD => exact execCrc32cD_replies _ _ _ _ _
  | beq => exact execBeq_replies _ _ _ _ _
  | bne => exact execBne_replies _ _ _ _ _
  | blt => exact execBlt_replies _ _ _ _ _
  | bge => exact execBge_replies _ _ _ _ _
  | bltu => exact execBltu_replies _ _ _ _ _
  | bgeu => exact execBgeu_replies _ _ _ _ _
  | j => exact execJ_replies _ _ _
  | call => exact execCall_replies _ _ _
  | jalr => exact execJalr_replies _ _ _ _ _
  | ld => exact execLd_replies _ _ _ _ _ _ _ _
  | st => exact execSt_replies _ _ _ _ _ _ _ _
  | ldq => exact execLdq_replies _ _ _ _ _ _ _ _
  | stq => exact execStq_replies _ _ _ _ _ _ _ _
  | atomCas => exact execAtomCas_replies _ _ _ _ _ _
  | atomSwap => exact execAtomSwap_replies _ _ _ _ _ _
  | atomFadd => exact execAtomFadd_replies _ _ _ _ _ _
  | adda => exact execAdda_replies _ _ _ _ _
  | addar => exact execAddar_replies _ _ _ _ _
  | mva => exact execMva_replies _ _ _ _ _
  | mvm => exact execMvm_replies _ _ _ _ _
  | mfa => exact execMfa_replies _ _ _ _ _
  | mfm => exact execMfm_replies _ _ _ _ _
  | dma => exact execDma_replies _ _ _ _ _ _
  | dmaComplete => exact execDmaComplete_replies _ _ _
  | vadd => exact execVadd_replies _ _ _ _ _ _ _
  | vsub => exact execVsub_replies _ _ _ _ _ _ _
  | vadds => exact execVadds_replies _ _ _ _ _ _ _
  | vsubs => exact execVsubs_replies _ _ _ _ _ _ _
  | vaddus => exact execVaddus_replies _ _ _ _ _ _ _
  | vsubus => exact execVsubus_replies _ _ _ _ _ _ _
  | vmin => exact execVmin_replies _ _ _ _ _ _ _
  | vmax => exact execVmax_replies _ _ _ _ _ _ _
  | vminu => exact execVminu_replies _ _ _ _ _ _ _
  | vmaxu => exact execVmaxu_replies _ _ _ _ _ _ _
  | vceq => exact execVceq_replies _ _ _ _ _ _ _
  | vcgt => exact execVcgt_replies _ _ _ _ _ _ _
  | vcgtu => exact execVcgtu_replies _ _ _ _ _ _ _
  | vsll => exact execVsll_replies _ _ _ _ _ _ _
  | vsrl => exact execVsrl_replies _ _ _ _ _ _ _
  | vsra => exact execVsra_replies _ _ _ _ _ _ _
  | vand => exact execVand_replies _ _ _ _ _ _ _
  | vor => exact execVor_replies _ _ _ _ _ _ _
  | vxor => exact execVxor_replies _ _ _ _ _ _ _
  | vandn => exact execVandn_replies _ _ _ _ _ _ _
  | vsel => exact execVsel_replies _ _ _ _ _ _ _
  | vshuf => exact execVshuf_replies _ _ _ _ _ _ _
  | vbcast => exact execVbcast_replies _ _ _ _ _ _ _
  | vins => exact execVins_replies _ _ _ _ _ _ _
  | vext => exact execVext_replies _ _ _ _ _ _ _
  | vsum => exact execVsum_replies _ _ _ _ _ _ _
  | vmov => exact execVmov_replies _ _ _ _ _ _ _
  | mul => exact execMul_replies _ _ _ _ _ _ _
  | mulu => exact execMulu_replies _ _ _ _ _ _ _
  | mac => exact execMac_replies _ _ _ _ _ _ _
  | macu => exact execMacu_replies _ _ _ _ _ _ _
  | vmul => exact execVmul_replies _ _ _ _ _ _ _
  | vmac => exact execVmac_replies _ _ _ _ _ _ _
  | clmul => exact execClmul_replies _ _ _ _ _ _ _
  | clmac => exact execClmac_replies _ _ _ _ _ _ _
  | gfmul => exact execGfmul_replies _ _ _ _ _ _ _
  | gfmac => exact execGfmac_replies _ _ _ _ _ _ _
  | gfmuls => exact execGfmuls_replies _ _ _ _ _ _ _
  | gfmacs => exact execGfmacs_replies _ _ _ _ _ _ _
  | productLand => exact execProductLand_replies _ _
  | mtp => exact execMtp_replies _ _ _ _ _ _ _
  | mtpg => exact execMtpg_replies _ _ _ _ _ _ _
  | mfp => exact execMfp_replies _ _ _ _ _ _ _
  | mfpl => exact execMfpl_replies _ _ _ _ _ _ _
  | mfph => exact execMfph_replies _ _ _ _ _ _ _
  | loop => exact execLoop_replies _ _ _ _ _
  | loopi => exact execLoopi_replies _ _ _ _
  | lbrk => exact execLbrk_replies _ _ _
  | done => exact execDone_replies _ _ _ _ _
  | fence => exact execFence_replies _ _ _ _ _
  | trap => exact execTrap_replies _ _ _ _ _
  | post => exact execPost_replies _ _ _ _ _
  | req => exact execReq_replies _ _ _ _ _
  | requestComplete => exact execRequestComplete_replies _ _
  | emit => exact execEmit_replies _ _ _ _ _
  | svl => exact execSvl_replies _ _ _ _ _
  | svlComplete => exact execSvlComplete_replies _ _
  | waitd => exact execWaitd_replies _ _ _ _ _
  | waitr => exact execWaitr_replies _ _ _ _ _
  | mfsr => exact execMfsr_replies _ _ _ _ _
  | mtsr => exact execMtsr_replies _ _ _ _ _
  | sieveChecker => exact execSieveChecker_replies _ _ _
  | sieveRowRetired => exact execSieveRowRetired_replies _ _ _
  | semCompareAndSwap => exact execSemCompareAndSwap_replies _ _ _ _ _ _ _ _
  | semBreakable => exact execSemBreakable_replies _ _ _
  | unsupportedRequestNak => exact execUnsupportedRequestNak_replies _ _ _ _ _
  | remoteNak => exact execRemoteNak_replies _ _ _ _ _
  | ackTimeout => exact execAckTimeout_replies _ _ _ _ _
  | qpRetryExhausted => exact execQpRetryExhausted_replies _ _ _ _ _
  | rnrNak => exact execRnrNak_replies _ _ _ _
  | failover => exact execFailover_replies _ _ _
  | cmReq | cmRtu | cmDreq | pfcFrame | pfcWatchdog | pauseFrame | arpRequest | neighborSolicitation | icmpEchoRequest
  | frameDiscard | ptpAnnounce | ptpSync | ptpDelayResp | linkFault | nextHopResolution => exact .go _ _
  | ceMarkedPacket => exact execCeMarkedPacket_replies _ _ _ _ _ _
  | ccRateUpdate => exact execCcRateUpdate_replies _ _ _ _
  | ptpSyncLoss => exact execPtpSyncLoss_replies _ _
  | ptpSourceReturn => exact execPtpSourceReturn_replies _ _
  | opticsInsert => exact execOpticsInsert_replies _ _ _ _
  | opticsRemove => exact execOpticsRemove_replies _ _ _
  | trainingAttemptEnd => exact execTrainingAttemptEnd_replies _ _ _ _
  | downRetry => exact execDownRetry_replies _ _ _
  | qpToInit => exact execQpToInit_replies _ _ _ _ _ _ _ _
  | scrubComplete => exact execScrubComplete_replies _ _ _
  | smbusSetOffset => exact execSmbusSetOffset_replies _ _ _ _
  | smbusRead => exact execSmbusRead_replies _ _
  | smbusWrite => exact execSmbusWrite_replies _ _ _ _
  | smbusAlertResponse => exact execSmbusAlertResponse_replies _ _
  | dramUncorrectable => exact execDramUncorrectable_replies _ _
  | rankRecentre => exact execRankRecentre_replies _ _ _ _ _
  | rankRetrainResult => exact execRankRetrainResult_replies _ _ _
  | rankMigrationStart => exact execRankMigrationStart_replies _ _
  | rankMigrationComplete => exact execRankMigrationComplete_replies _ _
  | remirror => exact execRemirror_replies _ _
  | dramChannelLoss => exact execDramChannelLoss_replies _ _
  | scrubPass => exact execScrubPass_replies _ _
  | detourApply => exact execDetourApply_replies _ _
  | loftWordProgram => exact execLoftWordProgram_replies _ _ _ _
  | loftSectorErase => exact execLoftSectorErase_replies _ _ _
  | loftEraseAbort => exact execLoftEraseAbort_replies _ _
  | loftPatrol => exact execLoftPatrol_replies _ _
  | healthEvaluation => exact execHealthEvaluation_replies _ _
  | idleHoldExpiry => exact execIdleHoldExpiry_replies _ _
  | q3Entry => exact execQ3Entry_replies _ _
  | wake => exact execWake_replies _ _ _
  | wakeComplete => exact execWakeComplete_replies _ _
  | internalWake => exact execInternalWake_replies _ _ _
  | capacitanceMeasurement => exact execCapacitanceMeasurement_replies _ _ _
  | heartbeat => exact execHeartbeat_replies _ _
  | inputFail => exact execInputFail_replies _ _
  | dumpPlan => exact execDumpPlan_replies _ _
  | programSlotEnd => exact execProgramSlotEnd_replies _ _
  | inputOvervoltageOrBreaker b => exact execInputOvervoltageOrBreaker_replies _ b s
  | thermalShutdown => exact execThermalShutdown_replies _ _ _ _
  | temperature => exact execTemperature_replies _ _ _ _
  | powerGood => exact execPowerGood_replies _ _
  | retentionScan => exact execRetentionScan_replies _ _ _ _ _
  | resetAssert => exact execResetAssert_replies _ _ _
  | resetRelease => exact execResetRelease_replies _ _
  | pwrDisableAssert => exact execPwrDisableAssert_replies _ _ _
  | pwrDisableRelease => exact execPwrDisableRelease_replies _ _
  | tapDbgToken => exact execTapDbgToken_replies _ _ _
  | tapIdcode => exact execTapIdcode_replies _ _
  | cnpArrival => exact execCnpArrival_replies _ _ _ _
  | loadComplete => exact execLoadComplete_replies _ _
  | storeComplete => exact execStoreComplete_replies _ _
  | temperatureClear => exact execTemperatureClear_replies _ _ _

  | remap x =>
    cases x with
    | dram r a => exact execRemap_dram_replies r a s
    | sram m a => exact execRemap_sram_replies m a s

/-- Settles O6: a command replies, and only one that names a part the module does not have replies with a fault. -/
theorem wellFormedAnswers : Obligations.WellFormedAnswers := fun i s => ⟨(exec_replies i s).ne_refused, (exec_replies i s).answers⟩

/-- Settles O36: the deferred start takes the row of its opcode. -/
theorem deferredStart : Obligations.DeferredStart := by
  intro s r c i hc hrow
  have hdeferred : exec (.commandDeferredStart r) s = s.startByOp r c.opcode := by
    change execCommandDeferredStart r s = _
    rw [execCommandDeferredStart, hc]
  have hown : exec i s = s.startByOp r c.opcode := by
    refine (List.forall_iff_forall_mem (p := fun e : Nat × Instr => exec e.2 s = s.startByOp r e.1)).mp ?_ _ hrow
    simp only [List.Forall]
    and_intros <;> rfl
  obtain ⟨t, ht⟩ := (startByOp_replies true s r c.opcode).answers rfl
  exact ⟨t, hdeferred.trans ht, hown.trans ht⟩

end Sys2Proof.Machine
end

section
/-! Rings at work: what posting completions, checking entries and fetching keep of rings, zones and what is sent (chapter 5 and 6). -/

namespace Sys2Proof.Machine

/-! ### Lists and tables -/

theorem find?_map_of_imp {α : Type} {p : α → Bool} {g : α → α} (h : ∀ a, p (g a) = p a) (l : List α) :
    (l.map g).find? p = (l.find? p).map g := by
  induction l with
  | nil => rfl
  | cons a l ih =>
    rw [List.map_cons, List.find?_cons, List.find?_cons, h]
    cases p a <;> simp [ih]

theorem look_adj {α : Type} (t : Tab α) (k i : Nat) (g : α → α) : look (adj t k g) i = if i = k then (look t i).map g else look t i := by
  split
  · next h => rw [h, look_adj_same]
  · next h => exact look_adj_other t g h

/-! ### Parts of a ring that stand -/

/-- A submission ring but for its commands, its freeze and its fetches. -/
def Sq.face (q : Sq) : Sq := { q with cmds := [], frozen := false, errlog := [], reading := 0, inBell := 0 }

/-- A submission ring but for its fetches. -/
def Sq.atRest (q : Sq) : Sq := { q with reading := 0, inBell := 0 }

/-- A completion ring but for its completions and the reads of its head. -/
def Cq.face (k : Cq) : Cq :=
  { k with posted := 0, reserved := 0, unacked := [], held := [], pendFrom := none, pendCount := 0, pendNow := false, wantHead := false }

/-- A completion ring but for the reads of its head. -/
def Cq.atRest (k : Cq) : Cq := { k with reserved := 0, wantHead := false }

/-- A function but for the turns of its rings and its rate budgets. -/
def Fn.steady (g : Fn) : Fn := { g with rr := 0, served := none, buckets := [] }

/-- A zone but for its fence. -/
def Zone.unfenced (z : Zone) : Zone := { z with fence := none }

/-- One completion ring goes on as another: its face stands, no unacknowledged completion is lost, and it takes completions only where
`own` holds. -/
def CqGoes (own : Prop) (a b : Option Cq) : Prop :=
  a.map Cq.face = b.map Cq.face ∧ (¬own → a.map Cq.atRest = b.map Cq.atRest) ∧
    ∀ k, a = some k → ∃ k' new, b = some k' ∧ k'.unacked = k.unacked ++ new

theorem CqGoes.refl (own : Prop) (a : Option Cq) : CqGoes own a a := ⟨rfl, fun _ => rfl, fun k h => ⟨k, [], h, by simp⟩⟩

theorem CqGoes.trans {own : Prop} {a b c : Option Cq} (h : CqGoes own a b) (h' : CqGoes own b c) : CqGoes own a c := by
  obtain ⟨hf, hr, hu⟩ := h
  obtain ⟨hf', hr', hu'⟩ := h'
  refine ⟨hf.trans hf', fun ho => (hr ho).trans (hr' ho), fun k hk => ?_⟩
  obtain ⟨k1, new1, hk1, e1⟩ := hu k hk
  obtain ⟨k2, new2, hk2, e2⟩ := hu' k1 hk1
  exact ⟨k2, new1 ++ new2, hk2, by rw [e2, e1, List.append_assoc]⟩

theorem CqGoes.map {own : Prop} {a : Option Cq} {g : Cq → Cq} (hf : ∀ k, (g k).face = k.face)
    (hr : own ∨ ∀ k, (g k).atRest = k.atRest) (hu : ∀ k, ∃ new, (g k).unacked = k.unacked ++ new) : CqGoes own a (a.map g) := by
  refine ⟨?_, fun ho => ?_, fun k hk => ?_⟩
  · cases a <;> simp [hf]
  · cases a <;> simp [hr.resolve_left ho]
  · obtain ⟨new, e⟩ := hu k
    exact ⟨g k, new, by rw [hk]; rfl, e⟩

/-! ### The relation -/

/-- From `s` to `t` rings have gone on, submission ring `m` and completion ring `m'` among them: nothing sent is taken back, rings keep
their faces, other rings keep their commands and completions, functions and zones stay as they are but for budgets, turns and fences. -/
structure RingsRun (m m' : Nat) (s t : State) : Prop where
  rdma : ∀ o ∈ s.rdma, o ∈ t.rdma
  face : ∀ i, (look s.sqs i).map Sq.face = (look t.sqs i).map Sq.face
  others : ∀ i, i ≠ m → (look s.sqs i).map Sq.atRest = (look t.sqs i).map Sq.atRest
  cq : ∀ i, CqGoes (i = m') (look s.cqs i) (look t.cqs i)
  fn : ∀ f, (t.fn f).steady = (s.fn f).steady
  zone : ∀ k, (t.zone k).unfenced = (s.zone k).unfenced

variable {m m' : Nat} {s t u : State}

theorem RingsRun.refl (m m' : Nat) (s : State) : RingsRun m m' s s :=
  ⟨fun _ h => h, fun _ => rfl, fun _ _ => rfl, fun _ => .refl _ _, fun _ => rfl, fun _ => rfl⟩

theorem RingsRun.trans (h : RingsRun m m' s t) (h' : RingsRun m m' t u) : RingsRun m m' s u where
  rdma o ho := h'.rdma o (h.rdma o ho)
  face i := (h.face i).trans (h'.face i)
  others i hi := (h.others i hi).trans (h'.others i hi)
  cq i := (h.cq i).trans (h'.cq i)
  fn f := (h'.fn f).trans (h.fn f)
  zone k := (h'.zone k).trans (h.zone k)

/-- What touches no ring, function, zone or operation. -/
theorem ringsRun_of_eq (m m' : Nat) (hr : t.rdma = s.rdma) (hs : t.sqs = s.sqs) (hc : t.cqs = s.cqs) (hf : t.fns = s.fns)
    (hz : t.zones = s.zones) : RingsRun m m' s t where
  rdma o ho := hr ▸ ho
  face i := by rw [hs]
  others i _ := by rw [hs]
  cq i := hc ▸ .refl _ _
  fn f := by rw [State.fn, hf]; rfl
  zone k := by rw [State.zone, hz]; rfl

/-! ### The operations -/

theorem setSq_runs {f n : Nat} {g : Sq → Sq} (hf : ∀ q, (g q).face = q.face) (hr : ringNo f n = m ∨ ∀ q, (g q).atRest = q.atRest) :
    RingsRun m m' s (s.setSq f n g) where
  rdma _ h := h
  face i := by
    rw [State.setSq_sqs, look_adj]
    split
    · cases look s.sqs i <;> simp [hf]
    · rfl
  others i hi := by
    rw [State.setSq_sqs, look_adj]
    split
    · next h => cases look s.sqs i <;> simp [hr.resolve_left fun e => hi (h.trans e)]
    · rfl
  cq _ := .refl _ _
  fn _ := rfl
  zone _ := rfl

theorem setCq_runs {f n : Nat} {g : Cq → Cq} (hf : ∀ k, (g k).face = k.face) (hr : ringNo f n = m' ∨ ∀ k, (g k).atRest = k.atRest)
    (hu : ∀ k, ∃ new, (g k).unacked = k.unacked ++ new) : RingsRun m m' s (s.setCq f n g) where
  rdma _ h := h
  face _ := rfl
  others _ _ := rfl
  cq i := by
    rw [State.setCq_cqs, look_adj]
    split
    · next h => exact .map hf (hr.imp_left (h.trans ·)) hu
    · exact .refl _ _
  fn _ := rfl
  zone _ := rfl

theorem setFn_runs {f : Nat} {g : Fn → Fn} (h : ∀ x, (g x).steady = x.steady) : RingsRun m m' s (s.setFn f g) where
  rdma _ h := h
  face _ := rfl
  others _ _ := rfl
  cq _ := .refl _ _
  fn i := by
    unfold State.fn
    rw [State.setFn_fns]
    by_cases hi : i = f
    · rw [hi, lookD_adjD_same, h]
    · rw [lookD_adjD_other _ _ _ _ hi]
  zone _ := rfl

theorem setZone_runs {z : Nat} {g : Zone → Zone} (h : ∀ x, (g x).unfenced = x.unfenced) : RingsRun m m' s (s.setZone z g) where
  rdma _ h := h
  face _ := rfl
  others _ _ := rfl
  cq _ := .refl _ _
  fn _ := rfl
  zone i := by
    unfold State.zone
    rw [State.setZone_zones]
    by_cases hi : i = z
    · rw [hi, lookD_adjD_same, h]
    · rw [lookD_adjD_other _ _ _ _ hi]

theorem aborts_runs (s : State) (l : List AbortWait) : RingsRun m m' s { s with aborts := l } := ringsRun_of_eq m m' rfl rfl rfl rfl rfl

/-- The operation as it is issued: through no port where its port has no read left for it. -/
def State.admittedOp (s : State) (o : RdmaOp) : RdmaOp := { o with port := s.admitted o o.port }

theorem issue_rdma (s : State) (o : RdmaOp) : (s.issue o).rdma = s.rdma ++ [s.admittedOp o] := by
  unfold State.issue
  dsimp only
  split <;> rfl

theorem issue_runs (s : State) (o : RdmaOp) : RingsRun m m' s (s.issue o) := by
  have h : ∃ out, s.issue o = { s with out := out, rdma := s.rdma ++ [s.admittedOp o] } := by
    unfold State.issue
    dsimp only
    split
    · exact ⟨_, rfl⟩
    · exact ⟨_, rfl⟩
  obtain ⟨out, e⟩ := h
  rw [e]
  exact ⟨fun x hx => List.mem_append_left _ hx, fun _ => rfl, fun _ _ => rfl, fun _ => .refl _ _, fun _ => rfl, fun _ => rfl⟩

theorem RingsRun.issue (h : RingsRun m m' s t) (o : RdmaOp) : RingsRun m m' s (t.issue o) := h.trans (issue_runs t o)

theorem RingsRun.aborts (h : RingsRun m m' s t) (l : List AbortWait) : RingsRun m m' s { t with aborts := l } := h.trans (aborts_runs t l)

theorem RingsRun.setSq {f n : Nat} {g : Sq → Sq} (h : RingsRun m m' s t) (hf : ∀ q, (g q).face = q.face)
    (hr : ringNo f n = m ∨ ∀ q, (g q).atRest = q.atRest) : RingsRun m m' s (t.setSq f n g) := h.trans (setSq_runs hf hr)

theorem RingsRun.setCq {f n : Nat} {g : Cq → Cq} (h : RingsRun m m' s t) (hf : ∀ k, (g k).face = k.face)
    (hr : ringNo f n = m' ∨ ∀ k, (g k).atRest = k.atRest) (hu : ∀ k, ∃ new, (g k).unacked = k.unacked ++ new) :
    RingsRun m m' s (t.setCq f n g) := h.trans (setCq_runs hf hr hu)

theorem setCmd_runs {r : Ref} (hm : ringNo r.fn r.sq = m) (g : Cmd → Cmd) : RingsRun m m' s (s.setCmd r g) :=
  setSq_runs (fun _ => rfl) (.inl hm)

theorem atPoint_runs {r : Ref} (hm : ringNo r.fn r.sq = m) (p : Point) : RingsRun m m' s (s.atPoint r p) := setCmd_runs hm _

theorem fenceFor_runs (s : State) (r : Ref) (c : Cmd) (st : Nat) : RingsRun m m' s (s.fenceFor r c st) := by
  unfold State.fenceFor
  split
  · exact setZone_runs fun _ => rfl
  · exact .refl ..

theorem logFailure_runs {r : Ref} (hm : ringNo r.fn r.sq = m) (c : Cmd) (q : Sq) (d : Done) : RingsRun m m' s (s.logFailure r c q d).1 := by
  unfold State.logFailure
  split
  · exact setSq_runs (fun _ => rfl) (.inl hm)
  · exact .refl ..

/-- The completion ring of submission ring `r` is the one numbered `m'`. -/
def BoundTo (m' : Nat) (s : State) (r : Ref) : Prop := ∀ q, s.sq r.fn r.sq = some q → ringNo r.fn q.cq = m'

theorem BoundTo.of_runs {r : Ref} (hb : BoundTo m' s r) (h : RingsRun m m' s t) : BoundTo m' t r := by
  intro q hq
  have hface := h.face (ringNo r.fn r.sq)
  rw [show look t.sqs (ringNo r.fn r.sq) = some q from hq] at hface
  cases hs : look s.sqs (ringNo r.fn r.sq) with
  | none => simp [hs] at hface
  | some q0 =>
    have hcq : q0.cq = q.cq := by
      rw [hs] at hface
      exact Option.some.inj (congrArg (Option.map Sq.cq) hface)
    exact hcq ▸ hb q0 hs

theorem postOne_face (k : Cq) (b : Nat) (now : Bool) : (k.postOne b now).face = k.face := by
  unfold Cq.postOne
  split <;> rfl

/-- A completion ring that has taken a completion. -/
theorem posted_face {k a : Cq} (ha : a.face = k.face) (n p : Nat) (l : List (Nat × Bytes)) (h : List (Nat × Bool)) :
    Cq.face { a with posted := n, reserved := p, unacked := l, held := h } = k.face := ha

theorem post_runs {r : Ref} (hm : ringNo r.fn r.sq = m) (hb : BoundTo m' s r) (d : Done) : RingsRun m m' s (s.post r d) := by
  unfold State.post
  split
  · next q c hq hc =>
    have hcq : ringNo r.fn q.cq = m' := hb q hq
    dsimp only
    split
    · exact .refl ..
    · next k hk =>
      refine RingsRun.issue (RingsRun.aborts (RingsRun.setCq (RingsRun.setSq ?_ ?_ (.inl hm)) ?_ (.inl hcq) ?_) _) _
      · exact (logFailure_runs hm c q d).trans (fenceFor_runs _ r c d.status)
      · exact fun _ => rfl
      · intro k
        refine posted_face ?_ _ _ _ _
        split
        · exact postOne_face ..
        · rfl
      · exact fun k => ⟨_, rfl⟩
  · exact .refl ..

theorem postEnded_runs {f n : Nat} (hm : ringNo f n = m) : ∀ (k : Nat) {s : State}, (∀ t, BoundTo m' s ⟨f, n, t⟩) →
    RingsRun m m' s (State.postEnded f n k s)
  | 0, _, _ => .refl ..
  | k + 1, s, hb => by
    unfold State.postEnded
    split
    · split
      · next c _ =>
        split
        · next d _ =>
          have hpost : RingsRun m m' s (s.post ⟨f, n, c.tag⟩ d) := post_runs (r := ⟨f, n, c.tag⟩) hm (hb c.tag) d
          have hbound : ∀ t, BoundTo m' (s.post ⟨f, n, c.tag⟩ d) ⟨f, n, t⟩ := fun t => BoundTo.of_runs (hb t) hpost
          exact hpost.trans (postEnded_runs hm k hbound)
        · exact .refl ..
      · exact .refl ..
    · exact .refl ..

theorem complete_runs {r : Ref} (hm : ringNo r.fn r.sq = m) (hb : BoundTo m' s r) (d : Done) : RingsRun m m' s (s.complete r d) := by
  unfold State.complete
  split
  · split
    · exact setCmd_runs hm _
    · have hpost := post_runs hm hb d
      have hbound : ∀ t, BoundTo m' (s.post r d) ⟨r.fn, r.sq, t⟩ := fun _ => BoundTo.of_runs hb hpost
      exact hpost.trans (postEnded_runs hm _ hbound)
  · exact .refl ..

theorem failCheck_runs {r : Ref} (hm : ringNo r.fn r.sq = m) (hb : BoundTo m' s r) (st f : Nat) (l : List (Nat × Nat × Nat)) :
    RingsRun m m' s (s.failCheck r st f l) := by
  unfold State.failCheck
  dsimp only
  split
  · split
    · exact setCmd_runs hm _
    · exact complete_runs hm hb _
  · exact .refl ..

theorem checkBuffer_runs {r : Ref} (hm : ringNo r.fn r.sq = m) (hb : BoundTo m' s r) (c : Cmd) : RingsRun m m' s (s.checkBuffer r c) := by
  unfold State.checkBuffer
  split
  · exact failCheck_runs hm hb ..
  · split
    · exact (atPoint_runs hm _).trans (issue_runs _ _)
    · exact atPoint_runs hm _

theorem checkEntry_runs {r : Ref} (hm : ringNo r.fn r.sq = m) (hb : BoundTo m' s r) (c : Cmd) : RingsRun m m' s (s.checkEntry r c) := by
  unfold State.checkEntry
  split
  · exact failCheck_runs hm hb ..
  · split
    · exact (atPoint_runs hm _).trans (issue_runs _ _)
    · exact checkBuffer_runs hm hb c

theorem checkLoop_runs {f n : Nat} (hm : ringNo f n = m) : ∀ (k : Nat) {s : State}, (∀ t, BoundTo m' s ⟨f, n, t⟩) →
    RingsRun m m' s (State.checkLoop f n k s)
  | 0, _, _ => .refl ..
  | k + 1, s, hb => by
    unfold State.checkLoop
    split
    · split
      · exact .refl ..
      · split
        · next c _ =>
          have hentry : RingsRun m m' s (s.checkEntry ⟨f, n, c.tag⟩ c) := checkEntry_runs (r := ⟨f, n, c.tag⟩) hm (hb c.tag) c
          have hbound : ∀ t, BoundTo m' (s.checkEntry ⟨f, n, c.tag⟩ c) ⟨f, n, t⟩ := fun t => BoundTo.of_runs (hb t) hentry
          exact hentry.trans (checkLoop_runs hm k hbound)
        · exact .refl ..
    · exact .refl ..

theorem checkRing_runs {f n : Nat} (hm : ringNo f n = m) (hb : ∀ t, BoundTo m' s ⟨f, n, t⟩) : RingsRun m m' s (s.checkRing f n) :=
  checkLoop_runs hm _ hb

theorem askHead_runs (s : State) (f n : Nat) (k : Cq) : RingsRun m m' s (s.askHead f n k) := by
  unfold State.askHead
  split
  · exact .refl ..
  · refine RingsRun.issue (setCq_runs ?_ (.inr ?_) ?_) _
    · exact fun _ => rfl
    · exact fun _ => rfl
    · exact fun k => ⟨[], (List.append_nil _).symm⟩

/-- What a fetch of `a` entries sets in its rings. -/
theorem reserve_runs (h : RingsRun m m' s t) (f n cq a : Nat) : RingsRun m m' s
    ((t.setSq f n fun q => { q with reading := q.reading + a, inBell := q.inBell + a }).setCq f cq fun k =>
      { k with reserved := k.reserved + a }) := by
  refine RingsRun.setCq (RingsRun.setSq h ?_ (.inr ?_)) ?_ (.inr ?_) ?_
  · exact fun _ => rfl
  · exact fun _ => rfl
  · exact fun _ => rfl
  · exact fun _ => rfl
  · exact fun k => ⟨[], (List.append_nil _).symm⟩

theorem fetch_runs (s : State) (f n : Nat) : RingsRun m m' s (s.fetch f n).2 := by
  unfold State.fetch
  split
  · exact .refl ..
  · next q _ =>
    split
    · next k p _ _ =>
      extract_lets want a s1 first head s2 s3 s4
      have hask : RingsRun m m' s s1 := by
        unfold s1
        split
        · exact askHead_runs ..
        · exact .refl ..
      have hone : RingsRun m m' s s4 := RingsRun.issue (reserve_runs hask ..) _
      split
      · exact .refl ..
      · split
        · exact hask
        · dsimp only
          split
          · exact RingsRun.issue hone _
          · exact hone
    · exact .refl ..

theorem fetchFn_runs (s : State) (f : Nat) : RingsRun m m' s (s.fetchFn f) := by
  have hfold : ∀ (l : List (Nat × Sq)) (a : Option Nat × State), RingsRun m m' s a.2 → RingsRun m m' s (l.foldl (fun a e =>
      let (did, x) := a.2.fetch f (e.1 % 1024)
      (if did && a.1.isNone then some (e.1 % 1024) else a.1, x)) a).2 := by
    intro l
    induction l with
    | nil => exact fun _ h => h
    | cons e l ih => exact fun a h => ih _ (h.trans (fetch_runs a.2 f _))
  unfold State.fetchFn
  dsimp only
  split
  · exact (hfold _ (none, s) (.refl ..)).trans (setFn_runs fun _ => rfl)
  · exact hfold _ (none, s) (.refl ..)

theorem goOn_runs {f n : Nat} (hm : ringNo f n = m) (hb : ∀ t, BoundTo m' s ⟨f, n, t⟩) : RingsRun m m' s (s.goOn f n) :=
  (checkRing_runs hm hb).trans (fetchFn_runs _ _)

theorem settle_runs {r : Ref} (hm : ringNo r.fn r.sq = m) (hb : BoundTo m' s r) : RingsRun m m' s (s.settle r) := by
  unfold State.settle
  split
  · split
    · exact (atPoint_runs hm _).trans (goOn_runs hm fun _ => hb.of_runs (atPoint_runs hm _))
    · exact goOn_runs hm fun _ => hb
  · exact goOn_runs hm fun _ => hb

/-! ### A completion is posted (R146) -/

theorem logFailure_cqs (s : State) (r : Ref) (c : Cmd) (q : Sq) (d : Done) : (s.logFailure r c q d).1.cqs = s.cqs := by
  unfold State.logFailure
  split <;> rfl

theorem fenceFor_cqs (s : State) (r : Ref) (c : Cmd) (st : Nat) : (s.fenceFor r c st).cqs = s.cqs := by
  unfold State.fenceFor
  split <;> rfl

theorem issue_cqs (s : State) (o : RdmaOp) : (s.issue o).cqs = s.cqs := by
  unfold State.issue
  dsimp only
  split <;> rfl

theorem issue_sqs (s : State) (o : RdmaOp) : (s.issue o).sqs = s.sqs := by
  unfold State.issue
  dsimp only
  split <;> rfl

theorem Cmd.unchecked_tag (c : Cmd) : c.unchecked.tag = c.tag := by
  unfold Cmd.unchecked
  split <;> rfl

/-- Once a completion is posted, no command of its tag stands in the ring. -/
theorem find?_remaining (cmds : List Cmd) (tag : Nat) (b : Bool) :
    ((cmds.filter fun c => c.tag ≠ tag).map fun c => if b then c.unchecked else c).find? (fun c => c.tag = tag) = none := by
  rw [List.find?_eq_none]
  intro c hc
  obtain ⟨a, ha, rfl⟩ := List.mem_map.mp hc
  have hne : a.tag ≠ tag := by simpa using (List.mem_filter.mp ha).2
  split
  · simpa [Cmd.unchecked_tag] using hne
  · simpa using hne

/-- A post sends the entry from a state in which the completion ring has taken it and the command is gone. -/
theorem post_eq {r : Ref} {c : Cmd} {q : Sq} {k : Cq} (hq : s.sq r.fn r.sq = some q) (hc : s.cmd r = some c)
    (hk : s.cq r.fn q.cq = some k) (d : Done) : ∃ (y : State) (rings : Tab Sq) (g : Sq → Sq) (G : Cq → Cq) (logged : Bool)
      (p : Option PortId), s.post r d = y.issue ⟨r.fn, p, false, .cqe q.cq k.posted (cqeBytes s r c q k d logged)⟩ ∧
      y.cqs = adj s.cqs (ringNo r.fn q.cq) G ∧ (∀ a, (G a).unacked = a.unacked ++ [(a.posted, cqeBytes s r c q k d logged)]) ∧
      y.sqs = adj rings (ringNo r.fn r.sq) g ∧ ∀ a, (g a).cmds.find? (fun c => c.tag = r.tag) = none := by
  have hcqs : ((s.logFailure r c q d).1.fenceFor r c d.status).cqs = s.cqs := (fenceFor_cqs ..).trans (logFailure_cqs ..)
  have hk1 : ((s.logFailure r c q d).1.fenceFor r c d.status).cq r.fn q.cq = some k := by
    unfold State.cq
    rw [hcqs]
    exact hk
  unfold State.post
  simp only [hq, hc, hk1]
  refine ⟨_, _, _, _, _, _, rfl, congrArg (adj · _ _) hcqs, ?_, rfl, fun a => find?_remaining a.cmds r.tag _⟩
  exact fun _ => rfl

theorem cmd_of_sqs (h : t.sqs = s.sqs) (r : Ref) : t.cmd r = s.cmd r := by
  unfold State.cmd State.sq
  rw [h]

theorem post_posts {r : Ref} {c : Cmd} {q : Sq} {k : Cq} (hq : s.sq r.fn r.sq = some q) (hc : s.cmd r = some c)
    (hk : s.cq r.fn q.cq = some k) (d : Done) : ∃ logged p k', (s.post r d).cq r.fn q.cq = some k' ∧
      k'.unacked = k.unacked ++ [(k.posted, cqeBytes s r c q k d logged)] ∧
      RdmaOp.mk r.fn p false (.cqe q.cq k.posted (cqeBytes s r c q k d logged)) ∈ (s.post r d).rdma ∧ (s.post r d).cmd r = none := by
  obtain ⟨y, rings, g, G, logged, p, e, hcqs, hG, hsqs, hg⟩ := post_eq hq hc hk d
  have hsent : RdmaOp.mk r.fn (y.admitted ⟨r.fn, p, false, .cqe q.cq k.posted (cqeBytes s r c q k d logged)⟩ p) false
      (.cqe q.cq k.posted (cqeBytes s r c q k d logged)) ∈ (s.post r d).rdma := by
    rw [e, issue_rdma]
    exact List.mem_append_right _ (List.mem_singleton_self _)
  refine ⟨logged, _, G k, ?_, hG k, hsent, ?_⟩
  · rw [e, State.cq, issue_cqs, hcqs, look_adj_same, show look s.cqs (ringNo r.fn q.cq) = some k from hk]
    rfl
  · rw [e, cmd_of_sqs (issue_sqs ..)]
    unfold State.cmd State.sq
    rw [hsqs, look_adj_same]
    cases look rings (ringNo r.fn r.sq) with
    | none => rfl
    | some a => exact hg a

/-- In `t`, the ring of `r`, its completion ring and its command stand; no completion unacknowledged in `s` is lost; and no earlier
command holds its completion back (R167). -/
def Stands (s t : State) (r : Ref) (c : Cmd) : Prop :=
  ∃ q0 k0 q k new, s.sq r.fn r.sq = some q0 ∧ s.cq r.fn q0.cq = some k0 ∧ t.sq r.fn r.sq = some q ∧ q.cq = q0.cq ∧
    t.cq r.fn q0.cq = some k ∧ k.unacked = k0.unacked ++ new ∧ t.cmd r = some c ∧ orderWaits q.cmds c = false

/-- A ring and the completion ring it is bound to. -/
theorem boundTo_of_sq {r : Ref} {q : Sq} (hq : s.sq r.fn r.sq = some q) : BoundTo (ringNo r.fn q.cq) s r := by
  intro q' hq'
  rw [Option.some.inj (hq'.symm.trans hq)]

/-- Completing a command posts its completion, and what the rings go on with keeps it. -/
theorem Stands.posts {r : Ref} {c : Cmd} {d : Done} (h : Stands s u r c) (hrun : ∀ m', BoundTo m' u r → RingsRun (ringNo r.fn r.sq) m' (u.complete r d) t)
    (hbell : t.bell.now = u.bell.now) (hledger : t.ledger = u.ledger) (hsems : t.sems = u.sems) :
    Posts s t r d.status d.result d.ledger := by
  obtain ⟨q0, k0, q, k, new, hq0, hk0, hq, hcq, hk, hnew, hc, hwait⟩ := h
  rw [← hcq] at hk
  have htag : c.tag = r.tag := by
    have := List.find?_some (p := fun c : Cmd => decide (c.tag = r.tag)) (l := q.cmds) (a := c) (by simpa [State.cmd, hq] using hc)
    simpa using this
  have hb := boundTo_of_sq hq
  obtain ⟨logged, p, k', hk', hun, hrd, -⟩ := post_posts hq hc hk d
  have hcomplete : RingsRun (ringNo r.fn r.sq) (ringNo r.fn q.cq) (u.post r d) (u.complete r d) := by
    unfold State.complete
    simp only [hq, hc, hwait]
    have hbound : ∀ t, BoundTo (ringNo r.fn q.cq) (u.post r d) ⟨r.fn, r.sq, t⟩ := fun _ => BoundTo.of_runs hb (post_runs rfl hb d)
    exact postEnded_runs rfl _ hbound
  have hall := hcomplete.trans (hrun _ hb)
  obtain ⟨-, -, hgrow⟩ := hall.cq (ringNo r.fn q.cq)
  obtain ⟨k1, new1, hk1, hun1⟩ := hgrow k' hk'
  refine ⟨q0, k0, k1, new ++ [(k.posted, cqeBytes u r c q k d logged)] ++ new1, q, k, c, p, u, d, logged, hq0, hk0, hcq ▸ hk1, ?_, htag,
    hbell.symm, hledger.symm, hsems.symm, rfl, rfl, rfl, ?_, ?_⟩
  · rw [hun1, hun, hnew]
    simp
  · simp
  · exact hcq ▸ hall.rdma _ hrd

end Sys2Proof.Machine
end

section
/-! Host commands from their start to their completion: what stands while one runs, and what its completion leaves. -/

namespace Sys2Proof.Machine

variable {s t u : State} {r : Ref} {op : Nat} {c : Cmd}

/-! ### The command -/

theorem Startable.cmd_eq (h : Startable s r op c) : s.cmd r = some c ∧ c.opcode = op ∧ s.mayStart r c = true := by
  obtain ⟨-, hs, -⟩ := h
  unfold State.startable at hs
  split at hs
  · next c' hc =>
    split at hs
    · next ho =>
      obtain rfl := Option.some.inj hs
      rw [Bool.and_eq_true, decide_eq_true_eq] at ho
      exact ⟨hc, ho⟩
    · exact absurd hs (by simp)
  · exact absurd hs (by simp)

/-- A command that may start starts as its row says, and its ring settles. -/
theorem Startable.start_eq (h : Startable s r op c) (f : Cmd → State) : s.start r op f = go ((f c).settle r) := by
  unfold State.start
  rw [h.2.1]

theorem cmd_setCmd (s : State) (r : Ref) {g : Cmd → Cmd} (hg : ∀ a, (g a).tag = a.tag) :
    (s.setCmd r g).cmd r = (s.cmd r).map g := by
  unfold State.cmd State.sq State.setCmd
  rw [State.setSq_sqs, look_adj_same]
  cases look s.sqs (ringNo r.fn r.sq) with
  | none => rfl
  | some q =>
    show (q.cmds.map _).find? _ = (q.cmds.find? _).map g
    rw [find?_map_of_imp (g := fun c : Cmd => if c.tag = r.tag then g c else c) (fun a => by split <;> simp [*])]
    cases hf : q.cmds.find? fun c => c.tag = r.tag with
    | none => rfl
    | some a =>
      have ha : a.tag = r.tag := by simpa using List.find?_some hf
      simp [ha]

/-! ### Waiting for earlier commands (R167) -/

theorem sameTarget_congr {a b a' b' : Cmd} (ha : a.entry = a'.entry) (hb : b.entry = b'.entry) : sameTarget a b = sameTarget a' b' := by
  unfold sameTarget Cmd.opcode Cmd.zkey Cmd.f12 Cmd.zone Cmd.cnt
  rw [ha, hb]

/-- Only commands on zones and random units wait for one another. -/
theorem orderWaits_unordered {cmds : List Cmd} (h : zoneOrdered c.opcode = false) (h' : randOrdered c.opcode = false) :
    orderWaits cmds c = false := by
  unfold orderWaits
  rw [List.any_eq_false]
  intro d _
  simp [sameTarget, h, h']

theorem orderWaits_map {g : Cmd → Cmd} (hp : ∀ a, (g a).pos = a.pos) (he : ∀ a, (g a).entry = a.entry) {c' : Cmd} (hcp : c'.pos = c.pos)
    (hce : c'.entry = c.entry) (cmds : List Cmd) : orderWaits (cmds.map g) c' = orderWaits cmds c := by
  unfold orderWaits earlier
  rw [List.takeWhile_map, List.any_map, hcp]
  simp only [Function.comp_def, hp, fun a => sameTarget_congr hce (he a)]

theorem turn_iff : s.turn r c = true ↔ ∃ q, s.sq r.fn r.sq = some q ∧ orderWaits q.cmds c = false := by
  unfold State.turn
  split <;> simp [*]

theorem Startable.turn_unordered (h : Startable s r op c) (hz : zoneOrdered op = false) (hr : randOrdered op = false) :
    s.turn r c = true := by
  obtain ⟨-, ho, -⟩ := h.cmd_eq
  obtain ⟨-, -, q, -, hq, -⟩ := h
  exact turn_iff.mpr ⟨q, hq, orderWaits_unordered (ho ▸ hz) (ho ▸ hr)⟩

/-! ### What stands -/

/-- A command in its turn stands where it starts. -/
theorem Startable.stands (h : Startable s r op c) (ht : s.turn r c = true) : Stands s s r c := by
  obtain ⟨hc, -, -⟩ := h.cmd_eq
  obtain ⟨-, -, q, k, hq, hk⟩ := h
  obtain ⟨q', hq', hw⟩ := turn_iff.mp ht
  obtain rfl := Option.some.inj (hq.symm.trans hq')
  exact ⟨q, k, q, k, [], hq, hk, hq, rfl, hk, (List.append_nil _).symm, hc, hw⟩

/-- A change elsewhere keeps what stands. -/
theorem Stands.of_eq (h : Stands s t r c) (hs : u.sqs = t.sqs) (hc : u.cqs = t.cqs) : Stands s u r c := by
  obtain ⟨q0, k0, q, k, new, hq0, hk0, hq, hcq, hk, hnew, hcmd, hw⟩ := h
  refine ⟨q0, k0, q, k, new, hq0, hk0, ?_, hcq, ?_, hnew, (cmd_of_sqs hs r).trans hcmd, hw⟩
  · rw [State.sq, hs]
    exact hq
  · rw [State.cq, hc]
    exact hk

/-- A change to the command that keeps its tag, place and entry keeps what stands. -/
theorem Stands.setCmd (h : Stands s t r c) {g : Cmd → Cmd} (ht : ∀ a, (g a).tag = a.tag) (hp : ∀ a, (g a).pos = a.pos)
    (he : ∀ a, (g a).entry = a.entry) : Stands s (t.setCmd r g) r (g c) := by
  obtain ⟨q0, k0, q, k, new, hq0, hk0, hq, hcq, hk, hnew, hcmd, hw⟩ := h
  refine ⟨q0, k0, { q with cmds := q.cmds.map fun c => if c.tag = r.tag then g c else c }, k, new, hq0, hk0, ?_, hcq, hk, hnew, ?_, ?_⟩
  · unfold State.setCmd State.sq
    rw [State.setSq_sqs, look_adj_same, show look t.sqs (ringNo r.fn r.sq) = some q from hq]
    rfl
  · rw [cmd_setCmd t r ht, hcmd]
    rfl
  · refine (orderWaits_map ?_ ?_ (hp c) (he c) q.cmds).trans hw
    · intro a
      split <;> simp [hp]
    · intro a
      split <;> simp [he]

theorem Stands.begins (h : Stands s t r c) (p : Point) :
    Stands s (t.begin_ r p) r { c with point := p, seen := t.ledger, startBell := t.bell.now, startStill := t.bell.still } :=
  h.setCmd (g := fun c : Cmd => { c with point := p, seen := t.ledger, startBell := t.bell.now, startStill := t.bell.still })
    (fun _ => rfl) (fun _ => rfl) (fun _ => rfl)

theorem Stands.issued (h : Stands s t r c) (o : RdmaOp) : Stands s (t.issue o) r c := h.of_eq (issue_sqs t o) (issue_cqs t o)

theorem Stands.cmd_eq (h : Stands s t r c) : t.cmd r = some c := by
  obtain ⟨q0, k0, q, k, new, -, -, -, -, -, -, hcmd, -⟩ := h
  exact hcmd

/-! ### Completing -/

theorem bell_of_rest (h : t.rest = u.rest) : t.bell = u.bell := (congrArg State.bell h :)

theorem ledger_of_rest (h : t.rest = u.rest) : t.ledger = u.ledger := (congrArg State.ledger h :)

theorem sems_of_rest (h : t.rest = u.rest) : t.sems = u.sems := (congrArg State.sems h :)

theorem rest_of_completes (u : State) (r : Ref) (d : Done) : ((u.complete r d).settle r).rest = u.rest :=
  (settle_besides _ r).trans (complete_besides u r d)

/-- A command that completes in its turn has its completion posted. -/
theorem Stands.completes (h : Stands s u r c) (d : Done) : Posts s ((u.complete r d).settle r) r d.status d.result d.ledger := by
  have hrest := rest_of_completes u r d
  refine h.posts (fun m' hb => ?_) (congrArg Bell.now (bell_of_rest hrest)) (ledger_of_rest hrest) (sems_of_rest hrest)
  exact settle_runs rfl (hb.of_runs (complete_runs rfl hb d))

/-- The completion of a command takes back nothing that is sent, and keeps zones but for their fences. -/
theorem Stands.completes_runs (h : Stands s u r c) (d : Done) :
    ∃ m', RingsRun (ringNo r.fn r.sq) m' u ((u.complete r d).settle r) := by
  obtain ⟨q0, k0, q, k, new, -, -, hq, -⟩ := h
  have hb := boundTo_of_sq hq
  have hrun := complete_runs rfl hb d
  exact ⟨_, hrun.trans (settle_runs rfl (hb.of_runs hrun))⟩

theorem Stands.completes_rdma (h : Stands s u r c) (d : Done) {o : RdmaOp} (ho : o ∈ u.rdma) : o ∈ ((u.complete r d).settle r).rdma := by
  obtain ⟨m', hrun⟩ := h.completes_runs d
  exact hrun.rdma o ho

theorem Stands.completes_zone (h : Stands s u r c) (d : Done) (k : Nat) :
    (((u.complete r d).settle r).zone k).unfenced = (u.zone k).unfenced := by
  obtain ⟨m', hrun⟩ := h.completes_runs d
  exact hrun.zone k

/-! ### Data on its way to the host -/

theorem Stands.sendsOut (h : Stands s t r c) (k : Nat) (b : Bytes) : Stands s (t.sendOut r k b) r c := by
  unfold State.sendOut
  rw [h.cmd_eq]
  dsimp only
  split
  · exact h
  · exact h.issued _

theorem sendOut_sends (hc : t.cmd r = some c) (k : Nat) {b : Bytes} (hb : b ≠ []) :
    ∃ p, RdmaOp.mk r.fn p false (.outData { c with data := [], point := .decided } r k b) ∈ (t.sendOut r k b).rdma := by
  unfold State.sendOut
  rw [hc]
  dsimp only
  rw [if_neg (by simpa using hb), issue_rdma]
  exact ⟨_, List.mem_append_right _ (List.mem_singleton_self _)⟩

/-- A command that delivers bytes and completes. -/
theorem Startable.answers_bytes (h : Startable s r op c) (ht : s.turn r c = true) {b : Bytes} (hb : b ≠ []) (d : Done) :
    let t := ((((s.begin_ r .decided).sendOut r 0 b).complete r d).settle r)
    Posts s t r d.status d.result d.ledger ∧ Delivers t r 0 b ∧ t.rest = s.rest := by
  intro t
  have hs := ((h.stands ht).begins .decided)
  obtain ⟨p, hp⟩ := sendOut_sends hs.cmd_eq 0 hb
  refine ⟨(hs.sendsOut 0 b).completes d, ⟨_, p, false, (hs.sendsOut 0 b).completes_rdma d hp⟩, ?_⟩
  exact (rest_of_completes _ r d).trans (sendOut_besides _ _ _ _)

/-! ### FLUSH, REPORT ZONES and GET LOG -/

/-- FLUSH with no earlier command that changes state (R166). -/
theorem flush_completes (h : Startable s r 0x18 c) {q : Sq} (hq : s.sq r.fn r.sq = some q)
    (hearly : (earlier q.cmds c.pos).any Cmd.changes = false) :
    ∃ t, exec (.flush r) s = .next t ∧ Posts s t r SUCCESS 0 none ∧ t.rest = s.rest := by
  have hexec : exec (.flush r) s = .next (((s.begin_ r .decided).complete r { status := SUCCESS }).settle r) := by
    change execFlush r s = _
    unfold execFlush
    rw [h.start_eq, hq]
    simp [hearly]
  exact ⟨_, hexec, ((h.stands (h.turn_unordered rfl rfl)).begins .decided).completes _, rest_of_completes _ r _⟩

theorem reportZones_delivers (h : Startable s r 0x0C c) (hn : 0 < min c.cnt (s.quota c.f12 - c.zone)) :
    let n := min c.cnt (s.quota c.f12 - c.zone)
    ∃ t, exec (.reportZones r) s = .next t ∧ Posts s t r SUCCESS (BitVec.ofNat 64 n) none ∧
      Delivers t r 0 ((List.range n).flatMap fun k => s.descriptor c.f12 (c.zone + k)) ∧ t.rest = s.rest := by
  intro n
  have hb : ((List.range n).flatMap fun k => s.descriptor c.f12 (c.zone + k)) ≠ [] := by
    obtain ⟨m, hm⟩ : ∃ m, n = m + 1 := ⟨n - 1, by omega⟩
    rw [hm, List.range_succ_eq_map, List.flatMap_cons]
    exact List.append_ne_nil_of_left_ne_nil (List.ne_nil_of_length_pos (by rw [State.descriptor, length_record]; decide)) _
  exact ⟨_, h.start_eq _, h.answers_bytes (h.turn_unordered rfl rfl) hb { status := SUCCESS, result := BitVec.ofNat 64 n }⟩

theorem getLog_delivers (h : Startable s r 0x38 c) (hb : ((s.logBytes r c).drop (le c.entry 8 4)).take (le c.entry 12 4) ≠ []) :
    let b := ((s.logBytes r c).drop (le c.entry 8 4)).take (le c.entry 12 4)
    ∃ t, exec (.getLog r) s = .next t ∧ Posts s t r SUCCESS (BitVec.ofNat 64 b.length) none ∧ Delivers t r 0 b ∧ t.rest = s.rest := by
  intro b
  exact ⟨_, h.start_eq _, h.answers_bytes (h.turn_unordered rfl rfl) hb { status := SUCCESS, result := BitVec.ofNat 64 b.length }⟩

theorem ZState.num_lt (z : ZState) : z.num < 256 := by cases z <;> decide

/-- The fields of a zone's descriptor read back (R207). -/
theorem descriptor_fields {k z : Nat} (hz : z < 2 ^ 32) (hl : (s.zone (zoneNo k z)).lclass < 256) :
    let d := s.descriptor k z
    le d 0 4 = z ∧ byteAt d 4 = (s.zone (zoneNo k z)).st.num ∧ bit (byteAt d 5) 0 = (s.zone (zoneNo k z)).fence.isSome ∧
      byteAt d 6 = (s.zone (zoneNo k z)).lclass := by
  intro d
  refine ⟨?_, ?_, ?_, ?_⟩
  · exact (le_record (by decide) (by intro i hi; interval_cases i <;> rfl)).trans (Nat.mod_eq_of_lt hz)
  · exact (byteAt_record (o := 4) (by decide) rfl).trans (by simp [Nat.mod_eq_of_lt (ZState.num_lt _)])
  · rw [show byteAt d 5 = _ from byteAt_record (o := 5) (by decide) rfl]
    cases (s.zone (zoneNo k z)).fence <;> simp [b01, bit]
  · exact (byteAt_record (o := 6) (by decide) rfl).trans (by simp [Nat.mod_eq_of_lt hl])

/-- Settles O26: each of the three runs in its turn, and its completion and what the ring goes on with leave the rest of the state alone. -/
theorem flushAndReports : Obligations.FlushAndReports :=
  ⟨fun _ _ _ _ h hq hearly => flush_completes h hq hearly, fun _ _ _ => ⟨fun h hn => reportZones_delivers h hn,
    fun h hb => getLog_delivers h hb, fun _ _ hz hl => descriptor_fields hz hl⟩⟩

end Sys2Proof.Machine
end

section
/-! READ and RANDOM READ: units deciphered keep their size, and are delivered or queued as array reads. -/

namespace Sys2Proof.Machine

variable {s t u : State} {r : Ref} {op : Nat} {c : Cmd}

/-! ### Sizes of ciphered units (R28) -/

theorem length_slice (b : Bytes) (k n : Nat) : (slice b k n).length = n := by
  simp only [slice, List.length_append, List.length_take, List.length_drop, List.length_replicate]
  omega

theorem length_xorBytes (a b : Bytes) : (xorBytes a b).length = min a.length b.length := by simp [xorBytes]

theorem length_toLe (n : Nat) : ∀ k, (toLe n k).length = k := by
  intro k
  induction k generalizing n with
  | zero => rfl
  | succ k ih => simp [toLe, ih]

/-- A word of an AES key schedule. -/
def IsWord (w : Bytes) : Prop := w.length = 4

theorem isWord_getD {ws : List Bytes} (h : ∀ w ∈ ws, IsWord w) {i : Nat} (hi : i < ws.length) : IsWord (ws.getD i []) := by
  rw [List.getD_eq_getElem _ _ hi]
  exact h _ (List.getElem_mem hi)

theorem aesExtend_words : ∀ (n i : Nat) (c : Byte) (ws : List Bytes), 8 ≤ ws.length → (∀ w ∈ ws, IsWord w) →
    (aesExtend n i c ws).length = ws.length + n ∧ ∀ w ∈ aesExtend n i c ws, IsWord w
  | 0, _, _, _, _, h => ⟨rfl, h⟩
  | n + 1, i, c, ws, hlen, h => by
    have hlast : IsWord (ws.headD []) := by
      cases ws with
      | nil => simp at hlen
      | cons w ws => exact h w (List.mem_cons_self ..)
    have hseven : IsWord (ws.getD 7 []) := isWord_getD h (by omega)
    unfold IsWord at hlast hseven
    have hnew : ∀ w ∈ xorBytes (ws.getD 7 []) (if i % 8 = 0 then xorBytes (((ws.headD []).drop 1 ++ (ws.headD []).take 1).map aesSub) [c, 0, 0, 0]
        else if i % 8 = 4 then (ws.headD []).map aesSub else ws.headD []) :: ws, IsWord w := by
      intro w hw
      rcases List.mem_cons.mp hw with rfl | hw
      · unfold IsWord
        split_ifs <;> simp only [length_xorBytes, List.length_map, List.length_append, List.length_drop, List.length_take, List.length_cons,
          List.length_nil] <;> omega
      · exact h w hw
    obtain ⟨hl, hw⟩ := aesExtend_words n (i + 1) (if i % 8 = 0 then aesTwice c else c) _ (by simp; omega) hnew
    refine ⟨hl.trans ?_, hw⟩
    rw [List.length_cons]
    omega

/-- A round key has 16 bytes. -/
theorem length_roundKey (key : Bytes) {i : Nat} (hi : i < 15) : ((aesKeys key).getD i []).length = 16 := by
  unfold aesKeys
  extract_lets ws
  obtain ⟨hl, hw⟩ := aesExtend_words 52 8 1 ((List.range 8).map fun i => slice key (4 * i) 4).reverse (by simp) (by simp [IsWord, length_slice])
  have hword : ∀ j, j < 60 → (ws.getD j []).length = 4 := fun j hj =>
    isWord_getD (ws := ws) (fun w h => hw w (List.mem_reverse.mp h)) (by rw [List.length_reverse, hl]; simpa using hj)
  rw [List.getD_eq_getElem _ _ (by simpa using hi), List.getElem_map, List.getElem_range, List.length_flatMap]
  simp only [show List.range 4 = [0, 1, 2, 3] from rfl, List.map_cons, List.map_nil, List.sum_cons, List.sum_nil]
  rw [hword _ (by omega), hword _ (by omega), hword _ (by omega), hword _ (by omega)]
  rfl

theorem length_aesEnc (key b : Bytes) : (aesEnc (aesKeys key) b).length = 16 := by
  rw [aesEnc, length_xorBytes, length_roundKey key (by decide)]
  simp [aesShift]

theorem length_aesDec (key b : Bytes) : (aesDec (aesKeys key) b).length = 16 := by
  rw [aesDec, length_xorBytes, length_roundKey key (by decide)]
  simp [aesShift]

theorem length_xtsBlocks {f : Bytes → Bytes} (hf : ∀ b, (f b).length = 16) : ∀ (n : Nat) (t b : Bytes), t.length = 16 →
    (xtsBlocks f n t b).length = n * 16
  | 0, _, _, _ => by simp [xtsBlocks]
  | n + 1, t, b, ht => by
    rw [xtsBlocks, List.length_append, length_xorBytes, hf, ht, length_xtsBlocks hf n _ _ (by unfold xtsNext; exact length_toLe _ 16)]
    omega

/-- A unit deciphers to 4 KiB. -/
theorem length_xtsOpen (key tweak : Nat) (b : Bytes) : (xtsOpen key tweak b).length = 4096 :=
  length_xtsBlocks (length_aesDec _) 256 _ _ (length_aesEnc _ _)

/-! ### The pieces of a read -/

theorem length_zeroUnit : zeroUnit.length = 4096 := length_slice _ _ _

theorem length_zonePiece (s : State) (z o : Nat) (w : SliceFor) : (s.zonePiece z o w).1.length = 4096 := by
  unfold State.zonePiece
  split
  · split
    · exact length_xtsOpen _ _ _
    · exact length_zeroUnit
  · exact length_zeroUnit

theorem length_randPiece (s : State) (h u : Nat) (w : SliceFor) : (s.randPiece h u w).1.length = 4096 := by
  unfold State.randPiece
  split
  · exact length_zeroUnit
  · split
    · exact length_xtsOpen _ _ _
    · exact length_zeroUnit

theorem slice_nil (n : Nat) : slice [] 0 n = List.replicate n 0 := by simp [slice]

/-- An unwritten unit of a zone reads as zeros (R210). -/
theorem zonePiece_of_unwritten {z o : Nat} (h : look s.units (unitNo z o) = none) (w : SliceFor) :
    s.zonePiece z o w = (List.replicate 4096 0, none) := by
  unfold State.zonePiece
  rw [h]
  exact congrArg (·, none) (slice_nil 4096)

theorem length_pieces {ps : List Piece} (h : ∀ p ∈ ps, p.1.length = 4096) : (ps.flatMap (·.1)).length = ps.length * 4096 := by
  induction ps with
  | nil => rfl
  | cons p ps ih =>
    rw [List.flatMap_cons, List.length_append, h p (List.mem_cons_self ..), ih fun q hq => h q (List.mem_cons_of_mem _ hq), List.length_cons]
    omega

/-! ### A read that starts -/

/-- The command of a read that runs with its pieces. -/
def Cmd.readBegun (c : Cmd) (s : State) (ps : List Piece) : Cmd :=
  { c with point := .running, seen := s.ledger, startBell := s.bell.now, startStill := s.bell.still, data := ps.flatMap (·.1),
           slices := (ps.filterMap (·.2)).length, bad := none }

/-- The state in which a read runs with its pieces. -/
def State.readBegun (s : State) (r : Ref) (ps : List Piece) : State :=
  (s.begin_ r .running).setCmd r fun c => { c with data := ps.flatMap (·.1), slices := (ps.filterMap (·.2)).length, bad := none }

theorem Stands.readBegun (h : Stands s t r c) (ps : List Piece) : Stands s (t.readBegun r ps) r (c.readBegun t ps) :=
  (h.begins .running).setCmd (g := fun c : Cmd => { c with data := ps.flatMap (·.1), slices := (ps.filterMap (·.2)).length, bad := none })
    (fun _ => rfl) (fun _ => rfl) (fun _ => rfl)

theorem startRead_eq_finish {ps : List Piece} (h : ps.filterMap (·.2) = []) : s.startRead r ps none = (s.readBegun r ps).finishRead r := by
  unfold State.startRead State.readBegun
  simp [h]

theorem startRead_eq_queue {ps : List Piece} (h : ps.filterMap (·.2) ≠ []) :
    s.startRead r ps none = (s.readBegun r ps).setMedia fun m => { m with slices := m.slices ++ joinSlices (ps.filterMap (·.2)) } := by
  unfold State.startRead State.readBegun
  simp [h]

theorem finishRead_eq (hc : s.cmd r = some c) (hb : c.bad = none) : s.finishRead r =
    ((s.atPoint r .decided).sendOut r 0 (c.data.take (c.cnt * 4096))).complete r { status := SUCCESS, result := BitVec.ofNat 64 c.cnt } := by
  unfold State.finishRead
  simp [hc, hb]

/-- A read with nothing on flash delivers its pieces and completes. -/
theorem Stands.finishes (h : Stands s t r c) {ps : List Piece} (hlen : ∀ p ∈ ps, p.1.length = 4096) (hcnt : ps.length = c.cnt) (hpos : 0 < c.cnt) :
    let v := ((t.readBegun r ps).finishRead r).settle r
    Posts s v r SUCCESS (BitVec.ofNat 64 c.cnt) none ∧ Delivers v r 0 (ps.flatMap (·.1)) ∧ v.rest = t.rest := by
  intro v
  have hon := h.readBegun ps
  have htake : (ps.flatMap (·.1)).take (c.cnt * 4096) = ps.flatMap (·.1) := List.take_of_length_le (by rw [length_pieces hlen, hcnt])
  have hne : ps.flatMap (·.1) ≠ [] := List.ne_nil_of_length_pos (by rw [length_pieces hlen]; omega)
  have hat : Stands s ((t.readBegun r ps).atPoint r .decided) r { c.readBegun t ps with point := .decided } :=
    hon.setCmd (g := fun c : Cmd => { c with point := .decided }) (fun _ => rfl) (fun _ => rfl) (fun _ => rfl)
  have hv : v = ((((t.readBegun r ps).atPoint r .decided).sendOut r 0 (ps.flatMap (·.1))).complete r
      { status := SUCCESS, result := BitVec.ofNat 64 c.cnt }).settle r := by
    unfold v
    rw [finishRead_eq hon.cmd_eq rfl, show (c.readBegun t ps).data = ps.flatMap (·.1) from rfl, show (c.readBegun t ps).cnt = c.cnt from rfl, htake]
  obtain ⟨p, hp⟩ := sendOut_sends hat.cmd_eq 0 hne
  rw [hv]
  refine ⟨(hat.sendsOut 0 _).completes _, ⟨_, p, false, (hat.sendsOut 0 _).completes_rdma _ hp⟩, ?_⟩
  exact (rest_of_completes _ r _).trans (sendOut_besides _ _ _ _)

/-- What a read that may start and can pay does: it delivers, or its array reads are queued. -/
theorem Startable.reads (h : Startable s r op c) (ht : s.turn r c = true) {i : Instr} {k : Cmd → State} (hi : exec i s = s.start r op k)
    {ps : List Piece} {b : List Int} (hk : k c = (s.setFn r.fn fun g => { g with buckets := b }).startRead r ps none)
    (hlen : ∀ p ∈ ps, p.1.length = 4096) (hcnt : ps.length = c.cnt) (hpos : 0 < c.cnt) :
    (ps.filterMap (·.2) = [] → ∃ t, exec i s = .next t ∧ Posts s t r SUCCESS (BitVec.ofNat 64 c.cnt) none ∧
      Delivers t r 0 (ps.flatMap (·.1)) ∧ t.rest = s.rest) ∧
    (ps.filterMap (·.2) ≠ [] → ∃ t, exec i s = .next t ∧ t.media.slices = s.media.slices ++ joinSlices (ps.filterMap (·.2)) ∧
      t.ledger = s.ledger) := by
  have hpay : Stands s (s.setFn r.fn fun g => { g with buckets := b }) r c := (h.stands ht).of_eq rfl rfl
  have hexec : exec i s = .next (((s.setFn r.fn fun g => { g with buckets := b }).startRead r ps none).settle r) := by
    rw [hi, h.start_eq, hk]
  refine ⟨fun hnone => ⟨_, hexec, ?_⟩, fun hsome => ⟨_, hexec, ?_, ?_⟩⟩
  · rw [startRead_eq_finish hnone]
    exact hpay.finishes hlen hcnt hpos
  · rw [startRead_eq_queue hsome, show ∀ x : State, (x.settle r).media = x.media from fun x => (congrArg State.media (settle_besides x r) :)]
    rfl
  · rw [ledger_of_rest (settle_besides _ r), startRead_eq_queue hsome, State.setMedia_ledger]
    rfl

theorem underRate_pay {b : List Int} (h : s.rate r.fn (rateCost c) = .pay b) (k : State → State) :
    s.underRate r c k = k (s.setFn r.fn fun g => { g with buckets := b }) := by
  unfold State.underRate
  rw [h]

theorem find?_range_eq_none {n : Nat} {p : Nat → Bool} (h : ∀ k < n, p k = false) : (List.range n).find? p = none := by
  rw [List.find?_eq_none]
  intro k hk
  simp [h k (List.mem_range.mp hk)]

/-- Settles O25: both reads gather the pieces of their units, each 4 KiB long, and go on alike. -/
theorem readsDeliver : Obligations.ReadsDeliver := by
  intro s r c b i op ps hmem h hpay hpos hlost hlostR
  rcases List.mem_cons.mp hmem with e | e
  · obtain ⟨rfl, rfl, rfl⟩ : i = _ ∧ op = _ ∧ ps = _ := by simpa using e
    have hk : s.doRead r c = (s.setFn r.fn fun g => { g with buckets := b }).startRead r
        ((List.range c.cnt).map fun k => s.zonePiece c.zkey (c.offset + k) (.cmd r k)) none := by
      unfold State.doRead
      rw [underRate_pay hpay]
      exact congrArg (State.startRead _ r _) (find?_range_eq_none (hlost rfl))
    obtain ⟨hnow, hqueue⟩ := h.reads (h.turn_unordered rfl rfl) (i := .read r) rfl hk (by simp [length_zonePiece]) (by simp) hpos
    refine ⟨hnow, hqueue, fun _ k hk hu => ?_⟩
    rw [List.getElem?_map, List.getElem?_range hk, Option.map_some, zonePiece_of_unwritten hu]
  · obtain ⟨rfl, rfl, rfl⟩ : i = _ ∧ op = _ ∧ ps = _ := by simpa using e
    have hk : s.doRandomRead r c = (s.setFn r.fn fun g => { g with buckets := b }).startRead r
        ((List.range c.cnt).map fun k => s.randPiece c.f12 (c.zone + k) (.cmd r k)) none := by
      unfold State.doRandomRead
      rw [underRate_pay hpay]
      exact congrArg (State.startRead _ r _) (find?_range_eq_none (hlostR rfl))
    obtain ⟨hnow, hqueue⟩ := h.reads (h.turn_unordered rfl rfl) (i := .randomRead r) rfl hk (by simp [length_randPiece]) (by simp) hpos
    exact ⟨hnow, hqueue, fun ho => absurd ho (by decide)⟩

end Sys2Proof.Machine
end

section
/-! Zone management (R204, R205, R235, R237). -/

namespace Sys2Proof.Machine

variable {s t u : State} {r : Ref} {op : Nat} {c : Cmd} {P : List Part}

/-! ### Fields that a frame keeps -/

theorem zones_of_mask (h : .zones ∉ P) (e : t.mask P = s.mask P) : t.zones = s.zones :=
  (congrArg State.zones (eq_graft e)).trans (if_neg h)

theorem sqs_of_mask (h : .sqs ∉ P) (e : t.mask P = s.mask P) : t.sqs = s.sqs :=
  (congrArg State.sqs (eq_graft e)).trans (if_neg h)

theorem cqs_of_mask (h : .cqs ∉ P) (e : t.mask P = s.mask P) : t.cqs = s.cqs :=
  (congrArg State.cqs (eq_graft e)).trans (if_neg h)

theorem ledger_of_mask (h : .ledger ∉ P) (e : t.mask P = s.mask P) : t.ledger = s.ledger :=
  (congrArg State.ledger (eq_graft e)).trans (if_neg h)

theorem media_of_mask (h : .media ∉ P) (e : t.mask P = s.mask P) : t.media = s.media :=
  (congrArg State.media (eq_graft e)).trans (if_neg h)

theorem zone_of_mask (h : .zones ∉ P) (e : t.mask P = s.mask P) (k : Nat) : t.zone k = s.zone k := by
  unfold State.zone
  rw [zones_of_mask h e]

theorem Stands.of_mask (h : Stands s t r c) (hs : .sqs ∉ P) (hc : .cqs ∉ P) (e : u.mask P = t.mask P) : Stands s u r c :=
  h.of_eq (sqs_of_mask hs e) (cqs_of_mask hc e)

/-! ### A command that takes a ledger number and completes (R158) -/

/-- The state in which a management command runs once it has taken its ledger number. -/
def State.running (s : State) (r : Ref) : State := { s.begin_ r .running with ledger := s.ledger + 1 }

theorem Stands.manages (h : Stands s s r c) (hd : s.decides r c = none) {k : State → State} {P : List Part}
    (he : (k (s.running r)).mask P = (s.running r).mask P) (hs : .sqs ∉ P) (hc : .cqs ∉ P) (hl : .ledger ∉ P) :
    let t := (s.manage r c k).settle r
    Commits s t r 0 ∧ (∀ z, (t.zone z).unfenced = ((k (s.running r)).zone z).unfenced) ∧ t.rest = (k (s.running r)).rest := by
  intro t
  have hturn : s.turn r c = true := by
    obtain ⟨q0, k0, q, k, new, -, -, hq, -, -, -, -, hw⟩ := h
    exact turn_iff.mpr ⟨q, hq, hw⟩
  have ht : t = ((k (s.running r)).complete r { status := SUCCESS, ledger := some (s.ledger + 1) }).settle r := by
    unfold t State.manage
    rw [hturn, hd]
    rfl
  have hst : Stands s (k (s.running r)) r _ := ((h.begins .running).of_eq rfl rfl : Stands s (s.running r) r _).of_mask hs hc he
  have hrest := rest_of_completes (k (s.running r)) r { status := SUCCESS, ledger := some (s.ledger + 1) }
  refine ⟨⟨?_, ht ▸ hst.completes _⟩, fun z => ht ▸ hst.completes_zone _ z, ht ▸ hrest⟩
  exact (ledger_of_rest (ht ▸ hrest)).trans (ledger_of_mask hl he)

/-- What equal zones but for their fences agree in. -/
theorem unfenced_fields {a b : Zone} (h : a.unfenced = b.unfenced) : a.st = b.st ∧ a.wp = b.wp ∧ a.lclass = b.lclass ∧ a.sgroup = b.sgroup ∧
    a.slot = b.slot ∧ a.park = b.park ∧ a.finishAt = b.finishAt :=
  ⟨(congrArg Zone.st h :), (congrArg Zone.wp h :), (congrArg Zone.lclass h :), (congrArg Zone.sgroup h :), (congrArg Zone.slot h :),
    (congrArg Zone.park h :), (congrArg Zone.finishAt h :)⟩

/-! ### Zones and slots -/

theorem zone_setZone_same (s : State) (z : Nat) (g : Zone → Zone) : (s.setZone z g).zone z = g (s.zone z) := lookD_adjD_same ..

theorem zone_unparkZone (s : State) (k : Nat) : (s.unparkZone k).zone k = { s.zone k with park := .none } := by
  have hkey : ∀ x : State, (x.unparkKey k).zone k = x.zone k := fun x =>
    zone_of_mask (P := [.media]) (by decide) (unparkKey_mask (List.Subset.refl _) k) k
  have hfree : ∀ (x : State) (n : Nat), (x.parkFree n).zone k = x.zone k := fun x n =>
    zone_of_mask (P := [.media]) (by decide) (parkFree_mask (List.Subset.refl _) n) k
  unfold State.unparkZone
  dsimp only
  split
  · rw [hfree, hkey, zone_setZone_same]
  · rw [hkey, zone_setZone_same]

theorem zone_unpark (s : State) (k : Nat) : (s.unpark k).zone k = { s.zone k with park := .none } := by
  unfold State.unpark
  split
  · exact zone_unparkZone _ k
  · exact zone_unparkZone _ k

theorem journalRec_slots (s : State) (n : Nat) : (s.journalRec n).media.slots = s.media.slots := rfl

theorem event_media (s : State) (code cls f : Nat) (d : List (Nat × Nat × Nat)) : (s.event code cls f d).media = s.media :=
  media_of_mask (P := [.out, .rdma, .bell, .loft, .events, .eventSeq]) (by decide) (event_mask (List.Subset.refl _) code cls f d)

theorem capCheck_slots (s : State) : s.capCheck.media.slots = s.media.slots := by
  unfold State.capCheck
  dsimp only
  split
  · rw [State.setMedia_media, event_media]
  · rfl

/-! ### The effects -/

/-- A zone that OPEN binds to slot `n`. -/
def Zone.opened (c : Cmd) (n : Nat) (z : Zone) : Zone :=
  { z with st := .open_, wp := 0, lclass := c.lclass, sgroup := c.sgroup, slot := some n, park := .none, finishAt := none }

/-- OPEN of an EMPTY zone binds the slot (R204). -/
theorem openEffect_empty (h : (s.zone c.zkey).st = .empty) (n : Nat) : (s.openEffect c n).zone c.zkey = (s.zone c.zkey).opened c n ∧
    (s.openEffect c n).slotUse n = .bound c.zkey := by
  unfold State.openEffect
  simp only [h]
  constructor
  · rw [zone_of_mask (P := [.out, .rdma, .bell, .media, .loft, .events, .eventSeq]) (by decide) (capCheck_mask (List.Subset.refl _)),
      zone_of_mask (P := [.media, .dram]) (by decide) (journalRec_mask (List.Subset.refl _) 0),
      zone_of_mask (P := [.media]) (by decide) (setSlot_mask (List.Subset.refl _) n _)]
    split <;> exact zone_setZone_same s c.zkey (Zone.opened c n)
  · unfold State.slotUse
    rw [capCheck_slots, journalRec_slots]
    exact lookD_putD_same ..

theorem openEffect_closed (h : (s.zone c.zkey).st = .closed) (n : Nat) :
    (s.openEffect c n).zone c.zkey = { s.zone c.zkey with st := .open_, park := .none } := by
  unfold State.openEffect
  simp only [h]
  rw [zone_of_mask (P := [.media, .dram]) (by decide) (journalRec_mask (List.Subset.refl _) 0), zone_setZone_same, zone_unpark]

/-- CLOSE leaves partial state in staging (R235). -/
theorem closeEffect_open {k : Nat} (h : (s.zone k).st = .open_) : (s.closeEffect k).zone k = { s.zone k with
    st := .closed, park := if (s.zone k).wp % 2048 = 0 then .none else if (s.zone k).park = .none then .staging else (s.zone k).park } := by
  have hpark : ∀ (x : State) (a b d e : Nat), (x.park a b d e).zone k = x.zone k := fun x a b d e =>
    zone_of_mask (P := [.media]) (by decide) (park_mask (List.Subset.refl _) a b d e) k
  have hfirst : ((s.setZone k fun x => { x with
      st := .closed, park := if x.wp % 2048 = 0 then .none else if x.park = .none then .staging else x.park }).journalRec 0).zone k = _ :=
    (zone_of_mask (P := [.media, .dram]) (by decide) (journalRec_mask (List.Subset.refl _) 0) k).trans (zone_setZone_same ..)
  unfold State.closeEffect
  rw [if_pos h]
  dsimp only
  split
  · split
    · exact (hpark ..).trans hfirst
    · exact hfirst
  · exact hfirst

theorem zone_padRow (s : State) (z k : Nat) : (s.padRow z).zone k = s.zone k :=
  zone_of_mask (P := [.media, .staged]) (by decide) (padRow_mask (List.Subset.refl _) z) k

/-- FINISH makes the zone FULL at its end (R237). -/
theorem finishEffect_zone {k : Nat} (h : (s.zone k).st = .open_ ∨ (s.zone k).st = .closed) : (s.finishEffect k).zone k = { s.zone k with
    st := .full, wp := 2 ^ 20, park := .none, finishAt := some (s.zone k).wp } := by
  have hstep : ∀ (x : State) (a b d : Nat), (x.rowStep a b d).zone k = x.zone k := fun x a b d =>
    zone_of_mask (P := [.media, .staged]) (by decide) (rowStep_mask (List.Subset.refl _) a b d) k
  have hfirst : ((((s.unpark k).padRow k).setZone k fun y => { y with
      st := .full, wp := 2 ^ 20, finishAt := some (s.zone k).wp }).journalRec 0).zone k = _ :=
    (zone_of_mask (P := [.media, .dram]) (by decide) (journalRec_mask (List.Subset.refl _) 0) k).trans
      ((zone_setZone_same ..).trans (by rw [zone_padRow, zone_unpark]))
  unfold State.finishEffect
  dsimp only
  rw [if_pos (by simpa using h)]
  split
  · split
    · exact hfirst
    · exact (hstep ..).trans hfirst
  · exact hfirst

/-- RESET returns a zone to EMPTY (R205). -/
theorem emptyZone_zone {k n : Nat} (h : (s.zone k).slot = some n) : (s.emptyZone k).zone k = { Zone.fresh with fence := (s.zone k).fence } := by
  have hunpark : (s.unpark k).zone k = { s.zone k with park := .none } := zone_unpark s k
  have hother : (({ s with staged := s.staged - (s.zone k).stagedPart } : State).unparkZone k).zone k = { s.zone k with park := .none } :=
    zone_unparkZone _ k
  have hdrop : ∀ x : State, (x.dropSlotWork n).zones = x.zones := fun x =>
    zones_of_mask (P := [.media, .staged]) (by decide) (dropSlotWork_mask (List.Subset.refl _) n)
  unfold State.zone at hunpark hother
  unfold State.emptyZone State.zone
  simp only [State.zone] at h
  simp only [h]
  split
  · rw [zones_of_mask (P := [.media, .dram]) (by decide) (journalRec_mask (List.Subset.refl _) 0),
      zones_of_mask (P := [.media]) (by decide) (setSlot_mask (List.Subset.refl _) n _),
      zones_of_mask (P := [.media]) (by decide) (endCopies_mask (List.Subset.refl _) n)]
    simp only [hdrop, State.setMedia_zones, State.setZone_zones, lookD_adjD_same, hunpark]
  · rw [zones_of_mask (P := [.out, .rdma, .bell, .media, .staged, .dram, .loft, .events, .eventSeq]) (by decide)
      (releaseSlot_mask (List.Subset.refl _) n)]
    simp only [State.setMedia_zones, State.setZone_zones, lookD_adjD_same]
    exact congrArg (fun x : Zone => { Zone.fresh with fence := x.fence }) hother

/-! ### The obligation -/

/-- OPEN of an EMPTY zone with a slot for it (R204, R239). -/
theorem openZone_empty {n : Nat} (h : Startable s r 0x08 c) (ht : s.turn r c = true) (hd : s.decides r c = none)
    (hz : (s.zone c.zkey).st = .empty) (hstage : s.stagingZones < 4160) (hplace : s.place c = some n) : ∃ t, exec (.openZone r) s = .next t ∧
      Commits s t r 0 ∧ (t.zone c.zkey).unfenced = ((s.zone c.zkey).opened c n).unfenced ∧ t.slotUse n = .bound c.zkey := by
  have hopen : s.doOpen r c = s.manage r c fun s => s.openEffect c n := by
    unfold State.doOpen
    simp [hz, hplace, Nat.not_le.mpr hstage]
  obtain ⟨hzone, hslot⟩ := openEffect_empty (s := s.running r) (c := c) hz n
  obtain ⟨hcommits, hzones, hrest⟩ := (h.stands ht).manages hd (k := fun s => s.openEffect c n)
    (openEffect_mask (List.Subset.refl _) c n) (by decide) (by decide) (by decide)
  refine ⟨_, (h.start_eq _).trans (congrArg (fun x : State => go (x.settle r)) hopen), hcommits, ?_, ?_⟩
  · rw [hzones, hzone]
    rfl
  · exact (congrArg (fun x : State => x.slotUse n) hrest).trans hslot

/-- A zone command whose row is its effect under `manage`, in its turn and judged again. -/
theorem Startable.manages_zone (h : Startable s r op c) (ht : s.turn r c = true) (hd : s.decides r c = none) {f : Cmd → State}
    {k : State → State} (hf : f c = s.manage r c k) {P : List Part} (he : (k (s.running r)).mask P = (s.running r).mask P) (hs : .sqs ∉ P)
    (hc : .cqs ∉ P) (hl : .ledger ∉ P) {z : Zone} (hz : (k (s.running r)).zone c.zkey = z) :
    ∃ t, s.start r op f = .next t ∧ Commits s t r 0 ∧ (t.zone c.zkey).unfenced = z.unfenced := by
  obtain ⟨hcommits, hzones, -⟩ := (h.stands ht).manages hd he hs hc hl
  exact ⟨_, (h.start_eq f).trans (congrArg (fun x : State => go (x.settle r)) hf), hcommits, (hzones _).trans (congrArg Zone.unfenced hz)⟩

theorem reset_mask {P : List Part} (h : [.out, .rdma, .bell, .zones, .units, .media, .staged, .dram, .loft, .events, .eventSeq] ⊆ P) (k : Nat) :
    ((s.emptyZone k).capCheck).mask P = s.mask P :=
  (capCheck_mask (List.Subset.trans (by decide) h)).trans (emptyZone_mask h k)

/-- Settles O27: each row is its effect run under `manage`, which commits; the effects say what the zone becomes. -/
theorem zoneManagement : Obligations.ZoneManagement := by
  intro s r c ht hd k z
  refine ⟨fun n h hz hstage hplace => ?_, fun h hz hroom => ?_, fun h hz => ?_, fun h hz => ?_, fun n h hn => ?_⟩
  · obtain ⟨t, he, hcommits, hzone, hslot⟩ := openZone_empty h ht hd hz hstage hplace
    obtain ⟨hst, hwp, hclass, hgroup, hslotz, -, -⟩ := unfenced_fields hzone
    exact ⟨t, he, hcommits, hst, hwp, hslotz, hclass, hgroup, hslot⟩
  · have hopen : s.doOpen r c = s.manage r c fun s => s.openEffect c 0 := by
      unfold State.doOpen
      have hmore : ((s.zone c.zkey).partialRow = true ∨ ¬ 4160 ≤ s.stagingZones) := hroom.imp_right Nat.not_le.mpr
      rcases hmore with hp | hp <;> simp [show (s.zone c.zkey).st = .closed from hz, hp]
    obtain ⟨t, he, hcommits, hzone⟩ := h.manages_zone ht hd hopen (openEffect_mask (List.Subset.refl _) c 0) (by decide) (by decide) (by decide)
      (openEffect_closed (s := s.running r) hz 0)
    obtain ⟨hst, hwp, -, -, hslot, -, -⟩ := unfenced_fields hzone
    exact ⟨t, he, hcommits, hst, hwp, hslot⟩
  · obtain ⟨t, he, hcommits, hzone⟩ := h.manages_zone ht hd (f := fun c => s.doClose r c) rfl (closeEffect_mask (List.Subset.refl _) c.zkey)
      (by decide) (by decide) (by decide) (closeEffect_open (s := s.running r) hz)
    obtain ⟨hst, hwp, -, -, -, hpark, -⟩ := unfenced_fields hzone
    refine ⟨t, he, hcommits, hst, hwp, fun hwhole => hpark.trans (if_pos hwhole), fun hpart hnone => ?_⟩
    exact hpark.trans ((if_neg hpart).trans (if_pos hnone))
  · obtain ⟨t, he, hcommits, hzone⟩ := h.manages_zone ht hd (f := fun c => s.doFinish r c) rfl (finishEffect_mask (List.Subset.refl _) c.zkey)
      (by decide) (by decide) (by decide) (finishEffect_zone (s := s.running r) hz)
    obtain ⟨hst, hwp, -, -, -, -, hfinish⟩ := unfenced_fields hzone
    exact ⟨t, he, hcommits, hst, hwp, hfinish⟩
  · have hcap : ∀ x : State, x.capCheck.zone c.zkey = x.zone c.zkey := fun x =>
      zone_of_mask (P := [.out, .rdma, .bell, .media, .loft, .events, .eventSeq]) (by decide) (capCheck_mask (List.Subset.refl _)) _
    obtain ⟨t, he, hcommits, hzone⟩ := h.manages_zone ht hd (f := fun c => s.doReset r c) rfl (reset_mask (List.Subset.refl _) c.zkey)
      (by decide) (by decide) (by decide) ((hcap _).trans (emptyZone_zone (s := s.running r) hn))
    obtain ⟨hst, hwp, -, -, hslot, -, -⟩ := unfenced_fields hzone
    exact ⟨t, he, hcommits, hst, hwp, hslot⟩

end Sys2Proof.Machine
end

section
/-! Writes: data sealed and staged, units stored at their place, the random area (chapters 7 and 8). -/

namespace Sys2Proof.Machine

variable {s t u : State} {r : Ref} {op : Nat} {c : Cmd} {P : List Part}

/-! ### Rings settle -/

/-- A ring reference has a completion ring it is bound to, where its ring exists. -/
theorem exists_boundTo (s : State) (r : Ref) : ∃ m', BoundTo m' s r := by
  cases hq : s.sq r.fn r.sq with
  | none => exact ⟨0, fun q h => absurd (hq.symm.trans h) (by simp)⟩
  | some q => exact ⟨_, boundTo_of_sq hq⟩

/-- Settling a ring takes back nothing that is sent. -/
theorem settle_rdma_mem {o : RdmaOp} (h : o ∈ s.rdma) : o ∈ (s.settle r).rdma := by
  obtain ⟨m', hb⟩ := exists_boundTo s r
  exact (settle_runs rfl hb).rdma o h

theorem sends_of_issue (s : State) (f : Nat) (p : Option PortId) (ev : Bool) (k : OpKind) : Sends (s.issue ⟨f, p, ev, k⟩) f k :=
  ⟨_, ev, by rw [issue_rdma]; exact List.mem_append_right _ (List.mem_singleton_self _)⟩

theorem Sends.settles {f : Nat} {k : OpKind} (h : Sends s f k) : Sends (s.settle r) f k := by
  obtain ⟨p, ev, ho⟩ := h
  exact ⟨p, ev, settle_rdma_mem ho⟩

/-! ### The data of a write is read (R199) -/

theorem startWrite_sends {b : List Int} (h : Startable s r op c) {i : Instr} (hi : exec i s = s.start r op fun c => s.startWrite r c)
    (hheld : s.writeHeld r c = false) (hpay : s.rate r.fn (rateCost c) = .pay b) :
    ∃ t, exec i s = .next t ∧ Sends t r.fn (.data r) ∧ t.rest = s.rest := by
  have hstart : s.startWrite r c = ((s.setFn r.fn fun g => { g with buckets := b }).begin_ r .data).issue
      ⟨r.fn, (s.setFn r.fn fun g => { g with buckets := b }).cmdPort r.fn c.port, false, .data r⟩ := by
    unfold State.startWrite
    rw [hheld, underRate_pay hpay]
    rfl
  refine ⟨_, hi.trans (h.start_eq _), ?_, ?_⟩
  · rw [hstart]
    exact (sends_of_issue _ r.fn _ false (.data r)).settles
  · rw [hstart]
    exact (settle_besides _ r).trans (issue_besides _ _)

/-! ### The staging drain (R42) -/

theorem stagingDrain_eq (s : State) :
    let due := fun (c : Cmd) => decide (c.point = .queued) && c.drainBell.any fun b => decide (b ≤ s.bell.now)
    let drain := fun (c : Cmd) => if due c then { c with point := .mirrored } else c
    exec .stagingDrain s = .next { s with sqs := mapV (fun _ q => { q with cmds := q.cmds.map drain }) s.sqs } := by
  intro due drain
  change execStagingDrain s = _
  unfold execStagingDrain
  extract_lets planned f
  have hf : f = drain := by
    funext c
    unfold f planned drain due
    cases c.drainBell <;> rfl
  rw [hf]

/-! ### Units are sealed as they arrive (R26) -/

/-- Unit `j` of a write's data, sealed by `g` at its place. -/
theorem sealed_getElem {n j : Nat} (hj : j < n) (data : Bytes) (g : (Bytes × Bool) × Nat → StUnit) :
    (((List.range n).map fun i => (slice data (4096 * i) 4096, false)).zipIdx.map g)[j]? = some (g ((slice data (4096 * j) 4096, false), j)) := by
  rw [List.getElem?_map, List.getElem?_zipIdx, List.getElem?_map, List.getElem?_range hj]
  simp

theorem unitsOf_plain (h : c.opcode = 0x03 → c.compress = false) (data : Bytes) :
    c.unitsOf data = (List.range c.cnt).map fun i => (slice data (4096 * i) 4096, false) := by
  unfold Cmd.unitsOf
  by_cases ho : c.opcode = 0x03
  · simp [h ho]
  · simp [ho]

theorem sealIn_write (h : c.opcode = 0x02) (data : Bytes) : s.sealIn c data = s.sealZone c.zkey c.offset (c.unitsOf data) := by
  unfold State.sealIn
  exact if_pos h

theorem sealIn_append (h : c.opcode = 0x03) (data : Bytes) :
    s.sealIn c data = s.sealZone c.zkey (s.zone c.zkey).wp (c.unitsOf data) := by
  unfold State.sealIn
  exact (if_neg (by rw [h]; decide)).trans (if_pos h)

theorem sealIn_random (h : c.opcode = 0x11) (data : Bytes) : s.sealIn c data = (c.unitsOf data).zipIdx.map fun u =>
    s.sealed c.f12 .random c.lclass (c.zone + u.2) 0 (2 ^ 63 + c.zone + u.2) 0 u.1 := by
  unfold State.sealIn
  exact (if_neg (by rw [h]; decide)).trans ((if_neg (by rw [h]; decide)).trans (if_pos h))

/-- COUNT units are sealed under the key of the holding, each with the tweak of its place (R26, R209). -/
theorem sealIn_units (s : State) (c : Cmd) (data : Bytes) (j : Nat) (hj : j < c.cnt) :
    let sealedAt := fun (h tweak : Nat) => ∃ u, (s.sealIn c data)[j]? = some u ∧ u.hold = h ∧ u.cmp = false ∧ u.key = s.holdKey h ∧
      u.tweak = tweak ∧ u.data = xtsSeal u.key u.tweak (slice data (4096 * j) 4096)
    (c.opcode = 0x02 → sealedAt (zoneHold c.zkey) (zoneIdx c.zkey * 2 ^ 20 + c.offset + j)) ∧
    (c.opcode = 0x03 → c.compress = false → sealedAt (zoneHold c.zkey) (zoneIdx c.zkey * 2 ^ 20 + (s.zone c.zkey).wp + j)) ∧
    (c.opcode = 0x11 → sealedAt c.f12 (2 ^ 63 + c.zone + j)) := by
  intro sealedAt
  have hsealed : ∀ h kind lclass addr off tweak, (s.sealIn c data)[j]? =
      some (s.sealed h kind lclass addr off tweak 0 (slice data (4096 * j) 4096, false)) → sealedAt h tweak :=
    fun _ _ _ _ _ _ e => ⟨_, e, rfl, rfl, rfl, rfl, rfl⟩
  refine ⟨fun ho => hsealed _ .zone 0 (zoneIdx c.zkey) (c.offset + j) _ ?_, fun ho hc => hsealed _ .zone 0 (zoneIdx c.zkey)
    ((s.zone c.zkey).wp + j) _ ?_, fun ho => hsealed _ .random c.lclass (c.zone + j) 0 _ ?_⟩
  · rw [sealIn_write ho, unitsOf_plain (by simp [ho])]
    exact sealed_getElem hj data _
  · rw [sealIn_append ho, unitsOf_plain fun _ => hc]
    exact sealed_getElem hj data _
  · rw [sealIn_random ho, unitsOf_plain (by simp [ho])]
    exact sealed_getElem hj data _

/-- A unit under a key and tweak: sealed again unless both are its own (notes/assumptions/94.md). -/
theorem under_fields (u : StUnit) (key tweak : Nat) : (u.under key tweak).key = key ∧ (u.under key tweak).tweak = tweak ∧
    (u.under key tweak).data = if u.key = key ∧ u.tweak = tweak then u.data else xtsSeal key tweak (xtsOpen u.key u.tweak u.data) := by
  unfold StUnit.under
  by_cases h : u.key = key ∧ u.tweak = tweak
  · simp [h]
  · have hf : (decide (u.key = key) && decide (u.tweak = tweak)) = false := by simpa using fun hk => fun ht => h ⟨hk, ht⟩
    simp [h, hf]

/-! ### Units are stored (R156, R200) -/

/-- A run of puts at consecutive places holds each value at its place. -/
theorem look_foldl_put {α β : Type} (f : α → Nat → β) (key : Nat → Nat) (hkey : Function.Injective key) : ∀ (l : List α) (k : Nat) (t : Tab β),
    (∀ j a, l[j]? = some a → look ((l.zipIdx k).foldl (fun t e => put t (key e.2) (f e.1 e.2)) t) (key (k + j)) = some (f a (k + j))) ∧
    ∀ i, (∀ j < l.length, i ≠ key (k + j)) → look ((l.zipIdx k).foldl (fun t e => put t (key e.2) (f e.1 e.2)) t) i = look t i
  | [], _, _ => ⟨fun j a h => by simp at h, fun _ _ => rfl⟩
  | a :: l, k, t => by
    obtain ⟨hin, hout⟩ := look_foldl_put f key hkey l (k + 1) (put t (key k) (f a k))
    constructor
    · intro j b hj
      rw [List.zipIdx_cons, List.foldl_cons]
      cases j with
      | zero =>
        obtain rfl : a = b := by simpa using hj
        rw [Nat.add_zero, hout _ fun j _ e => by have := hkey e; omega]
        exact look_put_same ..
      | succ j => simpa [Nat.add_assoc, Nat.add_comm 1 j] using hin j b (by simpa using hj)
    · intro i hi
      rw [List.zipIdx_cons, List.foldl_cons, hout i fun j hj => by simpa [Nat.add_assoc, Nat.add_comm 1 j] using hi (j + 1) (by simpa using hj)]
      exact look_put_other _ _ (by simpa using hi 0 (by simp))

/-- Unit `o` of zone `z` as a commit with ledger number `n` stores it. -/
def State.stored (s : State) (z n lclass : Nat) (u : StUnit) (o : Nat) : StUnit :=
  { u.under (s.holdKey (zoneHold z)) (zoneIdx z * 2 ^ 20 + o) with
    hold := zoneHold z, kind := .zone, lclass := lclass, addr := zoneIdx z, off := o, ledger := n }

theorem units_of_mask (h : .units ∉ P) (e : t.mask P = s.mask P) : t.units = s.units :=
  (congrArg State.units (eq_graft e)).trans (if_neg h)

theorem holds_of_mask (h : .holds ∉ P) (e : t.mask P = s.mask P) : t.holds = s.holds :=
  (congrArg State.holds (eq_graft e)).trans (if_neg h)

/-- The units of a commit stand from the write pointer on. -/
theorem store_units (s : State) (z n lclass : Nat) (us : List StUnit) : (s.store z n lclass us).units =
    us.zipIdx.foldl (fun t e => put t (unitNo z ((s.zone z).wp + e.2)) (s.stored z n lclass e.1 ((s.zone z).wp + e.2))) s.units := by
  have hwp : ((s.unpark z).zone z).wp = (s.zone z).wp := (congrArg Zone.wp (zone_unpark s z) :)
  have hkey : ∀ h, (s.unpark z).holdKey h = s.holdKey h := fun h => by
    unfold State.holdKey
    rw [holds_of_mask (P := [.zones, .media, .staged]) (by decide) (unpark_mask (List.Subset.refl _) z)]
  have hunits : (s.unpark z).units = s.units :=
    units_of_mask (P := [.zones, .media, .staged]) (by decide) (unpark_mask (List.Subset.refl _) z)
  unfold State.store
  dsimp only
  rw [hwp, units_of_mask (P := [.media, .dram]) (by decide) (journalRec_mask (List.Subset.refl _) 1)]
  split
  · rw [units_of_mask (P := [.media, .staged]) (by decide) (queueUnits_mask (List.Subset.refl _) _ _ _ _ _)]
    simp only [State.setZone_units, hkey, hunits]
    rfl
  · simp only [State.setZone_units, hkey, hunits]
    rfl

/-- The zone of a commit stands with its units behind the write pointer. -/
theorem store_zone (s : State) (z n lclass : Nat) (us : List StUnit) : (s.store z n lclass us).zone z = { s.zone z with
    wp := (s.zone z).wp + us.length, park := .none, st := if (s.zone z).wp + us.length = 2 ^ 20 then .full else (s.zone z).st } := by
  have hzone := zone_unpark s z
  unfold State.store
  dsimp only
  rw [zone_of_mask (P := [.media, .dram]) (by decide) (journalRec_mask (List.Subset.refl _) 1)]
  have hend := congrArg (fun x : Zone => { x with
    wp := (s.zone z).wp + us.length, st := if (s.zone z).wp + us.length = 2 ^ 20 then .full else x.st }) hzone
  simp only [congrArg Zone.wp hzone]
  split
  · rw [zone_of_mask (P := [.media, .staged]) (by decide) (queueUnits_mask (List.Subset.refl _) _ _ _ _ _), zone_setZone_same]
    exact hend
  · rw [zone_setZone_same]
    exact hend

/-! ### A commit and its completion -/

theorem Stands.of_turn {q : Sq} {k : Cq} (hc : s.cmd r = some c) (hq : s.sq r.fn r.sq = some q) (hk : s.cq r.fn q.cq = some k)
    (ht : s.turn r c = true) : Stands s s r c := by
  obtain ⟨q', hq', hw⟩ := turn_iff.mp ht
  obtain rfl := Option.some.inj (hq.symm.trans hq')
  exact ⟨q, k, q, k, [], hq, hk, hq, rfl, hk, (List.append_nil _).symm, hc, hw⟩

theorem rest_of_goesOn (u : State) (r : Ref) (d : Done) : ((u.complete r d).goOn r.fn r.sq).rest = u.rest :=
  (goOn_besides _ r.fn r.sq).trans (complete_besides u r d)

/-- The completion of a command, and its ring's going on: it is posted, and zones stand but for their fences. -/
theorem Stands.goesOn (h : Stands s u r c) (d : Done) : let t := (u.complete r d).goOn r.fn r.sq
    Posts s t r d.status d.result d.ledger ∧ ∀ k, (t.zone k).unfenced = (u.zone k).unfenced := by
  intro t
  have hrest := rest_of_goesOn u r d
  have hruns : ∀ m', BoundTo m' u r → RingsRun (ringNo r.fn r.sq) m' u (u.complete r d) ∧ RingsRun (ringNo r.fn r.sq) m' (u.complete r d) t :=
    fun m' hb => ⟨complete_runs rfl hb d, goOn_runs rfl fun _ => hb.of_runs (complete_runs rfl hb d)⟩
  refine ⟨h.posts (fun m' hb => (hruns m' hb).2) (congrArg Bell.now (bell_of_rest hrest)) (ledger_of_rest hrest) (sems_of_rest hrest), fun k => ?_⟩
  obtain ⟨m', hb⟩ := exists_boundTo u r
  exact ((hruns m' hb).1.trans (hruns m' hb).2).zone k

/-- How a command that took the next ledger number ends. -/
def State.success (s : State) (result : W64) : Done := { status := SUCCESS, result := result, ledger := some (s.ledger + 1) }

/-- A command whose effect took the next ledger number and kept the rings commits. -/
theorem Stands.commits (h : Stands s s r c) (hm : u.mask P = s.mask P) (hs : .sqs ∉ P) (hc : .cqs ∉ P) (hl : u.ledger = s.ledger + 1) (result : W64) :
    let t := (u.complete r (s.success result)).goOn r.fn r.sq
    Commits s t r result ∧ (∀ k, (t.zone k).unfenced = (u.zone k).unfenced) ∧ t.rest = u.rest := by
  intro t
  have hrest := rest_of_goesOn u r (s.success result)
  obtain ⟨hposts, hzones⟩ := (h.of_mask hs hc hm).goesOn (s.success result)
  exact ⟨⟨(ledger_of_rest hrest).trans hl, hposts⟩, hzones, hrest⟩

/-- The state with the units of a zone command stored under the next ledger number. -/
def State.storing (s : State) (c : Cmd) : State :=
  ({ s with ledger := s.ledger + 1 } : State).store c.zkey (s.ledger + 1) (s.zone c.zkey).lclass c.units

/-- RESULT of a WRITE or ZONE APPEND (R199, R201). -/
def State.writeResult (s : State) (c : Cmd) : W64 :=
  BitVec.ofNat 64 (if c.opcode = 0x02 then (s.zone c.zkey).wp + c.units.length else (s.zone c.zkey).wp % 2 ^ 20 + c.units.length * 2 ^ 32)

theorem ledger_mask (h : [.ledger] ⊆ P) (n : Nat) : ({ s with ledger := n } : State).mask P = s.mask P := by
  have : Part.ledger ∈ P := h (List.mem_singleton_self _)
  simp [State.mask, this]

/-- The commit of a WRITE or ZONE APPEND (R156, R158). -/
theorem commitZone_stores (h : Stands s s r c) (hm : c.point = .mirrored) (hp : s.pwr.loss = none) (ht : s.turn r c = true)
    (hd : s.decides r c = none) (hop : c.opcode = 0x02 ∨ c.opcode = 0x03) (hfits : (s.zone c.zkey).wp + c.units.length ≤ 2 ^ 20) :
    ∃ t, exec (.commandCommit r) s = .next t ∧ Commits s t r (s.writeResult c) ∧
      (t.zone c.zkey).unfenced = ((s.storing c).zone c.zkey).unfenced ∧ t.units = (s.storing c).units := by
  have hcommit : s.commitZone r c = (s.storing c).complete r (s.success (s.writeResult c)) := by
    unfold State.commitZone
    rw [hd]
    exact if_neg (Nat.not_lt.mpr hfits)
  have hexec : exec (.commandCommit r) s = .next ((s.commitZone r c).goOn r.fn r.sq) := by
    change execCommandCommit r s = _
    unfold execCommandCommit
    rcases hop with ho | ho <;> simp [h.cmd_eq, hm, hp, ht, ho]
  have hstore := store_mask (s := { s with ledger := s.ledger + 1 }) (P := [.zones, .units, .media, .staged, .dram, .health]) (List.Subset.refl _)
    c.zkey (s.ledger + 1) (s.zone c.zkey).lclass c.units
  have hmask : (s.storing c).mask [.ledger, .zones, .units, .media, .staged, .dram, .health] = s.mask _ :=
    (store_mask (by decide) c.zkey (s.ledger + 1) (s.zone c.zkey).lclass c.units).trans (ledger_mask (by decide) _)
  obtain ⟨hcommits, hzones, hrest⟩ := h.commits hmask (by decide) (by decide) (ledger_of_mask (by decide) hstore) (s.writeResult c)
  exact ⟨_, hexec.trans (congrArg (fun x : State => go (x.goOn r.fn r.sq)) hcommit), hcommits, hzones _, (congrArg State.units hrest :)⟩

/-! ### The random area (R209, R247) -/

theorem rand_of_mask (h : .rand ∉ P) (e : t.mask P = s.mask P) : t.rand = s.rand :=
  (congrArg State.rand (eq_graft e)).trans (if_neg h)

/-- Every unit of the random area stands as it was, wherever it is placed. -/
def SameRand (s t : State) : Prop := ∀ n, (look t.rand n).map (·.unit) = (look s.rand n).map (·.unit)

theorem SameRand.trans (h : SameRand s t) (h' : SameRand t u) : SameRand s u := fun n => (h' n).trans (h n)

theorem sameRand_of_eq (h : t.rand = s.rand) : SameRand s t := fun n => by rw [h]

theorem sameRand_of_mask (h : .rand ∉ P) (e : t.mask P = s.mask P) : SameRand s t := sameRand_of_eq (rand_of_mask h e)

theorem sameRand_foldl {α : Type} {f : State → α → State} (h : ∀ x a, SameRand x (f x a)) : ∀ (l : List α) (s : State), SameRand s (l.foldl f s)
  | [], _ => sameRand_of_eq rfl
  | a :: l, s => (h s a).trans (sameRand_foldl h l (f s a))

/-- A move of units to another slot keeps them. -/
theorem sameRand_moved {g : RUnit → RUnit} (hg : ∀ x, (g x).unit = x.unit) : SameRand s { s with rand := mapV (fun _ x => g x) s.rand } := by
  intro n
  show ((look (mapV (fun _ x => g x) s.rand) n).map (·.unit)) = _
  rw [look_mapV]
  cases look s.rand n <;> simp [hg]

theorem freeVictims_rand (s : State) (w : Nat) : SameRand s (s.freeVictims w) := by
  unfold State.freeVictims
  refine sameRand_foldl (fun x n => ?_) _ s
  have hmoved : SameRand x { x with rand := mapV (fun _ (u : RUnit) => if u.slot = n then { u with slot := noPlace, off := 0 } else u) x.rand } :=
    sameRand_moved fun y => by split <;> rfl
  refine hmoved.trans ?_
  have hmask := fun y : State => (journalRec_mask (s := ((y.dropSlotWork n).queueErase n).endMoves n)
    (P := [.out, .rdma, .bell, .media, .staged, .dram, .loft, .events, .eventSeq]) (by decide) 0).trans
      ((endMoves_mask (List.Subset.refl _) n).trans ((queueErase_mask (by decide) n).trans (dropSlotWork_mask (by decide) n)))
  refine (sameRand_of_mask (by decide) (hmask _)).trans ?_
  dsimp only
  split
  · exact sameRand_of_mask (P := [.media, .dram]) (by decide) ((journalRec_mask (List.Subset.refl _) 0).trans
      ((setSlot_mask (by decide) n _).trans ((setWard_mask (by decide) w _).trans (setMedia_mask (by decide) _))))
  · exact sameRand_of_mask (P := [.media]) (by decide) ((setWard_mask (List.Subset.refl _) w _).trans (setMedia_mask (List.Subset.refl _) _))

theorem raFit_rand (s : State) (w : Nat) : SameRand s (s.raFit w) := by
  unfold State.raFit
  dsimp only
  split
  · split
    · next k t hpick =>
      have ht : t.mask [.media] = s.mask [.media] := by
        obtain ⟨row, -, hrow⟩ := List.exists_of_findSome?_eq_some hpick
        obtain ⟨k', -, hk'⟩ := List.exists_of_findSome?_eq_some hrow
        split at hk'
        · obtain ⟨t', he, ht'⟩ := Option.map_eq_some_iff.mp hk'
          obtain rfl : t' = t := (congrArg (fun x : Nat × State => x.2) ht' :)
          exact assemble_mask (List.Subset.refl _) he
        · exact absurd hk' (by simp)
      refine (sameRand_of_mask (by decide) ht).trans ?_
      exact sameRand_of_mask (P := [.media, .dram]) (by decide) ((journalRec_mask (List.Subset.refl _) 0).trans
        ((setWard_mask (by decide) w _).trans (setSlot_mask (by decide) k _)))
    · exact sameRand_of_eq rfl
  · split
    · split
      · exact (sameRand_of_mask (P := [.media]) (by decide) (setWard_mask (List.Subset.refl _) w _)).trans (freeVictims_rand _ w)
      · exact sameRand_of_eq rfl
    · exact sameRand_of_eq rfl

/-- A random unit placed changes no other key. -/
theorem look_placeRand_other (s : State) (w st cls tenant : Nat) {key n : Nat} (u : StUnit) (h : n ≠ key) :
    look (s.placeRand w st cls tenant key u).rand n = look s.rand n := by
  unfold State.placeRand
  split
  · rfl
  · next m off t he =>
    rw [rand_of_mask (P := [.media, .dram]) (by decide) (journalRec_mask (List.Subset.refl _) 1), State.setMedia_rand]
    rw [look_put_other _ _ h, rand_of_mask (P := [.media, .staged]) (by decide) (fillStream_mask (List.Subset.refl _) he)]

/-- Where its stream is open, a random unit is placed under its key. -/
theorem look_placeRand_same (s : State) {w st : Nat} (cls tenant key : Nat) (u : StUnit) {p : Nat × Nat}
    (h : look s.media.streams (w * 16 + st) = some p) : ∃ v, look (s.placeRand w st cls tenant key u).rand key = some v ∧ v.unit = u := by
  unfold State.placeRand
  split
  · next he => simp [State.fillStream, h] at he
  · next m off t he =>
    refine ⟨⟨u, m, off⟩, ?_, rfl⟩
    rw [rand_of_mask (P := [.media, .dram]) (by decide) (journalRec_mask (List.Subset.refl _) 1), State.setMedia_rand]
    exact look_put_same ..

theorem look_rand_foldl {α : Type} {g : State → α → State} {n : Nat} : ∀ {l : List α} (s : State),
    (∀ x, ∀ a ∈ l, look (g x a).rand n = look x.rand n) → look (l.foldl g s).rand n = look s.rand n
  | [], _, _ => rfl
  | a :: _, s, h => (look_rand_foldl (g s a) fun x b hb => h x b (List.mem_cons_of_mem _ hb)).trans (h s a (List.mem_cons_self ..))

theorem rand_of_rest (h : t.rest = s.rest) : t.rand = s.rand := (congrArg State.rand h :)

/-- A random write's units placed under the next ledger number. -/
def State.randPlaced (s : State) (c : Cmd) : State :=
  c.units.foldl (fun x u => x.placeRand (u.addr / 2048 % 4) (s.cmdStream c) 4 (x.ownerOf c.f12) (randNo c.f12 u.addr)
    { u.under (x.holdKey c.f12) (2 ^ 63 + u.addr) with ledger := s.ledger + 1 }) { s with ledger := s.ledger + 1 }

/-- The state with a random write's units stored. -/
def State.randStoring (s : State) (c : Cmd) : State :=
  (List.range 4).foldl (fun s w => if wardUnits c w = 0 then s else s.raFit w)
    { s.randPlaced c with health := { (s.randPlaced c).health with hostUnits := (s.randPlaced c).health.hostUnits + c.cnt } }

theorem randStoring_mask (h : [.out, .rdma, .bell, .rand, .media, .staged, .dram, .loft, .health, .events, .eventSeq] ⊆ P) (s : State) (c : Cmd) :
    (s.randStoring c).mask P = ({ s with ledger := s.ledger + 1 } : State).mask P := mask_mono h <| by
  simp +decide only [State.randStoring, State.randPlaced, placeRand_mask, raFit_mask, mask_health, mask_ite, ite_self, mask_foldl, implies_true]

theorem randStoring_rand (s : State) (c : Cmd) : SameRand (s.randPlaced c) (s.randStoring c) := by
  refine SameRand.trans (t := { s.randPlaced c with
    health := { (s.randPlaced c).health with hostUnits := (s.randPlaced c).health.hostUnits + c.cnt } }) (sameRand_of_eq rfl) ?_
  refine sameRand_foldl (fun x w => ?_) _ _
  split
  · exact sameRand_of_eq rfl
  · exact raFit_rand x w

/-- A random write changes no unit but those it names. -/
theorem look_randPlaced_other {n : Nat} (h : ∀ u ∈ c.units, n ≠ randNo c.f12 u.addr) : look (s.randPlaced c).rand n = look s.rand n :=
  look_rand_foldl _ fun x u hu => look_placeRand_other x _ _ _ _ _ (h u hu)

theorem raCount_of_rand (h : t.rand = s.rand) (n : Nat) : t.raCount n = s.raCount n := by
  unfold State.raCount
  rw [h]

/-- The commit of a RANDOM WRITE (R156, R209). -/
theorem commitRandom_stores (h : Stands s s r c) (hm : c.point = .mirrored) (hp : s.pwr.loss = none) (ht : s.turn r c = true)
    (hd : s.decides r c = none) (hop : c.opcode = 0x11) (hfits : s.randFits r c = true) :
    ∃ t, exec (.commandCommit r) s = .next t ∧ Commits s t r (BitVec.ofNat 64 (t.raCount c.f12)) ∧ t.rand = (s.randStoring c).rand := by
  have hcommit : s.commitRandom r c =
      (s.randStoring c).complete r (s.success (BitVec.ofNat 64 ((s.randStoring c).raCount c.f12))) := by
    unfold State.commitRandom
    rw [hd]
    exact if_neg (by rw [hfits]; decide)
  have hexec : exec (.commandCommit r) s = .next ((s.commitRandom r c).goOn r.fn r.sq) := by
    change execCommandCommit r s = _
    unfold execCommandCommit
    simp [h.cmd_eq, hm, hp, ht, hop]
  have hmask := (randStoring_mask (List.Subset.refl _) s c)
  have hboth : (s.randStoring c).mask [.ledger, .out, .rdma, .bell, .rand, .media, .staged, .dram, .loft, .health, .events, .eventSeq] = s.mask _ :=
    (randStoring_mask (by decide) s c).trans (ledger_mask (by decide) _)
  obtain ⟨hcommits, -, hrest⟩ := h.commits hboth (by decide) (by decide) (ledger_of_mask (by decide) hmask)
    (BitVec.ofNat 64 ((s.randStoring c).raCount c.f12))
  have hrand := rand_of_rest hrest
  refine ⟨_, hexec.trans (congrArg (fun x : State => go (x.goOn r.fn r.sq)) hcommit), ?_, hrand⟩
  rw [raCount_of_rand hrand]
  exact hcommits

/-- The state with the units of a RANDOM TRIM unwritten. -/
def State.trimmed (s : State) (r : Ref) (c : Cmd) : State :=
  (({ s.running r with rand := keep (fun i _ => !(decide (randNo c.f12 c.zone ≤ i) && decide (i < randNo c.f12 c.zone + c.cnt))) s.rand } : State).setMedia
    fun m => { m with lostUnits := m.lostUnits.filter fun i =>
      !(decide (lostRand (randNo c.f12 c.zone) ≤ i) && decide (i < lostRand (randNo c.f12 c.zone) + c.cnt)) }).journalRec 1

/-- RANDOM TRIM unwrites its units (R210). -/
theorem randomTrim_unwrites (h : Startable s r 0x12 c) (ht : s.turn r c = true) (hd : s.decides r c = none) :
    let k := randNo c.f12 c.zone
    ∃ t, exec (.randomTrim r) s = .next t ∧ Commits s t r (BitVec.ofNat 64 (t.raCount c.f12)) ∧
      ∀ n, look t.rand n = if k ≤ n ∧ n < k + c.cnt then none else look s.rand n := by
  intro k
  have htrim : s.doTrim r c = (s.trimmed r c).complete r (s.success (BitVec.ofNat 64 ((s.trimmed r c).raCount c.f12))) := by
    unfold State.doTrim
    rw [ht, hd]
    rfl
  have hst : Stands s (s.trimmed r c) r _ := (((h.stands ht).begins .running).of_eq (u := (s.trimmed r c)) rfl rfl)
  have hrest := rest_of_completes (s.trimmed r c) r (s.success (BitVec.ofNat 64 ((s.trimmed r c).raCount c.f12)))
  refine ⟨_, (h.start_eq fun c => s.doTrim r c).trans (congrArg (fun x : State => go (x.settle r)) htrim), ⟨ledger_of_rest hrest, ?_⟩, fun n => ?_⟩
  · rw [raCount_of_rand (rand_of_rest hrest)]
    exact hst.completes _
  · rw [rand_of_rest hrest]
    refine (look_keep (fun i => !(decide (k ≤ i) && decide (i < k + c.cnt))) s.rand n).trans ?_
    by_cases hn : k ≤ n ∧ n < k + c.cnt <;> simp [hn]

/-- Settles O28: each step of a write by its own lemma, from the data's fetch to the commit. -/
theorem writes : Obligations.Writes := by
  refine ⟨fun s r c b i op hmem h hheld hpay => ?_, stagingDrain_eq, sealIn_units, under_fields, fun s r c q kq hc hq hk hm hp ht hd => ⟨?_, ?_⟩,
    fun s r c h ht hd => randomTrim_unwrites h ht hd⟩
  · simp only [List.mem_cons, List.not_mem_nil, or_false] at hmem
    rcases hmem with ⟨rfl, rfl⟩ | ⟨rfl, rfl⟩ | ⟨rfl, rfl⟩ <;> exact startWrite_sends h rfl hheld hpay
  · intro hop k a n _ hfits
    obtain ⟨t, he, hcommits, hzone, hunits⟩ := commitZone_stores (.of_turn hc hq hk ht) hm hp ht hd hop hfits
    obtain ⟨hst, hwp, -⟩ := unfenced_fields hzone
    have hinj : Function.Injective fun o => unitNo k (a + o) := fun x y e => by
      simp only [unitNo] at e
      omega
    obtain ⟨hin, hout⟩ := look_foldl_put (fun u o => s.stored k (s.ledger + 1) (s.zone k).lclass u (a + o)) _ hinj c.units 0 s.units
    simp only [Nat.zero_add] at hin hout
    have hstore := hunits.trans (store_units { s with ledger := s.ledger + 1 } k (s.ledger + 1) (s.zone k).lclass c.units)
    refine ⟨t, he, hcommits, ?_, fun hfull => ?_, fun j u hj => ?_, fun i hi => ?_⟩
    · exact hwp.trans (congrArg Zone.wp (store_zone ..))
    · exact hst.trans ((congrArg Zone.st (store_zone ..)).trans (if_pos hfull))
    · rw [hstore]
      exact hin j u hj
    · rw [hstore]
      exact hout i hi
  · intro hop hfits
    obtain ⟨t, he, hcommits, hrand⟩ := commitRandom_stores (.of_turn hc hq hk ht) hm hp ht hd hop hfits
    have hsame : ∀ n, (look t.rand n).map (·.unit) = (look (s.randPlaced c).rand n).map (·.unit) := fun n => by
      rw [hrand]
      exact randStoring_rand s c n
    refine ⟨t, he, hcommits, fun n hn => ?_, fun u p hu hstream => ?_⟩
    · rw [hsame, look_randPlaced_other hn]
    · have hplaced : s.randPlaced c = ({ s with ledger := s.ledger + 1 } : State).placeRand (u.addr / 2048 % 4) (s.cmdStream c) 4
          (s.ownerOf c.f12) (randNo c.f12 u.addr) { u.under (s.holdKey c.f12) (2 ^ 63 + u.addr) with ledger := s.ledger + 1 } := by
        unfold State.randPlaced
        rw [hu]
        rfl
      obtain ⟨v, hv, hvu⟩ := look_placeRand_same { s with ledger := s.ledger + 1 } 4 (s.ownerOf c.f12) (randNo c.f12 u.addr)
        { u.under (s.holdKey c.f12) (2 ^ 63 + u.addr) with ledger := s.ledger + 1 } hstream
      have := hsame (randNo c.f12 u.addr)
      rw [hplaced, hv] at this
      obtain ⟨v', hv', hvu'⟩ := Option.map_eq_some_iff.mp this
      exact ⟨v', hv', hvu'.trans hvu⟩

end Sys2Proof.Machine
end

section
/-! Ring management (R122, R125, R128, R220): rings made, removed and given attributes. -/

namespace Sys2Proof.Machine

variable {s t u : State} {r : Ref} {op : Nat} {c : Cmd} {P : List Part}

/-! ### A command that governs: it takes a ledger number before its effect -/

/-- The state in which a governing command's effect runs. -/
def State.governed (s : State) (r : Ref) : State :=
  ({ s.begin_ r .decided with ledger := s.ledger + 1 } : State).setCmd r fun c => { c with ledger := some (s.ledger + 1) }

/-- Its command there. -/
def Cmd.governed (c : Cmd) (s : State) : Cmd :=
  { c with point := .decided, seen := s.ledger, startBell := s.bell.now, startStill := s.bell.still, ledger := some (s.ledger + 1) }

theorem govern_eq {fails : List Chk} (h : firstFail fails = none) (k : State → State) : s.govern r fails k = k (s.governed r) := by
  unfold State.govern
  rw [h]
  rfl

theorem Stands.governed (h : Stands s s r c) : Stands s (s.governed r) r (c.governed s) :=
  ((h.begins .decided).of_eq (u := { s.begin_ r .decided with ledger := s.ledger + 1 }) rfl rfl).setCmd
    (g := fun c : Cmd => { c with ledger := some (s.ledger + 1) }) (fun _ => rfl) (fun _ => rfl) (fun _ => rfl)

theorem ended_eq {n : Nat} (hc : s.cmd r = some c) (hn : c.ledger = some n) (result : W64) :
    s.ended r result = s.complete r { status := SUCCESS, result := result, ledger := some n } := by
  unfold State.ended
  rw [hc, Option.bind_some, hn]

/-- Rings changed elsewhere, and the completion ring but for its unacknowledged completions, keep what stands. -/
theorem Stands.of_rings (h : Stands s t r c) (hs : u.sq r.fn r.sq = t.sq r.fn r.sq)
    (hc : ∀ q k, t.sq r.fn r.sq = some q → t.cq r.fn q.cq = some k → ∃ k', u.cq r.fn q.cq = some k' ∧ k'.unacked = k.unacked) :
    Stands s u r c := by
  obtain ⟨q0, k0, q, k, new, hq0, hk0, hq, hcq, hk, hnew, hcmd, hw⟩ := h
  obtain ⟨k', hk', hun⟩ := hc q k hq (hcq ▸ hk)
  refine ⟨q0, k0, q, k', new, hq0, hk0, hs.trans hq, hcq, hcq ▸ hk', hun.trans hnew, ?_, hw⟩
  unfold State.cmd at hcmd ⊢
  rw [hs]
  exact hcmd

/-- A ring command's completion, once its effect has kept what stands and the ledger number. -/
theorem Stands.ends {c' : Cmd} (h : Stands s u r c') (hc : c'.ledger = some (s.ledger + 1)) (hl : u.ledger = s.ledger + 1) (result : W64) :
    let t := (u.ended r result).settle r
    Commits s t r result ∧ t.rest = u.rest ∧ ∀ m', BoundTo m' u r → RingsRun (ringNo r.fn r.sq) m' u t := by
  intro t
  have ht : t = (u.complete r { status := SUCCESS, result := result, ledger := some (s.ledger + 1) }).settle r := by
    unfold t
    rw [ended_eq h.cmd_eq hc]
  rw [ht]
  refine ⟨⟨(ledger_of_rest (rest_of_completes u r _)).trans hl, h.completes _⟩, rest_of_completes u r _, fun m' hb => ?_⟩
  exact (complete_runs rfl hb _).trans (settle_runs rfl (hb.of_runs (complete_runs rfl hb _)))

/-! ### Rings that stand after a run -/

theorem RingsRun.sq_face {m m' f n : Nat} (h : RingsRun m m' s t) {q : Sq} (hq : s.sq f n = some q) :
    ∃ q', t.sq f n = some q' ∧ q'.face = q.face := by
  have hf := h.face (ringNo f n)
  rw [show look s.sqs (ringNo f n) = some q from hq] at hf
  obtain ⟨q', hq', e⟩ := Option.map_eq_some_iff.mp hf.symm
  exact ⟨q', hq', e⟩

theorem RingsRun.cq_face {m m' f n : Nat} (h : RingsRun m m' s t) {k : Cq} (hk : s.cq f n = some k) :
    ∃ k', t.cq f n = some k' ∧ k'.face = k.face := by
  obtain ⟨hf, -, -⟩ := h.cq (ringNo f n)
  rw [show look s.cqs (ringNo f n) = some k from hk] at hf
  obtain ⟨k', hk', e⟩ := Option.map_eq_some_iff.mp hf.symm
  exact ⟨k', hk', e⟩

theorem RingsRun.sq_none {m m' f n : Nat} (h : RingsRun m m' s t) (hq : s.sq f n = none) : t.sq f n = none := by
  have hf := h.face (ringNo f n)
  rw [show look s.sqs (ringNo f n) = none from hq] at hf
  exact Option.map_eq_none_iff.mp hf.symm

theorem RingsRun.cq_none {m m' f n : Nat} (h : RingsRun m m' s t) (hk : s.cq f n = none) : t.cq f n = none := by
  obtain ⟨hf, -, -⟩ := h.cq (ringNo f n)
  rw [show look s.cqs (ringNo f n) = none from hk] at hf
  exact Option.map_eq_none_iff.mp hf.symm

/-- A completion ring not bound to the run's ring keeps all but the reads of its head. -/
theorem RingsRun.cq_atRest {m m' f n : Nat} (h : RingsRun m m' s t) (hn : ringNo f n ≠ m') {k : Cq} (hk : s.cq f n = some k) :
    ∃ k', t.cq f n = some k' ∧ k'.atRest = k.atRest := by
  obtain ⟨-, hr, -⟩ := h.cq (ringNo f n)
  have hr := hr hn
  rw [show look s.cqs (ringNo f n) = some k from hk] at hr
  obtain ⟨k', hk', e⟩ := Option.map_eq_some_iff.mp hr.symm
  exact ⟨k', hk', e⟩

theorem Sq.eq_of_face {a b : Sq} (h : a.face = b.face) : a.base = b.base ∧ a.sizeLog = b.sizeLog ∧ a.cq = b.cq ∧ a.gen = b.gen ∧
    a.index = b.index ∧ a.fetched = b.fetched ∧ a.tail = b.tail ∧ a.activeFrom = b.activeFrom :=
  ⟨(congrArg Sq.base h :), (congrArg Sq.sizeLog h :), (congrArg Sq.cq h :), (congrArg Sq.gen h :), (congrArg Sq.index h :),
    (congrArg Sq.fetched h :), (congrArg Sq.tail h :), (congrArg Sq.activeFrom h :)⟩

theorem Cq.eq_of_atRest {a b : Cq} (h : a.atRest = b.atRest) : a.base = b.base ∧ a.sizeLog = b.sizeLog ∧ a.gen = b.gen ∧ a.index = b.index ∧
    a.notify = b.notify ∧ a.coCount = b.coCount ∧ a.coBells = b.coBells ∧ a.posted = b.posted :=
  ⟨(congrArg Cq.base h :), (congrArg Cq.sizeLog h :), (congrArg Cq.gen h :), (congrArg Cq.index h :), (congrArg Cq.notify h :),
    (congrArg Cq.coCount h :), (congrArg Cq.coBells h :), (congrArg Cq.posted h :)⟩

theorem ringNo_inj {f a b : Nat} : ringNo f a = ringNo f b ↔ a = b := by
  unfold ringNo
  omega

/-! ### CREATE RING -/

/-- The submission ring CREATE RING makes, with RING entry `index`. -/
def Sq.made (index : Nat) (s : State) (f : Nat) (b : Bytes) : Sq where
  base := BitVec.ofNat 64 (le b 8 8)
  rkey := BitVec.ofNat 32 (le b 4 4)
  sizeLog := byteAt b 3
  cq := le b 16 2
  gen := (s.fn f).nextGen false (le b 0 2)
  index := index
  frozen := false
  dozing := false
  activeFrom := s.bell.now + 1
  lastAdv := s.bell.now + 1
  fetched := 0
  tail := 0
  inBell := 0
  errlog := []
  cmds := []
  reading := 0
  discard := []

/-- The completion ring CREATE RING makes, with RING entry `index`. -/
def Cq.made (index : Nat) (s : State) (f : Nat) (b : Bytes) : Cq where
  base := BitVec.ofNat 64 (le b 8 8)
  rkey := BitVec.ofNat 32 (le b 4 4)
  sizeLog := byteAt b 3
  gen := (s.fn f).nextGen true (le b 0 2)
  index := index
  headAddr := BitVec.ofNat 64 (le b 32 8)
  headRkey := BitVec.ofNat 32 (le b 24 4)
  notify := bit (byteAt b 18) 0
  coCount := le b 20 2
  coBells := byteAt b 19
  posted := 0
  headSeen := 0
  reserved := 0
  unacked := []
  held := []
  pendFrom := none
  pendCount := 0
  pendNow := false
  attrNext := none
  wantHead := false

/-- A submission ring made: its table entry, and everything else of the rings as it was. -/
theorem newRing_sq (s : State) (f : Nat) {b : Bytes} (hb : byteAt b 2 ≠ 1) :
    (∃ i, (s.newRing f (le b 0 2) b 0).sqs = put s.sqs (ringNo f (le b 0 2)) (.made i s f b)) ∧
    (s.newRing f (le b 0 2) b 0).cqs = s.cqs ∧ (s.newRing f (le b 0 2) b 0).ledger = s.ledger := by
  unfold State.newRing
  simp only [Nat.zero_add, hb, decide_false, if_false]
  exact ⟨⟨_, rfl⟩, rfl, rfl⟩

theorem newRing_cq (s : State) (f : Nat) {b : Bytes} (hb : byteAt b 2 = 1) :
    (∃ i, (s.newRing f (le b 0 2) b 0).cqs = put s.cqs (ringNo f (le b 0 2)) (.made i s f b)) ∧
    (s.newRing f (le b 0 2) b 0).sqs = s.sqs ∧ (s.newRing f (le b 0 2) b 0).ledger = s.ledger := by
  unfold State.newRing
  simp only [Nat.zero_add, hb, decide_true, if_true]
  exact ⟨⟨_, rfl⟩, rfl, rfl⟩

theorem firstFail_single {b : Bool} (h : b = false) (st f : Nat) : firstFail [(b, st, f)] = none := by
  rw [h]
  rfl

/-- A block CREATE RING accepts names a ring that does not exist. -/
theorem ringFails_free {f : Nat} {b : Bytes} (h : ringFails s f b = false) :
    (byteAt b 2 = 1 → s.cq f (le b 0 2) = none) ∧ (byteAt b 2 ≠ 1 → s.sq f (le b 0 2) = none) := by
  unfold ringFails at h
  constructor
  · intro hb
    simp [hb] at h
    exact h.2.2
  · intro hb
    simp [hb] at h
    exact h.2.1.2

/-- CREATE RING of a submission ring (R125). -/
theorem createRing_sq (h : Startable s r 0x40 c) (hf : ringFails s r.fn c.block = false) (hb : byteAt c.block 2 ≠ 1) :
    ∃ i t q, exec (.createRing r) s = .next t ∧ t.sq r.fn (le c.block 0 2) = some q ∧ q.face = (Sq.made i (s.governed r) r.fn c.block).face ∧
      Commits s t r (BitVec.ofNat 64 (q.gen + q.index * 2 ^ 32)) := by
  obtain ⟨-, hnone⟩ := ringFails_free hf
  have hst := (h.stands (h.turn_unordered rfl rfl)).governed
  have hne : le c.block 0 2 ≠ r.sq := fun e => by
    obtain ⟨-, -, q, -, hq, -⟩ := h
    rw [← e, hnone hb] at hq
    exact absurd hq (by simp)
  obtain ⟨⟨i, hsqs⟩, hcqs, hledger⟩ := newRing_sq (s.governed r) r.fn hb
  have hmade : ((s.governed r).newRing r.fn (le c.block 0 2) c.block 0).sq r.fn (le c.block 0 2) = some (.made i (s.governed r) r.fn c.block) := by
    unfold State.sq
    rw [hsqs]
    exact look_put_same ..
  have hcreate : s.createRing r c = ((s.governed r).newRing r.fn (le c.block 0 2) c.block 0).ended r
      (BitVec.ofNat 64 ((Sq.made i (s.governed r) r.fn c.block).gen + (Sq.made i (s.governed r) r.fn c.block).index * 2 ^ 32)) := by
    unfold State.createRing
    rw [govern_eq (firstFail_single hf _ _)]
    extract_lets x v
    have hv : v = some ((Sq.made i (s.governed r) r.fn c.block).gen, (Sq.made i (s.governed r) r.fn c.block).index) := by
      unfold v
      rw [if_neg hb, hmade, Option.map_some]
    rw [hv, Option.map_some, Option.getD_some]
  have hnew : Stands s ((s.governed r).newRing r.fn (le c.block 0 2) c.block 0) r (c.governed s) := by
    refine hst.of_rings ?_ fun q k _ hk => ⟨k, ?_, rfl⟩
    · unfold State.sq
      rw [hsqs]
      exact look_put_other _ _ (ringNo_inj.not.mpr (Ne.symm hne))
    · unfold State.cq
      rw [hcqs]
      exact hk
  obtain ⟨hcommits, -, hruns⟩ := hnew.ends rfl hledger
    (BitVec.ofNat 64 ((Sq.made i (s.governed r) r.fn c.block).gen + (Sq.made i (s.governed r) r.fn c.block).index * 2 ^ 32))
  obtain ⟨m', hbound⟩ := exists_boundTo ((s.governed r).newRing r.fn (le c.block 0 2) c.block 0) r
  obtain ⟨q, hq, hface⟩ := (hruns m' hbound).sq_face hmade
  have hexec : exec (.createRing r) s = go ((s.createRing r c).settle r) := by
    change execCreateRing r s = _
    unfold execCreateRing
    exact h.start_eq _
  rw [hcreate] at hexec
  refine ⟨i, _, q, hexec, hq, hface, ?_⟩
  obtain ⟨-, -, -, hgen, hindex, -⟩ := Sq.eq_of_face hface
  rw [hgen, hindex]
  exact hcommits

/-- CREATE RING of a completion ring (R122). -/
theorem createRing_cq (h : Startable s r 0x40 c) (hf : ringFails s r.fn c.block = false) (hb : byteAt c.block 2 = 1) :
    ∃ i t k, exec (.createRing r) s = .next t ∧ t.cq r.fn (le c.block 0 2) = some k ∧ k.atRest = (Cq.made i (s.governed r) r.fn c.block).atRest ∧
      Commits s t r (BitVec.ofNat 64 (k.gen + k.index * 2 ^ 32)) := by
  obtain ⟨hnone, -⟩ := ringFails_free hf
  have hst := (h.stands (h.turn_unordered rfl rfl)).governed
  obtain ⟨⟨i, hcqs⟩, hsqs, hledger⟩ := newRing_cq (s.governed r) r.fn hb
  have hmade : ((s.governed r).newRing r.fn (le c.block 0 2) c.block 0).cq r.fn (le c.block 0 2) = some (.made i (s.governed r) r.fn c.block) := by
    unfold State.cq
    rw [hcqs]
    exact look_put_same ..
  have hcreate : s.createRing r c = ((s.governed r).newRing r.fn (le c.block 0 2) c.block 0).ended r
      (BitVec.ofNat 64 ((Cq.made i (s.governed r) r.fn c.block).gen + (Cq.made i (s.governed r) r.fn c.block).index * 2 ^ 32)) := by
    unfold State.createRing
    rw [govern_eq (firstFail_single hf _ _)]
    extract_lets x v
    have hv : v = some ((Cq.made i (s.governed r) r.fn c.block).gen, (Cq.made i (s.governed r) r.fn c.block).index) := by
      unfold v
      rw [if_pos hb, hmade, Option.map_some]
    rw [hv, Option.map_some, Option.getD_some]
  have hold : ∀ n k, (s.governed r).cq r.fn n = some k → n ≠ le c.block 0 2 ∧
      ((s.governed r).newRing r.fn (le c.block 0 2) c.block 0).cq r.fn n = some k := by
    intro n k hk
    have hn : n ≠ le c.block 0 2 := fun e => by
      rw [e] at hk
      exact absurd ((hnone hb).symm.trans hk) (by simp)
    refine ⟨hn, ?_⟩
    unfold State.cq
    rw [hcqs]
    exact (look_put_other _ _ (ringNo_inj.not.mpr hn)).trans hk
  have hnew : Stands s ((s.governed r).newRing r.fn (le c.block 0 2) c.block 0) r (c.governed s) := by
    refine hst.of_rings ?_ fun q k _ hk => ⟨k, (hold _ k hk).2, rfl⟩
    unfold State.sq
    rw [hsqs]
  obtain ⟨hcommits, -, hruns⟩ := hnew.ends rfl hledger
    (BitVec.ofNat 64 ((Cq.made i (s.governed r) r.fn c.block).gen + (Cq.made i (s.governed r) r.fn c.block).index * 2 ^ 32))
  obtain ⟨q0, k0, q, k1, new, -, -, hq, hcq, hk1, -⟩ := hst
  have hbound : BoundTo (ringNo r.fn q.cq) ((s.governed r).newRing r.fn (le c.block 0 2) c.block 0) r :=
    boundTo_of_sq (by unfold State.sq; rw [hsqs]; exact hq)
  obtain ⟨k, hk, hrest⟩ := (hruns _ hbound).cq_atRest (ringNo_inj.not.mpr (Ne.symm (hcq ▸ (hold _ k1 hk1).1))) hmade
  have hexec : exec (.createRing r) s = go ((s.createRing r c).settle r) := by
    change execCreateRing r s = _
    unfold execCreateRing
    exact h.start_eq _
  rw [hcreate] at hexec
  refine ⟨i, _, k, hexec, hk, hrest, ?_⟩
  obtain ⟨-, -, hgen, hindex, -⟩ := Cq.eq_of_atRest hrest
  rw [hgen, hindex]
  exact hcommits

/-! ### DELETE RING and SET RING NOTIFY -/

theorem mem_of_look {α : Type} {tab : Tab α} {k : Nat} {v : α} (h : look tab k = some v) : (k, v) ∈ tab := by
  induction tab with
  | nil => exact absurd h (by simp [look])
  | cons e tab ih =>
    unfold look at h
    split at h
    · next he => exact List.mem_cons.mpr (.inl (Prod.ext he.symm (Option.some.inj h).symm))
    · exact List.mem_cons_of_mem _ (ih h)

/-- What DELETE RING accepts: a submission ring with no command, or a completion ring no submission ring is bound to. -/
theorem deleteFails_none {f n : Nat} (h : firstFail (s.deleteFails f n b) = none) :
    (b = true → ∀ e ∈ s.sqs, e.1 / 1024 = f → e.2.cq ≠ n) ∧ (b = false → ∀ q, s.sq f n = some q → q.cmds = []) := by
  rw [firstFail, Option.map_eq_none_iff, List.find?_eq_none] at h
  unfold State.deleteFails at h
  constructor
  · rintro rfl
    simp only [if_true, List.forall_mem_cons] at h
    obtain ⟨-, -, h3, -⟩ := h
    intro e he hf hn
    exact h3 (by simp only [Bool.or_eq_true, List.any_eq_true]; exact .inl ⟨e, he, by simp [hf, hn]⟩)
  · rintro rfl q hq
    simp only [Bool.false_eq_true, if_false, List.forall_mem_cons, hq] at h
    obtain ⟨-, -, h3, -⟩ := h
    simp only [Bool.or_eq_true, not_or] at h3
    simpa using h3.2

/-- A command with its ring: the ring's number names its function. -/
theorem ringNo_div {f n : Nat} (hn : n < 1024) : ringNo f n / 1024 = f := by
  unfold ringNo
  omega

theorem deleteRing_removes (h : Startable s r 0x41 c) (hf : firstFail (s.deleteFails r.fn c.f10 (byteAt c.entry 6 = 1)) = none) :
    ∃ t, exec (.deleteRing r) s = .next t ∧ Commits s t r 0 ∧
      (if byteAt c.entry 6 = 1 then t.cq r.fn c.f10 = none else t.sq r.fn c.f10 = none) := by
  have hst := (h.stands (h.turn_unordered rfl rfl)).governed
  obtain ⟨hbound, hempty⟩ := deleteFails_none hf
  obtain ⟨hcmd, -, -⟩ := h.cmd_eq
  have hexec : exec (.deleteRing r) s = go ((s.deleteRing r c).settle r) := by
    change execDeleteRing r s = _
    unfold execDeleteRing
    exact h.start_eq _
  obtain ⟨hwf, -, q, k, hq, -⟩ := h
  have hsq : r.sq < 1024 := by
    simp only [Ref.wf, Bool.and_eq_true, ringOk, decide_eq_true_eq] at hwf
    exact hwf.1.2
  by_cases hb : byteAt c.entry 6 = 1
  · have hdel : s.deleteRing r c = ({ s.governed r with cqs := del (s.governed r).cqs (ringNo r.fn c.f10) } : State).ended r 0 := by
      unfold State.deleteRing
      rw [govern_eq hf]
      simp only [hb, if_true]
    have hnew : Stands s { s.governed r with cqs := del (s.governed r).cqs (ringNo r.fn c.f10) } r (c.governed s) := by
      refine hst.of_rings rfl fun q' k' hq' hk' => ⟨k', ?_, rfl⟩
      refine (look_del_other _ (ringNo_inj.not.mpr fun e => ?_)).trans hk'
      obtain ⟨q0, -, q1, -, -, hq0, -, hq1, hcq, -⟩ := hst
      obtain rfl := Option.some.inj (hq.symm.trans hq0)
      obtain rfl := Option.some.inj (hq1.symm.trans hq')
      exact hbound (by simpa using hb) _ (mem_of_look hq) (ringNo_div hsq) (hcq.symm.trans e)
    obtain ⟨hcommits, -, hruns⟩ := hnew.ends rfl rfl 0
    obtain ⟨m', hm'⟩ := exists_boundTo ({ s.governed r with cqs := del (s.governed r).cqs (ringNo r.fn c.f10) } : State) r
    rw [hdel] at hexec
    refine ⟨_, hexec, hcommits, ?_⟩
    rw [if_pos hb]
    exact (hruns m' hm').cq_none (look_del_same ..)
  · have hdel : s.deleteRing r c = ({ s.governed r with sqs := del (s.governed r).sqs (ringNo r.fn c.f10) } : State).ended r 0 := by
      unfold State.deleteRing
      rw [govern_eq hf]
      simp only [hb, if_false]
    have hne : r.sq ≠ c.f10 := fun e => by
      have := hempty (by simpa using hb) q (e ▸ hq)
      simp [State.cmd, hq, this] at hcmd
    have hnew : Stands s { s.governed r with sqs := del (s.governed r).sqs (ringNo r.fn c.f10) } r (c.governed s) :=
      hst.of_rings (look_del_other _ (ringNo_inj.not.mpr hne)) fun q' k' _ hk' => ⟨k', hk', rfl⟩
    obtain ⟨hcommits, -, hruns⟩ := hnew.ends rfl rfl 0
    obtain ⟨m', hm'⟩ := exists_boundTo ({ s.governed r with sqs := del (s.governed r).sqs (ringNo r.fn c.f10) } : State) r
    rw [hdel] at hexec
    refine ⟨_, hexec, hcommits, ?_⟩
    rw [if_neg hb]
    exact (hruns m' hm').sq_none (look_del_same ..)

theorem setRingNotify_keeps (h : Startable s r 0x42 c) {k0 : Cq} (hk0 : s.cq r.fn c.f10 = some k0) :
    ∃ t k, exec (.setRingNotify r) s = .next t ∧ Commits s t r 0 ∧ t.cq r.fn c.f10 = some k ∧
      k.attrNext = some (bit (byteAt c.entry 6) 0, le c.entry 8 2, byteAt c.entry 7) := by
  have hst := (h.stands (h.turn_unordered rfl rfl)).governed
  have hset : s.setNotify r c = ((s.governed r).setCq r.fn c.f10 fun k => { k with
      attrNext := some (bit (byteAt c.entry 6) 0, le c.entry 8 2, byteAt c.entry 7) }).ended r 0 := by
    unfold State.setNotify
    rw [govern_eq (firstFail_single (by rw [hk0]; rfl) _ _)]
  have hk1 : ((s.governed r).setCq r.fn c.f10 fun k => { k with
      attrNext := some (bit (byteAt c.entry 6) 0, le c.entry 8 2, byteAt c.entry 7) }).cq r.fn c.f10 = some { k0 with
        attrNext := some (bit (byteAt c.entry 6) 0, le c.entry 8 2, byteAt c.entry 7) } := by
    unfold State.cq
    rw [State.setCq_cqs, look_adj_same, show look (s.governed r).cqs (ringNo r.fn c.f10) = some k0 from hk0]
    rfl
  have hnew : Stands s ((s.governed r).setCq r.fn c.f10 fun k => { k with
      attrNext := some (bit (byteAt c.entry 6) 0, le c.entry 8 2, byteAt c.entry 7) }) r (c.governed s) := by
    refine hst.of_rings rfl fun q k _ hk => ?_
    unfold State.cq at hk ⊢
    rw [State.setCq_cqs, look_adj, hk]
    split
    · exact ⟨_, rfl, rfl⟩
    · exact ⟨_, rfl, rfl⟩
  obtain ⟨hcommits, -, hruns⟩ := hnew.ends rfl rfl 0
  obtain ⟨m', hm'⟩ := exists_boundTo ((s.governed r).setCq r.fn c.f10 fun k => { k with
    attrNext := some (bit (byteAt c.entry 6) 0, le c.entry 8 2, byteAt c.entry 7) }) r
  obtain ⟨k, hk, hface⟩ := (hruns m' hm').cq_face hk1
  have hexec : exec (.setRingNotify r) s = go ((s.setNotify r c).settle r) := h.start_eq fun c => s.setNotify r c
  rw [hset] at hexec
  exact ⟨_, k, hexec, hcommits, hk, (congrArg Cq.attrNext hface :)⟩

/-- Settles O30: each command's effect on the rings keeps its own ring and completion ring, so it commits. -/
theorem ringManagement : Obligations.RingManagement := by
  intro s r c
  refine ⟨fun h hf => ⟨fun hb => ?_, fun hb => ?_⟩, fun h hf => deleteRing_removes h hf, fun k0 h hk0 => setRingNotify_keeps h hk0⟩
  · obtain ⟨i, t, q, hexec, hq, hface, hcommits⟩ := createRing_sq h hf hb
    obtain ⟨hbase, hsize, hcq, hgen, -, hfetched, htail, hactive⟩ := Sq.eq_of_face hface
    exact ⟨t, q, hexec, hq, hgen, hbase, hsize, hcq, hfetched, htail, hactive, hcommits⟩
  · obtain ⟨i, t, k, hexec, hk, hrest, hcommits⟩ := createRing_cq h hf hb
    obtain ⟨hbase, hsize, hgen, -, hnotify, hcount, hbells, hposted⟩ := Cq.eq_of_atRest hrest
    exact ⟨t, k, hexec, hk, hgen, hbase, hsize, hnotify, hcount, hbells, hposted, hcommits⟩

end Sys2Proof.Machine
end

section
/-! A small module in service, for counterexamples, and function management, which fails for a ring bound to a completion ring of another
function's range. -/

namespace Sys2Proof.Machine

/-! ### A small module -/

/-- The module at delivery, READY. -/
def State.delivered : State := { State.reset with boot := { State.reset.boot with ready := true } }

/-- A checked command of an opcode, tag 7, with fields of its entry and a block. -/
def Cmd.simple (op : Nat) (fs : List (Nat × Nat × Nat)) (block : Bytes) : Cmd where
  tag := 7
  pos := 0
  order := 0
  entry := record 64 ([(0, 1, op), (2, 2, 7)] ++ fs)
  port := .A
  point := .checked
  list := []
  block := block
  data := []
  seen := 0
  startBell := 0
  startStill := 0
  units := []
  queuedBell := 0
  drainBell := none
  ledger := none
  slices := 0
  bad := none
  ending := none

/-- The command that runs in the admin ring of function 0. -/
def firstRef : Ref := ⟨0, 0, 7⟩

theorem startable_of_parts {s : State} {r : Ref} {op : Nat} {c : Cmd} (hwf : r.wf = true) (hs : s.startable r op = some c)
    (hk : ((s.sq r.fn r.sq).bind fun q => s.cq r.fn q.cq).isSome = true) : Startable s r op c := by
  obtain ⟨k, hk⟩ := Option.isSome_iff_exists.mp hk
  obtain ⟨q, hq, hk⟩ := Option.bind_eq_some_iff.mp hk
  exact ⟨hwf, hs, q, k, hq, hk⟩

/-- A check of the next state that an outcome answers. -/
def nextIs (p : State → Bool) : Res' → Bool
  | .next t => p t
  | _ => false

theorem nextIs_of_exec {i : Instr} {s t : State} {p : State → Bool} (he : exec i s = .next t) (h : nextIs p (exec i s) = true) : p t = true := by
  rw [he] at h
  exact h

/-- A completion posted leaves the completions that were not acknowledged before. -/
theorem Posts.unacked {s t : State} {r : Ref} {st : Nat} {res : W64} {n : Option Nat} (h : Posts s t r st res n) {q0 : Sq} {k0 : Cq}
    (hq : s.sq r.fn r.sq = some q0) (hk : s.cq r.fn q0.cq = some k0) : ∃ k1 new, t.cq r.fn q0.cq = some k1 ∧ k1.unacked = k0.unacked ++ new := by
  obtain ⟨q0', k0', k1, new, q, k, c, p, u, d, logged, hq', hk', hk1, hun, -⟩ := h
  obtain rfl := Option.some.inj (hq.symm.trans hq')
  obtain rfl := Option.some.inj (hk.symm.trans hk')
  exact ⟨k1, new, hk1, hun⟩

/-! ### O32 -/

/-- A block ADD FUNCTION accepts. -/
def addedBlock : Bytes := record 144 [(0, 2, 1), (2, 2, 1), (51, 1, 4), (98, 1, 1), (99, 1, 4), (116, 2, 1)]

/-- ADD FUNCTION of function 5 in a ring of function 0 whose completions go to ring 5,120, the place of the ring 0 of function 5. -/
def lostRing : State :=
  { State.delivered with
    sqs := [(0, { Sq.admin 0 with cq := 5120, cmds := [.simple 0x48 [(4, 2, 5)] addedBlock] })]
    cqs := [(5120, { Cq.admin 0 with unacked := [(7, [])] })] }

/-- Refutes O32: nothing bounds the completion ring a ring is bound to, so ADD FUNCTION may make its new function's ring at the place of the
command's own completion ring, and the completion that ring had not seen acknowledged is lost. -/
theorem not_functionManagement : ¬ Obligations.FunctionManagement := by
  intro h
  obtain ⟨-, -, h⟩ := h lostRing firstRef (.simple 0x48 [(4, 2, 5)] addedBlock)
  obtain ⟨hadd, -⟩ := h (by decide +kernel)
  obtain ⟨t, he, hposts, -⟩ := hadd (startable_of_parts rfl (by decide +kernel) (by decide +kernel)) (by decide) (by decide) (by decide +kernel)
    (by decide +kernel)
  have hlost : (t.cq 0 5120).map (fun k => k.unacked.map (·.1)) = some [0] := by
    have := nextIs_of_exec (p := fun t => (t.cq 0 5120).map (fun k => k.unacked.map (·.1)) = some [0]) he (by decide +kernel)
    simpa using this
  obtain ⟨k1, new, hk1, hun⟩ := hposts.unacked (q0 := { Sq.admin 0 with cq := 5120, cmds := [.simple 0x48 [(4, 2, 5)] addedBlock] })
    (k0 := { Cq.admin 0 with unacked := [(7, [])] }) (by decide +kernel) (by decide +kernel)
  rw [show t.cq 0 5120 = some k1 from hk1, Option.map_some, hun] at hlost
  simp at hlost

end Sys2Proof.Machine
end

section
/-! Management of power, time and firmware (R224 to R226, R529, R565, R567). -/

namespace Sys2Proof.Machine

variable {s t u : State} {r : Ref} {op : Nat} {c : Cmd} {P : List Part}

/-! ### Fields that a frame keeps -/

theorem clk_of_mask (h : .clk ∉ P) (e : t.mask P = s.mask P) : t.clk = s.clk := (congrArg State.clk (eq_graft e)).trans (if_neg h)

theorem act_of_mask (h : .act ∉ P) (e : t.mask P = s.mask P) : t.act = s.act := (congrArg State.act (eq_graft e)).trans (if_neg h)

theorem boot_of_mask (h : .boot ∉ P) (e : t.mask P = s.mask P) : t.boot = s.boot := (congrArg State.boot (eq_graft e)).trans (if_neg h)

theorem fns_of_mask (h : .fns ∉ P) (e : t.mask P = s.mask P) : t.fns = s.fns := (congrArg State.fns (eq_graft e)).trans (if_neg h)

theorem clk_of_rest (h : t.rest = u.rest) : t.clk = u.clk := (congrArg State.clk h :)

theorem act_of_rest (h : t.rest = u.rest) : t.act = u.act := (congrArg State.act h :)

theorem boot_of_rest (h : t.rest = u.rest) : t.boot = u.boot := (congrArg State.boot h :)

theorem life_of_rest (h : t.rest = u.rest) : t.life = u.life := (congrArg State.life h :)

theorem loft_of_rest (h : t.rest = u.rest) : t.loft = u.loft := (congrArg State.loft h :)

theorem pwr_of_rest (h : t.rest = u.rest) : t.pwr = u.pwr := (congrArg State.pwr h :)

/-- A command that completes where its ring does not go on. -/
theorem Stands.posts_now (h : Stands s u r c) (d : Done) : Posts s (u.complete r d) r d.status d.result d.ledger := by
  have hrest : (u.complete r d).rest = u.rest := complete_besides u r d
  exact h.posts (fun _ _ => .refl _ _ _) (congrArg Bell.now (bell_of_rest hrest)) (ledger_of_rest hrest) (sems_of_rest hrest)

/-- A governing command whose effect kept the rings commits. -/
theorem Startable.governs (h : Startable s r op c) (hz : zoneOrdered op = false) (hr : randOrdered op = false) (hm : u.mask P = (s.governed r).mask P)
    (hs : .sqs ∉ P) (hc : .cqs ∉ P) (hl : .ledger ∉ P) (result : W64) :
    let t := (u.ended r result).settle r
    Commits s t r result ∧ t.rest = u.rest ∧ ∃ m', RingsRun (ringNo r.fn r.sq) m' u t := by
  have hst := (h.stands (h.turn_unordered hz hr)).governed.of_mask hs hc hm
  obtain ⟨hcommits, hrest, hruns⟩ := hst.ends rfl (ledger_of_mask hl hm) result
  obtain ⟨m', hb⟩ := exists_boundTo u r
  exact ⟨hcommits, hrest, m', hruns m' hb⟩

/-! ### SET LATENCY TOLERANCE (R224, R529) -/

theorem fn_setFn_same (s : State) (f : Nat) (g : Fn → Fn) : (s.setFn f g).fn f = g (s.fn f) := lookD_adjD_same ..

theorem setLatencyTolerance_records (h : Startable s r 0x43 c) :
    let s1 := s.setFn r.fn fun g => { g with tol := le c.entry 8 4 }
    ∃ t, exec (.setLatencyTolerance r) s = .next t ∧ (t.fn r.fn).tol = le c.entry 8 4 ∧
      (s1.admits s.pwr.cur = true → Commits s t r 0) ∧ (s1.admits s.pwr.cur = false → t.pwr.waking = true) := by
  intro s1
  have hadmits : ((s.governed r).setFn r.fn fun g => { g with tol := le c.entry 8 4 }).admits (s.governed r).pwr.cur = s1.admits s.pwr.cur := rfl
  have htol : (((s.governed r).setFn r.fn fun g => { g with tol := le c.entry 8 4 }).fn r.fn).tol = le c.entry 8 4 := by rw [fn_setFn_same]
  have hexec : exec (.setLatencyTolerance r) s = go ((s.doTolerance r c).settle r) := h.start_eq fun c => s.doTolerance r c
  have hkept : ∀ {m'} {x y : State}, RingsRun (ringNo r.fn r.sq) m' x y → (y.fn r.fn).tol = (x.fn r.fn).tol := fun hruns =>
    (congrArg Fn.tol (hruns.fn r.fn) :)
  have hdo : s.doTolerance r c = if s1.admits s.pwr.cur then ((s.governed r).setFn r.fn fun g => { g with tol := le c.entry 8 4 }).ended r 0
      else { (s.governed r).setFn r.fn fun g => { g with tol := le c.entry 8 4 } with
        pwr := { s.pwr with waking := true, entering := false, idleFrom := none } } := by
    unfold State.doTolerance
    rw [govern_eq rfl]
    rfl
  by_cases hs1 : s1.admits s.pwr.cur = true
  · rw [if_pos hs1] at hdo
    rw [hdo] at hexec
    obtain ⟨hcommits, -, m', hruns⟩ := h.governs rfl rfl (setFn_mask (P := [.fns]) (List.Subset.refl _) r.fn fun g => { g with tol := le c.entry 8 4 })
      (by decide) (by decide) (by decide) 0
    have hended : ((((s.governed r).setFn r.fn fun g => { g with tol := le c.entry 8 4 }).ended r 0).settle r |>.fn r.fn).tol = le c.entry 8 4 :=
      (hkept hruns).trans htol
    exact ⟨_, hexec, hended, fun _ => hcommits, fun hn => absurd (hs1.symm.trans hn) (by decide)⟩
  · rw [if_neg hs1] at hdo
    rw [hdo] at hexec
    obtain ⟨m', hb⟩ := exists_boundTo ({ (s.governed r).setFn r.fn fun g => { g with tol := le c.entry 8 4 } with
        pwr := { s.pwr with waking := true, entering := false, idleFrom := none } } : State) r
    refine ⟨_, hexec, (hkept (settle_runs rfl hb)).trans htol, fun hy => absurd hy hs1, fun _ => ?_⟩
    rw [pwr_of_rest (settle_besides _ r)]

/-! ### SET CALENDAR (R225) -/

theorem setClock_base (s : State) (v : Int) : (s.setClock v).clk = { s.clk with base := v, baseNs := s.nowNs } := by
  unfold State.setClock
  dsimp only
  split
  · rw [clk_of_mask (P := [.out, .rdma, .bell, .loft, .events, .eventSeq]) (by decide) (event_mask (List.Subset.refl _) ..)]
  · rfl

theorem setCalendar_sets (h : Startable s r 0x58 c) (hclk : s.clk.st ≠ 2) : ∃ t, exec (.setCalendar r) s = .next t ∧ Commits s t r 0 ∧ t.clk.st = 1 ∧
      t.clk.base = (le c.entry 8 8 : Int) * 2 ^ 32 + (le c.entry 16 4 : Int) ∧ t.clk.baseNs = s.nowNs := by
  have hdo : s.doCalendar r c = ({ (s.governed r).setClock ((le c.entry 8 8 : Int) * 2 ^ 32 + (le c.entry 16 4 : Int)) with
      clk := { ((s.governed r).setClock ((le c.entry 8 8 : Int) * 2 ^ 32 + (le c.entry 16 4 : Int))).clk with st := 1, syncs := 0 } } : State).ended r 0 := by
    unfold State.doCalendar
    rw [govern_eq (firstFail_single (by simpa using hclk) _ _)]
  have hexec : exec (.setCalendar r) s = go ((s.doCalendar r c).settle r) := h.start_eq fun c => s.doCalendar r c
  rw [hdo] at hexec
  obtain ⟨hcommits, hrest, -⟩ := h.governs rfl rfl ((mask_clk (by decide) _).trans
    (setClock_mask (P := [.out, .rdma, .bell, .loft, .events, .eventSeq, .clk]) (List.Subset.refl _) _)) (by decide) (by decide) (by decide) 0
  have hbase := setClock_base (s.governed r) ((le c.entry 8 8 : Int) * 2 ^ 32 + (le c.entry 16 4 : Int))
  refine ⟨_, hexec, hcommits, ?_, ?_, ?_⟩ <;> rw [clk_of_rest hrest]
  · exact (congrArg Clk.base hbase :)
  · exact (congrArg Clk.baseNs hbase :)

/-! ### Firmware (R226, R565, R567) -/

theorem firmwareDownload_reads (h : Startable s r 0x59 c) (hact : s.act = none) (hbank : s.bankProtected = false) :
    ∃ t, exec (.firmwareDownload r) s = .next t ∧ Sends t r.fn (.data r) ∧ t.rest = s.rest := by
  have hdo : s.doDownload r = (s.begin_ r .data).issue ⟨r.fn, (s.cmd r).bind (fun c => s.cmdPort r.fn c.port), false, .data r⟩ := by
    unfold State.doDownload
    rw [hact, hbank]
    rfl
  have hexec : exec (.firmwareDownload r) s = go ((s.doDownload r).settle r) := h.start_eq fun _ => s.doDownload r
  rw [hdo] at hexec
  exact ⟨_, hexec, (sends_of_issue _ r.fn _ false (.data r)).settles, (settle_besides _ r).trans (issue_besides _ _)⟩

theorem firmwareActivate_selects (h : Startable s r 0x5A c) (hact : s.act = none) (hdown : s.downloading = false)
    (hok : (s.loft.image s.inactive).ok = true) (hsvn : s.life.floor ≤ (s.loft.image s.inactive).svn) :
    ∃ t, exec (.firmwareActivate r) s = .next t ∧ t.act = some ⟨r, 2⟩ ∧ t.loft.next = s.inactive ∧ t.boot.running = s.boot.running := by
  have hdo : s.doActivate r = { (s.begin_ r .running).select s.inactive with act := some ⟨r, 2⟩ } := by
    unfold State.doActivate
    simp [hact, hdown, hok, Nat.not_lt.mpr hsvn]
  have hexec : exec (.firmwareActivate r) s = go ((s.doActivate r).settle r) := h.start_eq fun _ => s.doActivate r
  rw [hdo] at hexec
  have hrest := settle_besides ({ (s.begin_ r .running).select s.inactive with act := some ⟨r, 2⟩ } : State) r
  refine ⟨_, hexec, act_of_rest hrest, ?_, ?_⟩
  · rw [loft_of_rest hrest]
    rfl
  · rw [boot_of_rest hrest]
    rfl

/-- The state in which the other bank's image runs. -/
def State.ranOther (s : State) : State := { s with
  act := none, boot := { s.boot with running := s.inactive }
  loft := { s.loft with clear := s.loft.clear.filter fun k => decide (loftBank k ≠ b01 s.inactive) }
  life := { s.life with floor := max s.life.floor (s.loft.image s.inactive).svn } }

/-- The state in which an activation's handover has ended. -/
def State.handedOver (s : State) : State := s.ranOther.firmwareEvent 0 (s.loft.image s.inactive).version

theorem handedOver_mask (s : State) : s.handedOver.mask [.out, .rdma, .bell, .loft, .events, .eventSeq] = s.ranOther.mask [.out, .rdma, .bell, .loft, .events, .eventSeq] :=
  event_mask (List.Subset.refl _) ..

/-- The state in which an activation has been given up. -/
def State.gaveUp (s : State) : State :=
  (({ s with act := none } : State).select s.boot.running).loftRecord 312 recActivation (record 16 [(0, 2, 0x70), (8, 8, s.bell.now)])

theorem closeActivation_eq (s : State) (r : Ref) : s.closeActivation r =
    ({ s.handedOver with ledger := s.handedOver.ledger + 1 } : State).complete r (s.handedOver.success 0) := rfl

theorem failActivation_eq (s : State) (r : Ref) : s.failActivation r = s.gaveUp.complete r { status := NOT_PERMITTED, field := 0xFFFF } := rfl

theorem activationHandover_ends {a : Activation} (ha : s.act = some a) (h : Stands s s a.r c) (hphase : a.phase = 3) :
    ∃ t, exec (.activationHandover true) s = .next t ∧ Commits s t a.r 0 ∧ t.act = none ∧ t.boot.running = s.inactive ∧
        t.life.floor = max s.life.floor (s.loft.image s.inactive).svn := by
  have hexec : exec (.activationHandover true) s = go (s.closeActivation a.r) := by
    change execActivationHandover true s = _
    unfold execActivationHandover
    rw [ha]
    exact if_pos hphase
  rw [closeActivation_eq] at hexec
  have hst : Stands s s.handedOver a.r c :=
    (h.of_eq (u := s.ranOther) rfl rfl).of_mask (by decide) (by decide) (handedOver_mask s)
  have hledger : s.handedOver.ledger = s.ranOther.ledger := ledger_of_mask (by decide) (handedOver_mask s)
  have hrest := complete_besides ({ s.handedOver with ledger := s.handedOver.ledger + 1 } : State) a.r (s.handedOver.success 0)
  refine ⟨_, hexec, ⟨?_, ?_⟩, ?_, ?_, ?_⟩
  · rw [ledger_of_rest hrest, hledger]
    rfl
  · rw [show s.ledger = s.handedOver.ledger from hledger.symm]
    exact Stands.posts_now (u := { s.handedOver with ledger := s.handedOver.ledger + 1 }) (hst.of_eq rfl rfl) _
  · rw [act_of_rest hrest]
    exact act_of_mask (by decide) (handedOver_mask s)
  · rw [boot_of_rest hrest]
    exact congrArg Boot.running (boot_of_mask (by decide) (handedOver_mask s))
  · rw [life_of_rest hrest]
    exact congrArg Life.floor (life_of_mask (by decide) (handedOver_mask s))

theorem activationHandover_fails {a : Activation} (ha : s.act = some a) (h : Stands s s a.r c) :
    ∃ t, exec (.activationHandover false) s = .next t ∧ Posts s t a.r NOT_PERMITTED 0 none ∧ t.act = none ∧
        t.boot.running = s.boot.running ∧ t.life.floor = s.life.floor ∧ t.loft.next = s.boot.running := by
  have hexec : exec (.activationHandover false) s = go (s.failActivation a.r) := by
    change execActivationHandover false s = _
    unfold execActivationHandover
    rw [ha]
    rfl
  rw [failActivation_eq] at hexec
  have hrest := complete_besides s.gaveUp a.r { status := NOT_PERMITTED, field := 0xFFFF }
  refine ⟨_, hexec, (h.of_eq (u := s.gaveUp) rfl rfl).posts_now _, ?_, ?_, ?_, ?_⟩
  · rw [act_of_rest hrest]
    rfl
  · rw [boot_of_rest hrest]
    rfl
  · rw [life_of_rest hrest]
    rfl
  · rw [loft_of_rest hrest]
    rfl

/-- Settles O34: each command's effect keeps its ring, and the handover's two ends complete the command that waits for it. -/
theorem powerTimeFirmware : Obligations.PowerTimeFirmware := by
  intro s r c
  refine ⟨fun h => setLatencyTolerance_records h, fun h hclk => setCalendar_sets h hclk, fun h hact hbank => firmwareDownload_reads h hact hbank,
    fun h hact hdown hok hsvn => firmwareActivate_selects h hact hdown hok hsvn, fun a q k ha hc hq hk hw => ⟨fun hphase => ?_, fun hphase => ?_, ?_⟩⟩
  · change execActivationHandover true s = _
    unfold execActivationHandover
    simp [ha, hphase]
  · exact activationHandover_ends ha (.of_turn hc hq hk (turn_iff.mpr ⟨q, hq, hw⟩)) hphase
  · exact activationHandover_fails ha (.of_turn hc hq hk (turn_iff.mpr ⟨q, hq, hw⟩))

end Sys2Proof.Machine
end

section
/-! Life cycle: a command that starts during the media erase may be lost where a ring holds its tag twice. -/

namespace Sys2Proof.Machine

/-- A boot that meets nothing wrong. -/
def plainBoot : BootEnv where
  romOk := true
  bankBad := []
  sramOk := true
  ranksBad := []
  rankEye := (64, 64)
  fillBad := []
  coresOk := 18
  chans := []
  eye := (100, 100)
  metaOk := true
  badShares := []
  sieveBad := []
  inputHeld := true
  cellOk := true
  inletTemp := 30
  elapsed := 0
  stepMs := []
  ms := 0
  usable := 100
  manifestOk := true

/-- A media erase runs. In the ring of a LIFE CYCLE TRANSITION a second command has its tag and waits to complete, and an entry that is no
command waits for its check. -/
def tagTwice : State :=
  { State.delivered with
    life := { State.delivered.life with erasing := some ⟨1, 0, 3⟩ }
    sqs := [(0, { Sq.admin 0 with cmds := [.simple 0x5C [] [], { Cmd.simple 0x5C [] [] with ending := some { status := SUCCESS } },
      { Cmd.simple 0xFF [] [] with tag := 8, pos := 1, point := .fetched }] })] }

/-- Refutes O35: tags are not distinct in the statement. The check of the entry behind fails, which posts the completion owed to the second
command of the tag, and the command that has just started leaves the ring with it. -/
theorem not_lifeCycle : ¬ Obligations.LifeCycle := by
  intro h
  obtain ⟨-, -, herase, -⟩ := h tagTwice firstRef (.simple 0x5C [] []) plainBoot (by decide +kernel)
  obtain ⟨t, d, he, -, -, hd, -⟩ := herase (startable_of_parts rfl (by decide +kernel) (by decide +kernel)) rfl
  have hlost := nextIs_of_exec (p := fun t => (t.cmd firstRef).isNone) he (by decide +kernel)
  rw [show t.cmd firstRef = some d from hd] at hlost
  simp at hlost

end Sys2Proof.Machine
end

section
/-! Requests and lookups of a core complete (R345, R361, R388, R416). -/

namespace Sys2Proof.Machine

variable {s u : State} {c : CoreId} {jb : Job} {x : Ctx} {q : Req}

theorem any_of_find? {α : Type} {p : α → Bool} {l : List α} {a : α} (h : l.find? p = some a) : l.any p = true :=
  List.any_eq_true.mpr ⟨a, List.mem_of_find?_eq_some h, List.find?_some h⟩

/-- The oldest request of a running item ends as its row says. -/
theorem requestComplete_eq (hwf : c.wf = true) (hx : (s.core (coreNo c)).ctx = some x) (hj : look s.jobs x.job = some jb)
    (hq : x.reqs.find? (fun q => !q.lookup) = some q) (hf : jb.fault = none) :
    exec (.requestComplete c) s = .next ((s.endReq (coreNo c) x true q jb).endAtDone (coreNo c)) := by
  change execRequestComplete c s = _
  unfold execRequestComplete
  simp only [hwf, Bool.not_true, Bool.false_eq_true, if_false, findCtx_running (p := fun x => x.reqs.any fun q => !q.lookup) hx (any_of_find? hq), hq, hj,
    hf, Option.isSome_none]

theorem svlComplete_eq (hwf : c.wf = true) (hx : (s.core (coreNo c)).ctx = some x) (hj : look s.jobs x.job = some jb)
    (hq : x.reqs.find? (·.lookup) = some q) :
    exec (.svlComplete c) s = .next ((s.endLookup (coreNo c) x true q jb.r.fn).endAtDone (coreNo c)) := by
  change execSvlComplete c s = _
  unfold execSvlComplete
  simp only [hwf, Bool.not_true, Bool.false_eq_true, if_false, findCtx_running (p := fun x => x.reqs.any (·.lookup)) hx (any_of_find? hq), hq, hj]

/-- The state after a request's answer stands in its block (R388). -/
def State.requestAnswered (v : State) (k : Nat) (x : Ctx) (q : Req) (res st : Nat) : State :=
  (v.setCtx k { x with reqs := x.reqs.erase q }).writeWin k x.job .loc q.addr
    (patch (patch (patch q.block 28 (toLe res 4)) 2 (toLe st 1)) 3 (toLe 1 1))

theorem answerReq_eq (s : State) (k : Nat) (x : Ctx) (q : Req) (st res : Nat) : s.answerReq k x true q st res = s.requestAnswered k x q res st := rfl

theorem firstFail_status {l : List Chk} (hl : ∀ e ∈ l, e.2.1 ≠ SUCCESS) {r : Nat × Nat} (h : firstFail l = some r) : r.1 ≠ SUCCESS := by
  obtain ⟨e, he, rfl⟩ := Option.map_eq_some_iff.mp h
  exact hl e (List.mem_of_find?_eq_some he)

/-- A request fails with a status other than SUCCESS. -/
theorem reqFails_ne_success {b : Bytes} {n st : Nat} (h : s.reqFails jb b n = some st) : st ≠ SUCCESS := by
  obtain ⟨r, hf, rfl⟩ := Option.map_eq_some_iff.mp h
  refine firstFail_status ?_ hf
  simp only [List.forall_mem_cons, List.not_mem_nil, false_implies, implies_true, and_true]
  decide

theorem endReq_fails {k st : Nat} (hq : q.lookup = false)
    (h : s.reqFails jb q.block (if byteAt q.block 0 = 1 then q.data.length else 0) = some st) : s.endReq k x true q jb = s.failReq k x true q st := by
  unfold State.endReq
  by_cases h1 : byteAt q.block 0 = 1
  · rw [if_pos h1] at h
    rw [if_pos (by simpa [rqRead] using h1), h]
  · rw [if_neg h1] at h
    rw [if_neg (by simpa [rqRead] using h1)]
    by_cases h2 : byteAt q.block 0 = 2
    · have happend : s.appendJob jb q = some (st, 0, s) := by
        unfold State.appendJob
        simp only [h]
      rw [if_pos (by simp [Req.append, hq, h2]), happend]
      exact if_neg (reqFails_ne_success h)
    · rw [if_neg (by simp [Req.append, h2]), h, Option.getD_some]

theorem endReq_read {k paid : Nat} (hone : byteAt q.block 0 = 1) (hbad : q.bad = false) (hleft : q.left = 0)
    (hok : s.reqFails jb q.block q.data.length = none) (hpay : s.payUnits jb.r.fn (rqCount q.block - q.paid) q.paid = (paid, u))
    (hall : rqCount q.block ≤ paid) : s.endReq k x true q jb = (u.requestAnswered k x q q.data.length SUCCESS).setJob x.job fun j =>
        j.write k .dram (le q.block 16 8 - 0x100000000) q.data := by
  unfold State.endReq
  rw [if_pos (by simpa [rqRead] using hone)]
  split
  · next st h => exact absurd (hok.symm.trans h) (by simp)
  · split
    next n v h =>
    obtain ⟨rfl, rfl⟩ : paid = n ∧ u = v := by simpa using hpay.symm.trans h
    rw [if_neg (by simp [Nat.not_lt.mpr hall, hleft]), if_neg (by simp [hbad]), answerReq_eq, rqAddr]

theorem commit_eq (s : State) : s.commit = (s.ledger + 1, { s with ledger := s.ledger + 1 }) := rfl

theorem appendJob_commits {b : List Int} {z : Nat} (hz : z = zoneNo (jb.holding.getD 0) (rqZone q.block)) (hok : s.reqFails jb q.block 0 = none)
    (hpay : s.rate jb.r.fn [(2, rqCount q.block * 4096)] = .pay b) (hheld : s.zoneHeld z (rqCount q.block) = false) {t : State}
    (ht : t = { s.setFn jb.r.fn fun g => { g with buckets := b } with ledger := s.ledger + 1 }) :
    s.appendJob jb q = some (SUCCESS, (s.zone z).wp, t.store z (s.ledger + 1) (t.zone z).lclass
      (t.sealZone z (s.zone z).wp ((cut4k q.data).map fun u => (u, false)))) := by
  obtain ⟨rate, hrate⟩ : ∃ f, f = @State.rate := ⟨_, rfl⟩
  unfold State.appendJob
  rw [← hrate] at hpay ⊢
  simp only [← hz, hok, hpay, hheld, commit_eq, State.setFn_ledger, ← ht, Bool.false_eq_true, if_false]

theorem endReq_append {k : Nat} {a : Nat} {t : State} (htwo : byteAt q.block 0 = 2) (hq : q.lookup = false)
    (h : s.appendJob jb q = some (SUCCESS, a, t)) : s.endReq k x true q jb = t.requestAnswered k x q a SUCCESS := by
  unfold State.endReq
  rw [if_neg (by simp [rqRead, htwo]), if_pos (by simp [Req.append, hq, htwo]), h]
  exact if_pos rfl

/-- The state after a lookup's answer stands in its block (R416). -/
def State.lookupAnswered (v : State) (k : Nat) (x : Ctx) (q : Req) (ans : Bytes) (st : Nat) : State :=
  (v.setCtx k { x with reqs := x.reqs.erase q }).writeWin k x.job .loc q.addr
    (patch (patch (patch q.block 48 ans) 41 (toLe st 1)) 42 (toLe 1 1))

theorem bad_eq_false_iff (b : Bytes) : (byteAt b 40 ≥ 2 || byteAt b 42 ≥ 2 || !zeros b 43 5) = false ↔
    byteAt b 40 < 2 ∧ byteAt b 42 < 2 ∧ zeros b 43 5 = true := by
  simp [and_assoc]

theorem endLookup_made {k f : Nat} (hvalid : byteAt q.block 40 < 2 ∧ byteAt q.block 42 < 2 ∧ zeros q.block 43 5 = true) (hown : s.ownsRows f = true) :
    let l := s.lookup f (keyOf q.block) (bit (byteAt q.block 40) 0) none
    s.endLookup k x true q f = l.1.lookupAnswered k x q (answerBytes l.2.2 0) (if l.2.2.isSome then SUCCESS else NO_MATCH) := by
  intro l
  unfold State.endLookup
  simp only [(bad_eq_false_iff _).mpr hvalid, hown, Bool.false_eq_true, Bool.not_true, if_false]
  rfl

theorem endLookup_refused {k f : Nat} (h : ¬(byteAt q.block 40 < 2 ∧ byteAt q.block 42 < 2 ∧ zeros q.block 43 5 = true) ∨ s.ownsRows f = false) :
    s.endLookup k x true q f = ({ s with free := s.free + 1 } : State).lookupAnswered k x q (toLe (Config.free s.free) 16)
      (if byteAt q.block 40 < 2 ∧ byteAt q.block 42 < 2 ∧ zeros q.block 43 5 = true then NOT_PERMITTED else INVALID_FIELD) := by
  unfold State.endLookup
  by_cases hvalid : byteAt q.block 40 < 2 ∧ byteAt q.block 42 < 2 ∧ zeros q.block 43 5 = true
  · have hown := h.resolve_left (not_not.mpr hvalid)
    simp only [(bad_eq_false_iff _).mpr hvalid, hown, Bool.false_eq_true, Bool.not_false, if_false, if_true, if_pos hvalid]
    rfl
  · have hbad : (byteAt q.block 40 ≥ 2 || byteAt q.block 42 ≥ 2 || !zeros q.block 43 5) = true := by
      rw [← Bool.not_eq_false, bad_eq_false_iff]
      exact hvalid
    simp only [hbad, if_true, if_neg hvalid]
    rfl

/-- Settles O24: the oldest request or lookup of the running item ends in the way its block and the checks decide. -/
theorem requestsComplete : Obligations.RequestsComplete := by
  intro s u c jb x q paid k hwf hx hj y answered
  have hlookup : ∀ {q}, x.reqs.find? (fun q => !q.lookup) = some q → q.lookup = false := fun h => by simpa using List.find?_some h
  refine ⟨fun hq hf hone hbad hleft hok hpay hall => ?_, fun b hq hf htwo hok hpay => ?_, fun st hq hf hfail => ?_,
    fun hq => ?_⟩
  · rw [requestComplete_eq hwf hx hj hq hf, endReq_read hone hbad hleft hok hpay hall]
    rfl
  · intro z a t hheld
    rw [requestComplete_eq hwf hx hj hq hf, endReq_append htwo (hlookup hq) (appendJob_commits rfl hok hpay hheld rfl)]
    rfl
  · refine ⟨Config.free s.free, ?_⟩
    rw [requestComplete_eq hwf hx hj hq hf, endReq_fails (hlookup hq) hfail]
    rfl
  · intro ended valid l
    refine ⟨fun hvalid hown => ?_, fun hno => ⟨Config.free s.free, ?_⟩⟩
    · rw [svlComplete_eq hwf hx hj hq, endLookup_made hvalid hown]
      rfl
    · rw [svlComplete_eq hwf hx hj hq, endLookup_refused hno]
      rfl

end Sys2Proof.Machine
end

section
/-! Events of the log (R515), and frames an UP port takes (R60 to R70). -/

namespace Sys2Proof.Machine

variable {s t u : State} {P : List Part}

/-! ### Events -/

/-- The record of an event. -/
def State.eventBytes (s : State) (code cls f : Nat) (detail : List (Nat × Nat × Nat)) : Bytes :=
  record 64 ([(0, 8, s.bell.now), (8, 8, s.eventSeq + 1), (16, 2, code), (18, 1, cls), (20, 4, s.bell.boot), (24, 2, f)] ++ detail)

theorem events_of_mask (h : .events ∉ P) (e : t.mask P = s.mask P) : t.events = s.events :=
  (congrArg State.events (eq_graft e)).trans (if_neg h)

theorem bell_of_mask (h : .bell ∉ P) (e : t.mask P = s.mask P) : t.bell = s.bell :=
  (congrArg State.bell (eq_graft e)).trans (if_neg h)

theorem notify_events (s : State) (f : Nat) (i : W32) : (s.notify f i).events = s.events := (congrArg State.events (notify_besides s f i) :)

theorem notify_bell (s : State) (f : Nat) (i : W32) : (s.notify f i).bell = s.bell := (congrArg State.bell (notify_besides s f i) :)

theorem loftRecord_rest (s : State) (a ty : Nat) (b : Bytes) : (s.loftRecord a ty b).events = s.events ∧ (s.loftRecord a ty b).bell = s.bell :=
  ⟨rfl, rfl⟩

/-- A state whose managers are told of an event of the class, once in a bell (R515). -/
def State.announced (s : State) (cls : Nat) : State :=
  if cls = 0 then s
  else if s.boot.ready && !s.bell.eventRaised then
    (({ s with bell := { s.bell with eventRaised := true } }).notify 0 0x30000000).notify 1 0x30000000
  else s

theorem announced_keeps (s : State) (cls : Nat) : (s.announced cls).events = s.events ∧ (s.announced cls).bell.now = s.bell.now ∧
    (s.announced cls).bell.boot = s.bell.boot := by
  unfold State.announced
  split
  · exact ⟨rfl, rfl, rfl⟩
  · split
    · rw [notify_events, notify_events, notify_bell, notify_bell]
      exact ⟨rfl, rfl, rfl⟩
    · exact ⟨rfl, rfl, rfl⟩

/-- The state with a record added to the log, the oldest beyond 8,192 dropped (R515). -/
def State.logged (s : State) (r : Bytes) : State :=
  { s with events := (s.events ++ [r]).drop ((s.events ++ [r]).length - 8192), eventSeq := s.eventSeq + 1 }

/-- The logged state with the record in the loft too where its class asks for it. -/
def State.kept (s : State) (cls : Nat) (r : Bytes) : State := if cls ≥ 2 then (s.logged r).loftRecord 312 recEvent r else s.logged r

theorem bell_of_log (s : State) (l : List Bytes) (n : Nat) : { s with events := l, eventSeq := n }.bell = s.bell := rfl

theorem logged_bell (s : State) (r : Bytes) : (s.logged r).bell = s.bell := bell_of_log s _ _

theorem kept_rest (s : State) (cls : Nat) (r : Bytes) : (s.kept cls r).events = (s.logged r).events ∧ (s.kept cls r).bell = s.bell := by
  unfold State.kept
  split
  · exact ⟨(loftRecord_rest _ _ _ _).1, (loftRecord_rest _ _ _ _).2.trans (logged_bell s r)⟩
  · exact ⟨rfl, logged_bell s r⟩

theorem event_eq (s : State) (code cls f : Nat) (d : List (Nat × Nat × Nat)) :
    s.event code cls f d = (s.kept cls (s.eventBytes code cls f d)).announced cls := by
  unfold State.event State.eventAt State.announced State.kept State.logged State.eventBytes
  dsimp only

theorem event_events (s : State) (code cls f : Nat) (d : List (Nat × Nat × Nat)) : (s.event code cls f d).events =
    (s.events ++ [s.eventBytes code cls f d]).drop ((s.events ++ [s.eventBytes code cls f d]).length - 8192) := by
  rw [event_eq, (announced_keeps _ _).1, (kept_rest _ _ _).1, State.logged]

/-- An event keeps the bell number and the boot count. -/
theorem event_bell (s : State) (code cls f : Nat) (d : List (Nat × Nat × Nat)) :
    (s.event code cls f d).bell.now = s.bell.now ∧ (s.event code cls f d).bell.boot = s.bell.boot := by
  obtain ⟨-, hn, hb⟩ := announced_keeps (s.kept cls (s.eventBytes code cls f d)) cls
  rw [event_eq, hn, hb, (kept_rest _ _ _).2]
  exact ⟨rfl, rfl⟩

/-- The log after an event ends in its record. -/
theorem event_last (s : State) (code cls f : Nat) (d : List (Nat × Nat × Nat)) : ∃ l, (s.event code cls f d).events = l ++ [s.eventBytes code cls f d] := by
  rw [event_events, List.drop_append_of_le_length (by simp)]
  exact ⟨_, rfl⟩

theorem Raised.of_mem {code cls f : Nat} {d : List (Nat × Nat × Nat)} (h : s.eventBytes code cls f d ∈ t.events) (hn : t.bell.now = s.bell.now)
    (hb : t.bell.boot = s.bell.boot) : Raised t code cls f d := by
  refine ⟨s.eventSeq + 1, ?_⟩
  rw [hn, hb]
  exact h

theorem event_raised (s : State) (code cls f : Nat) (d : List (Nat × Nat × Nat)) : Raised (s.event code cls f d) code cls f d := by
  obtain ⟨l, hl⟩ := event_last s code cls f d
  obtain ⟨hn, hb⟩ := event_bell s code cls f d
  exact .of_mem (hl ▸ List.mem_append_right _ (List.mem_singleton_self _)) hn hb

/-- What an event raised stays raised where log, bell number and boot count stand. -/
theorem Raised.of_eq {code cls f : Nat} {d : List (Nat × Nat × Nat)} (h : Raised s code cls f d) (he : t.events = s.events)
    (hn : t.bell.now = s.bell.now) (hb : t.bell.boot = s.bell.boot) : Raised t code cls f d := by
  obtain ⟨n, h⟩ := h
  exact ⟨n, by rw [he, hn, hb]; exact h⟩

/-- The newest record of the log stands behind one event more. -/
theorem last_mem_event {l : List Bytes} {r : Bytes} (h : s.events = l ++ [r]) (code cls f : Nat) (d : List (Nat × Nat × Nat)) :
    r ∈ (s.event code cls f d).events := by
  rw [event_events, h, List.append_assoc, List.drop_append_of_le_length (by simp)]
  exact List.mem_append_right _ (by simp)

/-! ### Ports -/

theorem port_setPort_same (s : State) (p : PortId) (g : Port → Port) : (s.setPort p g).port p = g (s.port p) := by cases p <;> rfl

theorem onUp_of_up {p : PortId} (h : (s.port p).state = .up) (k : State → State) : s.onUp p k = go (k s) := by
  unfold State.onUp
  rw [if_pos h]

theorem event_port (s : State) (code cls f : Nat) (d : List (Nat × Nat × Nat)) (p : PortId) : (s.event code cls f d).port p = s.port p := by
  have e := event_mask (P := [.out, .rdma, .bell, .loft, .events, .eventSeq]) (List.Subset.refl _) (s := s) code cls f d
  cases p
  · exact (congrArg State.portA (eq_graft e) :)
  · exact (congrArg State.portB (eq_graft e) :)

/-- A port in its new state (R61). -/
def Port.moved (q : Port) (st : PortState) (ns : Nat) : Port :=
  { q with
    state := st
    leftUp := if st = .up then none else if q.state = .up then some ns else q.leftUp
    paused := if st = .up then q.paused else []
    xoff := if st = .up then q.xoff else [] }

/-- A port's move: the port in its new state, with what left UP loses, and then the event. -/
theorem movePort_eq {p : PortId} {st : PortState} {ns : Nat} (h : (s.port p).state ≠ st) : ∃ u : State, u.events = s.events ∧ u.bell = s.bell ∧
    u.port p = (s.port p).moved st ns ∧
    s.movePort p st ns = u.event 0x0010 1 0 [(32, 1, p.num), (33, 1, st.num), (34, 1, (s.port p).state.num)] := by
  unfold State.movePort
  dsimp only
  rw [if_neg h]
  unfold Port.moved
  refine ⟨_, ?_, ?_, ?_, rfl⟩
  all_goals
    split
    · cases p <;> rfl
    · cases p <;> rfl

/-- A port that moves stands in its new state, and the move is an event. -/
theorem movePort_state (s : State) (p : PortId) (st : PortState) (ns : Nat) : ((s.movePort p st ns).port p).state = st := by
  by_cases h : (s.port p).state = st
  · rw [State.movePort, if_pos h, h]
  · obtain ⟨u, -, -, hp, e⟩ := movePort_eq (ns := ns) h
    rw [e, event_port, hp]
    rfl

/-- The newest record of the log stands behind a port's move. -/
theorem movePort_last {l : List Bytes} {r : Bytes} (h : s.events = l ++ [r]) (p : PortId) (st : PortState) (ns : Nat) :
    r ∈ (s.movePort p st ns).events ∧ (s.movePort p st ns).bell.now = s.bell.now ∧ (s.movePort p st ns).bell.boot = s.bell.boot := by
  by_cases hs : (s.port p).state = st
  · rw [State.movePort, if_pos hs, h]
    exact ⟨by simp, rfl, rfl⟩
  · obtain ⟨u, he, hb, -, e⟩ := movePort_eq (ns := ns) hs
    rw [e, (event_bell u _ _ _ _).1, (event_bell u _ _ _ _).2, hb]
    exact ⟨last_mem_event (he.trans h) .., rfl, rfl⟩

/-! ### Frames -/

theorem mem_pausedBy {old : List Nat} {en : BitVec 8} {quanta : List (BitVec 16)} {k : Nat} (hk : k < 8) :
    k ∈ pausedBy old en quanta ↔ if en.getLsbD k = true then quanta.getD k 0 ≠ 0 else k ∈ old := by
  unfold pausedBy
  rw [List.mem_filter, List.mem_range]
  split <;> simp [hk]

theorem pfcWatchdog_down {p : PortId} {k : Nat} (hup : (s.port p).state = .up) (hk : k ∈ (s.port p).paused) :
    ∃ t, exec (.pfcWatchdog p k) s = .next t ∧ (t.port p).state = .down ∧ Raised t 0x0013 1 0 [(32, 1, p.num), (33, 1, k)] := by
  refine ⟨_, (onUp_of_up hup _).trans (congrArg go (if_pos (by simpa using hk))), movePort_state .., ?_⟩
  obtain ⟨l, hl⟩ := event_last s 0x0013 1 0 [(32, 1, p.num), (33, 1, k)]
  obtain ⟨hn, hb⟩ := event_bell s 0x0013 1 0 [(32, 1, p.num), (33, 1, k)]
  obtain ⟨hmem, hn', hb'⟩ := movePort_last hl p .down s.nowNs
  exact .of_mem hmem (hn'.trans hn) (hb'.trans hb)

/-- A frame of a VLAN the port does not serve is dropped (R63). -/
theorem frames_otherVlan {p : PortId} {vid : VlanTag} (hup : (s.port p).state = .up) (hv : s.vlanOk p vid = false) :
    (∀ a b, exec (.arpRequest p vid a b) s = .next (s.rxDropped p)) ∧ (∀ a b, exec (.neighborSolicitation p vid a b) s = .next (s.rxDropped p)) ∧
      ∀ v6 a b d, exec (.icmpEchoRequest p vid v6 a b d) s = .next (s.rxDropped p) := by
  refine ⟨fun a b => ?_, fun a b => ?_, fun v6 a b d => ?_⟩
  · change execArpRequest p vid a b s = _
    rw [execArpRequest, onUp_of_up hup, hv]
    rfl
  · change execNeighborSolicitation p vid a b s = _
    rw [execNeighborSolicitation, onUp_of_up hup, hv]
    rfl
  · change execIcmpEchoRequest p vid v6 a b d s = _
    rw [execIcmpEchoRequest, onUp_of_up hup, hv]
    rfl

theorem frames_served {p : PortId} {vid : VlanTag} (hup : (s.port p).state = .up) (hv : s.vlanOk p vid = true) :
    (∀ a b, exec (.arpRequest p vid a b) s = .next (if s.ownV4 p a = true then s.tell (.arpReply p a b) else s)) ∧
      (∀ a b, exec (.neighborSolicitation p vid a b) s = .next (if s.ownV6 p a = true then s.tell (.neighborAdv p a b) else s)) ∧
      ∀ v6 a b d, (if v6 = true then s.ownV6 p a else s.ownV4 p (a.setWidth 32)) = true →
        exec (.icmpEchoRequest p vid v6 a b d) s = .next (if (s.port p).echoes < 1000 then
          (s.setPort p fun q => { q with echoes := q.echoes + 1 }).tell (.echoReply p b d) else s) := by
  refine ⟨fun a b => ?_, fun a b => ?_, fun v6 a b d how => ?_⟩
  · change execArpRequest p vid a b s = _
    rw [execArpRequest, onUp_of_up hup, hv]
    rfl
  · change execNeighborSolicitation p vid a b s = _
    rw [execNeighborSolicitation, onUp_of_up hup, hv]
    rfl
  · change execIcmpEchoRequest p vid v6 a b d s = _
    rw [execIcmpEchoRequest, onUp_of_up hup, hv, how]
    simp only [Bool.true_and, decide_eq_true_eq]
    rfl

theorem frameDiscard_drops {p : PortId} {why : DropWhy} (hup : (s.port p).state = .up)
    (hw : why ∈ [DropWhy.serviceTag, .otherVlan, .ipv4Fragment, .ipv4Options, .ipv6Extension, .icrc]) :
    exec (.frameDiscard p why) s = .next (s.rxDropped p) := by
  change execFrameDiscard p why s = _
  rw [execFrameDiscard, onUp_of_up hup]
  simp only [List.mem_cons, List.not_mem_nil, or_false] at hw
  rcases hw with rfl | rfl | rfl | rfl | rfl | rfl <;> rfl

theorem frameDiscard_overMtu {p : PortId} {n : Nat} (hup : (s.port p).state = .up) (hn : s.mtu p < n) :
    exec (.frameDiscard p (.overMtu n)) s = .next (s.rxDropped p) := by
  change execFrameDiscard p (.overMtu n) s = _
  rw [execFrameDiscard, onUp_of_up hup]
  exact congrArg go (if_pos hn)

theorem nextHopResolution_learned {p : PortId} {a : W128} {m : BitVec 48} (hup : (s.port p).state = .up) (ha : a ∈ (s.port p).resolving) :
    exec (.nextHopResolution p a m) s = .next (s.setPort p fun q =>
      { q with resolving := q.resolving.erase a, nextHop := (a, m) :: q.nextHop.filter fun e => e.1 ≠ a }) := by
  change execNextHopResolution p a m s = _
  rw [execNextHopResolution, onUp_of_up hup, List.contains_iff_mem.mpr ha]
  rfl

theorem pfcFrame_pauses {p : PortId} (hup : (s.port p).state = .up) (en : BitVec 8) (quanta : List (BitVec 16)) :
    exec (.pfcFrame p en quanta) s = .next ((s.setPort p fun q => { q with paused := pausedBy (s.port p).paused en quanta }).unpause p) := by
  change execPfcFrame p en quanta s = _
  rw [execPfcFrame, onUp_of_up hup]
  cases p <;> rfl

theorem pauseFrame_drops {p : PortId} (hup : (s.port p).state = .up) : exec (.pauseFrame p) s = .next (s.rxDropped p) := by
  change execPauseFrame p s = _
  rw [execPauseFrame, onUp_of_up hup]

theorem frameDiscard_lldp {p : PortId} (hup : (s.port p).state = .up) : exec (.frameDiscard p .lldp) s = .next s := by
  change execFrameDiscard p .lldp s = _
  rw [execFrameDiscard, onUp_of_up hup]

/-- Settles O41: each frame's row on an UP port. -/
theorem frames : Obligations.Frames := by
  intro s p hup q dropped
  exact ⟨fun en quanta => ⟨pausedBy q.paused en quanta, pfcFrame_pauses hup en quanta, fun k hk => mem_pausedBy hk⟩,
    fun k hk => pfcWatchdog_down hup hk, pauseFrame_drops hup, fun vid hv => frames_otherVlan hup hv, fun vid hv => frames_served hup hv,
    fun why hw => frameDiscard_drops hup hw, fun n hn => frameDiscard_overMtu hup hn, frameDiscard_lldp hup,
    fun a m ha => nextHopResolution_learned hup ha⟩

end Sys2Proof.Machine
end

section
/-! Health (R502 to R506) and the power states (R530 to R535). -/

namespace Sys2Proof.Machine

variable {s t u : State} {P : List Part}

/-! ### Health -/

theorem health_of_mask (h : .health ∉ P) (e : t.mask P = s.mask P) : t.health = s.health :=
  (congrArg State.health (eq_graft e)).trans (if_neg h)

theorem pwr_of_mask (h : .pwr ∉ P) (e : t.mask P = s.mask P) : t.pwr = s.pwr :=
  (congrArg State.pwr (eq_graft e)).trans (if_neg h)

theorem event_health (s : State) (code cls f : Nat) (d : List (Nat × Nat × Nat)) : (s.event code cls f d).health = s.health :=
  health_of_mask (by decide) (event_mask (List.Subset.refl _) code cls f d)

theorem healthOf_eq {n m : Nat} (old : Nat) (attn : BitVec n) (why : BitVec m) :
    healthOf old attn.toNat why.toNat = if old = 2 ∨ why ≠ 0 then 2 else if attn ≠ 0 then 1 else 0 := by
  unfold healthOf
  simp only [Bool.or_eq_true, decide_eq_true_eq, ne_eq, toNat_eq_zero_iff]

/-- The evaluation's last act: an event where the condition holds. -/
def State.eventIf (s : State) (c : Bool) (code cls : Nat) (d : List (Nat × Nat × Nat)) : State := if c then s.event code cls 0 d else s

theorem eventIf_true (s : State) (code cls : Nat) (d : List (Nat × Nat × Nat)) : s.eventIf true code cls d = s.event code cls 0 d := rfl

theorem eventIf_health (s : State) (c : Bool) (code cls : Nat) (d : List (Nat × Nat × Nat)) : (s.eventIf c code cls d).health = s.health := by
  unfold State.eventIf
  split
  · exact event_health ..
  · rfl

theorem eventIf_bell (s : State) (c : Bool) (code cls : Nat) (d : List (Nat × Nat × Nat)) :
    (s.eventIf c code cls d).bell.now = s.bell.now ∧ (s.eventIf c code cls d).bell.boot = s.bell.boot := by
  unfold State.eventIf
  split
  · exact event_bell ..
  · exact ⟨rfl, rfl⟩

/-- What the newest event raised stays raised behind one event more. -/
theorem raised_eventIf {code cls f : Nat} {d : List (Nat × Nat × Nat)} (s : State) (c : Bool) (code' cls' : Nat) (d' : List (Nat × Nat × Nat)) :
    Raised ((s.event code cls f d).eventIf c code' cls' d') code cls f d := by
  obtain ⟨hn, hb⟩ := eventIf_bell (s.event code cls f d) c code' cls' d'
  obtain ⟨hn', hb'⟩ := event_bell s code cls f d
  refine .of_mem (s := s) ?_ (hn.trans hn') (hb.trans hb')
  obtain ⟨l, hl⟩ := event_last s code cls f d
  unfold State.eventIf
  split
  · exact last_mem_event hl ..
  · rw [hl]
    exact List.mem_append_right _ (List.mem_singleton_self _)

/-- The health record an evaluation leaves. -/
def State.judgedHealth (s : State) : Health :=
  let h := s.health
  let attn := BitVec.ofNat 32 s.attnNow
  let reasons := h.reasons ||| BitVec.ofNat 5 s.reasonsNow
  let st := healthOf h.state attn.toNat reasons.toNat
  { h with
    state := st, attn := attn, reasons := reasons, wards := h.wards ||| BitVec.ofNat 4 s.wardsNow, alert := h.alert || decide (st ≠ h.state) }

theorem evaluate_eq (s : State) : s.evaluate =
    (({ s with health := s.judgedHealth }.eventIf (decide (s.judgedHealth.state ≠ s.health.state)) 0x0001 1
        [(32, 1, s.judgedHealth.state), (33, 1, s.health.state), (36, 4, s.judgedHealth.attn.toNat), (40, 1, s.judgedHealth.reasons.toNat)]).eventIf
      (decide (s.judgedHealth.reasons ≠ s.health.reasons)) 0x0002 2 [(40, 1, s.judgedHealth.reasons.toNat), (44, 4, s.judgedHealth.wards.toNat)]) := by
  unfold State.evaluate State.eventIf State.judgedHealth
  dsimp only
  simp only [decide_not, Bool.not_eq_true', decide_eq_false_iff_not, ite_not]

/-- Settles O49: the state follows the conditions, and the two events stand behind each other. -/
theorem healthEvaluated : Obligations.HealthEvaluated := by
  intro s hready hon h attn why st
  have hst : s.judgedHealth.state = st := healthOf_eq _ _ _
  refine ⟨s.evaluate, ?_, ?_, ?_, ?_, ?_, ?_, ?_, ?_⟩
  · change execHealthEvaluation s = _
    rw [execHealthEvaluation, hready, hon]
    rfl
  all_goals rw [evaluate_eq, hst]
  · rw [eventIf_health, eventIf_health, hst]
  · rw [eventIf_health, eventIf_health]
    rfl
  · rw [eventIf_health, eventIf_health]
    rfl
  · rw [eventIf_health, eventIf_health, ← hst]
    rfl
  · rw [eventIf_health, eventIf_health]
    rfl
  · intro hne
    rw [decide_eq_true hne, eventIf_true]
    exact raised_eventIf _ _ _ _ _
  · intro hne
    rw [eventIf_health, eventIf_health, decide_eq_true (show s.judgedHealth.reasons ≠ s.health.reasons from hne), eventIf_true]
    exact event_raised _ _ _ _ _

/-! ### Power states -/

theorem lowEnergy_pwr (s : State) : s.lowEnergy.pwr = s.pwr := pwr_of_mask (by decide) (lowEnergy_mask (List.Subset.refl _))

theorem pwr_ended_foldl (l : List Ref) (s : State) : (l.foldl (fun s r => s.ended r 0) s).pwr = s.pwr :=
  pwr_of_mask (P := [.out, .rdma, .sqs, .cqs, .aborts, .zones]) (by decide) (mask_foldl (fun _ _ => ended_mask (List.Subset.refl _) _ _) _ _)

/-- Entering Q3 goes on, and the module still stands in its state, when the checkpoint of the entry is asked for. -/
theorem entryStep_pwr (s : State) : s.entryStep.pwr.entering = s.pwr.entering ∧ s.entryStep.pwr.cur = s.pwr.cur := by
  unfold State.entryStep
  split
  · rw [pwr_of_mask (t := State.ckptBegin _ 5) (P := [.media]) (by decide) (ckptBegin_mask (List.Subset.refl _) 5)]
    exact ⟨rfl, rfl⟩
  · exact ⟨rfl, rfl⟩

theorem wakeUp_pwr (h : s.pwr.cur ≠ 0) : s.wakeUp.pwr.waking = true ∧ s.wakeUp.pwr.entering = false ∧ s.wakeUp.pwr.cur = s.pwr.cur := by
  unfold State.wakeUp
  dsimp only
  rw [if_neg (by exact h)]
  exact ⟨rfl, rfl, rfl⟩

theorem idleHoldExpiry_deeper (hs : s.serving = true) (hw : s.pwr.waking = false) (hh : s.heldFor (s.pwr.cur + 1) = true)
    (ha : s.admits (s.pwr.cur + 1) = true) (hn : s.pwr.cur = 0 ∨ (s.pwr.cur = 1 ∧ s.q2Energy ≤ s.pwr.usable) ∨ s.pwr.cur = 3) :
    exec .idleHoldExpiry s = .next (s.setPwr fun p => { p with cur := s.pwr.cur + 1 }) := by
  change execIdleHoldExpiry s = _
  have hle : ¬s.pwr.cur + 1 > 4 := by omega
  have h3 : ¬s.pwr.cur + 1 = 3 := by omega
  have h2 : ¬(s.pwr.cur + 1 = 2 ∧ s.pwr.usable < s.q2Energy) := by omega
  simp only [execIdleHoldExpiry, hs, hw, hh, ha, hle, h3, Bool.and_eq_true, decide_eq_true_eq, h2, Bool.not_true, Bool.or_false, decide_false, if_false]
  rfl

theorem idleHoldExpiry_enters (hs : s.serving = true) (hw : s.pwr.waking = false) (hh : s.heldFor (s.pwr.cur + 1) = true)
    (ha : s.admits (s.pwr.cur + 1) = true) (hn : s.pwr.cur = 2) (he : s.pwr.entering = false) :
    ∃ t, exec .idleHoldExpiry s = .next t ∧ t.pwr.entering = true ∧ t.pwr.cur = 2 := by
  rw [hn] at hh ha
  refine ⟨(s.setPwr fun p => { p with entering := true, entryCkpt := none }).parkOpen.entryStep, ?_, ?_⟩
  · change execIdleHoldExpiry s = _
    simp only [execIdleHoldExpiry, hs, hw, hn, he, hh, ha]
    rfl
  · rw [(entryStep_pwr _).1, (entryStep_pwr _).2, pwr_of_mask (t := State.parkOpen _) (P := [.media]) (by decide) (parkOpen_mask (List.Subset.refl _))]
    exact ⟨rfl, hn⟩

theorem q3Entry_enters (hs : s.serving = true) (he : s.pwr.entering = true) {n : Nat} (hn : s.pwr.entryCkpt = some n) (hd : n ≤ s.media.ckptDone)
    (hc : s.media.ckpt = none) (hp : s.allParked = true) :
    exec .q3Entry s = .next (s.setPwr fun p => { p with entering := false, entryCkpt := none, cur := 3 }) := by
  change execQ3Entry s = _
  rw [execQ3Entry, hs, he, hn, hc, hp]
  simp only [decide_eq_true hd]
  rfl

theorem q3Entry_waits (hp : s.allParked = false) : exec .q3Entry s = .next s := by
  change execQ3Entry s = _
  rw [execQ3Entry, hp]
  simp only [Bool.and_false]
  rfl

theorem wake_wakes (hs : s.serving = true) {b : WakeBy} (hb : b = .unadmitted → s.admits s.pwr.cur = false) : exec (.wake b) s = .next s.wakeUp := by
  change execWake b s = _
  rw [execWake, hs]
  by_cases h : b = .unadmitted
  · rw [hb h]
    simp [go]
  · simp [h, go]

theorem internalWake_wakes (hs : s.serving = true) {b : DueWork} (hn : 2 ≤ s.pwr.cur) (hb : s.workDue b = true) :
    exec (.internalWake b) s = .next s.wakeUp := by
  change execInternalWake b s = _
  rw [execInternalWake, hs, hb, decide_eq_true hn]
  rfl

/-- The module woken, with its channels' eyes checked. -/
def State.woken (s : State) (eyes : List Nat) : State := (s.checkEyes eyes).setPwr fun p => { p with waking := false, cur := 0 }

theorem wakeComplete_stands (hs : s.serving = true) {eyes : List Nat} (hw : s.pwr.waking = true) (he : ∀ c ∈ eyes, chanOk c = true) :
    ∃ t, exec (.wakeComplete eyes) s = .next t ∧ t.pwr.cur = 0 ∧ t.pwr.waking = false := by
  refine ⟨(s.woken eyes).tolWaits.foldl (fun s r => s.ended r 0) (s.woken eyes), ?_, ?_⟩
  · change execWakeComplete eyes s = _
    rw [execWakeComplete, List.all_eq_true.mpr he, hs, hw]
    rfl
  · rw [pwr_ended_foldl]
    exact ⟨rfl, rfl⟩

theorem capacitanceMeasurement_begins (hs : s.serving = true) (e : Nat) (hm : s.pwr.measuring = false) (hd : s.capDue = true) :
    exec (.capacitanceMeasurement e) s = .next (s.setPwr fun p => { p with measuring := true, prevUsable := p.usable, usable := e }).lowEnergy := by
  change execCapacitanceMeasurement e s = _
  rw [execCapacitanceMeasurement, hs, hm, hd]
  rfl

theorem capacitanceMeasurement_ends (hs : s.serving = true) (e : Nat) (hm : s.pwr.measuring = true) : exec (.capacitanceMeasurement e) s =
    .next (s.setPwr fun p => { p with measuring := false, usable := e, capAt := some s.poweredNs }).lowEnergy := by
  change execCapacitanceMeasurement e s = _
  rw [execCapacitanceMeasurement, hs, hm]
  rfl

theorem capacitanceMeasurement_answers (hs : s.serving = true) (e : Nat) : ∃ t, exec (.capacitanceMeasurement e) s = .next t ∧
    (s.pwr.measuring = false → s.capDue = true → t.pwr.measuring = true ∧ t.pwr.prevUsable = s.pwr.usable ∧ t.pwr.usable = e) ∧
    (s.pwr.measuring = true → t.pwr.measuring = false ∧ t.pwr.usable = e ∧ t.pwr.capAt = some s.poweredNs) := by
  rcases hm : s.pwr.measuring
  · rcases hd : s.capDue
    · refine ⟨s, ?_, fun _ h => by simp at h, fun h => by simp at h⟩
      change execCapacitanceMeasurement e s = _
      rw [execCapacitanceMeasurement, hs, hm, hd]
      rfl
    · refine ⟨_, capacitanceMeasurement_begins hs e hm hd, fun _ _ => ?_, fun h => by simp at h⟩
      rw [lowEnergy_pwr]
      exact ⟨rfl, rfl, rfl⟩
  · refine ⟨_, capacitanceMeasurement_ends hs e hm, fun h => by simp at h, fun _ => ?_⟩
    rw [lowEnergy_pwr]
    exact ⟨rfl, rfl, rfl⟩

theorem heartbeat_beats (hs : s.serving = true) (hb : s.bell.now % 2 ^ 24 = 0) :
    ∃ t, exec .heartbeat s = .next t ∧ t.pwr.lastBeat = some s.calendar := by
  refine ⟨(s.setPwr fun p => { p with lastBeat := some s.calendar }).loftRecord 232 recHeartbeat (record 16 [(0, 8, s.calSecs), (8, 4, s.calSub)]),
    ?_, rfl⟩
  · change execHeartbeat s = _
    rw [execHeartbeat, hs, hb]
    rfl

/-- Settles O50: each row of the power states on a module that serves. -/
theorem powerStates : Obligations.PowerStates := by
  intro s hs n
  refine ⟨fun hw hh ha => ⟨idleHoldExpiry_deeper hs hw hh ha, idleHoldExpiry_enters hs hw hh ha⟩, fun he => ⟨fun k hk hd hc hp => ?_, q3Entry_waits⟩,
    fun b hb hn => ⟨_, wake_wakes hs hb, wakeUp_pwr hn⟩, fun b hn hb => ?_, fun eyes hw he => wakeComplete_stands hs hw he,
    capacitanceMeasurement_answers hs, heartbeat_beats hs⟩
  · exact ⟨_, q3Entry_enters hs he hk hd hc hp, rfl, rfl, rfl⟩
  · obtain ⟨hwake, -, hcur⟩ := wakeUp_pwr (s := s) (by omega)
    exact ⟨_, internalWake_wakes hs hn hb, hwake, hcur⟩

end Sys2Proof.Machine
end

section
/-! The SMBus target (R584, R585) and the TAP (R523, R547, R548). -/

namespace Sys2Proof.Machine

variable {s t u : State} {P : List Part}

/-! ### The SMBus -/

/-- Place `8 * i + j` of a row of words of 8 bytes is byte `j` of word `i`. -/
theorem getD_words (f : Nat → Bytes) (hf : ∀ i, (f i).length = 8) : ∀ (n i j : Nat), i < n → j < 8 →
    ((List.range n).flatMap f).getD (8 * i + j) 0 = (f i).getD j 0
  | n + 1, i, j, hi, hj => by
    have hlen : ((List.range n).flatMap f).length = 8 * n := by simp [List.length_flatMap, hf, Nat.mul_comm]
    rw [List.range_succ, List.flatMap_append]
    by_cases h : i < n
    · rw [List.getD_append _ _ _ _ (by omega), getD_words f hf n i j h hj]
    · rw [List.getD_append_right _ _ _ _ (by omega), hlen, show i = n by omega, Nat.add_sub_cancel_left]
      simp [List.flatMap]

/-- A word of a row of words reads back. -/
theorem le_words (f : Nat → W64) {n i : Nat} (hi : i < n) : le ((List.range n).flatMap fun i => toLe (f i).toNat 8) (8 * i) 8 = (f i).toNat := by
  rw [le_of_digits _ (f i).toNat 8 (8 * i) fun j hj => ?_]
  · exact Nat.mod_eq_of_lt (by have := (f i).isLt; omega)
  · rw [byteAt, getD_words (fun i => toLe (f i).toNat 8) (fun i => length_toLe _ _) n i j hi hj, toLe_eq_map]
    simp [List.getD_eq_getElem?_getD, hj]

theorem smbusSetOffset_sets (hs : s.smbServed = true) {b : Bytes} (hb : b.length = 3) : exec (.smbusSetOffset true b) s =
    .next (if le b 0 3 % 8 = 0 then { s with smbOff := le b 0 3 } else s.latch .smbus 6 (le b 0 3) 3) := by
  change execSmbusSetOffset true b s = _
  by_cases h : le b 0 3 % 8 = 0 <;> simp [execSmbusSetOffset, hs, hb, h, go]

theorem smbusRead_reads (hs : s.smbServed = true) : ∃ b, exec .smbusRead s = .next ({ s with smbOff := (s.smbOff + 32) % 2 ^ 24 }.tell (.smbData b)) ∧
    b.length = 32 ∧ ∀ i < 4, le b (8 * i) 8 = (s.smbusWord ((s.smbOff + 8 * i) % 2 ^ 24)).toNat := by
  refine ⟨(List.range 4).flatMap fun i => toLe (s.smbusWord ((s.smbOff + 8 * i) % 2 ^ 24)).toNat 8, ?_, ?_, fun i hi => ?_⟩
  · change execSmbusRead s = _
    rw [execSmbusRead, hs]
    rfl
  · simp [List.length_flatMap, length_toLe]
  · exact le_words (fun i => s.smbusWord ((s.smbOff + 8 * i) % 2 ^ 24)) hi

theorem smbusWrite_judged (hs : s.smbServed = true) {b : Bytes} (hb : b.length ≤ 32) :
    exec (.smbusWrite true b) s = .next (s.judgeMessage .smbus s.smbOff b) := by
  change execSmbusWrite true b s = _
  simp only [execSmbusWrite, State.message, hs, Bool.not_true, Bool.false_eq_true, Bool.false_or, decide_eq_true_eq, if_false, if_true,
    if_neg (Nat.not_lt.mpr hb)]

/-- A PEC that is wrong is refused (R584). -/
theorem smbus_nack (hs : s.smbServed = true) (b : Bytes) :
    exec (.smbusSetOffset false b) s = .next (s.tell .smbNack) ∧ exec (.smbusWrite false b) s = .next (s.tell .smbNack) := by
  refine ⟨?_, ?_⟩
  · change execSmbusSetOffset false b s = _
    rw [execSmbusSetOffset, hs]
    rfl
  · change execSmbusWrite false b s = _
    rw [execSmbusWrite, hs]
    rfl

theorem smbusAlertResponse_answers (hs : s.smbServed = true) (ha : s.health.alert = true) :
    exec .smbusAlertResponse s = .next (s.tell (.smbAlert 0xD4)) := by
  change execSmbusAlertResponse s = _
  rw [execSmbusAlertResponse, hs, ha]
  rfl

/-! ### The TAP -/

theorem tell_told (s : State) (m : Msg) : (s.tell m).told m = true := by
  simp [State.told, State.tell, State.sentAs]

theorem tapOut_live (h : s.tapLive = true) (ir : Byte) (b : Bytes) (k : State → State) :
    s.tapOut ir b k = (k { s with tap := { s.tap with ir := ir } }).tell (.tap b) := if_pos h

theorem tapOut_dead (h : s.tapLive = false) (ir : Byte) (b : Bytes) (k : State → State) : s.tapOut ir b k = s := if_neg (by simp [h])

theorem tapLive_of (hon : s.pwr.on = true) (hl : s.life.state = .factory ∨ s.life.state = .return_) : s.tapLive = true := by
  simpa [State.tapLive, hon] using hl

theorem tapIdcode_shifts (h : s.tapLive = true) : ∃ t v, exec .tapIdcode s = .next t ∧ t.tap.ir = 0x01 ∧ t.told (.tap (toLe v 4)) = true := by
  refine ⟨_, s.draw.1, ?_, ?_, tell_told { s.draw.2 with tap := { s.tap with ir := 0x01 } } _⟩
  · change execTapIdcode s = _
    rw [execTapIdcode, h]
    exact congrArg go (tapOut_live (s := s.draw.2) h ..)
  · rfl

/-- What a debug token leaves: maker debug open where its cause is 0, and its status (R548). -/
def State.tokenJudged (s : State) (cause : Nat) : State :=
  { s with
    life := { s.life with debugOpen := s.life.debugOpen || cause = 0 }
    tap := { s.tap with ir := 0x31, status := BitVec.ofNat 32 (cause + 256 * b01 (s.life.debugOpen || cause = 0)) } }

theorem tapDbgToken_shifts (h : s.tapLive = true) (b : Bytes) : exec (.tapDbgToken b) s = .next ((s.tokenJudged
    (if le b 0 4 > 8192 || b.length < le b 0 4 + 4 then 1 else s.tokenCause true (slice b 4 (le b 0 4)))).tell (.tap (toLe s.tap.status.toNat 4))) := by
  change execTapDbgToken b s = _
  rw [execTapDbgToken, tapOut_live h]
  rfl

theorem tapDbgToken_answers (h : s.tapLive = true) (b : Bytes) : let n := le b 0 4
    ∃ t, exec (.tapDbgToken b) s = .next t ∧ t.tap.ir = 0x31 ∧ t.told (.tap (toLe s.tap.status.toNat 4)) = true ∧
      (n ≤ 8192 → n + 4 ≤ b.length → s.tokenCause true (slice b 4 n) = 0 → t.life.debugOpen = true ∧ t.tap.status = 0x100) ∧
      (8192 < n → t.life.debugOpen = s.life.debugOpen) := by
  intro n
  refine ⟨_, tapDbgToken_shifts h b, rfl, tell_told _ _, fun hn hb hc => ?_, fun hn => ?_⟩
  · rw [if_neg (by simpa using And.intro hn hb), hc]
    refine ⟨?_, ?_⟩ <;> simp [State.tell, State.tokenJudged, b01]
  · rw [if_pos (by simp [show le b 0 4 > 8192 from hn])]
    simp [State.tell, State.tokenJudged]

theorem tap_dead (h : s.tapLive = false) (b i o : Bytes) : ∀ c ∈ [Instr.tapIdcode, .tapExtest o, .tapSamplePreload i o, .tapBypass, .tapDbgChal,
    .tapDbgToken b], exec c s = .next s := by
  simp only [List.mem_cons, List.not_mem_nil, or_false, forall_eq_or_imp, forall_eq]
  refine ⟨?_, congrArg go (tapOut_dead h ..), congrArg go (tapOut_dead h ..), congrArg go (tapOut_dead h ..), congrArg go (tapOut_dead h ..),
    congrArg go (tapOut_dead h ..)⟩
  change execTapIdcode s = _
  rw [execTapIdcode, h]
  rfl

/-- Settles O46: each row of the two service buses. -/
theorem serviceBuses : Obligations.ServiceBuses := by
  intro s
  refine ⟨fun hs => ⟨fun b hb => smbusSetOffset_sets hs hb, smbusRead_reads hs, fun b hb => ⟨fun hf => ?_, fun c hf => ?_⟩,
    fun b => smbus_nack hs b, fun ha => smbusAlertResponse_answers hs ha⟩, ?_, fun hl b i o => tap_dead ?_ b i o⟩
  · rw [smbusWrite_judged hs hb, State.judgeMessage, hf]
  · rw [smbusWrite_judged hs hb, State.judgeMessage, hf]
  · intro shifts hon hl
    have h := tapLive_of hon hl
    exact ⟨tapIdcode_shifts h, fun o => congrArg go (tapOut_live h ..), fun i o => congrArg go (tapOut_live h ..), congrArg go (tapOut_live h ..),
      congrArg go (tapOut_live h ..), fun b => tapDbgToken_answers h b⟩
  · rcases hl with hl | hl <;> simp [State.tapLive, hl]

end Sys2Proof.Machine
end

section
/-! Writes to the set-up window (R118, R120, R572 to R581). -/

namespace Sys2Proof.Machine

variable {s t u : State} {P : List Part} {f : Nat} {p : PortId}

/-! ### Bits of a word -/

theorem bit_toNat (v : W64) (k : Nat) : bit v.toNat k = v.getLsbD k := by
  unfold bit BitVec.getLsbD
  rw [Nat.testBit_eq_decide_div_mod_eq]

theorem wbits_eq_extract (v : W64) {hi lo : Nat} : wbits v hi lo = (v.extractLsb' lo (hi - lo + 1)).toNat := by
  simp [wbits, bits, Nat.shiftRight_eq_div_pow]

theorem and_eq_self {v m : W64} (h : ∀ i < 64, v.getLsbD i = true → m.getLsbD i = true) : v &&& m = v := by
  ext i hi
  have := h i hi
  rw [BitVec.getLsbD_eq_getElem hi] at this
  rw [BitVec.getElem_and]
  rw [BitVec.getLsbD_eq_getElem hi] at this
  cases hv : v[i]
  · rfl
  · rw [this hv]
    rfl

/-- Within a mask the merged word is the word written. -/
theorem merge_eq {cur v m : W64} (hc : cur &&& m = cur) (hv : v &&& m = v) :
    (cur &&& ~~~(m ||| 0 ||| 0)) ||| (v &&& (m ||| 0)) ||| (cur &&& 0 &&& ~~~v) = v := by
  rw [← hc]
  simp [BitVec.and_assoc, hv]

/-- A bit of the mask is written. -/
theorem getLsbD_merge {cur v m : W64} {i : Nat} (h : m.getLsbD i = true) :
    ((cur &&& ~~~(m ||| 0 ||| 0)) ||| (v &&& (m ||| 0)) ||| (cur &&& 0 &&& ~~~v)).getLsbD i = v.getLsbD i := by
  simp [h]

/-- A bit of the mask that differs is a touch. -/
theorem getLsbD_touch {cur v m : W64} {i : Nat} (h : m.getLsbD i = true) :
    (((v ^^^ cur) &&& m) ||| (v &&& 0)).getLsbD i = (v.getLsbD i ^^ cur.getLsbD i) := by
  simp [h]

/-- Words within a mask that differ in no bit of it are equal. -/
theorem eq_of_xor_and {a b m : W64} (ha : a &&& m = a) (hb : b &&& m = b) (h : (a ^^^ b) &&& m = 0) : a = b := by
  rw [← BitVec.xor_eq_zero_iff, ← ha, ← hb]
  refine Eq.trans ?_ h
  ext i
  simp only [BitVec.getElem_xor, BitVec.getElem_and]
  cases a[i] <;> cases b[i] <;> cases m[i] <;> rfl

/-! ### One word of a message -/

theorem le_toLe (v : W64) : le (toLe v.toNat 8) 0 8 = v.toNat := by
  rw [le_of_digits _ v.toNat 8 0 fun j hj => ?_]
  · exact Nat.mod_eq_of_lt (by have := v.isLt; omega)
  · rw [byteAt, toLe_eq_map]
    simp [List.getD_eq_getElem?_getD, hj]

theorem covered_word {o : Nat} {r : SetupReg} (hr : regAt o = some r) (v : W64) : covered o (toLe v.toNat 8) = [(r, v)] := by
  unfold covered
  rw [length_toLe]
  simp [hr, le_toLe]

/-- What a write of one word does to the register it falls on (R572, R575, R581). -/
def State.putWord (s : State) (r : SetupReg) (v : W64) : State :=
  if (s.touch r v).1 ≠ 0 ∨ (s.touch r v).2 ≠ 0 then s.putReg r (s.merged r v) v else s

/-- A register outside the semaphores, at a place of its own. -/
structure RegPlace (o : Nat) (r : SetupReg) : Prop where
  reg : regAt o = some r
  form : formOk o 8 = true
  sem : o < 0x240000 ∨ 0x242000 ≤ o

theorem message_manager (h : Manages s f p) {o : Nat} {b : Bytes} (hb : o + b.length ≤ 2 ^ 24) :
    s.message (.rdma f p) o b = s.judgeMessage (.rdma f p) o b := by
  obtain ⟨hf, hr, -⟩ := h
  have hm : isManager f = true := decide_eq_true hf
  simp only [State.message, hr, hm, Bool.not_true, Bool.false_eq_true, Bool.false_or, decide_eq_true_eq, if_false,
    if_neg (Nat.not_lt.mpr hb)]

theorem sem0_manager (h : Manages s f p) : s.sem0 (.rdma f p) = none := if_pos h.2.2

theorem touchesSem_false {o : Nat} (h : o < 0x240000 ∨ 0x242000 ≤ o) (v : W64) : s.touchesSem o (toLe v.toNat 8) = false := by
  unfold State.touchesSem
  rw [length_toLe]
  rcases h with h | h
  · simp [Nat.not_le.mpr h]
  · simp [Nat.not_lt.mpr h]

/-- The words of a message that touch their registers. -/
def State.touched (s : State) (o : Nat) (b : Bytes) : List (SetupReg × W64) :=
  (covered o b).filter fun e => let t := s.touch e.1 e.2; t.1 ≠ 0 || t.2 ≠ 0

theorem touched_word {o : Nat} {r : SetupReg} (hr : regAt o = some r) {v : W64} (ht : (s.touch r v).1 ≠ 0 ∨ (s.touch r v).2 ≠ 0) :
    s.touched o (toLe v.toNat 8) = [(r, v)] := by
  unfold State.touched
  rw [covered_word hr, List.filter_cons_of_pos (by simpa using ht), List.filter_nil]

theorem touched_nil {o : Nat} {r : SetupReg} (hr : regAt o = some r) {v : W64} (ht : ¬((s.touch r v).1 ≠ 0 ∨ (s.touch r v).2 ≠ 0)) :
    s.touched o (toLe v.toNat 8) = [] := by
  unfold State.touched
  rw [covered_word hr, List.filter_cons_of_neg (by simpa using ht), List.filter_nil]

theorem messageFails_eq (w : Writer) (o : Nat) (b : Bytes) : s.messageFails w o b =
    if !formOk o b.length then some 6
    else if w ≠ .smbus && s.touchesSem o b then some 5
    else match (if (s.touched o b).any fun e => (s.touch e.1 e.2).1 ≠ 0 then s.sem0 w else none) with
      | some c => some c
      | none =>
        if w = .smbus && (s.touched o b).any (fun e => !e.1.smbus) then some 7
        else ((s.touched o b).map fun e => (e.1, s.merged e.1 e.2)).findSome? fun e =>
          s.regCheck w ((s.touched o b).map fun e => (e.1, s.merged e.1 e.2)) e.1 e.2 := rfl

theorem applyMessage_eq (o : Nat) (b : Bytes) : s.applyMessage o b =
    ((((s.touched o b).map fun e => (e.1, s.merged e.1 e.2, e.2)).filter fun e => !e.1.isMove) ++
      ((s.touched o b).map fun e => (e.1, s.merged e.1 e.2, e.2)).filter fun e => e.1.isMove).foldl (fun s e => s.putReg e.1 e.2.1 e.2.2) s := rfl

theorem writeWord_puts (h : Manages s f p) {o : Nat} {r : SetupReg} (ho : RegPlace o r) {v : W64}
    (hc : (s.touch r v).1 ≠ 0 ∨ (s.touch r v).2 ≠ 0 → s.regCheck (.rdma f p) [(r, s.merged r v)] r (s.merged r v) = none) :
    s.writeWord (.rdma f p) o v = s.putWord r v := by
  have hlen : o + (toLe v.toNat 8).length ≤ 2 ^ 24 := by
    have := ho.form
    simp only [formOk, Bool.and_eq_true, decide_eq_true_eq] at this
    rw [length_toLe]
    omega
  unfold State.writeWord
  rw [message_manager h hlen, State.judgeMessage, messageFails_eq, applyMessage_eq, length_toLe, ho.form, touchesSem_false ho.sem, sem0_manager h,
    ite_self, State.putWord]
  by_cases ht : (s.touch r v).1 ≠ 0 ∨ (s.touch r v).2 ≠ 0
  · rw [if_pos ht, touched_word ho.reg ht]
    have hpass := hc ht
    cases hm : r.isMove <;> simp [hm, hpass]
  · rw [if_neg ht, touched_nil ho.reg ht]
    simp

/-! ### The registers a manager writes -/

theorem setupErrClear_clears (h : Manages s f p) : exec (.setupErrClear (.rdma f p)) s = .next { s with err := SetupErr.clear } := by
  change execSetupErrClear (.rdma f p) s = _
  have htouch : (s.touch .glbErr 1).2 ≠ 0 := show (1 : W64) &&& 1 ≠ 0 by decide
  rw [execSetupErrClear, writeWord_puts h (r := .glbErr) ⟨rfl, by decide, by decide⟩ fun _ => rfl, State.putWord, if_pos (.inr htouch)]
  rfl

/-- A write is what it puts, where a register left untouched holds that already. -/
theorem putWord_eq {r : SetupReg} {v : W64} (hput : s.putReg r (s.merged r v) v = t)
    (hself : (s.touch r v).1 = 0 → (s.touch r v).2 = 0 → t = s) : s.putWord r v = t := by
  unfold State.putWord
  split
  · exact hput
  · next h =>
    rw [not_or, not_not, not_not] at h
    exact (hself h.1 h.2).symm

/-- The bits of HLT_STATE that a write leaves, of every value and every word. -/
theorem hltState_bits : ∀ a on x y : Bool,
    let now := BitVec.ofNat 64 (4 * b01 x + 8 * b01 y)
    let w := BitVec.ofNat 64 (4 * b01 a + 8 * b01 on)
    bit ((now &&& ~~~(8 ||| 0 ||| 4)) ||| (w &&& (8 ||| 0)) ||| (now &&& 4 &&& ~~~w)).toNat 3 = on ∧ bit w.toNat 2 = a ∧
      ((((w ^^^ now) &&& 8) ||| (w &&& 0)) = 0 → w &&& 4 = 0 → (x && !a) = x ∧ on = y) := by
  decide

theorem putWord_hltState (s : State) (a on : Bool) : s.putWord .hltState (BitVec.ofNat 64 (4 * b01 a + 8 * b01 on)) =
    { s with health := { s.health with alert := s.health.alert && !a, locate := on } } := by
  have hput : ∀ v w, s.putReg .hltState v w =
    { s with health := { s.health with alert := s.health.alert && !bit w.toNat 2, locate := bit v.toNat 3 } } := fun _ _ => rfl
  obtain ⟨hon, ha, hself⟩ := hltState_bits a on s.health.alert s.health.locate
  refine putWord_eq ?_ fun h1 h2 => ?_
  · have hmerged : bit (s.merged .hltState (BitVec.ofNat 64 (4 * b01 a + 8 * b01 on))).toNat 3 = on := hon
    rw [hput, hmerged, ha]
  · rw [(hself h1 h2).1, (hself h1 h2).2]

theorem alertClear_clears (h : Manages s f p) :
    exec (.alertClear (.rdma f p)) s = .next { s with health := { s.health with alert := false } } := by
  change execAlertClear (.rdma f p) s = _
  rw [execAlertClear, writeWord_puts h (r := .hltState) ⟨rfl, by decide, by decide⟩ fun _ => rfl]
  refine congrArg go ((putWord_hltState s true s.health.locate).trans ?_)
  rw [Bool.not_true, Bool.and_false]

theorem locate_sets (h : Manages s f p) (on : Bool) :
    exec (.locate (.rdma f p) on) s = .next { s with health := { s.health with locate := on } } := by
  change execLocate (.rdma f p) on s = _
  have hword : 8 * b01 on = 4 * b01 false + 8 * b01 on := (Nat.zero_add _).symm
  rw [execLocate, writeWord_puts h (r := .hltState) ⟨rfl, by decide, by decide⟩ fun _ => rfl, hword, putWord_hltState, Bool.not_false, Bool.and_true]

theorem scrubCtrl_bits : ∀ x : Bool,
    let now := BitVec.ofNat 64 (4 * b01 x)
    bit ((now &&& ~~~(0 ||| 1 ||| 4)) ||| (1 &&& (0 ||| 1)) ||| (now &&& 4 &&& ~~~1)).toNat 0 = true := by
  decide

theorem scrubGo_starts (h : Manages s f p) (hb : s.edc.busy = false) (ho : scrubOk s.edc.start s.edc.end_ = true) :
    exec (.scrubGo (.rdma f p)) s = .next { s with edc := { s.edc with busy := true } } := by
  change execScrubGo (.rdma f p) s = _
  have htouch : (s.touch .scrubCtrl 1).1 ≠ 0 := by
    show ((1 : W64) ^^^ _) &&& 0 ||| 1 &&& 1 ≠ 0
    simp
  have hcheck : s.regCheck (.rdma f p) [(.scrubCtrl, s.merged .scrubCtrl 1)] .scrubCtrl (s.merged .scrubCtrl 1) = none := by
    have hstart : (show Staged from [(.scrubCtrl, s.merged .scrubCtrl 1)]).val s .scrubStart = s.edc.start := rfl
    have hend : (show Staged from [(.scrubCtrl, s.merged .scrubCtrl 1)]).val s .scrubEnd = s.edc.end_ := rfl
    have hbit : bit (s.merged .scrubCtrl 1).toNat 0 = true := scrubCtrl_bits s.edc.fin
    unfold State.regCheck
    dsimp only
    rw [hbit, hb, hstart, hend, ho]
    rfl
  rw [execScrubGo, writeWord_puts h (r := .scrubCtrl) ⟨rfl, by decide, by decide⟩ fun _ => hcheck, State.putWord, if_pos (.inl htouch)]
  change go { s with edc := { s.edc with busy := s.edc.busy || true, fin := s.edc.fin && true } } = _
  rw [Bool.or_true, Bool.and_true]

/-! ### The sieve's owner and mode -/

theorem b01_le (b : Bool) : b01 b ≤ 1 := by cases b <;> decide

/-- The word of SVE_CTRL for a mode and an owner. -/
def sveWord (m : Bool) (o : Nat) : W64 := BitVec.ofNat 64 (b01 m + o * 2 ^ 16)

theorem sveWord_toNat {m : Bool} {o : Nat} (ho : o < 4096) : (sveWord m o).toNat = b01 m + o * 2 ^ 16 := by
  unfold sveWord
  rw [BitVec.toNat_ofNat]
  have := b01_le m
  exact Nat.mod_eq_of_lt (by omega)

theorem sveWord_getLsbD {m : Bool} {o : Nat} (ho : o < 4096) {i : Nat} (hi : (sveWord m o).getLsbD i = true) : i = 0 ∨ 16 ≤ i ∧ i < 28 := by
  have hb : b01 m < 2 ^ 16 := by have := b01_le m; omega
  rw [BitVec.getLsbD, sveWord_toNat ho, Nat.add_comm, Nat.mul_comm, Nat.testBit_two_pow_mul_add _ hb] at hi
  split at hi
  · left
    cases m
    · simp [b01] at hi
    · exact (Nat.testBit_one_eq_true_iff_self_eq_zero).mp hi
  · right
    refine ⟨by omega, ?_⟩
    by_contra hge
    rw [Nat.testBit_eq_false_of_lt (lt_of_lt_of_le ho (show 4096 ≤ 2 ^ (i - 16) from Nat.pow_le_pow_right (n := 2) (by decide) (show 12 ≤ i - 16 by omega)))] at hi
    exact absurd hi (by decide)

theorem sveWord_and {m : Bool} {o : Nat} (ho : o < 4096) : sveWord m o &&& (1 ||| ones64 27 16) = sveWord m o := by
  refine and_eq_self fun i _ hi => ?_
  rcases sveWord_getLsbD ho hi with rfl | ⟨h1, h2⟩
  · decide
  · interval_cases i <;> decide

theorem sveWord_mode {m : Bool} {o : Nat} (ho : o < 4096) : bit (sveWord m o).toNat 0 = m := by
  rw [sveWord_toNat ho, bit]
  cases m <;> simp [b01] <;> omega

theorem sveWord_owner {m : Bool} {o : Nat} (ho : o < 4096) : wbits (sveWord m o) 27 16 = o := by
  have := b01_le m
  rw [wbits, sveWord_toNat ho, bits]
  omega

/-- A write of SVE_CTRL that passes its check sets mode and owner. -/
theorem writeWord_sve (h : Manages s f p) {m : Bool} {o : Nat} (ho : o < 4096) (hs : s.sieve.owner < 4096)
    (hc : sveCheck s (sveWord m o) = none) :
    s.writeWord (.rdma f p) 0x2F0000 (sveWord m o) = { s with sieve := { s.sieve with mode := m, owner := o } } := by
  have hmerged : s.merged .sveCtrl (sveWord m o) = sveWord m o := merge_eq (sveWord_and hs) (sveWord_and ho)
  rw [writeWord_puts h (r := .sveCtrl) ⟨rfl, by decide, by decide⟩ fun _ => by rw [hmerged]; exact hc]
  refine putWord_eq ?_ fun h1 _ => ?_
  · rw [hmerged]
    change { s with sieve := { s.sieve with mode := bit (sveWord m o).toNat 0, owner := wbits (sveWord m o) 27 16 } } = _
    rw [sveWord_mode ho, sveWord_owner ho]
  · have hsame : sveWord m o = sveWord s.sieve.mode s.sieve.owner :=
      eq_of_xor_and (sveWord_and ho) (sveWord_and hs) (by
        have : ((sveWord m o ^^^ sveWord s.sieve.mode s.sieve.owner) &&& (1 ||| ones64 27 16)) ||| (sveWord m o &&& 0) = 0 := h1
        simpa using this)
    have hm : m = s.sieve.mode := by rw [← sveWord_mode (m := m) ho, hsame, sveWord_mode hs]
    have hown : o = s.sieve.owner := by rw [← sveWord_owner (m := m) ho, hsame, sveWord_owner hs]
    rw [hm, hown]

theorem sveModeWrite_sets (h : Manages s f p) (m : Bool) (h1 : s.sieve.owner ≠ 1) (hs : s.sieve.owner < 4096)
    (hf : ∀ e ∈ s.fns, e.2.res.sieve = 0) (ha : ∀ e ∈ s.sieve.arr, e.2.valid = false) :
    exec (.sveModeWrite (.rdma f p) m) s = .next { s with sieve := { s.sieve with mode := m } } := by
  change execSveModeWrite (.rdma f p) m s = _
  have hc : sveCheck s (sveWord m s.sieve.owner) = none := by
    simp only [sveCheck, sveWord_mode hs, sveWord_owner hs, if_neg h1]
    simp
    exact fun _ => ⟨fun a g hg => hf (a, g) hg, fun _ a e he => ha (a, e) he⟩
  rw [execSveModeWrite]
  exact congrArg go (writeWord_sve h hs hs hc)

theorem sveOwnerWrite_sets (h : Manages s f p) {o : Nat} (h1 : o ≠ 1) (ho : o < 4096) (hs : s.sieve.owner < 4096)
    (hw : s.sieve.owner = 0 ∨ (s.fn s.sieve.owner).state = .quiesced) (hn : o = 0 ∨ (s.fn o).state ≠ .absent) :
    exec (.sveOwnerWrite (.rdma f p) o) s = .next { s with sieve := { s.sieve with owner := o } } := by
  change execSveOwnerWrite (.rdma f p) o s = _
  have hc : sveCheck s (sveWord s.sieve.mode o) = none := by
    simp [sveCheck, sveWord_mode ho, sveWord_owner ho, h1]
    exact fun _ => ⟨hw.resolve_left, hn.resolve_left⟩
  rw [execSveOwnerWrite, Nat.mod_eq_of_lt ho]
  exact congrArg go (writeWord_sve h ho hs hc)

/-! ### The trace of the dispatcher -/

/-- What a write of TRC_DISP_CTRL leaves in the bits of its mask. -/
theorem getLsbD_merged_trc {v : W64} {i : Nat} (h : ((1 : W64) ||| ones64 12 8 ||| ones64 44 16).getLsbD i = true) :
    (s.merged .trcCtrl v).getLsbD i = v.getLsbD i :=
  getLsbD_merge h

theorem merged_trc_bit (v : W64) : bit (s.merged .trcCtrl v).toNat 0 = bit v.toNat 0 := by
  rw [bit_toNat, bit_toNat, getLsbD_merged_trc (by decide)]

theorem merged_trc_size (v : W64) : wbits (s.merged .trcCtrl v) 12 8 = wbits v 12 8 := by
  rw [wbits_eq_extract, wbits_eq_extract]
  refine congrArg BitVec.toNat (BitVec.eq_of_getLsbD_eq fun i hi => ?_)
  rw [BitVec.getLsbD_extractLsb', BitVec.getLsbD_extractLsb', getLsbD_merged_trc (by interval_cases i <;> decide)]

theorem trcDispCtrlWrite_starts (h : Manages s f p) {v : W64} (hv : bit v.toNat 0 = true) (h16 : 16 ≤ bits v.toNat 12 8)
    (h24 : bits v.toNat 12 8 ≤ 24) (he : s.disp.en = false) (hfree : 16 * 2 ^ bits v.toNat 12 8 ≤ s.plainFree) :
    ∃ t, exec (.trcDispCtrlWrite (.rdma f p) v) s = .next t ∧ t.disp.en = true ∧ t.disp.sizeLog = bits v.toNat 12 8 ∧ t.disp.recs = [] ∧
      t.disp.cnt = 0 := by
  have htouch : (s.touch .trcCtrl v).1 ≠ 0 := by
    intro hz
    have hbit : (s.touch .trcCtrl v).1.getLsbD 0 = (v.getLsbD 0 ^^ s.disp.ctrl.getLsbD 0) := 
      getLsbD_touch (show ((1 : W64) ||| ones64 12 8 ||| ones64 44 16).getLsbD 0 = true by decide)
    have hctrl : s.disp.ctrl.getLsbD 0 = false := (bit_toNat _ _).symm.trans he
    have hset : v.getLsbD 0 = true := (bit_toNat v 0).symm.trans hv
    rw [hz, hset, hctrl] at hbit
    exact absurd hbit (by decide)
  have hcheck : trcCheck s (s.merged .trcCtrl v) = none := by
    unfold trcCheck
    rw [merged_trc_size, merged_trc_bit, hv, he]
    have hsize : wbits v 12 8 = bits v.toNat 12 8 := rfl
    rw [hsize]
    simp [Nat.not_lt.mpr h16, Nat.not_lt.mpr h24, Nat.not_lt.mpr hfree]
  refine ⟨s.putTrc (s.merged .trcCtrl v), ?_, (merged_trc_bit v).trans hv, merged_trc_size v, ?_, ?_⟩
  · change execTrcDispCtrlWrite (.rdma f p) v s = _
    rw [execTrcDispCtrlWrite, writeWord_puts h (r := .trcCtrl) ⟨rfl, by decide, by decide⟩ fun _ => hcheck, State.putWord, if_pos (.inl htouch)]
    rfl
  all_goals
    unfold State.putTrc
    rw [merged_trc_bit, hv, he]
    rfl

/-! ### The scrubber's end and the admin rings -/

theorem rank_setRank_same (s : State) (n : Nat) (g : Rank → Rank) : (s.setRank n g).rank n = g (s.rank n) :=
  lookD_putD_same s.dram.ranks (Rank.fresh n) n _

theorem scrubComplete_ends (x : ScrubSum) (hb : s.edc.busy = true) : ∃ t, exec (.scrubComplete x) s = .next t ∧ t.edc.busy = false ∧
    t.edc.fin = true ∧ t.edc.sum.length = 4 ∧ t.edc.sum.getD 3 0 = BitVec.ofNat 64 s.bell.now ∧
    (wbits s.edc.start 47 44 = 0 → let n := wbits s.edc.start 43 40 * 3 + wbits s.edc.start 35 34
      (t.rank n).ce = min ((s.rank n).ce + x.ce1) (2 ^ 32 - 1)) := by
  change ∃ t, execScrubComplete x s = .next t ∧ _
  unfold execScrubComplete
  rw [hb]
  refine ⟨_, rfl, rfl, rfl, rfl, rfl, fun hw => ?_⟩
  intro n
  have hce : ∀ (u : State) (e : Edc), ({ u with edc := e } : State).rank n = u.rank n := fun _ _ => rfl
  rw [hce, if_pos hw]
  exact (congrArg Rank.ce (rank_setRank_same s n fun k => { k with ce := satAdd 32 k.ce x.ce1 }) :)

theorem setupWrite_judged (h : Manages s f p) {off : Nat} {b : Bytes} (hb : off + b.length ≤ 2 ^ 24) :
    exec (.setupWrite (.rdma f p) off b) s = .next (s.judgeMessage (.rdma f p) off b) :=
  congrArg go (message_manager h hb)

/-- What a failed message leaves latched (R575). -/
theorem latch_err (s : State) (c off n : Nat) : ∃ x, s.latch (.rdma f p) c off n = { s with err := x } ∧
    (s.err.err = false → x = ⟨true, c, false, p, f, 1, off, n⟩) ∧
    (s.err.err = true → x = { s.err with count := min (s.err.count + 1) (2 ^ 32 - 1) }) := by
  unfold State.latch
  rcases he : s.err.err
  · exact ⟨_, rfl, fun _ => rfl, fun h => by simp at h⟩
  · exact ⟨_, rfl, fun h => by simp at h, fun _ => rfl⟩

theorem entry_of_lt {f : Nat} (h : f < 2) : adminEntry f = some (f, false) := if_pos h

/-- The place of the first word of an admin ring's entry. -/
theorem regPlace_ring {f : Nat} (h : f < 2) : RegPlace (0x140000 + 32 * f) (.ring f 0) := by
  obtain rfl | rfl : f = 0 ∨ f = 1 := by omega
  · exact ⟨rfl, by decide, by decide⟩
  · exact ⟨rfl, by decide, by decide⟩

theorem page_and {v : W64} (h : v.toNat % 4096 = 0) : v &&& ones64 63 12 = v := by
  refine and_eq_self fun i hi hv => ?_
  have hlow : ¬i < 12 := fun hlt => by
    have : v.toNat.testBit i = (v.toNat % 2 ^ 12).testBit i := by rw [Nat.testBit_mod_two_pow]; simp [hlt]
    rw [show v.toNat % 2 ^ 12 = 0 from h, Nat.zero_testBit] at this
    rw [BitVec.getLsbD, this] at hv
    exact absurd hv (by decide)
  interval_cases i <;> simp at hlow ⊢ <;> decide

theorem adminRingWrite_sets (h : Manages s f p) {q : Sq} {v : W64} (hq : s.sq f 0 = some q) (hcmds : q.cmds = []) (hb : q.base.toNat % 4096 = 0)
    (hv : v.toNat % 4096 = 0) : ∃ t q', exec (.adminRingWrite (.rdma f p) f (toLe v.toNat 8)) s = .next t ∧ t.sq f 0 = some q' ∧ q'.base = v ∧
      (v ≠ q.base → f ∈ t.net.adminDue) := by
  obtain ⟨hf, -⟩ := id h
  have hnow : s.regNow (.ring f 0) = q.base := by
    unfold State.regNow
    dsimp only
    rw [entry_of_lt hf]
    dsimp only
    rw [hq]
    rfl
  have hmask : s.masks (.ring f 0) = (ones64 63 12, 0, 0) := by
    unfold State.masks ringRw
    dsimp only
    rw [entry_of_lt hf]
    rfl
  have hmerged : s.merged (.ring f 0) v = v := by
    unfold State.merged
    rw [hnow, hmask]
    exact merge_eq (page_and hb) (page_and hv)
  have hcheck : s.regCheck (.rdma f p) [(.ring f 0, s.merged (.ring f 0) v)] (.ring f 0) (s.merged (.ring f 0) v) = none := by
    unfold State.regCheck
    dsimp only
    rw [entry_of_lt hf]
    dsimp only
    rw [hq]
    simp [hcmds]
  have hrun : exec (.adminRingWrite (.rdma f p) f (toLe v.toNat 8)) s = .next (s.putWord (.ring f 0) v) :=
    congrArg go (writeWord_puts h (regPlace_ring hf) fun _ => hcheck)
  refine ⟨s.putWord (.ring f 0) v, ?_⟩
  by_cases hsame : v = q.base
  · have hself : s.putWord (.ring f 0) v = s := by
      unfold State.putWord State.touch
      rw [hnow, hmask, hsame]
      simp
    refine ⟨q, hrun, ?_, hsame.symm, fun hne => absurd hsame hne⟩
    rw [hself]
    exact hq
  · have htouch : (s.touch (.ring f 0) v).1 ≠ 0 := by
      unfold State.touch
      rw [hnow, hmask]
      intro hz
      exact hsame (eq_of_xor_and (page_and hv) (page_and hb) (by simpa using hz))
    have hput : s.putWord (.ring f 0) v = s.putRing f 0 v := by
      rw [State.putWord, if_pos (.inl htouch), hmerged]
      rfl
    refine ⟨{ q with activeFrom := s.bell.now + 1, base := v }, hrun, ?_, rfl, fun _ => ?_⟩
    · rw [hput]
      unfold State.putRing
      rw [entry_of_lt hf]
      refine (look_adj_same _ _ _).trans ?_
      exact (congrArg (Option.map _) hq).trans rfl
    · rw [hput]
      unfold State.putRing
      rw [entry_of_lt hf]
      show f ∈ if s.net.adminDue.contains f then s.net.adminDue else s.net.adminDue ++ [f]
      split
      · next hc => exact List.contains_iff_mem.mp hc
      · simp

/-- Settles O45: what a message of a manager does at each register. -/
theorem setupWrites : Obligations.SetupWrites := by
  intro s f p h w
  refine ⟨fun off b hb => ⟨fun hf => ?_, fun c hf => ?_⟩, setupErrClear_clears h, fun m h1 hs hf ha => sveModeWrite_sets h m h1 hs hf ha,
    fun o h1 ho hs hw hn => sveOwnerWrite_sets h h1 ho hs hw hn, fun v => ?_, fun hb ho => scrubGo_starts h hb ho, fun x hb => scrubComplete_ends x hb,
    alertClear_clears h, locate_sets h, fun q v hq hcmds hb hv => adminRingWrite_sets h hq hcmds hb hv⟩
  · rw [setupWrite_judged h hb, State.judgeMessage, hf]
  · obtain ⟨x, hx, hfirst, hlater⟩ := latch_err (f := f) (p := p) s c off b.length
    refine ⟨x, ?_, hfirst, hlater⟩
    rw [setupWrite_judged h hb, State.judgeMessage, hf, ← hx]
  · intro n hbit h16 h24 he hfree
    exact trcDispCtrlWrite_starts h hbit h16 h24 he hfree

end Sys2Proof.Machine
end

section
/-! The bell number and the log through what ends service (R318, R320); temperatures and contacts (R508, R600). -/

namespace Sys2Proof.Machine

variable {s t u : State} {P : List Part}

/-! ### The time of an event -/

/-- The bell number and the boot count, which stand in an event's record, and the period the calendar runs by. -/
def State.when (s : State) : Nat × Nat × Nat := (s.bell.now, s.bell.boot, s.bell.active)

theorem when_of_mask (h : .bell ∉ P) (e : t.mask P = s.mask P) : t.when = s.when :=
  congrArg (fun b : Bell => (b.now, b.boot, b.active)) (bell_of_mask h e)

theorem announced_active (s : State) (cls : Nat) : (s.announced cls).bell.active = s.bell.active := by
  unfold State.announced
  split
  · rfl
  · split
    · rw [notify_bell, notify_bell]
    · rfl

theorem event_active (s : State) (code cls f : Nat) (d : List (Nat × Nat × Nat)) : (s.event code cls f d).bell.active = s.bell.active := by
  rw [event_eq, announced_active, (kept_rest _ _ _).2]

theorem event_when (s : State) (code cls f : Nat) (d : List (Nat × Nat × Nat)) : (s.event code cls f d).when = s.when :=
  Prod.ext (event_bell s code cls f d).1 (Prod.ext (event_bell s code cls f d).2 (event_active s code cls f d))

theorem resumeIfIdle_when (s : State) (d : DieId) : (s.resumeIfIdle d).when = s.when := by
  unfold State.resumeIfIdle
  split
  · rfl
  · split
    · split <;> rfl
    · rfl

theorem dropSlices_when (s : State) (p : Slice → Bool) : (s.dropSlices p).when = s.when := by
  unfold State.dropSlices
  exact (foldl_same State.when resumeIfIdle_when _ _).trans rfl

theorem dropReads_when (s : State) (p : SliceFor → Bool) : (s.dropReads p).when = s.when := by
  unfold State.dropReads
  exact (dropSlices_when _ _).trans rfl

theorem dropJobReads_when (s : State) (j : Nat) : (s.dropJobReads j).when = s.when := by
  unfold State.dropJobReads
  dsimp only
  split
  · rfl
  · exact dropReads_when _ _

theorem trace_when (s : State) (e h c : Nat) (i : Option Item) : (s.trace e h c i 0 0).when = s.when :=
  when_of_mask (P := [.disp]) (by decide) (trace_mask (List.Subset.refl _) e h c i 0 0)

theorem dropItems_when (s : State) (j : Nat) : (s.dropItems j).when = s.when := by
  have hready : ∀ (x : State) (e : Nat × Hamlet),
      ((e.2.ready.filter fun x => x.1 = j).foldl (fun s x => s.trace 7 e.1 0 (some x.2) 0 0) x).when = x.when :=
    fun x e => foldl_same State.when (fun _ _ => trace_when _ _ _ _ _) _ _
  unfold State.dropItems
  refine (foldl_same State.when (fun x e => ?_) _ _).trans ((foldl_same State.when hready _ _).trans ((dropJobReads_when _ _).trans ?_))
  · refine (foldl_same State.when (fun _ _ => trace_when _ _ _ _ _) _ _).trans ?_
    split
    · split
      · exact trace_when _ _ _ _ _
      · rfl
    · rfl
  · exact when_of_mask (P := [.ledger, .fns, .zones, .units, .media, .staged, .dram, .health]) (by decide) (acceptAppends_mask (List.Subset.refl _) j)

theorem dropScans_when (s : State) (j : Nat) : (s.dropScans j).when = s.when :=
  (show _ = (s.dropReads (scanOf j)).when from rfl).trans (dropReads_when s (scanOf j))

theorem removeJob_when (s : State) (j : Nat) : (s.removeJob j).when = s.when := by
  have h : ((s.dropItems j).dropScans j).when = s.when := (dropScans_when _ j).trans (dropItems_when s j)
  unfold State.removeJob
  generalize (s.dropItems j).dropScans j = u at h ⊢
  exact h

theorem dropJobs_when (s : State) : s.dropJobs.when = s.when := foldl_same State.when removeJob_when _ _

theorem movePort_when (s : State) (p : PortId) (st : PortState) (ns : Nat) : (s.movePort p st ns).when = s.when := by
  by_cases h : (s.port p).state = st
  · rw [State.movePort, if_pos h]
  · obtain ⟨u, -, hb, -, e⟩ := movePort_eq (ns := ns) h
    rw [e, event_when]
    exact congrArg (fun b : Bell => (b.now, b.boot, b.active)) hb

/-! ### A record among the newest of the log -/

/-- A record stands in the log with at most so many behind it. -/
def State.Logs (s : State) (n : Nat) (r : Bytes) : Prop := ∃ a b, s.events = a ++ r :: b ∧ b.length ≤ n

theorem State.Logs.mem {n : Nat} {r : Bytes} (h : s.Logs n r) : r ∈ s.events := by
  obtain ⟨a, b, e, -⟩ := h
  rw [e]
  exact List.mem_append_right _ (List.mem_cons_self ..)

theorem State.Logs.of_eq {n : Nat} {r : Bytes} (h : s.Logs n r) (e : t.events = s.events) : t.Logs n r := by
  obtain ⟨a, b, h, hn⟩ := h
  exact ⟨a, b, e.trans h, hn⟩

theorem State.Logs.mono {n m : Nat} {r : Bytes} (h : s.Logs n r) (hm : n ≤ m) : s.Logs m r := by
  obtain ⟨a, b, h, hn⟩ := h
  exact ⟨a, b, h, hn.trans hm⟩

theorem event_logs (s : State) (code cls f : Nat) (d : List (Nat × Nat × Nat)) : (s.event code cls f d).Logs 0 (s.eventBytes code cls f d) := by
  obtain ⟨l, h⟩ := event_last s code cls f d
  exact ⟨l, [], h, Nat.le_refl _⟩

theorem State.Logs.event {n : Nat} {r : Bytes} (h : s.Logs n r) (hn : n < 8000) (code cls f : Nat) (d : List (Nat × Nat × Nat)) :
    (s.event code cls f d).Logs (n + 1) r := by
  obtain ⟨a, b, h, hb⟩ := h
  refine ⟨a.drop ((s.events ++ [s.eventBytes code cls f d]).length - 8192), b ++ [s.eventBytes code cls f d], ?_, by simpa using hb⟩
  rw [event_events, h, List.append_assoc, List.drop_append_of_le_length (by simp; omega)]
  rfl

theorem State.Logs.movePort {n : Nat} {r : Bytes} (h : s.Logs n r) (hn : n < 8000) (p : PortId) (st : PortState) (ns : Nat) :
    (s.movePort p st ns).Logs (n + 1) r := by
  by_cases hs : (s.port p).state = st
  · rw [State.movePort, if_pos hs]
    exact h.mono (by omega)
  · obtain ⟨u, he, -, -, e⟩ := movePort_eq (ns := ns) hs
    rw [e]
    exact (h.of_eq he).event hn ..

theorem State.Logs.raised {n code cls f : Nat} {d : List (Nat × Nat × Nat)} (h : t.Logs n (s.eventBytes code cls f d)) (hw : t.when = s.when) :
    Raised t code cls f d :=
  .of_mem h.mem (congrArg (fun x : Nat × Nat × Nat => x.1) hw) (congrArg (fun x : Nat × Nat × Nat => x.2.1) hw)

/-! ### Service stops -/

/-- The state with its jobs, erases and reads gone, and its ports OFF. -/
def State.halted (s : State) : State :=
  (((s.dropJobs.abortErases).movePort .A .off s.nowNs).movePort .B .off s.nowNs).dropReads fun _ => true

theorem halted_when (s : State) : s.halted.when = s.when :=
  (dropReads_when _ _).trans ((movePort_when _ _ _ _).trans ((movePort_when _ _ _ _).trans
    ((when_of_mask (P := [.free, .loft]) (by decide) (abortErases_mask (List.Subset.refl _))).trans (dropJobs_when s))))

/-- What service takes with it when it stops keeps its newest records, and two moves of ports may be behind them. -/
theorem State.Logs.halted {n : Nat} {r : Bytes} (h : s.Logs n r) (hn : n < 7000) : s.halted.Logs (n + 2) r := by
  have hjobs : s.dropJobs.Logs n r := h.of_eq (events_of_mask (P := [.ledger, .bell, .fns, .zones, .units, .media, .staged, .jobs, .cores, .hamlets,
    .disp, .dram, .health]) (by decide) (dropJobs_mask (List.Subset.refl _)))
  have herases : s.dropJobs.abortErases.Logs n r :=
    hjobs.of_eq (events_of_mask (P := [.free, .loft]) (by decide) (abortErases_mask (List.Subset.refl _)))
  have hports := (herases.movePort (by omega) .A .off s.nowNs).movePort (by omega) .B .off s.nowNs
  exact hports.of_eq (events_of_mask (P := [.bell, .media]) (by decide) (dropReads_mask (List.Subset.refl _) _))

theorem halted_pwr (s : State) : s.halted.pwr = s.pwr :=
  (pwr_of_mask (P := [.bell, .media]) (by decide) (dropReads_mask (List.Subset.refl _) _)).trans <|
    (pwr_of_mask (P := [.out, .bell, .portA, .portB, .net, .loft, .events, .eventSeq, .rdma]) (by decide) (movePort_mask (by decide) _ _ _)).trans <|
      (pwr_of_mask (P := [.out, .bell, .portA, .portB, .net, .loft, .events, .eventSeq, .rdma]) (by decide) (movePort_mask (by decide) _ _ _)).trans <|
        (pwr_of_mask (P := [.free, .loft]) (by decide) (abortErases_mask (List.Subset.refl _))).trans <|
          pwr_of_mask (P := [.ledger, .bell, .fns, .zones, .units, .media, .staged, .jobs, .cores, .hamlets, .disp, .dram, .health]) (by decide)
            (dropJobs_mask (List.Subset.refl _))

/-- Service stopped: what it takes with it, and the fields it clears. -/
theorem stopServing_halted (s : State) : s.stopServing.when = s.halted.when ∧ s.stopServing.events = s.halted.events ∧ s.stopServing.pwr =
    { s.halted.pwr with cur := 0, waking := false, entering := false, entryCkpt := none, idleFrom := none } := by
  unfold State.stopServing State.when
  generalize hu : s.halted = u
  unfold State.halted at hu
  rw [hu]
  exact ⟨rfl, rfl, rfl⟩

theorem stopServing_when (s : State) : s.stopServing.when = s.when := (stopServing_halted s).1.trans (halted_when s)

theorem State.Logs.stopServing {n : Nat} {r : Bytes} (h : s.Logs n r) (hn : n < 7000) : s.stopServing.Logs (n + 2) r :=
  (h.halted hn).of_eq (stopServing_halted s).2.1

theorem stopServing_pwr (s : State) :
    s.stopServing.pwr = { s.pwr with cur := 0, waking := false, entering := false, entryCkpt := none, idleFrom := none } := by
  rw [(stopServing_halted s).2.2, halted_pwr]

theorem shutdownRecord_when (s : State) : s.shutdownRecord.when = s.when :=
  when_of_mask (P := [.loft, .pwr]) (by decide) (shutdownRecord_mask (List.Subset.refl _))

theorem State.Logs.shutdownRecord {n : Nat} {r : Bytes} (h : s.Logs n r) : s.shutdownRecord.Logs n r :=
  h.of_eq (events_of_mask (P := [.loft, .pwr]) (by decide) (shutdownRecord_mask (List.Subset.refl _)))

theorem shutdownRecord_pwr (s : State) : s.shutdownRecord.pwr = { s.pwr with lastShut := some s.calendar } :=
  pwr_of_mask (P := [.loft]) (by decide) (flushLoft_mask (List.Subset.refl _))

theorem powerOff_cause (s : State) : s.powerOff.pwr.cause = s.pwr.cause ∧ s.powerOff.pwr.latched = s.pwr.latched := by
  have h := stopServing_pwr s
  unfold State.powerOff
  generalize s.stopServing = u at h ⊢
  exact ⟨(congrArg Pwr.cause h :), (congrArg Pwr.latched h :)⟩

theorem beginLoss_begins (hon : s.pwr.on = true) (hr : s.boot.ready = true) (hl : s.pwr.loss = none) (standby cut : Bool) :
    s.beginLoss standby cut = s.stopServing.shutdownRecord.setPwr fun p => { p with loss := some ⟨0, 0, [], standby, cut⟩ } := by
  unfold State.beginLoss
  rw [hon, hr, hl]
  rfl

/-- The cause of a disconnect stands through the start of the sequence. -/
theorem beginLoss_cause (s : State) (standby cut : Bool) :
    (s.beginLoss standby cut).pwr.cause = s.pwr.cause ∧ (s.beginLoss standby cut).pwr.latched = s.pwr.latched := by
  unfold State.beginLoss
  split
  · exact ⟨rfl, rfl⟩
  · split
    · exact powerOff_cause s
    · rw [show ∀ (x : State) (g : Pwr → Pwr), (x.setPwr g).pwr = g x.pwr from fun _ _ => rfl, shutdownRecord_pwr, stopServing_pwr]
      exact ⟨rfl, rfl⟩

/-- What a disconnect does before the sequence begins: the cause to the error history, and the input latched off (R592). -/
def State.cutOff (s : State) (cause : Nat) : State :=
  let u := s.loftRecord 312 recCause (record 16 [(0, 1, cause), (8, 8, s.bell.now)])
  ({ u with boot := { u.boot with stopLog := if cause = 1 then 1 else u.boot.stopLog } } : State).setPwr
    fun p => { p with cause := cause, latched := true }

theorem disconnect_eq (s : State) (cause : Nat) : s.disconnect cause = (s.cutOff cause).beginLoss false true := rfl

theorem disconnect_cause (s : State) (cause : Nat) : (s.disconnect cause).pwr.cause = cause ∧ (s.disconnect cause).pwr.latched = true :=
  beginLoss_cause (s.cutOff cause) false true

theorem setPwr_when (s : State) (g : Pwr → Pwr) : (s.setPwr g).when = s.when := rfl

theorem cutOff_when (s : State) (cause : Nat) : (s.cutOff cause).when = s.when := rfl

theorem State.Logs.setPwr {n : Nat} {r : Bytes} (h : s.Logs n r) (g : Pwr → Pwr) : (s.setPwr g).Logs n r := h

theorem State.Logs.cutOff {n : Nat} {r : Bytes} (h : s.Logs n r) (cause : Nat) : (s.cutOff cause).Logs n r := h

theorem disconnect_begins (hon : s.pwr.on = true) (hr : s.boot.ready = true) (hl : s.pwr.loss = none) (cause : Nat) :
    (s.disconnect cause).pwr.loss = some ⟨0, 0, [], false, true⟩ ∧ (s.disconnect cause).when = s.when ∧
      ∀ n r, s.Logs n r → n < 7000 → (s.disconnect cause).Logs (n + 2) r := by
  rw [disconnect_eq, beginLoss_begins (s := s.cutOff cause) hon hr hl]
  refine ⟨rfl, ?_, fun n r h hn => ?_⟩
  · rw [setPwr_when, shutdownRecord_when, stopServing_when, cutOff_when]
  · exact (((h.cutOff cause).stopServing hn).shutdownRecord).setPwr _

/-! ### Temperatures -/

theorem tempEvent_health (s : State) (k : Nat) (x : Int) : (s.tempEvent k x).health = { s.health with alert := true } := event_health ..

theorem tempEvent_pwr (s : State) (k : Nat) (x : Int) : (s.tempEvent k x).pwr = s.pwr :=
  pwr_of_mask (P := [.out, .rdma, .bell, .loft, .health, .events, .eventSeq]) (by decide) (tempEvent_mask (List.Subset.refl _) k x)

theorem tempEvent_boot (s : State) (k : Nat) (x : Int) : (s.tempEvent k x).boot = s.boot :=
  boot_of_mask (P := [.out, .rdma, .bell, .loft, .health, .events, .eventSeq]) (by decide) (tempEvent_mask (List.Subset.refl _) k x)

theorem tempEvent_when (s : State) (k : Nat) (x : Int) : (s.tempEvent k x).when = s.when := event_when ..

/-- The rows that a temperature meets, row by row (R600, Table 24.9). -/
theorem mem_hotRows (p : Nat) (x : Int) (k : Nat) : k ∈ hotRows p x ↔ (p = 0 ∧ 40 < x ∧ k = 0) ∨ (p = 0 ∧ 45 < x ∧ k = 1) ∨
    (p = 2 ∧ 80 < x ∧ k = 0) ∨ (p = 2 ∧ (x < 0 ∨ 85 < x) ∧ k = 2) := by
  unfold hotRows
  by_cases h0 : p = 0
  · subst h0
    by_cases h1 : 40 < x <;> by_cases h2 : 45 < x <;> simp [h1, h2]
  · by_cases h2 : p = 2
    · subst h2
      by_cases h3 : 80 < x <;> by_cases h4 : x < 0 ∨ 85 < x <;> simp [h3, h4]
    · simp [h0, h2]

/-- The state with a temperature measured, its rows hot and its dies held (R600). -/
def State.measured (s : State) (p : Nat) (x : Int) (ds : List DieId) : State :=
  let u := s.setTemp p x
  let u := if (hotRows p x).contains 2 then u.setPwr fun q => { q with coldDies := (q.coldDies ++ ds.map dieNo).eraseDups } else u
  { u with health := { u.health with hot := u.health.hot ++ (hotRows p x).filter fun k => !s.health.hot.contains k } }

theorem measured_health (s : State) (p : Nat) (x : Int) (ds : List DieId) : (s.measured p x ds).health =
    { s.health with temps := s.health.temps.set p x, hot := s.health.hot ++ (hotRows p x).filter fun k => !s.health.hot.contains k } := by
  unfold State.measured
  dsimp only
  split <;> rfl

theorem mem_measured_hot (s : State) (p : Nat) (x : Int) (ds : List DieId) (k : Nat) :
    k ∈ (s.measured p x ds).health.hot ↔ k ∈ s.health.hot ∨ k ∈ hotRows p x := by
  rw [measured_health, List.mem_append, List.mem_filter]
  by_cases h : k ∈ s.health.hot <;> simp [h]

theorem measured_cold {p : Nat} {x : Int} (hp : p = 2) (hx : x < 0 ∨ 85 < x) {ds : List DieId} {d : DieId} (hd : d ∈ ds) :
    dieNo d ∈ (s.measured p x ds).pwr.coldDies := by
  have hrow : (hotRows p x).contains 2 = true := List.contains_iff_mem.mpr ((mem_hotRows p x 2).mpr (by simp [hp, hx]))
  unfold State.measured
  dsimp only
  rw [if_pos hrow]
  exact List.mem_eraseDups.mpr (List.mem_append_right _ (List.mem_map_of_mem hd))

theorem temperature_measures (hon : s.pwr.on = true) {p : Nat} (hp : p < 4) (x : Int) {ds : List DieId} (hds : ∀ d ∈ ds, d.wf = true) :
    exec (.temperature p x ds) s = .next (if ((hotRows p x).filter fun k => !s.health.hot.contains k).isEmpty then s.measured p x ds
      else (s.measured p x ds).tempEvent p x) := by
  change execTemperature p x ds s = _
  unfold execTemperature
  rw [hon, List.all_eq_true.mpr hds, decide_eq_false (Nat.not_le.mpr hp)]
  rfl

theorem temperature_answers (hon : s.pwr.on = true) {p : Nat} (hp : p < 4) (x : Int) {ds : List DieId} (hds : ∀ d ∈ ds, d.wf = true) :
    ∃ t, exec (.temperature p x ds) s = .next t ∧ t.health.temps = s.health.temps.set p x ∧
      (∀ k, k ∈ t.health.hot ↔ k ∈ s.health.hot ∨ (p = 0 ∧ 40 < x ∧ k = 0) ∨ (p = 0 ∧ 45 < x ∧ k = 1) ∨ (p = 2 ∧ 80 < x ∧ k = 0) ∨
        (p = 2 ∧ (x < 0 ∨ 85 < x) ∧ k = 2)) ∧
      ((∃ k ∈ t.health.hot, k ∉ s.health.hot) → t.health.alert = true ∧ Raised t 0x0071 1 0 [(32, 1, p), (33, 1, (x % 256).toNat)]) ∧
      (p = 2 → x < 0 ∨ 85 < x → ∀ d ∈ ds, t.dieCold d = true) := by
  refine ⟨_, temperature_measures hon hp x hds, ?_⟩
  split
  · next he =>
    refine ⟨congrArg Health.temps (measured_health s p x ds), fun k => by rw [mem_measured_hot, mem_hotRows], fun ⟨k, hk, hn⟩ => ?_, fun h2 hx d hd => ?_⟩
    · have hrow := ((mem_measured_hot s p x ds k).mp hk).resolve_left hn
      have : k ∈ (hotRows p x).filter fun k => !s.health.hot.contains k := List.mem_filter.mpr ⟨hrow, by simpa using hn⟩
      rw [List.isEmpty_iff.mp he] at this
      exact absurd this (List.not_mem_nil)
    · simp [State.dieCold, measured_cold (s := s) h2 hx hd]
  · refine ⟨?_, fun k => ?_, fun _ => ⟨?_, event_raised _ _ _ _ _⟩, fun h2 hx d hd => ?_⟩
    · rw [tempEvent_health, measured_health]
    · rw [tempEvent_health]
      exact (mem_measured_hot s p x ds k).trans (by rw [mem_hotRows])
    · rw [tempEvent_health]
    · rw [State.dieCold, tempEvent_pwr, List.contains_iff_mem.mpr (measured_cold h2 hx hd), Bool.true_or]

theorem getD_set_same (l : List Int) {p : Nat} (hp : p < l.length) (x : Int) : (l.set p x).getD p 0 = x := by
  simp [List.getD_eq_getElem?_getD, hp]

/-- Whether a row's condition is gone, by the temperatures that stand (R600, Table 24.9). -/
def rowGone (place : Nat) (inlet die : Int) (k : Nat) : Bool := match k with
  | 0 => decide (inlet ≤ 40 ∧ die ≤ 80)
  | 1 => decide (inlet ≤ 45)
  | 2 => decide (0 ≤ die ∧ die ≤ 85)
  | 3 => place = 2 && decide (0 ≤ die)
  | _ => false

/-- The state with a condition's absence measured. -/
def State.cooled (s : State) (p : Nat) (x : Int) : State :=
  let u := s.setTemp p x
  let gone := rowGone p (u.health.temps.getD 0 0) (u.health.temps.getD 2 0)
  let u := if gone 2 then u.setPwr fun q => { q with coldDies := [] } else u
  { u with health := { u.health with hot := u.health.hot.filter fun k => !gone k } }

theorem cooled_health (s : State) (p : Nat) (x : Int) : (s.cooled p x).health = { s.health with
    temps := s.health.temps.set p x
    hot := s.health.hot.filter fun k => !rowGone p ((s.health.temps.set p x).getD 0 0) ((s.health.temps.set p x).getD 2 0) k } := by
  unfold State.cooled
  dsimp only
  split <;> rfl

theorem cooled_dies {p : Nat} {x : Int} (h : rowGone p ((s.health.temps.set p x).getD 0 0) ((s.health.temps.set p x).getD 2 0) 2 = true) :
    (s.cooled p x).pwr.coldDies = [] := by
  unfold State.cooled
  dsimp only
  rw [if_pos (show rowGone p ((s.setTemp p x).health.temps.getD 0 0) ((s.setTemp p x).health.temps.getD 2 0) 2 = true from h)]
  rfl

theorem temperatureClear_cools (hon : s.pwr.on = true) {p : Nat} (hp : p < 4) (x : Int) : exec (.temperatureClear p x) s = .next (s.cooled p x) := by
  change execTemperatureClear p x s = _
  unfold execTemperatureClear
  rw [hon, if_neg (Nat.not_le.mpr hp)]
  rfl

theorem temperatureClear_answers (hlen : s.health.temps.length = 4) (hon : s.pwr.on = true) {p : Nat} (hp : p < 4) (x : Int) :
    ∃ t, exec (.temperatureClear p x) s = .next t ∧ t.health.temps = s.health.temps.set p x ∧ (∀ k ∈ t.health.hot, k ∈ s.health.hot) ∧
      (p = 0 → x ≤ 45 → 1 ∉ t.health.hot) ∧ (p = 2 → 0 ≤ x → x ≤ 85 → 2 ∉ t.health.hot ∧ t.pwr.coldDies = []) ∧
      (4 ∈ s.health.hot → 4 ∈ t.health.hot) := by
  refine ⟨_, temperatureClear_cools hon hp x, ?_, fun k hk => ?_, fun h0 hx hk => ?_, fun h2 hlo hhi => ?_, fun h4 => ?_⟩
  · rw [cooled_health]
  · rw [cooled_health] at hk
    exact List.mem_of_mem_filter hk
  · rw [cooled_health, List.mem_filter] at hk
    subst h0
    rw [getD_set_same _ (by omega)] at hk
    simp [rowGone, hx] at hk
  · have hgone : rowGone p ((s.health.temps.set p x).getD 0 0) ((s.health.temps.set p x).getD 2 0) 2 = true := by
      subst h2
      rw [getD_set_same _ (by omega)]
      exact decide_eq_true ⟨hlo, hhi⟩
    refine ⟨fun hk => ?_, cooled_dies hgone⟩
    rw [cooled_health, List.mem_filter, hgone] at hk
    exact absurd hk.2 (by decide)
  · rw [cooled_health]
    exact List.mem_filter.mpr ⟨h4, rfl⟩

theorem temperatureClear_unlatches (hoff : s.pwr.on = false) (hc : s.pwr.cause = 2) {x : Int} (hx : x < 40) :
    exec (.temperatureClear 0 x) s = .next (s.setPwr fun p => { p with latched := false }) := by
  change execTemperatureClear 0 x s = _
  unfold execTemperatureClear
  rw [hoff, hc, decide_eq_true hx]
  rfl

/-- The state a thermal disconnect begins from: the temperature, its event and the row that stays (R600). -/
def State.overheated (s : State) (j : Bool) (x : Int) : State :=
  let u := (s.setTemp (b01 j) x).tempEvent (b01 j) x
  { u with health := { u.health with hot := u.health.hot.insert 4 } }

theorem thermalShutdown_disconnects (hon : s.pwr.on = true) {j : Bool} {x : Int} (hx : (if j = true then 115 else 50) < x) :
    exec (.thermalShutdown j x) s = .next ((s.overheated j x).disconnect 2) := by
  change execThermalShutdown j x s = _
  unfold execThermalShutdown
  rw [hon, decide_eq_false (Int.not_le.mpr hx)]
  rfl

theorem thermalShutdown_answers (hon : s.pwr.on = true) {j : Bool} {x : Int} (hx : (if j = true then 115 else 50) < x) :
    ∃ t, exec (.thermalShutdown j x) s = .next t ∧ t.pwr.cause = 2 ∧ t.pwr.latched = true ∧
      (s.boot.ready = true → s.pwr.loss = none → t.pwr.loss = some ⟨0, 0, [], false, true⟩ ∧
        Raised t 0x0071 1 0 [(32, 1, b01 j), (33, 1, (x % 256).toNat)]) := by
  obtain ⟨hc, hl⟩ := disconnect_cause (s.overheated j x) 2
  refine ⟨_, thermalShutdown_disconnects hon hx, hc, hl, fun hr hn => ?_⟩
  have hpwr : (s.overheated j x).pwr = s.pwr := tempEvent_pwr (s.setTemp (b01 j) x) _ _
  have hboot : (s.overheated j x).boot = s.boot := tempEvent_boot (s.setTemp (b01 j) x) _ _
  obtain ⟨hloss, hwhen, hlogs⟩ := disconnect_begins (s := s.overheated j x) (by rw [hpwr, hon]) (by rw [hboot, hr]) (by rw [hpwr, hn]) 2
  refine ⟨hloss, (hlogs 0 _ (event_logs _ _ _ _ _) (by decide)).raised (hwhen.trans (event_when _ _ _ _ _))⟩

/-- Settles O52: each row of Table 24.9, the disconnect and LAMP_REQ. -/
theorem temperatures : Obligations.Temperatures := by
  intro s hlen hot
  exact ⟨fun hon => ⟨fun p hp x ds hds => temperature_answers hon hp x hds, fun p hp x => temperatureClear_answers hlen hon hp x,
    fun j x hx => thermalShutdown_answers hon hx⟩, fun hoff hc x hx => temperatureClear_unlatches hoff hc hx, fun on => rfl⟩

end Sys2Proof.Machine
end

section
/-! The power-loss sequence and the dump (R318 to R321, R592, R594). -/

namespace Sys2Proof.Machine

variable {s t u v : State} {P : List Part}

/-! ### What the end of service leaves -/

theorem jobs_of_mask (h : .jobs ∉ P) (e : t.mask P = s.mask P) : t.jobs = s.jobs :=
  (congrArg State.jobs (eq_graft e)).trans (if_neg h)

theorem port_of_mask (hA : .portA ∉ P) (hB : .portB ∉ P) (e : t.mask P = s.mask P) (p : PortId) : t.port p = s.port p := by
  cases p
  · exact (congrArg State.portA (eq_graft e)).trans (if_neg hA)
  · exact (congrArg State.portB (eq_graft e)).trans (if_neg hB)

theorem removeJob_jobs (s : State) (j : Nat) : (s.removeJob j).jobs = del s.jobs j := by
  have h : ((s.dropItems j).dropScans j).jobs = s.jobs :=
    (jobs_of_mask (P := [.bell, .media]) (by decide) (dropScans_mask (List.Subset.refl _) j)).trans
      (jobs_of_mask (P := [.ledger, .bell, .fns, .zones, .units, .media, .staged, .cores, .hamlets, .disp, .dram, .health]) (by decide)
        (dropItems_mask (List.Subset.refl _) j))
  unfold State.removeJob
  generalize (s.dropItems j).dropScans j = u at h ⊢
  exact congrArg (del · j) h

theorem ne_of_mem_del {α : Type} {t : Tab α} {k : Nat} {e : Nat × α} (h : e ∈ del t k) : e.1 ≠ k := by
  induction t with
  | nil => simp [del] at h
  | cons x t ih =>
    simp only [del] at h
    split at h
    · exact ih h
    · rcases List.mem_cons.mp h with rfl | h
      · assumption
      · exact ih h

theorem foldl_removeJob_jobs (l : List Nat) (s : State) : ∀ e ∈ (l.foldl State.removeJob s).jobs, e ∈ s.jobs ∧ e.1 ∉ l := by
  induction l generalizing s with
  | nil => exact fun e he => ⟨he, List.not_mem_nil⟩
  | cons j l ih =>
    intro e he
    obtain ⟨hmem, hl⟩ := ih (s.removeJob j) e he
    rw [removeJob_jobs] at hmem
    exact ⟨mem_del hmem, by simp [hl, ne_of_mem_del hmem]⟩

theorem dropJobs_jobs (s : State) : s.dropJobs.jobs = [] := by
  refine List.eq_nil_iff_forall_not_mem.mpr fun e he => ?_
  obtain ⟨hmem, hkey⟩ := foldl_removeJob_jobs _ s e he
  exact hkey (List.mem_map_of_mem hmem)

theorem port_setPort_other {p q : PortId} (h : q ≠ p) (s : State) (g : Port → Port) : (s.setPort p g).port q = s.port q := by
  match p, q, h with
  | .A, .B, _ => rfl
  | .B, .A, _ => rfl
  | .A, .A, h => exact absurd rfl h
  | .B, .B, h => exact absurd rfl h

theorem movePort_other {p q : PortId} (h : q ≠ p) (s : State) (st : PortState) (ns : Nat) : ((s.movePort p st ns).port q).state = (s.port q).state := by
  unfold State.movePort
  dsimp only
  split
  · rfl
  · rw [event_port]
    split
    · exact congrArg Port.state (port_setPort_other h s _)
    · rw [port_setPort_other h]

theorem halted_off (s : State) (p : PortId) : (s.halted.port p).state = .off := by
  have hread : s.halted.port p = (((s.dropJobs.abortErases).movePort .A .off s.nowNs).movePort .B .off s.nowNs).port p :=
    port_of_mask (P := [.bell, .media]) (by decide) (by decide) (dropReads_mask (List.Subset.refl _) _) p
  rw [hread]
  cases p
  · rw [movePort_other (by decide), movePort_state]
  · rw [movePort_state]

theorem halted_jobs (s : State) : s.halted.jobs = [] :=
  (jobs_of_mask (P := [.bell, .media]) (by decide) (dropReads_mask (List.Subset.refl _) _)).trans <|
    (jobs_of_mask (P := [.out, .rdma, .bell, .portA, .portB, .net, .loft, .events, .eventSeq]) (by decide) (movePort_mask (List.Subset.refl _) _ _ _)).trans <|
      (jobs_of_mask (P := [.out, .rdma, .bell, .portA, .portB, .net, .loft, .events, .eventSeq]) (by decide) (movePort_mask (List.Subset.refl _) _ _ _)).trans <|
        (jobs_of_mask (P := [.free, .loft]) (by decide) (abortErases_mask (List.Subset.refl _))).trans (dropJobs_jobs s)

theorem stopServing_fields (s : State) : s.stopServing.portA.state = s.halted.portA.state ∧ s.stopServing.portB.state = s.halted.portB.state ∧
    s.stopServing.rdma = [] ∧ s.stopServing.jobs = s.halted.jobs ∧ s.stopServing.sqs = mapV (fun _ q => { q with cmds := [], reading := 0 }) s.halted.sqs := by
  unfold State.stopServing
  generalize hu : s.halted = u
  unfold State.halted at hu
  rw [hu]
  exact ⟨rfl, rfl, rfl, rfl, rfl⟩

theorem stopServing_cmd (s : State) (r : Ref) : s.stopServing.cmd r = none := by
  unfold State.cmd State.sq
  rw [(stopServing_fields s).2.2.2.2, look_mapV]
  cases look s.halted.sqs (ringNo r.fn r.sq) <;> rfl

theorem calendar_of_when (hw : t.when = s.when) (hc : t.clk = s.clk) : t.calendar = s.calendar := by
  have hnow : t.bell.now = s.bell.now := congrArg (fun x : Nat × Nat × Nat => x.1) hw
  have hact : t.bell.active = s.bell.active := congrArg (fun x : Nat × Nat × Nat => x.2.2) hw
  unfold State.calendar State.nowNs State.period
  rw [hnow, hact, hc]

/-- Service has stopped, and the sequence stands before the dump plan (R318). -/
structure Stopped (s t : State) (standby cut : Bool) : Prop where
  loss : t.pwr.loss = some ⟨0, 0, [], standby, cut⟩
  offA : t.portA.state = .off
  offB : t.portB.state = .off
  rdma : t.rdma = []
  jobs : t.jobs = []
  cmd : ∀ r, t.cmd r = none
  shut : t.pwr.lastShut = some s.calendar

theorem Stopped.parts {standby cut : Bool} (h : Stopped s t standby cut) : t.pwr.loss = some ⟨0, 0, [], standby, cut⟩ ∧
    t.portA.state = .off ∧ t.portB.state = .off ∧ t.rdma = [] ∧ t.jobs = [] ∧ (∀ r, t.cmd r = none) ∧ t.pwr.lastShut = some s.calendar :=
  ⟨h.loss, h.offA, h.offB, h.rdma, h.jobs, h.cmd, h.shut⟩

theorem shutdownRecord_fields (s : State) : s.shutdownRecord.portA = s.portA ∧ s.shutdownRecord.portB = s.portB ∧ s.shutdownRecord.rdma = s.rdma ∧
    s.shutdownRecord.jobs = s.jobs ∧ s.shutdownRecord.sqs = s.sqs := by
  have g := eq_graft (shutdownRecord_mask (P := [.loft, .pwr]) (List.Subset.refl _) (s := s))
  generalize s.shutdownRecord = u at g ⊢
  rw [g]
  exact ⟨rfl, rfl, rfl, rfl, rfl⟩

theorem setPwr_fields (s : State) (g : Pwr → Pwr) : (s.setPwr g).portA = s.portA ∧ (s.setPwr g).portB = s.portB ∧ (s.setPwr g).rdma = s.rdma ∧
    (s.setPwr g).jobs = s.jobs ∧ (s.setPwr g).sqs = s.sqs ∧ (s.setPwr g).pwr = g s.pwr :=
  ⟨rfl, rfl, rfl, rfl, rfl, rfl⟩

theorem port_A (s : State) : s.port .A = s.portA := rfl

theorem port_B (s : State) : s.port .B = s.portB := rfl

theorem stopServing_clk (s : State) : s.stopServing.clk = s.clk :=
  clk_of_mask (P := [.free, .out, .rdma, .ledger, .bell, .portA, .portB, .net, .fns, .sqs, .due, .aborts, .zones, .units, .media, .staged, .jobs,
    .cores, .hamlets, .disp, .dram, .loft, .health, .events, .eventSeq, .pwr, .life, .act]) (by decide) (stopServing_mask (List.Subset.refl _))

theorem beginLoss_stops (hon : s.pwr.on = true) (hr : s.boot.ready = true) (hl : s.pwr.loss = none) (standby cut : Bool) :
    Stopped s (s.beginLoss standby cut) standby cut := by
  obtain ⟨hA, hB, hrdma, hjobs, -⟩ := stopServing_fields s
  obtain ⟨hA', hB', hrdma', hjobs', hsqs⟩ := shutdownRecord_fields s.stopServing
  rw [beginLoss_begins hon hr hl]
  obtain ⟨hA'', hB'', hrdma'', hjobs'', hsqs', hp⟩ := setPwr_fields s.stopServing.shutdownRecord
    fun p => { p with loss := some ⟨0, 0, [], standby, cut⟩ }
  refine ⟨by rw [hp], ?_, ?_, by rw [hrdma'', hrdma', hrdma], by rw [hjobs'', hjobs', hjobs, halted_jobs], fun r => ?_, ?_⟩
  · rw [hA'', hA', hA, ← port_A]
    exact halted_off s .A
  · rw [hB'', hB', hB, ← port_B]
    exact halted_off s .B
  · rw [cmd_of_sqs (hsqs'.trans hsqs), stopServing_cmd]
  · rw [hp, shutdownRecord_pwr, calendar_of_when (stopServing_when s) (stopServing_clk s)]

/-! ### The power fields through the slots -/

/-- The power fields but the checkpoint of an entry into Q3. -/
def State.supply (s : State) : Pwr := { s.pwr with entryCkpt := none }

theorem supply_of_mask (h : .pwr ∉ P) (e : t.mask P = s.mask P) : t.supply = s.supply :=
  congrArg (fun p : Pwr => { p with entryCkpt := none }) (pwr_of_mask h e)

theorem entryStep_supply (s : State) : s.entryStep.supply = s.supply := by
  unfold State.entryStep
  split
  · exact supply_of_mask (s := { s with pwr := { s.pwr with entryCkpt := some (s.media.begun + 1) } }) (P := [.media]) (by decide)
      (ckptBegin_mask (List.Subset.refl _) 5)
  · rfl

theorem streamParked_supply (s : State) (key : Nat) : (s.streamParked key).supply = s.supply := by
  unfold State.streamParked
  dsimp only
  split
  · rfl
  · exact entryStep_supply _

theorem programmed_supply (s : State) (d : DieId) (w : Work) : (s.programmed d w).supply = s.supply :=
  supply_of_mask (P := [.media]) (by decide) (programmed_mask (List.Subset.refl _) d w)

theorem programDone_supply (s : State) (d : DieId) (w : Work) : (s.programDone d w).supply = s.supply := by
  have hend : ∀ n k, ({ s.opEnds d with health := { (s.opEnds d).health with mediaUnits := n }, staged := k } : State).supply = s.supply :=
    fun _ _ => (supply_of_mask (P := [.media]) (by decide) (opEnds_mask (List.Subset.refl _) d) :)
  have hprog := fun n k => (programmed_supply { s.opEnds d with health := { (s.opEnds d).health with mediaUnits := n }, staged := k } d w).trans
    (hend n k)
  unfold State.programDone
  dsimp only
  split
  · split
    · have hrow : ∀ x : State, x.supply = s.supply → ∀ n i k, ((x.joinParity n w.wl i).rowStep n w.wl k).supply = s.supply := fun x hx n i k =>
        (supply_of_mask (P := [.media, .staged]) (by decide) (rowStep_mask (by decide) ..)).trans
          ((supply_of_mask (P := [.media]) (by decide) (joinParity_mask (by decide) ..)).trans hx)
      split
      · exact hprog _ _
      · split
        · exact (supply_of_mask (P := [.out, .rdma, .bell, .rand, .media, .staged, .dram, .loft, .health, .events, .eventSeq]) (by decide)
            (copiesDone_mask (by decide) ..)).trans (hrow _ (hprog _ _) ..)
        · exact hrow _ (hprog _ _) ..
    · exact hprog _ _
  · exact hprog _ _
  · exact hprog _ _
  · exact (streamParked_supply _ _).trans (hprog _ _)
  · split
    · refine (supply_of_mask (P := [.media]) (by decide) (setMem_mask (by decide) ..)).trans
        ((supply_of_mask (P := [.media]) (by decide) (setGroup_mask (by decide) ..)).trans (hprog _ _))
    · exact hend _ _
  · exact (supply_of_mask (P := [.media]) (by decide) (copyLine_mask (by decide) ..)).trans
      (hend ((s.opEnds d).health.mediaUnits + 64) (s.opEnds d).staged)
  · exact hend _ _

theorem settleDie_supply (s : State) (d : DieId) : (s.settleDie d).supply = s.supply := by
  unfold State.settleDie
  split
  · rfl
  · split
    · exact programDone_supply _ _ _
    · rfl
    · rfl

theorem settleDies_supply (s : State) : s.settleDies.supply = s.supply := foldl_same State.supply settleDie_supply _ _

theorem stopErases_supply (s : State) : s.stopErases.supply = s.supply := foldl_same State.supply settleDie_supply _ _

/-- The power fields but that checkpoint and the dumps, and the numbers of the dumps. -/
def State.bank (s : State) : Pwr × List Nat := ({ s.pwr with entryCkpt := none, dumps := [] }, s.pwr.dumps.map Dump.seq)

theorem bank_of_supply (h : t.supply = s.supply) : t.bank = s.bank :=
  congrArg (fun p : Pwr => (({ p with dumps := [] } : Pwr), p.dumps.map Dump.seq)) h

theorem nextDump_eq (s : State) : s.nextDump = s.bank.2.foldl max 0 + 1 := by
  unfold State.nextDump State.bank
  rw [List.foldl_map]

theorem map_dumps_bank (s : State) (g : Dump → Dump) (hg : ∀ d, (g d).seq = d.seq) :
    (s.setPwr fun p => { p with dumps := p.dumps.map g }).bank = s.bank := by
  unfold State.bank
  refine Prod.ext rfl ?_
  show (s.pwr.dumps.map g).map Dump.seq = _
  rw [List.map_map]
  exact List.map_congr_left fun d _ => hg d

theorem setDump_bank (s : State) (g : Dump → Dump) (hg : ∀ d, (g d).seq = d.seq) : (s.setDump g).bank = s.bank := by
  refine map_dumps_bank s (fun d => if d.seq + 1 = s.nextDump then g d else d) fun d => ?_
  split
  · exact hg d
  · rfl

theorem homePrograms_bank (s : State) : s.homePrograms.bank = s.bank := by
  unfold State.homePrograms
  dsimp only
  refine (setDump_bank _ _ ?_).trans (bank_of_supply (foldl_same State.supply (fun x w => ?_) _ _))
  · exact fun _ => rfl
  · exact (programDone_supply _ _ _).trans rfl

/-- One word line of the cellar programmed: the die's cursor, and the stripe's place noted in the newest dump. -/
theorem cellarSlot_bank (s : State) (busy : List Nat) (l : LossSeq) : (s.cellarSlot busy l).1.bank = s.bank := by
  unfold State.cellarSlot
  refine foldl_same State.bank (fun x e => ?_) _ _
  refine (map_dumps_bank (x.setDie (dieOf e.1) _) _ fun d => ?_).trans (bank_of_supply ?_)
  · split <;> rfl
  · exact (supply_of_mask (P := [.media]) (by decide) (setDie_mask (List.Subset.refl _) _ _) :)

theorem cellarSlot_seq (s : State) (busy : List Nat) (l : LossSeq) : (s.cellarSlot busy l).2 = { l with todo := (s.cellarSlot busy l).2.todo } := rfl

theorem powerOff_dumps (s : State) : s.powerOff.pwr.dumps = s.pwr.dumps := by
  have h := stopServing_pwr s
  unfold State.powerOff
  generalize s.stopServing = u at h ⊢
  exact (congrArg Pwr.dumps h :)

theorem powerOff_off (s : State) : s.powerOff.pwr.on = false ∧ s.powerOff.pwr.loss = none ∧ s.powerOff.boot.ready = false ∧
    s.powerOff.bell.now = 0 := by
  unfold State.powerOff
  generalize s.stopServing = u
  exact ⟨rfl, rfl, rfl, rfl⟩

theorem endLoss_ends (s : State) (l : LossSeq) : (s.endLoss l).pwr.on = false ∧ (s.endLoss l).pwr.loss = none ∧
    (s.endLoss l).boot.ready = false ∧ (s.endLoss l).bell.now = 0 := powerOff_off _

/-- The dump of the sequence that ends is complete where its word lines are programmed and the power lasted. -/
theorem endLoss_dumps (s : State) (l : LossSeq) : ∀ d ∈ (s.endLoss l).pwr.dumps, d.seq + 1 = s.nextDump →
    d.complete = (l.todo.isEmpty && (l.standby || decide (energyFor l.slot ≤ s.pwr.usable))) := by
  intro d hd hseq
  have hdumps : (s.endLoss l).pwr.dumps = (s.setDump fun d =>
      { d with complete := l.todo.isEmpty && (l.standby || decide (energyFor l.slot ≤ s.pwr.usable)) }).pwr.dumps :=
    (powerOff_dumps _).trans (congrArg Pwr.dumps (pwr_of_mask (P := [.units, .media]) (by decide) (loseDram_mask (List.Subset.refl _))))
  rw [hdumps] at hd
  obtain ⟨d', -, rfl⟩ := List.mem_map.mp hd
  by_cases h : d'.seq + 1 = s.nextDump
  · rw [if_pos h]
  · rw [if_neg h] at hseq
    exact absurd hseq h

/-! ### The slots -/

/-- The dies busy in a program slot (R321). -/
def State.slotBusy (s : State) (k : Nat) : List Nat :=
  if k = 1 then (s.media.dies.filter fun e => e.2.op.isSome).map (·.1)
  else if k ≤ 4 then s.homesDue.map fun w => dieNo w.die else []

/-- What a program slot does before its cellar word lines. -/
def State.slotPrograms (s : State) (k : Nat) : State := if k = 1 then s.settleDies else if k ≤ 4 then s.homePrograms else s

theorem slotPrograms_bank (s : State) (k : Nat) : (s.slotPrograms k).bank = s.bank := by
  unfold State.slotPrograms
  split
  · exact bank_of_supply (settleDies_supply s)
  · split
    · exact homePrograms_bank s
    · rfl

/-- The state and the sequence after a slot's programs. -/
def State.slotRun (s : State) (l : LossSeq) : State × LossSeq := (s.slotPrograms l.slot).cellarSlot (s.slotBusy l.slot) l

theorem slotRun_bank (s : State) (l : LossSeq) : (s.slotRun l).1.bank = s.bank := (cellarSlot_bank _ _ _).trans (slotPrograms_bank s _)

theorem programSlotEnd_runs {l : LossSeq} (hl : s.pwr.loss = some l) (h0 : l.slot ≠ 0) : exec .programSlotEnd s =
    .next (if (s.slotRun l).2.over then (s.slotRun l).1.endLoss (s.slotRun l).2
      else (s.slotRun l).1.setPwr fun p => { p with loss := some { (s.slotRun l).2 with slot := (s.slotRun l).2.slot + 1 } }) := by
  change execProgramSlotEnd s = _
  unfold execProgramSlotEnd
  rw [hl]
  dsimp only
  rw [if_neg h0]
  exact (apply_ite go _ _ _).symm

theorem over_iff (s : State) (l : LossSeq) : (s.slotRun l).2.over = true ↔ l.last ≤ l.slot ∧ ((s.slotRun l).2.todo = [] ∨ 12 ≤ l.slot) := by
  have h : (s.slotRun l).2 = { l with todo := (s.slotRun l).2.todo } := cellarSlot_seq _ _ _
  rw [h]
  simp [LossSeq.over]

/-- The dump plan (R319): the dump is fixed, and slot 1 runs next. -/
theorem dumpPlan_fixes {l : LossSeq} (hl : s.pwr.loss = some l) (h0 : l.slot = 0) :
    let u := s.stopErases.noteMaps
    let n := dumpStripes (u.dumpBytes 0 0)
    ∃ t, exec .dumpPlan s = .next t ∧ t.pwr.loss = some { l with slot := 1, last := u.slotsNeeded 0 0 false, todo := u.cellarTodo n } ∧
      t.pwr.dumps = s.pwr.dumps ++ [⟨u.nextDump, false, false, u.ledger, u.guards, u.dumpItems, [], n, []⟩] := by
  intro u n
  have hdumps : u.pwr.dumps = s.pwr.dumps := by
    have hmaps : u.pwr = s.stopErases.pwr := rfl
    rw [hmaps]
    exact (congrArg Pwr.dumps (stopErases_supply s) :)
  refine ⟨u.setPwr fun p => { p with
    dumps := p.dumps ++ [⟨u.nextDump, false, false, u.ledger, u.guards, u.dumpItems, [], n, []⟩]
    loss := some { l with slot := 1, last := u.slotsNeeded 0 0 false, todo := u.cellarTodo n } }, ?_, rfl, ?_⟩
  · change execDumpPlan s = _
    unfold execDumpPlan
    rw [hl]
    dsimp only
    rw [if_neg (not_not.mpr h0)]
  · rw [← hdumps]
    rfl

theorem programSlotEnd_answers {l : LossSeq} (hl : s.pwr.loss = some l) (h0 : l.slot ≠ 0) :
    let left := (s.slotRun l).2.todo
    let ends := l.last ≤ l.slot ∧ (left = [] ∨ 12 ≤ l.slot)
    (¬ends → ∃ t, exec .programSlotEnd s = .next t ∧ t.pwr.loss = some { l with slot := l.slot + 1, todo := left } ∧ t.pwr.on = s.pwr.on) ∧
      (ends → ∃ t, exec .programSlotEnd s = .next t ∧ t.pwr.on = false ∧ t.pwr.loss = none ∧ t.boot.ready = false ∧ t.bell.now = 0 ∧
        ∀ d ∈ t.pwr.dumps, d.seq + 1 = s.nextDump →
          d.complete = (left.isEmpty && (l.standby || decide (energyFor l.slot ≤ s.pwr.usable)))) := by
  intro left ends
  have hseq : (s.slotRun l).2 = { l with todo := left } := cellarSlot_seq _ _ _
  have hbank := slotRun_bank s l
  refine ⟨fun hn => ?_, fun he => ?_⟩
  · refine ⟨_, programSlotEnd_runs hl h0, ?_⟩
    rw [if_neg (fun h => hn ((over_iff s l).mp h)), hseq]
    exact ⟨rfl, (congrArg (fun b : Pwr × List Nat => b.1.on) hbank :)⟩
  · refine ⟨_, programSlotEnd_runs hl h0, ?_⟩
    rw [if_pos ((over_iff s l).mpr he)]
    obtain ⟨hon, hloss, hready, hnow⟩ := endLoss_ends (s.slotRun l).1 (s.slotRun l).2
    refine ⟨hon, hloss, hready, hnow, fun d hd hnext => ?_⟩
    have husable : (s.slotRun l).1.pwr.usable = s.pwr.usable := (congrArg (fun b : Pwr × List Nat => b.1.usable) hbank :)
    have h := endLoss_dumps _ _ d hd (by rw [nextDump_eq, hbank, ← nextDump_eq]; exact hnext)
    rwa [hseq, husable] at h

/-! ### What begins the sequence -/

theorem inputFail_begins (hon : s.pwr.on = true) : exec .inputFail s = .next (s.beginLoss false false) := by
  change execInputFail s = _
  rw [execInputFail, if_pos hon]

theorem pwrDisableAssert_begins {us : Nat} (h : 20 ≤ us) :
    exec (.pwrDisableAssert us) s = .next ((s.setPwr fun p => { p with disable := true }).beginLoss true false) := by
  change execPwrDisableAssert us s = _
  rw [execPwrDisableAssert, if_neg (Nat.not_lt.mpr h)]

theorem inputOvervoltageOrBreaker_begins (hon : s.pwr.on = true) (b : Bool) :
    exec (.inputOvervoltageOrBreaker b) s = .next ((s.cutOff 1).beginLoss false true) := by
  change execInputOvervoltageOrBreaker b s = _
  rw [execInputOvervoltageOrBreaker, if_pos hon]
  rfl

theorem powerOff_disable (s : State) : s.powerOff.pwr.disable = s.pwr.disable := by
  have h := stopServing_pwr s
  unfold State.powerOff
  generalize s.stopServing = u at h ⊢
  exact (congrArg Pwr.disable h :)

theorem beginLoss_disable (s : State) (standby cut : Bool) : (s.beginLoss standby cut).pwr.disable = s.pwr.disable := by
  unfold State.beginLoss
  split
  · rfl
  · split
    · exact powerOff_disable s
    · rw [(setPwr_fields s.stopServing.shutdownRecord _).2.2.2.2.2, shutdownRecord_pwr, stopServing_pwr]

theorem beginLoss_dark (hon : s.pwr.on = true) (hr : s.boot.ready = false) (hl : s.pwr.loss = none) (standby cut : Bool) :
    s.beginLoss standby cut = s.powerOff := by
  unfold State.beginLoss
  rw [hon, hr, hl]
  rfl

/-- Settles O51: what begins the sequence, the dump plan and the slots. -/
theorem powerLoss : Obligations.PowerLoss := by
  intro s stops
  refine ⟨fun hon hr hl => ⟨⟨_, inputFail_begins hon, (beginLoss_stops hon hr hl false false).parts⟩, fun us hus => ?_, fun b => ?_⟩,
    fun us hus => ⟨_, pwrDisableAssert_begins hus, beginLoss_disable _ _ _⟩,
    fun hon hr hl => ⟨_, inputFail_begins hon, ?_⟩, fun hon b => ⟨_, inputOvervoltageOrBreaker_begins hon b, beginLoss_cause (s.cutOff 1) false true⟩,
    fun l hl => ⟨fun h0 => dumpPlan_fixes hl h0, fun h0 => programSlotEnd_answers hl h0⟩⟩
  · exact ⟨_, pwrDisableAssert_begins hus,
      (beginLoss_stops (s := s.setPwr fun p => { p with disable := true }) hon hr hl true false).parts⟩
  · exact ⟨_, inputOvervoltageOrBreaker_begins hon b, (beginLoss_stops (s := s.cutOff 1) hon hr hl false true).parts⟩
  · rw [beginLoss_dark hon hr hl]
    exact (powerOff_off s).1

end Sys2Proof.Machine
end

section
/-! Port states (R61, R77, R89, Table 3.5). -/

namespace Sys2Proof.Machine

variable {s t u : State} {P : List Part} {p : PortId}

/-! ### A port's move -/

theorem movePort_port {st : PortState} {ns : Nat} (h : (s.port p).state ≠ st) : (s.movePort p st ns).port p = (s.port p).moved st ns := by
  obtain ⟨u, -, -, hp, e⟩ := movePort_eq (ns := ns) h
  rw [e, event_port, hp]

/-- What a move leaves of a port: its tries, its registers and its optical module. -/
theorem movePort_leaves (s : State) (p : PortId) (st : PortState) (ns : Nat) : ((s.movePort p st ns).port p).fails = (s.port p).fails ∧
    ((s.movePort p st ns).port p).regs = (s.port p).regs ∧ ((s.movePort p st ns).port p).optic = (s.port p).optic := by
  by_cases h : (s.port p).state = st
  · rw [State.movePort, if_pos h]
    exact ⟨rfl, rfl, rfl⟩
  · rw [movePort_port h]
    exact ⟨rfl, rfl, rfl⟩

theorem portEnabled_of_regs (hr : (t.port p).regs = (s.port p).regs) (ha : t.bell.active = s.bell.active) : t.portEnabled p = s.portEnabled p := by
  unfold State.portEnabled State.portWord
  rw [hr, ha]
  simp [addrReg]

theorem movePort_active (s : State) (p : PortId) (st : PortState) (ns : Nat) : (s.movePort p st ns).bell.active = s.bell.active :=
  congrArg (fun x : Nat × Nat × Nat => x.2.2) (movePort_when s p st ns)

theorem movePort_enabled (s : State) (p : PortId) (st : PortState) (ns : Nat) : (s.movePort p st ns).portEnabled p = s.portEnabled p :=
  portEnabled_of_regs (movePort_leaves s p st ns).2.1 (movePort_active s p st ns)

theorem portsLive_on (h : s.portsLive = true) : s.pwr.on = true ∧ s.pwr.loss = none := by
  simp only [State.portsLive, Bool.and_eq_true, Option.isNone_iff_eq_none] at h
  exact h.1

theorem tryTrain_trains (ho : (s.port p).state = .off) (hu : (s.port p).usable = true) (he : s.portEnabled p = true) (hl : s.portsLive = true) :
    s.tryTrain p = s.movePort p .training s.nowNs := by
  unfold State.tryTrain
  dsimp only
  rw [ho, hu, he, hl]
  rfl

theorem tryTrain_held (h : (s.port p).usable = false) : s.tryTrain p = s := by
  unfold State.tryTrain
  dsimp only
  rw [h]
  simp

/-! ### The optical module -/

/-- The state with an optical module read. -/
def State.fitted (s : State) (p : PortId) (m : OpticsInfo) : State := s.setPort p fun q => { q with optic := some m, held := false }

theorem setPort_pwr (s : State) (p : PortId) (g : Port → Port) : (s.setPort p g).pwr = s.pwr ∧ (s.setPort p g).boot = s.boot ∧
    (s.setPort p g).bell = s.bell ∧ (s.setPort p g).portsLive = s.portsLive := by
  cases p <;> exact ⟨rfl, rfl, rfl, rfl⟩

theorem opticsInsert_judged {m : OpticsInfo} (hn : (s.port p).optic = none) (hl : s.portsLive = true) : exec (.opticsInsert p m) s = .next
    (let u := (s.fitted p m).judgeOptic p
     if (u.port p).state = .failed && (u.port p).usable && u.portsLive then (u.setPort p fun q => { q with fails := 0 }).movePort p .training u.nowNs
     else u.tryTrain p) := by
  obtain ⟨hon, hloss⟩ := portsLive_on hl
  obtain ⟨hp, -⟩ := setPort_pwr s p fun q => { q with optic := some m, held := false }
  change execOpticsInsert p m s = _
  unfold execOpticsInsert
  dsimp only
  rw [hn, hp, hon, hloss]
  exact (apply_ite go _ _ _).symm

theorem judgeOptic_usable {m : OpticsInfo} (ho : (s.port p).optic = some m) (hm : m.advPower ≤ 120) :
    s.judgeOptic p = s.setPort p fun q => { q with held := false } := by
  unfold State.judgeOptic
  rw [ho]
  exact if_neg (Nat.not_lt.mpr hm)

theorem judgeOptic_held {m : OpticsInfo} (ho : (s.port p).optic = some m) (hm : 120 < m.advPower) : s.judgeOptic p =
    (s.setPort p fun q => { q with held := true }).event 0x0011 1 0 [(32, 1, p.num), (34, 2, m.advPower)] := by
  unfold State.judgeOptic
  rw [ho]
  exact if_pos hm

theorem opticsInsert_trains {m : OpticsInfo} (hn : (s.port p).optic = none) (hl : s.portsLive = true) (hm : m.advPower ≤ 120)
    (hst : ((s.port p).state = .off ∧ s.portEnabled p = true) ∨ (s.port p).state = .failed) :
    ∃ t, exec (.opticsInsert p m) s = .next t ∧ (t.port p).state = .training ∧ (t.port p).optic = some m := by
  have hfit : (s.fitted p m).port p = { s.port p with optic := some m, held := false } := port_setPort_same s p _
  have hport : ((s.fitted p m).judgeOptic p).port p = { s.port p with optic := some m, held := false } := by
    rw [judgeOptic_usable (by rw [hfit]) hm, port_setPort_same, hfit]
  have hlive : ((s.fitted p m).judgeOptic p).portsLive = true := by
    rw [judgeOptic_usable (by rw [hfit]) hm, (setPort_pwr _ _ _).2.2.2]
    exact (setPort_pwr s p _).2.2.2.trans hl
  have hbell : ((s.fitted p m).judgeOptic p).bell = s.bell := by
    rw [judgeOptic_usable (by rw [hfit]) hm, (setPort_pwr _ _ _).2.2.1]
    exact (setPort_pwr s p _).2.2.1
  refine ⟨_, opticsInsert_judged hn hl, ?_⟩
  generalize (s.fitted p m).judgeOptic p = u at hport hlive hbell ⊢
  have husable : (u.port p).usable = true := by rw [hport]; rfl
  dsimp only
  rcases hst with ⟨hoff, hen⟩ | hfailed
  · have hstate : (u.port p).state = .off := by rw [hport]; exact hoff
    have henabled : u.portEnabled p = true := by
      rw [portEnabled_of_regs (s := s) (by rw [hport]) (by rw [hbell])]
      exact hen
    rw [if_neg (by rw [hstate]; simp), tryTrain_trains hstate husable henabled hlive]
    exact ⟨movePort_state .., by rw [(movePort_leaves _ _ _ _).2.2, hport]⟩
  · have hstate : (u.port p).state = .failed := by rw [hport]; exact hfailed
    rw [if_pos (by rw [hstate, husable, hlive]; rfl)]
    exact ⟨movePort_state .., by rw [(movePort_leaves _ _ _ _).2.2, port_setPort_same, hport]⟩

theorem opticsInsert_held {m : OpticsInfo} (hn : (s.port p).optic = none) (hl : s.portsLive = true) (hm : 120 < m.advPower) :
    ∃ t, exec (.opticsInsert p m) s = .next t ∧ (t.port p).state = (s.port p).state ∧ (t.port p).held = true ∧ (t.port p).optic = some m ∧
      Raised t 0x0011 1 0 [(32, 1, p.num), (34, 2, m.advPower)] := by
  have hfit : (s.fitted p m).port p = { s.port p with optic := some m, held := false } := port_setPort_same s p _
  have hj := judgeOptic_held (s := s.fitted p m) (p := p) (by rw [hfit]) hm
  have hport : ((s.fitted p m).judgeOptic p).port p = { s.port p with optic := some m, held := true } := by
    rw [hj, event_port, port_setPort_same, hfit]
  have hraised : Raised ((s.fitted p m).judgeOptic p) 0x0011 1 0 [(32, 1, p.num), (34, 2, m.advPower)] := by
    rw [hj]
    exact event_raised _ _ _ _ _
  refine ⟨_, opticsInsert_judged hn hl, ?_⟩
  generalize (s.fitted p m).judgeOptic p = u at hport hraised ⊢
  have husable : (u.port p).usable = false := by rw [hport]; rfl
  dsimp only
  rw [if_neg (by rw [husable]; simp), tryTrain_held husable, hport]
  exact ⟨rfl, rfl, rfl, hraised⟩

theorem opticsRemove_off (ho : (s.port p).optic.isSome = true) : ∃ t, exec (.opticsRemove p) s = .next t ∧ (t.port p).optic = none ∧
    ((s.port p).state = .up ∨ (s.port p).state = .training ∨ (s.port p).state = .down → (t.port p).state = .off) := by
  have hport := port_setPort_same s p fun q => { q with optic := none, held := false }
  have hrun : exec (.opticsRemove p) s = .next (match (s.port p).state with
      | .up | .training | .down => (s.setPort p fun q => { q with optic := none, held := false }).movePort p .off s.nowNs
      | _ => s.setPort p fun q => { q with optic := none, held := false }) := by
    have hnow : (s.setPort p fun q => { q with optic := none, held := false }).nowNs = s.nowNs := by cases p <;> rfl
    change execOpticsRemove p s = _
    unfold execOpticsRemove
    rw [Option.isNone_eq_false_iff.mpr ho]
    dsimp only
    rw [hport, hnow]
    cases (s.port p).state <;> rfl
  have hmoved : ∀ ns, (((s.setPort p fun q => { q with optic := none, held := false }).movePort p .off ns).port p).optic = none := fun ns => by
    rw [(movePort_leaves _ _ _ _).2.2, hport]
  have hstays : ((s.setPort p fun q => { q with optic := none, held := false }).port p).optic = none := by rw [hport]
  refine ⟨_, hrun, ?_⟩
  cases (s.port p).state
  case up => exact ⟨hmoved _, fun _ => movePort_state ..⟩
  case training => exact ⟨hmoved _, fun _ => movePort_state ..⟩
  case down => exact ⟨hmoved _, fun _ => movePort_state ..⟩
  all_goals exact ⟨hstays, fun h => by simp at h⟩

/-! ### Link and training -/

/-- Work of every function that runs through a port that leaves UP is to fail over (R77). -/
theorem movePort_failover {st : PortState} {ns f : Nat} (hup : (s.port p).state = .up) (hst : st ≠ .up) (hf : (s.fn f).state ≠ .absent)
    (hu : s.uses f p = true) : (f, p, s.bell.now) ∈ (s.movePort p st ns).net.failover := by
  obtain ⟨g, hg⟩ : ∃ g, look s.fns f = some g := by
    cases hl : look s.fns f with
    | none => exact absurd (by rw [State.fn, lookD, hl]; rfl) hf
    | some g => exact ⟨g, rfl⟩
  have hstate : g.state ≠ .absent := by
    rwa [State.fn, lookD, hg] at hf
  have hmem : (f, p, s.bell.now) ∈ (s.fns.filter fun e => e.2.state ≠ .absent && s.uses e.1 p).map fun e => (e.1, p, s.bell.now) :=
    List.mem_map.mpr ⟨(f, g), List.mem_filter.mpr ⟨mem_of_look hg, by simp [hstate, hu]⟩, rfl⟩
  have hnet : ∀ (u : State) (l : List (Nat × PortId × Nat)) o, ({ u with out := o, net := { u.net with failover := u.net.failover ++ l } } : State).net.failover =
      u.net.failover ++ l := fun _ _ _ => rfl
  have hbell : ∀ g : Port → Port, (s.setPort p g).bell = s.bell := fun g => (setPort_pwr s p g).2.2.1
  unfold State.movePort
  dsimp only
  rw [hup, if_neg (Ne.symm hst), if_pos rfl, (congrArg State.net (eq_graft (event_mask (P := [.out, .rdma, .bell, .loft, .events, .eventSeq])
    (List.Subset.refl _) 0x0010 1 0 _)) : State.net (State.event _ _ _ _ _) = _)]
  refine (List.mem_append_right _ ?_ : _ ∈ _ ++ _)
  rw [hbell]
  exact hmem

theorem linkFault_down {ns : Nat} (hup : (s.port p).state = .up) : ∃ t, exec (.linkFault p ns) s = .next t ∧ (t.port p).state = .down ∧
    (t.port p).leftUp = some ns ∧ ∀ f, (s.fn f).state ≠ .absent → s.uses f p = true → (f, p, s.bell.now) ∈ t.net.failover := by
  refine ⟨s.movePort p .down ns, ?_, movePort_state .., ?_, fun f hf hu => movePort_failover hup (by decide) hf hu⟩
  · change execLinkFault p ns s = _
    rw [execLinkFault, onUp_of_up hup]
  · rw [movePort_port (by rw [hup]; decide), Port.moved, hup]
    rfl

theorem wakePorts_port (s : State) (q : PortId) : s.wakePorts.port q = s.port q :=
  port_of_mask (P := [.out, .rdma, .fns, .sqs, .cqs]) (by decide) (by decide) (wakePorts_mask (List.Subset.refl _)) q

theorem askHops_port (s : State) (p q : PortId) : (s.askHops p).port q = s.port q :=
  port_of_mask (P := [.out]) (by decide) (by decide) (askHops_mask (List.Subset.refl _) p) q

theorem trainingAttemptEnd_up (ht : (s.port p).state = .training) (hl : s.portsLive = true) :
    ∃ t, exec (.trainingAttemptEnd p true) s = .next t ∧ (t.port p).state = .up ∧ (t.port p).fails = 0 := by
  refine ⟨(((s.setPort p fun q => { q with fails := 0 }).movePort p .up s.nowNs).askHops p).wakePorts, ?_, ?_, ?_⟩
  · change execTrainingAttemptEnd p true s = _
    unfold execTrainingAttemptEnd
    have hnow : (s.setPort p fun q => { q with fails := 0 }).nowNs = s.nowNs := by cases p <;> rfl
    rw [ht, hl]
    rfl
  · rw [wakePorts_port, askHops_port, movePort_state]
  · rw [wakePorts_port, askHops_port, (movePort_leaves _ _ _ _).1, port_setPort_same]

theorem trainingAttemptEnd_fails (ht : (s.port p).state = .training) (hl : s.portsLive = true) :
    ∃ t, exec (.trainingAttemptEnd p false) s = .next t ∧ (t.port p).fails = (s.port p).fails + 1 ∧
      (t.port p).state = if (s.port p).fails + 1 ≥ 8 then .failed else .down := by
  refine ⟨(s.setPort p fun q => { q with fails := (s.port p).fails + 1 }).movePort p (if (s.port p).fails + 1 ≥ 8 then .failed else .down) s.nowNs,
    ?_, ?_, movePort_state ..⟩
  · change execTrainingAttemptEnd p false s = _
    unfold execTrainingAttemptEnd
    rw [ht, hl]
    rfl
  · rw [(movePort_leaves _ _ _ _).1, port_setPort_same]

theorem downRetry_trains (hd : (s.port p).state = .down) (hl : s.portsLive = true) :
    ∃ t, exec (.downRetry p) s = .next t ∧ (t.port p).state = .training := by
  refine ⟨s.movePort p .training s.nowNs, ?_, movePort_state ..⟩
  change execDownRetry p s = _
  rw [execDownRetry, hd, hl]
  rfl

/-! ### PORT_CTRL -/

theorem regPlace_portCtrl (p : PortId) : RegPlace (portBase p + 8) (.port p 0x008) := by
  cases p <;> exact ⟨rfl, by decide, by decide⟩

/-- The word a write of PORT_CTRL leaves: bits 0 and 1 are those written. -/
theorem getLsbD_merged_ctrl {v : W64} {i : Nat} (hi : i < 2) : (s.merged (.port p 0x008) v).getLsbD i = v.getLsbD i := by
  have h : s.merged (.port p 0x008) v = (s.portWord p 0x008 &&& ~~~((1 : W64) ||| 2 ||| 0)) ||| (v &&& (1 ||| 2)) ||| (s.portWord p 0x008 &&& 0 &&& ~~~v) := rfl
  rw [h]
  generalize s.portWord p 0x008 = c
  obtain rfl | rfl : i = 0 ∨ i = 1 := by omega
  · simp
  · simp

theorem bit_merged_ctrl {v : W64} {i : Nat} (hi : i < 2) : bit (s.merged (.port p 0x008) v).toNat i = bit v.toNat i := by
  rw [bit_toNat, bit_toNat, getLsbD_merged_ctrl hi]

theorem touch_ctrl_ne {v c : W64} (h : v.getLsbD 0 ≠ c.getLsbD 0 ∨ v.getLsbD 1 = true) : ((v ^^^ c) &&& 1) ||| (v &&& 2) ≠ 0 := by
  intro hz
  have h0 : (((v ^^^ c) &&& 1) ||| (v &&& 2)).getLsbD 0 = false := by rw [hz]; exact BitVec.getLsbD_zero
  have h1 : (((v ^^^ c) &&& 1) ||| (v &&& 2)).getLsbD 1 = false := by rw [hz]; exact BitVec.getLsbD_zero
  simp at h h0 h1
  rcases h with h | h
  · exact h h0
  · rw [h] at h1
    exact absurd h1 (by decide)

/-- A write of PORT_CTRL that changes ENABLE or asks for a retrain, and leaves a port UP, is carried out. -/
theorem writeWord_portCtrl {f : Nat} {g : PortId} (h : Manages s f g) {v : W64}
    (ht : bit v.toNat 0 ≠ s.portEnabled p ∨ bit v.toNat 1 = true) (hc : bit v.toNat 0 = true ∨ (s.port p.other).state = .up) :
    s.writeWord (.rdma f g) (portBase p + 8) v = s.putPortCtrl p (s.merged (.port p 0x008) v) := by
  have htouch : (s.touch (.port p 0x008) v).1 ≠ 0 := by
    have he : (s.portWord p 0x008).getLsbD 0 = s.portEnabled p := (bit_toNat _ _).symm
    rw [bit_toNat, bit_toNat, ← he] at ht
    exact touch_ctrl_ne ht
  have hcheck : s.regCheck (.rdma f g) [(.port p 0x008, s.merged (.port p 0x008) v)] (.port p 0x008) (s.merged (.port p 0x008) v) = none := by
    show (if !bit (s.merged (.port p 0x008) v).toNat 0 && (s.port p.other).state ≠ .up then some 3 else none) = none
    rw [bit_merged_ctrl (by decide)]
    rcases hc with hc | hc <;> simp [hc]
  rw [writeWord_puts h (regPlace_portCtrl p) fun _ => hcheck, State.putWord, if_pos (.inl htouch)]
  rfl

/-- The state with PORT_CTRL's word set. -/
theorem setPortWord_ctrl (s : State) (p : PortId) (v : W64) : ((s.setPortWord p 0x008 v).port p) = { s.port p with regs := put (s.port p).regs 0x008 v } :=
  port_setPort_same s p _

theorem portEnabled_setPortWord (s : State) (p : PortId) (v : W64) : (s.setPortWord p 0x008 v).portEnabled p = bit v.toNat 0 := by
  unfold State.portEnabled State.portWord
  rw [setPortWord_ctrl, lookD, look_put_same]
  simp [addrReg]

theorem and_one_bit (v : W64) : bit (v &&& 1).toNat 0 = bit v.toNat 0 := by
  rw [bit_toNat, bit_toNat]
  simp

theorem putPortCtrl_off {v : W64} (h0 : bit v.toNat 0 = false) :
    ((s.putPortCtrl p v).port p).state = .off ∧ (s.putPortCtrl p v).portEnabled p = false := by
  unfold State.putPortCtrl
  dsimp only
  rw [h0, Bool.not_false, if_pos rfl, Bool.and_false, Bool.false_and, Bool.false_and, Bool.false_and, if_neg Bool.false_ne_true]
  refine ⟨movePort_state .., ?_⟩
  exact (movePort_enabled _ _ _ _).trans ((portEnabled_setPortWord _ _ _).trans ((and_one_bit v).trans h0))

theorem setPortWord_live (s : State) (p : PortId) (o : Nat) (v : W64) : (s.setPortWord p o v).portsLive = s.portsLive := (setPort_pwr s p _).2.2.2

theorem putPortCtrl_trains {v : W64} (h0 : bit v.toNat 0 = true) (h1 : bit v.toNat 1 = false) (he : s.portEnabled p = false)
    (ho : (s.port p).state = .off) (hu : (s.port p).usable = true) (hl : s.portsLive = true) :
    ((s.putPortCtrl p v).port p).state = .training ∧ (s.putPortCtrl p v).portEnabled p = true := by
  have hport := setPortWord_ctrl s p (v &&& 1)
  have hen : (s.setPortWord p 0x008 (v &&& 1)).portEnabled p = true := (portEnabled_setPortWord _ _ _).trans ((and_one_bit v).trans h0)
  have htry := tryTrain_trains (s := s.setPortWord p 0x008 (v &&& 1)) (p := p) (by rw [hport]; exact ho) (by rw [hport]; exact hu) hen
    (by rw [setPortWord_live, hl])
  unfold State.putPortCtrl
  dsimp only
  rw [h0, h1, he, Bool.not_true, if_neg Bool.false_ne_true, if_neg Bool.false_ne_true, Bool.false_and, Bool.false_and, Bool.false_and, Bool.false_and,
    if_neg Bool.false_ne_true, htry]
  exact ⟨movePort_state .., (movePort_enabled _ _ _ _).trans hen⟩

theorem putPortCtrl_retrains {v : W64} (h0 : bit v.toNat 0 = true) (h1 : bit v.toNat 1 = true) (he : s.portEnabled p = true)
    (ho : (s.port p).state = .failed) (hu : (s.port p).usable = true) (hl : s.portsLive = true) :
    ((s.putPortCtrl p v).port p).state = .training ∧ ((s.putPortCtrl p v).port p).fails = 0 := by
  have hport := setPortWord_ctrl s p (v &&& 1)
  have hfailed : ((s.setPortWord p 0x008 (v &&& 1)).port p).state = .failed := by rw [hport]; exact ho
  have husable : ((s.setPortWord p 0x008 (v &&& 1)).port p).usable = true := by rw [hport]; exact hu
  unfold State.putPortCtrl
  dsimp only
  rw [h0, h1, he, Bool.not_true, if_neg Bool.false_ne_true, if_pos rfl, hfailed, husable, setPortWord_live, hl, if_pos (by simp)]
  exact ⟨movePort_state .., by rw [(movePort_leaves _ _ _ _).1, port_setPort_same]⟩

theorem portEnable_off {f : Nat} {g : PortId} (h : Manages s f g) (he : s.portEnabled p = true) (ho : (s.port p.other).state = .up) :
    ∃ t, exec (.portEnable (.rdma f g) p false) s = .next t ∧ (t.port p).state = .off ∧ t.portEnabled p = false :=
  ⟨_, congrArg go (writeWord_portCtrl (v := BitVec.ofNat 64 (b01 false)) h (.inl (by rw [he]; decide)) (.inr ho)),
    putPortCtrl_off ((bit_merged_ctrl (by decide)).trans (by decide))⟩

theorem portEnable_trains {f : Nat} {g : PortId} (h : Manages s f g) (he : s.portEnabled p = false) (ho : (s.port p).state = .off)
    (hu : (s.port p).usable = true) (hl : s.portsLive = true) :
    ∃ t, exec (.portEnable (.rdma f g) p true) s = .next t ∧ (t.port p).state = .training ∧ t.portEnabled p = true :=
  ⟨_, congrArg go (writeWord_portCtrl (v := BitVec.ofNat 64 (b01 true)) h (.inl (by rw [he]; decide)) (.inl (by decide))),
    putPortCtrl_trains ((bit_merged_ctrl (by decide)).trans (by decide)) ((bit_merged_ctrl (by decide)).trans (by decide)) he ho hu hl⟩

theorem portRetrain_trains {f : Nat} {g : PortId} (h : Manages s f g) (he : s.portEnabled p = true) (ho : (s.port p).state = .failed)
    (hu : (s.port p).usable = true) (hl : s.portsLive = true) :
    ∃ t, exec (.portRetrain (.rdma f g) p) s = .next t ∧ (t.port p).state = .training ∧ (t.port p).fails = 0 := by
  have h0 : bit (s.portWord p 8 ||| 2).toNat 0 = true := by
    have hword : (s.portWord p 8).getLsbD 0 = true := (bit_toNat _ _).symm.trans he
    rw [bit_toNat, BitVec.getLsbD_or, hword, Bool.true_or]
  have h1 : bit (s.portWord p 8 ||| 2).toNat 1 = true := by
    rw [bit_toNat, BitVec.getLsbD_or, show (2 : W64).getLsbD 1 = true by decide, Bool.or_true]
  exact ⟨_, congrArg go (writeWord_portCtrl h (.inr h1) (.inl h0)),
    putPortCtrl_retrains ((bit_merged_ctrl (by decide)).trans h0) ((bit_merged_ctrl (by decide)).trans h1) he ho hu hl⟩

/-- Settles O40: each row of Table 3.5. -/
theorem portStates : Obligations.PortStates := by
  intro s p q
  exact ⟨fun m hn hl => ⟨fun hm hst => opticsInsert_trains hn hl hm hst, fun hm => opticsInsert_held hn hl hm⟩, opticsRemove_off,
    fun ns hup => linkFault_down hup, fun ht hl => ⟨trainingAttemptEnd_up ht hl, trainingAttemptEnd_fails ht hl⟩, fun hd hl => downRetry_trains hd hl,
    fun f g h => ⟨fun he ho => portEnable_off h he ho, fun he ho hu hl => portEnable_trains h he ho hu hl,
      fun he ho hu hl => portRetrain_trains h he ho hu hl⟩⟩

end Sys2Proof.Machine
end

section
/-! The PTP time input (R87, R88, R330, R331). -/

namespace Sys2Proof.Machine

variable {s t u : State} {P : List Part} {p : PortId}

/-! ### The best transmitter -/

/-- One transmitter is at least as good as another (R87). -/
def leads (b x : Announce) : Prop := b.rank < x.rank ∨ (b.rank = x.rank ∧ b.src ≤ x.src)

theorem outranks_iff (a b : Announce) : outranks a b = true ↔ a.rank < b.rank ∨ (a.rank = b.rank ∧ a.src < b.src) := by
  simp [outranks]

theorem bestOf_leads : ∀ l : List Announce, l ≠ [] → ∃ b, bestOf l = some b ∧ b ∈ l ∧ ∀ x ∈ l, leads b x
  | [], h => absurd rfl h
  | a :: l, _ => by
    by_cases hl : l = []
    · subst hl
      exact ⟨a, rfl, List.mem_singleton_self a, fun x hx => by rw [List.mem_singleton.mp hx]; exact .inr ⟨rfl, Nat.le_refl _⟩⟩
    · obtain ⟨b, hb, hmem, hbest⟩ := bestOf_leads l hl
      have hcons : bestOf (a :: l) = if outranks a b then some a else some b := by
        rw [bestOf, hb]
      by_cases ho : outranks a b = true
      · refine ⟨a, by rw [hcons, if_pos ho], List.mem_cons_self .., fun x hx => ?_⟩
        rw [outranks_iff] at ho
        rcases List.mem_cons.mp hx with rfl | hx
        · exact .inr ⟨rfl, Nat.le_refl _⟩
        · have := hbest x hx
          unfold leads at *
          omega
      · refine ⟨b, by rw [hcons, if_neg ho], List.mem_cons_of_mem _ hmem, fun x hx => ?_⟩
        rw [outranks_iff] at ho
        rcases List.mem_cons.mp hx with rfl | hx
        · unfold leads
          omega
        · exact hbest x hx

theorem ptpAnnounce_kept {a : Announce} (hup : (s.port p).state = .up) (ha : a.domain = s.net.ptpDomain) : exec (.ptpAnnounce p a) s =
    .next (s.setPort p fun q => { q with ptpHeard := a :: q.ptpHeard.filter fun b => b.src ≠ a.src }) := by
  change execPtpAnnounce p a s = _
  rw [execPtpAnnounce, onUp_of_up hup]
  exact congrArg go (if_neg (not_not.mpr ha))

theorem setPort_net (s : State) (p : PortId) (g : Port → Port) : (s.setPort p g).net = s.net ∧ (s.setPort p g).clk = s.clk := by
  cases p <;> exact ⟨rfl, rfl⟩

theorem ptpAnnounce_answers {a : Announce} (hup : (s.port p).state = .up) (ha : a.domain = s.net.ptpDomain) :
    ∃ t b, exec (.ptpAnnounce p a) s = .next t ∧ (∀ x, x ∈ (t.port p).ptpHeard ↔ x = a ∨ (x ∈ (s.port p).ptpHeard ∧ x.src ≠ a.src)) ∧
      t.transmitter p = some b ∧ b ∈ (t.port p).ptpHeard ∧ b.domain = a.domain ∧
      ∀ x ∈ (t.port p).ptpHeard, x.domain = a.domain → b.rank < x.rank ∨ (b.rank = x.rank ∧ b.src ≤ x.src) := by
  have hport := port_setPort_same s p fun q => { q with ptpHeard := a :: q.ptpHeard.filter fun b => b.src ≠ a.src }
  have hnet := (setPort_net s p fun q => { q with ptpHeard := a :: q.ptpHeard.filter fun b => b.src ≠ a.src }).1
  have hrun := ptpAnnounce_kept hup ha
  generalize (s.setPort p fun q => { q with ptpHeard := a :: q.ptpHeard.filter fun b => b.src ≠ a.src }) = t at hport hnet hrun
  have hheard : (t.port p).ptpHeard = a :: (s.port p).ptpHeard.filter fun b => b.src ≠ a.src := by rw [hport]
  have hstate : (t.port p).state = .up := by rw [hport]; exact hup
  have hmem : a ∈ (t.port p).ptpHeard.filter fun x => decide (x.domain = t.net.ptpDomain) :=
    List.mem_filter.mpr ⟨by rw [hheard]; exact List.mem_cons_self .., by rw [hnet]; exact decide_eq_true ha⟩
  obtain ⟨b, hb, hin, hbest⟩ := bestOf_leads _ (List.ne_nil_of_mem hmem)
  obtain ⟨hin, hdom⟩ := List.mem_filter.mp hin
  have hdom : b.domain = a.domain := by rw [ha, ← hnet]; exact of_decide_eq_true hdom
  refine ⟨t, b, hrun, fun x => ?_, ?_, hin, hdom, fun x hx hxd => hbest x (List.mem_filter.mpr ⟨hx, ?_⟩)⟩
  · rw [hheard, List.mem_cons, List.mem_filter]
    simp
  · rw [State.transmitter, if_pos hstate]
    exact hb
  · rw [hxd, hnet]
    exact decide_eq_true ha

/-! ### Sync, and the clock it sets -/

theorem listens_up {src d : Nat} (h : s.listens p src d = true) : (s.port p).state = .up := by
  by_contra hn
  simp [State.listens, State.transmitter, hn] at h

theorem setClock_calendar (s : State) (v : Int) : (s.setClock v).calendar = v := by
  have hc := setClock_base s v
  have hw : (s.setClock v).when = s.when := by
    unfold State.setClock
    dsimp only
    split
    · exact event_when ..
    · rfl
  have hnow : (s.setClock v).nowNs = s.nowNs := by
    have h1 : (s.setClock v).bell.now = s.bell.now := congrArg (fun x : Nat × Nat × Nat => x.1) hw
    have h2 : (s.setClock v).bell.active = s.bell.active := congrArg (fun x : Nat × Nat × Nat => x.2.2) hw
    unfold State.nowNs State.period
    rw [h1, h2]
  unfold State.calendar
  rw [hc, hnow]
  simp

/-- A clock that steps or slews is set, and steps by the whole offset. -/
theorem stepOrSlew (s : State) (c : Prop) [Decidable c] (off : Int) (since : Nat) :
    ∃ v, (if c then s.setClock (s.calendar - calOf off) else s.slewClock off since) = s.setClock v ∧ (c → v = s.calendar - calOf off) := by
  by_cases h : c
  · exact ⟨_, if_pos h, fun _ => rfl⟩
  · exact ⟨_, (if_neg h).trans rfl, fun hc => absurd hc h⟩

/-- What a measured Sync leaves of the clock (R330). -/
theorem measure_clk (s : State) (off : Int) (since : Nat) :
    (s.measure off since).clk.offset = off ∧ (s.measure off since).clk.syncs = s.clk.syncs + 1 ∧
      (s.clk.st ≠ 2 → s.clk.syncs + 1 < 8 → (s.measure off since).clk.st = s.clk.st ∧ (s.measure off since).calendar = s.calendar) ∧
      (s.clk.st ≠ 2 → 8 ≤ s.clk.syncs + 1 → (s.measure off since).clk.st = 2 ∧
        (1000000 < off.natAbs → (s.measure off since).calendar = s.calendar - off * 2 ^ 32 / 1000000000)) ∧
      (s.clk.st = 2 → (s.measure off since).clk.st = 2 ∧
        (1000000000 < off.natAbs → (s.measure off since).calendar = s.calendar - off * 2 ^ 32 / 1000000000)) := by
  unfold State.measure
  dsimp only
  by_cases h2 : s.clk.st = 2
  · rw [if_pos h2]
    obtain ⟨v, hv, hstep⟩ := stepOrSlew { s with clk := { s.clk with offset := off, syncs := s.clk.syncs + 1 } } (off.natAbs > 1000000000) off since
    rw [hv, setClock_base, setClock_calendar]
    exact ⟨rfl, rfl, fun h => absurd h2 h, fun h => absurd h2 h, fun _ => ⟨h2, hstep⟩⟩
  · rw [if_neg h2]
    by_cases h8 : s.clk.syncs + 1 ≥ 8
    · rw [if_pos h8]
      obtain ⟨v, hv, hstep⟩ := stepOrSlew { s with clk := { s.clk with offset := off, syncs := s.clk.syncs + 1, st := 2 } } (off.natAbs > 1000000) off since
      rw [hv, setClock_base, setClock_calendar]
      exact ⟨rfl, rfl, fun _ h => absurd h8 (by omega), fun _ _ => ⟨rfl, hstep⟩, fun h => absurd h h2⟩
    · rw [if_neg h8]
      exact ⟨rfl, rfl, fun _ _ => ⟨rfl, rfl⟩, fun _ h => absurd h h8, fun h => absurd h h2⟩

theorem measure_port (s : State) (off : Int) (since : Nat) (q : PortId) : (s.measure off since).port q = s.port q :=
  port_of_mask (P := [.out, .rdma, .bell, .loft, .events, .eventSeq, .clk]) (by decide) (by decide) (measure_mask (List.Subset.refl _) off since) q

theorem tell_clk (s : State) (m : Msg) : (s.tell m).clk = s.clk ∧ (s.tell m).calendar = s.calendar ∧ ∀ q, (s.tell m).port q = s.port q :=
  ⟨rfl, rfl, fun q => by cases q <;> rfl⟩

theorem setPort_calendar (s : State) (p : PortId) (g : Port → Port) : (s.setPort p g).calendar = s.calendar := by cases p <;> rfl

theorem ptpSync_measures {src : Nat} {off : Int} (hl : s.listens p src s.net.ptpDomain = true) (hp : p = s.net.ptpInUse) :
    ∃ g since, (∀ q, (g q).lastSync = some s.bell.now) ∧
      exec (.ptpSync p ⟨src, s.net.ptpDomain⟩ off) s = .next (((s.setPort p g).measure off since).tell (.delayReq p)) := by
  refine ⟨fun q => { q with
      lastSync := some s.bell.now
      syncSince := if (s.port p).lastSync.isNone || s.noSync p then some s.bell.now else q.syncSince }, match (s.port p).lastSync with
    | some b => if (s.port p).lastSync.isNone || s.noSync p then 0 else s.sinceBell b
    | none => 0, fun _ => rfl, ?_⟩
  change execPtpSync p ⟨src, s.net.ptpDomain⟩ off s = _
  unfold execPtpSync
  rw [onUp_of_up (listens_up hl)]
  dsimp only
  rw [hl, (setPort_net s p _).1, if_pos hp]
  rfl

theorem ptpSync_answers {src : Nat} {off : Int} (hl : s.listens p src s.net.ptpDomain = true) (hp : p = s.net.ptpInUse) :
    ∃ t, exec (.ptpSync p ⟨src, s.net.ptpDomain⟩ off) s = .next t ∧ (t.port p).lastSync = some s.bell.now ∧ t.clk.offset = off ∧
      t.clk.syncs = s.clk.syncs + 1 ∧ t.told (.delayReq p) = true ∧
      (s.clk.st ≠ 2 → s.clk.syncs + 1 < 8 → t.clk.st = s.clk.st ∧ t.calendar = s.calendar) ∧
      (s.clk.st ≠ 2 → 8 ≤ s.clk.syncs + 1 → t.clk.st = 2 ∧ (1000000 < off.natAbs → t.calendar = s.calendar - off * 2 ^ 32 / 1000000000)) ∧
      (s.clk.st = 2 → t.clk.st = 2 ∧ (1000000000 < off.natAbs → t.calendar = s.calendar - off * 2 ^ 32 / 1000000000)) := by
  obtain ⟨g, since, hg, hrun⟩ := ptpSync_measures (off := off) hl hp
  obtain ⟨hclk, hcal, hport⟩ := tell_clk ((s.setPort p g).measure off since) (.delayReq p)
  obtain ⟨hoff, hsyncs, hfew, hlock, hstep⟩ := measure_clk (s.setPort p g) off since
  rw [setPort_calendar, (setPort_net s p g).2] at *
  refine ⟨_, hrun, ?_, by rw [hclk, hoff], by rw [hclk, hsyncs], tell_told _ _, ?_, ?_, ?_⟩
  · rw [hport, measure_port, port_setPort_same]
    exact hg _
  all_goals rw [hclk, hcal]
  · exact hfew
  · exact hlock
  · exact hstep

theorem ptpDelayResp_keeps {src : Nat} {d : Int} (hl : s.listens s.net.ptpInUse src s.net.ptpDomain = true) :
    exec (.ptpDelayResp s.net.ptpInUse ⟨src, d⟩) s = .next { s with clk := { s.clk with delay := d } } := by
  change execPtpDelayResp s.net.ptpInUse ⟨src, d⟩ s = _
  unfold execPtpDelayResp
  rw [onUp_of_up (listens_up hl)]
  dsimp only
  rw [hl, if_pos (by simp)]

/-! ### Sync lost and returned -/

theorem transmitter_setPort_other {p q : PortId} (h : q ≠ p) (s : State) (g : Port → Port) : (s.setPort p g).transmitter q = s.transmitter q := by
  unfold State.transmitter
  rw [port_setPort_other h, (setPort_net s p g).1]

theorem usePtp_fields (s : State) (p q : PortId) : (s.usePtp p).port q = s.port q ∧ (s.usePtp p).net.ptpInUse = p ∧
    (s.usePtp p).clk.st = s.clk.st := by
  cases q <;> exact ⟨rfl, rfl, rfl⟩

/-- The clock runs on without Sync (R331). -/
def State.heldOver (s : State) : State := { s with clk := { s.clk with st := if s.clk.st = 2 then 3 else s.clk.st, syncs := 0 } }

theorem heldOver_fields (s : State) (q : PortId) : s.heldOver.port q = s.port q ∧ s.heldOver.net = s.net ∧
    s.heldOver.clk.st = if s.clk.st = 2 then 3 else s.clk.st := by
  cases q <;> exact ⟨rfl, rfl, rfl⟩

theorem ptpSyncLoss_passes (hn : s.noSync s.net.ptpInUse = true) : ∃ t, exec .ptpSyncLoss s = .next t ∧ (t.port s.net.ptpInUse).ptpHeard = [] ∧
    (if s.net.ptpSource = 2 ∧ (s.transmitter s.net.ptpInUse.other).isSome = true then
      t.net.ptpInUse = s.net.ptpInUse.other ∧ t.clk.st = s.clk.st
    else t.net.ptpInUse = s.net.ptpInUse ∧ t.clk.st = if s.clk.st = 2 then 3 else s.clk.st) := by
  have hother : s.net.ptpInUse.other ≠ s.net.ptpInUse := by cases s.net.ptpInUse <;> decide
  have hport := port_setPort_same s s.net.ptpInUse fun q => { q with ptpHeard := [], syncSince := none }
  obtain ⟨hnet, hclk⟩ := setPort_net s s.net.ptpInUse fun q => { q with ptpHeard := [], syncSince := none }
  have htrans := transmitter_setPort_other hother s fun q => { q with ptpHeard := [], syncSince := none }
  have hrun : exec .ptpSyncLoss s = .next (let u := s.setPort s.net.ptpInUse fun q => { q with ptpHeard := [], syncSince := none }
      if u.net.ptpSource = 2 && (u.transmitter s.net.ptpInUse.other).isSome then u.usePtp s.net.ptpInUse.other
      else u.heldOver) := by
    change execPtpSyncLoss s = _
    unfold execPtpSyncLoss
    dsimp only
    rw [hn]
    exact (apply_ite go _ _ _).symm
  refine ⟨_, hrun, ?_⟩
  generalize (s.setPort s.net.ptpInUse fun q => { q with ptpHeard := [], syncSince := none }) = u at hport hnet hclk htrans ⊢
  have hsource : u.net.ptpSource = s.net.ptpSource := congrArg Net.ptpSource hnet
  dsimp only
  rw [hsource, htrans]
  by_cases hc : s.net.ptpSource = 2 ∧ (s.transmitter s.net.ptpInUse.other).isSome = true
  · rw [if_pos (by simpa using hc), if_pos hc]
    obtain ⟨hp, huse, hst⟩ := usePtp_fields u s.net.ptpInUse.other s.net.ptpInUse
    exact ⟨by rw [hp, hport], huse, by rw [hst, hclk]⟩
  · rw [if_neg (by simpa using hc), if_neg hc]
    obtain ⟨hp, hsame, hst⟩ := heldOver_fields u s.net.ptpInUse
    exact ⟨by rw [hp, hport], congrArg Net.ptpInUse (hsame.trans hnet), by rw [hst, hclk]⟩

theorem ptpSourceReturn_returns {b : Nat} (hb : s.portA.syncSince = some b) (h2 : s.net.ptpSource = 2) (hu : s.net.ptpInUse = .B)
    (hn : s.noSync .A = false) (hlong : 60000000000 ≤ s.sinceBell b) :
    ∃ t, exec .ptpSourceReturn s = .next t ∧ t.net.ptpInUse = .A ∧ t.clk.st = s.clk.st := by
  refine ⟨s.usePtp .A, ?_, rfl, rfl⟩
  change execPtpSourceReturn s = _
  unfold execPtpSourceReturn
  rw [hb]
  dsimp only
  rw [h2, hu, hn, decide_eq_true hlong]
  rfl

/-- Settles O42: each row of the time input. -/
theorem timeInput : Obligations.TimeInput := by
  intro s p c u
  exact ⟨fun a hup ha => ptpAnnounce_answers hup ha, fun src off hl hp => ptpSync_answers hl hp, fun src d hl => ptpDelayResp_keeps hl,
    ptpSyncLoss_passes, fun b hb h2 hu hn hlong => ptpSourceReturn_returns hb h2 hu hn hlong⟩

end Sys2Proof.Machine
end

section
/-! Queue pairs and their congestion control (R73, R81, R82, R579, R604). -/

namespace Sys2Proof.Machine

variable {s t u : State} {P : List Part} {p : PortId} {f : Nat} {ev : Bool}

/-! ### The word of a queue pair -/

/-- The bits of a word with another state: those of the state field are the state's, the rest stand. -/
theorem getLsbD_withQp (w : W64) (q : QpState) {i : Nat} (hi : i < 64) : (withQpState w q).getLsbD i =
    if 48 ≤ i ∧ i < 51 then (BitVec.ofNat 64 q.num <<< 48).getLsbD i else w.getLsbD i := by
  unfold withQpState
  rw [BitVec.getLsbD_or, BitVec.getLsbD_and, BitVec.getLsbD_not]
  have hmask : (0x0007000000000000 : W64).getLsbD i = decide (48 ≤ i ∧ i < 51) := by
    interval_cases i <;> decide
  have hstate : ¬(48 ≤ i ∧ i < 51) → (BitVec.ofNat 64 q.num <<< 48).getLsbD i = false := fun h => by
    interval_cases i <;> cases q <;> simp at h ⊢ <;> decide
  rw [hmask]
  by_cases h : 48 ≤ i ∧ i < 51
  · simp [h]
  · rw [if_neg h, hstate h]
    simp [h, hi]

theorem extract_withQp (w : W64) (q : QpState) {lo n : Nat} (hn : lo + n ≤ 64) (h : lo + n ≤ 48 ∨ 51 ≤ lo) :
    (withQpState w q).extractLsb' lo n = w.extractLsb' lo n := by
  refine BitVec.eq_of_getLsbD_eq fun i hi => ?_
  rw [BitVec.getLsbD_extractLsb', BitVec.getLsbD_extractLsb', getLsbD_withQp _ _ (by omega), if_neg (by omega)]

theorem wbits_withQp (w : W64) (q : QpState) {hi lo : Nat} (hh : lo ≤ hi) (hn : hi < 64) (h : hi < 48 ∨ 51 ≤ lo) :
    wbits (withQpState w q) hi lo = wbits w hi lo := by
  rw [wbits_eq_extract, wbits_eq_extract, extract_withQp w q (by omega) (by omega)]

theorem qpBits_withQp (w : W64) (q : QpState) : wbits (withQpState w q) 50 48 = q.num := by
  have h : (withQpState w q).extractLsb' 48 3 = (BitVec.ofNat 64 q.num <<< 48).extractLsb' 48 3 := by
    refine BitVec.eq_of_getLsbD_eq fun i hi => ?_
    rw [BitVec.getLsbD_extractLsb', BitVec.getLsbD_extractLsb', getLsbD_withQp _ _ (by omega), if_pos (by omega)]
  rw [wbits_eq_extract]
  refine (congrArg BitVec.toNat h).trans ?_
  cases q <;> decide

theorem qpStateOf_withQp (w : W64) (q : QpState) : qpStateOf (withQpState w q) = q := by
  have h : bits (withQpState w q).toNat 50 48 = q.num := qpBits_withQp w q
  generalize withQpState w q = v at h ⊢
  unfold qpStateOf
  rw [h]
  cases q <;> rfl

theorem withQp_withQp (w : W64) (a b : QpState) : withQpState (withQpState w a) b = withQpState w b := by
  refine BitVec.eq_of_getLsbD_eq fun i hi => ?_
  rw [getLsbD_withQp (withQpState w a) b hi, getLsbD_withQp w b hi, getLsbD_withQp w a hi]
  by_cases h : 48 ≤ i ∧ i < 51
  · rw [if_pos h, if_pos h]
  · rw [if_neg h, if_neg h, if_neg h]

/-! ### A function's queue pairs -/

theorem fn_of_fns (h : t.fns = s.fns) (f : Nat) : t.fn f = s.fn f := by
  unfold State.fn
  rw [h]

theorem fn_of_mask (h : .fns ∉ P) (e : t.mask P = s.mask P) (f : Nat) : t.fn f = s.fn f := fn_of_fns (fns_of_mask h e) f

theorem fn_setFn_other {f f' : Nat} (h : f' ≠ f) (g : Fn → Fn) : (s.setFn f g).fn f' = s.fn f' := lookD_adjD_other _ _ _ _ h

theorem qpWord_setQp (g : Fn) (p : PortId) (ev : Bool) (w : W64) : (g.setQp p ev w).qpWord p ev = w := lookD_putD_same _ _ _ _

theorem qpState_setQpState (g : Fn) (p : PortId) (ev : Bool) (q : QpState) : (g.setQpState p ev q).qpState p ev = q := by
  unfold Fn.setQpState Fn.qpState
  rw [qpWord_setQp, qpStateOf_withQp]

theorem fetchAll_steady (s : State) (f : Nat) : (s.fetchAll.fn f).steady = (s.fn f).steady := by
  unfold State.fetchAll
  exact foldl_same (fun x : State => (x.fn f).steady) (fun x g => (fetchFn_runs (m := 0) (m' := 0) x g).fn f) _ _

/-- Woken ports leave of a function everything but the ring that was served. -/
theorem wakePorts_steady (s : State) (f : Nat) : (s.wakePorts.fn f).steady = (s.fn f).steady :=
  (fetchAll_steady _ f).trans (congrArg Fn.steady (fn_of_mask (P := [.out, .rdma, .cqs]) (by decide) (reissueAll_mask (List.Subset.refl _) _) f))

theorem wakePorts_qp (s : State) (f : Nat) : (s.wakePorts.fn f).qp = (s.fn f).qp := (congrArg Fn.qp (wakePorts_steady s f) :)

theorem qpState_of_qp {g g' : Fn} (h : g.qp = g'.qp) (p : PortId) (ev : Bool) : g.qpState p ev = g'.qpState p ev := by
  unfold Fn.qpState Fn.qpWord
  rw [h]

theorem resolve_fn (s : State) (p : PortId) (a : W128) (f : Nat) : (s.resolve p a).fn f = s.fn f :=
  fn_of_mask (P := [.out, .portA, .portB]) (by decide) (resolve_mask (List.Subset.refl _) p a) f

/-- A function with a queue pair back in RESET (R579). -/
def Fn.emptied (g : Fn) (p : PortId) (ev : Bool) : Fn :=
  { g.setQpState p ev .reset with
    qpTries := (if ev then del (del g.qpTries (2 * p.num + 1)) (4 + p.num) else del g.qpTries (2 * p.num))
    cc := del g.cc (2 * p.num + b01 ev) }

theorem qpReset_fns (s : State) (f : Nat) (p : PortId) (ev : Bool) : (s.qpReset_ f p ev).fns = (s.setFn f fun g => g.emptied p ev).fns := by
  unfold State.qpReset_
  dsimp only
  split <;> rfl

theorem qpReset_fn (s : State) (f : Nat) (p : PortId) (ev : Bool) : ((s.qpReset_ f p ev).fn f).qpState p ev = .reset := by
  rw [fn_of_fns (qpReset_fns s f p ev), fn_setFn_same]
  exact qpState_setQpState (s.fn f) p ev .reset

/-! ### The connection manager (R73) -/

theorem managerQp_number (hf : f < 2) (ev : Bool) : managerQp (qpNumber f ev) = some (f, ev) := by
  obtain rfl | rfl : f = 0 ∨ f = 1 := by omega
  all_goals cases ev <;> rfl

theorem tell_fn (s : State) (m : Msg) (f : Nat) : (s.tell m).fn f = s.fn f := rfl

/-- A connection request that the manager's queue pair accepts, with the word it brings. -/
structure CmTaken (s : State) (p : PortId) (f : Nat) (ev : Bool) (q : CmReq) (w : W64) : Prop where
  up : (s.port p).state = .up
  manager : f < 2
  number : q.qpn = qpNumber f ev
  service : q.sid = s.portWord p 0x160
  mtu : ∃ m, s.cmMtu p q.mtu q.src = some m ∧
    w = qpWordOf q.rqpn.toNat q.psn.toNat .rtr m (max 8 (min 20 q.timeout)) (min 7 q.retry) (min 7 q.rnr)
  free : (s.fn f).qpState p ev = .reset
  other : (s.fn f).qpState p (!ev) = .reset ∨ (s.fn f).addr p = q.src

theorem CmTaken.runs {q : CmReq} {w : W64} (h : CmTaken s p f ev q w) : exec (.cmReq p q) s = .next (((s.setFn f fun g =>
    { (g.setQp p ev w).setAddr p q.src with qpTries := del g.qpTries (2 * p.num + b01 ev) }).resolve p q.src).tell (.cmRep p q.qpn q.psn.toNat)) := by
  obtain ⟨m, hm, hw⟩ := h.mtu
  change execCmReq p q s = _
  have hother : ((s.fn f).qpState p (!ev) ≠ .reset && (s.fn f).addr p ≠ q.src) = false := by
    rcases h.other with ho | ho <;> simp [ho]
  unfold execCmReq
  rw [onUp_of_up h.up]
  unfold State.cmReq
  rw [h.number, managerQp_number h.manager]
  dsimp only
  rw [hm]
  dsimp only
  rw [h.free, hother, if_neg (by simp [h.service]), ← hw]

theorem CmTaken.answers {q : CmReq} {w : W64} (h : CmTaken s p f ev q w) : ∃ t, exec (.cmReq p q) s = .next t ∧ (t.fn f).addr p = q.src ∧
    (t.fn f).qpWord p ev = w ∧ t.told (.cmRep p q.qpn q.psn.toNat) = true := by
  refine ⟨_, h.runs, ?_, ?_, tell_told _ _⟩
  · rw [tell_fn, resolve_fn, fn_setFn_same]
    exact lookD_putD_same _ _ _ _
  · rw [tell_fn, resolve_fn, fn_setFn_same]
    exact qpWord_setQp (s.fn f) p ev _

theorem cmRtu_rts (hup : (s.port p).state = .up) (hf : f < 2) (hr : (s.fn f).qpState p ev = .rtr) :
    ∃ t, exec (.cmRtu p (qpNumber f ev)) s = .next t ∧ (t.fn f).qpState p ev = .rts := by
  refine ⟨(s.setFn f fun g => g.setQpState p ev .rts).wakePorts, ?_, ?_⟩
  · change execCmRtu p (qpNumber f ev) s = _
    unfold execCmRtu
    rw [onUp_of_up hup, managerQp_number hf]
    dsimp only
    rw [if_pos hr]
  · rw [qpState_of_qp (wakePorts_qp _ f), fn_setFn_same, qpState_setQpState]

theorem cmDreq_resets (hup : (s.port p).state = .up) (hf : f < 2) :
    ∃ t, exec (.cmDreq p (qpNumber f ev)) s = .next t ∧ (t.fn f).qpState p ev = .reset ∧ t.told (.cmDrep p (qpNumber f ev)) = true := by
  refine ⟨(s.qpReset_ f p ev).tell (.cmDrep p (qpNumber f ev)), ?_, ?_, tell_told _ _⟩
  · change execCmDreq p (qpNumber f ev) s = _
    unfold execCmDreq
    rw [onUp_of_up hup, managerQp_number hf]
  · rw [tell_fn]
    exact qpReset_fn s f p ev

/-! ### Congestion control (R81, R82) -/

theorem ceMarkedPacket_answered {ns : Nat} (hup : (s.port p).state = .up) (hq : (s.fn f).qpState p ev = .rtr ∨ (s.fn f).qpState p ev = .rts)
    (hlast : ∀ b, look s.net.lastCnp (f * 4 + 2 * p.num + b01 ev) = some b → b + 8000 ≤ ns) :
    ∃ t, exec (.ceMarkedPacket f p ev ns) s = .next t ∧ t.told (.cnp p (qpRqpn ((s.fn f).qpWord p ev))) = true ∧
      look t.net.lastCnp (f * 4 + 2 * p.num + b01 ev) = some ns := by
  refine ⟨({ s with net := { s.net with lastCnp := put s.net.lastCnp (f * 4 + 2 * p.num + b01 ev) ns } } : State).tell
    (.cnp p (qpRqpn ((s.fn f).qpWord p ev))), ?_, tell_told _ _, look_put_same _ _ _⟩
  change execCeMarkedPacket f p ev ns s = _
  unfold execCeMarkedPacket
  dsimp only
  cases hl : look s.net.lastCnp (f * 4 + 2 * p.num + b01 ev) with
  | none => exact if_pos (by simpa [hup] using hq)
  | some b => exact if_pos (by simpa [hup, hlast b hl] using hq)

theorem setFn_cc (s : State) (f k : Nat) (g : Cc → Cc) :
    lookD ((s.setFn f fun x => { x with cc := adjD x.cc Cc.reset k g }).fn f).cc Cc.reset k = g (lookD (s.fn f).cc Cc.reset k) := by
  rw [fn_setFn_same]
  exact lookD_adjD_same _ _ _ _

theorem cnpArrival_noted (ha : (s.fn f).state ≠ .absent) (hup : (s.port p).state = .up) : ∃ t, exec (.cnpArrival f ⟨p, ev⟩) s = .next t ∧
    lookD (t.fn f).cc Cc.reset (2 * p.num + b01 ev) = { lookD (s.fn f).cc Cc.reset (2 * p.num + b01 ev) with cnp := true } := by
  refine ⟨_, ?_, setFn_cc s f (2 * p.num + b01 ev) fun c => { c with cnp := true }⟩
  change execCnpArrival f ⟨p, ev⟩ s = _
  unfold execCnpArrival
  exact if_pos (by simp [hup, ha])

theorem ccRateUpdate_updates (ha : (s.fn f).state ≠ .absent) : ∃ t, exec (.ccRateUpdate f ⟨p, ev⟩) s = .next t ∧
    lookD (t.fn f).cc Cc.reset (2 * p.num + b01 ev) =
      (lookD (s.fn f).cc Cc.reset (2 * p.num + b01 ev)).update (wbits (s.portWord p 0x168) 9 0) (wbits (s.portWord p 0x168) 25 16) := by
  refine ⟨_, ?_, setFn_cc s f (2 * p.num + b01 ev) fun c => c.update (wbits (s.portWord p 0x168) 9 0) (wbits (s.portWord p 0x168) 25 16)⟩
  change execCcRateUpdate f ⟨p, ev⟩ s = _
  unfold execCcRateUpdate
  exact if_neg ha

theorem Cc.update_cases (c : Cc) (floor step : Nat) :
    (c.cnp = true → c.update floor step = ⟨max (c.rate - c.rate / 8) floor, c.rate, 4, 0, false⟩) ∧
      (c.cnp = false → 0 < c.hold → c.update floor step = { c with hold := c.hold - 1 }) ∧
      (c.cnp = false → c.hold = 0 → c.rate < c.target → (c.update floor step).rate = min (c.rate + (c.target - c.rate) / 2 + step) c.target) := by
  unfold Cc.update
  refine ⟨fun h => if_pos h, fun h hh => ?_, fun h hh hr => ?_⟩
  · rw [h, if_neg Bool.false_ne_true, if_pos hh]
  · rw [h, if_neg Bool.false_ne_true, if_neg (by omega), if_pos hr]

/-! ### A tenant's queue pair -/

/-- A register of a function's page. -/
theorem regPlace_fn (hf : f < 4096) {k : Nat} {r : SetupReg} (hk : k < 256) (h8 : k % 8 = 0) (hr : fnReg f k = some r) :
    RegPlace (0x40000 + 256 * f + k) r := by
  refine ⟨?_, ?_, by omega⟩
  · have hdiv : (0x40000 + 256 * f + k - 0x40000) / 256 = f := by omega
    have hmod : (0x40000 + 256 * f + k - 0x40000) % 256 = k := by omega
    unfold regAt
    rw [if_neg (by omega), if_neg (by omega), if_neg (by simp; omega), if_neg (by simp; omega), if_neg (by simp; omega), if_pos (by simp; omega), hdiv,
      hmod, hr]
  · have hb : ∀ o, 0x40000 ≤ o → o < 0x140000 → blockOf o = 3 := fun o h1 h2 => by
      unfold blockOf
      rw [if_neg (by omega), if_neg (by omega), if_neg (by omega), if_pos h2]
    unfold formOk
    rw [hb (0x40000 + 256 * f + k) (by omega) (by omega), hb (0x40000 + 256 * f + k + 8 - 1) (by omega) (by omega)]
    simp
    omega

/-- The place of a queue pair's word. -/
theorem regPlace_qp (hf : f < 4096) (p : PortId) (ev : Bool) : RegPlace (qpOff f p ev) (.qp f p ev) := by
  have hoff : qpOff f p ev = 0x40000 + 256 * f + (0x80 + 32 * p.num + 8 * b01 ev) := by unfold qpOff; omega
  rw [hoff]
  exact regPlace_fn hf (by cases p <;> cases ev <;> decide) (by cases p <;> cases ev <;> decide) (by cases p <;> cases ev <;> rfl)

theorem and_ones (v : W64) : v &&& ones64 63 0 = v := by
  rw [show ones64 63 0 = BitVec.allOnes 64 by decide, BitVec.and_allOnes]

/-- A function whose queue pairs a manager moves: a tenant's, in the window, and present. -/
structure Tenant (s : State) (f : Nat) : Prop where
  low : 2 ≤ f
  high : f < 4096
  present : (s.fn f).state ≠ .absent

/-- A register of a tenant's queue pair is written whole. -/
def SetupReg.whole (r : SetupReg) (f : Nat) (p : PortId) : Prop := (∃ ev, r = .qp f p ev) ∨ ∃ hi, r = .qpAddr f p hi

theorem Tenant.masks (h : Tenant s f) {r : SetupReg} (hr : SetupReg.whole r f p) : s.masks r = (ones64 63 0, 0, 0) := by
  have hm : isManager f = false := decide_eq_false (Nat.not_lt.mpr h.low)
  have hmask : (if isManager f || (s.fn f).state = .absent then (0 : W64) else ones64 63 0) = ones64 63 0 := by
    rw [hm, decide_eq_false h.present]
    rfl
  obtain ⟨e, rfl⟩ | ⟨e, rfl⟩ := hr
  · exact congrArg (fun x : W64 => (x, (0 : W64), (0 : W64))) hmask
  · exact congrArg (fun x : W64 => (x, (0 : W64), (0 : W64))) hmask

theorem Tenant.merged (h : Tenant s f) {r : SetupReg} (hr : SetupReg.whole r f p) (v : W64) : s.merged r v = v := by
  unfold State.merged
  rw [h.masks hr]
  exact merge_eq (and_ones _) (and_ones _)

theorem Tenant.touch_iff (h : Tenant s f) {r : SetupReg} (hr : SetupReg.whole r f p) (v : W64) :
    ((s.touch r v).1 ≠ 0 ∨ (s.touch r v).2 ≠ 0) ↔ v ≠ s.regNow r := by
  unfold State.touch
  rw [h.masks hr]
  dsimp only
  rw [and_ones]
  simp [BitVec.xor_eq_zero_iff]

theorem qpCheck_passes {t : Staged} {q : QpState} {w : W64} (hm : qpMtu w ≠ 3) (h8 : 8 ≤ qpTimeout w) (h20 : qpTimeout w ≤ 20)
    (hmove : qpMoves ((s.fn f).qpState p ev) q = true)
    (hfix : ((s.fn f).qpState p ev).fixed = true → w = (s.fn f).qpWord p ev)
    (hrtr : (s.fn f).qpState p ev = .init → q = .rtr → t.addr s f p ≠ 0 ∧ mtuNeeds (qpMtu w) (t.addr s f p) ≤ s.mtu p) :
    qpCheck s t f p ev (withQpState w q) = none := by
  have hmtu : qpMtu (withQpState w q) = qpMtu w := wbits_withQp w q (by decide) (by decide) (by decide)
  have htime : qpTimeout (withQpState w q) = qpTimeout w := wbits_withQp w q (by decide) (by decide) (by decide)
  have hnum : wbits (withQpState w q) 50 48 ≤ 4 := by rw [qpBits_withQp]; cases q <;> decide
  have hstate : qpStateOf ((s.fn f).qpWord p ev) = (s.fn f).qpState p ev := rfl
  have hfixed : ¬(!true || ((s.fn f).qpState p ev).fixed && decide (withQpState w .reset ≠ withQpState ((s.fn f).qpWord p ev) .reset)) = true := by
    cases hx : ((s.fn f).qpState p ev).fixed
    · simp
    · simp [← hfix hx]
  have haddr : ¬(decide ((s.fn f).qpState p ev = .init) && decide (q = .rtr) &&
      (decide (t.addr s f p = 0) || decide (mtuNeeds (qpMtu w) (t.addr s f p) > s.mtu p))) = true := by
    intro h
    simp only [Bool.and_eq_true, Bool.or_eq_true, decide_eq_true_eq] at h
    obtain ⟨⟨hi, hq⟩, hbad⟩ := h
    obtain ⟨hne, hle⟩ := hrtr hi hq
    rcases hbad with hbad | hbad
    · exact hne hbad
    · omega
  unfold qpCheck
  dsimp only
  rw [hmtu, htime, qpStateOf_withQp, withQp_withQp, hstate, hmove,
    if_neg (by simp [hm, Nat.not_lt.mpr h8, Nat.not_lt.mpr h20, Nat.not_lt.mpr hnum]), if_neg hfixed, if_neg haddr]

theorem extract_append (a : W128) : a.extractLsb' 64 64 ++ a.extractLsb' 0 64 = a := by
  refine BitVec.eq_of_getLsbD_eq fun i hi => ?_
  rw [BitVec.getLsbD_append, BitVec.getLsbD_extractLsb', BitVec.getLsbD_extractLsb']
  by_cases h : i < 64
  · simp [h]
  · simp [h, show i - 64 < 64 by omega, show 64 + (i - 64) = i by omega]

/-- The address that stands where the message brings none. -/
theorem addr_single (s : State) (f : Nat) (p : PortId) (ev : Bool) (v : W64) :
    (show Staged from [(.qp f p ev, v)]).addr s f p = (s.fn f).addr p := by
  have h : ∀ hi, (show Staged from [(.qp f p ev, v)]).val s (.qpAddr f p hi) = ((s.fn f).addr p).extractLsb' (if hi then 64 else 0) 64 :=
    fun hi => rfl
  unfold Staged.addr
  rw [h, h]
  exact extract_append _

/-- A manager moves a tenant's queue pair to another state. -/
theorem moveQp_puts {m : Nat} {g : PortId} (hw : Manages s m g) (ht : Tenant s f) {q : QpState} (hm : qpMtu ((s.fn f).qpWord p ev) ≠ 3)
    (h8 : 8 ≤ qpTimeout ((s.fn f).qpWord p ev)) (h20 : qpTimeout ((s.fn f).qpWord p ev) ≤ 20) (hne : (s.fn f).qpState p ev ≠ q)
    (hmove : qpMoves ((s.fn f).qpState p ev) q = true) (hrtr : (s.fn f).qpState p ev = .init → q = .rtr → (s.fn f).addr p ≠ 0 ∧
      mtuNeeds (qpMtu ((s.fn f).qpWord p ev)) ((s.fn f).addr p) ≤ s.mtu p) :
    s.moveQp (.rdma m g) f p ev q = s.putQp f p ev (withQpState ((s.fn f).qpWord p ev) q) := by
  have hr : SetupReg.whole (.qp f p ev) f p := .inl ⟨ev, rfl⟩
  have htouch : (s.touch (.qp f p ev) (withQpState ((s.fn f).qpWord p ev) q)).1 ≠ 0 ∨
      (s.touch (.qp f p ev) (withQpState ((s.fn f).qpWord p ev) q)).2 ≠ 0 :=
    (ht.touch_iff hr _).mpr fun h => hne ((congrArg qpStateOf h).symm.trans (qpStateOf_withQp _ _))
  have hcheck : s.regCheck (.rdma m g) [(.qp f p ev, s.merged (.qp f p ev) (withQpState ((s.fn f).qpWord p ev) q))] (.qp f p ev)
      (s.merged (.qp f p ev) (withQpState ((s.fn f).qpWord p ev) q)) = none := by
    rw [ht.merged hr]
    exact qpCheck_passes hm h8 h20 hmove (fun _ => rfl) fun hi hq => by rw [addr_single]; exact hrtr hi hq
  unfold State.moveQp
  rw [writeWord_puts hw (regPlace_qp ht.high p ev) fun _ => hcheck, State.putWord, if_pos htouch, ht.merged hr]
  rfl

theorem putQp_state {v : W64} (hne : (s.fn f).qpState p ev ≠ qpStateOf v) : ((s.putQp f p ev v).fn f).qpState p ev = qpStateOf v := by
  unfold State.putQp
  dsimp only
  rw [if_neg hne]
  cases qpStateOf v
  case reset => exact qpReset_fn _ f p ev
  case rtr =>
    dsimp only
    rw [resolve_fn, fn_setFn_same]
    exact qpState_setQpState _ p ev .rtr
  case rts =>
    dsimp only
    rw [qpState_of_qp (wakePorts_qp _ f), fn_setFn_same, qpState_setQpState]
  all_goals
    dsimp only
    rw [fn_setFn_same, qpState_setQpState]

theorem moveQp_state {m : Nat} {g : PortId} (hw : Manages s m g) (ht : Tenant s f) {q : QpState} (hm : qpMtu ((s.fn f).qpWord p ev) ≠ 3)
    (h8 : 8 ≤ qpTimeout ((s.fn f).qpWord p ev)) (h20 : qpTimeout ((s.fn f).qpWord p ev) ≤ 20) (hne : (s.fn f).qpState p ev ≠ q)
    (hmove : qpMoves ((s.fn f).qpState p ev) q = true) (hrtr : (s.fn f).qpState p ev = .init → q = .rtr → (s.fn f).addr p ≠ 0 ∧
      mtuNeeds (qpMtu ((s.fn f).qpWord p ev)) ((s.fn f).addr p) ≤ s.mtu p) :
    ((s.moveQp (.rdma m g) f p ev q).fn f).qpState p ev = q := by
  rw [moveQp_puts hw ht hm h8 h20 hne hmove hrtr, putQp_state (by rw [qpStateOf_withQp]; exact hne), qpStateOf_withQp]

/-! ### A message of a whole queue-pair entry (R579) -/

theorem byteAt_append_right (a b : Bytes) (i : Nat) : byteAt (a ++ b) (a.length + i) = byteAt b i := by
  simp [byteAt, List.getD_eq_getElem?_getD, List.getElem?_append_right]

theorem byteAt_append_left (a b : Bytes) {i : Nat} (h : i < a.length) : byteAt (a ++ b) i = byteAt a i := by
  simp [byteAt, List.getD_eq_getElem?_getD, List.getElem?_append_left h]

/-- The digits of a number read back from within a message. -/
theorem le_within (a b : Bytes) (n k : Nat) {i len : Nat} (h : i + len ≤ k) : le (a ++ (toLe n k ++ b)) (a.length + i) len = n / 256 ^ i % 256 ^ len := by
  refine le_of_digits _ (n / 256 ^ i) len _ fun j hj => ?_
  rw [Nat.add_assoc, byteAt_append_right, byteAt_append_left _ _ (by rw [length_toLe]; omega), byteAt, toLe_eq_map, Nat.div_div_eq_div_mul, ← Nat.pow_add]
  simp [List.getD_eq_getElem?_getD, show i + j < k by omega]

/-- The bytes of an entry: two words and the address. -/
def qpEntry (w0 w1 : W64) (a : W128) : Bytes := toLe w0.toNat 8 ++ (toLe w1.toNat 8 ++ (toLe a.toNat 16 ++ []))

theorem length_qpEntry (w0 w1 : W64) (a : W128) : (qpEntry w0 w1 a).length = 32 := by simp [qpEntry, length_toLe]

theorem le_qpEntry (w0 w1 : W64) (a : W128) : BitVec.ofNat 64 (le (qpEntry w0 w1 a) 0 8) = w0 ∧ BitVec.ofNat 64 (le (qpEntry w0 w1 a) 8 8) = w1 ∧
    BitVec.ofNat 64 (le (qpEntry w0 w1 a) 16 8) = a.extractLsb' 0 64 ∧ BitVec.ofNat 64 (le (qpEntry w0 w1 a) 24 8) = a.extractLsb' 64 64 := by
  have h0 : le (qpEntry w0 w1 a) 0 8 = w0.toNat / 256 ^ 0 % 256 ^ 8 := by
    have := le_within [] (toLe w1.toNat 8 ++ (toLe a.toNat 16 ++ [])) w0.toNat 8 (i := 0) (len := 8) (by decide)
    rwa [List.nil_append, List.length_nil] at this
  have h1 : le (qpEntry w0 w1 a) 8 8 = w1.toNat / 256 ^ 0 % 256 ^ 8 := by
    have := le_within (toLe w0.toNat 8) (toLe a.toNat 16 ++ []) w1.toNat 8 (i := 0) (len := 8) (by decide)
    rwa [length_toLe] at this
  have htail : ∀ i, i + 8 ≤ 16 → le (qpEntry w0 w1 a) (16 + i) 8 = a.toNat / 256 ^ i % 256 ^ 8 := fun i hi => by
    have := le_within (toLe w0.toNat 8 ++ toLe w1.toNat 8) [] a.toNat 16 hi
    rwa [List.length_append, length_toLe, length_toLe, List.append_assoc] at this
  have h2 := htail 0 (by decide)
  have h3 := htail 8 (by decide)
  have hw0 := w0.isLt
  have hw1 := w1.isLt
  rw [h0, h1, h2, h3]
  refine ⟨BitVec.eq_of_toNat_eq ?_, BitVec.eq_of_toNat_eq ?_, BitVec.eq_of_toNat_eq ?_, BitVec.eq_of_toNat_eq ?_⟩
  · simp
    omega
  · simp
    omega
  · simp
  · simp [Nat.shiftRight_eq_div_pow]

theorem covered_qpEntry (hf : f < 4096) (p : PortId) (w0 w1 : W64) (a : W128) : covered (qpOff f p false) (qpEntry w0 w1 a) =
    [(.qp f p false, w0), (.qp f p true, w1), (.qpAddr f p false, a.extractLsb' 0 64), (.qpAddr f p true, a.extractLsb' 64 64)] := by
  have hreg : ∀ k r, k < 256 → k % 8 = 0 → fnReg f k = some r → regAt (0x40000 + 256 * f + k) = some r :=
    fun k r hk h8 hr => (regPlace_fn hf hk h8 hr).reg
  obtain ⟨h0, h1, h2, h3⟩ := le_qpEntry w0 w1 a
  have r0 : regAt (qpOff f p false + 8 * 0) = some (.qp f p false) := by
    have := hreg (0x80 + 32 * p.num) (.qp f p false) (by cases p <;> decide) (by cases p <;> decide) (by cases p <;> rfl)
    rwa [show qpOff f p false + 8 * 0 = 0x40000 + 256 * f + (0x80 + 32 * p.num) by simp [qpOff, b01]; omega]
  have r1 : regAt (qpOff f p false + 8 * 1) = some (.qp f p true) := by
    have := hreg (0x88 + 32 * p.num) (.qp f p true) (by cases p <;> decide) (by cases p <;> decide) (by cases p <;> rfl)
    rwa [show qpOff f p false + 8 * 1 = 0x40000 + 256 * f + (0x88 + 32 * p.num) by simp [qpOff, b01]; omega]
  have r2 : regAt (qpOff f p false + 8 * 2) = some (.qpAddr f p false) := by
    have := hreg (0x90 + 32 * p.num) (.qpAddr f p false) (by cases p <;> decide) (by cases p <;> decide) (by cases p <;> rfl)
    rwa [show qpOff f p false + 8 * 2 = 0x40000 + 256 * f + (0x90 + 32 * p.num) by simp [qpOff, b01]; omega]
  have r3 : regAt (qpOff f p false + 8 * 3) = some (.qpAddr f p true) := by
    have := hreg (0x98 + 32 * p.num) (.qpAddr f p true) (by cases p <;> decide) (by cases p <;> decide) (by cases p <;> rfl)
    rwa [show qpOff f p false + 8 * 3 = 0x40000 + 256 * f + (0x98 + 32 * p.num) by simp [qpOff, b01]; omega]
  unfold covered
  rw [length_qpEntry, show List.range (32 / 8) = [0, 1, 2, 3] by decide]
  simp only [List.filterMap_cons, List.filterMap_nil, r0, r1, r2, r3, Option.map_some]
  rw [show le (qpEntry w0 w1 a) (8 * 0) 8 = le (qpEntry w0 w1 a) 0 8 from rfl, h0, h1, h2, h3]

/-- The halves of an address that a message changes. -/
def State.addrHits (s : State) (f : Nat) (p : PortId) (a : W128) : List (SetupReg × W64) :=
  [(.qpAddr f p false, a.extractLsb' 0 64), (.qpAddr f p true, a.extractLsb' 64 64)].filter
    fun e => let t := s.touch e.1 e.2; t.1 ≠ 0 || t.2 ≠ 0

/-- The bytes of an entry that moves one queue pair to INIT and leaves the other. -/
def State.initEntry (s : State) (f : Nat) (p : PortId) (ev : Bool) (word : W64) (a : W128) : Bytes :=
  if ev then qpEntry ((s.fn f).qpWord p false) (withQpState word .init) a else qpEntry (withQpState word .init) ((s.fn f).qpWord p true) a

theorem Tenant.touched_init (h : Tenant s f) {word : W64} (hr : (s.fn f).qpState p ev = .reset) (a : W128) :
    s.touched (qpOff f p false) (s.initEntry f p ev word a) = (.qp f p ev, withQpState word .init) :: s.addrHits f p a := by
  have hone : (s.touch (.qp f p ev) (withQpState word .init)).1 ≠ 0 ∨ (s.touch (.qp f p ev) (withQpState word .init)).2 ≠ 0 :=
    (h.touch_iff (.inl ⟨ev, rfl⟩) _).mpr fun he => by
      have := congrArg qpStateOf he
      rw [qpStateOf_withQp] at this
      exact absurd (this.trans hr) (by decide)
  have hother : ∀ e, ¬((s.touch (.qp f p e) ((s.fn f).qpWord p e)).1 ≠ 0 ∨ (s.touch (.qp f p e) ((s.fn f).qpWord p e)).2 ≠ 0) := fun e he =>
    (h.touch_iff (.inl ⟨e, rfl⟩) _).mp he rfl
  unfold State.touched State.initEntry
  cases ev
  · rw [if_neg (by decide), covered_qpEntry h.high, List.filter_cons_of_pos (by simpa using hone),
      List.filter_cons_of_neg (by simpa using hother true)]
    rfl
  · rw [if_pos rfl, covered_qpEntry h.high, List.filter_cons_of_neg (by simpa using hother false),
      List.filter_cons_of_pos (by simpa using hone)]
    rfl

theorem mem_addrHits {e : SetupReg × W64} {a : W128} (h : e ∈ s.addrHits f p a) : ∃ hi, e = (.qpAddr f p hi, a.extractLsb' (if hi then 64 else 0) 64) := by
  have := List.mem_of_mem_filter h
  simp only [List.mem_cons, List.not_mem_nil, or_false] at this
  rcases this with rfl | rfl
  · exact ⟨false, rfl⟩
  · exact ⟨true, rfl⟩

/-- A half of an address written. -/
theorem putReg_addr (s : State) (f : Nat) (p : PortId) (hi : Bool) (v w : W64) : s.putReg (.qpAddr f p hi) v w =
    s.setFn f fun g => g.setAddr p (if hi then v ++ (g.addr p).extractLsb' 0 64 else (g.addr p).extractLsb' 64 64 ++ v) := rfl

theorem addr_setAddr (g : Fn) (p : PortId) (a : W128) : (g.setAddr p a).addr p = a := lookD_putD_same _ _ _ _

theorem extract_low (x y : W64) : (x ++ y : W128).extractLsb' 0 64 = y := by
  refine BitVec.eq_of_getLsbD_eq fun i hi => ?_
  rw [BitVec.getLsbD_extractLsb', BitVec.getLsbD_append]
  simp [hi]

/-- A half of an address, written where it changes. -/
theorem low_put (s : State) {c : Bool} {v : W64} (hc : c = false → v = ((s.fn f).addr p).extractLsb' 0 64) :
    ((if c = true then s.putReg (.qpAddr f p false) v v else s).fn f).addr p = ((s.fn f).addr p).extractLsb' 64 64 ++ v ∧
      ((if c = true then s.putReg (.qpAddr f p false) v v else s).fn f).qp = (s.fn f).qp := by
  cases c
  · rw [hc rfl, extract_append]
    exact ⟨rfl, rfl⟩
  · rw [if_pos rfl, putReg_addr, fn_setFn_same, addr_setAddr]
    exact ⟨rfl, rfl⟩

theorem high_put (s : State) {c : Bool} {v : W64} (hc : c = false → v = ((s.fn f).addr p).extractLsb' 64 64) :
    ((if c = true then s.putReg (.qpAddr f p true) v v else s).fn f).addr p = v ++ ((s.fn f).addr p).extractLsb' 0 64 ∧
      ((if c = true then s.putReg (.qpAddr f p true) v v else s).fn f).qp = (s.fn f).qp := by
  cases c
  · rw [hc rfl, extract_append]
    exact ⟨rfl, rfl⟩
  · rw [if_pos rfl, putReg_addr, fn_setFn_same, addr_setAddr]
    exact ⟨rfl, rfl⟩

theorem extract_high (x y : W64) : (x ++ y : W128).extractLsb' 64 64 = x := by
  refine BitVec.eq_of_getLsbD_eq fun i hi => ?_
  rw [BitVec.getLsbD_extractLsb', BitVec.getLsbD_append]
  simp [hi]

/-- The address's changed halves written: the address stands, and the words of the queue pairs stay. -/
theorem Tenant.addrHits_put (h : Tenant s f) (a : W128) :
    (((s.addrHits f p a).foldl (fun s e => s.putReg e.1 e.2 e.2) s).fn f).addr p = a ∧
      (((s.addrHits f p a).foldl (fun s e => s.putReg e.1 e.2 e.2) s).fn f).qp = (s.fn f).qp := by
  have hsame : ∀ hi v, (decide ((s.touch (.qpAddr f p hi) v).1 ≠ 0) || decide ((s.touch (.qpAddr f p hi) v).2 ≠ 0)) = false →
      v = s.regNow (.qpAddr f p hi) := fun hi v hc => by
    by_contra hne
    have := (h.touch_iff (r := .qpAddr f p hi) (.inr ⟨hi, rfl⟩) v).mpr hne
    simp only [Bool.or_eq_false_iff, decide_eq_false_iff_not] at hc
    exact this.elim hc.1 hc.2
  obtain ⟨hlow, hq⟩ := low_put (p := p) s (hsame false (a.extractLsb' 0 64))
  unfold State.addrHits
  rw [List.foldl_filter, List.foldl_cons, List.foldl_cons, List.foldl_nil]
  dsimp only
  generalize (if (decide ((s.touch (.qpAddr f p false) (a.extractLsb' 0 64)).1 ≠ 0) ||
    decide ((s.touch (.qpAddr f p false) (a.extractLsb' 0 64)).2 ≠ 0)) = true then
      s.putReg (.qpAddr f p false) (a.extractLsb' 0 64) (a.extractLsb' 0 64) else s) = u at hlow hq ⊢
  obtain ⟨hhigh, hq'⟩ := high_put (p := p) u (f := f) fun hc => (hsame true (a.extractLsb' 64 64) hc).trans (by
    rw [hlow, extract_high]
    rfl)
  refine ⟨hhigh.trans ?_, hq'.trans hq⟩
  rw [hlow, extract_low, extract_append]

theorem length_initEntry (word : W64) (a : W128) : (s.initEntry f p ev word a).length = 32 := by
  unfold State.initEntry
  split <;> exact length_qpEntry _ _ _

theorem Tenant.init_passes {m : Nat} {g : PortId} (hw : Manages s m g) (h : Tenant s f) {word : W64} (hr : (s.fn f).qpState p ev = .reset)
    (ho : ((s.fn f).qpState p (!ev)).fixed = false) (hm : qpMtu word ≠ 3) (h8 : 8 ≤ qpTimeout word) (h20 : qpTimeout word ≤ 20) (a : W128) :
    s.messageFails (.rdma m g) (qpOff f p false) (s.initEntry f p ev word a) = none := by
  have hplace := regPlace_qp h.high p false
  have hsmall : qpOff f p false + 32 ≤ 0x140000 := by
    have := h.high
    cases p <;> simp [qpOff, b01, PortId.num] <;> omega
  have hlow : 0x40000 ≤ qpOff f p false := by unfold qpOff; omega
  have hform : formOk (qpOff f p false) 32 = true := by
    have hb : ∀ o, 0x40000 ≤ o → o < 0x140000 → blockOf o = 3 := fun o h1 h2 => by
      unfold blockOf
      rw [if_neg (by omega), if_neg (by omega), if_neg (by omega), if_pos h2]
    have h8 : qpOff f p false % 8 = 0 := by unfold qpOff b01; omega
    unfold formOk
    rw [hb _ hlow (by omega), hb _ (by omega) (by omega)]
    simp
    omega
  have hsem : s.touchesSem (qpOff f p false) (s.initEntry f p ev word a) = false := by
    unfold State.touchesSem
    rw [length_initEntry]
    refine List.any_eq_false.mpr fun i hi => ?_
    have : i < 4 := List.mem_range.mp hi
    have hnot : ¬0x240000 ≤ qpOff f p false + 8 * i := by omega
    simp [hnot]
  have hfix : ∀ e, ((s.fn f).qpState p e).fixed = false := fun e => by
    by_cases he : e = ev
    · rw [he, hr]
      rfl
    · rw [show e = !ev by cases e <;> cases ev <;> simp at he ⊢]
      exact ho
  rw [messageFails_eq, length_initEntry, hform, hsem, sem0_manager hw, ite_self, h.touched_init hr a]
  simp only [Bool.not_true, Bool.false_eq_true, Bool.and_false, if_false]
  rw [if_neg (by simp), List.findSome?_eq_none_iff]
  intro e he
  obtain ⟨e', he', rfl⟩ := List.mem_map.mp he
  rcases List.mem_cons.mp he' with rfl | he'
  · dsimp only
    rw [h.merged (.inl ⟨ev, rfl⟩)]
    refine qpCheck_passes hm h8 h20 (by rw [hr]; rfl) (fun hx => ?_) fun hi => ?_
    · rw [hr] at hx
      exact absurd hx (by decide)
    · rw [hr] at hi
      exact absurd hi (by decide)
  · obtain ⟨hi, rfl⟩ := mem_addrHits he'
    show (if (((s.fn f).qpState p false).fixed || ((s.fn f).qpState p true).fixed) && _ then some 3 else none) = none
    rw [hfix, hfix]
    rfl

/-- The message that moves a queue pair to INIT, carried out. -/
theorem Tenant.init_applied (h : Tenant s f) {word : W64} (hr : (s.fn f).qpState p ev = .reset) (a : W128) :
    s.applyMessage (qpOff f p false) (s.initEntry f p ev word a) =
      ((s.addrHits f p a).foldl (fun s e => s.putReg e.1 e.2 e.2) s).putQp f p ev (withQpState word .init) := by
  rw [applyMessage_eq, h.touched_init hr a, List.map_cons]
  have hmap : (s.addrHits f p a).map (fun e => (e.1, s.merged e.1 e.2, e.2)) = (s.addrHits f p a).map fun e => (e.1, e.2, e.2) :=
    List.map_congr_left fun e he => by
      obtain ⟨hi, rfl⟩ := mem_addrHits he
      rw [h.merged (.inr ⟨hi, rfl⟩)]
  have hstay : ((s.addrHits f p a).map fun e => (e.1, e.2, e.2)).filter (fun e => !e.1.isMove) = (s.addrHits f p a).map fun e => (e.1, e.2, e.2) :=
    List.filter_eq_self.mpr fun e he => by
      obtain ⟨e', he', rfl⟩ := List.mem_map.mp he
      obtain ⟨hi, rfl⟩ := mem_addrHits he'
      rfl
  have hmove : ((s.addrHits f p a).map fun e => (e.1, e.2, e.2)).filter (fun e => e.1.isMove) = [] :=
    List.filter_eq_nil_iff.mpr fun e he => by
      obtain ⟨e', he', rfl⟩ := List.mem_map.mp he
      obtain ⟨hi, rfl⟩ := mem_addrHits he'
      exact Bool.false_ne_true
  rw [hmap, List.filter_cons_of_neg (by simp [SetupReg.isMove]), List.filter_cons_of_pos rfl, hstay, hmove, List.foldl_append, List.foldl_map,
    h.merged (.inl ⟨ev, rfl⟩)]
  rfl

theorem putQp_init {w : W64} (hr : (s.fn f).qpState p ev = .reset) :
    ((s.putQp f p ev (withQpState w .init)).fn f).qpWord p ev = withQpState w .init ∧
      ((s.putQp f p ev (withQpState w .init)).fn f).addr p = (s.fn f).addr p := by
  have hfn : (s.putQp f p ev (withQpState w .init)).fn f =
      ((s.fn f).setQp p ev (withQpState (withQpState w .init) .reset)).setQpState p ev .init := by
    unfold State.putQp
    dsimp only
    rw [hr, qpStateOf_withQp, if_neg (by decide), fn_setFn_same, fn_setFn_same]
  rw [hfn]
  refine ⟨?_, rfl⟩
  unfold Fn.setQpState
  rw [qpWord_setQp, qpWord_setQp, withQp_withQp, withQp_withQp]

theorem qpToInit_moves {m : Nat} {g : PortId} (hw : Manages s m g) (h : Tenant s f) {word : W64} (hr : (s.fn f).qpState p ev = .reset)
    (ho : ((s.fn f).qpState p (!ev)).fixed = false) (hm : qpMtu word ≠ 3) (h8 : 8 ≤ qpTimeout word) (h20 : qpTimeout word ≤ 20) (a : W128) :
    ∃ t, exec (.qpToInit (.rdma m g) f p ev word a) s = .next t ∧ (t.fn f).qpWord p ev = withQpState word .init ∧ (t.fn f).addr p = a := by
  have hlen : qpOff f p false + (s.initEntry f p ev word a).length ≤ 2 ^ 24 := by
    have := h.high
    rw [length_initEntry]
    cases p <;> simp [qpOff, b01, PortId.num] <;> omega
  obtain ⟨haddr, hqp⟩ := h.addrHits_put (p := p) a
  refine ⟨s.applyMessage (qpOff f p false) (s.initEntry f p ev word a), ?_, ?_⟩
  · have hbytes : s.initEntry f p ev word a = if ev then
        toLe ((s.fn f).qpWord p false).toNat 8 ++ toLe (withQpState word .init).toNat 8 ++ toLe a.toNat 16
        else toLe (withQpState word .init).toNat 8 ++ toLe ((s.fn f).qpWord p true).toNat 8 ++ toLe a.toNat 16 := by
      simp only [State.initEntry, qpEntry, List.append_assoc, List.append_nil]
    change execQpToInit (.rdma m g) f p ev word a s = _
    unfold execQpToInit
    dsimp only
    rw [← hbytes, message_manager hw hlen, State.judgeMessage, h.init_passes hw hr ho hm h8 h20]
  · rw [h.init_applied hr]
    generalize (s.addrHits f p a).foldl (fun s e => s.putReg e.1 e.2 e.2) s = u at haddr hqp ⊢
    have hreset : (u.fn f).qpState p ev = .reset := (qpState_of_qp hqp p ev).trans hr
    obtain ⟨hword, hkept⟩ := putQp_init (w := word) hreset
    exact ⟨hword, hkept.trans haddr⟩

/-- Settles O44: the connection manager, the moves of a tenant's queue pair, and congestion control. -/
theorem queuePairs : Obligations.QueuePairs := by
  intro s p f ev g w c cc
  refine ⟨fun hup hf => ⟨fun q m hn hsid hm hr ho => ?_, fun hr => cmRtu_rts hup hf hr, cmDreq_resets hup hf⟩, fun m q hw h2 h4 ha => ?_,
    fun ns hup hq hlast => ceMarkedPacket_answered hup hq hlast, fun ha => ⟨fun hup => cnpArrival_noted ha hup, ?_⟩⟩
  · exact CmTaken.answers ⟨hup, hf, hn, hsid, ⟨m, hm, rfl⟩, hr, ho⟩
  · have ht : Tenant s f := ⟨h2, h4, ha⟩
    refine ⟨fun word addr hr ho hm h8 h20 => qpToInit_moves hw ht hr ho hm h8 h20 addr, fun hm h8 h20 => ⟨fun hi hne hle => ?_, fun hr => ?_, fun hn => ?_⟩⟩
    · exact ⟨_, rfl, moveQp_state hw ht hm h8 h20 (by rw [hi]; decide) (by rw [hi]; rfl) fun _ _ => ⟨hne, hle⟩⟩
    · exact ⟨_, rfl, moveQp_state hw ht hm h8 h20 (by rw [hr]; decide) (by rw [hr]; rfl) fun _ h => absurd h (by decide)⟩
    · exact ⟨_, rfl, moveQp_state hw ht hm h8 h20 hn (by unfold qpMoves; simp) fun _ h => absurd h (by decide)⟩
  · obtain ⟨t, ht, hc⟩ := ccRateUpdate_updates (s := s) (p := p) (ev := ev) ha
    obtain ⟨hcnp, hhold, hgain⟩ := Cc.update_cases c (wbits cc 9 0) (wbits cc 25 16)
    exact ⟨t, _, ht, hc, hcnp, hhold, hgain⟩

end Sys2Proof.Machine
end

section
/-! The loft: programs, erases, aborts and patrol (R484 to R489, R498, Table 18.2). -/

namespace Sys2Proof.Machine

variable {s t u : State} {k b : Nat}

/-! ### The 80-bit word of a value decodes to it -/

theorem getLsbD_word80 (v : W64) (tag : Bool) {i : Nat} (hi : i < 65) :
    (word80 v tag).getLsbD i = if i < 64 then v.getLsbD i else tag := by
  unfold word80
  dsimp only
  rw [BitVec.getLsbD_append, if_pos (by omega), BitVec.getLsbD_append]
  by_cases h : i < 64
  · rw [if_pos h, if_pos h]
  · rw [if_neg h, if_neg h, BitVec.getLsbD_append, if_pos (by omega), show i - 64 = 0 by omega]
    simp

theorem dataOf80_word80 (v : W64) (tag : Bool) : dataOf80 (word80 v tag) = v :=
  BitVec.eq_of_getLsbD_eq fun i hi => by
    rw [dataOf80, BitVec.getLsbD_extractLsb', getLsbD_word80 v tag (by omega), if_pos (by omega)]
    simp [hi]

theorem tagOf80_word80 (v : W64) (tag : Bool) : tagOf80 (word80 v tag) = tag := by
  rw [tagOf80, getLsbD_word80 v tag (by omega), if_neg (by omega)]

theorem decode80_word80 (v : W64) (tag : Bool) : decode80 (word80 v tag) = .value v tag 0 := by
  have hcode : isCode (word80 v tag) = true := by rw [isCode, dataOf80_word80, tagOf80_word80, decide_eq_true rfl]
  rw [decode80, if_pos hcode, dataOf80_word80, tagOf80_word80]

/-! ### What the records of the loft leave alone -/

/-- The parts of the loft that its operations turn on: what a record written into a log area never touches. -/
def Loft.ops (l : Loft) : Tab Nat × LoftRes × Tab Nat × Tab Nat × List Nat × Image × Image :=
  (l.busy, l.last, l.erases, l.used, l.remapped, l.imgA, l.imgB)

/-- What each step of a fold over the loft leaves alone, the fold leaves alone. -/
theorem foldl_loft {α β : Type} (p : Loft → β) {f : Loft → α → Loft} (hf : ∀ l e, p (f l e) = p l) (es : List α) (l : Loft) :
    p (es.foldl f l) = p l := by
  induction es generalizing l with
  | nil => rfl
  | cons e es ih => exact (ih (f l e)).trans (hf l e)

theorem note_ops (l : Loft) (a ty : Nat) (d : Bytes) (urgent : Bool) : (l.note a ty d urgent).ops = l.ops := rfl

theorem loftRecord_ops (s : State) (a ty : Nat) (d : Bytes) : (s.loftRecord a ty d).loft.ops = s.loft.ops := note_ops ..

theorem flush_ops (l : Loft) : l.flush.ops = l.ops := by
  unfold Loft.flush
  rw [foldl_loft Loft.ops fun l (e : Nat × Nat × Bytes) => note_ops l e.1 e.2.1 e.2.2 false]
  rfl

theorem flush_of_none (l : Loft) (h : l.waiting = []) : l.flush = l := by
  obtain ⟨⟩ := l
  cases h
  rfl

theorem loft_of_mask (h : Part.loft ∉ P) (e : s.mask P = t.mask P) : s.loft = t.loft := by
  have := congrArg State.loft e
  simpa only [State.mask, h, if_false] using this

theorem announced_loft (s : State) (cls : Nat) : (s.announced cls).loft = s.loft := by
  refine loft_of_mask (P := [.out, .rdma, .bell]) (by decide) ?_
  unfold State.announced
  split
  · rfl
  · split
    · rw [notify_mask (by decide), notify_mask (by decide), mask_bell (by decide)]
    · rfl

theorem loft_of_log (s : State) (l : List Bytes) (n : Nat) : ({ s with events := l, eventSeq := n } : State).loft = s.loft := rfl

theorem logged_loft (s : State) (r : Bytes) : (s.logged r).loft = s.loft := loft_of_log s _ _

theorem event_ops (s : State) (code cls f : Nat) (d : List (Nat × Nat × Nat)) :
    (s.event code cls f d).loft.ops = s.loft.ops := by
  rw [event_eq, announced_loft, State.kept]
  split
  · rw [loftRecord_ops, logged_loft]
  · rw [logged_loft]

theorem write_busy (l : Loft) (a ty : Nat) (d : Bytes) : (l.write a ty d).busy = l.busy := rfl

theorem carry_busy (l : Loft) (a k : Nat) : (l.carry a k).busy = l.busy := by
  unfold Loft.carry
  dsimp only
  generalize ((l.live a).filter fun e => e.1.sector = k).reverse = es
  exact foldl_loft Loft.busy (fun l (e : LogRec × Bytes) => write_busy l a e.1.kind e.2) es l

theorem leave_busy (l : Loft) (k : Nat) : (l.leave k).busy = l.busy := by
  unfold Loft.leave
  dsimp only
  split
  · rfl
  · split
    · exact carry_busy ..
    · split
      · exact carry_busy ..
      · rfl

/-! ### A sector remapped, and a bank judged again -/

/-- The words of a sector as its spare takes them. -/
def State.copied (s : State) (k : Nat) : List (BitVec 80) := (List.range 512).map fun w => copied80 (s.loftBits k w)

/-- A sector remapped to a spare that takes the given words, before the records of it. -/
def State.spared (s : State) (k : Nat) (ws : List (BitVec 80)) : State :=
  (s.putWords k ws).setLoft fun l => { l with
    used := adjD l.used 0 (loftBank k) (· + 1), remapped := k :: l.remapped, erases := put l.erases k 1 }

/-- The record of a remapped sector in the log. -/
def State.spareLogged (s : State) (k : Nat) : State :=
  s.loftRecord 312 recRemapped (record 16 [(0, 2, k), (2, 1, s.loftLeft (loftBank k)), (8, 8, s.bell.now)])

/-- The event of a remapped sector. -/
def State.spareRaised (s : State) (k : Nat) : State := s.event 0x0061 0 0 [(32, 2, k), (34, 1, s.loftLeft (loftBank k))]

theorem loftRemap_eq (h : 0 < s.loftLeft (loftBank k)) :
    s.loftRemap k = ((s.spared k (s.copied k)).spareLogged k).spareRaised k := by
  unfold State.loftRemap
  exact if_neg (by omega)

theorem spared_ops (s : State) (k : Nat) (ws : List (BitVec 80)) : (s.spared k ws).loft.ops = (s.loft.busy, s.loft.last, put s.loft.erases k 1,
    adjD s.loft.used 0 (loftBank k) (· + 1), k :: s.loft.remapped, s.loft.imgA, s.loft.imgB) := rfl

theorem spareLogged_ops (s : State) (k : Nat) : (s.spareLogged k).loft.ops = s.loft.ops := loftRecord_ops ..

theorem spareRaised_ops (s : State) (k : Nat) : (s.spareRaised k).loft.ops = s.loft.ops := event_ops ..

theorem loftRemap_ops (h : 0 < s.loftLeft (loftBank k)) : (s.loftRemap k).loft.ops = (s.loft.busy, s.loft.last, put s.loft.erases k 1,
    adjD s.loft.used 0 (loftBank k) (· + 1), k :: s.loft.remapped, s.loft.imgA, s.loft.imgB) := by
  rw [loftRemap_eq h, spareRaised_ops, spareLogged_ops, spared_ops]

theorem loftRemap_busy (s : State) (k : Nat) : (s.loftRemap k).loft.busy = s.loft.busy := by
  rcases Nat.eq_zero_or_pos (s.loftLeft (loftBank k)) with h | h
  · unfold State.loftRemap
    dsimp only
    rw [if_pos h, State.setLoft_loft]
    split
    · exact leave_busy ..
    · rfl
  · exact congrArg Prod.fst (loftRemap_ops h)

theorem spareLogged_left (s : State) (k : Nat) (ws : List (BitVec 80)) :
    ((s.spared k ws).spareLogged k).loftLeft (loftBank k) = s.loftLeft (loftBank k) - 1 := by
  have hops : ((s.spared k ws).spareLogged k).loft.ops = _ := (spareLogged_ops _ k).trans (spared_ops s k ws)
  have hused : ((s.spared k ws).spareLogged k).loft.used = adjD s.loft.used 0 (loftBank k) (· + 1) := congrArg (·.2.2.2.1) hops
  unfold State.loftLeft
  rw [hused, lookD_adjD_same]
  omega

/-- What a bank judged again leaves alone: the words, and what each operation turns on but the images. -/
theorem rejudge_keeps (s : State) (k : Nat) : (s.rejudge k).loft.words = s.loft.words ∧ (s.rejudge k).loft.busy = s.loft.busy ∧
    (s.rejudge k).loft.last = s.loft.last ∧ (s.rejudge k).loft.erases = s.loft.erases := by
  unfold State.rejudge
  generalize s.judgeBank false = imgA, s.judgeBank true = imgB
  split
  · exact ⟨rfl, rfl, rfl, rfl⟩
  · split
    · exact ⟨rfl, rfl, rfl, rfl⟩
    · split <;> exact ⟨rfl, rfl, rfl, rfl⟩

theorem bits_of_kept {l m : Loft} (hw : m.words = l.words) (he : m.erases = l.erases) (k w : Nat) : m.bits k w = l.bits k w := by
  unfold Loft.bits
  rw [hw, he]

/-! ### Programming a word -/

/-- A word written into its sector, before its outcome. -/
def State.wrote (s : State) (k w : Nat) (b : BitVec 80) : State := s.setLoft fun l => { l with words := put l.words (k * 512 + w) b }

theorem wrote_bits (s : State) (k w : Nat) (b : BitVec 80) : (s.wrote k w b).loftBits k w = b := by
  simp [State.loftBits, Loft.bits, State.wrote]

/-- Programming a word writes it ANDed over what the word held; the outcome is a match, a mismatch, or a mismatch over an
erased word, which remaps the sector. -/
theorem programWord_cases (s : State) (k w : Nat) (v : W64) : ∃ u : State, s.programWord k w v = u.rejudge k ∧
    (u = (s.wrote k w (s.loftBits k w &&& word80 v false)).loftEnds .ok ∨
     loftDecode (s.loftBits k w &&& word80 v false) ≠ .value v false 0 ∧
      (u = (s.wrote k w (s.loftBits k w &&& word80 v false)).loftEnds .programMismatch ∨
       loftDecode (s.loftBits k w) = .erased ∧
        u = ((s.wrote k w (s.loftBits k w &&& word80 v false)).loftEnds .programMismatch).loftRemap k)) := by
  unfold State.programWord
  dsimp only
  refine ⟨_, rfl, ?_⟩
  rw [← State.wrote]
  generalize hd : loftDecode (s.loftBits k w &&& word80 v false) = d
  by_cases hv : d = .value v false 0
  · exact .inl (if_pos (by simp [hv]))
  · refine (ite_eq_or_eq _ _ _).imp id fun h => ⟨hv, ?_⟩
    rw [h]
    by_cases herased : loftDecode (s.loftBits k w) = .erased
    · exact .inr ⟨herased, if_pos herased⟩
    · exact .inl (if_neg herased)

theorem loftEnds_bits (s : State) (r : LoftRes) (k w : Nat) : (s.loftEnds r).loftBits k w = s.loftBits k w := rfl

theorem rejudge_bits (s : State) (k i w : Nat) : (s.rejudge k).loftBits i w = s.loftBits i w := by
  obtain ⟨hwords, -, -, herases⟩ := rejudge_keeps s k
  exact bits_of_kept hwords herases i w

theorem programWord_busy (s : State) (k w : Nat) (v : W64) : (s.programWord k w v).loft.busy = s.loft.busy := by
  obtain ⟨u, hu, rfl | ⟨-, rfl | ⟨-, rfl⟩⟩⟩ := programWord_cases s k w v
  · rw [hu, (rejudge_keeps _ k).2.1]
    rfl
  · rw [hu, (rejudge_keeps _ k).2.1]
    rfl
  · rw [hu, (rejudge_keeps _ k).2.1, loftRemap_busy]
    rfl

theorem programWord_over {w : Nat} {v : W64} (h : loftDecode (s.loftBits k w) ≠ .erased) :
    (s.programWord k w v).loftBits k w = s.loftBits k w &&& word80 v false := by
  obtain ⟨u, hu, rfl | ⟨-, rfl | ⟨herased, -⟩⟩⟩ := programWord_cases s k w v
  · rw [hu, rejudge_bits, loftEnds_bits, wrote_bits]
  · rw [hu, rejudge_bits, loftEnds_bits, wrote_bits]
  · exact absurd herased h

theorem programWord_erased {w : Nat} {v : W64} (h : s.loftBits k w = BitVec.allOnes 80) (hv : ones 80 (word80 v false) < 78) :
    (s.programWord k w v).loft.last = .ok ∧ (s.programWord k w v).loftBits k w = word80 v false := by
  have hnew : s.loftBits k w &&& word80 v false = word80 v false := by rw [h, BitVec.allOnes_and]
  have hdecodes : loftDecode (word80 v false) = .value v false 0 := by rw [loftDecode, if_neg (by omega), decode80_word80]
  obtain ⟨u, hu, rfl | ⟨hbad, -⟩⟩ := programWord_cases s k w v
  · obtain ⟨-, -, hlast, -⟩ := rejudge_keeps ((s.wrote k w (s.loftBits k w &&& word80 v false)).loftEnds .ok) k
    refine ⟨by rw [hu, hlast]; rfl, ?_⟩
    rw [hu, rejudge_bits, loftEnds_bits, wrote_bits, hnew]
  · exact absurd (hnew.symm ▸ hdecodes) hbad

theorem program_runs {w : Nat} {v : W64} (hk : k < 8704) (hw : w < 512) (hon : s.pwr.on = true) :
    exec (.loftWordProgram k w v) s = if (look s.loft.busy (loftBank k)).isSome then .next (s.loftEnds .loftBusy)
      else if k ∉ s.loft.clear then .next s.loftRefused else .next (s.programWord k w v) := by
  change execLoftWordProgram k w v s = _
  unfold execLoftWordProgram
  rw [if_neg (by simp [hk, hw]), if_neg (by simp [hon])]
  simp only [List.contains_eq_mem, Bool.not_eq_eq_eq_not, Bool.not_true, decide_eq_false_iff_not]

/-- A refused operation counts, up to the counter's end. -/
theorem loftRefused_eq (s : State) :
    s.loftRefused = s.setLoft fun l => { l with wpViol := min (l.wpViol + 1) 65535, last := .protected_ } := rfl

/-! ### Erasing a sector -/

/-- The sector whose erase ends, its bank idle and its records let go. -/
def State.eraseLeft (s : State) (k : Nat) : State :=
  let s := s.setLoft fun l => { l with busy := del l.busy (loftBank k) }
  if logSector k then s.setLoft fun l => { l.forget k with eraseQ := l.eraseQ.filter (· ≠ k) } else s

theorem eraseLeft_keeps (s : State) (k : Nat) : (s.eraseLeft k).loft.ops = { s.loft with busy := del s.loft.busy (loftBank k) }.ops ∧
    (s.eraseLeft k).loft.words = s.loft.words ∧ (s.eraseLeft k).loft.waiting = s.loft.waiting := by
  unfold State.eraseLeft
  dsimp only
  split <;> exact ⟨rfl, rfl, rfl⟩

/-- The sector erased and its erase counted. -/
def State.eraseCounted (s : State) (k : Nat) : State := ((s.clearSector k).loftEnds .ok).setLoft fun l =>
  { l with erases := put l.erases k (lookD l.erases 0 k + 1) }

theorem countErase_of_few (h : lookD s.loft.erases 0 k + 1 < 90000000) :
    s.countErase k = s.setLoft fun l => { l with erases := put l.erases k (lookD l.erases 0 k + 1) } := by
  unfold State.countErase
  dsimp only
  have hworn : ¬(lookD s.loft.erases 0 k + 1 ≥ 90000000) := by omega
  have hdead : ¬(lookD s.loft.erases 0 k + 1 ≥ 100000000) := by omega
  rw [if_neg hdead, decide_eq_false hworn]
  rfl

theorem eraseEnds_eq (h : lookD s.loft.erases 0 k + 1 < 90000000) :
    s.eraseEnds k true = ((s.eraseLeft k).eraseCounted k).flushLoft.rejudge k := by
  have herases : (((s.eraseLeft k).clearSector k).loftEnds .ok).loft.erases = s.loft.erases :=
    congrArg (·.2.2.1) (eraseLeft_keeps s k).1
  have hends : s.eraseEnds k true = ((((s.eraseLeft k).clearSector k).loftEnds .ok).countErase k).flushLoft.rejudge k := by
    unfold State.eraseEnds State.eraseLeft
    dsimp only
    rw [if_pos rfl]
  rw [hends, countErase_of_few (herases ▸ h), State.eraseCounted]

theorem eraseEnds_ops (h : lookD s.loft.erases 0 k + 1 < 90000000) : (s.eraseEnds k true).loft.busy = del s.loft.busy (loftBank k) ∧
    (s.eraseEnds k true).loft.last = .ok ∧ (s.eraseEnds k true).loft.erases = put s.loft.erases k (lookD s.loft.erases 0 k + 1) := by
  obtain ⟨hops, -, -⟩ := eraseLeft_keeps s k
  have hbusy : (s.eraseLeft k).loft.busy = del s.loft.busy (loftBank k) := congrArg Prod.fst hops
  have herases : (s.eraseLeft k).loft.erases = s.loft.erases := congrArg (·.2.2.1) hops
  have hflush : ((s.eraseLeft k).eraseCounted k).flushLoft.loft.ops = ((s.eraseLeft k).eraseCounted k).loft.ops := flush_ops _
  obtain ⟨-, hb, hl, he⟩ := rejudge_keeps ((s.eraseLeft k).eraseCounted k).flushLoft k
  rw [eraseEnds_eq h, hb, hl, he]
  refine ⟨(congrArg Prod.fst hflush).trans hbusy, congrArg (·.2.1) hflush, (congrArg (·.2.2.1) hflush).trans ?_⟩
  change put (s.eraseLeft k).loft.erases k (lookD (s.eraseLeft k).loft.erases 0 k + 1) = _
  rw [herases]

/-- With no record waiting for the bank, every bit of the erased sector is 1. -/
theorem eraseEnds_bits (h : lookD s.loft.erases 0 k + 1 < 90000000) (hwait : s.loft.waiting = []) {w : Nat} (hw : w < 512) :
    (s.eraseEnds k true).loftBits k w = BitVec.allOnes 80 := by
  obtain ⟨-, -, herases⟩ := eraseEnds_ops h
  obtain ⟨-, -, hwaiting⟩ := eraseLeft_keeps s k
  obtain ⟨hwords, -, -, -⟩ := rejudge_keeps ((s.eraseLeft k).eraseCounted k).flushLoft k
  have hflush : ((s.eraseLeft k).eraseCounted k).flushLoft.loft = ((s.eraseLeft k).eraseCounted k).loft :=
    flush_of_none _ (hwaiting.trans hwait)
  have hnone : look (s.eraseEnds k true).loft.words (k * 512 + w) = none := by
    rw [eraseEnds_eq h, hwords, hflush]
    change look (keep (fun i _ => decide (i / 512 ≠ k)) (s.eraseLeft k).loft.words) (k * 512 + w) = none
    rw [look_keep, if_neg (by simp; omega)]
  have hmany : lookD (s.eraseEnds k true).loft.erases 0 k ≠ 0 := by
    rw [herases]
    simp [lookD]
  unfold State.loftBits Loft.bits
  rw [hnone]
  simp [hmany, erased80]

theorem erase_runs (hk : k < 8704) (hon : s.pwr.on = true) (ok : Bool) {j : Nat} (hbusy : look s.loft.busy (loftBank k) = some j) :
    exec (.loftSectorErase k ok) s = if j = k then .next (s.eraseEnds k ok) else .next (s.loftEnds .loftBusy) := by
  change execLoftSectorErase k ok s = _
  unfold execLoftSectorErase
  rw [if_neg (by simp [hk]), if_neg (by simp [hon]), hbusy]

theorem erase_begins (hk : k < 8704) (hon : s.pwr.on = true) (ok : Bool) (hidle : look s.loft.busy (loftBank k) = none) :
    exec (.loftSectorErase k ok) s = if k ∉ s.loft.clear then .next s.loftRefused
      else .next (s.setLoft fun l => { l with busy := put l.busy (loftBank k) k }) := by
  change execLoftSectorErase k ok s = _
  unfold execLoftSectorErase
  rw [if_neg (by simp [hk]), if_neg (by simp [hon]), hidle]
  simp only [List.contains_eq_mem, Bool.not_eq_eq_eq_not, Bool.not_true, decide_eq_false_iff_not]

/-! ### An erase aborted -/

theorem loftBank_lt (k : Nat) : loftBank k < 3 := by
  unfold loftBank
  split
  · omega
  · split <;> omega

theorem abortErase_ops {j : Nat} (h : look s.loft.busy b = some j) : look (s.abortErase b).loft.busy b = none ∧
    (s.abortErase b).loft.last = .aborted ∧ (b < 2 → ((s.abortErase b).loft.image (decide (b = 1))).ok = false) := by
  unfold State.abortErase
  rw [h]
  dsimp only
  split
  · next hA =>
    subst hA
    exact ⟨look_del_same _ _, rfl, fun _ => rfl⟩
  · split
    · next hB =>
      subst hB
      exact ⟨look_del_same _ _, rfl, fun _ => rfl⟩
    · next hA hB =>
      split <;> exact ⟨look_del_same _ _, rfl, fun hb => by omega⟩

theorem image_of_ops {l m : Loft} (h : l.ops = m.ops) (bankB : Bool) : l.image bankB = m.image bankB := by
  have hA : l.imgA = m.imgA := congrArg (·.2.2.2.2.2.1) h
  have hB : l.imgB = m.imgB := congrArg (·.2.2.2.2.2.2) h
  unfold Loft.image
  rw [hA, hB]

theorem abort_runs (hb : b < 3) {j : Nat} (h : look s.loft.busy b = some j) : ∃ t, exec (.loftEraseAbort b) s = .next t ∧
    look t.loft.busy b = none ∧ t.loft.last = .aborted ∧ (b < 2 → (t.loft.image (decide (b = 1))).ok = false) := by
  have hflush : (s.abortErase b).flushLoft.loft.ops = (s.abortErase b).loft.ops := flush_ops _
  have hbusy : (s.abortErase b).flushLoft.loft.busy = (s.abortErase b).loft.busy := congrArg Prod.fst hflush
  have hlast : (s.abortErase b).flushLoft.loft.last = (s.abortErase b).loft.last := congrArg (·.2.1) hflush
  refine ⟨(s.abortErase b).flushLoft, ?_, ?_⟩
  · change execLoftEraseAbort b s = _
    unfold execLoftEraseAbort
    rw [if_neg (by simp [hb])]
  · rw [hbusy, hlast, image_of_ops hflush]
    exact abortErase_ops h

/-! ### The patrol of the loft -/

theorem loftRemap_raises (h : 0 < s.loftLeft (loftBank k)) : k ∈ (s.loftRemap k).loft.remapped ∧
    Raised (s.loftRemap k) 0x0061 0 0 [(32, 2, k), (34, 1, s.loftLeft (loftBank k) - 1)] := by
  have hremapped : (s.loftRemap k).loft.remapped = k :: s.loft.remapped := congrArg (·.2.2.2.2.1) (loftRemap_ops h)
  refine ⟨hremapped ▸ List.mem_cons_self, ?_⟩
  rw [loftRemap_eq h, State.spareRaised, spareLogged_left]
  exact event_raised ..

theorem patrol_runs (hk : k < 8704) (hready : s.boot.ready = true) (hidle : look s.loft.busy (loftBank k) = none)
    (hgone : k ∉ s.loft.gone) (hstuck : k ∉ s.loft.stuck) :
    exec (.loftPatrol k) s = if s.loftFails k then .next (s.loftRemap k) else .next s := by
  change execLoftPatrol k s = _
  unfold execLoftPatrol
  rw [if_neg (by simp [hk]), if_neg (by simp [hready, hidle, hgone, hstuck])]

/-- Settles O48: each row of Table 18.2 on an idle bank, a busy bank and an unprotected or a protected sector. -/
theorem loftOperations : Obligations.LoftOperations := by
  intro s k hk hon
  refine ⟨fun hidle => ⟨fun hclear => ⟨fun w v hw => ?_, fun ok => ?_⟩, fun hprotected => ⟨fun w v hw => ?_, fun ok => ?_⟩⟩,
    fun j hbusy => ⟨fun w v hw => ?_, fun ok hne => ?_, ?_, abort_runs (loftBank_lt k) hbusy⟩,
    fun hready hidle hgone hstuck => ⟨fun hfails hleft => ?_, fun hsound => ?_⟩⟩
  · refine ⟨s.programWord k w v, ?_, programWord_busy s k w v, programWord_over, programWord_erased⟩
    rw [program_runs hk hw hon, hidle, if_neg (by simp), if_neg (not_not_intro hclear)]
  · refine ⟨s.setLoft fun l => { l with busy := put l.busy (loftBank k) k }, ?_, look_put_same .., rfl⟩
    rw [erase_begins hk hon ok hidle, if_neg (not_not_intro hclear)]
  · rw [program_runs hk hw hon, hidle, if_neg (by simp), if_pos hprotected, loftRefused_eq]
  · rw [erase_begins hk hon ok hidle, if_pos hprotected, loftRefused_eq]
  · rw [program_runs hk hw hon, hbusy, if_pos (by simp)]
    rfl
  · rw [erase_runs hk hon ok hbusy, if_neg hne]
    rfl
  · rintro rfl hfew
    obtain ⟨hidle, hlast, herases⟩ := eraseEnds_ops hfew
    refine ⟨s.eraseEnds j true, ?_, ?_, hlast, ?_, fun hwait w hw => eraseEnds_bits hfew hwait hw⟩
    · rw [erase_runs hk hon true hbusy, if_pos rfl]
    · rw [hidle, look_del_same]
    · rw [herases]
      simp [lookD]
  · obtain ⟨hmem, hraised⟩ := loftRemap_raises hleft
    refine ⟨s.loftRemap k, ?_, hmem, hraised⟩
    rw [patrol_runs hk hready hidle hgone hstuck, if_pos hfails]
  · rw [patrol_runs hk hready hidle hgone hstuck, if_neg (by simp [hsound])]

end Sys2Proof.Machine
end

section
/-! Zones and their data keep what no command of theirs changes (R196, R204, R205, R230). -/

namespace Sys2Proof.Machine

variable {s t u : State} {P : List Part} {r : Ref} {c : Cmd} {z : Nat}

/-- A zone but for the fence set on it. -/
def State.face (s : State) (z : Nat) : Zone := (s.zone z).unfenced

theorem face_of_mask (h : .zones ∉ P) (e : t.mask P = s.mask P) (z : Nat) : t.face z = s.face z :=
  congrArg Zone.unfenced (zone_of_mask h e z)

theorem face_of_zones (h : t.zones = s.zones) (z : Nat) : t.face z = s.face z := by rw [State.face, State.face, State.zone, h, State.zone]

theorem face_setZone_other {k : Nat} (h : z ≠ k) (g : Zone → Zone) : (s.setZone k g).face z = s.face z :=
  congrArg Zone.unfenced (lookD_adjD_other s.zones Zone.fresh Zone.fresh g h)

theorem face_setZone (k : Nat) {g : Zone → Zone} (h : ∀ x, (g x).unfenced = x.unfenced) : (s.setZone k g).face z = s.face z := by
  by_cases hz : z = k
  · subst hz
    rw [State.face, zone_setZone_same, h, State.face]
  · exact face_setZone_other hz g

/-! ### The end of a command -/

theorem fenceFor_face (s : State) (r : Ref) (c : Cmd) (st z : Nat) : (s.fenceFor r c st).face z = s.face z := by
  unfold State.fenceFor
  split
  · exact face_setZone _ fun _ => rfl
  · rfl

theorem logFailure_face (s : State) (r : Ref) (c : Cmd) (q : Sq) (d : Done) (z : Nat) : (s.logFailure r c q d).1.face z = s.face z :=
  face_of_mask (by decide) (logFailure_mask (List.Subset.refl _) ..) z

theorem issue_face (s : State) (o : RdmaOp) (z : Nat) : (s.issue o).face z = s.face z :=
  face_of_mask (by decide) (issue_mask (List.Subset.refl _) o) z

theorem setCmd_face (s : State) (r : Ref) (g : Cmd → Cmd) (z : Nat) : (s.setCmd r g).face z = s.face z := rfl

theorem atPoint_face (s : State) (r : Ref) (p : Point) (z : Nat) : (s.atPoint r p).face z = s.face z := rfl

theorem begin_face (s : State) (r : Ref) (p : Point) (z : Nat) : (s.begin_ r p).face z = s.face z := rfl

theorem setFn_face (s : State) (f : Nat) (g : Fn → Fn) (z : Nat) : (s.setFn f g).face z = s.face z := rfl

theorem setMedia_face (s : State) (g : Media → Media) (z : Nat) : (s.setMedia g).face z = s.face z := rfl

theorem journalRec_face (s : State) (n z : Nat) : (s.journalRec n).face z = s.face z :=
  face_of_mask (by decide) (journalRec_mask (List.Subset.refl _) n) z

theorem sendOut_face (s : State) (r : Ref) (k : Nat) (d : Bytes) (z : Nat) : (s.sendOut r k d).face z = s.face z :=
  face_of_mask (by decide) (sendOut_mask (List.Subset.refl _) r k d) z

theorem fetchFn_face (s : State) (f z : Nat) : (s.fetchFn f).face z = s.face z :=
  face_of_mask (by decide) (fetchFn_mask (List.Subset.refl _) f) z

/-- The completion posted changes rings alone; before it the failure may be logged and its zone fenced. -/
theorem post_face (s : State) (r : Ref) (d : Done) (z : Nat) : (s.post r d).face z = s.face z := by
  unfold State.post
  split
  · next q c _ _ =>
    dsimp only
    split
    · rfl
    · refine (issue_face ..).trans ((face_of_zones (s := (s.logFailure r c q d).1.fenceFor r c d.status) ?_ z).trans ?_)
      · rfl
      · rw [fenceFor_face, logFailure_face]
  · rfl

theorem postEnded_face (f n z : Nat) : ∀ (k : Nat) (s : State), (State.postEnded f n k s).face z = s.face z
  | 0, _ => rfl
  | k + 1, s => by
    unfold State.postEnded
    repeat' split
    · exact (postEnded_face f n z k _).trans (post_face ..)
    all_goals rfl

theorem complete_face (s : State) (r : Ref) (d : Done) (z : Nat) : (s.complete r d).face z = s.face z := by
  unfold State.complete
  split
  · split
    · rfl
    · rw [postEnded_face, post_face]
  · rfl

theorem fail_face (s : State) (r : Ref) (st f z : Nat) : (s.fail r st f).face z = s.face z := complete_face ..

theorem failCheck_face (s : State) (r : Ref) (st f : Nat) (l : List (Nat × Nat × Nat)) (z : Nat) :
    (s.failCheck r st f l).face z = s.face z := by
  unfold State.failCheck
  dsimp only
  split
  · split
    · rfl
    · exact complete_face ..
  · rfl

theorem checkBuffer_face (s : State) (r : Ref) (c : Cmd) (z : Nat) : (s.checkBuffer r c).face z = s.face z := by
  unfold State.checkBuffer
  repeat' split
  all_goals simp only [atPoint_face, issue_face, failCheck_face]

theorem checkEntry_face (s : State) (r : Ref) (c : Cmd) (z : Nat) : (s.checkEntry r c).face z = s.face z := by
  unfold State.checkEntry
  repeat' split
  all_goals simp only [atPoint_face, issue_face, failCheck_face, checkBuffer_face]

theorem checkLoop_face (f n z : Nat) : ∀ (k : Nat) (s : State), (State.checkLoop f n k s).face z = s.face z
  | 0, _ => rfl
  | k + 1, s => by
    unfold State.checkLoop
    split
    · split
      · rfl
      · split
        · exact (checkLoop_face f n z k _).trans (checkEntry_face ..)
        · rfl
    · rfl

theorem goOn_face (s : State) (f n z : Nat) : (s.goOn f n).face z = s.face z := by
  unfold State.goOn State.checkRing
  rw [fetchFn_face, checkLoop_face]

theorem settle_face (s : State) (r : Ref) (z : Nat) : (s.settle r).face z = s.face z := by
  unfold State.settle
  split
  · rw [goOn_face]
    split <;> rfl
  · exact goOn_face ..

/-! ### The ways a command's effect is carried out -/

theorem ended_face (s : State) (r : Ref) (w : W64) (z : Nat) : (s.ended r w).face z = s.face z := complete_face ..

theorem succeed_face (s : State) (r : Ref) (w : W64) (z : Nat) : (s.succeed r w).face z = s.face z := complete_face ..

theorem govern_face {l : List Chk} {k : State → State} (hk : ∀ x : State, (k x).face z = x.face z) :
    (s.govern r l k).face z = s.face z := by
  unfold State.govern
  split
  · exact fail_face ..
  · exact hk _

theorem underRate_face {k : State → State} (hk : ∀ x : State, (k x).face z = x.face z) : (s.underRate r c k).face z = s.face z := by
  unfold State.underRate
  split
  · exact fail_face ..
  · rfl
  · exact hk _

/-- A zone-management command in its turn keeps what its effect keeps. -/
theorem manage_keeps {α : Type} (p : State → α) {k : State → State} (hk : ∀ x, p (k x) = p x)
    (hfail : ∀ x st f, p (State.fail x r st f) = p x) (hdone : ∀ x d, p (State.complete x r d) = p x)
    (hbegin : p ((s.begin_ r .running).commit.2) = p s) : p (s.manage r c k) = p s := by
  unfold State.manage
  split
  · rfl
  · split
    · exact hfail ..
    · exact (hdone _ _).trans ((hk _).trans hbegin)

theorem manage_face {k : State → State} (hk : ∀ x : State, (k x).face z = x.face z) : (s.manage r c k).face z = s.face z :=
  manage_keeps (fun x => x.face z) hk (fun x st f => fail_face x r st f z) (fun x d => complete_face x r d z) rfl

/-- A row that starts a command keeps what the command's effect and the ring's going on keep. -/
theorem start_keeps {α : Type} (p : State → α) {op : Nat} {k : Cmd → State} (hk : ∀ c, s.cmd r = some c → p (k c) = p s)
    (hs : ∀ x : State, p (x.settle r) = p x) (h : s.start r op k = .next t) : p t = p s := by
  unfold State.start at h
  cases hst : s.startable r op with
  | some c =>
    rw [hst] at h
    have hcmd : s.cmd r = some c := by
      unfold State.startable at hst
      split at hst
      · next hcmd =>
        split at hst
        · exact hcmd.trans hst
        · cases hst
      · cases hst
    cases h
    exact (hs _).trans (hk c hcmd)
  | none =>
    rw [hst] at h
    dsimp only at h
    split at h
    · split at h
      · cases h
        exact hs s
      · cases h
        rfl
    · cases h
      rfl

theorem start_face {op : Nat} {k : Cmd → State} (hk : ∀ c, (k c).face z = s.face z) (h : s.start r op k = .next t) :
    t.face z = s.face z :=
  start_keeps (fun x => x.face z) (fun c _ => hk c) (fun x => settle_face x r z) h

/-! ### The commands that change no zone -/

theorem finishRead_face (s : State) (r : Ref) (z : Nat) : (s.finishRead r).face z = s.face z := by
  unfold State.finishRead
  split
  · rw [complete_face, sendOut_face, atPoint_face]
  · rfl

theorem startRead_face (s : State) (r : Ref) (ps : List Piece) (lost : Option Nat) (z : Nat) :
    (s.startRead r ps lost).face z = s.face z := by
  unfold State.startRead
  dsimp only
  split
  · rw [finishRead_face, setCmd_face, begin_face]
  · rw [setMedia_face, setCmd_face, begin_face]

theorem doReport_face (s : State) (r : Ref) (c : Cmd) (z : Nat) : (s.doReport r c).face z = s.face z := by
  unfold State.doReport
  dsimp only
  rw [complete_face, sendOut_face, begin_face]

theorem startWrite_face (s : State) (r : Ref) (c : Cmd) (z : Nat) : (s.startWrite r c).face z = s.face z := by
  unfold State.startWrite
  split
  · rfl
  · exact underRate_face fun x => issue_face (x.begin_ r .data) _ z

theorem doTrim_face (s : State) (r : Ref) (c : Cmd) (z : Nat) : (s.doTrim r c).face z = s.face z := by
  unfold State.doTrim
  split
  · rfl
  · split
    · exact fail_face ..
    · dsimp only
      rw [complete_face, journalRec_face, setMedia_face]
      rfl

theorem doSem_face (s : State) (r : Ref) (c : Cmd) (z : Nat) : (s.doSem r c).face z = s.face z := by
  have hchange : ∀ (x : State) (k : Nat) (w : W64), (x.semChange k w).face z = x.face z := fun _ _ _ => rfl
  unfold State.doSem
  dsimp only
  repeat' split
  all_goals simp only [complete_face, hchange, begin_face, fail_face]

theorem doSieveWrite_face (s : State) (r : Ref) (c : Cmd) (z : Nat) : (s.doSieveWrite r c).face z = s.face z := by
  unfold State.doSieveWrite
  split
  · rfl
  · split
    · exact fail_face ..
    · refine (succeed_face ..).trans (foldl_same (fun x => x.face z) (fun x k => ?_) _ _)
      split
      · exact face_of_mask (by decide) (putRow_mask (List.Subset.refl _) _ _) z
      · rfl

theorem answer_face (s : State) (r : Ref) (k : Nat) (a : Option Answer) (cur z : Nat) : (s.answer r k a cur).face z = s.face z := by
  unfold State.answer
  rw [complete_face, sendOut_face]

theorem lookup_face (s : State) (f : Nat) (k : BitVec 320) (v : Bool) (pos : Option (Nat × Nat)) (z : Nat) :
    (s.lookup f k v pos).1.face z = s.face z :=
  face_of_mask (by decide) (lookup_mask (List.Subset.refl _) f k v pos) z

theorem doLookup_face (s : State) (r : Ref) (c : Cmd) (z : Nat) : (s.doLookup r c).face z = s.face z := by
  refine underRate_face fun x => ?_
  dsimp only
  split <;> simp only [answer_face, setFn_face, lookup_face, begin_face]

theorem doStep_face (s : State) (r : Ref) (c : Cmd) (z : Nat) : (s.doStep r c).face z = s.face z := by
  refine underRate_face fun x => ?_
  split
  · exact fail_face ..
  · unfold State.stepCursor
    dsimp only
    split <;> simp only [answer_face, setFn_face, lookup_face, begin_face]

theorem deleteRing_face (s : State) (r : Ref) (c : Cmd) (z : Nat) : (s.deleteRing r c).face z = s.face z :=
  govern_face fun x => by
    dsimp only
    rw [ended_face]
    split <;> rfl

theorem resume_face (s : State) (r : Ref) (c : Cmd) (z : Nat) : (s.resume r c).face z = s.face z :=
  govern_face fun x => by
    dsimp only
    rw [ended_face]
    split <;> rfl

theorem createRing_face (s : State) (r : Ref) (c : Cmd) (z : Nat) : (s.createRing r c).face z = s.face z :=
  govern_face fun x => by
    dsimp only
    rw [ended_face]
    exact face_of_mask (by decide) (newRing_mask (List.Subset.refl _) ..) z

theorem addFunction_face (s : State) (r : Ref) (c : Cmd) (z : Nat) : (s.addFunction r c).face z = s.face z :=
  govern_face fun x => (ended_face ..).trans (face_of_mask (by decide) (newFn_mask (List.Subset.refl _) ..) z)

theorem removeFunction_face (s : State) (r : Ref) (c : Cmd) (z : Nat) : (s.removeFunction r c).face z = s.face z :=
  govern_face fun x => (ended_face ..).trans (face_of_mask (by decide) (removeFn_mask (List.Subset.refl _) ..) z)

theorem setResources_face (s : State) (r : Ref) (c : Cmd) (z : Nat) : (s.setResources r c).face z = s.face z :=
  govern_face fun x => by
    have hlater : ∀ y : State, (y.endedLater r 0).face z = y.face z := fun _ => rfl
    dsimp only
    rw [hlater]
    split
    · exact face_of_mask (by decide) (setGrant_mask (List.Subset.refl _) ..) z
    · rfl

theorem createHolding_face (s : State) (r : Ref) (c : Cmd) (z : Nat) : (s.createHolding r c).face z = s.face z :=
  govern_face fun x => (ended_face ..).trans (face_of_mask (by decide) (newHolding_mask (List.Subset.refl _) c) z)

theorem assignHolding_face (s : State) (r : Ref) (c : Cmd) (z : Nat) : (s.assignHolding r c).face z = s.face z :=
  govern_face fun x => by
    rw [ended_face, journalRec_face]
    rfl

theorem doTolerance_face (s : State) (r : Ref) (c : Cmd) (z : Nat) : (s.doTolerance r c).face z = s.face z :=
  govern_face fun x => by
    dsimp only
    split
    · exact ended_face ..
    · rfl

theorem doCalendar_face (s : State) (r : Ref) (c : Cmd) (z : Nat) : (s.doCalendar r c).face z = s.face z :=
  govern_face fun x => (ended_face ..).trans (face_of_mask (P := [.out, .rdma, .bell, .loft, .events, .eventSeq, .clk]) (by decide)
    ((mask_clk (by decide) _).trans (setClock_mask (by decide) _)) z)

theorem setNotify_face (s : State) (r : Ref) (c : Cmd) (z : Nat) : (s.setNotify r c).face z = s.face z :=
  govern_face fun _ => (ended_face ..).trans rfl

theorem doGetLog_face (s : State) (r : Ref) (c : Cmd) (z : Nat) : (s.doGetLog r c).face z = s.face z := by
  unfold State.doGetLog
  dsimp only
  rw [complete_face, sendOut_face, begin_face]

theorem doDownload_face (s : State) (r : Ref) (z : Nat) : (s.doDownload r).face z = s.face z := by
  unfold State.doDownload
  repeat' split
  all_goals simp only [fail_face, issue_face, begin_face]

theorem doActivate_face (s : State) (r : Ref) (z : Nat) : (s.doActivate r).face z = s.face z := by
  have hevent : ∀ (x : State) (a b : Nat), (x.firmwareEvent a b).face z = x.face z := fun x a b =>
    face_of_mask (by decide) (firmwareEvent_mask (List.Subset.refl _) a b) z
  unfold State.doActivate
  dsimp only
  repeat' split
  · rfl
  · rw [fail_face, hevent, begin_face]
  · rw [fail_face, hevent, begin_face]
  · exact face_of_mask (P := [.act, .loft, .sqs]) (by decide) ((mask_act (by decide) _).trans ((select_mask (by decide) _).trans
      (begin__mask (by decide) ..))) z

theorem doAttest_face (s : State) (r : Ref) (c : Cmd) (z : Nat) : (s.doAttest r c).face z = s.face z := by
  unfold State.doAttest
  split
  · rfl
  · refine govern_face fun x => ?_
    dsimp only
    rw [ended_face, sendOut_face]
    exact face_of_mask (P := [.life, .loft]) (by decide) ((mask_life (by decide) _).trans (takeIndex_mask (by decide))) z

/-! ### OPEN, CLOSE, FINISH and RESET change the zone they name alone -/

theorem unparkZone_face {k : Nat} (s : State) (h : z ≠ k) : (s.unparkZone k).face z = s.face z := by
  have hfree : ∀ (y : State) n, (y.parkFree n).face z = y.face z := fun y n =>
    face_of_mask (by decide) (parkFree_mask (List.Subset.refl _) n) z
  have hkey : ∀ y : State, (y.unparkKey k).face z = y.face z := fun y =>
    face_of_mask (by decide) (unparkKey_mask (List.Subset.refl _) k) z
  unfold State.unparkZone
  dsimp only
  split
  · rw [hfree, hkey, face_setZone_other h]
  · rw [hkey, face_setZone_other h]

theorem unpark_face {k : Nat} (s : State) (h : z ≠ k) : (s.unpark k).face z = s.face z := by
  unfold State.unpark
  split
  · exact (unparkZone_face _ h).trans rfl
  · exact unparkZone_face s h

theorem capCheck_face (s : State) (z : Nat) : s.capCheck.face z = s.face z :=
  face_of_mask (by decide) (capCheck_mask (List.Subset.refl _)) z

theorem cursors_face (s : State) (v : Tab Nat) (z : Nat) : ({ s with cursors := v } : State).face z = s.face z := rfl

theorem openEffect_face (s : State) (c : Cmd) (slot : Nat) (h : z ≠ c.zkey) : (s.openEffect c slot).face z = s.face z := by
  have hslot : ∀ (x : State) (n : Nat) (v : SlotUse), (x.setSlot n v).face z = x.face z := fun _ _ _ => rfl
  unfold State.openEffect
  dsimp only
  split
  · rw [capCheck_face, journalRec_face, hslot]
    split
    · exact (cursors_face _ _ z).trans (face_setZone_other h _)
    · exact face_setZone_other h _
  · rw [journalRec_face, face_setZone_other h, unpark_face s h]
  · rfl

theorem doOpen_face (s : State) (r : Ref) (c : Cmd) (h : z ≠ c.zkey) : (s.doOpen r c).face z = s.face z := by
  unfold State.doOpen
  dsimp only
  repeat' split
  · rfl
  · exact manage_face fun x => openEffect_face x c _ h
  · exact manage_face fun x => rfl
  · rfl
  · exact manage_face fun x => openEffect_face x c _ h

theorem doClose_face (s : State) (r : Ref) (c : Cmd) (h : z ≠ c.zkey) : (s.doClose r c).face z = s.face z := by
  refine manage_face fun x => ?_
  have hpark : ∀ (y : State) (a b d e : Nat), (y.park a b d e).face z = y.face z := fun y a b d e =>
    face_of_mask (by decide) (park_mask (List.Subset.refl _) a b d e) z
  unfold State.closeEffect
  dsimp only
  repeat' split
  all_goals simp only [hpark, journalRec_face, face_setZone_other h]

theorem doFinish_face (s : State) (r : Ref) (c : Cmd) (h : z ≠ c.zkey) : (s.doFinish r c).face z = s.face z := by
  refine manage_face fun x => ?_
  have hrow : ∀ (y : State) (a b d : Nat), (y.rowStep a b d).face z = y.face z := fun y a b d =>
    face_of_mask (by decide) (rowStep_mask (List.Subset.refl _) a b d) z
  have hpad : ∀ (y : State) (a : Nat), (y.padRow a).face z = y.face z := fun y a =>
    face_of_mask (by decide) (padRow_mask (List.Subset.refl _) a) z
  unfold State.finishEffect
  dsimp only
  repeat' split
  all_goals simp only [hrow, journalRec_face, face_setZone_other h, hpad, unpark_face x h]

/-! #### RESET -/

theorem look_foldl_put_other {α β : Type} (g : β → Nat) (v : β → α) {n : Nat} (l : List β) (hg : ∀ e, g e ≠ n) (m : Tab α) :
    look (l.foldl (fun m e => put m (g e) (v e)) m) n = look m n := by
  induction l generalizing m with
  | nil => rfl
  | cons e l ih => exact (ih _).trans (look_put_other m (v e) (hg e).symm)

/-- The units of an emptied zone whose slot is held stand under the slot; no unit outside the zone is touched. -/
theorem look_heldUnits (m mine : Tab StUnit) {k n slot : Nat} (hk : n / 2 ^ 20 ≠ k) (hn : n / 2 ^ 20 < 2 ^ 40) :
    look (mine.foldl (fun m e => put m (unitNo (heldZone slot) (e.1 % 2 ^ 20)) e.2) (keep (fun i _ => i / 2 ^ 20 ≠ k) m)) n = look m n := by
  rw [look_foldl_put_other (fun e => unitNo (heldZone slot) (e.1 % 2 ^ 20)) Prod.snd mine]
  · exact (look_keep (fun i => decide (i / 2 ^ 20 ≠ k)) m n).trans (if_pos (by simpa using hk))
  · intro e he
    have hheld : n / 2 ^ 20 = 2 ^ 40 + slot := by
      rw [← he, unitNo, heldZone]
      omega
    omega

/-- The zone emptied, its parking undone, before its slot is let go. -/
def State.vacated (s : State) (z n : Nat) : State :=
  ((if s.scanned n then s.unpark z else { s with staged := s.staged - (s.zone z).stagedPart }.unparkZone z).setZone z
    fun x => { Zone.fresh with fence := x.fence }).setMedia fun m => { m with lostUnits := m.lostUnits.filter fun k => k / 2 ^ 20 ≠ z }

/-- The slot of an emptied zone held for the SCANs that read it (R343). -/
def State.slotHeld (s : State) (z n : Nat) : State :=
  let mine := s.units.filter fun e => decide (e.1 / 2 ^ 20 = z)
  let kept := s.waitingUnits n
  let s := { s.dropSlotWork n with staged := (s.dropSlotWork n).staged + kept }
  let units := mine.foldl (fun t e => put t (unitNo (heldZone n) (e.1 % 2 ^ 20)) e.2) (keep (fun k _ => k / 2 ^ 20 ≠ z) s.units)
  (({ s with units := units }.endCopies n).setSlot n (.held z s.media.begun)).journalRec 0

/-- The slot of an emptied zone let go. -/
def State.letGo (s : State) (z n : Nat) : State := { s with units := keep (fun k _ => k / 2 ^ 20 ≠ z) s.units }.releaseSlot n

theorem emptyZone_of_slot {k n : Nat} (h : (s.zone k).slot = some n) :
    s.emptyZone k = if s.scanned n then (s.vacated k n).slotHeld k n else (s.vacated k n).letGo k n := by
  unfold State.emptyZone
  dsimp only
  rw [h]
  unfold State.slotHeld State.letGo State.vacated
  by_cases hheld : s.scanned n = true
  · simp only [if_pos hheld]
  · simp only [if_neg hheld]

theorem vacated_face (s : State) (n : Nat) {k : Nat} (h : z ≠ k) : (s.vacated k n).face z = s.face z := by
  unfold State.vacated
  rw [setMedia_face, face_setZone_other h]
  split
  · exact unpark_face s h
  · exact (unparkZone_face _ h).trans rfl

theorem vacated_units (s : State) (k n : Nat) : (s.vacated k n).units = s.units := by
  unfold State.vacated
  refine units_of_mask (P := [.zones, .media, .staged]) (by decide) ((setMedia_mask (by decide) _).trans
    ((setZone_mask (by decide) _ _).trans ?_))
  split
  · exact unpark_mask (by decide) _
  · exact (unparkZone_mask (by decide) _).trans (mask_staged (by decide) _)

theorem slotHeld_mask (s : State) (k n : Nat) : (s.slotHeld k n).mask [.units, .media, .staged, .dram] = s.mask [.units, .media, .staged, .dram] := by
  unfold State.slotHeld
  dsimp only
  exact (journalRec_mask (by decide) _).trans ((setSlot_mask (by decide) _ _).trans ((endCopies_mask (by decide) _).trans
    ((mask_units_staged (by decide) _ _).trans (dropSlotWork_mask (by decide) _))))

theorem slotHeld_units (s : State) (slot : Nat) {k n : Nat} (hk : n / 2 ^ 20 ≠ k) (hn : n / 2 ^ 20 < 2 ^ 40) :
    look (s.slotHeld k slot).units n = look s.units n := by
  have hdrop : (s.dropSlotWork slot).units = s.units := units_of_mask (by decide) (dropSlotWork_mask (List.Subset.refl _) slot)
  unfold State.slotHeld
  dsimp only
  rw [units_of_mask (by decide) (journalRec_mask (List.Subset.refl _) 0), units_of_mask (by decide) (setSlot_mask (List.Subset.refl _) _ _),
    units_of_mask (by decide) (endCopies_mask (List.Subset.refl _) _)]
  dsimp only
  rw [hdrop]
  exact look_heldUnits s.units _ hk hn

theorem letGo_units (s : State) (slot : Nat) {k n : Nat} (hk : n / 2 ^ 20 ≠ k) : look (s.letGo k slot).units n = look s.units n := by
  unfold State.letGo
  rw [units_of_mask (by decide) (releaseSlot_mask (List.Subset.refl _) slot)]
  exact (look_keep (fun i => decide (i / 2 ^ 20 ≠ k)) s.units n).trans (if_pos (by simpa using hk))

theorem emptyZone_face (s : State) {k : Nat} (h : z ≠ k) : (s.emptyZone k).face z = s.face z := by
  cases hslot : (s.zone k).slot with
  | none =>
    unfold State.emptyZone
    dsimp only
    rw [hslot]
  | some n =>
    rw [emptyZone_of_slot hslot]
    split
    · rw [face_of_mask (by decide) (slotHeld_mask ..), vacated_face s n h]
    · refine (face_of_mask (by decide) (releaseSlot_mask (List.Subset.refl _) n) z).trans ?_
      exact (face_of_zones rfl z).trans (vacated_face s n h)

theorem emptyZone_units (s : State) {k n : Nat} (hk : n / 2 ^ 20 ≠ k) (hn : n / 2 ^ 20 < 2 ^ 40) :
    look (s.emptyZone k).units n = look s.units n := by
  cases hslot : (s.zone k).slot with
  | none =>
    unfold State.emptyZone
    dsimp only
    rw [hslot]
  | some slot =>
    rw [emptyZone_of_slot hslot]
    split
    · rw [slotHeld_units _ slot hk hn, vacated_units]
    · rw [letGo_units _ slot hk, vacated_units]

theorem doReset_face (s : State) (r : Ref) (c : Cmd) (h : z ≠ c.zkey) : (s.doReset r c).face z = s.face z :=
  manage_face fun x => (capCheck_face _ z).trans (emptyZone_face x h)

theorem doReset_units (s : State) (r : Ref) (c : Cmd) {n : Nat} (hk : n / 2 ^ 20 ≠ c.zkey) (hn : n / 2 ^ 20 < 2 ^ 40) :
    look (s.doReset r c).units n = look s.units n := by
  have hdone : ∀ (x : State) (d : Done), look (x.complete r d).units n = look x.units n := fun x d =>
    congrArg (look · n) (units_of_mask (by decide) (complete_mask (List.Subset.refl _) r d))
  refine manage_keeps (fun x => look x.units n) (fun x => ?_) (fun x st f => hdone x _) hdone rfl
  exact (congrArg (look · n) (units_of_mask (by decide) (capCheck_mask (List.Subset.refl _)))).trans (emptyZone_units x hk hn)

/-! ### The commands in one -/

/-- The host commands that change no zone. -/
def sparesZones (r : Ref) : List Instr :=
  [Instr.addFunction r, .assignHolding r, .attest r, .createHolding r, .createRing r, .deleteRing r, .firmwareActivate r,
    .firmwareDownload r, .flush r, .getLog r, .randomRead r, .randomTrim r, .randomWrite r, .read r, .removeFunction r,
    .reportZones r, .resumeFunction r, .run r, .scan r, .semAcquire r, .semBreak r, .semRead r, .semRelease r,
    .setCalendar r, .setFunctionResources r, .setLatencyTolerance r, .setRingNotify r, .sieveLookup r, .sieveStep r,
    .sieveWrite r, .sieveWritePair r, .write r, .zoneAppend r]

theorem createJob_face (s : State) (r : Ref) (op z : Nat) : (s.createJob r op).face z = s.face z :=
  face_of_mask (by decide) (createJob_mask (List.Subset.refl _) r op) z

theorem job_face {op : Nat} (h : go ((s.createJob r op).settle r) = .next t) (z : Nat) : t.face z = s.face z := by
  cases h
  rw [settle_face, createJob_face]

theorem flush_face (h : exec (.flush r) s = .next t) (z : Nat) : t.face z = s.face z :=
  start_face (fun c => by
    split
    · rfl
    · rw [complete_face, begin_face]) h

theorem sparesZones_face {i : Instr} (hi : i ∈ sparesZones r) (h : exec i s = .next t) (z : Nat) : t.face z = s.face z := by
  fin_cases hi
  · exact start_face (fun c => addFunction_face s r c z) h
  · exact start_face (fun c => assignHolding_face s r c z) h
  · exact start_face (fun c => doAttest_face s r c z) h
  · exact start_face (fun c => createHolding_face s r c z) h
  · exact start_face (fun c => createRing_face s r c z) h
  · exact start_face (fun c => deleteRing_face s r c z) h
  · exact start_face (fun _ => doActivate_face s r z) h
  · exact start_face (fun _ => doDownload_face s r z) h
  · exact flush_face h z
  · exact start_face (fun c => doGetLog_face s r c z) h
  · exact start_face (fun c => underRate_face fun x => startRead_face x r _ _ z) h
  · exact start_face (fun c => doTrim_face s r c z) h
  · exact start_face (fun c => startWrite_face s r c z) h
  · exact start_face (fun c => underRate_face fun x => startRead_face x r _ _ z) h
  · exact start_face (fun c => removeFunction_face s r c z) h
  · exact start_face (fun c => doReport_face s r c z) h
  · exact start_face (fun c => resume_face s r c z) h
  · exact job_face h z
  · exact job_face h z
  · exact start_face (fun c => doSem_face s r c z) h
  · exact start_face (fun c => doSem_face s r c z) h
  · exact start_face (fun c => doSem_face s r c z) h
  · exact start_face (fun c => doSem_face s r c z) h
  · exact start_face (fun c => doCalendar_face s r c z) h
  · exact start_face (fun c => setResources_face s r c z) h
  · exact start_face (fun c => doTolerance_face s r c z) h
  · exact start_face (fun c => setNotify_face s r c z) h
  · exact start_face (fun c => doLookup_face s r c z) h
  · exact start_face (fun c => doStep_face s r c z) h
  · exact start_face (fun c => doSieveWrite_face s r c z) h
  · exact start_face (fun c => doSieveWrite_face s r c z) h
  · exact start_face (fun c => startWrite_face s r c z) h
  · exact start_face (fun c => startWrite_face s r c z) h

/-- A zone-management command keeps every zone but the one its command names. -/
theorem manages_face (hc : s.cmd r = some c) {op : Nat} {k : Cmd → State} (hk : z ≠ c.zkey → (k c).face z = s.face z)
    (h : s.start r op k = .next t) (hz : z ≠ c.zkey) : t.face z = s.face z :=
  start_keeps (fun x => x.face z) (fun _ hd => Option.some.inj (hc.symm.trans hd) ▸ hk hz) (fun x => settle_face x r z) h

theorem resetZone_units (hc : s.cmd r = some c) (h : exec (.resetZone r) s = .next t) {n : Nat} (hk : n / 2 ^ 20 ≠ c.zkey)
    (hn : n / 2 ^ 20 < 2 ^ 40) : look t.units n = look s.units n :=
  start_keeps (fun x => look x.units n) (fun _ hd => Option.some.inj (hc.symm.trans hd) ▸ doReset_units s r c hk hn)
    (fun x => congrArg (look · n) (units_of_mask (by decide) (settle_mask (List.Subset.refl _) r))) h

/-- Settles O5: a fence apart, the end of a command touches no zone, and the zone commands touch the one they name. -/
theorem zonesKept : Obligations.ZonesKept := by
  intro s t r i h same
  refine ⟨fun hi k => sparesZones_face (r := r) hi h k, fun c hc hi => ?_⟩
  fin_cases hi
  · exact ⟨fun k hk => manages_face hc (doOpen_face s r c) h hk, fun n _ _ => congrArg (look · n) (units_of_mask
      (P := [.out, .rdma, .ledger, .bell, .fns, .sqs, .cqs, .aborts, .cursors, .zones, .media, .staged, .dram, .loft, .events, .eventSeq]) (by decide) (exec_leaves _ s t h))⟩
  · exact ⟨fun k hk => manages_face hc (doClose_face s r c) h hk, fun n _ _ => congrArg (look · n) (units_of_mask
      (P := [.out, .rdma, .ledger, .fns, .sqs, .cqs, .aborts, .zones, .media, .dram]) (by decide) (exec_leaves _ s t h))⟩
  · exact ⟨fun k hk => manages_face hc (doFinish_face s r c) h hk, fun n _ _ => congrArg (look · n) (units_of_mask
      (P := [.out, .rdma, .ledger, .fns, .sqs, .cqs, .aborts, .zones, .media, .staged, .dram]) (by decide) (exec_leaves _ s t h))⟩
  · exact ⟨fun k hk => manages_face hc (doReset_face s r c) h hk, fun n hk hn => resetZone_units hc h hk hn⟩

end Sys2Proof.Machine
end

section
/-! Doorbell polls, dozing rings, knocks and fetched entries (R54, R55, R83 to R86, R127, R133 to R136). -/

namespace Sys2Proof.Machine

variable {s t u : State} {P : List Part} {f n page : Nat} {q : Sq}

theorem sq_setSq_same (g : Sq → Sq) (h : s.sq f n = some q) : (s.setSq f n g).sq f n = some (g q) := by
  change look (adj s.sqs (ringNo f n) g) (ringNo f n) = _
  rw [look_adj_same, show look s.sqs (ringNo f n) = some q from h]
  rfl

theorem sq_setSq_other {m : Nat} (hm : m ≠ n) (g : Sq → Sq) : (s.setSq f n g).sq f m = s.sq f m :=
  look_adj_other s.sqs g fun h => hm (ringNo_inj.mp h)

theorem sq_of_sqs (h : t.sqs = s.sqs) (f n : Nat) : t.sq f n = s.sq f n := congrArg (look · (ringNo f n)) h

/-! ### A poll of a doorbell page -/

/-- A function with a poll of its page in flight. -/
def Fn.pollFlies (g : Fn) (page : Nat) : Fn :=
  { g with left := g.left.erase page, polling := g.polling ++ [page], polled := page :: g.polled }

/-- A poll counted in its bell and marked as in flight, before it is issued. -/
def State.pollTaken (s : State) (f page : Nat) : State :=
  { s.setFn f (fun g => g.pollFlies page) with bell := { s.bell with polls := s.bell.polls + 1 } }

theorem pollTaken_polling (s : State) (f page : Nat) : page ∈ ((s.pollTaken f page).fn f).polling := by
  have h : (s.pollTaken f page).fn f = (s.fn f).pollFlies page := fn_setFn_same s f fun g => g.pollFlies page
  rw [h]
  exact List.mem_append_right _ (List.mem_singleton_self _)

/-- The poll of a page that is due, no other before it, in a bell whose polls are below the limit or not. -/
theorem poll_runs {top : Nat} {p : PortId} (hpage : page < 2) (htop : s.topRing f page = some top) (hport : s.workPort f = some p)
    (hready : s.boot.ready = true) (hactive : (s.fn f).state = .active) (hdue : s.pollDue f page = true)
    (hfirst : s.pollBehind f page = false) (hfree : page ∉ (s.fn f).polling) :
    exec (.doorbellPollIssue f page) s =
      if s.bell.polls ≥ 2048 then
        if (s.fn f).left.contains page then .next s
        else .next (s.setFn f fun g => { g with
          left := g.left ++ [page], pollDefer := satAdd 32 g.pollDefer 1, polled := page :: g.polled })
      else
        .next ((s.pollTaken f page).issue ⟨f, some p, false, .page page (top + 1)⟩) := by
  have hpoll : s.pollReady f page = true := by
    unfold State.pollReady
    simp [hpage, htop, hport, hready, hactive, hdue]
  change execDoorbellPollIssue f page s = _
  unfold execDoorbellPollIssue
  dsimp only
  rw [htop, hport]
  dsimp only
  rw [hpoll, if_neg (by simp), if_neg (by simpa using hfree), hfirst, if_neg (by simp)]
  rfl

/-! ### The words of a page that answered -/

/-- What a doorbell word makes of its ring (R127): a TAIL in range is taken, one out of range freezes the ring, and a word of
another generation is nothing to it. -/
def Judged (now : Nat) (w : W64) (q q' : Sq) : Prop :=
  let d := (bits w.toNat 31 0 + 2 ^ 32 - q.fetched % 2 ^ 32) % 2 ^ 32
  (bits w.toNat 63 32 = q.gen → 0 < d → d < q.size → q'.tail = bits w.toNat 31 0 ∧ q'.dozing = false ∧
    q'.lastAdv = now ∧ q'.frozen = q.frozen) ∧
  (bits w.toNat 63 32 = q.gen → q.size ≤ d → q'.tail = q.tail ∧ q'.frozen = true) ∧
  (bits w.toNat 63 32 ≠ q.gen → q'.tail = q.tail ∧ q'.frozen = q.frozen)

theorem size_pos (q : Sq) : 0 < q.size := Nat.two_pow_pos q.sizeLog

theorem sqs_wakeUp (s : State) : s.wakeUp.sqs = s.sqs := sqs_of_mask (by decide) (wakeUp_mask (List.Subset.refl _))

theorem sqs_doorbellFreeze (s : State) (f n : Nat) (q : Sq) (w : W64) : (s.doorbellFreeze f n q w).sqs =
    (s.setSq f n fun x => { x with
      frozen := true, errlog := (logEntry q.errlog (s.doorbellEntry q n w)).1, cmds := x.cmds.map Cmd.unchecked }).sqs :=
  sqs_of_mask (by decide) (notify_mask (List.Subset.refl _) f _)

theorem judgeWord_judges {w : W64} (hq : s.sq f n = some q) (hactive : q.activeFrom ≤ s.bell.now) :
    ∃ q', (s.judgeWord f n w).sq f n = some q' ∧ Judged s.bell.now w q q' := by
  have hpos := size_pos q
  unfold State.judgeWord
  rw [hq]
  dsimp only
  rw [if_neg (by omega)]
  split
  · next hgen => exact ⟨q, hq, fun h => absurd h hgen, fun h => absurd h hgen, fun _ => ⟨rfl, rfl⟩⟩
  next hgen =>
    have hgen := not_not.mp hgen
    split
    · next hzero =>
      have hzero : (bits w.toNat 31 0 + 2 ^ 32 - q.fetched % 2 ^ 32) % 2 ^ 32 = 0 := hzero
      refine ⟨q, hq, fun _ h => ?_, fun _ h => ?_, fun h => absurd hgen h⟩
      · omega
      · omega
    · split
      · next hin =>
        have hin : (bits w.toNat 31 0 + 2 ^ 32 - q.fetched % 2 ^ 32) % 2 ^ 32 < q.size := hin
        refine ⟨_, (sq_of_sqs (sqs_wakeUp _) f n).trans (sq_setSq_same _ hq), fun _ _ _ => ⟨rfl, rfl, rfl, rfl⟩, fun _ h => ?_,
          fun h => absurd hgen h⟩
        omega
      · next hout =>
        have hout : ¬(bits w.toNat 31 0 + 2 ^ 32 - q.fetched % 2 ^ 32) % 2 ^ 32 < q.size := hout
        split
        · next hfrozen => exact ⟨q, hq, fun _ _ h => absurd h hout, fun _ _ => ⟨rfl, hfrozen⟩, fun h => absurd hgen h⟩
        · exact ⟨_, (sq_of_sqs (sqs_doorbellFreeze ..) f n).trans (sq_setSq_same _ hq), fun _ _ h => absurd h hout,
            fun _ _ => ⟨rfl, rfl⟩, fun h => absurd hgen h⟩

theorem judgeWord_others (w : W64) {m : Nat} (hm : m ≠ n) : (s.judgeWord f n w).sq f m = s.sq f m := by
  unfold State.judgeWord
  dsimp only
  repeat' split
  · rfl
  · rfl
  · rfl
  · rfl
  · exact (sq_of_sqs (sqs_wakeUp _) f m).trans (sq_setSq_other hm _)
  · rfl
  · exact (sq_of_sqs (sqs_doorbellFreeze ..) f m).trans (sq_setSq_other hm _)

theorem judgeWord_now (w : W64) : (s.judgeWord f n w).bell = s.bell := by
  have h := eq_graft (judgeWord_mask (s := s) (List.Subset.refl _) f n w)
  exact (congrArg State.bell h :)

/-- The words of a page judged one after the other: each ring of the page by its own word. -/
def State.judgeWords (s : State) (f base k : Nat) (words : List W64) : State :=
  (List.range k).foldl (fun s i => s.judgeWord f (base + i) (words.getD i 0)) s

theorem judgeWords_succ (s : State) (f base k : Nat) (words : List W64) :
    s.judgeWords f base (k + 1) words = (s.judgeWords f base k words).judgeWord f (base + k) (words.getD k 0) := by
  unfold State.judgeWords
  rw [List.range_succ, List.foldl_append]
  rfl

theorem judgeWords_now (s : State) (f base k : Nat) (words : List W64) : (s.judgeWords f base k words).bell = s.bell :=
  foldl_same State.bell (fun _ _ => judgeWord_now _) _ s

theorem judgeWords_beyond (s : State) (f base k : Nat) (words : List W64) {i : Nat} (hi : k ≤ i) :
    (s.judgeWords f base k words).sq f (base + i) = s.sq f (base + i) := by
  induction k with
  | zero => rfl
  | succ k ih => rw [judgeWords_succ, judgeWord_others _ (by omega), ih (by omega)]

theorem judgeWords_judge (base : Nat) (words : List W64) {i : Nat} (hq : s.sq f (base + i) = some q) (hactive : q.activeFrom ≤ s.bell.now) :
    ∀ k, i < k → ∃ q', (s.judgeWords f base k words).sq f (base + i) = some q' ∧ Judged s.bell.now (words.getD i 0) q q'
  | k + 1, hi => by
    rw [judgeWords_succ]
    rcases Nat.lt_succ_iff_lt_or_eq.mp hi with h | rfl
    · rw [judgeWord_others _ (by omega)]
      exact judgeWords_judge base words hq hactive k h
    · have hnow : (s.judgeWords f base i words).bell.now = s.bell.now := congrArg (·.now) (judgeWords_now ..)
      have hsame := (judgeWords_beyond s f base i words (Nat.le_refl i)).trans hq
      obtain ⟨q', hq', hjudged⟩ := judgeWord_judges (w := words.getD i 0) hsame (hnow ▸ hactive)
      exact ⟨q', hq', hnow ▸ hjudged⟩

/-- Entries fetched for a function leave its rings but for what is in flight. -/
theorem fetchFn_sq (s : State) {n : Nat} (hq : s.sq f n = some q) : ∃ q', (s.fetchFn f).sq f n = some q' ∧ q'.atRest = q.atRest := by
  have h := (fetchFn_runs (m := ringNo f n + 1) (m' := 0) s f).others (ringNo f n) (by omega)
  rw [show look s.sqs (ringNo f n) = some q from hq] at h
  exact Option.map_eq_some_iff.mp h.symm

theorem Judged.atRest {now : Nat} {w : W64} {q q' x : Sq} (h : Judged now w q q') (e : x.atRest = q'.atRest) : Judged now w q x := by
  have htail : x.tail = q'.tail := (congrArg Sq.tail e :)
  have hdozing : x.dozing = q'.dozing := (congrArg Sq.dozing e :)
  have hadv : x.lastAdv = q'.lastAdv := (congrArg Sq.lastAdv e :)
  have hfrozen : x.frozen = q'.frozen := (congrArg Sq.frozen e :)
  unfold Judged
  rw [htail, hdozing, hadv, hfrozen]
  exact h

theorem page_answers {o : RdmaOp} {k : Nat} (words : List W64) (hpoll : s.pagePoll f page = some (o, k)) :
    ∃ t, exec (.doorbellPollResponse f page words) s = .next t ∧ ∀ i q, i < k → s.sq f (512 * page + i) = some q →
      q.activeFrom ≤ s.bell.now → ∃ q', t.sq f (512 * page + i) = some q' ∧ Judged s.bell.now (words.getD i 0) q q' := by
  have hrun : exec (.doorbellPollResponse f page words) s = .next
      (((((s.answered f o.kind).setFn f fun g => { g with polling := g.polling.erase page }).judgeWords f (512 * page) k words)).fetchFn f) := by
    change execDoorbellPollResponse f page words s = _
    unfold execDoorbellPollResponse
    rw [hpoll]
    rfl
  refine ⟨_, hrun, fun i q hi hq hactive => ?_⟩
  generalize hu : ((s.answered f o.kind).setFn f fun g => { g with polling := g.polling.erase page }) = u
  have hmask : u.mask [.out, .rdma, .fns, .cqs] = s.mask [.out, .rdma, .fns, .cqs] :=
    hu ▸ (setFn_mask (by decide) _ _).trans (answered_mask (by decide) _ _)
  have hsame : u.sq f (512 * page + i) = some q := (sq_of_sqs (sqs_of_mask (by decide) hmask) f _).trans hq
  have hbell : u.bell = s.bell := bell_of_mask (by decide) hmask
  obtain ⟨q', hq', hjudged⟩ := judgeWords_judge (512 * page) words hsame (hbell ▸ hactive) k hi
  obtain ⟨x, hx, hrest⟩ := fetchFn_sq _ hq'
  exact ⟨x, hx, hbell ▸ hjudged.atRest hrest⟩

/-! ### Knocks -/

/-- A knock taken: remembered for its function, and traced. -/
def State.knockTaken (s : State) (p : PortId) (k : KnockPkt) : State :=
  let u := (s.setPort p fun q => { q with knockSrc := k.src :: q.knockSrc }).setFn (be k.payload 4 2) fun g => { g with knocked := true }
  { u with net := { u.net with
    knockTrace := (u.bell.now, be k.payload 4 2, p, BitVec.ofNat 32 (be k.payload 8 4)) :: u.net.knockTrace } }

theorem knockTaken_knocked (s : State) (p : PortId) (k : KnockPkt) : ((s.knockTaken p k).fn (be k.payload 4 2)).knocked = true := by
  have h : (s.knockTaken p k).fn (be k.payload 4 2) =
      { (s.setPort p fun q => { q with knockSrc := k.src :: q.knockSrc }).fn (be k.payload 4 2) with knocked := true } :=
    fn_setFn_same (s.setPort p fun q => { q with knockSrc := k.src :: q.knockSrc }) (be k.payload 4 2)
      fun g => { g with knocked := true }
  rw [h]

theorem knock_runs {p : PortId} {k : KnockPkt} (hup : (s.port p).state = .up) (hdst : k.dstPort = s.net.knockUdp) :
    exec (.knock p k) s =
      if !s.knockOk p k then .next (s.setPort p fun q => { q with knockDrop := satAdd 64 q.knockDrop 1 })
      else if (s.fn (be k.payload 4 2)).knocked then .next (s.setPort p fun q => { q with knockMerge := satAdd 64 q.knockMerge 1 })
      else if (s.port p).knockSrc.length ≥ 64 || ((s.port p).knockSrc.filter (· = k.src)).length ≥ 8 then
        .next (s.setPort p fun q => { q with knockDrop := satAdd 64 q.knockDrop 1 })
      else .next (s.knockTaken p k).wakeUp := by
  change execKnock p k s = _
  unfold execKnock
  rw [if_neg (not_not_intro hup), if_neg (not_not_intro hdst)]
  rfl

theorem fn_wakeUp (s : State) (f : Nat) : s.wakeUp.fn f = s.fn f := fn_of_mask (by decide) (wakeUp_mask (List.Subset.refl _)) f

/-! ### Entries that arrive -/

/-- FETCHED of a ring. -/
def State.fetchedOf (s : State) (f n : Nat) : Option Nat := (s.sq f n).map (·.fetched)

theorem fetchedOf_of_face {m m' : Nat} (h : RingsRun m m' s t) (f n : Nat) : t.fetchedOf f n = s.fetchedOf f n := by
  have hfetched : ∀ a b : Option Sq, a.map Sq.face = b.map Sq.face → a.map (·.fetched) = b.map (·.fetched) := fun a b e => by
    have := congrArg (Option.map Sq.fetched) e
    rwa [Option.map_map, Option.map_map] at this
  exact (hfetched _ _ (h.face (ringNo f n))).symm

theorem fetchedOf_of_sqs (h : t.sqs = s.sqs) (f n : Nat) : t.fetchedOf f n = s.fetchedOf f n :=
  congrArg (Option.map Sq.fetched) (sq_of_sqs h f n)

theorem fetchedOf_setSq {g : Sq → Sq} (hg : ∀ q, (g q).fetched = q.fetched) (i j f n : Nat) :
    (s.setSq i j g).fetchedOf f n = s.fetchedOf f n := by
  unfold State.fetchedOf
  change (look (adj s.sqs (ringNo i j) g) (ringNo f n)).map _ = (look s.sqs (ringNo f n)).map _
  rw [look_adj]
  split
  · cases look s.sqs (ringNo f n) <;> simp [hg]
  · rfl

theorem complete_fetchedOf (s : State) (r : Ref) (d : Done) (f n : Nat) : (s.complete r d).fetchedOf f n = s.fetchedOf f n := by
  obtain ⟨m', hb⟩ := exists_boundTo s r
  exact fetchedOf_of_face (complete_runs rfl hb d) f n

theorem checkRing_fetchedOf (s : State) (i j f n : Nat) : (s.checkRing i j).fetchedOf f n = s.fetchedOf f n := by
  obtain ⟨m', hb⟩ := exists_boundTo s ⟨i, j, 0⟩
  exact fetchedOf_of_face (checkRing_runs rfl fun _ => hb) f n

theorem finishDiscard_fetchedOf (s : State) (i j f n : Nat) : (s.finishDiscard i j).fetchedOf f n = s.fetchedOf f n := by
  refine foldl_same (fun x => x.fetchedOf f n) (fun x _ => ?_) _ s
  unfold State.endDiscard
  dsimp only
  split
  · split
    · split
      · split
        · rw [complete_fetchedOf]
          exact fetchedOf_setSq (by intro _; rfl) i j f n
        · exact fetchedOf_setSq (by intro _; rfl) i j f n
      · rfl
    · rfl
  · rfl

theorem takeEntry_fetchedOf (port : PortId) (e : Bytes) {k : Nat} (h : s.fetchedOf f n = some k) :
    (s.takeEntry f n port e).fetchedOf f n = some ((k + 1) % 2 ^ 32) := by
  obtain ⟨q, hq, rfl⟩ := Option.map_eq_some_iff.mp h
  unfold State.takeEntry
  rw [hq]
  dsimp only
  generalize hu : (if (isManager f && decide (byteAt e 0 ≥ 64)) = true then _ else _ : State) = u
  have htaken : u.fetchedOf f n = some ((q.fetched + 1) % 2 ^ 32) := by
    rw [← hu]
    split
    · rw [fetchedOf_of_sqs (sqs_wakeUp _)]
      exact congrArg (Option.map Sq.fetched) (sq_setSq_same _ hq)
    · exact congrArg (Option.map Sq.fetched) (sq_setSq_same _ hq)
  split
  · split
    · exact htaken
    · rw [State.fail, complete_fetchedOf]
      exact (fetchedOf_setSq (by intro _; rfl) f n f n).trans htaken
  · split
    · rw [State.fail, complete_fetchedOf, htaken]
    · exact htaken

theorem takeEntries_fetchedOf (port : PortId) : ∀ (es : List Bytes) {s : State} {k : Nat}, es ≠ [] → s.fetchedOf f n = some k →
    (∀ e ∈ es, jobOp (byteAt e 0) = false) → (State.takeEntries f n port es s).fetchedOf f n = some ((k + es.length) % 2 ^ 32)
  | [], _, _, h, _, _ => absurd rfl h
  | e :: es, s, k, _, hk, hjob => by
    have hnext := takeEntry_fetchedOf port e hk
    unfold State.takeEntries
    dsimp only
    rw [if_neg (by simp [hjob e])]
    cases es with
    | nil => exact hnext
    | cons x xs =>
      rw [takeEntries_fetchedOf port (x :: xs) (by simp) hnext fun y hy => hjob y (List.mem_cons_of_mem _ hy)]
      simp only [List.length_cons]
      congr 1
      omega

theorem byteAt_slice_zero (b : Bytes) (k n : Nat) (hn : 0 < n) : byteAt (slice b k n) 0 = byteAt b k := by
  unfold byteAt slice
  dsimp only
  rcases Nat.lt_or_ge k b.length with h | h
  · have hlen : 0 < ((b.drop k).take n).length := by simp; omega
    rw [List.getD_append _ _ _ _ hlen, List.getD_eq_getElem?_getD, List.getElem?_take_of_lt hn, List.getElem?_drop,
      List.getD_eq_getElem?_getD]
    rfl
  · rw [List.drop_eq_nil_of_le h, List.take_nil, List.getD_eq_default b 0 h]
    simp [List.getD_eq_getElem?_getD, hn]

theorem entries_arrive {o : RdmaOp} {k : Nat} {data : Bytes} (hq : s.sq f n = some q) (hk : 0 < k) (hr : s.reads f n = some (o, q.fetched, k))
    (hjob : ∀ i < k, jobOp (byteAt data (64 * i)) = false) : ∃ t q', exec (.entryFetchResponse f n data) s = .next t ∧
      t.sq f n = some q' ∧ q'.fetched = (q.fetched + k) % 2 ^ 32 := by
  have hrun : exec (.entryFetchResponse f n data) s = .next (((((State.takeEntries f n (o.port.getD .A)
      ((List.range k).map fun i => slice data (64 * i) 64) (s.answered f o.kind)).checkRing f n).finishDiscard f n)).fetchFn f) := by
    change execEntryFetchResponse f n data s = _
    unfold execEntryFetchResponse
    rw [hr, hq]
    dsimp only
    rw [if_neg (not_not_intro rfl)]
  have hanswered : (s.answered f o.kind).fetchedOf f n = some q.fetched := by
    rw [fetchedOf_of_sqs (sqs_of_mask (by decide) (answered_mask (List.Subset.refl _) f o.kind)), State.fetchedOf, hq]
    rfl
  have htaken := takeEntries_fetchedOf (f := f) (n := n) (o.port.getD .A) ((List.range k).map fun i => slice data (64 * i) 64)
    (by simp; omega) hanswered (by
      intro e he
      obtain ⟨i, hi, rfl⟩ := List.mem_map.mp he
      rw [byteAt_slice_zero _ _ _ (by omega)]
      exact hjob i (List.mem_range.mp hi))
  rw [List.length_map, List.length_range] at htaken
  have hend := (fetchedOf_of_face (m := 0) (m' := 0) (fetchFn_runs _ f) f n).trans ((finishDiscard_fetchedOf _ f n f n).trans
    ((checkRing_fetchedOf _ f n f n).trans htaken))
  obtain ⟨q', hq', hfetched⟩ := Option.map_eq_some_iff.mp hend
  exact ⟨_, q', hrun, hq', hfetched⟩

/-- Settles O59: a page polled or left over, its words judged ring by ring, and entries taken one after the other. -/
theorem doorbells : Obligations.Doorbells := by
  intro s f g
  refine ⟨fun page top p hpage htop hport hready hactive hdue hfirst hfree => ⟨fun hfew => ?_, fun hmany hleft => ?_⟩,
    fun page o k words hpoll => page_answers words hpoll, fun n q hq hold => ?_,
    fun p k hup hdst => ⟨fun hok hf hknocked hlen hsrc => ?_, fun hbad => ?_⟩,
    fun n q o k data hq hk hr hjob => entries_arrive hq hk hr hjob⟩
  · have hrun := poll_runs hpage htop hport hready hactive hdue hfirst hfree
    rw [if_neg (by omega)] at hrun
    refine ⟨_, hrun, sends_of_issue .., ?_, ?_⟩
    · rw [fn_of_mask (by decide) (issue_mask (List.Subset.refl _) _)]
      exact pollTaken_polling s f page
    · rw [bell_of_mask (by decide) (issue_mask (List.Subset.refl _) _)]
      rfl
  · have hrun := poll_runs hpage htop hport hready hactive hdue hfirst hfree
    rw [if_pos hmany, if_neg (by simpa using hleft)] at hrun
    refine ⟨_, hrun, ?_, ?_, rfl⟩
    · rw [fn_setFn_same]
      simp
    · rw [fn_setFn_same]
      rfl
  · refine ⟨s.setSq f n fun q => { q with dozing := true }, { q with dozing := true }, ?_, sq_setSq_same _ hq, rfl⟩
    change execRingDoze f n s = _
    unfold execRingDoze
    rw [hq]
    dsimp only
    rw [if_pos (by simpa using hold)]
  · have hrun := knock_runs hup hdst
    rw [hok, if_neg (by simp), hf, if_neg (by simpa using hknocked), if_neg (by simp; omega)] at hrun
    refine ⟨_, hrun, ?_⟩
    rw [fn_wakeUp, ← hf]
    exact knockTaken_knocked s p k
  · have hrun := knock_runs hup hdst
    rw [hbad, if_pos (by simp)] at hrun
    refine ⟨_, hrun, by cases p <;> rfl, ?_⟩
    rw [port_setPort_same]
    rfl

end Sys2Proof.Machine
end

section
/-! Responses and deadlines of rings and commands (R95, R141, R144, R148, R149, R156, R182, R187, R193). -/

namespace Sys2Proof.Machine

variable {s t u : State} {P : List Part} {r : Ref} {c : Cmd} {q : Sq} {k : Cq} {f n : Nat}

/-! ### A read that was answered -/

theorem asPosted_of_read {o : RdmaOp} (h : o.kind.isRead = true) : s.asPosted o = (o, s) := by
  unfold State.asPosted
  cases hk : o.kind <;> simp [hk, OpKind.isRead] at h ⊢

theorem retryAt_cqs {pick : RdmaOp → Bool} (h : ∀ o, pick o = true → o.kind.isRead = true) (i : Nat) (s : State) :
    (s.retryAt pick i).cqs = s.cqs := by
  unfold State.retryAt
  split
  · next o _ =>
    split
    · rfl
    · next hpick =>
      have hread : o.kind.isRead = true := h o (by simp at hpick; exact hpick.2)
      split
      · next p _ =>
        rw [asPosted_of_read (o := { o with port := some p }) hread]
        rfl
      · rfl
  · rfl

theorem answered_cqs (s : State) (f : Nat) (k : OpKind) : (s.answered f k).cqs = s.cqs := by
  unfold State.answered
  dsimp only
  refine (foldl_same State.cqs (fun x i => retryAt_cqs (fun o h => (Bool.and_eq_true _ _ ▸ h).2) i x) _ _).trans ?_
  dsimp only
  split
  · exact (congrArg State.cqs (eq_graft (progress_mask (s := s) (List.Subset.refl _) _)) :)
  · rfl

theorem answered_sqs (s : State) (f : Nat) (k : OpKind) : (s.answered f k).sqs = s.sqs :=
  sqs_of_mask (by decide) (answered_mask (List.Subset.refl _) f k)

/-- A command whose completion nothing holds back stands. -/
theorem stands_of (hc : s.cmd r = some c) (hq : s.sq r.fn r.sq = some q) (hk : s.cq r.fn q.cq = some k)
    (hw : orderWaits q.cmds c = false) : Stands s s r c := ⟨q, k, q, k, [], hq, hk, hq, rfl, hk, (List.append_nil _).symm, hc, hw⟩

/-! ### The head word of a completion ring -/

theorem head_runs (w : W64) (hk : s.cq f n = some k) (hh : s.hears f (.head n) = true) : exec (.headWordResponse f n w) s =
    if bits w.toNat 63 32 ≠ k.gen then .next ((s.answered f (.head n)).setFn f fun g => { g with dbStale := satAdd 32 g.dbStale 1 })
    else if sub32 (bits w.toNat 31 0) k.headSeen ≤ sub32 k.posted k.headSeen then
      .next (((s.answered f (.head n)).setCq f n fun k => { k with headSeen := bits w.toNat 31 0 }).fetchFn f)
    else .next ((s.answered f (.head n)).setFn f fun g => { g with cqHeadBad := satAdd 32 g.cqHeadBad 1 }) := by
  change execHeadWordResponse f n w s = _
  unfold execHeadWordResponse
  rw [hk]
  dsimp only
  rw [if_neg (by simp [hh])]

theorem cq_setCq_same (g : Cq → Cq) (h : s.cq f n = some k) : (s.setCq f n g).cq f n = some (g k) := by
  change look (adj s.cqs (ringNo f n) g) (ringNo f n) = _
  rw [look_adj_same, show look s.cqs (ringNo f n) = some k from h]
  rfl

theorem cq_of_cqs (h : t.cqs = s.cqs) (f n : Nat) : t.cq f n = s.cq f n := congrArg (look · (ringNo f n)) h

theorem seen_posted (k : Cq) : sub32 k.posted k.headSeen = (k.posted % 2 ^ 32 + 2 ^ 32 - k.headSeen % 2 ^ 32) % 2 ^ 32 := by
  unfold sub32
  omega

/-- What progress and a read that was answered leave of a function's counters. -/
theorem progress_counts (s : State) (o : RdmaOp) (f : Nat) : ((s.progress o).fn f).dbStale = (s.fn f).dbStale ∧
    ((s.progress o).fn f).cqHeadBad = (s.fn f).cqHeadBad := by
  unfold State.progress
  split
  · by_cases hf : f = o.fn
    · subst hf
      rw [fn_setFn_same]
      exact ⟨rfl, rfl⟩
    · rw [fn_setFn_other hf]
      exact ⟨rfl, rfl⟩
  · exact ⟨rfl, rfl⟩

theorem answered_counts (s : State) (i : Nat) (k : OpKind) (f : Nat) : ((s.answered i k).fn f).dbStale = (s.fn f).dbStale ∧
    ((s.answered i k).fn f).cqHeadBad = (s.fn f).cqHeadBad := by
  unfold State.answered
  rw [fn_of_mask (by decide) (retry_mask (List.Subset.refl _) _)]
  split
  · exact progress_counts s _ f
  · exact ⟨rfl, rfl⟩

/-- What a head word of a ring does. -/
theorem head_answers (w : W64) (hk : s.cq f n = some k) (hh : s.hears f (.head n) = true) :
    ∃ t k', exec (.headWordResponse f n w) s = .next t ∧ t.cq f n = some k' ∧
      (bits w.toNat 63 32 = k.gen → sub32 (bits w.toNat 31 0) k.headSeen ≤ sub32 k.posted k.headSeen → k'.headSeen = bits w.toNat 31 0) ∧
      (bits w.toNat 63 32 = k.gen → sub32 k.posted k.headSeen < sub32 (bits w.toNat 31 0) k.headSeen →
        (t.fn f).cqHeadBad = min ((s.fn f).cqHeadBad + 1) (2 ^ 32 - 1)) ∧
      (bits w.toNat 63 32 ≠ k.gen → (t.fn f).dbStale = min ((s.fn f).dbStale + 1) (2 ^ 32 - 1)) := by
  have hrun := head_runs w hk hh
  have hcq : (s.answered f (.head n)).cq f n = some k := (cq_of_cqs (answered_cqs s f _) f n).trans hk
  obtain ⟨hstale, hbad⟩ := answered_counts s f (.head n) f
  by_cases hgen : bits w.toNat 63 32 = k.gen
  · rw [if_neg (not_not_intro hgen)] at hrun
    by_cases hin : sub32 (bits w.toNat 31 0) k.headSeen ≤ sub32 k.posted k.headSeen
    · rw [if_pos hin] at hrun
      obtain ⟨k', hk', hface⟩ := RingsRun.cq_face (fetchFn_runs (m := 0) (m' := 0) _ f)
        (cq_setCq_same (fun k => { k with headSeen := bits w.toNat 31 0 }) hcq)
      exact ⟨_, k', hrun, hk', fun _ _ => (congrArg Cq.headSeen hface :), fun _ h => absurd hin (by omega), fun h => absurd hgen h⟩
    · rw [if_neg hin] at hrun
      refine ⟨_, k, hrun, hcq, fun _ h => absurd h hin, fun _ _ => ?_, fun h => absurd hgen h⟩
      rw [fn_setFn_same, ← hbad]
      rfl
  · rw [if_pos hgen] at hrun
    refine ⟨_, k, hrun, hcq, fun h => absurd h hgen, fun h => absurd h hgen, fun _ => ?_⟩
    rw [fn_setFn_same, ← hstale]
    rfl

/-! ### A list, a block or data that arrived -/

/-- The command at the front of its ring's checks, past its own: the ring goes no further. -/
theorem nextToCheck_none {q' : Sq} {g : Cmd → Cmd} {rest : List Cmd} {tag : Nat} (hnext : q.cmds.dropWhile Cmd.settled = c :: rest)
    (htag : c.tag = tag) (hfirst : q.cmds.find? (fun c => c.tag = tag) = some c) (hunsettled : c.settled = false)
    (hcmds : q'.cmds = q.cmds.map fun c => if c.tag = tag then g c else c) (hpoint : (g c).point ≠ .fetched) (hg : (g c).settled = false) :
    nextToCheck q' = none := by
  have hdrop : ∀ l : List Cmd, l.dropWhile Cmd.settled = c :: rest → l.find? (fun c => c.tag = tag) = some c →
      ∃ rest', (l.map fun c => if c.tag = tag then g c else c).dropWhile Cmd.settled = g c :: rest' := by
    intro l
    induction l with
    | nil => intro h; simp at h
    | cons a l ih =>
      intro h hf
      by_cases ha : a.settled = true
      · have hne : a.tag ≠ tag := fun e => by
          rw [List.find?_cons_of_pos (by simpa using e)] at hf
          rw [Option.some.inj hf, hunsettled] at ha
          exact absurd ha (by decide)
        rw [List.dropWhile_cons_of_pos ha] at h
        rw [List.find?_cons_of_neg (by simpa using hne)] at hf
        rw [List.map_cons, if_neg hne, List.dropWhile_cons_of_pos ha]
        exact ih h hf
      · rw [List.dropWhile_cons_of_neg ha] at h
        obtain ⟨rfl, -⟩ := List.cons.inj h
        rw [List.map_cons, if_pos htag, List.dropWhile_cons_of_neg (by simp [hg])]
        exact ⟨_, rfl⟩
  obtain ⟨rest', h⟩ := hdrop q.cmds hnext hfirst
  unfold nextToCheck
  rw [hcmds, h]
  dsimp only
  rw [if_neg (by simp [hpoint])]

theorem checkLoop_of_none {f n : Nat} {q : Sq} (hq : s.sq f n = some q) (hnone : nextToCheck q = none) : ∀ k, State.checkLoop f n k s = s
  | 0 => rfl
  | k + 1 => by
    unfold State.checkLoop
    rw [hq]
    dsimp only
    rw [hnone]
    split <;> rfl

theorem cmd_tag (hc : s.cmd r = some c) : c.tag = r.tag := by
  unfold State.cmd at hc
  split at hc
  · simpa using List.find?_some hc
  · cases hc

theorem sq_setCmd (g : Cmd → Cmd) (hq : s.sq r.fn r.sq = some q) :
    (s.setCmd r g).sq r.fn r.sq = some { q with cmds := q.cmds.map fun c => if c.tag = r.tag then g c else c } := sq_setSq_same _ hq

theorem sq_setCmd_twice {a : Cmd → Cmd} (b : Cmd → Cmd) (ha : ∀ c, (a c).tag = c.tag) (hq : s.sq r.fn r.sq = some q) :
    ((s.setCmd r a).setCmd r b).sq r.fn r.sq =
      some { q with cmds := q.cmds.map fun c => if c.tag = r.tag then b (a c) else c } := by
  rw [sq_setCmd b (sq_setCmd a hq)]
  congr 2
  rw [List.map_map]
  refine List.map_congr_left fun c _ => ?_
  by_cases h : c.tag = r.tag <;> simp [h, ha]

/-- A command moved on past the checks of its ring's front: the ring checks nothing further, and the command stands as moved. -/
theorem checkRing_waits {g : Cmd → Cmd} {rest : List Cmd} (hc : s.cmd r = some c) (hq : s.sq r.fn r.sq = some q)
    (hnext : q.cmds.dropWhile Cmd.settled = c :: rest) (hunsettled : c.settled = false) (htags : ∀ a, (g a).tag = a.tag)
    (hpoint : (g c).point ≠ .fetched) (hg : (g c).settled = false)
    (hu : u.sq r.fn r.sq = some { q with cmds := q.cmds.map fun c => if c.tag = r.tag then g c else c }) :
    u.checkRing r.fn r.sq = u ∧ u.cmd r = some (g c) := by
  have hfirst : q.cmds.find? (fun c => c.tag = r.tag) = some c := by simpa [State.cmd, hq] using hc
  have hnone := nextToCheck_none (q' := { q with cmds := q.cmds.map fun c => if c.tag = r.tag then g c else c })
    hnext (cmd_tag hc) hfirst hunsettled rfl hpoint hg
  refine ⟨checkLoop_of_none hu hnone _, ?_⟩
  have hmoved : (s.setCmd r g).cmd r = some (g c) := by
    rw [cmd_setCmd s r htags, hc]
    rfl
  unfold State.cmd at hmoved ⊢
  rw [sq_setCmd g hq] at hmoved
  rw [hu]
  exact hmoved

/-- A command ended in its ring's checks: its completion is posted, whatever the ring checks next. -/
theorem Stands.fails_check (h : Stands s u r c) (st fld : Nat) (l : List (Nat × Nat × Nat)) :
    Posts s ((u.failCheck r st fld l).checkRing r.fn r.sq) r st 0 none := by
  have hends : u.failCheck r st fld l = u.complete r { status := st, field := fld, detail := l } := by
    obtain ⟨q0, k0, q, k, new, hq0, hk0, hq, hcq, hk, hnew, hc, hw⟩ := h
    unfold State.failCheck
    dsimp only
    rw [hq, hc]
    dsimp only
    rw [if_neg (by simp [hw])]
  have hmask : ((u.failCheck r st fld l).checkRing r.fn r.sq).mask [.out, .rdma, .sqs, .cqs, .aborts, .zones] =
      u.mask [.out, .rdma, .sqs, .cqs, .aborts, .zones] := by
    rw [hends]
    exact (checkRing_mask (by decide) _ _).trans (complete_mask (by decide) _ _)
  have hgraft := eq_graft hmask
  have hbell : ((u.failCheck r st fld l).checkRing r.fn r.sq).bell = u.bell := (congrArg State.bell hgraft :)
  have hledger : ((u.failCheck r st fld l).checkRing r.fn r.sq).ledger = u.ledger := (congrArg State.ledger hgraft :)
  have hsems : ((u.failCheck r st fld l).checkRing r.fn r.sq).sems = u.sems := (congrArg State.sems hgraft :)
  refine h.posts (d := { status := st, field := fld, detail := l }) (fun m' hb => ?_) (congrArg Bell.now hbell) hledger hsems
  rw [hends]
  exact checkRing_runs rfl fun _ => BoundTo.of_runs hb (complete_runs rfl hb _)

theorem Stands.answered (h : Stands s t r c) (i : Nat) (k : OpKind) : Stands s (t.answered i k) r c :=
  h.of_eq (answered_sqs t i k) (answered_cqs t i k)

theorem bufferFails_congr {u : State} (h : u.life = s.life) (c : Cmd) : bufferFails u c = bufferFails s c := by
  unfold bufferFails State.reportLen
  rw [h]

theorem list_runs (data : Bytes) (hc : s.cmd r = some c) (hp : c.point = .list) (hh : s.hears r.fn (.list r) = true) {ts : List Triple}
    (hts : ts = triples (slice data 0 c.buf1.len)) : exec (.chainedListResponse r data) s =
      .next ((((s.answered r.fn (.list r)).setCmd r fun a => { a with list := ts }).checkBuffer r { c with list := ts }).checkRing r.fn r.sq) := by
  subst hts
  change execChainedListResponse r data s = _
  unfold execChainedListResponse
  rw [hc]
  dsimp only
  rw [if_neg (by simp [hh]), if_neg (not_not_intro hp)]

/-- The points a list or a block moves its command to hold the checks of its ring. -/
theorem waits_of_point {p : Point} {c : Cmd} (h : p = .block ∨ p = .checked) (hp : c.point = p) : c.point ≠ .fetched ∧ c.settled = false := by
  unfold Cmd.settled Cmd.checkedYet
  rcases h with rfl | rfl <;> simp [hp]

theorem unsettled_of_point {c : Cmd} (h : c.point = .list ∨ c.point = .block) : c.settled = false := by
  unfold Cmd.settled Cmd.checkedYet
  rcases h with h | h <;> simp [h]

/-- A chained list that passes takes its command to its block, or past its checks. -/
theorem list_passes (data : Bytes) {rest : List Cmd} (hc : s.cmd r = some c) (hq : s.sq r.fn r.sq = some q)
    (hnext : q.cmds.dropWhile Cmd.settled = c :: rest) (hp : c.point = .list) (hh : s.hears r.fn (.list r) = true) {ts : List Triple}
    (hts : ts = triples (slice data 0 c.buf1.len)) (hpass : bufferFails s { c with list := ts } = none) :
    ∃ t, exec (.chainedListResponse r data) s = .next t ∧
      t.cmd r = some { c with list := ts, point := if hasBlock c.opcode = true then .block else .checked } := by
  have hlife : ((s.answered r.fn (.list r)).setCmd r fun a => { a with list := ts }).life = s.life :=
    (congrArg State.life (eq_graft (answered_mask (s := s) (List.Subset.refl _) r.fn (.list r))) :)
  have hqa : (s.answered r.fn (.list r)).sq r.fn r.sq = some q := (sq_of_sqs (answered_sqs ..) _ _).trans hq
  have hca : (s.answered r.fn (.list r)).cmd r = some c := (cmd_of_sqs (answered_sqs ..) r).trans hc
  have hrun := list_runs data hc hp hh hts
  unfold State.checkBuffer at hrun
  rw [bufferFails_congr hlife, hpass] at hrun
  dsimp only at hrun
  by_cases hblock : hasBlock c.opcode = true
  · rw [if_pos (show hasBlock (Cmd.opcode { c with list := ts }) = true from hblock)] at hrun
    have hu := sq_setCmd_twice (a := fun a : Cmd => { a with list := ts }) (fun a : Cmd => { a with point := .block }) (fun _ => rfl) hqa
    obtain ⟨hmoved, hunsettled⟩ := waits_of_point (c := { c with list := ts, point := .block }) (.inl rfl) rfl
    obtain ⟨hring, hcmd⟩ := checkRing_waits (g := fun a : Cmd => { a with list := ts, point := .block }) hca hqa hnext
      (unsettled_of_point (.inl hp)) (fun _ => rfl) hmoved hunsettled ((sq_of_sqs (issue_sqs _ _) _ _).trans hu)
    exact ⟨_, hrun.trans (congrArg _ hring), by rw [if_pos hblock]; exact hcmd⟩
  · rw [if_neg (show ¬hasBlock (Cmd.opcode { c with list := ts }) = true from hblock)] at hrun
    have hu := sq_setCmd_twice (a := fun a : Cmd => { a with list := ts }) (fun a : Cmd => { a with point := .checked }) (fun _ => rfl) hqa
    obtain ⟨hmoved, hunsettled⟩ := waits_of_point (c := { c with list := ts, point := .checked }) (.inr rfl) rfl
    obtain ⟨hring, hcmd⟩ := checkRing_waits (g := fun a : Cmd => { a with list := ts, point := .checked }) hca hqa hnext
      (unsettled_of_point (.inl hp)) (fun _ => rfl) hmoved hunsettled hu
    exact ⟨_, hrun.trans (congrArg _ hring), by rw [if_neg hblock]; exact hcmd⟩

theorem list_fails (data : Bytes) (hc : s.cmd r = some c) (hq : s.sq r.fn r.sq = some q) (hk : s.cq r.fn q.cq = some k)
    (hp : c.point = .list) (hh : s.hears r.fn (.list r) = true) {ts : List Triple} (hts : ts = triples (slice data 0 c.buf1.len))
    {st fld : Nat} (hfail : bufferFails s { c with list := ts } = some (st, fld)) (hw : orderWaits q.cmds c = false) :
    ∃ t, exec (.chainedListResponse r data) s = .next t ∧ Posts s t r st 0 none := by
  have hlife : ((s.answered r.fn (.list r)).setCmd r fun a => { a with list := ts }).life = s.life :=
    (congrArg State.life (eq_graft (answered_mask (s := s) (List.Subset.refl _) r.fn (.list r))) :)
  have hrun := list_runs data hc hp hh hts
  unfold State.checkBuffer at hrun
  rw [bufferFails_congr hlife, hfail] at hrun
  exact ⟨_, hrun, (((stands_of hc hq hk hw).answered r.fn (.list r)).setCmd (g := fun a : Cmd => { a with list := ts })
    (fun _ => rfl) (fun _ => rfl) fun _ => rfl).fails_check st fld []⟩

/-- A command's block judged: it is past its checks, or fails. -/
def State.judgeBlock (s : State) (r : Ref) (c : Cmd) : State := match blockFails s r c with
  | some (st, d) => s.failCheck r st 0xFFFF d
  | none => s.atPoint r .checked

/-- A parameter block takes its command past its checks, or fails it. -/
theorem block_answers (data : Bytes) {rest : List Cmd} (hc : s.cmd r = some c) (hq : s.sq r.fn r.sq = some q)
    (hk : s.cq r.fn q.cq = some k) (hnext : q.cmds.dropWhile Cmd.settled = c :: rest) (hp : c.point = .block)
    (hh : s.hears r.fn (.block r) = true) (hw : orderWaits q.cmds c = false) {b : Bytes} (hb : b = slice data 0 (blockLen c)) :
    ∃ t, exec (.parameterBlockResponse r data) s = .next t ∧
      (t.cmd r = some { c with block := b, point := .checked } ∨ ∃ st, Posts s t r st 0 none) := by
  have hrun : exec (.parameterBlockResponse r data) s =
      .next ((((s.answered r.fn (.block r)).setCmd r fun a => { a with block := b }).judgeBlock r { c with block := b }).checkRing r.fn r.sq) := by
    subst hb
    change execParameterBlockResponse r data s = _
    unfold execParameterBlockResponse
    rw [hc]
    dsimp only
    rw [if_neg (by simp [hh]), if_neg (not_not_intro hp)]
    rfl
  have hqa : (s.answered r.fn (.block r)).sq r.fn r.sq = some q := (sq_of_sqs (answered_sqs ..) _ _).trans hq
  have hca : (s.answered r.fn (.block r)).cmd r = some c := (cmd_of_sqs (answered_sqs ..) r).trans hc
  refine ⟨_, hrun, ?_⟩
  unfold State.judgeBlock
  split
  · next st d _ =>
    exact .inr ⟨st, (((stands_of hc hq hk hw).answered r.fn (.block r)).setCmd (g := fun a : Cmd => { a with block := b })
      (fun _ => rfl) (fun _ => rfl) fun _ => rfl).fails_check st 0xFFFF d⟩
  · have hu := sq_setCmd_twice (a := fun a : Cmd => { a with block := b }) (fun a : Cmd => { a with point := .checked }) (fun _ => rfl) hqa
    obtain ⟨hmoved, hunsettled⟩ := waits_of_point (c := { c with block := b, point := .checked }) (.inr rfl) rfl
    obtain ⟨hring, hcmd⟩ := checkRing_waits (g := fun a : Cmd => { a with block := b, point := .checked }) hca hqa hnext
      (unsettled_of_point (.inr hp)) (fun _ => rfl) hmoved hunsettled hu
    exact .inl ((congrArg (fun x : State => x.cmd r) hring).trans hcmd)

/-- The command whose write data arrived. -/
def Cmd.filled (c : Cmd) (d : Bytes) (us : List StUnit) (now : Nat) : Cmd :=
  { c with
    data := if c.opcode = 0x59 then d else [], units := us, point := if c.opcode = 0x59 then .mirrored else .queued
    queuedBell := now, drainBell := none }

theorem data_answers (data : Bytes) (hc : s.cmd r = some c) (hp : c.point = .data) (hh : s.hears r.fn (.data r) = true) :
    ∃ t, exec (.dataReadResponse r data) s = .next t ∧ t.ledger = s.ledger ∧
      t.cmd r = some (c.filled (slice data 0 (dataLen c)) (s.sealIn c (slice data 0 (dataLen c))) s.bell.now) := by
  have hrun : exec (.dataReadResponse r data) s = .next ((s.answered r.fn (.data r)).setCmd r fun a =>
      a.filled (slice data 0 (dataLen a)) (s.sealIn a (slice data 0 (dataLen a))) s.bell.now) := by
    change execDataReadResponse r data s = _
    unfold execDataReadResponse
    rw [hc]
    dsimp only
    rw [if_neg (by simp [hh]), if_neg (not_not_intro hp)]
    rfl
  refine ⟨_, hrun, ?_, ?_⟩
  · exact (congrArg State.ledger (eq_graft (answered_mask (s := s) (List.Subset.refl _) r.fn (.data r))) :)
  · rw [cmd_setCmd _ r (by intro _; rfl), cmd_of_sqs (answered_sqs ..), hc]
    rfl

/-! ### Completions acknowledged -/

/-- Completions of a ring go on as another's where none of them is lost. -/
def Grows (a b : Option Cq) : Prop := ∀ k, a = some k → ∃ k' new, b = some k' ∧ k'.unacked = k.unacked ++ new

theorem complete_grows (s : State) (r : Ref) (d : Done) (f n : Nat) : Grows (s.cq f n) ((s.complete r d).cq f n) := by
  obtain ⟨m', hb⟩ := exists_boundTo s r
  obtain ⟨-, -, hgrows⟩ := (complete_runs rfl hb d).cq (ringNo f n)
  exact hgrows

theorem completes_grow (d : State → AbortWait → Done) (f n : Nat) : ∀ (l : List AbortWait) (s : State),
    Grows (s.cq f n) ((l.foldl (fun s a => s.complete a.r (d s a)) s).cq f n)
  | [], _ => fun k hk => ⟨k, [], hk, by simp⟩
  | a :: l, s => fun k hk => by
    obtain ⟨k1, new1, hk1, e1⟩ := complete_grows s a.r (d s a) f n k hk
    obtain ⟨k2, new2, hk2, e2⟩ := completes_grow d f n l (s.complete a.r (d s a)) k1 hk1
    exact ⟨k2, new1 ++ new2, hk2, by rw [e2, e1, List.append_assoc]⟩

/-- What waits for nothing still waits for nothing past a completion. -/
theorem post_aborts (s : State) (r : Ref) (d : Done) (h : s.aborts = []) : (s.post r d).aborts = [] := by
  have hlog : ∀ c q, (s.logFailure r c q d).1.aborts = s.aborts := fun c q =>
    (congrArg State.aborts (eq_graft (logFailure_mask (s := s) (List.Subset.refl _) r c q d)) :)
  have hfence : ∀ (x : State) c st, (x.fenceFor r c st).aborts = x.aborts := fun x c st =>
    (congrArg State.aborts (eq_graft (fenceFor_mask (s := x) (List.Subset.refl _) r c st)) :)
  have hissue : ∀ (x : State) o, (x.issue o).aborts = x.aborts := fun x o =>
    (congrArg State.aborts (eq_graft (issue_mask (s := x) (List.Subset.refl _) o)) :)
  unfold State.post
  split
  · next q c _ _ =>
    dsimp only
    split
    · exact h
    · rw [hissue]
      have haborts : ((s.logFailure r c q d).1.fenceFor r c d.status).aborts = [] := by rw [hfence, hlog, h]
      exact (congrArg (List.map _) haborts).trans rfl
  · exact h

theorem postEnded_aborts (f n : Nat) : ∀ (k : Nat) (s : State), s.aborts = [] → (State.postEnded f n k s).aborts = []
  | 0, _, h => h
  | k + 1, s, h => by
    unfold State.postEnded
    repeat' split
    · exact postEnded_aborts f n k _ (post_aborts s _ _ h)
    all_goals exact h

theorem complete_aborts (s : State) (r : Ref) (d : Done) (h : s.aborts = []) : (s.complete r d).aborts = [] := by
  unfold State.complete
  split
  · split
    · exact h
    · exact postEnded_aborts _ _ _ _ (post_aborts s r d h)
  · exact h

/-- No command of a ring has a tag. -/
def Untagged (s : State) (r : Ref) : Prop := ∀ q, s.sq r.fn r.sq = some q → ∀ c ∈ q.cmds, c.tag ≠ r.tag

theorem untagged_iff : Untagged s r ↔ s.cmd r = none := by
  unfold Untagged State.cmd
  cases s.sq r.fn r.sq with
  | none => simp
  | some q => simp [List.find?_eq_none]

theorem Untagged.of_sqs (h : Untagged s r) (e : t.sqs = s.sqs) : Untagged t r := fun q hq => h q ((sq_of_sqs e _ _).symm.trans hq)

/-- Changes to a ring that bring in no tag keep it. -/
theorem Untagged.setSq {g : Sq → Sq} (h : Untagged s r) (hg : ∀ q, ∀ c ∈ (g q).cmds, ∃ a ∈ q.cmds, c.tag = a.tag) (f n : Nat) :
    Untagged (s.setSq f n g) r := by
  intro q hq c hc
  have hlook : look (adj s.sqs (ringNo f n) g) (ringNo r.fn r.sq) = some q := hq
  rw [look_adj] at hlook
  split at hlook
  · obtain ⟨a, ha, rfl⟩ := Option.map_eq_some_iff.mp hlook
    obtain ⟨x, hx, e⟩ := hg a c hc
    exact e ▸ h a ha x hx
  · exact h q hlook c hc

theorem Untagged.post (h : Untagged s r) (i : Ref) (d : Done) : Untagged (s.post i d) r := by
  have hlog : ∀ c q, Untagged (s.logFailure i c q d).1 r := fun c q => by
    unfold State.logFailure
    dsimp only
    split
    · refine h.setSq ?_ i.fn i.sq
      exact fun q c hc => ⟨c, hc, rfl⟩
    · exact h
  unfold State.post
  split
  · next q c _ _ =>
    dsimp only
    split
    · exact h
    · refine Untagged.of_sqs ?_ (issue_sqs _ _)
      have hfenced : Untagged ((s.logFailure i c q d).1.fenceFor i c d.status) r :=
        (hlog c q).of_sqs (sqs_of_mask (by decide) (fenceFor_mask (List.Subset.refl _) i c d.status))
      refine (hfenced.setSq (g := fun q => { q with
        cmds := (q.cmds.filter fun c => c.tag ≠ i.tag).map fun c => if q.frozen then c.unchecked else c }) (fun q c hc => ?_) i.fn i.sq).of_sqs rfl
      obtain ⟨a, ha, rfl⟩ := List.mem_map.mp hc
      refine ⟨a, (List.mem_filter.mp ha).1, ?_⟩
      split
      · exact Cmd.unchecked_tag a
      · rfl
  · exact h

theorem Untagged.postEnded {f n : Nat} : ∀ (k : Nat) {s : State}, Untagged s r → Untagged (State.postEnded f n k s) r
  | 0, _, h => h
  | k + 1, s, h => by
    unfold State.postEnded
    repeat' split
    · exact Untagged.postEnded k (h.post _ _)
    all_goals exact h

/-- A command whose completion nothing holds back is gone once it completes. -/
theorem complete_gone (hc : s.cmd r = some c) (hq : s.sq r.fn r.sq = some q) (hk : s.cq r.fn q.cq = some k)
    (hw : orderWaits q.cmds c = false) (d : Done) : (s.complete r d).cmd r = none := by
  obtain ⟨-, -, -, -, -, -, hnone⟩ := post_posts hq hc hk d
  unfold State.complete
  rw [hq, hc]
  dsimp only
  rw [if_neg (by simp [hw])]
  exact untagged_iff.mp ((untagged_iff.mpr hnone).postEnded _)

/-! #### The acknowledgement -/

/-- The completions an acknowledgement of `n` takes off. -/
def State.ackedOf (s : State) (f cq n : Nat) (k : Cq) : List (Nat × Bytes) :=
  (k.unacked.take n).takeWhile fun e => s.rdma.any fun o => o.fn = f && o.kind = .cqe cq e.1 e.2 && s.arrives o

theorem ackedOf_all {m : Nat} (h : ∀ e ∈ k.unacked.take m, ∃ o ∈ s.rdma, o.fn = f ∧ o.kind = .cqe n e.1 e.2 ∧ s.arrives o = true) :
    s.ackedOf f n m k = k.unacked.take m := by
  unfold State.ackedOf
  refine List.takeWhile_eq_self_iff.mpr fun e he => ?_
  obtain ⟨o, ho, hfn, hkind, harrives⟩ := h e he
  rw [List.any_eq_true]
  exact ⟨o, ho, by simp [hfn, hkind, harrives]⟩

/-- The operations that an acknowledgement carries off the wire. -/
def State.unsent (s : State) (f cq : Nat) (acked : List (Nat × Bytes)) : State :=
  let done := acked.map fun e => OpKind.cqe cq e.1 e.2
  let (front, back) := splitAcked f done s.rdma
  let gone := fun (o : RdmaOp) => o.fn = f && s.arrives o && (o.output || done.contains o.kind)
  (front.filter gone).foldl (fun s o => (s.creditOut o).progress o) { s with rdma := front.filter (fun o => !gone o) ++ back }

theorem unsent_mask (s : State) (f cq : Nat) (acked : List (Nat × Bytes)) : (s.unsent f cq acked).mask [.rdma, .fns, .jobs] = s.mask [.rdma, .fns, .jobs] := by
  unfold State.unsent
  dsimp only
  rw [mask_foldl fun x o => (progress_mask (by decide) o).trans (creditOut_mask (by decide) o)]
  exact mask_rdma (by decide) _

/-- An acknowledgement taken: the completions off their ring, and a notification that waited for them sent. -/
def State.ackTaken (s : State) (f cq : Nat) (acked : List (Nat × Bytes)) : State :=
  ((s.unsent f cq acked).setCq f cq fun k => { k with unacked := k.unacked.drop acked.length }).sendDue f cq

/-- What an ABORT's waiting ends with (R183). -/
def AbortWait.done (s : State) (a : AbortWait) : Done := { status := a.status, ledger := (s.cmd a.r).bind (·.ledger) }

/-- The ABORTs released by an acknowledgement. -/
def AbortWait.freed (f cq : Nat) (acked : List (Nat × Bytes)) (a : AbortWait) : Bool :=
  a.r.fn = f && a.cq = cq && acked.any fun e => a.count = some e.1

/-- ABORTs released complete. -/
def State.releases (s : State) (f cq : Nat) (acked : List (Nat × Bytes)) : State :=
  (s.aborts.filter (AbortWait.freed f cq acked)).foldl (fun s a => s.complete a.r (a.done s))
    { s with aborts := s.aborts.filter fun a => !AbortWait.freed f cq acked a }

theorem ack_runs {m : Nat} (hk : s.cq f n = some k) (hm : 0 < m) (hlen : m ≤ k.unacked.length)
    (h : ∀ e ∈ k.unacked.take m, ∃ o ∈ s.rdma, o.fn = f ∧ o.kind = .cqe n e.1 e.2 ∧ s.arrives o = true) :
    exec (.completionAck f n m) s = .next ((s.ackTaken f n (k.unacked.take m)).releases f n (k.unacked.take m)) := by
  have hacked := ackedOf_all h
  unfold State.ackedOf at hacked
  change execCompletionAck f n m s = _
  unfold execCompletionAck
  rw [hk]
  dsimp only
  rw [hacked]
  have hsome : ((k.unacked.take m).map fun e => OpKind.cqe n e.1 e.2).isEmpty = false := by
    cases hl : k.unacked with
    | nil => simp [hl] at hlen; omega
    | cons e l =>
      obtain ⟨m, rfl⟩ := Nat.exists_eq_succ_of_ne_zero (by omega : m ≠ 0)
      rfl
  rw [hsome, Bool.and_false, if_neg (by decide)]
  rfl

theorem sendDue_cq (s : State) (f n : Nat) (hk : s.cq f n = some k) : ∃ k', (s.sendDue f n).cq f n = some k' ∧ k'.unacked = k.unacked := by
  unfold State.sendDue
  rw [hk]
  dsimp only
  split
  · exact ⟨_, (cq_of_cqs (cqs_of_mask (by decide) (notify_mask (List.Subset.refl _) f _)) f n).trans (cq_setCq_same _ hk), rfl⟩
  · exact ⟨k, hk, rfl⟩

theorem ackTaken_cq {acked : List (Nat × Bytes)} (hk : s.cq f n = some k) :
    ∃ k', (s.ackTaken f n acked).cq f n = some k' ∧ k'.unacked = k.unacked.drop acked.length :=
  sendDue_cq _ f n (cq_setCq_same _ ((cq_of_cqs (cqs_of_mask (by decide) (unsent_mask s f n acked)) f n).trans hk))

theorem setCq_stands (s : State) (g : Cq → Cq) (f n i j : Nat) : ((s.setCq f n g).cq i j).isSome = (s.cq i j).isSome := by
  change (look (adj s.cqs (ringNo f n) g) (ringNo i j)).isSome = _
  rw [look_adj]
  split
  · exact Option.isSome_map
  · rfl

theorem sendDue_stands (s : State) (f n i j : Nat) : ((s.sendDue f n).cq i j).isSome = (s.cq i j).isSome := by
  unfold State.sendDue
  split
  · split
    · rw [cq_of_cqs (cqs_of_mask (by decide) (notify_mask (List.Subset.refl _) f _)), setCq_stands]
    · rfl
  · rfl

theorem ackTaken_stands (s : State) (f n : Nat) (acked : List (Nat × Bytes)) (i j : Nat) :
    ((s.ackTaken f n acked).cq i j).isSome = (s.cq i j).isSome := by
  unfold State.ackTaken
  rw [sendDue_stands, setCq_stands, cq_of_cqs (cqs_of_mask (by decide) (unsent_mask s f n acked))]

theorem ackTaken_mask (s : State) (f cq : Nat) (acked : List (Nat × Bytes)) :
    (s.ackTaken f cq acked).mask [.out, .rdma, .fns, .jobs, .cqs] = s.mask [.out, .rdma, .fns, .jobs, .cqs] :=
  (sendDue_mask (by decide) f cq).trans ((setCq_mask (by decide) f cq _).trans (mask_mono (by decide) (unsent_mask s f cq acked)))

theorem ack_answers {m : Nat} (hk : s.cq f n = some k) (hm : 0 < m) (hlen : m ≤ k.unacked.length)
    (h : ∀ e ∈ k.unacked.take m, ∃ o ∈ s.rdma, o.fn = f ∧ o.kind = .cqe n e.1 e.2 ∧ s.arrives o = true) :
    ∃ t k' new, exec (.completionAck f n m) s = .next t ∧ t.cq f n = some k' ∧ k'.unacked = k.unacked.drop m ++ new ∧
      (s.aborts = [] → new = []) ∧
      ∀ a c q x, s.aborts = [a] → a.r.fn = f → a.cq = n → (∃ e ∈ k.unacked.take m, a.count = some e.1) → s.cmd a.r = some c →
        s.sq a.r.fn a.r.sq = some q → s.cq a.r.fn q.cq = some x → orderWaits q.cmds c = false → t.aborts = [] ∧ t.cmd a.r = none := by
  have hrun := ack_runs hk hm hlen h
  have hmask := ackTaken_mask s f n (k.unacked.take m)
  obtain ⟨k1, hk1, hun⟩ := ackTaken_cq (acked := k.unacked.take m) hk
  rw [List.length_take, Nat.min_eq_left hlen] at hun
  have haborts : (s.ackTaken f n (k.unacked.take m)).aborts = s.aborts := (congrArg State.aborts (eq_graft hmask) :)
  have hsqs : (s.ackTaken f n (k.unacked.take m)).sqs = s.sqs := sqs_of_mask (by decide) hmask
  have hstands := fun i j => ackTaken_stands s f n (k.unacked.take m) i j
  generalize hv : s.ackTaken f n (k.unacked.take m) = v at hrun hk1 haborts hsqs hstands
  obtain ⟨k', new, hk', hnew⟩ := completes_grow (fun s a => a.done s) f n (v.aborts.filter (AbortWait.freed f n (k.unacked.take m)))
    { v with aborts := v.aborts.filter fun a => !AbortWait.freed f n (k.unacked.take m) a } k1 hk1
  refine ⟨_, k', new, hrun, hk', hnew.trans (by rw [hun]), fun hnone => ?_, fun a c q x hone hfn hcq hcount hc hq hx hw => ?_⟩
  · have hsame : v.releases f n (k.unacked.take m) = { v with aborts := v.aborts.filter fun a => !AbortWait.freed f n (k.unacked.take m) a } := by
      unfold State.releases
      rw [haborts, hnone]
      rfl
    have hk'' : (v.releases f n (k.unacked.take m)).cq f n = some k1 := by
      rw [hsame]
      exact hk1
    have hu := Option.some.inj (hk''.symm.trans hk')
    rw [← hu] at hnew
    simpa using hnew
  · have hfreed : AbortWait.freed f n (k.unacked.take m) a = true := by
      obtain ⟨e, he, hcnt⟩ := hcount
      unfold AbortWait.freed
      rw [Bool.and_eq_true, Bool.and_eq_true]
      exact ⟨⟨by simpa using hfn, by simpa using hcq⟩, List.any_eq_true.mpr ⟨e, he, by simpa using hcnt⟩⟩
    have hend : v.releases f n (k.unacked.take m) =
        { v with aborts := [] }.complete a.r (a.done { v with aborts := [] }) := by
      unfold State.releases
      rw [haborts, hone]
      simp only [List.filter_cons, hfreed, Bool.not_true, List.filter_nil, if_true, List.foldl_cons, List.foldl_nil]
      rfl
    obtain ⟨y, hy⟩ := Option.isSome_iff_exists.mp ((hstands a.r.fn q.cq).trans (by rw [hx]; rfl))
    rw [hend]
    exact ⟨complete_aborts _ _ _ rfl, complete_gone (s := { v with aborts := [] }) ((cmd_of_sqs hsqs a.r).trans hc)
      ((sq_of_sqs hsqs _ _).trans hq) hy hw _⟩

/-! ### Deadlines -/

theorem notify_due {b : Nat} (hk : s.cq f n = some k) (hp : k.pendFrom = some b) (hb : b + k.coBells ≤ s.bell.now) (hun : k.unacked = []) :
    ∃ t, exec (.notifyDeadline f n) s = .next t ∧ Sends t f (.notify (BitVec.ofNat 32 (0x10000000 + n))) ∧
      t.cq f n = some { k with pendFrom := none, pendCount := 0, pendNow := false } := by
  have hcq := cq_setCq_same (fun k => { k with pendNow := true }) hk
  have hrun : exec (.notifyDeadline f n) s = .next ((s.setCq f n fun k => { k with pendNow := true }).sendDue f n) := by
    change execNotifyDeadline f n s = _
    unfold execNotifyDeadline
    rw [hk]
    dsimp only
    rw [hp]
    dsimp only
    rw [if_pos hb]
  unfold State.sendDue at hrun
  rw [hcq] at hrun
  dsimp only at hrun
  rw [if_pos (by simp [hun])] at hrun
  refine ⟨_, hrun, sends_of_issue .., ?_⟩
  exact (cq_of_cqs (cqs_of_mask (by decide) (notify_mask (List.Subset.refl _) f _)) f n).trans
    (cq_setCq_same (k := { k with pendNow := true }) _ hcq)

/-- An event leaves every ring, function and zone alone. -/
theorem event_runs (m m' : Nat) (s : State) (code cls i : Nat) (d : List (Nat × Nat × Nat)) : RingsRun m m' s (s.event code cls i d) := by
  rw [event_eq]
  have hkept : RingsRun m m' s (s.kept cls (s.eventBytes code cls i d)) := by
    have hmask : (s.kept cls (s.eventBytes code cls i d)).mask [.events, .eventSeq, .loft] = s.mask [.events, .eventSeq, .loft] := by
      unfold State.kept
      split
      · exact (loftRecord_mask (by decide) ..).trans (mask_events_eventSeq (by decide) _ _)
      · exact mask_events_eventSeq (by decide) _ _
    have hgraft := eq_graft hmask
    exact ringsRun_of_eq m m' (congrArg State.rdma hgraft :) (congrArg State.sqs hgraft :) (congrArg State.cqs hgraft :)
      (congrArg State.fns hgraft :) (congrArg State.zones hgraft :)
  have hnotify : ∀ (x : State) i w, RingsRun m m' x (x.notify i w) := fun x i w => issue_runs x _
  have hbell : ∀ (x : State) b, RingsRun m m' x { x with bell := b } := fun _ _ => ringsRun_of_eq m m' rfl rfl rfl rfl rfl
  refine hkept.trans ?_
  generalize s.kept cls (s.eventBytes code cls i d) = u
  unfold State.announced
  split
  · exact .refl ..
  · split
    · exact (hbell u _).trans ((hnotify _ _ _).trans (hnotify _ _ _))
    · exact .refl ..

theorem timeout_ends {unit : Nat} (hc : s.cmd r = some c) (hq : s.sq r.fn r.sq = some q) (hk : s.cq r.fn q.cq = some k)
    (hstarted : c.started = true) (hp : c.point ≠ .decided) (hjob : jobOp c.opcode = false) (hw : orderWaits q.cmds c = false)
    (hold : 2000000 ≤ s.ranFor c.startBell c.startStill) (hact : s.act = none) (herase : s.life.erasing ≠ some r) :
    ∃ t, exec (.internalTimeout r unit) s = .next t ∧ Posts s t r INTERNAL_TIMEOUT 0 none ∧
      Raised t 0x0072 3 r.fn [(32, 2, unit), (36, 2, r.fn), (38, 2, r.sq)] := by
  generalize hd : ({ status := INTERNAL_TIMEOUT, detail := [(32, 2, unit), (36, 24, le c.entry 8 24)] } : Done) = d
  generalize hl : [(32, 2, unit), (36, 2, r.fn), (38, 2, r.sq)] = l
  have hrun : exec (.internalTimeout r unit) s = .next (((((s.dropWork r).complete r d).event 0x0072 3 r.fn l)).checkRing r.fn r.sq) := by
    change execInternalTimeout r unit s = _
    unfold execInternalTimeout
    rw [hc]
    dsimp only
    rw [if_pos (by simp [hstarted, hp, hjob, hold, hact, herase]), hd, hl]
  have hstands : Stands s (s.dropWork r) r c := (stands_of hc hq hk hw).of_mask (by decide) (by decide) (dropWork_mask (List.Subset.refl _) r)
  generalize hu : s.dropWork r = u at hrun hstands
  obtain ⟨hnow, hboot⟩ := event_bell (u.complete r d) 0x0072 3 r.fn l
  have hcheck := eq_graft (checkRing_mask (s := (u.complete r d).event 0x0072 3 r.fn l) (List.Subset.refl _) r.fn r.sq)
  have hevent := eq_graft (event_mask (s := u.complete r d) (List.Subset.refl _) 0x0072 3 r.fn l)
  have hrest : (u.complete r d).rest = u.rest := complete_besides u r d
  have hbell : (((u.complete r d).event 0x0072 3 r.fn l).checkRing r.fn r.sq).bell = ((u.complete r d).event 0x0072 3 r.fn l).bell :=
    (congrArg State.bell hcheck :)
  have hledgers : ((u.complete r d).event 0x0072 3 r.fn l).ledger = (u.complete r d).ledger ∧
      ((u.complete r d).event 0x0072 3 r.fn l).sems = (u.complete r d).sems :=
    ⟨(congrArg State.ledger hevent :), (congrArg State.sems hevent :)⟩
  have hrings : (((u.complete r d).event 0x0072 3 r.fn l).checkRing r.fn r.sq).ledger = ((u.complete r d).event 0x0072 3 r.fn l).ledger ∧
      (((u.complete r d).event 0x0072 3 r.fn l).checkRing r.fn r.sq).sems = ((u.complete r d).event 0x0072 3 r.fn l).sems :=
    ⟨(congrArg State.ledger hcheck :), (congrArg State.sems hcheck :)⟩
  refine ⟨_, hrun, ?_, (event_raised ..).of_eq (congrArg State.events hcheck :) (congrArg Bell.now hbell) (congrArg Bell.boot hbell)⟩
  have hstatus : d.status = INTERNAL_TIMEOUT ∧ d.result = 0 ∧ d.ledger = none := hd ▸ ⟨rfl, rfl, rfl⟩
  obtain ⟨hst, hres, hled⟩ := hstatus
  rw [← hst, ← hres, ← hled]
  refine hstands.posts (fun m' hb => ?_) ?_ ?_ ?_
  · exact (event_runs _ _ _ _ _ _ _).trans (checkRing_runs rfl fun _ =>
      BoundTo.of_runs (BoundTo.of_runs hb (complete_runs rfl hb d)) (event_runs (ringNo r.fn r.sq) m' _ _ _ _ _))
  · rw [hbell, hnow, bell_of_rest hrest]
  · rw [hrings.1, hledgers.1, ledger_of_rest hrest]
  · rw [hrings.2, hledgers.2, sems_of_rest hrest]

/-- A function whose drain is over, before the QUIESCEs that waited for it complete. -/
def State.quieted (s : State) (f : Nat) : State := s.setFn f fun g => { g with state := .quiesced, quietAt := s.bell.now }

/-- What a QUIESCE FUNCTION that waited for the drain's end completes with (R95). -/
def State.quiesceDone (s : State) (r : Ref) : Done :=
  { status := SUCCESS, result := BitVec.ofNat 64 s.bell.now, ledger := (s.cmd r).bind (·.ledger) }

theorem drain_runs (hst : (s.fn f).state = .quiescing) (hup : s.anyUp = true) (hd : s.drained f = true) :
    exec (.drainEnd f) s = .next ((s.quiesceWaits f).foldl (fun s r => s.complete r (s.quiesceDone r)) (s.quieted f)) := by
  change execDrainEnd f s = _
  unfold execDrainEnd
  have hup : (s.portA.state = .up || s.portB.state = .up) = true := hup
  rw [if_pos (by rw [hup, hd]; simp [hst])]
  rfl

theorem drain_ends (hst : (s.fn f).state = .quiescing) (hup : s.anyUp = true) (hd : s.drained f = true) :
    ∃ t, exec (.drainEnd f) s = .next t ∧ (t.fn f).state = .quiesced ∧
      (t.fn f).quietAt = s.bell.now ∧ ∀ (r : Ref) c q k, s.quiesceWaits f = [r] → s.cmd r = some c → s.sq r.fn r.sq = some q →
        s.cq r.fn q.cq = some k → r.wf = true → orderWaits q.cmds c = false →
        Posts s t r SUCCESS (BitVec.ofNat 64 s.bell.now) c.ledger := by
  have hfn : ∀ l : List Ref, (l.foldl (fun s r => s.complete r (s.quiesceDone r)) (s.quieted f)).fn f =
      { s.fn f with state := .quiesced, quietAt := s.bell.now } := fun l =>
    (foldl_same (fun x => x.fn f) (fun x r => fn_of_mask (by decide) (complete_mask (List.Subset.refl _) r _) f) l _).trans
      (fn_setFn_same s f fun g => { g with state := .quiesced, quietAt := s.bell.now })
  refine ⟨_, drain_runs hst hup hd, by rw [hfn], by rw [hfn], fun r c q k hone hc hq hk _ hw => ?_⟩
  have hstands : Stands s (s.quieted f) r c := (stands_of hc hq hk hw).of_eq rfl rfl
  have hdone : ((s.quieted f).quiesceDone r).ledger = c.ledger := by
    change ((s.quieted f).cmd r).bind (·.ledger) = c.ledger
    rw [show (s.quieted f).cmd r = some c from hc]
    rfl
  rw [hone, ← hdone]
  exact hstands.posts_now ((s.quieted f).quiesceDone r)

/-- Settles O60: what arrives takes its command to its next point or ends it, and what is due is sent or ended. -/
theorem ringResponses : Obligations.RingResponses := by
  intro s
  refine ⟨fun f n k w hk hh => ?_, fun r c q k data hc hq hk _ => ⟨?_, ?_, fun hp hh => data_answers data hc hp hh⟩,
    fun f n m k hk hm hlen h => ack_answers hk hm hlen h, fun f n k b hk hp hb hun => notify_due hk hp hb hun,
    fun r c q k unit hc hq hk _ hstarted hp hjob hw hold hact herase => timeout_ends hc hq hk hstarted hp hjob hw hold hact herase,
    fun f hst hup hd => drain_ends hst hup hd⟩
  · obtain ⟨t, k', hrun, hk', hin, hout, hgen⟩ := head_answers w hk hh
    rw [seen_posted] at hin hout
    exact ⟨t, k', hrun, hk', hin, hout, hgen⟩
  · rintro ⟨rest, hnext⟩ hp hh d
    exact ⟨fun hpass => list_passes data hc hq hnext hp hh rfl hpass,
      fun st fld hfail hw => list_fails data hc hq hk hp hh rfl hfail hw⟩
  · rintro ⟨rest, hnext⟩ hp hh hw d
    exact block_answers data hc hq hk hnext hp hh hw rfl

end Sys2Proof.Machine
end

section
/-! Jobs from check to completion (R335, R337 to R339, R341, R342, R387, R391). -/

namespace Sys2Proof.Machine

variable {s t u : State} {P : List Part} {r : Ref} {c : Cmd} {q : Sq} {k : Cq} {j : Nat} {x : Job}

theorem look_setJob (hj : look s.jobs j = some x) (g : Job → Job) : look (s.setJob j g).jobs j = some (g x) := by
  change look (adj s.jobs j g) j = _
  rw [look_adj_same, hj]
  rfl

/-! ### A job made, and loaded -/

theorem createJob_eq {op : Nat} (hc : s.cmd r = some c) (hop : c.opcode = op) (hp : c.point = .checked ∨ c.point = .held)
    (hnone : s.jobOf r = none) (hfree : lowestFree 2048 (s.jobs.map (·.1)) = some j) :
    s.createJob r op = { s with jobs := put s.jobs j (newJob r c) } := by
  unfold State.createJob
  rw [hc]
  dsimp only
  rw [if_pos (by simp [hop, hp, hnone]), hfree]

theorem job_created {op : Nat} {i : Instr} (hi : exec i s = go ((s.createJob r op).settle r)) (hc : s.cmd r = some c) (hop : c.opcode = op)
    (hp : c.point = .checked ∨ c.point = .held) (hnone : s.jobOf r = none) (hfree : lowestFree 2048 (s.jobs.map (·.1)) = some j) :
    ∃ t, exec i s = .next t ∧ look t.jobs j = some (newJob r c) ∧ (newJob r c).st = .queued := by
  rw [createJob_eq hc hop hp hnone hfree] at hi
  refine ⟨_, hi, ?_, rfl⟩
  rw [jobs_of_mask (by decide) (settle_mask (List.Subset.refl _) r)]
  exact look_put_same ..

/-- A job that enters LOADING. -/
def Job.loads (x : Job) (now : Nat) (hs : List Nat) (key : Option Nat) : Job :=
  { x with st := .loading, loadBell := now, hamlets := hs, key := key }

theorem loadJob_job (hj : look s.jobs j = some x) : ∃ hs key, look (s.loadJob j x).jobs j = some (x.loads s.bell.now hs key) := by
  have hfold : ∀ hs : List Nat, (hs.foldl (fun s h => s.setHamlet h fun y => { y with used := y.used + x.need }) s).mask [.hamlets] =
      s.mask [.hamlets] := fun hs => mask_foldl (fun _ _ => setHamlet_mask (by decide) _ _) _ _
  unfold State.loadJob
  dsimp only
  generalize (s.takeHamlets x).mergeSort (fun a b => a ≤ b) = hs
  have hmask := hfold hs
  have hbell := bell_of_mask (by decide) hmask
  have hjobs := jobs_of_mask (by decide) hmask
  generalize hs.foldl (fun s h => s.setHamlet h fun y => { y with used := y.used + x.need }) s = u at hbell hjobs ⊢
  refine ⟨hs, x.holding.map u.holdKey, ?_⟩
  rw [← hbell]
  exact look_setJob (s := u) ((congrArg (look · j) hjobs).trans hj) _

/-- An item posted for a job touches no more of it than its turn. -/
theorem postItem_job (s : State) (j kind : Nat) (w1 w2 w3 : W64) (i : Nat) :
    (look (s.postItem j kind w1 w2 w3).jobs i).map (fun x => { x with turn := 0 }) =
      (look s.jobs i).map fun x => { x with turn := 0 } := by
  unfold State.postItem
  split
  · split
    · rfl
    · dsimp only
      rw [jobs_of_mask (by decide) (ready_mask (List.Subset.refl _) _ _ _)]
      change (look (adj s.jobs j _) i).map _ = _
      rw [look_adj]
      split
      · cases look s.jobs i <;> rfl
      · rfl
  · rfl

theorem posted_job {i : Nat} (h : (look t.jobs i).map (fun x => { x with turn := 0 }) = (look s.jobs i).map fun x => { x with turn := 0 })
    (hx : look s.jobs i = some x) : ∃ y, look t.jobs i = some y ∧ { y with turn := 0 } = { x with turn := 0 } := by
  rw [hx] at h
  exact Option.map_eq_some_iff.mp h

theorem job_loaded (hj : look s.jobs j = some x) (hst : x.st = .loading) : ∃ t y, exec (.jobLoaded j) s = .next t ∧
    t.ledger = s.ledger + 1 ∧ look t.jobs j = some y ∧ y.st = .running ∧ y.ledger = s.ledger + 1 ∧ y.runBell = s.bell.now := by
  let u := { s with ledger := s.ledger + 1 }.setCmd x.r fun c => { c with point := .decided, ledger := some (s.ledger + 1) }
  let zs := if x.isScan then (((u.spec x).zoneKeys (x.holding.getD 0)).filter fun z => (u.zone z).slot.isSome).map u.snapshot else []
  let v := u.setJob j fun x => { x with
    st := .running, ledger := s.ledger + 1, runBell := u.bell.now, zones := zs, dram := sparse x.image 0 }
  have hrun : exec (.jobLoaded j) s = .next ((List.range x.cores).foldl (fun s i => s.postItem j 1 (BitVec.ofNat 64 i) x.arg 0) v) := by
    change execJobLoaded j s = _
    unfold execJobLoaded
    rw [hj]
    dsimp only
    rw [if_neg (not_not_intro hst)]
    rfl
  have hv : look v.jobs j = some { x with
      st := .running, ledger := s.ledger + 1, runBell := u.bell.now, zones := zs, dram := sparse x.image 0 } := look_setJob (s := u) hj _
  obtain ⟨y, hy, e⟩ := posted_job (foldl_same (fun s => (look s.jobs j).map fun x => { x with turn := 0 })
    (fun a i => postItem_job a j 1 (BitVec.ofNat 64 i) x.arg 0 j) (List.range x.cores) v) hv
  have hledger : ((List.range x.cores).foldl (fun s i => s.postItem j 1 (BitVec.ofNat 64 i) x.arg 0) v).ledger = s.ledger + 1 :=
    foldl_same State.ledger (fun a i => ledger_of_mask (by decide) (postItem_mask (List.Subset.refl _) j 1 _ x.arg 0)) _ v
  exact ⟨_, y, hrun, hledger, hy, (congrArg Job.st e :), (congrArg Job.ledger e :), (congrArg Job.runBell e :)⟩

/-! ### A job ended -/

/-- The state in which the record of a faulted job is kept (R392). -/
def State.faultKept (s : State) (x : Job) : State := match x.fault with
  | some (_, _, _, b) => s.faultRecord x.r.fn (patch b 21 [BitVec.ofNat 8 (min 255 x.faults)])
  | none => s

theorem faultKept_mask (s : State) (x : Job) : (s.faultKept x).mask [.fns] = s.mask [.fns] := by
  unfold State.faultKept
  split
  · exact faultRecord_mask (by decide) _ _
  · rfl

/-- What a job ends with: a fault of its own replaces the status. -/
def Job.endsWith (x : Job) (d : Done) : Done := if x.fault.isSome then { d with status := JOB_FAULT, detail := [] } else d

/-- RESULT of an ended job. -/
def Job.resultAt (x : Job) (st : Nat) : W64 := if x.st = .running then x.result st else 0

theorem endJob_eq (hj : look s.jobs j = some x) (d : Done) : s.endJob j d = ((s.faultKept x).removeJob j).complete x.r
    { x.endsWith d with result := x.resultAt (x.endsWith d).status, ledger := ((s.faultKept x).cmd x.r).bind (·.ledger) } := by
  unfold State.endJob
  rw [hj]
  rfl

/-- A job that ends is gone, and its command posts its completion. -/
theorem endJob_posts (hj : look s.jobs j = some x) (h : Stands u s x.r c) (d : Done) : look (s.endJob j d).jobs j = none ∧
    Posts u (s.endJob j d) x.r (x.endsWith d).status (x.resultAt (x.endsWith d).status) c.ledger := by
  have hcmd : (s.faultKept x).cmd x.r = some c := (cmd_of_sqs (sqs_of_mask (by decide) (faultKept_mask s x)) x.r).trans h.cmd_eq
  have hremoved : Stands u ((s.faultKept x).removeJob j) x.r c :=
    (h.of_mask (by decide) (by decide) (faultKept_mask s x)).of_mask (by decide) (by decide) (removeJob_mask (List.Subset.refl _) j)
  rw [endJob_eq hj d, hcmd]
  refine ⟨?_, hremoved.posts_now _⟩
  rw [jobs_of_mask (by decide) (complete_mask (List.Subset.refl _) _ _), removeJob_jobs, look_del_same]

theorem endsWith_of_sound (h : x.fault = none) (d : Done) : x.endsWith d = d := by
  unfold Job.endsWith
  rw [h]
  rfl

theorem resultAt_running (h : x.st = .running) (st : Nat) : x.resultAt st = x.result st := if_pos h

/-- A job with no output left to deliver ends. -/
theorem finishJob_ends (hj : look s.jobs j = some x) (hout : x.output = []) (hsent : x.sent = x.delivered) (st : Nat) :
    s.finishJob j st = s.endJob j { status := st } := by
  unfold State.finishJob State.deliver
  rw [hj]
  dsimp only
  rw [if_pos (by simp [hout]), hj]
  dsimp only
  rw [if_pos (by simp [hout, hsent])]

/-- A job whose output nothing takes waits. -/
theorem finishJob_waits (hj : look s.jobs j = some x) (hout : x.output ≠ []) (hport : s.workPort x.r.fn = none) (st : Nat) :
    s.finishJob j st = s := by
  have hdeliver : s.deliver j = s := by
    unfold State.deliver
    rw [hj]
    dsimp only
    rw [hport]
    split <;> rfl
  unfold State.finishJob
  rw [hdeliver]
  dsimp only
  rw [hj]
  dsimp only
  rw [if_neg (by simp [hout])]

/-- A completion stands past what runs the rings on, in the same bell. -/
theorem Posts.keeps {st : Nat} {res : W64} {l : Option Nat} {m m' : Nat} {v : State} (h : Posts s t r st res l) (hrun : RingsRun m m' t v)
    (hbell : v.bell.now = t.bell.now) (hledger : v.ledger = t.ledger) (hsems : v.sems = t.sems) : Posts s v r st res l := by
  obtain ⟨q0, k0, k1, new, q, k, c, p, u, d, logged, hq0, hk0, hk1, hun, htag, hnow, hl, hs, hst, hres, hled, hnew, hsent⟩ := h
  obtain ⟨-, -, hgrow⟩ := hrun.cq (ringNo r.fn q0.cq)
  obtain ⟨k2, more, hk2, hun2⟩ := hgrow k1 hk1
  exact ⟨q0, k0, k2, new ++ more, q, k, c, p, u, d, logged, hq0, hk0, hk2, by rw [hun2, hun, List.append_assoc], htag, hnow.trans hbell.symm,
    hl.trans hledger.symm, hs.trans hsems.symm, hst, hres, hled, List.mem_append_left _ hnew, hrun.rdma _ hsent⟩

theorem Posts.event {st : Nat} {res : W64} {l : Option Nat} (h : Posts s t r st res l) (code cls i : Nat) (d : List (Nat × Nat × Nat)) :
    Posts s (t.event code cls i d) r st res l := by
  obtain ⟨hnow, -⟩ := event_bell t code cls i d
  have hgraft := eq_graft (event_mask (s := t) (List.Subset.refl _) code cls i d)
  exact h.keeps (event_runs 0 0 t code cls i d) hnow (congrArg State.ledger hgraft :) (congrArg State.sems hgraft :)

theorem load_times_out (hj : look s.jobs j = some x) (h : Stands s s x.r c) (hf : x.fault = none) (hst : x.st = .loading)
    (hold : 2000000 ≤ s.ranFor x.loadBell c.startStill) : ∃ t, exec (.jobLoadTimeout j) s = .next t ∧
      look t.jobs j = none ∧ Posts s t x.r INTERNAL_TIMEOUT 0 c.ledger := by
  generalize hd : ({ status := INTERNAL_TIMEOUT, detail := [(32, 2, 0x0330), (36, 24, le (((s.cmd x.r).map (·.entry)).getD []) 8 24)] } : Done) = d
  generalize hl : [(32, 2, 0x0330), (36, 2, x.r.fn), (38, 2, x.r.sq)] = l
  have hrun : exec (.jobLoadTimeout j) s = .next ((s.endJob j d).event 0x0072 3 x.r.fn l) := by
    change execJobLoadTimeout j s = _
    unfold execJobLoadTimeout
    rw [hj]
    dsimp only
    rw [if_pos (by rw [h.cmd_eq]; simp [hst, hold]), hd, hl]
  have hstatus : d.status = INTERNAL_TIMEOUT := hd ▸ rfl
  obtain ⟨hgone, hposts⟩ := endJob_posts hj h d
  have hzero : x.resultAt d.status = 0 := if_neg (by simp [hst])
  rw [endsWith_of_sound hf, hzero, hstatus] at hposts
  refine ⟨_, hrun, ?_, hposts.event 0x0072 3 x.r.fn l⟩
  rw [jobs_of_mask (by decide) (event_mask (List.Subset.refl _) 0x0072 3 x.r.fn l)]
  exact hgone

/-- A job past its time limit (R391). -/
def Job.timedOut (x : Job) (now : Nat) (b : Bytes) : Job :=
  { x with
    ending := some JOB_FAULT, fault := some (now, noCore, 0, b), faultCode := 3, faults := x.faults + b01 x.fault.isSome }

theorem time_limit_faults (hj : look s.jobs j = some x) (hf : x.fault = none) (hlive : x.live = true) (hpaused : x.outPaused = none)
    (hlimit : x.timeLimit ≠ 0) (hnow : x.runBell + x.timeLimit ≤ s.bell.now) :
    ∃ t b, exec (.jobTimeLimit j) s = .next t ∧ t.mask [.jobs] = s.mask [.jobs] ∧ look t.jobs j = some (x.timedOut s.bell.now b) := by
  have hrun : exec (.jobTimeLimit j) s = .next (s.jobFault j 0x10 3 noCore 0 []) := by
    change execJobTimeLimit j s = _
    unfold execJobTimeLimit
    rw [hj]
    dsimp only
    rw [if_pos (by simp [hlive, hpaused, hlimit, hnow])]
  refine ⟨_, record 64 ([(0, 8, s.bell.now), (8, 8, x.ledger), (16, 2, x.r.fn), (18, 1, noCore / 256), (19, 1, noCore % 256), (20, 1, 0x10),
      (22, 2, 3)] ++ []), hrun, jobFault_mask (List.Subset.refl _) _ _ _ _ _ _, ?_⟩
  unfold State.jobFault
  rw [hj]
  dsimp only
  rw [hf]
  dsimp only
  rw [look_setJob hj]
  rfl

theorem complete_ends (hj : look s.jobs j = some x) (hst : x.st = .running) (hout : x.output = []) (hsent : x.sent = x.delivered)
    (hstopped : x.stopped = false) (hend : x.ending = none) (hf : x.fault = none) (hall : s.consumed j x = true) :
    exec (.jobComplete j) s = .next (s.endJob j { status := SUCCESS }) := by
  change execJobComplete j s = _
  unfold execJobComplete
  rw [hj]
  dsimp only
  rw [hf, if_neg (by simp), if_neg (by simp [hst, hstopped]), hend]
  dsimp only
  rw [if_pos hall, finishJob_ends hj hout hsent]

theorem fault_completes (hj : look s.jobs j = some x) (hf : x.fault.isSome = true) :
    exec (.jobComplete j) s = .next (s.endJob j { status := JOB_FAULT }) := by
  change execJobComplete j s = _
  unfold execJobComplete
  rw [hj]
  dsimp only
  rw [if_pos hf]

/-! ### A job stopped -/

/-- A stopped job with no work left: what its gates of a job with no stage had emitted is output (R342). -/
def Job.halts (x : Job) : Job :=
  { x with
    output := if x.cores = 0 then x.output ++ x.filling.flatMap (·.2) else x.output, filling := []
    zones := x.zones.map fun z => { z with out := 0, wait := [] } }

theorem dropped_jobs (s : State) (j : Nat) : ((s.dropItems j).dropScans j).jobs = s.jobs :=
  (jobs_of_mask (P := [.bell, .media]) (by decide) (dropScans_mask (List.Subset.refl _) j)).trans
    (jobs_of_mask (P := [.ledger, .bell, .fns, .zones, .units, .media, .staged, .cores, .hamlets, .disp, .dram, .health]) (by decide)
      (dropItems_mask (List.Subset.refl _) j))

theorem stopItems_job (hj : look s.jobs j = some x) : look (s.stopItems j).jobs j = some x.halts := by
  unfold State.stopItems
  exact look_setJob ((congrArg (look · j) (dropped_jobs s j)).trans hj) _

theorem stop_runs (hj : look s.jobs j = some x) (hst : x.st = .running) (hstopped : x.stopped = true) (hf : x.fault = none) :
    exec (.jobStop j) s = .next ((s.stopItems j).finishJob j SUCCESS) := by
  change execJobStop j s = _
  unfold execJobStop
  rw [hj]
  dsimp only
  rw [if_pos (by simp [hst, hstopped, hf])]

theorem third_of_some {α β γ : Type} {a a' : α} {b b' : β} {d d' : γ} (h : some (a, b, d) = some (a', b', d')) : d = d' :=
  congrArg (·.2.2) (Option.some.inj h)

theorem commit_fn (s : State) (f : Nat) : s.commit.2.fn f = s.fn f := rfl

theorem stored_steady (b : List Int) (i z n l f : Nat) (us : List StUnit) :
    (((s.setFn i fun g => { g with buckets := b }).commit.2.store z n l us).fn f).steady = (s.fn f).steady := by
  rw [fn_of_mask (by decide) (store_mask (List.Subset.refl _) z n l us), commit_fn]
  exact (setFn_runs (m := 0) (m' := 0) (by intro _; rfl)).fn f

/-- A job append touches no more of a function than its rate buckets. -/
theorem appendJob_steady {y : Job} {g : Req} {st a : Nat} (h : s.appendJob y g = some (st, a, t)) (f : Nat) : (t.fn f).steady = (s.fn f).steady := by
  unfold State.appendJob at h
  obtain ⟨rate, hrate⟩ : ∃ r, r = State.rate := ⟨_, rfl⟩
  obtain ⟨fails, hfails⟩ : ∃ r, r = State.reqFails := ⟨_, rfl⟩
  obtain ⟨held, hheld⟩ : ∃ r, r = State.zoneHeld := ⟨_, rfl⟩
  rw [← hrate, ← hfails, ← hheld] at h
  clear hrate hfails hheld
  dsimp only at h
  split at h
  · rw [← third_of_some h]
  · split at h
    · rw [← third_of_some h]
    · cases h
    · next b _ =>
      split at h
      · cases h
      · obtain ⟨z, n, l, us, rfl⟩ : ∃ z n l us, t = (s.setFn y.r.fn fun g => { g with buckets := b }).commit.2.store z n l us :=
          ⟨_, _, _, _, (third_of_some h).symm⟩
        exact stored_steady b y.r.fn z n l f us

theorem acceptAppends_steady (s : State) (j f : Nat) : ((s.acceptAppends j).fn f).steady = (s.fn f).steady := by
  unfold State.acceptAppends
  split
  · refine foldl_same (fun x => (x.fn f).steady) (fun x g => ?_) _ s
    split
    · next h => exact appendJob_steady h f
    · rfl
  · rfl

theorem dropItems_rest (s : State) (j : Nat) : (s.dropItems j).mask [.bell, .media, .cores, .hamlets, .disp] =
    (s.acceptAppends j).mask [.bell, .media, .cores, .hamlets, .disp] := by
  have htrace : ∀ (x : State) e h c i, (x.trace e h c i 0 0).mask [.bell, .media, .cores, .hamlets, .disp] =
      x.mask [.bell, .media, .cores, .hamlets, .disp] := fun x e h c i => trace_mask (by decide) ..
  unfold State.dropItems
  refine (mask_cores_hamlets_disp (by decide) ..).trans ((mask_foldl (fun x e => ?_) _ _).trans
    ((mask_foldl (fun x e => mask_foldl (fun _ _ => htrace ..) _ x) _ _).trans (dropJobReads_mask (by decide) _)))
  refine (mask_foldl (fun _ _ => htrace ..) _ _).trans ?_
  split
  · split
    · exact htrace ..
    · rfl
  · rfl

/-- The port a function's work takes rests on the ports and what is steady of the function. -/
theorem workPort_congr {f : Nat} (hf : (t.fn f).steady = (s.fn f).steady) (hnet : t.net = s.net) (hports : ∀ p, t.port p = s.port p) :
    t.workPort f = s.workPort f := by
  have heff : (t.fn f).eff = (s.fn f).eff := (congrArg Fn.eff hf :)
  have hqp : ∀ p ev, (t.fn f).qpState p ev = (s.fn f).qpState p ev := fun p ev => (congrArg (fun g => Fn.qpState g p ev) hf :)
  have hcarries : ∀ p ev, t.carries f p ev = s.carries f p ev := fun p ev => by rw [State.carries, State.carries, hports, hqp]
  have hsound : ∀ p, t.soundOn f p = s.soundOn f p := fun p => by rw [State.soundOn, State.soundOn, hcarries, hqp]
  unfold State.workPort State.failing
  rw [heff, hnet]
  simp only [hcarries, hsound]

theorem stopItems_port (s : State) (j f : Nat) : (s.stopItems j).workPort f = s.workPort f := by
  have hmask := stopItems_mask (s := s) (List.Subset.refl _) j
  have hsteady : ((s.stopItems j).fn f).steady = (s.fn f).steady := by
    have hset : ∀ (y : State) g, (y.setJob j g).fn f = y.fn f := fun _ _ => rfl
    unfold State.stopItems
    rw [hset, fn_of_mask (by decide) (dropScans_mask (List.Subset.refl _) j), fn_of_mask (by decide) (dropItems_rest s j), acceptAppends_steady]
  exact workPort_congr hsteady (congrArg State.net (eq_graft hmask) :) (port_of_mask (by decide) (by decide) hmask)

theorem stops_with_output (hj : look s.jobs j = some x) (hf : x.fault = none) (hst : x.st = .running) (hstopped : x.stopped = true)
    (hcores : x.cores = 0) (hport : s.workPort x.r.fn = none) : ∃ t y, exec (.jobStop j) s = .next t ∧
      (x.output ++ x.filling.flatMap (·.2) ≠ [] → look t.jobs j = some y ∧ y.output = x.output ++ x.filling.flatMap (·.2) ∧
        y.filling = []) := by
  have hout : x.halts.output = x.output ++ x.filling.flatMap (·.2) := if_pos hcores
  refine ⟨_, x.halts, stop_runs hj hst hstopped hf, fun hsome => ?_⟩
  rw [finishJob_waits (stopItems_job hj) (hout ▸ hsome) ((stopItems_port s j x.r.fn).trans hport)]
  exact ⟨stopItems_job hj, hout, rfl⟩

theorem stop_ends (hj : look s.jobs j = some x) (h : Stands s s x.r c) (hf : x.fault = none) (hst : x.st = .running)
    (hstopped : x.stopped = true) (hout : x.output = []) (hsent : x.sent = x.delivered)
    (hrest : x.cores ≠ 0 ∨ x.filling.flatMap (·.2) = []) : ∃ t, exec (.jobStop j) s = .next t ∧ look t.jobs j = none ∧
      Posts s t x.r SUCCESS (x.result SUCCESS) c.ledger := by
  have hempty : x.halts.output = [] := by
    change (if x.cores = 0 then _ else _) = _
    rcases hrest with hcores | hfilled
    · rw [if_neg hcores, hout]
    · rw [hout, hfilled]
      simp
  have hstands : Stands s (s.stopItems j) x.r c := h.of_mask (by decide) (by decide) (stopItems_mask (List.Subset.refl _) j)
  obtain ⟨hgone, hposts⟩ := endJob_posts (stopItems_job hj) (x := x.halts) hstands { status := SUCCESS }
  rw [endsWith_of_sound (x := x.halts) hf, resultAt_running (x := x.halts) hst] at hposts
  refine ⟨_, (stop_runs hj hst hstopped hf).trans (congrArg _ (finishJob_ends (stopItems_job hj) hempty hsent SUCCESS)), hgone, hposts⟩

theorem time_limit_ends (hj : look s.jobs j = some x) (h : Stands s s x.r c) (hf : x.fault = none) (hst : x.st = .running)
    (hstopped : x.stopped = false) (hend : x.ending = none) (hpaused : x.outPaused = none) (hlimit : x.timeLimit ≠ 0)
    (hnow : x.runBell + x.timeLimit ≤ s.bell.now) : ∃ t y, exec (.jobTimeLimit j) s = .next t ∧ look t.jobs j = some y ∧
        y.ending = some JOB_FAULT ∧ y.faultCode = 3 ∧ ∃ u, exec (.jobComplete j) t = .next u ∧ look u.jobs j = none ∧
        Posts t u x.r JOB_FAULT (y.result JOB_FAULT) c.ledger := by
  obtain ⟨t, b, hrun, hmask, hy⟩ := time_limit_faults hj hf (by simp [Job.live, hst, hstopped, hend]) hpaused hlimit hnow
  have hstands : Stands t t x.r c := by
    obtain ⟨q0, k0, q, k, new, hq0, hk0, hq, hcq, hk, hnew, hc, hw⟩ := h
    have hsqs := sqs_of_mask (by decide) hmask
    obtain rfl := Option.some.inj (hq0.symm.trans hq)
    exact stands_of ((cmd_of_sqs hsqs x.r).trans hc) ((sq_of_sqs hsqs _ _).trans hq) ((cq_of_cqs (cqs_of_mask (by decide) hmask) _ _).trans hk) hw
  obtain ⟨hgone, hposts⟩ := endJob_posts hy (x := x.timedOut s.bell.now b) hstands { status := JOB_FAULT }
  rw [show ((x.timedOut s.bell.now b).endsWith { status := JOB_FAULT }).status = JOB_FAULT from rfl,
    resultAt_running (x := x.timedOut s.bell.now b) hst] at hposts
  exact ⟨t, _, hrun, hy, rfl, rfl, _, fault_completes hy rfl, hgone, hposts⟩

theorem load_starts (hj : look s.jobs j = some x) (hstart : s.jobMayStart x = true)
    (hscan : x.holding.isSome = true → (s.fn x.r.fn).eff.scanBytes ≠ 0) (hmem : x.mem ≤ s.memFree x.r.fn)
    (hload : s.canLoad x = true) (hfirst : s.jobBefore x = false) : ∃ t y, exec (.jobLoadStart j) s = .next t ∧ look t.jobs j = some y ∧
      y.st = .loading ∧ y.loadBell = s.bell.now ∧ y.code = x.code ∧ y.mem = x.mem := by
  obtain ⟨hs, key, hy⟩ := loadJob_job hj
  refine ⟨s.loadJob j x, _, ?_, hy, rfl, rfl, rfl, rfl⟩
  change execJobLoadStart j s = _
  unfold execJobLoadStart
  rw [hj]
  dsimp only
  rw [if_neg (by simp [hstart]), if_neg (by simp [hload, hfirst]), if_neg (by simpa using hscan), if_neg (by omega)]

/-- Settles O38: each row on a job in its state, the completion of an ended job through `endJob_posts`. -/
theorem jobs : Obligations.Jobs := by
  refine ⟨fun s j => ⟨fun r c i op hi hc hop hp hnone hfree => ?_, fun x hj => ⟨fun hstart hscan hmem hload hfirst =>
    load_starts hj hstart hscan hmem hload hfirst, fun hst => job_loaded hj hst⟩⟩,
    fun s j x q k c hj hc hq hk _ hw hf => ?_⟩
  · simp only [List.mem_cons, List.not_mem_nil, or_false] at hi
    obtain ⟨rfl, rfl⟩ | ⟨rfl, rfl⟩ := hi
    · exact job_created rfl hc hop hp hnone hfree
    · exact job_created rfl hc hop hp hnone hfree
  · have h := stands_of hc hq hk hw
    refine ⟨fun hst hold => load_times_out hj h hf hst hold,
      fun hst hstopped hend hpaused hlimit hnow => time_limit_ends hj h hf hst hstopped hend hpaused hlimit hnow,
      fun hst hout hsent => ⟨fun hstopped hrest => stop_ends hj h hf hst hstopped hout hsent hrest, fun hstopped hend hall => ?_⟩,
      fun hst hstopped hcores hport => stops_with_output hj hf hst hstopped hcores hport⟩
    obtain ⟨hgone, hposts⟩ := endJob_posts hj h { status := SUCCESS }
    rw [endsWith_of_sound hf, resultAt_running hst] at hposts
    exact ⟨_, complete_ends hj hst hout hsent hstopped hend hf hall, hgone, hposts⟩

end Sys2Proof.Machine
end

section
/-! Batches reach the scan buffer, and output a zone or the host (R340, R355, R356, R363). -/

namespace Sys2Proof.Machine

variable {s t u : State} {P : List Part} {j ward : Nat} {x : Job}

/-! ### Batches -/

/-- The job with a batch taken from what its gate in a ward has filled, `rest` left. -/
def Job.taken (y : Job) (ward : Nat) (rest : Bytes) : Job := { y with filling := putD y.filling [] ward rest }

/-- The job with a batch of `n` bytes `b` in its scan buffer at `a`, and `rest` left of its filling. -/
def Job.batched (y : Job) (ward n a : Nat) (b rest : Bytes) : Job :=
  { y.taken ward rest with
    batches := y.batches ++ [⟨a, ward, n⟩], bufNext := (a + n + 7) / 8 * 8
    scanBuf := (keep (fun k _ => decide (k < a)) y.scanBuf) ++ sparse b a ++ keep (fun k _ => decide (a + n ≤ k)) y.scanBuf }

theorem batch_runs (hj : look s.jobs j = some x) (hlive : x.live = true) (hscan : x.isScan = true) {n : Nat} (hm : x.nextBatch ward = n)
    (hn : 0 < n) (hcores : x.cores ≠ 0) {a : Nat} (ha : x.batchPlace n = some a) : exec (.batchPost j ward) s =
      .next ((s.setJob j fun y => y.batched ward n a ((lookD x.filling [] ward).take n) ((lookD x.filling [] ward).drop n)).postItem j 2 (BitVec.ofNat 64 (0x40000000 + a)) (BitVec.ofNat 64 n) (BitVec.ofNat 64 ward)) := by
  change execBatchPost j ward s = _
  unfold execBatchPost
  rw [hj]
  dsimp only
  rw [hm, if_neg (by simp [hlive, hscan]; omega), if_neg hcores, ha]
  rfl

theorem batch_posts (hj : look s.jobs j = some x) (hlive : x.live = true) (hscan : x.isScan = true) {n : Nat} (hm : x.nextBatch ward = n)
    (hn : 0 < n) (hcores : x.cores ≠ 0) {a : Nat} (ha : x.batchPlace n = some a) : ∃ t y, exec (.batchPost j ward) s = .next t ∧
      look t.jobs j = some y ∧ y.batches = x.batches ++ [⟨a, ward, n⟩] ∧ lookD y.filling [] ward = (lookD x.filling [] ward).drop n := by
  obtain ⟨y, hy, e⟩ := posted_job (postItem_job (s.setJob j fun y => y.batched ward n a ((lookD x.filling [] ward).take n) ((lookD x.filling [] ward).drop n)) j 2 (BitVec.ofNat 64 (0x40000000 + a))
    (BitVec.ofNat 64 n) (BitVec.ofNat 64 ward) j) (look_setJob hj _)
  have hbatches : y.batches = x.batches ++ [⟨a, ward, n⟩] := (congrArg Job.batches e :)
  have hfilling : y.filling = putD x.filling [] ward ((lookD x.filling [] ward).drop n) := (congrArg Job.filling e :)
  refine ⟨_, y, batch_runs hj hlive hscan hm hn hcores ha, hy, hbatches, ?_⟩
  rw [hfilling]
  exact lookD_putD_same ..

theorem batch_outputs (hj : look s.jobs j = some x) (hlive : x.live = true) (hscan : x.isScan = true) {n : Nat} (hm : x.nextBatch ward = n)
    (hn : 0 < n) (hcores : x.cores = 0) (hroom : x.undelivered + n ≤ outWindow) : exec (.batchPost j ward) s =
      .next ((s.setJob j fun y => y.taken ward ((lookD x.filling [] ward).drop n)).output j ((lookD x.filling [] ward).take n)) := by
  change execBatchPost j ward s = _
  unfold execBatchPost
  rw [hj]
  dsimp only
  rw [hm, if_neg (by simp [hlive, hscan]; omega), if_pos hcores, if_neg (by omega)]
  rfl

theorem adj_congr {α : Type} (m : Tab α) {v : α} {g g' : α → α} (hv : look m j = some v) (h : g v = g' v) : adj m j g = adj m j g' := by
  induction m with
  | nil => rfl
  | cons e m ih =>
    unfold look at hv
    unfold adj
    split at hv
    · obtain rfl := Option.some.inj hv
      simp only [*, if_true]
    · simp only [*, if_false]

theorem setJob_congr (hj : look s.jobs j = some x) {g g' : Job → Job} (h : g x = g' x) : s.setJob j g = s.setJob j g' := by
  unfold State.setJob
  rw [adj_congr s.jobs hj h]

theorem gate_pauses (hj : look s.jobs j = some x) (hlive : x.live = true) (hscan : x.isScan = true) {n : Nat} (hm : x.nextBatch ward = n)
    (hn : 0 < n) (hfull : if x.cores = 0 then outWindow < x.undelivered + n else x.batchPlace n = none)
    (hpaused : x.paused.contains ward = false) :
    exec (.gateContextPause j ward) s = .next (s.setJob j fun x => { x with paused := ward :: x.paused }) := by
  change execGateContextPause j ward s = _
  unfold execGateContextPause
  rw [hj]
  dsimp only
  rw [hm, hlive, hscan, hpaused]
  have hcond : (if x.cores = 0 then decide (x.undelivered + n > outWindow) else (x.batchPlace n).isNone) = true := by
    by_cases hcores : x.cores = 0
    · rw [if_pos hcores] at hfull ⊢
      simpa using hfull
    · rw [if_neg hcores] at hfull ⊢
      rw [hfull]
      rfl
  rw [hcond, if_pos (by simpa using hn)]

/-! ### Output to a zone -/

theorem length_cut4k (b : Bytes) : (cut4k b).length = (b.length + 4095) / 4096 := by
  unfold cut4k
  rw [List.length_map, List.length_range]

theorem length_sealZone (s : State) (z o : Nat) (us : List (Bytes × Bool)) : (s.sealZone z o us).length = us.length := by
  unfold State.sealZone
  rw [List.length_map, List.length_zipIdx]

/-- The job whose output of a length stands in its zone. -/
def Job.appended (y : Job) (len : Nat) : Job :=
  { y with output := y.output.drop len, sent := y.sent + len, delivered := y.delivered + len, paused := [] }

theorem append_runs {z : Nat} (hj : look s.jobs j = some x) (hz : x.outZone = some z) (hst : x.st = .running) {b : Bytes} (hb : s.appendPiece j x = b)
    (hsome : b ≠ []) (hfence : (s.zone z).fence = none) (hopen : (s.zone z).st = .open_)
    (hroom : (s.zone z).wp + (b.length + 4095) / 4096 ≤ 2 ^ 20) (hheld : s.zoneHeld z ((b.length + 4095) / 4096) = false) :
    ∃ us : List StUnit, us.length = (b.length + 4095) / 4096 ∧ exec (.outputAppend j) s =
      .next (({ s with ledger := s.ledger + 1 }.store z (s.ledger + 1) (s.zone z).lclass us).setJob j fun y => y.appended b.length) := by
  refine ⟨{ s with ledger := s.ledger + 1 }.sealZone z (s.zone z).wp ((cut4k b).map fun u => (u, false)), ?_, ?_⟩
  · rw [length_sealZone, List.length_map, length_cut4k]
  · change execOutputAppend j s = _
    unfold execOutputAppend
    rw [hj]
    dsimp only
    rw [hz]
    dsimp only
    rw [hb, List.length_map, length_cut4k, if_neg (by simp [hst, hsome]), hfence, if_neg (by simp), if_neg (not_not_intro hopen),
      if_neg (by omega), if_neg (by simp [hheld])]
    rfl

theorem output_appends {z : Nat} (hj : look s.jobs j = some x) (hz : x.outZone = some z) (hst : x.st = .running) {b : Bytes} (hb : s.appendPiece j x = b)
    (hsome : b ≠ []) (hfence : (s.zone z).fence = none) (hopen : (s.zone z).st = .open_)
    (hroom : (s.zone z).wp + (b.length + 4095) / 4096 ≤ 2 ^ 20) (hheld : s.zoneHeld z ((b.length + 4095) / 4096) = false) :
    ∃ t y, exec (.outputAppend j) s = .next t ∧ t.ledger = s.ledger + 1 ∧ (t.zone z).wp = (s.zone z).wp + (b.length + 4095) / 4096 ∧
      look t.jobs j = some y ∧ y.output = x.output.drop b.length ∧ y.delivered = x.delivered + b.length ∧ y.paused = [] := by
  obtain ⟨us, hlen, hrun⟩ := append_runs hj hz hst hb hsome hfence hopen hroom hheld
  have hmask := store_mask (s := { s with ledger := s.ledger + 1 }) (List.Subset.refl _) z (s.ledger + 1) (s.zone z).lclass us
  have hzone := store_zone { s with ledger := s.ledger + 1 } z (s.ledger + 1) (s.zone z).lclass us
  have hledger : ({ s with ledger := s.ledger + 1 }.store z (s.ledger + 1) (s.zone z).lclass us).ledger = s.ledger + 1 :=
    (congrArg State.ledger (eq_graft hmask) :)
  have hjobs : ({ s with ledger := s.ledger + 1 }.store z (s.ledger + 1) (s.zone z).lclass us).jobs = s.jobs := 
    jobs_of_mask (P := [.zones, .units, .media, .staged, .dram, .health]) (s := { s with ledger := s.ledger + 1 }) (by decide) hmask
  generalize { s with ledger := s.ledger + 1 }.store z (s.ledger + 1) (s.zone z).lclass us = v at hrun hzone hledger hjobs
  refine ⟨_, x.appended b.length, hrun, hledger, ?_, look_setJob (s := v) ((congrArg (look · j) hjobs).trans hj) _, rfl, rfl, rfl⟩
  change (v.zone z).wp = _
  rw [hzone, hlen]
  rfl

/-! ### Output to the host, with no port -/

theorem output_pauses (hj : look s.jobs j = some x) (hlive : x.live = true) (hA : s.portA.state ≠ .up) (hB : s.portB.state ≠ .up)
    (hz : x.outZone = none) (hfull : outWindow < x.undelivered + 65536) (hpaused : x.outPaused = none) :
    exec (.outputPause j) s = .next (s.setJob j fun x => { x with outPaused := some s.bell.now }) := by
  change execOutputPause j s = _
  unfold execOutputPause
  rw [hj]
  dsimp only
  rw [hpaused]
  dsimp only
  rw [if_pos (by simp [hlive, State.anyUp, hA, hB, hz, Job.outFull, hfull])]

theorem output_resumes (hj : look s.jobs j = some x) {b : Nat} (hpaused : x.outPaused = some b) (hport : (s.workPort x.r.fn).isSome = true) :
    exec (.outputPause j) s =
      .next ((s.setJob j fun x => { x with outPaused := none, runBell := x.runBell + (s.bell.now - b) }).deliver j) := by
  change execOutputPause j s = _
  unfold execOutputPause
  rw [hj]
  dsimp only
  rw [hpaused]
  dsimp only
  rw [if_pos hport]

/-- Settles O39: a batch goes where there is room and its gate pauses where there is none; output is appended, paused and resumed. -/
theorem batchesAndOutput : Obligations.BatchesAndOutput := by
  intro s j x hj
  refine ⟨fun ward hlive hscan hn => ⟨fun hcores a ha => batch_posts hj hlive hscan rfl hn hcores ha, fun hcores hroom => ?_,
    fun hfull hpaused => gate_pauses hj hlive hscan rfl hn hfull hpaused⟩,
    fun z hz hst hsome hfence hopen hroom hheld => output_appends hj hz hst rfl hsome hfence hopen hroom hheld,
    fun hlive hA hB hz hfull hpaused => output_pauses hj hlive hA hB hz hfull hpaused,
    fun b hpaused hport => output_resumes hj hpaused hport⟩
  rw [batch_outputs hj hlive hscan rfl hn hcores hroom]
  rw [setJob_congr hj (g := fun y => y.taken ward ((lookD x.filling [] ward).drop (x.nextBatch ward)))
    (g' := fun y => { y with filling := putD y.filling [] ward ((lookD y.filling [] ward).drop (x.nextBatch ward)) }) rfl]

end Sys2Proof.Machine
end

section
/-! Flash channels are re-centred, retrained and failed (R270 to R273, R298, R304). -/

namespace Sys2Proof.Machine

variable {s t u : State} {n : Nat}

/-! ### What the operations on dies leave of channels and dies -/

/-- The channels and the dies are as they were. -/
def State.SamePlant (s t : State) : Prop := t.media.chans = s.media.chans ∧ t.media.dies = s.media.dies

theorem State.SamePlant.trans (h : s.SamePlant t) (k : t.SamePlant u) : s.SamePlant u := ⟨k.1.trans h.1, k.2.trans h.2⟩

theorem SamePlant.foldl {α : Type} {f : State → α → State} (hf : ∀ s x, State.SamePlant s (f s x)) :
    ∀ (l : List α) (s : State), s.SamePlant (l.foldl f s)
  | [], _ => ⟨rfl, rfl⟩
  | x :: l, s => (hf s x).trans (SamePlant.foldl hf l (f s x))

theorem event_samePlant (s : State) (code cls f : Nat) (d : List (Nat × Nat × Nat)) : s.SamePlant (s.event code cls f d) :=
  ⟨congrArg Media.chans (event_media s code cls f d), congrArg Media.dies (event_media s code cls f d)⟩

theorem queueParity_samePlant (s : State) (k r f : Nat) : s.SamePlant (s.queueParity k r f) := by
  refine SamePlant.foldl (fun s j => ?_) (List.range 4) s
  dsimp only
  split
  · exact ⟨rfl, rfl⟩
  · exact ⟨rfl, rfl⟩

theorem rowStep_samePlant (s : State) (k r f : Nat) : s.SamePlant (s.rowStep k r f) := by
  unfold State.rowStep
  split
  · exact queueParity_samePlant s k r f
  · exact ⟨rfl, rfl⟩

theorem setMedia_samePlant (s : State) {f : Media → Media} (hc : ∀ m, (f m).chans = m.chans) (hd : ∀ m, (f m).dies = m.dies) :
    s.SamePlant (s.setMedia f) := ⟨hc s.media, hd s.media⟩

theorem joinParity_samePlant (s : State) (k r d : Nat) : s.SamePlant (s.joinParity k r d) :=
  setMedia_samePlant s (fun _ => rfl) fun _ => rfl

theorem redirect_samePlant (s : State) (d : DieId) (w row i : Nat) (gone : List Work) : s.SamePlant (s.redirect d w row i gone) :=
  setMedia_samePlant s (fun _ => rfl) fun _ => rfl

theorem setMem_samePlant (s : State) (w row i : Nat) (f : Mem → Mem) : s.SamePlant (s.setMem w row i f) :=
  setMedia_samePlant s (fun _ => rfl) fun _ => rfl

theorem journalRec_samePlant (s : State) (k : Nat) : s.SamePlant (s.journalRec k) := ⟨rfl, rfl⟩

theorem leaveShares_samePlant (s : State) (w row i : Nat) (gone : List Work) : s.SamePlant (s.leaveShares w row i gone) := by
  unfold State.leaveShares
  refine State.SamePlant.trans ?_ (SamePlant.foldl (fun s x => (joinParity_samePlant s _ _ _).trans (rowStep_samePlant _ _ _ _)) _ _)
  exact ⟨rfl, rfl⟩

/-! ### What a failed die may change of a channel -/

/-- Channels are at most called into service from SPARE, and a failed die stays failed. -/
structure State.Keeps (s t : State) : Prop where
  fails : ∀ n, (t.chan n).fails = (s.chan n).fails
  trying : ∀ n, (t.chan n).trying = (s.chan n).trying
  failedPos : ∀ n, (t.chan n).failedPos = (s.chan n).failedPos
  st : ∀ n, (s.chan n).st ≠ .spare → (t.chan n).st = (s.chan n).st
  die : ∀ d, (s.die d).failed = true → (t.die d).failed = true

theorem State.Keeps.refl (s : State) : s.Keeps s := ⟨fun _ => rfl, fun _ => rfl, fun _ => rfl, fun _ _ => rfl, fun _ h => h⟩

theorem State.Keeps.trans (h : s.Keeps t) (k : t.Keeps u) : s.Keeps u where
  fails n := (k.fails n).trans (h.fails n)
  trying n := (k.trying n).trans (h.trying n)
  failedPos n := (k.failedPos n).trans (h.failedPos n)
  st n hn := (k.st n (by rw [h.st n hn]; exact hn)).trans (h.st n hn)
  die d hd := k.die d (h.die d hd)

theorem Keeps.foldl {α : Type} {f : State → α → State} (hf : ∀ s x, State.Keeps s (f s x)) :
    ∀ (l : List α) (s : State), s.Keeps (l.foldl f s)
  | [], s => .refl s
  | x :: l, s => (hf s x).trans (Keeps.foldl hf l (f s x))

theorem chan_of_chans (h : t.media.chans = s.media.chans) (n : Nat) : t.chan n = s.chan n := by unfold State.chan; rw [h]

theorem State.SamePlant.keeps (h : s.SamePlant t) : s.Keeps t where
  fails n := by rw [chan_of_chans h.1]
  trying n := by rw [chan_of_chans h.1]
  failedPos n := by rw [chan_of_chans h.1]
  st n _ := by rw [chan_of_chans h.1]
  die d hd := by unfold State.die at hd ⊢; rwa [h.2]

theorem setMedia_keeps (s : State) {f : Media → Media} (hc : ∀ m, (f m).chans = m.chans) (hd : ∀ m, (f m).dies = m.dies) :
    s.Keeps (s.setMedia f) := (setMedia_samePlant s hc hd).keeps

theorem die_setDie_same (s : State) (d : DieId) (f : Die → Die) : (s.setDie d f).die d = f (s.die d) :=
  lookD_adjD_same s.media.dies Die.fresh (dieNo d) f

theorem die_setDie_other {d e : DieId} (f : Die → Die) (h : dieNo e ≠ dieNo d) : (s.setDie d f).die e = s.die e :=
  lookD_adjD_other s.media.dies Die.fresh Die.fresh f h

theorem setDie_keeps {d : DieId} {f : Die → Die} (hf : (s.die d).failed = true → (f (s.die d)).failed = true) : s.Keeps (s.setDie d f) where
  fails _ := rfl
  trying _ := rfl
  failedPos _ := rfl
  st _ _ := rfl
  die e he := by
    by_cases h : dieNo e = dieNo d
    · have hde : ∀ u : State, u.die e = u.die d := fun u => congrArg (lookD u.media.dies Die.fresh) h
      rw [hde, die_setDie_same]
      exact hf (by rw [← hde]; exact he)
    · rwa [die_setDie_other f h]

theorem chan_setChan_same (s : State) (n : Nat) (f : Chan → Chan) : (s.setChan n f).chan n = f (s.chan n) :=
  lookD_putD_same s.media.chans (Chan.fresh n) n (f (s.chan n))

theorem chan_setChan_other {k : Nat} (f : Chan → Chan) (h : k ≠ n) : (s.setChan n f).chan k = s.chan k :=
  lookD_putD_other s.media.chans (Chan.fresh n) (Chan.fresh k) (f (s.chan n)) h

theorem chan_moveChan_same (s : State) (n : Nat) (st : ChanState) : (s.moveChan n st).chan n = { s.chan n with st := st } := by
  unfold State.moveChan
  split
  case isTrue h => rw [← h]
  case isFalse h => rw [chan_of_chans (event_samePlant _ _ _ _ _).1, chan_setChan_same]

theorem chan_moveChan_other (s : State) (st : ChanState) {k : Nat} (h : k ≠ n) : (s.moveChan n st).chan k = s.chan k := by
  unfold State.moveChan
  split
  · rfl
  · rw [chan_of_chans (event_samePlant _ _ _ _ _).1, chan_setChan_other _ h]

theorem moveChan_dies (s : State) (n : Nat) (st : ChanState) : (s.moveChan n st).media.dies = s.media.dies := by
  unfold State.moveChan
  split
  · rfl
  · rw [event_media]; rfl

theorem moveChan_keeps (h : (s.chan n).st = .spare) (st : ChanState) : s.Keeps (s.moveChan n st) where
  fails k := by
    by_cases hk : k = n
    · rw [hk, chan_moveChan_same]
    · rw [chan_moveChan_other s st hk]
  trying k := by
    by_cases hk : k = n
    · rw [hk, chan_moveChan_same]
    · rw [chan_moveChan_other s st hk]
  failedPos k := by
    by_cases hk : k = n
    · rw [hk, chan_moveChan_same]
    · rw [chan_moveChan_other s st hk]
  st k hs := by
    have hk : k ≠ n := fun e => hs (e ▸ h)
    rw [chan_moveChan_other s st hk]
  die d hd := by unfold State.die at hd ⊢; rwa [moveChan_dies]

theorem prepNext_keeps (s : State) (w : Nat) : s.Keeps (s.prepNext w) := by
  unfold State.prepNext
  dsimp only
  split
  · exact .refl s
  · split
    · refine State.Keeps.trans ?_ (setMedia_keeps _ (fun _ => rfl) fun _ => rfl)
      exact setDie_keeps fun h => h
    · exact .refl s

theorem called_keeps (s : State) (d : DieId) (old : DieId) :
    s.Keeps (if d.ch = 36 && (s.chan (dieChan d)).st = .spare && (s.chan (dieChan old)).st = .failed then s.moveChan (dieChan d) .inService else s) := by
  split
  case isTrue h =>
    simp only [Bool.and_eq_true, decide_eq_true_eq] at h
    obtain ⟨⟨_, hspare⟩, _⟩ := h
    exact moveChan_keeps hspare _
  case isFalse => exact .refl _

theorem nameSpare_keeps (s : State) (w row i : Nat) : s.Keeps (s.nameSpare w row i) := by
  unfold State.nameSpare
  dsimp only
  split
  · exact ((setMem_samePlant ..).trans (journalRec_samePlant ..)).keeps
  · next d shared _ =>
    refine State.Keeps.trans ?_ ((journalRec_samePlant ..).trans (event_samePlant ..)).keeps
    generalize hnamed : State.setMem s w row i _ = m
    have hm : s.Keeps m := by rw [← hnamed]; exact (setMem_samePlant ..).keeps
    refine State.Keeps.trans (t := (m.setDie d fun x => { x with cellarFree := 0 }).prepNext w)
      ((hm.trans (setDie_keeps fun h => h)).trans (prepNext_keeps _ w)) ?_
    exact called_keeps _ d (s.mem w row i).die

theorem nameAgain_keeps (s : State) (w : Nat) : s.Keeps (s.nameAgain w) := by
  unfold State.nameAgain
  exact Keeps.foldl (fun s (e : Nat × Mem) => nameSpare_keeps s w (e.1 / 36 % 26) (e.1 % 36)) _ s

/-- What waits for a die that fails is let go. -/
def Media.clearDie (m : Media) (d : DieId) : Media :=
  { m with
    work := m.work.filter fun w => w.die ≠ d
    moves := m.moves.filter fun v => v.die ≠ d
    refresh := m.refresh.filter fun e => e.2.1 ≠ d
    retireq := m.retireq.filter fun e => e.1 ≠ d
    erasq := m.erasq.filter fun e => e.1 ≠ d
    oldBlocks := m.oldBlocks.filter fun e => e.1 ≠ d }

theorem failDie_keeps_failed (s : State) (d : DieId) (cause : Nat) :
    s.Keeps (s.failDie d cause) ∧ ((s.failDie d cause).die d).failed = true := by
  unfold State.failDie
  dsimp only
  split
  case isTrue h => exact ⟨.refl s, h⟩
  case isFalse =>
    generalize hgone : ((s.media.work.filter fun w => w.die = d) ++ ((s.die d).op.map (·.work)).toList) = gone
    have hset : s.Keeps (s.setDie d fun x => { x with failed := true, op := none }) := setDie_keeps fun _ => rfl
    have hfail : ((s.setDie d fun x => { x with failed := true, op := none }).die d).failed = true := by rw [die_setDie_same]
    have hrest : ∀ u : State, (s.setDie d fun x => { x with failed := true, op := none }).Keeps u →
        s.Keeps u ∧ (u.die d).failed = true := fun u hu => ⟨hset.trans hu, hu.die d hfail⟩
    refine hrest _ ?_
    generalize (s.setDie d fun x => { x with failed := true, op := none }) = m
    have hclear : m.Keeps ((m.setMedia fun x => x.clearDie d).event 0x0020 3 0 (dieDetail d 32 ++ [(35, 1, cause)])) :=
      (setMedia_keeps m (f := fun x => x.clearDie d) (fun _ => rfl) fun _ => rfl).trans (event_samePlant ..).keeps
    split
    · next w row i _ =>
      refine State.Keeps.trans ?_ ((redirect_samePlant ..).trans (leaveShares_samePlant ..)).keeps
      refine State.Keeps.trans ?_ (nameSpare_keeps _ w row i)
      exact hclear
    · exact hclear

theorem failDies_keeps {α : Type} (f : α → DieId) (cause : Nat) (l : List α) (s : State) : s.Keeps (l.foldl (fun s a => s.failDie (f a) cause) s) :=
  Keeps.foldl (fun s x => (failDie_keeps_failed s (f x) cause).1) l s

theorem failDies_failed {α : Type} (f : α → DieId) (cause : Nat) (l : List α) (s : State) (a : α) (ha : a ∈ l) :
    ((l.foldl (fun s a => s.failDie (f a) cause) s).die (f a)).failed = true := by
  induction l generalizing s with
  | nil => cases ha
  | cons b l ih =>
    obtain rfl | ha := List.mem_cons.1 ha
    · exact (failDies_keeps f cause l _).die (f a) (failDie_keeps_failed s (f a) cause).2
    · exact ih _ ha

/-! ### Re-centring -/

/-- A channel re-centred: the scan takes the room left, and small eyes ask for a retrain. -/
def Chan.recentred (c : Chan) (room a b now : Nat) : Chan :=
  { c.took 7 room with
    rdEye := min 255 a, wrEye := min 255 b, centred := now
    due := c.due || (decide (min a b < eyeMin) && c.st = .inService), trying := c.trying || (decide (min a b < eyeMin) && c.st = .spare) }

theorem channelRecentre_eq (hn : chanOk n = true) (a b : Nat) (hst : (s.chan n).st = .inService ∨ (s.chan n).st = .spare)
    (hnow : (s.chan n).centred + 65536 ≤ s.bell.now) (hroom : 0 < s.room n 7) :
    exec (.channelRecentre n a b) s = .next (s.setChan n fun c => c.recentred (s.room n 7) a b s.bell.now) := by
  change execChannelRecentre n a b s = _
  unfold execChannelRecentre
  rw [hn, if_neg (by decide)]
  dsimp only
  rw [if_pos (by simpa using ⟨⟨hst, hnow⟩, hroom⟩)]
  rfl

theorem room_recentred (s : State) (n a b now : Nat) : (s.setChan n fun c => c.recentred (s.room n 7) a b now).room n 7 = 0 := by
  generalize hk : s.room n 7 = k
  unfold State.room at hk ⊢
  dsimp only at hk ⊢
  rw [chan_setChan_same]
  refine Eq.trans ?_ (Nat.sub_eq_zero_of_le hk.le)
  exact (Nat.sub_sub ..).symm

theorem channelRecentre_centres (hn : chanOk n = true) (a b : Nat) (hst : (s.chan n).st = .inService ∨ (s.chan n).st = .spare)
    (hnow : (s.chan n).centred + 65536 ≤ s.bell.now) (hroom : 0 < s.room n 7) :
    ∃ t, exec (.channelRecentre n a b) s = .next t ∧ (t.chan n).st = (s.chan n).st ∧ (t.chan n).rdEye = min 255 a ∧
      (t.chan n).wrEye = min 255 b ∧ (t.chan n).centred = s.bell.now ∧ t.room n 7 = 0 ∧
      (min a b < 64 → ((s.chan n).st = .inService → (t.chan n).due = true) ∧ ((s.chan n).st = .spare → (t.chan n).trying = true)) := by
  refine ⟨_, channelRecentre_eq hn a b hst hnow hroom, ?_⟩
  rw [room_recentred, chan_setChan_same]
  refine ⟨rfl, rfl, rfl, rfl, rfl, fun hlow => ⟨fun h => ?_, fun h => ?_⟩⟩
  · simp [Chan.recentred, eyeMin, hlow, h]
  · simp [Chan.recentred, eyeMin, hlow, h]

/-! ### Attempts -/

/-- A channel whose attempt runs. -/
def Chan.attempts (c : Chan) : Chan := { c with trying := true }

/-- A channel whose first attempt runs, with nothing due. -/
def Chan.retrains (c : Chan) : Chan := { c with fails := 0, due := false, trying := true }

theorem channelFault_inService (hn : chanOk n = true) (hst : (s.chan n).st = .inService) :
    exec (.channelFault n) s = .next ((s.moveChan n .retraining).setChan n Chan.retrains) := by
  change execChannelFault n s = _
  unfold execChannelFault
  rw [hn, if_neg (by decide), hst]
  rfl

theorem channelFault_spare (hn : chanOk n = true) (hst : (s.chan n).st = .spare) :
    exec (.channelFault n) s = .next (s.setChan n Chan.attempts) := by
  change execChannelFault n s = _
  unfold execChannelFault
  rw [hn, if_neg (by decide), hst]
  rfl

theorem channelRetrainBegin_begins (hn : chanOk n = true) (hdue : (s.chan n).due = true) (hst : (s.chan n).st = .inService)
    (hadm : s.retrainAdmitted n = true) :
    exec (.channelRetrainBegin n) s = .next ((s.moveChan n .retraining).setChan n Chan.retrains) := by
  change execChannelRetrainBegin n s = _
  unfold execChannelRetrainBegin
  rw [hn, if_neg (by decide), if_pos (by simp [hdue, hst, hadm])]
  rfl

theorem chan_retrains (s : State) (n : Nat) :
    ((s.moveChan n .retraining).setChan n Chan.retrains).chan n = { (s.chan n).retrains with st := .retraining } := by
  rw [chan_setChan_same, chan_moveChan_same]
  rfl

theorem channelRetrainRetry_tries (hn : chanOk n = true) (htry : (s.chan n).trying = false) (hpos : 0 < (s.chan n).fails)
    (hlt : (s.chan n).fails < 3) (hst : (s.chan n).st = .retraining ∨ (s.chan n).st = .spare) :
    exec (.channelRetrainRetry n) s = .next (s.setChan n Chan.attempts) := by
  change execChannelRetrainRetry n s = _
  unfold execChannelRetrainRetry
  rw [hn, if_neg (by decide)]
  dsimp only
  rw [if_pos (by simpa [htry, hpos, hlt] using hst)]
  rfl

/-! ### The end of an attempt -/

theorem trained_passes (s : State) (n : Nat) (x : Train) : ((s.trained n x).chan n).trying = false ∧ ((s.trained n x).chan n).fails = 0 ∧
    ((s.chan n).st = .retraining → ((s.trained n x).chan n).st = .inService) ∧
    ∀ p ∈ trainBad x, p ∈ ((s.trained n x).chan n).failedPos ∧ ((s.trained n x).die (dieAt n p)).failed = true := by
  unfold State.trained
  dsimp only
  generalize hmoved : (if (s.chan n).st = .retraining then s.moveChan n .inService
    else if (s.chan n).st = .failed then s.moveChan n (Chan.fresh n).st else s) = m
  have hst : (s.chan n).st = .retraining → (m.chan n).st = .inService := fun h => by
    rw [← hmoved, if_pos h, chan_moveChan_same]
  generalize hset : State.setChan m n _ = v
  have hv : (v.chan n).fails = 0 ∧ (v.chan n).trying = false ∧ (v.chan n).failedPos = (trainBad x ++ (s.chan n).failedPos).eraseDups ∧
      (v.chan n).st = (m.chan n).st := by
    have hpos : (m.chan n).failedPos = (s.chan n).failedPos := by
      rw [← hmoved]
      split
      · rw [chan_moveChan_same]
      · split
        · rw [chan_moveChan_same]
        · rfl
    rw [← hset, chan_setChan_same]
    exact ⟨rfl, rfl, by rw [hpos], rfl⟩
  obtain ⟨hfails, htry, hpos, hvst⟩ := hv
  have hkeep := (failDies_keeps (dieAt n) 0 (trainBad x) v).trans (nameAgain_keeps _ (n / 37))
  refine ⟨(hkeep.trying n).trans htry, (hkeep.fails n).trans hfails, fun h => ?_, fun p hp => ⟨?_, ?_⟩⟩
  · have hin : (v.chan n).st = .inService := hvst.trans (hst h)
    exact (hkeep.st n (by rw [hin]; decide)).trans hin
  · rw [hkeep.failedPos n, hpos, List.mem_eraseDups]
    exact List.mem_append_left _ hp
  · exact (nameAgain_keeps _ (n / 37)).die _ (failDies_failed (dieAt n) 0 (trainBad x) v p hp)

theorem chanFailed_fails (s : State) (n : Nat) : ((s.chanFailed n).chan n).trying = (s.chan n).trying ∧
    ((s.chanFailed n).chan n).fails = (s.chan n).fails ∧ ((s.chanFailed n).chan n).st = .failed ∧
    ∀ d ∈ s.membersOn n, ((s.chanFailed n).die d).failed = true := by
  unfold State.chanFailed
  have hst : ((s.moveChan n .failed).chan n).st = .failed := by rw [chan_moveChan_same]
  have hkeep := (failDies_keeps id 4 (s.membersOn n) (s.moveChan n .failed)).trans (nameAgain_keeps _ (n / 37))
  refine ⟨(hkeep.trying n).trans ?_, (hkeep.fails n).trans ?_, (hkeep.st n (by rw [hst]; decide)).trans hst, fun d hd => ?_⟩
  · rw [chan_moveChan_same]
  · rw [chan_moveChan_same]
  · exact (nameAgain_keeps _ (n / 37)).die _ (failDies_failed id 4 (s.membersOn n) (s.moveChan n .failed) d hd)

theorem attemptFailed_fails (s : State) (n : Nat) : ((s.attemptFailed n).chan n).trying = false ∧
    ((s.attemptFailed n).chan n).fails = (s.chan n).fails + 1 ∧
    ((s.chan n).fails + 1 < 3 → ((s.attemptFailed n).chan n).st = (s.chan n).st) ∧
    (3 ≤ (s.chan n).fails + 1 → ((s.attemptFailed n).chan n).st = .failed ∧ ∀ d ∈ s.membersOn n, ((s.attemptFailed n).die d).failed = true) := by
  unfold State.attemptFailed
  dsimp only
  split
  case isTrue h =>
    obtain ⟨htry, hfails, hst, hdies⟩ := chanFailed_fails (s.setChan n fun c => { c with fails := (s.chan n).fails + 1, trying := false }) n
    rw [chan_setChan_same] at htry hfails
    exact ⟨htry, hfails, fun hlt => absurd h (by omega), fun _ => ⟨hst, hdies⟩⟩
  case isFalse h =>
    rw [chan_setChan_same]
    exact ⟨rfl, rfl, fun _ => rfl, fun hge => absurd hge h⟩

theorem channelRetrainResult_eq (hn : chanOk n = true) (htry : (s.chan n).trying = true) (x : Train) :
    exec (.channelRetrainResult n x.shared x.pos) s = .next (if s.trains n x then s.trained n x else s.attemptFailed n) := by
  change execChannelRetrainResult n x.shared x.pos s = _
  unfold execChannelRetrainResult
  rw [hn, htry]
  rfl

/-- Settles O55: an attempt's end is `State.trained` or `State.attemptFailed`, whose failing dies and naming of spares change of a channel
at most SPARE to IN_SERVICE. -/
theorem flashChannels : Obligations.FlashChannels := by
  unfold Obligations.FlashChannels
  intro s n hn
  refine ⟨fun a b hst hnow hroom => channelRecentre_centres hn a b hst hnow hroom,
    fun hst => ⟨_, channelFault_inService hn hst, by rw [chan_retrains]; exact ⟨rfl, rfl, rfl⟩⟩,
    fun hst => ⟨_, channelFault_spare hn hst, by rw [chan_setChan_same]; exact ⟨hst, rfl⟩⟩,
    fun hdue hst hadm => ⟨_, channelRetrainBegin_begins hn hdue hst hadm, by rw [chan_retrains]; exact ⟨rfl, rfl, rfl⟩⟩,
    fun htry hpos hlt hst => ⟨_, channelRetrainRetry_tries hn htry hpos hlt hst, by rw [chan_setChan_same]; exact ⟨rfl, rfl⟩⟩,
    fun htry x => ⟨fun hx hlive => ?_, fun hbad => ?_⟩⟩
  · have htrains : s.trains n x = true := by
      unfold State.trains
      rw [hx, Bool.true_and]
      exact decide_eq_true hlive
    exact ⟨_, (channelRetrainResult_eq hn htry x).trans (by rw [if_pos htrains]), trained_passes s n x⟩
  · have htrains : ¬ s.trains n x = true := by
      unfold State.trains
      rw [Bool.and_eq_true]
      rintro ⟨hx, hlive⟩
      obtain h | h := hbad
      · rw [h] at hx; cases hx
      · exact absurd (of_decide_eq_true hlive) (Nat.not_le.2 h)
    exact ⟨_, (channelRetrainResult_eq hn htry x).trans (by rw [if_neg htrains]), attemptFailed_fails s n⟩

end Sys2Proof.Machine
end

section
/-! Bells, where the read point of a channel may end the job that waits for a queued read of it. -/

namespace Sys2Proof.Machine

/-- The job of the command in the admin ring of function 0, scanning zone 0. -/
def lostScan : Job := { newJob firstRef (.simple 0x58 [] []) with zones := [⟨0, 4, 0, 0, 0, 0, []⟩] }

/-- A queued read of channel 0 that a unit of job 0's scan waits for. -/
def queuedRead : Slice := ⟨⟨0, 0, 0⟩, 0, 0, 0, [(0, .scan 0 0 0)], 1, .queued⟩

/-- A scan of job 0 with one read queued, and one planned on a die that no member has. -/
def lostRead : State :=
  { State.delivered with
    jobs := [(0, lostScan)]
    media := { State.delivered.media with
      slices := [queuedRead]
      work := [⟨7, ⟨0, 0, 27⟩, .read, 0, 0, 0, .scan 0 0 [0]⟩] } }

/-- Refutes O54: the planned read on a die that is no member's ends its job with DATA_UNRECOVERABLE, and with the job the queued read goes that
the read point would have begun. -/
theorem not_bells : ¬ Obligations.Bells := by
  intro h
  obtain ⟨-, -, -, hread, -⟩ := h lostRead
  obtain ⟨t, he, hin⟩ := hread 0 queuedRead (by decide) (by decide +kernel) rfl rfl rfl rfl rfl (by decide +kernel) (by decide +kernel)
    (by decide +kernel)
  have hgone : t.media.slices.isEmpty = true := nextIs_of_exec (p := fun t => t.media.slices.isEmpty) he (by decide +kernel)
  rw [List.isEmpty_iff.1 hgone] at hin
  cases hin

end Sys2Proof.Machine
end

section
/-! Array reads end: a host unit is served, or reconstructed; a page waits for its channel (R26, R45, R257, R300). -/

namespace Sys2Proof.Machine

variable {s t u v : State} {d : DieId} {r : Ref} {c : Cmd}

/-! ### What a decode is counted in -/

/-- Only the counts of wards, groups and dies, and the refresh queue, have changed. -/
def State.Counted (s t : State) : Prop :=
  ∃ a b c e, t = { s with media := { s.media with wards := a, groups := b, dies := c, refresh := e } }

theorem State.Counted.refl (s : State) : s.Counted s := ⟨_, _, _, _, rfl⟩

theorem State.Counted.trans (h : s.Counted t) (k : t.Counted u) : s.Counted u := by
  obtain ⟨_, _, _, _, rfl⟩ := h
  obtain ⟨_, _, _, _, rfl⟩ := k
  exact ⟨_, _, _, _, rfl⟩

theorem wearEv_counted (s : State) (w : Nat) (k : WearKind) (n : Nat) : s.Counted (s.wearEv w k n) := ⟨_, _, _, _, rfl⟩

theorem setGroup_counted (s : State) (d : DieId) (k : Nat) (f : Group → Group) : s.Counted (s.setGroup d k f) := ⟨_, _, _, _, rfl⟩

theorem setDie_counted (s : State) (d : DieId) (f : Die → Die) : s.Counted (s.setDie d f) := ⟨_, _, _, _, rfl⟩

theorem markRefresh_counted (s : State) (pri : Nat) (d : DieId) (k p : Nat) : s.Counted (s.markRefresh pri d k p) := by
  unfold State.markRefresh
  dsimp only
  repeat' split
  all_goals exact ⟨_, _, _, _, rfl⟩

theorem track_counted (s : State) (d : DieId) (k p wl : Nat) (x : Decode) : s.Counted (s.track d k p wl x) := by
  unfold State.track
  dsimp only
  repeat' split
  all_goals exact ⟨_, _, _, _, rfl⟩

theorem group_setGroup_same (s : State) (d : DieId) (k : Nat) (f : Group → Group) : (s.setGroup d k f).group d k = f (s.group d k) :=
  lookD_adjD_same s.media.groups Group.fresh (groupNo d k) f

theorem group_markRefresh (s : State) (pri : Nat) (d : DieId) (k p : Nat) : (s.markRefresh pri d k p).group = s.group := by
  unfold State.markRefresh
  dsimp only
  repeat' split
  all_goals rfl

theorem group_track (s : State) (d : DieId) (k p wl : Nat) (x : Decode) :
    ((s.track d k p wl x).group d k).window = (s.group d k).window ∧ ((s.track d k p wl x).group d k).reads = (s.group d k).reads := by
  unfold State.track
  dsimp only
  split
  · split
    · exact ⟨rfl, rfl⟩
    · exact ⟨rfl, rfl⟩
  · split
    · exact ⟨rfl, rfl⟩
    · split
      · exact ⟨rfl, rfl⟩
      · rw [group_setGroup_same]
        exact ⟨rfl, rfl⟩

/-- A decode of step 0 is counted as a read of its block group. -/
theorem decoded_sound (s : State) (d : DieId) (k p wl : Nat) {x : Decode} (hx : x.step = 0) : s.Counted (s.decoded d k p wl x) ∧
    ((s.decoded d k p wl x).group d k).window = (s.group d k).window ∧
    ((s.decoded d k p wl x).group d k).reads = (s.group d k).reads + 1 := by
  obtain ⟨hwindow, hreads⟩ := group_track s d k p wl x
  unfold State.decoded
  dsimp only
  rw [hx]
  simp only [ge_iff_le, if_false, show ¬ (1 : Nat) ≤ 0 by decide, show ¬ (9 : Nat) ≤ 0 by decide, show ¬ (11 : Nat) ≤ 0 by decide,
    show ¬ (0 : Nat) = 9 by decide, show ¬ (0 : Nat) = 10 by decide]
  generalize hm : State.setGroup (s.track d k p wl x) d k _ = m
  have hcount : s.Counted m := by rw [← hm]; exact (track_counted ..).trans (setGroup_counted ..)
  have hgroup : (m.group d k).window = (s.group d k).window ∧ (m.group d k).reads = (s.group d k).reads + 1 := by
    rw [← hm, group_setGroup_same]
    exact ⟨hwindow, congrArg (· + 1) hreads⟩
  split
  · exact ⟨hcount.trans (markRefresh_counted ..), by rw [group_markRefresh]; exact hgroup⟩
  · exact ⟨hcount, hgroup⟩

/-- A decode of step 0 within its window of 64 reads is counted alone. -/
theorem feed_sound (s : State) (d : DieId) (k p wl : Nat) {x : Decode} (hx : x.step = 0) (hw : (s.group d k).window + 1 < 64) :
    s.Counted (s.feed d k p wl x) ∧ ((s.feed d k p wl x).group d k).reads = (s.group d k).reads + 1 := by
  obtain ⟨hcount, hwindow, hreads⟩ := decoded_sound s d k p wl hx
  unfold State.feed
  dsimp only
  rw [hwindow, if_pos hw]
  refine ⟨hcount.trans (setGroup_counted ..), ?_⟩
  rw [group_setGroup_same]
  exact hreads

/-! ### One unit read -/

/-- The state in which the one unit of a page read has been taken from the flash controller. -/
def State.unitRead (s : State) (d : DieId) (y : Slice) (u : Nat) (who : SliceFor) (x : Decode) : State :=
  ((s.setChan (dieChan d) fun c => c.took y.cls 1).dropSlice y).codewordRead y u who x

theorem arrayRead_one {y : Slice} {u : Nat} {who : SliceFor} (hwf : d.wf = true) (hend : s.ending d = some y) (hy : y.wants = [(u, who)])
    (hroom : 0 < s.room (dieChan d) y.cls) (x : Decode) : exec (.arrayReadComplete d [x]) s = .next
      ((if who.rebuilt && !(decide (x.step = 0) && (s.unitRead d y u who x).passes d y.slot y.wl u x.img) then
          (s.unitRead d y u who x).newRecon y [(u, who)] (if who.background then 5 else 1) false
        else s.unitRead d y u who x).resumeIfIdle d) := by
  obtain ⟨k, hk⟩ := Nat.exists_eq_succ_of_ne_zero hroom.ne'
  change execArrayReadComplete d [x] s = _
  unfold execArrayReadComplete
  rw [hwf, if_neg (by decide), hend]
  dsimp only
  rw [hk, hy]
  simp only [List.take_succ_cons, List.take_nil, List.zip_cons_cons, List.zip_nil_right, List.length_cons, List.length_nil, Nat.zero_add,
    List.drop_succ_cons, List.drop_nil, List.isEmpty_nil, if_true, List.foldl_cons, List.foldl_nil, List.filter_cons, List.filter_nil]
  rw [show State.codewordRead _ y u who x = s.unitRead d y u who x from rfl]
  cases hb : who.rebuilt && !(decide (x.step = 0) && (s.unitRead d y u who x).passes d y.slot y.wl u x.img) with
  | true =>
    simp only [if_true, List.map_cons, List.map_nil, List.isEmpty_cons, List.any_cons, List.any_nil, Bool.or_false, Bool.false_eq_true, if_false]
  | false => rfl

theorem ending_die {y : Slice} (h : s.ending d = some y) : y.die = d := by
  unfold State.ending at h
  split at h
  · next z hz =>
    obtain rfl := Option.some.inj h
    have := List.find?_some hz
    simp only [Bool.and_eq_true, decide_eq_true_eq] at this
    exact this.1
  · have := List.find?_some h
    simp only [Bool.and_eq_true, decide_eq_true_eq] at this
    exact this.1

theorem passesAt_none (s : State) (n r i u : Nat) : s.passesAt n r i u none = true := rfl

theorem State.Counted.shareAt (h : s.Counted t) : t.shareAt = s.shareAt := by
  obtain ⟨_, _, _, _, rfl⟩ := h
  rfl

theorem State.Counted.slices (h : s.Counted t) : t.media.slices = s.media.slices := by
  obtain ⟨_, _, _, _, rfl⟩ := h
  rfl

theorem State.Counted.nextRecon (h : s.Counted t) : t.media.nextRecon = s.media.nextRecon := by
  obtain ⟨_, _, _, _, rfl⟩ := h
  rfl

theorem State.Counted.recons (h : s.Counted t) : t.media.recons = s.media.recons := by
  obtain ⟨_, _, _, _, rfl⟩ := h
  rfl

theorem State.Counted.memberOf (h : s.Counted t) : t.memberOf = s.memberOf := by
  obtain ⟨_, _, _, _, rfl⟩ := h
  rfl

theorem State.Counted.sqs (h : s.Counted t) : t.sqs = s.sqs := by
  obtain ⟨_, _, _, _, rfl⟩ := h
  rfl

theorem State.Counted.cqs (h : s.Counted t) : t.cqs = s.cqs := by
  obtain ⟨_, _, _, _, rfl⟩ := h
  rfl

theorem State.Counted.holdKey (h : s.Counted t) : t.holdKey = s.holdKey := by
  obtain ⟨_, _, _, _, rfl⟩ := h
  rfl

/-- The state in which the decode of a unit at step 0 is counted. -/
def State.unitFed (s : State) (y : Slice) (u : Nat) (x : Decode) : State :=
  (s.wearEv y.die.ward .decode (min x.iters 20)).feed y.die y.slot (unitPlane u) y.wl x

theorem unitFed_counted {y : Slice} (u : Nat) {x : Decode} (hx : x.step = 0) (hw : (s.group y.die y.slot).window + 1 < 64) :
    s.Counted (s.unitFed y u x) ∧ ((s.unitFed y u x).group y.die y.slot).reads = (s.group y.die y.slot).reads + 1 := by
  obtain ⟨hcount, hreads⟩ := feed_sound (s.wearEv y.die.ward .decode (min x.iters 20)) y.die y.slot (unitPlane u) y.wl hx hw
  exact ⟨(wearEv_counted ..).trans hcount, hreads⟩

/-- A host unit that passes at step 0 is served. -/
theorem codewordRead_passes {y : Slice} {u w row m i : Nat} {x : Decode} (hmem : s.memberOf y.die = some (w, row, m)) (hx : x.step = 0)
    (himg : x.img = none) (hw : (s.group y.die y.slot).window + 1 < 64) :
    s.codewordRead y u (.cmd r i) x = (s.unitFed y u x).unitServed r i (some (s.shareAt (slotNo w row y.slot) y.wl m u)) := by
  have hshare := (unitFed_counted u hx hw).1.shareAt
  unfold State.codewordRead
  rw [hmem]
  dsimp only
  rw [himg, passesAt_none, hx, if_pos (by decide), if_pos (by decide), ← hshare]
  rfl

/-- The flash controller has taken a page of one unit. -/
def State.pageTaken (s : State) (d : DieId) (y : Slice) : State := (s.setChan (dieChan d) fun c => c.took y.cls 1).dropSlice y

theorem unitRead_passes {y : Slice} {u w row m i : Nat} {x : Decode} (hd : y.die = d) (hmem : s.memberOf d = some (w, row, m)) (hx : x.step = 0)
    (himg : x.img = none) (hw : (s.group d y.slot).window + 1 < 64) :
    s.unitRead d y u (.cmd r i) x = ((s.pageTaken d y).unitFed y u x).unitServed r i (some (s.shareAt (slotNo w row y.slot) y.wl m u)) := by
  subst hd
  exact codewordRead_passes (s := s.pageTaken y.die y) hmem hx himg hw

/-! ### A unit served to its command -/

/-- The command with a unit of its data. -/
def Cmd.unitTaken (c : Cmd) (key i : Nat) (b : Bytes) : Cmd :=
  { c with slices := c.slices - 1, data := patch c.data (4096 * i) (xtsOpen key (c.tweak i) b) }

/-- The state in which a command has taken a unit. -/
def State.unitTaken (s : State) (r : Ref) (i : Nat) (b : Bytes) : State := s.setCmd r fun c => c.unitTaken (s.holdKey c.f12) i b

theorem cmd_unitTaken (hc : s.cmd r = some c) (i : Nat) (b : Bytes) : (s.unitTaken r i b).cmd r = some (c.unitTaken (s.holdKey c.f12) i b) := by
  unfold State.unitTaken
  rw [cmd_setCmd s r (g := fun c => c.unitTaken (s.holdKey c.f12) i b) fun _ => rfl, hc]
  rfl

theorem unitServed_eq (hc : s.cmd r = some c) (i : Nat) (b : Bytes) : s.unitServed r i (some b) =
    if c.point = .running && c.slices - 1 = 0 then (s.unitTaken r i b).finishRead r else s.unitTaken r i b := by
  unfold State.unitServed
  simp only [Option.isNone_some, Bool.false_eq_true, if_false]
  generalize htaken : State.setCmd s r _ = m
  obtain rfl : m = s.unitTaken r i b := htaken.symm
  rw [cmd_unitTaken hc]
  rfl

/-- The last unit of a read delivers the read. -/
theorem Stands.finishesRead (h : Stands s t r c) (hb : c.bad = none) : Posts s (t.finishRead r) r SUCCESS (BitVec.ofNat 64 c.cnt) none := by
  have hat : Stands s (t.atPoint r .decided) r { c with point := .decided } :=
    h.setCmd (g := fun c : Cmd => { c with point := .decided }) (fun _ => rfl) (fun _ => rfl) (fun _ => rfl)
  rw [finishRead_eq h.cmd_eq hb]
  exact (hat.sendsOut 0 _).posts_now _

theorem unitServed_media (s : State) (r : Ref) (i : Nat) (b : Option Bytes) : (s.unitServed r i b).media = s.media :=
  media_of_mask (by decide) (unitServed_mask (List.Subset.refl _) r i b)

theorem resumeIfIdle_group (s : State) (d e : DieId) (k : Nat) : (s.resumeIfIdle d).group e k = s.group e k := by
  unfold State.resumeIfIdle
  repeat' split
  all_goals rfl

theorem resumeIfIdle_slices (s : State) (d : DieId) : (s.resumeIfIdle d).media.slices = s.media.slices := by
  unfold State.resumeIfIdle
  repeat' split
  all_goals rfl

theorem resumeIfIdle_nextRecon (s : State) (d : DieId) : (s.resumeIfIdle d).media.nextRecon = s.media.nextRecon := by
  unfold State.resumeIfIdle
  repeat' split
  all_goals rfl

theorem Posts.resumes {st : Nat} {res : W64} {l : Option Nat} (h : Posts s t r st res l) (d : DieId) : Posts s (t.resumeIfIdle d) r st res l := by
  have hgraft := eq_graft (resumeIfIdle_mask (s := t) (List.Subset.refl _) d)
  have hnow : (t.resumeIfIdle d).bell.now = t.bell.now := by
    unfold State.resumeIfIdle
    repeat' split
    all_goals rfl
  exact h.keeps (m := 0) (m' := 0) (ringsRun_of_eq 0 0 (congrArg State.rdma hgraft :) (congrArg State.sqs hgraft :) (congrArg State.cqs hgraft :)
    (congrArg State.fns hgraft :) (congrArg State.zones hgraft :)) hnow (congrArg State.ledger hgraft :) (congrArg State.sems hgraft :)

/-- An array read whose host unit passes at step 0. -/
theorem arrayRead_serves {x : Decode} {y : Slice} {w row m u i : Nat} (hwf : d.wf = true) (hend : s.ending d = some y)
    (hmem : s.memberOf d = some (w, row, m)) (hroom : 0 < s.room (dieChan d) y.cls) (hy : y.wants = [(u, .cmd r i)]) (hc : s.cmd r = some c)
    (hx : x.step = 0) (himg : x.img = none) (hw : (s.group d y.slot).window + 1 < 64) :
    ∃ t, exec (.arrayReadComplete d [x]) s = .next t ∧ t.media.slices = s.media.slices.erase y ∧
      (t.group d y.slot).reads = (s.group d y.slot).reads + 1 ∧
      (2 ≤ c.slices → t.cmd r = some (c.unitTaken (s.holdKey c.f12) i (s.shareAt (slotNo w row y.slot) y.wl m u))) ∧
      (∀ q k, c.slices = 1 → c.point = .running → c.bad = none → s.sq r.fn r.sq = some q → s.cq r.fn q.cq = some k →
        orderWaits q.cmds c = false → Posts s t r SUCCESS (BitVec.ofNat 64 c.cnt) none) := by
  have hd := ending_die hend
  have hread : s.unitRead d y u (.cmd r i) x = _ := unitRead_passes hd hmem hx himg hw
  generalize hb : s.shareAt (slotNo w row y.slot) y.wl m u = b at hread
  obtain ⟨hcount, hreads⟩ := unitFed_counted (s := s.pageTaken d y) (y := y) u hx (by rw [hd]; exact hw)
  generalize (s.pageTaken d y).unitFed y u x = f at hread hcount hreads
  have hmedia := unitServed_media f r i (some b)
  have hpass : (s.unitRead d y u (.cmd r i) x).passes d y.slot y.wl u x.img = true := by
    unfold State.passes
    rw [himg]
    split
    · exact passesAt_none ..
    · rfl
  refine ⟨_, arrayRead_one hwf hend hy hroom x, ?_⟩
  rw [hpass, hx, if_neg (by simp), hread, resumeIfIdle_slices, hmedia, resumeIfIdle_group, hcount.slices]
  have hcf : f.cmd r = some c := (cmd_of_sqs hcount.sqs r).trans hc
  have hkey : f.holdKey = s.holdKey := hcount.holdKey
  have hcmdres : ∀ t : State, (t.resumeIfIdle d).cmd r = t.cmd r := fun t =>
    cmd_of_sqs (sqs_of_mask (by decide) (resumeIfIdle_mask (List.Subset.refl _) d)) r
  refine ⟨rfl, ?_, fun h2 => ?_, fun q k h1 hrun hbad hq hk hwait => ?_⟩
  · have hgroup : (f.unitServed r i (some b)).group d y.slot = f.group d y.slot := by
      unfold State.group
      rw [hmedia]
    rw [hgroup, ← hd, hreads]
    rfl
  · rw [hcmdres, unitServed_eq hcf, if_neg (by simp; omega), cmd_unitTaken hcf, hkey]
  · rw [unitServed_eq hcf, if_pos (by rw [hrun, h1]; rfl)]
    have hstands : Stands s f r c := (stands_of hc hq hk hwait).of_eq hcount.sqs hcount.cqs
    have htaken : Stands s (f.unitTaken r i b) r (c.unitTaken (f.holdKey c.f12) i b) :=
      hstands.setCmd (g := fun c => c.unitTaken (f.holdKey c.f12) i b) (fun _ => rfl) (fun _ => rfl) (fun _ => rfl)
    exact (htaken.finishesRead hbad).resumes d

/-! ### A page that waits for its channel (R45) -/

theorem arrayRead_waits {xs : List Decode} {y : Slice} (hwf : d.wf = true) (hend : s.ending d = some y) (hroom : s.room (dieChan d) y.cls = 0)
    (hy : y.wants ≠ []) : ∃ t, exec (.arrayReadComplete d xs) s = .next t ∧
      t.media.slices = replaceSlice y { y with wants := y.wants, phase := .sensed } s.media.slices := by
  refine ⟨((s.setChan (dieChan d) fun c => c.took y.cls 0).setSlice y { y with wants := y.wants, phase := .sensed }).resumeIfIdle d, ?_, ?_⟩
  · change execArrayReadComplete d xs s = _
    unfold execArrayReadComplete
    rw [hwf, if_neg (by decide), hend]
    dsimp only
    rw [hroom]
    simp only [List.take_zero, List.zip_nil_right, List.length_nil, List.drop_zero, List.foldl_nil, List.filter_nil, List.map_nil,
      List.isEmpty_nil, if_true]
    rw [if_neg (by simpa using hy)]
  · rw [resumeIfIdle_slices]
    rfl

end Sys2Proof.Machine
end

section
/-! Reconstructions begin: of a host unit that failed step 0, and of the pages of a word line being rebuilt (R257, R277, R300, R301). -/

namespace Sys2Proof.Machine

variable {s t u : State} {d : DieId} {g : Nat}

/-! ### Reconstructions at work -/

/-- What may be left of the reconstructions `l`: the page and the number of one of them, and readers of those with its number. -/
def Recon.From (c : Recon) (l : List Recon) : Prop :=
  (∃ e ∈ l, c.page = e.page ∧ c.id = e.id) ∧ ∀ a ∈ c.wants, ∃ e ∈ l, c.id = e.id ∧ a ∈ e.wants

theorem Recon.from_of_mem {c : Recon} {l : List Recon} (h : c ∈ l) : c.From l := ⟨⟨c, h, rfl, rfl⟩, fun _ ha => ⟨c, h, rfl, ha⟩⟩

theorem Recon.From.trans {c : Recon} {l k : List Recon} (h : c.From l) (hl : ∀ e ∈ l, e.From k) : c.From k := by
  obtain ⟨⟨e, he, hpage, hid⟩, hw⟩ := h
  refine ⟨?_, fun a ha => ?_⟩
  · obtain ⟨⟨f, hf, hpage', hid'⟩, -⟩ := hl e he
    exact ⟨f, hf, hpage.trans hpage', hid.trans hid'⟩
  · obtain ⟨e, he, hid, ha⟩ := hw a ha
    obtain ⟨f, hf, hid', ha'⟩ := (hl e he).2 a ha
    exact ⟨f, hf, hid.trans hid', ha'⟩

/-- Only the reads under way and what waits for them have changed, and no reconstruction has come. -/
def State.Reads (s t : State) : Prop :=
  ∃ l w z x b, t = { s with media := { s.media with recons := l, work := w, slices := z, dies := x }, bell := b } ∧
    ∀ c ∈ l, c.From s.media.recons

theorem State.Reads.refl (s : State) : s.Reads s := ⟨_, _, _, _, _, rfl, fun _ hc => Recon.from_of_mem hc⟩

theorem State.Reads.trans (h : s.Reads t) (k : t.Reads u) : s.Reads u := by
  obtain ⟨l, _, _, _, _, rfl, hl⟩ := h
  obtain ⟨l', _, _, _, _, rfl, hl'⟩ := k
  exact ⟨_, _, _, _, _, rfl, fun c hc => (hl' c hc).trans hl⟩

theorem Reads.foldl {α : Type} {f : State → α → State} (hf : ∀ s x, State.Reads s (f s x)) (l : List α) (s : State) :
    s.Reads (l.foldl f s) := by
  induction l generalizing s with
  | nil => exact .refl s
  | cons x l ih => exact (hf s x).trans (ih _)

/-- Keeping the list of reconstructions, or a part of it, brings none. -/
theorem reads_of_recons (s : State) {l : List Recon} (w z x b) (hl : ∀ c ∈ l, c ∈ s.media.recons) :
    s.Reads { s with media := { s.media with recons := l, work := w, slices := z, dies := x }, bell := b } :=
  ⟨_, _, _, _, _, rfl, fun c hc => Recon.from_of_mem (hl c hc)⟩

theorem resumeIfIdle_reads (s : State) (d : DieId) : s.Reads (s.resumeIfIdle d) := by
  unfold State.resumeIfIdle
  split
  · exact .refl s
  · split
    · split
      · exact reads_of_recons s _ _ _ _ fun _ h => h
      · exact .refl s
    · exact .refl s

theorem dropSlices_reads (s : State) (p : Slice → Bool) : s.Reads (s.dropSlices p) := by
  unfold State.dropSlices
  exact (reads_of_recons s _ _ _ _ fun _ h => h).trans (Reads.foldl resumeIfIdle_reads _ _)

theorem setRecon_reads (s : State) (g : Nat) {f : Recon → Recon}
    (hf : ∀ c ∈ s.media.recons, c.id = g → (f c).page = c.page ∧ (f c).id = c.id ∧ ∀ a ∈ (f c).wants, ∃ e ∈ s.media.recons, e.id = g ∧ a ∈ e.wants) :
    s.Reads (s.setRecon g f) := by
  refine ⟨_, _, _, _, _, rfl, fun c hc => ?_⟩
  obtain ⟨e, he, rfl⟩ := List.mem_map.1 hc
  split
  case isTrue hg =>
    obtain ⟨hpage, hid, hw⟩ := hf e he hg
    refine ⟨⟨e, he, hpage, hid⟩, fun a ha => ?_⟩
    obtain ⟨e', he', hg', ha'⟩ := hw a ha
    exact ⟨e', he', (hid.trans hg).trans hg'.symm, ha'⟩
  case isFalse => exact Recon.from_of_mem he

theorem readShare_reads (s : State) (c : Recon) (i : Nat) : s.Reads (s.readShare c i) := by
  unfold State.readShare
  dsimp only
  have htry := setRecon_reads s c.id (f := fun c => { c with tried := c.tried ++ [i] }) fun e he hg => ⟨rfl, rfl, fun a ha => ⟨e, he, hg, ha⟩⟩
  split
  · exact htry.trans (reads_of_recons _ _ _ _ _ fun _ h => h)
  · exact htry.trans (reads_of_recons _ _ _ _ _ fun _ h => h)

theorem pushRecon_reads (s : State) (g : Nat) : s.Reads (s.pushRecon g) := by
  unfold State.pushRecon
  split
  · exact .refl s
  · dsimp only
    split
    · exact .refl s
    · exact Reads.foldl (fun s i => readShare_reads s _ i) _ s

/-- Units rebuilt, or given up, are delivered to the readers of a reconstruction. -/
def Recon.deliver (c : Recon) (es : List ((Nat × SliceFor) × Option Bytes)) (s : State) : State :=
  es.foldl (fun s x => s.deliver1 c.ward c.row c.slot c.wl c.target x.1.1 x.1.2 x.2) s

theorem settleRecon_delivers (s : State) (g : Nat) : s.settleRecon g = s ∨ ∃ c m es, s.recon g = some c ∧ s.Reads m ∧
    (∀ e ∈ es, e.1 ∈ c.wants) ∧ s.settleRecon g = c.deliver es m := by
  unfold State.settleRecon
  split
  · exact .inl rfl
  · next c hc =>
    refine .inr ⟨c, _, _, hc, ?_, ?_, rfl⟩
    · dsimp only
      split
      · exact (reads_of_recons s _ _ _ _ fun _ h => List.mem_of_mem_filter h).trans (dropSlices_reads _ _)
      · refine .trans ?_ (pushRecon_reads _ g)
        have hfound : c ∈ s.media.recons ∧ c.id = g := ⟨List.mem_of_find?_eq_some hc, by simpa using List.find?_some hc⟩
        exact setRecon_reads s g fun e _ _ => ⟨rfl, rfl, fun a ha => ⟨c, hfound.1, hfound.2, List.mem_of_mem_filter ha⟩⟩
    · intro e he
      obtain ⟨a, ha, hs⟩ := List.mem_filterMap.1 he
      split at hs
      · obtain rfl := Option.some.inj hs
        exact ha
      · split at hs
        · obtain rfl := Option.some.inj hs
          exact ha
        · cases hs

/-! ### The table of members -/

/-- The members are as they were. -/
def State.SameMembers (s t : State) : Prop := t.media.members = s.media.members

theorem State.SameMembers.refl (s : State) : s.SameMembers s := rfl

theorem State.SameMembers.trans (h : s.SameMembers t) (k : t.SameMembers u) : s.SameMembers u := Eq.trans k h

theorem sameMembers_of_mask {P : List Part} (h : .media ∉ P) (e : t.mask P = s.mask P) : s.SameMembers t :=
  congrArg Media.members (media_of_mask h e)

theorem SameMembers.foldl {α : Type} {f : State → α → State} (hf : ∀ s x, State.SameMembers s (f s x)) (l : List α) (s : State) :
    s.SameMembers (l.foldl f s) := foldl_same (fun s => s.media.members) hf l s

theorem State.Reads.members (h : s.Reads t) : s.SameMembers t := by
  obtain ⟨_, _, _, _, _, rfl, _⟩ := h
  rfl

theorem setMedia_members (s : State) {f : Media → Media} (h : ∀ m, (f m).members = m.members) : s.SameMembers (s.setMedia f) := h s.media

theorem setGroup_members (s : State) (d : DieId) (k : Nat) (f : Group → Group) : s.SameMembers (s.setGroup d k f) :=
  setMedia_members s fun _ => rfl

theorem joinParity_members (s : State) (k r d : Nat) : s.SameMembers (s.joinParity k r d) := setMedia_members s fun _ => rfl

theorem queueParity_members (s : State) (k r f : Nat) : s.SameMembers (s.queueParity k r f) := by
  unfold State.queueParity
  refine SameMembers.foldl (fun s j => ?_) _ s
  dsimp only
  split
  · rfl
  · rfl

theorem queueUnit_members (s : State) (n pu cls f : Nat) : s.SameMembers (s.queueUnit n pu cls f) := by
  unfold State.queueUnit
  dsimp only
  split
  · rfl
  · split
    · exact (State.SameMembers.trans (t := { s with staged := s.staged - 64 }) rfl (joinParity_members _ _ _ _)).trans
        (queueParity_members _ _ _ _)
    · exact State.SameMembers.trans (t := { s with staged := s.staged - 64 }) rfl (joinParity_members _ _ _ _)

theorem queueUnits_members (s : State) (n a b cls f : Nat) : s.SameMembers (s.queueUnits n a b cls f) :=
  SameMembers.foldl (fun s _ => queueUnit_members s n _ cls f) _ s

theorem queueErase_members (s : State) (n : Nat) : s.SameMembers (s.queueErase n) := by
  unfold State.queueErase
  dsimp only
  refine State.SameMembers.trans ?_ (setMedia_members _ fun _ => rfl)
  refine State.SameMembers.trans ?_ (setMedia_members _ fun _ => rfl)
  exact SameMembers.foldl (fun s d => setGroup_members s d _ _) _ s

theorem parkFree_members (s : State) (p : Nat) : s.SameMembers (s.parkFree p) := by
  unfold State.parkFree
  dsimp only
  split
  · rfl
  · split
    · rfl
    · exact queueErase_members s _

theorem unparkKey_members (s : State) (k : Nat) : s.SameMembers (s.unparkKey k) := by
  unfold State.unparkKey
  split
  · rfl
  · exact .trans rfl (parkFree_members _ _)

theorem unparkZone_members (s : State) (z : Nat) : s.SameMembers (s.unparkZone z) := by
  have hkey : s.SameMembers ((s.setZone z fun z => { z with park := .none }).unparkKey z) := .trans rfl (unparkKey_members _ z)
  unfold State.unparkZone
  dsimp only
  split
  · exact hkey.trans (parkFree_members _ _)
  · exact hkey

theorem unpark_members (s : State) (z : Nat) : s.SameMembers (s.unpark z) := by
  unfold State.unpark
  split
  · exact .trans rfl (unparkZone_members _ z)
  · exact unparkZone_members s z

theorem journalRec_members (s : State) (k : Nat) : s.SameMembers (s.journalRec k) := rfl

theorem store_members (s : State) (z n l : Nat) (us : List StUnit) : s.SameMembers (s.store z n l us) := by
  unfold State.store
  dsimp only
  refine .trans ?_ (journalRec_members _ 1)
  refine .trans (unpark_members s z) ?_
  split
  · exact .trans rfl (queueUnits_members _ _ _ _ _ _)
  · rfl

/-- A job append leaves the state, or stores its units. -/
theorem appendJob_stores {x : Job} {q : Req} {st a : Nat} (h : s.appendJob x q = some (st, a, t)) :
    t = s ∨ ∃ b z n l us, t = (s.setFn x.r.fn fun g => { g with buckets := b }).commit.2.store z n l us := by
  unfold State.appendJob at h
  obtain ⟨rate, hrate⟩ : ∃ r, r = State.rate := ⟨_, rfl⟩
  obtain ⟨fails, hfails⟩ : ∃ r, r = State.reqFails := ⟨_, rfl⟩
  obtain ⟨held, hheld⟩ : ∃ r, r = State.zoneHeld := ⟨_, rfl⟩
  rw [← hrate, ← hfails, ← hheld] at h
  clear hrate hfails hheld
  dsimp only at h
  split at h
  · exact .inl (third_of_some h).symm
  · split at h
    · exact .inl (third_of_some h).symm
    · cases h
    · split at h
      · cases h
      · exact .inr ⟨_, _, _, _, _, (third_of_some h).symm⟩

theorem charged_members (s : State) (f : Nat) (g : Fn → Fn) : s.SameMembers (s.setFn f g).commit.2 := rfl

theorem appendJob_members {x : Job} {q : Req} {a b : Nat} (h : s.appendJob x q = some (a, b, t)) : s.SameMembers t := by
  obtain rfl | ⟨_, _, _, _, _, rfl⟩ := appendJob_stores h
  · rfl
  · exact (charged_members s _ _).trans (store_members _ _ _ _ _)

theorem acceptAppends_members (s : State) (j : Nat) : s.SameMembers (s.acceptAppends j) := by
  unfold State.acceptAppends
  split
  · refine SameMembers.foldl (fun s q => ?_) _ s
    split
    · next h => exact appendJob_members h
    · rfl
  · rfl

theorem dropReads_reads (s : State) (p : SliceFor → Bool) : s.Reads (s.dropReads p) := by
  unfold State.dropReads
  dsimp only
  refine State.Reads.trans ?_ (dropSlices_reads _ _)
  refine ⟨_, _, _, _, _, rfl, fun c hc => ?_⟩
  obtain ⟨e, he, rfl⟩ := List.mem_map.1 (List.mem_of_mem_filter hc)
  exact ⟨⟨e, he, rfl, rfl⟩, fun a ha => ⟨e, he, rfl, List.mem_of_mem_filter ha⟩⟩

theorem dropReads_members (s : State) (p : SliceFor → Bool) : s.SameMembers (s.dropReads p) := (dropReads_reads s p).members

theorem dropJobReads_members (s : State) (j : Nat) : s.SameMembers (s.dropJobReads j) := by
  unfold State.dropJobReads
  dsimp only
  split
  · rfl
  · exact dropReads_members s _

theorem trace_members (s : State) (a b c d e f) : s.SameMembers (s.trace a b c d e f) :=
  sameMembers_of_mask (by decide) (trace_mask (List.Subset.refl _) a b c d e f)

theorem dropItems_members (s : State) (j : Nat) : s.SameMembers (s.dropItems j) := by
  unfold State.dropItems
  dsimp only
  refine State.SameMembers.trans ?_ (sameMembers_of_mask (P := [.cores, .hamlets, .disp]) (by decide) (mask_cores_hamlets_disp (by decide) ..))
  refine State.SameMembers.trans ?_ (SameMembers.foldl (fun s e => ?_) _ _)
  · refine State.SameMembers.trans ((acceptAppends_members s j).trans (dropJobReads_members _ j)) (SameMembers.foldl (fun s e => ?_) _ _)
    exact SameMembers.foldl (fun s x => trace_members s ..) _ s
  · refine State.SameMembers.trans ?_ (SameMembers.foldl (fun s x => trace_members s ..) _ _)
    split
    · split
      · exact trace_members s ..
      · rfl
    · rfl

theorem bell_members (s : State) (b : Bell) : s.SameMembers { s with bell := b } := rfl

theorem hamlets_jobs_members (s : State) (a b) : s.SameMembers { s with hamlets := a, jobs := b } := rfl

theorem dropScans_members (s : State) (j : Nat) : s.SameMembers (s.dropScans j) := by
  unfold State.dropScans
  dsimp only
  exact ((dropReads_members s _).trans (setMedia_members _ fun _ => rfl)).trans (bell_members _ _)

theorem removeJob_members (s : State) (j : Nat) : s.SameMembers (s.removeJob j) := by
  unfold State.removeJob
  dsimp only
  exact ((dropItems_members s j).trans (dropScans_members _ j)).trans (hamlets_jobs_members _ _ _)

theorem endJob_members (s : State) (j : Nat) (d : Done) : s.SameMembers (s.endJob j d) := by
  cases hj : look s.jobs j with
  | none =>
    unfold State.endJob
    rw [hj]
    rfl
  | some x =>
    rw [endJob_eq hj]
    exact (sameMembers_of_mask (by decide) (faultKept_mask s x)).trans
      ((removeJob_members _ j).trans (sameMembers_of_mask (by decide) (complete_mask (List.Subset.refl _) _ _)))

theorem scanUnit_members (s : State) (j z o : Nat) (b : Option Bytes) : s.SameMembers (s.scanUnit j z o b) := by
  unfold State.scanUnit
  split
  · rfl
  · split
    · rfl
    · split
      · exact endJob_members s j _
      · exact sameMembers_of_mask (by decide) (scanArrive_mask (List.Subset.refl _) _ _ _ _)

theorem staged_members (s : State) (n : Nat) : s.SameMembers { s with staged := n } := rfl

theorem noteMaps_members (s : State) : s.SameMembers s.noteMaps := rfl

/-- A stream may go on in the next free slot. -/
def State.nextStream (s : State) (full : Bool) (w st : Nat) : State :=
  if full && s.randRoom w noRef st 1 then match (s.freeRand w).head? with
    | some k => s.setMedia fun m => { m with
        raSlots := put m.raSlots k ⟨some st, 0, 0, true, []⟩, streams := put m.streams (w * 16 + st) (k, 0) }
    | none => s
  else s

theorem nextStream_members (s : State) (full : Bool) (w st : Nat) : s.SameMembers (s.nextStream full w st) := by
  unfold State.nextStream
  split
  · split
    · exact setMedia_members s fun _ => rfl
    · rfl
  · rfl

theorem fillStream_members {w st cls f a b : Nat} {x : StUnit} (h : s.fillStream w st cls f x = some (a, b, t)) : s.SameMembers t := by
  unfold State.fillStream at h
  dsimp only at h
  split at h
  · cases h
  · rw [← third_of_some h]
    refine State.SameMembers.trans ?_ (noteMaps_members _)
    refine State.SameMembers.trans ?_ (queueUnits_members _ _ _ _ _ _)
    refine State.SameMembers.trans ?_ (nextStream_members _ _ _ _)
    refine State.SameMembers.trans ?_ (setMedia_members _ fun _ => rfl)
    refine State.SameMembers.trans ?_ (staged_members _ _)
    refine State.SameMembers.trans ?_ (unparkKey_members _ _)
    refine State.SameMembers.trans ?_ (setMedia_members _ fun _ => rfl)
    exact staged_members s _

theorem reclaimServed_members (s : State) (w n o : Nat) (b : Option Bytes) : s.SameMembers (s.reclaimServed w n o b) := by
  unfold State.reclaimServed
  split
  · rfl
  · split
    · rfl
    · split
      · rfl
      · dsimp only
        split
        · rfl
        · split
          · next h => exact .trans (fillStream_members h) rfl
          · rfl

theorem copyServed_members (s : State) (d : DieId) (k : Nat) : s.SameMembers (s.copyServed d k) := by
  unfold State.copyServed
  dsimp only
  split
  · split
    · rfl
    · rfl
  · rfl

/-! ### A member under reconstructions -/

/-- A member is as it was but for the reads its word line still waits for. -/
def State.KeepsMem (w row i : Nat) (s t : State) : Prop := ∃ n, t.mem w row i = { s.mem w row i with lineLeft := n }

theorem State.SameMembers.keepsMem (h : s.SameMembers t) (w row i : Nat) : s.KeepsMem w row i t := by
  refine ⟨(s.mem w row i).lineLeft, ?_⟩
  unfold State.mem
  rw [h]

theorem State.KeepsMem.trans {w row i : Nat} (h : s.KeepsMem w row i t) (k : t.KeepsMem w row i u) : s.KeepsMem w row i u := by
  obtain ⟨n, hn⟩ := h
  obtain ⟨m, hm⟩ := k
  exact ⟨m, by rw [hm, hn]⟩

theorem KeepsMem.foldl {α : Type} {w row i : Nat} {f : State → α → State} (hf : ∀ s x, State.KeepsMem w row i s (f s x)) (l : List α) (s : State) :
    s.KeepsMem w row i (l.foldl f s) := by
  induction l generalizing s with
  | nil => exact (State.SameMembers.refl s).keepsMem w row i
  | cons x l ih => exact (hf s x).trans (ih _)

theorem mem_setMem_same (s : State) (w row i : Nat) (f : Mem → Mem) : (s.setMem w row i f).mem w row i = f (s.mem w row i) :=
  lookD_putD_same s.media.members (Mem.fresh w row i) (memNo w row i) (f (s.mem w row i))

theorem mem_setMem_other {w row i w' row' i' : Nat} (f : Mem → Mem) (h : memNo w row i ≠ memNo w' row' i') :
    (s.setMem w' row' i' f).mem w row i = s.mem w row i :=
  lookD_putD_other s.media.members (Mem.fresh w' row' i') (Mem.fresh w row i) (f (s.mem w' row' i')) h

/-- A member's number is its place. -/
theorem memNo_place {w row i : Nat} (hr : row < 26) (hi : i < 36) : memNo w row i / 36 / 26 = w ∧ memNo w row i / 36 % 26 = row ∧ memNo w row i % 36 = i := by
  unfold memNo
  omega

theorem memNo_of_place (n : Nat) : memNo (n / 36 / 26) (n / 36 % 26) (n % 36) = n := by
  unfold memNo
  omega

theorem addWork_members (s : State) (l : List Work) : s.SameMembers (s.setMedia fun m => { m with work := m.work ++ l }) := rfl

theorem lineServed_keepsMem {w row i : Nat} (hr : row < 26) (hi : i < 36) (s : State) (n : Nat) : s.KeepsMem w row i (s.lineServed n) := by
  have hset : s.KeepsMem w row i (s.setMem (n / 36 / 26) (n / 36 % 26) (n % 36) fun m => { m with lineLeft := m.lineLeft - 1 }) := by
    by_cases h : memNo w row i = n
    · subst h
      obtain ⟨hw, hrow, hidx⟩ := memNo_place (w := w) hr hi
      rw [hw, hrow, hidx]
      exact ⟨_, mem_setMem_same ..⟩
    · exact ⟨_, mem_setMem_other _ (by rwa [memNo_of_place])⟩
  unfold State.lineServed
  dsimp only
  split
  · split
    · exact hset.trans ((addWork_members _ _).keepsMem w row i)
    · exact hset
  · exact hset

theorem loseUnits_members (s : State) (n o k : Nat) : s.SameMembers (s.loseUnits n o k) := setMedia_members s fun _ => rfl

theorem unitServed_members (s : State) (r : Ref) (i : Nat) (b : Option Bytes) : s.SameMembers (s.unitServed r i b) :=
  sameMembers_of_mask (by decide) (unitServed_mask (List.Subset.refl _) r i b)

theorem reqServed_members (s : State) (g : Nat) (b : Option Bytes) : s.SameMembers (s.reqServed g b) := rfl

/-- A unit rebuilt, or given up, leaves the member but for a word line's reads. -/
theorem deliver1_keepsMem {w row i : Nat} (hr : row < 26) (hi : i < 36) (s : State) (a b k wl j u : Nat) (who : SliceFor) (x : Option Bytes) :
    s.KeepsMem w row i (s.deliver1 a b k wl j u who x) := by
  have hlose : s.SameMembers (if x.isNone && (parityOf wl j).isNone then s.loseUnits (slotNo a b k) (shareOff wl (symbolOf wl j) u) 1 else s) := by
    split
    · exact loseUnits_members ..
    · rfl
  unfold State.deliver1
  cases who with
  | cmd r k => exact (unitServed_members ..).keepsMem w row i
  | scan j z o => exact (scanUnit_members ..).keepsMem w row i
  | copy => exact (hlose.trans (copyServed_members ..)).keepsMem w row i
  | reclaim => exact (reclaimServed_members ..).keepsMem w row i
  | req g => exact (reqServed_members ..).keepsMem w row i
  | line m => exact (hlose.keepsMem w row i).trans (lineServed_keepsMem hr hi _ m)
  | recon g m => exact (State.SameMembers.refl s).keepsMem w row i
  | ladder k n => exact (State.SameMembers.refl s).keepsMem w row i
  | patrol ret => exact (State.SameMembers.refl s).keepsMem w row i

theorem settleRecon_keepsMem {w row i : Nat} (hr : row < 26) (hi : i < 36) (s : State) (g : Nat) : s.KeepsMem w row i (s.settleRecon g) := by
  obtain h | ⟨c, m, es, -, hreads, -, h⟩ := settleRecon_delivers s g
  · rw [h]
    exact (State.SameMembers.refl s).keepsMem w row i
  · rw [h]
    exact (hreads.members.keepsMem w row i).trans (KeepsMem.foldl (fun s x => deliver1_keepsMem hr hi s ..) es m)

/-! ### A reconstruction opened -/

/-- The state in which a reconstruction has been opened for a page. -/
def State.opened (s : State) (y : Slice) (wants : List (Nat × SliceFor)) (cls : Nat) (busy : Bool) (w row i : Nat) : State :=
  s.setMedia fun m => { m with
    nextRecon := m.nextRecon + 1
    recons := m.recons ++ [⟨m.nextRecon, wants, w, row, y.slot, y.wl, y.page, i, cls, [], [], [], busy⟩] }

theorem joinRecon_members (s : State) (c : Recon) (wants : List (Nat × SliceFor)) : s.SameMembers (s.joinRecon c wants) := by
  unfold State.joinRecon
  exact (setMedia_members s fun _ => rfl).trans (setMedia_members _ fun _ => rfl)

theorem newRecon_keepsMem {w row i : Nat} (hr : row < 26) (hi : i < 36) (s : State) (y : Slice) (wants : List (Nat × SliceFor)) (cls : Nat) (busy : Bool) :
    s.KeepsMem w row i (s.newRecon y wants cls busy) := by
  unfold State.newRecon
  split
  · exact (State.SameMembers.refl s).keepsMem w row i
  · dsimp only
    split
    · exact (joinRecon_members ..).keepsMem w row i
    · refine State.KeepsMem.trans ?_ (settleRecon_keepsMem hr hi _ _)
      refine State.SameMembers.keepsMem (State.SameMembers.trans ?_ (pushRecon_reads _ _).members) w row i
      exact setMedia_members s fun _ => rfl

/-- With no reconstruction of its page, and none with the next number, a page that failed opens one. -/
theorem newRecon_opens {y : Slice} {w row i : Nat} (hmem : s.memberOf y.die = some (w, row, i)) (hpage : ∀ c ∈ s.media.recons, c.page ≠ y.page)
    (hid : ∀ c ∈ s.media.recons, c.id ≠ s.media.nextRecon) (wants : List (Nat × SliceFor)) (cls : Nat) (busy : Bool) :
    ∃ m c es, (s.opened y wants cls busy w row i).Reads m ∧ (∀ e ∈ es, e.1 ∈ wants) ∧ s.newRecon y wants cls busy = Recon.deliver c es m := by
  have hnew : s.newRecon y wants cls busy =
      ((s.opened y wants cls busy w row i).pushRecon s.media.nextRecon).settleRecon s.media.nextRecon := by
    unfold State.newRecon
    rw [hmem]
    dsimp only
    split
    · next c hc =>
      have hsame := List.find?_some hc
      simp only [Bool.and_eq_true, decide_eq_true_eq] at hsame
      exact absurd hsame.1.1.1.2 (hpage c (List.mem_of_find?_eq_some hc))
    · rfl
  rw [hnew]
  have hpush := pushRecon_reads (s.opened y wants cls busy w row i) s.media.nextRecon
  generalize State.pushRecon _ s.media.nextRecon = p at hpush
  obtain h | ⟨c, m, es, hc, hreads, hes, h⟩ := settleRecon_delivers p s.media.nextRecon
  · exact ⟨p, ⟨0, [], 0, 0, 0, 0, 0, 0, 0, [], [], [], false⟩, [], hpush, by simp, h⟩
  · refine ⟨m, c, es, hpush.trans hreads, fun e he => ?_, h⟩
    have hfound : c ∈ p.media.recons ∧ c.id = s.media.nextRecon := ⟨List.mem_of_find?_eq_some hc, by simpa using List.find?_some hc⟩
    obtain ⟨l, _, _, _, _, rfl, hl⟩ := hpush
    obtain ⟨-, hw⟩ := hl c hfound.1
    obtain ⟨f, hf, hfid, ha⟩ := hw e.1 (hes e he)
    obtain hf | hf := List.mem_append.1 hf
    · exact absurd (hfid.symm.trans hfound.2) (hid f hf)
    · obtain rfl := List.mem_singleton.1 hf
      exact ha

/-! ### A host unit that failed step 0 -/

theorem deliver_cmd {r : Ref} {i : Nat} (c : Recon) {es : List ((Nat × SliceFor) × Option Bytes)} (h : ∀ e ∈ es, e.1.2 = .cmd r i) (s : State) :
    (c.deliver es s).media = s.media := by
  induction es generalizing s with
  | nil => rfl
  | cons e es ih =>
    have hfirst : (s.deliver1 c.ward c.row c.slot c.wl c.target e.1.1 e.1.2 e.2).media = s.media := by
      rw [h e (List.mem_cons_self ..)]
      exact unitServed_media s r i e.2
    exact (ih (fun e he => h e (List.mem_cons_of_mem _ he)) _).trans hfirst

/-- A decode above step 0 asks for the ladder and reaches no reader. -/
theorem codewordRead_fails {y : Slice} {u w row m i : Nat} {r : Ref} {x : Decode} (hmem : s.memberOf y.die = some (w, row, m)) (hx : 1 ≤ x.step) :
    ∃ k, s.codewordRead y u (.cmd r i) x = (s.wearEv y.die.ward .decode k).queueLadder y.die y.slot y.wl u := by
  refine ⟨if x.step = 0 then min x.iters 20 else 20, ?_⟩
  have hstep : ¬ x.step = 0 := by omega
  unfold State.codewordRead
  rw [hmem]
  dsimp only
  rw [if_neg (show ¬ (decide (x.step = 0) && _) = true by simp [hstep])]

theorem queueLadder_reads (s : State) (d : DieId) (k wl u : Nat) : s.Reads (s.queueLadder d k wl u) := by
  unfold State.queueLadder State.ladderRead
  split
  · exact .refl s
  · exact reads_of_recons s _ _ _ _ fun _ h => h

theorem State.Reads.nextRecon (h : s.Reads t) : t.media.nextRecon = s.media.nextRecon := by
  obtain ⟨_, _, _, _, _, rfl, -⟩ := h
  rfl

theorem State.Reads.memberOf (h : s.Reads t) : t.memberOf = s.memberOf := by
  obtain ⟨_, _, _, _, _, rfl, -⟩ := h
  rfl

theorem State.Reads.recons_nil (h : s.Reads t) (hs : s.media.recons = []) : t.media.recons = [] := by
  obtain ⟨l, _, _, _, _, rfl, hl⟩ := h
  refine List.eq_nil_iff_forall_not_mem.2 fun c hc => ?_
  obtain ⟨e, he, -⟩ := (hl c hc).1
  rw [hs] at he
  cases he

/-- A page whose unit fails opens a reconstruction where none stands. -/
theorem newRecon_cmd {y : Slice} {w row m u i : Nat} {r : Ref} (hmem : s.memberOf y.die = some (w, row, m)) (hnone : s.media.recons = [])
    (cls : Nat) (busy : Bool) : (s.newRecon y [(u, .cmd r i)] cls busy).media.nextRecon = s.media.nextRecon + 1 := by
  obtain ⟨p, c, es, hp, hes, hnew⟩ := newRecon_opens hmem (fun c hc => by rw [hnone] at hc; cases hc) (fun c hc => by rw [hnone] at hc; cases hc)
    [(u, .cmd r i)] cls busy
  rw [hnew, deliver_cmd c (r := r) (i := i) fun e he => by rw [List.mem_singleton.1 (hes e he)], hp.nextRecon]
  rfl

theorem unitRead_fails {x : Decode} {y : Slice} {w row m u i : Nat} {r : Ref} (hd : y.die = d) (hmem : s.memberOf d = some (w, row, m))
    (hx : 1 ≤ x.step) (hnone : s.media.recons = []) : (s.unitRead d y u (.cmd r i) x).media.nextRecon = s.media.nextRecon ∧
      (s.unitRead d y u (.cmd r i) x).media.recons = [] ∧ (s.unitRead d y u (.cmd r i) x).memberOf d = some (w, row, m) := by
  have hmem' : (s.pageTaken d y).memberOf y.die = some (w, row, m) := by
    rw [hd]
    exact hmem
  obtain ⟨k, hread⟩ := codewordRead_fails (u := u) (r := r) (i := i) hmem' hx
  have hcount := wearEv_counted (s.pageTaken d y) y.die.ward .decode k
  have hreads := queueLadder_reads ((s.pageTaken d y).wearEv y.die.ward .decode k) y.die y.slot y.wl u
  rw [show s.unitRead d y u (.cmd r i) x = (s.pageTaken d y).codewordRead y u (.cmd r i) x from rfl, hread]
  refine ⟨hreads.nextRecon.trans hcount.nextRecon, hreads.recons_nil (hcount.recons.trans hnone), ?_⟩
  rw [hreads.memberOf, hcount.memberOf]
  exact hmem

theorem arrayRead_reconstructs {x : Decode} {y : Slice} {w row m u i : Nat} {r : Ref} (hwf : d.wf = true) (hend : s.ending d = some y)
    (hmem : s.memberOf d = some (w, row, m)) (hroom : 0 < s.room (dieChan d) y.cls) (hy : y.wants = [(u, .cmd r i)]) (hx : 1 ≤ x.step)
    (hnone : s.media.recons = []) : ∃ t, exec (.arrayReadComplete d [x]) s = .next t ∧ s.media.nextRecon < t.media.nextRecon := by
  obtain ⟨hnext, hrecons, hmem'⟩ := unitRead_fails (u := u) (r := r) (i := i) (ending_die hend) hmem hx hnone
  have hmem'' : (s.unitRead d y u (.cmd r i) x).memberOf y.die = some (w, row, m) := by rw [ending_die hend]; exact hmem'
  have hfails : ((SliceFor.cmd r i).rebuilt && !(decide (x.step = 0) && (s.unitRead d y u (.cmd r i) x).passes d y.slot y.wl u x.img)) = true := by
    rw [decide_eq_false (show ¬ x.step = 0 by omega)]
    rfl
  refine ⟨_, arrayRead_one hwf hend hy hroom x, ?_⟩
  rw [if_pos hfails, resumeIfIdle_nextRecon, newRecon_cmd hmem'' hrecons, hnext]
  exact Nat.lt_succ_self _

/-! ### A word line of a rebuild (R301) -/

/-- `p` reconstructions have been opened since `base`, of the pages below `p`. -/
def State.Opened (base p : Nat) (t : State) : Prop := t.media.nextRecon = base + p ∧ ∀ c ∈ t.media.recons, c.page < p ∧ c.id < base + p

/-- The reconstructions and their next number are as they were. -/
def State.SameRecons (s t : State) : Prop := t.media.recons = s.media.recons ∧ t.media.nextRecon = s.media.nextRecon

theorem State.SameRecons.trans (h : s.SameRecons t) (k : t.SameRecons u) : s.SameRecons u := ⟨k.1.trans h.1, k.2.trans h.2⟩

theorem setMem_recons (s : State) (w row i : Nat) (f : Mem → Mem) : s.SameRecons (s.setMem w row i f) := ⟨rfl, rfl⟩

theorem addWork_recons (s : State) (l : List Work) : s.SameRecons (s.setMedia fun m => { m with work := m.work ++ l }) := ⟨rfl, rfl⟩

theorem lineServed_recons (s : State) (n : Nat) : s.SameRecons (s.lineServed n) := by
  unfold State.lineServed
  dsimp only
  split
  · split
    · exact (setMem_recons ..).trans (addWork_recons ..)
    · exact setMem_recons ..
  · exact setMem_recons ..

theorem deliver1_line (s : State) (a b k wl j u n : Nat) (x : Option Bytes) : s.SameRecons (s.deliver1 a b k wl j u (.line n) x) := by
  unfold State.deliver1
  dsimp only
  split
  · exact State.SameRecons.trans (t := s.loseUnits _ _ _) ⟨rfl, rfl⟩ (lineServed_recons _ n)
  · exact lineServed_recons s n

theorem deliver_line {n : Nat} (c : Recon) {es : List ((Nat × SliceFor) × Option Bytes)} (h : ∀ e ∈ es, e.1.2 = .line n) (s : State) :
    s.SameRecons (c.deliver es s) := by
  induction es generalizing s with
  | nil => exact ⟨rfl, rfl⟩
  | cons e es ih =>
    have hfirst := deliver1_line s c.ward c.row c.slot c.wl c.target e.1.1 n e.2
    rw [← h e (List.mem_cons_self ..)] at hfirst
    exact hfirst.trans (ih (fun e he => h e (List.mem_cons_of_mem _ he)) _)

/-- A member being rebuilt has its die. -/
theorem memberOf_rebuilding {w row i : Nat} (h : (s.mem w row i).rebuilding = true) : ∃ a b j, s.memberOf (s.mem w row i).die = some (a, b, j) := by
  unfold State.memberOf
  split
  · exact ⟨_, _, _, rfl⟩
  · next hnone =>
    cases hl : look s.media.members (memNo w row i) with
    | none =>
      unfold State.mem at h
      rw [hl] at h
      cases h
    | some x =>
      have hx : s.mem w row i = x := by unfold State.mem; rw [hl]; rfl
      have := List.find?_eq_none.1 hnone _ (mem_of_look hl)
      simp [hx] at this

theorem newRecon_opened {w row i base p : Nat} {y : Slice} {wants : List (Nat × SliceFor)} {n : Nat} (hdie : y.die = (s.mem w row i).die)
    (hre : (s.mem w row i).rebuilding = true) (hpage : y.page = p) (h : s.Opened base p) (hw : ∀ e ∈ wants, e.2 = .line n) :
    (s.newRecon y wants 5 false).Opened base (p + 1) := by
  obtain ⟨hnext, hold⟩ := h
  obtain ⟨a, b, j, hmem⟩ := memberOf_rebuilding hre
  obtain ⟨m, c, es, hm, hes, hnew⟩ := newRecon_opens (y := y) (by rw [hdie]; exact hmem) (fun c hc => by have := (hold c hc).1; omega)
    (fun c hc => by have := (hold c hc).2; omega) wants 5 false
  rw [hnew]
  obtain ⟨hr, hn⟩ := deliver_line c (n := n) (fun e he => hw _ (hes e he)) m
  obtain ⟨l, _, _, _, _, rfl, hl⟩ := hm
  refine ⟨?_, ?_⟩
  · rw [hn]
    change s.media.nextRecon + 1 = _
    omega
  · rw [hr]
    intro c hc
    obtain ⟨f, hf, hfp, hfid⟩ := (hl c hc).1
    obtain hf | hf := List.mem_append.1 hf
    · obtain ⟨h1, h2⟩ := hold f hf
      omega
    · obtain rfl := List.mem_singleton.1 hf
      simp only at hfp hfid
      omega

/-- A page of a word line being rebuilt is reconstructed for its member. -/
def State.rebuildPage (s : State) (die : DieId) (k n mn p : Nat) : State :=
  s.newRecon ⟨die, k, n, p, (pageUnits p).map fun u => (u, .line mn), 5, .queued⟩ ((pageUnits p).map fun u => (u, .line mn)) 5 false

/-- The pages of a word line being rebuilt, one after another. -/
def State.rebuildLine (s : State) (die : DieId) (k n mn : Nat) : State := (List.range 4).foldl (fun s p => s.rebuildPage die k n mn p) s

theorem rebuildLine_opened {w row i base k n mn : Nat} {die : DieId} (hr : row < 26) (hi : i < 36) (hre : (s.mem w row i).rebuilding = true)
    (hdie : (s.mem w row i).die = die) (h : s.Opened base 0) : (s.rebuildLine die k n mn).media.nextRecon = base + 4 := by
  subst hdie
  have hpage : ∀ (t : State) p, s.KeepsMem w row i t → t.Opened base p → s.KeepsMem w row i (t.rebuildPage (s.mem w row i).die k n mn p) ∧
      (t.rebuildPage (s.mem w row i).die k n mn p).Opened base (p + 1) := by
    intro t p hkeep hopen
    obtain ⟨l, hl⟩ := hkeep
    have hwants : ∀ e ∈ (pageUnits p).map fun u => (u, SliceFor.line mn), e.2 = .line mn := by simp
    refine ⟨State.KeepsMem.trans ⟨l, hl⟩ (newRecon_keepsMem hr hi t _ _ 5 false), ?_⟩
    exact newRecon_opened (w := w) (row := row) (i := i) (by rw [hl]) (by rw [hl]; exact hre) rfl hopen hwants
  obtain ⟨k1, o1⟩ := hpage s 0 ((State.SameMembers.refl s).keepsMem w row i) h
  obtain ⟨k2, o2⟩ := hpage _ 1 k1 o1
  obtain ⟨k3, o3⟩ := hpage _ 2 k2 o2
  exact (hpage _ 3 k3 o3).2.1

theorem rebuildLine_keepsMem {w row i k n mn : Nat} (hr : row < 26) (hi : i < 36) (s : State) (die : DieId) :
    s.KeepsMem w row i (s.rebuildLine die k n mn) :=
  KeepsMem.foldl (fun s _ => newRecon_keepsMem hr hi s _ _ 5 false) (List.range 4) s

/-- The state in which a member's word line waits for its four pages. -/
def State.lineBegun (s : State) (m : Member) (k n : Nat) : State :=
  (s.dropReads fun e => e = .line (memNo m.ward m.row m.idx)).setMem m.ward m.row m.idx fun x => { x with cursor := some (k, n), lineLeft := 64 }

theorem rebuildWordLine_eq {m : Member} {k n : Nat} (hwf : m.wf = true) (hre : (s.mem m.ward m.row m.idx).rebuilding = true)
    (hat : s.rebuildAt m = some (k, n)) (hn : n < s.linesOf m.ward m.row m.idx k) (hleft : (s.mem m.ward m.row m.idx).lineLeft = 0)
    (hop : (s.die (s.mem m.ward m.row m.idx).die).op = none)
    (hwork : ∀ w ∈ s.media.work, ¬ (w.why = .rebuild ∧ w.die = (s.mem m.ward m.row m.idx).die))
    (hdirty : (s.group (s.mem m.ward m.row m.idx).die k).dirty = false) (hprep : (s.die (s.mem m.ward m.row m.idx).die).cellarPrep = false)
    (hfree : 0 < (s.die (s.mem m.ward m.row m.idx).die).cellarFree) :
    exec (.rebuildWordLine m) s = .next ((s.lineBegun m k n).rebuildLine (s.mem m.ward m.row m.idx).die k n (memNo m.ward m.row m.idx)) := by
  change execRebuildWordLine m s = _
  have hbusy : (s.media.work.any fun w => w.why = .rebuild && w.die = (s.mem m.ward m.row m.idx).die) = false := by
    rw [List.any_eq_false]
    intro w hw
    simpa using hwork w hw
  unfold execRebuildWordLine
  rw [hwf, if_neg (by decide)]
  dsimp only
  rw [hat]
  dsimp only
  rw [hbusy, hop, hre, hleft, hprep, hdirty, if_pos (by simp [hfree, hn])]
  rfl

theorem rebuildWordLine_opens {m : Member} {k n : Nat} (hwf : m.wf = true) (hre : (s.mem m.ward m.row m.idx).rebuilding = true)
    (hat : s.rebuildAt m = some (k, n)) (hn : n < s.linesOf m.ward m.row m.idx k) (hleft : (s.mem m.ward m.row m.idx).lineLeft = 0)
    (hop : (s.die (s.mem m.ward m.row m.idx).die).op = none)
    (hwork : ∀ w ∈ s.media.work, ¬ (w.why = .rebuild ∧ w.die = (s.mem m.ward m.row m.idx).die))
    (hdirty : (s.group (s.mem m.ward m.row m.idx).die k).dirty = false) (hprep : (s.die (s.mem m.ward m.row m.idx).die).cellarPrep = false)
    (hfree : 0 < (s.die (s.mem m.ward m.row m.idx).die).cellarFree) :
    ∃ t, exec (.rebuildWordLine m) s = .next t ∧ (t.mem m.ward m.row m.idx).cursor = some (k, n) ∧
      (s.media.recons = [] → t.media.nextRecon = s.media.nextRecon + 4) := by
  refine ⟨_, rebuildWordLine_eq hwf hre hat hn hleft hop hwork hdirty hprep hfree, ?_⟩
  obtain ⟨⟨-, hrow⟩, hidx⟩ : (m.ward < 4 ∧ m.row < 26) ∧ m.idx < 36 := by simpa [Member.wf] using hwf
  have hdrop := dropReads_members s fun e => e = .line (memNo m.ward m.row m.idx)
  have hmem : (s.lineBegun m k n).mem m.ward m.row m.idx = { s.mem m.ward m.row m.idx with cursor := some (k, n), lineLeft := 64 } := by
    unfold State.lineBegun
    rw [mem_setMem_same]
    unfold State.mem
    rw [hdrop]
  refine ⟨?_, fun hnone => ?_⟩
  · obtain ⟨l, hl⟩ := rebuildLine_keepsMem (w := m.ward) (k := k) (n := n) (mn := memNo m.ward m.row m.idx) hrow hidx (s.lineBegun m k n)
      (s.mem m.ward m.row m.idx).die
    rw [hl, hmem]
  · have hopen : (s.lineBegun m k n).Opened s.media.nextRecon 0 := by
      have hreads := dropReads_reads s fun e => e = .line (memNo m.ward m.row m.idx)
      have hset := setMem_recons (s.dropReads fun e => e = .line (memNo m.ward m.row m.idx)) m.ward m.row m.idx
        fun x => { x with cursor := some (k, n), lineLeft := 64 }
      refine ⟨hset.2.trans hreads.nextRecon, fun c hc => ?_⟩
      rw [show (s.lineBegun m k n).media.recons = [] from hset.1.trans (hreads.recons_nil hnone)] at hc
      cases hc
    have hre' : ((s.lineBegun m k n).mem m.ward m.row m.idx).rebuilding = true := by
      rw [hmem]
      exact hre
    have hdie : ((s.lineBegun m k n).mem m.ward m.row m.idx).die = (s.mem m.ward m.row m.idx).die := by rw [hmem]
    exact rebuildLine_opened hrow hidx hre' hdie hopen

end Sys2Proof.Machine
end

section
/-! Die operations end and fail, dies fail, and a rebuild passes its block groups (R26, R234, R260, R265, R286, R297, R298, R301). -/

namespace Sys2Proof.Machine

variable {s t u : State} {d : DieId}

/-! ### What care of the media never does -/

/-- No operation begins on an idle die, no block leaves the retired ones, no block group's word lines change, and no checkpoint begins. -/
structure State.Eases (s t : State) : Prop where
  op : ∀ d, (s.die d).op = none → (t.die d).op = none
  retired : ∀ p ∈ s.media.retired, p ∈ t.media.retired
  prog : ∀ d k, (t.group d k).prog = (s.group d k).prog
  begun : t.media.begun = s.media.begun

theorem State.Eases.refl (s : State) : s.Eases s := ⟨fun _ h => h, fun _ h => h, fun _ _ => rfl, rfl⟩

theorem State.Eases.trans (h : s.Eases t) (k : t.Eases u) : s.Eases u :=
  ⟨fun d hd => k.op d (h.op d hd), fun p hp => k.retired p (h.retired p hp), fun d n => (k.prog d n).trans (h.prog d n), k.begun.trans h.begun⟩

theorem Eases.foldl {α : Type} {f : State → α → State} (hf : ∀ s x, State.Eases s (f s x)) (l : List α) (s : State) : s.Eases (l.foldl f s) := by
  induction l generalizing s with
  | nil => exact .refl s
  | cons x l ih => exact (hf s x).trans (ih _)

theorem eases_of_media (hd : t.media.dies = s.media.dies) (hr : t.media.retired = s.media.retired) (hg : t.media.groups = s.media.groups)
    (hb : t.media.begun = s.media.begun) : s.Eases t where
  op d h := by unfold State.die at h ⊢; rwa [hd]
  retired p h := by rwa [hr]
  prog d k := by unfold State.group; rw [hg]
  begun := hb

theorem setMedia_eases (s : State) {f : Media → Media} (hd : ∀ m, (f m).dies = m.dies) (hr : ∀ m, (f m).retired = m.retired)
    (hg : ∀ m, (f m).groups = m.groups) (hb : ∀ m, (f m).begun = m.begun) : s.Eases (s.setMedia f) := eases_of_media (hd _) (hr _) (hg _) (hb _)

theorem eases_of_mask {P : List Part} (h : .media ∉ P) (e : t.mask P = s.mask P) : s.Eases t :=
  eases_of_media (congrArg Media.dies (media_of_mask h e)) (congrArg Media.retired (media_of_mask h e)) (congrArg Media.groups (media_of_mask h e))
    (congrArg Media.begun (media_of_mask h e))

theorem event_eases (s : State) (code cls f : Nat) (x : List (Nat × Nat × Nat)) : s.Eases (s.event code cls f x) :=
  eases_of_mask (by decide) (event_mask (List.Subset.refl _) code cls f x)

theorem setDie_eases {f : Die → Die} (h : (s.die d).op = none → (f (s.die d)).op = none) : s.Eases (s.setDie d f) where
  op e he := by
    by_cases hde : dieNo e = dieNo d
    · have hsame : ∀ u : State, u.die e = u.die d := fun u => congrArg (lookD u.media.dies Die.fresh) hde
      rw [hsame, die_setDie_same]
      exact h (by rw [← hsame]; exact he)
    · rwa [die_setDie_other f hde]
  retired _ h := h
  prog _ _ := rfl
  begun := rfl

theorem group_setGroup_other {d e : DieId} {k j : Nat} (f : Group → Group) (h : groupNo e j ≠ groupNo d k) : (s.setGroup d k f).group e j = s.group e j :=
  lookD_adjD_other s.media.groups Group.fresh Group.fresh f h

theorem setGroup_eases {k : Nat} {f : Group → Group} (h : (f (s.group d k)).prog = (s.group d k).prog) : s.Eases (s.setGroup d k f) where
  op _ h := h
  retired _ h := h
  begun := rfl
  prog e j := by
    by_cases hg : groupNo e j = groupNo d k
    · have hsame : ∀ u : State, u.group e j = u.group d k := fun u => congrArg (lookD u.media.groups Group.fresh) hg
      rw [hsame, hsame, group_setGroup_same, h]
    · rw [group_setGroup_other f hg]

/-! ### The operations that care for the media -/

theorem noteMaps_eases (s : State) : s.Eases s.noteMaps := eases_of_media rfl rfl rfl rfl

theorem journalRec_eases (s : State) (k : Nat) : s.Eases (s.journalRec k) := eases_of_media rfl rfl rfl rfl

theorem setWard_eases (s : State) (w : Nat) (f : Ward → Ward) : s.Eases (s.setWard w f) := eases_of_media rfl rfl rfl rfl

theorem setSlot_eases (s : State) (n : Nat) (u : SlotUse) : s.Eases (s.setSlot n u) := eases_of_media rfl rfl rfl rfl

theorem setBlock_eases (s : State) (d : DieId) (p k b : Nat) : s.Eases (s.setBlock d p k b) := eases_of_media rfl rfl rfl rfl

theorem setMem_eases (s : State) (w row i : Nat) (f : Mem → Mem) : s.Eases (s.setMem w row i f) := eases_of_media rfl rfl rfl rfl

theorem wearEv_eases (s : State) (w : Nat) (k : WearKind) (n : Nat) : s.Eases (s.wearEv w k n) := eases_of_media rfl rfl rfl rfl

theorem wearBlock_eases (s : State) (p : Nat) : s.Eases (s.wearBlock p) := eases_of_media rfl rfl rfl rfl

theorem joinParity_eases (s : State) (n r i : Nat) : s.Eases (s.joinParity n r i) := eases_of_media rfl rfl rfl rfl

theorem staged_eases (s : State) (n : Nat) : s.Eases { s with staged := n } := eases_of_media rfl rfl rfl rfl

theorem queueParity_eases (s : State) (n r f : Nat) : s.Eases (s.queueParity n r f) := by
  refine Eases.foldl (fun s j => ?_) (List.range 4) s
  dsimp only
  split
  · exact eases_of_media rfl rfl rfl rfl
  · exact .refl s

theorem rowStep_eases (s : State) (n r f : Nat) : s.Eases (s.rowStep n r f) := by
  unfold State.rowStep
  split
  · exact queueParity_eases s n r f
  · exact .refl s

theorem leaveShares_eases (s : State) (w row i : Nat) (gone : List Work) : s.Eases (s.leaveShares w row i gone) := by
  unfold State.leaveShares
  refine State.Eases.trans ?_ (Eases.foldl (fun s x => (joinParity_eases s _ _ _).trans (rowStep_eases _ _ _ _)) _ _)
  exact staged_eases s _

theorem redirect_eases (s : State) (d : DieId) (w row i : Nat) (gone : List Work) : s.Eases (s.redirect d w row i gone) :=
  eases_of_media rfl rfl rfl rfl

theorem moveChan_eases (s : State) (n : Nat) (st : ChanState) : s.Eases (s.moveChan n st) := by
  unfold State.moveChan
  split
  · exact .refl s
  · refine State.Eases.trans ?_ (event_eases _ _ _ _ _)
    exact eases_of_media rfl rfl rfl rfl

theorem prepNext_eases (s : State) (w : Nat) : s.Eases (s.prepNext w) := by
  unfold State.prepNext
  dsimp only
  split
  · exact .refl s
  · split
    · refine State.Eases.trans (setDie_eases ?_) (setMedia_eases _ (fun _ => rfl) (fun _ => rfl) (fun _ => rfl) fun _ => rfl)
      exact fun h => h
    · exact .refl s

theorem called_eases (s : State) (d old : DieId) :
    s.Eases (if d.ch = 36 && (s.chan (dieChan d)).st = .spare && (s.chan (dieChan old)).st = .failed then s.moveChan (dieChan d) .inService else s) := by
  split
  · exact moveChan_eases s _ _
  · exact .refl s

theorem nameSpare_eases (s : State) (w row i : Nat) : s.Eases (s.nameSpare w row i) := by
  unfold State.nameSpare
  dsimp only
  split
  · exact (setMem_eases ..).trans (journalRec_eases ..)
  · next d shared _ =>
    refine State.Eases.trans ?_ ((journalRec_eases ..).trans (event_eases ..))
    generalize hnamed : State.setMem s w row i _ = m
    have hm : s.Eases m := by rw [← hnamed]; exact setMem_eases ..
    refine State.Eases.trans (t := (m.setDie d fun x => { x with cellarFree := 0 }).prepNext w)
      ((hm.trans (setDie_eases fun h => h)).trans (prepNext_eases _ w)) ?_
    exact called_eases _ d (s.mem w row i).die

theorem failDie_eases_idle (s : State) (d : DieId) (cause : Nat) : s.Eases (s.failDie d cause) ∧
    ((s.die d).failed = false → ((s.failDie d cause).die d).op = none) := by
  unfold State.failDie
  dsimp only
  split
  case isTrue h => exact ⟨.refl s, fun hf => absurd h (by simp [hf])⟩
  case isFalse =>
    generalize hgone : ((s.media.work.filter fun w => w.die = d) ++ ((s.die d).op.map (·.work)).toList) = gone
    have hset : s.Eases (s.setDie d fun x => { x with failed := true, op := none }) := setDie_eases fun _ => rfl
    have hidle : ((s.setDie d fun x => { x with failed := true, op := none }).die d).op = none := by rw [die_setDie_same]
    have hrest : ∀ u : State, (s.setDie d fun x => { x with failed := true, op := none }).Eases u →
        s.Eases u ∧ ((s.die d).failed = false → (u.die d).op = none) := fun u hu => ⟨hset.trans hu, fun _ => hu.op d hidle⟩
    refine hrest _ ?_
    generalize (s.setDie d fun x => { x with failed := true, op := none }) = m
    have hclear : m.Eases ((m.setMedia fun x => x.clearDie d).event 0x0020 3 0 (dieDetail d 32 ++ [(35, 1, cause)])) :=
      (setMedia_eases m (f := fun x => x.clearDie d) (fun _ => rfl) (fun _ => rfl) (fun _ => rfl) fun _ => rfl).trans (event_eases ..)
    split
    · next w row i _ =>
      refine State.Eases.trans ?_ ((redirect_eases ..).trans (leaveShares_eases ..))
      exact hclear.trans (nameSpare_eases _ w row i)
    · exact hclear

theorem failDie_eases (s : State) (d : DieId) (cause : Nat) : s.Eases (s.failDie d cause) := (failDie_eases_idle s d cause).1

theorem retirePhys_eases (s : State) (d : DieId) (p b : Nat) : s.Eases (s.retirePhys d p b) ∧ planeKey d p b ∈ (s.retirePhys d p b).media.retired := by
  unfold State.retirePhys
  dsimp only
  split
  case isTrue h => exact ⟨.refl s, by simpa using h⟩
  case isFalse =>
    have hadd : s.Eases (s.setMedia fun m => { m with retired := planeKey d p b :: m.retired }) :=
      ⟨fun _ h => h, fun _ h => List.mem_cons_of_mem _ h, fun _ _ => rfl, rfl⟩
    have hin : planeKey d p b ∈ (s.setMedia fun m => { m with retired := planeKey d p b :: m.retired }).media.retired := List.mem_cons_self ..
    generalize (s.setMedia fun m => { m with retired := planeKey d p b :: m.retired }) = m at hadd hin
    have hrest : ∀ u : State, m.Eases u → s.Eases u ∧ planeKey d p b ∈ u.media.retired := fun u hu => ⟨hadd.trans hu, hu.retired _ hin⟩
    refine hrest _ ?_
    have hlist : m.Eases ((m.setDie d fun x => x.unlist (pbOf p b)).setDie d fun x =>
        { x with retiredAt := (m.setDie d fun x => x.unlist (pbOf p b)).poweredNs ::
          (x.retiredAt.filter fun t => (m.setDie d fun x => x.unlist (pbOf p b)).poweredNs < t + dayNs) }) :=
      (setDie_eases fun h => h).trans (setDie_eases fun h => h)
    split
    · refine State.Eases.trans ?_ (failDie_eases _ d 2)
      exact (hlist.trans (wearEv_eases ..)).trans (eases_of_media rfl rfl rfl rfl)
    · exact (hlist.trans (wearEv_eases ..)).trans (eases_of_media rfl rfl rfl rfl)

theorem retires_all (d : DieId) (p : Nat) (l : List (Nat × Nat)) (s : State) (e : Nat × Nat) (he : e ∈ l) :
    planeKey d p e.2 ∈ (l.foldl (fun s e => s.retirePhys d p e.2) s).media.retired := by
  induction l generalizing s with
  | nil => cases he
  | cons a l ih =>
    obtain rfl | he := List.mem_cons.1 he
    · exact (Eases.foldl (fun s (e : Nat × Nat) => (retirePhys_eases s d p e.2).1) l _).retired _ (retirePhys_eases s d p e.2).2
    · exact ih _ he

theorem retireBlock_eases (s : State) (d : DieId) (p k : Nat) : s.Eases (s.retireBlock d p k) := (retirePhys_eases s d p _).1

/-- The block of a plane that a block group uses is retired. -/
theorem retireBlock_retires (s : State) (d : DieId) (p k : Nat) : s.phys d p k ∈ (s.retireBlock d p k).media.retired := (retirePhys_eases s d p _).2

theorem noSource_eases (s : State) (d : DieId) (k : Nat) : s.Eases (s.noSource d k) := by
  unfold State.noSource
  split
  · exact failDie_eases s d 3
  · split
    · exact .refl s
    · dsimp only
      refine State.Eases.trans ?_ (journalRec_eases ..)
      refine State.Eases.trans ?_ (leaveShares_eases ..)
      refine State.Eases.trans ?_ (setMedia_eases _ (fun _ => rfl) (fun _ => rfl) (fun _ => rfl) fun _ => rfl)
      exact setMem_eases ..

theorem capCheck_eases (s : State) : s.Eases s.capCheck := by
  unfold State.capCheck
  dsimp only
  refine State.Eases.trans ?_ (setMedia_eases _ (fun _ => rfl) (fun _ => rfl) (fun _ => rfl) fun _ => rfl)
  split
  · exact event_eases ..
  · exact .refl s

theorem second_of_some {α β : Type} {a a' : α} {b b' : β} (h : some (a, b) = some (a', b')) : b = b' := congrArg (·.2) (Option.some.inj h)

theorem poolBlock_eases {p b : Nat} (h : s.poolBlock d p = some (b, t)) : s.Eases t := by
  unfold State.poolBlock at h
  split at h
  · cases h
  · split at h
    · rw [← second_of_some h]
      exact eases_of_media rfl rfl rfl rfl
    · obtain ⟨k, -, hk⟩ := Option.map_eq_some_iff.1 h
      rw [← second_of_some (congrArg some hk)]
      exact eases_of_media rfl rfl rfl rfl

theorem drawPool_eases {p b : Nat} (h : s.drawPool d p = some (b, t)) : s.Eases t := by
  unfold State.drawPool at h
  dsimp only at h
  split at h
  · rw [← second_of_some h]
    exact eases_of_media rfl rfl rfl rfl
  · exact poolBlock_eases h

theorem taken_eases (s : State) (k : Nat) : s.Eases (s.setMedia fun m => { m with poolTaken := k :: m.poolTaken }) := eases_of_media rfl rfl rfl rfl

theorem drawFrom_eases {p b : Nat} {wet w : Bool} (h : s.drawFrom d p wet = some (b, w, t)) : s.Eases t := by
  unfold State.drawFrom at h
  split at h
  · next x hx =>
    obtain ⟨a, u⟩ := x
    rw [← third_of_some h]
    exact drawPool_eases hx
  · split at h
    · cases h
    · dsimp only at h
      split at h
      · rw [← third_of_some h]
        exact ((setSlot_eases ..).trans (taken_eases ..)).trans (capCheck_eases _)
      · split at h
        · cases h
        · split at h
          · rw [← third_of_some h]
            exact ((setSlot_eases ..).trans (taken_eases ..)).trans (setWard_eases ..)
          · cases h

theorem replaceBlock_eases (s : State) (d : DieId) (p k : Nat) : s.Eases (s.replaceBlock d p k) := by
  unfold State.replaceBlock
  split
  · next b wet v hdraw =>
    dsimp only
    have hset := (drawFrom_eases hdraw).trans ((setBlock_eases v d p k b).trans (journalRec_eases _ 2))
    split
    · refine State.Eases.trans ?_ (setMedia_eases _ (fun _ => rfl) (fun _ => rfl) (fun _ => rfl) fun _ => rfl)
      refine hset.trans ?_
      exact setGroup_eases rfl
    · exact hset
  · exact noSource_eases s d k

theorem clearShares_eases (s : State) (n : Nat) : s.Eases (s.clearShares n) := eases_of_media rfl rfl rfl rfl

theorem queueErase_eases (s : State) (n : Nat) : s.Eases (s.queueErase n) := by
  unfold State.queueErase
  dsimp only
  refine State.Eases.trans ?_ (setMedia_eases _ (fun _ => rfl) (fun _ => rfl) (fun _ => rfl) fun _ => rfl)
  refine State.Eases.trans ?_ (clearShares_eases ..)
  exact Eases.foldl (fun s d => setGroup_eases rfl) _ s

theorem endCopies_eases (s : State) (n : Nat) : s.Eases (s.endCopies n) := eases_of_media rfl rfl rfl rfl

theorem endMoves_eases (s : State) (n : Nat) : s.Eases (s.endMoves n) := by
  unfold State.endMoves
  dsimp only
  refine State.Eases.trans ?_ (Eases.foldl (fun s d => Eases.foldl (fun s p => ?_) (List.range 4) s) _ _)
  · refine State.Eases.trans ?_ (Eases.foldl (fun s (e : DieId × Nat × List Nat) => Eases.foldl (fun s p => retireBlock_eases s e.1 p _) e.2.2 s) _ _)
    refine State.Eases.trans ?_ (setMedia_eases _ (fun _ => rfl) (fun _ => rfl) (fun _ => rfl) fun _ => rfl)
    exact endCopies_eases s n
  · split
    · exact replaceBlock_eases s d p _
    · exact .refl s

theorem dropSlotWork_eases (s : State) (n : Nat) : s.Eases (s.dropSlotWork n) := by
  unfold State.dropSlotWork
  dsimp only
  refine State.Eases.trans ?_ (staged_eases _ _)
  exact setMedia_eases _ (fun _ => rfl) (fun _ => rfl) (fun _ => rfl) fun _ => rfl

theorem rand_eases (s : State) (r : Tab RUnit) : s.Eases { s with rand := r } := eases_of_media rfl rfl rfl rfl

theorem freeVictims_eases (s : State) (w : Nat) : s.Eases (s.freeVictims w) := by
  unfold State.freeVictims
  refine Eases.foldl (fun s n => ?_) _ s
  dsimp only
  have hgone : s.Eases (((({ s with rand := mapV (fun _ (u : RUnit) => if u.slot = n then { u with slot := noPlace, off := 0 } else u) s.rand
      } : State).dropSlotWork n).queueErase n).endMoves n |>.journalRec 0) :=
    (rand_eases s _).trans ((dropSlotWork_eases ..).trans ((queueErase_eases ..).trans ((endMoves_eases ..).trans (journalRec_eases ..))))
  generalize State.journalRec _ 0 = v at hgone ⊢
  have hback : ∀ (f : Media → Media) (g : Ward → Ward), (∀ m, (f m).dies = m.dies) → (∀ m, (f m).retired = m.retired) → (∀ m, (f m).groups = m.groups) →
      (∀ m, (f m).begun = m.begun) → s.Eases ((v.setMedia f).setWard w g) :=
    fun f g hd hr hg hb => hgone.trans ((setMedia_eases v hd hr hg hb).trans (setWard_eases _ w g))
  split
  · refine State.Eases.trans ?_ (journalRec_eases ..)
    refine State.Eases.trans ?_ (setSlot_eases ..)
    exact hback _ _ (fun _ => rfl) (fun _ => rfl) (fun _ => rfl) fun _ => rfl
  · exact hback _ _ (fun _ => rfl) (fun _ => rfl) (fun _ => rfl) fun _ => rfl

theorem copiesDone_eases (s : State) (w : Nat) : s.Eases (s.copiesDone w) := by
  unfold State.copiesDone
  dsimp only
  refine State.Eases.trans ?_ (freeVictims_eases _ w)
  refine State.Eases.trans ?_ (setMedia_eases _ (fun _ => rfl) (fun _ => rfl) (fun _ => rfl) fun _ => rfl)
  refine Eases.foldl (fun s c => ?_) _ s
  split
  · split
    · exact (rand_eases s _).trans ((journalRec_eases ..).trans (setWard_eases ..))
    · exact .refl s
  · exact .refl s

theorem writeRow_eases (s : State) (n r : Nat) (us : List StUnit) : s.Eases (s.writeRow n r us) := by
  unfold State.writeRow
  refine State.Eases.trans ?_ (Eases.foldl (fun s d => joinParity_eases s n r d) _ _)
  exact setMedia_eases _ (fun _ => rfl) (fun _ => rfl) (fun _ => rfl) fun _ => rfl

theorem health_eases (s : State) (h : Health) : s.Eases { s with health := h } := eases_of_media rfl rfl rfl rfl

theorem pwr_eases (s : State) (p : Pwr) : s.Eases { s with pwr := p } := eases_of_media rfl rfl rfl rfl

theorem copyLine_eases (s : State) (d : DieId) (k : Nat) : s.Eases (s.copyLine d k) := by
  unfold State.copyLine
  split
  · split
    · exact setMedia_eases _ (fun _ => rfl) (fun _ => rfl) (fun _ => rfl) fun _ => rfl
    · exact .refl s
  · exact .refl s

theorem opEnds_eases (s : State) (d : DieId) : s.Eases (s.opEnds d) ∧ ((s.opEnds d).die d).op = none := by
  unfold State.opEnds
  refine ⟨State.Eases.trans (setDie_eases fun _ => rfl) (setMedia_eases _ (fun _ => rfl) (fun _ => rfl) (fun _ => rfl) fun _ => rfl), ?_⟩
  change ((s.setDie d fun x => { x with op := none }).die d).op = none
  rw [die_setDie_same]

/-! ### What leaves an idle die idle and a retired block retired -/

/-- No operation begins on an idle die, and no block leaves the retired ones. -/
structure State.Rests (s t : State) : Prop where
  op : ∀ d, (s.die d).op = none → (t.die d).op = none
  retired : ∀ p ∈ s.media.retired, p ∈ t.media.retired

theorem State.Eases.rests (h : s.Eases t) : s.Rests t := ⟨h.op, h.retired⟩

theorem State.Rests.trans (h : s.Rests t) (k : t.Rests u) : s.Rests u :=
  ⟨fun d hd => k.op d (h.op d hd), fun p hp => k.retired p (h.retired p hp)⟩

theorem setMedia_rests (s : State) {f : Media → Media} (hd : ∀ m, (f m).dies = m.dies) (hr : ∀ m, (f m).retired = m.retired) :
    s.Rests (s.setMedia f) where
  op _ h := (congrArg (fun t => (lookD t Die.fresh _).op) (hd s.media)).trans h
  retired _ h := (hr s.media).symm ▸ h

theorem setGroup_rests (s : State) (d : DieId) (k : Nat) (f : Group → Group) : s.Rests (s.setGroup d k f) := ⟨fun _ h => h, fun _ h => h⟩

/-- A row of a ward's metadata slots written for a checkpoint. -/
def State.saveRow (s : State) (w cls : Nat) (us : List StUnit) (i : Nat) : State :=
  let r := (s.ward w).metaRow
  let n := metaSlot w (r / 512)
  let mine := (us.drop (2048 * i)).take 2048
  let s := s.writeRow n (r % 512) mine
  let s := s.setMedia fun m => { m with work := m.work ++ s.rowPrograms n (r % 512) ((mine.length + 63) / 64) cls .ckpt }
  let s := if r % 512 = 0 then s.queueErase (metaSlot w ((r / 512 + 1) % 64)) else s
  s.setWard w fun x => { x with metaRow := (r + 1) % 32768 }

/-- The rows of a ward's metadata slots written for a checkpoint. -/
def State.saveWard (s : State) (cls : Nat) (us : List StUnit) (w : Nat) : State := (List.range (metaRows us)).foldl (fun s i => s.saveRow w cls us i) s

/-- The state in which a checkpoint is under way, with no row of it written. -/
def State.ckptOpen (s : State) : State :=
  s.noteMaps.setMedia fun m => { m with
    ckpt := some s.noteMaps.bell.now, begun := m.begun + 1, saving := some (s.noteMaps.toSave, m.journal, m.recs.length) }

theorem ckptBegin_eq (s : State) (cls : Nat) : s.ckptBegin cls = (List.range 4).foldl
    (fun t w => t.saveWard cls (moduleUnits (s.noteMaps.media.recs.flatMap JRec.bytes) s.noteMaps.ledger) w) s.ckptOpen := rfl

theorem saveRow_eases (s : State) (w cls : Nat) (us : List StUnit) (i : Nat) : s.Eases (s.saveRow w cls us i) := by
  unfold State.saveRow
  dsimp only
  refine State.Eases.trans ?_ (setWard_eases _ _ _)
  split
  · refine State.Eases.trans ?_ (queueErase_eases _ _)
    refine State.Eases.trans ?_ (setMedia_eases _ (fun _ => rfl) (fun _ => rfl) (fun _ => rfl) fun _ => rfl)
    exact writeRow_eases s _ _ _
  · refine State.Eases.trans ?_ (setMedia_eases _ (fun _ => rfl) (fun _ => rfl) (fun _ => rfl) fun _ => rfl)
    exact writeRow_eases s _ _ _

theorem ckptBegin_rests (s : State) (cls : Nat) : s.Rests (s.ckptBegin cls) := by
  rw [ckptBegin_eq]
  refine State.Rests.trans (t := s.ckptOpen) ?_ (Eases.foldl (fun s w => Eases.foldl (fun s i => saveRow_eases s w cls _ i) _ s) _ _).rests
  exact (noteMaps_eases s).rests.trans (setMedia_rests _ (fun _ => rfl) fun _ => rfl)

theorem entryStep_rests (s : State) : s.Rests s.entryStep := by
  unfold State.entryStep
  split
  · exact (pwr_eases s _).rests.trans (ckptBegin_rests _ 5)
  · exact (State.Eases.refl s).rests

theorem streamParked_rests (s : State) (key : Nat) : s.Rests (s.streamParked key) := by
  unfold State.streamParked
  dsimp only
  split
  · exact (State.Eases.refl s).rests
  · refine State.Rests.trans ?_ (entryStep_rests _)
    refine State.Rests.trans ?_ (setMedia_rests _ (fun _ => rfl) fun _ => rfl)
    exact (staged_eases s _).rests

theorem programmed_rests (s : State) (d : DieId) (w : Work) : s.Rests (s.programmed d w) := setGroup_rests ..

theorem programmed_prog (s : State) (d : DieId) (w : Work) : ((s.programmed d w).group d w.slot).prog = w.wl + 1 := by
  unfold State.programmed
  rw [group_setGroup_same]

/-! ### A program that ends -/

/-- The state in which a program's die is free and its units are counted. -/
def State.programEnds (s : State) (d : DieId) : State :=
  { s.opEnds d with health := { (s.opEnds d).health with mediaUnits := (s.opEnds d).health.mediaUnits + 64 } }

theorem programEnds_rests (s : State) (d : DieId) : s.Rests (s.programEnds d) ∧ ((s.programEnds d).die d).op = none :=
  ⟨(opEnds_eases s d).1.rests.trans (health_eases (s.opEnds d) _).rests, (opEnds_eases s d).2⟩

theorem programComplete_eq {o : DieOp} (hwf : d.wf = true) (hop : (s.die d).op = some o) (hs : o.suspended = false) (ha : o.work.act = .program) :
    exec (.programComplete d) s = .next (s.programDone d o.work) := by
  change execProgramComplete d s = _
  unfold execProgramComplete State.endingOp
  rw [hwf, if_neg (by decide), hop]
  dsimp only
  rw [ha, hs]
  rfl

/-- The state in which a unit programmed from staging has left it. -/
def State.unitDone (s : State) (d : DieId) (w : Work) : State := { s.programEnds d with staged := (s.programEnds d).staged - 64 }.programmed d w

/-- What care of the media does past a program is neither to health nor to busy dies. -/
structure State.Tends (s t : State) : Prop extends s.Rests t where
  health : t.health = s.health

theorem State.Tends.trans (h : s.Tends t) (k : t.Tends u) : s.Tends u := ⟨h.toRests.trans k.toRests, k.health.trans h.health⟩

theorem State.Eases.tends {P : List Part} (h : s.Eases t) (hp : .health ∉ P) (e : t.mask P = s.mask P) : s.Tends t := ⟨h.rests, health_of_mask hp e⟩

theorem State.Tends.refl (s : State) : s.Tends s := ⟨(State.Eases.refl s).rests, rfl⟩

theorem programmed_tends (s : State) (d : DieId) (w : Work) : s.Tends (s.programmed d w) := ⟨programmed_rests s d w, rfl⟩

theorem unitDone_tends (s : State) (d : DieId) (w : Work) : (s.programEnds d).Tends (s.unitDone d w) :=
  State.Tends.trans (t := { s.programEnds d with staged := (s.programEnds d).staged - 64 }) ⟨(staged_eases _ _).rests, rfl⟩ (programmed_tends ..)

/-- A row of units joined by one more, which may complete it. -/
theorem rowJoined_tends (s : State) (n wl i f : Nat) : s.Tends ((s.joinParity n wl i).rowStep n wl f) :=
  ((joinParity_eases s n wl i).trans (rowStep_eases _ n wl f)).tends (P := [.media, .staged]) (by decide)
    ((rowStep_mask (by decide) _ _ _).trans (joinParity_mask (by decide) _ _ _))

theorem rowJoined_eases (s : State) (n wl i f : Nat) : s.Eases ((s.joinParity n wl i).rowStep n wl f) :=
  (joinParity_eases s n wl i).trans (rowStep_eases _ n wl f)

theorem copiesDone_tends (s : State) (w : Nat) : s.Tends (s.copiesDone w) :=
  (copiesDone_eases s w).tends (by decide) (copiesDone_mask (List.Subset.refl _) w)

/-- A unit programmed joins its row, unless its block group held old data. -/
def State.unitPlaced (s : State) (old : Bool) (d : DieId) (w : Work) : State :=
  match s.memberOf d with
  | some (a, b, i) =>
    if old then s
    else
      let v := (s.joinParity (slotNo a b w.slot) w.wl (symbolOf w.wl i)).rowStep (slotNo a b w.slot) w.wl w.tenant
      if v.slotUse (slotNo a b w.slot) = .random then v.copiesDone a else v
  | none => s

theorem unitPlaced_eases (s : State) (old : Bool) (d : DieId) (w : Work) : s.Eases (s.unitPlaced old d w) := by
  unfold State.unitPlaced
  split
  · split
    · exact .refl s
    · dsimp only
      split
      · exact (rowJoined_eases s _ _ _ _).trans (copiesDone_eases _ _)
      · exact rowJoined_eases s _ _ _ _
  · exact .refl s

theorem unitPlaced_tends (s : State) (old : Bool) (d : DieId) (w : Work) : s.Tends (s.unitPlaced old d w) := by
  unfold State.unitPlaced
  split
  · split
    · exact .refl s
    · dsimp only
      split
      · exact (rowJoined_tends s _ _ _ _).trans (copiesDone_tends _ _)
      · exact rowJoined_tends s _ _ _ _
  · exact .refl s

/-- A unit that completes no row of a zone's slot queues nothing. -/
theorem unitPlaced_staged {old : Bool} {w : Work} {a b i : Nat} (hmem : s.memberOf d = some (a, b, i)) (hfull : s.rowFull (slotNo a b w.slot) w.wl = false)
    (huse : s.slotUse (slotNo a b w.slot) ≠ .random) : (s.unitPlaced old d w).staged = s.staged := by
  have hrow : (s.joinParity (slotNo a b w.slot) w.wl (symbolOf w.wl i)).rowStep (slotNo a b w.slot) w.wl w.tenant =
      s.joinParity (slotNo a b w.slot) w.wl (symbolOf w.wl i) := by
    unfold State.rowStep
    rw [show (s.joinParity (slotNo a b w.slot) w.wl (symbolOf w.wl i)).rowFull (slotNo a b w.slot) w.wl = false from hfull]
    rfl
  unfold State.unitPlaced
  rw [hmem]
  dsimp only
  rw [hrow]
  split
  · rfl
  · rw [if_neg (show ¬ (s.joinParity (slotNo a b w.slot) w.wl (symbolOf w.wl i)).slotUse (slotNo a b w.slot) = .random from huse)]
    rfl

theorem programDone_host {w : Work} (hw : w.why = .host) :
    s.programDone d w = (s.unitDone d w).unitPlaced ((s.programEnds d).group d w.slot).dirty d w := by
  unfold State.programDone
  dsimp only
  rw [hw]
  rfl

theorem programDone_parity {w : Work} (hw : w.why = .parity) : s.programDone d w = s.unitDone d w := by
  unfold State.programDone
  dsimp only
  rw [hw]
  rfl

theorem programDone_rebuild {w : Work} {a b i : Nat} (hw : w.why = .rebuild) (hmem : s.memberOf d = some (a, b, i)) : s.programDone d w =
    (((s.programEnds d).programmed d w).setGroup d w.slot fun g => { g with blank := true }).setMem a b i fun m =>
      { m with cursor := some (w.slot, w.wl + 1) } := by
  have hm : (s.programEnds d).memberOf d = some (a, b, i) := hmem
  unfold State.programEnds at hm
  unfold State.programDone
  dsimp only
  rw [hw]
  dsimp only
  rw [hm]
  rfl

theorem setMedia_tends (s : State) {f : Media → Media} (hd : ∀ m, (f m).dies = m.dies) (hr : ∀ m, (f m).retired = m.retired) :
    s.Tends (s.setMedia f) := ⟨setMedia_rests s hd hr, rfl⟩

theorem setMem_tends (s : State) (w row i : Nat) (f : Mem → Mem) : s.Tends (s.setMem w row i f) := ⟨(setMem_eases ..).rests, rfl⟩

theorem setGroup_tends (s : State) (d : DieId) (k : Nat) (f : Group → Group) : s.Tends (s.setGroup d k f) := ⟨setGroup_rests .., rfl⟩

/-- However a program ends, its die stays free and its units are counted once. -/
theorem programDone_tends (s : State) (d : DieId) (w : Work) : (s.programEnds d).Tends (s.programDone d w) := by
  cases hw : w.why with
  | host =>
    rw [programDone_host hw]
    exact (unitDone_tends s d w).trans (unitPlaced_tends ..)
  | parity =>
    rw [programDone_parity hw]
    exact unitDone_tends s d w
  | rebuild =>
    cases hmem : s.memberOf d with
    | some p =>
      rw [programDone_rebuild hw hmem]
      exact (programmed_tends ..).trans ((setGroup_tends ..).trans (setMem_tends ..))
    | none =>
      have hm : (s.programEnds d).memberOf d = none := hmem
      unfold State.programEnds at hm
      unfold State.programDone
      dsimp only
      rw [hw]
      dsimp only
      rw [hm]
      exact .refl (s.programEnds d)
  | park key =>
    unfold State.programDone
    rw [hw]
    exact (programmed_tends (s.programEnds d) d w).trans ⟨streamParked_rests _ key, health_of_mask (by decide) (streamParked_mask (List.Subset.refl _) key)⟩
  | ckpt =>
    unfold State.programDone
    rw [hw]
    exact programmed_tends (s.programEnds d) d w
  | reloc =>
    unfold State.programDone
    rw [hw]
    refine State.Tends.trans ?_ ((copyLine_eases _ d w.slot).tends (by decide) (copyLine_mask (List.Subset.refl _) d w.slot))
    exact setMedia_tends (s.programEnds d) (fun _ => rfl) (fun _ => rfl)
  | cellar => unfold State.programDone; rw [hw]; exact .refl (s.programEnds d)
  | ladder a b c => unfold State.programDone; rw [hw]; exact .refl (s.programEnds d)
  | copy a => unfold State.programDone; rw [hw]; exact .refl (s.programEnds d)
  | share a b => unfold State.programDone; rw [hw]; exact .refl (s.programEnds d)
  | patrol a b => unfold State.programDone; rw [hw]; exact .refl (s.programEnds d)
  | reclaim a => unfold State.programDone; rw [hw]; exact .refl (s.programEnds d)
  | old a => unfold State.programDone; rw [hw]; exact .refl (s.programEnds d)
  | scan a b c => unfold State.programDone; rw [hw]; exact .refl (s.programEnds d)
  | internal => unfold State.programDone; rw [hw]; exact .refl (s.programEnds d)

theorem memberOf_congr (h : t.media.members = s.media.members) : t.memberOf = s.memberOf := by
  funext d
  unfold State.memberOf
  rw [h]

theorem slotUse_congr (h : t.media.slots = s.media.slots) : t.slotUse = s.slotUse := by
  funext n
  unfold State.slotUse
  rw [h]

theorem rowFull_congr (hs : t.slotUse = s.slotUse) (hz : t.zones = s.zones) (hr : t.media.raSlots = s.media.raSlots) : t.rowFull = s.rowFull := by
  funext n r
  unfold State.rowFull State.zone
  rw [hs, hz, hr]

/-- Members, slots and zones stand where they stood. -/
structure State.SamePlaces (s t : State) : Prop where
  members : t.media.members = s.media.members
  slots : t.media.slots = s.media.slots
  raSlots : t.media.raSlots = s.media.raSlots
  zones : t.zones = s.zones

theorem State.SamePlaces.trans (h : s.SamePlaces t) (k : t.SamePlaces u) : s.SamePlaces u :=
  ⟨k.members.trans h.members, k.slots.trans h.slots, k.raSlots.trans h.raSlots, k.zones.trans h.zones⟩

theorem setGroup_places (s : State) (d : DieId) (k : Nat) (f : Group → Group) : s.SamePlaces (s.setGroup d k f) := ⟨rfl, rfl, rfl, rfl⟩

/-- Where a die stands, and what its rows hold, does not rest on the unit's being done. -/
theorem unitDone_place (s : State) (d : DieId) (w : Work) : (s.unitDone d w).memberOf = s.memberOf ∧ (s.unitDone d w).rowFull = s.rowFull ∧
    (s.unitDone d w).slotUse = s.slotUse := by
  have hends : s.SamePlaces (s.programEnds d) := ⟨rfl, rfl, rfl, rfl⟩
  have hstaged : (s.programEnds d).SamePlaces { s.programEnds d with staged := (s.programEnds d).staged - 64 } := ⟨rfl, rfl, rfl, rfl⟩
  obtain ⟨hm, hs, hr, hz⟩ := (hends.trans hstaged).trans (setGroup_places _ d w.slot _)
  exact ⟨memberOf_congr hm, rowFull_congr (slotUse_congr hs) hz hr, slotUse_congr hs⟩

theorem programComplete_ends {o : DieOp} (hwf : d.wf = true) (hop : (s.die d).op = some o) (hs : o.suspended = false) (ha : o.work.act = .program) :
    ∃ t, exec (.programComplete d) s = .next t ∧ (t.die d).op = none ∧ t.health.mediaUnits = s.health.mediaUnits + 64 ∧
      (o.work.why = .host ∨ o.work.why = .parity → (t.group d o.work.slot).prog = o.work.wl + 1) ∧
      (o.work.why = .parity → t.staged = s.staged - 64) ∧
      ∀ a b i, s.memberOf d = some (a, b, i) →
        (o.work.why = .host → s.rowFull (slotNo a b o.work.slot) o.work.wl = false → s.slotUse (slotNo a b o.work.slot) ≠ .random →
          t.staged = s.staged - 64) ∧
        (o.work.why = .rebuild → (t.mem a b i).cursor = some (o.work.slot, o.work.wl + 1) ∧ (t.group d o.work.slot).prog = o.work.wl + 1) := by
  have htends := programDone_tends s d o.work
  have hidle := htends.op d (programEnds_rests s d).2
  have hunits : (s.programDone d o.work).health.mediaUnits = s.health.mediaUnits + 64 := by
    rw [htends.health]
    rfl
  refine ⟨_, programComplete_eq hwf hop hs ha, hidle, hunits, ?_, fun hw => ?_,
    fun a b i hmem => ⟨fun hw hfull huse => ?_, fun hw => ?_⟩⟩
  · rintro (hw | hw)
    · rw [programDone_host hw, (unitPlaced_eases ..).prog]
      exact programmed_prog ..
    · rw [programDone_parity hw]
      exact programmed_prog ..
  · rw [programDone_parity hw]
    rfl
  · obtain ⟨hplace, hrow, hslot⟩ := unitDone_place s d o.work
    rw [programDone_host hw]
    rw [← hplace] at hmem
    rw [← hrow] at hfull
    rw [← hslot] at huse
    exact unitPlaced_staged hmem hfull huse
  · rw [programDone_rebuild hw hmem, mem_setMem_same]
    refine ⟨rfl, ?_⟩
    rw [(setMem_eases ..).prog, group_setGroup_same]
    exact programmed_prog (s.programEnds d) d o.work

/-! ### A program that fails -/

theorem programFailure_eq {o : DieOp} {p : Nat} (hwf : d.wf = true) (hp : p < 4) (hop : (s.die d).op = some o) (hs : o.suspended = false)
    (ha : o.work.act = .program) : exec (.programFailure d p) s = .next (s.programFailed d o.work p) := by
  change execProgramFailure d p s = _
  unfold execProgramFailure State.endingOp
  rw [hwf, if_neg (by simp [hp]), hop]
  dsimp only
  rw [ha, hs]
  rfl

/-- A block group's blocks are retired and replaced. -/
theorem replaced_retires (s : State) (d : DieId) (p k : Nat) : s.Rests ((s.retireBlock d p k).replaceBlock d p k) ∧
    s.phys d p k ∈ ((s.retireBlock d p k).replaceBlock d p k).media.retired :=
  ⟨((retireBlock_eases ..).trans (replaceBlock_eases ..)).rests, (replaceBlock_eases ..).retired _ (retireBlock_retires ..)⟩

theorem rebuildFailed_retires (s : State) (d : DieId) (k p : Nat) : s.Rests (s.rebuildFailed d k p) ∧ s.phys d p k ∈ (s.rebuildFailed d k p).media.retired := by
  obtain ⟨hrests, hin⟩ := replaced_retires s d p k
  have hrest : ∀ u : State, ((s.retireBlock d p k).replaceBlock d p k).Rests u → s.Rests u ∧ s.phys d p k ∈ u.media.retired :=
    fun u hu => ⟨hrests.trans hu, hu.retired _ hin⟩
  unfold State.rebuildFailed
  dsimp only
  refine hrest _ ?_
  split
  · split
    · exact (State.Eases.refl _).rests
    · refine State.Rests.trans ?_ (setMedia_rests _ (fun _ => rfl) fun _ => rfl)
      exact (setMem_eases ..).rests.trans (setGroup_rests ..)
  · exact (State.Eases.refl _).rests

theorem queueRetire_eases (s : State) (d : DieId) (k : Nat) (l : List Nat) : s.Eases (s.queueRetire d k l) := eases_of_media rfl rfl rfl rfl

theorem relocFailed_retires (s : State) (d : DieId) (k p : Nat) : s.Rests (s.relocFailed d k p) ∧
    ∀ v b, s.media.moves.find? (fun v => decide (v.die = d) && decide (v.slot = k)) = some v → (p, b) ∈ v.fresh →
      planeKey d p b ∈ (s.relocFailed d k p).media.retired := by
  unfold State.relocFailed
  split
  · next hnone => exact ⟨(State.Eases.refl s).rests, fun v b hv => absurd (hnone.symm.trans hv) (by simp)⟩
  · next x hx =>
    dsimp only
    generalize hm : State.setMedia s _ = m
    have hset : s.Eases m := by rw [← hm]; exact setMedia_eases _ (fun _ => rfl) (fun _ => rfl) (fun _ => rfl) fun _ => rfl
    refine ⟨(hset.trans (Eases.foldl (fun s (e : Nat × Nat) => (retirePhys_eases s d p e.2).1) _ _)).rests, fun v b hv hin => ?_⟩
    obtain rfl := Option.some.inj (hx.symm.trans hv)
    exact retires_all d p (x.fresh.filter fun e => e.1 = p) m (p, b) (List.mem_filter.2 ⟨hin, by simp⟩)

end Sys2Proof.Machine
end

section
/-! Failed programs, erases, dies that do not answer, and the block groups of a rebuild (R265, R286, R297, R298, R301); the obligation on dies. -/

namespace Sys2Proof.Machine

variable {s t u : State} {d : DieId}

/-! ### A program that fails -/

theorem phys_congr (h : t.media.bmap = s.media.bmap) : t.phys = s.phys := by
  funext d p k
  unfold State.phys State.block
  rw [h]

/-- The units of a program over old data count as programmed and as gone. -/
def State.programLost (s : State) (d : DieId) (w : Work) : State := { s.programmed d w with staged := s.staged - w.units }

/-- The program is made again, in a block group that is to be relocated. -/
def State.programAgain (s : State) (d : DieId) (w : Work) : State := (s.setMedia fun m => { m with work := w :: m.work }).queueRetire d w.slot []

theorem programLost_rests (s : State) (d : DieId) (w : Work) : s.Rests (s.programLost d w) :=
  (programmed_rests ..).trans (staged_eases (s.programmed d w) _).rests

theorem programAgain_eases (s : State) (d : DieId) (w : Work) : s.Eases (s.programAgain d w) := by
  unfold State.programAgain
  refine State.Eases.trans ?_ (queueRetire_eases ..)
  exact setMedia_eases _ (fun _ => rfl) (fun _ => rfl) (fun _ => rfl) fun _ => rfl

theorem opEnds_phys (s : State) (d : DieId) : (s.opEnds d).phys = s.phys := phys_congr rfl

theorem programLost_phys (s : State) (d : DieId) (w : Work) : (s.programLost d w).phys = s.phys := phys_congr rfl

theorem programAgain_phys (s : State) (d : DieId) (w : Work) : (s.programAgain d w).phys = s.phys := phys_congr rfl

theorem programFailed_other {w : Work} {p : Nat} (hreloc : w.why ≠ .reloc) (hrebuild : w.why ≠ .rebuild) : s.programFailed d w p =
    if ((s.opEnds d).group d w.slot).dirty then (((s.opEnds d).programLost d w).retireBlock d p w.slot).replaceBlock d p w.slot
    else ((s.opEnds d).programAgain d w).retireBlock d p w.slot := by
  unfold State.programFailed
  dsimp only
  split
  · next h => exact absurd h hreloc
  · next h => exact absurd h hrebuild
  · rfl

theorem programFailed_retires (s : State) (d : DieId) (w : Work) (p : Nat) : (s.opEnds d).Rests (s.programFailed d w p) ∧
    (w.why ≠ .reloc → s.phys d p w.slot ∈ (s.programFailed d w p).media.retired) := by
  rw [← opEnds_phys s d]
  by_cases hreloc : w.why = .reloc
  · refine ⟨?_, fun h => absurd hreloc h⟩
    unfold State.programFailed
    rw [hreloc]
    exact (relocFailed_retires (s.opEnds d) d w.slot p).1
  by_cases hrebuild : w.why = .rebuild
  · obtain ⟨hrests, hin⟩ := rebuildFailed_retires (s.opEnds d) d w.slot p
    unfold State.programFailed
    rw [hrebuild]
    exact ⟨hrests, fun _ => hin⟩
  rw [programFailed_other hreloc hrebuild]
  split
  · obtain ⟨hrests, hin⟩ := replaced_retires ((s.opEnds d).programLost d w) d p w.slot
    rw [programLost_phys] at hin
    exact ⟨(programLost_rests ..).trans hrests, fun _ => hin⟩
  · have hin := retireBlock_retires ((s.opEnds d).programAgain d w) d p w.slot
    rw [programAgain_phys] at hin
    exact ⟨((programAgain_eases ..).trans (retireBlock_eases ..)).rests, fun _ => hin⟩

theorem programFailure_ends {o : DieOp} {p : Nat} (hwf : d.wf = true) (hp : p < 4) (hop : (s.die d).op = some o) (hs : o.suspended = false)
    (ha : o.work.act = .program) : ∃ t, exec (.programFailure d p) s = .next t ∧ (t.die d).op = none ∧
      (o.work.why ≠ .reloc → s.phys d p o.work.slot ∈ t.media.retired) ∧
      ∀ v b, o.work.why = .reloc → s.media.moves.find? (fun v => decide (v.die = d) && decide (v.slot = o.work.slot)) = some v →
        (p, b) ∈ v.fresh → planeKey d p b ∈ t.media.retired := by
  obtain ⟨hrests, hin⟩ := programFailed_retires s d o.work p
  refine ⟨_, programFailure_eq hwf hp hop hs ha, hrests.op d (opEnds_eases s d).2, hin, fun v b hw hv hb => ?_⟩
  unfold State.programFailed
  rw [hw]
  exact (relocFailed_retires (s.opEnds d) d o.work.slot p).2 v b hv hb

/-! ### An erase that ends or fails -/

/-- The block groups and their blocks are as they were. -/
def State.SameGroups (s t : State) : Prop := t.media.groups = s.media.groups ∧ t.media.bmap = s.media.bmap

theorem State.SameGroups.refl (s : State) : s.SameGroups s := ⟨rfl, rfl⟩

theorem State.SameGroups.trans (h : s.SameGroups t) (k : t.SameGroups u) : s.SameGroups u := ⟨k.1.trans h.1, k.2.trans h.2⟩

theorem SameGroups.foldl {α : Type} {f : State → α → State} (hf : ∀ s x, State.SameGroups s (f s x)) (l : List α) (s : State) :
    s.SameGroups (l.foldl f s) :=
  ⟨foldl_same (fun s => s.media.groups) (fun s x => (hf s x).1) l s, foldl_same (fun s => s.media.bmap) (fun s x => (hf s x).2) l s⟩

theorem setMedia_groups (s : State) {f : Media → Media} (hg : ∀ m, (f m).groups = m.groups) (hb : ∀ m, (f m).bmap = m.bmap) :
    s.SameGroups (s.setMedia f) := ⟨hg _, hb _⟩

theorem joinParity_groups (s : State) (n r d : Nat) : s.SameGroups (s.joinParity n r d) := ⟨rfl, rfl⟩

theorem writeRow_groups (s : State) (n r : Nat) (us : List StUnit) : s.SameGroups (s.writeRow n r us) := by
  unfold State.writeRow
  refine State.SameGroups.trans ?_ (SameGroups.foldl (fun s d => joinParity_groups s n r d) _ _)
  exact setMedia_groups s (fun _ => rfl) fun _ => rfl

theorem setWard_groups (s : State) (w : Nat) (f : Ward → Ward) : s.SameGroups (s.setWard w f) := ⟨rfl, rfl⟩

theorem park_groups (s : State) (w key m o : Nat) : s.SameGroups (s.park w key m o) := by
  unfold State.park
  split
  · exact .refl s
  · split
    · exact .refl s
    · refine State.SameGroups.trans ?_ (setWard_groups _ _ _)
      refine State.SameGroups.trans ?_ (setMedia_groups _ (fun _ => rfl) fun _ => rfl)
      exact writeRow_groups s _ _ _

theorem park_eases (s : State) (w key m o : Nat) : s.Eases (s.park w key m o) := by
  unfold State.park
  split
  · exact .refl s
  · split
    · exact .refl s
    · refine State.Eases.trans ?_ (setWard_eases _ _ _)
      refine State.Eases.trans ?_ (setMedia_eases _ (fun _ => rfl) (fun _ => rfl) (fun _ => rfl) fun _ => rfl)
      exact writeRow_eases s _ _ _

theorem replanParks_eases (s : State) : s.Eases s.replanParks := by
  unfold State.replanParks
  refine Eases.foldl (fun s e => ?_) _ s
  split
  · exact park_eases ..
  · exact .refl s

theorem replanParks_groups (s : State) : s.SameGroups s.replanParks := by
  unfold State.replanParks
  refine SameGroups.foldl (fun s e => ?_) _ s
  split
  · exact park_groups ..
  · exact .refl s

theorem wearBlocks_eases {α : Type} (f : State → α → Nat) (l : List α) (s : State) : s.Eases (l.foldl (fun s p => s.wearBlock (f s p)) s) :=
  Eases.foldl (fun s p => wearBlock_eases s (f s p)) l s

theorem cellarReady_eases (s : State) (d : DieId) : s.Eases (s.cellarReady d) := by
  unfold State.cellarReady
  refine State.Eases.trans ?_ (prepNext_eases ..)
  exact (wearBlock_eases s (s.phys d 0 3071)).trans (setDie_eases fun h => h)

/-- A block group erased, with its parking slot filled again. -/
def State.groupErased (s : State) (d : DieId) (k : Nat) : State :=
  ((List.range 4).foldl (fun s p => s.wearBlock (s.phys d p k)) s).setGroup d k fun _ => Group.fresh

/-- The block groups of a parking slot are planned for again once erased. -/
def State.slotErased (s : State) (d : DieId) (k : Nat) : State :=
  match s.slotOf d k with
  | some n => if s.slotUse n = .parking then s.replanParks else s
  | none => s

theorem slotErased_eases (s : State) (d : DieId) (k : Nat) : s.Eases (s.slotErased d k) ∧ s.SameGroups (s.slotErased d k) := by
  unfold State.slotErased
  split
  · split
    · exact ⟨replanParks_eases s, replanParks_groups s⟩
    · exact ⟨.refl s, .refl s⟩
  · exact ⟨.refl s, .refl s⟩

theorem groupErased_fresh (s : State) (d : DieId) (k : Nat) : s.Rests (s.groupErased d k) ∧ (s.groupErased d k).group d k = Group.fresh := by
  unfold State.groupErased
  exact ⟨(wearBlocks_eases (fun s p => s.phys d p k) _ s).rests.trans (setGroup_rests ..), group_setGroup_same ..⟩

theorem eraseDone_group {w : Work} (h : (∀ bs, w.why ≠ .old bs) ∧ w.why ≠ .cellar) :
    s.eraseDone d w = ((s.opEnds d).groupErased d w.slot).slotErased d w.slot := by
  obtain ⟨hold, hcellar⟩ := h
  unfold State.eraseDone
  dsimp only
  split
  · next bs hw => exact absurd hw (hold bs)
  · next hw => exact absurd hw hcellar
  · rfl

theorem eraseDone_rests (s : State) (d : DieId) (w : Work) : (s.opEnds d).Rests (s.eraseDone d w) := by
  by_cases hold : ∃ bs, w.why = .old bs
  · obtain ⟨bs, hw⟩ := hold
    unfold State.eraseDone
    rw [hw]
    refine State.Rests.trans (wearBlocks_eases (fun _ (b : Nat × Nat) => planeKey d b.1 b.2) bs (s.opEnds d)).rests ?_
    exact setMedia_rests _ (fun _ => rfl) fun _ => rfl
  by_cases hcellar : w.why = .cellar
  · unfold State.eraseDone
    rw [hcellar]
    exact (cellarReady_eases (s.opEnds d) d).rests
  rw [eraseDone_group ⟨fun bs h => hold ⟨bs, h⟩, hcellar⟩]
  exact (groupErased_fresh ..).1.trans (slotErased_eases ..).1.rests

theorem isGroup_of_internal {w : Work} (hw : w.why = .internal) : (∀ bs, w.why ≠ .old bs) ∧ w.why ≠ .cellar := by
  rw [hw]
  exact ⟨nofun, nofun⟩

theorem groupErased_phys (s : State) (d : DieId) (k : Nat) : (s.groupErased d k).phys = s.phys := by
  refine phys_congr ?_
  unfold State.groupErased
  exact foldl_same (f := fun s p => s.wearBlock (s.phys d p k)) (fun s => s.media.bmap) (fun _ _ => rfl) (List.range 4) s

theorem eraseDone_phys {w : Work} (hw : w.why = .internal) : (s.eraseDone d w).phys = s.phys := by
  rw [eraseDone_group (isGroup_of_internal hw), phys_congr (slotErased_eases ..).2.2, groupErased_phys]
  exact phys_congr rfl

theorem eraseFailed_retires (s : State) (d : DieId) (w : Work) (p : Nat) : (s.opEnds d).Rests (s.eraseFailed d w p) ∧
    (w.why = .internal → s.phys d p w.slot ∈ (s.eraseFailed d w p).media.retired) := by
  by_cases hold : ∃ bs, w.why = .old bs
  · obtain ⟨bs, hw⟩ := hold
    refine ⟨?_, fun h => by rw [hw] at h; cases h⟩
    unfold State.eraseFailed
    rw [hw]
    exact (eraseDone_rests s d _).trans (Eases.foldl (fun s (b : Nat × Nat) => (retirePhys_eases s d p b.2).1) _ _).rests
  have hfails : s.eraseFailed d w p = ((s.eraseDone d w).retireBlock d p w.slot).replaceBlock d p w.slot := by
    unfold State.eraseFailed
    dsimp only
    split
    · next bs hw => exact absurd ⟨bs, hw⟩ hold
    · rfl
  obtain ⟨hrests, hin⟩ := replaced_retires (s.eraseDone d w) d p w.slot
  rw [hfails]
  refine ⟨(eraseDone_rests s d w).trans hrests, fun hw => ?_⟩
  rw [← eraseDone_phys hw]
  exact hin

theorem eraseComplete_ends {o : DieOp} (hwf : d.wf = true) (hop : (s.die d).op = some o) (hs : o.suspended = false) (ha : o.work.act = .erase) :
    ∃ t, exec (.eraseComplete d) s = .next t ∧ (t.die d).op = none ∧ (o.work.why = .internal → t.group d o.work.slot = Group.fresh) := by
  refine ⟨s.eraseDone d o.work, ?_, (eraseDone_rests s d o.work).op d (opEnds_eases s d).2, fun hw => ?_⟩
  · change execEraseComplete d s = _
    unfold execEraseComplete State.endingOp
    rw [hwf, if_neg (by decide), hop]
    dsimp only
    rw [ha, hs]
    rfl
  · rw [eraseDone_group (isGroup_of_internal hw)]
    unfold State.group
    rw [(slotErased_eases ..).2.1]
    exact (groupErased_fresh ..).2

theorem eraseFailure_ends {o : DieOp} {p : Nat} (hwf : d.wf = true) (hp : p < 4) (hop : (s.die d).op = some o) (hs : o.suspended = false)
    (ha : o.work.act = .erase) : ∃ t, exec (.eraseFailure d p) s = .next t ∧ (t.die d).op = none ∧
      (o.work.why = .internal → s.phys d p o.work.slot ∈ t.media.retired) := by
  have hrun : exec (.eraseFailure d p) s = .next (s.eraseFailed d o.work p) := by
    change execEraseFailure d p s = _
    unfold execEraseFailure State.endingOp
    rw [hwf, if_neg (by simp [hp]), hop]
    dsimp only
    rw [ha, hs]
    rfl
  obtain ⟨hrests, hin⟩ := eraseFailed_retires s d o.work p
  exact ⟨_, hrun, hrests.op d (opEnds_eases s d).2, hin⟩

/-! ### A die that does not answer -/

theorem moveChan_logs {n : Nat} {r : Bytes} (h : s.Logs n r) (hn : n < 8000) (c : Nat) (st : ChanState) :
    (s.moveChan c st).Logs (n + 1) r ∧ (s.moveChan c st).when = s.when := by
  unfold State.moveChan
  split
  · exact ⟨h.mono (Nat.le_succ n), rfl⟩
  · refine ⟨State.Logs.event ?_ hn .., event_when ..⟩
    exact h.of_eq rfl

theorem nameSpare_logs {n : Nat} {r : Bytes} (h : s.Logs n r) (hn : n < 7000) (w row i : Nat) :
    (s.nameSpare w row i).Logs (n + 2) r ∧ (s.nameSpare w row i).when = s.when := by
  unfold State.nameSpare
  dsimp only
  split
  · exact ⟨(h.of_eq rfl).mono (by omega), rfl⟩
  · next d shared _ =>
    generalize hnamed : State.setMem s w row i _ = m
    have hm : (m.setDie d fun x => { x with cellarFree := 0 }).mask [.media] = s.mask [.media] := by
      rw [← hnamed]
      exact (setDie_mask (by decide) d _).trans (setMem_mask (by decide) w row i _)
    have hprep := (prepNext_mask (s := m.setDie d fun x => { x with cellarFree := 0 }) (List.Subset.refl _) w).trans hm
    generalize (m.setDie d fun x => { x with cellarFree := 0 }).prepNext w = v at hprep
    have hv : v.Logs n r := h.of_eq (events_of_mask (by decide) hprep)
    have hwhen : v.when = s.when := when_of_mask (by decide) hprep
    have hcalled : ∀ x, x = (if d.ch = 36 && (v.chan (dieChan d)).st = .spare && (v.chan (dieChan (s.mem w row i).die)).st = .failed then
        v.moveChan (dieChan d) .inService else v) → x.Logs (n + 1) r ∧ x.when = s.when := by
      rintro x rfl
      split
      · obtain ⟨hl, hw⟩ := moveChan_logs hv (by omega) (dieChan d) .inService
        exact ⟨hl, hw.trans hwhen⟩
      · exact ⟨hv.mono (Nat.le_succ n), hwhen⟩
    obtain ⟨hl, hw⟩ := hcalled _ rfl
    generalize (if d.ch = 36 && (v.chan (dieChan d)).st = .spare && (v.chan (dieChan (s.mem w row i).die)).st = .failed then
        v.moveChan (dieChan d) .inService else v) = x at hl hw ⊢
    have hrec : (x.journalRec 3).Logs (n + 1) r := hl.of_eq (events_of_mask (by decide) (journalRec_mask (List.Subset.refl _) 3))
    exact ⟨hrec.event (by omega) .., (event_when ..).trans ((when_of_mask (by decide) (journalRec_mask (List.Subset.refl _) 3)).trans hw)⟩

theorem failDie_raised (cause : Nat) (hf : (s.die d).failed = false) : Raised (s.failDie d cause) 0x0020 3 0 (dieDetail d 32 ++ [(35, 1, cause)]) := by
  unfold State.failDie
  dsimp only
  rw [if_neg (by simp [hf])]
  generalize hgone : ((s.media.work.filter fun w => w.die = d) ++ ((s.die d).op.map (·.work)).toList) = gone
  generalize hcleared : State.setMedia (s.setDie d _) _ = m
  have hlogs := event_logs m 0x0020 3 0 (dieDetail d 32 ++ [(35, 1, cause)])
  have hwhen := event_when m 0x0020 3 0 (dieDetail d 32 ++ [(35, 1, cause)])
  generalize State.event m 0x0020 3 0 (dieDetail d 32 ++ [(35, 1, cause)]) = e at hlogs hwhen
  split
  · next w row i _ =>
    obtain ⟨hl, hw⟩ := nameSpare_logs hlogs (by decide) w row i
    have hmask := (leaveShares_mask (s := (e.nameSpare w row i).redirect d w row i gone) (List.Subset.refl _) w row i gone).trans
      (redirect_mask (by decide) d w row i gone)
    exact (hl.of_eq (events_of_mask (by decide) hmask)).raised ((when_of_mask (by decide) hmask).trans (hw.trans hwhen))
  · exact hlogs.raised hwhen

theorem dieNoResponse_fails (hwf : d.wf = true) (hf : (s.die d).failed = false) : ∃ t, exec (.dieNoResponse d) s = .next t ∧
    (t.die d).failed = true ∧ (t.die d).op = none ∧ Raised t 0x0020 3 0 (dieDetail d 32 ++ [(35, 1, 1)]) := by
  refine ⟨s.failDie d 1, ?_, (failDie_keeps_failed s d 1).2, (failDie_eases_idle s d 1).2 hf, ?_⟩
  · change execDieNoResponse d s = _
    unfold execDieNoResponse
    rw [hwf, if_neg (by decide)]
  · exact failDie_raised 1 hf

/-! ### The block groups of a rebuild (R301) -/

theorem rebuilt_ends {m : Member} (s : State) : ((s.rebuilt m).mem m.ward m.row m.idx).rebuilding = false ∧
    Raised (s.rebuilt m) 0x0022 1 0 (dieDetail (s.mem m.ward m.row m.idx).die 32) := by
  unfold State.rebuilt
  dsimp only
  refine ⟨?_, event_raised ..⟩
  have hset := mem_setMem_same s m.ward m.row m.idx fun x => { x with rebuilding := false, passed := [], cursor := none, lineLeft := 0 }
  generalize State.setMem s m.ward m.row m.idx _ = v at hset ⊢
  have hmem : ((v.journalRec 3).event 0x0022 1 0 (dieDetail (s.mem m.ward m.row m.idx).die 32)).mem m.ward m.row m.idx = v.mem m.ward m.row m.idx := by
    unfold State.mem
    rw [event_media]
    rfl
  rw [hmem, hset]

/-- A block group passed, with the rebuild at its next. -/
def State.groupPassed (s : State) (m : Member) (k : Nat) : State :=
  (s.setMem m.ward m.row m.idx fun x => { x with passed := k :: x.passed, cursor := none }).journalRec 3

theorem groupPassed_mem (s : State) (m : Member) (k : Nat) : (s.groupPassed m k).mem m.ward m.row m.idx =
    { s.mem m.ward m.row m.idx with passed := k :: (s.mem m.ward m.row m.idx).passed, cursor := none } :=
  mem_setMem_same s m.ward m.row m.idx fun x => { x with passed := k :: x.passed, cursor := none }

theorem blockGroupPass_passes {m : Member} {k n : Nat} (hwf : m.wf = true) (hre : (s.mem m.ward m.row m.idx).rebuilding = true)
    (hat : s.rebuildAt m = some (k, n)) (hn : s.linesOf m.ward m.row m.idx k ≤ n) (hleft : (s.mem m.ward m.row m.idx).lineLeft = 0) :
    ∃ t, exec (.blockGroupPass m) s = .next t ∧
      ((t.mem m.ward m.row m.idx).rebuilding = true → k ∈ (t.mem m.ward m.row m.idx).passed) := by
  refine ⟨if ((s.groupPassed m k).rebuildAt m).isNone then (s.groupPassed m k).rebuilt m else s.groupPassed m k, ?_, fun h => ?_⟩
  · change execBlockGroupPass m s = _
    unfold execBlockGroupPass
    rw [hwf, if_neg (by decide), hre, if_neg (by decide), hat]
    dsimp only
    rw [if_neg (by simp [hn, hleft])]
    rfl
  · split at h
    · rw [(rebuilt_ends (s.groupPassed m k)).1] at h
      cases h
    · next hnext =>
      rw [if_neg hnext, groupPassed_mem]
      exact List.mem_cons_self ..

theorem blockGroupPass_ends {m : Member} (hwf : m.wf = true) (hre : (s.mem m.ward m.row m.idx).rebuilding = true) (hat : s.rebuildAt m = none) :
    ∃ t, exec (.blockGroupPass m) s = .next t ∧ (t.mem m.ward m.row m.idx).rebuilding = false ∧
      Raised t 0x0022 1 0 (dieDetail (s.mem m.ward m.row m.idx).die 32) := by
  refine ⟨s.rebuilt m, ?_, rebuilt_ends s⟩
  change execBlockGroupPass m s = _
  unfold execBlockGroupPass
  rw [hwf, if_neg (by decide), hre, if_neg (by decide), hat]

/-- Settles O56. -/
theorem dies : Obligations.Dies := by
  unfold Obligations.Dies
  refine ⟨fun s d hwf => ⟨fun x y w row m hend hmem hroom u r i c hy hc => ⟨fun hx himg hw => ?_, fun hx hnone => ?_⟩, fun xs y hend hroom hy => ?_,
    fun o hop hs => ⟨fun ha => ⟨programComplete_ends hwf hop hs ha, fun p hp => programFailure_ends hwf hp hop hs ha⟩,
      fun ha => ⟨eraseComplete_ends hwf hop hs ha, fun p hp => eraseFailure_ends hwf hp hop hs ha⟩⟩, dieNoResponse_fails hwf⟩,
    fun s m hwf hre => ⟨fun k n hat => ⟨fun hn hleft hop hwork hdirty hprep hfree => ?_, fun hn hleft => ?_⟩, fun hat => ?_⟩⟩
  · obtain ⟨t, he, hslices, hreads, hmore, hlast⟩ := arrayRead_serves hwf hend hmem hroom hy hc hx himg hw
    exact ⟨t, he, hslices, hreads, hmore, fun q k h1 hrun hbad hq hk _ hwait => hlast q k h1 hrun hbad hq hk hwait⟩
  · exact arrayRead_reconstructs hwf hend hmem hroom hy hx hnone
  · exact arrayRead_waits hwf hend hroom hy
  · exact rebuildWordLine_opens hwf hre hat hn hleft hop hwork hdirty hprep hfree
  · exact blockGroupPass_passes hwf hre hat hn hleft
  · exact blockGroupPass_ends hwf hre hat

end Sys2Proof.Machine
end

section
/-! Checkpoints begin and end, patrol and retention reads are planned, parkings end, and held slots are released (R240, R285, R286, R290, R296,
R334, R343, R531). -/

namespace Sys2Proof.Machine

variable {s t u : State} {d : DieId}

/-! ### A checkpoint begins -/

/-- What a checkpoint is under way with is as it was. -/
structure State.SameCkpt (s t : State) : Prop where
  ckpt : t.media.ckpt = s.media.ckpt
  begun : t.media.begun = s.media.begun
  saving : t.media.saving = s.media.saving

theorem State.SameCkpt.trans (h : s.SameCkpt t) (k : t.SameCkpt u) : s.SameCkpt u :=
  ⟨k.ckpt.trans h.ckpt, k.begun.trans h.begun, k.saving.trans h.saving⟩

/-- The wards are as they were, and a checkpoint under way too. -/
structure State.SameWards (s t : State) : Prop extends s.SameCkpt t where
  wards : t.media.wards = s.media.wards

theorem State.SameWards.refl (s : State) : s.SameWards s := ⟨⟨rfl, rfl, rfl⟩, rfl⟩

theorem State.SameWards.trans (h : s.SameWards t) (k : t.SameWards u) : s.SameWards u := ⟨h.toSameCkpt.trans k.toSameCkpt, k.wards.trans h.wards⟩

theorem SameWards.foldl {α : Type} {f : State → α → State} (hf : ∀ s x, State.SameWards s (f s x)) (l : List α) (s : State) : s.SameWards (l.foldl f s) := by
  induction l generalizing s with
  | nil => exact .refl s
  | cons x l ih => exact (hf s x).trans (ih _)

theorem joinParity_wards (s : State) (n r d : Nat) : s.SameWards (s.joinParity n r d) := ⟨⟨rfl, rfl, rfl⟩, rfl⟩

theorem setGroup_wards (s : State) (d : DieId) (k : Nat) (f : Group → Group) : s.SameWards (s.setGroup d k f) := ⟨⟨rfl, rfl, rfl⟩, rfl⟩

theorem addWork_wards (s : State) (l : List Work) : s.SameWards (s.setMedia fun m => { m with work := m.work ++ l }) := ⟨⟨rfl, rfl, rfl⟩, rfl⟩

theorem clearShares_wards (s : State) (n : Nat) : s.SameWards (s.clearShares n) := ⟨⟨rfl, rfl, rfl⟩, rfl⟩

theorem addErases_wards (s : State) (f : Nat → List (DieId × Nat × Nat)) :
    s.SameWards (s.setMedia fun m => { m with erasq := m.erasq ++ f m.begun }) := ⟨⟨rfl, rfl, rfl⟩, rfl⟩

theorem putCells_wards (s : State) (f : Tab StUnit → Tab StUnit) : s.SameWards (s.setMedia fun m => { m with cells := f m.cells }) := ⟨⟨rfl, rfl, rfl⟩, rfl⟩

theorem writeRow_wards (s : State) (n r : Nat) (us : List StUnit) : s.SameWards (s.writeRow n r us) := by
  unfold State.writeRow
  exact (putCells_wards s fun c => us.zipIdx.foldl (fun t e => put t (unitNo n (r * 2048 + e.2)) e.1) c).trans
    (SameWards.foldl (fun s d => joinParity_wards s n r d) _ _)

theorem queueErase_wards (s : State) (n : Nat) : s.SameWards (s.queueErase n) := by
  unfold State.queueErase
  dsimp only
  refine State.SameWards.trans ?_ (addErases_wards _ fun b => List.map (fun d => (d, slotIdx n, b)) _)
  refine State.SameWards.trans ?_ (clearShares_wards _ _)
  exact SameWards.foldl (fun s d => setGroup_wards s d _ _) _ s

theorem ward_setWard_same (s : State) (w : Nat) (f : Ward → Ward) : (s.setWard w f).ward w = f (s.ward w) :=
  lookD_adjD_same s.media.wards Ward.fresh w f

theorem ward_setWard_other {w v : Nat} (f : Ward → Ward) (h : w ≠ v) : (s.setWard v f).ward w = s.ward w :=
  lookD_adjD_other s.media.wards Ward.fresh Ward.fresh f h

/-- A row saved moves its ward to the next row, and no other. -/
theorem saveRow_row (s : State) (w cls : Nat) (us : List StUnit) (i : Nat) : s.SameCkpt (s.saveRow w cls us i) ∧
    ((s.saveRow w cls us i).ward w).metaRow = ((s.ward w).metaRow + 1) % 32768 ∧
    ∀ v, v ≠ w → (s.saveRow w cls us i).ward v = s.ward v := by
  have hmid : ∀ m : State, s.SameWards m → s.SameCkpt (m.setWard w fun x => { x with metaRow := ((s.ward w).metaRow + 1) % 32768 }) ∧
      ((m.setWard w fun x => { x with metaRow := ((s.ward w).metaRow + 1) % 32768 }).ward w).metaRow = ((s.ward w).metaRow + 1) % 32768 ∧
      ∀ v, v ≠ w → (m.setWard w fun x => { x with metaRow := ((s.ward w).metaRow + 1) % 32768 }).ward v = s.ward v := by
    intro m hm
    refine ⟨hm.toSameCkpt.trans ⟨rfl, rfl, rfl⟩, by rw [ward_setWard_same], fun v hv => ?_⟩
    rw [ward_setWard_other _ hv]
    unfold State.ward
    rw [hm.wards]
  unfold State.saveRow
  dsimp only
  split
  · exact hmid _ (((writeRow_wards ..).trans (addWork_wards _ _)).trans (queueErase_wards _ _))
  · exact hmid _ ((writeRow_wards ..).trans (addWork_wards _ _))

/-- Rows saved move their ward on by as many, the last of 32,768 to the first. -/
theorem saveRows_rows (s : State) (cls : Nat) (us : List StUnit) (w n : Nat) :
    s.SameCkpt ((List.range n).foldl (fun s i => s.saveRow w cls us i) s) ∧
    (0 < n → (((List.range n).foldl (fun s i => s.saveRow w cls us i) s).ward w).metaRow = ((s.ward w).metaRow + n) % 32768) ∧
    ∀ v, v ≠ w → ((List.range n).foldl (fun s i => s.saveRow w cls us i) s).ward v = s.ward v := by
  induction n with
  | zero => exact ⟨⟨rfl, rfl, rfl⟩, fun h => absurd h (by decide), fun _ _ => rfl⟩
  | succ n ih =>
    obtain ⟨hck, hrow, hother⟩ := ih
    rw [List.range_succ, List.foldl_append]
    obtain ⟨hck', hrow', hother'⟩ := saveRow_row ((List.range n).foldl (fun s i => s.saveRow w cls us i) s) w cls us n
    refine ⟨hck.trans hck', fun _ => hrow'.trans ?_, fun v hv => (hother' v hv).trans (hother v hv)⟩
    cases n with
    | zero => rfl
    | succ n =>
      rw [hrow (Nat.succ_pos n)]
      omega

theorem metaRows_pos (b : Bytes) (seq : Nat) : 0 < metaRows (moduleUnits b seq) := by
  unfold metaRows moduleUnits
  rw [List.length_map, List.length_range]
  omega

/-- The wards saved so far have moved on, the others not. -/
theorem saveWards_rows (s : State) (cls : Nat) {us : List StUnit} (hpos : 0 < metaRows us) (k : Nat) :
    s.SameCkpt ((List.range k).foldl (fun s w => s.saveWard cls us w) s) ∧
    (∀ w < k, (((List.range k).foldl (fun s w => s.saveWard cls us w) s).ward w).metaRow = ((s.ward w).metaRow + metaRows us) % 32768) ∧
    ∀ w, k ≤ w → ((List.range k).foldl (fun s w => s.saveWard cls us w) s).ward w = s.ward w := by
  induction k with
  | zero => exact ⟨⟨rfl, rfl, rfl⟩, fun w h => absurd h (by omega), fun _ _ => rfl⟩
  | succ k ih =>
    obtain ⟨hck, hrow, hother⟩ := ih
    rw [List.range_succ, List.foldl_append]
    obtain ⟨hck', hrow', hother'⟩ := saveRows_rows ((List.range k).foldl (fun s w => s.saveWard cls us w) s) cls us k (metaRows us)
    refine ⟨hck.trans hck', fun w hw => ?_, fun w hw => (hother' w (by omega)).trans (hother w (by omega))⟩
    by_cases h : w = k
    · subst h
      rw [← hother w (Nat.le_refl w)]
      exact hrow' hpos
    · rw [← hrow w (by omega)]
      exact congrArg Ward.metaRow (hother' w h)

theorem ckptBegin_saves (s : State) (cls : Nat) : (s.ckptBegin cls).media.ckpt = some s.bell.now ∧
    (s.ckptBegin cls).media.begun = s.media.begun + 1 ∧ ((s.ckptBegin cls).media.saving.map fun x => x.2.1) = some s.media.journal ∧
    ∀ w < 4, ((s.ckptBegin cls).ward w).metaRow =
      ((s.ward w).metaRow + metaRows (moduleUnits (s.noteMaps.media.recs.flatMap JRec.bytes) s.ledger)) % 32768 := by
  obtain ⟨⟨hck, hbegun, hsaving⟩, hrows, -⟩ := saveWards_rows s.ckptOpen cls (metaRows_pos (s.noteMaps.media.recs.flatMap JRec.bytes) s.noteMaps.ledger) 4
  rw [ckptBegin_eq, hck, hbegun, hsaving]
  exact ⟨rfl, rfl, rfl, hrows⟩

theorem checkpointBegin_begins (hready : s.boot.ready = true) (hloss : s.pwr.loss = none) (hck : s.media.ckpt = none)
    (hdue : s.bell.now % 16384 = 0 ∨ 33554432 ≤ s.media.journal) : ∃ t, exec .checkpointBegin s = .next t ∧
      t.media.ckpt = some s.bell.now ∧ t.media.begun = s.media.begun + 1 ∧ (t.media.saving.map fun x => x.2.1) = some s.media.journal ∧
      ∀ w < 4, (t.ward w).metaRow =
        ((s.ward w).metaRow + metaRows (moduleUnits (s.noteMaps.media.recs.flatMap JRec.bytes) s.ledger)) % 32768 := by
  refine ⟨_, ?_, ckptBegin_saves s (if decide (s.media.journal ≥ 33554432) then 3 else 5)⟩
  change execCheckpointBegin s = _
  have hon : (s.bell.now % 16384 = 0 || decide (s.media.journal ≥ 33554432)) = true := by simpa using hdue
  unfold execCheckpointBegin
  dsimp only
  rw [hready, hloss, hck, hon, if_neg (by simp)]

/-! ### A checkpoint ends -/

/-- What a checkpoint leaves behind, and the slots, are as they were. -/
structure State.SameSaved (s t : State) : Prop where
  ckpt : t.media.ckpt = s.media.ckpt
  ckptBell : t.media.ckptBell = s.media.ckptBell
  ckptDone : t.media.ckptDone = s.media.ckptDone
  saved : t.media.saved = s.media.saved
  journal : t.media.journal = s.media.journal
  slots : t.media.slots = s.media.slots
  pwr : t.pwr = s.pwr

theorem State.SameSaved.refl (s : State) : s.SameSaved s := ⟨rfl, rfl, rfl, rfl, rfl, rfl, rfl⟩

theorem State.SameSaved.trans (h : s.SameSaved t) (k : t.SameSaved u) : s.SameSaved u :=
  ⟨k.ckpt.trans h.ckpt, k.ckptBell.trans h.ckptBell, k.ckptDone.trans h.ckptDone, k.saved.trans h.saved, k.journal.trans h.journal,
    k.slots.trans h.slots, k.pwr.trans h.pwr⟩

theorem SameSaved.foldl {α : Type} {f : State → α → State} (hf : ∀ s x, State.SameSaved s (f s x)) (l : List α) (s : State) : s.SameSaved (l.foldl f s) := by
  induction l generalizing s with
  | nil => exact .refl s
  | cons x l ih => exact (hf s x).trans (ih _)

theorem joinParity_saved (s : State) (n r d : Nat) : s.SameSaved (s.joinParity n r d) := ⟨rfl, rfl, rfl, rfl, rfl, rfl, rfl⟩

theorem setWard_saved (s : State) (w : Nat) (f : Ward → Ward) : s.SameSaved (s.setWard w f) := ⟨rfl, rfl, rfl, rfl, rfl, rfl, rfl⟩

theorem setDie_saved (s : State) (d : DieId) (f : Die → Die) : s.SameSaved (s.setDie d f) := ⟨rfl, rfl, rfl, rfl, rfl, rfl, rfl⟩

theorem planParking_saved (s : State) (l : List Work) (k p : Nat) :
    s.SameSaved (s.setMedia fun m => { m with work := m.work ++ l, parking := put m.parking k p }) := ⟨rfl, rfl, rfl, rfl, rfl, rfl, rfl⟩

theorem addWork_saved (s : State) (l : List Work) : s.SameSaved (s.setMedia fun m => { m with work := m.work ++ l }) := ⟨rfl, rfl, rfl, rfl, rfl, rfl, rfl⟩

theorem putCells_saved (s : State) (f : Tab StUnit → Tab StUnit) : s.SameSaved (s.setMedia fun m => { m with cells := f m.cells }) :=
  ⟨rfl, rfl, rfl, rfl, rfl, rfl, rfl⟩

theorem writeRow_saved (s : State) (n r : Nat) (us : List StUnit) : s.SameSaved (s.writeRow n r us) := by
  unfold State.writeRow
  exact (putCells_saved s fun c => us.zipIdx.foldl (fun t e => put t (unitNo n (r * 2048 + e.2)) e.1) c).trans
    (SameSaved.foldl (fun s d => joinParity_saved s n r d) _ _)

theorem park_saved (s : State) (w key m o : Nat) : s.SameSaved (s.park w key m o) := by
  unfold State.park
  split
  · exact .refl s
  · split
    · exact .refl s
    · exact ((writeRow_saved ..).trans (planParking_saved ..)).trans (setWard_saved ..)

theorem replanParks_saved (s : State) : s.SameSaved s.replanParks := by
  unfold State.replanParks
  refine SameSaved.foldl (fun s e => ?_) _ s
  split
  · exact park_saved ..
  · exact .refl s

theorem prepNext_saved (s : State) (w : Nat) : s.SameSaved (s.prepNext w) := by
  unfold State.prepNext
  dsimp only
  split
  · exact .refl s
  · split
    · exact (setDie_saved ..).trans (addWork_saved ..)
    · exact .refl s

theorem slotUse_setSlot_same (s : State) (n : Nat) (u : SlotUse) : (s.setSlot n u).slotUse n = u :=
  lookD_putD_same s.media.slots (deliveredUse (slotRow n) (slotIdx n)) n u

theorem slotUse_setSlot_other {n m : Nat} (u : SlotUse) (h : m ≠ n) : (s.setSlot n u).slotUse m = s.slotUse m :=
  lookD_putD_other s.media.slots (deliveredUse (slotRow n) (slotIdx n)) (deliveredUse (slotRow m) (slotIdx m)) u h

/-- Slots freed one after another are free. -/
def State.slotsFreed (s : State) (l : List (Nat × SlotUse)) : State := l.foldl (fun s e => s.setSlot e.1 .free) s

theorem freed_keeps (l : List (Nat × SlotUse)) (s : State) {n : Nat} (h : s.slotUse n = .free) : (s.slotsFreed l).slotUse n = .free := by
  induction l generalizing s with
  | nil => exact h
  | cons e l ih =>
    refine ih _ ?_
    by_cases hn : n = e.1
    · rw [hn, slotUse_setSlot_same]
    · rwa [slotUse_setSlot_other _ hn]

theorem freed_free (l : List (Nat × SlotUse)) (s : State) {e : Nat × SlotUse} (h : e ∈ l) : (s.slotsFreed l).slotUse e.1 = .free := by
  induction l generalizing s with
  | nil => cases h
  | cons a l ih =>
    obtain rfl | h := List.mem_cons.1 h
    · exact freed_keeps l _ (slotUse_setSlot_same ..)
    · exact ih _ h

/-- What freeing slots leaves of the media. -/
theorem freed_rest (l : List (Nat × SlotUse)) (s : State) : (s.slotsFreed l).media.journal = s.media.journal :=
  foldl_same (f := fun (s : State) (e : Nat × SlotUse) => s.setSlot e.1 .free) (fun s => s.media.journal) (fun _ _ => rfl) l s

theorem freed_pwr (l : List (Nat × SlotUse)) (s : State) : (s.slotsFreed l).pwr = s.pwr :=
  foldl_same (f := fun (s : State) (e : Nat × SlotUse) => s.setSlot e.1 .free) State.pwr (fun _ _ => rfl) l s

/-- A slot released before the checkpoint with a number began. -/
def SlotUse.ripe (n : Nat) (u : SlotUse) : Bool :=
  match u with
  | .releasing g => decide (g < n)
  | _ => false

theorem releaseDumps_released (s : State) : s.releaseDumps.pwr.entering = s.pwr.entering ∧ ∀ d ∈ s.releaseDumps.pwr.dumps, d.released = true := by
  refine ⟨rfl, fun d hd => ?_⟩
  obtain ⟨e, -, rfl⟩ := List.mem_map.1 hd
  rfl

/-- The state in which a checkpoint's end is recorded. -/
def State.ckptClosed (s : State) (b : Nat) : State :=
  let n := s.media.begun
  let ripe := s.media.erasq.filter fun e => e.2.2 < n
  let old := s.media.oldBlocks.filter fun e => e.2.2 < n
  let freed := s.media.slots.filter fun e => e.2.ripe n
  let (saved, bytes, recs) := s.media.saving.getD (s.media.saved, 0, 0)
  ((s.slotsFreed freed).setMedia fun m => { m with
    ckpt := none, ckptDone := n, ckptBell := b, journal := m.journal - bytes, recs := m.recs.drop recs, saved := saved, saving := none
    erasq := m.erasq.filter fun e => !(e.2.2 < n)
    oldBlocks := m.oldBlocks.filter fun e => !(e.2.2 < n)
    work := m.work ++ (ripe.map fun e => eraseWork e.1 e.2.1 .internal) ++
      old.map fun e => eraseWork e.1 3072 (.old e.2.1) }).releaseDumps

theorem ckptComplete_eq (s : State) (b : Nat) : s.ckptComplete b = (List.range 4).foldl State.prepNext (s.ckptClosed b).replanParks := rfl

theorem ckptComplete_saved (s : State) (b : Nat) : (s.ckptClosed b).SameSaved (s.ckptComplete b) := by
  rw [ckptComplete_eq]
  exact (replanParks_saved _).trans (SameSaved.foldl prepNext_saved _ _)

theorem ckptClosed_slot {b n g : Nat} (hn : look s.media.slots n = some (.releasing g)) (hg : g < s.media.begun) : (s.ckptClosed b).slotUse n = .free := by
  have hfree := freed_free (s.media.slots.filter fun e => e.2.ripe s.media.begun) s (e := (n, .releasing g))
    (List.mem_filter.2 ⟨mem_of_look hn, by simpa [SlotUse.ripe] using hg⟩)
  exact hfree

theorem checkpointComplete_ends {b : Nat} (hck : s.media.ckpt = some b) (hwork : s.working .ckpt = false) (hentering : s.pwr.entering = false) :
    ∃ t, exec .checkpointComplete s = .next t ∧ t.media.ckpt = none ∧ t.media.ckptBell = b ∧ t.media.ckptDone = s.media.begun ∧
      (∀ d ∈ t.pwr.dumps, d.released = true) ∧
      (∀ m bytes k, s.media.saving = some (m, bytes, k) → t.media.saved = m ∧ t.media.journal = s.media.journal - bytes) ∧
      ∀ n g, look s.media.slots n = some (.releasing g) → g < s.media.begun → t.slotUse n = .free := by
  have hsaved := ckptComplete_saved s b
  have hpwr : (s.ckptClosed b).pwr.entering = false ∧ ∀ d ∈ (s.ckptClosed b).pwr.dumps, d.released = true := by
    obtain ⟨hent, hdumps⟩ := releaseDumps_released (State.setMedia (s.slotsFreed (s.media.slots.filter fun e => e.2.ripe s.media.begun)) _)
    exact ⟨hent.trans ((congrArg Pwr.entering (freed_pwr _ s)).trans hentering), hdumps⟩
  have hstep : (s.ckptComplete b).entryStep = s.ckptComplete b := by
    unfold State.entryStep
    rw [hsaved.pwr, hpwr.1]
    rfl
  refine ⟨s.ckptComplete b, ?_, hsaved.ckpt, hsaved.ckptBell, hsaved.ckptDone, ?_, fun m bytes k hs => ⟨?_, ?_⟩, fun n g hn hg => ?_⟩
  · change execCheckpointComplete s = _
    unfold execCheckpointComplete
    rw [hck]
    dsimp only
    rw [hwork, hstep]
    rfl
  · rw [hsaved.pwr]
    exact hpwr.2
  · rw [hsaved.saved]
    unfold State.ckptClosed
    rw [hs]
    rfl
  · rw [hsaved.journal]
    unfold State.ckptClosed
    rw [hs]
    exact congrArg (· - bytes) (freed_rest _ s)
  · rw [slotUse_congr hsaved.slots]
    exact ckptClosed_slot hn hg

end Sys2Proof.Machine
end

section
/-! Parkings end, held slots are released, patrol and retention reads are planned, and a relocation commits (R235, R293, R296, R334, R343). -/

namespace Sys2Proof.Machine

variable {s t u : State} {d : DieId}

/-! ### A parking ends -/

theorem parkingComplete_ends {h z p : Nat} (hp : look s.media.parking (zoneNo h z) = some p) (hrow : (s.zone (zoneNo h z)).partialRow = true)
    (hwork : s.working (.park (zoneNo h z)) = false) : ∃ t, exec (.parkingComplete h z) s = .next t ∧
      t.zone (zoneNo h z) = { s.zone (zoneNo h z) with park := .parked p } ∧ t.staged = s.staged - (s.zone (zoneNo h z)).wp % 64 := by
  have hmask := entryStep_mask (s := s.parked (zoneNo h z) p) (List.Subset.refl _)
  refine ⟨(s.parked (zoneNo h z) p).entryStep, ?_, ?_, ?_⟩
  · change execParkingComplete h z s = _
    unfold execParkingComplete
    dsimp only
    rw [hp]
    dsimp only
    rw [hrow, hwork]
    rfl
  · rw [zone_of_mask (by decide) hmask]
    exact zone_setZone_same { s with staged := s.staged - (s.zone (zoneNo h z)).wp % 64 } (zoneNo h z) fun x => { x with park := .parked p }
  · exact (congrArg State.staged (eq_graft hmask) :)

/-! ### A held slot released -/

/-- A slot released is free for a checkpoint to come, or lost. -/
theorem releaseSlot_use (s : State) (n : Nat) : (s.releaseSlot n).slotUse n = .releasing s.media.begun ∨ (s.releaseSlot n).slotUse n = .lost false := by
  have hbegun := ((dropSlotWork_eases s n).trans ((queueErase_eases _ n).trans (endMoves_eases _ n))).begun
  have hslot : ∀ (v : State) (u : SlotUse), ((v.setSlot n u).journalRec 0).slotUse n = u := fun v u => slotUse_setSlot_same v n u
  unfold State.releaseSlot
  dsimp only
  rw [hslot]
  split
  · exact .inr rfl
  · exact .inl (congrArg SlotUse.releasing hbegun)

theorem capCheck_slotUse (s : State) : s.capCheck.slotUse = s.slotUse := slotUse_congr (capCheck_slots s)

theorem unitNo_div {z o : Nat} (ho : o < 2 ^ 20) : unitNo z o / 2 ^ 20 = z := by
  unfold unitNo
  omega

theorem heldSlotRelease_releases {n a b : Nat} (hn : n < 4 * 26 * 4096) (hk : slotIdx n < 3072) (huse : s.slotUse n = .held a b)
    (hscan : s.scanned n = false) : ∃ t, exec (.heldSlotRelease n) s = .next t ∧
      (t.slotUse n = .releasing s.media.begun ∨ t.slotUse n = .lost false) ∧ ∀ o, o < 2 ^ 20 → look t.units (unitNo (heldZone n) o) = none := by
  refine ⟨(State.releaseSlot { s with staged := s.staged - s.heldStaged n, units := keep (fun k _ => k / 2 ^ 20 ≠ heldZone n) s.units } n).capCheck,
    ?_, ?_, ?_⟩
  · change execHeldSlotRelease n s = _
    unfold execHeldSlotRelease
    rw [if_neg (by simp; omega), huse]
    dsimp only
    rw [hscan]
    rfl
  · rw [capCheck_slotUse]
    exact releaseSlot_use _ n
  · intro o ho
    rw [units_of_mask (P := [.out, .rdma, .bell, .media, .staged, .dram, .loft, .events, .eventSeq]) (by decide)
      ((capCheck_mask (by decide)).trans (releaseSlot_mask (List.Subset.refl _) n)), look_keep, unitNo_div ho]
    simp

/-! ### Patrol and retention reads -/

/-- The reads of a page of each plane of a word line. -/
def patrolReads (d : DieId) (k wl : Nat) (us : Nat → List Nat) (ret : Bool) : List Work :=
  (List.range 4).map fun p => ⟨5, d, .read, k, wl, 0, .patrol (us p) ret⟩

theorem patrol_plans (hidle : ∀ w ∈ s.media.work, w.die ≠ d) (k wl : Nat) (us : Nat → List Nat) (ret : Bool) :
    (s.patrol d k wl us ret).media.work = s.media.work ++ patrolReads d k wl us ret := by
  have hnone : ((patrolReads d k wl us ret).any fun w => s.media.work.contains w) = false := by
    rw [List.any_eq_false]
    intro w hw hin
    obtain ⟨p, -, rfl⟩ := List.mem_map.1 hw
    exact hidle _ (by simpa using hin) rfl
  unfold State.patrol
  dsimp only
  rw [if_neg (by rw [← patrolReads, hnone]; decide)]
  rfl

theorem patrolReads_planned {l : List Work} {k wl : Nat} {us : Nat → List Nat} {ret : Bool} (h : t.media.work = l ++ patrolReads d k wl us ret) :
    t.media.work.length = l.length + 4 ∧
      ∀ w ∈ t.media.work, w ∈ l ∨ (w.cls = 5 ∧ w.die = d ∧ w.act = .read ∧ w.slot = k ∧ w.wl = wl) := by
  rw [h]
  refine ⟨by simp [patrolReads], fun w hw => ?_⟩
  obtain hw | hw := List.mem_append.1 hw
  · exact .inl hw
  · obtain ⟨p, -, rfl⟩ := List.mem_map.1 hw
    exact .inr ⟨rfl, rfl, rfl, rfl, rfl⟩

theorem patrolRead_plans {k wl cw : Nat} (hwf : d.wf = true) (hk : k < 3072) (hwl : wl < 512) (hcw : cw < 4) (hready : s.boot.ready = true)
    (hf : (s.die d).failed = false) (hprog : wl < (s.group d k).prog) (hidle : ∀ w ∈ s.media.work, w.die ≠ d) :
    ∃ t, exec (.patrolRead d k wl cw) s = .next t ∧ t.media.work.length = s.media.work.length + 4 ∧
      ∀ w ∈ t.media.work, w ∈ s.media.work ∨ (w.cls = 5 ∧ w.die = d ∧ w.act = .read ∧ w.slot = k ∧ w.wl = wl) := by
  refine ⟨s.patrol d k wl (patrolSet cw) false, ?_, patrolReads_planned (patrol_plans hidle k wl _ _)⟩
  change execPatrolRead d k wl cw s = _
  unfold execPatrolRead
  rw [if_neg (by simp [hwf]; omega), if_neg (by simp [hready, hf]; omega)]

theorem retentionScan_plans {k wl cw : Nat} (hwf : d.wf = true) (hk : k < 3072) (hwl : wl < 512) (hcw : cw < 4) (hready : s.boot.ready = true)
    (hnext : s.scanNext = some (groupNo d k)) (hleft : (look s.scanLeft (groupNo d k)).map (·.1) = some wl)
    (hidle : ∀ w ∈ s.media.work, w.die ≠ d) : ∃ t, exec (.retentionScan d k wl cw) s = .next t ∧ t.media.work.length = s.media.work.length + 4 ∧
      ∀ w ∈ t.media.work, w ∈ s.media.work ∨ (w.cls = 5 ∧ w.die = d ∧ w.act = .read ∧ w.slot = k ∧ w.wl = wl) := by
  refine ⟨(s.patrol d k wl (if s.pwr.scan = 1 then patrolSet cw else pageUnits) true).setMedia fun m => { m with
    toScan := adj m.toScan (groupNo d k) fun e => (e.1 + 1, e.2) }, ?_, patrolReads_planned (patrol_plans hidle k wl _ _)⟩
  change execRetentionScan d k wl cw s = _
  unfold execRetentionScan
  rw [if_neg (by simp [hwf]; omega), hnext, hleft, hready, if_neg (by simp)]

/-! ### A relocation commits -/

theorem block_setBlock_same (s : State) (d : DieId) (p k b : Nat) : (s.setBlock d p k b).block d p k = b :=
  lookD_putD_same s.media.bmap k (planeKey d p k) b

theorem block_setBlock_other {d e : DieId} {p q k j : Nat} (b : Nat) (h : planeKey e q j ≠ planeKey d p k) :
    (s.setBlock d p k b).block e q j = s.block e q j :=
  lookD_putD_other s.media.bmap k j b h

/-- The blocks of a relocation take their places, each plane its own. -/
theorem setBlocks_block (s : State) (d : DieId) (k : Nat) (f : Nat → Nat) (n : Nat) {p : Nat} (hp : p < n) :
    (((List.range n).map fun p => (p, f p)).foldl (fun s e => s.setBlock d e.1 k e.2) s).block d p k = f p := by
  induction n with
  | zero => omega
  | succ n ih =>
    rw [List.range_succ, List.map_append, List.foldl_append]
    by_cases h : p = n
    · subst h
      exact block_setBlock_same ..
    · refine (block_setBlock_other _ ?_).trans (ih (by omega))
      dsimp only
      unfold planeKey
      omega

/-- The relocations, the retirements queued, the groups and the blocks are as they were. -/
structure State.SameMoves (s t : State) : Prop where
  moves : t.media.moves = s.media.moves
  retireq : t.media.retireq = s.media.retireq
  groups : t.media.groups = s.media.groups
  bmap : t.media.bmap = s.media.bmap

theorem State.SameMoves.refl (s : State) : s.SameMoves s := ⟨rfl, rfl, rfl, rfl⟩

theorem State.SameMoves.trans (h : s.SameMoves t) (k : t.SameMoves u) : s.SameMoves u :=
  ⟨k.moves.trans h.moves, k.retireq.trans h.retireq, k.groups.trans h.groups, k.bmap.trans h.bmap⟩

theorem setWard_moves (s : State) (w : Nat) (f : Ward → Ward) : s.SameMoves (s.setWard w f) := ⟨rfl, rfl, rfl, rfl⟩

theorem journalRec_moves (s : State) (k : Nat) : s.SameMoves (s.journalRec k) := ⟨rfl, rfl, rfl, rfl⟩

/-- The fresh blocks of a relocation take their places. -/
def State.placed (s : State) (d : DieId) (k : Nat) (l : List (Nat × Nat)) : State := l.foldl (fun s e => s.setBlock d e.1 k e.2) s

/-- The group that a relocation leaves. -/
def State.movedGroup (s : State) (wls : Nat) : Group :=
  { Group.fresh with prog := wls, blank := true, patrol := s.poweredNs, progAt := s.poweredNs }

/-- The state after a relocation's fresh blocks have taken their places, with the relocation at its end. -/
def State.moved (s : State) (d : DieId) (k : Nat) (v : Move) : State :=
  ((s.placed d k v.fresh).setGroup d k fun _ => (s.placed d k v.fresh).movedGroup v.wls).setMedia fun m => { m with
    moves := m.moves.filter fun x => !decide (x.die = d ∧ x.slot = k)
    refresh := m.refresh.filter fun e => !decide (e.2.1 = d ∧ e.2.2.1 = k)
    retireq := m.retireq.filter fun e => !decide (e.1 = d ∧ e.2.1 = k)
    oldBlocks := m.oldBlocks ++ [(d, ((List.range 4).filter fun p => !v.retire.contains p).map fun p => (p, s.block d p k), m.begun)] }

theorem moved_group (s : State) (d : DieId) (k : Nat) (v : Move) : ((s.moved d k v).group d k).prog = v.wls := by
  have hgroup := group_setGroup_same (s.placed d k v.fresh) d k fun _ => (s.placed d k v.fresh).movedGroup v.wls
  exact congrArg Group.prog hgroup

theorem moved_moves (s : State) (d : DieId) (k : Nat) {v w : Move} (h : v ∈ (s.moved d k w).media.moves) : ¬ (v.die = d ∧ v.slot = k) := fun hv => by
  have := (List.mem_filter.1 h).2
  simp [hv] at this

theorem moved_retireq (s : State) (d : DieId) (k : Nat) {v : Move} {e : DieId × Nat × List Nat} (h : e ∈ (s.moved d k v).media.retireq) :
    ¬ (e.1 = d ∧ e.2.1 = k) := fun he => by
  have := (List.mem_filter.1 h).2
  simp [he] at this

theorem moved_block (s : State) (d : DieId) (k : Nat) {v : Move} {f : Nat → Nat} (hfresh : v.fresh = (List.range 4).map fun p => (p, f p)) {p : Nat}
    (hp : p < 4) : (s.moved d k v).block d p k = f p := by
  have hplaced : (s.placed d k v.fresh).block d p k = f p := hfresh ▸ setBlocks_block s d k f 4 hp
  exact hplaced

/-- What a relocation ended adds to the counts of its ward. -/
def State.moveCounted (s : State) (d : DieId) (wls : Nat) (refreshed : Bool) : State :=
  ((if refreshed then s.wearEv d.ward .refreshed 1 else s).setWard d.ward fun w => { w with copied := w.copied + 64 * wls }).journalRec 2

theorem moveCounted_moves (s : State) (d : DieId) (wls : Nat) (refreshed : Bool) : s.SameMoves (s.moveCounted d wls refreshed) := by
  refine State.SameMoves.trans ?_ ((setWard_moves _ _ _).trans (journalRec_moves _ 2))
  split
  · exact setWard_moves ..
  · exact .refl s

theorem relocationCommit_commits {k : Nat} {v : Move} {f : Nat → Nat} (hwf : d.wf = true) (hk : k < 3072)
    (hv : s.media.moves.find? (fun v => decide (v.die = d ∧ v.slot = k)) = some v) (hfresh : v.fresh = (List.range 4).map fun p => (p, f p))
    (hdone : v.wls ≤ v.done) : ∃ t, exec (.relocationCommit d k) s = .next t ∧
      (∀ p < 4, t.block d p k = f p) ∧ (t.group d k).prog = v.wls ∧ (∀ v ∈ t.media.moves, ¬ (v.die = d ∧ v.slot = k)) ∧
      ∀ e ∈ t.media.retireq, ¬ (e.1 = d ∧ e.2.1 = k) := by
  have hkept := moveCounted_moves (s.moved d k v) d v.wls (s.media.refresh.any fun e => decide (e.2.1 = d ∧ e.2.2.1 = k))
  refine ⟨(s.moved d k v).moveCounted d v.wls (s.media.refresh.any fun e => decide (e.2.1 = d ∧ e.2.2.1 = k)), ?_, fun p hp => ?_, ?_, fun x hx => ?_,
    fun e he => ?_⟩
  · change execRelocationCommit d k s = _
    unfold execRelocationCommit
    rw [if_neg (by simp [hwf]; omega), hv]
    dsimp only
    rw [if_neg (by omega)]
    rfl
  · refine Eq.trans ?_ (moved_block s d k hfresh hp)
    unfold State.block
    rw [hkept.bmap]
  · refine Eq.trans ?_ (moved_group s d k v)
    unfold State.group
    rw [hkept.groups]
  · exact moved_moves s d k (hkept.moves ▸ hx)
  · exact moved_retireq s d k (hkept.retireq ▸ he)

end Sys2Proof.Machine
end

section
/-! A relocation draws its blocks and begins, and a reclaim takes a victim (R286, R290, R293, R295, R603). -/

namespace Sys2Proof.Machine

variable {s t u : State} {d : DieId}

/-! ### Drawing fresh blocks leaves the dies as they were -/

theorem capCheck_samePlant (s : State) : s.SamePlant s.capCheck := by
  unfold State.capCheck
  dsimp only
  refine State.SamePlant.trans ?_ (setMedia_samePlant _ (fun _ => rfl) fun _ => rfl)
  split
  · exact event_samePlant ..
  · exact ⟨rfl, rfl⟩

theorem poolBlock_samePlant {p b : Nat} (h : s.poolBlock d p = some (b, t)) : s.SamePlant t := by
  unfold State.poolBlock at h
  split at h
  · cases h
  · split at h
    · rw [← second_of_some h]
      exact ⟨rfl, rfl⟩
    · obtain ⟨k, -, hk⟩ := Option.map_eq_some_iff.1 h
      rw [← second_of_some (congrArg some hk)]
      exact ⟨rfl, rfl⟩

theorem drawPool_samePlant {p b : Nat} (h : s.drawPool d p = some (b, t)) : s.SamePlant t := by
  unfold State.drawPool at h
  dsimp only at h
  split at h
  · rw [← second_of_some h]
    exact ⟨rfl, rfl⟩
  · exact poolBlock_samePlant h

theorem drawFrom_samePlant {p b : Nat} {wet w : Bool} (h : s.drawFrom d p wet = some (b, w, t)) : s.SamePlant t := by
  have htaken : ∀ (v : State) (n k : Nat) (x : SlotUse), v.SamePlant ((v.setSlot n x).setMedia fun m => { m with poolTaken := k :: m.poolTaken }) :=
    fun _ _ _ _ => ⟨rfl, rfl⟩
  unfold State.drawFrom at h
  split at h
  · next x hx =>
    obtain ⟨a, v⟩ := x
    rw [← third_of_some h]
    exact drawPool_samePlant hx
  · split at h
    · cases h
    · dsimp only at h
      split at h
      · rw [← third_of_some h]
        exact (htaken ..).trans (capCheck_samePlant _)
      · split at h
        · cases h
        · split at h
          · rw [← third_of_some h]
            exact ⟨rfl, rfl⟩
          · cases h

/-- One block more of a draw, where the blocks before it were there. -/
def drawNext (d : DieId) (all : Bool) (a : Option (List (Nat × Nat) × State)) (p : Nat) : Option (List (Nat × Nat) × State) :=
  match a with
  | none => none
  | some (l, s) => (if all then s.drawBlock d p else s.drawPool d p).map fun x => (l ++ [(p, x.1)], x.2)

theorem drawNexts_none (d : DieId) (all : Bool) (ps : List Nat) : ps.foldl (drawNext d all) none = none := by
  induction ps with
  | nil => rfl
  | cons p ps ih => exact ih

/-- What every block drawn keeps, in steps that follow one another. -/
structure DrawKept (d : DieId) (R : State → State → Prop) : Prop where
  refl : ∀ s, R s s
  trans : ∀ {s t u}, R s t → R t u → R s u
  pool : ∀ {s t p b}, s.drawPool d p = some (b, t) → R s t
  block : ∀ {s t p b wet w}, s.drawFrom d p wet = some (b, w, t) → R s t

variable {R : State → State → Prop}

theorem DrawKept.next (hR : DrawKept d R) {all : Bool} {l l' : List (Nat × Nat)} {p : Nat} (h : drawNext d all (some (l, s)) p = some (l', t)) : R s t := by
  obtain ⟨x, hx, hl⟩ := Option.map_eq_some_iff.1 h
  rw [← second_of_some (congrArg some hl)]
  split at hx
  · obtain ⟨y, hy, rfl⟩ := Option.map_eq_some_iff.1 hx
    exact hR.block hy
  · exact hR.pool hx

theorem DrawKept.nexts (hR : DrawKept d R) {all : Bool} {ps : List Nat} : ∀ {s : State} {l l' : List (Nat × Nat)},
    ps.foldl (drawNext d all) (some (l, s)) = some (l', t) → R s t := by
  induction ps with
  | nil =>
    intro s l l' h
    rw [second_of_some h]
    exact hR.refl t
  | cons p ps ih =>
    intro s l l' h
    rw [List.foldl_cons] at h
    cases hn : drawNext d all (some (l, s)) p with
    | none =>
      rw [hn, drawNexts_none] at h
      cases h
    | some x =>
      obtain ⟨m, v⟩ := x
      rw [hn] at h
      exact hR.trans (hR.next hn) (ih h)

theorem DrawKept.four (hR : DrawKept d R) {all : Bool} {new : List (Nat × Nat)} (h : s.drawFour d all = some (new, u)) : R s u :=
  hR.nexts (ps := List.range 4) (l := []) (l' := new) (all := all) h

theorem drawFour_samePlant {all : Bool} {new : List (Nat × Nat)} (h : s.drawFour d all = some (new, u)) : s.SamePlant u :=
  DrawKept.four ⟨fun _ => ⟨rfl, rfl⟩, State.SamePlant.trans, drawPool_samePlant, drawFrom_samePlant⟩ h

/-! ### A relocation begins -/

/-- Planes of a group that its refresh asks to be retired. -/
def State.refreshPlanes (s : State) (d : DieId) (k : Nat) : List Nat :=
  ((s.media.refresh.find? fun e => decide (e.2.1 = d ∧ e.2.2.1 = k)).map (·.2.2.2)).getD []

/-- Planes of a group that its retirement queue names. -/
def State.askedPlanes (s : State) (d : DieId) (k : Nat) : List Nat :=
  ((s.media.retireq.find? fun e => decide (e.1 = d ∧ e.2.1 = k)).map (·.2.2)).getD []

/-- The state in which the crossings of the planes are counted from here on. -/
def State.recrossed (s : State) (d : DieId) (k : Nat) (planes : List Nat) : State :=
  planes.foldl (fun s p => s.setMedia fun m => { m with crossed := put m.crossed (s.phys d p k) (lookD m.wear 0 (s.phys d p k)) }) s

/-- The relocation of a group as it begins. -/
def State.freshMove (s : State) (d : DieId) (k : Nat) (new : List (Nat × Nat)) : Move :=
  ⟨d, k, new, (List.range 4).filter fun p => s.media.retired.contains (s.phys d p k), (s.group d k).prog, 0, 0⟩

theorem copyLine_keeps_move {k : Nat} {v : Move} (h : v ∈ s.media.moves) : ∃ x ∈ (s.copyLine d k).media.moves, x.die = v.die ∧ x.slot = v.slot ∧
    x.fresh = v.fresh ∧ x.wls = v.wls := by
  unfold State.copyLine
  split
  · split
    · refine ⟨_, List.mem_map_of_mem h, ?_⟩
      split
      · exact ⟨rfl, rfl, rfl, rfl⟩
      · exact ⟨rfl, rfl, rfl, rfl⟩
    · exact ⟨v, h, rfl, rfl, rfl, rfl⟩
  · exact ⟨v, h, rfl, rfl, rfl, rfl⟩

theorem State.Reads.sameMoves (h : s.Reads t) : s.SameMoves t := by
  obtain ⟨l, w, z, x, b, rfl, -⟩ := h
  exact ⟨rfl, rfl, rfl, rfl⟩

theorem dropCopies_moves (s : State) (d : DieId) (k : Nat) : s.SameMoves (s.dropCopies d k) := by
  unfold State.dropCopies
  dsimp only
  refine State.SameMoves.trans ?_ (dropSlices_reads _ _).sameMoves
  exact ⟨rfl, rfl, rfl, rfl⟩

theorem capCheck_moves (s : State) : s.SameMoves s.capCheck := by
  unfold State.capCheck
  dsimp only
  refine State.SameMoves.trans (t := if _ then _ else _) ?_ ⟨rfl, rfl, rfl, rfl⟩
  split
  · exact ⟨congrArg Media.moves (event_media ..), congrArg Media.retireq (event_media ..), congrArg Media.groups (event_media ..),
      congrArg Media.bmap (event_media ..)⟩
  · exact .refl s

/-- The relocation with its blocks drawn. -/
def State.relocating (s : State) (d : DieId) (k : Nat) (new : List (Nat × Nat)) : State :=
  s.setMedia fun m => { m with moves := m.moves ++ [s.freshMove d k new] }

/-- The state in which a relocation has begun with its first word line. -/
def State.relocates (s : State) (d : DieId) (k : Nat) (new : List (Nat × Nat)) : State := (((s.relocating d k new).dropCopies d k).copyLine d k).capCheck

theorem relocates_move (s : State) (d : DieId) (k : Nat) (new : List (Nat × Nat)) : ∃ v ∈ (s.relocates d k new).media.moves,
    v.die = d ∧ v.slot = k ∧ v.fresh = new ∧ v.wls = ((s.relocates d k new).group d k).prog := by
  have hin : s.freshMove d k new ∈ ((s.relocating d k new).dropCopies d k).media.moves := by
    rw [(dropCopies_moves _ d k).moves]
    exact List.mem_append_right _ (List.mem_singleton.2 rfl)
  obtain ⟨v, hv, hd, hk, hf, hw⟩ := copyLine_keeps_move (d := d) (k := k) hin
  have hgroup : ((s.relocates d k new).group d k).prog = (s.group d k).prog := by
    refine ((capCheck_eases _).prog d k).trans (((copyLine_eases _ d k).prog d k).trans ?_)
    unfold State.group
    rw [(dropCopies_moves _ d k).groups]
    rfl
  refine ⟨v, ?_, hd, hk, hf, hw.trans hgroup.symm⟩
  unfold State.relocates
  rw [(capCheck_moves _).moves]
  exact hv

theorem relocation_begins {k : Nat} {new : List (Nat × Nat)} (hwf : d.wf = true) (hk : k < 3072) (hmoving : s.moving d k = false)
    (hop : (s.die d).op = none) (hf : (s.die d).failed = false) (hturn : s.mustMove d k = true ∨ s.nextRefresh d.ward = some (d, k))
    (hagain : s.secondCross d k (s.refreshPlanes d k) = []) (hasked : s.mustMove d k = true → s.askedPlanes d k = [])
    (hdraw : s.drawFour d (s.mustMove d k) = some (new, u)) : ∃ t v, exec (.relocation d k) s = .next t ∧
      v ∈ t.media.moves ∧ v.die = d ∧ v.slot = k ∧ v.fresh = new ∧ v.wls = (t.group d k).prog := by
  obtain ⟨v, hv⟩ := relocates_move (u.recrossed d k (s.refreshPlanes d k)) d k new
  refine ⟨(u.recrossed d k (s.refreshPlanes d k)).relocates d k new, v, ?_, hv⟩
  have hnone : (s.secondCross d k (s.refreshPlanes d k) ++ (if s.mustMove d k = true then s.askedPlanes d k else [])).eraseDups = [] := by
    rw [hagain]
    split
    · rw [hasked ‹_›]
      rfl
    · rfl
  have hfu : (u.die d).failed = false := by
    unfold State.die at hf ⊢
    rwa [(drawFour_samePlant hdraw).2]
  unfold State.refreshPlanes State.askedPlanes at hnone
  change execRelocation d k s = _
  unfold execRelocation
  rw [if_neg (by simp [hwf]; omega)]
  dsimp only
  rw [if_neg (by obtain h | h := hturn <;> simp [hmoving, hop, hf, h]), hnone]
  rw [List.isEmpty_nil, Bool.not_true, Bool.or_false, hdraw]
  dsimp only [List.foldl_nil]
  exact if_neg (by simp [hfu])

theorem moving_false {k : Nat} (h : ∀ v ∈ s.media.moves, ¬ (v.die = d ∧ v.slot = k)) : s.moving d k = false := by
  unfold State.moving
  rw [List.any_eq_false]
  intro v hv
  simpa using h v hv

theorem refreshPlanes_none {k : Nat} (h : ∀ e ∈ s.media.refresh, ¬ (e.2.1 = d ∧ e.2.2.1 = k)) : s.refreshPlanes d k = [] := by
  unfold State.refreshPlanes
  rw [List.find?_eq_none.2 fun e he => by simpa using h e he]
  rfl

theorem secondCross_none {k : Nat} {planes : List Nat} (h : s.media.crossed = []) : s.secondCross d k planes = [] := by
  unfold State.secondCross
  rw [h]
  exact List.filter_eq_nil_iff.2 fun p _ => Bool.false_ne_true

theorem firstBy_mem {α : Type} {lt : α → α → Bool} {a : α} : ∀ {l : List α}, firstBy lt l = some a → a ∈ l
  | b :: l, h => by
    unfold firstBy at h
    split at h
    · exact Option.some.inj h ▸ List.mem_cons_self
    · next c hc =>
      split at h
      · exact List.mem_cons_of_mem _ (firstBy_mem (Option.some.inj h ▸ hc))
      · exact Option.some.inj h ▸ List.mem_cons_self

/-- The refresh that is next is of a group that nothing moves, on a die at rest that has not failed. -/
theorem nextRefresh_free {w k : Nat} (h : s.nextRefresh w = some (d, k)) : s.moving d k = false ∧ (s.die d).op = none ∧ (s.die d).failed = false := by
  obtain ⟨e, he, hdk⟩ := Option.map_eq_some_iff.1 h
  have hin := (List.mem_filter.1 (firstBy_mem he)).2
  obtain ⟨rfl, rfl⟩ : e.2.1 = d ∧ e.2.2.1 = k := ⟨congrArg (·.1) hdk, congrArg (·.2) hdk⟩
  simp only [Bool.and_eq_true, Bool.not_eq_true', Option.isNone_iff_eq_none] at hin
  obtain ⟨⟨⟨⟨-, hmove⟩, hop⟩, hfail⟩, -⟩ := hin
  exact ⟨hmove, hop, hfail⟩

/-! ### A reclaim takes a victim -/

theorem setWard_raVictim {w : Nat} {f : Ward → Ward} (hf : (f (s.ward w)).victims = (s.ward w).victims) : (s.setWard w f).raVictim w = s.raVictim w := by
  unfold State.raVictim
  rw [ward_setWard_same, hf]
  rfl

theorem reclaimNext_wards (s : State) (n : Nat) : (s.reclaimNext n).media.wards = s.media.wards := by
  unfold State.reclaimNext
  dsimp only
  split
  · rfl
  · rfl

/-- A ward's one victim stays a victim, or is free. -/
theorem freeVictims_one {w n : Nat} (h : (s.ward w).victims = [n]) : n ∈ ((s.freeVictims w).ward w).victims ∨ look (s.freeVictims w).media.raSlots n = none := by
  unfold State.freeVictims
  rw [h]
  cases he : s.emptied n with
  | false =>
    rw [List.filter_cons_of_neg (by simp [he]), List.filter_nil, List.foldl_nil, h]
    exact .inl List.mem_cons_self
  | true =>
    rw [List.filter_cons_of_pos he, List.filter_nil, List.foldl_cons, List.foldl_nil]
    dsimp only
    generalize State.journalRec _ 0 = z
    refine .inr (Eq.trans (congrArg (look · n) ?_) (look_del_same z.media.raSlots n))
    split
    · rfl
    · rfl

theorem randomAreaReclaim_takes {w n : Nat} (hw : w < 4) (hu : u = (s.raFit w).copiesDone w) (hnone : (u.ward w).victims = [])
    (hvictim : u.raVictim w = some n) (hfew : (u.freeRand w).length ≤ 4) : ∃ t, exec (.randomAreaReclaim w) s = .next t ∧
      (n ∈ (t.ward w).victims ∨ look t.media.raSlots n = none) := by
  have hadd : (((u.setWard w fun x => { x with reclaiming := true }).setWard w fun x => { x with victims := x.victims ++ [n] }).ward w).victims = [n] := by
    rw [ward_setWard_same, ward_setWard_same, hnone]
    rfl
  refine ⟨(((u.setWard w fun x => { x with reclaiming := true }).setWard w fun x => { x with victims := x.victims ++ [n] }).reclaimNext n).freeVictims w,
    ?_, freeVictims_one ?_⟩
  · have hsame : (u.setWard w fun x => { x with reclaiming := true }).raVictim w = some n := (setWard_raVictim rfl).trans hvictim
    change execRandomAreaReclaim w s = _
    unfold execRandomAreaReclaim
    rw [if_neg (by omega)]
    dsimp only
    rw [← hu, hnone, decide_eq_true hfew, Bool.true_or, List.find?_nil]
    dsimp only
    rw [if_neg (by simp; omega), hsame]
  · unfold State.ward at hadd ⊢
    rwa [reclaimNext_wards]

/-- Settles O57, clause by clause. -/
theorem mediaCare : Obligations.MediaCare := by
  unfold Obligations.MediaCare
  intro s
  refine ⟨checkpointBegin_begins, fun b => checkpointComplete_ends, fun w hw n => randomAreaReclaim_takes hw rfl, fun d k hwf hk => ⟨?_, ?_, fun v f =>
    relocationCommit_commits hwf hk, ?_⟩, fun h z p => parkingComplete_ends, fun n a b => heldSlotRelease_releases⟩
  · intro new u hreq href hmoves hop hf hmust hdraw
    refine relocation_begins (u := u) hwf hk (moving_false hmoves) hop hf (.inl hmust) ?_ (fun _ => ?_) (hmust.symm ▸ hdraw)
    · rw [refreshPlanes_none href]
      rfl
    · unfold State.askedPlanes
      rw [hreq]
      rfl
  · intro new u hmust hnext hcrossed hdraw
    obtain ⟨hmoving, hop, hf⟩ := nextRefresh_free hnext
    obtain ⟨t, v, ht, hv, hd, hk', hfresh, -⟩ := relocation_begins (u := u) hwf hk hmoving hop hf (.inr hnext) (secondCross_none hcrossed)
      (fun h => absurd h (by simp [hmust])) (hmust.symm ▸ hdraw)
    exact ⟨t, v, ht, hv, hd, hk', hfresh⟩
  · rintro wl hwl hready hf hprog hidle cw hcw i (rfl | ⟨rfl, hnext, hleft⟩)
    · exact patrolRead_plans hwf hk hwl hcw hready hf hprog hidle
    · exact retentionScan_plans hwf hk hwl hcw hready hnext hleft hidle

end Sys2Proof.Machine
end

section
/-! What a reset and a boot find again: the bell number, the power, the firmware banks and the ranks of the DRAM, through the care of the media,
the jobs and the commands that a reset ends (R188, R227, R557, R559). -/

namespace Sys2Proof.Machine

variable {s t u : State} {P : List Part} {d : DieId}

/-! ### What lasts -/

/-- The bell number, the boot count and the periods, the power, what a boot chooses its bank from, and the state of the DRAM ranks. -/
def State.lasting (s : State) : (Nat × Nat × Nat) × Nat × (Bool × Bool × Bool) × (Bool × Image × Image × Tab Nat) × Tab Rank × List Nat :=
  (s.when, s.bell.period, (s.pwr.on, s.pwr.reset, s.pwr.disable), (s.loft.next, s.loft.imgA, s.loft.imgB, s.loft.busy), s.dram.ranks, s.dram.chanOut)

def State.Lasts (s t : State) : Prop := t.lasting = s.lasting

theorem State.Lasts.refl (s : State) : s.Lasts s := rfl

theorem State.Lasts.trans (h : s.Lasts t) (k : t.Lasts u) : s.Lasts u := Eq.trans k h

theorem Lasts.foldl {α : Type} {f : State → α → State} (hf : ∀ s x, State.Lasts s (f s x)) (l : List α) (s : State) : s.Lasts (l.foldl f s) :=
  foldl_same State.lasting hf l s

theorem lasts_of_parts (hb : t.bell = s.bell) (hp : t.pwr = s.pwr) (hl : t.loft = s.loft) (hd : t.dram = s.dram) : s.Lasts t := by
  unfold State.Lasts State.lasting State.when
  rw [hb, hp, hl, hd]

theorem dram_of_mask (h : Part.dram ∉ P) (e : t.mask P = s.mask P) : t.dram = s.dram := (congrArg State.dram (eq_graft e)).trans (if_neg h)

/-- An operation on other parts of the state leaves all of it. -/
theorem lasts_of_mask (h : Part.bell ∉ P ∧ Part.pwr ∉ P ∧ Part.loft ∉ P ∧ Part.dram ∉ P) (e : t.mask P = s.mask P) : s.Lasts t := by
  obtain ⟨hb, hp, hl, hd⟩ := h
  exact lasts_of_parts (bell_of_mask hb e) (pwr_of_mask hp e) (loft_of_mask hl e) (dram_of_mask hd e)

theorem setMedia_lasts (s : State) (f : Media → Media) : s.Lasts (s.setMedia f) := rfl

theorem setDie_lasts (s : State) (d : DieId) (f : Die → Die) : s.Lasts (s.setDie d f) := rfl

theorem setMem_lasts (s : State) (w row i : Nat) (f : Mem → Mem) : s.Lasts (s.setMem w row i f) := rfl

theorem setChan_lasts (s : State) (n : Nat) (f : Chan → Chan) : s.Lasts (s.setChan n f) := rfl

theorem setWard_lasts (s : State) (w : Nat) (f : Ward → Ward) : s.Lasts (s.setWard w f) := rfl

theorem setSlot_lasts (s : State) (n : Nat) (x : SlotUse) : s.Lasts (s.setSlot n x) := rfl

theorem setGroup_lasts (s : State) (d : DieId) (k : Nat) (f : Group → Group) : s.Lasts (s.setGroup d k f) := rfl

theorem setBlock_lasts (s : State) (d : DieId) (p k b : Nat) : s.Lasts (s.setBlock d p k b) := rfl

theorem setZone_lasts (s : State) (z : Nat) (f : Zone → Zone) : s.Lasts (s.setZone z f) := rfl

theorem setJob_lasts (s : State) (j : Nat) (f : Job → Job) : s.Lasts (s.setJob j f) := rfl

theorem journalRec_lasts (s : State) (k : Nat) : s.Lasts (s.journalRec k) := rfl

theorem wearEv_lasts (s : State) (w : Nat) (k : WearKind) (n : Nat) : s.Lasts (s.wearEv w k n) := rfl

theorem loftRecord_lasts (s : State) (a k : Nat) (b : Bytes) : s.Lasts (s.loftRecord a k b) := rfl

theorem notify_lasts (s : State) (f : Nat) (i : W32) : s.Lasts (s.notify f i) :=
  lasts_of_mask (P := [.out, .rdma]) (by decide) (notify_mask (List.Subset.refl _) f i)

theorem eventRaised_lasts (s : State) : s.Lasts { s with bell := { s.bell with eventRaised := true } } := rfl

theorem announced_lasts (s : State) (cls : Nat) : s.Lasts (s.announced cls) := by
  unfold State.announced
  split
  · rfl
  · split
    · exact (eventRaised_lasts s).trans ((notify_lasts _ _ _).trans (notify_lasts _ _ _))
    · rfl

theorem log_lasts (s : State) (l : List Bytes) (n : Nat) : s.Lasts { s with events := l, eventSeq := n } := lasts_of_parts rfl rfl rfl rfl

theorem logged_lasts (s : State) (r : Bytes) : s.Lasts (s.logged r) := log_lasts s _ _

theorem kept_lasts (s : State) (cls : Nat) (r : Bytes) : s.Lasts (s.kept cls r) := by
  unfold State.kept
  split
  · exact (logged_lasts ..).trans (loftRecord_lasts ..)
  · exact logged_lasts ..

theorem event_lasts (s : State) (code cls f : Nat) (x : List (Nat × Nat × Nat)) : s.Lasts (s.event code cls f x) := by
  rw [event_eq]
  exact (kept_lasts ..).trans (announced_lasts ..)

/-! ### Through the care of the media -/

theorem moveChan_lasts (s : State) (n : Nat) (st : ChanState) : s.Lasts (s.moveChan n st) := by
  unfold State.moveChan
  split
  · rfl
  · exact (setChan_lasts ..).trans (event_lasts ..)

theorem prepNext_lasts (s : State) (w : Nat) : s.Lasts (s.prepNext w) :=
  lasts_of_mask (P := [.media]) (by decide) (prepNext_mask (List.Subset.refl _) w)

theorem called_lasts (s : State) (d old : DieId) :
    s.Lasts (if d.ch = 36 && (s.chan (dieChan d)).st = .spare && (s.chan (dieChan old)).st = .failed then s.moveChan (dieChan d) .inService else s) := by
  split
  · exact moveChan_lasts ..
  · rfl

theorem nameSpare_lasts (s : State) (w row i : Nat) : s.Lasts (s.nameSpare w row i) := by
  unfold State.nameSpare
  dsimp only
  split
  · exact (setMem_lasts ..).trans (journalRec_lasts ..)
  · next d shared _ =>
    refine State.Lasts.trans ?_ ((journalRec_lasts ..).trans (event_lasts ..))
    generalize hnamed : State.setMem s w row i _ = m
    have hm : s.Lasts m := by rw [← hnamed]; exact setMem_lasts ..
    refine State.Lasts.trans (t := (m.setDie d fun x => { x with cellarFree := 0 }).prepNext w) (hm.trans ((setDie_lasts ..).trans (prepNext_lasts ..))) ?_
    exact called_lasts ..

theorem redirect_lasts (s : State) (d : DieId) (w row i : Nat) (gone : List Work) : s.Lasts (s.redirect d w row i gone) := rfl

theorem leaveShares_lasts (s : State) (w row i : Nat) (gone : List Work) : s.Lasts (s.leaveShares w row i gone) :=
  lasts_of_mask (P := [.media, .staged]) (by decide) (leaveShares_mask (List.Subset.refl _) w row i gone)

theorem failDie_lasts (s : State) (d : DieId) (cause : Nat) : s.Lasts (s.failDie d cause) := by
  unfold State.failDie
  dsimp only
  split
  · rfl
  · generalize ((s.media.work.filter fun w => w.die = d) ++ ((s.die d).op.map (·.work)).toList) = gone
    have hset : s.Lasts (s.setDie d fun x => { x with failed := true, op := none }) := rfl
    generalize (s.setDie d fun x => { x with failed := true, op := none }) = m at hset ⊢
    have hclear : s.Lasts ((m.setMedia fun x => x.clearDie d).event 0x0020 3 0 (dieDetail d 32 ++ [(35, 1, cause)])) :=
      hset.trans ((setMedia_lasts m fun x => x.clearDie d).trans (event_lasts ..))
    split
    · refine State.Lasts.trans ?_ ((redirect_lasts ..).trans (leaveShares_lasts ..))
      exact hclear.trans (nameSpare_lasts ..)
    · exact hclear

theorem retirePhys_lasts (s : State) (d : DieId) (p b : Nat) : s.Lasts (s.retirePhys d p b) := by
  unfold State.retirePhys
  dsimp only
  split
  · rfl
  · generalize hm : s.setMedia _ = m
    have hadd : s.Lasts m := hm ▸ setMedia_lasts s _
    have hlist : ∀ f g : Die → Die, ∀ v b, s.Lasts ((((m.setDie d f).setDie d g).wearEv v .retired 1).loftRecord 312 recBlock b) := fun f g v b =>
      (hadd.trans ((setDie_lasts ..).trans (setDie_lasts ..))).trans ((wearEv_lasts ..).trans (loftRecord_lasts ..))
    split
    · exact (hlist _ _ _ _).trans (failDie_lasts _ d 2)
    · exact hlist _ _ _ _

theorem retireBlock_lasts (s : State) (d : DieId) (p k : Nat) : s.Lasts (s.retireBlock d p k) := retirePhys_lasts s d p _

theorem noSource_lasts (s : State) (d : DieId) (k : Nat) : s.Lasts (s.noSource d k) := by
  unfold State.noSource
  split
  · exact failDie_lasts s d 3
  · split
    · rfl
    · dsimp only
      refine State.Lasts.trans ?_ ((leaveShares_lasts ..).trans (journalRec_lasts ..))
      exact (setMem_lasts ..).trans (setMedia_lasts ..)

theorem capCheck_lasts (s : State) : s.Lasts s.capCheck := by
  unfold State.capCheck
  dsimp only
  refine State.Lasts.trans ?_ (setMedia_lasts ..)
  split
  · exact event_lasts ..
  · rfl

theorem drawPool_lasts {p b : Nat} (h : s.drawPool d p = some (b, t)) : s.Lasts t :=
  lasts_of_mask (P := [.media]) (by decide) (drawPool_mask (List.Subset.refl _) h)

theorem drawFrom_lasts {p b : Nat} {wet w : Bool} (h : s.drawFrom d p wet = some (b, w, t)) : s.Lasts t := by
  have htaken : ∀ (v : State) (n k : Nat) (x : SlotUse), v.Lasts ((v.setSlot n x).setMedia fun m => { m with poolTaken := k :: m.poolTaken }) :=
    fun _ _ _ _ => rfl
  unfold State.drawFrom at h
  split at h
  · next x hx =>
    obtain ⟨a, v⟩ := x
    rw [← third_of_some h]
    exact drawPool_lasts hx
  · split at h
    · cases h
    · dsimp only at h
      split at h
      · rw [← third_of_some h]
        exact (htaken ..).trans (capCheck_lasts _)
      · split at h
        · cases h
        · split at h
          · rw [← third_of_some h]
            exact State.Lasts.trans (htaken s _ _ _) (setWard_lasts ..)
          · cases h

theorem replaceBlock_lasts (s : State) (d : DieId) (p k : Nat) : s.Lasts (s.replaceBlock d p k) := by
  unfold State.replaceBlock
  split
  · next b wet v hdraw =>
    dsimp only
    have hset := (drawFrom_lasts hdraw).trans ((setBlock_lasts v d p k b).trans (journalRec_lasts _ 2))
    split
    · exact hset.trans ((setGroup_lasts ..).trans (setMedia_lasts ..))
    · exact hset
  · exact noSource_lasts s d k

theorem queueErase_lasts (s : State) (n : Nat) : s.Lasts (s.queueErase n) :=
  lasts_of_mask (P := [.media]) (by decide) (queueErase_mask (List.Subset.refl _) n)

theorem dropSlotWork_lasts (s : State) (n : Nat) : s.Lasts (s.dropSlotWork n) :=
  lasts_of_mask (P := [.media, .staged]) (by decide) (dropSlotWork_mask (List.Subset.refl _) n)

theorem endMoves_lasts (s : State) (n : Nat) : s.Lasts (s.endMoves n) := by
  unfold State.endMoves
  dsimp only
  refine State.Lasts.trans ?_ (Lasts.foldl (fun s d => Lasts.foldl (fun s p => ?_) (List.range 4) s) _ _)
  · refine State.Lasts.trans ?_ (Lasts.foldl (fun s (e : DieId × Nat × List Nat) => Lasts.foldl (fun s p => retireBlock_lasts s e.1 p _) e.2.2 s) _ _)
    exact (lasts_of_mask (P := [.media]) (by decide) (endCopies_mask (List.Subset.refl _) n)).trans (setMedia_lasts ..)
  · split
    · exact replaceBlock_lasts s d p _
    · rfl

theorem rand_lasts (s : State) (x : Tab RUnit) : s.Lasts { s with rand := x } := lasts_of_parts rfl rfl rfl rfl

theorem staged_lasts (s : State) (n : Nat) : s.Lasts { s with staged := n } := lasts_of_parts rfl rfl rfl rfl

theorem freeVictims_lasts (s : State) (w : Nat) : s.Lasts (s.freeVictims w) := by
  unfold State.freeVictims
  refine Lasts.foldl (fun s n => ?_) _ s
  dsimp only
  have hgone : s.Lasts (((({ s with rand := mapV (fun _ (u : RUnit) => if u.slot = n then { u with slot := noPlace, off := 0 } else u) s.rand
      } : State).dropSlotWork n).queueErase n).endMoves n |>.journalRec 0) :=
    (rand_lasts s _).trans ((dropSlotWork_lasts ..).trans ((queueErase_lasts ..).trans ((endMoves_lasts ..).trans (journalRec_lasts ..))))
  generalize State.journalRec _ 0 = v at hgone ⊢
  split
  · exact hgone.trans ((setMedia_lasts ..).trans ((setWard_lasts ..).trans ((setSlot_lasts ..).trans (journalRec_lasts ..))))
  · exact hgone.trans ((setMedia_lasts ..).trans (setWard_lasts ..))

theorem copiesDone_lasts (s : State) (w : Nat) : s.Lasts (s.copiesDone w) := by
  unfold State.copiesDone
  dsimp only
  refine State.Lasts.trans ?_ ((setMedia_lasts ..).trans (freeVictims_lasts _ w))
  refine Lasts.foldl (fun s c => ?_) _ s
  split
  · split
    · exact (rand_lasts s _).trans ((journalRec_lasts ..).trans (setWard_lasts ..))
    · rfl
  · rfl

theorem ckptBegin_lasts (s : State) (cls : Nat) : s.Lasts (s.ckptBegin cls) :=
  lasts_of_mask (P := [.media]) (by decide) (ckptBegin_mask (List.Subset.refl _) cls)

theorem entryCkpt_lasts (s : State) (n : Option Nat) : s.Lasts { s with pwr := { s.pwr with entryCkpt := n } } := rfl

theorem entryStep_lasts (s : State) : s.Lasts s.entryStep := by
  unfold State.entryStep
  split
  · exact (entryCkpt_lasts ..).trans (ckptBegin_lasts _ 5)
  · rfl

theorem streamParked_lasts (s : State) (key : Nat) : s.Lasts (s.streamParked key) := by
  unfold State.streamParked
  dsimp only
  split
  · rfl
  · exact (staged_lasts s _).trans ((setMedia_lasts ..).trans (entryStep_lasts _))

theorem rowJoined_lasts (s : State) (n wl i f : Nat) : s.Lasts ((s.joinParity n wl i).rowStep n wl f) :=
  lasts_of_mask (P := [.media, .staged]) (by decide) ((rowStep_mask (List.Subset.refl _) n wl f).trans (joinParity_mask (by decide) n wl i))

theorem unitPlaced_lasts (s : State) (old : Bool) (d : DieId) (w : Work) : s.Lasts (s.unitPlaced old d w) := by
  unfold State.unitPlaced
  split
  · split
    · rfl
    · dsimp only
      split
      · exact (rowJoined_lasts s _ _ _ _).trans (copiesDone_lasts _ _)
      · exact rowJoined_lasts s _ _ _ _
  · rfl

theorem copyLine_lasts (s : State) (d : DieId) (k : Nat) : s.Lasts (s.copyLine d k) :=
  lasts_of_mask (P := [.media]) (by decide) (copyLine_mask (List.Subset.refl _) d k)

theorem health_lasts (s : State) (h : Health) : s.Lasts { s with health := h } := lasts_of_parts rfl rfl rfl rfl

theorem programDone_lasts (s : State) (d : DieId) (w : Work) : s.Lasts (s.programDone d w) := by
  have hends : s.Lasts (s.programEnds d) :=
    (lasts_of_mask (P := [.media]) (by decide) (opEnds_mask (List.Subset.refl _) d)).trans (health_lasts (s.opEnds d) _)
  have hunit : s.Lasts (s.unitDone d w) := hends.trans ((staged_lasts ..).trans (setGroup_lasts ..))
  have hprog : s.Lasts ((s.programEnds d).programmed d w) := hends.trans (setGroup_lasts ..)
  cases hw : w.why with
  | host =>
    rw [programDone_host hw]
    exact hunit.trans (unitPlaced_lasts ..)
  | parity =>
    rw [programDone_parity hw]
    exact hunit
  | rebuild =>
    unfold State.programDone
    rw [hw]
    dsimp only
    split
    · exact hprog.trans ((setGroup_lasts ..).trans (setMem_lasts ..))
    · exact hends
  | park key =>
    unfold State.programDone
    rw [hw]
    exact hprog.trans (streamParked_lasts _ key)
  | reloc =>
    unfold State.programDone
    rw [hw]
    exact hends.trans ((setMedia_lasts ..).trans (copyLine_lasts _ d w.slot))
  | ckpt => unfold State.programDone; rw [hw]; exact hprog
  | cellar => unfold State.programDone; rw [hw]; exact hends
  | ladder a b c => unfold State.programDone; rw [hw]; exact hends
  | copy a => unfold State.programDone; rw [hw]; exact hends
  | share a b => unfold State.programDone; rw [hw]; exact hends
  | patrol a b => unfold State.programDone; rw [hw]; exact hends
  | reclaim a => unfold State.programDone; rw [hw]; exact hends
  | old a => unfold State.programDone; rw [hw]; exact hends
  | scan a b c => unfold State.programDone; rw [hw]; exact hends
  | internal => unfold State.programDone; rw [hw]; exact hends

end Sys2Proof.Machine
end

section
/-! What a reset finds again after the jobs, the commands and the dies are settled (R188, R227). -/

namespace Sys2Proof.Machine

variable {s t u : State} {P : List Part} {d : DieId}

/-! ### Through reads given up -/

theorem poolLeft_lasts (s : State) (n : Nat) : s.Lasts { s with bell := { s.bell with poolLeft := n } } := rfl

theorem bellNext_lasts (s : State) (l : List Work) : s.Lasts { s with bell := { s.bell with next := l } } := rfl

theorem resumeIfIdle_lasts (s : State) (d : DieId) : s.Lasts (s.resumeIfIdle d) := by
  unfold State.resumeIfIdle
  split
  · rfl
  · split
    · split
      · exact (setDie_lasts ..).trans (poolLeft_lasts ..)
      · rfl
    · rfl

theorem dropSlices_lasts (s : State) (p : Slice → Bool) : s.Lasts (s.dropSlices p) := by
  unfold State.dropSlices
  exact (setMedia_lasts ..).trans (Lasts.foldl resumeIfIdle_lasts _ _)

theorem dropReads_lasts (s : State) (p : SliceFor → Bool) : s.Lasts (s.dropReads p) := by
  unfold State.dropReads
  exact (setMedia_lasts s _).trans ((setMedia_lasts ..).trans (dropSlices_lasts _ _))

theorem dropJobReads_lasts (s : State) (j : Nat) : s.Lasts (s.dropJobReads j) := by
  unfold State.dropJobReads
  dsimp only
  split
  · rfl
  · exact dropReads_lasts s _

/-! ### Through jobs stopped -/

theorem stored_lasts (s : State) (x : Tab StUnit) (n : Nat) (h : Health) (z : Nat) (f : Zone → Zone) :
    s.Lasts (({ s with units := x, staged := n, health := h } : State).setZone z f) := lasts_of_parts rfl rfl rfl rfl

theorem store_lasts (s : State) (z n l : Nat) (us : List StUnit) : s.Lasts (s.store z n l us) := by
  have hplaced : s.Lasts (s.unpark z) := lasts_of_mask (P := [.zones, .media, .staged]) (by decide) (unpark_mask (List.Subset.refl _) z)
  unfold State.store
  dsimp only
  generalize s.unpark z = v at hplaced ⊢
  refine State.Lasts.trans ?_ (journalRec_lasts _ 1)
  split
  · refine State.Lasts.trans ?_ (lasts_of_mask (P := [.media, .staged]) (by decide) (queueUnits_mask (List.Subset.refl _) ..))
    exact hplaced.trans (stored_lasts ..)
  · exact hplaced.trans (stored_lasts ..)

theorem fns_lasts (s : State) (f : Nat) (g : Fn → Fn) : s.Lasts (s.setFn f g).commit.2 := lasts_of_parts rfl rfl rfl rfl

theorem appendJob_lasts {x : Job} {q : Req} {a b : Nat} (h : s.appendJob x q = some (a, b, t)) : s.Lasts t := by
  obtain rfl | ⟨_, _, _, _, _, rfl⟩ := appendJob_stores h
  · rfl
  · exact (fns_lasts s _ _).trans (store_lasts _ _ _ _ _)

theorem acceptAppends_lasts (s : State) (j : Nat) : s.Lasts (s.acceptAppends j) := by
  unfold State.acceptAppends
  split
  · refine Lasts.foldl (fun s q => ?_) _ s
    split
    · next h => exact appendJob_lasts h
    · rfl
  · rfl

theorem trace_lasts (s : State) (a b c d e f) : s.Lasts (s.trace a b c d e f) :=
  lasts_of_mask (P := [.disp]) (by decide) (trace_mask (List.Subset.refl _) a b c d e f)

theorem dropItems_lasts (s : State) (j : Nat) : s.Lasts (s.dropItems j) := by
  unfold State.dropItems
  dsimp only
  refine State.Lasts.trans ?_ (lasts_of_mask (P := [.cores, .hamlets, .disp]) (by decide) (mask_cores_hamlets_disp (by decide) ..))
  refine State.Lasts.trans ?_ (Lasts.foldl (fun s e => ?_) _ _)
  · refine State.Lasts.trans ((acceptAppends_lasts s j).trans (dropJobReads_lasts _ j)) (Lasts.foldl (fun s e => ?_) _ _)
    exact Lasts.foldl (fun s x => trace_lasts s ..) _ s
  · refine State.Lasts.trans ?_ (Lasts.foldl (fun s x => trace_lasts s ..) _ _)
    split
    · split
      · exact trace_lasts s ..
      · rfl
    · rfl

theorem dropScans_lasts (s : State) (j : Nat) : s.Lasts (s.dropScans j) := by
  unfold State.dropScans
  exact (dropReads_lasts s _).trans ((setMedia_lasts ..).trans (bellNext_lasts _ _))

theorem hamlets_jobs_lasts (s : State) (a b) : s.Lasts { s with hamlets := a, jobs := b } := lasts_of_parts rfl rfl rfl rfl

theorem removeJob_lasts (s : State) (j : Nat) : s.Lasts (s.removeJob j) := by
  unfold State.removeJob
  exact (dropItems_lasts s j).trans ((dropScans_lasts ..).trans (hamlets_jobs_lasts ..))

theorem complete_lasts (s : State) (r : Ref) (x : Done) : s.Lasts (s.complete r x) :=
  lasts_of_mask (P := [.out, .rdma, .sqs, .cqs, .aborts, .zones]) (by decide) (complete_mask (List.Subset.refl _) r x)

theorem faultRecord_lasts (s : State) (f : Nat) (b : Bytes) : s.Lasts (s.faultRecord f b) :=
  lasts_of_mask (P := [.fns]) (by decide) (faultRecord_mask (List.Subset.refl _) f b)

theorem endJob_lasts (s : State) (j : Nat) (x : Done) : s.Lasts (s.endJob j x) := by
  unfold State.endJob
  split
  · dsimp only
    refine State.Lasts.trans ?_ (complete_lasts ..)
    split
    · exact (faultRecord_lasts ..).trans (removeJob_lasts ..)
    · exact removeJob_lasts ..
  · rfl

theorem ledger_lasts (s : State) (n : Nat) : s.Lasts { s with ledger := n } := lasts_of_parts rfl rfl rfl rfl

theorem go_inj {a b : State} (h : go a = .next b) : a = b := Host.Outcome.next.inj h

theorem outputAppend_lasts {j : Nat} (h : execOutputAppend j s = .next t) : s.Lasts t := by
  unfold execOutputAppend at h
  split at h
  · split at h
    · rw [← go_inj h]
      rfl
    · dsimp only at h
      split at h
      · rw [← go_inj h]
        rfl
      · split at h
        · rw [← go_inj h]
          exact endJob_lasts ..
        · split at h
          · rw [← go_inj h]
            exact endJob_lasts ..
          · split at h
            · rw [← go_inj h]
              exact endJob_lasts ..
            · split at h
              · rw [← go_inj h]
                rfl
              · rw [← go_inj h]
                exact (ledger_lasts s _).trans ((store_lasts ..).trans (setJob_lasts ..))
  · rw [← go_inj h]
    rfl

theorem appendRest_lasts (s : State) (j : Nat) : s.Lasts (s.appendRest j) := by
  unfold State.appendRest
  split
  · next h => exact outputAppend_lasts h
  · rfl

theorem stopItems_lasts (s : State) (j : Nat) : s.Lasts (s.stopItems j) := by
  unfold State.stopItems
  exact (dropItems_lasts s j).trans ((dropScans_lasts ..).trans (setJob_lasts ..))

theorem deliver_lasts (s : State) (j : Nat) : s.Lasts (s.deliver j) :=
  lasts_of_mask (P := [.out, .rdma, .jobs]) (by decide) (deliver_mask (List.Subset.refl _) j)

theorem stopJob_lasts (s : State) (j : Nat) : s.Lasts (s.stopJob j) := by
  unfold State.stopJob
  split
  · rfl
  · split
    · dsimp only
      refine State.Lasts.trans ?_ ((setJob_lasts ..).trans (endJob_lasts ..))
      refine State.Lasts.trans ?_ ((appendRest_lasts _ j).trans ((appendRest_lasts _ j).trans (deliver_lasts _ j)))
      exact (stopItems_lasts s j).trans (setJob_lasts ..)
    · exact removeJob_lasts s j

theorem dropJobs_lasts (s : State) : s.Lasts s.dropJobs := Lasts.foldl removeJob_lasts _ s

/-! ### Through commands, dies and erases -/

theorem rdma_lasts (s : State) (l : List RdmaOp) : s.Lasts { s with rdma := l } := lasts_of_parts rfl rfl rfl rfl

theorem dropWork_lasts (s : State) (r : Ref) : s.Lasts (s.dropWork r) := by
  unfold State.dropWork
  exact (dropReads_lasts s _).trans (rdma_lasts ..)

theorem resetCmd_lasts (s : State) (r : Ref) : s.Lasts (s.resetCmd r) := by
  unfold State.resetCmd
  split
  · rfl
  · split
    · split
      · exact complete_lasts ..
      · exact complete_lasts ..
    · exact (dropWork_lasts ..).trans (complete_lasts ..)

theorem settleDie_lasts (s : State) (d : DieId) : s.Lasts (s.settleDie d) := by
  unfold State.settleDie
  split
  · rfl
  · split
    · exact programDone_lasts ..
    · exact (setDie_lasts ..).trans (setMedia_lasts ..)
    · exact setDie_lasts ..

theorem settleDies_lasts (s : State) : s.Lasts s.settleDies := Lasts.foldl settleDie_lasts _ s

theorem abortErase_idle {b : Nat} (h : s.loft.busy = []) : s.abortErase b = s := by
  unfold State.abortErase
  rw [h]
  rfl

theorem abortErases_idle (h : s.loft.busy = []) : s.abortErases = s := by
  unfold State.abortErases
  rw [List.foldl_cons, List.foldl_cons, List.foldl_cons, abortErase_idle h, abortErase_idle h, abortErase_idle h]
  rfl

theorem busy_of_lasts (h : s.Lasts t) : t.loft.busy = s.loft.busy :=
  congrArg (fun x : (Nat × Nat × Nat) × Nat × (Bool × Bool × Bool) × (Bool × Image × Image × Tab Nat) × Tab Rank × List Nat => x.2.2.2.1.2.2.2) h

/-- The state of a reset before its bells stop. -/
def State.settled (s : State) : State :=
  let s := (s.jobs.map (·.1)).foldl State.stopJob s
  let s := s.postDue
  let waits := s.aborts
  let s := (s.allCmds.filter fun r => !waits.any fun a => a.r = r).foldl State.resetCmd s
  let s := waits.foldl (fun s a => s.complete a.r { status := a.status, ledger := (s.cmd a.r).bind (·.ledger) }) s
  s.settleDies.abortErases.dropJobs

theorem resetBegins_eq (s : State) : s.resetBegins = s.settled.stopBells := rfl

/-- What is left of a reset after its commands and dies are settled are the erases of the loft and the jobs. -/
theorem settled_eq (s : State) : ∃ x, s.Lasts x ∧ s.settled = x.abortErases.dropJobs := by
  have hstop := Lasts.foldl stopJob_lasts (s.jobs.map (·.1)) s
  generalize hv : (s.jobs.map (·.1)).foldl State.stopJob s = v at hstop
  have hpost : s.Lasts v.postDue := hstop.trans (lasts_of_mask (P := [.out, .rdma, .sqs, .cqs, .due, .aborts, .zones]) (by decide)
    (postDue_mask (List.Subset.refl _)))
  have hdone := hpost.trans ((Lasts.foldl resetCmd_lasts (v.postDue.allCmds.filter fun r => !v.postDue.aborts.any fun a => a.r = r) _).trans
    (Lasts.foldl (fun s (a : AbortWait) => complete_lasts s a.r { status := a.status, ledger := (s.cmd a.r).bind (·.ledger) }) v.postDue.aborts _))
  refine ⟨_, hdone.trans (settleDies_lasts _), ?_⟩
  unfold State.settled
  rw [hv]

theorem settled_lasts (h : s.loft.busy = []) : s.Lasts s.settled := by
  obtain ⟨x, hx, heq⟩ := settled_eq s
  rw [heq, abortErases_idle ((busy_of_lasts hx).trans h)]
  exact hx.trans (dropJobs_lasts x)

end Sys2Proof.Machine
end

section
/-! The bell number, the boot count and the period through the steps of a boot (R559, R562). -/

namespace Sys2Proof.Machine

variable {s t u : State} {P : List Part} {d : DieId}

theorem State.Lasts.when (h : s.Lasts t) : t.when = s.when := congrArg (·.1) h

/-! ### Through the ranks and the channels -/

theorem moveRank_when (s : State) (n : Nat) (st : RankState) : (s.moveRank n st).when = s.when := by
  unfold State.moveRank
  dsimp only
  split
  · rfl
  · rw [event_when]
    rfl

theorem endMigrations_when (s : State) : s.endMigrations.when = s.when := by
  unfold State.endMigrations
  refine foldl_same State.when (fun s n => ?_) _ s
  split
  · split
    · exact moveRank_when ..
    · rfl
  · split
    · rfl
    · exact moveRank_when ..
  · rfl

theorem dropRanks_none_when (s : State) : (s.dropRanks []).when = s.when := rfl

theorem setRank_when (s : State) (n : Nat) (f : Rank → Rank) : (s.setRank n f).when = s.when := rfl

theorem trainRanks_none_when (s : State) (eye : Nat × Nat) : (s.trainRanks [] eye).when = s.when := by
  unfold State.trainRanks
  dsimp only
  refine (foldl_same State.when (fun s n => setRank_when s n _) _ _).trans ((foldl_same State.when (fun s n => moveRank_when s n _) _ _).trans ?_)
  exact (dropRanks_none_when _).trans (endMigrations_when s)

theorem cutAllotments_when (s : State) : s.cutAllotments.when = s.when := by
  unfold State.cutAllotments
  dsimp only
  split
  · rfl
  · rw [event_when]
    rfl

theorem remirrorPair_when (s : State) (p : Nat) : (s.remirrorPair p).when = s.when := by
  unfold State.remirrorPair
  dsimp only
  split
  · rfl
  · unfold State.losePlain
    exact (cutAllotments_when _).trans rfl

theorem nameAgain_lasts (s : State) (w : Nat) : s.Lasts (s.nameAgain w) := Lasts.foldl (fun s _ => nameSpare_lasts s _ _ _) _ s

theorem chanFailed_lasts (s : State) (n : Nat) : s.Lasts (s.chanFailed n) :=
  ((moveChan_lasts s n .failed).trans (Lasts.foldl (fun s d => failDie_lasts s d 4) _ _)).trans (nameAgain_lasts ..)

theorem attemptFailed_lasts (s : State) (n : Nat) : s.Lasts (s.attemptFailed n) := by
  unfold State.attemptFailed
  dsimp only
  split
  · exact (setChan_lasts ..).trans (chanFailed_lasts ..)
  · exact setChan_lasts ..

theorem trained_lasts (s : State) (n : Nat) (x : Train) : s.Lasts (s.trained n x) := by
  unfold State.trained
  dsimp only
  refine State.Lasts.trans ?_ ((Lasts.foldl (fun s p => failDie_lasts s (dieAt n p) 0) _ _).trans (nameAgain_lasts ..))
  refine State.Lasts.trans ?_ (setChan_lasts ..)
  split
  · exact moveChan_lasts ..
  · split
    · exact moveChan_lasts ..
    · rfl

theorem trainChan_lasts (n : Nat) (eye : Nat × Nat) : ∀ (k : Nat) (s : State) (l : List Train), s.Lasts (s.trainChan n eye k l)
  | 0, s, _ => .refl s
  | k + 1, s, l => by
    unfold State.trainChan
    dsimp only
    split
    · exact trained_lasts ..
    · exact (attemptFailed_lasts ..).trans (trainChan_lasts n eye k _ _)

theorem trainChans_lasts (s : State) (cs : List (Nat × List Train)) (eye : Nat × Nat) : s.Lasts (s.trainChans cs eye) :=
  Lasts.foldl (fun s n => (setChan_lasts s n _).trans (trainChan_lasts n eye 3 _ _)) _ s

/-! ### Through the maps restored -/

theorem rowLost_lasts (s : State) (n o : Nat) : s.Lasts (s.rowLost n o) := by
  have hlose : s.Lasts (s.loseUnits n o 64) := lasts_of_mask (P := [.media]) (by decide) (loseUnits_mask (List.Subset.refl _) n o 64)
  unfold State.rowLost
  dsimp only
  split
  · exact hlose.trans (event_lasts ..)
  · exact hlose.trans (Lasts.foldl (fun s h => event_lasts ..) _ _)

theorem restoreRow_lasts (s : State) (g : Option (Tab Bytes)) (homes : List (Nat × Nat × Nat)) (bad : List Nat) (n r : Nat) :
    s.Lasts (s.restoreRow g homes bad n r) := by
  unfold State.restoreRow
  dsimp only
  split
  · exact Lasts.foldl (fun s _ => rowLost_lasts s n _) _ s
  · exact setMedia_lasts ..

theorem queueParity_lasts (s : State) (n r f : Nat) : s.Lasts (s.queueParity n r f) :=
  lasts_of_mask (P := [.media, .staged]) (by decide) (queueParity_mask (List.Subset.refl _) n r f)

theorem reparity_lasts (s : State) (n fill : Nat) : s.Lasts (s.reparity n fill) :=
  Lasts.foldl (fun s r => (restoreRow_lasts s none [] [] n r).trans (queueParity_lasts ..)) _ s

theorem drawFour_lasts {all : Bool} {new : List (Nat × Nat)} (h : s.drawFour d all = some (new, u)) : s.Lasts u :=
  DrawKept.four ⟨State.Lasts.refl, State.Lasts.trans, drawPool_lasts, drawFrom_lasts⟩ h

theorem rewind_lasts (s : State) (n fill : Nat) : s.Lasts (s.rewind n fill) := by
  unfold State.rewind
  refine Lasts.foldl (fun s i => ?_) _ s
  dsimp only
  split
  · rfl
  · split
    · next h => exact (drawFour_lasts h).trans (setMedia_lasts ..)
    · exact noSource_lasts ..

theorem refit_lasts (s : State) (n fill : Nat) : s.Lasts (s.refit n fill) := by
  unfold State.refit
  dsimp only
  split
  · exact (reparity_lasts ..).trans (rewind_lasts ..)
  · exact (reparity_lasts ..).trans ((rewind_lasts ..).trans (restoreRow_lasts ..))

theorem allUnits_lasts (s : State) (x : Tab StUnit) : s.Lasts { s with units := x } := lasts_of_parts rfl rfl rfl rfl

theorem refitZone_lasts (s : State) (k : Nat) : s.Lasts (s.refitZone k) := by
  unfold State.refitZone
  dsimp only
  split
  · rfl
  · split
    · exact (Lasts.foldl (fun s pu => rowLost_lasts s _ (64 * pu)) _ s).trans (reparity_lasts ..)
    · refine State.Lasts.trans ?_ (refit_lasts ..)
      exact (setZone_lasts s k _).trans (allUnits_lasts ..)

theorem refitRand_lasts (s : State) (n : Nat) (x : RaSlot) : s.Lasts (s.refitRand n x) := by
  unfold State.refitRand
  dsimp only
  refine State.Lasts.trans ?_ (refit_lasts ..)
  exact (rand_lasts s _).trans (setMedia_lasts ..)

/-- The saved maps taken up as a boot finds them, but for what stands on the flash. -/
theorem fromCheckpoint_lasts (s : State) : s.Lasts s.fromCheckpoint := by
  unfold State.fromCheckpoint
  dsimp only
  refine State.Lasts.trans ?_ (Lasts.foldl (fun s (e : Nat × RaSlot) => refitRand_lasts s e.1 e.2) _ _)
  refine State.Lasts.trans ?_ (Lasts.foldl refitZone_lasts _ _)
  refine State.Lasts.trans ?_ (Lasts.foldl queueErase_lasts _ _)
  refine State.Lasts.trans ?_ (Lasts.foldl (fun s (e : Nat × Mem) => nameSpare_lasts s _ _ _) _ _)
  refine State.Lasts.trans ?_ (Lasts.foldl (fun s (e : DieId × Nat × Nat) => setGroup_lasts s _ _ _) _ _)
  exact lasts_of_parts rfl rfl rfl rfl

theorem ckptComplete_when (s : State) (b : Nat) : (s.ckptComplete b).when = s.when :=
  when_of_mask (P := [.media, .pwr]) (by decide) (ckptComplete_mask (List.Subset.refl _) b)

theorem restoreCkpt_when (s : State) : s.restoreCkpt.when = s.when := by
  unfold State.restoreCkpt
  dsimp only
  split
  · exact (ckptBegin_lasts s 5).when
  · refine (ckptComplete_when _ _).trans ((State.Lasts.trans (ckptBegin_lasts s 5) ?_).when)
    exact Lasts.foldl (fun s w => (setMedia_lasts ..).trans (programDone_lasts ..)) _ _

theorem replayMaps_lasts (s : State) (l : List JRec) : s.Lasts (s.replayMaps l) :=
  lasts_of_mask (P := [.zones, .rand, .media]) (by decide) (replayMaps_mask (List.Subset.refl _) l)

theorem restoreItem_lasts (s : State) (x : DumpItem) : s.Lasts (s.restoreItem x) :=
  lasts_of_mask (P := [.ledger, .units, .media, .sieve]) (by decide) (restoreItem_mask (List.Subset.refl _) x)

theorem restored_when (s : State) (n : Nat) (b : Boot) : { s with staged := n, boot := b }.when = s.when := rfl

theorem restoreDump_when (s : State) (x : Dump) (bad : List (Nat × Nat × Nat)) : (s.restoreDump x bad).when = s.when := by
  unfold State.restoreDump
  dsimp only
  rw [restoreCkpt_when, restored_when]
  exact (((replayMaps_lasts s x.recs).trans (Lasts.foldl restoreItem_lasts _ _)).trans (Lasts.foldl (fun s _ => restoreRow_lasts ..) _ _)).when

theorem releaseDumps_when (s : State) : s.releaseDumps.when = s.when := rfl

theorem usable_when (s : State) (n : Nat) : { s with pwr := { s.pwr with usable := n } }.when = s.when := rfl

/-! ### Through the rest of a boot -/

theorem releaseSlot_lasts (s : State) (n : Nat) : s.Lasts (s.releaseSlot n) := by
  unfold State.releaseSlot
  exact (dropSlotWork_lasts s n).trans ((queueErase_lasts ..).trans ((endMoves_lasts ..).trans ((setSlot_lasts ..).trans (journalRec_lasts ..))))

theorem unparked_when (s : State) (held : Bool) (z n : Nat) :
    (if held then s.unpark z else { s with staged := n }.unparkZone z).when = s.when := by
  split
  · exact when_of_mask (P := [.zones, .media, .staged]) (by decide) (unpark_mask (List.Subset.refl _) z)
  · exact when_of_mask (P := [.zones, .media, .staged]) (by decide) (unparkZone_mask (by decide) z)

theorem emptyZone_when (s : State) (z : Nat) : (s.emptyZone z).when = s.when := by
  unfold State.emptyZone
  dsimp only
  split
  · rfl
  · next n _ =>
    have hv := unparked_when s (s.scanned n) z (s.staged - (s.zone z).stagedPart)
    generalize (if s.scanned n then s.unpark z else State.unparkZone { s with staged := s.staged - (s.zone z).stagedPart } z) = v at hv ⊢
    have hb : ((v.setZone z fun x => { Zone.fresh with fence := x.fence }).setMedia fun m =>
        { m with lostUnits := m.lostUnits.filter fun k => k / 2 ^ 20 ≠ z }).when = s.when := hv
    generalize ((v.setZone z fun x => { Zone.fresh with fence := x.fence }).setMedia fun m =>
        { m with lostUnits := m.lostUnits.filter fun k => k / 2 ^ 20 ≠ z }) = b at hb ⊢
    split
    · have hc : (b.dropSlotWork n).when = s.when := (dropSlotWork_lasts b n).when.trans hb
      generalize b.dropSlotWork n = c at hc ⊢
      refine (journalRec_lasts _ 0).when.trans ((setSlot_lasts ..).when.trans ?_)
      exact (lasts_of_mask (P := [.media]) (by decide) (endCopies_mask (List.Subset.refl _) n)).when.trans hc
    · exact (releaseSlot_lasts _ n).when.trans hb

theorem holds_when (s : State) (h : Tab Holding) (z : Tab Zone) (r : Tab RUnit) (c : Tab Nat) :
    { s with holds := h, zones := z, rand := r, cursors := c }.when = s.when := rfl

theorem sieve_when (s : State) (v : Sieve) : { s with sieve := v }.when = s.when := rfl

theorem dropHolding_when (s : State) (h : Nat) : (s.dropHolding h).when = s.when := by
  unfold State.dropHolding
  dsimp only
  refine ((capCheck_lasts _).when).trans ((journalRec_lasts _ 0).when.trans ?_)
  refine (when_of_mask (P := [.free, .loft]) (by decide) (zeroKeys_mask (List.Subset.refl _) _)).trans ?_
  exact (holds_when _ _ _ _ _).trans ((setMedia_lasts ..).when.trans (foldl_same State.when emptyZone_when _ _))

theorem returnBoot_when (s : State) : s.returnBoot.when = s.when := by
  unfold State.returnBoot
  split
  · rfl
  · dsimp only
    refine (sieve_when _ _).trans ?_
    refine (foldl_same State.when (fun s f => ?_) _ _).trans ((foldl_same State.when dropHolding_when _ _).trans ?_)
    · exact when_of_mask (P := [.rdma, .ledger, .net, .fns, .sqs, .cqs, .sems, .due, .aborts, .sieve]) (by decide) (removeFn_mask (List.Subset.refl _) f)
    · exact when_of_mask (P := [.free, .loft]) (by decide) (zeroKeys_mask (List.Subset.refl _) _)

theorem retireRow_when (s : State) (p : Nat) : (s.retireRow p).when = s.when := by
  unfold State.retireRow
  dsimp only
  split
  · rfl
  · split
    · rw [event_when]
      exact (loftRecord_lasts _ _ _ _).when.trans (sieve_when s _)
    · split
      · exact (event_when ..).trans (sieve_when s _)
      · exact sieve_when s _

theorem setPort_when (s : State) (p : PortId) (f : Port → Port) : (s.setPort p f).when = s.when :=
  when_of_mask (P := [.portA, .portB]) (by decide) (setPort_mask (List.Subset.refl _) p f)

theorem judgeOptic_when (s : State) (p : PortId) : (s.judgeOptic p).when = s.when := by
  unfold State.judgeOptic
  split
  · split
    · rw [event_when, setPort_when]
    · exact setPort_when ..
  · rfl

theorem tryTrain_when (s : State) (p : PortId) : (s.tryTrain p).when = s.when := by
  unfold State.tryTrain
  dsimp only
  split
  · exact movePort_when ..
  · rfl

theorem inletAtBoot_when (s : State) (t : Int) : (s.inletAtBoot t).when = s.when := by
  unfold State.inletAtBoot
  dsimp only
  split
  · exact (tempEvent_when ..).trans (health_lasts s _).when
  · exact (health_lasts s _).when

end Sys2Proof.Machine
end

section
/-! A boot that nothing stops, from its entry to READY (R559, R561, R562). -/

namespace Sys2Proof.Machine

variable {s t u : State} {P : List Part} {L : Nat}

/-! ### What a boot keeps on its way -/

/-- The contacts and the supply. -/
def State.power (s : State) : Bool × Bool × Bool := (s.pwr.on, s.pwr.reset, s.pwr.disable)

theorem State.Lasts.power (h : s.Lasts t) : t.power = s.power := congrArg (·.2.2.1) h

/-- A step of a boot keeps the boot count, the period, the supply and what the boot is held or stopped by; its bell number stays within `L`. -/
structure State.Goes (L : Nat) (s t : State) : Prop where
  count : t.bell.boot = s.bell.boot
  active : t.bell.active = s.bell.active
  now : s.bell.now ≤ L → t.bell.now ≤ L
  power : t.power = s.power
  halted : t.boot.halted = s.boot.halted
  held : t.boot.held = s.boot.held
  due : s.due = [] → t.due = []

theorem State.Goes.refl (s : State) : s.Goes L s := ⟨rfl, rfl, id, rfl, rfl, rfl, id⟩

theorem State.Goes.trans (h : s.Goes L t) (k : t.Goes L u) : s.Goes L u :=
  ⟨k.count.trans h.count, k.active.trans h.active, k.now ∘ h.now, k.power.trans h.power, k.halted.trans h.halted, k.held.trans h.held, k.due ∘ h.due⟩

theorem Goes.foldl {α : Type} {f : State → α → State} (hf : ∀ s x, State.Goes L s (f s x)) (l : List α) (s : State) : s.Goes L (l.foldl f s) := by
  induction l generalizing s with
  | nil => exact .refl s
  | cons x l ih => exact (hf s x).trans (ih _)

theorem goes_of_eq (hw : t.when = s.when) (hp : t.power = s.power) (hh : t.boot.halted = s.boot.halted) (hd : t.boot.held = s.boot.held)
    (hdue : s.due = [] → t.due = []) : s.Goes L t where
  count := congrArg (·.2.1) hw
  active := congrArg (·.2.2) hw
  now := (congrArg (·.1) hw : t.bell.now = s.bell.now) ▸ id
  power := hp
  halted := hh
  held := hd
  due := hdue

theorem due_of_mask (h : Part.due ∉ P) (e : t.mask P = s.mask P) : t.due = s.due := (congrArg State.due (eq_graft e)).trans (if_neg h)

/-- A step that leaves the bell number, the supply, the boot state and the completions held back. -/
theorem goes_of_mask (h : Part.pwr ∉ P ∧ Part.boot ∉ P ∧ Part.due ∉ P) (hw : t.when = s.when) (e : t.mask P = s.mask P) : s.Goes L t := by
  obtain ⟨hp, hb, hd⟩ := h
  have hboot := boot_of_mask hb e
  refine goes_of_eq hw ?_ (hboot ▸ rfl) (hboot ▸ rfl) (due_of_mask hd e ▸ id)
  unfold State.power
  rw [pwr_of_mask hp e]

theorem stamp_when (s : State) : s.stamp.when = s.when := by
  unfold State.stamp
  split
  · rfl
  · rfl

/-- The boot count and the period. -/
def State.era (s : State) : Nat × Nat := (s.bell.boot, s.bell.active)

theorem era_of_when (h : t.when = s.when) : t.era = s.era := congrArg (·.2) h

theorem nowSet_era (s : State) (n : Nat) : { s with bell := { s.bell with now := n } }.era = s.era := rfl

theorem comeTo_bell (s : State) (b : Nat) : (s.comeTo b).era = s.era ∧ (s.comeTo b).bell.now = max s.bell.now b := by
  unfold State.comeTo
  split
  · exact ⟨rfl, by omega⟩
  · refine ⟨(nowSet_era _ b).trans (foldl_same State.era (fun s i => ?_) _ s), by dsimp only; omega⟩
    exact (era_of_when (stamp_when _)).trans (nowSet_era s _)

theorem comeTo_boot (s : State) (b : Nat) : (s.comeTo b).boot = s.boot := boot_of_mask (P := [.bell]) (by decide) (comeTo_mask (List.Subset.refl _) b)

theorem stepMs_le {e : BootEnv} (h : ∀ m ∈ e.stepMs, m ≤ e.ms) (n : Nat) : e.stepMs.getD n 0 ≤ e.ms := by
  by_cases hn : n < e.stepMs.length
  · rw [List.getD_eq_getElem _ _ hn]
    exact h _ (List.getElem_mem hn)
  · rw [List.getD_eq_default _ _ (by omega)]
    omega

theorem comeTo_goes {b : Nat} (h : b ≤ L) : s.Goes L (s.comeTo b) := by
  obtain ⟨hera, hnow⟩ := comeTo_bell s b
  have hmask := comeTo_mask (s := s) (List.Subset.refl _) b
  have hboot := comeTo_boot s b
  refine ⟨congrArg (·.1) hera, congrArg (·.2) hera, fun hs => hnow.trans_le (Nat.max_le.2 ⟨hs, h⟩), ?_, hboot ▸ rfl, hboot ▸ rfl, ?_⟩
  · exact congrArg (fun p : Pwr => (p.on, p.reset, p.disable)) (pwr_of_mask (P := [.bell]) (by decide) hmask)
  · exact fun hs => (due_of_mask (P := [.bell]) (by decide) hmask).trans hs

theorem step_goes (s : State) (n : Nat) : s.Goes L { s with boot := { s.boot with step := n } } := ⟨rfl, rfl, id, rfl, rfl, rfl, id⟩

theorem enter_goes {e : BootEnv} {p : Nat} (h : ∀ m ∈ e.stepMs, m ≤ e.ms) (hp : s.period = p) (n : Nat) : s.Goes (e.ms * 1000 / p) (s.enter e n) := by
  have hle : e.stepMs.getD (n - 2) 0 * 1000 / s.period ≤ e.ms * 1000 / p := hp ▸ Nat.div_le_div_right (Nat.mul_le_mul_right _ (stepMs_le h _))
  unfold State.enter
  exact (comeTo_goes hle).trans (step_goes _ n)

theorem State.Goes.period (h : s.Goes L t) : t.period = s.period := congrArg periodUs h.active

/-! ### The ranks, the cores and the channels -/

theorem trainRanks_goes (s : State) (eye : Nat × Nat) : s.Goes L (s.trainRanks [] eye) :=
  goes_of_mask (P := [.free, .out, .rdma, .ledger, .bell, .fns, .sqs, .cqs, .aborts, .zones, .units, .media, .staged,
    .jobs, .cores, .hamlets, .disp, .dram, .loft, .health, .events, .eventSeq]) (by decide) (trainRanks_none_when s eye)
    (trainRanks_mask (List.Subset.refl _) [] eye)

theorem dropRanks_goes (s : State) : s.Goes L (s.dropRanks []) := ⟨rfl, rfl, id, rfl, rfl, rfl, id⟩

theorem remirrorPair_goes (s : State) (p : Nat) : s.Goes L (s.remirrorPair p) :=
  goes_of_mask (P := [.out, .rdma, .bell, .fns, .dram, .loft, .events, .eventSeq]) (by decide) (remirrorPair_when s p)
    (remirrorPair_mask (List.Subset.refl _) p)

theorem coresCounted_goes (s : State) (l : Loft) (m n : Nat) : s.Goes L { s with loft := l, ctlCores := m, ctlSpares := n } := ⟨rfl, rfl, id, rfl, rfl, rfl, id⟩

theorem trainChans_goes (s : State) (cs : List (Nat × List Train)) (eye : Nat × Nat) : s.Goes L (s.trainChans cs eye) :=
  goes_of_mask (P := [.out, .rdma, .bell, .media, .staged, .dram, .loft, .events, .eventSeq]) (by decide) (trainChans_lasts s cs eye).when
    (trainChans_mask (List.Subset.refl _) cs eye)

theorem banked_goes (s : State) {b : Boot} (l : Loft) (hh : b.halted = s.boot.halted) (hd : b.held = s.boot.held) :
    s.Goes L { s with boot := b, loft := l } := ⟨rfl, rfl, id, rfl, hh, hd, id⟩

theorem flushLoft_goes (s : State) : s.Goes L s.flushLoft :=
  ⟨rfl, rfl, id, rfl, rfl, rfl, id⟩

theorem Goes.ite {c : Prop} [Decidable c] (hu : s.Goes L u) (ht : s.Goes L t) : s.Goes L (if c then u else t) := by
  split
  · exact hu
  · exact ht

theorem bootTo_goes {e : BootEnv} {p : Nat} (h : ∀ m ∈ e.stepMs, m ≤ e.ms) (hp : s.period = p) (hr : e.ranksBad = []) (hf : e.fillBad = []) (k : Nat) :
    s.Goes (e.ms * 1000 / p) (s.bootTo e k) := by
  unfold State.bootTo
  rw [hr, hf]
  generalize (s.chooseBank e.bankBad).getD (false, false) = x
  obtain ⟨b, c⟩ := x
  dsimp -zeta only
  extract_lets _ _ s1 s2 s3 s4 _ _ s5 s6
  have h1 : s.Goes (e.ms * 1000 / p) s1 := by
    refine Goes.ite (State.Goes.trans ?_ (flushLoft_goes _)) (.refl s)
    exact banked_goes s _ rfl rfl
  have h2 : s.Goes (e.ms * 1000 / p) s2 := Goes.ite (h1.trans ((enter_goes h (h1.period.trans hp) 6).trans (trainRanks_goes ..))) h1
  have h3 : s.Goes (e.ms * 1000 / p) s3 := Goes.ite (h2.trans ((enter_goes h (h2.period.trans hp) 7).trans (dropRanks_goes _))) h2
  have h4 : s.Goes (e.ms * 1000 / p) s4 := Goes.ite (h3.trans (Goes.foldl remirrorPair_goes _ _)) h3
  have h5 : s.Goes (e.ms * 1000 / p) s5 := by
    refine Goes.ite ((h4.trans (enter_goes h (h4.period.trans hp) 8)).trans ?_) h4
    exact coresCounted_goes _ _ _ _
  have h6 : s.Goes (e.ms * 1000 / p) s6 := Goes.ite (h5.trans ((enter_goes h (h5.period.trans hp) 9).trans (trainChans_goes ..))) h5
  exact h6.trans (enter_goes h (h6.period.trans hp) k)

/-! ### The maps -/

theorem ckptComplete_power (s : State) (b : Nat) : (s.ckptComplete b).power = s.power := by
  have hfreed : (s.slotsFreed (s.media.slots.filter fun e => e.2.ripe s.media.begun)).power = s.power :=
    congrArg (fun p : Pwr => (p.on, p.reset, p.disable)) (freed_pwr (s.media.slots.filter fun e => e.2.ripe s.media.begun) s)
  have hclosed : (s.ckptClosed b).power = s.power := hfreed
  rw [← hclosed]
  unfold State.power
  rw [(ckptComplete_saved s b).pwr]

theorem restoreCkpt_power (s : State) : s.restoreCkpt.power = s.power := by
  unfold State.restoreCkpt
  dsimp only
  split
  · exact (ckptBegin_lasts s 5).power
  · refine (ckptComplete_power _ _).trans (State.Lasts.trans (ckptBegin_lasts s 5) ?_).power
    exact Lasts.foldl (fun s w => (setMedia_lasts ..).trans (programDone_lasts ..)) _ _

theorem restoreCkpt_goes (s : State) : s.Goes L s.restoreCkpt := by
  have hmask := restoreCkpt_mask (s := s) (List.Subset.refl _)
  have hboot := boot_of_mask (P := [.out, .rdma, .bell, .rand, .media, .staged, .dram, .loft, .health, .events, .eventSeq, .pwr]) (by decide) hmask
  exact goes_of_eq (restoreCkpt_when s) (restoreCkpt_power s) (hboot ▸ rfl) (hboot ▸ rfl) (due_of_mask (by decide) hmask ▸ id)

theorem State.Lasts.goes (h : s.Lasts t) (hP : Part.boot ∉ P ∧ Part.due ∉ P) (e : t.mask P = s.mask P) : s.Goes L t :=
  goes_of_eq h.when h.power (boot_of_mask hP.1 e ▸ rfl) (boot_of_mask hP.1 e ▸ rfl) (due_of_mask hP.2 e ▸ id)

theorem restored_goes (s : State) (n : Nat) (b : Bool) : s.Goes L { s with staged := n, boot := { s.boot with restored := b } } :=
  ⟨rfl, rfl, id, rfl, rfl, rfl, id⟩

theorem restoreDump_goes (s : State) (x : Dump) (bad : List (Nat × Nat × Nat)) : s.Goes L (s.restoreDump x bad) := by
  have hitems : s.Goes L (x.items.foldl State.restoreItem (s.replayMaps x.recs)) :=
    ((replayMaps_lasts s x.recs).goes (P := [.zones, .rand, .media]) (by decide) (replayMaps_mask (List.Subset.refl _) _)).trans
      (Goes.foldl (fun s i => (restoreItem_lasts s i).goes (P := [.ledger, .units, .media, .sieve]) (by decide)
        (restoreItem_mask (List.Subset.refl _) i)) _ _)
  unfold State.restoreDump
  dsimp only
  refine State.Goes.trans ?_ (restoreCkpt_goes _)
  refine State.Goes.trans ?_ (restored_goes ..)
  refine hitems.trans (Goes.foldl (fun s r => ?_) _ _)
  exact (restoreRow_lasts ..).goes (P := [.out, .rdma, .bell, .media, .loft, .events, .eventSeq]) (by decide) (restoreRow_mask (List.Subset.refl _) ..)

theorem usable_goes (s : State) (n : Nat) : s.Goes L { s with pwr := { s.pwr with usable := n } } := ⟨rfl, rfl, id, rfl, rfl, rfl, id⟩

theorem releaseDumps_goes (s : State) : s.Goes L s.releaseDumps := ⟨rfl, rfl, id, rfl, rfl, rfl, id⟩

theorem staged_goes (s : State) (n : Nat) : s.Goes L { s with staged := n } := ⟨rfl, rfl, id, rfl, rfl, rfl, id⟩

theorem event_goes (s : State) (code cls f : Nat) (x : List (Nat × Nat × Nat)) : s.Goes L (s.event code cls f x) :=
  (event_lasts ..).goes (P := [.out, .rdma, .bell, .loft, .events, .eventSeq]) (by decide) (event_mask (List.Subset.refl _) ..)

theorem restore_goes (s : State) (e : BootEnv) : s.Goes L (s.restore e) := by
  unfold State.restore
  have hset : s.Goes L _ := usable_goes s e.usable
  generalize ({ s with pwr := { s.pwr with usable := e.usable } } : State) = v at hset ⊢
  dsimp only
  split
  · exact hset
  · split
    · exact hset.trans (restoreDump_goes ..)
    · refine State.Goes.trans ?_ (releaseDumps_goes _)
      refine State.Goes.trans ?_ (event_goes ..)
      refine State.Goes.trans ?_ (staged_goes ..)
      exact hset.trans ((fromCheckpoint_lasts v).goes (P := [.out, .rdma, .ledger, .bell, .zones, .units, .rand, .media, .staged, .sieve, .dram, .loft,
        .events, .eventSeq]) (by decide) (fromCheckpoint_mask (List.Subset.refl _)))

end Sys2Proof.Machine
end

section
/-! A boot that nothing stops reaches READY, and a stop leaves its step (R559, R561, R562). -/

namespace Sys2Proof.Machine

variable {s t u : State} {P : List Part} {L : Nat} {e : BootEnv}

/-! ### The rest of the steps -/

theorem offTimeCheck_goes (s : State) : s.Goes L s.offTimeCheck := by
  unfold State.offTimeCheck
  dsimp only
  refine State.Goes.trans ?_ (event_goes ..)
  exact ⟨rfl, rfl, id, rfl, rfl, rfl, id⟩

theorem removeFn_due (s : State) (f : Nat) (h : s.due = []) : (s.removeFn f).due = [] := by
  have hdrop : (s.dropOps f).due = [] := by
    unfold State.dropOps
    dsimp only
    rw [due_of_mask (P := [.fns]) (by decide) (setFn_mask (List.Subset.refl _) f _), h]
    rfl
  have hgrant : (((s.dropOps f).releaseSems f).setGrant f 0).due = [] :=
    (due_of_mask (P := [.sieve, .fns]) (by decide) (setGrant_mask (by decide) f 0)).trans
      ((due_of_mask (P := [.ledger, .sems]) (by decide) (releaseSems_mask (by decide) f)).trans hdrop)
  unfold State.removeFn
  dsimp only
  generalize (((s.dropOps f).releaseSems f).setGrant f 0) = v at hgrant ⊢
  rw [due_of_mask (P := [.fns]) (by decide) (setFn_mask (List.Subset.refl _) f _)]
  split
  · exact hgrant
  · exact hgrant

theorem due_kept {f : State → Nat → State} (hf : ∀ s n, s.due = [] → (f s n).due = []) (l : List Nat) (h : s.due = []) : (l.foldl f s).due = [] :=
  List.foldlRecOn (motive := fun x => x.due = []) l f h fun x hx n _ => hf x n hx

theorem returnBoot_due (s : State) (h : s.due = []) : s.returnBoot.due = [] := by
  unfold State.returnBoot
  split
  · exact h
  · dsimp only
    refine due_kept removeFn_due _ (due_kept (fun s n hs => ?_) _ ?_)
    · exact (due_of_mask (P := [.free, .out, .rdma, .bell, .holds, .cursors, .zones, .units, .rand, .media, .staged, .dram, .loft, .events, .eventSeq])
        (by decide) (dropHolding_mask (List.Subset.refl _) n)).trans hs
    · exact (due_of_mask (P := [.free, .loft]) (by decide) (zeroKeys_mask (List.Subset.refl _) _)).trans h

theorem returnBoot_goes (s : State) : s.Goes L s.returnBoot := by
  have hmask := returnBoot_mask (s := s) (List.Subset.refl _)
  have hboot := boot_of_mask (P := [.free, .out, .rdma, .ledger, .bell, .net, .fns, .sqs, .cqs, .sems, .due, .aborts, .holds,
    .cursors, .zones, .units, .rand, .media, .staged, .sieve, .dram, .loft, .events, .eventSeq]) (by decide) hmask
  refine goes_of_eq (returnBoot_when s) ?_ (hboot ▸ rfl) (hboot ▸ rfl) (returnBoot_due s)
  exact congrArg (fun p : Pwr => (p.on, p.reset, p.disable)) (pwr_of_mask (by decide) hmask)

theorem journalLife_when (s : State) : s.journalLife.when = s.when := when_of_mask (P := [.loft]) (by decide) (journalLife_mask (List.Subset.refl _))

theorem journalLife_goes (s : State) : s.Goes L s.journalLife :=
  goes_of_mask (P := [.loft]) (by decide) (journalLife_when s) (journalLife_mask (List.Subset.refl _))

theorem retireRow_goes (s : State) (p : Nat) : s.Goes L (s.retireRow p) :=
  goes_of_mask (P := [.out, .rdma, .bell, .sieve, .loft, .events, .eventSeq]) (by decide) (retireRow_when s p) (retireRow_mask (List.Subset.refl _) p)

theorem judgeOptic_goes (s : State) (p : PortId) : s.Goes L (s.judgeOptic p) :=
  goes_of_mask (P := [.out, .rdma, .bell, .portA, .portB, .loft, .events, .eventSeq]) (by decide) (judgeOptic_when s p)
    (judgeOptic_mask (List.Subset.refl _) p)

theorem tryTrain_goes (s : State) (p : PortId) : s.Goes L (s.tryTrain p) :=
  goes_of_mask (P := [.out, .rdma, .bell, .portA, .portB, .net, .loft, .events, .eventSeq]) (by decide) (tryTrain_when s p)
    (tryTrain_mask (List.Subset.refl _) p)

/-! ### The entry of a boot -/

/-- The state in which a boot is counted. -/
def State.bootCounted (s : State) : State :=
  { s with bell := { s.bell with boot := (s.bell.boot + 1) % 2 ^ 32 }, boot := { s.boot with held := false } }

/-- The state of a boot as it judges what stops it. -/
def State.bootEntry (s : State) (e : BootEnv) : State :=
  ((s.bootCounted.enter e 2).loftRecord 232 recBoot (record 16 [(0, 4, (s.bell.boot + 1) % 2 ^ 32)])).inletAtBoot e.inletTemp

/-- The ports judged and trained, and the rows of the SIEVE retired (step 13). -/
def State.portsTried (s : State) (e : BootEnv) : State :=
  (((((e.sieveBad.foldl State.retireRow s).judgeOptic .A).judgeOptic .B).tryTrain .A).tryTrain .B)

/-- The steps of a boot that nothing stops, up to READY. -/
def State.bootThrough (s : State) (e : BootEnv) : State :=
  ((((((s.bootTo e 11).restore e).enter e 12).offTimeCheck.returnBoot.journalLife).enter e 13).portsTried e)

/-- A boot after its entry, which a step stops or nothing does. -/
def State.bootGoesOn (s : State) (e : BootEnv) : Option Nat → State
  | some k => (s.bootTo e k).halt k
  | none => (s.bootThrough e).reachReady e

theorem runBoot_eq (s : State) (e : BootEnv) : s.runBoot e = (s.bootEntry e).bootGoesOn e ((s.bootEntry e).stopStep e) := rfl

theorem loftRecord_goes (s : State) (a k : Nat) (b : Bytes) : s.Goes L (s.loftRecord a k b) := ⟨rfl, rfl, id, rfl, rfl, rfl, id⟩

theorem inletAtBoot_goes (s : State) (x : Int) : s.Goes L (s.inletAtBoot x) :=
  goes_of_mask (P := [.out, .rdma, .bell, .loft, .health, .events, .eventSeq]) (by decide) (inletAtBoot_when s x) (inletAtBoot_mask (List.Subset.refl _) x)

theorem bootEntry_goes (h : ∀ m ∈ e.stepMs, m ≤ e.ms) : s.bootCounted.Goes (e.ms * 1000 / s.period) (s.bootEntry e) :=
  (enter_goes (s := s.bootCounted) h rfl 2).trans ((loftRecord_goes ..).trans (inletAtBoot_goes ..))

theorem portsTried_goes (s : State) (e : BootEnv) : s.Goes L (s.portsTried e) :=
  (Goes.foldl retireRow_goes _ _).trans ((judgeOptic_goes ..).trans ((judgeOptic_goes ..).trans ((tryTrain_goes ..).trans (tryTrain_goes ..))))

theorem bootThrough_goes {p : Nat} (h : ∀ m ∈ e.stepMs, m ≤ e.ms) (hp : s.period = p) (hr : e.ranksBad = []) (hf : e.fillBad = []) :
    s.Goes (e.ms * 1000 / p) (s.bootThrough e) := by
  have hmaps := (bootTo_goes h hp hr hf 11).trans (restore_goes (s.bootTo e 11) e)
  have hoff := hmaps.trans ((enter_goes h (hmaps.period.trans hp) 12).trans
    ((offTimeCheck_goes _).trans ((returnBoot_goes _).trans (journalLife_goes _))))
  exact hoff.trans ((enter_goes h (hoff.period.trans hp) 13).trans (portsTried_goes _ e))

/-! ### READY -/

/-- A step after READY is set leaves the boot state, the bell number and the supply. -/
def State.Ends (s t : State) : Prop := s.Lasts t ∧ t.boot = s.boot ∧ t.due = s.due

theorem State.Ends.refl (s : State) : s.Ends s := ⟨rfl, rfl, rfl⟩

theorem State.Ends.trans (h : s.Ends t) (k : t.Ends u) : s.Ends u := ⟨h.1.trans k.1, k.2.1.trans h.2.1, k.2.2.trans h.2.2⟩

theorem State.Lasts.ends (h : s.Lasts t) (hP : Part.boot ∉ P ∧ Part.due ∉ P) (e : t.mask P = s.mask P) : s.Ends t :=
  ⟨h, boot_of_mask hP.1 e, due_of_mask hP.2 e⟩

theorem event_ends (s : State) (code cls f : Nat) (x : List (Nat × Nat × Nat)) : s.Ends (s.event code cls f x) :=
  (event_lasts ..).ends (P := [.out, .rdma, .bell, .loft, .events, .eventSeq]) (by decide) (event_mask (List.Subset.refl _) ..)

theorem notify_ends (s : State) (f : Nat) (i : W32) : s.Ends (s.notify f i) :=
  (notify_lasts ..).ends (P := [.out, .rdma]) (by decide) (notify_mask (List.Subset.refl _) f i)

theorem health_ends (s : State) (h : Health) : s.Ends { s with health := h } := ⟨health_lasts s h, rfl, rfl⟩

theorem tempEvent_ends (s : State) (p : Nat) (x : Int) : s.Ends (s.tempEvent p x) := (health_ends s _).trans (event_ends ..)

theorem eventRaised_ends (s : State) : s.Ends { s with bell := { s.bell with eventRaised := true } } := ⟨eventRaised_lasts s, rfl, rfl⟩

theorem careGoesOn_ends (s : State) : s.Ends s.careGoesOn :=
  (lasts_of_mask (P := [.media]) (by decide) (careGoesOn_mask (List.Subset.refl _))).ends (P := [.media]) (by decide) (careGoesOn_mask (List.Subset.refl _))

theorem cause_ends (s : State) (n : Nat) : s.Ends { s with pwr := { s.pwr with cause := n } } := ⟨rfl, rfl, rfl⟩

/-- The state in which READY is set. -/
def State.readied (s : State) (e : BootEnv) : State :=
  { (s.comeTo (e.ms * 1000 / s.period)).sampleTelem with
    boot := { (s.comeTo (e.ms * 1000 / s.period)).sampleTelem.boot with
      step := 14, ready := true, readyMs := e.ms, lastStop := (s.comeTo (e.ms * 1000 / s.period)).sampleTelem.boot.stopLog, stopLog := 0 } }

theorem Ends.ite {c : Prop} [Decidable c] (hu : s.Ends u) (ht : s.Ends t) : s.Ends (if c then u else t) := by
  split
  · exact hu
  · exact ht

theorem reachReady_ends (s : State) (e : BootEnv) : (s.readied e).Ends (s.reachReady e) := by
  unfold State.reachReady
  generalize hready : s.readied e = v
  unfold State.readied at hready
  extract_lets held s1 _ s2 s3 _ s4 s5 _ s6
  have h2 : v.Ends s2 := hready ▸ .refl _
  have h3 : v.Ends s3 := h2.trans (careGoesOn_ends s2)
  have h4 : v.Ends s4 := Ends.ite (h3.trans ((cause_ends s3 0).trans (tempEvent_ends ..))) h3
  have h5 : v.Ends s5 := Ends.ite (h4.trans (event_ends ..)) h4
  have h6 : v.Ends s6 := Ends.ite (h5.trans (health_ends ..)) (Ends.ite h5 (h5.trans ((health_ends s5 _).trans (event_ends ..))))
  exact Ends.ite (h6.trans ((eventRaised_ends s6).trans ((notify_ends ..).trans (notify_ends ..)))) h6

theorem readied_goes (s : State) (e : BootEnv) : s.Goes (e.ms * 1000 / s.period) (s.readied e) :=
  (comeTo_goes (Nat.le_refl _)).trans ⟨rfl, rfl, id, rfl, rfl, rfl, id⟩

theorem readied_now (s : State) (e : BootEnv) : (s.readied e).bell.now = max s.bell.now (e.ms * 1000 / s.period) := (comeTo_bell s _).2

/-- What a boot that nothing stops comes to. -/
structure State.ComesUp (s t : State) (e : BootEnv) : Prop where
  ready : t.boot.ready = true
  step : t.boot.step = 14
  readyMs : t.boot.readyMs = e.ms
  halted : t.boot.halted = s.boot.halted
  held : t.boot.held = false
  power : t.power = s.power
  count : t.bell.boot = (s.bell.boot + 1) % 2 ^ 32
  now : s.bell.now ≤ e.ms * 1000 / s.period → t.bell.now = e.ms * 1000 / s.period
  due : s.due = [] → t.due = []

theorem runBoot_comesUp (h : ∀ m ∈ e.stepMs, m ≤ e.ms) (hr : e.ranksBad = []) (hf : e.fillBad = []) (hstop : (s.bootEntry e).stopStep e = none) :
    s.ComesUp (s.runBoot e) e := by
  have hentry := bootEntry_goes (s := s) h
  have hthrough := hentry.trans (bootThrough_goes h hentry.period hr hf)
  have hperiod : ((s.bootEntry e).bootThrough e).period = s.period := hthrough.period
  have hready := hthrough.trans (hperiod ▸ readied_goes ((s.bootEntry e).bootThrough e) e)
  obtain ⟨hlasts, hboot, hdue⟩ := reachReady_ends ((s.bootEntry e).bootThrough e) e
  have hwhen := hlasts.when
  rw [runBoot_eq, hstop]
  change s.ComesUp (((s.bootEntry e).bootThrough e).reachReady e) e
  refine ⟨hboot ▸ rfl, hboot ▸ rfl, hboot ▸ rfl, hboot ▸ hready.halted, hboot ▸ hready.held, hlasts.power.trans hready.power,
    (congrArg (·.2.1) hwhen).trans hready.count, fun hnow => (congrArg (·.1) hwhen).trans ?_, fun hd => hdue.trans (hready.due hd)⟩
  have hle : ((s.bootEntry e).bootThrough e).bell.now ≤ e.ms * 1000 / s.period := hthrough.now hnow
  change (((s.bootEntry e).bootThrough e).readied e).bell.now = _
  rw [readied_now, hperiod]
  exact Nat.max_eq_right hle

/-! ### A boot that is stopped -/

theorem enter_ready (s : State) (e : BootEnv) (n : Nat) : (s.enter e n).boot.ready = s.boot.ready := by
  have hready := congrArg Boot.ready (comeTo_boot s (e.stepMs.getD (n - 2) 0 * 1000 / s.period))
  exact hready

theorem ready_of_mask (h : Part.boot ∉ P) (e : t.mask P = s.mask P) : t.boot.ready = s.boot.ready := congrArg Boot.ready (boot_of_mask h e)

theorem ready_ite {c : Prop} [Decidable c] {b : Bool} (hu : u.boot.ready = b) (ht : t.boot.ready = b) : (if c then u else t).boot.ready = b := by
  split
  · exact hu
  · exact ht

theorem remirrors_ready (s : State) (l : List Nat) : (l.foldl State.remirrorPair s).boot.ready = s.boot.ready :=
  ready_of_mask (P := [.out, .rdma, .bell, .fns, .dram, .loft, .events, .eventSeq]) (by decide)
    (foldl_same (State.mask [.out, .rdma, .bell, .fns, .dram, .loft, .events, .eventSeq]) (fun _ p => remirrorPair_mask (List.Subset.refl _) p) l s)

theorem bootTo_ready (s : State) (e : BootEnv) (k : Nat) : (s.bootTo e k).boot.ready = s.boot.ready := by
  unfold State.bootTo
  generalize (s.chooseBank e.bankBad).getD (false, false) = x
  obtain ⟨b, c⟩ := x
  dsimp -zeta only
  extract_lets _ _ s1 s2 s3 s4 _ _ s5 s6
  have h1 : s1.boot.ready = s.boot.ready := ready_ite rfl rfl
  have h2 : s2.boot.ready = s.boot.ready := ready_ite ((ready_of_mask (P := [.free, .out, .rdma, .ledger, .bell, .fns, .sqs, .cqs, .aborts, .zones,
    .units, .media, .staged, .jobs, .cores, .hamlets, .disp, .dram, .loft, .health, .events, .eventSeq]) (by decide)
    (trainRanks_mask (List.Subset.refl _) _ _)).trans ((enter_ready ..).trans h1)) h1
  have h3 : s3.boot.ready = s.boot.ready := ready_ite ((ready_of_mask (P := [.free, .out, .rdma, .ledger, .bell, .fns, .sqs, .cqs, .aborts, .zones,
    .units, .media, .staged, .jobs, .cores, .hamlets, .disp, .dram, .loft, .health, .events, .eventSeq]) (by decide)
    (dropRanks_mask (List.Subset.refl _) _)).trans ((enter_ready ..).trans h2)) h2
  have h4 : s4.boot.ready = s.boot.ready := ready_ite ((remirrors_ready s3 _).trans h3) h3
  have h5 : s5.boot.ready = s.boot.ready := by
    refine ready_ite ?_ h4
    exact (enter_ready s4 e 8).trans h4
  have h6 : s6.boot.ready = s.boot.ready := ready_ite ((ready_of_mask (P := [.out, .rdma, .bell, .media, .staged, .dram, .loft, .events, .eventSeq])
    (by decide) (trainChans_mask (List.Subset.refl _) _ _)).trans ((enter_ready ..).trans h5)) h5
  exact (enter_ready ..).trans h6

theorem halt_stops {k : Nat} (hk : k ≠ 3) : (s.halt k).boot.halted = some k ∧ (s.halt k).boot.ready = s.boot.ready := by
  unfold State.halt
  dsimp only
  rw [if_neg hk]
  split
  · split
    · exact ⟨rfl, rfl⟩
    · exact ⟨rfl, rfl⟩
  · exact ⟨rfl, rfl⟩

theorem bootEntry_ready (s : State) (e : BootEnv) : (s.bootEntry e).boot.ready = s.boot.ready :=
  (ready_of_mask (P := [.out, .rdma, .bell, .loft, .health, .events, .eventSeq]) (by decide) (inletAtBoot_mask (List.Subset.refl _) _)).trans
    (enter_ready s.bootCounted e 2)

theorem runBoot_stops {k : Nat} (hk : k ≠ 3) (hstop : (s.bootEntry e).stopStep e = some k) :
    (s.runBoot e).boot.halted = some k ∧ (s.runBoot e).boot.ready = s.boot.ready := by
  rw [runBoot_eq, hstop]
  obtain ⟨hh, hr⟩ := halt_stops (s := (s.bootEntry e).bootTo e k) hk
  exact ⟨hh, hr.trans ((bootTo_ready ..).trans (bootEntry_ready s e))⟩

end Sys2Proof.Machine
end

section
/-! Boots from power good, from the contacts, from a module reset and from too few control cores (R188, R227, R512, R557, R561, R592 to R595). -/

namespace Sys2Proof.Machine

variable {s t u v : State} {P : List Part} {L : Nat} {e : BootEnv}

/-! ### What a step of a boot judges -/

/-- Every rank serves or is a spare. -/
def State.RanksStand (s : State) : Prop := ∀ n, (s.rank n).st = .active ∨ (s.rank n).st = .spare

theorem ranks_stand (h : s.dram.ranks = []) : s.RanksStand := by
  intro n
  unfold State.rank
  rw [h]
  by_cases hn : n % 3 = 2
  · exact .inr (if_pos hn)
  · exact .inl (if_neg hn)

theorem endMigrations_stand (h : s.RanksStand) : s.endMigrations = s := by
  unfold State.endMigrations
  refine List.foldlRecOn (motive := fun x => x = s) (List.range 36) _ rfl fun x hx n _ => ?_
  obtain hn | hn := h n
  · rw [hx, hn]
  · rw [hx, hn]

theorem dropRanks_stand (h : s.RanksStand) (hout : s.dram.chanOut = []) : (s.dropRanks []).RanksStand ∧ (s.dropRanks []).dram.chanOut = [] := by
  refine ⟨h, ?_⟩
  have hnone : ((List.range 12).filter fun c => !s.dram.chanOut.contains c && (List.range 3).all fun k =>
      ([] : List Nat).contains (3 * c + k) || (s.rank (3 * c + k)).st = .retired) = [] := by
    rw [List.filter_eq_nil_iff]
    intro c _ hc
    have hall := (Bool.and_eq_true _ _ ▸ hc).2
    have hzero := List.all_eq_true.1 hall 0 (by decide)
    obtain hn | hn := h (3 * c + 0)
    · rw [hn] at hzero
      simp at hzero
    · rw [hn] at hzero
      simp at hzero
  change s.dram.chanOut ++ _ = []
  rw [hnone, hout]
  rfl

theorem rank_setRank_other {n m : Nat} (f : Rank → Rank) (h : m ≠ n) : (s.setRank n f).rank m = s.rank m :=
  lookD_putD_other s.dram.ranks (Rank.fresh n) (Rank.fresh m) (f (s.rank n)) h

theorem setRank_stand {n : Nat} {f : Rank → Rank} (hf : ∀ r, (f r).st = r.st) (h : s.RanksStand ∧ s.dram.chanOut = []) :
    (s.setRank n f).RanksStand ∧ (s.setRank n f).dram.chanOut = [] := by
  refine ⟨fun m => ?_, h.2⟩
  by_cases hm : m = n
  · subst hm
    rw [rank_setRank_same, hf]
    exact h.1 m
  · rw [rank_setRank_other f hm]
    exact h.1 m

theorem trainRanks_stand (h : s.RanksStand) (hout : s.dram.chanOut = []) (eye : Nat × Nat) :
    (s.trainRanks [] eye).RanksStand ∧ (s.trainRanks [] eye).dram.chanOut = [] := by
  have hdrop := dropRanks_stand h hout
  have hnone : ((List.range 36).filter fun n => ((s.dropRanks []).rank n).st = .retraining) = [] := by
    rw [List.filter_eq_nil_iff]
    intro n _ hn
    obtain hr | hr := hdrop.1 n
    · simp [hr] at hn
    · simp [hr] at hn
  unfold State.trainRanks
  rw [endMigrations_stand h]
  dsimp only
  rw [hnone, List.foldl_nil]
  exact List.foldlRecOn (motive := fun x : State => x.RanksStand ∧ x.dram.chanOut = []) _ _ hdrop fun x hx n _ => setRank_stand (fun _ => rfl) hx

/-- What a step of a boot judges by. -/
structure State.Judged (s t : State) : Prop where
  life : t.life.state = s.life.state
  floor : t.life.floor = s.life.floor
  next : t.loft.next = s.loft.next
  imgA : t.loft.imgA = s.loft.imgA
  imgB : t.loft.imgB = s.loft.imgB
  ranks : s.dram.ranks = [] → t.dram.ranks = []
  chanOut : t.dram.chanOut = s.dram.chanOut

theorem State.Judged.trans (h : s.Judged t) (k : t.Judged u) : s.Judged u :=
  ⟨k.life.trans h.life, k.floor.trans h.floor, k.next.trans h.next, k.imgA.trans h.imgA, k.imgB.trans h.imgB, k.ranks ∘ h.ranks, k.chanOut.trans h.chanOut⟩

theorem State.Lasts.judged (h : s.Lasts t) (hl : t.life = s.life) : s.Judged t where
  life := hl ▸ rfl
  floor := hl ▸ rfl
  next := congrArg (·.2.2.2.1.1) h
  imgA := congrArg (·.2.2.2.1.2.1) h
  imgB := congrArg (·.2.2.2.1.2.2.1) h
  ranks := (congrArg (·.2.2.2.2.1) h : t.dram.ranks = s.dram.ranks) ▸ id
  chanOut := congrArg (·.2.2.2.2.2) h

theorem judged_of_parts (hl : t.life = s.life) (hf : t.loft = s.loft) (hd : t.dram = s.dram) : s.Judged t :=
  ⟨hl ▸ rfl, hl ▸ rfl, hf ▸ rfl, hf ▸ rfl, hf ▸ rfl, hd ▸ id, hd ▸ rfl⟩

theorem State.Judged.image (h : s.Judged t) (b : Bool) : t.loft.image b = s.loft.image b := by
  unfold Loft.image
  rw [h.imgA, h.imgB]

theorem State.Judged.chooseBank (h : s.Judged t) (bad : List Nat) : t.chooseBank bad = s.chooseBank bad := by
  unfold State.chooseBank State.verifies
  simp only [h.next, h.image, h.floor]

theorem inletAtBoot_judged (s : State) (x : Int) : s.Judged (s.inletAtBoot x) := by
  refine State.Lasts.judged ?_ (life_of_mask (P := [.out, .rdma, .bell, .loft, .health, .events, .eventSeq]) (by decide)
    (inletAtBoot_mask (List.Subset.refl _) x))
  unfold State.inletAtBoot
  dsimp only
  split
  · exact (health_lasts ..).trans ((health_lasts ..).trans (event_lasts ..))
  · exact health_lasts ..

theorem enter_judged (s : State) (e : BootEnv) (n : Nat) : s.Judged (s.enter e n) :=
  have hmask := enter_mask (s := s) (List.Subset.refl _) e n
  judged_of_parts (life_of_mask (by decide) hmask) (loft_of_mask (by decide) hmask) (dram_of_mask (by decide) hmask)

theorem bootCounted_judged (s : State) : s.Judged s.bootCounted := judged_of_parts rfl rfl rfl

theorem bootEntry_judged (s : State) (e : BootEnv) : s.Judged (s.bootEntry e) :=
  (bootCounted_judged s).trans ((enter_judged ..).trans ((State.Lasts.judged (loftRecord_lasts ..) rfl).trans (inletAtBoot_judged ..)))

theorem stopStep_none (h : s.Judged t) (hb : Bootable s e) : t.stopStep e = none := by
  obtain ⟨-, hrom, hbank, hsram, hbad, hfill, hcores, hmeta, hlife, hranks, hout, -, -⟩ := hb
  obtain ⟨hstand, hchan⟩ := trainRanks_stand (ranks_stand (h.ranks hranks)) (h.chanOut.trans hout) e.rankEye
  obtain ⟨-, hfilled⟩ := dropRanks_stand hstand hchan
  unfold State.stopStep
  rw [hbad, hfill, hchan, hfilled, hrom, h.life, h.chooseBank, hsram, hmeta, if_neg (by decide), if_neg hlife, if_neg (by rw [Option.isNone_iff_eq_none]; exact fun h => by simp [h] at hbank),
    if_neg (by decide), if_neg (by decide), if_neg (by decide), if_neg (by omega), if_neg (by decide)]

theorem stopStep_rom (h : e.romOk = false) : s.stopStep e = some 2 := by
  unfold State.stopStep
  rw [h]
  rfl

theorem stopStep_bank (h : s.Judged t) (hrom : e.romOk = true) (hlife : s.life.state ≠ .scrapped) (hbank : s.chooseBank e.bankBad = none) :
    t.stopStep e = some 4 := by
  unfold State.stopStep
  rw [hrom, h.life, h.chooseBank, hbank, if_neg (by decide), if_neg hlife, if_pos (by decide)]

end Sys2Proof.Machine
end

section
/-! The state that a boot begins from: the cores, the rings and the media cleared (R557, R559). -/

namespace Sys2Proof.Machine

variable {s t u v : State} {P : List Part} {L : Nat} {e : BootEnv}

/-! ### The state that a boot begins from -/

/-- The cores, rings, media and DRAM of a boot. -/
def State.bootBase (s : State) (cold : Bool) : State := ((((s.bootCores.bootRings).bootMedia cold).bootDram cold).bootEvents cold).draw.2

theorem setCore_lasts (s : State) (n : Nat) (f : Core → Core) : s.Lasts (s.setCore n f) := lasts_of_parts rfl rfl rfl rfl

theorem hamlets_lasts (s : State) (h : Tab Hamlet) : s.Lasts { s with hamlets := h } := lasts_of_parts rfl rfl rfl rfl

theorem substitute_lasts (s : State) : s.Lasts s.substitute := by
  unfold State.substitute
  refine Lasts.foldl (fun s h => Lasts.foldl (fun s l => ?_) _ s) _ s
  split
  · dsimp only
    refine State.Lasts.trans ?_ ((event_lasts ..).trans (trace_lasts ..))
    exact (hamlets_lasts ..).trans (setCore_lasts ..)
  · rfl

theorem bootCores_lasts (s : State) : s.Lasts s.bootCores :=
  (substitute_lasts s).trans (lasts_of_mask (P := [.cores, .hamlets, .disp]) (by decide) (mask_cores_hamlets_disp (by decide) ..))

theorem bootRings_lasts (s : State) : s.Lasts s.bootRings :=
  lasts_of_mask (P := [.rdma, .fns, .sqs, .cqs, .due, .aborts]) (by decide) (bootRings_mask (List.Subset.refl _))

theorem bootMedia_lasts (s : State) (cold : Bool) : s.Lasts (s.bootMedia cold) :=
  lasts_of_mask (P := [.media]) (by decide) (bootMedia_mask (List.Subset.refl _) cold)

/-- The parts of a boot's base that the cores, the rings and the media leave alone. -/
theorem bootRinged_lasts (s : State) (cold : Bool) : s.Lasts ((s.bootCores.bootRings).bootMedia cold) :=
  (bootCores_lasts s).trans ((bootRings_lasts _).trans (bootMedia_lasts ..))

theorem draw_free (s : State) : s.draw.2.mask [.free] = s.mask [.free] := rfl

theorem bootBase_mask (s : State) (cold : Bool) : (s.bootBase cold).mask [.dram, .events, .eventSeq, .free] =
    ((s.bootCores.bootRings).bootMedia cold).mask [.dram, .events, .eventSeq, .free] :=
  (mask_mono (by decide) (draw_free _)).trans ((bootEvents_mask (by decide) cold).trans (bootDram_mask (by decide) cold))

theorem bootBase_dram (s : State) (cold : Bool) : (s.bootBase cold).dram = (((s.bootCores.bootRings).bootMedia cold).bootDram cold).dram :=
  dram_of_mask (P := [.events, .eventSeq, .free]) (by decide) ((mask_mono (by decide) (draw_free _)).trans (bootEvents_mask (by decide) cold))

theorem bootDram_dram (s : State) (cold : Bool) : (s.dram.ranks = [] → (s.bootDram cold).dram.ranks = []) ∧ (s.bootDram cold).dram.chanOut = s.dram.chanOut := by
  refine ⟨fun h => ?_, rfl⟩
  unfold State.bootDram
  rw [h]
  rfl

theorem rdma_of_mask (h : Part.rdma ∉ P) (e : t.mask P = s.mask P) : t.rdma = s.rdma := (congrArg State.rdma (eq_graft e)).trans (if_neg h)

/-- What a boot's base is of the state before. -/
structure State.Base (s t : State) : Prop extends s.Judged t where
  count : t.bell.boot = s.bell.boot
  period : t.bell.period = s.bell.period
  reset : t.pwr.reset = s.pwr.reset
  disable : t.pwr.disable = s.pwr.disable
  due : t.due = []
  rdma : t.rdma = []
  jobs : t.jobs = s.jobs

theorem bootRinged_base (s : State) (cold : Bool) : s.Base ((s.bootCores.bootRings).bootMedia cold) := by
  have hlasts := bootRinged_lasts s cold
  have hmedia := bootMedia_mask (s := s.bootCores.bootRings) (List.Subset.refl _) cold
  have hrings := bootRings_mask (s := s.bootCores) (List.Subset.refl _)
  have hcores := bootCores_mask (s := s) (List.Subset.refl _)
  have hlife : ((s.bootCores.bootRings).bootMedia cold).life = s.life :=
    (life_of_mask (by decide) hmedia).trans ((life_of_mask (by decide) hrings).trans (life_of_mask (by decide) hcores))
  exact { hlasts.judged hlife with
    count := congrArg (·.2.1) hlasts.when
    period := congrArg (·.2.1) hlasts
    reset := congrArg (·.2.1) hlasts.power
    disable := congrArg (·.2.2) hlasts.power
    due := due_of_mask (by decide) hmedia
    rdma := rdma_of_mask (by decide) hmedia
    jobs := (jobs_of_mask (by decide) hmedia).trans ((jobs_of_mask (by decide) hrings).trans (jobs_of_mask (by decide) hcores)) }

theorem bootBase_base (s : State) (cold : Bool) : s.Base (s.bootBase cold) := by
  have hring := bootRinged_base s cold
  have hmask := bootBase_mask s cold
  have hdram := bootBase_dram s cold
  obtain ⟨hranks, hout⟩ := bootDram_dram ((s.bootCores.bootRings).bootMedia cold) cold
  have hbell := bell_of_mask (by decide) hmask
  have hpwr := pwr_of_mask (by decide) hmask
  have hloft := loft_of_mask (by decide) hmask
  have hlife := life_of_mask (by decide) hmask
  exact {
    life := hlife ▸ hring.life
    floor := hlife ▸ hring.floor
    next := hloft ▸ hring.next
    imgA := hloft ▸ hring.imgA
    imgB := hloft ▸ hring.imgB
    ranks := fun h => hdram ▸ hranks (hring.ranks h)
    chanOut := hdram ▸ hout.trans hring.chanOut
    count := hbell ▸ hring.count
    period := hbell ▸ hring.period
    reset := hpwr ▸ hring.reset
    disable := hpwr ▸ hring.disable
    due := (due_of_mask (by decide) hmask).trans hring.due
    rdma := (rdma_of_mask (by decide) hmask).trans hring.rdma
    jobs := (jobs_of_mask (by decide) hmask).trans hring.jobs }

/-- The state that a boot begins from. -/
def State.cleared (s : State) (cold : Bool) (c : Nat) : State := { s with
  bell := s.bell.atBoot, err := SetupErr.clear
  boot := { State.reset.boot with step := 2, lastStop := s.boot.lastStop, stopLog := s.boot.stopLog, cold := cold }
  portA := s.portA.boot, portB := s.portB.boot
  net := { s.net with ptpInUse := .A, lastCnp := [], failover := [], adminDue := [] }
  fns := s.fns.map fun e => (e.1, e.2.boot e.1 cold (periodUs s.bell.period))
  sems := { s.sems with word := [], acq := [], last := [] }
  holds := mapV (fun _ h => { h with old := none }) s.holds
  zones := (mapV (fun _ z => { z with fence := none }) s.zones).filter fun e => e.2 ≠ Zone.fresh
  sieve := s.sieve.boot
  edc := State.reset.edc
  loft := { s.loft with clear := [], wpViol := 0, clrOpen := true, busy := [], waiting := [] }
  health := { s.health with alert := false, locate := false, attn := 0, hot := [], inhSince := [], inhRaised := [] }
  pwr := { s.pwr with
    on := true, cur := 0, waking := false, idleFrom := none, entering := false, entryCkpt := none, usable := 0, prevUsable := 0,
    measuring := false, coldDies := [], loss := none }
  life := { s.life with debugOpen := false, attLeft := 0, attAt := [], chal := c, erasing := none }
  tap := State.reset.tap, smbOff := 0, act := none, ledger := s.ledger + 2 ^ 32 }

theorem clearBoot_eq (s : State) (cold : Bool) : s.clearBoot cold =
    ((s.bootBase cold).cleared cold ((((s.bootCores.bootRings).bootMedia cold).bootDram cold).bootEvents cold).draw.1).stamp.sampleTelem := rfl

theorem err_of_mask (h : Part.err ∉ P) (e : t.mask P = s.mask P) : t.err = s.err := (congrArg State.err (eq_graft e)).trans (if_neg h)

theorem tap_of_mask (h : Part.tap ∉ P) (e : t.mask P = s.mask P) : t.tap = s.tap := (congrArg State.tap (eq_graft e)).trans (if_neg h)

theorem smbOff_of_mask (h : Part.smbOff ∉ P) (e : t.mask P = s.mask P) : t.smbOff = s.smbOff := (congrArg State.smbOff (eq_graft e)).trans (if_neg h)

/-- What a boot begins from. -/
structure State.Cleared (s t : State) : Prop extends s.Judged t where
  now : t.bell.now = 0
  count : t.bell.boot = s.bell.boot
  active : t.bell.active = s.bell.period
  ready : t.boot.ready = false
  halted : t.boot.halted = none
  step : t.boot.step = 2
  power : t.power = (true, s.pwr.reset, s.pwr.disable)
  due : t.due = []
  rdma : t.rdma = []
  err : t.err = SetupErr.clear
  ir : t.tap.ir = 0xFF
  smbOff : t.smbOff = 0
  jobs : t.jobs = s.jobs

theorem cleared_of_base (h : s.Base v) (cold : Bool) (c : Nat) : s.Cleared (v.cleared cold c) where
  life := h.life
  floor := h.floor
  next := h.next
  imgA := h.imgA
  imgB := h.imgB
  ranks := h.ranks
  chanOut := h.chanOut
  now := rfl
  count := h.count
  active := h.period
  ready := rfl
  halted := rfl
  step := rfl
  power := congrArg₂ (fun a b => (true, a, b)) h.reset h.disable
  due := h.due
  rdma := h.rdma
  err := rfl
  ir := rfl
  smbOff := rfl
  jobs := h.jobs

theorem State.Cleared.of_mask (h : s.Cleared t) (hP : Part.life ∉ P ∧ Part.loft ∉ P ∧ Part.dram ∉ P ∧ Part.boot ∉ P ∧ Part.pwr ∉ P ∧ Part.due ∉ P ∧
    Part.rdma ∉ P ∧ Part.err ∉ P ∧ Part.tap ∉ P ∧ Part.smbOff ∉ P ∧ Part.jobs ∉ P) (hw : u.when = t.when) (e : u.mask P = t.mask P) : s.Cleared u := by
  obtain ⟨hlife, hloft, hdram, hboot, hpwr, hdue, hrdma, herr, htap, hsmb, hjobs⟩ := hP
  have hb := boot_of_mask hboot e
  exact { h.toJudged.trans (judged_of_parts (life_of_mask hlife e) (loft_of_mask hloft e) (dram_of_mask hdram e)) with
    now := (congrArg (·.1) hw).trans h.now
    count := (congrArg (·.2.1) hw).trans h.count
    active := (congrArg (·.2.2) hw).trans h.active
    ready := hb ▸ h.ready
    halted := hb ▸ h.halted
    step := hb ▸ h.step
    power := (congrArg (fun p : Pwr => (p.on, p.reset, p.disable)) (pwr_of_mask hpwr e)).trans h.power
    due := (due_of_mask hdue e).trans h.due
    rdma := (rdma_of_mask hrdma e).trans h.rdma
    err := (err_of_mask herr e).trans h.err
    ir := (congrArg Tap.ir (tap_of_mask htap e)).trans h.ir
    smbOff := (smbOff_of_mask hsmb e).trans h.smbOff
    jobs := (jobs_of_mask hjobs e).trans h.jobs }

theorem clearBoot_cleared (s : State) (cold : Bool) : s.Cleared (s.clearBoot cold) := by
  rw [clearBoot_eq]
  have hcleared := cleared_of_base (bootBase_base s cold) cold ((((s.bootCores.bootRings).bootMedia cold).bootDram cold).bootEvents cold).draw.1
  refine State.Cleared.of_mask (P := [.health]) (State.Cleared.of_mask (P := [.bell]) hcleared (by decide) (stamp_when _) ?_) (by decide) ?_ ?_
  · exact stamp_mask (List.Subset.refl _)
  · exact when_of_mask (P := [.health]) (by decide) (sampleTelem_mask (List.Subset.refl _))
  · exact sampleTelem_mask (List.Subset.refl _)

end Sys2Proof.Machine
end

section
/-! Boots from power good, from the contacts, from a module reset and from too few control cores (R188, R227, R512, R557, R561, R592 to R595). -/

namespace Sys2Proof.Machine

variable {s t u v : State} {P : List Part} {L : Nat} {e : BootEnv}

/-! ### A boot that nothing stops -/

/-- What a boot finds of the state before what led to it. -/
structure State.Found (s t : State) : Prop extends s.Judged t where
  count : t.bell.boot = s.bell.boot
  period : t.bell.period = s.bell.period
  reset : t.pwr.reset = s.pwr.reset
  disable : t.pwr.disable = s.pwr.disable

theorem State.Found.trans (h : s.Found t) (k : t.Found u) : s.Found u :=
  { h.toJudged.trans k.toJudged with
    count := k.count.trans h.count, period := k.period.trans h.period, reset := k.reset.trans h.reset, disable := k.disable.trans h.disable }

theorem found_of_parts (hb : t.bell = s.bell) (hp : t.pwr = s.pwr) (hl : t.life = s.life) (hf : t.loft = s.loft) (hd : t.dram = s.dram) : s.Found t :=
  { judged_of_parts hl hf hd with count := hb ▸ rfl, period := hb ▸ rfl, reset := hp ▸ rfl, disable := hp ▸ rfl }

theorem State.Lasts.found (h : s.Lasts t) (hl : t.life = s.life) : s.Found t :=
  { h.judged hl with
    count := congrArg (·.2.1) h.when
    period := congrArg (·.2.1) h
    reset := congrArg (·.2.1) h.power
    disable := congrArg (·.2.2) h.power }

theorem booted_of_cleared (hf : s.Found t) (hc : t.Cleared v) (hb : Bootable s e) :
    Booted s (v.runBoot e) e ∧ (v.runBoot e).pwr.disable = s.pwr.disable := by
  have hstop := stopStep_none ((hf.toJudged.trans hc.toJudged).trans (bootEntry_judged v e)) hb
  obtain ⟨-, -, -, -, hbad, hfill, -, -, -, -, -, -, hms⟩ := hb
  have hup := runBoot_comesUp hms hbad hfill hstop
  have hmask := runBoot_mask (s := v) (List.Subset.refl _) e
  have hperiod : v.period = periodUs s.bell.period := congrArg periodUs (hc.active.trans hf.period)
  have hnow := hup.now (hc.now ▸ Nat.zero_le _)
  refine ⟨⟨?_, hup.ready, hup.step, hup.readyMs, hup.halted.trans hc.halted, ?_, hperiod ▸ hnow, hup.due hc.due, ?_, ?_, ?_⟩, ?_⟩
  · exact congrArg (·.1) (hup.power.trans hc.power)
  · rw [hup.count, hc.count, hf.count]
  · exact (err_of_mask (by decide) hmask).trans hc.err
  · exact (congrArg Tap.ir (tap_of_mask (by decide) hmask)).trans hc.ir
  · exact (smbOff_of_mask (by decide) hmask).trans hc.smbOff
  · exact (congrArg (·.2.2) (hup.power.trans hc.power)).trans hf.disable

theorem reset_of_cleared (hc : s.Cleared v) : v.pwr.reset = s.pwr.reset := congrArg (·.2.1) hc.power

/-! ### Power good -/

/-- The state of a cold boot at its first step. -/
def State.coldBase (s : State) (e : BootEnv) : State := { s with clk := s.clk.boot true e.cellOk e.elapsed (s.calendar + e.elapsed) }

/-- A boot held at its second step. -/
def State.heldBoot (s : State) : State := { s with boot := { s.boot with held := true } }

/-- A boot runs, or is held while RESET# is low. -/
def State.begins (s : State) (e : BootEnv) : State := if s.pwr.reset then s.heldBoot else s.runBoot e

theorem begins_released (h : s.pwr.reset = false) (e : BootEnv) : s.begins e = s.runBoot e := by
  unfold State.begins
  rw [h]
  rfl

theorem begins_held (h : s.pwr.reset = true) (e : BootEnv) : s.begins e = s.heldBoot := by
  unfold State.begins
  rw [h]
  rfl

theorem heldBoot_rest (s : State) : s.heldBoot.boot.held = true ∧ s.heldBoot.boot.step = s.boot.step ∧ s.heldBoot.boot.ready = s.boot.ready ∧
    s.heldBoot.pwr = s.pwr ∧ s.heldBoot.rdma = s.rdma ∧ s.heldBoot.jobs = s.jobs := ⟨rfl, rfl, rfl, rfl, rfl, rfl⟩

theorem bootCold_eq (s : State) (e : BootEnv) : s.bootCold e = ((s.coldBase e).clearBoot true).begins e := rfl

theorem coldBase_reset (s : State) (e : BootEnv) : ((s.coldBase e).clearBoot true).pwr.reset = s.pwr.reset := by
  have hreset := reset_of_cleared (clearBoot_cleared (s.coldBase e) true)
  exact hreset

theorem bootCold_released (h : s.pwr.reset = false) (e : BootEnv) : s.bootCold e = ((s.coldBase e).clearBoot true).runBoot e :=
  (bootCold_eq s e).trans (begins_released ((coldBase_reset s e).trans h) e)

theorem bootCold_held (h : s.pwr.reset = true) (e : BootEnv) : s.bootCold e = ((s.coldBase e).clearBoot true).heldBoot :=
  (bootCold_eq s e).trans (begins_held ((coldBase_reset s e).trans h) e)

theorem coldBase_found (s : State) (e : BootEnv) : s.Found (s.coldBase e) := found_of_parts rfl rfl rfl rfl rfl

theorem bootCold_booted (h : s.pwr.reset = false) (hb : Bootable s e) : Booted s (s.bootCold e) e ∧ (s.bootCold e).pwr.disable = s.pwr.disable := by
  rw [bootCold_released h]
  exact booted_of_cleared (coldBase_found s e) (clearBoot_cleared _ true) hb

theorem bootCold_stops {k : Nat} (h : s.pwr.reset = false) (hk : k ≠ 3)
    (hstop : ∀ t, s.Judged t → t.stopStep e = some k) : (s.bootCold e).boot.halted = some k ∧ (s.bootCold e).boot.ready = false := by
  have hc := clearBoot_cleared (s.coldBase e) true
  obtain ⟨hh, hr⟩ := runBoot_stops hk (hstop _ (((coldBase_found s e).toJudged.trans hc.toJudged).trans (bootEntry_judged _ e)))
  rw [bootCold_released h]
  exact ⟨hh, hr.trans hc.ready⟩

theorem powerGood_boots (hwf : e.wf = true) (hon : s.pwr.on = false) (hdis : s.pwr.disable = false) (hlat : s.pwr.latched = false)
    (hin : e.inputHeld = true) : exec (.powerGood e) s = .next (s.bootCold e) := by
  change execPowerGood e s = _
  unfold execPowerGood
  rw [if_neg (by simp [hwf]), if_neg (by simp [hon, hdis, hlat, hin])]

theorem pwrDisableRelease_boots (hwf : e.wf = true) (hdis : s.pwr.disable = true) (hon : s.pwr.on = false) (hin : e.inputHeld = true)
    (hcause : s.pwr.cause ≠ 2) (hreset : s.pwr.reset = false) (hb : Bootable s e) :
    ∃ t, exec (.pwrDisableRelease e) s = .next t ∧ Booted s t e ∧ t.pwr.disable = false := by
  have hboot := bootCold_booted (s := { s.setPwr fun p => { p with disable := false, latched := p.latched && p.cause = 2 } with
    clk := (s.setPwr fun p => { p with disable := false, latched := p.latched && p.cause = 2 }).clk.fed e.elapsed }) hreset hb
  refine ⟨_, ?_, hboot.1, hboot.2⟩
  change execPwrDisableRelease e s = _
  unfold execPwrDisableRelease
  rw [if_neg (by simp [hwf]), if_neg (by simp [hdis])]
  dsimp only
  rw [if_neg (by simp [State.setPwr, hon, hin, hcause])]

/-! ### A module reset -/

theorem stopBells_life (s : State) : s.stopBells.life = s.life := rfl

theorem clk_found (s : State) (c : Clk) : s.Found { s with clk := c } := found_of_parts rfl rfl rfl rfl rfl

theorem stopBells_found (s : State) : s.Found s.stopBells :=
  { judged_of_parts rfl rfl rfl with count := rfl, period := rfl, reset := rfl, disable := rfl }

theorem resetBegins_life (s : State) : s.resetBegins.life = s.life :=
  life_of_mask (P := [.free, .out, .rdma, .ledger, .bell, .fns, .sqs, .cqs, .due, .aborts, .zones, .units, .rand, .media, .staged, .jobs, .cores,
    .hamlets, .disp, .dram, .loft, .health, .events, .eventSeq, .clk, .pwr]) (by decide) (resetBegins_mask (List.Subset.refl _))

theorem resetBegins_found (h : s.loft.busy = []) : s.Found s.resetBegins := by
  have hlasts := settled_lasts h
  have hlife : s.settled.life = s.life := (stopBells_life _).symm.trans (resetBegins_eq s ▸ resetBegins_life s)
  rw [resetBegins_eq]
  exact (hlasts.found hlife).trans (stopBells_found _)

theorem resetBegins_reset (s : State) : s.resetBegins.pwr.reset = s.pwr.reset ∧ s.resetBegins.jobs = [] := by
  obtain ⟨x, hx, heq⟩ := settled_eq s
  have hpower : s.settled.power = s.power := by
    rw [heq, (dropJobs_lasts _).power]
    refine Eq.trans ?_ hx.power
    exact congrArg (fun p : Pwr => (p.on, p.reset, p.disable)) (pwr_of_mask (P := [.free, .loft]) (by decide) (abortErases_mask (List.Subset.refl _)))
  have hstop : ∀ v : State, v.stopBells.pwr.reset = v.pwr.reset ∧ v.stopBells.jobs = v.jobs := fun _ => ⟨rfl, rfl⟩
  rw [resetBegins_eq, (hstop _).1, (hstop _).2]
  refine ⟨congrArg (·.2.1) hpower, ?_⟩
  rw [heq]
  exact dropJobs_jobs _

/-- The state of a module reset at its first step. -/
def State.warmBase (s : State) : State := { s.resetBegins with clk := s.resetBegins.clk.boot false true 0 s.resetBegins.calendar }

theorem warmBase_reset (s : State) : (s.warmBase.clearBoot false).pwr.reset = s.pwr.reset :=
  (reset_of_cleared (clearBoot_cleared s.warmBase false)).trans (resetBegins_reset s).1

theorem moduleReset_eq (s : State) (e : BootEnv) : s.moduleReset e = (s.warmBase.clearBoot false).begins e := by
  unfold State.moduleReset State.begins State.warmBase State.heldBoot
  dsimp only

theorem moduleReset_released (h : s.pwr.reset = false) (e : BootEnv) : s.moduleReset e = (s.warmBase.clearBoot false).runBoot e :=
  (moduleReset_eq s e).trans (begins_released ((warmBase_reset s).trans h) e)

theorem moduleReset_held (h : s.pwr.reset = true) (e : BootEnv) : s.moduleReset e = (s.warmBase.clearBoot false).heldBoot :=
  (moduleReset_eq s e).trans (begins_held ((warmBase_reset s).trans h) e)

theorem moduleReset_boots (hf : s.Found t) (hbusy : t.loft.busy = s.loft.busy) (hreset : s.pwr.reset = false) (hb : Bootable s e) :
    Booted s (t.moduleReset e) e := by
  have hidle : s.loft.busy = [] := hb.2.2.2.2.2.2.2.2.2.2.2.1
  have hbase : t.Found t.warmBase := (resetBegins_found (hbusy.trans hidle)).trans (clk_found t.resetBegins _)
  rw [moduleReset_released (hf.reset.trans hreset)]
  exact (booted_of_cleared (hf.trans hbase) (clearBoot_cleared _ false) hb).1

theorem moduleReset_completes {r : Ref} {c : Cmd} (hs : Startable s r 0x5B c) (hreset : s.pwr.reset = false) (hb : Bootable s e) :
    ∃ t, exec (.moduleReset r e) s = .next t ∧ Booted s t e := by
  obtain ⟨hwf, hstart, -⟩ := hs
  have hmask : (s.govern r [] fun s => s.ended r 0).mask [.out, .rdma, .ledger, .sqs, .cqs, .aborts, .zones] =
      s.mask [.out, .rdma, .ledger, .sqs, .cqs, .aborts, .zones] := govern_mask (List.Subset.refl _) r [] fun x => ended_mask (by decide) r 0
  refine ⟨(s.govern r [] fun s => s.ended r 0).moduleReset e, ?_, moduleReset_boots ?_ ?_ hreset hb⟩
  · change execModuleReset r e s = _
    unfold execModuleReset
    rw [if_neg (by simp [hb.1]), hstart]
  · exact (lasts_of_mask (by decide) hmask).found (life_of_mask (by decide) hmask)
  · exact congrArg Loft.busy (loft_of_mask (by decide) hmask)

theorem clk_jobs (s : State) (c : Clk) : { s with clk := c }.jobs = s.jobs := rfl

theorem heldReset_rest (s : State) : (s.warmBase.clearBoot false).heldBoot.pwr.reset = s.pwr.reset ∧
    (s.warmBase.clearBoot false).heldBoot.pwr.on = true ∧ (s.warmBase.clearBoot false).heldBoot.boot.held = true ∧
    (s.warmBase.clearBoot false).heldBoot.boot.step = 2 ∧ (s.warmBase.clearBoot false).heldBoot.boot.ready = false ∧
    (s.warmBase.clearBoot false).heldBoot.rdma = [] ∧ (s.warmBase.clearBoot false).heldBoot.jobs = [] := by
  have hc := clearBoot_cleared s.warmBase false
  have hreset := warmBase_reset s
  have hjobs : s.warmBase.jobs = [] := by
    rw [← (resetBegins_reset s).2]
    exact clk_jobs s.resetBegins _
  have hon : (s.warmBase.clearBoot false).pwr.on = true := congrArg (·.1) hc.power
  obtain ⟨hheld, hstep, hready, hpwr, hrdma, hj⟩ := heldBoot_rest (s.warmBase.clearBoot false)
  rw [hpwr]
  exact ⟨hreset, hon, hheld, hstep.trans hc.step, hready.trans hc.ready, hrdma.trans hc.rdma, hj.trans (hc.jobs.trans hjobs)⟩

theorem resetAssert_holds {us : Nat} (hus : 100 ≤ us) (hwf : e.wf = true) (hdis : s.pwr.disable = false) (hloss : s.pwr.loss = none)
    (hreset : s.pwr.reset = false) : ∃ t, exec (.resetAssert us e) s = .next t ∧ t.pwr.reset = true ∧ t.pwr.on = s.pwr.on ∧
      (s.pwr.on = true → t.boot.held = true ∧ t.boot.step = 2 ∧ t.boot.ready = false ∧ t.rdma = [] ∧ t.jobs = []) := by
  have hrun : exec (.resetAssert us e) s = if s.pwr.on then go (State.moduleReset { s with pwr := { s.pwr with reset := true } } e) else
      go { s with pwr := { s.pwr with reset := true } } := by
    change execResetAssert us e s = _
    unfold execResetAssert
    rw [if_neg (by simp [hwf]), if_neg (by simp [hreset]; omega)]
    dsimp only
    rw [hdis, hloss]
    cases s.pwr.on <;> rfl
  cases hon : s.pwr.on with
  | false =>
    rw [hon] at hrun
    exact ⟨_, hrun, rfl, hon, fun h => absurd h (by decide)⟩
  | true =>
    rw [hon, if_pos rfl, moduleReset_held rfl] at hrun
    obtain ⟨hreset, hpower, hrest⟩ := heldReset_rest { s with pwr := { s.pwr with reset := true } }
    exact ⟨_, hrun, hreset, hpower, fun _ => hrest⟩

theorem released_judged (s : State) : s.Judged { s with pwr := { s.pwr with reset := false } } := judged_of_parts rfl rfl rfl

theorem resetRelease_boots (hheld : s.boot.held = true) (hon : s.pwr.on = true) (hb : Bootable s e) :
    ∃ t, exec (.resetRelease e) s = .next t ∧ t.boot.ready = true ∧ t.boot.step = 14 ∧ t.boot.held = false ∧ t.pwr.reset = false ∧
      t.bell.boot = (s.bell.boot + 1) % 2 ^ 32 := by
  have hstop : (State.bootEntry { s with pwr := { s.pwr with reset := false } } e).stopStep e = none :=
    stopStep_none (s := s) ((released_judged s).trans (bootEntry_judged _ e)) hb
  obtain ⟨hwf, -, -, -, hbad, hfill, -, -, -, -, -, -, hms⟩ := hb
  have hup := runBoot_comesUp hms hbad hfill hstop
  refine ⟨_, ?_, hup.ready, hup.step, hup.held, congrArg (·.2.1) hup.power, hup.count⟩
  change execResetRelease e s = _
  unfold execResetRelease
  rw [if_neg (by simp [hwf])]
  dsimp only
  rw [hheld, hon]
  rfl

/-! ### Too few control cores -/

theorem controlCoreRetire_spare {n : Nat} (hn : n < 18) (hwf : e.wf = true) (hready : s.boot.ready = true) (hloss : s.pwr.loss = none)
    (hs : 0 < s.ctlSpares) : ∃ t, exec (.controlCoreRetire n e) s = .next t ∧ t.ctlSpares = s.ctlSpares - 1 ∧ t.ctlCores = s.ctlCores ∧
      Raised t 0x0040 1 0 [(32, 1, 0xFF), (33, 1, n), (34, 1, 18 - s.ctlSpares)] := by
  have hmask := event_mask (s := { s with ctlSpares := s.ctlSpares - 1 }) (List.Subset.refl _) 0x0040 1 0
    [(32, 1, 0xFF), (33, 1, n), (34, 1, 18 - s.ctlSpares)]
  refine ⟨_, ?_, (congrArg State.ctlSpares (eq_graft hmask) :), (congrArg State.ctlCores (eq_graft hmask) :), event_raised ..⟩
  change execControlCoreRetire n e s = _
  unfold execControlCoreRetire
  rw [if_neg (by simp [hwf]; omega), if_neg (by simp [hready, hloss]), if_pos hs]

theorem controlCoreRetire_counts {n : Nat} (hn : n < 18) (hwf : e.wf = true) (hready : s.boot.ready = true) (hloss : s.pwr.loss = none)
    (hs : s.ctlSpares = 0) : exec (.controlCoreRetire n e) s = if s.ctlCores - 1 < 12 then go (State.moduleReset { s with ctlCores := s.ctlCores - 1 } e)
      else go { s with ctlCores := s.ctlCores - 1 } := by
  change execControlCoreRetire n e s = _
  unfold execControlCoreRetire
  rw [if_neg (by simp [hwf]; omega), if_neg (by simp [hready, hloss]), if_neg (by omega)]

theorem fewerCores_found (s : State) (n : Nat) : s.Found { s with ctlCores := n } := found_of_parts rfl rfl rfl rfl rfl

theorem controlCoreRetire_boots {n : Nat} (hn : n < 18) (hready : s.boot.ready = true) (hloss : s.pwr.loss = none) (hs : s.ctlSpares = 0)
    (hc : s.ctlCores ≤ 12) (hreset : s.pwr.reset = false) (hb : Bootable s e) : ∃ t, exec (.controlCoreRetire n e) s = .next t ∧ Booted s t e := by
  refine ⟨_, ?_, moduleReset_boots (fewerCores_found s (s.ctlCores - 1)) rfl hreset hb⟩
  rw [controlCoreRetire_counts hn hb.1 hready hloss hs, if_pos (by omega)]

/-- Settles O53, clause by clause. -/
theorem boots : Obligations.Boots := by
  unfold Obligations.Boots
  intro s e
  refine ⟨fun ⟨hon, hdis, hlat, hin⟩ hreset => ⟨fun hb => ?_, fun hwf hrom => ?_, fun hwf hrom hlife hbank => ?_⟩, fun ⟨hon, hdis, hlat, hin⟩ hreset hwf => ?_,
    fun hdis hon hin hcause hreset hb => pwrDisableRelease_boots hb.1 hdis hon hin hcause hreset hb, fun us => resetAssert_holds,
    fun hheld hon _ hb => resetRelease_boots hheld hon hb, fun r c => moduleReset_completes, fun n hn hwf hready hloss => ⟨?_, fun hs hc => ?_, fun hs hc =>
    controlCoreRetire_boots hn hready hloss hs hc⟩⟩
  · exact ⟨_, powerGood_boots hb.1 hon hdis hlat hin, (bootCold_booted hreset hb).1⟩
  · exact ⟨_, powerGood_boots hwf hon hdis hlat hin, bootCold_stops hreset (by decide) fun _ _ => stopStep_rom hrom⟩
  · exact ⟨_, powerGood_boots hwf hon hdis hlat hin, bootCold_stops hreset (by decide) fun _ ht => stopStep_bank ht hrom hlife hbank⟩
  · have hc := clearBoot_cleared (s.coldBase e) true
    obtain ⟨hheld, hstep, hready, hpwr, -, -⟩ := heldBoot_rest ((s.coldBase e).clearBoot true)
    refine ⟨_, (powerGood_boots hwf hon hdis hlat hin).trans (congrArg Host.Outcome.next (bootCold_held hreset e)), ?_, hheld, hstep.trans hc.step,
      hready.trans hc.ready⟩
    exact (congrArg Pwr.on hpwr).trans (congrArg (·.1) hc.power)
  · exact controlCoreRetire_spare hn hwf hready hloss
  · rw [controlCoreRetire_counts hn hwf hready hloss hs, if_neg (by omega)]

end Sys2Proof.Machine
end
